-- ==== Sys2Proof/Word.lean ====
section
/-! DEFINITION. The plain types that every other file uses: a byte, and a table that lists only the keys whose
value differs from what an unlisted key holds. -/

namespace Sys2Proof

/-- One byte of memory. -/
abbrev Byte := BitVec 8

/-- A sparse table: keys strictly rising, no entry equal to the default of its key. -/
abbrev AMap (V : Type) := List (Nat × V)

end Sys2Proof
end

