-- ==== Sys2Proof/Syntax.lean ====
section
/-! DEFINITION. The commands of the block: one constructor per row of spec/opcode_table.json. A command is an
instruction of a Brick's sequencer, a descriptor or setup write that reaches the package, or an event inside it or at
its pins. Operands name the object that the command acts on, and what only the world outside the model can decide
(a measured temperature, a fault that the hardware meets, a received message). -/

namespace Sys2Proof

/-- What a Brick's hardware meets in one instruction. -/
inductive Upset where
  /-- None. -/
  | none
  /-- The exact sum that the MAC array forms in one cell of a block is off (R42): the block, the cell, whose row and column
  run to 32 for the checksum cells, and by how much, in units of the pair's least product. -/
  | checksum (block row col : Nat) (off : Int)
  /-- A sum or product that the instruction forms is off by a value, and so is its repeat from the retained operands (R530,
  R531). A value that is a multiple of 31 is no upset here: its residue shows nothing. -/
  | residue (off again : Int)
  /-- A parity error on a data path (R521): the row of R520, and whether the path is internal to the Brick. -/
  | parity (path : Nat) (internal : Bool)
  /-- An uncorrectable error at an address of the Brick's own Bed, or of its neighbour's where a MOVE reaches there (R86). -/
  | bed (neighbour : Bool) (addr : Nat)
  /-- An uncorrectable error in a Hod, at a Hod byte address as the Bond gives it (R48, R86). -/
  | hod (addr : Nat)
  /-- None: a MOVE of an attention Bond that serves one page of the key-value cache (R228): the index of the sequence, the
  key-value head, and the page's index within the stride. -/
  | page (seq head index : Nat)
  /-- None: a MOVE of an attention Bond that reads the normalised score tile of a key tile of an item (R243). -/
  | tile (item key : Nat)
  /-- None: the MOVE by which an attention Bond, as Lemwilo builds it, brings out an item of its instance (R237 to R247). -/
  | item (number : Nat)
  deriving DecidableEq, Repr

/-- What has befallen an address up to an access of it (R360 to R364, R772): to the line in its stack, to the next tries
on its pseudo-channel, or to what the external host will answer. It stays with the line or the channel until an access
meets it. -/
structure MemUpset where
  /-- Tries in a row on the pseudo-channel that will meet a link CRC error (R362). -/
  crc : Nat := 0
  /-- Symbols of the line that have failed since it was last written (R360). -/
  symbols : Nat := 0
  /-- The stack-local address, in lines, at which the data that now stand in the line were written, where it is another
  (R360). -/
  strayFrom : Option Nat := none
  /-- The external host completes the next read of the line with an error status or with poisoned data (R772). -/
  hostError : Bool := false
  /-- How long the request waited at its port, in ns (R386). -/
  waitNs : Nat := 0
  deriving DecidableEq, Repr

/-- A sequence header that a decode engine has parsed (R456): whether its profile, depth or chroma format differs from
the codec, its coded size, the reference pictures that it requires, its depth and its chroma format. -/
structure SeqHeader where
  mismatch : Bool := false
  width : Nat := 16
  height : Nat := 16
  refs : Nat := 1
  depth : Nat := 8
  chroma : Nat := 0
  deriving DecidableEq, Repr

/-- What a decode engine has found in a slice (R456 to R460): a sequence header, a fault, whether it was the frame's last
slice, the picture's cropped size, depth and chroma, its place in output order, and how many finished frames the
decoding process outputs now. -/
structure SliceReport where
  header : Option SeqHeader := none
  fault : Bool := false
  last : Bool := true
  width : Nat := 16
  height : Nat := 16
  depth : Nat := 8
  chroma : Nat := 0
  order : Nat := 0
  outputs : Nat := 1
  deriving DecidableEq, Repr

/-- The header of a received Ouvur packet (R604): its 32 bytes, and whether the authentication tag of a data packet is
right (R605).
Log entry: 152 (DESIGN CHOICE). -/
structure OvHead where
  raw : List Nat
  tagOk : Bool := true
  deriving DecidableEq, Repr

/-- What an Ouvur data packet carries (R630 to R637).
Log entry: 152 (DESIGN CHOICE). -/
inductive OvRole where
  | running | result | shard | stream | mirrorOpen | mirrorBytes | mirrorDone | mirrorRefused
  | refillOpen | refillBytes | refillRefused | stop
  deriving DecidableEq, Repr

/-- The contents of an Ouvur data packet: its group byte, tag and chunk index (R604), what it carries, a number that goes with it (the
next shard of a running value, the shard of an all-gather, mirror or refill, the status of a stop), whether it is the
last of its stream, the CRC-32C that closes a mirror or refill, the sender's context, and the payload.
Log entry: 152 (DESIGN CHOICE). -/
structure OvData where
  group : Nat := 0
  tag : Nat := 0
  chunk : Nat := 0
  role : OvRole := .stream
  num : Nat := 0
  last : Bool := false
  crc : Nat := 0
  ctx : Nat := 0
  bytes : List Nat := []
  deriving DecidableEq, Repr

/-- What the parts of Dawn find (R711 to R716): its length in ms, whether each island's firmware verifies (R560), whether
the Hearth firmware passes (R712), the version of the key store (R679) and the boot configuration's image (R681, R714) as
the boot store holds them, how many of the newest entries of the record the boot store has lost and whether its chain is broken
(R703), the maps of the stacks that trained and of the Course dies whose stepping could not be read (bit d for die d + 1),
the checkers that passed, the first that failed, and the length of their test in ms (R575 to R577). -/
structure DawnReport where
  ms : Nat := 400
  matin : Bool := true
  vesper : Bool := true
  firmware : Bool := true
  storeVersion : Nat := 0
  config : List Nat := []
  recLost : Nat := 0
  chainBroken : Bool := false
  stacksUp : Nat := 15
  unreadable : Nat := 0
  passed : Nat := 2437
  firstFailed : Option Nat := none
  injectMs : Nat := 180
  deriving DecidableEq, Repr

/-- One command. -/
inductive Instr where
  /-- DIAL_SYNC_MESSAGE: A sync message from the selected time source arrives, and Dial time slews or steps towards the reference. (R31) -/
  | dialSyncMessage (reference : Nat)
  /-- DIAL_HOLDOVER: With no sync message for three expected intervals, Dial time enters holdover and keeps its last rate correction. (R33) -/
  | dialHoldover
  /-- NIGHTWATCH_TICK: In Night and Deep Night, each 32.768 kHz tick advances Dial time, carrying the fractional remainder. (R34) -/
  | nightwatchTick
  /-- DIAL_NOW_READ: A 32-bit read of the low word of NWT_DIAL_NOW latches the high word for the next read by the same requester. (R36) -/
  | dialNowRead (port : Nat) (wide : Bool) (high : Bool)
  /-- NWT_COMMIT: A write of 1 to NWT_COMMIT checks and commits the Dial source and lock settings. (R39) -/
  | nwtCommit (value : Nat)
  /-- PCIE_LINK_UP: The endpoint reports DL_Up, and the PCIe outbound window becomes usable. (R772) -/
  | pcieLinkUp
  /-- PCIE_LINK_DOWN: DL_Up is lost, and accesses to the outbound window are refused. (R772) -/
  | pcieLinkDown
  /-- PERST_ASSERT: PERST_N goes low, which resets the PCIe domain and stops every ring whose lines lie in the outbound window. (R746) -/
  | perstAssert (samples : Nat)
  /-- NOP: The sequencer idles for one cycle. (R65) -/
  | nop (brick : Nat)
  /-- HALT: The role ends its part of the Bond. (R65) -/
  | halt (brick : Nat)
  /-- JUMP: Execution continues forward at the target. (R65) -/
  | jump (brick : Nat)
  /-- LOOP: A counted body runs count + 1 times on a loop counter. (R65) -/
  | loop (brick : Nat)
  /-- LOOPP: A body runs a number of times given by a parameter word, and is skipped for zero. (R65) -/
  | loopp (brick : Nat)
  /-- PPOINT: At a preemption point with a switch pending, every role stops together and its state is saved. (R81) -/
  | ppoint (brick : Nat)
  /-- WAIT: The sequencer idles count + 1 cycles. (R65) -/
  | wait (brick : Nat)
  /-- MMA: A tile product is formed block by block, each block checked, and folded into an accumulator tile. (R65) -/
  | mma (brick : Nat) (upset : Upset)
  /-- DRAIN: An accumulator tile is passed to the Lane unit and zeroed. (R65) -/
  | drain (brick : Nat)
  /-- UNARY: A Lane-unit unary function is applied and rounded once. (R122) -/
  | unary (brick : Nat) (upset : Upset)
  /-- BINARY: A Lane-unit binary function is applied and rounded once. (R122) -/
  | binary (brick : Nat) (upset : Upset)
  /-- REDUCE: Each 64-element vector is reduced in a fixed pairwise tree. (R124) -/
  | reduce (brick : Nat) (upset : Upset)
  /-- CONVERT: Elements are converted to the output format under the rounding field. (R132) -/
  | convert (brick : Nat) (upset : Upset)
  /-- COPY: 64 B lines are moved between the Bed, Hod, neighbour and device memory through address generators. (R777) -/
  | copy (brick : Nat) (upset : Upset)
  /-- COPYG: Lines are copied as whole blocks, and a Grout check value is written for each 4 KiB block. (R540) -/
  | copyg (brick : Nat) (upset : Upset)
  /-- QUANT: Rows are scaled and converted in present or carried mode, with side records written. (R153) -/
  | quant (brick : Nat) (upset : Upset)
  /-- NSIG: The handshake flag towards a neighbour is raised. (R65) -/
  | nsig (brick : Nat)
  /-- NWAIT: The role waits for and then clears a neighbour's handshake flag. (R65) -/
  | nwait (brick : Nat)
  /-- TSIG: A signal-add is sent to a Tie's home. (R322) -/
  | tsig (brick : Nat)
  /-- TWAITGE: A wait-until-at-least is sent to a Tie's home and the role blocks. (R322) -/
  | twaitge (brick : Nat)
  /-- TWAITEQ: A wait-until-equal is sent to a Tie's home and the role blocks. (R322) -/
  | twaiteq (brick : Nat)
  /-- BARRIER: The role waits until every non-halted role of the run reaches the barrier. (R65) -/
  | barrier (brick : Nat)
  /-- GROUTCHK: A generator is armed to check the Grout values of the next blocks read through it. (R543) -/
  | groutchk (brick : Nat)
  /-- BASE: Sets an address generator's base and restarts its sequence. (R65) -/
  | base (brick : Nat)
  /-- STRIDE: Sets the stride of one generator dimension. (R65) -/
  | stride (brick : Nat)
  /-- COUNT: Sets the count of one generator dimension. (R65) -/
  | count (brick : Nat)
  /-- BASEP: Sets a generator base from one or two parameter words. (R65) -/
  | basep (brick : Nat)
  /-- TROWEL_FETCH_LAUNCH: A Trowel takes a launch from a queue head and checks it in the fixed order. (R70) -/
  | trowelFetchLaunch (course : Nat)
  /-- LAUNCH_STAGE: A waiting launch is placed and staged once a staged slot clears. (R75) -/
  | launchStage (course : Nat)
  /-- STAGING_COMPLETE: Loading of a launch's sections into the staged slots ends. (R74) -/
  | stagingComplete (launch : Nat) (course : Nat)
  /-- BOND_ACTIVATE: A staged Bond becomes active on all its Bricks in the same cycle. (R73) -/
  | bondActivate (launch : Nat) (course : Nat)
  /-- INSTANCE_COMPLETE: Once every role has halted and every write is accepted, an run's completion is posted. (R76) -/
  | instanceComplete (launch : Nat) (course : Nat)
  /-- WCET_EXCEEDED: An run's cycle count passes wcet_cycles, so it stops with 0x0110 and its context is torn down. (R78) -/
  | wcetExceeded (launch : Nat) (course : Nat)
  /-- COURSE_WATCHDOG_EXPIRY: The Course watchdog expires, stopping every Bond on the Course with 0x0111 and tearing down the context. (R79) -/
  | courseWatchdogExpiry (course : Nat)
  /-- TROWEL_HEARTBEAT: Every 100 µs, each Trowel sends its heartbeat to both islands. (R80) -/
  | trowelHeartbeat (course : Nat)
  /-- INSTANCE_RESUME: A preempted run resumes on its same Bricks, or completes with 0x010B if any of them is fenced or reserved. (R81) -/
  | instanceResume (launch : Nat)
  /-- NEIGHBOUR_LINK_FAILURE: A neighbour link fails, so the link is fenced and the occupying run stops with 0x0114. (R86) -/
  | neighbourLinkFailure (course : Nat) (link : Nat)
  /-- TRW_COMMIT: A write of 1 to TRW_COMMIT commits the Course watchdog settings. (R97) -/
  | trwCommit (course : Nat) (value : Nat)
  /-- RC_COUNTER_READ: A read of an RC field returns its value and clears it in the same access. (R757) -/
  | rcCounterRead (port : Nat) (addr : Nat) (width : Nat)
  /-- REGISTER_WRITE: A write to a register that has no row of its own acts as its access type states. (R757) -/
  | registerWrite (port : Nat) (addr : Nat) (width : Nat) (value : Nat)
  /-- SIEVE_JOB_ACCEPT: The Sieve accepts a job into its queue, reads the record and thresholds once, and checks them. (R197) -/
  | sieveJobAccept
  /-- SIEVE_JOB_START: The next queued Sieve job starts once the previous job ends. (R207) -/
  | sieveJobStart
  /-- SIEVE_JOB_COMPLETE: A Sieve job writes its entries and summary, and its completion is posted. (R206) -/
  | sieveJobComplete
  /-- SIEVE_INTERNAL_FAULT: A comparison or parity fault stops the job with 0x0351 and disables the Sieve. (R210) -/
  | sieveInternalFault
  /-- DAY_COMMIT: A write of 1 to DAY_COMMIT reads the plan image and starts its checks. (R271) -/
  | dayCommit (value : Nat)
  /-- DAY_COMMIT_COMPLETE: The plan checks end, and the plan is refused or becomes the staged plan. (R271) -/
  | dayCommitComplete
  /-- PLAN_TAKEOVER: At the qualifying period boundary, the staged plan takes over and raises 0x0531. (R272) -/
  | planTakeover
  /-- PERIOD_BOUNDARY: A period of the active plan ends, and DAY_PERIOD_INDEX advances. (R257) -/
  | periodBoundary
  /-- WATCH_END: A Watch ends, and each of its Courses keeps its state, preempts or starts a switch. (R259) -/
  | watchEnd (watch : Nat)
  /-- SWITCH_COMPLETE: A switch's save, restore and load end, and the incoming Watch may begin. (R264) -/
  | switchComplete (course : Nat)
  /-- WATCH_START: A Watch begins, and raises 0x0530 if it is late. (R274) -/
  | watchStart (watch : Nat) (course : Nat)
  /-- WATCH_OVERRUN_EXPIRY: The overrun timer expires, stopping any outgoing run with 0x0520 and tearing down its context. (R273) -/
  | watchOverrunExpiry (course : Nat)
  /-- BRICK_TEST_COMPLETE: A Twilight test of a Brick ends, and a failing Brick is fenced. (R549) -/
  | brickTestComplete (brick : Nat) (pass : Bool) (packId : Nat) (pattern : Nat)
  /-- BRICK_TEST_OVERDUE: A Brick goes 15 minutes without a test and raises 0x0532. (R277) -/
  | brickTestOverdue (brick : Nat)
  /-- TEARDOWN_SCRUB_COMPLETE: The teardown scrub ends, and event 0x0533 is written. (R278) -/
  | teardownScrubComplete (ctx : Nat)
  /-- DOORBELL_WRITE: A flagged write to a watched doorbell line leads the ring engine to read the line. (R292) -/
  | doorbellWrite (ctx : Nat) (ring : Nat)
  /-- DOORBELL_POLL: The poll interval expires, and the ring engine reads a polled doorbell line. (R293) -/
  | doorbellPoll (ctx : Nat) (ring : Nat)
  /-- LAUNCH: A LAUNCH descriptor is checked by the ring engine and forwarded to the Trowels of its Course set. (R298) -/
  | launch (ctx : Nat) (ring : Nat)
  /-- SIEVE: A SIEVE descriptor is checked and passed to the Sieve queue. (R298) -/
  | sieve (ctx : Nat) (ring : Nat)
  /-- FENCE: A FENCE descriptor holds its ring until the earlier descriptors of its scope complete. (R308) -/
  | fence (ctx : Nat) (ring : Nat)
  /-- FENCE_RELEASE: Every earlier descriptor in scope has completed, so the fence releases its ring. (R308) -/
  | fenceRelease (ctx : Nat) (ring : Nat)
  /-- TIE_SIGNAL: A TIE_SIGNAL descriptor issues a signal-add to a Tie. (R299) -/
  | tieSignal (ctx : Nat) (ring : Nat)
  /-- TIE_WAIT: A TIE_WAIT descriptor holds its ring until a Tie condition holds. (R299) -/
  | tieWait (ctx : Nat) (ring : Nat)
  /-- TIE_RESET: A TIE_RESET descriptor sets a Tie to 0. (R299) -/
  | tieReset (ctx : Nat) (ring : Nat)
  /-- BOND_REGISTER: Keystone reads, verifies and copies an image into a free Bond store slot. (R303) -/
  | bondRegister (ctx : Nat) (ring : Nat)
  /-- BOND_REGISTER_COMPLETE: Registration ends with the handle or a refusal status. (R303) -/
  | bondRegisterComplete (ctx : Nat) (ring : Nat)
  /-- BOND_RELEASE: A BOND_RELEASE descriptor holds its ring until no launch uses the handle. (R305) -/
  | bondRelease (ctx : Nat) (ring : Nat)
  /-- BOND_RELEASE_COMPLETE: No launch names the handle any more, so the slot is freed. (R305) -/
  | bondReleaseComplete (ctx : Nat) (ring : Nat)
  /-- TIE_OPERATION: A Tie operation arrives at its home, is applied, and pending waits are evaluated. (R324) -/
  | tieOperation (home : Nat) (sender : Nat)
  /-- TIE_RELEASE: A release message reaches a die, and all its waiters on that Tie are released. (R775) -/
  | tieRelease (die : Nat) (tie : Nat)
  /-- TIE_WAIT_TIMEOUT: A pending wait's timeout expires at the home, and the wait is cancelled. (R326) -/
  | tieWaitTimeout (sender : Nat)
  /-- RING_RESTART: A write of 1 to restart bit r restarts a stopped ring. (R314) -/
  | ringRestart (ctx : Nat) (rings : Nat)
  /-- CONTEXT_TEARDOWN_REQUEST: A write of 1 to the teardown bit tears the context down with cause 0x0630. (R335) -/
  | contextTeardownRequest (ctx : Nat)
  /-- CONTEXT_OPEN: An HST_CTX_COMMIT with open staged opens a closed or torn-down context. (R336) -/
  | contextOpen (ctx : Nat) (value : Nat)
  /-- CONTEXT_CLOSE: An HST_CTX_COMMIT with open clear tears down an open context if needed, then closes it. (R336) -/
  | contextClose (ctx : Nat) (value : Nat)
  /-- HST_COMMIT: A write of 1 to HST_COMMIT commits the global ring and Tie settings. (R339) -/
  | hstCommit (value : Nat)
  /-- MEMORY_READ: A read arrives at its home controller, waits for overlapping writes, and is served and corrected. (R357) -/
  | memoryRead (port : Nat) (ctx : Nat) (addr : Nat) (len : Nat) (upset : MemUpset)
  /-- MEMORY_WRITE: A write arrives at its home and joins the pseudo-channel write queue. (R358) -/
  | memoryWrite (port : Nat) (ctx : Nat) (addr : Nat) (data : List Nat) (upset : MemUpset)
  /-- WRITE_QUEUE_DRAIN: The write queue drains on its threshold, its 2 µs age limit or an overlapping read. (R356) -/
  | writeQueueDrain (stack : Nat) (pc : Nat)
  /-- PATROL_SCRUB: Patrol scrub reads a line of the stack. (R363) -/
  | patrolScrub (stack : Nat) (upset : MemUpset)
  /-- REFRESH: A bank is refreshed. (R367) -/
  | refresh (stack : Nat) (pc : Nat) (bank : Nat)
  /-- RETRAIN_ROUND_START: A retraining round of a stack begins. (R368) -/
  | retrainRoundStart (stack : Nat)
  /-- RETRAIN_PAIR_DONE: A pair of pseudo-channels finishes retraining and resumes. (R369) -/
  | retrainPairDone (stack : Nat) (okLow : Bool) (okHigh : Bool)
  /-- STACK_TEMP_READ: The stack temperature is read every 100 µs, and the stack becomes hot or cool. (R785) -/
  | stackTempRead (stack : Nat) (temp : Int)
  /-- HBM_MAP_COMMIT: A write of 1 to HBM_MAP_COMMIT checks and applies a run of home-map entries. (R349) -/
  | hbmMapCommit (value : Nat)
  /-- MAP_COMMIT_COMPLETE: Entries are installed and frames zeroed, and the result is posted. (R352) -/
  | mapCommitComplete
  /-- HBM_SHARE_COMMIT: Every share mask is committed at once. (R385) -/
  | hbmShareCommit (value : Nat)
  /-- PLB_COMMIT: Every port's contract is checked against the ledger and committed. (R377) -/
  | plbCommit (value : Nat)
  /-- HBM_COMMIT: The HBM correction threshold is committed. (R383) -/
  | hbmCommit (stack : Nat) (value : Nat)
  /-- FLIT_RECEIVE: A Mortar flit is received, and its CRC and lane parity are checked. (R395) -/
  | flitReceive (die : Nat) (port : Nat) (flit : List Nat) (garbled : Bool) (parity : Nat) (badEye : Nat)
  /-- REPLAY_REQUEST: A replay request arrives, and the sender resends from its replay buffer. (R395) -/
  | replayRequest (die : Nat) (port : Nat) (seq : Nat)
  /-- LANE_REPAIR_MESSAGE: A sideband repair message moves a failed lane's data to a spare. (R397) -/
  | laneRepairMessage (die : Nat) (port : Nat) (epoch : Nat) (lane : Nat) (replacement : Nat) (boundary : Nat)
  /-- PORT_RETRAIN: A write of 1 to retrain starts a training under a new epoch. (R409) -/
  | portRetrain (die : Nat) (port : Nat)
  /-- TRAINING_PROPOSAL: A width proposal of the current epoch arrives, and widths are compared. (R405) -/
  | trainingProposal (die : Nat) (port : Nat) (epoch : Nat) (width : Nat) (map : Nat) (peerDie : Nat) (peerPort : Nat)
  /-- FRAMING_CHECK_END: The framing-check window ends, and the end sends READY or moves to the next attempt. (R407) -/
  | framingCheckEnd (die : Nat) (port : Nat) (passed : Bool)
  /-- TRAINING_READY: A READY message arrives, and the port comes up when both match. (R407) -/
  | trainingReady (die : Nat) (port : Nat) (epoch : Nat) (width : Nat)
  /-- SIDEBAND_SILENT: No sideband message arrives for 1 ms during training, and the port goes down. (R408) -/
  | sidebandSilent (die : Nat) (port : Nat) (failed : Bool)
  /-- MTR_LOOPBACK_COMMIT: A loopback commit drains the port and tests it for test_ms. (R421) -/
  | mtrLoopbackCommit (die : Nat) (value : Nat)
  /-- LOOPBACK_TEST_END: The loopback test ends, and the port trains under a new epoch. (R421) -/
  | loopbackTestEnd (die : Nat) (port : Nat) (errors : List Nat)
  /-- MTR_COMMIT: A write of 1 to MTR_COMMIT commits a die's staged port fields. (R428) -/
  | mtrCommit (die : Nat) (value : Nat)
  /-- BUDGET_GRANT_PERIOD: Every 100 µs, the Hearth sends each Course die a grant. (R423) -/
  | budgetGrantPeriod
  /-- BUDGET_GRANT: A Course die applies a received grant and sends its report. (R424) -/
  | budgetGrant (die : Nat)
  /-- BUDGET_REPORT: The Hearth receives a report and may send raised grants. (R425) -/
  | budgetReport (die : Nat)
  /-- GRANT_TIMEOUT: With no valid grant for 500 µs, a die caps itself and raises 0x0826. (R426) -/
  | grantTimeout (die : Nat)
  /-- REPORT_TIMEOUT: With no report from a die for 500 µs, the Hearth counts it at its last caps. (R426) -/
  | reportTimeout (die : Nat)
  /-- POWER_AGENT_SAMPLE: The die power agent measures current and power and sets its clock stretch. (R654) -/
  | powerAgentSample (die : Nat) (amps : Nat) (core : Nat) (hbm : Nat)
  /-- CSI_PACKET: A CSI-2 packet is received, checked and written, or discarded. (R432) -/
  | csiPacket (port : Nat) (vc : Nat) (dataType : Nat) (ecc : Nat) (crcOk : Bool) (payload : List Nat)
  /-- FRAME_START: A frame-start packet takes the capture time and chooses a buffer. (R442) -/
  | frameStart (stream : Nat) (vc : Nat) (ecc : Nat)
  /-- FRAME_END: A frame-end packet completes the frame, which then waits for its record. (R442) -/
  | frameEnd (stream : Nat) (vc : Nat) (ecc : Nat)
  /-- FRAME_PUBLISH: The record becomes free, so the record is written and the ready Tie signalled. (R442) -/
  | framePublish (stream : Nat)
  /-- FRAME_STALE: A waiting frame's wait is cancelled on its age, and it is dropped with 0x0910. (R440) -/
  | frameStale (stream : Nat)
  /-- SENSOR_SILENT: With no frame start for three periods, event 0x0931 is raised. (R444) -/
  | sensorSilent (stream : Nat)
  /-- CAM_STREAM_COMMIT: A camera stream or lidar template commit is checked and applied. (R436) -/
  | camStreamCommit (stream : Nat) (value : Nat)
  /-- CAM_MAC_COMMIT: A MAC's configuration is committed. (R446) -/
  | camMacCommit (mac : Nat) (value : Nat)
  /-- ETH_FRAME_RECEIVE: An Ethernet frame is stamped and sent to the parser or the host receive ring. (R447) -/
  | ethFrameReceive (mac : Nat) (fcsOk : Bool) (frame : List Nat)
  /-- ETH_FRAME_TRANSMIT: An entry passed to the device on the host transmit ring is sent and cleared. (R448) -/
  | ethFrameTransmit (mac : Nat)
  /-- BATCH_SWEEP_TIMEOUT: sweep_us passes since a batch's first packet, and the batch closes. (R451) -/
  | batchSweepTimeout (stream : Nat)
  /-- DEC_STREAM_COMMIT: A decode stream record is committed and checked. (R782) -/
  | decStreamCommit (stream : Nat) (value : Nat)
  /-- DEC_SAMPLER_COMMIT: A sampler record is committed and checked. (R782) -/
  | decSamplerCommit (sampler : Nat) (value : Nat)
  /-- CHUNK_DOORBELL: The chunk tail of a decode stream is read, or an invalid tail stops the stream. (R455) -/
  | chunkDoorbell (stream : Nat)
  /-- SLICE_COMPLETE: An engine finishes a slice and takes the next stream's slice. (R459) -/
  | sliceComplete (engine : Nat) (report : SliceReport)
  /-- DECODE_BUDGET_EXPIRY: A frame reaches its decode budget and is abandoned with 0x0922. (R457) -/
  | decodeBudgetExpiry (engine : Nat)
  /-- MANIFEST_WRITE: The release Tie permits, and a batch manifest is written and its Tie signalled. (R463) -/
  | manifestWrite (sampler : Nat)
  /-- MER_COMMIT: A Meridian commit enables, disables or reconfigures it. (R518) -/
  | merCommit (value : Nat)
  /-- MER_INSTALL: A commit with install set proposes a table image to the islands. (R489) -/
  | merInstall (value : Nat)
  /-- CYCLE_CLOSE: A Meridian cycle closes, fixes its samples and starts ego-motion and fusion. (R473) -/
  | cycleClose
  /-- FUSION_OUTPUT_COMPLETE: The fusion output header is written, and fusion_tie is signalled. (R501) -/
  | fusionOutputComplete
  /-- TRACKER_START: Detection sets arrive or track_wait_us expires, and the tracker runs. (R503) -/
  | trackerStart
  /-- TRACK_OUTPUT_COMPLETE: The track output is accepted, and track_tie is signalled. (R510) -/
  | trackOutputComplete
  /-- CALIBRATION_ANSWER: Both island answers arrive, and the candidate is adopted or discarded. (R487) -/
  | calibrationAnswer (install : Bool)
  /-- PROPOSAL_TIMEOUT: No answer comes from an island within 20 ms, and the proposal is discarded. (R487) -/
  | proposalTimeout (install : Bool)
  /-- MERIDIAN_HEARTBEAT: Every 100 µs, Meridian sends its heartbeat to both islands. (R515) -/
  | meridianHeartbeat
  /-- MERIDIAN_INTERNAL_FAULT: A datapath mismatch stops the cycle and disables Meridian. (R514) -/
  | meridianInternalFault
  /-- REPLAY_OUTCOME: A replay on a host Brick ends, and the role resumes or the launch stops. (R525) -/
  | replayOutcome (brick : Nat) (hostPass : Bool) (upset : Upset)
  /-- PACK_INSTALL: A pack commit with op 1 checks and installs a pattern pack. (R552) -/
  | packInstall (value : Nat)
  /-- PACK_REMOVE: A pack commit with op 2 removes an installed pack. (R552) -/
  | packRemove (value : Nat)
  /-- PACK_COMMIT_COMPLETE: The pack checks end, and set_version advances on acceptance. (R553) -/
  | packCommitComplete
  /-- FAB_CTX_COMMIT: A context's Grout window and capture area are committed. (R556) -/
  | fabCtxCommit (ctx : Nat) (value : Nat)
  /-- RAIL_SAMPLE: An island samples a rail and judges it against its fault window. (R563) -/
  | railSample (island : Nat) (rail : Nat) (mv : Nat)
  /-- PLL_CHECK_WINDOW: A 10 µs window of a PLL check ends, and the frequency error is judged. (R563) -/
  | pllCheckWindow (island : Nat) (pll : Nat) (errorPpm : Nat) (edges : Bool)
  /-- JUNCTION_READ: Junction sensors are read every 100 µs, and thermal faults and ceilings are judged. (R563) -/
  | junctionRead (die : Nat) (a : Int) (b : Int)
  /-- HEARTBEAT_TIMEOUT: A watched heartbeat is missing for its limit, and the island commands its state. (R563) -/
  | heartbeatTimeout (island : Nat) (source : Nat)
  /-- ISLAND_HEARTBEAT: An island sends its heartbeat to the other island. (R561) -/
  | islandHeartbeat (island : Nat)
  /-- HEARTH_HEARTBEAT: The Hearth sends each island a heartbeat with Dial time and domain states. (R561) -/
  | hearthHeartbeat
  /-- ISLAND_LINK_LOST: An island link is lost on CRC failures or silence. (R562) -/
  | islandLinkLost (island : Nat) (die : Nat) (crc : Bool)
  /-- FORWARDED_EVENT: An island receives a forwarded event or status and commands its state. (R565) -/
  | forwardedEvent (island : Nat)
  /-- SAFE_STATE_MESSAGE: A state and cause from the other island are adopted. (R567) -/
  | safeStateMessage (island : Nat)
  /-- SILENT_COMMAND: A die receives a silent command and stops its work. (R569) -/
  | silentCommand (die : Nat)
  /-- ISLAND_SELF_RESET: A lockstep disagreement, watchdog expiry or supply fault resets the island. (R561) -/
  | islandSelfReset (island : Nat) (why : Nat)
  /-- ISLAND_RESTART_COMPLETE: The island restarts and resumes monitoring. (R561) -/
  | islandRestartComplete (island : Nat) (verified : Bool)
  /-- SS_OUTPUT_PHASE: A safe-state output phase ends, and the output toggles. (R571) -/
  | ssOutputPhase (island : Nat)
  /-- MAILBOX_DEGRADED: Mailbox command 0x01 commands degraded with cause 0x38. (R601) -/
  | mailboxDegraded (port : Nat) (island : Nat)
  /-- MAILBOX_SILENT: Mailbox command 0x02 commands silent with cause 0x38. (R601) -/
  | mailboxSilent (port : Nat) (island : Nat)
  /-- CALIBRATION_PROPOSAL: An island checks a refinement proposal and approves or refuses it. (R581) -/
  | calibrationProposal (island : Nat)
  /-- INSTALLATION_PROPOSAL: An island checks an installation proposal against Keystone's notice. (R583) -/
  | installationProposal (island : Nat)
  /-- OUVUR_HEARTBEAT_SEND: Every 20 µs, a heartbeat is sent on each port that is up. (R610) -/
  | ouvurHeartbeatSend
  /-- OUVUR_HEARTBEAT: A heartbeat is received, used for time and checked for roster and ID. (R610) -/
  | ouvurHeartbeat (port : Nat) (head : OvHead) (t3 : Nat) (t4 : Nat) (depth : Nat)
  /-- HEARTBEAT_MISS_INTERVAL: A 20 µs interval ends without a heartbeat, and suspicion may follow. (R611) -/
  | heartbeatMissInterval (port : Nat)
  /-- SUSPICION_REPORT: A suspicion report is received, forwarded and counted towards confirmation. (R612) -/
  | suspicionReport (port : Nat) (head : OvHead) (suspect : Nat) (reporter : Nat) (epoch : Nat)
  /-- SETTLE_WINDOW_END: The coordinator's settle window ends, and it floods a proposal. (R614) -/
  | settleWindowEnd
  /-- OUVUR_PROPOSAL: A membership proposal is received and acknowledged. (R616) -/
  | ouvurProposal (port : Nat) (head : OvHead) (epoch : Nat) (coord : Nat) (members : Nat)
  /-- ACKNOWLEDGEMENT: Acknowledgements are merged, and quorum may lead to a commit. (R616) -/
  | acknowledgement (port : Nat) (head : OvHead) (epoch : Nat) (coord : Nat) (acked : Nat)
  /-- OUVUR_COMMIT: An epoch commit is installed, and transfers end. (R617) -/
  | ouvurCommit (port : Nat) (head : OvHead) (epoch : Nat) (coord : Nat) (members : Nat)
  /-- EXCLUSION_NOTICE: An exclusion notice puts the package in the excluded state. (R623) -/
  | exclusionNotice (port : Nat) (head : OvHead)
  /-- NO_QUORUM_TIMEOUT: A suspicion unresolved for 4 ms leads to the no-quorum state. (R619) -/
  | noQuorumTimeout
  /-- REJOIN_READY: The rejoin conditions hold, and the rejoin flag is set. (R624) -/
  | rejoinReady
  /-- OUVUR_LINK_RETRAIN: A down Ouvur link retrains every 100 ms. (R606) -/
  | ouvurLinkRetrain (port : Nat) (works : Bool) (identity : List Nat)
  /-- LINK_KEY_RENEWAL: Link keys are renewed hourly or after 2^32 packets. (R697) -/
  | linkKeyRenewal (port : Nat) (works : Bool) (identity : List Nat)
  /-- OUVUR_DATA: A data packet is received and dropped on epoch mismatch, or folded into its transfer. (R620) -/
  | ouvurData (port : Nat) (head : OvHead) (ctx : Nat) (data : OvData)
  /-- OUVUR_READY: A ready packet lets the member send chunks to its successor. (R634) -/
  | ouvurReady (port : Nat) (head : OvHead) (ctx : Nat) (group : Nat) (tag : Nat)
  /-- ALL_REDUCE: An all-reduce transfer runs along the fixed chain. (R630) -/
  | allReduce (ctx : Nat)
  /-- ALL_GATHER: An all-gather writes every shard in order on every member. (R632) -/
  | allGather (ctx : Nat)
  /-- BROADCAST: The first member's contributions are written to every member. (R632) -/
  | broadcast (ctx : Nat)
  /-- SEND: Bytes are sent to a peer's matching receive. (R632) -/
  | send (ctx : Nat)
  /-- RECEIVE: A matching send's bytes are received. (R632) -/
  | receive (ctx : Nat)
  /-- MIRROR: An outbound shard streams to the partner's inbound slot. (R636) -/
  | mirror (ctx : Nat)
  /-- REFILL: The partner's newest complete slot is written back, or the shard is declared lost. (R637) -/
  | refill (ctx : Nat)
  /-- TRANSFER_TIMEOUT: A partner does not send ready within timeout_us, and the transfer ends with 0x0D23. (R634) -/
  | transferTimeout (ctx : Nat)
  /-- DRILL_END: The drill window ends, and the package resumes and rejoins. (R638) -/
  | drillEnd
  /-- OVR_COMMIT: The global Ouvur settings are committed. (R639) -/
  | ovrCommit (value : Nat)
  /-- OVR_REJOIN: A write of 1 to rejoin in OVR_REQ permits one rejoin. (R624) -/
  | ovrRejoin (value : Nat)
  /-- OVR_Q_COMMIT: A context's Ouvur queue settings are committed. (R640) -/
  | ovrQCommit (ctx : Nat) (value : Nat)
  /-- COURSE_RETAIN: No Watch names the Course soon, so it enters retain. (R645) -/
  | courseRetain (course : Nat)
  /-- COURSE_OFF: A Course whose state belongs to no context is switched off. (R645) -/
  | courseOff (course : Nat)
  /-- COURSE_WAKE: A Course wakes early enough to be active for its Watch. (R646) -/
  | courseWake (course : Nat)
  /-- PWR_COMMIT: The power and cooling settings are committed. (R675) -/
  | pwrCommit (value : Nat)
  /-- FORECAST_POST: A write to PWR_FCAST_POST reads and checks a forecast. (R658) -/
  | forecastPost (seq : Nat)
  /-- FORECAST_STALE: A forecast goes stale and raises 0x0E35. (R660) -/
  | forecastStale
  /-- THERMISTOR_SAMPLE: Coolant thermistors are sampled and combined. (R662) -/
  | thermistorSample (tinA : Nat) (tinB : Nat) (toutA : Nat) (toutB : Nat)
  /-- FLOW_PULSE: A filtered rising edge arrives on a flow input. (R661) -/
  | flowPulse (input : Nat) (samples : Nat)
  /-- FLOW_MEASURE: Flow is measured every 10 ms from the pulse periods. (R663) -/
  | flowMeasure
  /-- CALORIMETRIC_CHECK: Every 10 s, the calorimetric heat is compared with electrical power. (R664) -/
  | calorimetricCheck (hearth : Nat)
  /-- COOL_REQ_UPDATE: Every 10 ms, the COOL_REQ duty is recomputed. (R666) -/
  | coolReqUpdate
  /-- THERMAL_TRIP: A junction at 130 °C or a CATTRIP stops every PLL and drives THERMTRIP_N low. (R673) -/
  | thermalTrip
  /-- THERMAL_TRIP_RELEASE: After PWR_GOOD has been low for 10 s, THERMTRIP_N is released. (R673) -/
  | thermalTripRelease
  /-- PROVISION_INSTALLER_SLOT: A request provisions an installer key slot. (R690) -/
  | provisionInstallerSlot (value : Nat)
  /-- REVOKE_INSTALLER_SLOT: A request revokes an installer slot and invalidates its handles. (R694) -/
  | revokeInstallerSlot (value : Nat)
  /-- PROVISION_OPERATOR_SLOT: A request provisions an operator key slot. (R690) -/
  | provisionOperatorSlot (value : Nat)
  /-- REVOKE_OPERATOR_SLOT: A request revokes an operator key slot. (R690) -/
  | revokeOperatorSlot (value : Nat)
  /-- DEBUG_UNLOCK: A half of a joint debug unlock is accepted, and the second half opens the port. (R698) -/
  | debugUnlock (value : Nat)
  /-- DEBUG_HALF_EXPIRY: A pending debug-unlock half expires after 300 s. (R692) -/
  | debugHalfExpiry
  /-- RETEST_BRICKS: An operator retest of named Bricks is passed to the fabric. (R535) -/
  | retestBricks (value : Nat)
  /-- DRILL: An operator drill is passed to Ouvur, which starts it. (R638) -/
  | drill (value : Nat)
  /-- RAISE_FIRMWARE_MINIMUM: A maker request raises the fused firmware minimum. (R690) -/
  | raiseFirmwareMinimum (value : Nat)
  /-- RAISE_POLICY_MINIMUM: An installer request raises a policy minimum. (R690) -/
  | raisePolicyMinimum (value : Nat)
  /-- POLICY_REGISTER: A policy image is verified and stored in a slot. (R683) -/
  | policyRegister (value : Nat)
  /-- POLICY_RELEASE: A policy handle is released. (R684) -/
  | policyRelease (value : Nat)
  /-- ATTESTATION_REPORT: A signed attestation report is written for a nonce. (R699) -/
  | attestationReport (value : Nat)
  /-- COPY_RECORD: The whole record is copied to the host partition. (R704) -/
  | copyRecord (value : Nat)
  /-- COPY_CERTIFICATE_CHAIN: The identity certificate chain is copied out. (R704) -/
  | copyCertificateChain (value : Nat)
  /-- RECORD_WRITE_BACK: The record is written back to the boot store. (R703) -/
  | recordWriteBack
  /-- KEYSTONE_INTERNAL_FAULT: A Keystone fault or glitch detector raises 0x0F30. (R705) -/
  | keystoneInternalFault
  /-- PWR_GOOD_RISE: PWR_GOOD rises, and a cold or warm Dawn starts. (R706) -/
  | pwrGoodRise (straps : List Nat) (samples : Nat)
  /-- PWR_GOOD_FALL: PWR_GOOD falls, and every die except Nightwatch and the islands stops. (R708) -/
  | pwrGoodFall (samples : Nat)
  /-- WARM_RST_FALL: A filtered fall of WARM_RST_N begins a warm reset, or wakes from Deep Night. (R744) -/
  | warmRstFall (samples : Nat)
  /-- WAKE_N_FALL: A filtered low on WAKE_N ends Night. (R723) -/
  | wakeNFall (samples : Nat)
  /-- DIAL_ALARM: Dial time reaches NWT_NIGHT_WAKE_AT and ends Night. (R723) -/
  | dialAlarm
  /-- INPUT_STUCK: An input stays active past its stuck limit and is latched stuck. (R741) -/
  | inputStuck (input : Nat)
  /-- RESET_WARM: A warm reset request is checked and starts a warm Dawn. (R706) -/
  | resetWarm (value : Nat)
  /-- RESET_COLD: A cold reset request is checked and starts a cold Dawn. (R706) -/
  | resetCold (value : Nat) (straps : List Nat)
  /-- RESET_PARTIAL: A partial reset request resets one Course die. (R716) -/
  | resetPartial (value : Nat)
  /-- DAWN_COMPLETE: Dawn ends, the package is released, and 0x1030 is raised. (R711) -/
  | dawnComplete (report : DawnReport)
  /-- PARTIAL_RESET_COMPLETE: The die takes launches again, and 0x1032 is raised. (R716) -/
  | partialResetComplete (passed : Bool) (ms : Nat)
  /-- NIGHT: A Night commit with target 1 enters Night. (R721) -/
  | night (value : Nat)
  /-- DEEP_NIGHT: A Night commit with target 2 enters Deep Night and drops PWR_EN_MAIN. (R725) -/
  | deepNight (value : Nat)
  /-- NIGHT_ENTRY_COMPLETE: Night entry ends with domains switched off. (R721) -/
  | nightEntryComplete
  /-- NIGHT_EXIT_COMPLETE: Night exit ends, rings resume, and 0x1031 is raised. (R723) -/
  | nightExitComplete
  /-- NIGHTWATCH_HEARTBEAT: A Nightwatch heartbeat is sent to the islands in Night. (R722) -/
  | nightwatchHeartbeat
  /-- NWT_INPUT_COMMIT: The input filters are committed. (R754) -/
  | nwtInputCommit (value : Nat)
  /-- RETRAIN_PAIR_START: After the 20 µs gap that follows a retrained pair, the next pair of pseudo-channels stops accepting requests and drains its write queues. (R369) -/
  | retrainPairStart (stack : Nat)
  /-- LANE_MEASUREMENT_COMPLETE: An end in training finishes measuring its receive lanes and sends its width proposal with its good-lane map. (R405) -/
  | laneMeasurementComplete (die : Nat) (port : Nat) (good : Nat)
  /-- FRAMING_LOSS: A receiving end of an up Mortar port loses framing and enters training under a newer width epoch. (R410) -/
  | framingLoss (die : Nat) (port : Nat)
  /-- OUVUR_LINK_DOWN: An Ouvur link fails its correction layer, goes down and raises event 0x0D34. (R606) -/
  | ouvurLinkDown (port : Nat)
  /-- OUVUR_RETRANSMIT_REQUEST: A sender receives a request for retransmission and resends from its 64-packet replay buffer. (R605) -/
  | ouvurRetransmitRequest (port : Nat) (seq : Nat)
  /-- ISLAND_RESET_ASSERT: MATIN_RST_N or VESPER_RST_N goes low past the island's 5 µs filter, and the island resets and holds its safe-state output low. (R740) -/
  | islandResetAssert (island : Nat)
  /-- ISLAND_RESET_RELEASE: An island's reset input rises after its supply is in range, and the island verifies its firmware and starts monitoring. (R739) -/
  | islandResetRelease (island : Nat) (verified : Bool)
  /-- WARM_RST_RISE: WARM_RST_N returns high after its filtered fall, and step 1 of the warm Dawn begins. (R744) -/
  | warmRstRise (samples : Nat)
  /-- NIGHTWATCH_SUPPLY_UP: VDD_NW enters range, Nightwatch starts, and PWR_EN_MAIN rises within 5 ms. (R737) -/
  | nightwatchSupplyUp
  /-- NIGHTWATCH_SUPPLY_LOSS: The Nightwatch supply is lost, which loses Dial time, trip_seen and the retained state and makes the next Dawn cold. (R706) -/
  | nightwatchSupplyLoss
  /-- PERST_DEASSERT: PERST_N returns high, the PCIe domain leaves reset and link training begins. (R746) -/
  | perstDeassert (samples : Nat)
  /-- PEER_APPROVAL: An island learns over the inter-island link that both islands approved a proposal, then debits its allowances and adopts the candidate. (R582) -/
  | peerApproval (island : Nat)
  deriving DecidableEq, Repr

end Sys2Proof
end

