-- ==== Sys2Proof/Decode.lean ====
section
/-! DEFINITION. The words of the command table. No row of the table has bits: a command is an event or an access, not a
word, and the 16 B instructions of a Brick and the 64 B descriptors are read from memory by the meanings of their
commands (Machine/Operands.lean, Machine/Rings.lean). -/

namespace Sys2Proof

/-- The command that a word spells by the bits of the command table: none, since the table gives no row any bits.
Log entry: 2 (DESIGN CHOICE). -/
def decodeTableWord (_nbits _w : Nat) : Option Instr := none

end Sys2Proof
end

