-- ==== Sys2Proof/Machine/Bits.lean ====
section
/-! DEFINITION. Bit fields, signed fields, byte order and small list helpers. Multi-byte fields are little-endian,
and bit 0 is the least significant bit (R8). -/

namespace Sys2Proof.Machine

/-- Bits lo and on of n, w of them. -/
def bits (n lo w : Nat) : Nat := n / 2 ^ lo % 2 ^ w

/-- Bit i of n. -/
def bit (n i : Nat) : Bool := n / 2 ^ i % 2 == 1

/-- n with bit i set to b. -/
def setBit (n i : Nat) (b : Bool) : Nat :=
  if bit n i then (if b then n else n - 2 ^ i) else (if b then n + 2 ^ i else n)

/-- A Bool as 0 or 1. -/
def b2n (b : Bool) : Nat := if b then 1 else 0

/-- The w-bit two's complement reading of n. -/
def sext (n w : Nat) : Int := if n % 2 ^ w < 2 ^ (w - 1) then (n % 2 ^ w : Nat) else (n % 2 ^ w : Nat) - (2 ^ w : Nat)

/-- The w-bit two's complement coding of z, taken modulo 2^w. -/
def enc (z : Int) (w : Nat) : Nat := (z % (2 ^ w : Nat)).toNat

/-- n held below or at a limit (a saturating count). -/
def satTo (n limit : Nat) : Nat := if n ≤ limit then n else limit

/-- The little-endian number that a list of byte values spells. -/
def leNat : List Nat → Nat
  | [] => 0
  | b :: r => b + 256 * leNat r

/-- The n low bytes of v, lowest first. -/
def leBytes : (n v : Nat) → List Nat
  | 0, _ => []
  | n + 1, v => v % 256 :: leBytes n (v / 256)

/-- The big-endian number that a list of byte values spells (R8: signatures, keys, digests). -/
def beNat (l : List Nat) : Nat := l.foldl (fun a b => a * 256 + b) 0

/-- The n low bytes of v, highest first. -/
def beBytes (n v : Nat) : List Nat := (leBytes n v).reverse

/-- Bytes lo and on of a record, n of them; bytes past its end are 0. -/
def slice (l : List Nat) (lo n : Nat) : List Nat :=
  let t := (l.drop lo).take n
  t ++ List.replicate (n - t.length) 0

/-- The little-endian field of n bytes at byte lo of a record. -/
def fld (l : List Nat) (lo n : Nat) : Nat := leNat (slice l lo n)

/-- The big-endian field of n bytes at byte lo of a record. -/
def fldBE (l : List Nat) (lo n : Nat) : Nat := beNat (slice l lo n)

/-- Whether bytes lo and on of a record, n of them, are all 0. -/
def zeroAt (l : List Nat) (lo n : Nat) : Bool := (slice l lo n).all (· == 0)

/-- Whether every element of a list is at or above the one before it. -/
def ascending : List Nat → Bool
  | a :: b :: r => a ≤ b && ascending (b :: r)
  | _ => true

/-- a divided by b, rounded up. -/
def divUp (a b : Nat) : Nat := (a + b - 1) / b

/-- Replace element i of a list. -/
def setAt {α : Type} : List α → Nat → α → List α
  | [], _, _ => []
  | _ :: r, 0, v => v :: r
  | a :: r, n + 1, v => a :: setAt r n v

/-- Change element i of a list. -/
def modAt {α : Type} : List α → Nat → (α → α) → List α
  | [], _, _ => []
  | a :: r, 0, f => f a :: r
  | a :: r, n + 1, f => a :: modAt r n f

/-- The sum of a list of naturals. -/
def sumNat (l : List Nat) : Nat := l.foldl (· + ·) 0

/-- The first index below n for which p holds. -/
def firstIdx (n : Nat) (p : Nat → Bool) : Option Nat := (List.range n).find? p

/-- How many elements satisfy p. -/
def countIf {α : Type} (l : List α) (p : α → Bool) : Nat := (l.filter p).length

/-- How many of the w low bits of n are set. -/
def popcount (n w : Nat) : Nat := countIf (List.range w) (bit n)

/-- Whether two ranges of addresses, each a base and a length, share an address. -/
def overlap (a n b m : Nat) : Bool := decide (0 < n) && decide (0 < m) && decide (a < b + m) && decide (b < a + n)

end Sys2Proof.Machine
end

