-- ==== Sys2Proof/Machine/Ecdsa.lean ====
section
/-! DEFINITION. Verification of an ECDSA signature on curve P-384 over SHA-384 (R55, R680). -/

namespace Sys2Proof.Machine

/-- The field prime of P-384. -/
def p384P : Nat := 2 ^ 384 - 2 ^ 128 - 2 ^ 96 + 2 ^ 32 - 1

/-- The order of the base point of P-384. -/
def p384N : Nat := 0xFFFFFFFFFFFFFFFFFFFFFFFFFFFFFFFFFFFFFFFFFFFFFFFFC7634D81F4372DDF581A0DB248B0A77AECEC196ACCC52973

/-- The coefficient b of P-384. -/
def p384B : Nat := 0xB3312FA7E23EE7E4988E056BE3F82D19181D9C6EFE8141120314088F5013875AC656398D8A2ED19D2A85C8EDD3EC2AEF

/-- The base point of P-384. -/
def p384G : Nat × Nat :=
  (0xAA87CA22BE8B05378EB1C71EF320AD746E1D3B628BA79B9859F741E082542A385502F25DBF55296C3A545E3872760AB7,
   0x3617DE4A96262C6F5D9E98BF9292DC29F8F41DBD289A147CE9DA3113B5F0B8C00A60B1CE1D7E819D7A431D7C90EA0E5F)

/-- The power b^e modulo m, e of at most n bits, highest bit first. -/
def powMod (m b e : Nat) : Nat → Nat → Nat
  | 0, acc => acc
  | n + 1, acc => powMod m b e n (let q := acc * acc % m; if bit e n then q * b % m else q)

/-- The inverse modulo a prime of at most 384 bits. -/
def invMod (a m : Nat) : Nat := powMod m (a % m) (m - 2) 384 1

/-- The difference modulo m of two reduced numbers. -/
def subMod (a b m : Nat) : Nat := (a + m - b) % m

/-- A point of the curve in Jacobian coordinates: (x / z², y / z³), the point at infinity where z is 0. -/
structure JPoint where
  x : Nat
  y : Nat
  z : Nat
  deriving DecidableEq, Repr

/-- The point at infinity. -/
def jInfinity : JPoint := ⟨1, 1, 0⟩

/-- A product modulo the field prime. -/
def mulP (a b : Nat) : Nat := a * b % p384P

/-- A difference modulo the field prime. -/
def subP (a b : Nat) : Nat := subMod a b p384P

/-- Twice a point. -/
def jDouble (a : JPoint) : JPoint :=
  if a.z = 0 ∨ a.y = 0 then jInfinity
  else
    let d := mulP a.z a.z
    let g := mulP a.y a.y
    let b := mulP a.x g
    let e := mulP 3 (mulP (subP a.x d) ((a.x + d) % p384P))
    let x := subP (mulP e e) (mulP 8 b)
    ⟨x, subP (mulP e (subP (mulP 4 b) x)) (mulP 8 (mulP g g)), mulP 2 (mulP a.y a.z)⟩

/-- Sum of two points. -/
def jAdd (a b : JPoint) : JPoint :=
  if a.z = 0 then b
  else if b.z = 0 then a
  else
    let za := mulP a.z a.z
    let zb := mulP b.z b.z
    let u := mulP a.x zb
    let v := mulP a.y (mulP zb b.z)
    let h := subP (mulP b.x za) u
    let r := subP (mulP b.y (mulP za a.z)) v
    if h = 0 then (if r = 0 then jDouble a else jInfinity)
    else
      let h2 := mulP h h
      let h3 := mulP h2 h
      let uh := mulP u h2
      let x := subP (subP (mulP r r) h3) (mulP 2 uh)
      ⟨x, subP (mulP r (subP uh x)) (mulP v h3), mulP h (mulP a.z b.z)⟩

/-- A multiple of a point: k of at most n bits, highest bit first. -/
def jMul (k : Nat) (q : JPoint) : Nat → JPoint → JPoint
  | 0, acc => acc
  | n + 1, acc => jMul k q n (let d := jDouble acc; if bit k n then jAdd d q else d)

/-- Whether a public key is a point of the curve. -/
def onCurve (x y : Nat) : Bool :=
  decide (x < p384P) && decide (y < p384P) && (y * y + 3 * x) % p384P == (x * x * x + p384B) % p384P

/-- Whether (r, s) is a signature of a message under the public key (x, y).
Log entry: 13 (PRESUMED). -/
def ecdsaVerify (x y : Nat) (msg : List Nat) (r sg : Nat) : Bool :=
  if r = 0 ∨ p384N ≤ r ∨ sg = 0 ∨ p384N ≤ sg ∨ !onCurve x y then false
  else
    let z := beNat (sha384 msg)
    let w := invMod sg p384N
    let c := jAdd (jMul (z * w % p384N) ⟨p384G.1, p384G.2, 1⟩ 384 jInfinity) (jMul (r * w % p384N) ⟨x, y, 1⟩ 384 jInfinity)
    let i := invMod c.z p384P
    c.z != 0 && mulP c.x (mulP i i) % p384N == r

/-- A point's coordinates x and y. -/
def jAffine (q : JPoint) : Nat × Nat :=
  let i := invMod q.z p384P
  let i2 := mulP i i
  (mulP q.x i2, mulP q.y (mulP i2 i))

/-- The multiple of the base point by a number, as a point. -/
def timesG (k : Nat) : Nat × Nat := jAffine (jMul k ⟨p384G.1, p384G.2, 1⟩ 384 jInfinity)

/-- A number from 1 to the order less 1, from any number. -/
def scalar384 (k : Nat) : Nat := k % (p384N - 1) + 1

/-- The signature r and s of a message under a private key, with the random number of the signing.
Log entries: 13 (PRESUMED), 170 (DEDUCED). -/
def ecdsaSign (d k : Nat) (msg : List Nat) : Nat × Nat :=
  let r := (timesG k).1 % p384N
  (r, invMod k p384N * ((beNat (sha384 msg) + r * d) % p384N) % p384N)

/-- The signature block of R55: prefix, r and s in big-endian order, and 16 bytes of zeros. -/
def sigR (blk : List Nat) : Nat := fldBE blk 16 48

/-- The s of a signature block. -/
def sigS (blk : List Nat) : Nat := fldBE blk 64 48

/-- Whether a signature block is well formed for a key slot (R784). -/
def sigBlockOk (blk : List Nat) (slot : Nat) : Bool := blk.getD 0 0 == slot && zeroAt blk 1 15 && zeroAt blk 112 16

end Sys2Proof.Machine
end

