-- ==== Sys2Proof/Machine/Aes.lean ====
section
/-! DEFINITION. AES-256 (FIPS 197) and its XTS mode over one 64 B line (IEEE 1619), by which the HBM controllers encrypt
(R685). -/

namespace Sys2Proof.Machine

/-- Twice an element of AES's field. -/
def aesDouble (b : Nat) : Nat := if b < 128 then 2 * b else (2 * b) ^^^ 0x11B

/-- The product of two elements of AES's field: the lowest n bits of b. -/
def aesMul (a b : Nat) : Nat → Nat
  | 0 => 0
  | n + 1 => (if b % 2 = 1 then a else 0) ^^^ aesMul (aesDouble a) (b / 2) n

/-- The product of two bytes in AES's field. -/
def aesTimes (a b : Nat) : Nat := aesMul a b 8

/-- The inverse of an element of AES's field, a to the power 254; 0 for 0. -/
def aesInv (a : Nat) : Nat :=
  let a2 := aesTimes a a
  let a3 := aesTimes a2 a
  let a12 := aesTimes (aesTimes a3 a3) (aesTimes a3 a3)
  let a15 := aesTimes a12 a3
  let a30 := aesTimes a15 a15
  let a60 := aesTimes a30 a30
  let a120 := aesTimes a60 a60
  let a126 := aesTimes a120 (aesTimes a3 a3)
  let a127 := aesTimes a126 a
  aesTimes a127 a127

/-- A byte turned n bits to the left. -/
def rol8 (b n : Nat) : Nat := (b * 2 ^ n + b / 2 ^ (8 - n)) % 256

/-- The substitution of a byte. -/
def aesSub (b : Nat) : Nat :=
  let i := aesInv b
  i ^^^ rol8 i 1 ^^^ rol8 i 2 ^^^ rol8 i 3 ^^^ rol8 i 4 ^^^ 0x63

/-- The inverse of the substitution. -/
def aesUnsub (b : Nat) : Nat := aesInv (rol8 b 1 ^^^ rol8 b 3 ^^^ rol8 b 6 ^^^ 0x05)

/-- The bitwise sum of two byte lists. -/
def xorBytes (a b : List Nat) : List Nat := (a.zip b).map (fun e => e.1 ^^^ e.2)

/-- The next word of the key schedule, word i, from the words so far, latest first. -/
def aesKeyWord (i : Nat) (w : List (List Nat)) : List Nat :=
  let t := w.headD []
  let s := if i % 8 = 0 then
      xorBytes ((t.drop 1 ++ t.take 1).map aesSub) [(List.range (i / 8 - 1)).foldl (fun r _ => aesDouble r) 1, 0, 0, 0]
    else if i % 8 = 4 then t.map aesSub
    else t
  xorBytes (w.getD 7 []) s

/-- The 15 round keys of a 32-byte key, 16 bytes each. -/
def aesRoundKeys (key : List Nat) : List (List Nat) :=
  let first := ((List.range 8).map (fun i => slice key (4 * i) 4)).reverse
  let all := ((List.range 52).foldl (fun w i => aesKeyWord (i + 8) w :: w) first).reverse
  (List.range 15).map (fun r => (all.drop (4 * r)).take 4 |>.flatten)

/-- Every row of the 16 bytes shifted: row r by r columns to the left, or back. -/
def aesShift (back : Bool) (s : List Nat) : List Nat :=
  (List.range 16).map (fun i => s.getD ((if back then i + 16 - 4 * (i % 4) else i + 4 * (i % 4)) % 16) 0)

/-- Every column multiplied by the circulant matrix of a row of coefficients. -/
def aesMix (m : List Nat) (s : List Nat) : List Nat :=
  (List.range 16).map (fun i =>
    (List.range 4).foldl (fun a k => a ^^^ aesTimes (s.getD (i / 4 * 4 + k) 0) (m.getD ((k + 4 - i % 4) % 4) 0)) 0)

/-- A 16-byte block encrypted under round keys. -/
def aesEncrypt (ks : List (List Nat)) (b : List Nat) : List Nat :=
  let s := (List.range 13).foldl (fun s r =>
    xorBytes (aesMix [2, 3, 1, 1] (aesShift false (s.map aesSub))) (ks.getD (r + 1) [])) (xorBytes b (ks.headD []))
  xorBytes (aesShift false (s.map aesSub)) (ks.getD 14 [])

/-- A 16-byte block decrypted under round keys. -/
def aesDecrypt (ks : List (List Nat)) (b : List Nat) : List Nat :=
  let s := (List.range 13).foldl (fun s r =>
    aesMix [14, 11, 13, 9] (xorBytes ((aesShift true s).map aesUnsub) (ks.getD (13 - r) []))) (xorBytes b (ks.getD 14 []))
  xorBytes ((aesShift true s).map aesUnsub) (ks.headD [])

/-- The tweaks of the four blocks of a line: the encrypted line number, doubled from block to block. -/
def xtsTweaks (key2 : List Nat) (line : Nat) : List (List Nat) :=
  let double := fun (t : Nat) => if 2 ^ 127 ≤ t then (2 * t % 2 ^ 128) ^^^ 0x87 else 2 * t
  let t0 := fld (aesEncrypt (aesRoundKeys key2) (leBytes 16 line)) 0 16
  [t0, double t0, double (double t0), double (double (double t0))].map (leBytes 16)

/-- One 64 B data unit under a pair of 32-byte keys and a line number: each block between two sums with its tweak. -/
def xtsLine (block : List (List Nat) → List Nat → List Nat) (key1 key2 : List Nat) (line : Nat) (data : List Nat) : List Nat :=
  let ks := aesRoundKeys key1
  ((List.range 4).zip (xtsTweaks key2 line)).flatMap (fun e =>
    xorBytes (block ks (xorBytes (slice data (16 * e.1) 16) e.2)) e.2)

/-- A line encrypted (R685).
Log entry: 13 (PRESUMED). -/
def xtsEncrypt (key1 key2 : List Nat) (line : Nat) (data : List Nat) : List Nat := xtsLine aesEncrypt key1 key2 line data

/-- A line decrypted (R685). -/
def xtsDecrypt (key1 key2 : List Nat) (line : Nat) (data : List Nat) : List Nat := xtsLine aesDecrypt key1 key2 line data

end Sys2Proof.Machine
end

