-- ==== Sys2Proof/Machine/AMap.lean ====
section
/-! DEFINITION. Reading and writing sparse tables. A table keeps its keys strictly rising and lists no entry that
equals the default of its key, so that equal tables are equal data. -/

namespace Sys2Proof.Machine

/-- The value at key k, d where k is not listed. -/
def aget {V : Type} : AMap V → Nat → V → V
  | [], _, d => d
  | (a, v) :: r, k, d => if a = k then v else aget r k d

/-- Put v at key k, in the key order. -/
def aput {V : Type} : AMap V → Nat → V → AMap V
  | [], k, v => [(k, v)]
  | (a, w) :: r, k, v => if k < a then (k, v) :: (a, w) :: r else if k = a then (k, v) :: r else (a, w) :: aput r k v

/-- Take key k out. -/
def adel {V : Type} : AMap V → Nat → AMap V
  | [], _ => []
  | (a, w) :: r, k => if k = a then adel r k else (a, w) :: adel r k

/-- Write v at key k, where d is what an unlisted k reads as. -/
def aset {V : Type} [DecidableEq V] (m : AMap V) (k : Nat) (v d : V) : AMap V :=
  if v = d then adel m k else aput m k v

/-- Take out every key from lo up to but not including hi. -/
def aclear {V : Type} (m : AMap V) (lo hi : Nat) : AMap V :=
  m.filter (fun e => e.1 < lo || hi ≤ e.1)

/-- The canonical form: keys strictly rising from above `lo`, and no entry equal to its key's default. -/
def awfFrom {V : Type} [DecidableEq V] (d : Nat → V) : Nat → AMap V → Bool
  | _, [] => true
  | lo, (a, v) :: r => decide (lo ≤ a) && decide (v ≠ d a) && awfFrom d (a + 1) r

/-- The canonical form of a whole table. -/
def awf {V : Type} [DecidableEq V] (d : Nat → V) (m : AMap V) : Bool := awfFrom d 0 m

end Sys2Proof.Machine
end

