-- ==== Sys2Proof/Config.lean ====
section
/-! DEFINITION. What one implementation fixes, and the values that the spec leaves open. Every constant here is
opaque: nothing can be proved of its value, so a claim holds whatever the value is. -/

namespace Sys2Proof.Config

/-- Major stepping of the Hearth die (R1, 'per stepping').
Log entry: 3 (DESIGN CHOICE). -/
opaque hearthMajor : Nat
/-- Minor stepping of the Hearth die (R1, 'per stepping').
Log entry: 3 (DESIGN CHOICE). -/
opaque hearthMinor : Nat
/-- Major stepping of Course die d (R427, 'per stepping').
Log entry: 3 (DESIGN CHOICE). -/
opaque dieMajor : Nat → Nat
/-- Minor stepping of Course die d (R427, 'per stepping').
Log entry: 3 (DESIGN CHOICE). -/
opaque dieMinor : Nat → Nat
/-- Firmware version of island d, 5 or 6 (R600, 'per image').
Log entry: 3 (DESIGN CHOICE). -/
opaque islandFw : Nat → Nat
/-- A free value: the k-th value that the model draws where the spec states that some value results and not which.
The index is the counter `State.fresh`, so no two draws are related.
Log entry: 4 (DESIGN CHOICE). -/
opaque freeValue : Nat → Nat
/-- The byte of the external host's memory at a bus address (R772: the content is the host's concern).
Log entry: 15 (DESIGN CHOICE). -/
opaque hostByte : Nat → Byte
/-- The byte that a line reads as, at a stack-local address, when it was written under the first key and is read
under the second (R685, R688: the plaintext of such a read is not stated).
Log entry: 14 (DESIGN CHOICE). -/
opaque staleByte : Nat → Nat → Nat → Byte
/-- Byte i of the picture that a codec decodes from the bitstream since the last random-access point, cut after the
picture's own last chunk (R453: the codecs' standards).
Log entry: 132 (DESIGN CHOICE). -/
opaque pictureByte : (codec : Nat) → List Nat → (i : Nat) → Byte
/-- The FP32 word of a range field: payload, offset of the field, big-endian or not (R449: its size is not stated).
Log entry: 126 (DESIGN CHOICE). -/
opaque rangeWord : List Nat → Nat → Bool → Nat
/-- The keys, certificates and digests of firmware that one part holds: kind, index (R677, R685, R699).
Log entry: 14 (DESIGN CHOICE). -/
opaque keyMaterial : (kind index : Nat) → Nat
/-- Whether a Hod byte address lies in the regions of a hod_layout section (R53, R68: the layout of a region record
is not stated).
Log entry: 57 (DEDUCED). -/
opaque hodRegion : List Nat → Nat → Bool
/-- The local Course of the die whose Hod a Hod address at or beyond 4 MiB names (R48: the coding is not stated).
Log entry: 57 (DEDUCED). -/
opaque hodCourse : List Nat → Nat → Nat
/-- Whether the tokens of a streamer that decodes without rotary run along K, as for values, and not along the lanes,
as for keys: its 32 record bytes (R234: the record does not say which).
Log entry: 68 (DEDUCED). -/
opaque tokensAlongK : List Nat → Bool
/-- Whether a BF16 streamer S0 without rotary in an attention launch streams its FP16 queries: its 32 record bytes (R235:
the record does not say so).
Log entry: 68 (DEDUCED). -/
opaque streamsQueries : List Nat → Bool
/-- A word beyond the 1,024 of a drained tile, where a LANE instruction reads there: the tile and the position (R65
states none).
Log entry: 66 (DEDUCED). -/
opaque pastTile : List Nat → Nat → Nat
/-- The row scale that a history maximum below zero or not a number gives: its code, headroom and target (R153 states
none).
Log entry: 63 (DEDUCED). -/
opaque oddScale : Nat → Nat → Nat → Nat

/-- A byte of the trace record of a key tile that belongs to a row which no query takes: the record, the sequence record,
the query block, the key tile and the byte (R244 states none, and R247 lets it depend on nothing else).
Log entry: 82 (DEDUCED). -/
opaque traceSpare : List Nat → List Nat → Nat → Nat → Nat → Nat

/-- The bank of a granule, and the rows of its runs 0 to 3 and 4 to 7, from its frame's number div 32 (R354: a fixed
function that is not stated).
Log entry: 104 (DEDUCED). -/
opaque bankRows : Nat → Nat × Nat × Nat

/-- The CRC-16 of a sideband message (R422, R423: its polynomial is not stated).
Log entry: 116 (DEDUCED). -/
opaque crc16 : List Nat → Nat

/-- Byte i of the sealed payload and tag of a data packet: which of the link's keys, its header and its payload
(AES-256-GCM, R604, R697).
Log entry: 14 (DESIGN CHOICE). -/
opaque linkByte : (key : Nat) → List Nat → List Nat → (i : Nat) → Byte
/-- Row-major words of the pose that a registration starts from, by the previous twist (R490 states none).
Log entry: 141 (DESIGN CHOICE). -/
opaque icpStart : List Nat → List Nat
/-- The plane of a voxel, normal and offset, from the words of the positions in it (R490 states no fit).
Log entry: 141 (DESIGN CHOICE). -/
opaque voxelPlane : List Nat → List Nat
/-- A Gauss-Newton iteration of registration: the pose and the correspondences give the next pose and the update (R490).
Log entry: 141 (DESIGN CHOICE). -/
opaque icpStep : List Nat → List (List Nat) → List Nat
/-- The words of an estimate from a registration's pose and correspondences and the length of a cycle in µs (R490, R498).
Log entry: 141 (DESIGN CHOICE). -/
opaque icpEstimate : List Nat → List (List Nat) → Nat → List Nat
/-- The Harris corner of one of the 8 × 8 cells of a frame: its bytes, width, height, channels and the cell (R491).
Log entry: 141 (DESIGN CHOICE). -/
opaque harrisCorner : List Nat → Nat → Nat → Nat → Nat → Option (Nat × Nat)
/-- The words of an estimate from visual tracks with depth, the cameras' entries and the length of a cycle (R491).
Log entry: 141 (DESIGN CHOICE). -/
opaque voEstimate : List (List Nat) → List (List Nat) → Nat → List Nat
/-- The two variances of a predicted motion, by the twist (R492, R498).
Log entry: 141 (DESIGN CHOICE). -/
opaque predictedVar : List Nat → List Nat
/-- A cell of a frame's G channel at depth-image resolution: its bytes, width, height, channels, the shift and the cell
(R487 states no reduction).
Log entry: 142 (DESIGN CHOICE). -/
opaque reducedG : List Nat → Nat → Nat → Nat → Nat → Nat → Nat → Nat
/-- The delta of a camera's solve over its entry and its edge correspondences: the angle in 10⁻⁹ ° and the translation in
nm (R487).
Log entry: 142 (DESIGN CHOICE). -/
opaque calibSolve : List Nat → List (List Nat) → Nat × Nat
/-- The 16 words of the transform that the delta of such a solve gives, scaled to an angle and a translation in the units
of an allowance (R485).
Log entry: 142 (DESIGN CHOICE). -/
opaque calibTransform : List Nat → List (List Nat) → Nat × Nat → List Nat
/-- The core voltage target in mV that a Course die's fused table gives at a set point in MHz (R652).
Log entry: 43 (DEDUCED). -/
opaque avsTarget : (die mhz : Nat) → Nat

end Sys2Proof.Config
end

