-- ==== Sys2Proof/Machine/RegTable.lean ====
section
/-! DEFINITION. The setup registers of the package, one row per register and one constant per field, written
from the register tables of spec/ (R1, R36 to R39, R95 to R98, R160, R212, R280, R335, R339, R340, R383, R384,
R386, R387, R427 to R429, R468, R469, R517, R556, R557, R600, R639, R640, R675, R704, R727, R754 and R770) and
the block index of 20_setup_space.md. A field constant gives its register's offset inside the first place where the
register stands; `RegRow` says in which windows, and at which strides, that register is repeated. -/

namespace Sys2Proof.Machine.Reg

/-- The access types of R757. -/
inductive Acc where
  | rw | ro | wo | w1c | rc | st
  deriving DecidableEq, Repr

/-- One field of a setup register: the offset of its register in its window, its lowest bit, its width, its reset
value and its access type (R757). -/
structure Field where
  off : Nat
  lo : Nat
  width : Nat
  reset : Nat
  acc : Acc
  deriving DecidableEq, Repr

/-- One register: the first die whose window holds it, in how many windows it stands, its offset there, its width in
bits, the counts and strides at which its block repeats inside a window, and its fields. -/
structure RegRow where
  die : Nat
  dies : Nat
  off : Nat
  width : Nat
  dims : List (Nat × Nat)
  fields : List Field
  deriving DecidableEq, Repr

/-- FAB_PART_ID.part_code [15:0], RO (R1 of 00_scope.md). -/
def FAB_PART_ID.part_code : Field := ⟨0x0, 0, 16, 16736, .ro⟩
/-- FAB_PART_ID.family_code [23:16], RO (R1 of 00_scope.md). -/
def FAB_PART_ID.family_code : Field := ⟨0x0, 16, 8, 11, .ro⟩
/-- FAB_PART_ID.hearth_major [27:24], RO (R1 of 00_scope.md). -/
def FAB_PART_ID.hearth_major : Field := ⟨0x0, 24, 4, Config.hearthMajor % 16, .ro⟩
/-- FAB_PART_ID.hearth_minor [31:28], RO (R1 of 00_scope.md). -/
def FAB_PART_ID.hearth_minor : Field := ⟨0x0, 28, 4, Config.hearthMinor % 16, .ro⟩
/-- NWT_DIAL_NOW.dial_ns [63:0], RO (R36 of 01_package.md). -/
def NWT_DIAL_NOW.dial_ns : Field := ⟨0x10000, 0, 64, 0, .ro⟩
/-- NWT_DIAL_STATUS.sync_state [1:0], RO (R37 of 01_package.md). -/
def NWT_DIAL_STATUS.sync_state : Field := ⟨0x10008, 0, 2, 0, .ro⟩
/-- NWT_DIAL_STATUS.stepped [2:2], W1C (R37 of 01_package.md). -/
def NWT_DIAL_STATUS.stepped : Field := ⟨0x10008, 2, 1, 0, .w1c⟩
/-- NWT_DIAL_STATUS.ahead_of_ref [3:3], RO (R37 of 01_package.md). -/
def NWT_DIAL_STATUS.ahead_of_ref : Field := ⟨0x10008, 3, 1, 0, .ro⟩
/-- NWT_DIAL_STATUS.active_source [7:4], RO (R37 of 01_package.md). -/
def NWT_DIAL_STATUS.active_source : Field := ⟨0x10008, 4, 4, 0, .ro⟩
/-- NWT_DIAL_OFFSET.offset_ns [31:0], RO (R38 of 01_package.md). -/
def NWT_DIAL_OFFSET.offset_ns : Field := ⟨0x1000c, 0, 32, 0, .ro⟩
/-- NWT_DIAL_CTRL.source_sel [3:0], ST (R39 of 01_package.md). -/
def NWT_DIAL_CTRL.source_sel : Field := ⟨0x10010, 0, 4, 0, .st⟩
/-- NWT_DIAL_CTRL.slew_limit_ppm [11:4], ST (R39 of 01_package.md). -/
def NWT_DIAL_CTRL.slew_limit_ppm : Field := ⟨0x10010, 4, 8, 200, .st⟩
/-- NWT_DIAL_CTRL.lock_count [23:16], ST (R39 of 01_package.md). -/
def NWT_DIAL_CTRL.lock_count : Field := ⟨0x10010, 16, 8, 16, .st⟩
/-- NWT_DIAL_CTRL.lock_window [31:24], ST (R39 of 01_package.md). -/
def NWT_DIAL_CTRL.lock_window : Field := ⟨0x10010, 24, 8, 10, .st⟩
/-- NWT_COMMIT.commit [0:0], WO (R39 of 01_package.md). -/
def NWT_COMMIT.commit : Field := ⟨0x1001c, 0, 1, 0, .wo⟩
/-- TRW_COURSE_STATE.context [7:0], RO (R95 of 02_brick_fabric.md). -/
def TRW_COURSE_STATE.context : Field := ⟨0x200000, 0, 8, 255, .ro⟩
/-- TRW_COURSE_STATE.running [8:8], RO (R95 of 02_brick_fabric.md). -/
def TRW_COURSE_STATE.running : Field := ⟨0x200000, 8, 1, 0, .ro⟩
/-- TRW_COURSE_STATE.switching [9:9], RO (R95 of 02_brick_fabric.md). -/
def TRW_COURSE_STATE.switching : Field := ⟨0x200000, 9, 1, 0, .ro⟩
/-- TRW_COURSE_STATE.course_fenced [10:10], RO (R95 of 02_brick_fabric.md). -/
def TRW_COURSE_STATE.course_fenced : Field := ⟨0x200000, 10, 1, 0, .ro⟩
/-- TRW_COURSE_STATE.busy_map [31:16], RO (R95 of 02_brick_fabric.md). -/
def TRW_COURSE_STATE.busy_map : Field := ⟨0x200000, 16, 16, 0, .ro⟩
/-- TRW_FENCE_MAP.brick_fenced [15:0], RO (R96 of 02_brick_fabric.md). -/
def TRW_FENCE_MAP.brick_fenced : Field := ⟨0x200004, 0, 16, 0, .ro⟩
/-- TRW_LINK_FENCE.link_fenced [23:0], RO (R96 of 02_brick_fabric.md). -/
def TRW_LINK_FENCE.link_fenced : Field := ⟨0x200008, 0, 24, 0, .ro⟩
/-- TRW_WDOG_CTRL.timeout_us [19:0], ST (R97 of 02_brick_fabric.md). -/
def TRW_WDOG_CTRL.timeout_us : Field := ⟨0x20000c, 0, 20, 10000, .st⟩
/-- TRW_WDOG_CTRL.enable [20:20], ST (R97 of 02_brick_fabric.md). -/
def TRW_WDOG_CTRL.enable : Field := ⟨0x20000c, 20, 1, 1, .st⟩
/-- TRW_LOAD_COUNT.loads [31:0], RO (R98 of 02_brick_fabric.md). -/
def TRW_LOAD_COUNT.loads : Field := ⟨0x200010, 0, 32, 0, .ro⟩
/-- TRW_REFUSE_COUNT.refusals [31:0], RC (R98 of 02_brick_fabric.md). -/
def TRW_REFUSE_COUNT.refusals : Field := ⟨0x200014, 0, 32, 0, .rc⟩
/-- TRW_COMMIT.commit [0:0], WO (R98 of 02_brick_fabric.md). -/
def TRW_COMMIT.commit : Field := ⟨0x20001c, 0, 1, 0, .wo⟩
/-- QNT_REISSUE_COUNT.reissues [31:0], RC (R160 of 04_scale_units.md). -/
def QNT_REISSUE_COUNT.reissues : Field := ⟨0x240000, 0, 32, 0, .rc⟩
/-- QNT_UNDERSCALE_COUNT.underscaled [31:0], RC (R160 of 04_scale_units.md). -/
def QNT_UNDERSCALE_COUNT.underscaled : Field := ⟨0x240004, 0, 32, 0, .rc⟩
/-- QNT_PRECISION_LOSS_COUNT.precision_loss [31:0], RC (R160 of 04_scale_units.md). -/
def QNT_PRECISION_LOSS_COUNT.precision_loss : Field := ⟨0x240008, 0, 32, 0, .rc⟩
/-- QNT_OVERFLOW_ROWS.overflow_rows [31:0], RC (R160 of 04_scale_units.md). -/
def QNT_OVERFLOW_ROWS.overflow_rows : Field := ⟨0x24000c, 0, 32, 0, .rc⟩
/-- QNT_SEEDED_ROWS.seeded [31:0], RC (R160 of 04_scale_units.md). -/
def QNT_SEEDED_ROWS.seeded : Field := ⟨0x240010, 0, 32, 0, .rc⟩
/-- SIV_STATUS.busy [0:0], RO (R212 of 05_vision_operators.md). -/
def SIV_STATUS.busy : Field := ⟨0x600000, 0, 1, 0, .ro⟩
/-- SIV_STATUS.disabled [1:1], RO (R212 of 05_vision_operators.md). -/
def SIV_STATUS.disabled : Field := ⟨0x600000, 1, 1, 0, .ro⟩
/-- SIV_STATUS.queue_depth [12:8], RO (R212 of 05_vision_operators.md). -/
def SIV_STATUS.queue_depth : Field := ⟨0x600000, 8, 5, 0, .ro⟩
/-- SIV_JOB_COUNT.jobs [31:0], RO (R212 of 05_vision_operators.md). -/
def SIV_JOB_COUNT.jobs : Field := ⟨0x600004, 0, 32, 0, .ro⟩
/-- SIV_REFUSE_COUNT.refusals [31:0], RC (R212 of 05_vision_operators.md). -/
def SIV_REFUSE_COUNT.refusals : Field := ⟨0x600008, 0, 32, 0, .rc⟩
/-- SIV_INVALID_COUNT.invalid [31:0], RC (R212 of 05_vision_operators.md). -/
def SIV_INVALID_COUNT.invalid : Field := ⟨0x60000c, 0, 32, 0, .rc⟩
/-- SIV_MAX_TIME.max_us [15:0], RC (R212 of 05_vision_operators.md). -/
def SIV_MAX_TIME.max_us : Field := ⟨0x600010, 0, 16, 0, .rc⟩
/-- DAY_PLAN_ADDR.plan_addr [47:0], ST (R280 of 07_day_plans.md). -/
def DAY_PLAN_ADDR.plan_addr : Field := ⟨0x400000, 0, 48, 0, .st⟩
/-- DAY_STATUS.active_valid [0:0], RO (R280 of 07_day_plans.md). -/
def DAY_STATUS.active_valid : Field := ⟨0x400008, 0, 1, 0, .ro⟩
/-- DAY_STATUS.staged_valid [1:1], RO (R280 of 07_day_plans.md). -/
def DAY_STATUS.staged_valid : Field := ⟨0x400008, 1, 1, 0, .ro⟩
/-- DAY_STATUS.commit_busy [2:2], RO (R280 of 07_day_plans.md). -/
def DAY_STATUS.commit_busy : Field := ⟨0x400008, 2, 1, 0, .ro⟩
/-- DAY_ACTIVE_ID.plan_id [31:0], RO (R280 of 07_day_plans.md). -/
def DAY_ACTIVE_ID.plan_id : Field := ⟨0x40000c, 0, 32, 0, .ro⟩
/-- DAY_PERIOD_INDEX.period [31:0], RO (R280 of 07_day_plans.md). -/
def DAY_PERIOD_INDEX.period : Field := ⟨0x400010, 0, 32, 0, .ro⟩
/-- DAY_COMMIT_STATUS.status [15:0], RO (R280 of 07_day_plans.md). -/
def DAY_COMMIT_STATUS.status : Field := ⟨0x400014, 0, 16, 0, .ro⟩
/-- DAY_COMMIT_STATUS.watch [23:16], RO (R280 of 07_day_plans.md). -/
def DAY_COMMIT_STATUS.watch : Field := ⟨0x400014, 16, 8, 255, .ro⟩
/-- DAY_COMMIT_STATUS.course [29:24], RO (R280 of 07_day_plans.md). -/
def DAY_COMMIT_STATUS.course : Field := ⟨0x400014, 24, 6, 0, .ro⟩
/-- DAY_LATE_COUNT.late [31:0], RC (R280 of 07_day_plans.md). -/
def DAY_LATE_COUNT.late : Field := ⟨0x400018, 0, 32, 0, .rc⟩
/-- DAY_COMMIT.commit [0:0], WO (R280 of 07_day_plans.md). -/
def DAY_COMMIT.commit : Field := ⟨0x40001c, 0, 1, 0, .wo⟩
/-- DAY_OVERRUN_COUNT.overruns [31:0], RC (R280 of 07_day_plans.md). -/
def DAY_OVERRUN_COUNT.overruns : Field := ⟨0x400020, 0, 32, 0, .rc⟩
/-- DAY_TEST_MISS_COUNT.misses [31:0], RC (R280 of 07_day_plans.md). -/
def DAY_TEST_MISS_COUNT.misses : Field := ⟨0x400024, 0, 32, 0, .rc⟩
/-- HST_SQ_BASE_r.sq_base [47:0], ST (R335 of 08_rings_and_ties.md). -/
def HST_SQ_BASE.sq_base : Field := ⟨0x800000, 0, 48, 0, .st⟩
/-- HST_DB_ADDR_r.db_addr [47:0], ST (R335 of 08_rings_and_ties.md). -/
def HST_DB_ADDR.db_addr : Field := ⟨0x800020, 0, 48, 0, .st⟩
/-- HST_SQ_CFG_r.size_log2 [3:0], ST (R335 of 08_rings_and_ties.md). -/
def HST_SQ_CFG.size_log2 : Field := ⟨0x800040, 0, 4, 0, .st⟩
/-- HST_SQ_CFG_r.enable [4:4], ST (R335 of 08_rings_and_ties.md). -/
def HST_SQ_CFG.enable : Field := ⟨0x800040, 4, 1, 0, .st⟩
/-- HST_SQ_CFG_r.poll_us [17:8], ST (R335 of 08_rings_and_ties.md). -/
def HST_SQ_CFG.poll_us : Field := ⟨0x800040, 8, 10, 0, .st⟩
/-- HST_CQ_BASE.cq_base [47:0], ST (R335 of 08_rings_and_ties.md). -/
def HST_CQ_BASE.cq_base : Field := ⟨0x800050, 0, 48, 0, .st⟩
/-- HST_CQ_CFG.size_log2 [3:0], ST (R335 of 08_rings_and_ties.md). -/
def HST_CQ_CFG.size_log2 : Field := ⟨0x800058, 0, 4, 0, .st⟩
/-- HST_EQ_CFG.size_log2 [3:0], ST (R335 of 08_rings_and_ties.md). -/
def HST_EQ_CFG.size_log2 : Field := ⟨0x80005c, 0, 4, 0, .st⟩
/-- HST_EQ_BASE.eq_base [47:0], ST (R335 of 08_rings_and_ties.md). -/
def HST_EQ_BASE.eq_base : Field := ⟨0x800060, 0, 48, 0, .st⟩
/-- HST_ECHO_ADDR.echo_addr [47:0], ST (R335 of 08_rings_and_ties.md). -/
def HST_ECHO_ADDR.echo_addr : Field := ⟨0x800068, 0, 48, 0, .st⟩
/-- HST_SAVE_BASE.save_base [47:0], ST (R335 of 08_rings_and_ties.md). -/
def HST_SAVE_BASE.save_base : Field := ⟨0x800070, 0, 48, 0, .st⟩
/-- HST_SAVE_BASE.save_mib [51:48], ST (R335 of 08_rings_and_ties.md). -/
def HST_SAVE_BASE.save_mib : Field := ⟨0x800070, 48, 4, 0, .st⟩
/-- HST_TIE_BASE.tie_base [16:0], ST (R335 of 08_rings_and_ties.md). -/
def HST_TIE_BASE.tie_base : Field := ⟨0x800078, 0, 17, 0, .st⟩
/-- HST_TIE_COUNT.tie_count [17:0], ST (R335 of 08_rings_and_ties.md). -/
def HST_TIE_COUNT.tie_count : Field := ⟨0x80007c, 0, 18, 0, .st⟩
/-- HST_CTX_CTRL.open [0:0], ST (R335 of 08_rings_and_ties.md). -/
def HST_CTX_CTRL.opened : Field := ⟨0x800080, 0, 1, 0, .st⟩
/-- HST_CTX_CTRL.shared_ties [1:1], ST (R335 of 08_rings_and_ties.md). -/
def HST_CTX_CTRL.shared_ties : Field := ⟨0x800080, 1, 1, 0, .st⟩
/-- HST_CTX_CTRL.notify_en [2:2], ST (R335 of 08_rings_and_ties.md). -/
def HST_CTX_CTRL.notify_en : Field := ⟨0x800080, 2, 1, 0, .st⟩
/-- HST_CTX_CTRL.irq_vector [15:8], ST (R335 of 08_rings_and_ties.md). -/
def HST_CTX_CTRL.irq_vector : Field := ⟨0x800080, 8, 8, 0, .st⟩
/-- HST_CTX_REQ.teardown [0:0], WO (R335 of 08_rings_and_ties.md). -/
def HST_CTX_REQ.teardown : Field := ⟨0x800084, 0, 1, 0, .wo⟩
/-- HST_CTX_REQ.restart [7:4], WO (R335 of 08_rings_and_ties.md). -/
def HST_CTX_REQ.restart : Field := ⟨0x800084, 4, 4, 0, .wo⟩
/-- HST_CTX_STATE.state [1:0], RO (R335 of 08_rings_and_ties.md). -/
def HST_CTX_STATE.state : Field := ⟨0x800088, 0, 2, 0, .ro⟩
/-- HST_CTX_STATE.stopped [7:4], RO (R335 of 08_rings_and_ties.md). -/
def HST_CTX_STATE.stopped : Field := ⟨0x800088, 4, 4, 0, .ro⟩
/-- HST_CTX_COMMIT.commit [0:0], WO (R335 of 08_rings_and_ties.md). -/
def HST_CTX_COMMIT.commit : Field := ⟨0x8000fc, 0, 1, 0, .wo⟩
/-- HST_PCIE_OUT_BASE.pcie_out_base [63:0], ST (R339 of 08_rings_and_ties.md). -/
def HST_PCIE_OUT_BASE.pcie_out_base : Field := ⟨0x804000, 0, 64, 0, .st⟩
/-- HST_DEV_EQ_BASE.dev_eq_base [47:0], ST (R339 of 08_rings_and_ties.md). -/
def HST_DEV_EQ_BASE.dev_eq_base : Field := ⟨0x804008, 0, 48, 0, .st⟩
/-- HST_DEV_EQ_CFG.size_log2 [3:0], ST (R339 of 08_rings_and_ties.md). -/
def HST_DEV_EQ_CFG.size_log2 : Field := ⟨0x804010, 0, 4, 6, .st⟩
/-- HST_DEV_EQ_CFG.irq_vector [15:8], ST (R339 of 08_rings_and_ties.md). -/
def HST_DEV_EQ_CFG.irq_vector : Field := ⟨0x804010, 8, 8, 0, .st⟩
/-- HST_DEV_EQ_HEAD.head [31:0], RW (R339 of 08_rings_and_ties.md). -/
def HST_DEV_EQ_HEAD.head : Field := ⟨0x804014, 0, 32, 0, .rw⟩
/-- HST_DEV_EQ_TAIL.tail [31:0], RO (R339 of 08_rings_and_ties.md). -/
def HST_DEV_EQ_TAIL.tail : Field := ⟨0x804018, 0, 32, 0, .ro⟩
/-- HST_TIE_SHARED.shared_base [16:0], ST (R339 of 08_rings_and_ties.md). -/
def HST_TIE_SHARED.shared_base : Field := ⟨0x804020, 0, 17, 0, .st⟩
/-- HST_TIE_SHARED_COUNT.shared_count [17:0], ST (R339 of 08_rings_and_ties.md). -/
def HST_TIE_SHARED_COUNT.shared_count : Field := ⟨0x804024, 0, 18, 0, .st⟩
/-- HST_EVT_DROP_COUNT.drops [31:0], RC (R339 of 08_rings_and_ties.md). -/
def HST_EVT_DROP_COUNT.drops : Field := ⟨0x804028, 0, 32, 0, .rc⟩
/-- HST_COMMIT.commit [0:0], WO (R339 of 08_rings_and_ties.md). -/
def HST_COMMIT.commit : Field := ⟨0x80403c, 0, 1, 0, .wo⟩
/-- TIE_PENDING.pending [10:0], RO (R340 of 08_rings_and_ties.md). -/
def TIE_PENDING.pending : Field := ⟨0x280000, 0, 11, 0, .ro⟩
/-- TIE_SAT_COUNT.saturations [31:0], RC (R340 of 08_rings_and_ties.md). -/
def TIE_SAT_COUNT.saturations : Field := ⟨0x280004, 0, 32, 0, .rc⟩
/-- TIE_TIMEOUT_COUNT.timeouts [31:0], RC (R340 of 08_rings_and_ties.md). -/
def TIE_TIMEOUT_COUNT.timeouts : Field := ⟨0x280008, 0, 32, 0, .rc⟩
/-- HBM_STATUS.trained [0:0], RO (R383 of 09_hbm_and_plumb.md). -/
def HBM_STATUS.trained : Field := ⟨0x300000, 0, 1, 0, .ro⟩
/-- HBM_STATUS.hot [1:1], RO (R383 of 09_hbm_and_plumb.md). -/
def HBM_STATUS.hot : Field := ⟨0x300000, 1, 1, 0, .ro⟩
/-- HBM_STATUS.retraining [2:2], RO (R383 of 09_hbm_and_plumb.md). -/
def HBM_STATUS.retraining : Field := ⟨0x300000, 2, 1, 0, .ro⟩
/-- HBM_STATUS.temp_c [15:8], RO (R383 of 09_hbm_and_plumb.md). -/
def HBM_STATUS.temp_c : Field := ⟨0x300000, 8, 8, 0, .ro⟩
/-- HBM_STATUS.retrain_fail_map [31:16], RO (R383 of 09_hbm_and_plumb.md). -/
def HBM_STATUS.retrain_fail_map : Field := ⟨0x300000, 16, 16, 0, .ro⟩
/-- HBM_CE_COUNT.corrected [31:0], RC (R383 of 09_hbm_and_plumb.md). -/
def HBM_CE_COUNT.corrected : Field := ⟨0x300004, 0, 32, 0, .rc⟩
/-- HBM_UE_COUNT.uncorrectable [31:0], RC (R383 of 09_hbm_and_plumb.md). -/
def HBM_UE_COUNT.uncorrectable : Field := ⟨0x300008, 0, 32, 0, .rc⟩
/-- HBM_CRC_RETRY_COUNT.retries [31:0], RC (R383 of 09_hbm_and_plumb.md). -/
def HBM_CRC_RETRY_COUNT.retries : Field := ⟨0x30000c, 0, 32, 0, .rc⟩
/-- HBM_LAST_UE_ADDR.address [47:0], RO (R383 of 09_hbm_and_plumb.md). -/
def HBM_LAST_UE_ADDR.address : Field := ⟨0x300010, 0, 48, 0, .ro⟩
/-- HBM_CE_THRESH.threshold [15:0], ST (R383 of 09_hbm_and_plumb.md). -/
def HBM_CE_THRESH.threshold : Field := ⟨0x300018, 0, 16, 16, .st⟩
/-- HBM_COMMIT.commit [0:0], WO (R383 of 09_hbm_and_plumb.md). -/
def HBM_COMMIT.commit : Field := ⟨0x30001c, 0, 1, 0, .wo⟩
/-- HBM_MAP_SRC.src [47:0], ST (R384 of 09_hbm_and_plumb.md). -/
def HBM_MAP_SRC.src : Field := ⟨0xb00000, 0, 48, 0, .st⟩
/-- HBM_MAP_FIRST.first [20:0], ST (R384 of 09_hbm_and_plumb.md). -/
def HBM_MAP_FIRST.first : Field := ⟨0xb00008, 0, 21, 0, .st⟩
/-- HBM_MAP_COUNT.count [20:0], ST (R384 of 09_hbm_and_plumb.md). -/
def HBM_MAP_COUNT.count : Field := ⟨0xb0000c, 0, 21, 0, .st⟩
/-- HBM_MAP_STATUS.status [15:0], RO (R384 of 09_hbm_and_plumb.md). -/
def HBM_MAP_STATUS.status : Field := ⟨0xb00010, 0, 16, 0, .ro⟩
/-- HBM_MAP_STATUS.busy [16:16], RO (R384 of 09_hbm_and_plumb.md). -/
def HBM_MAP_STATUS.busy : Field := ⟨0xb00010, 16, 1, 0, .ro⟩
/-- HBM_MAP_FAULT_PAGE.page [20:0], RO (R384 of 09_hbm_and_plumb.md). -/
def HBM_MAP_FAULT_PAGE.page : Field := ⟨0xb00014, 0, 21, 0, .ro⟩
/-- HBM_MAP_PEEK.page [20:0], RW (R384 of 09_hbm_and_plumb.md). -/
def HBM_MAP_PEEK.page : Field := ⟨0xb00018, 0, 21, 0, .rw⟩
/-- HBM_MAP_PEEK_DATA.entry [31:0], RO (R384 of 09_hbm_and_plumb.md). -/
def HBM_MAP_PEEK_DATA.entry : Field := ⟨0xb0001c, 0, 32, 0, .ro⟩
/-- HBM_MAP_COMMIT.commit [0:0], WO (R384 of 09_hbm_and_plumb.md). -/
def HBM_MAP_COMMIT.commit : Field := ⟨0xb00020, 0, 1, 0, .wo⟩
/-- HBM_SHARE_RD_k.ctx_rd [63:0], ST (R384 of 09_hbm_and_plumb.md). -/
def HBM_SHARE_RD.ctx_rd : Field := ⟨0xb00100, 0, 64, 0, .st⟩
/-- HBM_SHARE_WR_k.ctx_wr [63:0], ST (R384 of 09_hbm_and_plumb.md). -/
def HBM_SHARE_WR.ctx_wr : Field := ⟨0xb00108, 0, 64, 0, .st⟩
/-- HBM_SHARE_PORTS_k.port_rd [9:0], ST (R384 of 09_hbm_and_plumb.md). -/
def HBM_SHARE_PORTS.port_rd : Field := ⟨0xb00200, 0, 10, 0, .st⟩
/-- HBM_SHARE_PORTS_k.port_wr [25:16], ST (R384 of 09_hbm_and_plumb.md). -/
def HBM_SHARE_PORTS.port_wr : Field := ⟨0xb00200, 16, 10, 0, .st⟩
/-- HBM_SHARE_COMMIT.commit [0:0], WO (R384 of 09_hbm_and_plumb.md). -/
def HBM_SHARE_COMMIT.commit : Field := ⟨0xb002fc, 0, 1, 0, .wo⟩
/-- PLB_PORT_BW.bw_stack1 [15:0], ST (R386 of 09_hbm_and_plumb.md). -/
def PLB_PORT_BW.bw_stack1 : Field := ⟨0xa00000, 0, 16, 0, .st⟩
/-- PLB_PORT_BW.bw_stack2 [31:16], ST (R386 of 09_hbm_and_plumb.md). -/
def PLB_PORT_BW.bw_stack2 : Field := ⟨0xa00000, 16, 16, 0, .st⟩
/-- PLB_PORT_BW.bw_stack3 [47:32], ST (R386 of 09_hbm_and_plumb.md). -/
def PLB_PORT_BW.bw_stack3 : Field := ⟨0xa00000, 32, 16, 0, .st⟩
/-- PLB_PORT_BW.bw_stack4 [63:48], ST (R386 of 09_hbm_and_plumb.md). -/
def PLB_PORT_BW.bw_stack4 : Field := ⟨0xa00000, 48, 16, 0, .st⟩
/-- PLB_PORT_CFG.kind [1:0], ST (R386 of 09_hbm_and_plumb.md). -/
def PLB_PORT_CFG.kind : Field := ⟨0xa00008, 0, 2, 0, .st⟩
/-- PLB_PORT_CFG.target [11:2], ST (R386 of 09_hbm_and_plumb.md). -/
def PLB_PORT_CFG.target : Field := ⟨0xa00008, 2, 10, 30, .st⟩
/-- PLB_PORT_CFG.drop_class [14:12], ST (R386 of 09_hbm_and_plumb.md). -/
def PLB_PORT_CFG.drop_class : Field := ⟨0xa00008, 12, 3, 0, .st⟩
/-- PLB_PORT_CFG.policy [16:15], ST (R386 of 09_hbm_and_plumb.md). -/
def PLB_PORT_CFG.policy : Field := ⟨0xa00008, 15, 2, 3, .st⟩
/-- PLB_PORT_STATE.held [0:0], RO (R386 of 09_hbm_and_plumb.md). -/
def PLB_PORT_STATE.held : Field := ⟨0xa0000c, 0, 1, 0, .ro⟩
/-- PLB_PORT_STATE.dropped [1:1], RO (R386 of 09_hbm_and_plumb.md). -/
def PLB_PORT_STATE.dropped : Field := ⟨0xa0000c, 1, 1, 0, .ro⟩
/-- PLB_PORT_STATE.over_rate [2:2], W1C (R386 of 09_hbm_and_plumb.md). -/
def PLB_PORT_STATE.over_rate : Field := ⟨0xa0000c, 2, 1, 0, .w1c⟩
/-- PLB_PORT_STATE.max_wait_10ns [23:8], RC (R386 of 09_hbm_and_plumb.md). -/
def PLB_PORT_STATE.max_wait_10ns : Field := ⟨0xa0000c, 8, 16, 0, .rc⟩
/-- PLB_LEDGER_s.reserved_gbps [15:0], RO (R387 of 09_hbm_and_plumb.md). -/
def PLB_LEDGER.reserved_gbps : Field := ⟨0xa00800, 0, 16, 0, .ro⟩
/-- PLB_LEDGER_s.limit_gbps [31:16], RO (R387 of 09_hbm_and_plumb.md). -/
def PLB_LEDGER.limit_gbps : Field := ⟨0xa00800, 16, 16, 1081, .ro⟩
/-- PLB_SWITCH_W_d.w_gbps [15:0], RO (R387 of 09_hbm_and_plumb.md). -/
def PLB_SWITCH_W.w_gbps : Field := ⟨0xa00810, 0, 16, 0, .ro⟩
/-- PLB_SWITCH_W_d.dropped [16:16], RO (R387 of 09_hbm_and_plumb.md). -/
def PLB_SWITCH_W.dropped : Field := ⟨0xa00810, 16, 1, 0, .ro⟩
/-- PLB_COMMIT_STATUS.status [15:0], RO (R387 of 09_hbm_and_plumb.md). -/
def PLB_COMMIT_STATUS.status : Field := ⟨0xa00820, 0, 16, 0, .ro⟩
/-- PLB_COMMIT_STATUS.fault [23:16], RO (R387 of 09_hbm_and_plumb.md). -/
def PLB_COMMIT_STATUS.fault : Field := ⟨0xa00820, 16, 8, 255, .ro⟩
/-- PLB_DROP_COUNT.drops [31:0], RC (R387 of 09_hbm_and_plumb.md). -/
def PLB_DROP_COUNT.drops : Field := ⟨0xa00824, 0, 32, 0, .rc⟩
/-- PLB_COMMIT.commit [0:0], WO (R387 of 09_hbm_and_plumb.md). -/
def PLB_COMMIT.commit : Field := ⟨0xa0083c, 0, 1, 0, .wo⟩
/-- MTR_DIE_ID.position [1:0], RO (R427 of 10_mortar_links.md). -/
def MTR_DIE_ID.position : Field := ⟨0x340000, 0, 2, 0, .ro⟩
/-- MTR_DIE_ID.orientation [3:2], RO (R427 of 10_mortar_links.md). -/
def MTR_DIE_ID.orientation : Field := ⟨0x340000, 2, 2, 0, .ro⟩
/-- MTR_DIE_ID.major [7:4], RO (R427 of 10_mortar_links.md). -/
def MTR_DIE_ID.major : Field := ⟨0x340000, 4, 4, 0, .ro⟩
/-- MTR_DIE_ID.minor [11:8], RO (R427 of 10_mortar_links.md). -/
def MTR_DIE_ID.minor : Field := ⟨0x340000, 8, 4, 0, .ro⟩
/-- MTR_DIE_ID.strap_fault [12:12], RO (R427 of 10_mortar_links.md). -/
def MTR_DIE_ID.strap_fault : Field := ⟨0x340000, 12, 1, 0, .ro⟩
/-- MTR_FEATURE.feature [63:0], RO (R427 of 10_mortar_links.md). -/
def MTR_FEATURE.feature : Field := ⟨0x340008, 0, 64, 0, .ro⟩
/-- MTR_BUDGET.core_cap [15:0], RO (R427 of 10_mortar_links.md). -/
def MTR_BUDGET.core_cap : Field := ⟨0x340010, 0, 16, 0, .ro⟩
/-- MTR_BUDGET.hbm_cap [31:16], RO (R427 of 10_mortar_links.md). -/
def MTR_BUDGET.hbm_cap : Field := ⟨0x340010, 16, 16, 0, .ro⟩
/-- MTR_MISS_COUNT.missed [31:0], RC (R427 of 10_mortar_links.md). -/
def MTR_MISS_COUNT.missed : Field := ⟨0x340018, 0, 32, 0, .rc⟩
/-- MTR_COMMIT.commit [0:0], WO (R427 of 10_mortar_links.md). -/
def MTR_COMMIT.commit : Field := ⟨0x34003c, 0, 1, 0, .wo⟩
/-- MTR_COMMIT.commit [0:0], WO (R427 of 10_mortar_links.md). -/
def MTR_HUB_COMMIT.commit : Field := ⟨0xc0003c, 0, 1, 0, .wo⟩
/-- MTR_PORT_STATUS.state [1:0], RO (R428 of 10_mortar_links.md). -/
def MTR_PORT_STATUS.state : Field := ⟨0x340100, 0, 2, 0, .ro⟩
/-- MTR_PORT_STATUS.width [6:2], RO (R428 of 10_mortar_links.md). -/
def MTR_PORT_STATUS.width : Field := ⟨0x340100, 2, 5, 0, .ro⟩
/-- MTR_PORT_STATUS.phys_port [9:8], RO (R428 of 10_mortar_links.md). -/
def MTR_PORT_STATUS.phys_port : Field := ⟨0x340100, 8, 2, 0, .ro⟩
/-- MTR_PORT_STATUS.epoch [31:16], RO (R428 of 10_mortar_links.md). -/
def MTR_PORT_STATUS.epoch : Field := ⟨0x340100, 16, 16, 0, .ro⟩
/-- MTR_PORT_STATUS.state [1:0], RO (R428 of 10_mortar_links.md). -/
def MTR_HUB_PORT_STATUS.state : Field := ⟨0xc00100, 0, 2, 0, .ro⟩
/-- MTR_PORT_STATUS.width [6:2], RO (R428 of 10_mortar_links.md). -/
def MTR_HUB_PORT_STATUS.width : Field := ⟨0xc00100, 2, 5, 0, .ro⟩
/-- MTR_PORT_STATUS.phys_port [9:8], RO (R428 of 10_mortar_links.md). -/
def MTR_HUB_PORT_STATUS.phys_port : Field := ⟨0xc00100, 8, 2, 0, .ro⟩
/-- MTR_PORT_STATUS.epoch [31:16], RO (R428 of 10_mortar_links.md). -/
def MTR_HUB_PORT_STATUS.epoch : Field := ⟨0xc00100, 16, 16, 0, .ro⟩
/-- MTR_LANE_MAP.rx_good [21:0], RO (R428 of 10_mortar_links.md). -/
def MTR_LANE_MAP.rx_good : Field := ⟨0x340104, 0, 22, 0, .ro⟩
/-- MTR_LANE_MAP.rx_good [21:0], RO (R428 of 10_mortar_links.md). -/
def MTR_HUB_LANE_MAP.rx_good : Field := ⟨0xc00104, 0, 22, 0, .ro⟩
/-- MTR_LANE_USE.rx_data [21:0], RO (R428 of 10_mortar_links.md). -/
def MTR_LANE_USE.rx_data : Field := ⟨0x340108, 0, 22, 0, .ro⟩
/-- MTR_LANE_USE.rx_data [21:0], RO (R428 of 10_mortar_links.md). -/
def MTR_HUB_LANE_USE.rx_data : Field := ⟨0xc00108, 0, 22, 0, .ro⟩
/-- MTR_PORT_CTRL.retrain [0:0], WO (R428 of 10_mortar_links.md). -/
def MTR_PORT_CTRL.retrain : Field := ⟨0x34010c, 0, 1, 0, .wo⟩
/-- MTR_PORT_CTRL.loopback [1:1], ST (R428 of 10_mortar_links.md). -/
def MTR_PORT_CTRL.loopback : Field := ⟨0x34010c, 1, 1, 0, .st⟩
/-- MTR_PORT_CTRL.test_ms [31:16], ST (R428 of 10_mortar_links.md). -/
def MTR_PORT_CTRL.test_ms : Field := ⟨0x34010c, 16, 16, 100, .st⟩
/-- MTR_PORT_CTRL.retrain [0:0], WO (R428 of 10_mortar_links.md). -/
def MTR_HUB_PORT_CTRL.retrain : Field := ⟨0xc0010c, 0, 1, 0, .wo⟩
/-- MTR_PORT_CTRL.loopback [1:1], ST (R428 of 10_mortar_links.md). -/
def MTR_HUB_PORT_CTRL.loopback : Field := ⟨0xc0010c, 1, 1, 0, .st⟩
/-- MTR_PORT_CTRL.test_ms [31:16], ST (R428 of 10_mortar_links.md). -/
def MTR_HUB_PORT_CTRL.test_ms : Field := ⟨0xc0010c, 16, 16, 100, .st⟩
/-- MTR_REPLAY_COUNT.replays [31:0], RC (R428 of 10_mortar_links.md). -/
def MTR_REPLAY_COUNT.replays : Field := ⟨0x340110, 0, 32, 0, .rc⟩
/-- MTR_REPLAY_COUNT.replays [31:0], RC (R428 of 10_mortar_links.md). -/
def MTR_HUB_REPLAY_COUNT.replays : Field := ⟨0xc00110, 0, 32, 0, .rc⟩
/-- MTR_REPAIR_COUNT.repairs [31:0], RC (R428 of 10_mortar_links.md). -/
def MTR_REPAIR_COUNT.repairs : Field := ⟨0x340114, 0, 32, 0, .rc⟩
/-- MTR_REPAIR_COUNT.repairs [31:0], RC (R428 of 10_mortar_links.md). -/
def MTR_HUB_REPAIR_COUNT.repairs : Field := ⟨0xc00114, 0, 32, 0, .rc⟩
/-- MTR_TEST_STATUS.status [15:0], RO (R428 of 10_mortar_links.md). -/
def MTR_TEST_STATUS.status : Field := ⟨0x340118, 0, 16, 0, .ro⟩
/-- MTR_TEST_STATUS.done [16:16], RO (R428 of 10_mortar_links.md). -/
def MTR_TEST_STATUS.done : Field := ⟨0x340118, 16, 1, 0, .ro⟩
/-- MTR_TEST_STATUS.status [15:0], RO (R428 of 10_mortar_links.md). -/
def MTR_HUB_TEST_STATUS.status : Field := ⟨0xc00118, 0, 16, 0, .ro⟩
/-- MTR_TEST_STATUS.done [16:16], RO (R428 of 10_mortar_links.md). -/
def MTR_HUB_TEST_STATUS.done : Field := ⟨0xc00118, 16, 1, 0, .ro⟩
/-- MTR_LANE_ERR_w.errors [31:0], RO (R428 of 10_mortar_links.md). -/
def MTR_LANE_ERR.errors : Field := ⟨0x340120, 0, 32, 0, .ro⟩
/-- MTR_LANE_ERR_w.errors [31:0], RO (R428 of 10_mortar_links.md). -/
def MTR_HUB_LANE_ERR.errors : Field := ⟨0xc00120, 0, 32, 0, .ro⟩
/-- FAB_CAPABILITY.capability [63:0], RO (R429 of 10_mortar_links.md). -/
def FAB_CAPABILITY.capability : Field := ⟨0x10, 0, 64, 0, .ro⟩
/-- FAB_STEP_MAP.die1_step [7:0], RO (R429 of 10_mortar_links.md). -/
def FAB_STEP_MAP.die1_step : Field := ⟨0x18, 0, 8, 0, .ro⟩
/-- FAB_STEP_MAP.die2_step [15:8], RO (R429 of 10_mortar_links.md). -/
def FAB_STEP_MAP.die2_step : Field := ⟨0x18, 8, 8, 0, .ro⟩
/-- FAB_STEP_MAP.die3_step [23:16], RO (R429 of 10_mortar_links.md). -/
def FAB_STEP_MAP.die3_step : Field := ⟨0x18, 16, 8, 0, .ro⟩
/-- FAB_STEP_MAP.die4_step [31:24], RO (R429 of 10_mortar_links.md). -/
def FAB_STEP_MAP.die4_step : Field := ⟨0x18, 24, 8, 0, .ro⟩
/-- CAM_STREAM_ADDR.addr [47:0], ST (R468 of 11_input_pipeline.md). -/
def CAM_STREAM_ADDR.addr : Field := ⟨0xd00000, 0, 48, 0, .st⟩
/-- CAM_TONE_ADDR.addr [47:0], ST (R468 of 11_input_pipeline.md). -/
def CAM_TONE_ADDR.addr : Field := ⟨0xd00008, 0, 48, 0, .st⟩
/-- CAM_STREAM_CTRL.enable [0:0], ST (R468 of 11_input_pipeline.md). -/
def CAM_STREAM_CTRL.enable : Field := ⟨0xd00010, 0, 1, 0, .st⟩
/-- CAM_STREAM_CTRL.owner [15:8], ST (R468 of 11_input_pipeline.md). -/
def CAM_STREAM_CTRL.owner : Field := ⟨0xd00010, 8, 8, 255, .st⟩
/-- CAM_STREAM_STATUS.status [15:0], RO (R468 of 11_input_pipeline.md). -/
def CAM_STREAM_STATUS.status : Field := ⟨0xd00014, 0, 16, 0, .ro⟩
/-- CAM_STREAM_STATUS.running [16:16], RO (R468 of 11_input_pipeline.md). -/
def CAM_STREAM_STATUS.running : Field := ⟨0xd00014, 16, 1, 0, .ro⟩
/-- CAM_DROP_COUNT.drops [31:0], RC (R468 of 11_input_pipeline.md). -/
def CAM_DROP_COUNT.drops : Field := ⟨0xd00018, 0, 32, 0, .rc⟩
/-- CAM_STREAM_COMMIT.commit [0:0], WO (R468 of 11_input_pipeline.md). -/
def CAM_STREAM_COMMIT.commit : Field := ⟨0xd0001c, 0, 1, 0, .wo⟩
/-- CAM_MAC_CFG.mode [1:0], ST (R468 of 11_input_pipeline.md). -/
def CAM_MAC_CFG.mode : Field := ⟨0xd01000, 0, 2, 0, .st⟩
/-- CAM_MAC_CFG.fec [2:2], ST (R468 of 11_input_pipeline.md). -/
def CAM_MAC_CFG.fec : Field := ⟨0xd01000, 2, 1, 0, .st⟩
/-- CAM_MAC_CFG.usx_speed [5:3], ST (R468 of 11_input_pipeline.md). -/
def CAM_MAC_CFG.usx_speed : Field := ⟨0xd01000, 3, 3, 0, .st⟩
/-- CAM_MAC_CFG.rx_log2 [13:6], ST (R468 of 11_input_pipeline.md). -/
def CAM_MAC_CFG.rx_log2 : Field := ⟨0xd01000, 6, 8, 6, .st⟩
/-- CAM_MAC_CFG.tx_log2 [21:14], ST (R468 of 11_input_pipeline.md). -/
def CAM_MAC_CFG.tx_log2 : Field := ⟨0xd01000, 14, 8, 6, .st⟩
/-- CAM_MAC_RX_RING.base [47:0], ST (R468 of 11_input_pipeline.md). -/
def CAM_MAC_RX_RING.base : Field := ⟨0xd01008, 0, 48, 0, .st⟩
/-- CAM_MAC_TX_RING.base [47:0], ST (R468 of 11_input_pipeline.md). -/
def CAM_MAC_TX_RING.base : Field := ⟨0xd01010, 0, 48, 0, .st⟩
/-- CAM_MAC_BAD_COUNT.bad [31:0], RC (R468 of 11_input_pipeline.md). -/
def CAM_MAC_BAD_COUNT.bad : Field := ⟨0xd01018, 0, 32, 0, .rc⟩
/-- CAM_FOREIGN_COUNT.foreign [31:0], RC (R468 of 11_input_pipeline.md). -/
def CAM_FOREIGN_COUNT.foreign : Field := ⟨0xd01100, 0, 32, 0, .rc⟩
/-- CAM_MAC_COMMIT.commit [0:0], WO (R468 of 11_input_pipeline.md). -/
def CAM_MAC_COMMIT.commit : Field := ⟨0xd0101c, 0, 1, 0, .wo⟩
/-- DEC_STREAM_ADDR.addr [47:0], ST (R469 of 11_input_pipeline.md). -/
def DEC_STREAM_ADDR.addr : Field := ⟨0xe00000, 0, 48, 0, .st⟩
/-- DEC_STREAM_CTRL.enable [0:0], ST (R469 of 11_input_pipeline.md). -/
def DEC_STREAM_CTRL.enable : Field := ⟨0xe00008, 0, 1, 0, .st⟩
/-- DEC_STREAM_CTRL.owner [15:8], ST (R469 of 11_input_pipeline.md). -/
def DEC_STREAM_CTRL.owner : Field := ⟨0xe00008, 8, 8, 255, .st⟩
/-- DEC_STREAM_STATUS.status [15:0], RO (R469 of 11_input_pipeline.md). -/
def DEC_STREAM_STATUS.status : Field := ⟨0xe0000c, 0, 16, 0, .ro⟩
/-- DEC_FRAME_COUNT.frames [31:0], RO (R469 of 11_input_pipeline.md). -/
def DEC_FRAME_COUNT.frames : Field := ⟨0xe00010, 0, 32, 0, .ro⟩
/-- DEC_ABANDON_COUNT.abandoned [31:0], RC (R469 of 11_input_pipeline.md). -/
def DEC_ABANDON_COUNT.abandoned : Field := ⟨0xe00014, 0, 32, 0, .rc⟩
/-- DEC_STREAM_COMMIT.commit [0:0], WO (R469 of 11_input_pipeline.md). -/
def DEC_STREAM_COMMIT.commit : Field := ⟨0xe0001c, 0, 1, 0, .wo⟩
/-- DEC_SAMPLER_ADDR.addr [47:0], ST (R469 of 11_input_pipeline.md). -/
def DEC_SAMPLER_ADDR.addr : Field := ⟨0xe01000, 0, 48, 0, .st⟩
/-- DEC_SAMPLER_CTRL.enable [0:0], ST (R469 of 11_input_pipeline.md). -/
def DEC_SAMPLER_CTRL.enable : Field := ⟨0xe01008, 0, 1, 0, .st⟩
/-- DEC_SAMPLER_CTRL.owner [15:8], ST (R469 of 11_input_pipeline.md). -/
def DEC_SAMPLER_CTRL.owner : Field := ⟨0xe01008, 8, 8, 255, .st⟩
/-- DEC_SAMPLER_STATUS.status [15:0], RO (R469 of 11_input_pipeline.md). -/
def DEC_SAMPLER_STATUS.status : Field := ⟨0xe0100c, 0, 16, 0, .ro⟩
/-- DEC_SUBST_COUNT.substituted [31:0], RC (R469 of 11_input_pipeline.md). -/
def DEC_SUBST_COUNT.substituted : Field := ⟨0xe01010, 0, 32, 0, .rc⟩
/-- DEC_SAMPLER_COMMIT.commit [0:0], WO (R469 of 11_input_pipeline.md). -/
def DEC_SAMPLER_COMMIT.commit : Field := ⟨0xe0101c, 0, 1, 0, .wo⟩
/-- MER_CFG_ADDR.addr [47:0], ST (R517 of 12_meridian.md). -/
def MER_CFG_ADDR.addr : Field := ⟨0xf00000, 0, 48, 0, .st⟩
/-- MER_TABLE_ADDR.addr [47:0], ST (R517 of 12_meridian.md). -/
def MER_TABLE_ADDR.addr : Field := ⟨0xf00008, 0, 48, 0, .st⟩
/-- MER_CTRL.enable [0:0], ST (R517 of 12_meridian.md). -/
def MER_CTRL.enable : Field := ⟨0xf00010, 0, 1, 0, .st⟩
/-- MER_CTRL.install [1:1], ST (R517 of 12_meridian.md). -/
def MER_CTRL.install : Field := ⟨0xf00010, 1, 1, 0, .st⟩
/-- MER_CTRL.owner [15:8], ST (R517 of 12_meridian.md). -/
def MER_CTRL.owner : Field := ⟨0xf00010, 8, 8, 255, .st⟩
/-- MER_POLICY.policy_handle [31:0], ST (R517 of 12_meridian.md). -/
def MER_POLICY.policy_handle : Field := ⟨0xf00014, 0, 32, 0, .st⟩
/-- MER_STATUS.status [15:0], RO (R517 of 12_meridian.md). -/
def MER_STATUS.status : Field := ⟨0xf00018, 0, 16, 0, .ro⟩
/-- MER_STATUS.running [16:16], RO (R517 of 12_meridian.md). -/
def MER_STATUS.running : Field := ⟨0xf00018, 16, 1, 0, .ro⟩
/-- MER_STATUS.disabled [17:17], RO (R517 of 12_meridian.md). -/
def MER_STATUS.disabled : Field := ⟨0xf00018, 17, 1, 0, .ro⟩
/-- MER_STATUS.frozen [18:18], RO (R517 of 12_meridian.md). -/
def MER_STATUS.frozen : Field := ⟨0xf00018, 18, 1, 0, .ro⟩
/-- MER_STATUS.pending [19:19], RO (R517 of 12_meridian.md). -/
def MER_STATUS.pending : Field := ⟨0xf00018, 19, 1, 0, .ro⟩
/-- MER_CYCLE.cycle [31:0], RO (R517 of 12_meridian.md). -/
def MER_CYCLE.cycle : Field := ⟨0xf0001c, 0, 32, 0, .ro⟩
/-- MER_TABLE_VER.version [31:0], RO (R517 of 12_meridian.md). -/
def MER_TABLE_VER.version : Field := ⟨0xf00020, 0, 32, 0, .ro⟩
/-- MER_TABLE_CRC.crc [31:0], RO (R517 of 12_meridian.md). -/
def MER_TABLE_CRC.crc : Field := ⟨0xf00024, 0, 32, 0, .ro⟩
/-- MER_LATE_COUNT.late [31:0], RC (R517 of 12_meridian.md). -/
def MER_LATE_COUNT.late : Field := ⟨0xf00028, 0, 32, 0, .rc⟩
/-- MER_CONFLICT_COUNT.conflicts [31:0], RC (R517 of 12_meridian.md). -/
def MER_CONFLICT_COUNT.conflicts : Field := ⟨0xf0002c, 0, 32, 0, .rc⟩
/-- MER_FALLBACK_COUNT.fallback [31:0], RC (R517 of 12_meridian.md). -/
def MER_FALLBACK_COUNT.fallback : Field := ⟨0xf00030, 0, 32, 0, .rc⟩
/-- MER_ADOPT_COUNT.adopted [31:0], RC (R517 of 12_meridian.md). -/
def MER_ADOPT_COUNT.adopted : Field := ⟨0xf00034, 0, 32, 0, .rc⟩
/-- MER_COMMIT.commit [0:0], WO (R517 of 12_meridian.md). -/
def MER_COMMIT.commit : Field := ⟨0xf0003c, 0, 1, 0, .wo⟩
/-- FAB_GROUT_TABLE.grout_table [47:0], ST (R556 of 13_silent_errors.md). -/
def FAB_GROUT_TABLE.grout_table : Field := ⟨0x1000000, 0, 48, 0, .st⟩
/-- FAB_GROUT_LO.grout_lo [47:0], ST (R556 of 13_silent_errors.md). -/
def FAB_GROUT_LO.grout_lo : Field := ⟨0x1000008, 0, 48, 0, .st⟩
/-- FAB_GROUT_SPAN.grout_span [24:0], ST (R556 of 13_silent_errors.md). -/
def FAB_GROUT_SPAN.grout_span : Field := ⟨0x1000010, 0, 25, 0, .st⟩
/-- FAB_CAPTURE_BASE.capture_base [47:0], ST (R556 of 13_silent_errors.md). -/
def FAB_CAPTURE_BASE.capture_base : Field := ⟨0x1000018, 0, 48, 0, .st⟩
/-- FAB_CAPTURE_BASE.capture_slots [54:48], ST (R556 of 13_silent_errors.md). -/
def FAB_CAPTURE_BASE.capture_slots : Field := ⟨0x1000018, 48, 7, 0, .st⟩
/-- FAB_HEALTH_REPLAYS.replays [31:0], RO (R556 of 13_silent_errors.md). -/
def FAB_HEALTH_REPLAYS.replays : Field := ⟨0x1000020, 0, 32, 0, .ro⟩
/-- FAB_HEALTH_STRIKES.strikes [31:0], RO (R556 of 13_silent_errors.md). -/
def FAB_HEALTH_STRIKES.strikes : Field := ⟨0x1000024, 0, 32, 0, .ro⟩
/-- FAB_HEALTH_UNRESOLVED.unresolved [31:0], RO (R556 of 13_silent_errors.md). -/
def FAB_HEALTH_UNRESOLVED.unresolved : Field := ⟨0x1000028, 0, 32, 0, .ro⟩
/-- FAB_HEALTH_RESIDUE.residue_repeats [31:0], RO (R556 of 13_silent_errors.md). -/
def FAB_HEALTH_RESIDUE.residue_repeats : Field := ⟨0x100002c, 0, 32, 0, .ro⟩
/-- FAB_HEALTH_PARITY.parity [31:0], RO (R556 of 13_silent_errors.md). -/
def FAB_HEALTH_PARITY.parity : Field := ⟨0x1000030, 0, 32, 0, .ro⟩
/-- FAB_HEALTH_GROUT.grout_mismatch [31:0], RO (R556 of 13_silent_errors.md). -/
def FAB_HEALTH_GROUT.grout_mismatch : Field := ⟨0x1000034, 0, 32, 0, .ro⟩
/-- FAB_HEALTH_HBM_CE.hbm_corrected [31:0], RO (R556 of 13_silent_errors.md). -/
def FAB_HEALTH_HBM_CE.hbm_corrected : Field := ⟨0x1000038, 0, 32, 0, .ro⟩
/-- FAB_CAPTURE_COUNT.captures [31:0], RO (R556 of 13_silent_errors.md). -/
def FAB_CAPTURE_COUNT.captures : Field := ⟨0x100003c, 0, 32, 0, .ro⟩
/-- FAB_CTX_COMMIT.commit [0:0], WO (R556 of 13_silent_errors.md). -/
def FAB_CTX_COMMIT.commit : Field := ⟨0x100007c, 0, 1, 0, .wo⟩
/-- FAB_PACK_ADDR.addr [47:0], ST (R557 of 13_silent_errors.md). -/
def FAB_PACK_ADDR.addr : Field := ⟨0x1002000, 0, 48, 0, .st⟩
/-- FAB_PACK_CTRL.op [1:0], ST (R557 of 13_silent_errors.md). -/
def FAB_PACK_CTRL.op : Field := ⟨0x1002008, 0, 2, 0, .st⟩
/-- FAB_PACK_ID.pack_id [31:0], ST (R557 of 13_silent_errors.md). -/
def FAB_PACK_ID.pack_id : Field := ⟨0x100200c, 0, 32, 0, .st⟩
/-- FAB_PACK_STATUS.status [15:0], RO (R557 of 13_silent_errors.md). -/
def FAB_PACK_STATUS.status : Field := ⟨0x1002010, 0, 16, 0, .ro⟩
/-- FAB_PACK_STATUS.busy [16:16], RO (R557 of 13_silent_errors.md). -/
def FAB_PACK_STATUS.busy : Field := ⟨0x1002010, 16, 1, 0, .ro⟩
/-- FAB_PACK_SET.packs [3:0], RO (R557 of 13_silent_errors.md). -/
def FAB_PACK_SET.packs : Field := ⟨0x1002014, 0, 4, 0, .ro⟩
/-- FAB_PACK_SET.set_version [31:16], RO (R557 of 13_silent_errors.md). -/
def FAB_PACK_SET.set_version : Field := ⟨0x1002014, 16, 16, 0, .ro⟩
/-- FAB_TEST_CYCLES.cycles [31:0], RO (R557 of 13_silent_errors.md). -/
def FAB_TEST_CYCLES.cycles : Field := ⟨0x1002018, 0, 32, 240000, .ro⟩
/-- FAB_TEST_US_REQ.test_us [15:0], RO (R557 of 13_silent_errors.md). -/
def FAB_TEST_US_REQ.test_us : Field := ⟨0x100201c, 0, 16, 0, .ro⟩
/-- FAB_STRIKE_COUNT.strikes [31:0], RC (R557 of 13_silent_errors.md). -/
def FAB_STRIKE_COUNT.strikes : Field := ⟨0x1002020, 0, 32, 0, .rc⟩
/-- FAB_CAPTURE_DROP.drops [31:0], RC (R557 of 13_silent_errors.md). -/
def FAB_CAPTURE_DROP.drops : Field := ⟨0x1002024, 0, 32, 0, .rc⟩
/-- FAB_TEST_FAIL_COUNT.fails [31:0], RC (R557 of 13_silent_errors.md). -/
def FAB_TEST_FAIL_COUNT.fails : Field := ⟨0x1002028, 0, 32, 0, .rc⟩
/-- FAB_PACK_COMMIT.commit [0:0], WO (R557 of 13_silent_errors.md). -/
def FAB_PACK_COMMIT.commit : Field := ⟨0x100203c, 0, 1, 0, .wo⟩
/-- FAB_PACK_INFO_k.pack_id [31:0], RO (R557 of 13_silent_errors.md). -/
def FAB_PACK_INFO.pack_id : Field := ⟨0x1002040, 0, 32, 0, .ro⟩
/-- FAB_PACK_INFO_k.pack_version [47:32], RO (R557 of 13_silent_errors.md). -/
def FAB_PACK_INFO.pack_version : Field := ⟨0x1002040, 32, 16, 0, .ro⟩
/-- FAB_PACK_INFO_k.slots [55:48], RO (R557 of 13_silent_errors.md). -/
def FAB_PACK_INFO.slots : Field := ⟨0x1002040, 48, 8, 0, .ro⟩
/-- ISL_STATE.state [1:0], RO (R600 of 14_safety_islands.md). -/
def ISL_STATE.state : Field := ⟨0x0, 0, 2, 2, .ro⟩
/-- ISL_STATE.peer_ok [2:2], RO (R600 of 14_safety_islands.md). -/
def ISL_STATE.peer_ok : Field := ⟨0x0, 2, 1, 0, .ro⟩
/-- ISL_STATE.inject_passed [3:3], RO (R600 of 14_safety_islands.md). -/
def ISL_STATE.inject_passed : Field := ⟨0x0, 3, 1, 0, .ro⟩
/-- ISL_STATE.last_cause [15:8], RO (R600 of 14_safety_islands.md). -/
def ISL_STATE.last_cause : Field := ⟨0x0, 8, 8, 0, .ro⟩
/-- ISL_CAUSE.causes [63:0], RO (R600 of 14_safety_islands.md). -/
def ISL_CAUSE.causes : Field := ⟨0x8, 0, 64, 0, .ro⟩
/-- ISL_INJECT.passed [11:0], RO (R600 of 14_safety_islands.md). -/
def ISL_INJECT.passed : Field := ⟨0x10, 0, 12, 0, .ro⟩
/-- ISL_INJECT.first_failed [27:16], RO (R600 of 14_safety_islands.md). -/
def ISL_INJECT.first_failed : Field := ⟨0x10, 16, 12, 4095, .ro⟩
/-- ISL_INJECT_TIME.ms [15:0], RO (R600 of 14_safety_islands.md). -/
def ISL_INJECT_TIME.ms : Field := ⟨0x14, 0, 16, 0, .ro⟩
/-- ISL_FW_VERSION.version [31:0], RO (R600 of 14_safety_islands.md). -/
def ISL_FW_VERSION.version : Field := ⟨0x18, 0, 32, 0, .ro⟩
/-- ISL_RESTART_COUNT.restarts [31:0], RC (R600 of 14_safety_islands.md). -/
def ISL_RESTART_COUNT.restarts : Field := ⟨0x1c, 0, 32, 0, .rc⟩
/-- ISL_RAIL_k.mv [15:0], RO (R600 of 14_safety_islands.md). -/
def ISL_RAIL.mv : Field := ⟨0x100, 0, 16, 0, .ro⟩
/-- ISL_TEMP_d.max_c [7:0], RO (R600 of 14_safety_islands.md). -/
def ISL_TEMP.max_c : Field := ⟨0x140, 0, 8, 0, .ro⟩
/-- ISL_MAILBOX_CMD.cmd [7:0], WO (R600 of 14_safety_islands.md). -/
def ISL_MAILBOX_CMD.cmd : Field := ⟨0x1000, 0, 8, 0, .wo⟩
/-- ISL_MAILBOX_ARG.key [31:0], WO (R600 of 14_safety_islands.md). -/
def ISL_MAILBOX_ARG.key : Field := ⟨0x1004, 0, 32, 0, .wo⟩
/-- ISL_MAILBOX_STATUS.status [15:0], RO (R600 of 14_safety_islands.md). -/
def ISL_MAILBOX_STATUS.status : Field := ⟨0x1008, 0, 16, 0, .ro⟩
/-- OVR_POLICY.policy_handle [31:0], ST (R639 of 15_ouvur.md). -/
def OVR_POLICY.policy_handle : Field := ⟨0x1100000, 0, 32, 0, .st⟩
/-- OVR_CTRL.enable [0:0], ST (R639 of 15_ouvur.md). -/
def OVR_CTRL.enable : Field := ⟨0x1100004, 0, 1, 0, .st⟩
/-- OVR_CTRL.rejoin_auto [1:1], ST (R639 of 15_ouvur.md). -/
def OVR_CTRL.rejoin_auto : Field := ⟨0x1100004, 1, 1, 1, .st⟩
/-- OVR_CTRL.time_port [3:2], ST (R639 of 15_ouvur.md). -/
def OVR_CTRL.time_port : Field := ⟨0x1100004, 2, 2, 0, .st⟩
/-- OVR_EREC_ADDR.addr [47:0], ST (R639 of 15_ouvur.md). -/
def OVR_EREC_ADDR.addr : Field := ⟨0x1100008, 0, 48, 0, .st⟩
/-- OVR_STATUS.state [2:0], RO (R639 of 15_ouvur.md). -/
def OVR_STATUS.state : Field := ⟨0x1100010, 0, 3, 0, .ro⟩
/-- OVR_STATUS.coordinator [3:3], RO (R639 of 15_ouvur.md). -/
def OVR_STATUS.coordinator : Field := ⟨0x1100010, 3, 1, 0, .ro⟩
/-- OVR_STATUS.pkg_id [27:16], RO (R639 of 15_ouvur.md). -/
def OVR_STATUS.pkg_id : Field := ⟨0x1100010, 16, 12, 0, .ro⟩
/-- OVR_EPOCH.epoch [31:0], RO (R639 of 15_ouvur.md). -/
def OVR_EPOCH.epoch : Field := ⟨0x1100014, 0, 32, 0, .ro⟩
/-- OVR_MEMBERS.members [12:0], RO (R639 of 15_ouvur.md). -/
def OVR_MEMBERS.members : Field := ⟨0x1100018, 0, 13, 0, .ro⟩
/-- OVR_DROP_COUNT.drops [31:0], RC (R639 of 15_ouvur.md). -/
def OVR_DROP_COUNT.drops : Field := ⟨0x110001c, 0, 32, 0, .rc⟩
/-- OVR_REQ.rejoin [0:0], WO (R639 of 15_ouvur.md). -/
def OVR_REQ.rejoin : Field := ⟨0x1100020, 0, 1, 0, .wo⟩
/-- OVR_LOST_COUNT.lost [31:0], RC (R639 of 15_ouvur.md). -/
def OVR_LOST_COUNT.lost : Field := ⟨0x1100024, 0, 32, 0, .rc⟩
/-- OVR_COMMIT.commit [0:0], WO (R639 of 15_ouvur.md). -/
def OVR_COMMIT.commit : Field := ⟨0x110003c, 0, 1, 0, .wo⟩
/-- OVR_PORT_p.state [1:0], RO (R639 of 15_ouvur.md). -/
def OVR_PORT.state : Field := ⟨0x1100040, 0, 2, 0, .ro⟩
/-- OVR_PORT_p.suspect [2:2], RO (R639 of 15_ouvur.md). -/
def OVR_PORT.suspect : Field := ⟨0x1100040, 2, 1, 0, .ro⟩
/-- OVR_PORT_p.neighbour [19:8], RO (R639 of 15_ouvur.md). -/
def OVR_PORT.neighbour : Field := ⟨0x1100040, 8, 12, 0, .ro⟩
/-- OVR_MISS_p.misses [31:0], RC (R639 of 15_ouvur.md). -/
def OVR_MISS.misses : Field := ⟨0x1100044, 0, 32, 0, .rc⟩
/-- OVR_Q_BASE.base [47:0], ST (R640 of 15_ouvur.md). -/
def OVR_Q_BASE.base : Field := ⟨0x1101000, 0, 48, 0, .st⟩
/-- OVR_Q_DB.db [47:0], ST (R640 of 15_ouvur.md). -/
def OVR_Q_DB.db : Field := ⟨0x1101008, 0, 48, 0, .st⟩
/-- OVR_Q_STAT.stat [47:0], ST (R640 of 15_ouvur.md). -/
def OVR_Q_STAT.stat : Field := ⟨0x1101010, 0, 48, 0, .st⟩
/-- OVR_Q_CFG.size_log2 [3:0], ST (R640 of 15_ouvur.md). -/
def OVR_Q_CFG.size_log2 : Field := ⟨0x1101018, 0, 4, 0, .st⟩
/-- OVR_Q_CFG.enable [4:4], ST (R640 of 15_ouvur.md). -/
def OVR_Q_CFG.enable : Field := ⟨0x1101018, 4, 1, 0, .st⟩
/-- OVR_Q_CFG.poll_us [17:8], ST (R640 of 15_ouvur.md). -/
def OVR_Q_CFG.poll_us : Field := ⟨0x1101018, 8, 10, 0, .st⟩
/-- OVR_GROUP_ADDR.groups [47:0], ST (R640 of 15_ouvur.md). -/
def OVR_GROUP_ADDR.groups : Field := ⟨0x1101020, 0, 48, 0, .st⟩
/-- OVR_MIRROR_ADDR.mirrors [47:0], ST (R640 of 15_ouvur.md). -/
def OVR_MIRROR_ADDR.mirrors : Field := ⟨0x1101028, 0, 48, 0, .st⟩
/-- OVR_Q_COMMIT.commit [0:0], WO (R640 of 15_ouvur.md). -/
def OVR_Q_COMMIT.commit : Field := ⟨0x110103c, 0, 1, 0, .wo⟩
/-- PWR_PKG_CAP.cap_w [9:0], ST (R675 of 16_power_cooling.md). -/
def PWR_PKG_CAP.cap_w : Field := ⟨0x1200000, 0, 10, 480, .st⟩
/-- PWR_COOL_CFG.coolant [0:0], ST (R675 of 16_power_cooling.md). -/
def PWR_COOL_CFG.coolant : Field := ⟨0x1200004, 0, 1, 0, .st⟩
/-- PWR_COOL_CFG.nominal_flow [15:8], ST (R675 of 16_power_cooling.md). -/
def PWR_COOL_CFG.nominal_flow : Field := ⟨0x1200004, 8, 8, 40, .st⟩
/-- PWR_COOL_CFG.flow_k [31:16], ST (R675 of 16_power_cooling.md). -/
def PWR_COOL_CFG.flow_k : Field := ⟨0x1200004, 16, 16, 3000, .st⟩
/-- PWR_COOL_REQ_CFG.pwm_hz [14:0], ST (R675 of 16_power_cooling.md). -/
def PWR_COOL_REQ_CFG.pwm_hz : Field := ⟨0x1200008, 0, 15, 1000, .st⟩
/-- PWR_COOL_REQ_CFG.duty_idle [22:16], ST (R675 of 16_power_cooling.md). -/
def PWR_COOL_REQ_CFG.duty_idle : Field := ⟨0x1200008, 16, 7, 20, .st⟩
/-- PWR_COOL_REQ_CFG.flow_filt [31:24], ST (R675 of 16_power_cooling.md). -/
def PWR_COOL_REQ_CFG.flow_filt : Field := ⟨0x1200008, 24, 8, 8, .st⟩
/-- PWR_COOL_SET.outlet_set [7:0], ST (R675 of 16_power_cooling.md). -/
def PWR_COOL_SET.outlet_set : Field := ⟨0x120000c, 0, 8, 60, .st⟩
/-- PWR_COOL_SET.gain [15:8], ST (R675 of 16_power_cooling.md). -/
def PWR_COOL_SET.gain : Field := ⟨0x120000c, 8, 8, 10, .st⟩
/-- PWR_COURSE_POLICY.retain_after_us [15:0], ST (R675 of 16_power_cooling.md). -/
def PWR_COURSE_POLICY.retain_after_us : Field := ⟨0x1200010, 0, 16, 200, .st⟩
/-- PWR_COURSE_POLICY.off_allowed [16:16], ST (R675 of 16_power_cooling.md). -/
def PWR_COURSE_POLICY.off_allowed : Field := ⟨0x1200010, 16, 1, 1, .st⟩
/-- PWR_FCAST_ADDR.addr [47:0], ST (R675 of 16_power_cooling.md). -/
def PWR_FCAST_ADDR.addr : Field := ⟨0x1200018, 0, 48, 0, .st⟩
/-- PWR_FCAST_POST.seq [31:0], WO (R675 of 16_power_cooling.md). -/
def PWR_FCAST_POST.seq : Field := ⟨0x1200020, 0, 32, 0, .wo⟩
/-- PWR_FCAST_STATUS.status [15:0], RO (R675 of 16_power_cooling.md). -/
def PWR_FCAST_STATUS.status : Field := ⟨0x1200024, 0, 16, 0, .ro⟩
/-- PWR_STATUS.limp [0:0], RO (R675 of 16_power_cooling.md). -/
def PWR_STATUS.limp : Field := ⟨0x1200028, 0, 1, 0, .ro⟩
/-- PWR_STATUS.flow_low [1:1], RO (R675 of 16_power_cooling.md). -/
def PWR_STATUS.flow_low : Field := ⟨0x1200028, 1, 1, 0, .ro⟩
/-- PWR_STATUS.cal_fault [2:2], RO (R675 of 16_power_cooling.md). -/
def PWR_STATUS.cal_fault : Field := ⟨0x1200028, 2, 1, 0, .ro⟩
/-- PWR_STATUS.trip_seen [3:3], W1C (R675 of 16_power_cooling.md). -/
def PWR_STATUS.trip_seen : Field := ⟨0x1200028, 3, 1, 0, .w1c⟩
/-- PWR_STATUS.ceiling_mhz [18:8], RO (R675 of 16_power_cooling.md). -/
def PWR_STATUS.ceiling_mhz : Field := ⟨0x1200028, 8, 11, 1530, .ro⟩
/-- PWR_FLOW.flow [15:0], RO (R675 of 16_power_cooling.md). -/
def PWR_FLOW.flow : Field := ⟨0x120002c, 0, 16, 0, .ro⟩
/-- PWR_FLOW.flow_a_valid [16:16], RO (R675 of 16_power_cooling.md). -/
def PWR_FLOW.flow_a_valid : Field := ⟨0x120002c, 16, 1, 0, .ro⟩
/-- PWR_FLOW.flow_b_valid [17:17], RO (R675 of 16_power_cooling.md). -/
def PWR_FLOW.flow_b_valid : Field := ⟨0x120002c, 17, 1, 0, .ro⟩
/-- PWR_COOLANT_T.inlet [15:0], RO (R675 of 16_power_cooling.md). -/
def PWR_COOLANT_T.inlet : Field := ⟨0x1200030, 0, 16, 0, .ro⟩
/-- PWR_COOLANT_T.outlet [31:16], RO (R675 of 16_power_cooling.md). -/
def PWR_COOLANT_T.outlet : Field := ⟨0x1200030, 16, 16, 0, .ro⟩
/-- PWR_HEAT.q_cal [15:0], RO (R675 of 16_power_cooling.md). -/
def PWR_HEAT.q_cal : Field := ⟨0x1200034, 0, 16, 0, .ro⟩
/-- PWR_HEAT.p_el [31:16], RO (R675 of 16_power_cooling.md). -/
def PWR_HEAT.p_el : Field := ⟨0x1200034, 16, 16, 0, .ro⟩
/-- PWR_COOL_DUTY.duty [9:0], RO (R675 of 16_power_cooling.md). -/
def PWR_COOL_DUTY.duty : Field := ⟨0x1200038, 0, 10, 0, .ro⟩
/-- PWR_COMMIT.commit [0:0], WO (R675 of 16_power_cooling.md). -/
def PWR_COMMIT.commit : Field := ⟨0x120003c, 0, 1, 0, .wo⟩
/-- PWR_DOMAIN_ON_k.on [31:0], RO (R675 of 16_power_cooling.md). -/
def PWR_DOMAIN_ON.on : Field := ⟨0x1200040, 0, 32, 0, .ro⟩
/-- PWR_COURSE_STATE_k.state [31:0], RO (R675 of 16_power_cooling.md). -/
def PWR_COURSE_STATE.state : Field := ⟨0x1200050, 0, 32, 0, .ro⟩
/-- PWR_BELOW_FLOOR_COUNT.count [31:0], RC (R675 of 16_power_cooling.md). -/
def PWR_BELOW_FLOOR_COUNT.count : Field := ⟨0x1200060, 0, 32, 0, .rc⟩
/-- KEY_STATE.lock_state [7:0], RO (R704 of 17_keystone.md). -/
def KEY_STATE.lock_state : Field := ⟨0x1300000, 0, 8, 1, .ro⟩
/-- KEY_STATE.store_fuses_left [15:8], RO (R704 of 17_keystone.md). -/
def KEY_STATE.store_fuses_left : Field := ⟨0x1300000, 8, 8, 255, .ro⟩
/-- KEY_STATE.half_pending [16:16], RO (R704 of 17_keystone.md). -/
def KEY_STATE.half_pending : Field := ⟨0x1300000, 16, 1, 0, .ro⟩
/-- KEY_CHALLENGE_k.challenge [63:0], RO (R704 of 17_keystone.md). -/
def KEY_CHALLENGE.challenge : Field := ⟨0x1300010, 0, 64, 0, .ro⟩
/-- KEY_REQ_ADDR.addr [47:0], ST (R704 of 17_keystone.md). -/
def KEY_REQ_ADDR.addr : Field := ⟨0x1300030, 0, 48, 0, .st⟩
/-- KEY_REQ_STATUS.status [15:0], RO (R704 of 17_keystone.md). -/
def KEY_REQ_STATUS.status : Field := ⟨0x1300038, 0, 16, 0, .ro⟩
/-- KEY_REQ_STATUS.busy [16:16], RO (R704 of 17_keystone.md). -/
def KEY_REQ_STATUS.busy : Field := ⟨0x1300038, 16, 1, 0, .ro⟩
/-- KEY_REQ_COMMIT.commit [0:0], WO (R704 of 17_keystone.md). -/
def KEY_REQ_COMMIT.commit : Field := ⟨0x130003c, 0, 1, 0, .wo⟩
/-- KEY_POLICY_ADDR.addr [47:0], ST (R704 of 17_keystone.md). -/
def KEY_POLICY_ADDR.addr : Field := ⟨0x1300040, 0, 48, 0, .st⟩
/-- KEY_POLICY_OP.op [1:0], ST (R704 of 17_keystone.md). -/
def KEY_POLICY_OP.op : Field := ⟨0x1300048, 0, 2, 0, .st⟩
/-- KEY_POLICY_HANDLE.handle [31:0], RW (R704 of 17_keystone.md). -/
def KEY_POLICY_HANDLE.handle : Field := ⟨0x130004c, 0, 32, 0, .rw⟩
/-- KEY_POLICY_STATUS.status [15:0], RO (R704 of 17_keystone.md). -/
def KEY_POLICY_STATUS.status : Field := ⟨0x1300050, 0, 16, 0, .ro⟩
/-- KEY_POLICY_STATUS.busy [16:16], RO (R704 of 17_keystone.md). -/
def KEY_POLICY_STATUS.busy : Field := ⟨0x1300050, 16, 1, 0, .ro⟩
/-- KEY_POLICY_COMMIT.commit [0:0], WO (R704 of 17_keystone.md). -/
def KEY_POLICY_COMMIT.commit : Field := ⟨0x130005c, 0, 1, 0, .wo⟩
/-- KEY_ATT_ADDR.addr [47:0], ST (R704 of 17_keystone.md). -/
def KEY_ATT_ADDR.addr : Field := ⟨0x1300060, 0, 48, 0, .st⟩
/-- KEY_ATT_CTX.context [7:0], ST (R704 of 17_keystone.md). -/
def KEY_ATT_CTX.context : Field := ⟨0x1300068, 0, 8, 255, .st⟩
/-- KEY_ATT_STATUS.status [15:0], RO (R704 of 17_keystone.md). -/
def KEY_ATT_STATUS.status : Field := ⟨0x130006c, 0, 16, 0, .ro⟩
/-- KEY_ATT_STATUS.busy [16:16], RO (R704 of 17_keystone.md). -/
def KEY_ATT_STATUS.busy : Field := ⟨0x130006c, 16, 1, 0, .ro⟩
/-- KEY_ATT_COMMIT.commit [0:0], WO (R704 of 17_keystone.md). -/
def KEY_ATT_COMMIT.commit : Field := ⟨0x130007c, 0, 1, 0, .wo⟩
/-- KEY_REC_SEQ.seq [31:0], RO (R704 of 17_keystone.md). -/
def KEY_REC_SEQ.seq : Field := ⟨0x1300080, 0, 32, 0, .ro⟩
/-- KEY_REC_READ.index [13:0], RW (R704 of 17_keystone.md). -/
def KEY_REC_READ.index : Field := ⟨0x1300084, 0, 14, 0, .rw⟩
/-- KEY_COPY_ADDR.addr [47:0], ST (R704 of 17_keystone.md). -/
def KEY_COPY_ADDR.addr : Field := ⟨0x1300088, 0, 48, 0, .st⟩
/-- KEY_COPY_OP.op [1:0], ST (R704 of 17_keystone.md). -/
def KEY_COPY_OP.op : Field := ⟨0x1300090, 0, 2, 0, .st⟩
/-- KEY_COPY_STATUS.status [15:0], RO (R704 of 17_keystone.md). -/
def KEY_COPY_STATUS.status : Field := ⟨0x1300094, 0, 16, 0, .ro⟩
/-- KEY_COPY_COMMIT.commit [0:0], WO (R704 of 17_keystone.md). -/
def KEY_COPY_COMMIT.commit : Field := ⟨0x130009c, 0, 1, 0, .wo⟩
/-- KEY_REC_DATA_k.entry [63:0], RO (R704 of 17_keystone.md). -/
def KEY_REC_DATA.entry : Field := ⟨0x1300100, 0, 64, 0, .ro⟩
/-- NWT_RESET_CAUSE.kind [2:0], RO (R727 of 18_dawn.md). -/
def NWT_RESET_CAUSE.kind : Field := ⟨0x10100, 0, 3, 0, .ro⟩
/-- NWT_RESET_CAUSE.nightwatch_lost [3:3], RO (R727 of 18_dawn.md). -/
def NWT_RESET_CAUSE.nightwatch_lost : Field := ⟨0x10100, 3, 1, 0, .ro⟩
/-- NWT_DAWN_STATUS.status [15:0], RO (R727 of 18_dawn.md). -/
def NWT_DAWN_STATUS.status : Field := ⟨0x10104, 0, 16, 0, .ro⟩
/-- NWT_DAWN_STATUS.step [19:16], RO (R727 of 18_dawn.md). -/
def NWT_DAWN_STATUS.step : Field := ⟨0x10104, 16, 4, 0, .ro⟩
/-- NWT_DAWN_STATUS.ready [20:20], RO (R727 of 18_dawn.md). -/
def NWT_DAWN_STATUS.ready : Field := ⟨0x10104, 20, 1, 0, .ro⟩
/-- NWT_DAWN_STATUS.held [21:21], RO (R727 of 18_dawn.md). -/
def NWT_DAWN_STATUS.held : Field := ⟨0x10104, 21, 1, 0, .ro⟩
/-- NWT_DAWN_TIME.ms [15:0], RO (R727 of 18_dawn.md). -/
def NWT_DAWN_TIME.ms : Field := ⟨0x10108, 0, 16, 0, .ro⟩
/-- NWT_RESET_REQ.kind [1:0], ST (R727 of 18_dawn.md). -/
def NWT_RESET_REQ.kind : Field := ⟨0x10110, 0, 2, 0, .st⟩
/-- NWT_RESET_REQ.die [4:2], ST (R727 of 18_dawn.md). -/
def NWT_RESET_REQ.die : Field := ⟨0x10110, 2, 3, 0, .st⟩
/-- NWT_RESET_REQ.key [31:16], ST (R727 of 18_dawn.md). -/
def NWT_RESET_REQ.key : Field := ⟨0x10110, 16, 16, 0, .st⟩
/-- NWT_RESET_STATUS.status [15:0], RO (R727 of 18_dawn.md). -/
def NWT_RESET_STATUS.status : Field := ⟨0x10114, 0, 16, 0, .ro⟩
/-- NWT_RESET_STATUS.partial_busy [16:16], RO (R727 of 18_dawn.md). -/
def NWT_RESET_STATUS.partial_busy : Field := ⟨0x10114, 16, 1, 0, .ro⟩
/-- NWT_RESET_COMMIT.commit [0:0], WO (R727 of 18_dawn.md). -/
def NWT_RESET_COMMIT.commit : Field := ⟨0x1011c, 0, 1, 0, .wo⟩
/-- NWT_NIGHT_CTRL.target [1:0], ST (R727 of 18_dawn.md). -/
def NWT_NIGHT_CTRL.target : Field := ⟨0x10120, 0, 2, 0, .st⟩
/-- NWT_NIGHT_CTRL.wake_pin [2:2], ST (R727 of 18_dawn.md). -/
def NWT_NIGHT_CTRL.wake_pin : Field := ⟨0x10120, 2, 1, 1, .st⟩
/-- NWT_NIGHT_CTRL.wake_alarm [3:3], ST (R727 of 18_dawn.md). -/
def NWT_NIGHT_CTRL.wake_alarm : Field := ⟨0x10120, 3, 1, 0, .st⟩
/-- NWT_NIGHT_WAKE_AT.alarm [63:0], ST (R727 of 18_dawn.md). -/
def NWT_NIGHT_WAKE_AT.alarm : Field := ⟨0x10128, 0, 64, 0, .st⟩
/-- NWT_NIGHT_SAVE.addr [47:0], ST (R727 of 18_dawn.md). -/
def NWT_NIGHT_SAVE.addr : Field := ⟨0x10130, 0, 48, 0, .st⟩
/-- NWT_NIGHT_STATUS.status [15:0], RO (R727 of 18_dawn.md). -/
def NWT_NIGHT_STATUS.status : Field := ⟨0x10138, 0, 16, 0, .ro⟩
/-- NWT_NIGHT_STATUS.busy [16:16], RO (R727 of 18_dawn.md). -/
def NWT_NIGHT_STATUS.busy : Field := ⟨0x10138, 16, 1, 0, .ro⟩
/-- NWT_NIGHT_STATUS.by_alarm [17:17], RO (R727 of 18_dawn.md). -/
def NWT_NIGHT_STATUS.by_alarm : Field := ⟨0x10138, 17, 1, 0, .ro⟩
/-- NWT_NIGHT_COMMIT.commit [0:0], WO (R727 of 18_dawn.md). -/
def NWT_NIGHT_COMMIT.commit : Field := ⟨0x1013c, 0, 1, 0, .wo⟩
/-- NWT_NIGHT_TIME.ms [31:0], RO (R727 of 18_dawn.md). -/
def NWT_NIGHT_TIME.ms : Field := ⟨0x10140, 0, 32, 0, .ro⟩
/-- NWT_INPUT_FILTER.warm_filt [7:0], ST (R754 of 19_balls_signals.md). -/
def NWT_INPUT_FILTER.warm_filt : Field := ⟨0x10200, 0, 8, 40, .st⟩
/-- NWT_INPUT_FILTER.wake_filt [15:8], ST (R754 of 19_balls_signals.md). -/
def NWT_INPUT_FILTER.wake_filt : Field := ⟨0x10200, 8, 8, 200, .st⟩
/-- NWT_INPUT_STATE.pwr_good [0:0], RO (R754 of 19_balls_signals.md). -/
def NWT_INPUT_STATE.pwr_good : Field := ⟨0x10204, 0, 1, 0, .ro⟩
/-- NWT_INPUT_STATE.warm_rst_n [1:1], RO (R754 of 19_balls_signals.md). -/
def NWT_INPUT_STATE.warm_rst_n : Field := ⟨0x10204, 1, 1, 1, .ro⟩
/-- NWT_INPUT_STATE.wake_n [2:2], RO (R754 of 19_balls_signals.md). -/
def NWT_INPUT_STATE.wake_n : Field := ⟨0x10204, 2, 1, 1, .ro⟩
/-- NWT_INPUT_STATE.flow_a [3:3], RO (R754 of 19_balls_signals.md). -/
def NWT_INPUT_STATE.flow_a : Field := ⟨0x10204, 3, 1, 0, .ro⟩
/-- NWT_INPUT_STATE.flow_b [4:4], RO (R754 of 19_balls_signals.md). -/
def NWT_INPUT_STATE.flow_b : Field := ⟨0x10204, 4, 1, 0, .ro⟩
/-- NWT_INPUT_STATE.thermtrip_n [5:5], RO (R754 of 19_balls_signals.md). -/
def NWT_INPUT_STATE.thermtrip_n : Field := ⟨0x10204, 5, 1, 1, .ro⟩
/-- NWT_INPUT_FAULT.warm_stuck [0:0], W1C (R754 of 19_balls_signals.md). -/
def NWT_INPUT_FAULT.warm_stuck : Field := ⟨0x10208, 0, 1, 0, .w1c⟩
/-- NWT_INPUT_FAULT.warm_toggle [1:1], W1C (R754 of 19_balls_signals.md). -/
def NWT_INPUT_FAULT.warm_toggle : Field := ⟨0x10208, 1, 1, 0, .w1c⟩
/-- NWT_INPUT_FAULT.wake_stuck [2:2], W1C (R754 of 19_balls_signals.md). -/
def NWT_INPUT_FAULT.wake_stuck : Field := ⟨0x10208, 2, 1, 0, .w1c⟩
/-- NWT_INPUT_FAULT.wake_toggle [3:3], W1C (R754 of 19_balls_signals.md). -/
def NWT_INPUT_FAULT.wake_toggle : Field := ⟨0x10208, 3, 1, 0, .w1c⟩
/-- NWT_INPUT_COMMIT.commit [0:0], WO (R754 of 19_balls_signals.md). -/
def NWT_INPUT_COMMIT.commit : Field := ⟨0x1021c, 0, 1, 0, .wo⟩
/-- FAB_COMMIT_STATUS.status [15:0], RO (R770 of 20_setup_space.md). -/
def FAB_COMMIT_STATUS.status : Field := ⟨0x40, 0, 16, 0, .ro⟩
/-- FAB_COMMIT_STATUS.busy [16:16], RO (R770 of 20_setup_space.md). -/
def FAB_COMMIT_STATUS.busy : Field := ⟨0x40, 16, 1, 0, .ro⟩
/-- FAB_COMMIT_STATUS.ignored_write [17:17], W1C (R770 of 20_setup_space.md). -/
def FAB_COMMIT_STATUS.ignored_write : Field := ⟨0x40, 17, 1, 0, .w1c⟩
/-- FAB_COMMIT_WHERE.commit_offset [27:0], RO (R770 of 20_setup_space.md). -/
def FAB_COMMIT_WHERE.commit_offset : Field := ⟨0x44, 0, 28, 0, .ro⟩
/-- FAB_COMMIT_FIELD.field_offset [27:0], RO (R770 of 20_setup_space.md). -/
def FAB_COMMIT_FIELD.field_offset : Field := ⟨0x48, 0, 28, 0, .ro⟩
/-- FAB_IGNORED_ADDR.offset [27:0], RO (R770 of 20_setup_space.md). -/
def FAB_IGNORED_ADDR.offset : Field := ⟨0x4c, 0, 28, 0, .ro⟩

/-- FAB_PART_ID (R1). -/
def FAB_PART_ID.row : RegRow := ⟨0, 1, 0x0, 32, [],
  [FAB_PART_ID.part_code, FAB_PART_ID.family_code, FAB_PART_ID.hearth_major, FAB_PART_ID.hearth_minor]⟩
/-- NWT_DIAL_NOW (R36). -/
def NWT_DIAL_NOW.row : RegRow := ⟨0, 1, 0x10000, 64, [],
  [NWT_DIAL_NOW.dial_ns]⟩
/-- NWT_DIAL_STATUS (R37). -/
def NWT_DIAL_STATUS.row : RegRow := ⟨0, 1, 0x10008, 32, [],
  [NWT_DIAL_STATUS.sync_state, NWT_DIAL_STATUS.stepped, NWT_DIAL_STATUS.ahead_of_ref, NWT_DIAL_STATUS.active_source]⟩
/-- NWT_DIAL_OFFSET (R38). -/
def NWT_DIAL_OFFSET.row : RegRow := ⟨0, 1, 0x1000c, 32, [],
  [NWT_DIAL_OFFSET.offset_ns]⟩
/-- NWT_DIAL_CTRL (R39). -/
def NWT_DIAL_CTRL.row : RegRow := ⟨0, 1, 0x10010, 32, [],
  [NWT_DIAL_CTRL.source_sel, NWT_DIAL_CTRL.slew_limit_ppm, NWT_DIAL_CTRL.lock_count, NWT_DIAL_CTRL.lock_window]⟩
/-- NWT_COMMIT (R39). -/
def NWT_COMMIT.row : RegRow := ⟨0, 1, 0x1001c, 32, [],
  [NWT_COMMIT.commit]⟩
/-- TRW_COURSE_STATE (R95). -/
def TRW_COURSE_STATE.row : RegRow := ⟨1, 4, 0x200000, 32, [(16, 0x100)],
  [TRW_COURSE_STATE.context, TRW_COURSE_STATE.running, TRW_COURSE_STATE.switching, TRW_COURSE_STATE.course_fenced, TRW_COURSE_STATE.busy_map]⟩
/-- TRW_FENCE_MAP (R96). -/
def TRW_FENCE_MAP.row : RegRow := ⟨1, 4, 0x200004, 32, [(16, 0x100)],
  [TRW_FENCE_MAP.brick_fenced]⟩
/-- TRW_LINK_FENCE (R96). -/
def TRW_LINK_FENCE.row : RegRow := ⟨1, 4, 0x200008, 32, [(16, 0x100)],
  [TRW_LINK_FENCE.link_fenced]⟩
/-- TRW_WDOG_CTRL (R97). -/
def TRW_WDOG_CTRL.row : RegRow := ⟨1, 4, 0x20000c, 32, [(16, 0x100)],
  [TRW_WDOG_CTRL.timeout_us, TRW_WDOG_CTRL.enable]⟩
/-- TRW_LOAD_COUNT (R98). -/
def TRW_LOAD_COUNT.row : RegRow := ⟨1, 4, 0x200010, 32, [(16, 0x100)],
  [TRW_LOAD_COUNT.loads]⟩
/-- TRW_REFUSE_COUNT (R98). -/
def TRW_REFUSE_COUNT.row : RegRow := ⟨1, 4, 0x200014, 32, [(16, 0x100)],
  [TRW_REFUSE_COUNT.refusals]⟩
/-- TRW_COMMIT (R98). -/
def TRW_COMMIT.row : RegRow := ⟨1, 4, 0x20001c, 32, [(16, 0x100)],
  [TRW_COMMIT.commit]⟩
/-- QNT_REISSUE_COUNT (R160). -/
def QNT_REISSUE_COUNT.row : RegRow := ⟨1, 4, 0x240000, 32, [(16, 0x20)],
  [QNT_REISSUE_COUNT.reissues]⟩
/-- QNT_UNDERSCALE_COUNT (R160). -/
def QNT_UNDERSCALE_COUNT.row : RegRow := ⟨1, 4, 0x240004, 32, [(16, 0x20)],
  [QNT_UNDERSCALE_COUNT.underscaled]⟩
/-- QNT_PRECISION_LOSS_COUNT (R160). -/
def QNT_PRECISION_LOSS_COUNT.row : RegRow := ⟨1, 4, 0x240008, 32, [(16, 0x20)],
  [QNT_PRECISION_LOSS_COUNT.precision_loss]⟩
/-- QNT_OVERFLOW_ROWS (R160). -/
def QNT_OVERFLOW_ROWS.row : RegRow := ⟨1, 4, 0x24000c, 32, [(16, 0x20)],
  [QNT_OVERFLOW_ROWS.overflow_rows]⟩
/-- QNT_SEEDED_ROWS (R160). -/
def QNT_SEEDED_ROWS.row : RegRow := ⟨1, 4, 0x240010, 32, [(16, 0x20)],
  [QNT_SEEDED_ROWS.seeded]⟩
/-- SIV_STATUS (R212). -/
def SIV_STATUS.row : RegRow := ⟨0, 1, 0x600000, 32, [],
  [SIV_STATUS.busy, SIV_STATUS.disabled, SIV_STATUS.queue_depth]⟩
/-- SIV_JOB_COUNT (R212). -/
def SIV_JOB_COUNT.row : RegRow := ⟨0, 1, 0x600004, 32, [],
  [SIV_JOB_COUNT.jobs]⟩
/-- SIV_REFUSE_COUNT (R212). -/
def SIV_REFUSE_COUNT.row : RegRow := ⟨0, 1, 0x600008, 32, [],
  [SIV_REFUSE_COUNT.refusals]⟩
/-- SIV_INVALID_COUNT (R212). -/
def SIV_INVALID_COUNT.row : RegRow := ⟨0, 1, 0x60000c, 32, [],
  [SIV_INVALID_COUNT.invalid]⟩
/-- SIV_MAX_TIME (R212). -/
def SIV_MAX_TIME.row : RegRow := ⟨0, 1, 0x600010, 32, [],
  [SIV_MAX_TIME.max_us]⟩
/-- DAY_PLAN_ADDR (R280). -/
def DAY_PLAN_ADDR.row : RegRow := ⟨0, 1, 0x400000, 64, [],
  [DAY_PLAN_ADDR.plan_addr]⟩
/-- DAY_STATUS (R280). -/
def DAY_STATUS.row : RegRow := ⟨0, 1, 0x400008, 32, [],
  [DAY_STATUS.active_valid, DAY_STATUS.staged_valid, DAY_STATUS.commit_busy]⟩
/-- DAY_ACTIVE_ID (R280). -/
def DAY_ACTIVE_ID.row : RegRow := ⟨0, 1, 0x40000c, 32, [],
  [DAY_ACTIVE_ID.plan_id]⟩
/-- DAY_PERIOD_INDEX (R280). -/
def DAY_PERIOD_INDEX.row : RegRow := ⟨0, 1, 0x400010, 32, [],
  [DAY_PERIOD_INDEX.period]⟩
/-- DAY_COMMIT_STATUS (R280). -/
def DAY_COMMIT_STATUS.row : RegRow := ⟨0, 1, 0x400014, 32, [],
  [DAY_COMMIT_STATUS.status, DAY_COMMIT_STATUS.watch, DAY_COMMIT_STATUS.course]⟩
/-- DAY_LATE_COUNT (R280). -/
def DAY_LATE_COUNT.row : RegRow := ⟨0, 1, 0x400018, 32, [],
  [DAY_LATE_COUNT.late]⟩
/-- DAY_COMMIT (R280). -/
def DAY_COMMIT.row : RegRow := ⟨0, 1, 0x40001c, 32, [],
  [DAY_COMMIT.commit]⟩
/-- DAY_OVERRUN_COUNT (R280). -/
def DAY_OVERRUN_COUNT.row : RegRow := ⟨0, 1, 0x400020, 32, [],
  [DAY_OVERRUN_COUNT.overruns]⟩
/-- DAY_TEST_MISS_COUNT (R280). -/
def DAY_TEST_MISS_COUNT.row : RegRow := ⟨0, 1, 0x400024, 32, [],
  [DAY_TEST_MISS_COUNT.misses]⟩
/-- HST_SQ_BASE_r (R335). -/
def HST_SQ_BASE.row : RegRow := ⟨0, 1, 0x800000, 64, [(64, 0x100), (4, 0x8)],
  [HST_SQ_BASE.sq_base]⟩
/-- HST_DB_ADDR_r (R335). -/
def HST_DB_ADDR.row : RegRow := ⟨0, 1, 0x800020, 64, [(64, 0x100), (4, 0x8)],
  [HST_DB_ADDR.db_addr]⟩
/-- HST_SQ_CFG_r (R335). -/
def HST_SQ_CFG.row : RegRow := ⟨0, 1, 0x800040, 32, [(64, 0x100), (4, 0x4)],
  [HST_SQ_CFG.size_log2, HST_SQ_CFG.enable, HST_SQ_CFG.poll_us]⟩
/-- HST_CQ_BASE (R335). -/
def HST_CQ_BASE.row : RegRow := ⟨0, 1, 0x800050, 64, [(64, 0x100)],
  [HST_CQ_BASE.cq_base]⟩
/-- HST_CQ_CFG (R335). -/
def HST_CQ_CFG.row : RegRow := ⟨0, 1, 0x800058, 32, [(64, 0x100)],
  [HST_CQ_CFG.size_log2]⟩
/-- HST_EQ_CFG (R335). -/
def HST_EQ_CFG.row : RegRow := ⟨0, 1, 0x80005c, 32, [(64, 0x100)],
  [HST_EQ_CFG.size_log2]⟩
/-- HST_EQ_BASE (R335). -/
def HST_EQ_BASE.row : RegRow := ⟨0, 1, 0x800060, 64, [(64, 0x100)],
  [HST_EQ_BASE.eq_base]⟩
/-- HST_ECHO_ADDR (R335). -/
def HST_ECHO_ADDR.row : RegRow := ⟨0, 1, 0x800068, 64, [(64, 0x100)],
  [HST_ECHO_ADDR.echo_addr]⟩
/-- HST_SAVE_BASE (R335). -/
def HST_SAVE_BASE.row : RegRow := ⟨0, 1, 0x800070, 64, [(64, 0x100)],
  [HST_SAVE_BASE.save_base, HST_SAVE_BASE.save_mib]⟩
/-- HST_TIE_BASE (R335). -/
def HST_TIE_BASE.row : RegRow := ⟨0, 1, 0x800078, 32, [(64, 0x100)],
  [HST_TIE_BASE.tie_base]⟩
/-- HST_TIE_COUNT (R335). -/
def HST_TIE_COUNT.row : RegRow := ⟨0, 1, 0x80007c, 32, [(64, 0x100)],
  [HST_TIE_COUNT.tie_count]⟩
/-- HST_CTX_CTRL (R335). -/
def HST_CTX_CTRL.row : RegRow := ⟨0, 1, 0x800080, 32, [(64, 0x100)],
  [HST_CTX_CTRL.opened, HST_CTX_CTRL.shared_ties, HST_CTX_CTRL.notify_en, HST_CTX_CTRL.irq_vector]⟩
/-- HST_CTX_REQ (R335). -/
def HST_CTX_REQ.row : RegRow := ⟨0, 1, 0x800084, 32, [(64, 0x100)],
  [HST_CTX_REQ.teardown, HST_CTX_REQ.restart]⟩
/-- HST_CTX_STATE (R335). -/
def HST_CTX_STATE.row : RegRow := ⟨0, 1, 0x800088, 32, [(64, 0x100)],
  [HST_CTX_STATE.state, HST_CTX_STATE.stopped]⟩
/-- HST_CTX_COMMIT (R335). -/
def HST_CTX_COMMIT.row : RegRow := ⟨0, 1, 0x8000fc, 32, [(64, 0x100)],
  [HST_CTX_COMMIT.commit]⟩
/-- HST_PCIE_OUT_BASE (R339). -/
def HST_PCIE_OUT_BASE.row : RegRow := ⟨0, 1, 0x804000, 64, [],
  [HST_PCIE_OUT_BASE.pcie_out_base]⟩
/-- HST_DEV_EQ_BASE (R339). -/
def HST_DEV_EQ_BASE.row : RegRow := ⟨0, 1, 0x804008, 64, [],
  [HST_DEV_EQ_BASE.dev_eq_base]⟩
/-- HST_DEV_EQ_CFG (R339). -/
def HST_DEV_EQ_CFG.row : RegRow := ⟨0, 1, 0x804010, 32, [],
  [HST_DEV_EQ_CFG.size_log2, HST_DEV_EQ_CFG.irq_vector]⟩
/-- HST_DEV_EQ_HEAD (R339). -/
def HST_DEV_EQ_HEAD.row : RegRow := ⟨0, 1, 0x804014, 32, [],
  [HST_DEV_EQ_HEAD.head]⟩
/-- HST_DEV_EQ_TAIL (R339). -/
def HST_DEV_EQ_TAIL.row : RegRow := ⟨0, 1, 0x804018, 32, [],
  [HST_DEV_EQ_TAIL.tail]⟩
/-- HST_TIE_SHARED (R339). -/
def HST_TIE_SHARED.row : RegRow := ⟨0, 1, 0x804020, 32, [],
  [HST_TIE_SHARED.shared_base]⟩
/-- HST_TIE_SHARED_COUNT (R339). -/
def HST_TIE_SHARED_COUNT.row : RegRow := ⟨0, 1, 0x804024, 32, [],
  [HST_TIE_SHARED_COUNT.shared_count]⟩
/-- HST_EVT_DROP_COUNT (R339). -/
def HST_EVT_DROP_COUNT.row : RegRow := ⟨0, 1, 0x804028, 32, [],
  [HST_EVT_DROP_COUNT.drops]⟩
/-- HST_COMMIT (R339). -/
def HST_COMMIT.row : RegRow := ⟨0, 1, 0x80403c, 32, [],
  [HST_COMMIT.commit]⟩
/-- TIE_PENDING (R340). -/
def TIE_PENDING.row : RegRow := ⟨1, 4, 0x280000, 32, [],
  [TIE_PENDING.pending]⟩
/-- TIE_SAT_COUNT (R340). -/
def TIE_SAT_COUNT.row : RegRow := ⟨1, 4, 0x280004, 32, [],
  [TIE_SAT_COUNT.saturations]⟩
/-- TIE_TIMEOUT_COUNT (R340). -/
def TIE_TIMEOUT_COUNT.row : RegRow := ⟨1, 4, 0x280008, 32, [],
  [TIE_TIMEOUT_COUNT.timeouts]⟩
/-- HBM_STATUS (R383). -/
def HBM_STATUS.row : RegRow := ⟨1, 4, 0x300000, 32, [],
  [HBM_STATUS.trained, HBM_STATUS.hot, HBM_STATUS.retraining, HBM_STATUS.temp_c, HBM_STATUS.retrain_fail_map]⟩
/-- HBM_CE_COUNT (R383). -/
def HBM_CE_COUNT.row : RegRow := ⟨1, 4, 0x300004, 32, [],
  [HBM_CE_COUNT.corrected]⟩
/-- HBM_UE_COUNT (R383). -/
def HBM_UE_COUNT.row : RegRow := ⟨1, 4, 0x300008, 32, [],
  [HBM_UE_COUNT.uncorrectable]⟩
/-- HBM_CRC_RETRY_COUNT (R383). -/
def HBM_CRC_RETRY_COUNT.row : RegRow := ⟨1, 4, 0x30000c, 32, [],
  [HBM_CRC_RETRY_COUNT.retries]⟩
/-- HBM_LAST_UE_ADDR (R383). -/
def HBM_LAST_UE_ADDR.row : RegRow := ⟨1, 4, 0x300010, 64, [],
  [HBM_LAST_UE_ADDR.address]⟩
/-- HBM_CE_THRESH (R383). -/
def HBM_CE_THRESH.row : RegRow := ⟨1, 4, 0x300018, 32, [],
  [HBM_CE_THRESH.threshold]⟩
/-- HBM_COMMIT (R383). -/
def HBM_COMMIT.row : RegRow := ⟨1, 4, 0x30001c, 32, [],
  [HBM_COMMIT.commit]⟩
/-- HBM_MAP_SRC (R384). -/
def HBM_MAP_SRC.row : RegRow := ⟨0, 1, 0xb00000, 64, [],
  [HBM_MAP_SRC.src]⟩
/-- HBM_MAP_FIRST (R384). -/
def HBM_MAP_FIRST.row : RegRow := ⟨0, 1, 0xb00008, 32, [],
  [HBM_MAP_FIRST.first]⟩
/-- HBM_MAP_COUNT (R384). -/
def HBM_MAP_COUNT.row : RegRow := ⟨0, 1, 0xb0000c, 32, [],
  [HBM_MAP_COUNT.count]⟩
/-- HBM_MAP_STATUS (R384). -/
def HBM_MAP_STATUS.row : RegRow := ⟨0, 1, 0xb00010, 32, [],
  [HBM_MAP_STATUS.status, HBM_MAP_STATUS.busy]⟩
/-- HBM_MAP_FAULT_PAGE (R384). -/
def HBM_MAP_FAULT_PAGE.row : RegRow := ⟨0, 1, 0xb00014, 32, [],
  [HBM_MAP_FAULT_PAGE.page]⟩
/-- HBM_MAP_PEEK (R384). -/
def HBM_MAP_PEEK.row : RegRow := ⟨0, 1, 0xb00018, 32, [],
  [HBM_MAP_PEEK.page]⟩
/-- HBM_MAP_PEEK_DATA (R384). -/
def HBM_MAP_PEEK_DATA.row : RegRow := ⟨0, 1, 0xb0001c, 32, [],
  [HBM_MAP_PEEK_DATA.entry]⟩
/-- HBM_MAP_COMMIT (R384). -/
def HBM_MAP_COMMIT.row : RegRow := ⟨0, 1, 0xb00020, 32, [],
  [HBM_MAP_COMMIT.commit]⟩
/-- HBM_SHARE_RD_k (R384). -/
def HBM_SHARE_RD.row : RegRow := ⟨0, 1, 0xb00110, 64, [(15, 0x10)],
  [HBM_SHARE_RD.ctx_rd]⟩
/-- HBM_SHARE_WR_k (R384). -/
def HBM_SHARE_WR.row : RegRow := ⟨0, 1, 0xb00118, 64, [(15, 0x10)],
  [HBM_SHARE_WR.ctx_wr]⟩
/-- HBM_SHARE_PORTS_k (R384). -/
def HBM_SHARE_PORTS.row : RegRow := ⟨0, 1, 0xb00208, 64, [(15, 0x8)],
  [HBM_SHARE_PORTS.port_rd, HBM_SHARE_PORTS.port_wr]⟩
/-- HBM_SHARE_COMMIT (R384). -/
def HBM_SHARE_COMMIT.row : RegRow := ⟨0, 1, 0xb002fc, 32, [],
  [HBM_SHARE_COMMIT.commit]⟩
/-- PLB_PORT_BW (R386). -/
def PLB_PORT_BW.row : RegRow := ⟨0, 1, 0xa00000, 64, [(74, 0x10)],
  [PLB_PORT_BW.bw_stack1, PLB_PORT_BW.bw_stack2, PLB_PORT_BW.bw_stack3, PLB_PORT_BW.bw_stack4]⟩
/-- PLB_PORT_CFG (R386). -/
def PLB_PORT_CFG.row : RegRow := ⟨0, 1, 0xa00008, 32, [(74, 0x10)],
  [PLB_PORT_CFG.kind, PLB_PORT_CFG.target, PLB_PORT_CFG.drop_class, PLB_PORT_CFG.policy]⟩
/-- PLB_PORT_STATE (R386). -/
def PLB_PORT_STATE.row : RegRow := ⟨0, 1, 0xa0000c, 32, [(74, 0x10)],
  [PLB_PORT_STATE.held, PLB_PORT_STATE.dropped, PLB_PORT_STATE.over_rate, PLB_PORT_STATE.max_wait_10ns]⟩
/-- PLB_LEDGER_s (R387). -/
def PLB_LEDGER.row : RegRow := ⟨0, 1, 0xa00800, 32, [(4, 0x4)],
  [PLB_LEDGER.reserved_gbps, PLB_LEDGER.limit_gbps]⟩
/-- PLB_SWITCH_W_d (R387). -/
def PLB_SWITCH_W.row : RegRow := ⟨0, 1, 0xa00810, 32, [(4, 0x4)],
  [PLB_SWITCH_W.w_gbps, PLB_SWITCH_W.dropped]⟩
/-- PLB_COMMIT_STATUS (R387). -/
def PLB_COMMIT_STATUS.row : RegRow := ⟨0, 1, 0xa00820, 32, [],
  [PLB_COMMIT_STATUS.status, PLB_COMMIT_STATUS.fault]⟩
/-- PLB_DROP_COUNT (R387). -/
def PLB_DROP_COUNT.row : RegRow := ⟨0, 1, 0xa00824, 32, [],
  [PLB_DROP_COUNT.drops]⟩
/-- PLB_COMMIT (R387). -/
def PLB_COMMIT.row : RegRow := ⟨0, 1, 0xa0083c, 32, [],
  [PLB_COMMIT.commit]⟩
/-- MTR_DIE_ID (R427). -/
def MTR_DIE_ID.row : RegRow := ⟨1, 4, 0x340000, 32, [],
  [MTR_DIE_ID.position, MTR_DIE_ID.orientation, MTR_DIE_ID.major, MTR_DIE_ID.minor, MTR_DIE_ID.strap_fault]⟩
/-- MTR_FEATURE (R427). -/
def MTR_FEATURE.row : RegRow := ⟨1, 4, 0x340008, 64, [],
  [MTR_FEATURE.feature]⟩
/-- MTR_BUDGET (R427). -/
def MTR_BUDGET.row : RegRow := ⟨1, 4, 0x340010, 32, [],
  [MTR_BUDGET.core_cap, MTR_BUDGET.hbm_cap]⟩
/-- MTR_MISS_COUNT (R427). -/
def MTR_MISS_COUNT.row : RegRow := ⟨1, 4, 0x340018, 32, [],
  [MTR_MISS_COUNT.missed]⟩
/-- MTR_COMMIT (R427). -/
def MTR_COMMIT.row : RegRow := ⟨1, 4, 0x34003c, 32, [],
  [MTR_COMMIT.commit]⟩
/-- MTR_COMMIT (R427). -/
def MTR_HUB_COMMIT.row : RegRow := ⟨0, 1, 0xc0003c, 32, [],
  [MTR_HUB_COMMIT.commit]⟩
/-- MTR_PORT_STATUS (R428). -/
def MTR_PORT_STATUS.row : RegRow := ⟨1, 4, 0x340100, 32, [(3, 0x40)],
  [MTR_PORT_STATUS.state, MTR_PORT_STATUS.width, MTR_PORT_STATUS.phys_port, MTR_PORT_STATUS.epoch]⟩
/-- MTR_PORT_STATUS (R428). -/
def MTR_HUB_PORT_STATUS.row : RegRow := ⟨0, 1, 0xc00100, 32, [(4, 0x40)],
  [MTR_HUB_PORT_STATUS.state, MTR_HUB_PORT_STATUS.width, MTR_HUB_PORT_STATUS.phys_port, MTR_HUB_PORT_STATUS.epoch]⟩
/-- MTR_LANE_MAP (R428). -/
def MTR_LANE_MAP.row : RegRow := ⟨1, 4, 0x340104, 32, [(3, 0x40)],
  [MTR_LANE_MAP.rx_good]⟩
/-- MTR_LANE_MAP (R428). -/
def MTR_HUB_LANE_MAP.row : RegRow := ⟨0, 1, 0xc00104, 32, [(4, 0x40)],
  [MTR_HUB_LANE_MAP.rx_good]⟩
/-- MTR_LANE_USE (R428). -/
def MTR_LANE_USE.row : RegRow := ⟨1, 4, 0x340108, 32, [(3, 0x40)],
  [MTR_LANE_USE.rx_data]⟩
/-- MTR_LANE_USE (R428). -/
def MTR_HUB_LANE_USE.row : RegRow := ⟨0, 1, 0xc00108, 32, [(4, 0x40)],
  [MTR_HUB_LANE_USE.rx_data]⟩
/-- MTR_PORT_CTRL (R428). -/
def MTR_PORT_CTRL.row : RegRow := ⟨1, 4, 0x34010c, 32, [(3, 0x40)],
  [MTR_PORT_CTRL.retrain, MTR_PORT_CTRL.loopback, MTR_PORT_CTRL.test_ms]⟩
/-- MTR_PORT_CTRL (R428). -/
def MTR_HUB_PORT_CTRL.row : RegRow := ⟨0, 1, 0xc0010c, 32, [(4, 0x40)],
  [MTR_HUB_PORT_CTRL.retrain, MTR_HUB_PORT_CTRL.loopback, MTR_HUB_PORT_CTRL.test_ms]⟩
/-- MTR_REPLAY_COUNT (R428). -/
def MTR_REPLAY_COUNT.row : RegRow := ⟨1, 4, 0x340110, 32, [(3, 0x40)],
  [MTR_REPLAY_COUNT.replays]⟩
/-- MTR_REPLAY_COUNT (R428). -/
def MTR_HUB_REPLAY_COUNT.row : RegRow := ⟨0, 1, 0xc00110, 32, [(4, 0x40)],
  [MTR_HUB_REPLAY_COUNT.replays]⟩
/-- MTR_REPAIR_COUNT (R428). -/
def MTR_REPAIR_COUNT.row : RegRow := ⟨1, 4, 0x340114, 32, [(3, 0x40)],
  [MTR_REPAIR_COUNT.repairs]⟩
/-- MTR_REPAIR_COUNT (R428). -/
def MTR_HUB_REPAIR_COUNT.row : RegRow := ⟨0, 1, 0xc00114, 32, [(4, 0x40)],
  [MTR_HUB_REPAIR_COUNT.repairs]⟩
/-- MTR_TEST_STATUS (R428). -/
def MTR_TEST_STATUS.row : RegRow := ⟨1, 4, 0x340118, 32, [(3, 0x40)],
  [MTR_TEST_STATUS.status, MTR_TEST_STATUS.done]⟩
/-- MTR_TEST_STATUS (R428). -/
def MTR_HUB_TEST_STATUS.row : RegRow := ⟨0, 1, 0xc00118, 32, [(4, 0x40)],
  [MTR_HUB_TEST_STATUS.status, MTR_HUB_TEST_STATUS.done]⟩
/-- MTR_LANE_ERR_w (R428). -/
def MTR_LANE_ERR.row : RegRow := ⟨1, 4, 0x340120, 32, [(3, 0x40), (6, 0x4)],
  [MTR_LANE_ERR.errors]⟩
/-- MTR_LANE_ERR_w (R428). -/
def MTR_HUB_LANE_ERR.row : RegRow := ⟨0, 1, 0xc00120, 32, [(4, 0x40), (6, 0x4)],
  [MTR_HUB_LANE_ERR.errors]⟩
/-- FAB_CAPABILITY (R429). -/
def FAB_CAPABILITY.row : RegRow := ⟨0, 1, 0x10, 64, [],
  [FAB_CAPABILITY.capability]⟩
/-- FAB_STEP_MAP (R429). -/
def FAB_STEP_MAP.row : RegRow := ⟨0, 1, 0x18, 64, [],
  [FAB_STEP_MAP.die1_step, FAB_STEP_MAP.die2_step, FAB_STEP_MAP.die3_step, FAB_STEP_MAP.die4_step]⟩
/-- CAM_STREAM_ADDR (R468). -/
def CAM_STREAM_ADDR.row : RegRow := ⟨0, 1, 0xd00000, 64, [(24, 0x20)],
  [CAM_STREAM_ADDR.addr]⟩
/-- CAM_TONE_ADDR (R468). -/
def CAM_TONE_ADDR.row : RegRow := ⟨0, 1, 0xd00008, 64, [(24, 0x20)],
  [CAM_TONE_ADDR.addr]⟩
/-- CAM_STREAM_CTRL (R468). -/
def CAM_STREAM_CTRL.row : RegRow := ⟨0, 1, 0xd00010, 32, [(24, 0x20)],
  [CAM_STREAM_CTRL.enable, CAM_STREAM_CTRL.owner]⟩
/-- CAM_STREAM_STATUS (R468). -/
def CAM_STREAM_STATUS.row : RegRow := ⟨0, 1, 0xd00014, 32, [(24, 0x20)],
  [CAM_STREAM_STATUS.status, CAM_STREAM_STATUS.running]⟩
/-- CAM_DROP_COUNT (R468). -/
def CAM_DROP_COUNT.row : RegRow := ⟨0, 1, 0xd00018, 32, [(24, 0x20)],
  [CAM_DROP_COUNT.drops]⟩
/-- CAM_STREAM_COMMIT (R468). -/
def CAM_STREAM_COMMIT.row : RegRow := ⟨0, 1, 0xd0001c, 32, [(24, 0x20)],
  [CAM_STREAM_COMMIT.commit]⟩
/-- CAM_MAC_CFG (R468). -/
def CAM_MAC_CFG.row : RegRow := ⟨0, 1, 0xd01000, 32, [(4, 0x20)],
  [CAM_MAC_CFG.mode, CAM_MAC_CFG.fec, CAM_MAC_CFG.usx_speed, CAM_MAC_CFG.rx_log2, CAM_MAC_CFG.tx_log2]⟩
/-- CAM_MAC_RX_RING (R468). -/
def CAM_MAC_RX_RING.row : RegRow := ⟨0, 1, 0xd01008, 64, [(4, 0x20)],
  [CAM_MAC_RX_RING.base]⟩
/-- CAM_MAC_TX_RING (R468). -/
def CAM_MAC_TX_RING.row : RegRow := ⟨0, 1, 0xd01010, 64, [(4, 0x20)],
  [CAM_MAC_TX_RING.base]⟩
/-- CAM_MAC_BAD_COUNT (R468). -/
def CAM_MAC_BAD_COUNT.row : RegRow := ⟨0, 1, 0xd01018, 32, [(4, 0x20)],
  [CAM_MAC_BAD_COUNT.bad]⟩
/-- CAM_FOREIGN_COUNT (R468). -/
def CAM_FOREIGN_COUNT.row : RegRow := ⟨0, 1, 0xd01100, 32, [],
  [CAM_FOREIGN_COUNT.foreign]⟩
/-- CAM_MAC_COMMIT (R468). -/
def CAM_MAC_COMMIT.row : RegRow := ⟨0, 1, 0xd0101c, 32, [(4, 0x20)],
  [CAM_MAC_COMMIT.commit]⟩
/-- DEC_STREAM_ADDR (R469). -/
def DEC_STREAM_ADDR.row : RegRow := ⟨0, 1, 0xe00000, 64, [(64, 0x20)],
  [DEC_STREAM_ADDR.addr]⟩
/-- DEC_STREAM_CTRL (R469). -/
def DEC_STREAM_CTRL.row : RegRow := ⟨0, 1, 0xe00008, 32, [(64, 0x20)],
  [DEC_STREAM_CTRL.enable, DEC_STREAM_CTRL.owner]⟩
/-- DEC_STREAM_STATUS (R469). -/
def DEC_STREAM_STATUS.row : RegRow := ⟨0, 1, 0xe0000c, 32, [(64, 0x20)],
  [DEC_STREAM_STATUS.status]⟩
/-- DEC_FRAME_COUNT (R469). -/
def DEC_FRAME_COUNT.row : RegRow := ⟨0, 1, 0xe00010, 32, [(64, 0x20)],
  [DEC_FRAME_COUNT.frames]⟩
/-- DEC_ABANDON_COUNT (R469). -/
def DEC_ABANDON_COUNT.row : RegRow := ⟨0, 1, 0xe00014, 32, [(64, 0x20)],
  [DEC_ABANDON_COUNT.abandoned]⟩
/-- DEC_STREAM_COMMIT (R469). -/
def DEC_STREAM_COMMIT.row : RegRow := ⟨0, 1, 0xe0001c, 32, [(64, 0x20)],
  [DEC_STREAM_COMMIT.commit]⟩
/-- DEC_SAMPLER_ADDR (R469). -/
def DEC_SAMPLER_ADDR.row : RegRow := ⟨0, 1, 0xe01000, 64, [(4, 0x20)],
  [DEC_SAMPLER_ADDR.addr]⟩
/-- DEC_SAMPLER_CTRL (R469). -/
def DEC_SAMPLER_CTRL.row : RegRow := ⟨0, 1, 0xe01008, 32, [(4, 0x20)],
  [DEC_SAMPLER_CTRL.enable, DEC_SAMPLER_CTRL.owner]⟩
/-- DEC_SAMPLER_STATUS (R469). -/
def DEC_SAMPLER_STATUS.row : RegRow := ⟨0, 1, 0xe0100c, 32, [(4, 0x20)],
  [DEC_SAMPLER_STATUS.status]⟩
/-- DEC_SUBST_COUNT (R469). -/
def DEC_SUBST_COUNT.row : RegRow := ⟨0, 1, 0xe01010, 32, [(4, 0x20)],
  [DEC_SUBST_COUNT.substituted]⟩
/-- DEC_SAMPLER_COMMIT (R469). -/
def DEC_SAMPLER_COMMIT.row : RegRow := ⟨0, 1, 0xe0101c, 32, [(4, 0x20)],
  [DEC_SAMPLER_COMMIT.commit]⟩
/-- MER_CFG_ADDR (R517). -/
def MER_CFG_ADDR.row : RegRow := ⟨0, 1, 0xf00000, 64, [],
  [MER_CFG_ADDR.addr]⟩
/-- MER_TABLE_ADDR (R517). -/
def MER_TABLE_ADDR.row : RegRow := ⟨0, 1, 0xf00008, 64, [],
  [MER_TABLE_ADDR.addr]⟩
/-- MER_CTRL (R517). -/
def MER_CTRL.row : RegRow := ⟨0, 1, 0xf00010, 32, [],
  [MER_CTRL.enable, MER_CTRL.install, MER_CTRL.owner]⟩
/-- MER_POLICY (R517). -/
def MER_POLICY.row : RegRow := ⟨0, 1, 0xf00014, 32, [],
  [MER_POLICY.policy_handle]⟩
/-- MER_STATUS (R517). -/
def MER_STATUS.row : RegRow := ⟨0, 1, 0xf00018, 32, [],
  [MER_STATUS.status, MER_STATUS.running, MER_STATUS.disabled, MER_STATUS.frozen, MER_STATUS.pending]⟩
/-- MER_CYCLE (R517). -/
def MER_CYCLE.row : RegRow := ⟨0, 1, 0xf0001c, 32, [],
  [MER_CYCLE.cycle]⟩
/-- MER_TABLE_VER (R517). -/
def MER_TABLE_VER.row : RegRow := ⟨0, 1, 0xf00020, 32, [],
  [MER_TABLE_VER.version]⟩
/-- MER_TABLE_CRC (R517). -/
def MER_TABLE_CRC.row : RegRow := ⟨0, 1, 0xf00024, 32, [],
  [MER_TABLE_CRC.crc]⟩
/-- MER_LATE_COUNT (R517). -/
def MER_LATE_COUNT.row : RegRow := ⟨0, 1, 0xf00028, 32, [],
  [MER_LATE_COUNT.late]⟩
/-- MER_CONFLICT_COUNT (R517). -/
def MER_CONFLICT_COUNT.row : RegRow := ⟨0, 1, 0xf0002c, 32, [],
  [MER_CONFLICT_COUNT.conflicts]⟩
/-- MER_FALLBACK_COUNT (R517). -/
def MER_FALLBACK_COUNT.row : RegRow := ⟨0, 1, 0xf00030, 32, [],
  [MER_FALLBACK_COUNT.fallback]⟩
/-- MER_ADOPT_COUNT (R517). -/
def MER_ADOPT_COUNT.row : RegRow := ⟨0, 1, 0xf00034, 32, [],
  [MER_ADOPT_COUNT.adopted]⟩
/-- MER_COMMIT (R517). -/
def MER_COMMIT.row : RegRow := ⟨0, 1, 0xf0003c, 32, [],
  [MER_COMMIT.commit]⟩
/-- FAB_GROUT_TABLE (R556). -/
def FAB_GROUT_TABLE.row : RegRow := ⟨0, 1, 0x1000000, 64, [(64, 0x80)],
  [FAB_GROUT_TABLE.grout_table]⟩
/-- FAB_GROUT_LO (R556). -/
def FAB_GROUT_LO.row : RegRow := ⟨0, 1, 0x1000008, 64, [(64, 0x80)],
  [FAB_GROUT_LO.grout_lo]⟩
/-- FAB_GROUT_SPAN (R556). -/
def FAB_GROUT_SPAN.row : RegRow := ⟨0, 1, 0x1000010, 32, [(64, 0x80)],
  [FAB_GROUT_SPAN.grout_span]⟩
/-- FAB_CAPTURE_BASE (R556). -/
def FAB_CAPTURE_BASE.row : RegRow := ⟨0, 1, 0x1000018, 64, [(64, 0x80)],
  [FAB_CAPTURE_BASE.capture_base, FAB_CAPTURE_BASE.capture_slots]⟩
/-- FAB_HEALTH_REPLAYS (R556). -/
def FAB_HEALTH_REPLAYS.row : RegRow := ⟨0, 1, 0x1000020, 32, [(64, 0x80)],
  [FAB_HEALTH_REPLAYS.replays]⟩
/-- FAB_HEALTH_STRIKES (R556). -/
def FAB_HEALTH_STRIKES.row : RegRow := ⟨0, 1, 0x1000024, 32, [(64, 0x80)],
  [FAB_HEALTH_STRIKES.strikes]⟩
/-- FAB_HEALTH_UNRESOLVED (R556). -/
def FAB_HEALTH_UNRESOLVED.row : RegRow := ⟨0, 1, 0x1000028, 32, [(64, 0x80)],
  [FAB_HEALTH_UNRESOLVED.unresolved]⟩
/-- FAB_HEALTH_RESIDUE (R556). -/
def FAB_HEALTH_RESIDUE.row : RegRow := ⟨0, 1, 0x100002c, 32, [(64, 0x80)],
  [FAB_HEALTH_RESIDUE.residue_repeats]⟩
/-- FAB_HEALTH_PARITY (R556). -/
def FAB_HEALTH_PARITY.row : RegRow := ⟨0, 1, 0x1000030, 32, [(64, 0x80)],
  [FAB_HEALTH_PARITY.parity]⟩
/-- FAB_HEALTH_GROUT (R556). -/
def FAB_HEALTH_GROUT.row : RegRow := ⟨0, 1, 0x1000034, 32, [(64, 0x80)],
  [FAB_HEALTH_GROUT.grout_mismatch]⟩
/-- FAB_HEALTH_HBM_CE (R556). -/
def FAB_HEALTH_HBM_CE.row : RegRow := ⟨0, 1, 0x1000038, 32, [(64, 0x80)],
  [FAB_HEALTH_HBM_CE.hbm_corrected]⟩
/-- FAB_CAPTURE_COUNT (R556). -/
def FAB_CAPTURE_COUNT.row : RegRow := ⟨0, 1, 0x100003c, 32, [(64, 0x80)],
  [FAB_CAPTURE_COUNT.captures]⟩
/-- FAB_CTX_COMMIT (R556). -/
def FAB_CTX_COMMIT.row : RegRow := ⟨0, 1, 0x100007c, 32, [(64, 0x80)],
  [FAB_CTX_COMMIT.commit]⟩
/-- FAB_PACK_ADDR (R557). -/
def FAB_PACK_ADDR.row : RegRow := ⟨0, 1, 0x1002000, 64, [],
  [FAB_PACK_ADDR.addr]⟩
/-- FAB_PACK_CTRL (R557). -/
def FAB_PACK_CTRL.row : RegRow := ⟨0, 1, 0x1002008, 32, [],
  [FAB_PACK_CTRL.op]⟩
/-- FAB_PACK_ID (R557). -/
def FAB_PACK_ID.row : RegRow := ⟨0, 1, 0x100200c, 32, [],
  [FAB_PACK_ID.pack_id]⟩
/-- FAB_PACK_STATUS (R557). -/
def FAB_PACK_STATUS.row : RegRow := ⟨0, 1, 0x1002010, 32, [],
  [FAB_PACK_STATUS.status, FAB_PACK_STATUS.busy]⟩
/-- FAB_PACK_SET (R557). -/
def FAB_PACK_SET.row : RegRow := ⟨0, 1, 0x1002014, 32, [],
  [FAB_PACK_SET.packs, FAB_PACK_SET.set_version]⟩
/-- FAB_TEST_CYCLES (R557). -/
def FAB_TEST_CYCLES.row : RegRow := ⟨0, 1, 0x1002018, 32, [],
  [FAB_TEST_CYCLES.cycles]⟩
/-- FAB_TEST_US_REQ (R557). -/
def FAB_TEST_US_REQ.row : RegRow := ⟨0, 1, 0x100201c, 32, [],
  [FAB_TEST_US_REQ.test_us]⟩
/-- FAB_STRIKE_COUNT (R557). -/
def FAB_STRIKE_COUNT.row : RegRow := ⟨0, 1, 0x1002020, 32, [],
  [FAB_STRIKE_COUNT.strikes]⟩
/-- FAB_CAPTURE_DROP (R557). -/
def FAB_CAPTURE_DROP.row : RegRow := ⟨0, 1, 0x1002024, 32, [],
  [FAB_CAPTURE_DROP.drops]⟩
/-- FAB_TEST_FAIL_COUNT (R557). -/
def FAB_TEST_FAIL_COUNT.row : RegRow := ⟨0, 1, 0x1002028, 32, [],
  [FAB_TEST_FAIL_COUNT.fails]⟩
/-- FAB_PACK_COMMIT (R557). -/
def FAB_PACK_COMMIT.row : RegRow := ⟨0, 1, 0x100203c, 32, [],
  [FAB_PACK_COMMIT.commit]⟩
/-- FAB_PACK_INFO_k (R557). -/
def FAB_PACK_INFO.row : RegRow := ⟨0, 1, 0x1002040, 64, [(8, 0x8)],
  [FAB_PACK_INFO.pack_id, FAB_PACK_INFO.pack_version, FAB_PACK_INFO.slots]⟩
/-- ISL_STATE (R600). -/
def ISL_STATE.row : RegRow := ⟨5, 2, 0x0, 32, [],
  [ISL_STATE.state, ISL_STATE.peer_ok, ISL_STATE.inject_passed, ISL_STATE.last_cause]⟩
/-- ISL_CAUSE (R600). -/
def ISL_CAUSE.row : RegRow := ⟨5, 2, 0x8, 64, [],
  [ISL_CAUSE.causes]⟩
/-- ISL_INJECT (R600). -/
def ISL_INJECT.row : RegRow := ⟨5, 2, 0x10, 32, [],
  [ISL_INJECT.passed, ISL_INJECT.first_failed]⟩
/-- ISL_INJECT_TIME (R600). -/
def ISL_INJECT_TIME.row : RegRow := ⟨5, 2, 0x14, 32, [],
  [ISL_INJECT_TIME.ms]⟩
/-- ISL_FW_VERSION (R600). -/
def ISL_FW_VERSION.row : RegRow := ⟨5, 2, 0x18, 32, [],
  [ISL_FW_VERSION.version]⟩
/-- ISL_RESTART_COUNT (R600). -/
def ISL_RESTART_COUNT.row : RegRow := ⟨5, 2, 0x1c, 32, [],
  [ISL_RESTART_COUNT.restarts]⟩
/-- ISL_RAIL_k (R600). -/
def ISL_RAIL.row : RegRow := ⟨5, 2, 0x100, 32, [(12, 0x4)],
  [ISL_RAIL.mv]⟩
/-- ISL_TEMP_d (R600). -/
def ISL_TEMP.row : RegRow := ⟨5, 2, 0x140, 32, [(9, 0x4)],
  [ISL_TEMP.max_c]⟩
/-- ISL_MAILBOX_CMD (R600). -/
def ISL_MAILBOX_CMD.row : RegRow := ⟨5, 2, 0x1000, 32, [],
  [ISL_MAILBOX_CMD.cmd]⟩
/-- ISL_MAILBOX_ARG (R600). -/
def ISL_MAILBOX_ARG.row : RegRow := ⟨5, 2, 0x1004, 32, [],
  [ISL_MAILBOX_ARG.key]⟩
/-- ISL_MAILBOX_STATUS (R600). -/
def ISL_MAILBOX_STATUS.row : RegRow := ⟨5, 2, 0x1008, 32, [],
  [ISL_MAILBOX_STATUS.status]⟩
/-- OVR_POLICY (R639). -/
def OVR_POLICY.row : RegRow := ⟨0, 1, 0x1100000, 32, [],
  [OVR_POLICY.policy_handle]⟩
/-- OVR_CTRL (R639). -/
def OVR_CTRL.row : RegRow := ⟨0, 1, 0x1100004, 32, [],
  [OVR_CTRL.enable, OVR_CTRL.rejoin_auto, OVR_CTRL.time_port]⟩
/-- OVR_EREC_ADDR (R639). -/
def OVR_EREC_ADDR.row : RegRow := ⟨0, 1, 0x1100008, 64, [],
  [OVR_EREC_ADDR.addr]⟩
/-- OVR_STATUS (R639). -/
def OVR_STATUS.row : RegRow := ⟨0, 1, 0x1100010, 32, [],
  [OVR_STATUS.state, OVR_STATUS.coordinator, OVR_STATUS.pkg_id]⟩
/-- OVR_EPOCH (R639). -/
def OVR_EPOCH.row : RegRow := ⟨0, 1, 0x1100014, 32, [],
  [OVR_EPOCH.epoch]⟩
/-- OVR_MEMBERS (R639). -/
def OVR_MEMBERS.row : RegRow := ⟨0, 1, 0x1100018, 32, [],
  [OVR_MEMBERS.members]⟩
/-- OVR_DROP_COUNT (R639). -/
def OVR_DROP_COUNT.row : RegRow := ⟨0, 1, 0x110001c, 32, [],
  [OVR_DROP_COUNT.drops]⟩
/-- OVR_REQ (R639). -/
def OVR_REQ.row : RegRow := ⟨0, 1, 0x1100020, 32, [],
  [OVR_REQ.rejoin]⟩
/-- OVR_LOST_COUNT (R639). -/
def OVR_LOST_COUNT.row : RegRow := ⟨0, 1, 0x1100024, 32, [],
  [OVR_LOST_COUNT.lost]⟩
/-- OVR_COMMIT (R639). -/
def OVR_COMMIT.row : RegRow := ⟨0, 1, 0x110003c, 32, [],
  [OVR_COMMIT.commit]⟩
/-- OVR_PORT_p (R639). -/
def OVR_PORT.row : RegRow := ⟨0, 1, 0x1100040, 32, [(4, 0x8)],
  [OVR_PORT.state, OVR_PORT.suspect, OVR_PORT.neighbour]⟩
/-- OVR_MISS_p (R639). -/
def OVR_MISS.row : RegRow := ⟨0, 1, 0x1100044, 32, [(4, 0x8)],
  [OVR_MISS.misses]⟩
/-- OVR_Q_BASE (R640). -/
def OVR_Q_BASE.row : RegRow := ⟨0, 1, 0x1101000, 64, [(64, 0x40)],
  [OVR_Q_BASE.base]⟩
/-- OVR_Q_DB (R640). -/
def OVR_Q_DB.row : RegRow := ⟨0, 1, 0x1101008, 64, [(64, 0x40)],
  [OVR_Q_DB.db]⟩
/-- OVR_Q_STAT (R640). -/
def OVR_Q_STAT.row : RegRow := ⟨0, 1, 0x1101010, 64, [(64, 0x40)],
  [OVR_Q_STAT.stat]⟩
/-- OVR_Q_CFG (R640). -/
def OVR_Q_CFG.row : RegRow := ⟨0, 1, 0x1101018, 32, [(64, 0x40)],
  [OVR_Q_CFG.size_log2, OVR_Q_CFG.enable, OVR_Q_CFG.poll_us]⟩
/-- OVR_GROUP_ADDR (R640). -/
def OVR_GROUP_ADDR.row : RegRow := ⟨0, 1, 0x1101020, 64, [(64, 0x40)],
  [OVR_GROUP_ADDR.groups]⟩
/-- OVR_MIRROR_ADDR (R640). -/
def OVR_MIRROR_ADDR.row : RegRow := ⟨0, 1, 0x1101028, 64, [(64, 0x40)],
  [OVR_MIRROR_ADDR.mirrors]⟩
/-- OVR_Q_COMMIT (R640). -/
def OVR_Q_COMMIT.row : RegRow := ⟨0, 1, 0x110103c, 32, [(64, 0x40)],
  [OVR_Q_COMMIT.commit]⟩
/-- PWR_PKG_CAP (R675). -/
def PWR_PKG_CAP.row : RegRow := ⟨0, 1, 0x1200000, 32, [],
  [PWR_PKG_CAP.cap_w]⟩
/-- PWR_COOL_CFG (R675). -/
def PWR_COOL_CFG.row : RegRow := ⟨0, 1, 0x1200004, 32, [],
  [PWR_COOL_CFG.coolant, PWR_COOL_CFG.nominal_flow, PWR_COOL_CFG.flow_k]⟩
/-- PWR_COOL_REQ_CFG (R675). -/
def PWR_COOL_REQ_CFG.row : RegRow := ⟨0, 1, 0x1200008, 32, [],
  [PWR_COOL_REQ_CFG.pwm_hz, PWR_COOL_REQ_CFG.duty_idle, PWR_COOL_REQ_CFG.flow_filt]⟩
/-- PWR_COOL_SET (R675). -/
def PWR_COOL_SET.row : RegRow := ⟨0, 1, 0x120000c, 32, [],
  [PWR_COOL_SET.outlet_set, PWR_COOL_SET.gain]⟩
/-- PWR_COURSE_POLICY (R675). -/
def PWR_COURSE_POLICY.row : RegRow := ⟨0, 1, 0x1200010, 32, [],
  [PWR_COURSE_POLICY.retain_after_us, PWR_COURSE_POLICY.off_allowed]⟩
/-- PWR_FCAST_ADDR (R675). -/
def PWR_FCAST_ADDR.row : RegRow := ⟨0, 1, 0x1200018, 64, [],
  [PWR_FCAST_ADDR.addr]⟩
/-- PWR_FCAST_POST (R675). -/
def PWR_FCAST_POST.row : RegRow := ⟨0, 1, 0x1200020, 32, [],
  [PWR_FCAST_POST.seq]⟩
/-- PWR_FCAST_STATUS (R675). -/
def PWR_FCAST_STATUS.row : RegRow := ⟨0, 1, 0x1200024, 32, [],
  [PWR_FCAST_STATUS.status]⟩
/-- PWR_STATUS (R675). -/
def PWR_STATUS.row : RegRow := ⟨0, 1, 0x1200028, 32, [],
  [PWR_STATUS.limp, PWR_STATUS.flow_low, PWR_STATUS.cal_fault, PWR_STATUS.trip_seen, PWR_STATUS.ceiling_mhz]⟩
/-- PWR_FLOW (R675). -/
def PWR_FLOW.row : RegRow := ⟨0, 1, 0x120002c, 32, [],
  [PWR_FLOW.flow, PWR_FLOW.flow_a_valid, PWR_FLOW.flow_b_valid]⟩
/-- PWR_COOLANT_T (R675). -/
def PWR_COOLANT_T.row : RegRow := ⟨0, 1, 0x1200030, 32, [],
  [PWR_COOLANT_T.inlet, PWR_COOLANT_T.outlet]⟩
/-- PWR_HEAT (R675). -/
def PWR_HEAT.row : RegRow := ⟨0, 1, 0x1200034, 32, [],
  [PWR_HEAT.q_cal, PWR_HEAT.p_el]⟩
/-- PWR_COOL_DUTY (R675). -/
def PWR_COOL_DUTY.row : RegRow := ⟨0, 1, 0x1200038, 32, [],
  [PWR_COOL_DUTY.duty]⟩
/-- PWR_COMMIT (R675). -/
def PWR_COMMIT.row : RegRow := ⟨0, 1, 0x120003c, 32, [],
  [PWR_COMMIT.commit]⟩
/-- PWR_DOMAIN_ON_k (R675). -/
def PWR_DOMAIN_ON.row : RegRow := ⟨0, 1, 0x1200040, 32, [(4, 0x4)],
  [PWR_DOMAIN_ON.on]⟩
/-- PWR_COURSE_STATE_k (R675). -/
def PWR_COURSE_STATE.row : RegRow := ⟨0, 1, 0x1200050, 32, [(4, 0x4)],
  [PWR_COURSE_STATE.state]⟩
/-- PWR_BELOW_FLOOR_COUNT (R675). -/
def PWR_BELOW_FLOOR_COUNT.row : RegRow := ⟨0, 1, 0x1200060, 32, [],
  [PWR_BELOW_FLOOR_COUNT.count]⟩
/-- KEY_STATE (R704). -/
def KEY_STATE.row : RegRow := ⟨0, 1, 0x1300000, 32, [],
  [KEY_STATE.lock_state, KEY_STATE.store_fuses_left, KEY_STATE.half_pending]⟩
/-- KEY_CHALLENGE_k (R704). -/
def KEY_CHALLENGE.row : RegRow := ⟨0, 1, 0x1300010, 64, [(4, 0x8)],
  [KEY_CHALLENGE.challenge]⟩
/-- KEY_REQ_ADDR (R704). -/
def KEY_REQ_ADDR.row : RegRow := ⟨0, 1, 0x1300030, 64, [],
  [KEY_REQ_ADDR.addr]⟩
/-- KEY_REQ_STATUS (R704). -/
def KEY_REQ_STATUS.row : RegRow := ⟨0, 1, 0x1300038, 32, [],
  [KEY_REQ_STATUS.status, KEY_REQ_STATUS.busy]⟩
/-- KEY_REQ_COMMIT (R704). -/
def KEY_REQ_COMMIT.row : RegRow := ⟨0, 1, 0x130003c, 32, [],
  [KEY_REQ_COMMIT.commit]⟩
/-- KEY_POLICY_ADDR (R704). -/
def KEY_POLICY_ADDR.row : RegRow := ⟨0, 1, 0x1300040, 64, [],
  [KEY_POLICY_ADDR.addr]⟩
/-- KEY_POLICY_OP (R704). -/
def KEY_POLICY_OP.row : RegRow := ⟨0, 1, 0x1300048, 32, [],
  [KEY_POLICY_OP.op]⟩
/-- KEY_POLICY_HANDLE (R704). -/
def KEY_POLICY_HANDLE.row : RegRow := ⟨0, 1, 0x130004c, 32, [],
  [KEY_POLICY_HANDLE.handle]⟩
/-- KEY_POLICY_STATUS (R704). -/
def KEY_POLICY_STATUS.row : RegRow := ⟨0, 1, 0x1300050, 32, [],
  [KEY_POLICY_STATUS.status, KEY_POLICY_STATUS.busy]⟩
/-- KEY_POLICY_COMMIT (R704). -/
def KEY_POLICY_COMMIT.row : RegRow := ⟨0, 1, 0x130005c, 32, [],
  [KEY_POLICY_COMMIT.commit]⟩
/-- KEY_ATT_ADDR (R704). -/
def KEY_ATT_ADDR.row : RegRow := ⟨0, 1, 0x1300060, 64, [],
  [KEY_ATT_ADDR.addr]⟩
/-- KEY_ATT_CTX (R704). -/
def KEY_ATT_CTX.row : RegRow := ⟨0, 1, 0x1300068, 32, [],
  [KEY_ATT_CTX.context]⟩
/-- KEY_ATT_STATUS (R704). -/
def KEY_ATT_STATUS.row : RegRow := ⟨0, 1, 0x130006c, 32, [],
  [KEY_ATT_STATUS.status, KEY_ATT_STATUS.busy]⟩
/-- KEY_ATT_COMMIT (R704). -/
def KEY_ATT_COMMIT.row : RegRow := ⟨0, 1, 0x130007c, 32, [],
  [KEY_ATT_COMMIT.commit]⟩
/-- KEY_REC_SEQ (R704). -/
def KEY_REC_SEQ.row : RegRow := ⟨0, 1, 0x1300080, 32, [],
  [KEY_REC_SEQ.seq]⟩
/-- KEY_REC_READ (R704). -/
def KEY_REC_READ.row : RegRow := ⟨0, 1, 0x1300084, 32, [],
  [KEY_REC_READ.index]⟩
/-- KEY_COPY_ADDR (R704). -/
def KEY_COPY_ADDR.row : RegRow := ⟨0, 1, 0x1300088, 64, [],
  [KEY_COPY_ADDR.addr]⟩
/-- KEY_COPY_OP (R704). -/
def KEY_COPY_OP.row : RegRow := ⟨0, 1, 0x1300090, 32, [],
  [KEY_COPY_OP.op]⟩
/-- KEY_COPY_STATUS (R704). -/
def KEY_COPY_STATUS.row : RegRow := ⟨0, 1, 0x1300094, 32, [],
  [KEY_COPY_STATUS.status]⟩
/-- KEY_COPY_COMMIT (R704). -/
def KEY_COPY_COMMIT.row : RegRow := ⟨0, 1, 0x130009c, 32, [],
  [KEY_COPY_COMMIT.commit]⟩
/-- KEY_REC_DATA_k (R704). -/
def KEY_REC_DATA.row : RegRow := ⟨0, 1, 0x1300100, 64, [(16, 0x8)],
  [KEY_REC_DATA.entry]⟩
/-- NWT_RESET_CAUSE (R727). -/
def NWT_RESET_CAUSE.row : RegRow := ⟨0, 1, 0x10100, 32, [],
  [NWT_RESET_CAUSE.kind, NWT_RESET_CAUSE.nightwatch_lost]⟩
/-- NWT_DAWN_STATUS (R727). -/
def NWT_DAWN_STATUS.row : RegRow := ⟨0, 1, 0x10104, 32, [],
  [NWT_DAWN_STATUS.status, NWT_DAWN_STATUS.step, NWT_DAWN_STATUS.ready, NWT_DAWN_STATUS.held]⟩
/-- NWT_DAWN_TIME (R727). -/
def NWT_DAWN_TIME.row : RegRow := ⟨0, 1, 0x10108, 32, [],
  [NWT_DAWN_TIME.ms]⟩
/-- NWT_RESET_REQ (R727). -/
def NWT_RESET_REQ.row : RegRow := ⟨0, 1, 0x10110, 32, [],
  [NWT_RESET_REQ.kind, NWT_RESET_REQ.die, NWT_RESET_REQ.key]⟩
/-- NWT_RESET_STATUS (R727). -/
def NWT_RESET_STATUS.row : RegRow := ⟨0, 1, 0x10114, 32, [],
  [NWT_RESET_STATUS.status, NWT_RESET_STATUS.partial_busy]⟩
/-- NWT_RESET_COMMIT (R727). -/
def NWT_RESET_COMMIT.row : RegRow := ⟨0, 1, 0x1011c, 32, [],
  [NWT_RESET_COMMIT.commit]⟩
/-- NWT_NIGHT_CTRL (R727). -/
def NWT_NIGHT_CTRL.row : RegRow := ⟨0, 1, 0x10120, 32, [],
  [NWT_NIGHT_CTRL.target, NWT_NIGHT_CTRL.wake_pin, NWT_NIGHT_CTRL.wake_alarm]⟩
/-- NWT_NIGHT_WAKE_AT (R727). -/
def NWT_NIGHT_WAKE_AT.row : RegRow := ⟨0, 1, 0x10128, 64, [],
  [NWT_NIGHT_WAKE_AT.alarm]⟩
/-- NWT_NIGHT_SAVE (R727). -/
def NWT_NIGHT_SAVE.row : RegRow := ⟨0, 1, 0x10130, 64, [],
  [NWT_NIGHT_SAVE.addr]⟩
/-- NWT_NIGHT_STATUS (R727). -/
def NWT_NIGHT_STATUS.row : RegRow := ⟨0, 1, 0x10138, 32, [],
  [NWT_NIGHT_STATUS.status, NWT_NIGHT_STATUS.busy, NWT_NIGHT_STATUS.by_alarm]⟩
/-- NWT_NIGHT_COMMIT (R727). -/
def NWT_NIGHT_COMMIT.row : RegRow := ⟨0, 1, 0x1013c, 32, [],
  [NWT_NIGHT_COMMIT.commit]⟩
/-- NWT_NIGHT_TIME (R727). -/
def NWT_NIGHT_TIME.row : RegRow := ⟨0, 1, 0x10140, 32, [],
  [NWT_NIGHT_TIME.ms]⟩
/-- NWT_INPUT_FILTER (R754). -/
def NWT_INPUT_FILTER.row : RegRow := ⟨0, 1, 0x10200, 32, [],
  [NWT_INPUT_FILTER.warm_filt, NWT_INPUT_FILTER.wake_filt]⟩
/-- NWT_INPUT_STATE (R754). -/
def NWT_INPUT_STATE.row : RegRow := ⟨0, 1, 0x10204, 32, [],
  [NWT_INPUT_STATE.pwr_good, NWT_INPUT_STATE.warm_rst_n, NWT_INPUT_STATE.wake_n, NWT_INPUT_STATE.flow_a, NWT_INPUT_STATE.flow_b, NWT_INPUT_STATE.thermtrip_n]⟩
/-- NWT_INPUT_FAULT (R754). -/
def NWT_INPUT_FAULT.row : RegRow := ⟨0, 1, 0x10208, 32, [],
  [NWT_INPUT_FAULT.warm_stuck, NWT_INPUT_FAULT.warm_toggle, NWT_INPUT_FAULT.wake_stuck, NWT_INPUT_FAULT.wake_toggle]⟩
/-- NWT_INPUT_COMMIT (R754). -/
def NWT_INPUT_COMMIT.row : RegRow := ⟨0, 1, 0x1021c, 32, [],
  [NWT_INPUT_COMMIT.commit]⟩
/-- FAB_COMMIT_STATUS (R770). -/
def FAB_COMMIT_STATUS.row : RegRow := ⟨0, 5, 0x40, 32, [],
  [FAB_COMMIT_STATUS.status, FAB_COMMIT_STATUS.busy, FAB_COMMIT_STATUS.ignored_write]⟩
/-- FAB_COMMIT_WHERE (R770). -/
def FAB_COMMIT_WHERE.row : RegRow := ⟨0, 5, 0x44, 32, [],
  [FAB_COMMIT_WHERE.commit_offset]⟩
/-- FAB_COMMIT_FIELD (R770). -/
def FAB_COMMIT_FIELD.row : RegRow := ⟨0, 5, 0x48, 32, [],
  [FAB_COMMIT_FIELD.field_offset]⟩
/-- FAB_IGNORED_ADDR (R770). -/
def FAB_IGNORED_ADDR.row : RegRow := ⟨0, 5, 0x4c, 32, [],
  [FAB_IGNORED_ADDR.offset]⟩

/-- Rows 0 and on. -/
def rows0 : List RegRow := [FAB_PART_ID.row, NWT_DIAL_NOW.row, NWT_DIAL_STATUS.row, NWT_DIAL_OFFSET.row, NWT_DIAL_CTRL.row, NWT_COMMIT.row, TRW_COURSE_STATE.row, TRW_FENCE_MAP.row, TRW_LINK_FENCE.row, TRW_WDOG_CTRL.row, TRW_LOAD_COUNT.row, TRW_REFUSE_COUNT.row, TRW_COMMIT.row, QNT_REISSUE_COUNT.row, QNT_UNDERSCALE_COUNT.row, QNT_PRECISION_LOSS_COUNT.row, QNT_OVERFLOW_ROWS.row, QNT_SEEDED_ROWS.row, SIV_STATUS.row, SIV_JOB_COUNT.row, SIV_REFUSE_COUNT.row, SIV_INVALID_COUNT.row, SIV_MAX_TIME.row, DAY_PLAN_ADDR.row, DAY_STATUS.row]
/-- Rows 25 and on. -/
def rows1 : List RegRow := [DAY_ACTIVE_ID.row, DAY_PERIOD_INDEX.row, DAY_COMMIT_STATUS.row, DAY_LATE_COUNT.row, DAY_COMMIT.row, DAY_OVERRUN_COUNT.row, DAY_TEST_MISS_COUNT.row, HST_SQ_BASE.row, HST_DB_ADDR.row, HST_SQ_CFG.row, HST_CQ_BASE.row, HST_CQ_CFG.row, HST_EQ_CFG.row, HST_EQ_BASE.row, HST_ECHO_ADDR.row, HST_SAVE_BASE.row, HST_TIE_BASE.row, HST_TIE_COUNT.row, HST_CTX_CTRL.row, HST_CTX_REQ.row, HST_CTX_STATE.row, HST_CTX_COMMIT.row, HST_PCIE_OUT_BASE.row, HST_DEV_EQ_BASE.row, HST_DEV_EQ_CFG.row]
/-- Rows 50 and on. -/
def rows2 : List RegRow := [HST_DEV_EQ_HEAD.row, HST_DEV_EQ_TAIL.row, HST_TIE_SHARED.row, HST_TIE_SHARED_COUNT.row, HST_EVT_DROP_COUNT.row, HST_COMMIT.row, TIE_PENDING.row, TIE_SAT_COUNT.row, TIE_TIMEOUT_COUNT.row, HBM_STATUS.row, HBM_CE_COUNT.row, HBM_UE_COUNT.row, HBM_CRC_RETRY_COUNT.row, HBM_LAST_UE_ADDR.row, HBM_CE_THRESH.row, HBM_COMMIT.row, HBM_MAP_SRC.row, HBM_MAP_FIRST.row, HBM_MAP_COUNT.row, HBM_MAP_STATUS.row, HBM_MAP_FAULT_PAGE.row, HBM_MAP_PEEK.row, HBM_MAP_PEEK_DATA.row, HBM_MAP_COMMIT.row, HBM_SHARE_RD.row]
/-- Rows 75 and on. -/
def rows3 : List RegRow := [HBM_SHARE_WR.row, HBM_SHARE_PORTS.row, HBM_SHARE_COMMIT.row, PLB_PORT_BW.row, PLB_PORT_CFG.row, PLB_PORT_STATE.row, PLB_LEDGER.row, PLB_SWITCH_W.row, PLB_COMMIT_STATUS.row, PLB_DROP_COUNT.row, PLB_COMMIT.row, MTR_DIE_ID.row, MTR_FEATURE.row, MTR_BUDGET.row, MTR_MISS_COUNT.row, MTR_COMMIT.row, MTR_HUB_COMMIT.row, MTR_PORT_STATUS.row, MTR_HUB_PORT_STATUS.row, MTR_LANE_MAP.row, MTR_HUB_LANE_MAP.row, MTR_LANE_USE.row, MTR_HUB_LANE_USE.row, MTR_PORT_CTRL.row, MTR_HUB_PORT_CTRL.row]
/-- Rows 100 and on. -/
def rows4 : List RegRow := [MTR_REPLAY_COUNT.row, MTR_HUB_REPLAY_COUNT.row, MTR_REPAIR_COUNT.row, MTR_HUB_REPAIR_COUNT.row, MTR_TEST_STATUS.row, MTR_HUB_TEST_STATUS.row, MTR_LANE_ERR.row, MTR_HUB_LANE_ERR.row, FAB_CAPABILITY.row, FAB_STEP_MAP.row, CAM_STREAM_ADDR.row, CAM_TONE_ADDR.row, CAM_STREAM_CTRL.row, CAM_STREAM_STATUS.row, CAM_DROP_COUNT.row, CAM_STREAM_COMMIT.row, CAM_MAC_CFG.row, CAM_MAC_RX_RING.row, CAM_MAC_TX_RING.row, CAM_MAC_BAD_COUNT.row, CAM_FOREIGN_COUNT.row, CAM_MAC_COMMIT.row, DEC_STREAM_ADDR.row, DEC_STREAM_CTRL.row, DEC_STREAM_STATUS.row]
/-- Rows 125 and on. -/
def rows5 : List RegRow := [DEC_FRAME_COUNT.row, DEC_ABANDON_COUNT.row, DEC_STREAM_COMMIT.row, DEC_SAMPLER_ADDR.row, DEC_SAMPLER_CTRL.row, DEC_SAMPLER_STATUS.row, DEC_SUBST_COUNT.row, DEC_SAMPLER_COMMIT.row, MER_CFG_ADDR.row, MER_TABLE_ADDR.row, MER_CTRL.row, MER_POLICY.row, MER_STATUS.row, MER_CYCLE.row, MER_TABLE_VER.row, MER_TABLE_CRC.row, MER_LATE_COUNT.row, MER_CONFLICT_COUNT.row, MER_FALLBACK_COUNT.row, MER_ADOPT_COUNT.row, MER_COMMIT.row, FAB_GROUT_TABLE.row, FAB_GROUT_LO.row, FAB_GROUT_SPAN.row, FAB_CAPTURE_BASE.row]
/-- Rows 150 and on. -/
def rows6 : List RegRow := [FAB_HEALTH_REPLAYS.row, FAB_HEALTH_STRIKES.row, FAB_HEALTH_UNRESOLVED.row, FAB_HEALTH_RESIDUE.row, FAB_HEALTH_PARITY.row, FAB_HEALTH_GROUT.row, FAB_HEALTH_HBM_CE.row, FAB_CAPTURE_COUNT.row, FAB_CTX_COMMIT.row, FAB_PACK_ADDR.row, FAB_PACK_CTRL.row, FAB_PACK_ID.row, FAB_PACK_STATUS.row, FAB_PACK_SET.row, FAB_TEST_CYCLES.row, FAB_TEST_US_REQ.row, FAB_STRIKE_COUNT.row, FAB_CAPTURE_DROP.row, FAB_TEST_FAIL_COUNT.row, FAB_PACK_COMMIT.row, FAB_PACK_INFO.row, ISL_STATE.row, ISL_CAUSE.row, ISL_INJECT.row, ISL_INJECT_TIME.row]
/-- Rows 175 and on. -/
def rows7 : List RegRow := [ISL_FW_VERSION.row, ISL_RESTART_COUNT.row, ISL_RAIL.row, ISL_TEMP.row, ISL_MAILBOX_CMD.row, ISL_MAILBOX_ARG.row, ISL_MAILBOX_STATUS.row, OVR_POLICY.row, OVR_CTRL.row, OVR_EREC_ADDR.row, OVR_STATUS.row, OVR_EPOCH.row, OVR_MEMBERS.row, OVR_DROP_COUNT.row, OVR_REQ.row, OVR_LOST_COUNT.row, OVR_COMMIT.row, OVR_PORT.row, OVR_MISS.row, OVR_Q_BASE.row, OVR_Q_DB.row, OVR_Q_STAT.row, OVR_Q_CFG.row, OVR_GROUP_ADDR.row, OVR_MIRROR_ADDR.row]
/-- Rows 200 and on. -/
def rows8 : List RegRow := [OVR_Q_COMMIT.row, PWR_PKG_CAP.row, PWR_COOL_CFG.row, PWR_COOL_REQ_CFG.row, PWR_COOL_SET.row, PWR_COURSE_POLICY.row, PWR_FCAST_ADDR.row, PWR_FCAST_POST.row, PWR_FCAST_STATUS.row, PWR_STATUS.row, PWR_FLOW.row, PWR_COOLANT_T.row, PWR_HEAT.row, PWR_COOL_DUTY.row, PWR_COMMIT.row, PWR_DOMAIN_ON.row, PWR_COURSE_STATE.row, PWR_BELOW_FLOOR_COUNT.row, KEY_STATE.row, KEY_CHALLENGE.row, KEY_REQ_ADDR.row, KEY_REQ_STATUS.row, KEY_REQ_COMMIT.row, KEY_POLICY_ADDR.row, KEY_POLICY_OP.row]
/-- Rows 225 and on. -/
def rows9 : List RegRow := [KEY_POLICY_HANDLE.row, KEY_POLICY_STATUS.row, KEY_POLICY_COMMIT.row, KEY_ATT_ADDR.row, KEY_ATT_CTX.row, KEY_ATT_STATUS.row, KEY_ATT_COMMIT.row, KEY_REC_SEQ.row, KEY_REC_READ.row, KEY_COPY_ADDR.row, KEY_COPY_OP.row, KEY_COPY_STATUS.row, KEY_COPY_COMMIT.row, KEY_REC_DATA.row, NWT_RESET_CAUSE.row, NWT_DAWN_STATUS.row, NWT_DAWN_TIME.row, NWT_RESET_REQ.row, NWT_RESET_STATUS.row, NWT_RESET_COMMIT.row, NWT_NIGHT_CTRL.row, NWT_NIGHT_WAKE_AT.row, NWT_NIGHT_SAVE.row, NWT_NIGHT_STATUS.row, NWT_NIGHT_COMMIT.row]
/-- Rows 250 and on. -/
def rows10 : List RegRow := [NWT_NIGHT_TIME.row, NWT_INPUT_FILTER.row, NWT_INPUT_STATE.row, NWT_INPUT_FAULT.row, NWT_INPUT_COMMIT.row, FAB_COMMIT_STATUS.row, FAB_COMMIT_WHERE.row, FAB_COMMIT_FIELD.row, FAB_IGNORED_ADDR.row]

/-- Every setup register of the package (the index of 20_setup_space.md). -/
def rows : List RegRow := rows0 ++ rows1 ++ rows2 ++ rows3 ++ rows4 ++ rows5 ++ rows6 ++ rows7 ++ rows8 ++ rows9 ++ rows10

end Sys2Proof.Machine.Reg
end

