-- ==== Sys2Proof/Types/Dawn.lean ====
section
/-! DEFINITION. State of Nightwatch's reset and Night logic (R706 to R728, R740 to R745). -/

namespace Sys2Proof.Machine

/-- A discrete input that can be latched faulty (R740 to R743): its falls of the last second, newest first, when it last
became inactive, and whether it acts: after a latch it acts again only once its fault bit is clear and it has been
inactive for 100 ms. -/
structure PinState where
  falls : List Nat := []
  highAt : Nat := 0
  armed : Bool := true
  deriving DecidableEq, Repr

/-- The verified boot configuration (R714): the stack and the size of the host partition, boot_flags and wake_mask. -/
structure BootConfig where
  hostPages : Nat := 0
  hostStack : Nat := 1
  flags : Nat := 0
  wakeMask : Nat := 0
  deriving DecidableEq, Repr

/-- Nightwatch. `supply` says that VDD_NW is in range, `lost` that it was absent since the last Dawn began, `goodLowAt`
since when PWR_GOOD has been low. `waitWarm` says that a warm reset waits for WARM_RST_N to be high (R744), `dawnAt`
when step 1 of Dawn began, `deepExit` that a wake has left Deep Night. `target` is the Night that an accepted commit
asks for, 1 or 2, `stopAt` when its Courses switch out and `stopped` that they have been asked to (R721), `wake` a wake
that waits for the end of the entry, by alarm or not (R723), and `nightAt` when Night began. `partialAt` is when the
partial reset in work was accepted (R716). `lockedRate` is the rate correction of a Dial time that was locked when Deep
Night began, until the package is back in run (R34). -/
structure NwtState where
  supply : Bool := true
  lost : Bool := true
  goodLowAt : Nat := 0
  warm : PinState := {}
  wakePin : PinState := {}
  waitWarm : Bool := false
  dawnAt : Nat := 0
  deepExit : Bool := false
  boot : BootConfig := {}
  target : Nat := 0
  stopAt : Nat := 0
  stopped : Bool := false
  wake : Option Bool := none
  nightAt : Nat := 0
  partialAt : Nat := 0
  lockedRate : Option Int := none
  deriving DecidableEq, Repr

end Sys2Proof.Machine
end

