-- ==== Sys2Proof/Types/Day.lean ====
section
/-! DEFINITION. State of the Day-plan chapter (R250 to R281). -/

namespace Sys2Proof.Machine

/-- A Watch record (R256). -/
structure Watch where
  startUs : Nat
  lengthUs : Nat
  ctx : Nat
  tests : Nat
  every : Nat
  phase : Nat
  mask : Nat
  deriving DecidableEq, Repr

/-- A plan (R253, R254): header fields, the quota in KiB of Hod and of Bed of each context, the Watches, and the
policy body that it names (R682), entry by entry: Courses and flags. -/
structure Plan where
  id : Nat
  periodUs : Nat
  gclk : Nat
  testUs : Nat
  startTime : Nat
  w : List Nat
  policyHandle : Nat
  quotas : List (Nat × Nat)
  watches : List Watch
  policy : List (Nat × Nat)
  deriving DecidableEq, Repr

/-- A plan commit being checked: the image as read once, when it was written, and the Dial time then.
Log entry: 11 (DESIGN CHOICE). -/
structure PlanJob where
  image : List Nat
  at_ : Nat
  dialAt : Nat
  addr : Nat
  deriving DecidableEq, Repr

/-- The Day plan: the active and the staged plan, the commit in work, the boundary at which the present period began
(on the slewed count), the takeover instant of the staged plan, the Watches of this period that have begun and ended,
and the saved states: key context × 64 + Course, 0 where none is saved, else 1 more than the quota of the save, KiB of
Hod + 8,192 × KiB of Bed (R262, R337). -/
structure DayState where
  active : Option Plan := none
  staged : Option Plan := none
  job : Option PlanJob := none
  periodAt : Nat := 0
  stagedAt : Nat := 0
  begun : List Nat := []
  ended : List Nat := []
  saved : AMap Nat := []
  deriving DecidableEq, Repr

end Sys2Proof.Machine
end

