-- ==== Sys2Proof/Types/Fabric.lean ====
section
/-! DEFINITION. State of the fabric chapter (R41 to R98, R776 to R779): Beds, Hods, accumulator tiles, the roles that
run on Bricks, the instances of launches, and each Course's Trowel. -/

namespace Sys2Proof.Machine

/-- A Grout check armed on a generator (R543): the table index of the next block and the blocks still to check. -/
structure GroutArm where
  table : Nat
  blocks : Nat
  deriving DecidableEq, Repr

/-- One address generator (R776, R777): base in 64 B units, the four strides and counts, the place in its sequence,
bytes 24 to 31 of its record, and the Grout check armed on it. -/
structure Agen where
  base : Nat := 0
  strides : List Int := [0, 0, 0, 0]
  counts : List Nat := [1, 1, 1, 1]
  pos : Nat := 0
  tail : List Nat := [0, 0, 0, 0, 0, 0, 0, 0]
  grout : Option GroutArm := none
  deriving DecidableEq, Repr

/-- One active counted loop (R65, R66): its counter, its first and last addresses, and the passes still to run. -/
structure LoopFrame where
  counter : Nat
  first : Nat
  last : Nat
  left : Nat
  deriving DecidableEq, Repr

/-- What stalls a role for a replay (R523 to R525): the block of the MMA, the cell whose sum was off and by how much,
the host Brick, the tile bases, the Dial time of the mismatch, and the shadowed operands, 32 rows of A and 32 columns
of B. -/
structure Stall where
  block : Nat
  row : Nat
  col : Nat
  off : Int
  host : Nat
  at_ : Nat
  dialAt : Nat
  baseA : Int
  baseB : Int
  a : List (List Nat)
  b : List (List Nat)
  deriving DecidableEq, Repr

/-- A drained accumulator tile, 1,024 words, and whether they are FP32 (R65, R121).
Log entry: 66 (DEDUCED). -/
structure Drained where
  words : List Nat
  fp : Bool
  deriving DecidableEq, Repr

/-- One role on its Brick (R64 to R68, R82): program, pc, loops, generators, the 64 streamer bytes, the lookup table,
which accumulator tiles hold FP32, the drained tile, whether it has halted or stands at a barrier, a preemption point
or a Tie wait, the PPOINTs it has passed (R81), the replay stall, the handshake flags raised towards it from north,
east, south and west (R65), how often it has executed each instruction (R130), the Grout table indexes that its own
COPYGs wrote for its Bed (R532), and its cycles (R77). -/
structure Role where
  brick : Nat
  program : List Nat := []
  pc : Nat := 0
  loops : List LoopFrame := []
  agens : List Agen := [{}, {}, {}, {}]
  streamers : List Nat := []
  laneTable : List Nat := []
  accFp : List Bool := [false, false, false, false]
  drained : Option Drained := none
  halted : Bool := false
  atBarrier : Bool := false
  atPpoint : Bool := false
  tieWait : Option Nat := none
  ppoints : Nat := 0
  stall : Option Stall := none
  flags : List Bool := [false, false, false, false]
  execs : AMap Nat := []
  groutWrote : List Nat := []
  cycles : Nat := 0
  deriving DecidableEq, Repr

/-- How far an instance has come on its Course. -/
inductive InstPhase where
  | queued     -- in the Trowel's queue
  | refused    -- its Trowel has refused it (R62)
  | staging    -- its sections are being loaded
  | staged
  | active
  | preempted
  | done
  deriving DecidableEq, Repr

/-- One instance of a launch on one Course: its phase, placement and roles, its parameter words as read once (R300), the
window or attention record and the sequence table as its Trowel read them once (R170, R217), whether its load checks are
done, its cycles (R77), and what its completion reports (R135, R159). -/
structure Inst where
  course : Nat
  phase : InstPhase := .queued
  origin : Nat := 0
  transform : Nat := 0
  bricks : List Nat := []
  roles : List Role := []
  params : List Nat := []
  record : List Nat := []
  table : List Nat := []
  checked : Bool := false
  cycles : Nat := 0
  arith : Nat := 0
  reissues : Nat := 0
  underscaled : Nat := 0
  precision : Nat := 0
  status : Nat := 0
  deriving DecidableEq, Repr

/-- What an attention launch has brought out (R245): the items done, the key tiles computed and skipped, and the query
rows that are empty and that hold a NaN. -/
structure AttStats where
  done : List Nat := []
  computed : Nat := 0
  skipped : Nat := 0
  empty : Nat := 0
  nan : Nat := 0
  deriving DecidableEq, Repr

/-- A launch forwarded to the Trowels of its Course set: its descriptor, its number, the image as loaded from the
Bond store, its instances in Course order, and what an attention launch has brought out. -/
structure Launch where
  id : Nat
  ctx : Nat
  ring : Nat
  count : Nat
  raw : List Nat
  image : List Nat := []
  insts : List Inst := []
  stats : AttStats := {}
  deriving DecidableEq, Repr

/-- A Watch switch in progress on a Course (R262): the outgoing and the incoming context and the Watch that follows. -/
structure Switch where
  outCtx : Nat
  inCtx : Nat
  watch : Option Nat
  deriving DecidableEq, Repr

/-- An installed pattern pack (R551, R553): its numbers, the Bond-store slots that it occupies, and its image. -/
structure Pack where
  id : Nat
  version : Nat
  cycles : Nat
  slots : List Nat
  image : List Nat
  deriving DecidableEq, Repr

/-- A Twilight test in work (R275, R550): its Brick, when it started on the slewed count, the pack set with which it
started, and whether it is a retest (R535). -/
structure TestRun where
  brick : Nat
  at_ : Nat
  setVersion : Nat
  packs : List Pack
  retest : Bool
  deriving DecidableEq, Repr

/-- One Course: the context whose state lies on chip (0xFF none), the Watch that holds it, the switch in progress,
whether its instances are asked to stop (R81), the overrun timer and the watchdog (deadlines on the slewed count), the
placement of the previous Bond of the context (R60), the ring from which the Trowel takes next (R310), the next Brick
to test and the tests left in the present test Watch (R275), the test in work, whether the teardown scrub runs, its
count of completions (R80), the quota in KiB of Hod and of Bed under which the holder's state lies there (R254, R262),
and the launch whose sections the last switch loaded (R262, step 4). -/
structure CourseState where
  owner : Nat := 0xFF
  watch : Option Nat := none
  switch : Option Switch := none
  preempt : Bool := false
  overrunAt : Option Nat := none
  wdogAt : Option Nat := none
  prev : Option (Nat × Nat) := none
  ringNext : Nat := 0
  nextTest : Nat := 0
  testsLeft : Nat := 0
  scrub : Bool := false
  completions : Nat := 0
  test : Option TestRun := none
  quota : Nat × Nat := (0, 0)
  preload : Option Nat := none
  deriving DecidableEq, Repr

/-- One Brick: the end of its last test and the intervals missed since (R277), the time of its last strike and the
strikes since cold reset (R532), the times it has been fenced since cold reset, the set_version when strikes fenced it
(R535), and the windows in which it last took part in a replay and last suffered one (R524). -/
structure BrickState where
  lastTest : Nat := 0
  missed : Nat := 0
  lastStrike : Option Nat := none
  strikes : Nat := 0
  fences : Nat := 0
  strikeSet : Option Nat := none
  replayWindow : Option Nat := none
  sufferedWindow : Option Nat := none
  deriving DecidableEq, Repr

/-- A pack commit in work (R552): an installation of the image as read once, or a removal.
Log entry: 11 (DESIGN CHOICE). -/
structure PackJob where
  install : Bool
  id : Nat
  image : List Nat
  deriving DecidableEq, Repr

/-- The fabric. `packs` are in the order of installation, `retests` the Bricks whose retest is asked for (R535). Bed
keys are Brick × 262,144 + address, Hod keys Course × 4,194,304 + address, accumulator keys (Brick × 4 + tile) × 1,024
+ cell. -/
structure FabricState where
  bed : List (Nat × Byte) := []
  hod : List (Nat × Byte) := []
  acc : AMap Nat := []
  launches : List Launch := []
  nextLaunch : Nat := 0
  courses : AMap CourseState := []
  bricks : AMap BrickState := []
  packs : List Pack := []
  packJob : Option PackJob := none
  retests : List Nat := []
  deriving DecidableEq, Repr

end Sys2Proof.Machine
end

