-- ==== Sys2Proof/Types/Input.lean ====
section
/-! DEFINITION. State of the input pipeline (R431 to R470): the camera and lidar streams, the Ethernet MACs, the decode
streams and engines, and the samplers. -/

namespace Sys2Proof.Machine

/-- A frame or batch that lands or waits (R438 to R452): its buffer, the frame starts received, its capture time, its
age in ns and the slewed count when it began, the Dial time of its end, lines received, lines with CRC errors, whether
its geometry failed, whether a write was refused, its flags, the lines that the demosaic still needs, and for a batch
its points and bad points. `deadline` ends its wait, and `lost` says that its wait found no route to the Tie's home. -/
structure Frame where
  buf : Nat := 0
  fsCount : Nat := 0
  capture : Nat := 0
  baseAge : Nat := 0
  startAt : Nat := 0
  fe : Nat := 0
  lines : Nat := 0
  crcLines : Nat := 0
  geomBad : Bool := false
  refused : Bool := false
  flags : Nat := 0
  rows : List (List Nat) := []
  points : Nat := 0
  badPoints : Nat := 0
  deadline : Nat := 0
  lost : Bool := false
  deriving DecidableEq, Repr

/-- A camera stream or lidar template (R435 to R445, R449): its record and table as read at its commit, its owner, the
counts, the buffer that each record slot names, whether the first drop since a publish and the silence have been
reported, when the last frame started, the frame that lands and the one that waits, and for a lidar the first azimuth
of the last packet. `stopping` is set by a commit that disables it, until the next frame start. -/
structure InStream where
  enabled : Bool := false
  stopping : Bool := false
  record : List Nat := []
  table : List Nat := []
  owner : Nat := 0xFF
  fsCount : Nat := 0
  pubSeq : Nat := 0
  bufs : List Nat := []
  dropped : Nat := 0
  dropRaised : Bool := false
  silentRaised : Bool := false
  lastStart : Nat := 0
  lastAz : Option Nat := none
  landing : Option Frame := none
  waiting : Option Frame := none
  deriving DecidableEq, Repr

/-- A frame or sample in a decode stream (R455 to R460): the bytes of its chunks, whether its last chunk has been taken,
the batch, slot and sample index that its chunks name, its engine time in ns, its coded and cropped size, depth and
chroma, and its place in output order. -/
structure DecFrame where
  bytes : List Nat := []
  whole : Bool := false
  batch : Nat := 0
  slot : Nat := 0
  index : Nat := 0
  crcBad : Bool := false
  readBad : Bool := false
  engineNs : Nat := 0
  width : Nat := 0
  height : Nat := 0
  depth : Nat := 8
  chroma : Nat := 0
  order : Nat := 0
  deriving DecidableEq, Repr

/-- A frame whose record is to be written, and its status. -/
structure DecOut where
  frame : DecFrame
  status : Nat
  deriving DecidableEq, Repr

/-- A decode stream (R454 to R460): its record and owner, the chunk tail and head, when its doorbell was last polled,
whether an invalid tail stopped it, the output count, the engine times of its last completed frames, whether it
discards chunks to a random-access point, the bitstream since the last one, the frame in work, the frames finished and
not yet due for output, the outputs that wait for a record, and the buffer that each record names. -/
structure DecStream where
  enabled : Bool := false
  record : List Nat := []
  owner : Nat := 0xFF
  tail : Nat := 0
  head : Nat := 0
  polledAt : Nat := 0
  stopped : Bool := false
  outSeq : Nat := 0
  times : List Nat := []
  discarding : Bool := false
  stream : List Nat := []
  frame : Option DecFrame := none
  done : List DecFrame := []
  outs : List DecOut := []
  bufs : List Nat := []
  deriving DecidableEq, Repr

/-- A decode engine (R459): the stream that it serves, when it took its slice, and the stream last served. -/
structure DecEngine where
  stream : Option Nat := none
  startAt : Nat := 0
  last : Nat := 63
  deriving DecidableEq, Repr

/-- A batch whose manifest has been written (R463 to R466): its running number, epoch and batch index, its sample
indices, and for each slot once it has settled its cause (0 for good) and the Dial time. -/
structure Batch where
  number : Nat
  epoch : Nat
  index : Nat
  samples : List Nat
  settled : AMap (Nat × Nat)
  deriving DecidableEq, Repr

/-- A sampler (R461 to R466): its record and owner, the running number, epoch and index of the next batch, and the
batches whose manifest is written and that are not complete. -/
structure Sampler where
  enabled : Bool := false
  record : List Nat := []
  owner : Nat := 0xFF
  number : Nat := 0
  epoch : Nat := 0
  index : Nat := 0
  batches : List Batch := []
  deriving DecidableEq, Repr

/-- The input pipeline: streams 0 to 23, the receive and transmit counts of each MAC, decode streams, engines and
samplers. -/
structure InputState where
  streams : AMap InStream := []
  rxNext : AMap Nat := []
  txNext : AMap Nat := []
  decs : AMap DecStream := []
  engines : List DecEngine := [{}, {}, {}, {}]
  samplers : AMap Sampler := []
  deriving DecidableEq, Repr

end Sys2Proof.Machine
end

