-- ==== Sys2Proof/Types/Meridian.lean ====
section
/-! DEFINITION. State of Meridian (R471 to R519). -/

namespace Sys2Proof.Machine

/-- A published sample that Meridian has read (R472): its stream, pub_seq, reference time, capture time, end time, buffer
address, points, instant and the Dial time at which its record was written. -/
structure Sample where
  stream : Nat
  seq : Nat
  refTime : Int
  capture : Nat
  fe : Nat
  buf : Nat
  points : Nat
  instant : Nat
  published : Nat := 0
  deriving DecidableEq, Repr

/-- A camera frame that a cycle uses: its stream and buffer, calibration entry and size (R475, R484). -/
structure UsedFrame where
  stream : Nat
  buf : Nat
  entry : List Nat
  record : List Nat
  deriving DecidableEq, Repr

/-- A frame that the last cycle used, as visual odometry keeps it (R491): its stream, calibration entry, stream record,
bytes and depth image. -/
structure LastFrame where
  stream : Nat
  entry : List Nat
  record : List Nat
  image : List Nat
  depth : List Nat
  deriving DecidableEq, Repr

/-- What a closed cycle hands to its outputs (R498 to R501): its time of validity, level, ego source and flags, the
header's fields, the bytes of the painted points, the ego-motion record, the sensor status entries and the depth images,
the ties to signal for frames seen and batches released, the frames used, the occupancy grid (points and passes of a
cell), and when its fusion output was written. -/
structure Cycle where
  n : Nat
  tv : Nat
  level : Nat
  source : Nat
  truncated : Bool
  oldest : Nat
  mask : Nat
  late : Nat
  entries : Nat
  version : Nat
  points : List Nat
  ego : List Nat
  status : List Nat
  depth : List (List Nat)
  seen : List (Nat × Nat)
  releases : List (Nat × Nat)
  frames : List UsedFrame
  grid : AMap (Nat × Nat)
  doneAt : Nat := 0
  deriving DecidableEq, Repr

/-- A track output to be written: its cycle, the sources that were absent, conflict flags and count, and its records. -/
structure TrackOut where
  cycle : Cycle
  absent : Nat
  conflictFlags : Nat
  conflicts : Nat
  late : Nat
  entries : Nat
  records : List Nat
  deriving DecidableEq, Repr

/-- A live track (R504 to R509): its use count, class, state 1 or 2, this cycle's flags, the five state words, the 25
covariance words in row order, width and length, hit history, cycles unassociated and age, score, time of the last hit,
and whether that hit was conflicted. -/
structure Track where
  uses : Nat
  cls : Nat
  state : Nat
  flags : Nat
  x : List Nat
  cov : List Nat
  size : List Nat
  hits : Nat
  missed : Nat
  age : Nat
  score : Nat
  tSeen : Nat
  badHit : Bool
  deriving DecidableEq, Repr

/-- A calibration proposal under way (R487): for a refinement its stream, else none; the candidate image, what its
adoption debits in the units of `Allowance`, the answers of Matin and Vesper, and its deadline. -/
structure Proposal where
  stream : Option Nat
  image : List Nat
  debitRot : Nat
  debitTrans : Nat
  matin : Option Bool := none
  vesper : Option Bool := none
  deadline : Nat
  deriving DecidableEq, Repr

/-- A refinement allowance of a camera: what it held at an instant of the slewed count, in 0.001° and 0.01 mm over
3.6 · 10¹², so that a rate per hour fills its own number each nanosecond. -/
structure Allowance where
  rot : Nat
  trans : Nat
  at_ : Nat
  deriving DecidableEq, Repr

/-- Meridian. `enabled` and `stopping` follow its commits, `record` and `owner` the configuration in force, `next` the
next cycle to close, `closeAt` the slewed count of the last close or enable, `readSeq` the records read of each stream,
`held` the samples read and not yet used, `fusion` the cycle whose fusion output is being written, `waiting` the cycles
that wait for the tracker, `tracking` the track outputs being written, `twist` the words of the last velocity and angular
rate, `reference` the last cycle's de-skewed points and `lastFrames` the frames that it used, `edges` the edge
correspondences that each camera has gathered, `conflicts` the conflict marks of the last 64 cycles, `level` the last
level, `births` that births were dropped last cycle, `slotUses` the uses of each track slot, `detMissed` the detection
sets, source and cycle, that a tracker did not wait for, `active` and `installed` the tables, `proposal` a refinement
under way and `install` an installation. -/
structure MerState where
  enabled : Bool := false
  stopping : Bool := false
  record : List Nat := []
  owner : Nat := 0xFF
  next : Nat := 0
  closeAt : Nat := 0
  readSeq : AMap Nat := []
  held : List Sample := []
  fusion : Option Cycle := none
  waiting : List Cycle := []
  tracking : List TrackOut := []
  twist : List Nat := [0, 0, 0, 0, 0, 0]
  reference : List (Nat × Nat × Nat) := []
  lastFrames : List LastFrame := []
  edges : AMap (List (List Nat)) := []
  conflicts : List Bool := []
  level : Nat := 0
  births : Bool := false
  tracks : AMap Track := []
  slotUses : AMap Nat := []
  detMissed : List (Nat × Nat) := []
  active : Option (List Nat) := none
  installed : Option (List Nat) := none
  allow : AMap Allowance := []
  proposal : Option Proposal := none
  install : Option Proposal := none
  deriving DecidableEq, Repr

end Sys2Proof.Machine
end

