-- ==== Sys2Proof/Types/Island.lean ====
section
/-! DEFINITION. State of the safety islands Matin (die 5) and Vesper (die 6) (R559 to R602). -/

namespace Sys2Proof.Machine

/-- A calibration proposal that an island has approved (R582): its stream, none for an installation, the table rebuilt by
the island, what its adoption debits, and whether the other island has approved it too. -/
structure CalPending where
  stream : Option Nat
  image : List Nat
  debitRot : Nat
  debitTrans : Nat
  peer : Bool := false
  deriving DecidableEq, Repr

/-- A state message of the other island: state, cause, and the die or Course concerned (R567). -/
structure SafeMsg where
  state : Nat
  cause : Nat
  who : Nat
  deriving DecidableEq, Repr

/-- One island. `held` says that its reset input is low, `up` that its firmware runs its monitors. `high` and `phaseAt`
are its output's level and when the phase began. `bad` counts consecutive bad readings of each monitor (key: cause ×
256 + index). `heard` is when the last heartbeat of a source came: 0 to 63 the Trowels, 64 Meridian, 65 the Hearth, 66
the other island, 67 Nightwatch. `lost` names the dies whose link is lost. `off` says which domains the last Hearth
heartbeat reported off or in self-refresh, `onAt` when a domain was reported on again, `partialDie` the die that it
marked as in partial reset and `partialEnd` when such a die left it, `night` that a Night notice stands. `rate` is the
Dial time and the instant at which the present check of its rate began. `misses` counts consecutive events 0x0532 of
each Brick. `active`, `installed` and `allow` are its own copies for calibration, `approved` the proposal that it has
approved, `grace` until when heartbeats may still show the old version and CRC, and `notices` the digests that Keystone
has named. `inbox` holds the other island's messages, `told` the Dial time of the last Hearth heartbeat and the
oscillator when it came (R561), and `resetWhy` why it reset itself: 1 lockstep, 2 watchdog, 3 own supply (R602). -/
structure Island where
  held : Bool := true
  up : Bool := false
  high : Bool := false
  phaseAt : Nat := 0
  bad : AMap Nat := []
  heard : AMap Nat := []
  lost : List Nat := []
  off : AMap Bool := []
  onAt : AMap Nat := []
  partialDie : Option Nat := none
  partialEnd : AMap Nat := []
  night : Bool := false
  rate : Option (Nat × Nat) := none
  told : Nat × Nat := (0, 0)
  misses : AMap Nat := []
  active : Option (List Nat) := none
  installed : Option (List Nat) := none
  allow : AMap Allowance := []
  approved : Option CalPending := none
  grace : Option (Nat × Nat × Nat) := none
  notices : List (List Nat) := []
  inbox : List SafeMsg := []
  resetWhy : Option Nat := none
  deriving DecidableEq, Repr

/-- Both islands, and the dies to which a silent command is on its way (R569). -/
structure IslandState where
  matin : Island := {}
  vesper : Island := {}
  silentSent : List Nat := []
  deriving DecidableEq, Repr

end Sys2Proof.Machine
end

