-- ==== Sys2Proof/Types/Key.lean ====
section
/-! DEFINITION. State of Keystone (R677 to R705). -/

namespace Sys2Proof.Machine

/-- A policy slot (R683): its generation and, while it is filled, the policy's type, identity, security version, the
installer slot that signed it, its body, and the SHA-384 of its image. -/
structure PolicySlot where
  gen : Nat := 0
  filled : Bool := false
  kind : Nat := 0
  id : Nat := 0
  version : Nat := 0
  keySlot : Nat := 0
  body : List Nat := []
  digest : List Nat := []
  deriving DecidableEq, Repr

/-- A public key in a slot of the key store (R677, R678): usage mask and point. -/
structure KeySlot where
  usage : Nat
  x : Nat
  y : Nat
  deriving DecidableEq, Repr

/-- The accepted half of a debug unlock (R692): its role, its body and when it expires on the slewed count. -/
structure Half where
  role : Nat
  body : List Nat
  deadline : Nat
  deriving DecidableEq, Repr

/-- The always-on monitor (R703): newest sequence number and the digest of its entry. -/
structure RecMonitor where
  seq : Nat
  digest : List Nat
  deriving DecidableEq, Repr

/-- Keystone. The boot ROM holds the maker keys (kind × 2 + generation), whose values the spec does not give; the fuses
hold the lifecycle, the revoked maker keys and the firmware minimum; the key store holds the installer and operator
slots, the fuses burnt for it, and the policy minimums. `record` holds the entries in the record SRAM by index,
`nextSeq` the next sequence number, `bootRecord` the record as last written back to the boot store with its own next
number, `monitor` the always-on monitor. `half` is a pending half of a debug unlock, `unlocked` the scope of an open
debug port, `everUnlocked` whether it was opened since the last cold reset.
Log entry: 166 (DESIGN CHOICE). -/
structure KeyState where
  maker : List (Nat × Nat) := (List.range 8).map (fun i =>
    (Config.keyMaterial (i / 2) (2 * (i % 2)) % 2 ^ 384, Config.keyMaterial (i / 2) (2 * (i % 2) + 1) % 2 ^ 384))
  lifecycle : Nat := 1
  makerRevoked : List Nat := []
  fwMin : Nat := 0
  installer : List (Option KeySlot) := List.replicate 8 none
  operator : List (Option KeySlot) := List.replicate 4 none
  fusesBurnt : Nat := 0
  policyMin : AMap Nat := []
  policies : AMap PolicySlot := []
  record : AMap (List Nat) := []
  nextSeq : Nat := 0
  bootRecord : AMap (List Nat) := []
  bootSeq : Nat := 0
  monitor : Option RecMonitor := none
  half : Option Half := none
  unlocked : Nat := 0
  everUnlocked : Bool := false
  deriving DecidableEq, Repr

end Sys2Proof.Machine
end

