-- ==== Sys2Proof/Types/Memory.lean ====
section
/-! DEFINITION. State of the memory chapter (R342 to R388): the stacks' bytes and keys, the home map, the write
queues, the error counts, retraining, and Plumb's token buckets. -/

namespace Sys2Proof.Machine

/-- A write accepted by a home controller and not yet drained (R356, R357): its stack (0 to 3), its pseudo-channel,
its first physical address, its bytes, the key of the page's owner, and when it arrived. -/
structure QWrite where
  stack : Nat
  pc : Nat
  phys : Nat
  data : List Nat
  key : Nat
  at_ : Nat
  deriving DecidableEq, Repr

/-- One stack's controller: when the present or last retraining round started and ended, the temperature when it
started, the pair in work and whether it is draining, in the pause or in the gap (R369), the pair's start, the rounds
failed in a row for each pseudo-channel (R371), the next line of patrol scrub (R363), the last refresh of each bank
of each pseudo-channel and how many of its refreshes a pause postponed (R367, R370), and the row that each bank of each
pseudo-channel holds open (R355).
Log entry: 104 (DEDUCED). -/
structure StackState where
  roundStart : Option Nat := none
  roundEnd : Option Nat := none
  roundTemp : Int := 0
  pair : Nat := 0
  phase : Nat := 0
  pairAt : Nat := 0
  failRounds : AMap Nat := []
  scrubLine : Nat := 0
  refreshed : AMap Nat := []
  postponed : AMap Nat := []
  openRow : AMap Nat := []
  deriving DecidableEq, Repr

/-- The answer to a read that waits for the end of a pause (R369): the stack, the port, the status and the data. -/
structure HeldAnswer where
  stack : Nat
  port : Nat
  status : Nat
  data : List Nat
  deriving DecidableEq, Repr

/-- A map commit in work: the first page and the new entries (R349 to R352).
Log entry: 11 (DESIGN CHOICE). -/
structure MapJob where
  first : Nat
  entries : List Nat
  deriving DecidableEq, Repr

/-- The memory of the package. `cells` holds the stacks' bytes, `lineKey` and `frameKey` the key under which a line or
a whole frame was last written, `poison` the poisoned lines, `ext` the bytes of the external host's memory that differ
from the host's own, `home` the home-map entries that differ from the Dawn map, `hostFirst` and `hostPages` the host
partition that Dawn laid out and `hostKey` the key under which it zeroed it (R715), `ctxKey` and `regionKey` the keys
in force, `nextKey` the next key to be drawn, `queue` the writes not yet drained, `stackTab` the stacks' controllers,
`badSlots` the Bond slots that an upset has spoiled, `mapJob` the map commit in work, `tokens` and `tokenAt` Plumb's
buckets and when each was last filled, `ceFrame` and `ceRaised` the corrections of each frame since the last cold reset
(R361). `symbols` holds the failed symbols of a line, `stray` the address at which its data were written where it is
another, plus one (R360), `linkErr` the coming tries of a pseudo-channel that meet a link CRC error (R362), `hostErr`
the lines of the external host whose next read completes with an error (R772), `found` what accesses have met and is
still to be handled, each a device address and a code: 0 link retries exhausted, 1 a corrected line, 2 an uncorrectable
one, 3 one poisoned already, and `answers` the answers that wait for the end of a pause (R369).
Log entry: 16 (DESIGN CHOICE). -/
structure MemState where
  cells : List (Nat × Byte) := []
  lineKey : AMap Nat := []
  frameKey : AMap Nat := []
  poison : AMap Bool := []
  ext : List (Nat × Byte) := []
  home : AMap Nat := []
  hostFirst : Nat := 0
  hostPages : Nat := 0
  hostKey : Nat := 0
  ctxKey : AMap Nat := []
  regionKey : AMap Nat := []
  nextKey : Nat := 1
  queue : List QWrite := []
  stackTab : AMap StackState := []
  ceFrame : AMap Nat := []
  ceRaised : AMap Bool := []
  badSlots : AMap Bool := []
  mapJob : Option MapJob := none
  tokens : AMap Nat := []
  tokenAt : AMap Nat := []
  symbols : AMap Nat := []
  stray : AMap Nat := []
  linkErr : AMap Nat := []
  hostErr : AMap Bool := []
  found : List (Nat × Nat) := []
  answers : List HeldAnswer := []
  deriving DecidableEq, Repr

end Sys2Proof.Machine
end

