-- ==== Sys2Proof/Types/Mortar.lean ====
section
/-! DEFINITION. State of the Mortar links (R389 to R430): the ends of the ports, the budget grants and the reports. -/

namespace Sys2Proof.Machine

/-- One end of a Mortar port (R390 to R409). `rxNext` is the next sequence number to receive, `txNext` the next to
send; `replay` holds the flits sent and not acknowledged; `discarding` says that a replay has been asked for; `credits`
are the credits held for each virtual channel, `held` the 64 B units in the receive buffers; `parity` lists the parity
misses of the last ms, lane and time; `txLanes` the lanes that it sends on; `before` the width before the training in
work; `attempt` the attempt, 1 or 2; `proposal` and `peer` the proposals of the epoch, width and lane map; `target` the
width of the framing check; `sent` and `got` its own READY and the peer's; `heard` when the sideband was last heard;
`testEnd` the end of a loopback test, and `peerTest` that the peer is under test. `rxEpoch` is the newest epoch
received from the peer (R403), `want` the width of the second attempt (R407), and `moves` and `txMoves` the lane
repairs that the end makes at a flit boundary when it receives and when it sends: the sequence number of the boundary,
the failed lane and its replacement (R397). -/
structure PortEnd where
  rxNext : Nat := 0
  txNext : Nat := 0
  replay : List (List Nat) := []
  discarding : Bool := false
  credits : List Nat := [96, 96, 96, 96]
  held : List Nat := [0, 0, 0, 0]
  parity : List (Nat × Nat) := []
  txLanes : Nat := 0
  before : Nat := 0
  attempt : Nat := 1
  proposal : Option (Nat × Nat) := none
  peer : Option (Nat × Nat) := none
  target : Nat := 0
  sent : Bool := false
  got : Bool := false
  heard : Nat := 0
  testEnd : Option Nat := none
  peerTest : Bool := false
  rxEpoch : Nat := 0
  want : Nat := 0
  moves : List (Nat × Nat × Nat) := []
  txMoves : List (Nat × Nat × Nat) := []
  deriving DecidableEq, Repr

/-- A grant on its way to a Course die (R423): caps in 0.25 W. -/
structure Grant where
  die : Nat
  seq : Nat
  dial : Nat
  core : Nat
  hbm : Nat
  floor : Nat
  limp : Bool
  deriving DecidableEq, Repr

/-- A report on its way to the Hearth (R423), with the caps of the grant that it reports on. -/
structure GrantReport where
  die : Nat
  seq : Nat
  dial : Nat
  core : Nat
  hbm : Nat
  coreAvg : Nat
  hbmAvg : Nat
  clk : Nat
  tj : Int
  capApplied : Bool
  belowFloor : Bool
  deriving DecidableEq, Repr

/-- What the Hearth and a Course die hold of the die's budget (R423 to R426): the caps last granted, the caps reported
applied, the grant count, when the last grant and the last report arrived, whether the fallback is in force, the floor
and the limp flag of the last grant, whether event 0x0E20 has been raised, the averages last reported, and whether the
die has sent no report for 500 µs (R426). -/
structure DieBudget where
  granted : Nat × Nat := (0, 0)
  applied : Nat × Nat := (0, 0)
  seq : Nat := 0
  grantAt : Nat := 0
  reportAt : Nat := 0
  fallback : Bool := false
  floor : Nat := 0
  limp : Bool := false
  raised : Bool := false
  coreAvg : Nat := 0
  hbmAvg : Nat := 0
  silent : Bool := false
  deriving DecidableEq, Repr

/-- A message that a port which went down had sent and that its peer has not acknowledged (R411): the die that holds
it, the die beyond the port, the links of the route that it takes instead, and the payload of its flit. It goes ahead
of any new message of the die to the same destination. -/
structure Resend where
  die : Nat
  dest : Nat
  route : List Nat
  payload : List Nat
  deriving DecidableEq, Repr

/-- The kinds of traffic that cross a link (R392). -/
inductive Traffic where
  | request | writeData | response | writeAck | tieOperation | tieRelease | launch | completion | trowel | ringEngine
  deriving DecidableEq, Repr

/-- The Mortar links. Port ends are keyed die × 4 + port, the Hearth's hub port n under 0 × 4 + n − 1. `resend` holds
the messages to be sent again, oldest first, and `alone` the bit errors that the unused physical port of a Course die
counts in stand-alone test mode, by lane (R420). -/
structure MortarState where
  ends : AMap PortEnd := []
  budgets : AMap DieBudget := []
  grants : List Grant := []
  reports : List GrantReport := []
  resend : List Resend := []
  alone : AMap (List Nat) := []
  deriving DecidableEq, Repr

end Sys2Proof.Machine
end

