-- ==== Sys2Proof/Types/Ouvur.lean ====
section
/-! DEFINITION. State of Ouvur (R603 to R641): the four ports, membership, and the contexts' transfer queues. -/

namespace Sys2Proof.Machine

/-- A packet that a port has sent and keeps in its replay buffer (R605): its link sequence number and its fields. -/
structure OvSent where
  seq : Nat
  data : List Nat
  deriving DecidableEq, Repr

/-- A packet to be sent (R604): the kind byte, flags, sender and destination, kind_data, and payload; for a data packet
`extra` holds the fields of its contents that the header has no place for. -/
structure OvPacket where
  code : Nat
  flags : Nat := 0
  src : Nat
  dst : Nat := 0xFFFF
  kindData : List Nat := []
  payload : List Nat := []
  extra : List Nat := []
  deriving DecidableEq, Repr

/-- One port (R603 to R611): whether it has been up since Ouvur was enabled, intervals missed in a row, the start of the
present 20 µs interval, since when its heartbeats have been valid, whether a roster or ID mismatch was raised, the next
sequence number each way, the replay buffer, when the link keys were agreed and how many packets they have carried, how
often they were agreed, when a retraining is due, the send time and receive time of the last heartbeat, and its depth. -/
structure OvPort where
  been : Bool := false
  miss : Nat := 0
  missAt : Nat := 0
  validSince : Option Nat := none
  foreignTold : Bool := false
  rxSeq : Nat := 0
  txSeq : Nat := 0
  replay : List OvSent := []
  keyAt : Nat := 0
  packets : Nat := 0
  keyGen : Nat := 0
  retrainAt : Nat := 0
  lastT1 : Nat := 0
  lastT2 : Nat := 0
  depth : Nat := 15
  deriving DecidableEq, Repr

/-- The proposal acknowledged last (R614 to R616): its epoch, coordinator and members, the acknowledgements merged so
far, and the port towards the coordinator, none at the coordinator itself. -/
structure OvAgree where
  epoch : Nat
  coord : Nat
  members : Nat
  acked : Nat
  parent : Option Nat
  deriving DecidableEq, Repr

/-- A suspicion report (R612). -/
structure OvReport where
  suspect : Nat
  reporter : Nat
  epoch : Nat
  deriving DecidableEq, Repr

/-- A group as read at the queue commit (R629): S and the chain of (package, context) pairs. -/
structure OvGroup where
  shards : Nat := 0
  chain : List (Nat × Nat) := []
  deriving DecidableEq, Repr

/-- A transfer record at work (R626, R627): its count and bytes, whether it has started (its wait is over), its
deadline, the packages whose ready packet has arrived, the packets that wait for one, running-value bytes received,
result bytes written, and, for an all-gather, the bytes received of each shard. `sentAll` says that nothing is left to
do but to send what waits. -/
structure OvRun where
  n : Nat
  raw : List Nat
  started : Bool
  deadline : Nat
  ready : List Nat := []
  hold : List (Nat × Nat × OvData) := []
  got : Nat := 0
  back : Nat := 0
  gotBy : AMap Nat := []
  sentAll : Bool := false
  deriving DecidableEq, Repr

/-- A context's transfer queue (R626, R640): records completed, the tail last read, the last poll, the group and mirror
tables as read at its commit, and the record at work. -/
structure OvQueue where
  head : Nat := 0
  tail : Nat := 0
  polledAt : Nat := 0
  groups : List OvGroup := []
  mirrors : List (List Nat) := []
  run : Option OvRun := none
  deriving DecidableEq, Repr

/-- A mirror that a partner streams into this package (R636): the partner, its context, the local context, the shard,
the slot written, the generation to give it, its size and the bytes received. -/
structure OvInbound where
  src : Nat
  srcCtx : Nat
  ctx : Nat
  shard : Nat
  slot : Nat
  gen : Nat
  size : Nat
  got : Nat := 0
  deriving DecidableEq, Repr

/-- Ouvur. `roster` is the policy's roster as it was committed. `members` is the bitmap of the installed epoch. `seen`
lists the reports already forwarded, `reports` those held for the present epoch. `rejoins` is the bitmap of neighbours
that ask to rejoin, `excludedBy` the epoch that excluded each package that is not a member. `early` lists ready packets
of transfers that have not started here: source, context, group, tag. -/
structure OuvurState where
  ports : AMap OvPort := []
  roster : List Nat := []
  members : Nat := 0
  agree : Option OvAgree := none
  reports : List OvReport := []
  seen : List OvReport := []
  settle : Option Nat := none
  confirmedAt : Option Nat := none
  heardAny : Bool := false
  excludedAt : Nat := 0
  driverRejoin : Bool := false
  rejoinFlag : Bool := false
  drillEnd : Option Nat := none
  drillRejoin : Bool := false
  rejoins : Nat := 0
  excludedBy : AMap Nat := []
  beatAt : Nat := 0
  queues : AMap OvQueue := []
  inbound : List OvInbound := []
  early : List (Nat × Nat × Nat × Nat) := []
  deriving DecidableEq, Repr

end Sys2Proof.Machine
end

