-- ==== Sys2Proof/Types/Package.lean ====
section
/-! DEFINITION. State of the package chapter: the three copies of the setup registers (R757, R762), the clocks
(R30 to R36), the PCIe link (R772) and the answer to the last bus access. -/

namespace Sys2Proof.Machine

/-- The setup registers, field by field: what a read of an RW, RO, W1C or RC field gives, the staged copies and the
committed copies of ST fields. A key is a field's place in setup space; a field not listed holds its reset value. -/
structure RegFile where
  live : AMap Nat := []
  staged : AMap Nat := []
  committed : AMap Nat := []
  deriving DecidableEq, Repr

/-- The slewed count that timers use (R32), the fraction that Night carries (R34), the high words latched for each
requester (R36), the run of sync intervals in the lock window (R33), the rate correction in ppm that Dial time is slewed
by and that holdover keeps (R31, R33), when the last sync message arrived, and the crystal's own time in ns, which no
correction touches and on which the islands' timers run (R40), with the part of the slewed count, in millionths of a ns,
that it is ahead. In Night
`tickPhase` is the crystal's time since the last tick, in parts of 1/32768 ns.
Log entry: 10 (DEDUCED). -/
structure ClockState where
  count : Nat := 0
  nightFrac : Nat := 0
  latch : AMap Nat := []
  inWindow : Nat := 0
  rate : Int := 0
  lastSync : Option Nat := none
  osc : Nat := 0
  oscFrac : Nat := 0
  tickPhase : Nat := 0
  deriving DecidableEq, Repr

/-- What the last access of a host-side port or Hearth master was answered: its port, its status, its data. -/
structure BusAnswer where
  port : Nat := 0
  status : Nat := 0
  data : List Nat := []
  deriving DecidableEq, Repr

/-- The kinds of message that leave a block: to a host, to the islands, over a Mortar sideband, over Ouvur, or to the
Ethernet. -/
inductive MsgKind where
  | interrupt | trowelHeartbeat | meridianHeartbeat | hearthHeartbeat | islandHeartbeat | nightwatchHeartbeat
  | safeState | budgetGrant | budgetReport | mortarReplay | mortarResend | mortarRepair | mortarProposal
  | mortarReady | ethernet | ouvurHeartbeat | ouvurSuspicion | ouvurProposal | ouvurAck | ouvurCommit | ouvurExclude
  | ouvurData | ouvurReady | ouvurResend | ouvurReplay | calibration | approval | monitor | coreRelease
  deriving DecidableEq, Repr

/-- A message that a block sends: its kind and its fields.
Log entries: 12 (DESIGN CHOICE), 178 (DESIGN CHOICE). -/
structure OutMsg where
  kind : MsgKind
  data : List Nat
  deriving DecidableEq, Repr

/-- A forwarded event or status on its way to an island (R564): the island's die, the status, the severity, the unit,
the die that detected it, and whether it is a sealed context's run-time status. -/
structure Forward where
  island : Nat
  status : Nat
  severity : Nat
  unit : Nat
  die : Nat
  sealedRun : Bool
  deriving DecidableEq, Repr

/-- What the package is doing (R706 to R726): without power, in Dawn, running, on its way into Night or Deep Night,
in Night, on its way out, in Deep Night, or stopped by a fall of PWR_GOOD. -/
inductive PkgMode where
  | unpowered | dawn | run | nightEntry | night | nightExit | deepNight | stopped
  deriving DecidableEq, Repr

end Sys2Proof.Machine
end

