-- ==== Sys2Proof/Types/Power.lean ====
section
/-! DEFINITION. State of the power manager, the die power agents and the coolant loop (R642 to R676). -/

namespace Sys2Proof.Machine

/-- A die power agent (R651 to R656): the set point in MHz and the edges of 64 that it suppresses, what it measured
last (mean core power in 0.25 W, hottest junction in °C), the mean stack power, whether the cap is applied and whether
the clock was below the floor, the samples since a 10 µs window began and the clocks of the last 10 µs, the measured
powers of the last 100 µs, newest first (R423), and the last sample. -/
structure PowerAgent where
  setMhz : Nat := 200
  stretch : Nat := 0
  coreAvg : Nat := 0
  hbmAvg : Nat := 0
  tj : Int := 0
  capApplied : Bool := false
  belowFloor : Bool := false
  samples : Nat := 0
  clocks : List Nat := []
  coreLog : List Nat := []
  hbmLog : List Nat := []
  sampledAt : Nat := 0
  deriving DecidableEq, Repr

/-- A forecast entry (R657). -/
structure FcEntry where
  start : Nat
  lengthUs : Nat
  core : List Nat
  hbm : Nat
  hearth : Nat
  deriving DecidableEq, Repr

/-- The inlet or the outlet point (R662): 0 both thermistors valid, 1 only B, 2 only A, 3 lost; since when the two have
differed by more than 2.0 °C; the value in 0.01 °C. -/
structure CoolPoint where
  code : Nat := 0
  apartSince : Option Nat := none
  value : Option Int := none
  deriving DecidableEq, Repr

/-- A flow input (R661, R669): the edges of the last 100 ms on the slewed count, newest first, the last edge, and
whether it is latched invalid. -/
structure FlowInput where
  pulses : List Nat := []
  last : Nat := 0
  latched : Bool := false
  deriving DecidableEq, Repr

/-- The coolant loop (R661 to R671): the last 16 samples of TIN_A, TIN_B, TOUT_A and TOUT_B, newest first; the two
points; the last sample; since when the inlet has been above its limit and whether that was raised; the flow inputs; the
last measurement and the flow it gave; whether apart inputs were raised; since when flow has been low or restored, when
the ceiling was last set; the outlet at the last five measurements, newest first; and the sums of the calorimetric
interval: samples, flow, outlet − inlet, power, and when it began. -/
structure CoolState where
  samples : List (List Nat) := [[], [], [], []]
  inlet : CoolPoint := {}
  outlet : CoolPoint := {}
  sampledAt : Nat := 0
  hotSince : Option Nat := none
  hotTold : Bool := false
  flowA : FlowInput := {}
  flowB : FlowInput := {}
  measuredAt : Nat := 0
  flow : Option Nat := none
  apartTold : Bool := false
  lowSince : Option Nat := none
  highSince : Option Nat := none
  ceilingAt : Nat := 0
  outlets : List (Option Int) := []
  calN : Nat := 0
  calFlow : Nat := 0
  calDelta : Int := 0
  calPower : Nat := 0
  calAt : Nat := 0
  dutyAt : Nat := 0
  deriving DecidableEq, Repr

/-- The power manager: the agents, the forecast (R657) and the Dial time at which its last entry ends, whether its
staleness was raised, the flow ceiling (R668), the Courses in retain (2) or off (3), the loop, whether the thermal trip
holds (R673), and whether PWR_EN_MAIN is high (R737). -/
structure PowerState where
  agents : AMap PowerAgent := []
  forecast : List FcEntry := []
  staleRaised : Bool := true
  flowCeiling : Nat := 1530
  sleep : AMap Nat := []
  cool : CoolState := {}
  tripped : Bool := false
  enMain : Bool := false
  deriving DecidableEq, Repr

end Sys2Proof.Machine
end

