-- ==== Sys2Proof/Types/Rings.lean ====
section
/-! DEFINITION. State of the ring and Tie chapter (R282 to R341): each context's rings and counts, the descriptors
fetched and not complete, the Bond store's slots, the Tie counters, the pending waits and the messages between dies. -/

namespace Sys2Proof.Machine

/-- Why a ring is held (R308). -/
inductive Hold where
  | none | tieWait | fence | sieve | register | release
  deriving DecidableEq, Repr

/-- One submission ring: descriptors fetched, the tail last read, why it is held, and, while it is stopped, why it
stopped and the count at which a restart resumes (R313, R314).
Log entry: 33 (DEDUCED). -/
structure Ring where
  head : Nat := 0
  tail : Nat := 0
  hold : Hold := .none
  cause : Nat := 0
  resume : Nat := 0
  polledAt : Nat := 0
  deriving DecidableEq, Repr

/-- One context's rings and counts: completion records written and consumed, slots reserved (R307), events written
and consumed, the next sequence number of its event ring (R15), the statuses whose next event carries the drop flag
(R321), the generations of its key (R688), and the causes of a teardown whose scrub has not ended. -/
structure CtxState where
  rings : AMap Ring := []
  cqTail : Nat := 0
  cqHead : Nat := 0
  reserved : Nat := 0
  eqTail : Nat := 0
  eqHead : Nat := 0
  evSeq : Nat := 0
  dropped : AMap Bool := []
  keyGen : Nat := 0
  scrubCause : Option Nat := none
  deriving DecidableEq, Repr

/-- How far a descriptor has come. -/
inductive DescPhase where
  | waiting     -- its Tie wait is on its way or pending
  | forwarded   -- a LAUNCH or SIEVE handed on
  | issued      -- a Tie operation on its way to its home
  | held        -- a FENCE, BOND_REGISTER or BOND_RELEASE holds its ring
  deriving DecidableEq, Repr

/-- A descriptor fetched and not complete (R289): its context, ring, count, 64 bytes and phase. `result` is what its
work has answered so far (a verified handle, a refusal status). -/
structure Desc where
  ctx : Nat
  ring : Nat
  count : Nat
  raw : List Nat
  phase : DescPhase
  status : Nat := 0
  result : Nat := 0
  deriving DecidableEq, Repr

/-- Who waits on a Tie, or who sent an operation: a role on a Brick, a descriptor, or another sender of R324. -/
inductive Agent where
  | role (brick : Nat)
  | desc (ctx ring count : Nat)
  | other (index : Nat)
  deriving DecidableEq, Repr

/-- What a Tie operation does (R322). -/
inductive TieKind where
  | signal | waitGe | waitEq | reset
  deriving DecidableEq, Repr

/-- A Tie operation on its way to its home: its kind, Tie, value, sender, the context it is for and, for a wait, the
timeout in µs. -/
structure TieOp where
  kind : TieKind
  tie : Nat
  value : Nat
  sender : Agent
  ctx : Nat
  timeoutUs : Nat := 0
  deriving DecidableEq, Repr

/-- A wait pending at a Tie's home (R326, R327): its deadline on the slewed count. -/
structure TieWait where
  tie : Nat
  value : Nat
  equal : Bool
  who : Agent
  ctx : Nat
  deadline : Nat
  deriving DecidableEq, Repr

/-- A release on its way to a die that holds waiters of the Tie (R775). -/
structure TieRel where
  tie : Nat
  die : Nat
  value : Nat
  who : List Agent
  deriving DecidableEq, Repr

/-- A Bond store slot: its generation, and while it is filled the context that registered it (R302 to R305), the
installer key slot that signed it, the SHA-384 of its image, and whether that slot has not since been revoked (R694). -/
structure StoreSlot where
  gen : Nat := 0
  owner : Option Nat := none
  keySlot : Nat := 0
  digest : List Nat := []
  valid : Bool := false
  deriving DecidableEq, Repr

/-- A registration in work (R303): its descriptor, the image as Keystone has read it once, none where it lies outside the
context's partition, and the status of a read that was refused.
Log entry: 11 (DESIGN CHOICE). -/
structure RegJob where
  ctx : Nat
  ring : Nat
  count : Nat
  image : Option (List Nat)
  status : Nat
  deriving DecidableEq, Repr

/-- Rings, descriptors, the device event ring (its next sequence number, the statuses whose next event carries the drop
flag, and whether a ring has been committed), the Bond store and the Ties: their values, the waits pending at home, and
the operations and releases on their way. `sieveIn` names the SIEVE descriptors that wait for a place in the Sieve's
queue, `regJobs` the registrations in work, `irqs` the vectors whose MSI-X messages wait for the PCIe link (R319), and
`dawnQueue` the events raised before HST_DEV_EQ_BASE is first committed (R713). -/
structure RingsState where
  ctxs : AMap CtxState := []
  descs : List Desc := []
  devSeq : Nat := 0
  devDropped : AMap Bool := []
  devOpen : Bool := false
  dawnQueue : List (List Nat) := []
  store : AMap StoreSlot := []
  ties : AMap Nat := []
  waits : List TieWait := []
  ops : List TieOp := []
  rels : List TieRel := []
  sieveIn : List (Nat × Nat × Nat) := []
  regJobs : List RegJob := []
  irqs : List Nat := []
  deriving DecidableEq, Repr

end Sys2Proof.Machine
end

