-- ==== Sys2Proof/Types/Sieve.lean ====
section
/-! DEFINITION. State of the Sieve (R195 to R212). -/

namespace Sys2Proof.Machine

/-- What a running job has found (R199 to R203): its kept entries, 32 bytes each, and the counts of its summary. -/
structure SieveResult where
  entries : List (List Nat)
  considered : Nat
  below : Nat
  invalid : Nat
  suppressed : Nat
  truncated : Bool
  deriving DecidableEq, Repr

/-- A job in the Sieve's queue (R197): its descriptor's context, ring, count and bytes, the copies of its record and
thresholds, and once it runs the slewed count and the Dial time of its start and its result. -/
structure SieveJob where
  ctx : Nat
  ring : Nat
  count : Nat
  raw : List Nat
  record : List Nat
  thresh : List Nat
  startAt : Nat := 0
  startDial : Nat := 0
  result : Option SieveResult := none
  deriving DecidableEq, Repr

/-- The Sieve: its jobs in the order of acceptance; the first runs once it has a result. -/
structure SieveState where
  jobs : List SieveJob := []
  deriving DecidableEq, Repr

end Sys2Proof.Machine
end

