-- ==== Sys2Proof/Machine/State.lean ====
section
/-! DEFINITION. The whole state of the package, what a step can end in beside a next state, and the state after
reset. -/

namespace Sys2Proof.Machine

/-- Why the machine stops with a fault.
Log entry: 19 (DEDUCED). -/
inductive Fault where
  /-- A command names a device address of more than 48 bits, which no master can issue (R24, R28). Raised by
  MEMORY_READ and MEMORY_WRITE. Safe: the model stops. -/
  | addressBeyond48
  deriving DecidableEq, Repr

/-- Why a command has no meaning. -/
inductive Refusal where
  /-- The command has no meaning in this model yet. Safe: the model stops. -/
  | notModelled (mnemonic : String)
  deriving DecidableEq, Repr

/-- The state of the package. `pending` is the queue of commands that wait, first in, first out. `fresh` counts the
free values drawn (the model's own field). `silent` says which dies have received a silent command (R569). `partialDie`
and `partialStep` are the Course die under a partial reset and the step reached (R716). `perst` says that PERST_N is
low. `forwards` holds the events on their way to the islands (R564). `out` holds what the package has sent out of
itself and to its islands, oldest first.
Log entries: 4 (DESIGN CHOICE), 12 (DESIGN CHOICE). -/
structure State where
  pending : List Instr := []
  fresh : Nat := 0
  regs : RegFile := {}
  clock : ClockState := {}
  mode : PkgMode := .unpowered
  silent : AMap Bool := []
  partialDie : Option Nat := none
  partialStep : Nat := 0
  pcieUp : Bool := false
  perst : Bool := false
  bus : BusAnswer := {}
  out : List OutMsg := []
  forwards : List Forward := []
  mem : MemState := {}
  rings : RingsState := {}
  fab : FabricState := {}
  day : DayState := {}
  key : KeyState := {}
  sieve : SieveState := {}
  mortar : MortarState := {}
  power : PowerState := {}
  input : InputState := {}
  mer : MerState := {}
  isl : IslandState := {}
  ouvur : OuvurState := {}
  nwt : NwtState := {}
  deriving DecidableEq, Repr

/-- The machine right after reset: every register at its reset value, the instant at which the Nightwatch supply is in
range and PWR_EN_MAIN has risen (R736, R737), before PWR_GOOD first rises; nothing is released, so every die is silent
(R570).
Log entries: 2 (DESIGN CHOICE), 3 (DESIGN CHOICE), 7 (DEDUCED), 166 (DESIGN CHOICE). -/
def State.reset : State :=
  { silent := [(0, true), (1, true), (2, true), (3, true), (4, true)], power := { enMain := true } }

end Sys2Proof.Machine
end

