-- ==== Sys2Proof/Machine/Ops.lean ====
section
/-! DEFINITION. Named operations on the state that every family uses: free values, time, setup registers and the
commit rule (R755 to R773), links and routes (R18 to R20), and the dies' numbering (R2 to R6). -/

namespace Sys2Proof.Machine

open Reg

/-! ## Free values and time -/

/-- A free value below m, and the state that has drawn it.
Log entry: 4 (DESIGN CHOICE). -/
def draw (s : State) (m : Nat) : Nat × State :=
  (Config.freeValue s.fresh % m, { s with fresh := s.fresh + 1 })

/-- Pass over n free values that an operation has used by their index.
Log entry: 4 (DESIGN CHOICE). -/
def skipFresh (n : Nat) (s : State) : State := { s with fresh := s.fresh + n }

/-- Put the fields of a state that a free value may set: the state after a draw, and the value given to f.
Log entry: 4 (DESIGN CHOICE). -/
def withDraw (s : State) (m : Nat) (f : Nat → State → State) : State := f (draw s m).1 (draw s m).2

/-- Add a message that leaves the package or crosses to an island.
Log entry: 12 (DESIGN CHOICE). -/
def send (kind : MsgKind) (data : List Nat) (s : State) : State := { s with out := s.out ++ [⟨kind, data⟩] }

/-! ## Where a register stands -/

/-- The setup offset of die d's window (R2, R755). -/
def dieBase (d : Nat) : Nat := d * 0x10000000

/-- Course die of a global Course (R3). -/
def courseDie (c : Nat) : Nat := c / 16 + 1

/-- Global Course of a global Brick (R4). -/
def brickCourse (b : Nat) : Nat := b / 16

/-- Course die on which a Tie lives (R6). -/
def tieHome (t : Nat) : Nat := t / 32768 + 1

/-- Offset of Course c's block in a table of Course blocks with a stride (R95, R160). -/
def atCourse (c stride : Nat) : Nat := dieBase (courseDie c) + c % 16 * stride

/-- The key of a field whose register is repeated at distance `at_` from its first place. -/
def fkey (f : Field) (at_ : Nat) : Nat := (f.off + at_) * 64 + f.lo

/-- The present value of a field that is not staged (R757). -/
def rd (s : State) (f : Field) (at_ : Nat := 0) : Nat := aget s.regs.live (fkey f at_) f.reset

/-- Whether a one-bit field is set. -/
def rdB (s : State) (f : Field) (at_ : Nat := 0) : Bool := rd s f at_ == 1

/-- Set a field that is not staged, keeping its width. -/
def wr (f : Field) (at_ v : Nat) (s : State) : State :=
  { s with regs := { s.regs with live := aset s.regs.live (fkey f at_) (v % 2 ^ f.width) f.reset } }

/-- Set a one-bit field. -/
def wrB (f : Field) (at_ : Nat) (b : Bool) (s : State) : State := wr f at_ (b2n b) s

/-- Add to a count that saturates at its width. -/
def incSat (f : Field) (at_ n : Nat) (s : State) : State := wr f at_ (satTo (rd s f at_ + n) (2 ^ f.width - 1)) s

/-- Add to a count that wraps at its width. -/
def incWrap (f : Field) (at_ n : Nat) (s : State) : State := wr f at_ (rd s f at_ + n) s

/-- The committed copy of a staged field (R757, R762). -/
def com (s : State) (f : Field) (at_ : Nat := 0) : Nat := aget s.regs.committed (fkey f at_) f.reset

/-- The staged copy of a staged field. -/
def stg (s : State) (f : Field) (at_ : Nat := 0) : Nat := aget s.regs.staged (fkey f at_) f.reset

/-- Set a staged copy. -/
def wrStg (f : Field) (at_ v : Nat) (s : State) : State :=
  { s with regs := { s.regs with staged := aset s.regs.staged (fkey f at_) (v % 2 ^ f.width) f.reset } }

/-- Set a committed copy. -/
def wrCom (f : Field) (at_ v : Nat) (s : State) : State :=
  { s with regs := { s.regs with committed := aset s.regs.committed (fkey f at_) (v % 2 ^ f.width) f.reset } }

/-- Make the staged copies of the fields given the committed ones, in one instant (R763). -/
def acceptStaged (l : List (Field × Nat)) (s : State) : State :=
  l.foldl (fun s fa => wrCom fa.1 fa.2 (stg s fa.1 fa.2) s) s

/-- Put every field of the registers at setup offsets lo to hi − 1 back to its reset value (R710, R762). -/
def resetRegs (lo hi : Nat) (s : State) : State :=
  { s with regs := { live := aclear s.regs.live (lo * 64) (hi * 64),
                     staged := aclear s.regs.staged (lo * 64) (hi * 64),
                     committed := aclear s.regs.committed (lo * 64) (hi * 64) } }

/-! ## Reading and writing by address -/

/-- Whether a register row covers a window offset, and the offset of the register there. -/
def RegRow.place (r : RegRow) (die off : Nat) : Option Nat :=
  let d := off - r.off
  let within : Option Nat :=
    match r.dims with
    | [] => some d
    | [(n, st)] => if d / st < n then some (d % st) else none
    | (n, st) :: (m, su) :: _ => if d / st < n ∧ d % st / su < m then some (d % st % su) else none
  match within with
  | some e => if r.off ≤ off ∧ e < r.width / 8 ∧ r.die ≤ die ∧ die < r.die + r.dies then some (off - e) else none
  | none => none

/-- The register that occupies a setup offset: its row and its own setup offset (R755, R758). -/
def regAt (addr : Nat) : Option (RegRow × Nat) :=
  rows.findSome? (fun r => (RegRow.place r (addr / 0x10000000) (addr % 0x10000000)).map
    (fun o => (r, addr / 0x10000000 * 0x10000000 + o)))

/-- The key of a field of a register at setup offset a. -/
def placeKey (f : Field) (a : Nat) : Nat := a * 64 + f.lo

/-- The home-map entry of a page that Dawn sets (R344, R715). -/
def dawnEntry (s : State) (p : Nat) : Nat :=
  let owner := if 1564672 ≤ p then 0x50
    else if s.mem.hostFirst ≤ p ∧ p < s.mem.hostFirst + s.mem.hostPages then 0x40 else 0xFF
  owner * 0x1000000 + p / 393216 * 0x80000 + p % 393216

/-- The home-map entry of a page (R343). -/
def homeEntry (s : State) (p : Nat) : Nat := aget s.mem.home p (dawnEntry s p)

/-- Set a power domain on or off in PWR_DOMAIN_ON (R675). -/
def setDomain (d : Nat) (on : Bool) (s : State) : State :=
  wr PWR_DOMAIN_ON.on (d / 32 * 4) (setBit (rd s PWR_DOMAIN_ON.on (d / 32 * 4)) (d % 32) on) s

/-- Wake Course c: it is active or idle again, and its domain is on (R644, R646). -/
def wakeCourse (c : Nat) (s : State) : State :=
  setDomain c true { s with power := { s.power with sleep := adel s.power.sleep c } }

/-- The state code of a Course (R644, R675): 0 active, 1 idle, 2 retain, 3 off. -/
def courseCode (s : State) (c : Nat) : Nat :=
  match aget s.power.sleep c 0 with
  | 0 => if rdB s TRW_COURSE_STATE.running (atCourse c 0x100) then 0 else 1
  | k => k

/-- What a read of a field gives by its access type (R757), at the register's setup offset. Some fields show state
that stands elsewhere: the entry of the page peeked at (R384), the record entry shown (R704), the waits pending at a Tie
home (R340), the kind of a port that is fixed real-time (R386), and the states of the Courses (R675). -/
def fieldValue (s : State) (f : Field) (a : Nat) : Nat :=
  if f = HBM_MAP_PEEK_DATA.entry then
    (if rd s HBM_MAP_PEEK.page < 1572864 ∧ s.mode ≠ .unpowered ∧ s.mode ≠ .dawn then homeEntry s (rd s HBM_MAP_PEEK.page) else 0)
  else if f = KEY_REC_DATA.entry then
    fld (aget s.key.record (rd s KEY_REC_READ.index) []) (a - 0x1300100) 8
  else if f = TIE_PENDING.pending then countIf s.rings.waits (fun w => tieHome w.tie == a / 0x10000000)
  else if f = PLB_PORT_CFG.kind ∧ (a = 0xA00000 + 64 * 16 + 8 ∨ a = 0xA00000 + 66 * 16 + 8) then 2
  else if f = PWR_COURSE_STATE.state ∧ s.mode = .run then
    sumNat ((List.range 16).map (fun j => courseCode s ((a - 0x1200050) / 4 * 16 + j) * 4 ^ j))
  else match f.acc with
    | .wo => 0
    | .st => aget s.regs.staged (placeKey f a) f.reset
    | _ => aget s.regs.live (placeKey f a) f.reset

/-- The value of a whole register. -/
def regValue (s : State) (r : RegRow) (a : Nat) : Nat :=
  sumNat (r.fields.map (fun f => fieldValue s f a * 2 ^ f.lo))

/-- Clear the RC fields of a register that a read touches: those with a bit in the words read (R757). -/
def clearRc (r : RegRow) (a lo hi : Nat) (s : State) : State :=
  r.fields.foldl (fun s f =>
    if f.acc = .rc ∧ f.lo < hi ∧ lo < f.lo + f.width then
      { s with regs := { s.regs with live := aset s.regs.live (placeKey f a) f.reset f.reset } }
    else s) s

/-- Read one 32-bit word of setup space: its value and the state after the read. -/
def readWord (s : State) (addr : Nat) : Nat × State :=
  match regAt addr with
  | none => (0, s)
  | some (r, a) =>
    let lo := (addr - a) * 8
    (bits (regValue s r a) lo 32, clearRc r a lo (lo + 32) s)

/-- Write one field by its access type: `v` is the word's value placed at the register's bits, `lo` and `hi` the bits
that the word covers (R757).
Log entry: 8 (DEDUCED). -/
def writeField (f : Field) (a v lo hi : Nat) (s : State) : State :=
  if f.lo < hi ∧ lo < f.lo + f.width then
    let old := aget (match f.acc with | .st => s.regs.staged | _ => s.regs.live) (placeKey f a) f.reset % 2 ^ f.width
    -- the bits of the field inside the word, and those outside that keep their value
    let start := if lo ≤ f.lo then 0 else lo - f.lo
    let upto := if f.lo + f.width ≤ hi then f.width else hi - f.lo
    let new := old % 2 ^ start + bits v (f.lo + start) (upto - start) * 2 ^ start + old / 2 ^ upto * 2 ^ upto
    match f.acc with
    | .rw => { s with regs := { s.regs with live := aset s.regs.live (placeKey f a) new f.reset } }
    | .w1c =>
      { s with regs := { s.regs with live := aset s.regs.live (placeKey f a) (if bit v f.lo then 0 else old) f.reset } }
    | .st => { s with regs := { s.regs with staged := aset s.regs.staged (placeKey f a) new f.reset } }
    | _ => s
  else s

/-- Whether writing a word to a register would be ignored whole or in part: it sets a bit of an RO or RC field or of
a reserved bit.
Log entry: 9 (DEDUCED). -/
def writeIgnored (r : RegRow) (a addr v : Nat) : Bool :=
  let lo := (addr - a) * 8
  (List.range 32).any (fun i => bit v i &&
    !(r.fields.any (fun f => f.lo ≤ lo + i && lo + i < f.lo + f.width && f.acc != .ro && f.acc != .rc)))

/-- Record an ignored or discarded write (R758). The island windows hold no FAB registers.
Log entry: 9 (DEDUCED). -/
def noteIgnored (addr : Nat) (s : State) : State :=
  if addr / 0x10000000 ≤ 4 then
    wr FAB_IGNORED_ADDR.offset (dieBase (addr / 0x10000000)) (addr % 0x10000000)
      (wr FAB_COMMIT_STATUS.ignored_write (dieBase (addr / 0x10000000)) 1 s)
  else s

/-- Write one 32-bit word of setup space (R757, R758). -/
def writeWord (addr v : Nat) (s : State) : State :=
  match regAt addr with
  | none => s
  | some (r, a) =>
    r.fields.foldl (fun s f => writeField f a (v * 2 ^ ((addr - a) * 8)) ((addr - a) * 8) ((addr - a) * 8 + 32) s) s

/-- Whether a write of a word is ignored in whole or in part: no register, none of its bits writable, or a set bit
that no write can change (R757, R758).
Log entry: 9 (DEDUCED). -/
def wordIgnored (addr v : Nat) : Bool :=
  match regAt addr with
  | none => true
  | some (r, a) => writeIgnored r a addr v || r.fields.all (fun f => f.acc = .ro || f.acc = .rc)

/-! ## The commit rule -/

/-- A commit that is refused: its status and the offset for FAB_COMMIT_FIELD (R770). -/
abbrev Refuse := Nat × Nat

/-- The first check of a list that fails (R767, R13).
Log entry: 18 (DEDUCED). -/
def firstFail (l : List (Bool × Refuse)) : Option Refuse := (l.find? (fun x => x.1)).map (·.2)

/-- Note which commit register was written (R770). -/
def commitAt (die off : Nat) (s : State) : State :=
  wr FAB_COMMIT_WHERE.commit_offset (dieBase die) off s

/-- Write a commit's result (R769). -/
def commitDone (die : Nat) (r : Refuse) (s : State) : State :=
  wr FAB_COMMIT_FIELD.field_offset (dieBase die) r.2
    (wr FAB_COMMIT_STATUS.status (dieBase die) r.1 (wr FAB_COMMIT_STATUS.busy (dieBase die) 0 s))

/-- Note that a commit is being checked (R770).
Log entry: 11 (DESIGN CHOICE). -/
def commitBusy (die : Nat) (s : State) : State := wr FAB_COMMIT_STATUS.busy (dieBase die) 1 s

/-- Whether the die has received a silent command (R569). -/
def dieSilent (s : State) (die : Nat) : Bool := aget s.silent die false

/-- A whole commit of one step: a write of 0 has no effect; in the silent state it is refused with 0x0C40 before
every other check (R771); else the first check that fails refuses it, and an accepted one applies `eff` (R763, R764).
Log entries: 11 (DESIGN CHOICE), 18 (DEDUCED). -/
def commit (die off value : Nat) (checks : List (Bool × Refuse)) (eff : State → State) (s : State) : State :=
  if value % 2 = 0 then s
  else if dieSilent s die then commitDone die (0x0C40, 0) (commitAt die off s)
  else match firstFail checks with
    | some r => commitDone die r (commitAt die off s)
    | none => commitDone die (0, 0) (eff (commitAt die off s))

/-! ## Links and routes -/

/-- Setup offset of a Mortar port's block beyond the block of port 0 of Course die 1: die 1 to 4, logical port 0 to 2
(R428). -/
def portAt (die p : Nat) : Nat := dieBase die + p * 0x40

/-- State of logical port p of Course die n: 0 down, 1 training, 2 up, 3 under test. -/
def portState (s : State) (n p : Nat) : Nat := rd s MTR_PORT_STATUS.state (portAt n p)

/-- State of the Hearth's hub port n, 1 to 4. -/
def hubPortState (s : State) (n : Nat) : Nat := rd s MTR_HUB_PORT_STATUS.state ((n - 1) * 0x40)

/-- The ring-east neighbour of Course die n (R18). -/
def east (n : Nat) : Nat := n % 4 + 1

/-- The ring-west neighbour of Course die n (R18). -/
def west (n : Nat) : Nat := (n + 2) % 4 + 1

/-- Ring link k, 0 to 3, joins die k + 1 and its ring-east neighbour; hub link k, 4 to 7, joins die k − 3 and the
Hearth (R19, R387). A link is up while the ports at both ends are. -/
def linkUp (s : State) (k : Nat) : Bool :=
  if k < 4 then portState s (k + 1) 0 == 2 && portState s (east (k + 1)) 1 == 2
  else portState s (k - 3) 2 == 2 && hubPortState s (k - 3) == 2

/-- Trained data lanes of a link, the smaller of its ends. -/
def linkWidth (s : State) (k : Nat) : Nat :=
  if k < 4 then min (rd s MTR_PORT_STATUS.width (portAt (k + 1) 0)) (rd s MTR_PORT_STATUS.width (portAt (east (k + 1)) 1))
  else min (rd s MTR_PORT_STATUS.width (portAt (k - 3) 2)) (rd s MTR_HUB_PORT_STATUS.width ((k - 4) * 0x40))

/-- The links of the step from die n to its ring-east neighbour. -/
def eastLink (n : Nat) : Nat := n - 1

/-- The links of the step from die n to its ring-west neighbour. -/
def westLink (n : Nat) : Nat := west n - 1

/-- The hub link of die n. -/
def hubLink (n : Nat) : Nat := n + 3

/-- The routes between two dies in the order of R20, each as the links it takes. -/
def routes (a b : Nat) : List (List Nat) :=
  if a = b then [[]]
  else if a = 0 then [[hubLink b], [hubLink (east b), westLink (east b)], [hubLink (west b), eastLink (west b)]]
  else if b = 0 then [[hubLink a], [eastLink a, hubLink (east a)], [westLink a, hubLink (west a)]]
  else if b = east a then
    [[eastLink a], [hubLink a, hubLink b], [westLink a, westLink (west a), westLink (west (west a))]]
  else if b = west a then
    [[westLink a], [hubLink a, hubLink b], [eastLink a, eastLink (east a), eastLink (east (east a))]]
  else [[eastLink a, eastLink (east a)], [westLink a, westLink (west a)], [hubLink a, hubLink b]]

/-- The first route whose links are all up (R20), none when the die cannot be reached (R412). A die in a partial
reset, from its step 2 to its step 7, is not reached (R717). -/
def route (s : State) (a b : Nat) : Option (List Nat) :=
  if (s.partialDie = some a ∨ s.partialDie = some b) ∧ a ≠ b ∧ 2 ≤ s.partialStep ∧ s.partialStep < 7 then none
  else (routes a b).find? (fun r => r.all (linkUp s))

/-- Whether traffic from one die reaches another. -/
def reach (s : State) (a b : Nat) : Bool := (route s a b).isSome

/-! ## Time -/

/-- Dial time now (R9, R36). -/
def dial (s : State) : Nat := rd s NWT_DIAL_NOW.dial_ns

/-- The slewed count without steps, in ns, on which timers run (R32). -/
def now (s : State) : Nat := s.clock.count

/-- The crystal's own time in ns, on which the islands' timers run (R40): no slew and no step of Dial time is seen there.
Log entries: 42 (DESIGN CHOICE), 46 (DEDUCED). -/
def osc (s : State) : Nat := s.clock.osc

/-- How far Dial time runs while the crystal runs a million: the rate correction in force (R31). -/
def ppm (s : State) : Nat := (1000000 + s.clock.rate).toNat

/-- Let d nanoseconds pass on the slewed count: Dial time and the count advance together (R30, R32), and the crystal by
what the rate correction makes of them (R31).
Log entries: 1 (DESIGN CHOICE), 6 (DESIGN CHOICE), 20 (DESIGN CHOICE), 177 (DESIGN CHOICE). -/
def pass (d : Nat) (s : State) : State :=
  let n := divUp (d * 1000000 - s.clock.oscFrac) (ppm s)
  wr NWT_DIAL_NOW.dial_ns 0 (dial s + d) { s with
    clock := { s.clock with count := s.clock.count + d
                            osc := s.clock.osc + n
                            oscFrac := s.clock.oscFrac + n * ppm s - d * 1000000 } }

/-- Whether a discrete input has stood at its new level for as many samples of Nightwatch's 4 MHz as its filter asks for
(R740). -/
def filtered (need samples : Nat) : Bool := decide (need ≤ samples)

/-- Whether the Nightwatch domain keeps Dial time, tick by tick (R34). -/
def ticking (s : State) : Bool := s.mode = .night || s.mode = .deepNight

/-- How many nanoseconds k ticks of the 32.768 kHz crystal make, each 1,000,000,000 / 32,768 ns, with the fraction that
the clock carries (R34). -/
def ClockState.tickNs (c : ClockState) (k : Nat) : Nat := (c.nightFrac + 1000000000 * k) / 32768

/-- The clocks after k ticks (R34). -/
def ClockState.ticks (c : ClockState) (k : Nat) : ClockState :=
  let n := divUp (1000000000 * k - c.tickPhase) 32768
  { c with count := c.count + c.tickNs k
           nightFrac := (c.nightFrac + 1000000000 * k) % 32768
           osc := c.osc + n
           tickPhase := c.tickPhase + 32768 * n - 1000000000 * k }

/-- k ticks of the 32.768 kHz crystal (R34).
Log entry: 6 (DESIGN CHOICE). -/
def passTicks (k : Nat) (s : State) : State :=
  wr NWT_DIAL_NOW.dial_ns 0 (dial s + s.clock.tickNs k) { s with clock := s.clock.ticks k }

/-- Let time pass up to an instant of the slewed count that a timer is due at (R40): in Night and Deep Night up to the
first tick at or after it (R34).
Log entries: 6 (DESIGN CHOICE), 177 (DESIGN CHOICE). -/
def passTo (t : Nat) (s : State) : State :=
  if now s < t then
    (if ticking s then passTicks (divUp ((t - now s) * 32768 - s.clock.nightFrac) 1000000000) s else pass (t - now s) s)
  else s

/-- Let d nanoseconds of the crystal's own time pass (R31, R34, R40). -/
def passOsc (d : Nat) (s : State) : State :=
  if ticking s then
    let x := s.clock.tickPhase + d * 32768
    let s1 := passTicks (x / 1000000000) s
    { s1 with clock := { s1.clock with osc := s.clock.osc + d, tickPhase := x % 1000000000 } }
  else
    let x := s.clock.oscFrac + d * ppm s
    wr NWT_DIAL_NOW.dial_ns 0 (dial s + x / 1000000) { s with
      clock := { s.clock with count := s.clock.count + x / 1000000, osc := s.clock.osc + d, oscFrac := x % 1000000 } }

/-- Let time pass up to an instant of the crystal's own time that an island's timer is due at (R40). -/
def passOscTo (t : Nat) (s : State) : State := if osc s < t then passOsc (t - osc s) s else s

/-! ## Parts of the state by their number -/

/-- The state of context c. -/
def ctxOf (s : State) (c : Nat) : CtxState := aget s.rings.ctxs c {}

/-- Set the state of context c. -/
def setCtx (c : Nat) (v : CtxState) (s : State) : State :=
  { s with rings := { s.rings with ctxs := aset s.rings.ctxs c v {} } }

/-- Change the state of context c. -/
def modCtx (c : Nat) (f : CtxState → CtxState) (s : State) : State := setCtx c (f (ctxOf s c)) s

/-- Submission ring r of context c. -/
def ringOf (s : State) (c r : Nat) : Ring := aget (ctxOf s c).rings r {}

/-- Change submission ring r of context c. -/
def modRing (c r : Nat) (f : Ring → Ring) (s : State) : State :=
  modCtx c (fun x => { x with rings := aset x.rings r (f (aget x.rings r {})) {} }) s

/-- The state of global Course c. -/
def courseOf (s : State) (c : Nat) : CourseState := aget s.fab.courses c {}

/-- Change the state of global Course c. -/
def modCourse (c : Nat) (f : CourseState → CourseState) (s : State) : State :=
  { s with fab := { s.fab with courses := aset s.fab.courses c (f (courseOf s c)) {} } }

/-- The state of global Brick b. -/
def brickOf (s : State) (b : Nat) : BrickState := aget s.fab.bricks b {}

/-- Change the state of global Brick b. -/
def modBrick (b : Nat) (f : BrickState → BrickState) (s : State) : State :=
  { s with fab := { s.fab with bricks := aset s.fab.bricks b (f (brickOf s b)) {} } }

/-- The context that holds Course c, 0xFF none (R95). -/
def courseCtx (s : State) (c : Nat) : Nat := rd s TRW_COURSE_STATE.context (atCourse c 0x100)

/-- Whether a Brick is fenced (R96). -/
def fenced (s : State) (b : Nat) : Bool := bit (rd s TRW_FENCE_MAP.brick_fenced (atCourse (brickCourse b) 0x100)) (b % 16)

/-- Whether context c is open: HST_CTX_STATE reads 1 (R335). -/
def ctxOpen (s : State) (c : Nat) : Bool := decide (c < 64) && rd s HST_CTX_STATE.state (c * 0x100) == 1

/-- Whether a context is sealed under the policy of the active plan (R258). -/
def ctxSealed (s : State) (c : Nat) : Bool :=
  match s.day.active with
  | some p => bit (p.policy.getD c (0, 0)).2 1
  | none => false

/-- The test time of R548 in µs for some cycles at the active plan's clock in MHz, rounded up; 0 without a plan. -/
def testTime (s : State) (cycles : Nat) : Nat :=
  match s.day.active with
  | some p => divUp (41 * p.gclk + 2 * cycles) (2 * max 1 p.gclk)
  | none => 0

/-- FAB_TEST_CYCLES and FAB_TEST_US_REQ from the installed packs and the active plan (R557). -/
def refreshTest (s : State) : State :=
  let cycles := 240000 + sumNat (s.fab.packs.map (·.cycles))
  wr FAB_TEST_US_REQ.test_us 0 (satTo (testTime s cycles) 0xFFFF) (wr FAB_TEST_CYCLES.cycles 0 cycles s)

/-- Take the k-th stack's controller. -/
def stackOf (s : State) (k : Nat) : StackState := aget s.mem.stackTab k {}

/-- Change the k-th stack's controller. -/
def modStack (k : Nat) (f : StackState → StackState) (s : State) : State :=
  { s with mem := { s.mem with stackTab := aset s.mem.stackTab k (f (stackOf s k)) {} } }

end Sys2Proof.Machine
end

