-- ==== Sys2Proof/Machine/Access.lean ====
section
/-! DEFINITION. Access to device memory: the decode of an address (R24 to R26), the owner checks (R347, R348, R687),
routes (R412), the keys of pages (R685, R686), poisoned lines, the write queues (R357, R358) and Plumb's token buckets
(R374). -/

namespace Sys2Proof.Machine

open Reg

/-! ## Address decode -/

/-- First device address beyond HBM (R24). -/
def hbmEnd : Nat := 0x1800000000

/-- Whether an address lies in the PCIe outbound window (R24). -/
def inPcie (a : Nat) : Bool := 0x400000000000 ≤ a && a < 0x800000000000

/-- Whether an address lies in setup space (R24). -/
def inSetup (a : Nat) : Bool := 0xF00000000000 ≤ a && a < 0xF00070000000

/-- The device address to which a BAR of the external host maps an offset (R28): BAR0 is setup space, its last 256 MiB
reserved, and BAR2 is HBM, its last 32 GiB reserved. -/
def barTarget (bar off : Nat) : Option Nat :=
  if bar = 0 ∧ off < 0x70000000 then some (0xF00000000000 + off)
  else if bar = 2 ∧ off < hbmEnd then some off
  else none

/-- Whether the external host reaches a device address through one of its BARs (R28). -/
def hostReaches (a : Nat) : Bool :=
  barTarget 2 a == some a || (decide (0xF00000000000 ≤ a) && barTarget 0 (a - 0xF00000000000) == some a)

/-- The owner code of the page of an HBM address (R343).
Log entry: 99 (DEDUCED). -/
def ownerOf (s : State) (a : Nat) : Nat := bits (homeEntry s (a / 65536)) 24 8

/-- The home stack, 0 to 3, of an HBM address. -/
def stackIdx (s : State) (a : Nat) : Nat := bits (homeEntry s (a / 65536)) 19 2

/-- The physical address of an HBM address: stacks in order, 24 GiB each (R342). -/
def physOf (s : State) (a : Nat) : Nat :=
  (stackIdx s a * 393216 + bits (homeEntry s (a / 65536)) 0 19) * 65536 + a % 65536

/-- The bus address of an address of the outbound window (R26). -/
def busOf (s : State) (a : Nat) : Nat := (a - 0x400000000000 + com s HST_PCIE_OUT_BASE.pcie_out_base) % 2 ^ 64

/-- The die of a master port (R372). -/
def portDie (port : Nat) : Nat := if port < 64 then courseDie port else 0

/-- The committed read mask of contexts for shared region k, 1 to 15 (R384). -/
def shareRd (s : State) (k : Nat) : Nat := com s HBM_SHARE_RD.ctx_rd (16 * k)

/-- The committed write mask of contexts for shared region k. -/
def shareWr (s : State) (k : Nat) : Nat := com s HBM_SHARE_WR.ctx_wr (16 * k)

/-- Whether a context may read (or write) a shared region. -/
def ctxShares (s : State) (k c : Nat) (write : Bool) : Bool := bit (if write then shareWr s k else shareRd s k) c

/-- Whether a Hearth port may read (or write) a shared region. -/
def portShares (s : State) (k port : Nat) (write : Bool) : Bool :=
  bit (if write then com s HBM_SHARE_PORTS.port_wr (8 * k) else com s HBM_SHARE_PORTS.port_rd (8 * k)) (port - 64)

/-- The context that acts through a Course port: the one whose state lies on the Course (R259, R347). -/
def portCtx (s : State) (port : Nat) : Nat := (courseOf s port).owner

/-- Whether a port acting for a context (0xFF: for none) may read or write a page of an owner (R347, R687). -/
def mayAccess (s : State) (port ctx owner : Nat) (write : Bool) : Bool :=
  if owner < 64 then
    if port < 64 then portCtx s port == owner
    else if port = 68 ∨ port = 69 then !write
    else if port = 70 then (if ctx = 0xFF then !write else ctx == owner)
    else if port = 73 then true
    else ctx == owner
  else if owner = 0x40 then 68 ≤ port
  else if 0x41 ≤ owner ∧ owner ≤ 0x4F then
    if port < 64 then portCtx s port < 64 && ctxShares s (owner - 0x40) (portCtx s port) write
    else portShares s (owner - 0x40) port write && (ctx == 0xFF || ctxShares s (owner - 0x40) ctx write)
  else if owner = 0x50 then port == 73 || (decide (port < 64) && !write)
  else false

/-- The status of an access to one address: 0 when it is served; 0x0701 where nothing is mapped (R25, R348) or
no BAR of the external host maps the address (R28), 0x0702 where the port may not reach the page or write it (R348), and
0x0810 where no route is up to the home (R412).
Log entry: 101 (DEDUCED). -/
def accessStatus (s : State) (port ctx a : Nat) (write : Bool) : Nat :=
  if port = 69 ∧ !hostReaches a then 0x0701
  else if a < hbmEnd then
    if ownerOf s a = 0xFF then 0x0701
    else if !mayAccess s port ctx (ownerOf s a) write then 0x0702
    else if !reach s (portDie port) (stackIdx s a + 1) then 0x0810
    else 0
  else if inPcie a then
    (if !s.pcieUp then 0x0701 else if !reach s (portDie port) 0 then 0x0810 else 0)
  else if inSetup a ∧ (port = 68 ∨ port = 69) then 0
  else 0x0701

/-- The addresses at which an access of n bytes at a is checked: its first byte, and the first byte of every further
64 KiB page that it touches. -/
def checkPoints (a n : Nat) : List Nat :=
  a :: ((List.range ((a + n - 1) / 65536 - a / 65536)).map (fun i => (a / 65536 + i + 1) * 65536))

/-- The status of an access of n bytes: the first that is not 0 among its pages. -/
def rangeStatus (s : State) (port ctx a n : Nat) (write : Bool) : Nat :=
  ((checkPoints a n).map (fun x => accessStatus s port ctx x write)).find? (· != 0) |>.getD 0

/-! ## Bytes of the stacks -/

/-- The key in force for an owner (R685, R688).
Log entry: 17 (DEDUCED). -/
def keyOf (s : State) (owner : Nat) : Nat :=
  if owner < 64 then aget s.mem.ctxKey owner 0 else aget s.mem.regionKey owner 0

/-- The key under which a frame stands that nothing has zeroed since Dawn: the frames of the host partition were zeroed
under their region key, every other frame is unreadable (R710, R715). The frame number counts through the stacks. -/
def frameBase (s : State) (frame : Nat) : Nat :=
  if s.mem.hostFirst ≤ frame ∧ frame < s.mem.hostFirst + s.mem.hostPages then s.mem.hostKey else 0

/-- The key under which a whole frame was last zeroed. -/
def frameKeyOf (s : State) (frame : Nat) : Nat := aget s.mem.frameKey frame (frameBase s frame)

/-- The key under which a line was last written; the line number is physical address / 64. -/
def lineKeyOf (s : State) (line : Nat) : Nat := aget s.mem.lineKey line (frameKeyOf s (line / 1024))

/-- The plaintext byte at a physical address as it was written: 0 in a frame that only zeroing has written (R351).
Log entry: 16 (DESIGN CHOICE). -/
def rawByte (s : State) (phys : Nat) : Byte := aget s.mem.cells phys 0

/-- The byte that a physical address reads as under a key.
Log entry: 16 (DESIGN CHOICE). -/
def physByte (s : State) (phys key : Nat) : Byte :=
  if lineKeyOf s (phys / 64) = key then rawByte s phys else Config.staleByte (lineKeyOf s (phys / 64)) key phys

/-- A line's ciphertext under the key pair of a number, at its device line number (R685). -/
def cipherLine (key line : Nat) (data : List Nat) : List Nat :=
  xtsEncrypt (beBytes 32 (Config.keyMaterial 8 key % 2 ^ 256)) (beBytes 32 (Config.keyMaterial 9 key % 2 ^ 256)) line data

/-- Whether a read by this port sees ciphertext (R686). -/
def seesCipher (port ctx owner : Nat) : Bool :=
  decide (owner < 64) && (port == 68 || port == 69 || (port == 70 && ctx == 0xFF))

/-- The byte that a port reads at a device address, where the access is served (R24). -/
def readByte (s : State) (port ctx a : Nat) : Nat :=
  if a < hbmEnd then
    let phys := physOf s a
    if seesCipher port ctx (ownerOf s a) then
      (cipherLine (lineKeyOf s (phys / 64)) (a / 64)
        ((List.range 64).map (fun i => (rawByte s (phys / 64 * 64 + i)).toNat))).getD (a % 64) 0
    else (physByte s phys (keyOf s (ownerOf s a))).toNat
  else if inPcie a then (aget s.mem.ext (busOf s a) (Config.hostByte (busOf s a))).toNat
  else if inSetup a then bits (readWord s ((a - 0xF00000000000) / 4 * 4)).1 (a % 4 * 8) 8
  else 255

/-- n bytes that a port reads from a device address, where the access is served. -/
def readBytes (s : State) (port ctx a n : Nat) : List Nat := (List.range n).map (fun i => readByte s port ctx (a + i))

/-- Whether the line of an HBM address is poisoned. -/
def poisoned (s : State) (a : Nat) : Bool := a < hbmEnd && aget s.mem.poison (physOf s a / 64) false

/-- The device addresses of the lines that n bytes at a touch. -/
def lineAddrs (a n : Nat) : List Nat := (List.range ((a + n + 63) / 64 - a / 64)).map (fun i => (a / 64 + i) * 64)

/-! ## Pseudo-channels, banks and rows (R354) -/

/-- The pseudo-channel of a physical address: granule g of frame f lies on (g mod 32) xor (f mod 32). -/
def pcOf (phys : Nat) : Nat := ((phys % 65536 / 256 % 32) ^^^ (phys / 65536 % 393216 % 32))

/-- The run of a granule within its frame. -/
def granuleRun (phys : Nat) : Nat := phys % 65536 / 256 / 32

/-- The bank of a physical address. -/
def bankOf (phys : Nat) : Nat := (Config.bankRows (phys / 65536 % 393216 / 32)).1

/-- The row of a physical address in its bank: one for runs 0 to 3 and another for runs 4 to 7. -/
def rowOf (phys : Nat) : Nat :=
  if granuleRun phys < 4 then (Config.bankRows (phys / 65536 % 393216 / 32)).2.1
  else (Config.bankRows (phys / 65536 % 393216 / 32)).2.2

/-- Set one byte of a stack. -/
def putByte (phys : Nat) (b : Byte) (s : State) : State :=
  { s with mem := { s.mem with cells := aset s.mem.cells phys b 0 } }

/-- Set one byte of the external host's memory (R772).
Log entry: 15 (DESIGN CHOICE). -/
def putExt (bus : Nat) (b : Byte) (s : State) : State :=
  { s with mem := { s.mem with ext := aset s.mem.ext bus b (Config.hostByte bus) } }

/-- Note the key under which a line stands. -/
def setLineKey (line key : Nat) (s : State) : State :=
  { s with mem := { s.mem with lineKey := aset s.mem.lineKey line key (frameKeyOf s (line / 1024)) } }

/-- Give a line that another key wrote to the present key, with the bytes that it reads as under that key: what a
read-modify-write merges a part of a line into (R358). -/
def rekeyLine (line key : Nat) (s : State) : State :=
  if lineKeyOf s line = key then s
  else
    let old := (List.range 64).map (fun i => (line * 64 + i, physByte s (line * 64 + i) key))
    setLineKey line key (old.foldl (fun s e => putByte e.1 e.2 s) s)

/-- The lines that n bytes at a physical address touch. -/
def linesOf (phys n : Nat) : List Nat := (List.range ((phys + n + 63) / 64 - phys / 64)).map (fun i => phys / 64 + i)

/-- What a full write of a line ends: its poison, its failed symbols, and its being data of another address (R360,
R364). -/
def clearLine (line : Nat) (s : State) : State :=
  { s with mem := { s.mem with poison := aset s.mem.poison line false false
                               symbols := aset s.mem.symbols line 0 0
                               stray := aset s.mem.stray line 0 0 } }

/-- Write bytes into one stack at a physical address under a key: a whole line written is sound again (R364). -/
def putPhys (phys key : Nat) (data : List Nat) (s : State) : State :=
  let lines := linesOf phys data.length
  let s1 := lines.foldl (fun s l => rekeyLine l key s) s
  let s2 := ((List.range data.length).zip data).foldl (fun s e => putByte (phys + e.1) (BitVec.ofNat 8 e.2) s) s1
  lines.foldl (fun s l => if phys ≤ l * 64 ∧ l * 64 + 64 ≤ phys + data.length then clearLine l s else s) s2

/-- Drain one queued write to its stack (R356). -/
def drainOne (w : QWrite) (s : State) : State := putPhys w.phys w.key w.data s

/-- Whether a queued write shares a 64 B line with a range of physical addresses. -/
def QWrite.meets (w : QWrite) (phys n : Nat) : Bool :=
  overlap (w.phys / 64) ((w.phys + w.data.length + 63) / 64 - w.phys / 64) (phys / 64) ((phys + n + 63) / 64 - phys / 64)

/-- Drain the write queues of the pseudo-channels that `hit` names, in order of arrival (R356, R358). -/
def drainQueues (hit : QWrite → Bool) (s : State) : State :=
  let s1 := (s.mem.queue.filter hit).foldl (fun s w => drainOne w s) s
  { s1 with mem := { s1.mem with queue := s.mem.queue.filter (fun w => !hit w) } }

/-- What a read of a range of physical addresses makes the controller do (R356, R357): each pseudo-channel whose queue
holds a write to a 64 B line of the range drains its queue, in order of arrival. -/
def drainOverlap (phys n : Nat) (s : State) : State :=
  let full := (s.mem.queue.filter (fun w => w.meets phys n)).map (fun w => (w.stack, w.pc))
  drainQueues (fun w => full.contains (w.stack, w.pc)) s

/-- Drain the queued writes that overlap n bytes at an HBM address, page by page.
Log entry: 103 (DEDUCED). -/
def drainRange (a n : Nat) (s : State) : State :=
  ((List.range ((a + n - 1) / 65536 - a / 65536 + 1)).foldl (fun s i =>
    let x := if i = 0 then a else (a / 65536 + i) * 65536
    drainOverlap (physOf s x) (min (a + n) ((x / 65536 + 1) * 65536) - x) s) s)

/-- The byte that a read by a port would return at a device address, with the queued writes that it waits for drained
(R357).
Log entry: 15 (DESIGN CHOICE). -/
def peekByte (s : State) (port ctx a : Nat) : Nat := readByte (if a < hbmEnd then drainRange a 1 s else s) port ctx a

/-- Zero a frame under a key, its poison cleared (R351); the frame number counts through the stacks.
Log entries: 16 (DESIGN CHOICE), 98 (DEDUCED). -/
def zeroFrame (frame key : Nat) (s : State) : State :=
  { s with mem := { s.mem with
      cells := aclear s.mem.cells (frame * 65536) (frame * 65536 + 65536),
      lineKey := aclear s.mem.lineKey (frame * 1024) (frame * 1024 + 1024),
      symbols := aclear s.mem.symbols (frame * 1024) (frame * 1024 + 1024),
      stray := aclear s.mem.stray (frame * 1024) (frame * 1024 + 1024),
      frameKey := aset s.mem.frameKey frame key (frameBase s frame),
      poison := aclear s.mem.poison (frame * 1024) (frame * 1024 + 1024),
      queue := s.mem.queue.filter (fun w => w.phys / 65536 != frame) } }

/-! ## Plumb's policing -/

/-- The committed reservation of a port on stack k, 0 to 3, in GB/s (R386). -/
def portBw (s : State) (port k : Nat) : Nat :=
  match k with
  | 0 => com s PLB_PORT_BW.bw_stack1 (port * 16)
  | 1 => com s PLB_PORT_BW.bw_stack2 (port * 16)
  | 2 => com s PLB_PORT_BW.bw_stack3 (port * 16)
  | _ => com s PLB_PORT_BW.bw_stack4 (port * 16)

/-- Police a request of n bytes to stack k (R374): a bucket that finds too few tokens sets over_rate and serves the
request at best effort. A rate of 1 GB/s fills one byte a nanosecond.
Log entry: 110 (DESIGN CHOICE). -/
def police (port k n : Nat) (s : State) : State :=
  if rdB s PLB_PORT_STATE.held (port * 16) then
    let rate := portBw s port k
    let depth := max 4096 (rate * 1000)
    let level := min depth (aget s.mem.tokens (port * 4 + k) depth
      + rate * (now s - aget s.mem.tokenAt (port * 4 + k) 0))
    let s1 := { s with mem := { s.mem with tokenAt := aset s.mem.tokenAt (port * 4 + k) (now s) 0 } }
    if level < n then wr PLB_PORT_STATE.over_rate (port * 16) 1
      { s1 with mem := { s1.mem with tokens := aset s1.mem.tokens (port * 4 + k) level depth } }
    else { s1 with mem := { s1.mem with tokens := aset s1.mem.tokens (port * 4 + k) (level - n) depth } }
  else s

/-- Police an access of n bytes, page by page, each on the stack that it goes to (R374). -/
def policeRange (port a n : Nat) (s : State) : State :=
  (checkPoints a n).foldl (fun s x => police port (stackIdx s x) (min (a + n) ((x / 65536 + 1) * 65536) - x) s) s

/-! ## What an access meets at its stack (R360 to R364) -/

/-- What an access of one line meets: whether the link's retries ran out (R362), whether the line was corrected, and
whether it is uncorrectable, and poisoned already (R360, R361, R364). -/
structure Meet where
  exhausted : Bool := false
  fixed : Bool := false
  bad : Bool := false
  was : Bool := false
  deriving DecidableEq, Repr

/-- Whether nothing has befallen any line or link, and nothing that an access met is still to be reported. -/
def sound (s : State) : Bool :=
  s.mem.poison.isEmpty && s.mem.symbols.isEmpty && s.mem.stray.isEmpty && s.mem.linkErr.isEmpty &&
    s.mem.found.isEmpty

/-- Whether the data of a line were written at another stack-local address, which the code folds in (R360). -/
def strayLine (s : State) (line : Nat) : Bool :=
  aget s.mem.stray line 0 != 0 && aget s.mem.stray line 0 != line % 402653184 + 1

/-- The link errors that an access to a pseudo-channel meets (R362): up to three retries, which are counted, and the last
try after the retraining.
Log entry: 100 (DESIGN CHOICE). -/
def meetLink (stack pc : Nat) (s : State) : Nat × State :=
  let n := aget s.mem.linkErr (stack * 32 + pc) 0
  if n = 0 then (0, s)
  else (min n 5, incSat HBM_CRC_RETRY_COUNT.retries (dieBase (stack + 1)) (min n 3)
    { s with mem := { s.mem with linkErr := aset s.mem.linkErr (stack * 32 + pc) (n - 5) 0 } })

/-- Put free values in the place of the bytes of a line: what a miscorrection of three or more symbols gives (R360).
Log entry: 100 (DESIGN CHOICE). -/
def miscorrect (line : Nat) (s : State) : State :=
  skipFresh 64 ((List.range 64).foldl (fun t i =>
    putByte (line * 64 + i) (BitVec.ofNat 8 (Config.freeValue (s.fresh + i))) t) s)

/-- The line after its symbols have been corrected and written back (R361). -/
def mended (line : Nat) (s : State) : State := { s with mem := { s.mem with symbols := aset s.mem.symbols line 0 0 } }

/-- What the symbol code makes of a line that is read (R360): one failed symbol is corrected, two are detected, and of
three or more it makes no claim, so a free value says whether they are detected or miscorrected.
Log entry: 100 (DESIGN CHOICE). -/
def meetCode (line : Nat) (s : State) : Meet × State :=
  if aget s.mem.poison line false then ({ bad := true, was := true }, s)
  else if strayLine s line then ({ bad := true }, s)
  else match aget s.mem.symbols line 0 with
    | 0 => ({}, s)
    | 1 => ({ fixed := true }, mended line s)
    | 2 => ({ bad := true }, s)
    | _ =>
      let d := draw s 2
      if d.1 = 0 then ({ bad := true }, d.2) else ({ fixed := true }, miscorrect line (mended line d.2))

/-- What an access of a line on a stack meets; `reading` says that the line is read, for itself or to merge a part of it
(R358).
Log entry: 100 (DESIGN CHOICE). -/
def meetAt (stack line : Nat) (reading : Bool) (s : State) : Meet × State :=
  let l := meetLink stack (pcOf (line * 64)) s
  let out := decide (4 ≤ l.1)
  if l.1 = 5 then ({ exhausted := true, bad := true }, l.2)
  else if reading then
    let m := meetCode line l.2
    ({ m.1 with exhausted := out }, m.2)
  else ({ exhausted := out }, l.2)

/-- Poison a line (R364). -/
def poisonLine (line : Nat) (s : State) : State :=
  { s with mem := { s.mem with poison := aset s.mem.poison line true false
                               symbols := aset s.mem.symbols line 0 0
                               stray := aset s.mem.stray line 0 0 } }

/-- An access of the line at an HBM address: whether it is uncorrectable, with what is to be reported noted. The writes
queued to the line's pseudo-channel have drained. -/
def meetLine (a : Nat) (reading : Bool) (s : State) : Bool × State :=
  let s0 := if reading then drainOverlap (physOf s a) 64 s else s
  let m := meetAt (stackIdx s a) (physOf s a / 64) reading s0
  let s1 := if m.1.bad && ownerOf s a != 0xFF then poisonLine (physOf s a / 64) m.2 else m.2
  (m.1.bad, { s1 with mem := { s1.mem with found := s1.mem.found
    ++ (if m.1.exhausted then [(a, 0)] else []) ++ (if m.1.fixed then [(a, 1)] else [])
    ++ (if m.1.bad then [(a, if m.1.was then 3 else 2)] else []) } })

/-- Access lines in order until one is uncorrectable: which it is. -/
def meetReads : List Nat → State → Option Nat × State
  | [], s => (none, s)
  | a :: r, s =>
    let m := meetLine a true s
    if m.1 then (some a, m.2) else meetReads r m.2

/-- Access the lines that a write of n bytes at a touches: those that it cannot write. A part of a line is merged into
what is read there (R358). -/
def meetWrites (a n : Nat) : List Nat → State → List Nat × State
  | [], s => ([], s)
  | x :: r, s =>
    let m := meetLine x (decide (x < a) || decide (a + n < x + 64)) s
    let q := meetWrites a n r m.2
    (if m.1 then x :: q.1 else q.1, q.2)

/-- The status of an access that meets an uncorrectable line (R364).
Log entry: 101 (DEDUCED). -/
def ueStatus (s : State) (a : Nat) : Nat := if ownerOf s a < 64 then 0x0711 else 0x0712

/-- What befalls an address up to an access (R360 to R364, R772).
Log entries: 15 (DESIGN CHOICE), 100 (DESIGN CHOICE). -/
def befall (a : Nat) (u : MemUpset) (s : State) : State :=
  if a < hbmEnd then
    let line := physOf s a / 64
    let ch := stackIdx s a * 32 + pcOf (physOf s a)
    { s with mem := { s.mem with
        symbols := aset s.mem.symbols line (aget s.mem.symbols line 0 + u.symbols) 0
        stray := match u.strayFrom with | some x => aset s.mem.stray line (x + 1) 0 | none => s.mem.stray
        linkErr := aset s.mem.linkErr ch (aget s.mem.linkErr ch 0 + u.crc) 0 } }
  else if inPcie a ∧ u.hostError then
    { s with mem := { s.mem with hostErr := aset s.mem.hostErr (busOf s a / 64) true false } }
  else s

/-! ## Whole writes -/

/-- Apply a write that is served: into the stack of its page, or to the host. A write of one page at a time. -/
def applyWrite (a : Nat) (data : List Nat) (s : State) : State :=
  if a < hbmEnd then
    putPhys (physOf s a) (keyOf s (ownerOf s a)) data (drainOverlap (physOf s a) data.length s)
  else if inPcie a then
    ((List.range data.length).zip data).foldl (fun s e => putExt (busOf s (a + e.1)) (BitVec.ofNat 8 e.2) s) s
  else s

/-- Cut bytes at a into runs that each lie in one 64 KiB page. -/
def pageRuns (a : Nat) (data : List Nat) : List (Nat × List Nat) :=
  (checkPoints a data.length).map (fun x => (x, (data.drop (x - a)).take (65536 - x % 65536)))

/-- The part of bytes at a that lies in the line at x, and where it begins. -/
def linePart (a : Nat) (data : List Nat) (x : Nat) : Nat × List Nat :=
  let b := max a x
  (b, (data.drop (b - a)).take (x + 64 - b))

/-- The runs of bytes at a that a write puts into memory: whole pages at a time, and, where lines are uncorrectable, the
other lines one by one (R358, R364). -/
def writeRuns (a : Nat) (data : List Nat) (bad : List Nat) : List (Nat × List Nat) :=
  if bad.isEmpty then pageRuns a data
  else ((lineAddrs a data.length).filter (fun x => !bad.contains x)).map (linePart a data)

/-- What a write of n bytes at a meets: the lines that it cannot write (R358, R362, R364). -/
def meetWrite (a n : Nat) (s : State) : List Nat × State :=
  if a < hbmEnd ∧ !sound s then meetWrites a n (lineAddrs a n) s else ([], s)

/-- A write by a port acting for a context, and its status; a refused write changes nothing (R25, R348, R412). A line
that it must merge with, or whose burst fails, may be uncorrectable: the write fails there with the status of R364.
Log entry: 103 (DEDUCED). -/
def writeMem (port ctx a : Nat) (data : List Nat) (s : State) : Nat × State :=
  match rangeStatus s port ctx a data.length true with
  | 0 =>
    let m := meetWrite a data.length (if a < hbmEnd then policeRange port a data.length s else s)
    ((m.1.head?.map (ueStatus s)).getD 0, (writeRuns a data m.1).foldl (fun s r => applyWrite r.1 r.2 s) m.2)
  | st => (st, s)

/-- A write whose refusal its master does not report. -/
def writeMem' (port ctx a : Nat) (data : List Nat) (s : State) : State := (writeMem port ctx a data s).2

/-- The first status, not 0, that a read of n bytes meets, leaving poison aside.
Log entry: 101 (DEDUCED). -/
def readStatus (s : State) (port ctx a n : Nat) : Nat := rangeStatus s port ctx a n false

/-- The context's partition (R348): the pages that it owns, and the shared regions whose masks grant the access. -/
def inPartition (s : State) (ctx a : Nat) (write : Bool) : Bool :=
  a < hbmEnd && (ownerOf s a == ctx || (0x41 ≤ ownerOf s a && ownerOf s a ≤ 0x4F &&
    ctxShares s (ownerOf s a - 0x40) ctx write))

/-- Whether n bytes at a lie in the context's partition. -/
def rangeInPartition (s : State) (ctx a n : Nat) (write : Bool) : Bool :=
  (checkPoints a n).all (fun x => inPartition s ctx x write)

/-- Whether n bytes at a lie in pages that the context owns. -/
def rangeOwned (s : State) (ctx a n : Nat) : Bool :=
  (checkPoints a n).all (fun x => decide (x < hbmEnd) && ownerOf s x == ctx)

/-- Whether n bytes at a lie in the host partition. -/
def rangeHost (s : State) (a n : Nat) : Bool :=
  (checkPoints a n).all (fun x => decide (x < hbmEnd) && ownerOf s x == 0x40)

end Sys2Proof.Machine
end

