-- ==== Sys2Proof/Machine/Report.lean ====
section
/-! DEFINITION. Reporting and stopping: events (R15, R320, R321, R564, R713), completion records and echo lines (R288,
R315 to R319), stopped rings (R313), Tie operations at their home (R322 to R326), the completion of a launch (R316),
the teardown of a context (R278), and the handling of an uncorrectable line (R364). -/

namespace Sys2Proof.Machine

open Reg

/-! ## Events -/

/-- A list of at most n bytes, padded with 0 to n. -/
def padTo (n : Nat) (l : List Nat) : List Nat := slice l 0 n

/-- An event record (R15): its status, source die, context, unit, severity and payload, with the Dial time at which
the condition was detected, the flags byte and the sequence number.
Log entry: 37 (DESIGN CHOICE). -/
def eventRecord (time status die ctx unit sev flags seq : Nat) (payload : List Nat) : List Nat :=
  leBytes 8 time ++ leBytes 2 status ++ [die, ctx % 256] ++ leBytes 2 unit ++ [sev, flags] ++ leBytes 4 seq ++
    padTo 12 payload

/-- Severity byte and the bytes before it, and the payload, are the condition's own: the ring sets flags and sequence.
Log entry: 37 (DESIGN CHOICE). -/
def stampEvent (ev : List Nat) (flags seq : Nat) : List Nat :=
  slice ev 0 15 ++ [flags] ++ leBytes 4 seq ++ slice ev 20 12

/-- The phase bit of record n of a ring of a given size (R291). -/
def phaseBit (n size : Nat) : Nat := (n / size + 1) % 2

/-- Send the interrupt of a ring that lies at an address (R319): an MSI-X message to the PCIe host where the ring lies
in the outbound window, else an MSI to the application cores' controller. A message that the PCIe link cannot take
stays pending, and one that finds its vector pending merges into it.
Log entry: 30 (DESIGN CHOICE). -/
def notify (ring vector : Nat) (s : State) : State :=
  if inPcie ring then
    (if s.pcieUp then send .interrupt [vector, 1] s
     else if s.rings.irqs.contains vector then s
     else { s with rings := { s.rings with irqs := s.rings.irqs ++ [vector] } })
  else send .interrupt [vector, 0] s

/-- Send the MSI-X messages that wait for the PCIe link (R319).
Log entry: 30 (DESIGN CHOICE). -/
def sendPending (s : State) : State :=
  s.rings.irqs.foldl (fun s v => send .interrupt [v, 1] s) { s with rings := { s.rings with irqs := [] } }

/-- Write an event record to the device event ring, or drop and count it (R320, R321). -/
def devWrite (ev : List Nat) (s : State) : State :=
  let size := 2 ^ com s HST_DEV_EQ_CFG.size_log2
  let n := rd s HST_DEV_EQ_TAIL.tail
  let st := fld ev 8 2
  if (n + 2 ^ 32 - rd s HST_DEV_EQ_HEAD.head) % 2 ^ 32 = size then
    incSat HST_EVT_DROP_COUNT.drops 0 1
      { s with rings := { s.rings with devDropped := aset s.rings.devDropped st true false } }
  else
    let flags := phaseBit n size + (if aget s.rings.devDropped st false then 2 else 0)
    let s1 := writeMem' 72 0xFF (com s HST_DEV_EQ_BASE.dev_eq_base + n % size * 32) (stampEvent ev flags s.rings.devSeq) s
    let s2 := { s1 with rings := { s1.rings with devSeq := (s1.rings.devSeq + 1) % 2 ^ 32,
                                                 devDropped := aset s1.rings.devDropped st false false } }
    notify (com s HST_DEV_EQ_BASE.dev_eq_base) (com s HST_DEV_EQ_CFG.irq_vector) (wr HST_DEV_EQ_TAIL.tail 0 (n + 1) s2)

/-- Write an event to the device event ring, or, before HST_DEV_EQ_BASE is first committed, to the 64 entries that
wait for it (R713).
Log entry: 30 (DESIGN CHOICE). -/
def devEvent (ev : List Nat) (s : State) : State :=
  if s.rings.devOpen then devWrite ev s
  else if s.rings.dawnQueue.length < 64 then
    { s with rings := { s.rings with dawnQueue := s.rings.dawnQueue ++ [ev] } }
  else incSat HST_EVT_DROP_COUNT.drops 0 1
      { s with rings := { s.rings with devDropped := aset s.rings.devDropped (fld ev 8 2) true false } }

/-- Committed size of a context's event ring. -/
def eqSize (s : State) (c : Nat) : Nat := 2 ^ com s HST_EQ_CFG.size_log2 (c * 0x100)

/-- Write the copy of an event on its context's event ring; whether the write was refused (R313, R320, R321).
Log entry: 30 (DESIGN CHOICE). -/
def ctxEvent (c : Nat) (ev : List Nat) (s : State) : Bool × State :=
  let x := ctxOf s c
  let st := fld ev 8 2
  if (x.eqTail + 2 ^ 32 - x.eqHead) % 2 ^ 32 = eqSize s c then
    (false, incSat HST_EVT_DROP_COUNT.drops 0 1 (setCtx c { x with dropped := aset x.dropped st true false } s))
  else
    let flags := phaseBit x.eqTail (eqSize s c) + (if aget x.dropped st false then 2 else 0)
    let w := writeMem 72 c (com s HST_EQ_BASE.eq_base (c * 0x100) + x.eqTail % eqSize s c * 32)
      (stampEvent ev flags x.evSeq) s
    if w.1 ≠ 0 then (true, w.2)
    else (false, setCtx c { x with eqTail := (x.eqTail + 1) % 2 ^ 32, evSeq := (x.evSeq + 1) % 2 ^ 32,
                                   dropped := aset x.dropped st false false } w.2)

/-- Whether a status is a run-time status that names a checker (R564).
Log entry: 38 (DEDUCED). -/
def namesChecker (st : Nat) : Bool :=
  (0x0B10 ≤ st && st < 0x0B20) || st == 0x0112 || st == 0x0350 || st == 0x0411 || st == 0x0A20

/-- Put an event on its way to both islands where R564 has it forwarded.
Log entry: 38 (DEDUCED). -/
def forward (status die unit sev : Nat) (sealedRun : Bool) (s : State) : State :=
  if 2 ≤ sev ∨ status = 0x0532 ∨ sealedRun then
    { s with forwards := s.forwards ++ [⟨5, status, sev, unit, die, sealedRun⟩, ⟨6, status, sev, unit, die, sealedRun⟩] }
  else s

/-- The time that a die puts into an event: Dial time, which an island takes from the last Hearth heartbeat and its own
oscillator (R561). -/
def eventTime (s : State) (die : Nat) : Nat :=
  let of := fun (x : Island) => (x.told.1 + (osc s - x.told.2)) % 2 ^ 64
  if die = 5 then of s.isl.matin else if die = 6 then of s.isl.vesper else dial s

/-- Write an event to the device event ring and, where its context is open, to the context's ring: whether the
context's ring refused it. -/
def eventRaw (status die ctx unit sev : Nat) (payload : List Nat) (s : State) : Bool × State :=
  let ev := eventRecord (eventTime s die) status die ctx unit sev 0 0 payload
  let s1 := forward status die unit sev (ctxSealed s ctx && namesChecker status) (devEvent ev s)
  if ctxOpen s ctx then ctxEvent ctx ev s1 else (false, s1)

/-! ## Echo lines and stopped rings -/

/-- Whether submission ring r of context c is enabled (R335). -/
def ringEnabled (s : State) (c r : Nat) : Bool := com s HST_SQ_CFG.enable (c * 0x100 + 4 * r) == 1

/-- Whether submission ring r of context c is stopped (R335). -/
def ringStopped (s : State) (c r : Nat) : Bool := bit (rd s HST_CTX_STATE.stopped (c * 0x100)) r

/-- The echo line of a context (R288). -/
def echoLine (s : State) (c : Nat) : List Nat :=
  let x := ctxOf s c
  ((List.range 4).map (fun r => leBytes 4 (aget x.rings r {}).head)).flatten ++ leBytes 4 x.cqTail ++ leBytes 4 x.eqTail
    ++ leBytes 8 (dial s) ++ [rd s HST_CTX_STATE.stopped (c * 0x100)] ++ List.replicate 31 0

/-- Write the echo line of a context (R288, R289): the status of the write, and the state after it. -/
def echoRaw (c : Nat) (s : State) : Nat × State := writeMem 72 c (com s HST_ECHO_ADDR.echo_addr (c * 0x100)) (echoLine s c) s

/-- The cause of a stop by an access of a ring's memory: 0x0712 at an uncorrectable line of the host partition or a
shared region (R364), else 0x0614 (R313). -/
def accessCause (st : Nat) : Nat := if st = 0x0712 then 0x0712 else 0x0614

/-- The bit, the cause and the count at which a restart resumes, of a ring that stops, and event 0x0620 (R313): whether
the context's event ring refused the event. -/
def stopRaw (c r cause resume : Nat) (s : State) : Bool × State :=
  let s1 := wr HST_CTX_STATE.stopped (c * 0x100) (setBit (rd s HST_CTX_STATE.stopped (c * 0x100)) r true)
    (modRing c r (fun x => { x with cause := cause, resume := resume }) s)
  eventRaw 0x0620 0 c r 1 (leBytes 2 cause) s1

/-- Stop every enabled ring of a context whose reports cannot be written (R313), and show it in the echo line (R288). -/
def stopRings (c cause : Nat) (s : State) : State :=
  let s1 := (List.range 4).foldl (fun s r =>
    if ringEnabled s c r && !ringStopped s c r then (stopRaw c r cause (ringOf s c r).head s).2 else s) s
  (echoRaw c s1).2

/-- Write the echo line of a context (R288, R289); a refused write stops its rings (R313). -/
def writeEcho (c : Nat) (s : State) : State :=
  let w := echoRaw c s
  if w.1 ≠ 0 then stopRings c (accessCause w.1) w.2 else w.2

/-- Stop one ring with a cause (R313); the echo line shows it (R288), and a context whose event ring refuses the event
has its other rings stopped too.
Log entries: 27 (DEDUCED), 28 (DEDUCED). -/
def stopRing (c r cause resume : Nat) (s : State) : State :=
  if ringStopped s c r then s
  else
    let e := stopRaw c r cause resume s
    if e.1 then stopRings c 0x0614 e.2 else writeEcho c e.2

/-- Write an event; the echo line of the context that it is copied to shows the advance (R289), and a context whose event
ring refuses the write has its rings stopped (R313, R320). -/
def event (status die ctx unit sev : Nat) (payload : List Nat) (s : State) : State :=
  let e := eventRaw status die ctx unit sev payload s
  if e.1 then stopRings ctx 0x0614 e.2
  else if ctxOpen s ctx ∧ (ctxOf e.2 ctx).eqTail ≠ (ctxOf s ctx).eqTail then writeEcho ctx e.2 else e.2

/-! ## Completion records -/

/-- What a completion record reports beside its status (R315). -/
structure Done where
  status : Nat := 0
  course : Nat := 0xFF
  arith : Nat := 0
  reissues : Nat := 0
  underscaled : Nat := 0
  precision : Nat := 0
  result : Nat := 0
  deriving DecidableEq, Repr

/-- Committed size of a context's completion ring. -/
def cqSize (s : State) (c : Nat) : Nat := 2 ^ com s HST_CQ_CFG.size_log2 (c * 0x100)

/-- The completion record of a descriptor (R315). -/
def completionRecord (s : State) (c ring count : Nat) (raw : List Nat) (d : Done) : List Nat :=
  let n := (ctxOf s c).cqTail
  leBytes 2 d.status ++ slice raw 2 2 ++ [phaseBit n (cqSize s c) + 2 * ring, d.arith, raw.getD 0 0, d.course]
    ++ leBytes 4 count ++ leBytes 2 (satTo d.reissues 0xFFFF) ++ leBytes 2 (satTo d.underscaled 0xFFFF)
    ++ leBytes 2 (satTo d.precision 0xFFFF) ++ [0, 0] ++ leBytes 4 d.result ++ leBytes 8 (dial s)

/-- Complete a descriptor: its record where its cpl flag is set or its status is not success, its slot, the interrupt
of notify, and the echo line (R288, R307, R315, R318, R319). The descriptor leaves the list of those fetched.
Log entry: 30 (DESIGN CHOICE). -/
def finishDesc (c ring count : Nat) (raw : List Nat) (d : Done) (s : State) : State :=
  let s1 := { s with rings := { s.rings with
      descs := s.rings.descs.filter (fun x => !(x.ctx == c && x.ring == ring && x.count == count)) } }
  let s2 := modCtx c (fun x => { x with reserved := x.reserved - 1 }) s1
  if bit (raw.getD 1 0) 0 ∨ d.status ≠ 0 then
    let n := (ctxOf s2 c).cqTail
    let w := writeMem 72 c (com s2 HST_CQ_BASE.cq_base (c * 0x100) + n % cqSize s2 c * 32)
      (completionRecord s2 c ring count raw d) s2
    if w.1 ≠ 0 then stopRings c (accessCause w.1) w.2
    else
      let s3 := modCtx c (fun x => { x with cqTail := (x.cqTail + 1) % 2 ^ 32 }) w.2
      let s4 := if bit (raw.getD 1 0) 1 ∧ com s3 HST_CTX_CTRL.notify_en (c * 0x100) = 1
        then notify (com s3 HST_CQ_BASE.cq_base (c * 0x100)) (com s3 HST_CTX_CTRL.irq_vector (c * 0x100)) s3 else s3
      writeEcho c s4
  else s2

/-! ## Ties -/

/-- The die on which a waiter or sender stands (R324). -/
def agentDie : Agent → Nat
  | .role b => courseDie (brickCourse b)
  | _ => 0

/-- The sender index of R324. -/
def agentIndex : Agent → Nat
  | .role b => b
  | .desc c r _ => 1024 + c * 4 + r
  | .other i => i

/-- The value of a Tie. -/
def tieValue (s : State) (t : Nat) : Nat := aget s.rings.ties t 0

/-- Set a Tie. -/
def setTie (t v : Nat) (s : State) : State := { s with rings := { s.rings with ties := aset s.rings.ties t v 0 } }

/-- Whether a pending wait's condition holds at a value (R322). -/
def TieWait.holdsAt (w : TieWait) (v : Nat) : Bool := if w.equal then v == w.value else decide (w.value ≤ v)

/-- Whether a pending wait on Tie t is released at a value (R325): its condition holds, and its timeout has not expired
before (R326).
Log entry: 32 (DESIGN CHOICE). -/
def TieWait.goes (w : TieWait) (s : State) (t v : Nat) : Bool := w.tie == t && w.holdsAt v && decide (now s ≤ w.deadline)

/-- Release every wait on a Tie whose condition holds: one message to each die that holds such waiters (R325, R775).
Log entry: 32 (DESIGN CHOICE). -/
def evalWaits (t : Nat) (s : State) : State :=
  let v := tieValue s t
  let go := s.rings.waits.filter (fun w => w.goes s t v)
  let rels := (List.range 5).filterMap (fun d =>
    let who := (go.map (·.who)).filter (fun a => agentDie a == d)
    if who.isEmpty then none else some (⟨t, d, v, who⟩ : TieRel))
  { s with rings := { s.rings with waits := s.rings.waits.filter (fun w => !w.goes s t v),
                                   rels := s.rings.rels ++ rels } }

/-- Apply one Tie operation at its home, then evaluate the pending waits (R322 to R325). -/
def tieApply (op : TieOp) (s : State) : State :=
  match op.kind with
  | .signal =>
    let sum := tieValue s op.tie + op.value
    let s1 := evalWaits op.tie (setTie op.tie (satTo sum 0xFFFFFFFF) s)
    if 0xFFFFFFFF < sum then
      event 0x0621 (tieHome op.tie) op.ctx 0 1 (leBytes 4 op.tie)
        (incSat TIE_SAT_COUNT.saturations (dieBase (tieHome op.tie)) 1 s1)
    else s1
  | .reset => evalWaits op.tie (setTie op.tie 0 s)
  | k =>
    let w : TieWait := ⟨op.tie, op.value, k == .waitEq, op.sender, op.ctx, now s + op.timeoutUs * 1000⟩
    evalWaits op.tie { s with rings := { s.rings with waits := s.rings.waits ++ [w] } }

/-- The first operation of a sender on its way to a home, and the operations without it.
Log entry: 32 (DESIGN CHOICE). -/
def takeOp (home sender : Nat) : List TieOp → Option (TieOp × List TieOp)
  | [] => none
  | o :: r =>
    if tieHome o.tie = home ∧ agentIndex o.sender = sender then some (o, r)
    else (takeOp home sender r).map (fun x => (x.1, o :: x.2))

/-- Complete the descriptor of a Tie operation that has been applied, where it is one that completes then. -/
def tieDescDone (op : TieOp) (s : State) : State :=
  match op.sender, op.kind with
  | .desc c r n, .signal | .desc c r n, .reset =>
    match s.rings.descs.find? (fun d => d.ctx == c && d.ring == r && d.count == n && d.phase == .issued) with
    | some d => finishDesc c r n d.raw {} s
    | none => s
  | _, _ => s

/-- Apply at its home the first operation of a sender that is on its way there (R324).
Log entry: 32 (DESIGN CHOICE). -/
def tieDeliver (home sender : Nat) (s : State) : State :=
  match takeOp home sender s.rings.ops with
  | none => s
  | some (op, rest) => tieDescDone op (tieApply op { s with rings := { s.rings with ops := rest } })

/-- Apply every operation of a sender that is on its way to a home: they arrive before its next one (R775). -/
def tieFlush (home sender : Nat) (s : State) : State :=
  (s.rings.ops.filter (fun o => tieHome o.tie == home && agentIndex o.sender == sender)).foldl
    (fun s _ => tieDeliver home sender s) s

/-- Issue a signal-add and have it applied at its home within the same step; no effect where the home cannot be
reached (R314, R318). -/
def signalNow (sender : Agent) (ctx tie value : Nat) (s : State) : State :=
  if reach s (agentDie sender) (tieHome tie) then
    tieApply ⟨.signal, tie, value, sender, ctx, 0⟩ (tieFlush (tieHome tie) (agentIndex sender) s)
  else s

/-! ## Launches -/

/-- Launch number id. -/
def launchOf (s : State) (id : Nat) : Option Launch := s.fab.launches.find? (fun l => l.id == id)

/-- Change launch number id. -/
def modLaunch (id : Nat) (f : Launch → Launch) (s : State) : State :=
  { s with fab := { s.fab with launches := s.fab.launches.map (fun l => if l.id = id then f l else l) } }

/-- Change the instance of a launch on one Course. -/
def modInst (id course : Nat) (f : Inst → Inst) (s : State) : State :=
  modLaunch id (fun l => { l with insts := l.insts.map (fun i => if i.course = course then f i else i) }) s

/-- The instance of a launch on one Course. -/
def instOf (s : State) (id course : Nat) : Option Inst :=
  (launchOf s id).bind (fun l => l.insts.find? (fun i => i.course == course))

/-- Set the running bit and the busy map of a Course from its active instances (R95). -/
def refreshCourse (c : Nat) (s : State) : State :=
  let act := (s.fab.launches.map (·.insts)).flatten.filter (fun i => i.course == c && i.phase == .active)
  let map := sumNat ((List.range 16).map (fun b => if act.any (fun i => i.bricks.contains (c * 16 + b)) then 2 ^ b else 0))
  wr TRW_COURSE_STATE.busy_map (atCourse c 0x100) map (wrB TRW_COURSE_STATE.running (atCourse c 0x100) (!act.isEmpty) s)

/-- Restart a Course's watchdog (R79).
Log entry: 52 (DEDUCED). -/
def restartWdog (c : Nat) (s : State) : State :=
  if com s TRW_WDOG_CTRL.enable (atCourse c 0x100) = 1 then
    modCourse c (fun x => { x with wdogAt := some (now s + com s TRW_WDOG_CTRL.timeout_us (atCourse c 0x100) * 1000) }) s
  else modCourse c (fun x => { x with wdogAt := none }) s

/-- What a launch reports from its instances (R316): success when every instance succeeded, else the status of the
failing instance of the lowest Course.
Log entry: 31 (DEDUCED). -/
def launchDone (l : Launch) : Done :=
  let bad := l.insts.find? (fun i => i.status != 0)
  { status := (bad.map (·.status)).getD 0
    course := (bad.map (·.course)).getD ((l.insts.head?.map (·.course)).getD 0xFF)
    arith := l.insts.foldl (fun a i => a ||| i.arith) 0
    reissues := sumNat (l.insts.map (·.reissues))
    underscaled := sumNat (l.insts.map (·.underscaled))
    precision := sumNat (l.insts.map (·.precision)) }

/-- The Course of a launch's set with the lowest number.
Log entry: 31 (DEDUCED). -/
def firstCourse (l : Launch) : Nat := (l.insts.head?.map (·.course)).getD 0xFF

/-- Take a launch off the fabric and complete its descriptor with what is given. -/
def endLaunch (l : Launch) (d : Done) (s : State) : State :=
  let s1 := { s with fab := { s.fab with launches := s.fab.launches.filter (fun x => x.id != l.id) } }
  let bricks := (l.insts.map (·.bricks)).flatten
  let s2 := { s1 with rings := { s1.rings with
    waits := s1.rings.waits.filter (fun w => match w.who with | .role b => !bricks.contains b | _ => true),
    ops := s1.rings.ops.filter (fun o => match o.sender, o.kind with
      | .role b, .waitGe | .role b, .waitEq => !bricks.contains b
      | _, _ => true),
    rels := (s1.rings.rels.map (fun r => { r with who := r.who.filter (fun a => match a with
      | .role b => !bricks.contains b
      | _ => true) })).filter (fun r => !r.who.isEmpty) } }
  let s3 := l.insts.foldl (fun s i => refreshCourse i.course
    (modCourse i.course (fun x => { x with completions := x.completions + 1 }) (restartWdog i.course s))) s2
  finishDesc l.ctx l.ring l.count l.raw d s3

/-- Complete a launch all of whose instances have completed: its signal, then its record (R316, R318). A signal whose
home cannot be reached makes the status 0x0810 (R314). -/
def completeLaunch (l : Launch) (s : State) : State :=
  let d := launchDone l
  let tie := fld l.raw 48 4 % 2 ^ 17
  if d.status = 0 ∧ bit (l.raw.getD 1 0) 3 then
    if reach s 0 (tieHome tie) then
      endLaunch l d (signalNow (.desc l.ctx l.ring l.count) l.ctx tie (fld l.raw 52 4) s)
    else endLaunch l { d with status := 0x0810 } (event 0x0810 0 l.ctx 72 1 [tieHome tie] s)
  else endLaunch l d s

/-- A host's write to the window of a Course die that cannot be reached, or is between steps 2 and 7 of its partial
reset, is discarded with 0x0810 (R412, R760). The command names no port, so the answer goes to the host cluster's.
Log entry: 101 (DEDUCED). -/
def ifReached (die : Nat) (act : State → State) (s : State) : State :=
  if 1 ≤ die ∧ die ≤ 4 ∧ !reach s 0 die then { s with bus := ⟨68, 0x0810, []⟩ } else act s

/-- Whether the signal that a descriptor orders, if any, reaches its Tie's home (R314, R430). -/
def signalReaches (s : State) (raw : List Nat) : Bool :=
  !bit (raw.getD 1 0) 3 || reach s 0 (tieHome (fld raw 48 4 % 2 ^ 17))

/-- Complete a descriptor's work with a result, applying its signal first where that is success (R318); a signal whose
home cannot be reached makes the status 0x0810 (R314, R430). -/
def finishWork (c ring count : Nat) (raw : List Nat) (d : Done) (s : State) : State :=
  let tie := fld raw 48 4 % 2 ^ 17
  if d.status = 0 ∧ bit (raw.getD 1 0) 3 then
    if signalReaches s raw then
      finishDesc c ring count raw d (signalNow (.desc c ring count) c tie (fld raw 52 4) s)
    else finishDesc c ring count raw { d with status := 0x0810 } (event 0x0810 0 c 72 1 [tieHome tie] s)
  else finishDesc c ring count raw d s

/-- Stop a launch with a status on one Course: its other instances stop too (R317). -/
def stopLaunch (id course status : Nat) (s : State) : State :=
  match launchOf s id with
  | none => s
  | some l => endLaunch l { launchDone l with status := status, course := course } s

/-! ## Teardown -/

/-- Complete the descriptors of a context that hold a ring or wait, with a status (R338): a SIEVE that waits for a
place in the Sieve's queue is one of them, while a job that runs or is queued there is not (R208). -/
def endDescs (c status : Nat) (s : State) : State :=
  (s.rings.descs.filter (fun d => d.ctx == c && (d.phase == .waiting || d.phase == .held
    || s.rings.sieveIn.contains (c, d.ring, d.count)))).foldl
    (fun s d => finishDesc c d.ring d.count d.raw { status := status } s) s

/-- Release every handle that a context registered (R305). -/
def releaseHandles (c : Nat) (s : State) : State :=
  let free := fun (e : Nat × StoreSlot) =>
    if e.2.owner = some c then (e.1, { e.2 with owner := none, valid := false }) else e
  { s with rings := { s.rings with store := s.rings.store.map free } }

/-- Note the invalid candidates and the run time of a Sieve job that ends (R212). -/
def noteRun (j : SieveJob) (s : State) : State :=
  match j.result with
  | none => s
  | some w =>
    wr SIV_MAX_TIME.max_us 0 (satTo (max ((now s - j.startAt) / 1000) (rd s SIV_MAX_TIME.max_us)) 0xFFFF)
      (incSat SIV_INVALID_COUNT.invalid 0 w.invalid s)

/-- Remove a context's Sieve jobs: nothing of them is written afterwards (R208). -/
def dropSieve (c : Nat) (s : State) : State :=
  let t := (s.sieve.jobs.filter (fun j => j.ctx == c)).foldl (fun t j => noteRun j t) s
  { t with
    sieve := { t.sieve with jobs := t.sieve.jobs.filter (fun j => j.ctx != c) }
    rings := { t.rings with
      sieveIn := t.rings.sieveIn.filter (fun x => x.1 != c)
      descs := t.rings.descs.filter (fun d => !(d.ctx == c && d.phase == .forwarded && d.raw.getD 0 0 == 2)) } }

/-- Whether a sender index belongs to one of the input units of a context: a stream, a decode stream or a sampler (R324).
Log entry: 137 (DEDUCED). -/
def inputSender (s : State) (c i : Nat) : Bool :=
  (1280 ≤ i && i < 1304 && (aget s.input.streams (i - 1280) {}).owner == c)
    || (1304 ≤ i && i < 1368 && (aget s.input.decs (i - 1304) {}).owner == c)
    || (1368 ≤ i && i < 1372 && (aget s.input.samplers (i - 1368) {}).owner == c)

/-- Disable a context's input streams, decode streams and samplers at its teardown: the frames that land or wait are
discarded (R445), and no stream runs until it is committed again.
Log entry: 137 (DEDUCED). -/
def dropInput (c : Nat) (s : State) : State :=
  let mine := fun (a : Agent) => match a with | .other i => inputSender s c i | _ => false
  let ids := (List.range 24).filter (fun i => (aget s.input.streams i {}).owner == c)
  let s1 := ids.foldl (fun s i => wrB CAM_STREAM_STATUS.running (i * 0x20) false s) s
  { s1 with
    input := { s1.input with
      streams := s.input.streams.filter (fun e => e.2.owner != c)
      decs := s.input.decs.filter (fun e => e.2.owner != c)
      engines := s.input.engines.map (fun e => match e.stream with
        | some d => if (aget s.input.decs d {}).owner = c then { e with stream := none } else e
        | none => e)
      samplers := s.input.samplers.filter (fun e => e.2.owner != c) }
    rings := { s1.rings with
      waits := s1.rings.waits.filter (fun w => !mine w.who)
      rels := s1.rings.rels.map (fun r => { r with who := r.who.filter (fun a => !mine a) }) } }

/-- Signal a Tie from a unit of the Hearth; a home that cannot be reached has event 0x0810 written (R412, R430). -/
def signalFrom (index port ctx tie value : Nat) (s : State) : State :=
  if reach s 0 (tieHome tie) then signalNow (.other index) ctx tie value s
  else event 0x0810 0 ctx port 1 [tieHome tie] s

/-- Withdraw the waits and releases of a unit's sender index. -/
def withdraw (index : Nat) (s : State) : State :=
  let mine := fun (a : Agent) => match a with | .other i => i == index | _ => false
  { s with rings := { s.rings with
      waits := s.rings.waits.filter (fun w => !mine w.who)
      rels := (s.rings.rels.map (fun r => { r with who := r.who.filter (fun a => !mine a) })).filter
        (fun r => !r.who.isEmpty) } }

/-! ## Transfer queues of Ouvur (R627) -/

/-- The transfer queue of context c. -/
def ovQueue (s : State) (c : Nat) : OvQueue := aget s.ouvur.queues c {}

/-- Change the transfer queue of context c. -/
def modOvQueue (c : Nat) (f : OvQueue → OvQueue) (s : State) : State :=
  { s with ouvur := { s.ouvur with queues := aset s.ouvur.queues c (f (ovQueue s c)) {} } }

/-- The status entry of a transfer record (R627). -/
def ovEntry (s : State) (c : Nat) (r : OvRun) (st : Nat) : List Nat :=
  leBytes 2 st ++ slice r.raw 6 2 ++ [phaseBit r.n (2 ^ com s OVR_Q_CFG.size_log2 (c * 0x40)), 0, 0, 0] ++ leBytes 8 (dial s)

/-- End the record at work of a context's queue with a status: its status entry, then, after success and once the entry
has been accepted, its signal (R627). The next record may start. -/
def endTransfer (c st : Nat) (s : State) : State :=
  match (ovQueue s c).run with
  | none => s
  | some r =>
    let at_ := com s OVR_Q_STAT.stat (c * 0x40) + r.n % 2 ^ com s OVR_Q_CFG.size_log2 (c * 0x40) * 16
    let w := writeMem 71 c at_ (ovEntry s c r st) s
    let s1 := withdraw (1376 + c) (modOvQueue c (fun q => { q with head := (q.head + 1) % 2 ^ 32, run := none }) w.2)
    if st = 0 ∧ w.1 = 0 ∧ bit (r.raw.getD 1 0) 0 then
      signalFrom (1376 + c) 71 c (fld r.raw 32 4 % 2 ^ 17) (fld r.raw 36 4) s1
    else s1

/-- Disable the queue of a context that is torn down or opened; a record in flight ends with 0x0521 (R640). -/
def dropOuvur (c : Nat) (s : State) : State :=
  let s1 := endTransfer c 0x0521 s
  wrCom OVR_Q_CFG.enable (c * 0x40) 0
    { s1 with ouvur := { s1.ouvur with queues := adel s1.ouvur.queues c,
                                       inbound := s1.ouvur.inbound.filter (fun i => i.ctx != c) } }

/-- Stop Meridian at once: no output, signal or proposal follows (R514, R516). -/
def haltMer (keepTracks : Bool) (s : State) : State :=
  let m := s.mer
  let halted : MerState := { m with
    enabled := false, stopping := false, held := [], fusion := none, waiting := [], tracking := [], detMissed := []
    tracks := if keepTracks then m.tracks else [], edges := [], proposal := none, install := none }
  wrB MER_STATUS.pending 0 false (wrB MER_STATUS.running 0 false { s with mer := halted })

/-- Stop Meridian at the teardown of its owner (R516). -/
def dropMer (c : Nat) (s : State) : State := if s.mer.owner = c then haltMer false s else s

/-- The Sieve's status register from its queue (R212). -/
def refreshSieve (s : State) : State :=
  wr SIV_STATUS.queue_depth 0 s.sieve.jobs.length
    (wrB SIV_STATUS.busy 0 ((s.sieve.jobs.head?.map (·.result.isSome)).getD false) s)

/-- Tear down a context (R278, steps 1 to 3, and the start of step 4; R331, R338): `causing` gives the launches that
caused it and the status each stopped with. The scrub and event 0x0533 are TEARDOWN_SCRUB_COMPLETE. A context that is
not open is not torn down again (R366).
Log entry: 94 (DEDUCED). -/
def teardown (c cause : Nat) (causing : List (Nat × Nat × Nat)) (s : State) : State :=
  if !ctxOpen s c then s
  else
    let mine := s.fab.launches.filter (fun l => l.ctx == c)
    let s1 := wr HST_CTX_STATE.state (c * 0x100) 2 s
    let s2 := mine.foldl (fun s l =>
      match causing.find? (fun x => x.1 == l.id) with
      | some x => endLaunch l { launchDone l with status := x.2.1, course := x.2.2 } s
      | none => endLaunch l { launchDone l with status := 0x0521, course := firstCourse l } s) s1
    let s3 := endDescs c 0x0521 s2
    let keep := fun (a : Agent) => match a with | .desc x _ _ => x != c | _ => true
    let s4 := { s3 with rings := { s3.rings with
      waits := s3.rings.waits.filter (fun w => w.ctx != c),
      ops := s3.rings.ops.filter (fun o => !(o.ctx == c && (o.kind == .waitGe || o.kind == .waitEq))),
      rels := s3.rings.rels.map (fun r => { r with who := r.who.filter keep }),
      regJobs := s3.rings.regJobs.filter (fun j => j.ctx != c) } }
    let s5 := dropOuvur c (dropMer c (dropInput c (refreshSieve (dropSieve c (releaseHandles c s4)))))
    let s6 := { s5 with day := { s5.day with saved := aclear s5.day.saved (c * 64) (c * 64 + 64) } }
    let s7 := (List.range 64).foldl (fun s k =>
      if (courseOf s k).owner = c
      then wrB TRW_COURSE_STATE.switching (atCourse k 0x100) true (modCourse k (fun x => { x with scrub := true }) s)
      else s) s6
    modCtx c (fun x => { x with scrubCause := some cause }) s7

/-- Mark a Bond store slot whose image met an uncorrectable line: its handles are refused until it is registered
afresh (R364). -/
def markSlot (slot : Nat) (s : State) : State :=
  { s with mem := { s.mem with badSlots := aset s.mem.badSlots slot true false } }

/-- A corrected line: the counts, that of the context that owns the page among them (R556), and event 0x0722 when its
frame reaches the threshold (R361).
Log entry: 102 (DEDUCED). -/
def corrected (a : Nat) (s : State) : State :=
  let k := stackIdx s a
  let frame := physOf s a / 65536
  let n := aget s.mem.ceFrame frame 0 + 1
  let own := ownerOf s a
  let s0 := if own < 64 then incWrap FAB_HEALTH_HBM_CE.hbm_corrected (own * 0x80) 1 s else s
  let s1 := incSat HBM_CE_COUNT.corrected (dieBase (k + 1)) 1
    { s0 with mem := { s.mem with ceFrame := aset s.mem.ceFrame frame n 0 } }
  if com s HBM_CE_THRESH.threshold (dieBase (k + 1)) ≤ n ∧ !aget s.mem.ceRaised frame false then
    event 0x0722 (k + 1) 0xFF (k + 1) 0 (leBytes 6 (a / 65536 * 65536))
      { s1 with mem := { s1.mem with ceRaised := aset s1.mem.ceRaised frame true false } }
  else s1

/-- Handle an uncorrectable line by the owner of its page (R364 to R366): `a` is its device address, `was` says that it
was poisoned already and `scrub` that patrol scrub found it; `causing` gives a launch that stops with 0x0711. -/
def uncorrectable (a : Nat) (was scrub : Bool) (causing : List (Nat × Nat × Nat)) (s : State) : State :=
  let k := stackIdx s a
  let owner := ownerOf s a
  let s1 := wr HBM_LAST_UE_ADDR.address (dieBase (k + 1)) (a / 64 * 64) (incSat HBM_UE_COUNT.uncorrectable (dieBase (k + 1)) 1 s)
  let body := leBytes 6 (a / 64 * 64) ++ [b2n was + 2 * b2n scrub]
  if owner = 0xFF then s1
  else
    let s2 := poisonLine (physOf s a / 64) s1
    if owner < 64 then teardown owner 0x0710 causing (event 0x0720 (k + 1) owner (k + 1) 1 body s2)
    else
      event 0x0721 (k + 1) 0xFF (k + 1) 2 body
        (if owner = 0x50 then markSlot ((a - 0x17E0000000) / 131072) s2 else s2)

/-- Report one thing that an access has met: retries of the link exhausted (R362), a corrected line (R361), or an
uncorrectable one (R364). -/
def report (scrub : Bool) (causing : List (Nat × Nat × Nat)) (s : State) (f : Nat × Nat) : State :=
  match f.2 with
  | 0 => event 0x0723 (stackIdx s f.1 + 1) 0xFF (stackIdx s f.1 + 1) 1 [pcOf (physOf s f.1)] s
  | 1 => corrected f.1 s
  | 2 => uncorrectable f.1 false scrub causing s
  | _ => uncorrectable f.1 true scrub causing s

/-- Report what accesses have met, in order. What the reports' own writes meet is reported with the next access. -/
def settleFound (scrub : Bool) (causing : List (Nat × Nat × Nat)) (s : State) : State :=
  s.mem.found.foldl (report scrub causing) { s with mem := { s.mem with found := [] } }

/-- The lines of the external host's memory that n bytes at a window address touch. -/
def hostLines (s : State) (a n : Nat) : List Nat :=
  (List.range ((busOf s a + n + 63) / 64 - busOf s a / 64)).map (fun i => busOf s a / 64 + i)

/-- A read of lines of HBM of which some have met with something: the first uncorrectable one ends it, with the event of
its run-time status, which names the port or, for a launch, the Course (R388).
Log entry: 100 (DESIGN CHOICE). -/
def readMet (port ctx a n : Nat) (causing : List (Nat × Nat × Nat)) (s : State) : Nat × List Nat × State :=
  let m := meetReads (lineAddrs a n) (settleFound false [] s)
  match m.1 with
  | none => (0, readBytes m.2 port ctx a n, settleFound false causing m.2)
  | some l =>
    (ueStatus m.2 l, List.replicate n 255,
      settleFound false causing (event (ueStatus m.2 l) (portDie port) ctx port 1 (leBytes 6 l) m.2))

/-- A read of n bytes by a port acting for a context: its status, its bytes (all ones where it is refused, R25), and
the state after it. An uncorrectable line is handled by the owner of its page (R364), with `causing` as for
`uncorrectable`; a completion that the external host returns with an error or poisoned is a refused access (R772).
Log entries: 15 (DESIGN CHOICE), 101 (DEDUCED). -/
def readMem (port ctx a n : Nat) (causing : List (Nat × Nat × Nat)) (s : State) : Nat × List Nat × State :=
  match readStatus s port ctx a n with
  | 0 =>
    if a < hbmEnd then
      let s1 := policeRange port a n (drainRange a n s)
      if sound s1 then (0, readBytes s1 port ctx a n, s1) else readMet port ctx a n causing s1
    else if inPcie a ∧ (hostLines s a n).any (fun l => aget s.mem.hostErr l false) then
      (0x0701, List.replicate n 255,
        { s with mem := { s.mem with hostErr := s.mem.hostErr.filter (fun e => !(hostLines s a n).contains e.1) } })
    else (0, readBytes s port ctx a n, s)
  | st => (st, List.replicate n 255, s)

/-- A run-time fault of one instance: its event, and the end of its launch, with the teardown of its context where
`tears` says that the status has one (R94, R278, R317). -/
def faultInst (id course status die unit : Nat) (payload : List Nat) (tears : Bool) (s : State) : State :=
  match launchOf s id with
  | none => s
  | some l =>
    let s1 := event status die l.ctx unit 1 payload s
    if tears then teardown l.ctx status [(id, status, course)] s1 else stopLaunch id course status s1

end Sys2Proof.Machine
end

