-- ==== Sys2Proof/Machine/Plumb.lean ====
section
/-! DEFINITION. Plumb: the ledger, the contracts and their drops (R372 to R380, R386, R387). -/

namespace Sys2Proof.Machine

open Reg

/-- Limit of a stack, 0 to 3 (R376). -/
def stackLimit (s : State) (k : Nat) : Nat := if rdB s HBM_STATUS.hot (dieBase (k + 1)) then 1007 else 1081

/-- Limit of a link, 0 to 7 (R376). -/
def linkLimit (s : State) (k : Nat) : Nat :=
  if linkUp s k then
    (if 20 ≤ linkWidth s k then 100 else if 16 ≤ linkWidth s k then 80 else if 12 ≤ linkWidth s k then 60
      else if 8 ≤ linkWidth s k then 40 else 0)
  else 0

/-- Whether ledger entry e counts: a port whose contract is held, or a switch entry 80 to 83 not dropped. -/
def entryHeld (s : State) (e : Nat) : Bool :=
  if e < 74 then rdB s PLB_PORT_STATE.held (e * 16)
  else 80 ≤ e && e ≤ 83 && !rdB s PLB_SWITCH_W.dropped ((e - 80) * 4)

/-- What ledger entry e reserves on stack k. -/
def entryBw (s : State) (e k : Nat) : Nat :=
  if e < 74 then portBw s e k else if e = 80 + k then rd s PLB_SWITCH_W.w_gbps (k * 4) else 0

/-- Every ledger entry (R372). -/
def entries : List Nat := List.range 74 ++ [80, 81, 82, 83]

/-- Sum of the reservations of some entries on a stack. -/
def stackSum (es : List Nat) (bw : Nat → Nat → Nat) (k : Nat) : Nat := sumNat (es.map (fun e => bw e k))

/-- Whether a port's traffic to stack k takes link l (R376): by the first route up. -/
def charges (s : State) (e k l : Nat) : Bool :=
  decide (e < 74) && (match route s (portDie e) (k + 1) with | some r => r.contains l | none => false)

/-- Sum of the reservations of some entries on a link, in each direction. -/
def linkSum (s : State) (es : List Nat) (bw : Nat → Nat → Nat) (l : Nat) : Nat :=
  sumNat (es.map (fun e => sumNat ((List.range 4).map (fun k => if charges s e k l then bw e k else 0))))

/-- The entries that count now. -/
def heldEntries (s : State) : List Nat := entries.filter (entryHeld s)

/-- Set PLB_LEDGER from what is held (R387). -/
def refreshLedger (s : State) : State :=
  (List.range 4).foldl (fun s k =>
    wr PLB_LEDGER.limit_gbps (k * 4) (stackLimit s k)
      (wr PLB_LEDGER.reserved_gbps (k * 4) (stackSum (heldEntries s) (entryBw s) k) s)) s

/-- The drop class of an entry, 8 for one that is never dropped (R372, R378). -/
def dropClass (s : State) (e : Nat) : Nat :=
  if 80 ≤ e then 7 else if e = 64 ∨ e = 66 then 8 else com s PLB_PORT_CFG.drop_class (e * 16)

/-- The entry to drop first of some: the lowest class, and within it the highest number (R378).
Log entry: 109 (DEDUCED). -/
def firstDrop (s : State) (es : List Nat) : Option Nat :=
  (es.filter (fun e => dropClass s e < 8)).foldl (fun b e => match b with
    | none => some e
    | some x => if dropClass s e < dropClass s x ∨ (dropClass s e = dropClass s x ∧ x < e) then some e else some x) none

/-- Drop one contract, with event 0x0730 (R378, R379). -/
def dropEntry (e : Nat) (s : State) : State :=
  let s1 := if e < 74 then wrB PLB_PORT_STATE.dropped (e * 16) true (wrB PLB_PORT_STATE.held (e * 16) false s)
    else wrB PLB_SWITCH_W.dropped ((e - 80) * 4) true s
  event 0x0730 0 0xFF e 1 (leBytes 2 e) (incSat PLB_DROP_COUNT.drops 0 1 s1)

/-- Drop contracts that charge a resource until it fits: `over` says that it does not, `chargers` who charges it; the
number of entries bounds the drops.
Log entry: 109 (DEDUCED). -/
def shed (beyond : State → Bool) (chargers : State → List Nat) : Nat → State → State
  | 0, s => s
  | n + 1, s =>
    if beyond s then
      match firstDrop s (chargers s) with
      | some e => shed beyond chargers n (dropEntry e s)
      | none => s
    else s

/-- Whether a stack is over its limit. -/
def stackOver (k : Nat) (s : State) : Bool := decide (stackLimit s k < stackSum (heldEntries s) (entryBw s) k)

/-- Whether a link is over its limit. -/
def linkOver (l : Nat) (s : State) : Bool := decide (linkLimit s l < linkSum s (heldEntries s) (entryBw s) l)

/-- Re-evaluate one resource (R378, R380): `tag` is its byte in event 0x0732.
Log entry: 109 (DEDUCED). -/
def fit (beyond : State → Bool) (chargers : State → List Nat) (tag : Nat) (s : State) : State :=
  let s1 := shed beyond chargers 80 s
  if beyond s1 then event 0x0732 0 0xFF 0 2 [tag] s1 else s1

/-- Whether a link ends at a Course die. -/
def linkOfDie (l n : Nat) : Bool := l == eastLink n || l == westLink n || l == hubLink n

/-- Re-evaluate the ledger (R378): stacks first, then links; the stack and the links of a die in a partial reset are
left out (R719). While the links train on the way out of Night it waits for the end of the exit.
Log entries: 106 (DEDUCED), 109 (DEDUCED). -/
def reevaluate (s : State) : State :=
  if s.mode = .nightExit then s else
  let which := (List.range 4).filter (fun k => s.partialDie != some (k + 1))
  let links := (List.range 8).filter (fun l => !(match s.partialDie with | some n => linkOfDie l n | none => false))
  let s1 := which.foldl (fun s k =>
    fit (stackOver k) (fun s => (heldEntries s).filter (fun e => 0 < entryBw s e k)) k s) s
  let s2 := links.foldl (fun s l =>
    fit (linkOver l) (fun s => (heldEntries s).filter (fun e =>
      (List.range 4).any (fun k => charges s e k l && decide (0 < entryBw s e k)))) (0x10 + l) s) s1
  refreshLedger s2

/-- Staged reservation of a port on a stack. -/
def stgBw (s : State) (port k : Nat) : Nat :=
  match k with
  | 0 => stg s PLB_PORT_BW.bw_stack1 (port * 16)
  | 1 => stg s PLB_PORT_BW.bw_stack2 (port * 16)
  | 2 => stg s PLB_PORT_BW.bw_stack3 (port * 16)
  | _ => stg s PLB_PORT_BW.bw_stack4 (port * 16)

/-- The kind of a port as staged: ports 64 and 66 are fixed real-time (R386). -/
def stgKind (s : State) (port : Nat) : Nat := if port = 64 ∨ port = 66 then 2 else stg s PLB_PORT_CFG.kind (port * 16)

/-- What an entry would reserve under the staged fields; switch entries as they stand. -/
def stgEntryBw (s : State) (e k : Nat) : Nat :=
  if e < 74 then (if stgKind s e = 0 then 0 else stgBw s e k) else if entryHeld s e then entryBw s e k else 0

/-- Ports in order, as found by a check. -/
def firstPort (bad : Nat → Bool) : Option Nat := firstIdx 74 bad

/-- The class 0x00 check of a port (R386, R767): a reservation above 1,081, a reserved kind or hint, or a latency target
below 30 on a best-effort port. On a port with a contract that target is R377's own check.
Log entry: 107 (DEDUCED). -/
def portRangeBad (s : State) (p : Nat) : Bool :=
  (List.range 4).any (fun k => decide (1081 < stgBw s p k)) || stgKind s p == 3
    || stg s PLB_PORT_CFG.policy (p * 16) == 0
    || (stgKind s p == 0 && decide (stg s PLB_PORT_CFG.target (p * 16) < 30))

/-- The contract check of a port (R377).
Log entry: 107 (DEDUCED). -/
def contractBad (s : State) (p : Nat) : Bool :=
  (decide (stgKind s p ≠ 0) && decide (stg s PLB_PORT_CFG.target (p * 16) < 30))
    || (stg s PLB_PORT_CFG.kind (p * 16) == 2 && p != 64 && p != 66)
    || (stgKind s p == 0 && (List.range 4).any (fun k => decide (0 < stgBw s p k)))

/-- Every port field that PLB_COMMIT commits (R386). -/
def plbFields : List (Field × Nat) :=
  ((List.range 74).map (fun p => [(PLB_PORT_BW.bw_stack1, p * 16), (PLB_PORT_BW.bw_stack2, p * 16),
    (PLB_PORT_BW.bw_stack3, p * 16), (PLB_PORT_BW.bw_stack4, p * 16), (PLB_PORT_CFG.kind, p * 16),
    (PLB_PORT_CFG.target, p * 16), (PLB_PORT_CFG.drop_class, p * 16), (PLB_PORT_CFG.policy, p * 16)])).flatten

/-- The status of a PLB_COMMIT, its fault byte and the offset for FAB_COMMIT_FIELD (R377, R387, R767).
Log entry: 108 (DEDUCED). -/
def plbResult (s : State) : Nat × Nat × Nat :=
  match firstPort (portRangeBad s) with
  | some p => (0x0002, 0xFF, 0xA00000 + p * 16)
  | none => match firstPort (contractBad s) with
    | some p => (0x0750, p, 0)
    | none => match firstIdx 4 (fun k => decide (stackLimit s k < stackSum entries (stgEntryBw s) k)) with
      | some k => (0x0751, k, 0)
      | none => match firstIdx 8 (fun l => decide (linkLimit s l < linkSum s entries (stgEntryBw s) l)) with
        | some l => (0x0752, l, 0)
        | none => (0, 0xFF, 0)

/-- An accepted PLB_COMMIT: every contract committed is held, and its dropped bit clear (R387).
Log entry: 108 (DEDUCED). -/
def plbApply (s : State) : State :=
  let s1 := acceptStaged plbFields s
  refreshLedger ((List.range 74).foldl (fun s p =>
    if stgKind s p ≠ 0 then wrB PLB_PORT_STATE.dropped (p * 16) false (wrB PLB_PORT_STATE.held (p * 16) true s)
    else wrB PLB_PORT_STATE.held (p * 16) false s) s1)

/-- Write a PLB_COMMIT's result (R387, R769). -/
def plbDone (r : Nat × Nat × Nat) (s : State) : State :=
  commitDone 0 (r.1, r.2.2) (wr PLB_COMMIT_STATUS.fault 0 r.2.1 (wr PLB_COMMIT_STATUS.status 0 r.1 s))

/-- PLB_COMMIT (R377). -/
def execPlbCommit (value : Nat) (s : State) : Host.Outcome State Fault Refusal :=
  .next (if value % 2 = 0 then s
    else
      let s0 := commitAt 0 0xA0083C s
      if dieSilent s 0 then plbDone (0x0C40, 0xFF, 0) s0
      else if (plbResult s).1 = 0 then plbDone (0, 0xFF, 0) (plbApply s0) else plbDone (plbResult s) s0)

end Sys2Proof.Machine
end

