-- ==== Sys2Proof/Machine/Record.lean ====
section
/-! DEFINITION. Keystone's record of privileged acts (R701, R702). -/

namespace Sys2Proof.Machine

open Reg

/-- What a record entry says of an act beside its kind (R701). -/
structure Act where
  status : Nat := 0
  role : Nat := 3
  slot : Nat := 0xFF
  ctx : Nat := 0xFF
  detail : Nat := 0
  subject : List Nat := List.replicate 48 0
  lostTail : Bool := false
  deriving DecidableEq, Repr

/-- The entry of a sequence number, none where the record does not hold it. -/
def recordEntry (s : State) (seq : Nat) : List Nat := aget s.key.record (seq % 16384) []

/-- The 128 bytes of the next record entry (R701). -/
def entryBytes (s : State) (kind : Nat) (a : Act) : List Nat :=
  let n := s.key.nextSeq
  let chain := if n = 0 then List.replicate 48 0 else sha384 (recordEntry s (n + 2 ^ 32 - 1))
  leBytes 4 n ++ leBytes 2 kind ++ leBytes 2 a.status ++ leBytes 8 (dial s)
    ++ [a.role, a.slot, a.ctx, b2n (rd s NWT_DIAL_STATUS.sync_state != 2) + 2 * b2n a.lostTail]
    ++ leBytes 4 a.detail ++ padTo 48 a.subject ++ chain ++ List.replicate 8 0

/-- Write a record entry, with event 0x0F21 (R702); the always-on monitor keeps its number and digest (R703). -/
def record (kind : Nat) (a : Act) (s : State) : State :=
  let n := s.key.nextSeq
  let e := entryBytes s kind a
  let s1 := { s with key := { s.key with record := aset s.key.record (n % 16384) e [], nextSeq := (n + 1) % 2 ^ 32
                                         monitor := some ⟨n, sha384 e⟩ } }
  event 0x0F21 0 0xFF 0 0 (leBytes 4 n ++ leBytes 2 kind ++ leBytes 2 a.status) (wr KEY_REC_SEQ.seq 0 n s1)

/-- RECORD_WRITE_BACK (R703): the record goes to the boot store. -/
def writeBack (s : State) : State :=
  { s with key := { s.key with bootRecord := s.key.record, bootSeq := s.key.nextSeq } }

end Sys2Proof.Machine
end

