-- ==== Sys2Proof/Machine/KeyStore.lean ====
section
/-! DEFINITION. Keystone: its keys, the verification of signed objects (R677 to R680), requests (R689 to R694),
policies (R681 to R684), the debug unlock (R692, R698), attestation (R699, R700) and copies (R704). -/

namespace Sys2Proof.Machine

open Reg

/-! ## Keys -/

/-- The private part of the identity key (R677). -/
def identitySecret : Nat := scalar384 (Config.keyMaterial 4 0)

/-- The identity public key, x then y in big-endian order (R677, R699).
Log entry: 14 (DESIGN CHOICE). -/
def identityKey : List Nat := beBytes 48 (timesG identitySecret).1 ++ beBytes 48 (timesG identitySecret).2

/-- The key of an installer slot that has a usage, none where it is empty or lacks it (R678, R680). -/
def installerKey (s : State) (slot use : Nat) : Option (Nat × Nat) :=
  match (s.key.installer[slot]?).join with
  | some k => if bit k.usage use then some (k.x, k.y) else none
  | none => none

/-- A maker key that is not revoked (R677): kind 0 firmware, 1 pattern packs, 2 provisioning, 3 debug; two generations.
Log entry: 166 (DESIGN CHOICE). -/
def makerKeyOk (s : State) (kind gen : Nat) : Option (Nat × Nat) :=
  if gen < 2 ∧ !s.key.makerRevoked.contains (kind * 2 + gen) then some (s.key.maker.getD (kind * 2 + gen) (0, 0)) else none

/-- The key of an operator slot. -/
def operatorKey (s : State) (slot : Nat) : Option (Nat × Nat) := ((s.key.operator[slot]?).join).map (fun k => (k.x, k.y))

/-- Whether a signature block verifies over some bytes under a key (R55, R680). -/
def signedBy (k : Nat × Nat) (msg blk : List Nat) : Bool := ecdsaVerify k.1 k.2 msg (sigR blk) (sigS blk)

/-- KEY_STATE from the fuses and the debug port (R700, R704).
Log entry: 3 (DESIGN CHOICE). -/
def refreshKey (s : State) : State :=
  wr KEY_STATE.lock_state 0 (s.key.lifecycle + 4 * b2n (s.key.unlocked != 0) + 8 * b2n s.key.everUnlocked)
    (wr KEY_STATE.store_fuses_left 0 (satTo (256 - s.key.fusesBurnt) 255)
      (wrB KEY_STATE.half_pending 0 s.key.half.isSome s))

/-- Change Keystone's state. -/
def modKey (f : KeyState → KeyState) (s : State) : State := { s with key := f s.key }

/-- Draw KEY_CHALLENGE afresh (R692). -/
def drawChallenge (s : State) : State :=
  (List.range 4).foldl (fun s k => withDraw s (2 ^ 64) (fun v s => wr KEY_CHALLENGE.challenge (8 * k) v s)) s

/-- KEY_CHALLENGE as its 32 bytes. -/
def challengeBytes (s : State) : List Nat := (List.range 4).flatMap (fun k => leBytes 8 (rd s KEY_CHALLENGE.challenge (8 * k)))

/-! ## Requests -/

/-- Field values of a request block (R689). -/
def rqKind (b : List Nat) : Nat := fld b 4 2
/-- The role that makes a request. -/
def rqRole (b : List Nat) : Nat := b.getD 6 0
/-- The key slot or maker generation of a request. -/
def rqSlot (b : List Nat) : Nat := b.getD 7 0
/-- The body of a request, bytes 40 to 383. -/
def rqBody (b : List Nat) : List Nat := slice b 40 344

/-- Bytes of a kind's body, and whether their values are ones that the kind has (R690). -/
def bodyOk (kind : Nat) (y : List Nat) : Bool :=
  match kind with
  | 1 => decide (y.getD 0 0 < 8) && zeroAt y 98 246
  | 2 => decide (y.getD 0 0 < 8) && zeroAt y 1 343
  | 3 => decide (y.getD 0 0 < 4) && y.getD 1 0 == 0 && zeroAt y 98 246
  | 4 => decide (y.getD 0 0 < 4) && zeroAt y 1 343
  | 5 => decide (y.getD 0 0 < 32) && zeroAt y 1 343
  | 6 => decide (1 ≤ y.getD 0 0) && decide (y.getD 0 0 ≤ 64) && y.getD 1 0 == 0
      && (List.range (y.getD 0 0)).all (fun i => decide (fld y (2 + 2 * i) 2 < 1024))
      && zeroAt y (2 + 2 * y.getD 0 0) (342 - 2 * y.getD 0 0)
  | 7 => decide (10 ≤ fld y 0 4) && decide (fld y 0 4 ≤ 10000) && zeroAt y 4 340
  | 8 => decide (1 ≤ fld y 0 2) && decide (fld y 0 2 ≤ 64) && zeroAt y 2 342
  | 9 => decide (1 ≤ y.getD 0 0) && decide (y.getD 0 0 ≤ 4) && y.getD 1 0 == 0 && zeroAt y 6 338
  | _ => false

/-- Whether a request block is well formed (R689, R690). -/
def requestOk (b : List Nat) : Bool :=
  fld b 0 4 == 0x5145524B && decide (1 ≤ rqKind b) && decide (rqKind b ≤ 9) && decide (rqRole b ≤ 2)
    && bodyOk (rqKind b) (rqBody b) && sigBlockOk (slice b 384 128) (rqSlot b)

/-- Whether no installer slot holds a key. -/
def noInstaller (s : State) : Bool := s.key.installer.all (·.isNone)

/-- The key that a request's kind, role and slot name, none where the key is not valid for the kind (R680, R690).
Log entry: 167 (DEDUCED). -/
def requestKey (s : State) (b : List Nat) : Option (Nat × Nat) :=
  let maker := fun (k : Nat) => if rqRole b = 0 then makerKeyOk s k (rqSlot b) else none
  let inst := fun (u : Nat) => if rqRole b = 1 then installerKey s (rqSlot b) u else none
  match rqKind b with
  | 1 => if rqRole b = 0 then (if noInstaller s then maker 2 else none) else inst 7
  | 2 => inst 7
  | 3 | 4 | 9 => inst 6
  | 5 => if rqRole b = 0 then maker 3 else inst 5
  | 6 | 7 => if rqRole b = 2 then operatorKey s (rqSlot b) else none
  | 8 => maker 0
  | _ => none

/-- Whether an installer slot is the last one with usage bit 7. -/
def lastManager (s : State) (slot : Nat) : Bool :=
  (installerKey s slot 7).isSome && (List.range 8).all (fun i => i == slot || (installerKey s i 7).isNone)

/-- Step 5 of R691: the act is not permitted, or would leave the key store invalid (R677, R693). -/
def notPermitted (s : State) (b : List Nat) : Bool :=
  let y := rqBody b
  match rqKind b with
  | 1 => (noInstaller s && s.key.lifecycle != 1) || ((s.key.installer[y.getD 0 0]?).join).isSome
  | 2 => ((s.key.installer[y.getD 0 0]?).join).isNone || lastManager s (y.getD 0 0)
  | 3 => ((s.key.operator[y.getD 0 0]?).join).isSome
  | 4 => ((s.key.operator[y.getD 0 0]?).join).isNone
  | 8 => decide (fld y 0 2 ≤ s.key.fwMin)
  | 9 => decide (fld y 2 4 ≤ aget s.key.policyMin (y.getD 0 0) 0)
  | _ => false

/-- Whether a kind changes the key store, which burns a fuse (R679). -/
def storeKind (k : Nat) : Bool := decide (k ≤ 4) || k == 9

/-- Steps 1 to 6 of R691: the status of a request, 0 when it passes. `joint` is the body that a pending half asks for. -/
def requestStatus (s : State) (b : List Nat) (joint : Option (List Nat)) : Nat :=
  if !requestOk b then 0x0F02
  else match requestKey s b with
    | none => 0x0F03
    | some k =>
      if !signedBy k (b.take 384) (slice b 384 128) then 0x0F04
      else if slice b 8 32 ≠ challengeBytes s ∨ (joint.map (· != rqBody b)).getD false then 0x0F06
      else if notPermitted s b then 0x0F07
      else if storeKind (rqKind b) ∧ 256 ≤ s.key.fusesBurnt then 0x0F08
      else 0

/-- Write a request's result (R691, R704, R769): only an accepted request commits its address (R14, R764). -/
def requestDone (st : Nat) (fieldOff : Nat) (s : State) : State :=
  let s1 := if st = 0 then acceptStaged [(KEY_REQ_ADDR.addr, 0)] s else s
  commitDone 0 (st, fieldOff) (wr KEY_REQ_STATUS.status 0 st s1)

/-- The record act of a request with a status and a detail. -/
def requestAct (b : List Nat) (st detail : Nat) : Act :=
  { status := st, role := rqRole b, slot := rqSlot b, detail := detail, subject := sha384 b }

/-- The detail that a kind's record entry carries (R701).
Log entry: 167 (DEDUCED). -/
def requestDetail (b : List Nat) : Nat :=
  let y := rqBody b
  match rqKind b with
  | 7 => fld y 0 4
  | 8 => fld y 0 2
  | 9 => fld y 2 4
  | _ => y.getD 0 0

/-- Check a request and act on it: `act` gives the status that the act returns and its effect, which follows the record
entry (R691, R692, R695, R702).
Log entry: 167 (DEDUCED). -/
def checkRequest (b : List Nat) (act : List Nat → State → Nat × (State → State)) (s : State) : State :=
  let st0 := requestStatus s b none
  let a := if st0 = 0 then act b s else (st0, id)
  let s1 := record (rqKind b) (requestAct b a.1 (requestDetail b)) s
  drawChallenge (requestDone a.1 0 (a.2 s1))

/-- A write of 1 to KEY_REQ_COMMIT whose block is of a kind (R691). A block of another kind is the command of another
row; one that is malformed is refused here.
Log entries: 11 (DESIGN CHOICE), 167 (DEDUCED). -/
def keyRequest (kind value : Nat) (body : List Nat → State → State) (s : State) : State :=
  if value % 2 = 0 then s
  else
    let s0 := commitAt 0 0x130003C s
    let a := stg s KEY_REQ_ADDR.addr
    if dieSilent s 0 then requestDone 0x0C40 0 s0
    else if a % 64 ≠ 0 then requestDone 0x0003 0x1300030 s0
    else if !rangeHost s a 512 then requestDone 0x0004 0x1300030 s0
    else
      let q := readMem 73 0xFF a 512 [] s0
      if q.1 ≠ 0 then requestDone 0x0007 0 q.2.2
      else if rqKind q.2.1 ≠ kind ∧ 1 ≤ rqKind q.2.1 ∧ rqKind q.2.1 ≤ 9 then s
      else body q.2.1 q.2.2

/-- A request while a debug-unlock half waits is refused with 0x0F01 and writes nothing (R692). -/
def plainRequest (act : List Nat → State → Nat × (State → State)) (b : List Nat) (s : State) : State :=
  if s.key.half.isSome then requestDone 0x0F01 0 s else checkRequest b act s

/-- Burn a fuse for a change of the key store (R679). -/
def burn (s : State) : State := refreshKey (modKey (fun k => { k with fusesBurnt := k.fusesBurnt + 1 }) s)

/-- The public key in bytes 42 to 137 of a request, x then y (R690). -/
def bodyKey (y : List Nat) (usage : Nat) : KeySlot := ⟨usage, fldBE y 2 48, fldBE y 50 48⟩

/-- Provision an installer slot; the first moves the lifecycle to deployed (R690, R693).
Log entry: 166 (DESIGN CHOICE). -/
def provisionInstaller (b : List Nat) (s : State) : Nat × (State → State) :=
  let y := rqBody b
  let k := bodyKey y (y.getD 1 0)
  let first := noInstaller s
  (0, fun s => burn (modKey (fun x => { x with
    installer := setAt x.installer (y.getD 0 0) (some k), lifecycle := if first then 2 else x.lifecycle }) s))

/-- PROVISION_INSTALLER_SLOT (R690). -/
def execProvisionInstallerSlot (value : Nat) (s : State) : Host.Outcome State Fault Refusal :=
  .next (keyRequest 1 value (plainRequest provisionInstaller) s)

/-- Revoke an installer slot: its Bond handles and policies are invalid in the same step (R694). -/
def revokeInstaller (b : List Nat) (_ : State) : Nat × (State → State) :=
  let n := (rqBody b).getD 0 0
  (0, fun s =>
    let store := s.rings.store.map (fun e => if e.2.keySlot = n then (e.1, { e.2 with valid := false }) else e)
    let pols := s.key.policies.map (fun e => if e.2.keySlot = n then (e.1, { e.2 with filled := false }) else e)
    burn (modKey (fun x => { x with installer := setAt x.installer n none, policies := pols })
      { s with rings := { s.rings with store := store } }))

/-- REVOKE_INSTALLER_SLOT (R694). -/
def execRevokeInstallerSlot (value : Nat) (s : State) : Host.Outcome State Fault Refusal :=
  .next (keyRequest 2 value (plainRequest revokeInstaller) s)

/-- PROVISION_OPERATOR_SLOT (R690). -/
def execProvisionOperatorSlot (value : Nat) (s : State) : Host.Outcome State Fault Refusal :=
  .next (keyRequest 3 value (plainRequest (fun b _ =>
    (0, fun s => burn (modKey (fun x => { x with
      operator := setAt x.operator ((rqBody b).getD 0 0) (some (bodyKey (rqBody b) 0)) }) s)))) s)

/-- REVOKE_OPERATOR_SLOT (R690). -/
def execRevokeOperatorSlot (value : Nat) (s : State) : Host.Outcome State Fault Refusal :=
  .next (keyRequest 4 value (plainRequest (fun b _ =>
    (0, fun s => burn (modKey (fun x => { x with operator := setAt x.operator ((rqBody b).getD 0 0) none }) s)))) s)

/-- RAISE_FIRMWARE_MINIMUM (R690): the minimum is fused. -/
def execRaiseFirmwareMinimum (value : Nat) (s : State) : Host.Outcome State Fault Refusal :=
  .next (keyRequest 8 value (plainRequest (fun b _ =>
    (0, modKey (fun x => { x with fwMin := max x.fwMin (fld (rqBody b) 0 2) })))) s)

/-- Raise one number of a table that only rises (R684, R690). -/
def raiseAt (m : AMap Nat) (k v : Nat) : AMap Nat := aset m k (max (aget m k 0) v) 0

/-- RAISE_POLICY_MINIMUM (R690). -/
def execRaisePolicyMinimum (value : Nat) (s : State) : Host.Outcome State Fault Refusal :=
  .next (keyRequest 9 value (plainRequest (fun b _ =>
    (0, fun s => burn (modKey (fun x => { x with
      policyMin := raiseAt x.policyMin ((rqBody b).getD 0 0) (fld (rqBody b) 2 4) }) s)))) s)

/-! ## Debug unlock -/

/-- Draw the keys of the host partition, the shared regions and the Bond store afresh (R685, R698, R715).
Log entries: 17 (DEDUCED), 168 (DEDUCED). -/
def drawRegionKeys (s : State) : State :=
  let k := s.mem.nextKey
  { s with mem := { s.mem with
      regionKey := (List.range 16).map (fun i => (0x40 + i, k + i)) ++ [(0x50, k + 16)], nextKey := k + 17 } }

/-- Destroy every context's key, each with its record entry (R698, R701, R702).
Log entry: 168 (DEDUCED). -/
def dropCtxKeys (s : State) : State :=
  let s1 := s.mem.ctxKey.foldl (fun s e => record 0x0017 { ctx := e.1, detail := (ctxOf s e.1).keyGen } s) s
  { s1 with mem := { s1.mem with ctxKey := [] } }

/-- Invalidate every Bond handle and drop both plans (R698).
Log entry: 168 (DEDUCED). -/
def clearPlans (s : State) : State :=
  let s1 := (List.range 4).foldl (fun s d =>
    wrB PLB_SWITCH_W.dropped (4 * d) false (wr PLB_SWITCH_W.w_gbps (4 * d) 0 s)) s
  refreshLedger (wr DAY_ACTIVE_ID.plan_id 0 0 (wr DAY_PERIOD_INDEX.period 0 0 { s1 with
    rings := { s.rings with store := s.rings.store.map (fun e => (e.1, { e.2 with owner := none, valid := false })) }
    day := { s.day with active := none, staged := none, begun := [], ended := [] } }))

/-- The effects of an accepted second half, after the record entry of the unlock (R698).
Log entry: 168 (DEDUCED). -/
def unlock (scope : Nat) (s : State) : State :=
  let s1 := (List.range 64).foldl (fun s c => if ctxOpen s c then teardown c 0x0F40 [] s else s) s
  let s2 := clearPlans (drawRegionKeys (dropCtxKeys s1))
  let s3 := refreshTest (wrB DAY_STATUS.active_valid 0 false (wrB DAY_STATUS.staged_valid 0 false s2))
  event 0x0F20 0 0xFF 0 2 [scope] (refreshKey (modKey (fun x => { x with unlocked := scope, everUnlocked := true }) s3))

/-- One half of a debug unlock (R692): the first is held for 300 s with the challenge unchanged; the second must be of
the other role with the same body, and any other failure of it cancels the pending half.
Log entry: 167 (DEDUCED). -/
def unlockHalf (b : List Nat) (s : State) : State :=
  match s.key.half with
  | none =>
    let st := requestStatus s b none
    let s1 := record 0x0005 (requestAct b st (requestDetail b)) s
    if st ≠ 0 then drawChallenge (requestDone st 0 s1)
    else requestDone 0 0 (refreshKey (modKey (fun k => { k with half := some ⟨rqRole b, rqBody b, now s + 300000000000⟩ }) s1))
  | some h =>
    if rqKind b ≠ 5 ∨ rqRole b + h.role ≠ 1 then requestDone 0x0F01 0 s
    else
      let st := requestStatus s b (some h.body)
      let s1 := record 0x0005 (requestAct b st (requestDetail b)) s
      let s2 := refreshKey (modKey (fun k => { k with half := none }) s1)
      if st ≠ 0 then drawChallenge (requestDone st 0 s2)
      else
        let scope := (rqBody b).getD 0 0
        drawChallenge (requestDone 0 0 (unlock scope (record 0x0018 (requestAct b 0 scope) s2)))

/-- DEBUG_UNLOCK (R698). -/
def execDebugUnlock (value : Nat) (s : State) : Host.Outcome State Fault Refusal := .next (keyRequest 5 value unlockHalf s)

/-- DEBUG_HALF_EXPIRY (R692). -/
def execDebugHalfExpiry (s : State) : Host.Outcome State Fault Refusal :=
  .next (match s.key.half with
    | none => s
    | some h => refreshKey (modKey (fun k => { k with half := none }) (passTo h.deadline s)))

/-! ## Policies -/

/-- Whether a policy body is long enough for its type, and its own count within range (R682, R607). -/
def policyBodyOk (kind : Nat) (body : List Nat) : Bool :=
  match kind with
  | 1 => decide (1024 ≤ body.length)
  | 2 => decide (1 ≤ body.getD 0 0) && decide (body.getD 0 0 ≤ 16) && zeroAt body 1 15
      && decide (16 + 48 * body.getD 0 0 ≤ body.length)
  | 3 => decide (64 + 32 * fld body 0 2 ≤ body.length)
  | _ => decide (64 ≤ body.length)

/-- The usage bit that signs a policy type (R678). -/
def policyUse (kind : Nat) : Nat := kind

/-- Steps 1 to 4 of R680 for a policy image (R681, R682).
Log entry: 171 (DEDUCED). -/
def policyVerify (s : State) (img : List Nat) : Nat :=
  let n := img.length
  let kind := img.getD 6 0
  let slot := img.getD 7 0
  let blk := img.drop (n - 128)
  if fld img 0 4 ≠ 0x594C4F50 ∨ fld img 4 2 ≠ 1 ∨ kind < 1 ∨ 4 < kind ∨ 7 < slot ∨ n < 384 ∨ 262144 < n
    ∨ !zeroAt img 20 108 ∨ !sigBlockOk blk slot ∨ !policyBodyOk kind ((img.take (n - 128)).drop 128) then 0x0F02
  else match installerKey s slot (policyUse kind) with
    | none => 0x0F03
    | some k =>
      if !signedBy k (img.take (n - 128)) blk then 0x0F04
      else if fld img 12 4 < aget s.key.policyMin kind 0 then 0x0F05
      else 0

/-- The status of a registration: the image's, then 0x0F08 where no slot is free (R683).
Log entry: 169 (DEDUCED). -/
def policyStatus (s : State) (img : List Nat) : Nat :=
  if policyVerify s img ≠ 0 then policyVerify s img
  else if (List.range 32).all (fun i => (aget s.key.policies i {}).filled) then 0x0F08
  else 0

/-- The fields that KEY_POLICY_COMMIT commits (R781). -/
def policyFields : List (Field × Nat) := [(KEY_POLICY_ADDR.addr, 0), (KEY_POLICY_OP.op, 0)]

/-- Write a policy commit's result: only an accepted commit takes its staged fields (R14, R764). -/
def policyDone (st fieldOff : Nat) (s : State) : State :=
  let s1 := if st = 0 then acceptStaged policyFields s else s
  commitDone 0 (st, fieldOff) (wr KEY_POLICY_STATUS.status 0 st s1)

/-- The checks of class 0x00 of KEY_POLICY_COMMIT that do not depend on the image. -/
def policySetup (s : State) (release : Bool) : Option Refuse :=
  let a := stg s KEY_POLICY_ADDR.addr
  firstFail [(stg s KEY_POLICY_OP.op == 0 || stg s KEY_POLICY_OP.op == 3, (0x0002, 0x1300048)),
    (a % 64 != 0, (0x0003, 0x1300040)), (!release && !rangeHost s a 128, (0x0004, 0x1300040))]

/-- The policy slot that a handle names while it is current (R683, R684).
Log entry: 169 (DEDUCED). -/
def policyAt (s : State) (h : Nat) : Option PolicySlot :=
  let p := aget s.key.policies (h % 32) {}
  if h < 2 ^ 21 ∧ p.filled ∧ p.gen = bits h 5 16 then some p else none

/-- Whether a plan or a register names a handle (R684).
Log entry: 169 (DEDUCED). -/
def policyInUse (s : State) (h : Nat) : Bool :=
  (s.day.active.map (fun p => p.policyHandle == h)).getD false || (s.day.staged.map (fun p => p.policyHandle == h)).getD false
    || com s MER_POLICY.policy_handle == h || com s OVR_POLICY.policy_handle == h

/-- The slot that a new policy takes: the lowest free one whose last policy nothing in force names (R694), else the
lowest free one.
Log entry: 169 (DEDUCED). -/
def policyFree (s : State) : Nat :=
  let free := fun i => !(aget s.key.policies i {}).filled
  let named := fun i => (aget s.key.policies i {}).gen != 0 && policyInUse s (i + 32 * (aget s.key.policies i {}).gen)
  match firstIdx 32 (fun i => free i && !named i) with
  | some i => i
  | none => (firstIdx 32 free).getD 0

/-- Register the policy image at an address (R683, R701): registration is recorded whether or not it is accepted only
where it is.
Log entry: 169 (DEDUCED). -/
def registerPolicy (a : Nat) (s : State) : State :=
  let h := readMem 73 0xFF a 128 [] s
  if h.1 ≠ 0 then policyDone 0x0007 0 h.2.2
  else
    let n := fld h.2.1 8 4
    if n < 384 ∨ 262144 < n then policyDone 0x0F02 0 h.2.2
    else if !rangeHost h.2.2 a n then policyDone 0x0004 0x1300040 h.2.2
    else
      let q := readMem 73 0xFF a n [] h.2.2
      if q.1 ≠ 0 then policyDone 0x0007 0 q.2.2
      else
        let img := q.2.1
        let st := policyStatus q.2.2 img
        let s1 := q.2.2
        if st ≠ 0 then policyDone st 0 s1
        else
          let i := policyFree s1
          let gen := (aget s1.key.policies i {}).gen % 65535 + 1
          let handle := i + 32 * gen
          let p : PolicySlot := { gen := gen, filled := true, kind := img.getD 6 0, id := fld img 16 4,
                                  version := fld img 12 4, keySlot := img.getD 7 0,
                                  body := (img.take (n - 128)).drop 128, digest := sha384 img }
          let s2 := record 0x0010 { role := 1, slot := img.getD 7 0, detail := handle, subject := p.digest } s1
          policyDone 0 0 (wr KEY_POLICY_HANDLE.handle 0 handle
            (modKey (fun k => { k with policies := aset k.policies i p {} }) s2))

/-- POLICY_REGISTER (R683): a write of 1 to KEY_POLICY_COMMIT with op 1; a reserved op is refused here. -/
def execPolicyRegister (value : Nat) (s : State) : Host.Outcome State Fault Refusal :=
  .next (
    let s0 := commitAt 0 0x130005C s
    if value % 2 = 0 ∨ stg s KEY_POLICY_OP.op = 2 then s
    else if dieSilent s 0 then policyDone 0x0C40 0 s0
    else match policySetup s false with
      | some r => policyDone r.1 r.2 s0
      | none => registerPolicy (stg s KEY_POLICY_ADDR.addr) s0)

/-- POLICY_RELEASE (R684). -/
def execPolicyRelease (value : Nat) (s : State) : Host.Outcome State Fault Refusal :=
  .next (
    let s0 := commitAt 0 0x130005C s
    let h := rd s KEY_POLICY_HANDLE.handle
    if value % 2 = 0 ∨ stg s KEY_POLICY_OP.op ≠ 2 then s
    else if dieSilent s 0 then policyDone 0x0C40 0 s0
    else match policySetup s true with
      | some r => policyDone r.1 r.2 s0
      | none =>
        if policyInUse s h ∧ (policyAt s h).isSome then policyDone 0x0F09 0 s0
        else match policyAt s h with
          | none => policyDone 0x0F0A 0 s0
          | some p =>
            let s1 := record 0x0011 { role := 1, slot := p.keySlot, detail := h, subject := p.digest } s0
            policyDone 0 0 (modKey (fun k => { k with
              policies := aset k.policies (h % 32) { p with filled := false } {} }) s1))

/-! ## Attestation and copies -/

/-- SHA-384 of an image that the boot store holds: 0 the Hearth's, 5 and 6 the islands' (R699).
Log entry: 14 (DESIGN CHOICE). -/
def firmwareDigest (d : Nat) : List Nat := beBytes 48 (Config.keyMaterial 5 d % 2 ^ 384)

/-- One key slot in the key store's digest: usage and point, zeros while empty. -/
def slotBytes (k : Option KeySlot) : List Nat :=
  match k with
  | none => List.replicate 97 0
  | some k => k.usage :: (beBytes 48 k.x ++ beBytes 48 k.y)

/-- SHA-384 of a policy by its handle, or 48 zeros.
Log entry: 170 (DEDUCED). -/
def handleDigest (s : State) (h : Nat) : List Nat :=
  let p := aget s.key.policies (h % 32) {}
  if p.gen = bits h 5 16 ∧ p.gen ≠ 0 then padTo 48 p.digest else List.replicate 48 0

/-- A context's Bonds in ascending slot order, handle and digest of each (R699).
Log entry: 170 (DEDUCED). -/
def bondList (s : State) (c : Nat) : List Nat :=
  (s.rings.store.filter (fun e => e.2.owner == some c && e.2.valid)).flatMap
    (fun e => leBytes 4 (e.1 + 4096 * e.2.gen) ++ padTo 48 e.2.digest)

/-- Bytes 0 to 639 of an attestation report (R699), with what the other blocks supply: the digest of Meridian's active
table and the package's safe state.
Log entry: 170 (DEDUCED). -/
def reportBytes (s : State) (c : Nat) (nonce table : List Nat) (safe : Nat) : List Nat :=
  let n := s.key.nextSeq
  leBytes 4 0x54535441 ++ leBytes 2 1 ++ leBytes 2 768 ++ leBytes 4 (readWord s 0).1 ++ leBytes 4 (readWord s 0x18).1
    ++ leBytes 8 (rd s FAB_CAPABILITY.capability) ++ leBytes 8 (dial s) ++ padTo 32 nonce ++ sha384 identityKey
    ++ firmwareDigest 0 ++ firmwareDigest 5 ++ firmwareDigest 6
    ++ sha384 ((s.key.installer ++ s.key.operator).flatMap slotBytes)
    ++ ((s.day.active.map (fun p => handleDigest s p.policyHandle)).getD (List.replicate 48 0))
    ++ handleDigest s (com s OVR_POLICY.policy_handle) ++ padTo 48 table
    ++ (if s.key.record.isEmpty then List.replicate 48 0 else sha384 (recordEntry s (n + 2 ^ 32 - 1)))
    ++ leBytes 4 (n + 2 ^ 32 - 1) ++ leBytes 2 s.key.fwMin ++ leBytes 2 (rd s FAB_PACK_SET.set_version)
    ++ [safe, rd s KEY_STATE.lock_state, c, 0] ++ leBytes 4 (if c < 64 then (ctxOf s c).keyGen else 0)
    ++ (if c < 64 then sha384 (bondList s c) else List.replicate 48 0) ++ List.replicate 80 0

/-- Whether the Hearth firmware runs: from its start in step 3 of Dawn, also while Dawn is held at a later step (R711,
R712).
Log entry: 176 (DEDUCED). -/
def hearthRuns (s : State) : Bool :=
  match s.mode with
  | .run | .nightEntry | .nightExit => true
  | .dawn => rdB s NWT_DAWN_STATUS.held && decide (3 < rd s NWT_DAWN_STATUS.step)
  | .unpowered | .night | .deepNight | .stopped => false

/-- Write an attestation commit's result: only an accepted commit takes its staged fields (R14, R764). -/
def attDone (st fieldOff : Nat) (s : State) : State :=
  let s1 := if st = 0 then acceptStaged [(KEY_ATT_ADDR.addr, 0), (KEY_ATT_CTX.context, 0)] s else s
  commitDone 0 (st, fieldOff) (wr KEY_ATT_STATUS.status 0 st s1)

/-- Write the report at an address, signed by the identity key over bytes 0 to 639: the random number of the signing is
drawn by Keystone (R699).
Log entry: 170 (DEDUCED). -/
def writeReport (a c : Nat) (table : List Nat) (safe : Nat) (s : State) : State :=
  let q := readMem 73 0xFF (a + 32) 32 [] s
  if q.1 ≠ 0 then attDone 0x0007 0 q.2.2
  else
    let body := reportBytes q.2.2 c q.2.1 table safe
    withDraw q.2.2 (2 ^ 384) (fun k s =>
      let sg := ecdsaSign identitySecret (scalar384 k) body
      attDone 0 0 (writeMem' 73 0xFF a (body ++ beBytes 48 sg.1 ++ beBytes 48 sg.2 ++ List.replicate 32 0) s))

/-- Copy bytes out to the host partition: checks of class 0x00, then the write (R704).
Log entry: 176 (DEDUCED). -/
def keyCopy (value op size : Nat) (data : State → List Nat) (s : State) : State :=
  let s0 := commitAt 0 0x130009C s
  let a := stg s KEY_COPY_ADDR.addr
  let done := fun (st f : Nat) (s : State) => commitDone 0 (st, f) (wr KEY_COPY_STATUS.status 0 st s)
  if value % 2 = 0 ∨ !hearthRuns s ∨ (stg s KEY_COPY_OP.op ≠ op ∧ (op ≠ 1 ∨ stg s KEY_COPY_OP.op = 2)) then s
  else if stg s KEY_COPY_OP.op ≠ op then done 0x0002 0x1300090 s0
  else if a % 4096 ≠ 0 then done 0x0003 0x1300088 s0
  else if !rangeHost s a size then done 0x0004 0x1300088 s0
  else done 0 0 (writeMem' 73 0xFF a (data s0) (acceptStaged [(KEY_COPY_ADDR.addr, 0), (KEY_COPY_OP.op, 0)] s0))

/-- COPY_RECORD (R704): op 1, the whole record in index order; a reserved op is refused here. -/
def execCopyRecord (value : Nat) (s : State) : Host.Outcome State Fault Refusal :=
  .next (keyCopy value 1 2097152
    (fun s => (List.range 16384).flatMap (fun i => padTo 128 (aget s.key.record i []))) s)

/-- The identity certificate chain, preceded by its length (R700, R704).
Log entry: 14 (DESIGN CHOICE). -/
def certChain : List Nat :=
  let n := Config.keyMaterial 6 0 % 16385
  leBytes 4 n ++ (List.range n).map (fun i => Config.keyMaterial 7 i % 256)

/-- COPY_CERTIFICATE_CHAIN (R704): op 2. -/
def execCopyCertificateChain (value : Nat) (s : State) : Host.Outcome State Fault Refusal :=
  .next (keyCopy value 2 16388 (fun _ => certChain) s)

/-- RECORD_WRITE_BACK (R703). -/
def execRecordWriteBack (s : State) : Host.Outcome State Fault Refusal := .next (writeBack s)

/-- KEYSTONE_INTERNAL_FAULT (R705): event 0x0F30. -/
def execKeystoneInternalFault (s : State) : Host.Outcome State Fault Refusal := .next (event 0x0F30 0 0xFF 0 3 [] s)

end Sys2Proof.Machine
end

