-- ==== Sys2Proof/Machine/SafeState.lean ====
section
/-! DEFINITION. The safe states: how an island commands or adopts one (R566 to R568, R572), and its output. -/

namespace Sys2Proof.Machine

open Reg

/-- Island 5 or 6. -/
def islandOf (s : State) (i : Nat) : Island := if i = 5 then s.isl.matin else s.isl.vesper

/-- Set an island. -/
def setIsland (i : Nat) (v : Island) (s : State) : State :=
  if i = 5 then { s with isl := { s.isl with matin := v } }
  else if i = 6 then { s with isl := { s.isl with vesper := v } } else s

/-- Change an island. -/
def modIsland (i : Nat) (f : Island → Island) (s : State) : State := setIsland i (f (islandOf s i)) s

/-- Whether an island runs its monitors.
Log entry: 5 (DESIGN CHOICE). -/
def watching (s : State) (i : Nat) : Bool := (i == 5 || i == 6) && (islandOf s i).up

/-- Note a heartbeat at an island. -/
def heardAt (i src : Nat) (s : State) : State := modIsland i (fun x => { x with heard := aset x.heard src (osc s) 0 }) s

/-- The other island. -/
def otherIsland (i : Nat) : Nat := 11 - i

/-- The state that an island holds: 0 normal, 1 degraded, 2 silent (R566). -/
def heldState (s : State) (i : Nat) : Nat := rd s ISL_STATE.state (dieBase i)

/-- Whether an island has recorded a cause. -/
def hasCause (s : State) (i cause : Nat) : Bool := bit (rd s ISL_CAUSE.causes (dieBase i)) cause

/-- Set the state that an island holds: a change ends any high phase at once (R572). -/
def holdState (i st : Nat) (s : State) : State :=
  if heldState s i = st then s
  else modIsland i (fun x => { x with high := false, phaseAt := osc s }) (wr ISL_STATE.state (dieBase i) st s)

/-- Record a cause. -/
def noteCause (i cause : Nat) (s : State) : State :=
  wr ISL_STATE.last_cause (dieBase i) cause
    (wr ISL_CAUSE.causes (dieBase i) (setBit (rd s ISL_CAUSE.causes (dieBase i)) cause true) s)

/-- An island commands a state with a cause, or learns one (R566 to R568): the more severe state is held, a new cause is
recorded with its event, and the other island and every die are told.
Log entries: 40 (DESIGN CHOICE), 41 (DEDUCED). -/
def commandState (i st cause who : Nat) (s : State) : State :=
  let x := islandOf s i
  let old := heldState s i
  let fresh := !hasCause s i cause
  if !x.up ∨ (!fresh ∧ st ≤ old) then s
  else
    let s1 := holdState i (max old st) (noteCause i cause s)
    let s2 := if x.lost.contains (otherIsland i) then s1
      else modIsland (otherIsland i) (fun y => { y with inbox := y.inbox ++ [⟨st, cause, who⟩] }) s1
    let told := (List.range 5).filter (fun d =>
      (!dieSilent s2 d && !x.lost.contains d) || s2.isl.silentSent.contains d)
    let s3 := if st = 2 then { s2 with isl := { s2.isl with silentSent := told } } else s2
    let s4 := send .safeState [i, st, cause] s3
    let s5 := if st = 2 ∧ old < 2 then event 0x0C21 i 0xFF i 3 [cause, who] s4
      else if st = 1 then event 0x0C20 i 0xFF i 2 [cause, who] s4 else s4
    if cause = 0x28 ∧ fresh then event 0x0C22 i 0xFF i 2 [] s5 else s5

/-- The package's safe state: the more severe of what the islands hold (R566). -/
def packageState (s : State) : Nat := max (heldState s 5) (heldState s 6)

end Sys2Proof.Machine
end

