-- ==== Sys2Proof/Machine/Attest.lean ====
section
/-! DEFINITION. Attestation reports on command (R699, R700). -/

namespace Sys2Proof.Machine

open Reg

/-- ATTESTATION_REPORT (R699, R700): a write of 1 to KEY_ATT_COMMIT, in the silent state too (R569).
Log entries: 170 (DEDUCED), 176 (DEDUCED). -/
def execAttestationReport (value : Nat) (s : State) : Host.Outcome State Fault Refusal :=
  let a := stg s KEY_ATT_ADDR.addr
  let c := stg s KEY_ATT_CTX.context
  let s0 := commitAt 0 0x130007C s
  .next (if value % 2 = 0 ∨ !hearthRuns s then s
    else if a % 64 ≠ 0 then attDone 0x0003 0x1300060 s0
    else if !rangeHost s a 768 || (c != 0xFF && !ctxOpen s c) then attDone 0x0F0B 0 s0
    else
      let table := match s.mer.active with | some t => sha384 t | none => List.replicate 48 0
      writeReport a c table (packageState s) s0)

end Sys2Proof.Machine
end

