-- ==== Sys2Proof/Machine/Mortar.lean ====
section
/-! DEFINITION. The Mortar links: flits, replay and lane repair (R390 to R398), training (R402 to R410), down ports and
unreachable dies (R411, R413), loopback and MTR_COMMIT (R419 to R422, R428). A port end is named by its die and logical
port; port n − 1 of die 0 is the Hearth's hub port n. -/

namespace Sys2Proof.Machine

open Reg

/-! ## Port ends -/

/-- Whether a die and a logical port name a port end (R389). -/
def isEnd (die p : Nat) : Bool := if die = 0 then decide (p < 4) else decide (die ≤ 4) && decide (p < 3)

/-- Offset of a port end's registers beyond those of the first. -/
def endOff (die p : Nat) : Nat := if die = 0 then p * 0x40 else portAt die p

/-- The field of a port end's register: `f` on a Course die, `h` on the Hearth. -/
def endField (die : Nat) (f h : Field) : Field := if die = 0 then h else f

/-- Read a field of a port end. -/
def rdEnd (s : State) (die p : Nat) (f h : Field) : Nat := rd s (endField die f h) (endOff die p)

/-- Set a field of a port end. -/
def wrEnd (die p : Nat) (f h : Field) (v : Nat) (s : State) : State := wr (endField die f h) (endOff die p) v s

/-- The state field of a port end. -/
def endState (s : State) (die p : Nat) : Nat := rdEnd s die p MTR_PORT_STATUS.state MTR_HUB_PORT_STATUS.state
/-- Its trained width. -/
def endWidth (s : State) (die p : Nat) : Nat := rdEnd s die p MTR_PORT_STATUS.width MTR_HUB_PORT_STATUS.width
/-- Its width epoch. -/
def endEpoch (s : State) (die p : Nat) : Nat := rdEnd s die p MTR_PORT_STATUS.epoch MTR_HUB_PORT_STATUS.epoch
/-- Its good receive lanes. -/
def endGood (s : State) (die p : Nat) : Nat := rdEnd s die p MTR_LANE_MAP.rx_good MTR_HUB_LANE_MAP.rx_good
/-- Its receive lanes that carry data. -/
def endData (s : State) (die p : Nat) : Nat := rdEnd s die p MTR_LANE_USE.rx_data MTR_HUB_LANE_USE.rx_data

/-- Set the state field. -/
def wrState (die p v : Nat) (s : State) : State := wrEnd die p MTR_PORT_STATUS.state MTR_HUB_PORT_STATUS.state v s
/-- Set the width. -/
def wrWidth (die p v : Nat) (s : State) : State := wrEnd die p MTR_PORT_STATUS.width MTR_HUB_PORT_STATUS.width v s
/-- Set the epoch. -/
def wrEpoch (die p v : Nat) (s : State) : State := wrEnd die p MTR_PORT_STATUS.epoch MTR_HUB_PORT_STATUS.epoch v s
/-- Set the good receive lanes. -/
def wrGood (die p v : Nat) (s : State) : State := wrEnd die p MTR_LANE_MAP.rx_good MTR_HUB_LANE_MAP.rx_good v s
/-- Set the receive lanes that carry data. -/
def wrData (die p v : Nat) (s : State) : State := wrEnd die p MTR_LANE_USE.rx_data MTR_HUB_LANE_USE.rx_data v s

/-- The port end itself. -/
def endOf (s : State) (die p : Nat) : PortEnd := aget s.mortar.ends (die * 4 + p) {}

/-- Change a port end. -/
def modEnd (die p : Nat) (f : PortEnd → PortEnd) (s : State) : State :=
  { s with mortar := { s.mortar with ends := aset s.mortar.ends (die * 4 + p) (f (endOf s die p)) {} } }

/-- The port end at the other side of the link (R18, R389). -/
def peerOf (die p : Nat) : Nat × Nat :=
  if die = 0 then (p + 1, 2)
  else match p with
    | 0 => (east die, 1)
    | 1 => (west die, 0)
    | _ => (0, die - 1)

/-- The link of a port end (R389). -/
def linkOf (die p : Nat) : Nat :=
  if die = 0 then p + 4
  else match p with
    | 0 => eastLink die
    | 1 => westLink die
    | _ => hubLink die

/-- Whether this end raises the link's training events: the end with the lower die number (R410). -/
def speaks (die p : Nat) : Bool := decide (die < (peerOf die p).1)

/-- The die number that a die's straps give it (R399, R402): the Hearth has none. -/
def strapDie (s : State) (die : Nat) : Nat := if die = 0 then 0 else rd s MTR_DIE_ID.position (dieBase die) + 1

/-- Physical port of a logical port under an orientation (R401): 0 PA to 3 PD. -/
def physPort (orientation p : Nat) : Nat :=
  let westSide := orientation == 1 || orientation == 2
  match p with
  | 0 => if westSide then 3 else 1
  | 1 => if westSide then 1 else 3
  | _ => if orientation == 0 || orientation == 2 then 2 else 0

/-- The physical port that an orientation leaves unused (R401): PA under laid and mirrored, PC under the other two. -/
def unusedPort (orientation : Nat) : Nat := if orientation = 0 ∨ orientation = 2 then 0 else 2

/-- The physical lane of a logical lane under an orientation (R401). -/
def physLane (orientation lane : Nat) : Nat := if orientation ≤ 1 then lane else 21 - lane

/-- The virtual channel of a traffic class (R392). -/
def vcOf : Traffic → Nat
  | .request | .writeData => 0
  | .response | .writeAck => 1
  | .tieOperation | .tieRelease => 2
  | .launch | .completion | .trowel | .ringEngine => 3

/-! ## Reachability and the ledger -/

/-- Raise event 0x0824 for each Course die that no route reaches any longer (R413, R719). -/
def noteLost (before : State) (s : State) : State :=
  [1, 2, 3, 4].foldl (fun s n =>
    if reach before 0 n ∧ !reach s 0 n ∧ s.partialDie ≠ some n then event 0x0824 0 0xFF n 2 [] s else s) s

/-- Whether a link that was up no longer is: down, in training or under test (R409). -/
def linkLost (before s : State) : Bool := (List.range 8).any (fun l => linkUp before l && !linkUp s l)

/-- A change of ports with what follows from it: where a link is lost the routes change, and the ledger is re-evaluated
(R378). -/
def portChange (f : State → State) (s : State) : State :=
  let t := f s
  noteLost s (if linkLost s t then reevaluate t else t)

/-! ## Training -/

/-- Whether epoch a is newer than epoch b (R403). -/
def newer (a b : Nat) : Bool := decide (1 ≤ (a + 65536 - b) % 65536) && decide ((a + 65536 - b) % 65536 ≤ 32767)

/-- The largest of 20, 16, 12 and 8 that a count of good lanes reaches, or 0 (R405). -/
def widthFor (n : Nat) : Nat := if 20 ≤ n then 20 else if 16 ≤ n then 16 else if 12 ≤ n then 12 else if 8 ≤ n then 8 else 0

/-- The width below a width, 0 below 8. -/
def lowerWidth (w : Nat) : Nat := if w = 20 then 16 else if w = 16 then 12 else if w = 12 then 8 else 0

/-- The w lowest set bits of a lane map (R406). -/
def lowLanes (map w : Nat) : Nat :=
  sumNat (((List.range 22).filter (bit map)).take w |>.map (fun l => 2 ^ l))

/-- A port end with nothing of a training in it. -/
def PortEnd.idle (e : PortEnd) : PortEnd :=
  { e with proposal := none, peer := none, target := 0, want := 0, sent := false, got := false, moves := [], txMoves := [] }

/-- Put a port end into training at an epoch: its part of the training starts afresh (R403, R404).
Log entry: 111 (DEDUCED). -/
def beginTraining (die p epoch : Nat) (s : State) : State :=
  let was := if endState s die p = 1 then (endOf s die p).before else endWidth s die p
  modEnd die p (fun e => { e.idle with before := was, attempt := 1, heard := now s, testEnd := none })
    (wrData die p 0 (wrWidth die p 0 (wrEpoch die p epoch (wrState die p 1 s))))

/-- The newer of two epochs (R403). -/
def newest (a b : Nat) : Nat := if newer b a then b else a

/-- Start a training under a new epoch (R403): the newer of this end's last epoch and the last received, plus 1.
Log entry: 111 (DEDUCED). -/
def startTraining (die p : Nat) (s : State) : State :=
  beginTraining die p ((newest (endEpoch s die p) (endOf s die p).rxEpoch + 1) % 65536) s

/-- Whether a flit carries data (R390). -/
def flitData (f : List Nat) : Bool := bits (f.getD 244 0) 2 2 == 0

/-- Re-send the messages of the flits not acknowledged over the next route of R20 to the die beyond the port (R411),
which `s` no longer gives over the port itself.
Log entry: 112 (DEDUCED). -/
def resendUnacked (die p : Nat) (s : State) : State :=
  let dest := (peerOf die p).1
  let msgs := (((endOf s die p).replay.filter flitData).map (fun f =>
    (⟨die, dest, (route s die dest).getD [], slice f 0 240⟩ : Resend)))
  let s1 := modEnd die p (fun e => { e with replay := [] }) s
  msgs.foldl (fun s m => send .mortarResend ([die, dest, m.route.length] ++ m.route ++ m.payload) s)
    { s1 with mortar := { s1.mortar with resend := s1.mortar.resend ++ msgs } }

/-- Bring a port end down (R407 to R411): `cause` is the low byte of the cause code.
Log entry: 112 (DEDUCED). -/
def portDown (die p cause : Nat) (s : State) : State :=
  portChange (fun s =>
    let s1 := wrData die p 0 (wrWidth die p 0 (wrState die p 0 s))
    let s2 := resendUnacked die p (modEnd die p PortEnd.idle s1)
    if speaks die p then
      event 0x0822 die 0xFF (linkOf die p) 1 ([0, 0] ++ leBytes 2 (endEpoch s2 die p) ++ [cause]) s2 else s2) s

/-- Bring a port end up at its target width (R406, R407, R410): its flits count from 0 again in both directions, what the
peer has not acknowledged is sent anew, and the ledger is re-evaluated once both ends are up (R378).
Log entries: 112 (DEDUCED), 115 (DEDUCED). -/
def portUp (die p : Nat) (s : State) : State :=
  let e := endOf s die p
  let w := e.target
  let s1 := wrData die p (lowLanes (endGood s die p) w) (wrWidth die p w (wrState die p 2 s))
  let s2 := modEnd die p (fun e =>
    { e with txLanes := lowLanes ((e.peer.map (·.2)).getD 0) w, parity := [], discarding := false, rxNext := 0, txNext := 0,
             credits := [96, 96, 96, 96], held := [0, 0, 0, 0] }) (resendUnacked die p s1)
  let body := [w, 0] ++ leBytes 2 (endEpoch s2 die p)
  let s3 := if !speaks die p then s2
    else if e.before = 0 then event 0x0823 die 0xFF (linkOf die p) 0 body s2
    else if w < e.before then event 0x0821 die 0xFF (linkOf die p) 1 body s2
    else s2
  if linkUp s3 (linkOf die p) then reevaluate s3 else s3

/-- Move to the second attempt at a width (R407, step 4): the end measures its lanes and exchanges maps again at the next
epoch. -/
def secondAttempt (die p w : Nat) (s : State) : State :=
  if w < 8 then portDown die p 0x2A s
  else modEnd die p (fun e => { e.idle with attempt := 2, want := w, heard := now s })
    (wrEpoch die p ((endEpoch s die p + 1) % 65536) s)

/-- Compare the two proposals of an epoch (R407, step 2). In the second attempt the width is fixed, and an end that no
longer has so many good lanes fails it (step 4). -/
def settleProposals (die p : Nat) (s : State) : State :=
  let e := endOf s die p
  match e.proposal, e.peer with
  | some a, some b =>
    if e.attempt = 2 then
      (if min a.1 b.1 < e.want then portDown die p 0x2A s else modEnd die p (fun e => { e with target := e.want }) s)
    else if a.1 = 0 ∨ b.1 = 0 then portDown die p 0x29 s
    else if a.1 = b.1 then modEnd die p (fun e => { e with target := a.1 }) s
    else secondAttempt die p (min a.1 b.1) s
  | _, _ => s

/-- Bring a port end up once both READY agree (R407). -/
def settleReady (die p : Nat) (s : State) : State :=
  let e := endOf s die p
  if e.sent ∧ e.got then portUp die p s else s

/-- Whether a port end may train: not under test, its straps good (R400), and its peer not under test (R421).
Log entry: 111 (DEDUCED). -/
def mayTrain (s : State) (die p : Nat) : Bool :=
  isEnd die p && endState s die p != 3 && !(endOf s die p).peerTest
    && (die == 0 || !rdB s MTR_DIE_ID.strap_fault (dieBase die))

/-- PORT_RETRAIN (R409): a write of 1 to retrain. -/
def execPortRetrain (die port : Nat) (s : State) : Host.Outcome State Fault Refusal :=
  .next (ifReached die (fun s => if mayTrain s die port then portChange (startTraining die port) s else s) s)

/-- FRAMING_LOSS (R410): the receiving end of an up port enters training. -/
def execFramingLoss (die port : Nat) (s : State) : Host.Outcome State Fault Refusal :=
  .next (if isEnd die port ∧ endState s die port = 2 then portChange (startTraining die port) s else s)

/-- LANE_MEASUREMENT_COMPLETE (R402, R405): the end proposes its width, and sends its die number and port; `good` is
the map of its good receive lanes. -/
def execLaneMeasurementComplete (die port good : Nat) (s : State) : Host.Outcome State Fault Refusal :=
  .next (if isEnd die port ∧ endState s die port = 1 ∧ (endOf s die port).proposal.isNone then
    let map := good % 2 ^ 22
    let w := widthFor (popcount map 22)
    settleProposals die port (send .mortarProposal [linkOf die port, endEpoch s die port, w, map, strapDie s die, port]
      (modEnd die port (fun e => { e with proposal := some (w, map) }) (wrGood die port map s)))
    else s)

/-- Bring the port down on a peer identity that R389 does not give it (R402). -/
def identityFault (die p : Nat) (s : State) : State :=
  portDown die p 0x25 (event 0x0825 die 0xFF (linkOf die p) 2 [] s)

/-- Take a proposal of the end's present epoch, once (R404). The peer must be the one that R389 gives for the port of the
die that the straps name (R402).
Log entry: 111 (DEDUCED). -/
def takeProposal (die p width map peerDie peerPort : Nat) (s : State) : State :=
  if peerOf (strapDie s die) p ≠ (peerDie, peerPort) ∧ !(die == 0 && (peerDie, peerPort) == peerOf 0 p) then identityFault die p s
  else if (endOf s die p).peer.isSome then s
  else settleProposals die p (modEnd die p (fun e => { e with peer := some (width, map) }) s)

/-- Adopt a newer epoch that a sideband message carries (R404): the end restarts its part of the training at it. The next
epoch, received once both proposals of a first attempt are known, is the peer's second attempt (R407, step 4). -/
def adoptEpoch (die p epoch : Nat) (s : State) : State :=
  let e := endOf s die p
  if endState s die p = 1 ∧ e.attempt = 1 ∧ 8 ≤ e.target ∧ epoch = (endEpoch s die p + 1) % 65536 then
    secondAttempt die p (lowerWidth e.target) s
  else beginTraining die p epoch s

/-- Act on a sideband message in training (R403, R404): one of a newer epoch is adopted first, one of an older epoch is
discarded, and one of the end's own epoch goes to `act`. -/
def onSideband (die p epoch : Nat) (act : State → State) (s : State) : State :=
  let s1 := modEnd die p (fun e => { e with heard := now s, rxEpoch := newest e.rxEpoch epoch }) s
  if newer epoch (endEpoch s die p) then
    portChange (fun s =>
      let t := adoptEpoch die p epoch s
      if endState t die p = 1 then act t else t) s1
  else if epoch = endEpoch s die p then act s1
  else s

/-- TRAINING_PROPOSAL (R402, R404, R405, R407).
Log entry: 111 (DEDUCED). -/
def execTrainingProposal (die port epoch width map peerDie peerPort : Nat) (s : State) :
    Host.Outcome State Fault Refusal :=
  .next (if !mayTrain s die port then s
    else onSideband die port (epoch % 65536) (fun t =>
      if endState t die port = 1 then takeProposal die port width map peerDie peerPort t else t) s)

/-- FRAMING_CHECK_END (R407, step 3). -/
def execFramingCheckEnd (die port : Nat) (passed : Bool) (s : State) : Host.Outcome State Fault Refusal :=
  .next (
    let e := endOf s die port
    if isEnd die port ∧ endState s die port = 1 ∧ 8 ≤ e.target ∧ !e.sent then
      if passed then
        settleReady die port (send .mortarReady [linkOf die port, endEpoch s die port, e.target]
          (modEnd die port (fun e => { e with sent := true }) s))
      else if e.attempt = 1 then secondAttempt die port (lowerWidth e.target) s
      else portDown die port 0x2A s
    else s)

/-- Take a READY of the end's epoch, once (R404, R407). -/
def takeReady (die p width : Nat) (s : State) : State :=
  let e := endOf s die p
  if endState s die p = 1 ∧ width = e.target ∧ 8 ≤ e.target
  then settleReady die p (modEnd die p (fun e => { e with got := true }) s) else s

/-- TRAINING_READY (R404, R407).
Log entry: 111 (DEDUCED). -/
def execTrainingReady (die port epoch width : Nat) (s : State) : Host.Outcome State Fault Refusal :=
  .next (if !mayTrain s die port then s else onSideband die port (epoch % 65536) (takeReady die port width) s)

/-- SIDEBAND_SILENT (R408): nothing for 1 ms in training, or a sideband lane that has failed, which ends the training at
once. -/
def execSidebandSilent (die port : Nat) (failed : Bool) (s : State) : Host.Outcome State Fault Refusal :=
  .next (if isEnd die port ∧ endState s die port = 1 ∧ !(endOf s die port).peerTest then
    portDown die port 0x28 (if failed then s else passTo ((endOf s die port).heard + 1000000) s) else s)

/-! ## Flits -/

/-- The virtual channel of a flit.
Log entry: 182 (DEDUCED). -/
def flitVc (f : List Nat) : Nat := bits (f.getD 244 0) 0 2

/-- 64 B units of a flit's payload. -/
def flitUnits : Nat := 4

/-- Whether a flit's trailer holds only what R390 gives it: no reserved kind, and the reserved bits 0. No port sends
another. -/
def flitOk (f : List Nat) : Bool :=
  bits (f.getD 244 0) 2 2 != 3 && bits (f.getD 244 0) 4 4 == 0 && bits (fld f 249 3) 22 2 == 0

/-- Make the lane repairs of a sending end whose boundary the next flit is (R397). -/
def sendMoves (e : PortEnd) : PortEnd :=
  { e with txLanes := (e.txMoves.filter (fun m => m.1 == e.txNext)).foldl (fun l m => setBit (setBit l m.2.1 false) m.2.2 true) e.txLanes
           txMoves := e.txMoves.filter (fun m => m.1 != e.txNext) }

/-- The sending of a flit by the end that sends it (R393, R395): a new one takes its credits and a place in the replay
buffer of 32; whether it can have been sent.
Log entries: 113 (DESIGN CHOICE), 182 (DEDUCED). -/
def flitSent (e : PortEnd) (f : List Nat) : Option PortEnd :=
  if !flitOk f then none
  else if fld f 240 2 = e.txNext then
    if 32 ≤ e.replay.length ∨ (flitData f ∧ e.credits.getD (flitVc f) 0 < flitUnits) then none
    else some { sendMoves e with
      txNext := (e.txNext + 1) % 65536, replay := e.replay ++ [f]
      credits := if flitData f then modAt e.credits (flitVc f) (· - flitUnits) else e.credits }
  else if e.replay.any (fun x => fld x 240 2 == fld f 240 2) then some e else none

/-- A flit taken in order with a good CRC: its acknowledgement and the credits that it returns (R390, R393).
Log entry: 113 (DESIGN CHOICE). -/
def flitTaken (e : PortEnd) (f : List Nat) : PortEnd :=
  let ack := fld f 242 2
  { e with rxNext := (e.rxNext + 1) % 65536, discarding := false,
           replay := e.replay.filter (fun x => newer (fld x 240 2) ack),
           credits := (List.range 4).map (fun v => satTo (e.credits.getD v 0 + f.getD (245 + v) 0) 96),
           held := if flitData f then modAt e.held (flitVc f) (· + flitUnits) else e.held }

/-- The receive buffer units that a flit's credits say have been freed, at the end that sent it.
Log entry: 113 (DESIGN CHOICE). -/
def creditsReturned (e : PortEnd) (f : List Nat) : PortEnd :=
  { e with held := (List.range 4).map (fun v => e.held.getD v 0 - f.getD (245 + v) 0) }

/-- The receive lanes that carry data once the repairs in work are made. -/
def dataAfter (s : State) (die p : Nat) : Nat :=
  (endOf s die p).moves.foldl (fun l m => setBit (setBit l m.2.1 false) m.2.2 true) (endData s die p)

/-- The boundary that a repair message names (R397): the number that follows the 32 flits that may be on their way, so
that the sender has not passed it when the message arrives. -/
def repairBoundary (e : PortEnd) : Nat := (e.rxNext + 32) % 65536

/-- Fail one receive lane (R396 to R398): its data moves to the lowest good unused lane at the boundary that the repair
message names, or the port trains. -/
def failLane (die p lane : Nat) (s : State) : State :=
  let good1 := setBit (endGood s die p) lane false
  let data := dataAfter s die p
  if !bit data lane then s
  else match (List.range 22).find? (fun l => bit good1 l && !bit data l) with
    | some r =>
      let at_ := repairBoundary (endOf s die p)
      event 0x0820 die 0xFF (linkOf die p) 0 [lane, r]
        (send .mortarRepair [linkOf die p, endEpoch s die p, lane, r, at_]
          (incSat (endField die MTR_REPAIR_COUNT.repairs MTR_HUB_REPAIR_COUNT.repairs) (endOff die p) 1
            (modEnd die p (fun e => { e with moves := e.moves ++ [(at_, lane, r)] }) (wrGood die p good1 s))))
    | none => portChange (startTraining die p) (wrGood die p good1 s)

/-- Make the lane repairs of a receiving end whose boundary the next flit is (R397). -/
def receiveMoves (die p : Nat) (s : State) : State :=
  let e := endOf s die p
  let due := e.moves.filter (fun m => m.1 == e.rxNext)
  if due.isEmpty then s
  else modEnd die p (fun e => { e with moves := e.moves.filter (fun m => m.1 != e.rxNext) })
    (wrData die p (due.foldl (fun l m => setBit (setBit l m.2.1 false) m.2.2 true) (endData s die p)) s)

/-- The parity misses of a lane within the last ms. -/
def laneMisses (e : PortEnd) (t lane : Nat) : Nat := countIf e.parity (fun x => x.1 == lane && decide (t < x.2 + 1000000))

/-- Count parity misses and fail the lanes that have more than 16 in 1 ms, or whose eye is below its limit (R396).
Log entry: 113 (DESIGN CHOICE). -/
def judgeLanes (die p badParity badEye : Nat) (s : State) : State :=
  let t := now s
  let miss := (List.range 22).filter (fun l => bit badParity l && bit (endData s die p) l)
  let s1 := modEnd die p (fun e => { e with
    parity := e.parity.filter (fun x => decide (t < x.2 + 1000000)) ++ miss.map (fun l => (l, t)) }) s
  ((List.range 22).filter (fun l => decide (16 < laneMisses (endOf s1 die p) t l) || bit badEye l)).foldl (fun s l =>
    if endState s die p = 2 then failLane die p l s else s) s1

/-- Resend the unacknowledged flits from a number on (R395). -/
def replayFrom (die p seq : Nat) (s : State) : State :=
  ((endOf s die p).replay.filter (fun f => fld f 240 2 == seq || newer (fld f 240 2) seq)).foldl
    (fun s f => send .mortarReplay ([linkOf die p] ++ f) s)
    (incSat (endField die MTR_REPLAY_COUNT.replays MTR_HUB_REPLAY_COUNT.replays) (endOff die p) 1 s)

/-- A flit that an end takes in order: its lane repairs, its acknowledgement and credits, and, where it is a replay
request (R390), the resending of what follows the last flit that its `ack` names. -/
def takeFlit (die p : Nat) (flit : List Nat) (s : State) : State :=
  let q := peerOf die p
  let s1 := receiveMoves die p s
  let s2 := modEnd q.1 q.2 (fun e => creditsReturned e flit) (modEnd die p (fun e => flitTaken e flit) s1)
  if bits (flit.getD 244 0) 2 2 = 2 then replayFrom die p ((fld flit 242 2 + 1) % 65536) s2 else s2

/-- Ask for a replay from the next number (R395). -/
def askReplay (die p : Nat) (s : State) : State :=
  send .mortarReplay [linkOf die p, (endOf s die p).rxNext] (modEnd die p (fun e => { e with discarding := true }) s)

/-- The message of a flit of data that leaves a die is no longer one to be sent again (R411).
Log entry: 112 (DEDUCED). -/
def resent (die : Nat) (f : List Nat) (s : State) : State :=
  if flitData f then
    { s with mortar := { s.mortar with resend := match s.mortar.resend.find? (fun m => m.die == die && m.payload == slice f 0 240) with
      | some m => s.mortar.resend.erase m
      | none => s.mortar.resend } }
  else s

/-- Whether a flit of data leaves a die while messages to the same destination that went before it wait to be sent again
(R411).
Log entry: 112 (DEDUCED). -/
def outOfTurn (s : State) (die dest : Nat) (f : List Nat) : Bool :=
  flitData f && (match s.mortar.resend.find? (fun m => m.die == die && m.dest == dest) with
    | some _ => !s.mortar.resend.any (fun m => m.die == die && m.payload == slice f 0 240)
    | none => false)

/-- FLIT_RECEIVE (R390, R393 to R397): the flit as the peer sent it; `garbled` says that it arrived with a bad CRC,
`parity` is the parity of the bits received on each lane, which the flit's lane_parity is compared with, and `badEye`
the lanes whose eye margin is below its limit. Of the flits that fail in order each asks for a replay, a resent one
again; those that follow a discarded one are discarded too.
Log entries: 113 (DESIGN CHOICE), 182 (DEDUCED). -/
def execFlitReceive (die port : Nat) (flit : List Nat) (garbled : Bool) (parity badEye : Nat) (s : State) :
    Host.Outcome State Fault Refusal :=
  .next (if !isEnd die port ∨ endState s die port ≠ 2 then s
    else
      let q := peerOf die port
      match flitSent (endOf s q.1 q.2) flit with
      | none => s
      | some e =>
        if outOfTurn s q.1 die flit then s
        else
          let s1 := resent q.1 flit (modEnd q.1 q.2 (fun _ => e) s)
          let x := endOf s1 die port
          let s2 :=
            if garbled ∨ crc32c (slice flit 0 252) ≠ fld flit 252 4 then
              (if x.discarding ∧ fld flit 240 2 ≠ x.rxNext then s1 else askReplay die port s1)
            else if fld flit 240 2 ≠ x.rxNext then (if x.discarding then s1 else askReplay die port s1)
            else takeFlit die port flit s1
          judgeLanes die port (fld flit 249 3 ^^^ parity) badEye s2)

/-- REPLAY_REQUEST (R395): the sender resends its unacknowledged flits from the one named on. -/
def execReplayRequest (die port seq : Nat) (s : State) : Host.Outcome State Fault Refusal :=
  .next (if isEnd die port ∧ endState s die port = 2 then replayFrom die port seq s else s)

/-- LANE_REPAIR_MESSAGE (R397): the sending end moves a failed lane's data, at once where its next flit is the boundary
or the boundary is past, else when it comes to it; a message of an older epoch is discarded and one of a newer epoch
adopted (R404).
Log entry: 111 (DEDUCED). -/
def execLaneRepairMessage (die port epoch lane replacement boundary : Nat) (s : State) : Host.Outcome State Fault Refusal :=
  .next (if isEnd die port ∧ endState s die port = 2 ∧ replacement < 22 then
    onSideband die port (epoch % 65536) (fun t =>
      let e := endOf t die port
      if endState t die port = 2 ∧ bit e.txLanes lane ∧ !e.txMoves.any (fun m => m.2.1 == lane) then
        incSat (endField die MTR_REPAIR_COUNT.repairs MTR_HUB_REPAIR_COUNT.repairs) (endOff die port) 1
          (if newer (boundary % 65536) e.txNext then
            modEnd die port (fun e => { e with txMoves := e.txMoves ++ [(boundary % 65536, lane, replacement)] }) t
          else modEnd die port (fun e => { e with txLanes := setBit (setBit e.txLanes lane false) replacement true }) t)
      else t) s
    else s)

/-! ## Loopback and the commit -/

/-- The staged or committed fields of one port end. -/
def endStg (s : State) (die p : Nat) (f h : Field) : Nat := stg s (endField die f h) (endOff die p)

/-- The port ends of a die. -/
def endsOf (die : Nat) : List Nat := if die = 0 then [0, 1, 2, 3] else [0, 1, 2]

/-- The port ends of a die whose staged loopback is set. -/
def loopbacks (s : State) (die : Nat) : List Nat :=
  (endsOf die).filter (fun p => endStg s die p MTR_PORT_CTRL.loopback MTR_HUB_PORT_CTRL.loopback == 1)

/-- Every port end of the package. -/
def allEnds : List (Nat × Nat) := [0, 1, 2, 3, 4].flatMap (fun d => (endsOf d).map (fun p => (d, p)))

/-- Whether taking a port down leaves some die without a route to the Hearth (R422). -/
def wouldIsolate (s : State) (die p : Nat) : Bool := [1, 2, 3, 4].any (fun n => !reach (wrState die p 3 s) 0 n)

/-- Whether a loopback of a port is refused (R422).
Log entry: 114 (DEDUCED). -/
def loopbackBad (s : State) (die p : Nat) : Bool :=
  wouldIsolate s die p || allEnds.any (fun e => e != (die, p) && endState s e.1 e.2 == 3)
    || decide (1 < (loopbacks s die).length)

/-- Set the result of a loopback commit (R428). -/
def testStatus (die p status done : Nat) (s : State) : State :=
  wrEnd die p MTR_TEST_STATUS.done MTR_HUB_TEST_STATUS.done done
    (wrEnd die p MTR_TEST_STATUS.status MTR_HUB_TEST_STATUS.status status s)

/-- Lane error counts of a port end, all cleared or added to. -/
def laneErrors (die p : Nat) (f : Nat → Nat → Nat) (s : State) : State :=
  (List.range 6).foldl (fun s w =>
    let fd := endField die MTR_LANE_ERR.errors MTR_HUB_LANE_ERR.errors
    let at_ := endOff die p + 4 * w
    let old := rd s fd at_
    wr fd at_ (sumNat ((List.range 4).map (fun j =>
      if 4 * w + j < 22 then satTo (f (4 * w + j) (bits old (8 * j) 8)) 255 * 2 ^ (8 * j) else 0))) s) s

/-- Put a port under test (R421): drained, down, the peer held in training.
Log entries: 114 (DEDUCED), 115 (DEDUCED). -/
def startTest (die p : Nat) (s : State) : State :=
  let ms := com s (endField die MTR_PORT_CTRL.test_ms MTR_HUB_PORT_CTRL.test_ms) (endOff die p)
  let q := peerOf die p
  portChange (fun s =>
    let s1 := resendUnacked die p (wrData die p 0 (wrWidth die p 0 (wrState die p 3 s)))
    let s2 := modEnd die p (fun e => { e.idle with testEnd := some (now s + ms * 1000000) }) s1
    let s3 := laneErrors die p (fun _ _ => 0) (testStatus die p 0 0 s2)
    modEnd q.1 q.2 (fun e => { e with peerTest := true }) (startTraining q.1 q.2 s3)) s

/-- The staged port fields of a die (R428). -/
def mtrFields (die : Nat) : List (Field × Nat) :=
  (endsOf die).flatMap (fun p => [(endField die MTR_PORT_CTRL.loopback MTR_HUB_PORT_CTRL.loopback, endOff die p),
    (endField die MTR_PORT_CTRL.test_ms MTR_HUB_PORT_CTRL.test_ms, endOff die p)])

/-- Window offset of a port end's MTR_PORT_CTRL. -/
def ctrlOffset (die p : Nat) : Nat := if die = 0 then 0xC0010C + p * 0x40 else 0x34010C + p * 0x40

/-- Whether a commit that asks for a loopback of all three ports of a Course die is the debug port's request for the
stand-alone test (R420): only while the joint unlock has opened the port for the die (R698).
Log entry: 114 (DEDUCED). -/
def standAlone (s : State) (die : Nat) : Bool :=
  decide (1 ≤ die) && bit s.key.unlocked die && (loopbacks s die).length == 3

/-- The stand-alone test of a Course die (R419, R420): near-end loopback on its three logical ports and on the unused
one, each cleared of the errors of the last test. The peers see the links lost.
Log entry: 114 (DEDUCED). -/
def startAlone (die : Nat) (s : State) : State :=
  let s1 := [0, 1, 2].foldl (fun s p => startTest die p s) s
  { s1 with mortar := { s1.mortar with alone := aput s1.mortar.alone die (List.replicate 22 0) } }

/-- Put the result of a commit into the status of the ports for which a loopback was asked (R428, R769). -/
def loopResult (die : Nat) (ports : List Nat) (s : State) : State :=
  let st := rd s FAB_COMMIT_STATUS.status (dieBase die)
  if st = 0 then s
  else ports.foldl (fun s p => wrEnd die p MTR_TEST_STATUS.status MTR_HUB_TEST_STATUS.status st s) s

/-- A write to a die's MTR_COMMIT (R422, R428): a test_ms outside 1 to 10,000 is refused first, then a loopback under
R422; an accepted one starts the test that it asks for.
Log entry: 114 (DEDUCED). -/
def mtrCommit (die value : Nat) (s : State) : State :=
  let off := if die = 0 then 0xC0003C else 0x34003C
  let badMs := (endsOf die).find? (fun p =>
    let t := endStg s die p MTR_PORT_CTRL.test_ms MTR_HUB_PORT_CTRL.test_ms
    t == 0 || decide (10000 < t))
  let alone := standAlone s die
  let badLoop := if alone then none else (loopbacks s die).find? (loopbackBad s die)
  let s1 := commit die off value
    [(badMs.isSome, (0x0002, ctrlOffset die (badMs.getD 0))), (badLoop.isSome, (0x0801, ctrlOffset die (badLoop.getD 0)))]
    (fun s =>
      let c := acceptStaged (mtrFields die) s
      if alone then startAlone die c else (loopbacks c die).foldl (fun s p => startTest die p s) c) s
  if value % 2 = 1 then loopResult die (loopbacks s die) s1 else s1

/-- MTR_LOOPBACK_COMMIT (R421): a commit with a loopback request staged. -/
def execMtrLoopbackCommit (die value : Nat) (s : State) : Host.Outcome State Fault Refusal :=
  .next (if die ≤ 4 ∧ !(loopbacks s die).isEmpty then ifReached die (mtrCommit die value) s else s)

/-- MTR_COMMIT (R428). -/
def execMtrCommit (die value : Nat) (s : State) : Host.Outcome State Fault Refusal :=
  .next (if die ≤ 4 then ifReached die (mtrCommit die value) s else s)

/-- The end of the test of the unused port of a Course die in stand-alone test mode (R420): its lanes' errors, which no
register shows. -/
def aloneEnd (die : Nat) (errors : List Nat) (s : State) : State :=
  match s.mortar.alone.find? (fun e => e.1 == die) with
  | some e =>
    let seen := (List.range 22).map (fun l => satTo (e.2.getD l 0 + errors.getD l 0) 255)
    { s with mortar := { s.mortar with alone := aput s.mortar.alone die seen } }
  | none => s

/-- LOOPBACK_TEST_END (R410, R419, R421): `errors` are the bit errors counted on each logical lane; the port, which was
declared down, trains under a new epoch, and its peer is released. Port 3 of a Course die is its unused port in
stand-alone test mode (R420).
Log entry: 115 (DEDUCED). -/
def execLoopbackTestEnd (die port : Nat) (errors : List Nat) (s : State) : Host.Outcome State Fault Refusal :=
  .next (if 1 ≤ die ∧ die ≤ 4 ∧ port = 3 then aloneEnd die errors s
    else match (endOf s die port).testEnd with
    | none => s
    | some t =>
      if isEnd die port ∧ endState s die port = 3 then
        let s1 := passTo t s
        let q := peerOf die port
        let s2 := laneErrors die port (fun l old => old + errors.getD l 0) (testStatus die port 0 1 s1)
        let s3 := modEnd q.1 q.2 (fun e => { e with peerTest := false, heard := now s1 }) s2
        startTraining die port s3
      else s)

end Sys2Proof.Machine
end

