-- ==== Sys2Proof/Machine/Budget.lean ====
section
/-! DEFINITION. The power-budget messages between the Hearth and the Course dies (R423 to R426, R653, R659, R671). Powers
are in 0.25 W. -/

namespace Sys2Proof.Machine

open Reg

/-- What the Hearth and die n hold of the die's budget. -/
def budgetOf (s : State) (n : Nat) : DieBudget := aget s.mortar.budgets n {}

/-- Change the budget of die n. -/
def modBudget (n : Nat) (f : DieBudget → DieBudget) (s : State) : State :=
  { s with mortar := { s.mortar with budgets := aset s.mortar.budgets n (f (budgetOf s n)) {} } }

/-- The power agent of die n. -/
def agentOf (s : State) (n : Nat) : PowerAgent := aget s.power.agents n {}

/-- Change the power agent of die n. -/
def modAgent (n : Nat) (f : PowerAgent → PowerAgent) (s : State) : State :=
  { s with power := { s.power with agents := aset s.power.agents n (f (agentOf s n)) {} } }

/-- The effective clock of a set point in MHz with s of 64 edges suppressed (R651). -/
def PowerAgent.clk (a : PowerAgent) : Nat := a.setMhz * (64 - a.stretch) / 64

/-! ## What each die is to have -/

/-- Core budget of one die in 0.25 W: (C − 140 W) / 4 (R653). -/
def coreShare (s : State) : Nat := com s PWR_PKG_CAP.cap_w - 140

/-- A round of R659's division: the budget over the dies in proportion, with the dies already fixed kept.
Log entry: 117 (DEDUCED). -/
def divideRound (total : Nat) (core : List Nat) (fixed : List (Option Nat)) : List (Option Nat) × List Nat :=
  let used := sumNat (fixed.map (fun x => x.getD 0))
  let openSum := sumNat ((core.zip fixed).map (fun e => if e.2.isSome then 0 else e.1))
  let shares := (core.zip fixed).map (fun e => match e.2 with
    | some v => v
    | none => (total - used) * e.1 / max 1 openSum)
  ((shares.zip fixed).map (fun e => match e.2 with
    | some v => some v
    | none => if e.1 < 20 then some 20 else if 340 < e.1 then some 340 else none), shares)

/-- Divide a core budget among the dies in proportion to a forecast entry, none above 85 W or below 5 W (R659): a die
whose share leaves that range is fixed at its end, and the rest is divided again.
Log entry: 117 (DEDUCED). -/
def divideCore (total : Nat) (core : List Nat) : List Nat :=
  let a := divideRound total core [none, none, none, none]
  let b := divideRound total core a.1
  let c := divideRound total core b.1
  let d := divideRound total core c.1
  (divideRound total core d.1).2

/-- The forecast entry that covers a Dial time. -/
def entryAt (s : State) (t : Nat) : Option FcEntry :=
  s.power.forecast.find? (fun e => e.start ≤ t && decide (t < e.start + e.lengthUs * 1000))

/-- Core caps of dies 1 to 4 at a Dial time outside the limp profile (R653, R659). -/
def coreTargetsAt (s : State) (t : Nat) : List Nat :=
  match entryAt s t with
  | some e => if 4 * coreShare s < sumNat e.core then divideCore (4 * coreShare s) e.core
    else List.replicate 4 (coreShare s)
  | none => List.replicate 4 (coreShare s)

/-- How many Courses of die n the Watches of critical contexts name (R671). -/
def criticalCourses (s : State) (n : Nat) : Nat :=
  match s.day.active with
  | none => 0
  | some p => countIf (List.range 16) (fun k => p.watches.any (fun w =>
      bit w.mask ((n - 1) * 16 + k) && decide (w.ctx < 64) && bit (p.policy.getD w.ctx (0, 0)).2 2))

/-- Core caps under the limp profile (R671): 25 W. -/
def limpTargets (s : State) : List Nat :=
  let counts := [1, 2, 3, 4].map (criticalCourses s)
  let rest := 100 - 4 * countIf counts (· == 0)
  counts.map (fun k => if k = 0 then 4 else rest * k / max 1 (sumNat counts))

/-- The caps that die n is to have: the least core cap of now and of the entries that begin within 300 µs, so that a
lowered grant is sent at least 200 µs before its interval (R659).
Log entry: 117 (DEDUCED). -/
def capTarget (s : State) (n : Nat) : Nat × Nat :=
  if rdB s PWR_STATUS.limp then ((limpTargets s).getD (n - 1) 0, 10)
  else
    let soon := (s.power.forecast.filter (fun e => decide (dial s < e.start) && decide (e.start ≤ dial s + 300000))).map (·.start)
    let l := (dial s :: soon).map (fun t => (coreTargetsAt s t).getD (n - 1) 0)
    (l.foldl min (coreShare s + 340), 80)

/-! ## Grants and reports -/

/-- The 32 bytes of a sideband message (R423): 30 of contents, then the CRC-16 of them, whose polynomial is not stated.
-/
def sideband (body : List Nat) : List Nat := padTo 30 body ++ leBytes 2 (Config.crc16 (padTo 30 body))

/-- The bytes of a grant, type 0x10 (R423). -/
def grantBytes (g : Grant) : List Nat :=
  sideband ([0x10, g.seq % 256] ++ leBytes 8 g.dial ++ leBytes 2 g.core ++ leBytes 2 g.hbm ++ leBytes 2 g.floor ++ [b2n g.limp, 0])

/-- The bytes of a report, type 0x11 (R423). -/
def budgetBytes (r : GrantReport) : List Nat :=
  sideband ([0x11, r.seq % 256] ++ leBytes 8 r.dial ++ leBytes 2 r.coreAvg ++ leBytes 2 r.hbmAvg ++ leBytes 2 r.clk
    ++ [enc r.tj 8, b2n r.capApplied + 2 * b2n r.belowFloor])

/-- Send a grant to die n over the first route up (R423); without a route none is sent (R412).
Log entry: 116 (DEDUCED). -/
def sendGrant (n core hbm : Nat) (s : State) : State :=
  if reach s 0 n then
    let b := budgetOf s n
    let limp := rdB s PWR_STATUS.limp
    let g : Grant := { die := n, seq := (b.seq + 1) % 256, dial := dial s, core := core, hbm := hbm,
                       floor := if limp then 0 else (s.day.active.map (·.gclk)).getD 0, limp := limp }
    let s1 := modBudget n (fun b => { b with seq := g.seq, granted := (core, hbm) }) s
    send .budgetGrant (n :: grantBytes g)
      { s1 with mortar := { s1.mortar with grants := s1.mortar.grants ++ [g] } }
  else s

/-- The caps at which the Hearth counts a die: those reported applied, or, for one that has sent no report for 500 µs,
the last granted (R425, R426). -/
def DieBudget.counted (b : DieBudget) : Nat × Nat := if b.silent then b.granted else b.applied

/-- The sum of the caps at which the Hearth counts the dies (R425).
Log entry: 116 (DEDUCED). -/
def appliedSum (s : State) : Nat :=
  sumNat ([1, 2, 3, 4].map (fun n => (budgetOf s n).counted.1 + (budgetOf s n).counted.2))

/-- The grant of die n at a grant period (R425): a reduction at once, a raise only where the caps reported applied leave
room within 468 W, else the present caps again.
Log entry: 116 (DEDUCED). -/
def grantDie (s : State) (n : Nat) : State :=
  let g := (budgetOf s n).granted
  let t := capTarget s n
  let low := (min g.1 t.1, min g.2 t.2)
  let raise := (t.1 - low.1) + (t.2 - low.2)
  if appliedSum s + raise ≤ 1872 then sendGrant n t.1 t.2 s else sendGrant n low.1 low.2 s

/-- BUDGET_GRANT_PERIOD (R423): every 100 µs. -/
def execBudgetGrantPeriod (s : State) : Host.Outcome State Fault Refusal :=
  .next (if s.mode = .run then [1, 2, 3, 4].foldl grantDie s else s)

/-- The mean of the samples of the last 100 µs, one every 100 ns, newest first (R423). -/
def meanOf (l : List Nat) : Nat := sumNat (l.take 1000) / max 1 (min 1000 l.length)

/-- Whether a grant's caps lie in the ranges of R423. -/
def grantOk (g : Grant) : Bool := decide (g.core ≤ 340) && decide (g.hbm ≤ 80)

/-- BUDGET_GRANT (R424): die n receives its oldest grant, applies it, and sends its report; a grant out of range is
ignored and counted as missing (R426).
Log entry: 118 (DEDUCED). -/
def execBudgetGrant (die : Nat) (s : State) : Host.Outcome State Fault Refusal :=
  .next (match s.mortar.grants.find? (fun g => g.die == die) with
    | none => s
    | some g =>
      let s1 := { s with mortar := { s.mortar with grants := s.mortar.grants.erase g } }
      if !(1 ≤ die ∧ die ≤ 4) then s1
      else if !grantOk g then incSat MTR_MISS_COUNT.missed (dieBase die) 1 s1
      else
        let s2 := wr MTR_BUDGET.core_cap (dieBase die) g.core (wr MTR_BUDGET.hbm_cap (dieBase die) g.hbm
          (modBudget die (fun b => { b with grantAt := now s1, fallback := false, floor := g.floor, limp := g.limp }) s1))
        let a := agentOf s2 die
        let r : GrantReport := { die := die, seq := g.seq, dial := dial s2, core := g.core, hbm := g.hbm,
                                 coreAvg := meanOf a.coreLog, hbmAvg := meanOf a.hbmLog, clk := a.clk, tj := a.tj,
                                 capApplied := a.capApplied, belowFloor := a.belowFloor }
        send .budgetReport (die :: budgetBytes r)
          (modAgent die (fun a => { a with belowFloor := false })
            { s2 with mortar := { s2.mortar with reports := s2.mortar.reports ++ [r] } }))

/-- BUDGET_REPORT (R425): the Hearth receives the oldest report of a die; a clock below its floor raises event 0x0E20
once per die (R656). Raised grants that it allows go with the next period.
Log entry: 118 (DEDUCED). -/
def execBudgetReport (die : Nat) (s : State) : Host.Outcome State Fault Refusal :=
  .next (match s.mortar.reports.find? (fun r => r.die == die) with
    | none => s
    | some r =>
      let s1 := { s with mortar := { s.mortar with reports := s.mortar.reports.erase r } }
      let first := r.belowFloor && !(budgetOf s1 die).raised
      let s2 := modBudget die (fun b => { b with
        applied := (r.core, r.hbm), silent := false, reportAt := now s1, coreAvg := r.coreAvg, hbmAvg := r.hbmAvg
        raised := b.raised || r.belowFloor }) s1
      if first then event 0x0E20 0 0xFF die 2 [] s2 else s2)

/-- GRANT_TIMEOUT (R426): no valid grant for 500 µs; the die caps itself and raises event 0x0826. -/
def execGrantTimeout (die : Nat) (s : State) : Host.Outcome State Fault Refusal :=
  .next (if 1 ≤ die ∧ die ≤ 4 ∧ s.mode = .run ∧ !(budgetOf s die).fallback then
    let s1 := passTo ((budgetOf s die).grantAt + 500000) s
    let core := min (rd s1 MTR_BUDGET.core_cap (dieBase die)) 85
    let hbm := min (rd s1 MTR_BUDGET.hbm_cap (dieBase die)) 20
    event 0x0826 die 0xFF die 1 []
      (incSat MTR_MISS_COUNT.missed (dieBase die) 1 (wr MTR_BUDGET.core_cap (dieBase die) core
        (wr MTR_BUDGET.hbm_cap (dieBase die) hbm (modBudget die (fun b => { b with fallback := true }) s1))))
    else s)

/-- REPORT_TIMEOUT (R426): no report for 500 µs; the die counts at its last granted caps. -/
def execReportTimeout (die : Nat) (s : State) : Host.Outcome State Fault Refusal :=
  .next (if 1 ≤ die ∧ die ≤ 4 ∧ s.mode = .run then
    let s1 := passTo ((budgetOf s die).reportAt + 500000) s
    modBudget die (fun b => { b with applied := b.granted, silent := true }) s1
    else s)

end Sys2Proof.Machine
end

