-- ==== Sys2Proof/Machine/Elementary.lean ====
section
/-! DEFINITION. Exact fractions and elementary functions to far more places than any rounding of the spec needs:
a function's value is a fraction within 2^−600 of the true one, so that rounding it once gives the correctly rounded
result that R122 asks for. -/

namespace Sys2Proof.Machine

/-- A finite real number: sign, numerator, denominator (not 0). Zero keeps its sign. -/
structure Frac where
  neg : Bool := false
  num : Nat := 0
  den : Nat := 1
  deriving DecidableEq, Repr

/-- Whether two fractions are equal as numbers, −0 equal to +0. -/
def Frac.eq (a b : Frac) : Bool :=
  a.num * b.den == b.num * a.den && (a.num == 0 || a.neg == b.neg)

/-- The value of a fraction as an integer over its denominator. -/
def Frac.int (a : Frac) : Int := if a.neg then -(a.num : Int) else a.num

/-- A fraction from an integer over a denominator; a zero is +0. -/
def fracOf (n : Int) (d : Nat) : Frac := ⟨decide (n < 0), n.natAbs, d⟩

/-- Sum of fractions; an exact zero sum is +0 unless both terms are −0. -/
def Frac.add (a b : Frac) : Frac :=
  let n := a.int * b.den + b.int * a.den
  if n = 0 then ⟨a.neg && b.neg && a.num == 0, 0, 1⟩ else fracOf n (a.den * b.den)

/-- A fraction with its sign changed. -/
def Frac.opp (a : Frac) : Frac := { a with neg := !a.neg }

/-- Product of fractions. -/
def Frac.mul (a b : Frac) : Frac := ⟨a.neg != b.neg, a.num * b.num, a.den * b.den⟩

/-- Quotient of fractions, the divisor not 0. -/
def Frac.div (a b : Frac) : Frac := ⟨a.neg != b.neg, a.num * b.den, a.den * b.num⟩

/-- Whether a is below b as a number. -/
def Frac.lt (a b : Frac) : Bool := decide (a.int * b.den < b.int * a.den)

/-- Whether a is at most b as a number. -/
def Frac.le (a b : Frac) : Bool := decide (a.int * b.den ≤ b.int * a.den)

/-- The largest integer at or below a fraction. -/
def Frac.floor (a : Frac) : Int := a.int / a.den

/-- A natural as a fraction. -/
def fracNat (n : Nat) : Frac := ⟨false, n, 1⟩

/-- Floor of the square root, by bits from the top. -/
def sqrtGo (n : Nat) : Nat → Nat → Nat
  | 0, r => r
  | k + 1, r => if (r + 2 ^ k) * (r + 2 ^ k) ≤ n then sqrtGo n k (r + 2 ^ k) else sqrtGo n k r

/-- Floor of the square root of n. -/
def isqrt (n : Nat) : Nat := sqrtGo n (Nat.log2 n / 2 + 1) 0

/-- Places after the point of the fixed-point numbers below. -/
def fixP : Nat := 800

/-- One in fixed point. -/
def fixOne : Nat := 2 ^ fixP

/-- Square root of num / den, to 2^−700 beneath the true value and never above it; one unit is added below the last
place when the root is not exact, so that no rounding takes it for exact.
Log entry: 58 (PRESUMED). -/
def sqrtFrac (num den : Nat) : Frac :=
  let m := num * den * 2 ^ (2 * fixP)
  let r := isqrt m
  if r * r = m then ⟨false, r, den * fixOne⟩ else ⟨false, 2 * r + 1, 2 * den * fixOne⟩

/-- The sum of y^i / i! from term i on, in fixed point, `t` the present term. -/
def expTerms (y : Nat) : (fuel i t acc : Nat) → Nat
  | 0, _, _, acc => acc
  | f + 1, i, t, acc => expTerms y f (i + 1) (t * y / fixOne / (i + 1)) (acc + t)

/-- A number squared n times in fixed point. -/
def squareTimes : Nat → Nat → Nat
  | 0, v => v
  | n + 1, v => squareTimes n (v * v / fixOne)

/-- e^(num / den) in fixed point, for num / den at most 256. -/
def expFix (num den : Nat) : Nat :=
  squareTimes 10 (expTerms (num * fixOne / (den * 1024)) 160 0 fixOne 0)

/-- e^x. A magnitude above 256 lies beyond every format: a value beyond them stands for it.
Log entry: 58 (PRESUMED). -/
def expFrac (x : Frac) : Frac :=
  if x.num = 0 then ⟨false, 1, 1⟩
  else if 256 * x.den < x.num then (if x.neg then ⟨false, 1, 2 ^ 360⟩ else ⟨false, 2 ^ 360, 1⟩)
  else if x.neg then ⟨false, fixOne, expFix x.num x.den⟩ else ⟨false, expFix x.num x.den, fixOne⟩

/-- 1 / (1 + e^−x).
Log entry: 58 (PRESUMED). -/
def logisticFrac (x : Frac) : Frac :=
  let e := expFrac x
  ⟨false, e.num, e.num + e.den⟩

/-- tanh x = (e^2x − 1) / (e^2x + 1).
Log entry: 58 (PRESUMED). -/
def tanhFrac (x : Frac) : Frac :=
  if x.num = 0 then x
  else
    let e := expFrac ⟨false, 2 * x.num, x.den⟩
    ⟨x.neg, e.num - e.den, e.num + e.den⟩

/-- Terms of an alternating or plain series v^(2i+1) / c(i) in fixed point, for arctan: v, v³/3, v⁵/5 and so on. -/
def atanTerms (v2 : Nat) : (fuel i t : Nat) → (pos neg : Nat) → Nat
  | 0, _, _, p, n => p - n
  | f + 1, i, t, p, n =>
    let u := t / (2 * i + 1)
    if i % 2 = 0 then atanTerms v2 f (i + 1) (t * v2 / fixOne) (p + u) n
    else atanTerms v2 f (i + 1) (t * v2 / fixOne) p (n + u)

/-- arctan of a fixed-point number of at most 1/4. -/
def atanSmall (v : Nat) : Nat := atanTerms (v * v / fixOne) 220 0 v 0 0

/-- Half-angle steps: arctan v = 2 arctan (v / (1 + sqrt (1 + v²))). -/
def atanHalve (v : Nat) : Nat := v * fixOne / (fixOne + isqrt (fixOne * fixOne + v * v))

/-- arctan of a fixed-point number that is at most 1. -/
def atanFix (v : Nat) : Nat := 4 * atanSmall (atanHalve (atanHalve v))

/-- π in fixed point. -/
def piFix : Nat := 4 * atanFix fixOne

/-- arctan (y / x) for y, x at or above 0, not both 0, in fixed point. -/
def atanRatio (y x : Nat) : Nat :=
  if y ≤ x then atanFix (y * fixOne / x) else piFix / 2 - atanFix (x * fixOne / y)

/-- atan2 (y, x) in radians; 0 for (0, 0). -/
def atan2Frac (y x : Frac) : Frac :=
  let a := y.num * x.den
  let b := x.num * y.den
  if a = 0 ∧ b = 0 then ⟨false, 0, 1⟩
  else
    let t := atanRatio a b
    ⟨y.neg && y.num != 0, if x.neg then piFix - t else t, fixOne⟩

/-- Terms of the cosine and sine series for a fixed-point number of at most 2. -/
def trigTerms (y : Nat) : (fuel i t : Nat) → (c s : Int) → Int × Int
  | 0, _, _, c, s => (c, s)
  | f + 1, i, t, c, s =>
    let u := t * y / fixOne / (i + 1)
    let c' := if i % 4 = 0 then c + t else if i % 4 = 2 then c - t else c
    let s' := if i % 4 = 1 then s + t else if i % 4 = 3 then s - t else s
    trigTerms y f (i + 1) u c' s'

/-- Cosine and sine of a fraction, as fixed-point integers: the angle is first reduced by whole turns. -/
def cosSin (x : Frac) : Int × Int :=
  let y := (x.num * fixOne / x.den) % (2 * piFix)
  let quad := y / (piFix / 2)
  let r := y - quad * (piFix / 2)
  let cs := trigTerms r 200 0 fixOne 0 0
  let c := match quad % 4 with | 0 => cs.1 | 1 => -cs.2 | 2 => -cs.1 | _ => cs.2
  let s := match quad % 4 with | 0 => cs.2 | 1 => cs.1 | 2 => -cs.2 | _ => -cs.1
  (c, if x.neg then -s else s)

/-- cos x. -/
def cosFrac (x : Frac) : Frac := fracOf (cosSin x).1 fixOne

/-- sin x. -/
def sinFrac (x : Frac) : Frac := fracOf (cosSin x).2 fixOne

end Sys2Proof.Machine
end

