-- ==== Sys2Proof/Machine/Formats.lean ====
section
/-! DEFINITION. The operand formats, their decoding, rounding and conversion (R99 to R135). -/

namespace Sys2Proof.Machine

/-- An element's value: a finite number, an infinity, NaN, or the outlier marker (R104 to R110). -/
inductive Val where
  | fin (x : Frac)
  | inf (neg : Bool)
  | nan
  | marker
  deriving DecidableEq, Repr

/-- The arithmetic flags of R135, bit by bit. -/
def flagSaturation : Nat := 1
/-- Overflow (R135, bit 1). -/
def flagOverflow : Nat := 2
/-- Underflow (R135, bit 2). -/
def flagUnderflow : Nat := 4
/-- A NaN read or produced (R135, bit 3).
Log entry: 61 (DEDUCED). -/
def flagNan : Nat := 8
/-- A NaN written as 0 (R135, bit 4). -/
def flagSquashed : Nat := 16
/-- A marker lost (R135, bit 5). -/
def flagMarkerLost : Nat := 32

/-- Whether a format code is not reserved (R99). -/
def fmtOk (f : Nat) : Bool := decide (f < 12)

/-- Whether a code names a floating format. -/
def isFloat (f : Nat) : Bool := decide (f < 7)

/-- Whether a code names a Bell format. -/
def isBell (f : Nat) : Bool := f == 10 || f == 11

/-- Bits that one element takes in storage (R100 to R102). -/
def storeBits (f : Nat) : Nat :=
  match f with
  | 0 => 32
  | 1 | 2 | 7 => 16
  | 6 | 9 | 11 => 4
  | _ => 8

/-- Fraction bits of a floating format (R103). -/
def fracBits (f : Nat) : Nat := match f with | 0 => 23 | 1 => 7 | 2 => 10 | 3 => 3 | 4 => 2 | 5 => 2 | _ => 1

/-- Exponent bits of a floating format (R103). -/
def expBits (f : Nat) : Nat := match f with | 0 => 8 | 1 => 8 | 2 => 5 | 3 => 4 | 4 => 5 | 5 => 3 | _ => 2

/-- Bias of a floating format (R103). -/
def biasOf (f : Nat) : Nat := match f with | 0 => 127 | 1 => 127 | 2 => 15 | 3 => 7 | 4 => 15 | 5 => 3 | _ => 1

/-- Magnitudes of Bell-4 in 64ths (R108). -/
def bell4 : List Nat := [0, 4, 9, 15, 22, 32, 44, 64]

/-- Magnitudes of Bell-6 in 255ths (R109). -/
def bell6 : List Nat :=
  [0, 1, 3, 6, 10, 14, 18, 24, 29, 35, 42, 49, 56, 63, 71, 80, 89, 98, 107, 117, 126, 137, 147, 158, 169, 181, 192,
   204, 217, 229, 242, 255]

/-- 2^e as a fraction. -/
def pow2 (neg : Bool) (m : Nat) (e : Int) : Frac :=
  if 0 ≤ e then ⟨neg, m * 2 ^ e.toNat, 1⟩ else ⟨neg, m, 2 ^ (-e).toNat⟩

/-- The value of a magnitude code of a floating format: fields as R103 lays them out. -/
def floatVal (f : Nat) (neg : Bool) (m : Nat) : Val :=
  let fb := fracBits f
  let e := m / 2 ^ fb
  let fr := m % 2 ^ fb
  let top := 2 ^ expBits f - 1
  let ieee : Bool := f < 3 || f == 4
  if ieee ∧ e = top then (if fr = 0 then .inf neg else .nan)
  else if f = 3 ∧ m = 0x7F then .nan
  else if e = 0 then .fin (pow2 neg fr (1 - (biasOf f : Int) - fb))
  else .fin (pow2 neg (2 ^ fb + fr) ((e : Int) - biasOf f - fb))

/-- Decode an element (R99 to R110): a Bell element to its grid value, the marker to itself. -/
def decodeElem (f code : Nat) : Val :=
  match f with
  | 7 => .fin (fracOf (sext code 16) 1)
  | 8 => .fin (fracOf (sext code 8) 1)
  | 9 => .fin (fracOf (sext code 4) 1)
  | 10 =>
    if code % 64 = 0x20 then .marker else .fin ⟨bit code 5, bell6.getD (code % 32) 0, 255⟩
  | 11 =>
    if code % 16 = 8 then .marker else .fin ⟨bit code 3, bell4.getD (code % 8) 0, 64⟩
  | _ =>
    let w := 1 + expBits f + fracBits f
    floatVal f (bit code (w - 1)) (code % 2 ^ (w - 1))

/-- A Bell or integer element as the MAC array takes it: a signed integer, the marker 0 (R110, R113). -/
def macInt (f code : Nat) : Int :=
  match f with
  | 7 => sext code 16
  | 8 => sext code 8
  | 9 => sext code 4
  | 10 => if bit code 5 then -(bell6.getD (code % 32) 0 : Int) else bell6.getD (code % 32) 0
  | _ => if bit code 3 then -(bell4.getD (code % 8) 0 : Int) else bell4.getD (code % 8) 0

/-! ## Rounding -/

/-- Whether rounding takes the farther of two neighbours: `t` is the distance from the nearer-zero one, `u` the whole
distance, `loEven` whether that one's code is even, and r the random bits (R127 to R129). Modes: 0 nearest even,
1 toward zero, 2 stochastic. -/
def roundsUp (mode r t u : Nat) (loEven : Bool) : Bool :=
  match mode with
  | 0 => decide (u < 2 * t) || (2 * t == u && !loEven)
  | 2 => decide (t ≠ 0) && decide (r < 2 ^ 32 * t / u)
  | _ => false

/-- The largest integer e with 2^e at most num / den, num not 0. -/
def log2Frac (num den : Nat) : Int :=
  let e : Int := (Nat.log2 num : Int) - Nat.log2 den
  let below : Bool := if 0 ≤ e then decide (num < den * 2 ^ e.toNat) else decide (num * 2 ^ (-e).toNat < den)
  if below then e - 1 else e

/-- Round a positive magnitude to a floating grid of `fb` fraction bits and least normal exponent emin: the magnitude
code, counted as an exponent field and fraction that may run beyond the format's range.
Log entry: 59 (DEDUCED). -/
def roundGrid (fb : Nat) (emin : Int) (mode r num den : Nat) : Nat :=
  let q : Int := max (log2Frac num den) emin - fb
  let n := if 0 ≤ q then num else num * 2 ^ (-q).toNat
  let d := if 0 ≤ q then den * 2 ^ q.toNat else den
  let k := n / d
  let k' := if roundsUp mode r (n % d) d (k % 2 == 0) then k + 1 else k
  (q - (emin - fb)).toNat * 2 ^ fb + k'

/-- The code of the largest finite magnitude of a floating format (R103). -/
def maxCode (f : Nat) : Nat :=
  match f with
  | 0 => 0x7F7FFFFF
  | 1 => 0x7F7F
  | 2 => 0x7BFF
  | 3 => 0x7E
  | 4 => 0x7B
  | 5 => 0x1F
  | _ => 0x7

/-- The code of an infinity of a floating format; the largest finite magnitude where it has none. -/
def infCode (f : Nat) : Nat := match f with | 0 => 0x7F800000 | 1 => 0x7F80 | 2 => 0x7C00 | 4 => 0x7C | _ => maxCode f

/-- The code of a finite overflow to nearest or stochastic (R132): an infinity for the formats of 16 and 32 bits. -/
def overCode (f : Nat) : Nat := if f < 3 then infCode f else maxCode f

/-- The code of NaN, 0 where the format has none (R105, R132). -/
def nanCode (f : Nat) : Nat := match f with | 0 => 0x7FC00000 | 1 => 0x7FC0 | 2 => 0x7E00 | 3 => 0x7F | 4 => 0x7E | _ => 0

/-- The sign bit of a floating format. -/
def signBit (f : Nat) : Nat := 2 ^ (expBits f + fracBits f)

/-- The magnitude of a finite code as a fraction. -/
def finMag (f m : Nat) : Frac := match floatVal f false m with | .fin x => x | _ => {}

/-- Convert to a floating format (R132, R133): code and flags. -/
def toFloat (f mode r : Nat) (v : Val) : Nat × Nat :=
  match v with
  | .nan => (nanCode f, if nanCode f = 0 then flagNan + flagSquashed else flagNan)
  | .marker => (nanCode f, flagMarkerLost)
  | .inf neg => (infCode f + (if neg then signBit f else 0), 0)
  | .fin x =>
    let sg := if x.neg then signBit f else 0
    if x.num = 0 then (sg, 0)
    else if (finMag f (maxCode f)).lt ⟨false, x.num, x.den⟩ then
      ((if mode = 1 then maxCode f else overCode f) + sg, flagOverflow)
    else
      let m := roundGrid (fracBits f) (1 - (biasOf f : Int)) mode r x.num x.den
      (m + sg, if m = 0 then flagUnderflow else 0)

/-- Round a magnitude to an integer. -/
def roundInt (mode r num den : Nat) : Nat :=
  let k := num / den
  if roundsUp mode r (num % den) den (k % 2 == 0) then k + 1 else k

/-- Convert to an integer format of w bits (R132). The most negative number is representable: it is no overflow.
Log entry: 60 (DEDUCED). -/
def toInt (w mode r : Nat) (v : Val) : Nat × Nat :=
  let top := 2 ^ (w - 1) - 1
  match v with
  | .nan => (0, flagNan + flagSquashed)
  | .marker => (0, flagMarkerLost)
  | .inf neg => (if neg then 2 ^ (w - 1) else top, 0)
  | .fin x =>
    if x.neg then
      (if 2 ^ (w - 1) * x.den < x.num then (2 ^ (w - 1), flagOverflow)
      else
        let k := roundInt mode r x.num x.den
        ((2 ^ w - k) % 2 ^ w, if k = 0 ∧ x.num ≠ 0 then flagUnderflow else 0))
    else if top * x.den < x.num then (top, flagOverflow)
    else
      let k := roundInt mode r x.num x.den
      (k, if k = 0 ∧ x.num ≠ 0 then flagUnderflow else 0)

/-- The index to which a magnitude rounds on a Bell grid of levels over `unit` (R127 to R129). -/
def bellIndex (levels : List Nat) (unit mode r num den : Nat) : Nat :=
  -- lo is the last level at or below num × unit / den
  let i := countIf levels (fun l => decide (l * den ≤ num * unit)) - 1
  let lo := levels.getD i 0
  let hi := levels.getD (i + 1) lo
  if num * unit - lo * den = 0 then i
  else if roundsUp mode r (num * unit - lo * den) ((hi - lo) * den) (i % 2 == 0) then i + 1 else i

/-- Convert a grid value to a Bell format outside the Scale unit (R132, R133). -/
def toBell (f mode r : Nat) (v : Val) : Nat × Nat :=
  let levels := if f = 10 then bell6 else bell4
  let unit := if f = 10 then 255 else 64
  let sg := if f = 10 then 0x20 else 8
  let top := levels.length - 1
  match v with
  | .nan => (0, flagNan + flagSquashed)
  | .marker => (sg, 0)
  | .inf neg => (top + (if neg then sg else 0), 0)
  | .fin x =>
    if x.num = 0 then (0, 0)
    else if x.den < x.num then (top + (if x.neg then sg else 0), flagOverflow)
    else
      let i := bellIndex levels unit mode r x.num x.den
      if i = 0 then (0, flagUnderflow) else (i + (if x.neg then sg else 0), 0)

/-- Convert a value to a format: its code and the flags that the conversion sets (R132, R135). -/
def convert (f mode r : Nat) (v : Val) : Nat × Nat :=
  match f with
  | 7 => toInt 16 mode r v
  | 8 => toInt 8 mode r v
  | 9 => toInt 4 mode r v
  | 10 => toBell 10 mode r v
  | 11 => toBell 11 mode r v
  | _ => toFloat f mode r v

/-! ## FP32 -/

/-- Round an exact result to FP32 (R116, R122): code and flags. Beyond the largest finite value, nearest even follows
IEEE 754, and stochastic rounding chooses between that value and infinity as it would were infinity 2^128.
Log entry: 59 (DEDUCED). -/
def f32 (mode r : Nat) (v : Val) : Nat × Nat :=
  match v with
  | .fin x =>
    let sg := if x.neg then 0x80000000 else 0
    if x.num = 0 then (sg, 0)
    else
      let m := roundGrid 23 (-126) mode r x.num x.den
      if 0x7F800000 ≤ m then ((if mode = 1 then 0x7F7FFFFF else 0x7F800000) + sg, flagOverflow)
      else (m + sg, if m = 0 then flagUnderflow else 0)
  | _ => toFloat 0 mode r v

/-- The value of an FP32 word. -/
def f32Val (w : Nat) : Val := decodeElem 0 (w % 2 ^ 32)

/-- An FP32 word rounded to nearest even from an exact value.
Log entry: 59 (DEDUCED). -/
def rne (v : Val) : Nat := (f32 0 0 v).1

/-- Whether a value is NaN. -/
def Val.isNan : Val → Bool | .nan => true | _ => false

/-- Sum of two values (IEEE 754). -/
def addVal : Val → Val → Val
  | .fin a, .fin b => .fin (a.add b)
  | .inf a, .inf b => if a = b then .inf a else .nan
  | .inf a, .fin _ => .inf a
  | .fin _, .inf b => .inf b
  | _, _ => .nan

/-- A value with its sign changed. -/
def negVal : Val → Val
  | .fin a => .fin a.opp
  | .inf a => .inf !a
  | v => v

/-- Product of two values (IEEE 754). -/
def mulVal : Val → Val → Val
  | .fin a, .fin b => .fin (a.mul b)
  | .inf a, .inf b => .inf (a != b)
  | .inf a, .fin b => if b.num = 0 then .nan else .inf (a != b.neg)
  | .fin a, .inf b => if a.num = 0 then .nan else .inf (a.neg != b)
  | _, _ => .nan

/-- Quotient of two values (IEEE 754). -/
def divVal : Val → Val → Val
  | .fin a, .fin b =>
    if b.num = 0 then (if a.num = 0 then .nan else .inf (a.neg != b.neg)) else .fin (a.div b)
  | .inf a, .fin b => .inf (a != b.neg)
  | .fin a, .inf b => .fin ⟨a.neg != b, 0, 1⟩
  | _, _ => .nan

/-- Whether a is below b; false with a NaN. -/
def ltVal : Val → Val → Bool
  | .fin a, .fin b => a.lt b
  | .inf a, .inf b => a && !b
  | .inf a, .fin _ => a
  | .fin _, .inf b => !b
  | _, _ => false

/-- Maximum (R123). -/
def maxVal (a b : Val) : Val :=
  if a.isNan || b.isNan then .nan
  else if ltVal a b then b else if ltVal b a then a
  else match a with | .fin x => if x.num = 0 ∧ x.neg then b else a | _ => a

/-- Minimum (R123). -/
def minVal (a b : Val) : Val :=
  if a.isNan || b.isNan then .nan
  else if ltVal a b then a else if ltVal b a then b
  else match a with | .fin x => if x.num = 0 ∧ !x.neg then b else a | _ => a

/-- Absolute value. -/
def absVal : Val → Val
  | .fin a => .fin { a with neg := false }
  | .inf _ => .inf false
  | v => v

/-- A marker read as a LANE operand is NaN (R132, the source decoded to FP32). -/
def laneOperand : Val → Val
  | .marker => .nan
  | v => v

/-- FP32 sum, rounded to nearest even. -/
def addF (a b : Nat) : Nat := rne (addVal (f32Val a) (f32Val b))
/-- FP32 difference, rounded to nearest even. -/
def subF (a b : Nat) : Nat := rne (addVal (f32Val a) (negVal (f32Val b)))
/-- FP32 product, rounded to nearest even. -/
def mulF (a b : Nat) : Nat := rne (mulVal (f32Val a) (f32Val b))
/-- FP32 quotient, rounded to nearest even. -/
def divF (a b : Nat) : Nat := rne (divVal (f32Val a) (f32Val b))
/-- FP32 square root, rounded to nearest even; NaN below 0. -/
def sqrtF (a : Nat) : Nat :=
  match f32Val a with
  | .fin x => if x.num = 0 then a % 2 ^ 32 else if x.neg then 0x7FC00000 else rne (.fin (sqrtFrac x.num x.den))
  | .inf false => 0x7F800000
  | _ => 0x7FC00000
/-- Whether FP32 word a is below b. -/
def ltF (a b : Nat) : Bool := ltVal (f32Val a) (f32Val b)
/-- Whether FP32 word a is at most b. -/
def leF (a b : Nat) : Bool := match f32Val a, f32Val b with
  | .nan, _ => false
  | _, .nan => false
  | x, y => !ltVal y x
/-- An FP32 word with its sign changed. -/
def negF (a : Nat) : Nat := if bit a 31 then a - 2 ^ 31 else a + 2 ^ 31
/-- Magnitude of an FP32 word. -/
def absF (a : Nat) : Nat := a % 2 ^ 31
/-- An integer as an FP32 word, rounded to nearest even. -/
def intF (n : Int) : Nat := rne (.fin (fracOf n 1))
/-- Whether an FP32 word is finite. -/
def finF (a : Nat) : Bool := match f32Val a with | .fin _ => true | _ => false
/-- The value of a finite FP32 word, 0 for another. -/
def fracF (a : Nat) : Frac := match f32Val a with | .fin x => x | _ => {}

/-! ## Stochastic rounding -/

/-- One round of sr_bits (R129): l, h, k, j.
Log entry: 64 (DEDUCED). -/
def srRound (n : Nat) (x : Nat × Nat × Nat × Nat) : Nat × Nat × Nat × Nat :=
  let l := x.1
  let h := x.2.1
  let k := x.2.2.1
  let j := x.2.2.2
  let p := l * 0xCD9E8D57
  let t := (p / 2 ^ 32 % 2 ^ 32) ^^^ h ^^^ (if n % 2 = 1 then j else k)
  (t, p % 2 ^ 32, (k + 0x9E3779B9) % 2 ^ 32, (j + 0xBB67AE85) % 2 ^ 32)

/-- sr_bits(seed, idx) of R129. -/
def srBits (seed idx : Nat) : Nat :=
  ((List.range 8).foldl (fun x n => srRound n x)
    (idx % 2 ^ 32, idx / 2 ^ 32 % 2 ^ 32, seed % 2 ^ 32, seed / 2 ^ 32 % 2 ^ 32)).1

/-! ## Operand pairs -/

/-- Whether a format is INT8, INT4, Bell-6 or Bell-4. -/
def smallInt (f : Nat) : Bool := f == 8 || f == 9 || f == 10 || f == 11

/-- Whether MMA permits a pair (R111): in either order. -/
def pairOk (a b : Nat) : Bool :=
  let has := fun (x y : Nat) => (a == x && b == y) || (a == y && b == x)
  has 8 8 || has 8 9 || has 9 9 || has 7 7 || has 8 10 || has 8 11 || has 10 10 || has 10 11 || has 11 11
    || (3 ≤ a && a ≤ 6 && 3 ≤ b && b ≤ 6) || (1 ≤ a && a ≤ 2 && 1 ≤ b && b ≤ 2)

/-- Whether a pair accumulates in INT32 (R111). -/
def pairInt (a b : Nat) : Bool := pairOk a b && !(isFloat a)

/-- K indices that a pair takes in four cycles (R41). -/
def pairRate (a b : Nat) : Nat :=
  if (a == 9 && b == 9) || (a == 11 && b == 11) || (a == 6 && b == 6) then 8
  else if a == 7 || a == 1 || a == 2 then 1 else 4

end Sys2Proof.Machine
end

