-- ==== Sys2Proof/Machine/Operands.lean ====
section
/-! DEFINITION. The operand forms of the Bricks' instructions: the fields of an instruction word (R64), how a role's
program counter advances through its loops (R65, R66), the address generators (R776, R777), the roles' places in the
footprint (R50, R53, R57), and the 64 B lines of Bed and Hod that a generated address names (R48, R68). -/

namespace Sys2Proof.Machine

/-! ## Instruction words -/

/-- The instruction word at an address of a program.
Log entry: 48 (DESIGN CHOICE). -/
def wordAt (program : List Nat) (pc : Nat) : Nat := fld program (4 * pc) 4

/-- Class and operation of an instruction word as one number: class × 32 + operation (R64). -/
def opOf (w : Nat) : Nat := bits w 24 8

/-- Operations by class and code (R65). -/
def opNop : Nat := 0x00
def opHalt : Nat := 0x01
def opJump : Nat := 0x02
def opLoop : Nat := 0x03
def opLoopp : Nat := 0x04
def opPpoint : Nat := 0x05
def opWait : Nat := 0x06
def opMma : Nat := 0x20
def opDrain : Nat := 0x21
def opUnary : Nat := 0x40
def opBinary : Nat := 0x41
def opReduce : Nat := 0x42
def opConvert : Nat := 0x43
def opCopy : Nat := 0x60
def opCopyg : Nat := 0x61
def opQuant : Nat := 0x80
def opNsig : Nat := 0xA0
def opNwait : Nat := 0xA1
def opTsig : Nat := 0xA2
def opTwaitge : Nat := 0xA3
def opTwaiteq : Nat := 0xA4
def opBarrier : Nat := 0xA5
def opGroutchk : Nat := 0xC0
def opBase : Nat := 0xE0
def opStride : Nat := 0xE1
def opCount : Nat := 0xE2
def opBasep : Nat := 0xE3

/-! ## The Bond image's header (R50) -/

/-- Roles of the image. -/
def imgBricks (img : List Nat) : Nat := img.getD 32 0
/-- Footprint width. -/
def imgW (img : List Nat) : Nat := img.getD 33 0
/-- Footprint height. -/
def imgH (img : List Nat) : Nat := img.getD 34 0
/-- The shape_flags byte. -/
def imgShape (img : List Nat) : Nat := img.getD 35 0
/-- Occupied footprint cells. -/
def imgOccupancy (img : List Nat) : Nat := fld img 36 2
/-- Neighbour links used. -/
def imgLinks (img : List Nat) : Nat := fld img 40 4
/-- The flags word. -/
def imgFlags (img : List Nat) : Nat := fld img 44 4
/-- Worst-case cycles. -/
def imgWcet (img : List Nat) : Nat := fld img 48 4
/-- Worst-case cycles between preemption points. -/
def imgGap (img : List Nat) : Nat := fld img 52 4
/-- Largest Bed footprint of any role. -/
def imgBed (img : List Nat) : Nat := fld img 56 4
/-- Hod footprint. -/
def imgHod (img : List Nat) : Nat := fld img 60 4
/-- Parameter words that the launch supplies. -/
def imgParams (img : List Nat) : Nat := img.getD 68 0
/-- Section count. -/
def imgSections (img : List Nat) : Nat := fld img 12 2

/-- Entry i of the section table: type, role, offset, size, CRC (R52). -/
structure Section where
  kind : Nat
  role : Nat
  res : Nat
  off : Nat
  size : Nat
  crc : Nat
  deriving DecidableEq, Repr

/-- Section table entry i. -/
def sectionAt (img : List Nat) (i : Nat) : Section :=
  let b := 128 + 16 * i
  ⟨fld img b 2, img.getD (b + 2) 0, img.getD (b + 3) 0, fld img (b + 4) 4, fld img (b + 8) 4, fld img (b + 12) 4⟩

/-- The section table. -/
def sectionsOf (img : List Nat) : List Section := (List.range (imgSections img)).map (sectionAt img)

/-- The sections of a type that role r receives: its own and those of role 0xFF (R53). -/
def sectionsFor (img : List Nat) (r kind : Nat) : List Section :=
  (sectionsOf img).filter (fun x => x.kind == kind && (x.role == 0xFF || x.role == r))

/-- The bytes of the section of a type that role r receives, if any. -/
def sectionBytes (img : List Nat) (r kind : Nat) : Option (List Nat) :=
  (sectionsFor img r kind).head?.map (fun x => slice img x.off x.size)

/-- The program of role r. -/
def programOf (img : List Nat) (r : Nat) : List Nat := (sectionBytes img r 1).getD []

/-- Instructions of role r's program. -/
def programLen (img : List Nat) (r : Nat) : Nat := (programOf img r).length / 4

/-- The 128 agen bytes of role r, 0 without a section (R776). -/
def agenBytes (img : List Nat) (r : Nat) : List Nat := slice ((sectionBytes img r 2).getD []) 0 128

/-- The 64 streamer bytes of role r. -/
def streamerBytes (img : List Nat) (r : Nat) : List Nat := slice ((sectionBytes img r 3).getD []) 0 64

/-- The footprint cell of role r: the role map's byte (R53). -/
def roleCell (img : List Nat) (r : Nat) : Nat := ((sectionBytes img r 5).getD []).getD r 0

/-! ## Directions and placement -/

/-- The footprint cell next to a cell in a logical direction: 0 north, 1 east, 2 south, 3 west.
Log entry: 74 (DESIGN CHOICE). -/
def cellTowards (cell dir : Nat) : Option Nat :=
  let x := cell % 4
  let y := cell / 4
  match dir with
  | 0 => if 0 < y then some (cell - 4) else none
  | 1 => if x < 3 then some (cell + 1) else none
  | 2 => if y < 3 then some (cell + 4) else none
  | _ => if 0 < x then some (cell - 1) else none

/-- The bit of link_mask that joins a cell to its neighbour in a direction (R50). -/
def linkBit (cell dir : Nat) : Option Nat :=
  let x := cell % 4
  let y := cell / 4
  match dir with
  | 0 => if 0 < y then some (12 + (y - 1) * 4 + x) else none
  | 1 => if x < 3 then some (y * 3 + x) else none
  | 2 => if y < 3 then some (12 + y * 4 + x) else none
  | _ => if 0 < x then some (y * 3 + x - 1) else none

/-- The two cells that a link joins, the lower-numbered first. -/
def linkEnds (link : Nat) : Nat × Nat :=
  if link < 12 then (link / 3 * 4 + link % 3, link / 3 * 4 + link % 3 + 1) else (link - 12, link - 8)

/-- Where a transform sends footprint cell (x, y) (R57). -/
def transformCell (t w h x y : Nat) : Nat × Nat :=
  match t with
  | 0 => (x, y)
  | 1 => (h - 1 - y, x)
  | 2 => (w - 1 - x, h - 1 - y)
  | 3 => (y, w - 1 - x)
  | 4 => (w - 1 - x, y)
  | 5 => (h - 1 - y, w - 1 - x)
  | 6 => (x, h - 1 - y)
  | _ => (y, x)

/-- The role of an image that stands on a footprint cell. -/
def roleAtCell (img : List Nat) (cell : Nat) : Option Nat :=
  (List.range (imgBricks img)).find? (fun r => roleCell img r == cell)

/-! ## The program counter -/

/-- The next address and the loops after the instruction at `pc` of a role: at the last address of the innermost loop
the body begins again while passes remain (R65). -/
def nextPc : List LoopFrame → (pc : Nat) → Nat × List LoopFrame
  | [], pc => (pc + 1, [])
  | f :: r, pc =>
    if f.last = pc then
      (if 0 < f.left then (f.first, { f with left := f.left - 1 } :: r) else nextPc r pc)
    else (pc + 1, f :: r)

/-- Move a role past an instruction at address `at_`. -/
def Role.past (x : Role) (at_ : Nat) : Role :=
  let n := nextPc x.loops at_
  { x with pc := n.1, loops := n.2 }

/-- Move a role past the instruction at its pc. -/
def Role.advance (x : Role) : Role := x.past x.pc

/-- How often a role has executed the instruction at its pc before (R130). -/
def Role.earlier (x : Role) : Nat := aget x.execs x.pc 0

/-- Count an execution of the instruction at a role's pc. -/
def Role.counted (x : Role) : Role := { x with execs := aset x.execs x.pc (x.earlier + 1) 0 }

/-! ## Address generators -/

/-- The generator that a 32 B agen record sets (R776). -/
def agenOf (r : List Nat) : Agen :=
  let v := fld r 0 24
  { base := bits v 0 42
    strides := [sext (bits v 42 20) 20, sext (bits v 78 20) 20, sext (bits v 114 20) 20, sext (bits v 150 20) 20]
    counts := [bits v 62 16 + 1, bits v 98 16 + 1, bits v 134 16 + 1, bits v 170 16 + 1]
    tail := slice r 24 8 }

/-- Generator g of a role's agen bytes. -/
def agenRec (a : List Nat) (g : Nat) : List Nat := slice a (32 * g) 32

/-- Addresses in one pass of a generator. -/
def Agen.total (g : Agen) : Nat := g.counts.foldl (· * ·) 1

/-- The address, in 64 B lines, at place p of a generator's sequence (R777). -/
def Agen.addr (g : Agen) (p : Nat) : Int :=
  let c := fun (k : Nat) => g.counts.getD k 1
  let d := fun (k : Nat) => g.strides.getD k 0
  (g.base : Int) + (p % c 0 : Nat) * d 0 + (p / c 0 % c 1 : Nat) * d 1 + (p / c 0 / c 1 % c 2 : Nat) * d 2
    + (p / c 0 / c 1 / c 2 % c 3 : Nat) * d 3

/-- The next n addresses of a generator. -/
def Agen.take (g : Agen) (n : Nat) : List Int := (List.range n).map (fun i => g.addr (g.pos + i))

/-- A generator after n addresses: past its last address it goes on with its first. -/
def Agen.skip (g : Agen) (n : Nat) : Agen := { g with pos := (g.pos + n) % g.total }

/-- Generator g of a role. -/
def Role.agen (x : Role) (g : Nat) : Agen := x.agens.getD g {}

/-- Change generator g of a role. -/
def Role.modAgen (x : Role) (g : Nat) (f : Agen → Agen) : Role := { x with agens := modAt x.agens g f }

/-- The format byte of generator g (R121): byte 28 of its record. -/
def Agen.fmt (g : Agen) : Nat := g.tail.getD 4 0

/-! ## Lines -/

/-- Whether a line lies inside the Bed that a Bond declares (R68). -/
def bedLineOk (img : List Nat) (a : Int) : Bool := decide (0 ≤ a) && decide ((a + 1) * 64 ≤ (imgBed img : Int))

/-- Whether bytes of the Bed lie inside what a Bond declares. -/
def bedBytesOk (img : List Nat) (a n : Nat) : Bool := decide (a + n ≤ imgBed img)

/-- A byte of a Brick's Bed. -/
def bedByte (s : State) (brick a : Nat) : Nat := (aget s.fab.bed (brick * 262144 + a) 0).toNat

/-- Bytes of a Brick's Bed. -/
def bedBytes (s : State) (brick a n : Nat) : List Nat := (List.range n).map (fun i => bedByte s brick (a + i))

/-- A byte of a Course's Hod. -/
def hodByte (s : State) (course a : Nat) : Nat := (aget s.fab.hod (course * 4194304 + a) 0).toNat

/-- Bytes of a Course's Hod. -/
def hodBytes (s : State) (course a n : Nat) : List Nat := (List.range n).map (fun i => hodByte s course (a + i))

/-- Put bytes into a byte table from a key on. -/
def putBytes : (m : List (Nat × Byte)) → (k : Nat) → List Nat → List (Nat × Byte)
  | m, _, [] => m
  | m, k, b :: r => putBytes (aset m k (BitVec.ofNat 8 b) 0) (k + 1) r

/-- Write bytes into a Brick's Bed. -/
def wrBed (brick a : Nat) (data : List Nat) (s : State) : State :=
  { s with fab := { s.fab with bed := putBytes s.fab.bed (brick * 262144 + a) data } }

/-- Write bytes into a Course's Hod. -/
def wrHod (course a : Nat) (data : List Nat) (s : State) : State :=
  { s with fab := { s.fab with hod := putBytes s.fab.hod (course * 4194304 + a) data } }

/-- The Course and the byte address that a Hod line address of a Bond on Course c names, where it lies in the regions
of the Bond's hod_layout (R68): an address below 4 MiB is in the Course's own Hod, a higher one in the Hod of another
Course of the die that the Bond's context holds (R48).
Log entry: 57 (DEDUCED). -/
def hodPlace (s : State) (img : List Nat) (ctx c : Nat) (a : Int) : Option (Nat × Nat) :=
  match sectionBytes img 0 7 with
  | none => none
  | some layout =>
    let b := a.toNat * 64
    if a < 0 ∨ !Config.hodRegion layout b then none
    else if b < 4194304 then some (c, b)
    else
      let d := c / 16 * 16 + Config.hodCourse layout b % 16
      let holder := if courseCtx s d < 64 then courseCtx s d else (courseOf s d).owner
      if d = c ∨ holder = ctx then some (d, b % 4194304) else none

/-- A word of an accumulator tile. -/
def accWord (s : State) (brick tile cell : Nat) : Nat := aget s.fab.acc ((brick * 4 + tile) * 1024 + cell) 0

/-- The 1,024 words of an accumulator tile, row by row. -/
def accTile (s : State) (brick tile : Nat) : List Nat := (List.range 1024).map (accWord s brick tile)

/-- Set the 1,024 words of an accumulator tile. -/
def wrAccTile (brick tile : Nat) (l : List Nat) (s : State) : State :=
  let acc := ((List.range 1024).zip l).foldl (fun m e => aset m ((brick * 4 + tile) * 1024 + e.1) e.2 0) s.fab.acc
  { s with fab := { s.fab with acc := acc } }

/-- Zero an accumulator tile: 0 in INT32, +0 in FP32 (R118). -/
def zeroTile (brick tile : Nat) (s : State) : State :=
  { s with fab := { s.fab with acc := aclear s.fab.acc ((brick * 4 + tile) * 1024) ((brick * 4 + tile + 1) * 1024) } }

end Sys2Proof.Machine
end

