-- ==== Sys2Proof/Machine/Rings.lean ====
section
/-! DEFINITION. The ring engine: doorbells (R286 to R295), the fetch and the checks of descriptors (R296 to R314,
R783), fences, waits and signals (R299, R308), Tie operations between dies (R322 to R327, R775), ring restarts (R314)
and HST_COMMIT (R339). -/

namespace Sys2Proof.Machine

open Reg

/-! ## Doorbells -/

/-- The doorbell line of ring r of context c (R335). -/
def dbAddr (s : State) (c r : Nat) : Nat := com s HST_DB_ADDR.db_addr (c * 0x100 + 8 * r)

/-- Committed size of submission ring r of context c. -/
def sqSize (s : State) (c r : Nat) : Nat := 2 ^ com s HST_SQ_CFG.size_log2 (c * 0x100 + 4 * r)

/-- Whether a watch-list entry is live: its ring enabled and its context open (R292). -/
def ringLive (s : State) (c r : Nat) : Bool := ctxOpen s c && decide (r < 4) && ringEnabled s c r

/-- Take a tail that has been read: an invalid one stops the ring with cause 0x0613 (R295).
Log entries: 27 (DEDUCED), 29 (DEDUCED). -/
def takeTail (c r tail : Nat) (s : State) : State :=
  if sqSize s c r < (tail + 2 ^ 32 - (ringOf s c r).head) % 2 ^ 32 then stopRing c r 0x0613 (ringOf s c r).head s
  else modRing c r (fun x => { x with tail := tail }) s

/-- Read the doorbell line of a ring (R286): its tail, and from ring 0's line the two heads. A refused read stops the
ring with cause 0x0614 (R313); so does a completion that the host returns with an error or poisoned (R772).
Log entry: 27 (DEDUCED). -/
def readDoorbell (c r : Nat) (s : State) : State :=
  let d := readMem 72 c (dbAddr s c r) 64 [] s
  if d.1 ≠ 0 then stopRing c r (accessCause d.1) (ringOf d.2.2 c r).head d.2.2
  else
    let s1 := if r = 0 then modCtx c (fun x => { x with cqHead := fld d.2.1 4 4, eqHead := fld d.2.1 8 4 }) d.2.2
      else d.2.2
    takeTail c r (fld d.2.1 0 4) s1

/-- DOORBELL_WRITE (R292): a flagged write to a watched line, which lies in HBM. -/
def execDoorbellWrite (ctx ring : Nat) (s : State) : Host.Outcome State Fault Refusal :=
  .next (if ringLive s ctx ring ∧ dbAddr s ctx ring < hbmEnd then readDoorbell ctx ring s else s)

/-- DOORBELL_POLL (R293): the interval runs from the start of one read to the start of the next. -/
def execDoorbellPoll (ctx ring : Nat) (s : State) : Host.Outcome State Fault Refusal :=
  .next (if ringLive s ctx ring ∧ inPcie (dbAddr s ctx ring) then
    let due := (ringOf s ctx ring).polledAt + com s HST_SQ_CFG.poll_us (ctx * 0x100 + 4 * ring) * 1000
    let s1 := passTo due s
    readDoorbell ctx ring (modRing ctx ring (fun x => { x with polledAt := now s1 }) s1)
    else s)

/-! ## Ties of a context -/

/-- Whether context c may operate on Tie t (R328): its private range, and the shared range with shared_ties set. -/
def tieAllowed (s : State) (c t : Nat) : Bool :=
  let b := com s HST_TIE_BASE.tie_base (c * 0x100)
  let sb := com s HST_TIE_SHARED.shared_base
  (decide (b ≤ t) && decide (t < b + com s HST_TIE_COUNT.tie_count (c * 0x100))) ||
    (com s HST_CTX_CTRL.shared_ties (c * 0x100) == 1 && decide (sb ≤ t) &&
      decide (t < sb + com s HST_TIE_SHARED_COUNT.shared_count))

/-- Whether a Tie operation of a context is refused as one outside its ranges: also while the Tie's home die is in
steps 2 to 7 of a partial reset (R329, R717). -/
def tieRefused (s : State) (c t : Nat) : Bool :=
  !tieAllowed s c t || (s.partialDie == some (tieHome t) && decide (2 ≤ s.partialStep) && decide (s.partialStep < 7))

/-- Issue a Tie operation towards its home.
Log entry: 32 (DESIGN CHOICE). -/
def issueTie (op : TieOp) (s : State) : State := { s with rings := { s.rings with ops := s.rings.ops ++ [op] } }

/-- TIE_OPERATION (R324): the next operation of a sender arrives at a home. -/
def execTieOperation (home sender : Nat) (s : State) : Host.Outcome State Fault Refusal :=
  .next (tieDeliver home sender s)

/-! ## The fetch -/

/-- How many launches a Trowel's queue for ring r of context c holds (R309). -/
def queued (s : State) (c r course : Nat) : Nat :=
  countIf s.fab.launches (fun l => l.ctx == c && l.ring == r &&
    l.insts.any (fun i => i.course == course && i.phase == .queued))

/-- Whether some Trowel's queue for a ring is full (R309). -/
def trowelFull (s : State) (c r : Nat) : Bool := (List.range 64).any (fun g => decide (8 ≤ queued s c r g))

/-- Whether a ring is ready (R306, R307, R309): the package in run (R721), the ring enabled, not stopped, not empty,
not held, with a completion slot and room in the Trowels' queues. -/
def ringReady (s : State) (c r : Nat) : Bool :=
  s.mode == .run && ringLive s c r && !ringStopped s c r && (ringOf s c r).hold == .none && (ringOf s c r).head != (ringOf s c r).tail
    && decide (((ctxOf s c).cqTail + (ctxOf s c).reserved + 2 ^ 32 - (ctxOf s c).cqHead) % 2 ^ 32 < cqSize s c)
    && !trowelFull s c r

/-- The address of the next descriptor of a ring (R284). -/
def nextDesc (s : State) (c r : Nat) : Nat :=
  com s HST_SQ_BASE.sq_base (c * 0x100 + 8 * r) + (ringOf s c r).head % sqSize s c r * 64

/-- Whether a ring is ready and its next descriptor has an opcode that p accepts.
Log entries: 5 (DESIGN CHOICE), 24 (DESIGN CHOICE). -/
def nextIs (s : State) (c r : Nat) (p : Nat → Bool) : Bool :=
  ringReady s c r && (readStatus s 72 c (nextDesc s c r) 64 != 0 || p (peekByte s 72 c (nextDesc s c r)))

/-- Note that a ring's next descriptor has been fetched (R289, R307): its slot is reserved, sq_head advances, and the
echo line is written. -/
def noteFetch (c r : Nat) (s : State) : State :=
  writeEcho c (modCtx c (fun x => { x with reserved := x.reserved + 1 })
    (modRing c r (fun x => { x with head := (x.head + 1) % 2 ^ 32 }) s))

/-- Fetch the next descriptor (R289, R307): reserve its slot, read it, advance sq_head, write the echo line. A refused
read stops the ring with cause 0x0614 (R313). The descriptor goes on to `k` with its count and bytes; in the silent
state it completes with 0x0C41 (R569, R771).
Log entries: 5 (DESIGN CHOICE), 27 (DEDUCED). -/
def fetchDesc (c r : Nat) (k : Nat → List Nat → State → State) (s : State) : State :=
  let d := readMem 72 c (nextDesc s c r) 64 [] s
  if d.1 ≠ 0 then stopRing c r (accessCause d.1) (ringOf d.2.2 c r).head d.2.2
  else
    let n := (ringOf s c r).head
    let s2 := noteFetch c r d.2.2
    if dieSilent s 0 then finishDesc c r n d.2.1 { status := 0x0C41 } s2 else k n d.2.1 s2

/-- Keep a descriptor as fetched and not complete, in a phase. -/
def keepDesc (c r n : Nat) (raw : List Nat) (ph : DescPhase) (s : State) : State :=
  { s with rings := { s.rings with descs := s.rings.descs ++ [⟨c, r, n, raw, ph, 0, 0⟩] } }

/-- Hold a ring (R308).
Log entry: 28 (DEDUCED). -/
def holdRing (c r : Nat) (h : Hold) (s : State) : State := modRing c r (fun x => { x with hold := h }) s

/-! ## The checks of class 0x06, in the order of R341 -/

/-- Which flags R297 permits on an opcode.
Log entry: 25 (DEDUCED). -/
def flagMask (op : Nat) : Nat :=
  match op with
  | 1 => 0x3F
  | 2 => 0x0F
  | 3 => 0x43
  | _ => 0x03

/-- Whether a wait_tie word holds only a Tie and its equal bit (R298, R299). -/
def waitWordOk (v : Nat) : Bool := bits v 17 14 == 0

/-- Whether a Tie word holds only a Tie (R298, R299). -/
def tieWordOk (v : Nat) : Bool := bits v 17 15 == 0

/-- 0x0601 (R296 to R299): a flag not permitted, or a byte that must be 0.
Log entry: 25 (DEDUCED). -/
def descMalformed (raw : List Nat) : Bool :=
  let op := raw.getD 0 0
  let fl := raw.getD 1 0
  let waits := !bit fl 2 && !zeroAt raw 40 8
  let signals := !bit fl 3 && !zeroAt raw 48 8
  (fl &&& flagMask op) != fl ||
  (match op with
   | 1 => !zeroAt raw 56 8 || waits || signals || !waitWordOk (fld raw 40 4) || !tieWordOk (fld raw 48 4)
       || (bit fl 4 && bit fl 5) || (!bit fl 4 && !bit fl 5 && !zeroAt raw 30 6)
   | 2 => !zeroAt raw 4 20 || !zeroAt raw 30 6 || !zeroAt raw 56 8 || waits || signals
       || !waitWordOk (fld raw 40 4) || !tieWordOk (fld raw 48 4)
   | 3 => !zeroAt raw 4 60
   | 4 => !zeroAt raw 12 52 || !tieWordOk (fld raw 4 4)
   | 5 => !zeroAt raw 16 48 || !waitWordOk (fld raw 4 4)
   | 6 => !zeroAt raw 8 56 || !tieWordOk (fld raw 4 4)
   | 7 => !zeroAt raw 4 4 || !zeroAt raw 14 50
   | 8 => !zeroAt raw 8 56
   | _ => true)

/-- The Bond store slot of a handle that context c may launch, where it holds a verified image (R302, R304).
Log entry: 34 (DEDUCED). -/
def handleSlot (s : State) (c h : Nat) : Option Nat :=
  let k := aget s.rings.store (h % 4096) {}
  if h < 2 ^ 28 ∧ k.owner = some c ∧ k.valid ∧ k.gen = bits h 12 16 ∧ !aget s.mem.badSlots (h % 4096) false
  then some (h % 4096) else none

/-- The device address of Bond store slot k (R302). -/
def slotAddr (k : Nat) : Nat := 0x17E0000000 + k * 131072

/-- A byte of the image in a Bond store slot, as Keystone reads it. -/
def slotByte (s : State) (k i : Nat) : Nat := peekByte s 73 0xFF (slotAddr k + i)

/-- param_words of the image that a handle names (R50, R783). -/
def imageParams (s : State) (k : Nat) : Nat := slotByte s k 68

/-- Whether the image that a handle names has bit 4 of its flags set (R50, R783). -/
def imageMulti (s : State) (k : Nat) : Bool := bit (slotByte s k 44) 4

/-- 0x0602 (R298, R341, R783).
Log entry: 26 (DEDUCED). -/
def descAddrBad (s : State) (c : Nat) (raw : List Nat) : Bool :=
  let fl := raw.getD 1 0
  match raw.getD 0 0 with
  | 1 => fld raw 24 6 % 64 != 0 || fld raw 30 6 % 64 != 0 || ((bit fl 4 || bit fl 5) && fld raw 30 6 == 0)
      || (match handleSlot s c (fld raw 4 4) with
          | some k => decide (0 < imageParams s k) && fld raw 24 6 == 0
          | none => false)
  | 2 => fld raw 24 6 % 64 != 0 || fld raw 24 6 == 0
  | 7 => fld raw 8 6 % 64 != 0 || fld raw 8 6 == 0
  | _ => false

/-- 0x0603 (R341, R783). -/
def descSetBad (s : State) (c : Nat) (raw : List Nat) : Bool :=
  raw.getD 0 0 == 1 && (fld raw 8 8 == 0 ||
    (match handleSlot s c (fld raw 4 4) with
     | some k => !imageMulti s k && decide (1 < popcount (fld raw 8 8) 64)
     | none => false))

/-- Whether a timeout lies in its range (R40, R298). -/
def timeoutOk (t : Nat) : Bool := decide (1 ≤ t) && decide (t ≤ 60000000)

/-- 0x0604 (R298, R299, R341). -/
def descTimeBad (raw : List Nat) : Bool :=
  match raw.getD 0 0 with
  | 1 => !timeoutOk (fld raw 36 4)
  | 2 => if bit (raw.getD 1 0) 2 then !timeoutOk (fld raw 36 4) else fld raw 36 4 != 0
  | 5 => !timeoutOk (fld raw 12 4)
  | _ => false

/-- 0x0605 (R329, R341, R717). -/
def descTieBad (s : State) (c : Nat) (raw : List Nat) : Bool :=
  let fl := raw.getD 1 0
  match raw.getD 0 0 with
  | 1 | 2 => (bit fl 2 && tieRefused s c (fld raw 40 4 % 2 ^ 17)) || (bit fl 3 && tieRefused s c (fld raw 48 4 % 2 ^ 17))
  | 4 | 5 | 6 => tieRefused s c (fld raw 4 4 % 2 ^ 17)
  | _ => false

/-- The ring engine's checks of a descriptor (R312, R341): the status it refuses with, or 0. -/
def descCheck (s : State) (c : Nat) (raw : List Nat) : Nat :=
  if descMalformed raw then 0x0601
  else if descAddrBad s c raw then 0x0602
  else if descSetBad s c raw then 0x0603
  else if descTimeBad raw then 0x0604
  else if descTieBad s c raw then 0x0605
  else 0

/-- Fetch a descriptor and check it: one that fails completes at once with its status (R312). -/
def fetchChecked (c r : Nat) (k : Nat → List Nat → State → State) (s : State) : State :=
  fetchDesc c r (fun n raw s =>
    let st := descCheck s c raw
    if st ≠ 0 then finishDesc c r n raw { status := st } s else k n raw s) s

/-! ## Launches and Sieve jobs -/

/-- Forward a launch to every Trowel of its Course set (R309); one that meets no route to a Course die completes with
0x0810 (R412). -/
def forwardLaunch (c r n : Nat) (raw : List Nat) (s : State) : State :=
  let set := (List.range 64).filter (bit (fld raw 8 8))
  if set.all (fun g => reach s 0 (courseDie g)) then
    let l : Launch := { id := s.fab.nextLaunch, ctx := c, ring := r, count := n, raw := raw,
                        insts := set.map (fun g => ({ course := g } : Inst)) }
    { s with fab := { s.fab with launches := s.fab.launches ++ [l], nextLaunch := s.fab.nextLaunch + 1 } }
  else
    let g := (set.find? (fun g => !reach s 0 (courseDie g))).getD 0xFF
    finishDesc c r n raw { status := 0x0810, course := g } (event 0x0810 0 c 72 1 [courseDie g] s)

/-- Hand a SIEVE descriptor to the Sieve; its ring is held until the Sieve's queue has a place (R308). -/
def forwardSieve (c r n : Nat) (s : State) : State :=
  holdRing c r .sieve { s with rings := { s.rings with sieveIn := s.rings.sieveIn ++ [(c, r, n)] } }

/-- Send a LAUNCH or SIEVE, kept as forwarded, on its way. -/
def sendDesc (c r n : Nat) (raw : List Nat) (s : State) : State :=
  if raw.getD 0 0 = 1 then forwardLaunch c r n raw s else forwardSieve c r n s

/-- Forward a LAUNCH or SIEVE. -/
def forwardDesc (c r n : Nat) (raw : List Nat) (s : State) : State := sendDesc c r n raw (keepDesc c r n raw .forwarded s)

/-- Issue a descriptor's wait (R308, R313): without a route to the Tie's home it completes with 0x0810 and its ring
stops; else its ring is held. -/
def waitDesc (c r n : Nat) (raw : List Nat) (word value us : Nat) (s : State) : State :=
  let tie := word % 2 ^ 17
  if !reach s 0 (tieHome tie) then
    let s1 := finishDesc c r n raw { status := 0x0810 } s
    stopRing c r 0x0810 (ringOf s1 c r).head s1
  else
    issueTie ⟨if bit word 31 then .waitEq else .waitGe, tie, value, .desc c r n, c, us⟩
      (holdRing c r .tieWait (keepDesc c r n raw .waiting s))

/-- A LAUNCH or SIEVE that the ring engine accepts: its own wait first, then forwarding. -/
def acceptWork (c r n : Nat) (raw : List Nat) (s : State) : State :=
  if bit (raw.getD 1 0) 2 then waitDesc c r n raw (fld raw 40 4) (fld raw 44 4) (fld raw 36 4) s
  else forwardDesc c r n raw s

/-- LAUNCH (R298, R309). A descriptor of a reserved opcode, which has no row of its own, is fetched here too and
completes with 0x0601 (R296).
Log entry: 24 (DESIGN CHOICE). -/
def execLaunch (ctx ring : Nat) (s : State) : Host.Outcome State Fault Refusal :=
  .next (if nextIs s ctx ring (fun op => op == 1 || op == 0 || decide (8 < op))
    then fetchChecked ctx ring (acceptWork ctx ring) s else s)

/-- SIEVE (R298). -/
def execSieve (ctx ring : Nat) (s : State) : Host.Outcome State Fault Refusal :=
  .next (if nextIs s ctx ring (· == 2) then fetchChecked ctx ring (acceptWork ctx ring) s else s)

/-- FENCE (R308): its ring is held until it is released. -/
def execFence (ctx ring : Nat) (s : State) : Host.Outcome State Fault Refusal :=
  .next (if nextIs s ctx ring (· == 3) then
    fetchChecked ctx ring (fun n raw s => holdRing ctx ring .fence (keepDesc ctx ring n raw .held s)) s else s)

/-- The descriptors fetched before a fence and in its scope (R308). -/
def fenceWaits (s : State) (d : Desc) : Bool :=
  (s.rings.descs.takeWhile (fun x => !(x.ctx == d.ctx && x.ring == d.ring && x.count == d.count))).any
    (fun x => x.ctx == d.ctx && (bit (d.raw.getD 1 0) 6 || x.ring == d.ring))

/-- The descriptor that holds a ring, with an opcode. -/
def heldDesc (s : State) (c r op : Nat) : Option Desc :=
  s.rings.descs.find? (fun d => d.ctx == c && d.ring == r && d.phase == .held && d.raw.getD 0 0 == op)

/-- FENCE_RELEASE (R308). -/
def execFenceRelease (ctx ring : Nat) (s : State) : Host.Outcome State Fault Refusal :=
  .next (match heldDesc s ctx ring 3 with
    | some d => if fenceWaits s d then s else finishDesc ctx ring d.count d.raw {} (holdRing ctx ring .none s)
    | none => s)

/-- A TIE_SIGNAL or TIE_RESET that is accepted (R299, R314): issued, or completed with 0x0810 without a route. It
completes when its home has applied it. -/
def tieDesc (kind : TieKind) (c r n : Nat) (raw : List Nat) (s : State) : State :=
  let tie := fld raw 4 4 % 2 ^ 17
  if reach s 0 (tieHome tie) then
    issueTie ⟨kind, tie, if kind = .signal then fld raw 8 4 else 0, .desc c r n, c, 0⟩ (keepDesc c r n raw .issued s)
  else finishDesc c r n raw { status := 0x0810 } s

/-- TIE_SIGNAL (R299). -/
def execTieSignal (ctx ring : Nat) (s : State) : Host.Outcome State Fault Refusal :=
  .next (if nextIs s ctx ring (· == 4) then fetchChecked ctx ring (tieDesc .signal ctx ring) s else s)

/-- TIE_RESET (R299). -/
def execTieReset (ctx ring : Nat) (s : State) : Host.Outcome State Fault Refusal :=
  .next (if nextIs s ctx ring (· == 6) then fetchChecked ctx ring (tieDesc .reset ctx ring) s else s)

/-- TIE_WAIT (R299, R308). -/
def execTieWait (ctx ring : Nat) (s : State) : Host.Outcome State Fault Refusal :=
  .next (if nextIs s ctx ring (· == 5) then
    fetchChecked ctx ring (fun n raw s => waitDesc ctx ring n raw (fld raw 4 4) (fld raw 8 4) (fld raw 12 4) s) s else s)

/-! ## Releases and timeouts -/

/-- Change the role that runs on a Brick, in every active instance. -/
def modRole (b : Nat) (f : Role → Role) (s : State) : State :=
  let ro := fun (x : Role) => if x.brick = b then f x else x
  let inst := fun (i : Inst) => if i.phase = .active then { i with roles := i.roles.map ro } else i
  { s with fab := { s.fab with launches := s.fab.launches.map (fun l => { l with insts := l.insts.map inst }) } }

/-- Release one waiter of a Tie: a role goes on after its wait; a TIE_WAIT completes with the Tie's value; a LAUNCH or
SIEVE is forwarded, and keeps its place among the descriptors fetched (R308, R325). -/
def releaseOne (tie value : Nat) (s : State) (who : Agent) : State :=
  match who with
  | .role b => modRole b (fun x => if x.tieWait = some tie then { x with tieWait := none }.advance else x) s
  | .desc c r n =>
    match s.rings.descs.find? (fun d => d.ctx == c && d.ring == r && d.count == n && d.phase == .waiting) with
    | some d =>
      let s1 := holdRing c r .none s
      if d.raw.getD 0 0 = 5 then finishDesc c r n d.raw { result := value } s1
      else
        let sent := fun (x : Desc) => if x = d then { x with phase := .forwarded } else x
        sendDesc c r n d.raw { s1 with rings := { s1.rings with descs := s1.rings.descs.map sent } }
    | none => s
  | .other _ => s

/-- The instance in which a role runs on a Brick: launch and Course. -/
def instOnBrick (s : State) (b : Nat) : Option (Launch × Inst) :=
  s.fab.launches.findSome? (fun l =>
    (l.insts.find? (fun i => i.phase == .active && i.bricks.contains b)).map (fun i => (l, i)))

/-- Settle a wait of a role or descriptor as timed out: it is cancelled at its home and counted (R326). A wait of a Bond
stops its launch with 0x0610; one of a descriptor completes it with 0x0612 and stops its ring (R313).
Log entry: 28 (DEDUCED). -/
def timeoutWait (w : TieWait) (s : State) : State :=
  let s1 := incSat TIE_TIMEOUT_COUNT.timeouts (dieBase (tieHome w.tie)) 1
    { s with rings := { s.rings with waits := s.rings.waits.erase w } }
  match w.who with
  | .role b =>
    match instOnBrick s1 b with
    | some (l, i) =>
      faultInst l.id i.course 0x0610 (courseDie i.course) i.course (leBytes 4 w.tie) false s1
    | none => s1
  | .desc c r n =>
    match s1.rings.descs.find? (fun d => d.ctx == c && d.ring == r && d.count == n && d.phase == .waiting) with
    | some d =>
      let s2 := finishDesc c r n d.raw { status := 0x0612 } (holdRing c r .none s1)
      stopRing c r 0x0612 (ringOf s2 c r).head s2
    | none => s1
  | .other _ => s1

/-- TIE_WAIT_TIMEOUT (R326). -/
def execTieWaitTimeout (sender : Nat) (s : State) : Host.Outcome State Fault Refusal :=
  .next (match s.rings.waits.find? (fun w => agentIndex w.who == sender && decide (sender < 1280)) with
    | none => s
    | some w => timeoutWait w (passTo w.deadline s))

/-- RING_RESTART (R314): a write to HST_CTX_REQ; every stopped ring named goes on at the count it kept.
Log entry: 33 (DEDUCED). -/
def execRingRestart (ctx rings : Nat) (s : State) : Host.Outcome State Fault Refusal :=
  .next (if ctx < 64 then (List.range 4).foldl (fun s r =>
    if bit rings r ∧ ringStopped s ctx r then
      writeEcho ctx (wr HST_CTX_STATE.stopped (ctx * 0x100)
        (setBit (rd s HST_CTX_STATE.stopped (ctx * 0x100)) r false)
        (modRing ctx r (fun x => { x with cause := 0, head := x.resume }) s))
    else s) s else s)

/-- CONTEXT_TEARDOWN_REQUEST (R335): cause 0x0630. -/
def execContextTeardownRequest (ctx : Nat) (s : State) : Host.Outcome State Fault Refusal :=
  .next (teardown ctx 0x0630 [] s)

/-! ## HST_COMMIT -/

/-- Whether n bytes at a lie in HBM or in the outbound window (R282). -/
def ringSpan (a n : Nat) : Bool :=
  decide (a + n ≤ hbmEnd) || (inPcie a && decide (a + n ≤ 0x800000000000))

/-- Whether a Tie range meets the private range of an open context other than `skip` (R330). -/
def meetsPrivate (s : State) (base count skip : Nat) : Bool :=
  (List.range 64).any (fun o => o != skip && ctxOpen s o &&
    overlap base count (com s HST_TIE_BASE.tie_base (o * 0x100)) (com s HST_TIE_COUNT.tie_count (o * 0x100)))

/-- The checks of HST_COMMIT (R283, R330, R339, R767). -/
def hstChecks (s : State) : List (Bool × Refuse) :=
  let lg := stg s HST_DEV_EQ_CFG.size_log2
  let base := stg s HST_DEV_EQ_BASE.dev_eq_base
  let sb := stg s HST_TIE_SHARED.shared_base
  let sn := stg s HST_TIE_SHARED_COUNT.shared_count
  [(decide (lg < 6) || decide (12 < lg), (0x0002, 0x804010)),
   (decide (131072 < sb + sn), (0x0002, 0x804024)),
   (stg s HST_PCIE_OUT_BASE.pcie_out_base % 4096 != 0, (0x0003, 0x804000)),
   (base % 4096 != 0, (0x0003, 0x804008)),
   (!ringSpan base (32 * 2 ^ lg), (0x0004, 0x804008)),
   (meetsPrivate s sb sn 64, (0x0006, 0x804020))]

/-- The fields that HST_COMMIT commits. -/
def hstFields : List (Field × Nat) :=
  [(HST_PCIE_OUT_BASE.pcie_out_base, 0), (HST_DEV_EQ_BASE.dev_eq_base, 0), (HST_DEV_EQ_CFG.size_log2, 0),
   (HST_DEV_EQ_CFG.irq_vector, 0), (HST_TIE_SHARED.shared_base, 0), (HST_TIE_SHARED_COUNT.shared_count, 0)]

/-- An accepted HST_COMMIT; at the first one the events that wait are written in order (R713). -/
def hstApply (s : State) : State :=
  let s1 := acceptStaged hstFields s
  let q := s1.rings.dawnQueue
  q.foldl (fun s ev => devWrite ev s) { s1 with rings := { s1.rings with devOpen := true, dawnQueue := [] } }

/-- HST_COMMIT (R339). -/
def execHstCommit (value : Nat) (s : State) : Host.Outcome State Fault Refusal :=
  .next (commit 0 0x80403C value (hstChecks s) hstApply s)

end Sys2Proof.Machine
end

