-- ==== Sys2Proof/Machine/Camera.lean ====
section
/-! DEFINITION. The camera ports and the input streams: the front end (R431 to R434), landing, waiting and publishing of
frames and batches (R437 to R445, R452), and CAM_STREAM_COMMIT (R435, R436, R449). -/

namespace Sys2Proof.Machine

open Reg

/-! ## Streams -/

/-- Input stream k: 0 to 15 a camera port, 16 to 23 a lidar template. -/
def streamOf (s : State) (k : Nat) : InStream := aget s.input.streams k {}

/-- Set input stream k. -/
def setStream (k : Nat) (v : InStream) (s : State) : State :=
  { s with input := { s.input with streams := aset s.input.streams k v {} } }

/-- Change input stream k. -/
def modStream (k : Nat) (f : InStream → InStream) (s : State) : State := setStream k (f (streamOf s k)) s

/-- The Plumb port of an input stream (R372).
Log entry: 125 (DEDUCED). -/
def streamPort (k : Nat) : Nat := if k < 16 then 64 else 70

/-- Whether a stream is a lidar template. -/
def isLidar (k : Nat) : Bool := decide (16 ≤ k)

/-- Record fields that a camera record and a template hold at different places (R435, R449). -/
def inSlots (k : Nat) (r : List Nat) : Nat := if isLidar k then r.getD 3 0 else r.getD 9 0

/-- The nominal period in µs: period_us, or sweep_us of a template. -/
def inPeriod (k : Nat) (r : List Nat) : Nat := if isLidar k then fld r 32 4 else fld r 12 4

/-- The stale limit in ns (R435): 0 selects twice the period. -/
def inStale (k : Nat) (r : List Nat) : Nat :=
  let v := if isLidar k then fld r 36 4 else fld r 16 4
  (if v = 0 then 2 * inPeriod k r else v) * 1000

/-- Record ring, buffer pool, buffer bytes and the two Ties, at the same places in both. -/
def inRec (r : List Nat) : Nat := fld r 40 6
/-- First address of the buffer pool. -/
def inBuf (r : List Nat) : Nat := fld r 46 6
/-- Bytes of one buffer. -/
def inBufBytes (r : List Nat) : Nat := fld r 52 4
/-- The ready Tie. -/
def inReady (r : List Nat) : Nat := fld r 56 4 % 2 ^ 17
/-- The release Tie. -/
def inRelease (r : List Nat) : Nat := fld r 60 4 % 2 ^ 17

/-- Whether a unit's sender index has a wait pending at a Tie's home. -/
def waitPending (s : State) (index : Nat) : Bool :=
  s.rings.waits.any (fun w => match w.who with | .other i => i == index | _ => false)

/-- Buffers named by records not yet released (R437): published frames from the release Tie's value on.
Log entry: 120 (DESIGN CHOICE). -/
def heldBufs (x : InStream) (released slots : Nat) : List Nat :=
  (List.range slots).filterMap (fun i =>
    if i < x.pubSeq ∧ released ≤ x.pubSeq - 1 - i then some (x.bufs.getD ((x.pubSeq - 1 - i) % slots) 0) else none)

/-- The buffers of a stream that are free (R438).
Log entry: 120 (DESIGN CHOICE). -/
def freeBufs (s : State) (k : Nat) : List Nat :=
  let x := streamOf s k
  let held := heldBufs x (tieValue s (inRelease x.record)) (inSlots k x.record)
    ++ (x.landing.map (·.buf)).toList ++ (x.waiting.map (·.buf)).toList
  (List.range (inSlots k x.record + 2)).filter (fun b => !held.contains b)

/-! ## Drops and completion -/

/-- Count a dropped frame or batch; the first drop after each publish raises event 0x0930 (R441). The pub_seq of a last
publish that has not been is a free value.
Log entry: 121 (DESIGN CHOICE). -/
def dropFrame (k cause : Nat) (s : State) : State :=
  let x := streamOf s k
  let s1 := modStream k (fun x => { x with dropped := satTo (x.dropped + 1) 0xFFFF, dropRaised := true })
    (incSat CAM_DROP_COUNT.drops (k * 0x20) 1 s)
  if x.dropRaised then s1
  else withDraw s1 (2 ^ 32) (fun v s =>
    event 0x0930 0 x.owner k 1 (leBytes 2 cause ++ leBytes 4 (if x.pubSeq = 0 then v else x.pubSeq - 1)) s)

/-- The age of a frame in ns (R439). -/
def frameAge (s : State) (f : Frame) : Nat := f.baseAge + (now s - f.startAt)

/-- Let a completed frame wait for its record (R440): its wait stands at the release Tie's home, with the time left
before it goes stale, at least 1 µs.
Log entry: 123 (DEDUCED). -/
def waitRecord (k : Nat) (f : Frame) (s : State) : State :=
  let x := streamOf s k
  let left := max 1000 (inStale k x.record - frameAge s f)
  let tie := inRelease x.record
  let ok := reach s 0 (tieHome tie)
  let f1 := { f with deadline := now s + left, lost := !ok }
  let s1 := withdraw (1280 + k) (modStream k (fun x => { x with waiting := some f1 }) s)
  if ok then
    let w : TieWait := ⟨tie, (x.pubSeq + 1 - inSlots k x.record), false, .other (1280 + k), x.owner, f1.deadline⟩
    evalWaits tie { s1 with rings := { s1.rings with waits := s1.rings.waits ++ [w] } }
  else event 0x0810 0 x.owner (streamPort k) 1 [tieHome tie] s1

/-- Complete a frame or batch: dropped for its age, its geometry, its CRC errors or a refused write, in the order of
R470, or made to wait, an earlier one that still waits being dropped with 0x0911 (R438, R440, R441).
Log entry: 122 (DEDUCED). -/
def completeFrame (k : Nat) (f : Frame) (s : State) : State :=
  let x := streamOf s k
  let f := { f with fe := if isLidar k then f.fe else dial s }
  let s1 := modStream k (fun x => { x with landing := none }) s
  if inStale k x.record < frameAge s f then dropFrame k 0x0910 s1
  else if f.geomBad then dropFrame k 0x0912 s1
  else if !isLidar k && decide (x.record.getD 10 0 < f.crcLines) then dropFrame k 0x0913 s1
  else if f.refused then dropFrame k 0x0914 s1
  else
    let s2 := if x.waiting.isSome then dropFrame k 0x0911 s1 else s1
    waitRecord k f s2

/-- Begin a frame or batch: a buffer is chosen among those free, which the spec does not say (R442).
Log entry: 120 (DESIGN CHOICE). -/
def beginFrame (k : Nat) (f : Frame) (s : State) : State :=
  let free := freeBufs s k
  withDraw s (max 1 free.length) (fun v s => modStream k (fun x => { x with
    fsCount := (x.fsCount + 1) % 2 ^ 32, lastStart := now s
    landing := some { f with buf := free.getD v 0, fsCount := (x.fsCount + 1) % 2 ^ 32, startAt := now s } }) s)

/-- A disabling commit takes effect (R445).
Log entry: 124 (DEDUCED). -/
def stopStream (k : Nat) (s : State) : State :=
  wrB CAM_STREAM_STATUS.running (k * 0x20) false
    (modStream k (fun x => { x with enabled := false, stopping := false }) s)

/-! ## The front end -/

/-- Bits of a raw data type (R431), 0 for another.
Log entry: 13 (PRESUMED). -/
def rawBits (dt : Nat) : Nat :=
  match dt with
  | 0x2A => 8
  | 0x2B => 10
  | 0x2C => 12
  | 0x2D => 14
  | 0x2E => 16
  | _ => 0

/-- Sample i of a long packet in the packing of CSI-2: high bytes first, then the low bits of the group.
Log entry: 13 (PRESUMED). -/
def rawSample (dt : Nat) (p : List Nat) (i : Nat) : Nat :=
  match dt with
  | 0x2A => p.getD i 0
  | 0x2B => p.getD (i / 4 * 5 + i % 4) 0 * 4 + bits (p.getD (i / 4 * 5 + 4) 0) (2 * (i % 4)) 2
  | 0x2C => p.getD (i / 2 * 3 + i % 2) 0 * 16 + bits (p.getD (i / 2 * 3 + 2) 0) (4 * (i % 2)) 4
  | 0x2D => p.getD (i / 4 * 7 + i % 4) 0 * 64 + bits (fld p (i / 4 * 7 + 4) 3) (6 * (i % 4)) 6
  | _ => p.getD (2 * i) 0 * 256 + p.getD (2 * i + 1) 0

/-- Colour of position pos of a colour filter array: 0 R, 1 G, 2 B (R435). -/
def cfaColour (cfa pos : Nat) : Nat :=
  match cfa with
  | 0 => [0, 1, 1, 2].getD pos 0
  | 1 => [1, 0, 2, 1].getD pos 0
  | 2 => [1, 2, 0, 1].getD pos 0
  | _ => [2, 1, 1, 0].getD pos 0

/-- Channels of a stream's output (R433). -/
def camChannels (r : List Nat) : Nat := if r.getD 3 0 < 4 then 3 else 1

/-- Bytes of one output element. -/
def camElem (r : List Nat) : Nat := if r.getD 8 0 = 8 then 1 else 2

/-- Lines of 64 B from one row of the frame to the next (R433). -/
def camPitch (r : List Nat) : Nat := divUp (fld r 4 2 * camChannels r * camElem r) 64

/-- A neighbour coordinate, reflected at the edges: −1 to 1 and n to n − 2 (R433). `c` counts from 1. -/
def reflect (c n : Nat) : Nat := if c = 0 then 1 else if c = n + 1 then n - 2 else c - 1

/-- Raw sample scaled to 16 bits (R433). -/
def p16 (r row : List Nat) (x : Nat) : Nat :=
  rawSample (r.getD 1 0) row x * 2 ^ (16 - rawBits (r.getD 1 0))

/-- Sample after black level, of a row with the parity of y. -/
def qAt (r row : List Nat) (y x : Nat) : Nat := p16 r row x - fld r (24 + 2 * (y % 2 * 2 + x % 2)) 2

/-- Colour c at (x, y) after demosaic, from the rows above, at and below (R433). -/
def demosaic (r above row below : List Nat) (y x c : Nat) : Nat :=
  let cfa := r.getD 3 0
  let colour := fun (yy xx : Nat) => cfaColour cfa (yy % 2 * 2 + xx % 2)
  if colour y x = c then qAt r row y x
  else
    let w := fld r 4 2
    let near := ([0, 1, 2].flatMap (fun dy => [0, 1, 2].map (fun dx => (dy, dx)))).filter (fun e => e != (1, 1))
    let qs := near.filterMap (fun e =>
      let xx := reflect (x + e.2) w
      -- y + 1 has the parity of both neighbour rows
      let yy := if e.1 = 1 then y else y + 1
      let line := if e.1 = 0 then above else if e.1 = 1 then row else below
      if colour yy xx = c then some (qAt r line yy xx) else none)
    (sumNat qs + qs.length / 2) / max 1 qs.length

/-- White balance, tone curve and output code of a value (R433). -/
def toneOut (r tone : List Nat) (gain d : Nat) : List Nat :=
  let v := min 65535 ((d * gain + 2048) / 4096)
  let i := v / 64
  let f := v % 64
  let t := (fld tone (2 * i) 2 * (64 - f) + fld tone (2 * i + 2) 2 * f + 32) / 64
  if r.getD 8 0 = 8 then [(t / 256 + 128) % 256]
  else leBytes 2 (convert (r.getD 8 0) 0 0 (.fin ⟨false, t, 65536⟩)).1

/-- The output bytes of row y from the raw rows above, at and below (R433). -/
def frontRow (r tone above row below : List Nat) (y : Nat) : List Nat :=
  let gain := fun (c : Nat) => fld r (32 + 2 * c) 2
  (List.range (fld r 4 2)).flatMap (fun x =>
    if r.getD 3 0 = 5 then leBytes 2 ((p16 r row x + 32768) % 65536)
    else if r.getD 3 0 = 4 then toneOut r tone (gain 1) (qAt r row y x)
    else [0, 1, 2].flatMap (fun c => toneOut r tone (gain c) (demosaic r above row below y x c)))

/-- Write one row of the frame that lands in its buffer; a refused write is kept for the frame's end (R441, R442). -/
def writeRow (k y : Nat) (data : List Nat) (s : State) : State :=
  let x := streamOf s k
  match x.landing with
  | none => s
  | some f =>
    let w := writeMem 64 x.owner (inBuf x.record + f.buf * inBufBytes x.record + y * camPitch x.record * 64) data s
    if w.1 = 0 then w.2
    else modStream k (fun x => { x with landing := x.landing.map (fun f => { f with refused := true }) }) w.2

/-- Write the rows that a new line completes: with a colour filter the row before it, else the line itself.
Log entries: 119 (DESIGN CHOICE), 122 (DEDUCED). -/
def landLine (k : Nat) (payload : List Nat) (s : State) : State :=
  let x := streamOf s k
  match x.landing with
  | none => s
  | some f =>
    let y := f.lines
    let r := x.record
    let rows := f.rows ++ [payload]
    let keep := if 2 < rows.length then rows.drop (rows.length - 2) else rows
    let s1 := modStream k (fun x => { x with landing := some { f with lines := y + 1, rows := keep } }) s
    if fld r 6 2 ≤ y then s1
    else if 4 ≤ r.getD 3 0 then writeRow k y (frontRow r x.table payload payload payload y) s1
    else if y = 0 then s1
    else
      let cur := f.rows.getLast?.getD []
      let above := if y = 1 then payload else f.rows.head?.getD []
      writeRow k (y - 1) (frontRow r x.table above cur payload (y - 1)) s1

/-- Write the last row of a frame with a colour filter, whose lower neighbour is reflected (R433).
Log entry: 119 (DESIGN CHOICE). -/
def landLast (k : Nat) (s : State) : State :=
  let x := streamOf s k
  match x.landing with
  | none => s
  | some f =>
    if x.record.getD 3 0 < 4 ∧ f.lines = fld x.record 6 2 then
      let above := f.rows.head?.getD []
      writeRow k (f.lines - 1) (frontRow x.record x.table above (f.rows.getLast?.getD []) above (f.lines - 1)) s
    else s

/-! ## Packets -/

/-- Whether a camera port has a stream enabled. -/
def camOn (s : State) (k : Nat) : Bool := decide (k < 16) && (streamOf s k).enabled && s.mode == .run

/-- Count a packet of another virtual channel or data type (R432). -/
def foreign (s : State) : State := incSat CAM_FOREIGN_COUNT.foreign 0 1 s

/-- CSI_PACKET (R432): a long packet of a port; `ecc` is 0, 1 corrected or 2 uncorrectable, `crcOk` its CRC-16.
Log entry: 119 (DESIGN CHOICE). -/
def execCsiPacket (port vc dataType ecc : Nat) (crcOk : Bool) (payload : List Nat) (s : State) :
    Host.Outcome State Fault Refusal :=
  let x := streamOf s port
  .next (
    if !camOn s port ∨ ecc = 2 then s
    else if vc ≠ x.record.getD 0 0 ∨ dataType ≠ x.record.getD 1 0 then foreign s
    else match x.landing with
      | none => s
      | some f =>
        let good := decide (payload.length = fld x.record 4 2 * rawBits dataType / 8)
        let f1 := { f with crcLines := f.crcLines + b2n (!crcOk), geomBad := f.geomBad || !good,
                           flags := if ecc = 1 then setBit f.flags 1 true else f.flags }
        landLine port payload (modStream port (fun x => { x with landing := some f1 }) s))

/-- FRAME_START (R442): the capture time is taken and a buffer chosen. A frame whose end never came is dropped with
0x0912; a disabling commit takes effect (R445).
Log entry: 122 (DEDUCED). -/
def execFrameStart (stream vc ecc : Nat) (s : State) : Host.Outcome State Fault Refusal :=
  let x := streamOf s stream
  .next (
    if !camOn s stream ∨ ecc = 2 then s
    else if vc ≠ x.record.getD 0 0 then foreign s
    else
      let s1 := if x.landing.isSome then
        dropFrame stream 0x0912 (modStream stream (fun x => { x with landing := none }) s) else s
      if x.stopping then stopStream stream s1
      else
        let off := fld x.record 20 4 * 1000
        beginFrame stream { capture := (dial s1 + 2 ^ 64 - off) % 2 ^ 64, baseAge := off,
                            flags := b2n (rd s1 NWT_DIAL_STATUS.sync_state != 2) + 2 * b2n (ecc == 1) } s1)

/-- FRAME_END (R442). -/
def execFrameEnd (stream vc ecc : Nat) (s : State) : Host.Outcome State Fault Refusal :=
  let x := streamOf s stream
  .next (
    if !camOn s stream ∨ ecc = 2 then s
    else if vc ≠ x.record.getD 0 0 then foreign s
    else
      let s1 := landLast stream s
      match (streamOf s1 stream).landing with
      | none => s1
      | some f => completeFrame stream
        { f with geomBad := f.geomBad || f.lines != fld x.record 6 2
                 flags := if ecc = 1 then setBit f.flags 1 true else f.flags } s1)

/-- The frame or batch record (R443, R452). -/
def frameRecord (s : State) (k : Nat) (x : InStream) (f : Frame) : List Nat :=
  leBytes 4 x.pubSeq ++ leBytes 4 (if isLidar k then f.points else f.fsCount) ++ leBytes 8 f.capture ++ leBytes 8 f.fe
    ++ leBytes 8 (dial s) ++ leBytes 6 (inBuf x.record + f.buf * inBufBytes x.record)
    ++ leBytes 2 (satTo (if isLidar k then f.badPoints else f.crcLines) 0xFFFF) ++ leBytes 2 x.dropped
    ++ [f.flags] ++ List.replicate 21 0

/-- FRAME_PUBLISH (R442): the wait has been released, so the record is written as one line and the ready Tie signalled. A
refused record drops the frame with 0x0914 (R441). -/
def execFramePublish (stream : Nat) (s : State) : Host.Outcome State Fault Refusal :=
  let x := streamOf s stream
  .next (match x.waiting with
    | none => s
    | some f =>
      if f.lost ∨ waitPending s (1280 + stream) ∨ s.mode ≠ .run then s
      else
        let slots := max 1 (inSlots stream x.record)
        let s0 := withdraw (1280 + stream) (modStream stream (fun x => { x with waiting := none }) s)
        let w := writeMem (streamPort stream) x.owner (inRec x.record + x.pubSeq % slots * 64) (frameRecord s stream x f) s0
        if w.1 ≠ 0 then dropFrame stream 0x0914 w.2
        else
          let bufs := if x.bufs.length < slots then x.bufs ++ [f.buf] else setAt x.bufs (x.pubSeq % slots) f.buf
          signalFrom (1280 + stream) (streamPort stream) x.owner (inReady x.record) 1
            (modStream stream (fun x => { x with pubSeq := (x.pubSeq + 1) % 2 ^ 32, dropped := 0, dropRaised := false,
                                                 silentRaised := false, bufs := bufs }) w.2))

/-- FRAME_STALE (R440): the wait is cancelled on the frame's age.
Log entry: 123 (DEDUCED). -/
def execFrameStale (stream : Nat) (s : State) : Host.Outcome State Fault Refusal :=
  let x := streamOf s stream
  .next (match x.waiting with
    | none => s
    | some f =>
      if f.lost ∨ waitPending s (1280 + stream) then
        let s1 := passTo f.deadline s
        let s2 := if f.lost then s1
          else incSat TIE_TIMEOUT_COUNT.timeouts (dieBase (tieHome (inRelease x.record))) 1 s1
        dropFrame stream 0x0910 (withdraw (1280 + stream) (modStream stream (fun x => { x with waiting := none }) s2))
      else s)

/-- SENSOR_SILENT (R444). -/
def execSensorSilent (stream : Nat) (s : State) : Host.Outcome State Fault Refusal :=
  let x := streamOf s stream
  .next (if x.enabled ∧ !x.silentRaised ∧ s.mode = .run then
    event 0x0931 0 x.owner stream 1 []
      (modStream stream (fun x => { x with silentRaised := true })
        (passTo (x.lastStart + 3 * inPeriod stream x.record * 1000) s))
    else s)

/-! ## CAM_STREAM_COMMIT -/

/-- Whether a Tie word of a record has its reserved bits 0. -/
def tieField (r : List Nat) (at_ : Nat) : Bool := fld r at_ 4 / 2 ^ 17 == 0

/-- 0x0902 of a camera record (R435). -/
def camMalformed (r : List Nat) : Bool :=
  let cfa := r.getD 3 0
  let fmt := r.getD 8 0
  decide (15 < r.getD 0 0) || rawBits (r.getD 1 0) == 0 || !([1, 2, 4].contains (r.getD 2 0)) || decide (5 < cfa)
    || !(decide (64 ≤ fld r 4 2) && decide (fld r 4 2 ≤ 8192) && fld r 4 2 % 4 == 0)
    || !(decide (2 ≤ fld r 6 2) && decide (fld r 6 2 ≤ 8192) && fld r 6 2 % 2 == 0)
    || (if cfa = 5 then fmt != 7 else !([8, 2, 1].contains fmt))
    || !(decide (2 ≤ r.getD 9 0) && decide (r.getD 9 0 ≤ 16)) || r.getD 11 0 != 0
    || !(decide (1000 ≤ fld r 12 4) && decide (fld r 12 4 ≤ 1000000)) || decide (2000000 < fld r 16 4)
    || decide (100000 < fld r 20 4) || !zeroAt r 38 2 || fld r 40 6 % 64 != 0 || fld r 46 6 % 4096 != 0
    || fld r 52 4 % 4096 != 0 || decide (fld r 52 4 < fld r 6 2 * camPitch r * 64) || !tieField r 56 || !tieField r 60

/-- 0x0902 of a lidar template (R449).
Log entry: 128 (DEDUCED). -/
def lidarMalformed (r : List Nat) : Bool :=
  decide (3 < r.getD 0 0) || decide (3 < r.getD 1 0) || decide (3 < r.getD 2 0)
    || !(decide (2 ≤ r.getD 3 0) && decide (r.getD 3 0 ≤ 16)) || decide (9000 < fld r 6 2)
    || !(decide (4 ≤ fld r 8 2) && decide (fld r 8 2 ≤ 256)) || !(decide (1 ≤ fld r 10 2) && decide (fld r 10 2 ≤ 1024))
    || (r.getD 0 0 == 3 && fld r 18 2 == 0xFFFF)
    || !(decide (0 < fld r 24 4) && decide (fld r 24 4 < 0x7F800000)) || fld r 28 2 == 0
    || !(decide (1 ≤ fld r 30 2) && decide (fld r 30 2 ≤ 256))
    || !(decide (1000 ≤ fld r 32 4) && decide (fld r 32 4 ≤ 1000000)) || decide (2000000 < fld r 36 4)
    || fld r 40 6 % 64 != 0 || fld r 46 6 % 4096 != 0 || fld r 52 4 % 4096 != 0 || !tieField r 56 || !tieField r 60

/-- Bytes of the table that a stream reads at its commit: the tone table, or the direction table (R435, R449). -/
def tableBytes (k : Nat) (r : List Nat) : Nat := if isLidar k then fld r 30 2 * fld r 28 2 * 12 else 2050

/-- Whether n bytes lie in pages that a context owns, or in a shared region that grants a port write (R436). -/
def writableRange (s : State) (port ctx a n : Nat) : Bool :=
  (checkPoints a n).all (fun x => decide (x < hbmEnd) && ((decide (ctx < 64) && ownerOf s x == ctx) ||
    (decide (0x41 ≤ ownerOf s x) && decide (ownerOf s x ≤ 0x4F) && portShares s (ownerOf s x - 0x40) port true)))

/-- The fields that CAM_STREAM_COMMIT commits. -/
def camFields (k : Nat) : List (Field × Nat) :=
  [(CAM_STREAM_ADDR.addr, k * 0x20), (CAM_TONE_ADDR.addr, k * 0x20), (CAM_STREAM_CTRL.enable, k * 0x20),
   (CAM_STREAM_CTRL.owner, k * 0x20)]

/-- Whether staged fields equal the committed ones. -/
def sameStaged (s : State) (l : List (Field × Nat)) : Bool := l.all (fun e => stg s e.1 e.2 == com s e.1 e.2)

/-- What a stream commit has read: record and table, the first status that a read met, and the state after.
Log entries: 124 (DEDUCED), 125 (DEDUCED). -/
def camReads (k owner addr table : Nat) (s : State) : Nat × List Nat × List Nat × State :=
  let a := readMem (streamPort k) owner addr 64 [] s
  if a.1 ≠ 0 then (0x0007, [], [], a.2.2)
  else if (if isLidar k then lidarMalformed a.2.1 else camMalformed a.2.1) then (0, a.2.1, [], a.2.2)
  else
    let t := readMem (streamPort k) owner table (tableBytes k a.2.1) [] a.2.2
    if t.1 ≠ 0 then (0x0007, [], [], t.2.2) else (0, a.2.1, t.2.1, t.2.2)

/-- The checks of a stream commit after its reads (R436).
Log entry: 124 (DEDUCED). -/
def camStatus (s : State) (k owner table : Nat) (r : List Nat) : Nat :=
  let x := streamOf s k
  let port := streamPort k
  let slots := inSlots k r
  if x.enabled ∨ x.waiting.isSome then 0x0901
  else if (if isLidar k then lidarMalformed r else camMalformed r) then 0x0902
  else if !(writableRange s port owner (inRec r) (slots * 64)
      && writableRange s port owner (inBuf r) ((slots + 2) * inBufBytes r)
      && writableRange s port owner table (tableBytes k r)) then 0x0903
  else if !(tieAllowed s owner (inReady r) && tieAllowed s owner (inRelease r)) then 0x0904
  else 0

/-- Write a stream commit's result (R468, R769). -/
def camDone (k : Nat) (r : Refuse) (s : State) : State :=
  commitDone 0 r (wr CAM_STREAM_STATUS.status (k * 0x20) r.1 s)

/-- CAM_STREAM_COMMIT (R436): a commit that enables reads the record and the table; one that only disables takes effect
at the next frame start (R445).
Log entry: 124 (DEDUCED). -/
def execCamStreamCommit (stream value : Nat) (s : State) : Host.Outcome State Fault Refusal :=
  .next (if value % 2 = 0 ∨ 24 ≤ stream then s
    else
      let at_ := stream * 0x20
      let s0 := commitAt 0 (0xD0001C + at_) s
      let addr := stg s CAM_STREAM_ADDR.addr at_
      let table := stg s CAM_TONE_ADDR.addr at_
      let owner := stg s CAM_STREAM_CTRL.owner at_
      let x := streamOf s stream
      if dieSilent s 0 then camDone stream (0x0C40, 0) s0
      else if addr % 64 ≠ 0 then camDone stream (0x0003, 0xD00000 + at_) s0
      else if table % 64 ≠ 0 then camDone stream (0x0003, 0xD00008 + at_) s0
      else if stg s CAM_STREAM_CTRL.enable at_ = 0 then
        if x.enabled then
          if sameStaged s [(CAM_STREAM_ADDR.addr, at_), (CAM_TONE_ADDR.addr, at_), (CAM_STREAM_CTRL.owner, at_)] then
            camDone stream (0, 0) (modStream stream (fun x => { x with stopping := true }) (acceptStaged (camFields stream) s0))
          else camDone stream (0x0901, 0) s0
        else camDone stream (0, 0) (acceptStaged (camFields stream) s0)
      else
        let q := camReads stream owner addr table s0
        let st := if q.1 ≠ 0 then q.1 else camStatus q.2.2.2 stream owner table q.2.1
        if st ≠ 0 then camDone stream (st, if st = 0x0007 then 0xD00000 + at_ else 0) q.2.2.2
        else camDone stream (0, 0) (wrB CAM_STREAM_STATUS.running at_ true
          (setStream stream { enabled := true, record := q.2.1, table := q.2.2.1, owner := owner, lastStart := now s }
            (acceptStaged (camFields stream) q.2.2.2))))

end Sys2Proof.Machine
end

