-- ==== Sys2Proof/Machine/Sampler.lean ====
section
/-! DEFINITION. The samplers: the shuffle, manifests, the settling of slots and the batch areas (R461 to R467, R782). -/

namespace Sys2Proof.Machine

open Reg

/-- Sampler k. -/
def samplerOf (s : State) (k : Nat) : Sampler := aget s.input.samplers k {}

/-- Change sampler k. -/
def modSampler (k : Nat) (f : Sampler → Sampler) (s : State) : State :=
  { s with input := { s.input with samplers := aset s.input.samplers k (f (samplerOf s k)) {} } }

/-! ## The shuffle (R462) -/

/-- The smallest b, at least 1, with 2^(2b) ≥ n. -/
def shuffleBits (n : Nat) : Nat := ((List.range 16).map (· + 1)).find? (fun b => decide (n ≤ 2 ^ (2 * b))) |>.getD 16

/-- The key of an epoch. -/
def shuffleKey (seed epoch : Nat) : Nat := srBits seed epoch * 2 ^ 32 + srBits seed (2 ^ 32 + epoch)

/-- Six Feistel rounds on 2b bits. -/
def feistel (key b x : Nat) : Nat :=
  let y := (List.range 6).foldl (fun (lr : Nat × Nat) k =>
    (lr.2, lr.1 ^^^ (srBits key (k * 2 ^ 32 + lr.2) % 2 ^ b))) (x / 2 ^ b, x % 2 ^ b)
  y.1 * 2 ^ b + y.2

/-- Walk the cycle until the value lies below n; the fuel is the size of the set permuted. -/
def shuffleWalk (key b n : Nat) : Nat → Nat → Nat
  | 0, x => x
  | fuel + 1, x => let y := feistel key b x; if y < n then y else shuffleWalk key b n fuel y

/-- shuffle(i) of R462. -/
def shuffle (i n seed epoch : Nat) : Nat :=
  shuffleWalk (shuffleKey seed epoch) (shuffleBits n) n (2 ^ (2 * shuffleBits n)) i

/-! ## The record (R461) -/

/-- Samples of the dataset. -/
def smN (r : List Nat) : Nat := fld r 0 4
/-- Samples of a batch. -/
def smB (r : List Nat) : Nat := fld r 16 2
/-- Batches in flight. -/
def smAhead (r : List Nat) : Nat := r.getD 18 0
/-- Bytes of a sample. -/
def smBytes (r : List Nat) : Nat := fld r 20 4
/-- n rounded up to 64. -/
def up64 (n : Nat) : Nat := divUp n 64 * 64
/-- Bytes of a manifest entry. -/
def manifestBytes (r : List Nat) : Nat := up64 (4 * smB r)
/-- Offset of the substitution records in a batch area. -/
def substAt (r : List Nat) : Nat := 64 + up64 (divUp (smB r) 8)
/-- Offset of the samples in a batch area. -/
def samplesAt (r : List Nat) : Nat := up64 (substAt r + 16 * smB r)
/-- Bytes of a batch area (R466). -/
def areaBytes (r : List Nat) : Nat := samplesAt r + smB r * smBytes r
/-- Batches of an epoch (R463).
Log entry: 136 (DEDUCED). -/
def smBatches (r : List Nat) : Nat := divUp (smN r) (smB r)

/-- Whether a sampler record is malformed (R461).
Log entry: 136 (DEDUCED). -/
def samplerMalformed (r : List Nat) : Bool :=
  smN r == 0 || !(decide (1 ≤ smB r) && decide (smB r ≤ 4096)) || !(decide (1 ≤ smAhead r) && decide (smAhead r ≤ 16))
    || decide (1 < r.getD 19 0) || smBytes r % 64 != 0 || !tieField r 40 || !tieField r 44 || !tieField r 48
    || !zeroAt r 52 12 || smBatches r ≤ fld r 36 4

/-! ## Manifests and batches -/

/-- The value that a sampler's release Tie has reached. -/
def smReleased (s : State) (k : Nat) : Nat := tieValue s (fld (samplerOf s k).record 48 4)

/-- Sample indices of batch j of an epoch (R463). -/
def manifest (r : List Nat) (epoch j : Nat) : List Nat :=
  (List.range (min (smB r) (smN r - j * smB r))).map (fun i => shuffle (j * smB r + i) (smN r) (fld r 8 8) epoch)

/-- MANIFEST_WRITE (R463): the running number counts on from first_batch through the epochs.
Log entry: 136 (DEDUCED). -/
def execManifestWrite (sampler : Nat) (s : State) : Host.Outcome State Fault Refusal :=
  let x := samplerOf s sampler
  let r := x.record
  .next (
    if !x.enabled ∨ s.mode ≠ .run ∨ smBatches r ≤ x.index ∨ smReleased s sampler + smAhead r < x.number + 1 then s
    else
      let m := manifest r x.epoch x.index
      let s1 := writeMem' 65 x.owner (fld r 24 6 + x.number % smAhead r * manifestBytes r) (m.flatMap (leBytes 4)) s
      let b : Batch := ⟨x.number, x.epoch, x.index, m, []⟩
      let last := x.index + 1 = smBatches r ∧ bit (r.getD 19 0) 0
      let s2 := modSampler sampler (fun x => { x with
        number := x.number + 1
        epoch := if last then (x.epoch + 1) % 2 ^ 32 else x.epoch
        index := if last then 0 else x.index + 1
        batches := x.batches.filter (fun b => smReleased s sampler ≤ b.number) ++ [b] }) s1
      signalFrom (1368 + sampler) 65 x.owner (fld r 40 4) 1 s2)

/-- The batch that a chunk names, written and not released, whose manifest entry for the slot is its index (R464). -/
def chunkBatch (s : State) (k batch slot index : Nat) : Option Batch :=
  (samplerOf s k).batches.find? (fun b => b.index == batch && decide (smReleased s k ≤ b.number)
    && b.samples[slot]? == some index)

/-- First address of a batch's area. -/
def areaAt (r : List Nat) (b : Batch) : Nat := fld r 30 6 + b.number % smAhead r * areaBytes r

/-- The mask of a batch: bit k set for a good slot (R466). -/
def batchMask (b : Batch) : Nat := sumNat (b.settled.map (fun e => if e.2.1 = 0 then 2 ^ e.1 else 0))

/-- Write the area of a batch whose slots have all settled, beside its samples, and signal the batch Tie (R466). -/
def finishBatch (k : Nat) (b : Batch) (s : State) : State :=
  let x := samplerOf s k
  let r := x.record
  let bad := countIf b.settled (fun e => e.2.1 != 0)
  let head := leBytes 4 b.index ++ leBytes 4 b.epoch ++ leBytes 2 b.samples.length ++ leBytes 2 bad ++ leBytes 8 (dial s)
    ++ List.replicate 44 0
  let mask := leBytes (substAt r - 64) (batchMask b)
  let subst := (List.range (smB r)).flatMap (fun i =>
    match b.settled.find? (fun e => e.1 == i) with
    | some e => if e.2.1 = 0 then List.replicate 16 0
        else leBytes 2 i ++ leBytes 2 e.2.1 ++ leBytes 4 (b.samples.getD i 0) ++ leBytes 8 e.2.2
    | none => List.replicate 16 0)
  signalFrom (1368 + k) 65 x.owner (fld r 44 4) 1 (writeMem' 65 x.owner (areaAt r b) (head ++ mask ++ subst) s)

/-- Settle a slot once: cause 0 with its bytes, or a cause of R465 with a sample of zeros.
Log entry: 136 (DEDUCED). -/
def settle (k batch slot index cause : Nat) (data : List Nat) (s : State) : State :=
  match chunkBatch s k batch slot index with
  | none => s
  | some b =>
    if b.settled.any (fun e => e.1 == slot) then s
    else
      let x := samplerOf s k
      let r := x.record
      let bytes := if cause = 0 then data else List.replicate (smBytes r) 0
      let s1 := if bytes.isEmpty then s
        else writeMem' 65 x.owner (areaAt r b + samplesAt r + slot * smBytes r) bytes s
      let b1 := { b with settled := aput b.settled slot (cause, dial s) }
      let s2 := modSampler k (fun x => { x with batches := x.batches.map (fun c => if c.number = b.number then b1 else c) }) s1
      let s3 := if cause = 0 then s2 else incSat DEC_SUBST_COUNT.substituted (k * 0x20) 1 s2
      if b1.settled.length = b1.samples.length then finishBatch k b1 s3 else s3

/-! ## DEC_SAMPLER_COMMIT -/

/-- The fields that DEC_SAMPLER_COMMIT commits (R782). -/
def samplerFields (k : Nat) : List (Field × Nat) :=
  [(DEC_SAMPLER_ADDR.addr, k * 0x20), (DEC_SAMPLER_CTRL.enable, k * 0x20), (DEC_SAMPLER_CTRL.owner, k * 0x20)]

/-- The checks of a sampler commit after its read, in the manner of R436. -/
def samplerStatus (s : State) (k owner : Nat) (r : List Nat) : Nat :=
  if (samplerOf s k).enabled then 0x0901
  else if samplerMalformed r then 0x0902
  else if !(writableRange s 65 owner (fld r 24 6) (smAhead r * manifestBytes r)
      && writableRange s 65 owner (fld r 30 6) (smAhead r * areaBytes r)) then 0x0903
  else if !(tieAllowed s owner (fld r 40 4) && tieAllowed s owner (fld r 44 4) && tieAllowed s owner (fld r 48 4)) then 0x0904
  else 0

/-- Write a sampler commit's result. -/
def samplerDone (k : Nat) (r : Refuse) (s : State) : State :=
  commitDone 0 r (wr DEC_SAMPLER_STATUS.status (k * 0x20) r.1 s)

/-- DEC_SAMPLER_COMMIT (R782): a commit that disables keeps the batches in flight, which still settle (R763).
Log entry: 125 (DEDUCED). -/
def execDecSamplerCommit (sampler value : Nat) (s : State) : Host.Outcome State Fault Refusal :=
  .next (if value % 2 = 0 ∨ 4 ≤ sampler then s
    else
      let at_ := sampler * 0x20
      let s0 := commitAt 0 (0xE0101C + at_) s
      let owner := stg s DEC_SAMPLER_CTRL.owner at_
      if dieSilent s 0 then samplerDone sampler (0x0C40, 0) s0
      else if stg s DEC_SAMPLER_CTRL.enable at_ = 0 then
        if (samplerOf s sampler).enabled
          ∧ !sameStaged s [(DEC_SAMPLER_ADDR.addr, at_), (DEC_SAMPLER_CTRL.owner, at_)] then
          samplerDone sampler (0x0901, 0) s0
        else samplerDone sampler (0, 0) (modSampler sampler (fun x => { x with enabled := false })
          (acceptStaged (samplerFields sampler) s0))
      else
        let q := readMem 65 owner (stg s DEC_SAMPLER_ADDR.addr at_) 64 [] s0
        let st := if q.1 ≠ 0 then 0x0007 else samplerStatus q.2.2 sampler owner q.2.1
        if st ≠ 0 then samplerDone sampler (st, if st = 0x0007 then 0xE01000 + at_ else 0) q.2.2
        else samplerDone sampler (0, 0) (modSampler sampler (fun _ =>
          { enabled := true, record := q.2.1, owner := owner, number := fld q.2.1 36 4, epoch := fld q.2.1 4 4,
            index := fld q.2.1 36 4 }) (acceptStaged (samplerFields sampler) q.2.2)))

end Sys2Proof.Machine
end

