-- ==== Sys2Proof/Machine/Decoder.lean ====
section
/-! DEFINITION. The video decoders (R453 to R460, R464, R465, R782), the polling budget (R294), and the release of
waiting units of the Hearth. -/

namespace Sys2Proof.Machine

open Reg

/-! ## Streams and their records (R454) -/

/-- Decode stream d. -/
def decOf (s : State) (d : Nat) : DecStream := aget s.input.decs d {}

/-- Change decode stream d. -/
def modDec (d : Nat) (f : DecStream → DecStream) (s : State) : State :=
  { s with input := { s.input with decs := aset s.input.decs d (f (decOf s d)) {} } }

/-- Whether a record asks for sample mode. -/
def decSample (r : List Nat) : Bool := bit (r.getD 1 0) 0

/-- Entries of the chunk ring. -/
def chunkSize (r : List Nat) : Nat := 2 ^ r.getD 2 0

/-- Bytes of a picture (R460): luma, then the interleaved chroma plane, rows padded to 64 B.
Log entry: 133 (DEDUCED). -/
def picBytes (w h depth chroma : Nat) : Nat :=
  let e := if depth = 10 then 2 else 1
  h * up64 (w * e) + (if chroma = 0 then divUp h 2 * up64 (2 * divUp w 2 * e) else 0)

/-- 64 KiB blocks of a picture's buffer.
Log entry: 133 (DEDUCED). -/
def picBlocks (w h depth chroma : Nat) : Nat := max 1 (divUp (picBytes w h depth chroma) 65536)

/-- Whether a decode stream record is malformed (R454). -/
def decMalformed (r : List Nat) : Bool :=
  let out := fun (n lo hi : Nat) => decide (n < lo) || decide (hi < n)
  let sample := decSample r
  out (r.getD 0 0) 1 4 || decide (1 < r.getD 1 0) || out (r.getD 2 0) 6 12
    || (if sample then decide (3 < r.getD 3 0) else r.getD 3 0 != 0)
    || out (fld r 4 2) 16 8192 || out (fld r 6 2) 16 4352 || out (r.getD 8 0) 1 16
    || (if sample then r.getD 9 0 != 0 else out (r.getD 9 0) 2 16)
    || (if inPcie (fld r 18 6) then out (fld r 10 2) 1 1000 else fld r 10 2 != 0)
    || fld r 12 6 % 4096 != 0 || fld r 18 6 % 64 != 0 || fld r 24 6 % 65536 != 0
    || (sample && (fld r 34 6 != 0 || fld r 46 4 != 0 || fld r 50 4 != 0))
    || !tieField r 46 || !tieField r 50 || !zeroAt r 54 10

/-- Engine time in ns of a frame at the declared size: t_decl (R456). -/
def tDecl (r : List Nat) : Nat := fld r 4 2 * fld r 6 2 * 2

/-- The decode budget of a frame in ns (R457). -/
def decBudget (x : DecStream) : Nat :=
  let four := if x.times.isEmpty then 4 * tDecl x.record else 4 * sumNat x.times / x.times.length
  min (max four 2000000) (4 * tDecl x.record)

/-! ## Output (R460) -/

/-- Buffers named by output records not yet released. -/
def decHeld (s : State) (x : DecStream) : List Nat :=
  let slots := max 1 (x.record.getD 9 0)
  (List.range slots).filterMap (fun i =>
    if i < x.outSeq ∧ tieValue s (fld x.record 50 4) ≤ x.outSeq - 1 - i
    then some (x.bufs.getD ((x.outSeq - 1 - i) % slots) 0) else none)

/-- Write one output: the picture into a free buffer, which the spec does not choose, the record, and the ready Tie.
Log entry: 132 (DESIGN CHOICE). -/
def writeOut (d : Nat) (o : DecOut) (s : State) : State :=
  let x := decOf s d
  let r := x.record
  let f := o.frame
  let slots := max 1 (r.getD 9 0)
  let blocks := picBlocks f.width f.height f.depth f.chroma
  let held := decHeld s x
  let free := ((List.range (fld r 30 4 / blocks)).map (fun i => fld r 24 6 + i * blocks * 65536)).filter
    (fun a => !held.contains a)
  withDraw s (max 1 free.length) (fun v s =>
    let buf := if o.status = 0 then free.getD v (fld r 24 6) else 0
    let n := if r.getD 0 0 = 4 then f.bytes.length else picBytes f.width f.height f.depth f.chroma
    let data := if r.getD 0 0 = 4 then f.bytes
      else (List.range n).map (fun i => (Config.pictureByte (r.getD 0 0) f.bytes i).toNat)
    let s1 := if o.status = 0 ∧ 0 < n then writeMem' 65 x.owner buf data s else s
    let line := leBytes 4 x.outSeq ++ leBytes 2 o.status ++ leBytes 2 f.width ++ leBytes 2 f.height
      ++ [f.depth, f.chroma] ++ leBytes 4 x.head ++ leBytes 8 (dial s1) ++ leBytes 4 (f.engineNs / 1000)
      ++ leBytes 6 buf ++ List.replicate 30 0
    let s2 := writeMem' 65 x.owner (fld r 34 6 + x.outSeq % slots * 64) line s1
    let bufs := if x.bufs.length < slots then x.bufs ++ [buf] else setAt x.bufs (x.outSeq % slots) buf
    signalFrom (1304 + d) 65 x.owner (fld r 46 4 % 2 ^ 17) 1
      (modDec d (fun x => { x with outSeq := (x.outSeq + 1) % 2 ^ 32, bufs := bufs }) s2))

/-- Wait for the release Tie of a decode stream (R437, R460). -/
def waitOut (d : Nat) (s : State) : State :=
  let x := decOf s d
  let tie := fld x.record 50 4 % 2 ^ 17
  if waitPending s (1304 + d) ∨ !reach s 0 (tieHome tie) then s
  else
    let w : TieWait := ⟨tie, x.outSeq + 1 - x.record.getD 9 0, false, .other (1304 + d), x.owner, 0⟩
    evalWaits tie { s with rings := { s.rings with waits := s.rings.waits ++ [w] } }

/-- Write the outputs whose records are free, in order; a stream without one waits and drops none. -/
def flushOuts (d : Nat) : Nat → State → State
  | 0, s => s
  | n + 1, s =>
    let x := decOf s d
    match x.outs with
    | [] => s
    | o :: rest =>
      if x.outSeq + 1 ≤ x.record.getD 9 0 + tieValue s (fld x.record 50 4) then
        flushOuts d n (writeOut d o (modDec d (fun x => { x with outs := rest }) s))
      else waitOut d s

/-- End a frame of sample mode, or make its output due (R458, R460, R465). -/
def endFrame (d status : Nat) (f : DecFrame) (s : State) : State :=
  let x := decOf s d
  if decSample x.record then
    let n := if x.record.getD 0 0 = 4 then f.bytes.length else picBytes f.width f.height f.depth f.chroma
    let cause := if status ≠ 0 then status else if n ≠ smBytes (samplerOf s (x.record.getD 3 0)).record then 0x0927 else 0
    let data := if cause ≠ 0 then [] else if x.record.getD 0 0 = 4 then f.bytes
      else (List.range n).map (fun i => (Config.pictureByte (x.record.getD 0 0) f.bytes i).toNat)
    settle (x.record.getD 3 0) f.batch f.slot f.index cause data s
  else
    let s1 := modDec d (fun x => { x with outs := x.outs ++ [⟨f, status⟩] }) s
    flushOuts d (x.outs.length + 1) s1

/-! ## Chunks (R455, R458, R464) -/

/-- Advance the chunk head and write the echo line. -/
def takeHead (d : Nat) (s : State) : State :=
  let x := decOf s d
  let h := (x.head + 1) % 2 ^ 32
  writeMem' 65 x.owner (fld x.record 40 6) (padTo 64 (leBytes 4 h)) (modDec d (fun x => { x with head := h }) s)

/-- Add a chunk's bytes to the frame in work, or begin one with it. -/
def addChunk (d : Nat) (c : List Nat) (s : State) : State :=
  let x := decOf s d
  let q := if fld c 6 4 = 0 then (0, [], s) else readMem 65 x.owner (fld c 0 6) (fld c 6 4) [] s
  let f := x.frame.getD { batch := fld c 16 4, slot := fld c 20 2, index := fld c 12 4 }
  let fresh := x.frame.isNone && bit (c.getD 10 0) 0
  let crcBad := x.record.getD 0 0 == 4 && crc32c q.2.1 != fld c 22 4
  let g := { f with bytes := f.bytes ++ q.2.1, whole := bit (c.getD 10 0) 1, crcBad := f.crcBad || crcBad,
                    readBad := f.readBad || q.1 != 0 }
  modDec d (fun x => { x with frame := some g, discarding := false, stream := if fresh then [] else x.stream }) q.2.2

/-- Take one chunk (R458, R464, R465).
Log entry: 134 (DEDUCED). -/
def takeChunk (d : Nat) (c : List Nat) (s : State) : State :=
  let x := decOf s d
  let k := x.record.getD 3 0
  let flags := c.getD 10 0
  let skipped : DecFrame := { batch := fld c 16 4, slot := fld c 20 2, index := fld c 12 4 }
  if decSample x.record && (chunkBatch s k (fld c 16 4) (fld c 20 2) (fld c 12 4)).isNone then
    event 0x0933 0 x.owner (0x100 + d) 1 (leBytes 4 (fld c 12 4)) s
  else if decSample x.record && bit flags 2 then settle k (fld c 16 4) (fld c 20 2) (fld c 12 4) 0x0926 [] s
  else if x.discarding && !bit flags 0 then (if bit flags 1 then endFrame d 0x0928 skipped s else s)
  else addChunk d c s

/-- Take chunks until a whole frame is in work, or none is left; the fuel is the size of the ring. -/
def pump (d : Nat) : Nat → State → State
  | 0, s => s
  | n + 1, s =>
    let x := decOf s d
    if !x.enabled || x.stopped || x.head == x.tail || (x.frame.map (·.whole)).getD false then s
    else
      let q := readMem 65 x.owner (fld x.record 12 6 + x.head % chunkSize x.record * 32) 32 [] s
      if q.1 ≠ 0 then q.2.2 else pump d n (takeChunk d q.2.1 (takeHead d q.2.2))

/-! ## Engines (R459) -/

/-- Engine e. -/
def engineOf (s : State) (e : Nat) : DecEngine := s.input.engines.getD e {}

/-- Set engine e. -/
def setEngine (e : Nat) (v : DecEngine) (s : State) : State :=
  { s with input := { s.input with engines := setAt s.input.engines e v } }

/-- Whether a stream has a slice ready: a whole frame that no engine works on, and no output that waits.
Log entry: 135 (DEDUCED). -/
def sliceReady (s : State) (d : Nat) : Bool :=
  let x := decOf s d
  (x.frame.map (·.whole)).getD false && x.outs.isEmpty && !(s.input.engines.any (fun e => e.stream == some d))

/-- Give an idle engine its next slice: the stream after the one that it last served, in ascending order with wrap.
The engines are off under the limp profile (R671).
Log entry: 135 (DEDUCED). -/
def assignEngine (s : State) (e : Nat) : State :=
  let g := engineOf s e
  if g.stream.isSome || rdB s PWR_STATUS.limp then s
  else match ((List.range 64).map (fun i => (g.last + 1 + i) % 64)).find? (sliceReady s) with
    | some d => setEngine e { stream := some d, startAt := now s, last := d } s
    | none => s

/-- Give every idle engine its next slice.
Log entry: 135 (DEDUCED). -/
def assignEngines (s : State) : State := (List.range 4).foldl assignEngine s

/-- End a frame that failed with a status; its stream discards chunks to the next random-access point (R458).
Log entry: 134 (DEDUCED). -/
def failFrame (d status : Nat) (f : DecFrame) (s : State) : State :=
  endFrame d status f (modDec d (fun x => { x with frame := none, discarding := true }) s)

/-- Abandon a frame on its budget (R457).
Log entry: 134 (DEDUCED). -/
def abandon (d : Nat) (f : DecFrame) (s : State) : State :=
  failFrame d 0x0922 f (incSat DEC_ABANDON_COUNT.abandoned (d * 0x20) 1 s)

/-- The status with which a sequence header is refused, 0 where it is accepted (R456).
Log entries: 133 (DEDUCED), 134 (DEDUCED). -/
def headerStatus (r : List Nat) (h : SeqHeader) : Nat :=
  if h.mismatch || decide (fld r 4 2 < h.width) || decide (fld r 6 2 < h.height) || decide (8192 < h.width)
    || decide (4352 < h.height) then 0x0920
  else if fld r 30 4 < (h.refs + 1) * picBlocks h.width h.height h.depth h.chroma ∨ r.getD 8 0 < h.refs then 0x0921
  else 0

/-- Insert a finished frame in output order. -/
def insertDone (f : DecFrame) : List DecFrame → List DecFrame
  | [] => [f]
  | g :: r => if f.order < g.order then f :: g :: r else g :: insertDone f r

/-- A frame is complete and successful: its time enters the mean, and it is settled or the frames due are output.
Log entry: 132 (DESIGN CHOICE). -/
def goodFrame (d : Nat) (f : DecFrame) (p : SliceReport) (s : State) : State :=
  let x := decOf s d
  let upto := x.stream ++ f.bytes
  let g := { f with bytes := if x.record.getD 0 0 = 4 then f.bytes else upto, width := p.width, height := p.height,
                    depth := p.depth, chroma := p.chroma, order := p.order }
  let s1 := incWrap DEC_FRAME_COUNT.frames (d * 0x20) 1
    (modDec d (fun x => { x with frame := none, stream := upto, times := (f.engineNs :: x.times).take 16 }) s)
  if decSample x.record then endFrame d 0 g s1
  else
    let l := insertDone g x.done
    let s2 := modDec d (fun x => { x with done := l.drop p.outputs }) s1
    (l.take p.outputs).foldl (fun s f => endFrame d 0 f s) s2

/-- What an engine's report does to the frame of a stream (R456 to R458, R465).
Log entries: 132 (DESIGN CHOICE), 134 (DEDUCED). -/
def judgeSlice (d : Nat) (f : DecFrame) (p : SliceReport) (s : State) : State :=
  let x := decOf s d
  let hs := (p.header.map (headerStatus x.record)).getD 0
  if decBudget x ≤ f.engineNs then abandon d f s
  else if hs ≠ 0 then
    let s1 := event 0x0932 0 x.owner (0x100 + d) 0 (leBytes 2 hs)
      (modDec d (fun x => { x with frame := none, discarding := true }) s)
    if decSample x.record then settle (x.record.getD 3 0) f.batch f.slot f.index hs [] s1 else s1
  else if p.fault || f.readBad || (f.crcBad && !decSample x.record) then failFrame d 0x0923 f s
  else if !p.last then modDec d (fun x => { x with frame := some f }) s
  else if f.crcBad then
    settle (x.record.getD 3 0) f.batch f.slot f.index 0x0925 [] (modDec d (fun x => { x with frame := none }) s)
  else goodFrame d f p s

/-- Free an engine with the time that it spent on its frame, and what then happens to the frame. -/
def sliceEnd (e : Nat) (k : Nat → DecFrame → State → State) (s : State) : State :=
  let g := engineOf s e
  match g.stream with
  | none => s
  | some d =>
    let s1 := setEngine e { g with stream := none } s
    match (decOf s d).frame with
    | none => assignEngines s1
    | some f =>
      let f1 := { f with engineNs := f.engineNs + (now s - g.startAt) }
      let s2 := k d f1 s1
      assignEngines (pump d (chunkSize (decOf s2 d).record) s2)

/-- SLICE_COMPLETE (R459). -/
def execSliceComplete (engine : Nat) (report : SliceReport) (s : State) : Host.Outcome State Fault Refusal :=
  .next (sliceEnd engine (fun d f s => judgeSlice d f report s) s)

/-- DECODE_BUDGET_EXPIRY (R457): the engine's frame reaches its budget. -/
def execDecodeBudgetExpiry (engine : Nat) (s : State) : Host.Outcome State Fault Refusal :=
  .next (match (engineOf s engine).stream with
    | none => s
    | some d =>
      let x := decOf s d
      let due := (engineOf s engine).startAt + (decBudget x - (x.frame.map (·.engineNs)).getD 0)
      sliceEnd engine abandon (passTo due s))

/-- CHUNK_DOORBELL (R455): the line is watched in HBM and polled in the PCIe window (R292, R293).
Log entry: 134 (DEDUCED). -/
def execChunkDoorbell (stream : Nat) (s : State) : Host.Outcome State Fault Refusal :=
  let x := decOf s stream
  .next (
    if !x.enabled ∨ x.stopped ∨ s.mode ≠ .run then s
    else
      let poll := fld x.record 10 2
      let s1 := if poll = 0 then s else passTo (x.polledAt + poll * 1000) s
      let s2 := if poll = 0 then s1 else modDec stream (fun x => { x with polledAt := now s1 }) s1
      let q := readMem 65 x.owner (fld x.record 18 6) 64 [] s2
      let tail := fld q.2.1 0 4
      if chunkSize x.record < (tail + 2 ^ 32 - x.head) % 2 ^ 32 then
        event 0x0934 0 x.owner (0x100 + stream) 1 [] (modDec stream (fun x => { x with stopped := true }) q.2.2)
      else assignEngines (pump stream (chunkSize x.record) (modDec stream (fun x => { x with tail := tail }) q.2.2)))

/-! ## The polling budget and the commit -/

/-- The poll intervals in µs of every polled line but those that the caller leaves out (R294, R455, R629).
Log entry: 138 (DEDUCED). -/
def polledLines (s : State) (ctx dec : Option Nat) : List Nat :=
  (((List.range 64).filter (fun c => ctx != some c && ctxOpen s c)).flatMap (fun c => (List.range 4).filterMap (fun r =>
      if ringEnabled s c r ∧ com s HST_SQ_CFG.poll_us (c * 0x100 + 4 * r) ≠ 0
      then some (com s HST_SQ_CFG.poll_us (c * 0x100 + 4 * r)) else none)))
    ++ (s.input.decs.filterMap (fun e =>
      if e.2.enabled ∧ dec ≠ some e.1 ∧ fld e.2.record 10 2 ≠ 0 then some (fld e.2.record 10 2) else none))
    ++ ((List.range 64).filterMap (fun c =>
      if com s OVR_Q_CFG.enable (c * 0x40) = 1 ∧ com s OVR_Q_CFG.poll_us (c * 0x40) ≠ 0
      then some (com s OVR_Q_CFG.poll_us (c * 0x40)) else none))

/-- Whether the sum of 64 / poll_us is at most 2,000 (R294).
Log entry: 138 (DEDUCED). -/
def pollOk (l : List Nat) : Bool :=
  let t := l.foldl (fun (a : Nat × Nat) p => (a.1 * p + 64 * a.2, a.2 * p)) (0, 1)
  decide (t.1 ≤ 2000 * t.2)

/-- The fields that DEC_STREAM_COMMIT commits (R782). -/
def decFields (d : Nat) : List (Field × Nat) :=
  [(DEC_STREAM_ADDR.addr, d * 0x20), (DEC_STREAM_CTRL.enable, d * 0x20), (DEC_STREAM_CTRL.owner, d * 0x20)]

/-- The checks of a decode stream commit after its read, in the manner of R436 for port 65. -/
def decStatus (s : State) (d owner : Nat) (r : List Nat) : Nat :=
  let x := decOf s d
  let sample := decSample r
  if x.enabled ∨ !x.outs.isEmpty ∨ x.frame.isSome then 0x0901
  else if decMalformed r then 0x0902
  else if !(writableRange s 65 owner (fld r 24 6) (fld r 30 4 * 65536)
      && (sample || writableRange s 65 owner (fld r 34 6) (r.getD 9 0 * 64))
      && (inPcie (fld r 40 6) || writableRange s 65 owner (fld r 40 6) 64)) then 0x0903
  else if !sample && !(tieAllowed s owner (fld r 46 4) && tieAllowed s owner (fld r 50 4)) then 0x0904
  else 0

/-- Write a decode stream commit's result. -/
def decDone (d : Nat) (r : Refuse) (s : State) : State :=
  commitDone 0 r (wr DEC_STREAM_STATUS.status (d * 0x20) r.1 s)

/-- DEC_STREAM_COMMIT (R782): a commit that disables takes no further chunk; the frame in work still ends (R763).
Log entry: 125 (DEDUCED). -/
def execDecStreamCommit (stream value : Nat) (s : State) : Host.Outcome State Fault Refusal :=
  .next (if value % 2 = 0 ∨ 64 ≤ stream then s
    else
      let at_ := stream * 0x20
      let s0 := commitAt 0 (0xE0001C + at_) s
      let owner := stg s DEC_STREAM_CTRL.owner at_
      if dieSilent s 0 then decDone stream (0x0C40, 0) s0
      else if stg s DEC_STREAM_CTRL.enable at_ = 0 then
        if (decOf s stream).enabled ∧ !sameStaged s [(DEC_STREAM_ADDR.addr, at_), (DEC_STREAM_CTRL.owner, at_)] then
          decDone stream (0x0901, 0) s0
        else decDone stream (0, 0) (modDec stream (fun x => { x with enabled := false })
          (acceptStaged (decFields stream) s0))
      else
        let q := readMem 65 owner (stg s DEC_STREAM_ADDR.addr at_) 64 [] s0
        let poll := fld q.2.1 10 2
        let beyond := poll != 0 && !pollOk (poll :: polledLines s none (some stream))
        let st := if q.1 ≠ 0 then 0x0007 else if beyond then 0x0006 else decStatus q.2.2 stream owner q.2.1
        if st ≠ 0 then decDone stream (st, if st < 0x0100 then 0xE00000 + at_ else 0) q.2.2
        else decDone stream (0, 0) (modDec stream (fun _ =>
          { enabled := true, record := q.2.1, owner := owner, polledAt := now s }) (acceptStaged (decFields stream) q.2.2)))

end Sys2Proof.Machine
end

