-- ==== Sys2Proof/Machine/Fabric.lean ====
section
/-! DEFINITION. Operations that the Trowels share: who stands on a Brick, the search for a placement (R57 to R61),
refusals (R62, R98), strikes and fences (R85 to R88, R532, R533), and preemption (R81 to R84, R267). -/

namespace Sys2Proof.Machine

open Reg

/-! ## Who stands on a Brick -/

/-- A role on its Brick with its launch and its instance; `k` is the role's number. -/
structure Site where
  launch : Launch
  inst : Inst
  role : Role
  k : Nat
  deriving DecidableEq, Repr

/-- Every instance on a Course. -/
def instsOn (s : State) (c : Nat) : List (Launch × Inst) :=
  (s.fab.launches.map (fun l => (l.insts.filter (fun i => i.course == c)).map (fun i => (l, i)))).flatten

/-- The role of an instance that stands on Brick b. -/
def roleOn (i : Inst) (b : Nat) : Option (Nat × Role) :=
  ((List.range i.roles.length).zip i.roles).find? (fun r => r.2.brick == b)

/-- The active role on Brick b: one that has not halted before one that has.
Log entry: 48 (DESIGN CHOICE). -/
def siteOf (s : State) (b : Nat) : Option Site :=
  let sites := (instsOn s (brickCourse b)).filterMap (fun x =>
    if x.2.phase = .active then (roleOn x.2 b).map (fun r => (⟨x.1, x.2, r.2, r.1⟩ : Site)) else none)
  match sites.find? (fun x => !x.role.halted) with
  | some x => some x
  | none => sites.head?

/-- Whether a launch has more than one Course. -/
def Launch.multi (l : Launch) : Bool := decide (1 < l.insts.length)

/-- Whether an instance holds Brick b in a staged slot. -/
def stagedOn (i : Inst) (b : Nat) : Bool := (i.phase == .staging || i.phase == .staged) && i.bricks.contains b

/-- Whether a Brick is reserved (R58): a preempted instance holds it, or a multi-Course launch not yet active. -/
def brickReserved (s : State) (b : Nat) : Bool :=
  (instsOn s (brickCourse b)).any (fun x =>
    (x.2.phase == .preempted && x.2.bricks.contains b) || (x.1.multi && stagedOn x.2 b))

/-- Whether a Brick's staged slot holds a launch (R75). -/
def brickStaged (s : State) (b : Nat) : Bool := (instsOn s (brickCourse b)).any (fun x => stagedOn x.2 b)

/-- Whether a Brick holds an active Bond. -/
def brickActive (s : State) (b : Nat) : Bool :=
  (instsOn s (brickCourse b)).any (fun x => x.2.phase == .active && x.2.bricks.contains b)

/-! ## Placement -/

/-- A placement: origin, transform, and the global Bricks in role order. -/
structure Place where
  origin : Nat
  transform : Nat
  bricks : List Nat
  deriving DecidableEq, Repr

/-- Where a transform and an origin put footprint cell `cell`: a local Brick, or none outside the Course (R57). -/
def placeCell (img : List Nat) (origin t cell : Nat) : Option Nat :=
  let p := transformCell t (imgW img) (imgH img) (cell % 4) (cell / 4)
  let x := p.1 + origin % 4
  let y := p.2 + origin / 4
  if x < 4 ∧ y < 4 then some (y * 4 + x) else none

/-- Whether shape_flags make transform t a candidate (R57). -/
def transformOk (img : List Nat) (t : Nat) : Bool :=
  match t with
  | 0 => true
  | 1 | 2 | 3 => bit (imgShape img) 0
  | 4 => bit (imgShape img) 1
  | _ => bit (imgShape img) 0 && bit (imgShape img) 1

/-- The Bricks of a placement in role order, where every cell lies in the Course. -/
def placeBricks (img : List Nat) (c origin t : Nat) : Option (List Nat) :=
  ((List.range (imgBricks img)).map (fun r => placeCell img origin t (roleCell img r))).foldr
    (fun o l => match o, l with | some b, some r => some ((c * 16 + b) :: r) | _, _ => none) (some [])

/-- The Course's link between two adjacent local Bricks. -/
def linkBetween (a b : Nat) : Nat :=
  let m := min a b
  if a / 4 = b / 4 then m / 4 * 3 + m % 4 else 12 + m

/-- Whether no link that the Bond uses falls on a fenced link (R58). -/
def linksFree (s : State) (img : List Nat) (c origin t : Nat) : Bool :=
  (List.range 24).all (fun k => !bit (imgLinks img) k ||
    (match placeCell img origin t (linkEnds k).1, placeCell img origin t (linkEnds k).2 with
     | some a, some b => !bit (rd s TRW_LINK_FENCE.link_fenced (atCourse c 0x100)) (linkBetween a b)
     | _, _ => false))

/-- Whether a placement fits (R58): the placement, if so. -/
def placeFits (s : State) (img : List Nat) (c origin t : Nat) : Option Place :=
  match placeBricks img c origin t with
  | none => none
  | some bs =>
    if bs.all (fun b => !fenced s b && !brickReserved s b) && linksFree s img c origin t
    then some ⟨origin, t, bs⟩ else none

/-- The placements of a Bond that fit a Course, in the order of R59; with bit 2 of shape_flags only the previous
placement of the context there (R60).
Log entry: 53 (DEDUCED). -/
def placements (s : State) (img : List Nat) (c : Nat) : List Place :=
  if bit (imgShape img) 2 then
    match (courseOf s c).prev with
    | some (o, t) => if transformOk img t then (placeFits s img c o t).toList else []
    | none => []
  else
    ((List.range 16).map (fun o => ((List.range 8).filter (transformOk img)).filterMap (placeFits s img c o))).flatten

/-- The first placement of R59: the first pass takes Bricks without an active or a staged Bond, the second those with
free staged slots.
Log entry: 53 (DEDUCED). -/
def firstPlace (s : State) (l : List Place) : Option Place :=
  match l.find? (fun p => p.bricks.all (fun b => !brickActive s b && !brickStaged s b)) with
  | some p => some p
  | none => l.find? (fun p => p.bricks.all (fun b => !brickStaged s b))

/-! ## Refusals -/

/-- Settle a launch that a Trowel has refused (R62): its other instances release their Bricks; once every Course of the
set that its context holds has made its checks, it completes with the status of the lowest refusing Course. -/
def settleRefusal (id : Nat) (s : State) : State :=
  let release := fun (i : Inst) => if i.phase = .staging ∨ i.phase = .staged ∨ (i.phase = .queued ∧ i.checked)
    then { i with phase := .done, bricks := [], roles := [] } else i
  let s1 := modLaunch id (fun l => { l with insts := l.insts.map release }) s
  match launchOf s1 id with
  | none => s1
  | some l =>
    if l.insts.all (fun i => i.phase != .queued || courseCtx s1 i.course != l.ctx)
    then endLaunch l { launchDone l with arith := 0, reissues := 0, underscaled := 0, precision := 0 } s1
    else s1

/-- Refuse a launch on a Course with a status (R61, R98). -/
def refuseInst (id c status : Nat) (s : State) : State :=
  settleRefusal id (incSat TRW_REFUSE_COUNT.refusals (atCourse c 0x100) 1
    (modInst id c (fun i => { i with phase := .refused, status := status, bricks := [], roles := [] }) s))

/-! ## Staging -/

/-- Hod bytes that the context's other instances hold on a Course (R255). -/
def hodUsed (s : State) (ctx c id : Nat) : Nat :=
  sumNat ((instsOn s c).map (fun x =>
    if x.1.ctx = ctx ∧ x.1.id ≠ id ∧ (x.2.phase = .active ∨ x.2.phase = .preempted ∨ x.2.phase = .staging ∨ x.2.phase = .staged)
    then imgHod x.1.image else 0))

/-- The Hod and Bed quota of a context in KiB under the active plan (R254). -/
def quotaOf (s : State) (ctx : Nat) : Nat × Nat :=
  match s.day.active with
  | some p => p.quotas.getD ctx (0, 0)
  | none => (0, 0)

/-- Step 10 of R70 (R255): whether the footprint of an image does not fit. -/
def footprintBad (s : State) (img : List Nat) (ctx c id : Nat) : Bool :=
  decide ((quotaOf s ctx).2 * 1024 < imgBed img)
    || decide ((quotaOf s ctx).1 * 1024 < imgHod img + hodUsed s ctx c id)

/-- Put a launch into the staged slots of a placement and start loading it (R74, R98): each staging counts as a load, and
one whose sections the last switch loaded stands staged at once (R262, step 4).
Log entry: 54 (DEDUCED). -/
def beginStage (id c : Nat) (p : Place) (s : State) : State :=
  let ready := (courseOf s c).preload == some id
  incWrap TRW_LOAD_COUNT.loads (atCourse c 0x100) 1
    (modInst id c (fun i => { i with
        phase := if ready then .staged else .staging, checked := true, origin := p.origin
        transform := p.transform, bricks := p.bricks, roles := [] })
      (if ready then modCourse c (fun x => { x with preload := none }) s else s))

/-- Settle a launch once more where a Course of its set has refused it already (R62, R316). -/
def settleAgain (id : Nat) (s : State) : State :=
  match launchOf s id with
  | some l => if l.insts.any (fun i => i.phase == .refused) then settleRefusal id s else s
  | none => s

/-- Place a checked launch on a Course (R59 to R61, R75): it stages, waits at its queue's head, or is refused; where
another Course of its set has refused it, it is released again (R62). -/
def tryStage (l : Launch) (c : Nat) (s : State) : State :=
  if footprintBad s l.image l.ctx c l.id then refuseInst l.id c 0x010A s
  else
    let ps := placements s l.image c
    if ps.isEmpty then refuseInst l.id c 0x010B s
    else match firstPlace s ps with
      | some p => settleAgain l.id (beginStage l.id c p s)
      | none => settleAgain l.id (modInst l.id c (fun i => { i with phase := .queued, checked := true, bricks := [], roles := [] }) s)

/-! ## Fences and strikes -/

/-- Release a launch staged on a Brick that is now fenced, and place it again (R87). -/
def restage (b : Nat) (s : State) (x : Launch × Inst) : State :=
  if stagedOn x.2 b then
    let free := modInst x.1.id x.2.course (fun i => { i with phase := .queued, bricks := [], roles := [] }) s
    match launchOf free x.1.id with
    | some l => tryStage l x.2.course free
    | none => free
  else s

/-- Order the fence of a Brick (R85, R88): the map, event 0x0120, the staged launches on it, and the fence of a Course
whose Bricks are all fenced. `strikes` says that strikes ordered it (R535). -/
def fenceBrick (b : Nat) (strikes : Bool) (s : State) : State :=
  if fenced s b then s
  else
    let c := brickCourse b
    let d := courseDie c
    let set := if strikes then some (rd s FAB_PACK_SET.set_version) else none
    let s1 := wr TRW_FENCE_MAP.brick_fenced (atCourse c 0x100)
      (setBit (rd s TRW_FENCE_MAP.brick_fenced (atCourse c 0x100)) (b % 16) true)
      (modBrick b (fun x => { x with fences := x.fences + 1, strikeSet := set }) s)
    let s2 := event 0x0120 d 0xFF b 1 [] s1
    let s3 := (instsOn s2 c).foldl (restage b) s2
    if rd s3 TRW_FENCE_MAP.brick_fenced (atCourse c 0x100) = 0xFFFF ∧ !rdB s3 TRW_COURSE_STATE.course_fenced (atCourse c 0x100)
    then event 0x0122 d 0xFF c 2 [] (wrB TRW_COURSE_STATE.course_fenced (atCourse c 0x100) true s3)
    else s3

/-- 24 hours in ns (R533). -/
def strikeSpan : Nat := 86400000000000

/-- Record a strike against a Brick during a launch of context ctx (R532, R533): event 0x0B25 with the cause, and the
fence when the last strike lies within 24 hours.
Log entry: 73 (DEDUCED). -/
def strike (b ctx cause : Nat) (s : State) : State :=
  let x := brickOf s b
  let s1 := modBrick b (fun y => { y with strikes := y.strikes + 1, lastStrike := some (now s) }) s
  let s2 := incSat FAB_STRIKE_COUNT.strikes 0 1 (incWrap FAB_HEALTH_STRIKES.strikes (ctx * 0x80) 1 s1)
  let s3 := event 0x0B25 (courseDie (brickCourse b)) ctx b 1 (leBytes 2 cause ++ [(x.strikes + 1) % 256]) s2
  match x.lastStrike with
  | some t => if now s - t < strikeSpan then fenceBrick b true s3 else s3
  | none => s3

/-- Fence a neighbour link of a Course (R86): the map and event 0x0121. -/
def fenceLink (c link : Nat) (s : State) : State :=
  let m := rd s TRW_LINK_FENCE.link_fenced (atCourse c 0x100)
  if bit m link then s
  else event 0x0121 (courseDie c) 0xFF (c * 16 + (linkEnds link).1) 1 [if link < 12 then 1 else 2]
    (wr TRW_LINK_FENCE.link_fenced (atCourse c 0x100) (setBit m link true) s)

/-! ## Preemption -/

/-- Whether an instance may be stopped at a PPOINT: bit 0 of its Bond's flags (R50). -/
def Launch.preemptible (l : Launch) : Bool := bit (imgFlags l.image) 0

/-- Whether a role stands still for a preemption (R81). -/
def Role.parked (x : Role) : Bool := x.halted || x.atPpoint

/-- Preempt an instance whose roles all stand at their PPOINT or have halted (R81, R82); one whose roles have all halted
completes instead. -/
def tryPark (id c : Nat) (s : State) : State :=
  match instOf s id c with
  | none => s
  | some i =>
    if i.phase = .active ∧ i.roles.all Role.parked ∧ !i.roles.all (·.halted) then
      refreshCourse c (restartWdog c (modInst id c (fun i => { i with phase := .preempted }) s))
    else s

/-- Treat the roles of an instance that wait on a Tie as stopped at the PPOINT before the wait (R267): the pending wait
is withdrawn from its home. -/
def withdrawWaits (id c : Nat) (s : State) : State :=
  match instOf s id c with
  | none => s
  | some i =>
    let waiting := (i.roles.filter (fun r => r.tieWait.isSome)).map (·.brick)
    let mine := fun (a : Agent) => match a with | .role b => waiting.contains b | _ => false
    let s1 := { s with rings := { s.rings with
      waits := s.rings.waits.filter (fun w => !mine w.who),
      ops := s.rings.ops.filter (fun o => !(mine o.sender && (o.kind == .waitGe || o.kind == .waitEq))),
      rels := s.rings.rels.map (fun r => { r with who := r.who.filter (fun a => !mine a) }) } }
    modInst id c (fun i => { i with roles := i.roles.map (fun r =>
      if r.tieWait.isSome then { r with tieWait := none, atPpoint := true, ppoints := r.ppoints - 1 } else r) }) s1

/-- Ask the instances on a Course to stop (R81, R84): a preemptible one stops at its next PPOINT. -/
def requestStop (c : Nat) (s : State) : State :=
  (instsOn s c).foldl (fun s x =>
    if x.2.phase = .active ∧ x.1.preemptible then tryPark x.1.id c (withdrawWaits x.1.id c s) else s) s

end Sys2Proof.Machine
end

