-- ==== Sys2Proof/Machine/DayPlan.lean ====
section
/-! DEFINITION. Day plans, Watches and switches (R250 to R281, R774), and the end of a teardown (R278). -/

namespace Sys2Proof.Machine

open Reg

/-! ## The plan image -/

/-- The body of a policy that a handle names, of a given type (R682 to R684). -/
def policyBody (s : State) (h kind : Nat) : Option (List Nat) :=
  let p := aget s.key.policies (h % 32) {}
  if h < 2 ^ 21 ∧ p.filled ∧ p.gen = bits h 5 16 ∧ p.kind = kind then some p.body else none

/-- The entries of a Day-plan policy: Courses and flags of each context (R682). -/
def dayPolicy (body : List Nat) : List (Nat × Nat) :=
  (List.range 64).map (fun k => (fld body (16 * k) 8, body.getD (16 * k + 8) 0))

/-- Watch record i of an image (R256). -/
def watchRec (img : List Nat) (i : Nat) : Watch :=
  let b := 576 + 32 * i
  ⟨fld img b 4, fld img (b + 4) 4, fld img (b + 8) 1, fld img (b + 9) 1, fld img (b + 10) 2, fld img (b + 12) 2,
   fld img (b + 16) 8⟩

/-- The plan that an image holds, with the policy body that it names (R253, R254, R256). -/
def planOf (img : List Nat) (policy : List (Nat × Nat)) : Plan :=
  { id := fld img 24 4, periodUs := fld img 8 4, gclk := fld img 12 2, testUs := fld img 14 2,
    startTime := fld img 16 8, w := (List.range 4).map (fun d => fld img (28 + 2 * d) 2), policyHandle := fld img 36 4,
    quotas := (List.range 64).map (fun k => (fld img (64 + 8 * k) 2, fld img (66 + 8 * k) 2)),
    watches := (List.range (fld img 6 2)).map (watchRec img), policy := policy }

/-- Step 2 of R271: the header is well formed (R253). -/
def headerBad (img : List Nat) : Bool :=
  fld img 0 4 != 0x4E414C50 || fld img 4 2 != 1 || fld img 6 2 == 0 || decide (256 < fld img 6 2)
    || decide (fld img 8 4 < 1000) || decide (1000000 < fld img 8 4) || decide (fld img 12 2 < 200)
    || decide (1530 < fld img 12 2) || decide (fld img 14 2 < 50)
    || (List.range 4).any (fun d => decide (fld img (28 + 2 * d) 2 < 100) || decide (1000 < fld img (28 + 2 * d) 2))
    || !zeroAt img 40 24

/-- Step 5 of R271: the context table is well formed (R254). -/
def tableBad (img : List Nat) : Bool :=
  (List.range 64).any (fun k => decide (4096 < fld img (64 + 8 * k) 2) || decide (256 < fld img (66 + 8 * k) 2)
    || !zeroAt img (68 + 8 * k) 4)

/-- Whether Watch record i breaks R256 or the order of R257. -/
def watchBad (img : List Nat) (period i : Nat) : Bool :=
  let w := watchRec img i
  let b := 576 + 32 * i
  decide (period ≤ w.startUs) || w.lengthUs == 0 || decide (period < w.startUs + w.lengthUs)
    || (decide (64 ≤ w.ctx) && w.ctx != 0xFE)
    || (if w.ctx = 0xFE then w.tests == 0 || decide (16 < w.tests) else w.tests != 0)
    || !((List.range 11).any (fun k => w.every == 2 ^ k)) || decide (w.every ≤ w.phase) || w.mask == 0
    || !zeroAt img (b + 14) 2 || !zeroAt img (b + 24) 8
    || (decide (0 < i) && decide (w.startUs < (watchRec img (i - 1)).startUs))

/-- Whether two Watches share a Course and overlap in time (R257). -/
def watchesClash (x y : Watch) : Bool := (x.mask &&& y.mask) != 0 && overlap x.startUs x.lengthUs y.startUs y.lengthUs

/-- The lowest Course that two masks share. -/
def lowestCourse (m : Nat) : Nat := ((List.range 64).find? (bit m)).getD 0

/-- Size of the state of a context on a Course under a plan (R262); a test Watch has none. -/
def stateSize (p : Plan) (ctx : Nat) : Nat :=
  if ctx < 64 then ((p.quotas.getD ctx (0, 0)).1 + 16 * (p.quotas.getD ctx (0, 0)).2) * 1024 else 0

/-- Whether a context appears with Watches in a plan. -/
def hasWatches (p : Plan) (c : Nat) : Bool := p.watches.any (fun w => w.ctx == c)

/-- Step 8 of R271 for one Watch. -/
def policyBad (p : Plan) (w : Watch) : Bool :=
  w.ctx != 0xFE && (!bit (p.policy.getD w.ctx (0, 0)).2 0 || (w.mask &&& (p.policy.getD w.ctx (0, 0)).1) != w.mask)

/-- Step 8 of R271: the first Watch whose context has Watches in both plans and changes class.
Log entry: 85 (DEDUCED). -/
def classChange (active : Option Plan) (p : Plan) : Option Nat :=
  match active with
  | none => none
  | some a => p.watches.findIdx? (fun w => decide (w.ctx < 64) && hasWatches a w.ctx &&
      bit (a.policy.getD w.ctx (0, 0)).2 1 != bit (p.policy.getD w.ctx (0, 0)).2 1)

/-- The W that the active plan holds in the ledger entry of Course die d + 1: none while the entry is dropped (R774). -/
def heldW (s : State) (d : Nat) : Nat :=
  match s.day.active with
  | none => 0
  | some a => if rdB s PLB_SWITCH_W.dropped (4 * d) then 0 else a.w.getD d 0

/-- Step 9 of R271: the first Course die whose stack cannot hold the larger W (R774). -/
def switchOver (s : State) (p : Plan) : Option Nat :=
  firstIdx 4 (fun d =>
    let held := heldW s d
    let ports := sumNat (((List.range 74).filter (entryHeld s)).map (fun e => portBw s e d))
    decide (stackLimit s d < ports + max held (p.w.getD d 0)))

/-! ## Guards -/

/-- A gap between two Watches on a Course: the Course, the Watches' indexes, where the gap begins, its length in µs,
the sizes of the outgoing and incoming states, and the Watches between the two, which are absent where the second
succeeds the first (R268). -/
structure Gap where
  course : Nat
  x : Nat
  y : Nat
  start : Int
  len : Int
  sOut : Nat
  sIn : Nat
  absent : List Nat
  deriving DecidableEq, Repr

/-- The Watches of a plan that name a Course, with their indexes, in order. -/
def watchesOn (p : Plan) (c : Nat) : List (Nat × Watch) :=
  ((List.range p.watches.length).zip p.watches).filter (fun w => bit w.2.mask c)

/-- The first elements of a list up to and including the first that holds p. -/
def upto {α : Type} (p : α → Bool) : List α → List α
  | [] => []
  | a :: r => if p a then [a] else a :: upto p r

/-- The gaps of a plan on a Course: every Watch that occurs to each of its successors of another context. `occurs` says
which Watches count at all, and `always` which of them occur in every period (R268).
Log entry: 93 (DEDUCED). -/
def gapsOn (p : Plan) (occurs always : Nat × Watch → Bool) (c : Nat) : List Gap :=
  let ws := (watchesOn p c).filter occurs
  let n := ws.length
  ((List.range n).map (fun i =>
    let x := ws.getD i (0, ⟨0, 0, 0, 0, 0, 0, 0⟩)
    let after := (List.range n).map (fun k => ws.getD ((i + 1 + k) % n) x)
    let succ := upto always after
    (((List.range succ.length).zip succ).filter (fun y => y.2.2.ctx != x.2.ctx)).map (fun y =>
      let e := x.2.startUs + x.2.lengthUs
      ({ course := c, x := x.1, y := y.2.1, start := e,
         len := ((y.2.2.startUs : Int) - e) % (p.periodUs : Int),
         sOut := stateSize p x.2.ctx, sIn := stateSize p y.2.2.ctx,
         absent := (succ.take y.1).map (·.1) } : Gap)))).flatten

/-- The gaps of a plan on every Course, an intermittent Watch both present and absent (R268). -/
def gaps (p : Plan) : List Gap :=
  ((List.range 64).map (gapsOn p (fun _ => true) (fun y => y.2.every == 1))).flatten

/-- The gaps of a plan on every Course where the Watches named are absent and every other occurs in every period
(R268). -/
def gapsWithout (p : Plan) (absent : List Nat) : List Gap :=
  ((List.range 64).map (gapsOn p (fun y => !absent.contains y.1) (fun _ => true))).flatten

/-- Whether two gaps share an instant; `period` is the circle on which they lie, or none.
Log entry: 93 (DEDUCED). -/
def gapsMeet (period : Option Nat) (a b : Gap) : Bool :=
  let meet := fun (d : Int) => decide (0 < a.len) && decide (0 < b.len) &&
    decide (a.start < b.start + d + b.len) && decide (b.start + d < a.start + a.len)
  match period with
  | none => meet 0
  | some p => meet 0 || meet p || meet (-(p : Int))

/-- The guard of a gap, in whole µs: 40 µs + t + 1 µs, rounded up, where t is the bound of R265 for B = 131,072 and
`total` the bytes of the die term (R268). -/
def guardUs (g : Gap) (total w : Nat) : Nat :=
  max (divUp (41800 * 192 + 2 * max g.sOut g.sIn + 131072) 192000) (if w = 0 then 0 else divUp (41800 * w + total) (w * 1000))

/-- Bytes that one gap adds to the die term. -/
def gapBytes (g : Gap) : Nat := g.sOut + g.sIn + 131072

/-- The first gap of a list that is shorter than its guard: `others` are the gaps that its die term may count, `meets`
says which of them do.
Log entry: 93 (DEDUCED). -/
def shortGap (gs : List Gap) (others : Gap → List Gap) (meets : Gap → Gap → Bool) (w : List Nat) : Option Gap :=
  gs.find? (fun g =>
    let counted := (others g).filter (fun o => o.course / 16 == g.course / 16 &&
      !(o.course == g.course && o.x == g.x && o.y == g.y) && meets g o)
    let total := gapBytes g + sumNat (counted.map gapBytes)
    decide (g.len < (guardUs g total (w.getD (g.course / 16) 0) : Int)))

/-- The gaps at the takeover of a staged plan (R269): from the last Watches of the active plan to the first of the
staged one; instants count from the boundary.
Log entry: 93 (DEDUCED). -/
def takeoverGaps (a p : Plan) : List Gap :=
  ((List.range 64).map (fun c =>
    let xs := upto (fun (x : Nat × Watch) => x.2.every == 1) (watchesOn a c).reverse
    let ys := upto (fun (y : Nat × Watch) => y.2.every == 1) (watchesOn p c)
    (xs.map (fun x => (ys.filter (fun y => y.2.ctx != x.2.ctx)).map (fun y =>
      let st : Int := (x.2.startUs + x.2.lengthUs : Nat) - (a.periodUs : Int)
      ({ course := c, x := x.1, y := y.1, start := st, len := (y.2.startUs : Int) - st,
         sOut := stateSize a x.2.ctx, sIn := stateSize p y.2.ctx, absent := [] } : Gap)))).flatten)).flatten

/-- Step 10 of R271 (R268, R269): the Watch and Course of the first guard that is missing.
Log entries: 85 (DEDUCED), 93 (DEDUCED). -/
def guardMissing (active : Option Plan) (p : Plan) : Option Gap :=
  match shortGap (gaps p) (fun g => gapsWithout p g.absent) (gapsMeet (some p.periodUs)) p.w with
  | some g => some g
  | none => match active with
    | none => none
    | some a =>
      let tk := takeoverGaps a p
      let inA := ((gapsWithout a []).filter (fun g => g.start + g.len ≤ (a.periodUs : Int))).map
        (fun g => { g with start := g.start - a.periodUs, x := g.x + 1000, y := g.y + 1000 })
      let inP := ((gapsWithout p []).filter (fun g => g.start + g.len ≤ (p.periodUs : Int))).map
        (fun g => { g with x := g.x + 2000, y := g.y + 2000 })
      shortGap tk (fun _ => tk ++ inA ++ inP) (fun g o => decide (o.x < 1000) || gapsMeet none g o) p.w

/-- Step 11 of R271 (R270): where test coverage falls short, its Course, and no single Watch; then the first test Watch
that is too short, with its lowest Course.
Log entry: 85 (DEDUCED). -/
def testShort (p : Plan) : Option (Nat × Nat) :=
  let ts := ((List.range p.watches.length).zip p.watches).filter (fun w => w.2.ctx == 0xFE)
  match (List.range 64).find? (fun c =>
      let on := ts.filter (fun w => bit w.2.mask c)
      -- the sum of tests × 900,000,000 / (every × period_us) is below 32; every divides 1,024
      !on.isEmpty && decide (sumNat (on.map (fun w => w.2.tests * (1024 / w.2.every))) * 900000000 < 32 * 1024 * p.periodUs)) with
  | some c => some (0xFF, c)
  | none => (ts.find? (fun w => w.2.lengthUs < w.2.tests * p.testUs)).map (fun w => (w.1, lowestCourse w.2.mask))

/-- The checks 2 to 11 of R271 in order: status, Watch and Course at fault.
Log entries: 18 (DEDUCED), 85 (DEDUCED). -/
def planChecks (s : State) (j : PlanJob) : Nat × Nat × Nat :=
  let img := j.image
  if headerBad img then (0x0502, 0xFF, 0)
  else if s.day.active = none ∧ fld img 16 8 < j.dialAt + 3000000 then (0x0503, 0xFF, 0)
  else match policyBody s (fld img 36 4) 1 with
    | none => (0x0504, 0xFF, 0)
    | some body =>
      let p := planOf img (dayPolicy body)
      let n := p.watches.length
      if tableBad img then (0x0505, 0xFF, 0)
      else match firstIdx n (watchBad img p.periodUs) with
        | some i => (0x0506, i, 0)
        | none => match firstIdx n (fun i => (p.watches.take i).any (fun x => watchesClash x (watchRec img i))) with
          | some i => (0x0507, i, 0)
          | none => match firstIdx n (fun i => policyBad p (watchRec img i)) with
            | some i => (0x0508, i, 0)
            | none => match classChange s.day.active p with
              | some i => (0x0508, i, 0)
              | none => match switchOver s p with
                | some _ => (0x0509, 0xFF, 0)
                | none => match guardMissing s.day.active p with
                  | some g => (0x050A, g.y, g.course)
                  | none => match testShort p with
                    | some x => (0x050B, x.1, x.2)
                    | none => (0, 0xFF, 0)

/-! ## The commit -/

/-- Write a plan commit's result (R271, R280).
Log entry: 84 (DEDUCED). -/
def dayDone (r : Nat × Nat × Nat) (fieldOff : Nat) (s : State) : State :=
  commitDone 0 (r.1, fieldOff)
    (wr DAY_COMMIT_STATUS.course 0 r.2.2 (wr DAY_COMMIT_STATUS.watch 0 r.2.1 (wr DAY_COMMIT_STATUS.status 0 r.1 s)))

/-- Bytes of a plan image whose header says how many Watches it holds (at most 256). -/
def planLength (hdr : List Nat) : Nat := 576 + 32 * min (fld hdr 6 2) 256

/-- Read the plan image once and start its checks (R271, R773).
Log entry: 84 (DEDUCED). -/
def dayStart (s : State) : State :=
  let a := stg s DAY_PLAN_ADDR.plan_addr
  let h := readMem 72 0xFF a 64 [] s
  if h.1 ≠ 0 then dayDone (0x0007, 0xFF, 0) 0 h.2.2
  else
    let r := readMem 72 0xFF a (planLength h.2.1) [] h.2.2
    if r.1 ≠ 0 then dayDone (0x0007, 0xFF, 0) 0 r.2.2
    else if s.day.job.isSome then dayDone (0x0501, 0xFF, 0) 0 r.2.2
    else
      commitBusy 0 (wrB DAY_STATUS.commit_busy 0 true
        { r.2.2 with day := { r.2.2.day with job := some ⟨r.2.1, now s, dial s, a⟩ } })

/-- DAY_COMMIT (R271).
Log entry: 84 (DEDUCED). -/
def execDayCommit (value : Nat) (s : State) : Host.Outcome State Fault Refusal :=
  let a := stg s DAY_PLAN_ADDR.plan_addr
  .next (if value % 2 = 0 then s
    else
      let s0 := commitAt 0 0x40001C s
      if dieSilent s 0 then dayDone (0x0C40, 0xFF, 0) 0 s0
      else if a % 64 ≠ 0 then dayDone (0x0003, 0xFF, 0) 0x400000 s0
      else if hbmEnd ≤ a + 64 then dayDone (0x0004, 0xFF, 0) 0x400000 s0
      else dayStart s0)

/-- The instant, on the slewed count, at which a plan accepted now takes over (R272). -/
def takeoverAt (s : State) (p : Plan) : Nat :=
  match s.day.active with
  | none => now s + (p.startTime - dial s)
  | some a =>
    let per := a.periodUs * 1000
    s.day.periodAt + divUp (now s + 1000000 - s.day.periodAt) per * per

/-- Stage an accepted plan: each ledger entry takes the larger W (R272, R774). -/
def stagePlan (p : Plan) (s : State) : State :=
  let s1 := (List.range 4).foldl (fun s d =>
    wrB PLB_SWITCH_W.dropped (4 * d) false (wr PLB_SWITCH_W.w_gbps (4 * d) (max (heldW s d) (p.w.getD d 0)) s)) s
  refreshLedger (wrB DAY_STATUS.staged_valid 0 true
    { s1 with day := { s1.day with staged := some p, stagedAt := takeoverAt s1 p } })

/-- DAY_COMMIT_COMPLETE (R271): a refused plan leaves both plans as they were; an accepted one is recorded (R696). -/
def execDayCommitComplete (s : State) : Host.Outcome State Fault Refusal :=
  .next (match s.day.job with
    | none => s
    | some j =>
      let r := planChecks s j
      let s1 := wrB DAY_STATUS.commit_busy 0 false { s with day := { s.day with job := none } }
      if r.1 ≠ 0 then dayDone r 0 s1
      else
        let p := planOf j.image (dayPolicy ((policyBody s (fld j.image 36 4) 1).getD []))
        dayDone (0, 0xFF, 0) 0 (stagePlan p (record 0x0013 { detail := p.id, subject := sha384 j.image }
          (wrCom DAY_PLAN_ADDR.plan_addr 0 j.addr s1))))

/-! ## Watches -/

/-- Whether a Watch occurs in period n (R256). -/
def occurs (w : Watch) (n : Nat) : Bool := n % w.every == w.phase

/-- The period index of the active plan. -/
def periodNow (s : State) : Nat := rd s DAY_PERIOD_INDEX.period

/-- Watch i of the active plan where it occurs in the present period. -/
def watchNow (s : State) (i : Nat) : Option Watch :=
  s.day.active.bind (fun p => (p.watches[i]?).bind (fun w => if occurs w (periodNow s) then some w else none))

/-- Start and end of a Watch in the present period, on the slewed count (R252). -/
def watchStartAt (s : State) (w : Watch) : Nat := s.day.periodAt + w.startUs * 1000
/-- The end of a Watch in the present period. -/
def watchEndAt (s : State) (w : Watch) : Nat := s.day.periodAt + (w.startUs + w.lengthUs) * 1000

/-- The first Watch of a plan that names a Course in period n or later, over `fuel` periods, starting at or after
`from_`: its index and start instant. `base` is the start of period n. -/
def nextIn (p : Plan) (c : Nat) : (fuel n base from_ : Nat) → Option (Nat × Watch × Nat)
  | 0, _, _, _ => none
  | f + 1, n, base, from_ =>
    match (watchesOn p c).find? (fun w => occurs w.2 n && from_ ≤ base + w.2.startUs * 1000) with
    | some w => some (w.1, w.2, base + w.2.startUs * 1000)
    | none => nextIn p c f (n + 1) (base + p.periodUs * 1000) from_

/-- The next Watch that names a Course at or after an instant, as the committed plans stand (R259, R262): a staged
plan's Watches count from its takeover on.
Log entry: 87 (DEDUCED). -/
def nextWatch (s : State) (c from_ : Nat) : Option (Nat × Watch × Nat) :=
  let a := s.day.active.bind (fun p => nextIn p c 1025 (periodNow s) s.day.periodAt from_)
  match s.day.staged with
  | none => a
  | some p =>
    match a with
    | some x => if x.2.2 < s.day.stagedAt then some x else nextIn p c 1025 0 s.day.stagedAt from_
    | none => nextIn p c 1025 0 s.day.stagedAt from_

/-- The active instances on a Course. -/
def activeOn (s : State) (c : Nat) : List (Launch × Inst) :=
  (s.fab.launches.map (fun l => (l.insts.filter (fun i => i.course == c && i.phase == .active)).map (fun i => (l, i)))).flatten

/-- Release the launches held in staged slots of a Course: they go back to the head of their queues (R262, step 2). -/
def releaseStaged (c : Nat) (s : State) : State :=
  let back := fun (i : Inst) => if i.course = c ∧ (i.phase = .staged ∨ i.phase = .staging)
    then { i with phase := .queued, bricks := [], roles := [] } else i
  { s with fab := { s.fab with launches := s.fab.launches.map (fun l => { l with insts := l.insts.map back }) } }

/-- Start a switch on a Course (R262, steps 1 and 2), towards a Watch that begins at an instant.
Log entry: 90 (DEDUCED). -/
def startSwitch (c inCtx : Nat) (watch : Option Nat) (at_ : Option Nat) (s : State) : State :=
  -- the sections that an earlier switch loaded are not used
  let sw : Switch := { outCtx := (courseOf s c).owner, inCtx := inCtx, watch := watch }
  requestStop c (wrB TRW_COURSE_STATE.switching (atCourse c 0x100) true
    (modCourse c (fun x => { x with switch := some sw, preempt := true, overrunAt := at_, preload := none })
      (releaseStaged c s)))

/-- Under the limp profile, whether a Watch of a context still runs: only those of critical contexts and test Watches
(R672).
Log entry: 91 (DEDUCED). -/
def limpAllows (s : State) (ctx : Nat) : Bool :=
  !rdB s PWR_STATUS.limp || decide (64 ≤ ctx) || (match s.day.active with
    | some p => bit (p.policy.getD ctx (0, 0)).2 2
    | none => false)

/-- Whether Watches run: in run, and on the way into Night until its Courses have been asked to switch out (R721). -/
def watchesRun (s : State) : Bool := s.mode == .run || (s.mode == .nightEntry && !s.nwt.stopped)

/-- A Course passes on from a context to the next Watch that names it, at the end of a Watch (R259): it keeps its state,
preempts in place, or starts a switch. -/
def passOn (c ctx end_ : Nat) (s : State) : State :=
  let stop := fun (s : State) => requestStop c (modCourse c (fun x => { x with preempt := true }) s)
  match nextWatch s c end_ with
  | some (j, v, t) =>
    if v.ctx = ctx then (if t = end_ then s else stop s) else startSwitch c v.ctx (some j) (some t) s
  | none => stop s

/-- The end of a Watch on one Course (R259, R274). A Watch that never began there is reported, and the Course passes to
the next Watch that names it as well, from the context whose state it holds; a switch under way does so when it ends.
Log entries: 87 (DEDUCED), 91 (DEDUCED). -/
def endWatchOn (i : Nat) (w : Watch) (s : State) (c : Nat) : State :=
  let st := courseOf s c
  if st.watch = some i then
    passOn c w.ctx (watchEndAt s w) (wr TRW_COURSE_STATE.context (atCourse c 0x100) 0xFF
      (modCourse c (fun x => { x with watch := none, testsLeft := 0, test := none }) s))
  else
    let s1 := if !s.day.begun.contains (i * 64 + c) && limpAllows s w.ctx && s.partialDie != some (courseDie c) then
        event 0x0530 (courseDie c) (if w.ctx < 64 then w.ctx else 0xFF) c 1 ([i, 1, 0, 0] ++ leBytes 4 w.lengthUs)
          (incSat DAY_LATE_COUNT.late 0 1 s)
      else s
    if st.watch.isNone && st.switch.isNone && decide (st.owner < 64) && s.partialDie != some (courseDie c)
    then passOn c st.owner (watchEndAt s w) s1 else s1

/-- The Courses of a mask. -/
def coursesOf (m : Nat) : List Nat := (List.range 64).filter (bit m)

/-- End a Watch of the present period on all its Courses. -/
def endWatch (i : Nat) (s : State) : State :=
  match watchNow s i with
  | none => s
  | some w =>
    if s.day.ended.contains i || !watchesRun s then s
    else
      let s1 := passTo (watchEndAt s w) s
      (coursesOf w.mask).foldl (endWatchOn i w) { s1 with day := { s1.day with ended := i :: s1.day.ended } }

/-- WATCH_END (R259). -/
def execWatchEnd (watch : Nat) (s : State) : Host.Outcome State Fault Refusal := .next (endWatch watch s)

/-- Step 2 of R721: every Course is asked to give up its holder. -/
def nightStop (s : State) : State :=
  (List.range 64).foldl (fun s c =>
    requestStop c (wr TRW_COURSE_STATE.context (atCourse c 0x100) 0xFF
      (modCourse c (fun x => { x with watch := none, preempt := true, testsLeft := 0, test := none, overrunAt := none })
        (releaseStaged c s))))
    { s with nwt := { s.nwt with stopped := true } }

/-- At a boundary of the grid on the way into Night, the Courses switch out where it is the one that R721 names. -/
def nightHook (s : State) : State :=
  if s.mode = .nightEntry ∧ !s.nwt.stopped ∧ s.nwt.stopAt ≤ now s then nightStop s else s

/-- Whether a Watch may begin on a Course now: not begun, its switch and any scrub ended, the state on the Course its own
context's or none, and its die not in a partial reset (R716). -/
def mayBegin (s : State) (i : Nat) (w : Watch) (c : Nat) : Bool :=
  let st := courseOf s c
  watchesRun s && s.partialDie != some (courseDie c) && bit w.mask c && !s.day.begun.contains (i * 64 + c)
    && !s.day.ended.contains i && st.switch.isNone && !st.scrub
    && (st.owner == 0xFF || st.owner == w.ctx) && limpAllows s w.ctx

/-- The save area of a context on a Course (R337).
Log entry: 89 (DESIGN CHOICE). -/
def saveArea (s : State) (ctx c : Nat) : Nat :=
  com s HST_SAVE_BASE.save_base (ctx * 0x100) + c * com s HST_SAVE_BASE.save_mib (ctx * 0x100) * 1048576

/-- The Bed and Hod keys that a context's quota covers on a Course, in the order in which a switch saves them: the
Hod, then the Beds of Bricks 0 to 15.
Log entry: 89 (DESIGN CHOICE). -/
def quotaKeys (q : Nat × Nat) (c : Nat) : List (Bool × Nat) :=
  (List.range (q.1 * 1024)).map (fun a => (true, c * 4194304 + a)) ++
    ((List.range 16).map (fun b => (List.range (q.2 * 1024)).map (fun a => (false, (c * 16 + b) * 262144 + a)))).flatten

/-- Bytes of the state that a quota in KiB covers (R262). -/
def quotaSize (q : Nat × Nat) : Nat := (q.1 + 16 * q.2) * 1024

/-- The quota of a saved state by its code in `day.saved`. -/
def savedQuota (code : Nat) : Nat × Nat := ((code - 1) % 8192, (code - 1) / 8192)

/-- Restore the incoming state of a Course, if one is saved there, as it was saved (R262, step 4).
Log entries: 88 (DEDUCED), 89 (DESIGN CHOICE). -/
def restoreState (ctx c : Nat) (s : State) : State :=
  let code := aget s.day.saved (ctx * 64 + c) 0
  if ctx < 64 ∧ 0 < code then
    let q := savedQuota code
    let r := readMem c ctx (saveArea s ctx c) (quotaSize q) [] s
    if r.1 ≠ 0 then r.2.2
    else
      let s1 := ((quotaKeys q c).zip r.2.1).foldl (fun s e =>
        if e.1.1 then { s with fab := { s.fab with hod := aset s.fab.hod e.1.2 (BitVec.ofNat 8 e.2) 0 } }
        else { s with fab := { s.fab with bed := aset s.fab.bed e.1.2 (BitVec.ofNat 8 e.2) 0 } }) r.2.2
      { s1 with day := { s1.day with saved := aset s1.day.saved (ctx * 64 + c) 0 0 } }
  else s

/-- Step 4 of R262 for a Course that holds no state and needs no switch: the context's saved state, if any.
Log entry: 88 (DEDUCED). -/
def restoreIdle (ctx c : Nat) (s : State) : State :=
  if (courseOf s c).owner < 64 then s else restoreState ctx c s

/-- The quota in KiB of Hod and of Bed that the active plan gives a context (R254). -/
def planQuota (s : State) (ctx : Nat) : Nat × Nat :=
  match s.day.active with
  | some p => p.quotas.getD ctx (0, 0)
  | none => (0, 0)

/-- The Brick that a Course tests next (R275, R535): a Brick to be retested, else the next in order that is not fenced.
Log entries: 95 (DEDUCED), 150 (DEDUCED). -/
def testNext (s : State) (c : Nat) : Option Nat :=
  match s.fab.retests.find? (fun b => brickCourse b == c) with
  | some b => some b
  | none => ((List.range 16).map (fun i => c * 16 + ((courseOf s c).nextTest + i) % 16)).find? (fun b => !fenced s b)

/-- Whether a Course may start a test now: a test Watch holds it, tests are left, the test fits the plan's test_us
(R548), and the remainder of the Watch holds one (R275).
Log entries: 95 (DEDUCED), 150 (DEDUCED). -/
def mayTest (s : State) (c : Nat) : Bool :=
  match (courseOf s c).watch.bind (watchNow s), s.day.active with
  | some w, some p => decide (64 ≤ w.ctx) && decide (0 < (courseOf s c).testsLeft)
      && decide (rd s FAB_TEST_US_REQ.test_us ≤ p.testUs) && decide (now s + p.testUs * 1000 ≤ watchEndAt s w)
  | _, _ => false

/-- Start the next test of a Course where one may start (R275), with the pack set that is installed now (R550).
Log entry: 95 (DEDUCED). -/
def startBrickTest (c : Nat) (s : State) : State :=
  if mayTest s c then
    let t := (testNext s c).map (fun b =>
      (⟨b, now s, rd s FAB_PACK_SET.set_version, s.fab.packs, s.fab.retests.contains b⟩ : TestRun))
    modCourse c (fun x => { x with test := t }) s
  else modCourse c (fun x => { x with test := none }) s

/-- Begin a Watch on a Course; a late one raises event 0x0530 (R274).
Log entries: 88 (DEDUCED), 92 (DEDUCED). -/
def beginWatch (i : Nat) (w : Watch) (c : Nat) (s : State) : State :=
  let late := now s - watchStartAt s w
  let own := if w.ctx < 64 then w.ctx else 0xFF
  let s1 := wr TRW_COURSE_STATE.context (atCourse c 0x100) own
    (modCourse c (fun x => { x with watch := some i, owner := own, preempt := false, overrunAt := none,
                                    testsLeft := w.tests, quota := planQuota s w.ctx })
      (wakeCourse c (restoreIdle w.ctx c s)))
  let s2 := startBrickTest c { s1 with day := { s1.day with begun := (i * 64 + c) :: s1.day.begun } }
  if late = 0 then s2
  else event 0x0530 (courseDie c) own c 1 ([i, 0, 0, 0] ++ leBytes 4 (late / 1000)) (incSat DAY_LATE_COUNT.late 0 1 s2)

/-- WATCH_START (R274), on one Course of the Watch. -/
def execWatchStart (watch course : Nat) (s : State) : Host.Outcome State Fault Refusal :=
  .next (match watchNow s watch with
    | none => s
    | some w =>
      let s1 := passTo (watchStartAt s w) s
      if mayBegin s1 watch w course ∧ now s1 < watchEndAt s1 w then beginWatch watch w course s1 else s)

/-- Whether the staged plan, if any, takes over at the next boundary of the active plan (R272).
Log entry: 86 (DEDUCED). -/
def takeoverDue (s : State) : Bool :=
  s.day.staged.isSome && (match s.day.active with
    | none => true
    | some a => decide (s.day.stagedAt ≤ s.day.periodAt + a.periodUs * 1000))

/-- The next boundary of the active plan: the Watches of the period end and the next period begins. -/
def nextPeriod (s : State) : State :=
  match s.day.active with
    | none => s
    | some p =>
      let s0 := (List.range p.watches.length).foldl (fun s i => endWatch i s) s
      let t := s0.day.periodAt + p.periodUs * 1000
      let s1 := passTo t s0
      nightHook (incWrap DAY_PERIOD_INDEX.period 0 1 { s1 with day := { s1.day with periodAt := t, begun := [], ended := [] } })

/-- PERIOD_BOUNDARY (R257): a boundary at which no staged plan takes over.
Log entry: 86 (DEDUCED). -/
def execPeriodBoundary (s : State) : Host.Outcome State Fault Refusal :=
  .next (if watchesRun s && !takeoverDue s then nextPeriod s else s)

/-- At a takeover, a Course that the new plan names in no Watch switches its holder out (R272); one whose next Watch
names another context than its holder passes to it by a further switch (R262, step 5). -/
def takeoverCourse (p : Plan) (s : State) (c : Nat) : State :=
  if (courseOf s c).owner < 64 ∧ (courseOf s c).switch.isNone then
    match nextIn p c 1025 0 s.day.periodAt s.day.periodAt with
    | none => startSwitch c 0xFF none none s
    | some (j, v, t) => if v.ctx = (courseOf s c).owner then s else startSwitch c v.ctx (some j) (some t) s
  else s

/-- PLAN_TAKEOVER (R272): the staged plan is the active one from its boundary on, and event 0x0531 is raised.
Log entry: 86 (DEDUCED). -/
def execPlanTakeover (s : State) : Host.Outcome State Fault Refusal :=
  .next (match s.day.staged with
    | none => s
    | some p =>
      if !watchesRun s || !takeoverDue s then s else
      let n := (s.day.active.map (·.watches.length)).getD 0
      let s0 := (List.range n).foldl (fun s i => endWatch i s) s
      let s1 := passTo s0.day.stagedAt s0
      let s2 := { s1 with day := { s1.day with active := some p, staged := none, periodAt := s1.day.stagedAt,
                                               begun := [], ended := [] } }
      let s2 := refreshTest s2
      let s3 := wr DAY_PERIOD_INDEX.period 0 0 (wr DAY_ACTIVE_ID.plan_id 0 p.id
        (wrB DAY_STATUS.active_valid 0 true (wrB DAY_STATUS.staged_valid 0 false s2)))
      let s4 := refreshLedger ((List.range 4).foldl (fun s d => wr PLB_SWITCH_W.w_gbps (4 * d) (p.w.getD d 0) s) s3)
      let s5 := event 0x0531 0 0xFF 0 0 (leBytes 4 p.id) s4
      nightHook ((List.range 64).foldl (takeoverCourse p) s5))

/-! ## Switches -/

/-- Zero the Hod and the 16 Beds of a Course (R47, R278). -/
def zeroCourse (c : Nat) (s : State) : State :=
  { s with fab := { s.fab with hod := aclear s.fab.hod (c * 4194304) (c * 4194304 + 4194304),
                               bed := aclear s.fab.bed (c * 16 * 262144) ((c * 16 + 16) * 262144) } }

/-- The state that a Course's holder has there (R262): none for a context that is not open, and none after a teardown
(R279). -/
def heldSize (s : State) (c : Nat) : Nat :=
  if (courseOf s c).owner < 64 ∧ ctxOpen s (courseOf s c).owner then quotaSize (courseOf s c).quota else 0

/-- Whether the state on a Course exceeds its holder's save area (R337). -/
def saveTooBig (s : State) (c : Nat) : Bool :=
  decide (com s HST_SAVE_BASE.save_mib ((courseOf s c).owner * 0x100) * 1048576 < heldSize s c)

/-- Save the state on a Course to its holder's save area (R262, step 3), then zero the Course.
Log entry: 89 (DESIGN CHOICE). -/
def saveState (c : Nat) (s : State) : State :=
  let st := courseOf s c
  if heldSize s c = 0 then zeroCourse c s
  else
    let data := (quotaKeys st.quota c).map (fun k => (aget (if k.1 then s.fab.hod else s.fab.bed) k.2 0).toNat)
    let s1 := writeMem' c st.owner (saveArea s st.owner c) data s
    zeroCourse c { s1 with day := { s1.day with
      saved := aset s1.day.saved (st.owner * 64 + c) (1 + st.quota.1 + 8192 * st.quota.2) 0 } }

/-- The launch at the head of a context's queues for a Course, in the order of R310. -/
def headLaunch (s : State) (ctx c : Nat) : Option Nat :=
  (List.range 4).findSome? (fun k =>
    ((s.fab.launches.find? (fun l => l.ctx == ctx && l.ring == ((courseOf s c).ringNext + k) % 4
      && l.insts.any (fun i => i.course == c && i.phase == .queued))).map (·.id)))

/-- Where a Course goes on to when its switch ends (R262, step 5): to the context of the Watch that runs there now or of
the next one, by a further switch where that is another; a holder that no Watch of the plan names goes (R272). -/
def goFurther (c inCtx : Nat) (s : State) : State :=
  let here := (s.day.active.map (watchesOn · c)).getD []
  match here.find? (fun w => occurs w.2 (periodNow s) && decide (watchStartAt s w.2 ≤ now s)
      && decide (now s < watchEndAt s w.2)) with
  | some w => if w.2.ctx = inCtx then s else startSwitch c w.2.ctx (some w.1) none s
  | none => match nextWatch s c (now s) with
    | some (j, v, t) => if v.ctx = inCtx ∨ 64 ≤ inCtx then s else startSwitch c v.ctx (some j) (some t) s
    | none => if inCtx < 64 then startSwitch c 0xFF none none s else s

/-- Steps 3 and 4 of a switch (R262), once every outgoing instance has stopped: the sections of the incoming context's
first launch are loaded too. Then, where the next Watch names another context by now, a further switch.
Log entry: 90 (DEDUCED). -/
def finishSwitch (c : Nat) (sw : Switch) (s : State) : State :=
  let s1 := saveState c s
  let own := if sw.inCtx < 64 then sw.inCtx else 0xFF
  let s2 := wrB TRW_COURSE_STATE.switching (atCourse c 0x100) false
    (modCourse c (fun x => { x with switch := none, preempt := false, overrunAt := none, owner := own, prev := none,
                                    quota := savedQuota (aget s.day.saved (sw.inCtx * 64 + c) 0),
                                    preload := headLaunch s own c }) s1)
  goFurther c sw.inCtx (restoreState sw.inCtx c s2)

/-- SWITCH_COMPLETE (R264): not before the outgoing instances have stopped, nor before a teardown's scrub ends (R279). A
state that exceeds its save area is not saved: its context is torn down with cause 0x0615, and the switch waits for that
scrub (R279, R337).
Log entry: 90 (DEDUCED). -/
def execSwitchComplete (course : Nat) (s : State) : Host.Outcome State Fault Refusal :=
  .next (match (courseOf s course).switch with
    | none => s
    | some sw =>
      if !(activeOn s course).isEmpty ∨ (courseOf s course).scrub then s
      else if saveTooBig s course then teardown (courseOf s course).owner 0x0615 [] s
      else finishSwitch course sw (passTo (now s + 800) s))

/-- WATCH_OVERRUN_EXPIRY (R273): outgoing instances that still run stop with 0x0520, one event for each launch, and
their context is torn down. -/
def execWatchOverrunExpiry (course : Nat) (s : State) : Host.Outcome State Fault Refusal :=
  .next (match (courseOf s course).overrunAt with
    | none => s
    | some t =>
      let s1 := modCourse course (fun x => { x with overrunAt := none }) (passTo t s)
      let act := activeOn s1 course
      match act with
      | [] => s1
      | (l, _) :: _ =>
        let s2 := act.foldl (fun s x => event 0x0520 (courseDie course) x.1.ctx course 1 [] s)
          (incSat DAY_OVERRUN_COUNT.overruns 0 act.length s1)
        teardown l.ctx 0x0520 (act.map (fun x => (x.1.id, 0x0520, course))) s2)

/-- TEARDOWN_SCRUB_COMPLETE (R278, steps 4 and 5): the Courses that hold the context's state are zeroed and free, and
event 0x0533 gives the cause.
Log entry: 94 (DEDUCED). -/
def execTeardownScrubComplete (ctx : Nat) (s : State) : Host.Outcome State Fault Refusal :=
  .next (match (ctxOf s ctx).scrubCause with
    | none => s
    | some cause =>
      let s1 := (List.range 64).foldl (fun s c =>
        if (courseOf s c).scrub ∧ (courseOf s c).owner = ctx then
          wrB TRW_COURSE_STATE.switching (atCourse c 0x100) (courseOf s c).switch.isSome
            (modCourse c (fun x => { x with scrub := false, owner := 0xFF, prev := none, preload := none }) (zeroCourse c s))
        else s) s
      event 0x0533 0 ctx 0 1 (leBytes 2 cause) (modCtx ctx (fun x => { x with scrubCause := none }) s1))

end Sys2Proof.Machine
end

