-- ==== Sys2Proof/Machine/Flags.lean ====
section
/-! DEFINITION. The arithmetic flags of R135 as the Bricks' instructions set them, the packing of elements in storage
(R100 to R102), and the roundings that the Lane and Scale units make. -/

namespace Sys2Proof.Machine

/-! ## Elements in storage -/

/-- Bytes that n elements of a format take. -/
def packedBytes (f n : Nat) : Nat := divUp (n * storeBits f) 8

/-- Element i of bytes packed in a format: a 4-bit format puts the element of lower index in bits [3:0]. -/
def unpackAt (f : Nat) (l : List Nat) (i : Nat) : Nat :=
  match storeBits f with
  | 4 => l.getD (i / 2) 0 / 16 ^ (i % 2) % 16
  | 8 => l.getD i 0 % 256
  | 16 => fld l (2 * i) 2
  | _ => fld l (4 * i) 4

/-- n elements unpacked. -/
def unpack (f : Nat) (l : List Nat) (n : Nat) : List Nat := (List.range n).map (unpackAt f l)

/-- Codes packed in a format; a last half byte is 0. -/
def pack (f : Nat) (codes : List Nat) : List Nat :=
  match storeBits f with
  | 4 => (List.range (divUp codes.length 2)).map (fun i => codes.getD (2 * i) 0 % 16 + codes.getD (2 * i + 1) 0 % 16 * 16)
  | 8 => codes.map (· % 256)
  | 16 => (codes.map (fun c => leBytes 2 c)).flatten
  | _ => (codes.map (fun c => leBytes 4 c)).flatten

/-! ## Flags -/

/-- Whether a value is a finite number. -/
def Val.isFin : Val → Bool | .fin _ => true | _ => false

/-- Whether a value is infinite. -/
def Val.isInf : Val → Bool | .inf _ => true | _ => false

/-- The flags of one rounded operation (R135): its operands, its exact result, and its rounding to FP32. -/
def resultFlags (ops : List Val) (exact : Val) (r : Nat × Nat) : Nat :=
  (if ops.any Val.isNan || exact.isNan then flagNan else 0)
    ||| (if ops.all Val.isFin && (f32Val r.1).isInf then flagOverflow else 0)
    ||| (r.2 &&& flagUnderflow)

/-- An operand of the Lane unit (R121): its FP32 value, a Bell-6 grid value rounded, a marker read as NaN (R132); and
the flags. -/
def laneRead (f mode r code : Nat) : Val × Nat :=
  match decodeElem f code with
  | .marker => (.nan, flagMarkerLost)
  | v => if f = 10 then (f32Val (f32 mode r v).1, 0) else (v, 0)

/-- A result of the Lane unit: rounded once to FP32 (R122), then converted to the output format (R132). -/
def laneWrite (out mode r : Nat) (ops : List Val) (exact : Val) : Nat × Nat :=
  let x := f32 mode r exact
  let y := convert out mode r (f32Val x.1)
  (y.1, resultFlags ops exact x ||| y.2)

/-! ## The functions of the Lane unit (R65, R122 to R125) -/

/-- 1 / x.
Log entry: 58 (PRESUMED). -/
def recipVal (x : Val) : Val := divVal (.fin ⟨false, 1, 1⟩) x

/-- 1 / sqrt x.
Log entry: 58 (PRESUMED). -/
def rsqrtVal : Val → Val
  | .fin a => if a.num = 0 then .inf a.neg else if a.neg then .nan else .fin (sqrtFrac a.den a.num)
  | .inf false => .fin ⟨false, 0, 1⟩
  | _ => .nan

/-- e^x. -/
def expVal : Val → Val
  | .fin a => .fin (expFrac a)
  | .inf false => .inf false
  | .inf true => .fin ⟨false, 0, 1⟩
  | _ => .nan

/-- tanh x. -/
def tanhVal : Val → Val
  | .fin a => .fin (tanhFrac a)
  | .inf n => .fin ⟨n, 1, 1⟩
  | _ => .nan

/-- The logistic function. -/
def logisticVal : Val → Val
  | .fin a => .fin (logisticFrac a)
  | .inf false => .fin ⟨false, 1, 1⟩
  | .inf true => .fin ⟨false, 0, 1⟩
  | _ => .nan

/-- Word i of a lane_table section. -/
def tableWord (t : List Nat) (i : Nat) : Nat := fld t (4 * i) 4

/-- Table lookup (R125): the exact value of the final fused multiply-add. A t that is not a number gives NaN.
Log entry: 65 (DESIGN CHOICE). -/
def lookupVal (t : List Nat) (x : Val) : Val :=
  match x with
  | .nan | .marker => .nan
  | _ =>
    let u := mulF (subF (rne x) (tableWord t 0)) (tableWord t 1)
    let c := minVal (maxVal (f32Val u) (.fin ⟨false, 0, 1⟩)) (.fin ⟨false, 1021, 1⟩)
    match c with
    | .fin a =>
      let i := min (a.num / a.den) 1020
      let f := addVal c (.fin (fracOf (-(i : Int)) 1))
      let d := subF (tableWord t (i + 3)) (tableWord t (i + 2))
      addVal (mulVal f (f32Val d)) (f32Val (tableWord t (i + 2)))
    | _ => .nan

/-- The unary functions (R65). -/
def unaryVal (fn : Nat) (t : List Nat) (x : Val) : Val :=
  match fn with
  | 0 => x
  | 1 => expVal x
  | 2 => recipVal x
  | 3 => rsqrtVal x
  | 4 => tanhVal x
  | 5 => logisticVal x
  | 6 => lookupVal t x
  | _ => absVal x

/-- The binary functions (R65): x and y are the operands, b the broadcast operand of function 5.
Log entry: 59 (DEDUCED). -/
def binaryVal (fn : Nat) (b x y : Val) : Val :=
  match fn with
  | 0 => addVal x y
  | 1 => addVal x (negVal y)
  | 2 => mulVal x y
  | 3 => maxVal x y
  | 4 => minVal x y
  | _ => addVal (mulVal x b) y

/-- The operation that REDUCE combines with (R123, R124). -/
def reduceVal (fn : Nat) (x y : Val) : Val :=
  match fn with
  | 0 => addVal x y
  | 1 => maxVal x y
  | _ => maxVal (absVal x) (absVal y)

/-- One level of REDUCE (R124): neighbours combined, each rounded once; `width` is how many elements a result stands
for, `idx` the index of the first element, used for its random bits. -/
def reduceLevel (fn mode seed width : Nat) : (idx : Nat) → List Val → List Val × Nat
  | idx, x :: y :: r =>
    let e := reduceVal fn x y
    let z := f32 mode (srBits seed idx) e
    let q := reduceLevel fn mode seed width (idx + width) r
    (f32Val z.1 :: q.1, resultFlags [x, y] e z ||| q.2)
  | _, l => (l, 0)

/-- REDUCE of one vector (R124): six levels. -/
def reduceVec (fn mode seed idx : Nat) (l : List Val) : Val × Nat :=
  let r := (List.range 6).foldl (fun (a : List Val × Nat) n =>
    let q := reduceLevel fn mode seed (2 ^ (n + 1)) idx a.1
    (q.1, a.2 ||| q.2)) (l, 0)
  (r.1.headD .nan, r.2)

/-! ## BF16 -/

/-- The value of a BF16 word. -/
def bf16Val (w : Nat) : Val := decodeElem 1 (w % 2 ^ 16)

/-- A value as a BF16 word, to nearest even. -/
def bf16 (v : Val) : Nat := (convert 1 0 0 v).1

/-- A magnitude rounded once toward +∞ to BF16 (R147, R157): beyond the largest finite value, +∞. -/
def bf16Ceil (x : Frac) : Nat :=
  if x.num = 0 then 0
  else
    let m := roundGrid 7 (-126) 1 0 x.num x.den
    let back := finMag 1 m
    min (if back.lt ⟨false, x.num, x.den⟩ then m + 1 else m) 0x7F80

/-- A row scale (R151, R153): rounded once toward +∞ to BF16 and held at the largest finite value.
Log entry: 63 (DEDUCED). -/
def bf16Up (x : Frac) : Nat := min (bf16Ceil x) 0x7F7F

/-- An integer held to INT32 (R115): the word, and whether it clamped. -/
def clamp32 (n : Int) : Nat × Nat :=
  if n < -2147483648 then (0x80000000, flagSaturation)
  else if 2147483647 < n then (0x7FFFFFFF, flagSaturation)
  else (enc n 32, 0)

end Sys2Proof.Machine
end

