-- ==== Sys2Proof/Machine/Role.lean ====
section
/-! DEFINITION. How a role issues an instruction: what stops it, the faults that its Brick's hardware meets (R86, R521,
R531), the element index of stochastic rounding (R130), the flags of its instance (R135), and runs of bytes that its
generators address in its Bed. -/

namespace Sys2Proof.Machine

open Reg

/-- The instruction word at a role's pc.
Log entry: 48 (DESIGN CHOICE). -/
def Role.word (x : Role) : Nat := wordAt x.program x.pc

/-- Whether a role may issue an instruction now. -/
def Role.ready (x : Role) : Bool :=
  !x.halted && !x.atPpoint && !x.atBarrier && x.tieWait.isNone && x.stall.isNone

/-- The role on Brick b where its next instruction has the operation given and may issue.
Log entries: 5 (DESIGN CHOICE), 48 (DESIGN CHOICE). -/
def issuing (s : State) (b op : Nat) : Option Site :=
  match siteOf s b with
  | some x => if s.mode = .run ∧ x.role.ready ∧ opOf x.role.word = op then some x else none
  | none => none

/-- Change the role of a site. -/
def setRole (x : Site) (f : Role → Role) (s : State) : State :=
  modInst x.launch.id x.inst.course (fun i => { i with roles := modAt i.roles x.k f }) s

/-- The count of an instance from those of its roles, which run side by side from one activation (R76, R77). -/
def roleCycles (roles : List Role) : Nat := roles.foldl (fun m r => max m r.cycles) 0

/-- Add cycles to a role's count; the instance's is the largest of its roles' (R77).
Log entries: 6 (DESIGN CHOICE), 71 (DESIGN CHOICE). -/
def addCycles (x : Site) (n : Nat) (s : State) : State :=
  modInst x.launch.id x.inst.course (fun i =>
    let roles := modAt i.roles x.k (fun r => { r with cycles := r.cycles + n })
    { i with roles := roles, cycles := max i.cycles (roleCycles roles) }) s

/-- Set arithmetic flags of an instance (R135). -/
def noteArith (x : Site) (fl : Nat) (s : State) : State :=
  modInst x.launch.id x.inst.course (fun i => { i with arith := i.arith ||| fl }) s

/-- Go on with the next instruction.
Log entry: 5 (DESIGN CHOICE). -/
def goOn (x : Site) (s : State) : State := setRole x (fun r => r.counted.advance) s

/-- Stop the instance of a site with a run-time status whose unit is its Brick.
Log entries: 72 (DEDUCED), 73 (DEDUCED). -/
def brickFault (x : Site) (status : Nat) (payload : List Nat) (tears : Bool) (s : State) : State :=
  faultInst x.launch.id x.inst.course status (courseDie x.inst.course) x.role.brick payload tears s

/-- Stop the instance of a site with a run-time status whose unit is its Course. -/
def courseFault (x : Site) (status : Nat) (payload : List Nat) (tears : Bool) (s : State) : State :=
  faultInst x.launch.id x.inst.course status (courseDie x.inst.course) x.inst.course payload tears s

/-- An address outside the Bond's bounds (R68). -/
def boundsFault (x : Site) (s : State) : State := brickFault x 0x0113 [] true s

/-- The Brick of the neighbour in a logical direction of a role: the Brick of the role on the next footprint cell. -/
def neighbourBrick (x : Site) (dir : Nat) : Option Nat :=
  (cellTowards (roleCell x.launch.image x.k) dir).bind (fun c =>
    (roleAtCell x.launch.image c).bind (fun r => (x.inst.roles[r]?).map (·.brick)))

/-- The Course whose Hod a Hod byte address of a Bond lies in (R48): its own where the address names none. -/
def hodCourseOf (x : Site) (a : Nat) (s : State) : Nat :=
  ((hodPlace s x.launch.image x.launch.ctx x.inst.course (a / 64 : Nat)).map (·.1)).getD x.inst.course

/-- An uncorrectable error in the Bed of a Brick (R86): the Brick is fenced, and the instance whose access met it
stops. -/
def bedFault (x : Site) (brick a : Nat) (s : State) : State :=
  faultInst x.launch.id x.inst.course 0x0112 (courseDie x.inst.course) brick (leBytes 4 a) true (fenceBrick brick false s)

/-- Whether a result that is off by a value has the residue modulo 31 that its operands predict (R530). -/
def residueHolds (off : Int) : Bool := off % 31 == 0

/-- Run an instruction's effect under what its hardware meets: a residue mismatch that its repeat settles counts and
goes on, one that the repeat confirms stops the launch with a strike (R531); a parity error stops the launch (R521); an
uncorrectable Bed error fences the Brick whose Bed it is and a Hod error fences nothing (R86). -/
def withUpset (x : Site) (u : Upset) (k : State → State) (s : State) : State :=
  let h := x.launch.ctx * 0x80
  match u with
  | .none | .checksum _ _ _ _ | .page _ _ _ | .tile _ _ | .item _ => k s
  | .residue off again =>
    if residueHolds off then k s
    else if residueHolds again then k (incWrap FAB_HEALTH_RESIDUE.residue_repeats h 1 s)
    else strike x.role.brick x.launch.ctx 0x0B13 (brickFault x 0x0B13 [] false s)
  | .parity path internal =>
    let s1 := incWrap FAB_HEALTH_PARITY.parity h 1 s
    if internal then strike x.role.brick x.launch.ctx 0x0B14 (brickFault x 0x0B14 [path % 256] false s1)
    else courseFault x 0x0B14 [path % 256] false s1
  | .bed false a => bedFault x x.role.brick a s
  | .bed true a => bedFault x ((neighbourBrick x (bits x.role.word 18 2)).getD x.role.brick) a s
  | .hod a => faultInst x.launch.id x.inst.course 0x0112 (courseDie x.inst.course) (hodCourseOf x a s) (leBytes 4 a) true s

/-- The instance index of an instance within its launch's Course set (R301). -/
def Launch.indexOf (l : Launch) (course : Nat) : Nat := l.insts.findIdx (fun i => i.course == course)

/-- The element index of R130 and R167 without its element position and count: instruction address, role, instance. -/
def Site.idxBase (x : Site) : Nat :=
  x.role.pc % 512 * 2 ^ 14 + x.k % 16 * 2 ^ 23 + x.launch.indexOf x.inst.course % 64 * 2 ^ 27

/-- The seed of a launch (R298).
Log entry: 64 (DEDUCED). -/
def Launch.seed (l : Launch) : Nat := fld l.raw 16 8

/-- The random bits of an element of a LANE instruction (R129, R130).
Log entry: 64 (DEDUCED). -/
def Site.randomAt (x : Site) (pos : Nat) : Nat :=
  srBits x.launch.seed (pos % 2 ^ 14 + x.idxBase + x.role.earlier % 2 ^ 31 * 2 ^ 33)

/-- Parameter word p of a launch's instance on a Course: words 0 and 1 of a multi-Course Bond hold the instance index
and the set's size (R301), those of a windowed or attention launch what R191 and R246 give. -/
def paramWord (l : Launch) (course p : Nat) : Nat :=
  ((l.insts.find? (fun i => i.course == course)).map (fun i => i.params.getD p 0)).getD 0

/-- Bytes of a Bed that generated lines hold, from byte `off` of their sequence on. -/
def runBytes (s : State) (brick : Nat) (lines : List Int) (off n : Nat) : List Nat :=
  (List.range n).map (fun i => bedByte s brick ((lines.getD ((off + i) / 64) 0).toNat * 64 + (off + i) % 64))

/-- Write bytes into the Bed lines that a generator yields, from byte `off` of their sequence on. -/
def wrRun (brick : Nat) (lines : List Int) (off : Nat) (data : List Nat) (s : State) : State :=
  ((List.range data.length).zip data).foldl (fun s e =>
    wrBed brick ((lines.getD ((off + e.1) / 64) 0).toNat * 64 + (off + e.1) % 64) [e.2] s) s

/-- Whether every line of a list lies in the Bed that a Bond declares. -/
def linesOk (img : List Nat) (l : List Int) : Bool := l.all (bedLineOk img)

end Sys2Proof.Machine
end

