-- ==== Sys2Proof/Machine/Mac.lean ====
section
/-! DEFINITION. The MAC array: operand streamers (R178 to R180, R233 to R236, R778, R779), exact block sums and their
fold (R110 to R120), the Quoin lanes (R161 to R165), MMA and DRAIN (R65), and the stall of a role for a replay (R42,
R523, R524). -/

namespace Sys2Proof.Machine

open Reg

/-! ## Streamer records and run tables -/

/-- A streamer record (R778, R233): `fp16` says that it streams FP16 queries, which it widens (R235). -/
structure StreamRec where
  ag : Nat
  line : Nat
  count : Nat
  decode : Bool
  rotary : Bool
  inter : Bool
  cacheFmt : Nat
  rows : Nat
  scaleLine : Nat
  rotOffset : Nat
  fp16 : Bool := false
  raw : List Nat := []
  deriving DecidableEq, Repr

/-- Streamer record k of a role's 64 streamer bytes. -/
def streamRec (st : List Nat) (k : Nat) : StreamRec :=
  let b := 32 * k
  let w := fld st (b + 16) 2
  { ag := st.getD b 0 % 4, line := bits (fld st (b + 2) 2) 0 12, count := fld st (b + 4) 2, decode := bits w 0 2 == 1,
    rotary := bit w 2, inter := bit w 3, cacheFmt := bits w 4 4, rows := bits w 8 8,
    scaleLine := bits (fld st (b + 18) 2) 0 12, rotOffset := bits (fld st (b + 20) 4) 0 22,
    raw := slice st b 32 }

/-- Streamer record k of a role as its launch uses it: in an attention launch of FP16 queries, S0 without decode may hold
them (R219, R235). -/
def streamerOf (x : Site) (st : List Nat) (k : Nat) : StreamRec :=
  let r := streamRec st k
  { r with fp16 := k == 0 && bit (x.launch.raw.getD 1 0) 5 && x.inst.record.getD 1 0 == 2 && !r.decode
                     && (r.rotary || Config.streamsQueries r.raw) }

/-- A run record (R778). -/
structure Run where
  offset : Nat
  hi : Nat
  len : Nat
  bad6 : Bool
  nib : Bool
  lane : Nat
  firstK : Nat
  block : Nat
  deriving DecidableEq, Repr

/-- A run record's 8 bytes. -/
def runOf (l : List Nat) : Run :=
  let o := fld l 0 3
  let n := l.getD 3 0
  { offset := bits o 0 18, hi := bits o 18 6, len := bits n 0 6, bad6 := bit n 6, nib := bit n 7, lane := l.getD 4 0,
    firstK := l.getD 5 0, block := fld l 6 2 }

/-- The run table of a streamer in a Brick's Bed. -/
def runTable (s : State) (brick : Nat) (r : StreamRec) : List Run :=
  (List.range r.count).map (fun i => runOf (bedBytes s brick (r.line * 64 + 8 * i) 8))

/-- The format in which a streamer's elements are stored: the cache format in scaled decode (R233), FP16 for queries of
that format (R235), else the MMA's. -/
def storeFmt (r : StreamRec) (fmt : Nat) : Nat := if r.decode then r.cacheFmt else if r.fp16 then 2 else fmt

/-- Whether a run record has a field outside its range (R778, R779). -/
def runBad (f kb : Nat) (r : Run) : Bool :=
  r.hi != 0 || r.bad6 || r.len == 0 || decide (32 < r.len) || (r.nib && storeBits f != 4) || decide (31 < r.lane)
    || decide (32 < r.firstK + r.len) || decide (kb ≤ r.block)

/-- The last byte, plus one, that a run reads. -/
def runEnd (f : Nat) (base : Int) (r : Run) : Int :=
  base * 64 + r.offset + divUp (r.len * storeBits f + (if r.nib then 4 else 0)) 8

/-- The first run that stops the instance, and the status it stops with (R779): 0x0115 for a malformed record or a
table out of order, 0x0113 for bytes beyond bed_bytes. -/
def firstBadRun (img : List Nat) (f kb : Nat) (base : Int) : (prev : Nat) → List Run → Option (Nat × Nat)
  | _, [] => none
  | prev, r :: rest =>
    if runBad f kb r || decide (r.block < prev) then some (prev, 0x0115)
    else if decide (base < 0) || decide ((imgBed img : Int) < runEnd f base r) then some (r.block, 0x0113)
    else firstBadRun img f kb base r.block rest

/-- What stops a streamer's operand, with the block before which it stops. -/
def streamFault (s : State) (img : List Nat) (brick : Nat) (r : StreamRec) (f kb : Nat) (base : Int) : Option (Nat × Nat) :=
  if !bedBytesOk img (r.line * 64) (8 * r.count) then some (0, 0x0113)
  else if r.decode && !bedBytesOk img (r.scaleLine * 64) (2 * (31 / max 1 r.rows + 1)) then some (0, 0x0113)
  else if r.rotary && decide (4194304 < r.rotOffset + (31 / max 1 r.rows + 1) * (16 * kb) * 8) then some (0, 0x0113)
  else firstBadRun img (storeFmt r f) kb base 0 (runTable s brick r)

/-! ## Operand elements -/

/-- The code that a run's element holds. -/
def runElem (s : State) (brick f : Nat) (base : Int) (r : Run) (i : Nat) : Nat :=
  let a := base.toNat * 64 + r.offset
  let j := i + (if r.nib then 1 else 0)
  unpackAt f (bedBytes s brick a (packedBytes f (j + 1))) j

/-- The code at a lane and K index, from the last run that covers it; none where no run does. -/
def coveredCode (s : State) (brick f : Nat) (base : Int) (runs : List Run) (lane k : Nat) : Option Nat :=
  (runs.reverse.find? (fun r => r.block == k / 32 && r.lane == lane && decide (r.firstK ≤ k % 32)
    && decide (k % 32 < r.firstK + r.len))).map (fun r => runElem s brick f base r (k % 32 - r.firstK))

/-- An operand element before rotation: its value and flags. Scaled decode multiplies the decoded value by its token's
scale (R234).
Log entry: 68 (DEDUCED). -/
def streamElem (s : State) (brick f : Nat) (r : StreamRec) (base : Int) (runs : List Run) (lane k : Nat) : Val × Nat :=
  match coveredCode s brick (storeFmt r f) base runs lane k with
  | none => (.fin {}, 0)
  | some c =>
    let v := decodeElem (storeFmt r f) c
    if r.decode then
      let t := if r.rotary then lane / max 1 r.rows else if Config.tokensAlongK r.raw then k
        else lane / max 1 r.rows
      let sc := bf16Val (leNat (bedBytes s brick (r.scaleLine * 64 + 2 * t) 2))
      match v with
      | .marker => (.fin {}, flagMarkerLost)
      | _ =>
        let d := f32Val (rne v)
        let p := f32 0 0 (mulVal d sc)
        (f32Val p.1, resultFlags [d, sc] (mulVal d sc) p)
    else (v, 0)

/-- A rotary entry (R236) in the Course's Hod: cosine and sine words. -/
def rotEntry (s : State) (course : Nat) (r : StreamRec) (half p i : Nat) : Nat × Nat :=
  let l := hodBytes s course (r.rotOffset + (p * half + i) * 8) 8
  (fld l 0 4, fld l 4 4)

/-- An operand element after rotation (R235), for a product of kb blocks. -/
def rotated (s : State) (x : Site) (f : Nat) (r : StreamRec) (base : Int) (runs : List Run) (kb lane k : Nat) : Val × Nat :=
  let half := 16 * kb
  let i := if r.inter then k / 2 else k % half
  let ka := if r.inter then 2 * i else i
  let kbIdx := if r.inter then 2 * i + 1 else i + half
  let a := streamElem s x.role.brick f r base runs lane ka
  let b := streamElem s x.role.brick f r base runs lane kbIdx
  let cs := rotEntry s x.inst.course r half (lane / max 1 r.rows) i
  let xa := rne a.1
  let xb := rne b.1
  let y := if k = ka then subF (mulF xa cs.1) (mulF xb cs.2) else addF (mulF xa cs.2) (mulF xb cs.1)
  (f32Val y, a.2 ||| b.2)

/-- The code that reaches the MAC array at a lane and K index, and the flags of its decode (R235): a BF16 operand that
is decoded, rotated or widened from FP16 is rounded once to BF16; an element that no run covers is zero. -/
def operandCode (s : State) (x : Site) (f : Nat) (r : StreamRec) (base : Int) (runs : List Run) (kb lane k : Nat) : Nat × Nat :=
  if r.decode ∨ r.rotary ∨ r.fp16 then
    let v := if r.rotary then rotated s x f r base runs kb lane k else streamElem s x.role.brick f r base runs lane k
    let c := convert 1 0 0 v.1
    (c.1, c.2 ||| v.2)
  else ((coveredCode s x.role.brick f base runs lane k).getD 0, 0)

/-- The operand codes of block n: 32 lanes of 32 K indices, with the flags of their decode. -/
def operandBlock (s : State) (x : Site) (f : Nat) (r : StreamRec) (base : Int) (runs : List Run) (kb n : Nat) :
    List (List Nat) × Nat :=
  let m := (List.range 32).map (fun l => (List.range 32).map (fun k => operandCode s x f r base runs kb l (n * 32 + k)))
  (m.map (fun row => row.map (·.1)), m.foldl (fun a row => row.foldl (fun a e => a ||| e.2) a) 0)

/-! ## Block sums -/

/-- The exact sum of a block of an integer pair (R113 to R115). -/
def blockInt (fa fb : Nat) (a b : List Nat) : Int :=
  (a.zip b).foldl (fun t e => t + macInt fa e.1 * macInt fb e.2) 0

/-- The exact sum of a block of a floating pair (R119); an exact zero is +0 (R118). -/
def blockFloat (fa fb : Nat) (a b : List Nat) : Val :=
  match (a.zip b).foldl (fun t e => addVal t (mulVal (decodeElem fa e.1) (decodeElem fb e.2))) (.fin {}) with
  | .fin x => if x.num = 0 then .fin {} else .fin x
  | v => v

/-- The word that a block sum is rounded to: INT32, or FP32 under R116. -/
def sumWord (fa fb : Nat) (a b : List Nat) : Nat :=
  if pairInt fa fb then enc (blockInt fa fb a b) 32 else rne (blockFloat fa fb a b)

/-- Fold one block into an accumulator word (R115, R116): the new word and flags. -/
def foldWord (fa fb : Nat) (a b : List Nat) (acc : Nat) : Nat × Nat :=
  if pairInt fa fb then clamp32 (sext acc 32 + blockInt fa fb a b)
  else
    let ops := a.map (decodeElem fa) ++ b.map (decodeElem fb)
    let v := blockFloat fa fb a b
    let w := f32 0 0 v
    let t := addVal (f32Val acc) (f32Val w.1)
    let z := f32 0 0 t
    (z.1, resultFlags ops v w ||| resultFlags [f32Val acc, f32Val w.1] t z)

/-- Fold a block into a whole tile. -/
def foldTile (fa fb : Nat) (a b : List (List Nat)) (acc : List Nat) : List Nat × Nat :=
  let l := ((List.range 1024).zip acc).map (fun e => foldWord fa fb (a.getD (e.1 / 32) []) (b.getD (e.1 % 32) []) e.2)
  (l.map (·.1), l.foldl (fun f e => f ||| e.2) 0)

/-! ## The Quoin lanes -/

/-- The grid factor of a format (R139). -/
def gridFactor (f : Nat) : Nat := match f with | 10 => 255 | 11 => 64 | _ => 1

/-- What the Quoin lanes take from the S0 record (R162): the scale block's line, k_offset and row_offset. -/
def quoinRec (st : List Nat) : Nat × Nat × Nat := (bits (fld st 24 2) 0 12, fld st 26 2, fld st 28 2)

/-- The outlier channels listed in a scale block with their places in the list (R161). -/
def outliers (s : State) (brick line : Nat) : List (Nat × Nat) :=
  let l := bedBytes s brick (line * 64) 64
  (List.range (min 16 (l.getD 4 0))).map (fun i => (fld l (8 + 2 * i) 2, i))

/-- The side record of a tensor row (R147).
Log entry: 69 (DEDUCED). -/
def sideRecord (s : State) (brick line row : Nat) : List Nat :=
  bedBytes s brick (((leNat (bedBytes s brick (line * 64) 2)) % 4096 + row) * 64) 64

/-- The entries of one tile row that belong to an MMA of K indices from k_offset on: K index and true value, in
ascending order (R162, R163).
Log entry: 69 (DEDUCED). -/
def quoinEntries (list : List (Nat × Nat)) (side : List Nat) (kOff k : Nat) : List (Nat × Nat) :=
  let listed := list.map (fun e => (e.1, fld side (32 + 2 * e.2) 2))
  let beyond := (List.range (min 4 (side.getD 2 0))).map (fun i => (fld side (4 + 4 * i) 2, fld side (6 + 4 * i) 2))
  let mine := (listed ++ beyond).filter (fun e => decide (kOff ≤ e.1) && decide (e.1 < kOff + k))
  (List.range k).filterMap (fun i => (mine.find? (fun e => e.1 == kOff + i)).map (fun e => (i, e.2)))

/-- The value that the MAC array decodes for an element of B (R110, R163). -/
def macVal (f code : Nat) : Val := if isFloat f then decodeElem f code else .fin (fracOf (macInt f code) 1)

/-- Q of one cell and the flags of its roundings (R135, R163): `col` gives B's code at a K index. -/
def quoinSum (fa fb : Nat) (sa : Nat) (es : List (Nat × Nat)) (col : Nat → Nat) : Nat × Nat :=
  es.foldl (fun q e =>
    let av := divVal (mulVal (bf16Val e.2) (.fin (fracNat (gridFactor fa)))) (bf16Val sa)
    let a := f32 0 0 av
    let b := macVal fb (col e.1)
    let pv := mulVal (f32Val a.1) b
    let p := f32 0 0 pv
    let tv := addVal (f32Val q.1) (f32Val p.1)
    let t := f32 0 0 tv
    (t.1, q.2 ||| resultFlags [bf16Val e.2, bf16Val sa] av a ||| resultFlags [f32Val a.1, b] pv p
      ||| resultFlags [f32Val q.1, f32Val p.1] tv t)) (0, 0)

/-- Add Q to a cell (R164): the new word and flags. An infinite Q adds the limit of its sign to an INT32 cell, and a Q
that is not a number leaves it.
Log entry: 69 (DEDUCED). -/
def quoinFold (int : Bool) (q acc : Nat) : Nat × Nat :=
  if int then
    match f32Val q with
    | .fin x =>
      let m : Int := roundInt 0 0 x.num x.den
      clamp32 (sext acc 32 + (if x.neg then -m else m))
    | .inf n => clamp32 (sext acc 32 + (if n then -2147483648 else 2147483647))
    | _ => (acc, flagNan)
  else
    let t := addVal (f32Val acc) (f32Val q)
    let z := f32 0 0 t
    (z.1, resultFlags [f32Val acc, f32Val q] t z)

/-! ## MMA -/

/-- An MMA in progress: the fields of its word, its streamer records and tile bases. -/
structure MmaJob where
  fa : Nat
  fb : Nat
  tile : Nat
  quoin : Bool
  kb : Nat
  ra : StreamRec
  rb : StreamRec
  baseA : Int
  baseB : Int
  deriving DecidableEq, Repr

/-- The MMA that the instruction at `at_` of a site's role names, with given tile bases. -/
def mmaJob (x : Site) (at_ : Nat) (baseA baseB : Int) : MmaJob :=
  let r := x.role
  let w := wordAt r.program at_
  { fa := bits w 20 4, fb := bits w 16 4, tile := bits w 14 2, quoin := bit w 12, kb := bits w 4 8 + 1,
    ra := streamerOf x r.streamers 0, rb := streamerOf x r.streamers 1, baseA := baseA, baseB := baseB }

/-- Cycles of a block (R41, R778): those of the pair's rate, or the runs of the block where there are more.
Log entry: 71 (DESIGN CHOICE). -/
def blockCycles (j : MmaJob) (ra rb : List Run) (n : Nat) : Nat :=
  max (128 / pairRate j.fa j.fb)
    (max (countIf ra (fun r => r.block == n)) (countIf rb (fun r => r.block == n)))

/-- Fold blocks lo to hi − 1 of an MMA into its tile (R117). -/
def foldBlocks (j : MmaJob) (x : Site) (lo hi : Nat) (s : State) : State :=
  let brick := x.role.brick
  let ta := runTable s brick j.ra
  let tb := runTable s brick j.rb
  (List.range (hi - lo)).foldl (fun s i =>
    let n := lo + i
    let a := operandBlock s x j.fa j.ra j.baseA ta j.kb n
    let b := operandBlock s x j.fb j.rb j.baseB tb j.kb n
    let r := foldTile j.fa j.fb a.1 b.1 (accTile s brick j.tile)
    addCycles x (blockCycles j ta tb n) (noteArith x (a.2 ||| b.2 ||| r.2) (wrAccTile brick j.tile r.1 s))) s

/-- Whether the scale block and side records of an MMA lie in the Bed that its Bond declares. -/
def quoinOk (s : State) (x : Site) : Bool :=
  let q := quoinRec x.role.streamers
  let base := leNat (bedBytes s x.role.brick (q.1 * 64) 2) % 4096
  bedBytesOk x.launch.image (q.1 * 64) 128 && bedBytesOk x.launch.image ((base + q.2.2) * 64) 2048

/-- The Quoin fold at the end of an MMA (R163 to R165). -/
def quoinEnd (j : MmaJob) (x : Site) (s : State) : State :=
  let brick := x.role.brick
  let q := quoinRec x.role.streamers
  let list := outliers s brick q.1
  let tb := runTable s brick j.rb
  let col := fun (c k : Nat) => (operandCode s x j.fb j.rb j.baseB tb j.kb c k).1
  let rows := (List.range 32).map (fun i =>
    let side := sideRecord s brick q.1 (q.2.2 + i)
    (fld side 0 2, quoinEntries list side q.2.1 (32 * j.kb)))
  let l := ((List.range 1024).zip (accTile s brick j.tile)).map (fun e =>
    let row := rows.getD (e.1 / 32) (0, [])
    let q := quoinSum j.fa j.fb row.1 row.2 (col (e.1 % 32))
    let z := quoinFold (pairInt j.fa j.fb) q.1 e.2
    (z.1, z.2 ||| q.2))
  addCycles x 8 (noteArith x (l.foldl (fun f e => f ||| e.2) 0) (wrAccTile brick j.tile (l.map (·.1)) s))

/-- Finish an MMA from block lo on: the remaining blocks, the Quoin fold, and the next instruction. -/
def mmaFinish (j : MmaJob) (x : Site) (lo : Nat) (s : State) : State :=
  let s1 := foldBlocks j x lo j.kb s
  if !j.quoin then goOn x s1
  else if quoinOk s1 x then goOn x (quoinEnd j x s1)
  else boundsFault x s1

/-- The window of 65,536 cycles that a Brick is in (R524), at 1.53 GHz.
Log entry: 70 (DEDUCED). -/
def replayWindow (s : State) : Nat := now s * 153 / 6553600

/-- The Brick that hosts a replay (R524): the lowest-numbered of the Course that is not the suspect, not fenced, and
has not taken part in a replay in its window; none where the suspect has suffered one in its own.
Log entry: 70 (DEDUCED). -/
def replayHost (s : State) (b : Nat) : Option Nat :=
  if (brickOf s b).sufferedWindow = some (replayWindow s) then none
  else ((List.range 16).map (fun i => brickCourse b * 16 + i)).find? (fun h =>
    h != b && !fenced s h && (brickOf s h).replayWindow != some (replayWindow s))

/-! ## The checksum row and column (R41, R42, R113, R120) -/

/-- An exact sum split as R120 compares it: the sum of the finite products, and the class of the rest, zero where there
is none. -/
abbrev SplitSum := Val × Val

/-- A product, split. -/
def splitVal (v : Val) : SplitSum :=
  match v with
  | .fin _ => (v, .fin {})
  | _ => (.fin {}, v)

/-- Sum of split sums. -/
def addSplit (a b : SplitSum) : SplitSum := (addVal a.1 b.1, addVal a.2 b.2)

/-- Whether two split sums agree, with no tolerance (R42, R120). -/
def splitAgree (a b : SplitSum) : Bool :=
  (match a.1, b.1 with
    | .fin x, .fin y => x.eq y
    | u, v => u == v) &&
  (match a.2, b.2 with
    | .fin _, .fin _ => true
    | u, v => u == v)

/-- The sum that a data cell forms from a row of A and a column of B; a marker contributes 0 (R110, R113). -/
def cellSum (fa fb : Nat) (a b : List Nat) : SplitSum :=
  (a.zip b).foldl (fun t e => addSplit t (splitVal (mulVal (macVal fa e.1) (macVal fb e.2)))) (.fin {}, .fin {})

/-- What one K index adds to a checksum cell: an element times the sum of the 32 that face it (R41), their finite part,
and the class of the products that are not finite (R120). -/
def checkTerm (v : Val) (line : List Val) : SplitSum :=
  let fins := line.filter Val.isFin
  (if v.isFin then mulVal v (fins.foldl addVal (.fin {})) else .fin {},
    line.foldl (fun t w => addVal t (splitVal (mulVal v w)).2) (.fin {}))

/-- The sum that a checksum cell forms: `own` are the codes of its row or column, and `line` those that face it at a K
index. -/
def checkSum (f g : Nat) (own : List Nat) (line : Nat → List Nat) : SplitSum :=
  ((List.range own.length).zip own).foldl (fun t e =>
    addSplit t (checkTerm (macVal f e.2) ((line e.1).map (macVal g)))) (.fin {}, .fin {})

/-- A disturbance of an exact sum in units of the pair's least product: 1, or 2^−266 (R41). -/
def disturbed (fa fb : Nat) (off : Int) (t : SplitSum) : SplitSum :=
  (addVal t.1 (.fin (fracOf off (if pairInt fa fb then 1 else 2 ^ 266))), t.2)

/-- Whether the sum of data row `row` disagrees with its checksum cell when the cell (row, col) is off; column 32 is the
checksum cell. -/
def rowFails (fa fb : Nat) (a b : List (List Nat)) (row col : Nat) (off : Int) : Bool :=
  let own := a.getD row []
  let data := b.foldl (fun t c => addSplit t (cellSum fa fb own c)) (.fin {}, .fin {})
  let check := checkSum fa fb own (fun k => b.map (fun c => c.getD k 0))
  decide (row < 32) && decide (col ≤ 32) &&
    !splitAgree (if col < 32 then disturbed fa fb off data else data) (if col = 32 then disturbed fa fb off check else check)

/-- Whether the sum of data column `col` disagrees with its checksum cell when the cell (row, col) is off; row 32 is the
checksum cell. -/
def colFails (fa fb : Nat) (a b : List (List Nat)) (row col : Nat) (off : Int) : Bool :=
  let own := b.getD col []
  let data := a.foldl (fun t r => addSplit t (cellSum fa fb r own)) (.fin {}, .fin {})
  let check := checkSum fb fa own (fun k => a.map (fun r => r.getD k 0))
  decide (col < 32) && decide (row ≤ 32) &&
    !splitAgree (if row < 32 then disturbed fa fb off data else data) (if row = 32 then disturbed fa fb off check else check)

/-- The word that the disturbed sum of a data cell would have been folded as. -/
def seenWord (fa fb : Nat) (a b : List Nat) (off : Int) : Nat :=
  if pairInt fa fb then enc (blockInt fa fb a b + off) 32
  else
    let t := disturbed fa fb off (cellSum fa fb a b)
    rne (addVal t.1 t.2)

/-- The operands of a block of an MMA as they reach the array. -/
def blockOperands (j : MmaJob) (x : Site) (n : Nat) (s : State) : (List (List Nat) × Nat) × (List (List Nat) × Nat) :=
  (operandBlock s x j.fa j.ra j.baseA (runTable s x.role.brick j.ra) j.kb n,
    operandBlock s x j.fb j.rb j.baseB (runTable s x.role.brick j.rb) j.kb n)

/-- A checksum mismatch at a block (R42, R523, R524): the blocks before it fold, the role stalls with the block's
operands in the shadow; with no host the launch stops with 0x0B11. -/
def mmaStall (j : MmaJob) (x : Site) (lo block row col : Nat) (off : Int) (s : State) : State :=
  let brick := x.role.brick
  let s1 := foldBlocks j x lo block s
  match replayHost s1 brick with
  | none =>
    incWrap FAB_HEALTH_UNRESOLVED.unresolved (x.launch.ctx * 0x80) 1 (brickFault x 0x0B11 [] false s1)
  | some h =>
    let o := blockOperands j x block s1
    let st : Stall := { block := block, row := row, col := col, off := off, host := h,
                        at_ := x.role.pc, dialAt := dial s1, baseA := j.baseA, baseB := j.baseB, a := o.1.1, b := o.2.1 }
    let w := some (replayWindow s1)
    noteArith x (o.1.2 ||| o.2.2) (setRole x (fun r => { r with stall := some st })
      (modBrick h (fun y => { y with replayWindow := w })
        (modBrick brick (fun y => { y with replayWindow := w, sufferedWindow := w }) s1)))

/-! ## MMA: its blocks -/

/-- What stops an MMA before one of its blocks (R779), S0's operand first. -/
def mmaStop (j : MmaJob) (x : Site) (s : State) : Option (Nat × Nat) :=
  match streamFault s x.launch.image x.role.brick j.ra j.fa j.kb j.baseA,
      streamFault s x.launch.image x.role.brick j.rb j.fb j.kb j.baseB with
  | some p, some q => some (if q.1 < p.1 then q else p)
  | some p, none => some p
  | none, q => q

/-- Run an MMA from block lo on (R42, R117, R779): every block is compared with its checksum cells before it folds, and a
stream that fails stops the instance before its block.
Log entry: 149 (DEDUCED). -/
def mmaFrom (j : MmaJob) (x : Site) (lo : Nat) (u : Upset) (s : State) : State :=
  let stop := mmaStop j x s
  let last := match stop with | some p => max lo p.1 | none => j.kb
  let fails := fun (block row col : Nat) (off : Int) =>
    let o := blockOperands j x block s
    rowFails j.fa j.fb o.1.1 o.2.1 row col off || colFails j.fa j.fb o.1.1 o.2.1 row col off
  let rest := match stop with
    | some p => brickFault x p.2 [] true (foldBlocks j x lo last s)
    | none => mmaFinish j x lo s
  match u with
  | .checksum block row col off =>
    if lo ≤ block ∧ block < last ∧ fails block row col off then mmaStall j x lo block row col off s else rest
  | _ => rest

/-- The effect of an MMA (R65): the tile bases are the next addresses of the streamers' generators, S0's first; the
tile is cleared where the word says so; then block by block. -/
def mmaRun (x : Site) (u : Upset) (s : State) : State :=
  let ga := (streamRec x.role.streamers 0).ag
  let gb := (streamRec x.role.streamers 1).ag
  let baseA := (x.role.agen ga).addr (x.role.agen ga).pos
  let r1 := x.role.modAgen ga (fun g => g.skip 1)
  let baseB := (r1.agen gb).addr (r1.agen gb).pos
  let j := mmaJob x x.role.pc baseA baseB
  let int := pairInt j.fa j.fb
  let s1 := setRole x (fun r => { (r.modAgen ga (fun g => g.skip 1)).modAgen gb (fun g => g.skip 1) with
    accFp := setAt r.accFp j.tile (!int) }) s
  mmaFrom j x 0 u (if bit x.role.word 13 then zeroTile x.role.brick j.tile s1 else s1)

/-- MMA (R65). -/
def execMma (brick : Nat) (upset : Upset) (s : State) : Host.Outcome State Fault Refusal :=
  .next (match issuing s brick opMma with
    | none => s
    | some x => withUpset x upset (mmaRun x upset) s)

/-- DRAIN (R65): the tile goes to the Lane unit for the next LANE instruction and is zeroed. -/
def execDrain (brick : Nat) (s : State) : Host.Outcome State Fault Refusal :=
  .next (match issuing s brick opDrain with
    | none => s
    | some x =>
      let t := bits x.role.word 14 2
      goOn x (zeroTile brick t (setRole x (fun r =>
        { r with drained := some ⟨accTile s brick t, r.accFp.getD t false⟩ }) s)))

end Sys2Proof.Machine
end

