-- ==== Sys2Proof/Machine/Silent.lean ====
section
/-! DEFINITION. Silent-error detection: the end of a replay (R523 to R529) and its capture record (R536, R537), Twilight
tests and retests (R535, R547 to R550, R275 to R277), pattern packs (R551 to R553), and FAB_CTX_COMMIT (R556). -/

namespace Sys2Proof.Machine

open Reg

/-! ## Replays -/

/-- The 1,024 words of a block's sums from its operands: rows of A and columns of B. -/
def blockSums (fa fb : Nat) (a b : List (List Nat)) : List Nat :=
  (List.range 1024).map (fun i => sumWord fa fb (a.getD (i / 32) []) (b.getD (i % 32) []))

/-- Row k of B: the codes of its 32 columns at a K index. -/
def rowOfB (b : List (List Nat)) (k : Nat) : List Nat := (List.range 32).map (fun j => (b.getD j []).getD k 0)

/-- Whether a stall's disturbed sum is that of a data cell: then the host's sums differ from the suspect's (R525). -/
def Stall.inData (st : Stall) : Bool := decide (st.row < 32) && decide (st.col < 32)

/-- A capture record (R537). `host` holds the host's sums.
Log entry: 149 (DEDUCED). -/
def captureRecord (x : Site) (st : Stall) (j : MmaJob) (outcome count : Nat) (host : List Nat) : List Nat :=
  let own := blockSums j.fa j.fb st.a st.b
  let seen := if st.inData
    then setAt own (st.row * 32 + st.col) (seenWord j.fa j.fb (st.a.getD st.row []) (st.b.getD st.col []) st.off)
    else own
  let rows := if rowFails j.fa j.fb st.a st.b st.row st.col st.off then 2 ^ st.row else 0
  let cols := if colFails j.fa j.fb st.a st.b st.row st.col st.off then 2 ^ st.col else 0
  let head := [outcome, j.fa, j.fb, 0] ++ leBytes 8 st.dialAt ++ leBytes 2 x.role.brick ++ leBytes 2 st.host
    ++ [x.launch.ctx, x.k] ++ leBytes 2 st.at_ ++ leBytes 4 st.block ++ slice x.launch.raw 4 4 ++ leBytes 4 x.launch.count
    ++ leBytes 4 rows ++ leBytes 4 cols ++ leBytes 4 count ++ List.replicate 20 0
  head ++ (List.range 32).flatMap (fun i => padTo 64 (pack j.fa (st.a.getD i [])))
    ++ (List.range 32).flatMap (fun k => padTo 64 (pack j.fb (rowOfB st.b k)))
    ++ seen.flatMap (leBytes 4) ++ (padTo 4096 (host.flatMap (leBytes 4))) ++ List.replicate 4032 0

/-- Write a capture record to its context's area, or drop it (R536).
Log entry: 149 (DEDUCED). -/
def capture (x : Site) (st : Stall) (j : MmaJob) (outcome : Nat) (host : List Nat) (s : State) : State :=
  let h := x.launch.ctx * 0x80
  let slots := com s FAB_CAPTURE_BASE.capture_slots h
  let n := rd s FAB_CAPTURE_COUNT.captures h
  if slots = 0 then incSat FAB_CAPTURE_DROP.drops 0 1 s
  else
    let w := writeMem x.inst.course x.launch.ctx (com s FAB_CAPTURE_BASE.capture_base h + n % slots * 16384)
      (captureRecord x st j outcome n host) s
    if w.1 ≠ 0 then incSat FAB_CAPTURE_DROP.drops 0 1 w.2 else incWrap FAB_CAPTURE_COUNT.captures h 1 w.2

/-- Fold a block from its shadowed operands into the tile (R525).
Log entry: 149 (DEDUCED). -/
def foldShadow (x : Site) (st : Stall) (j : MmaJob) (s : State) : State :=
  let r := foldTile j.fa j.fb st.a st.b (accTile s x.role.brick j.tile)
  noteArith x r.2 (wrAccTile x.role.brick j.tile r.1 s)

/-- The cycles that a replay costs: its own role at most 256, and the instance on the host, if any, at most 128 (R526,
R527). Neither number is stated: both are free values.
Log entry: 149 (DEDUCED). -/
def replayCost (x : Site) (host : Nat) (s : State) : State :=
  withDraw s 257 (fun v s => withDraw s 129 (fun w s =>
    let s1 := addCycles x v s
    match siteOf s1 host with
    | some y => addCycles y w s1
    | none => s1))

/-- REPLAY_OUTCOME (R525): the replay of the role on a Brick ends; `hostPass` says that the host's own checksums pass.
The host's sums then are the exact ones, and the MMA goes on with the next block, with what `upset` says it meets there.
Log entry: 149 (DEDUCED). -/
def execReplayOutcome (brick : Nat) (hostPass : Bool) (upset : Upset) (s : State) : Host.Outcome State Fault Refusal :=
  .next (match siteOf s brick with
    | none => s
    | some x =>
      match x.role.stall with
      | none => s
      | some st =>
        let j := mmaJob x st.at_ st.baseA st.baseB
        let own := blockSums j.fa j.fb st.a st.b
        let outcome := if !hostPass then 3 else if st.inData then 1 else 2
        let h := x.launch.ctx * 0x80
        let count := rd s FAB_CAPTURE_COUNT.captures h
        let s1 := incWrap FAB_HEALTH_REPLAYS.replays h 1 (replayCost x st.host s)
        let s2 := event 0x0B20 (courseDie x.inst.course) x.launch.ctx brick 1
          ([outcome, 0] ++ leBytes 2 st.host ++ leBytes 4 count) s1
        if hostPass then
          let s3 := capture x st j outcome own (strike brick x.launch.ctx 0x0B20 s2)
          let s4 := setRole x (fun r => { r with stall := none }) (foldShadow x st j s3)
          mmaFrom j { x with role := { x.role with stall := none } } (st.block + 1) upset s4
        else
          withDraw s2 (2 ^ 32768) (fun v s =>
            let host := (List.range 1024).map (fun i => bits v (32 * i) 32)
            incWrap FAB_HEALTH_UNRESOLVED.unresolved h 1 (brickFault x 0x0B12 [] false (capture x st j 3 host s))))

/-! ## Twilight tests -/

/-- Clear the fence of a Brick that passed its retest (R535): its map bit, its neighbour links to Bricks that are not
fenced, its strike history, and the fence of its Course.
Log entry: 150 (DEDUCED). -/
def clearFence (b : Nat) (s : State) : State :=
  let c := brickCourse b
  let at_ := atCourse c 0x100
  let s1 := wrB TRW_COURSE_STATE.course_fenced at_ false
    (wr TRW_FENCE_MAP.brick_fenced at_ (setBit (rd s TRW_FENCE_MAP.brick_fenced at_) (b % 16) false) s)
  let mine := (List.range 24).filter (fun l =>
    let e := linkEnds l
    (e.1 == b % 16 && !fenced s1 (c * 16 + e.2)) || (e.2 == b % 16 && !fenced s1 (c * 16 + e.1)))
  let map := mine.foldl (fun m l => setBit m l false) (rd s1 TRW_LINK_FENCE.link_fenced at_)
  event 0x0B26 (courseDie c) 0xFF b 0 [] (wr TRW_LINK_FENCE.link_fenced at_ map s1)

/-- Whether one 16-bit version is newer than another.
Log entry: 150 (DEDUCED). -/
def newerSet (a b : Nat) : Bool := decide (0 < (a + 65536 - b) % 65536) && decide ((a + 65536 - b) % 65536 < 32768)

/-- Whether a passed retest clears a Brick's fence (R535): `set` is the version of the pack set that the test used
(R550).
Log entry: 150 (DEDUCED). -/
def retestClears (s : State) (b set : Nat) : Bool :=
  let x := brickOf s b
  fenced s b && decide (x.fences < 2) &&
    (match x.strikeSet with
     | some v => newerSet set v
     | none => true)

/-- The end of a test (R275, R276, R535, R549): the Bed is zeroed, the Brick is due again in 15 minutes, a passed retest
clears what R535 lets it clear, and a failed test fences the Brick.
Log entry: 95 (DEDUCED). -/
def endTest (t : TestRun) (pass : Bool) (packId pattern : Nat) (s : State) : State :=
  let brick := t.brick
  let c := brickCourse brick
  let retest := t.retest
  let bed := aclear s.fab.bed (brick * 262144) (brick * 262144 + 262144)
  let s1 := { s with fab := { s.fab with bed := bed, retests := if retest then s.fab.retests.filter (· != brick) else s.fab.retests } }
  let s2 := modCourse c (fun x => { x with
    testsLeft := x.testsLeft - 1, nextTest := if retest then x.nextTest else (brick + 1) % 16 })
    (modBrick brick (fun x => { x with lastTest := now s1, missed := 0 }) s1)
  let s3 := [5, 6].foldl (fun s i => modIsland i (fun x => { x with misses := adel x.misses brick }) s) s2
  if pass then
    if retest then
      let s4 := modBrick brick (fun x => { x with lastStrike := none }) s3
      if retestClears s3 brick t.setVersion then clearFence brick (modBrick brick (fun x => { x with strikeSet := none }) s4)
      else s4
    else s3
  else
    event 0x0B23 (courseDie c) 0xFF brick 1 (leBytes 4 packId ++ leBytes 2 pattern)
      (incSat FAB_TEST_FAIL_COUNT.fails 0 1 (fenceBrick brick false s3))

/-- Whether a test may report a pack: the base sequence as 0, or a pack of its own set (R549, R550). -/
def TestRun.names (t : TestRun) (packId : Nat) : Bool := packId == 0 || t.packs.any (fun p => p.id == packId)

/-- BRICK_TEST_COMPLETE (R549, R550): the test in work on a Brick ends, its Bed zeroed, and the Course's next test
starts; a failing one names the step's pack and pattern.
Log entries: 95 (DEDUCED), 150 (DEDUCED). -/
def execBrickTestComplete (brick : Nat) (pass : Bool) (packId pattern : Nat) (s : State) :
    Host.Outcome State Fault Refusal :=
  let c := brickCourse brick
  .next (match (courseOf s c).test with
    | none => s
    | some t =>
      if 1024 ≤ brick ∨ s.mode ≠ .run ∨ t.brick ≠ brick ∨ (!pass ∧ !t.names packId) then s
      else startBrickTest c (endTest t pass packId pattern s))


/-- 15 minutes in ns (R277). -/
def testSpan : Nat := 900000000000

/-- BRICK_TEST_OVERDUE (R277): an interval of 15 minutes without a test ends on a Brick, fenced or not.
Log entry: 95 (DEDUCED). -/
def execBrickTestOverdue (brick : Nat) (s : State) : Host.Outcome State Fault Refusal :=
  .next (if 1024 ≤ brick ∨ s.mode ≠ .run then s
    else
      let x := brickOf s brick
      let s1 := passTo (x.lastTest + testSpan * (x.missed + 1)) s
      event 0x0532 (courseDie (brickCourse brick)) 0xFF brick 1 []
        (incSat DAY_TEST_MISS_COUNT.misses 0 1 (modBrick brick (fun y => { y with missed := y.missed + 1 }) s1)))

/-- RETEST_BRICKS (R535, R690): the operator asks for the retest of the Bricks that the body names.
Log entry: 150 (DEDUCED). -/
def execRetestBricks (value : Nat) (s : State) : Host.Outcome State Fault Refusal :=
  .next (keyRequest 6 value (plainRequest (fun b _ =>
    let y := rqBody b
    let named := (List.range (y.getD 0 0)).map (fun i => fld y (2 + 2 * i) 2)
    (0, fun s => { s with fab := { s.fab with
      retests := s.fab.retests ++ (named.filter (fun n => !s.fab.retests.contains n)).eraseDups } }))) s)

/-! ## Pattern packs -/

/-- Write a pack commit's result. -/
def packDone (st off : Nat) (s : State) : State :=
  commitDone 0 (st, off) (wr FAB_PACK_STATUS.status 0 st (wrB FAB_PACK_STATUS.busy 0 false s))

/-- The fields that FAB_PACK_COMMIT commits. -/
def packFields : List (Field × Nat) := [(FAB_PACK_ADDR.addr, 0), (FAB_PACK_CTRL.op, 0), (FAB_PACK_ID.pack_id, 0)]

/-- Bytes that a pack's header says its image has, held to the most that one can have (R551). -/
def packBytes (hdr : List Nat) : Nat := min (fld hdr 8 4) (256 + 4160 * 1000)

/-- Start a pack commit with an operation (R552): checks of class 0x00 and 0x0B01, and the one read of the image.
Log entries: 18 (DEDUCED), 151 (DEDUCED). -/
def packStart (op value : Nat) (s : State) : State :=
  let o := stg s FAB_PACK_CTRL.op
  if value % 2 = 0 ∨ (o ≠ op ∧ (op ≠ 1 ∨ o = 2)) then s
  else
    let s0 := commitAt 0 0x100203C s
    let a := stg s FAB_PACK_ADDR.addr
    let begin_ := fun (img : List Nat) (s : State) =>
      let job : PackJob := { install := op == 1, id := stg s FAB_PACK_ID.pack_id, image := img }
      commitBusy 0 (wrB FAB_PACK_STATUS.busy 0 true { s with fab := { s.fab with packJob := some job } })
    let busy := fun (s : State) => commitDone 0 (0x0B01, 0) (wr FAB_PACK_STATUS.status 0 0x0B01 s)
    if dieSilent s 0 then packDone 0x0C40 0 s0
    else if o ≠ op then packDone 0x0002 0x1002008 s0
    else if a % 64 ≠ 0 then packDone 0x0003 0x1002000 s0
    else if op = 1 ∧ !rangeHost s a 128 then packDone 0x0004 0x1002000 s0
    else if op = 2 then (if s.fab.packJob.isSome then busy s0 else begin_ [] s0)
    else
      let h := readMem 73 0xFF a 128 [] s0
      if h.1 ≠ 0 then packDone 0x0007 0 h.2.2
      else
        let n := packBytes h.2.1
        if !rangeHost h.2.2 a (max 128 n) then packDone 0x0004 0x1002000 h.2.2
        else
          let q := readMem 73 0xFF a (max 128 n) [] h.2.2
          if q.1 ≠ 0 then packDone 0x0007 0 q.2.2
          else if s.fab.packJob.isSome then busy q.2.2 else begin_ q.2.1 q.2.2

/-- PACK_INSTALL (R552): op 1; a reserved op is refused here. -/
def execPackInstall (value : Nat) (s : State) : Host.Outcome State Fault Refusal := .next (packStart 1 value s)

/-- PACK_REMOVE (R552): op 2. -/
def execPackRemove (value : Nat) (s : State) : Host.Outcome State Fault Refusal := .next (packStart 2 value s)

/-- Whether a pattern of a pack is well formed (R551). -/
def patternOk (img : List Nat) (p : Nat) : Bool :=
  let a := 128 + 4160 * p
  img.getD a 0 == 1 && pairOk (img.getD (a + 1) 0) (img.getD (a + 2) 0) && img.getD (a + 3) 0 == 0 && zeroAt img (a + 8) 56

/-- Whether a pack image is well formed (R551). -/
def packOk (img : List Nat) : Bool :=
  let n := fld img 18 2
  fld img 0 4 == 0x4B434150 && fld img 4 2 == 1 && fld img 6 2 == 128 && decide (1 ≤ n) && decide (n ≤ 1000)
    && fld img 8 4 == 256 + 4160 * n && img.length == fld img 8 4 && fld img 12 4 != 0 && decide (1 ≤ fld img 20 4)
    && decide (fld img 20 4 ≤ 4000000) && fld img 32 4 == fld img 8 4 - 128 && zeroAt img 36 92
    && (List.range n).all (patternOk img)

/-- Free slots of the Bond store: those of a removed pack stay taken while a test that started with it runs (R550).
Log entries: 96 (DEDUCED), 151 (DEDUCED). -/
def freeSlots (s : State) : List Nat :=
  let inTests := s.fab.courses.flatMap (fun e => (e.2.test.map (·.packs)).getD [])
  let taken := (s.fab.packs ++ inTests).flatMap (·.slots)
  (List.range 4096).filter (fun i => ((aget s.rings.store i {}).owner).isNone && !taken.contains i)

/-- Step 4 of R552: Keystone's status for a pack's signature (R680). -/
def packSignature (s : State) (img : List Nat) : Nat :=
  let blk := img.drop (img.length - 128)
  let gen := blk.getD 0 0
  if !sigBlockOk blk gen then 0x0F02
  else match makerKeyOk s 1 gen with
    | none => 0x0F03
    | some k => if signedBy k (img.take (img.length - 128)) blk then 0 else 0x0F04

/-- Steps 2 to 8 of R552: the status of a pack commit.
Log entry: 151 (DEDUCED). -/
def packStatus (s : State) (j : PackJob) : Nat :=
  let others := s.fab.packs.filter (fun p => p.id != fld j.image 12 4)
  let need := divUp j.image.length 131072
  let cycles := 240000 + sumNat (others.map (·.cycles)) + fld j.image 20 4
  if !j.install then (if s.fab.packs.any (fun p => p.id == j.id) then 0 else 0x0B07)
  else if !packOk j.image then 0x0B02
  else if packSignature s j.image ≠ 0 then packSignature s j.image
  else if fld j.image 24 8 &&& rd s FAB_CAPABILITY.capability ≠ fld j.image 24 8 then 0x0B03
  else if s.fab.packs.any (fun p => p.id == fld j.image 12 4 && decide (fld j.image 16 2 ≤ p.version)) then 0x0B04
  else if 7 < others.length ∨ 32 < sumNat (others.map (·.slots.length)) + need ∨ (freeSlots s).length < need then 0x0B05
  else match s.day.active with
    | some p => if p.testUs < testTime s cycles then 0x0B06 else 0
    | none => 0

/-- Show the installed packs in the registers (R557). -/
def showPacks (s : State) : State :=
  let s1 := (List.range 8).foldl (fun s k =>
    let p := s.fab.packs[k]?
    wr FAB_PACK_INFO.pack_id (8 * k) ((p.map (·.id)).getD 0) (wr FAB_PACK_INFO.pack_version (8 * k) ((p.map (·.version)).getD 0)
      (wr FAB_PACK_INFO.slots (8 * k) ((p.map (·.slots.length)).getD 0) s))) s
  refreshTest (wr FAB_PACK_SET.packs 0 s.fab.packs.length s1)

/-- Copy a pack's image into its Bond-store slots (R553).
Log entry: 151 (DEDUCED). -/
def loadPack (p : Pack) (s : State) : State :=
  ((List.range p.slots.length).zip p.slots).foldl (fun s e =>
    writeMem' 73 0xFF (slotAddr e.2) ((p.image.drop (e.1 * 131072)).take 131072) s) s

/-- PACK_COMMIT_COMPLETE (R552, R553).
Log entry: 151 (DEDUCED). -/
def execPackCommitComplete (s : State) : Host.Outcome State Fault Refusal :=
  .next (match s.fab.packJob with
    | none => s
    | some j =>
      let s0 := { s with fab := { s.fab with packJob := none } }
      let st := packStatus s0 j
      if st ≠ 0 then packDone st 0 s0
      else
        let id := if j.install then fld j.image 12 4 else j.id
        let v := (rd s0 FAB_PACK_SET.set_version + 1) % 65536
        let s1 := record 0x0014 { role := 0, slot := if j.install then (j.image.drop (j.image.length - 128)).getD 0 0 else 0xFF,
                                  detail := id, subject := if j.install then sha384 j.image else List.replicate 48 0 } s0
        let rest := s1.fab.packs.filter (fun p => p.id != id)
        let p : Pack := { id := id, version := fld j.image 16 2, cycles := fld j.image 20 4,
                          slots := (freeSlots s1).take (divUp j.image.length 131072), image := j.image }
        let s2 := { s1 with fab := { s1.fab with packs := if j.install then rest ++ [p] else rest } }
        let s3 := if j.install then loadPack p s2 else s2
        let s4 := showPacks (wr FAB_PACK_SET.set_version 0 v (acceptStaged packFields s3))
        packDone 0 0 (event 0x0B24 0 0xFF 0 0 (leBytes 2 v) s4))

/-! ## FAB_CTX_COMMIT -/

/-- The checks of FAB_CTX_COMMIT of a context (R556, R767). -/
def fabCtxChecks (c : Nat) (s : State) : List (Bool × Refuse) :=
  let h := c * 0x80
  let lo := stg s FAB_GROUT_LO.grout_lo h
  let span := stg s FAB_GROUT_SPAN.grout_span h
  let slots := stg s FAB_CAPTURE_BASE.capture_slots h
  let table := stg s FAB_GROUT_TABLE.grout_table h
  let base := stg s FAB_CAPTURE_BASE.capture_base h
  [(decide (16777216 < span), (0x0002, 0x1000010 + h)), (decide (64 < slots), (0x0002, 0x1000018 + h)),
   (table % 64 != 0, (0x0003, 0x1000000 + h)), (base % 16384 != 0, (0x0003, 0x1000018 + h)),
   (lo % 65536 != 0 || decide (0x1800000000 < lo + 4096 * span)
     || (decide (0 < span) && !rangeOwned s c table (4 * span))
     || (decide (0 < slots) && !rangeOwned s c base (16384 * slots)), (0x0B08, 0)),
   (ctxOpen s c, (0x0B0A, 0))]

/-- FAB_CTX_COMMIT (R556). -/
def execFabCtxCommit (ctx value : Nat) (s : State) : Host.Outcome State Fault Refusal :=
  .next (if ctx < 64 then
    commit 0 (0x100007C + ctx * 0x80) value (fabCtxChecks ctx s)
      (acceptStaged [(FAB_GROUT_TABLE.grout_table, ctx * 0x80), (FAB_GROUT_LO.grout_lo, ctx * 0x80),
        (FAB_GROUT_SPAN.grout_span, ctx * 0x80), (FAB_CAPTURE_BASE.capture_base, ctx * 0x80),
        (FAB_CAPTURE_BASE.capture_slots, ctx * 0x80)]) s
    else s)

end Sys2Proof.Machine
end

