-- ==== Sys2Proof/Machine/Contexts.lean ====
section
/-! DEFINITION. The Bond store (R302 to R305, R680, R784), and the opening and closing of contexts (R294, R330 to R338,
R556, R640, R688). -/

namespace Sys2Proof.Machine

open Reg

/-! ## The Bond store -/

/-- Read an image for registration, once (R303): its header, then the bytes that image_size gives; none where the image
lies outside the context's partition or its size is not one that an image has (R680, R784).
Log entry: 96 (DEDUCED). -/
def readImage (c r n a : Nat) (s : State) : RegJob × State :=
  if !rangeInPartition s c a 128 false then (⟨c, r, n, none, 0⟩, s)
  else
    let h := readMem 73 c a 128 [] s
    if h.1 ≠ 0 then (⟨c, r, n, none, h.1⟩, h.2.2)
    else
      let size := fld h.2.1 8 4
      if size < 384 ∨ 131072 < size ∨ !rangeInPartition h.2.2 c a size false then (⟨c, r, n, none, 0⟩, h.2.2)
      else
        let q := readMem 73 c a size [] h.2.2
        (⟨c, r, n, if q.1 = 0 then some q.2.1 else none, q.1⟩, q.2.2)

/-- BOND_REGISTER (R303): its ring is held, and Keystone reads the image.
Log entry: 96 (DEDUCED). -/
def execBondRegister (ctx ring : Nat) (s : State) : Host.Outcome State Fault Refusal :=
  .next (if nextIs s ctx ring (· == 7) then
    fetchChecked ctx ring (fun n raw s =>
      let q := readImage ctx ring n (fld raw 8 6) (holdRing ctx ring .register (keepDesc ctx ring n raw .held s))
      { q.2 with rings := { q.2.rings with regJobs := q.2.rings.regJobs ++ [q.1] } }) s else s)

/-- Whether step 1 of R680 passes for a Bond image (R784). -/
def bondFormOk (img : List Nat) : Bool :=
  let n := img.length
  fld img 0 4 == 0x444E4F42 && fld img 6 2 == 128 && fld img 8 4 == n && fld img 72 4 == n - 128
    && decide (img.getD 69 0 ≤ 7) && sigBlockOk (img.drop (n - 128)) (img.getD 69 0)

/-- Keystone's status for a registration, then 0x0606 for a full store (R303, R680).
Log entries: 26 (DEDUCED), 96 (DEDUCED). -/
def bondStatus (s : State) (j : RegJob) : Nat :=
  match j.image with
  | none => if j.status = 0 then 0x0F02 else j.status
  | some img =>
    let n := img.length
    if !bondFormOk img then 0x0F02
    else match installerKey s (img.getD 69 0) 0 with
      | none => 0x0F03
      | some k =>
        if !signedBy k (img.take (n - 128)) (img.drop (n - 128)) then 0x0F04
        else if (freeSlots s).isEmpty then 0x0606
        else 0

/-- Copy a verified image into a slot and fill it (R302, R303): the slot's generation advances.
Log entry: 34 (DEDUCED). -/
def fillSlot (c k : Nat) (img : List Nat) (s : State) : State :=
  let x := aget s.rings.store k {}
  let filled : StoreSlot := { gen := (x.gen + 1) % 65536, owner := some c, keySlot := img.getD 69 0,
                              digest := sha384 img, valid := true }
  let s1 := writeMem' 73 0xFF (slotAddr k) img s
  { s1 with rings := { s1.rings with store := aset s1.rings.store k filled {} }
            mem := { s1.mem with badSlots := aset s1.mem.badSlots k false false } }

/-- BOND_REGISTER_COMPLETE (R303, R315): the handle, or a refusal that fills no slot.
Log entry: 96 (DEDUCED). -/
def execBondRegisterComplete (ctx ring : Nat) (s : State) : Host.Outcome State Fault Refusal :=
  .next (match s.rings.regJobs.find? (fun j => j.ctx == ctx && j.ring == ring) with
    | none => s
    | some j =>
      let s1 := { s with rings := { s.rings with regJobs := s.rings.regJobs.filter (fun x => x != j) } }
      match heldDesc s1 ctx ring 7 with
      | none => s1
      | some d =>
        if d.count ≠ j.count then s1
        else
          let st := bondStatus s1 j
          let s2 := holdRing ctx ring .none s1
          if st ≠ 0 then finishDesc ctx ring d.count d.raw { status := st } s2
          else
            let k := (freeSlots s2).headD 0
            let s3 := fillSlot ctx k (j.image.getD []) s2
            finishDesc ctx ring d.count d.raw { result := k + 4096 * (aget s3.rings.store k {}).gen } s3)

/-- The slot of a handle that context c registered and that has not been released or invalidated (R304, R305).
Log entry: 34 (DEDUCED). -/
def ownSlot (s : State) (c h : Nat) : Option Nat :=
  let k := aget s.rings.store (h % 4096) {}
  if h < 2 ^ 28 ∧ k.owner = some c ∧ k.valid ∧ k.gen = bits h 12 16 then some (h % 4096) else none

/-- BOND_RELEASE (R305): its ring is held; a handle not valid for the context completes it with 0x0607. -/
def execBondRelease (ctx ring : Nat) (s : State) : Host.Outcome State Fault Refusal :=
  .next (if nextIs s ctx ring (· == 8) then
    fetchChecked ctx ring (fun n raw s =>
      if (ownSlot s ctx (fld raw 4 4)).isNone then finishDesc ctx ring n raw { status := 0x0607 } s
      else holdRing ctx ring .release (keepDesc ctx ring n raw .held s)) s else s)

/-- BOND_RELEASE_COMPLETE (R305): not while a launch of the context names the handle; a handle that another release has
made invalid completes it with 0x0607. -/
def execBondReleaseComplete (ctx ring : Nat) (s : State) : Host.Outcome State Fault Refusal :=
  .next (match heldDesc s ctx ring 8 with
    | none => s
    | some d =>
      let h := fld d.raw 4 4
      if s.fab.launches.any (fun l => l.ctx == ctx && fld l.raw 4 4 == h) then s
      else if (ownSlot s ctx h).isNone then
        finishDesc ctx ring d.count d.raw { status := 0x0607 } (holdRing ctx ring .none s)
      else
        let k := h % 4096
        let x := aget s.rings.store k {}
        let free : StoreSlot := { x with owner := none, valid := false }
        finishDesc ctx ring d.count d.raw {}
          (holdRing ctx ring .none { s with rings := { s.rings with store := aset s.rings.store k free {} } }))

/-! ## The checks of a context commit (R335, R336, R767) -/

/-- The fields that HST_CTX_COMMIT of context c commits. -/
def ctxFields (c : Nat) : List (Field × Nat) :=
  let h := c * 0x100
  (List.range 4).flatMap (fun r => [(HST_SQ_BASE.sq_base, h + 8 * r), (HST_DB_ADDR.db_addr, h + 8 * r),
      (HST_SQ_CFG.size_log2, h + 4 * r), (HST_SQ_CFG.enable, h + 4 * r), (HST_SQ_CFG.poll_us, h + 4 * r)]) ++
    [(HST_CQ_BASE.cq_base, h), (HST_CQ_CFG.size_log2, h), (HST_EQ_CFG.size_log2, h), (HST_EQ_BASE.eq_base, h),
     (HST_ECHO_ADDR.echo_addr, h), (HST_SAVE_BASE.save_base, h), (HST_SAVE_BASE.save_mib, h), (HST_TIE_BASE.tie_base, h),
     (HST_TIE_COUNT.tie_count, h), (HST_CTX_CTRL.opened, h), (HST_CTX_CTRL.shared_ties, h), (HST_CTX_CTRL.notify_en, h),
     (HST_CTX_CTRL.irq_vector, h)]

/-- Whether ring r is enabled in the staged fields. -/
def stgRing (s : State) (c r : Nat) : Bool := stg s HST_SQ_CFG.enable (c * 0x100 + 4 * r) == 1

/-- Whether HST_SQ_CFG of ring r is out of range (R335): its size while enabled, its interval, and ring 0 not in use. -/
def sqCfgBad (s : State) (c r : Nat) : Bool :=
  let at_ := c * 0x100 + 4 * r
  let lg := stg s HST_SQ_CFG.size_log2 at_
  let us := stg s HST_SQ_CFG.poll_us at_
  let db := stg s HST_DB_ADDR.db_addr (c * 0x100 + 8 * r)
  (r == 0 && !stgRing s c r) || (stgRing s c r && (decide (lg < 6) || decide (12 < lg)))
    || (if inPcie db then us == 0 || decide (1000 < us) else us != 0)

/-- The rings and lines of the staged fields in register order: register offset, base and bytes (R284, R286, R288).
Log entry: 35 (DEDUCED). -/
def ctxAreas (s : State) (c : Nat) : List (Nat × Nat × Nat) :=
  let h := c * 0x100
  let on := (List.range 4).filter (stgRing s c)
  on.map (fun r => (0x800000 + h + 8 * r, stg s HST_SQ_BASE.sq_base (h + 8 * r), 64 * 2 ^ stg s HST_SQ_CFG.size_log2 (h + 4 * r))) ++
    on.map (fun r => (0x800020 + h + 8 * r, stg s HST_DB_ADDR.db_addr (h + 8 * r), 64)) ++
    [(0x800050 + h, stg s HST_CQ_BASE.cq_base h, 32 * 2 ^ stg s HST_CQ_CFG.size_log2 h),
     (0x800060 + h, stg s HST_EQ_BASE.eq_base h, 32 * 2 ^ stg s HST_EQ_CFG.size_log2 h),
     (0x800068 + h, stg s HST_ECHO_ADDR.echo_addr h, 64)]

/-- Whether an area meets another of a list.
Log entry: 35 (DEDUCED). -/
def areaClash (l : List (Nat × Nat × Nat)) (x : Nat × Nat × Nat) : Bool :=
  l.any (fun y => y.1 != x.1 && overlap x.2.1 x.2.2 y.2.1 y.2.2)

/-- 0x0002: a field out of range, in register order (R335). -/
def ctxRangeChecks (s : State) (c : Nat) : List (Bool × Refuse) :=
  let h := c * 0x100
  let out := fun (v lo hi : Nat) => decide (v < lo) || decide (hi < v)
  (List.range 4).map (fun r => (sqCfgBad s c r, (0x0002, 0x800040 + h + 4 * r))) ++
    [(out (stg s HST_CQ_CFG.size_log2 h) 6 14, (0x0002, 0x800058 + h)),
     (out (stg s HST_EQ_CFG.size_log2 h) 6 12, (0x0002, 0x80005C + h)),
     (out (stg s HST_SAVE_BASE.save_mib h) 1 8, (0x0002, 0x800070 + h)),
     (decide (131072 < stg s HST_TIE_BASE.tie_base h + stg s HST_TIE_COUNT.tie_count h), (0x0002, 0x80007C + h))]

/-- 0x0003: an address not aligned, in register order. -/
def ctxAlignChecks (s : State) (c : Nat) : List (Bool × Refuse) :=
  let h := c * 0x100
  (List.range 4).map (fun r => (stg s HST_SQ_BASE.sq_base (h + 8 * r) % 4096 != 0, (0x0003, 0x800000 + h + 8 * r))) ++
    (List.range 4).map (fun r => (stg s HST_DB_ADDR.db_addr (h + 8 * r) % 64 != 0, (0x0003, 0x800020 + h + 8 * r))) ++
    [(stg s HST_CQ_BASE.cq_base h % 4096 != 0, (0x0003, 0x800050 + h)), (stg s HST_EQ_BASE.eq_base h % 4096 != 0, (0x0003, 0x800060 + h)),
     (stg s HST_ECHO_ADDR.echo_addr h % 64 != 0, (0x0003, 0x800068 + h)),
     (stg s HST_SAVE_BASE.save_base h % 65536 != 0, (0x0003, 0x800070 + h))]

/-- The polling intervals of the staged rings of a context. -/
def stgPolled (s : State) (c : Nat) : List Nat :=
  (List.range 4).filterMap (fun r =>
    let us := stg s HST_SQ_CFG.poll_us (c * 0x100 + 4 * r)
    if stgRing s c r ∧ us ≠ 0 then some us else none)

/-- Whether the staged private Tie range meets another open context's or the shared one (R330). -/
def tiesClash (s : State) (c : Nat) : Bool :=
  let b := stg s HST_TIE_BASE.tie_base (c * 0x100)
  let n := stg s HST_TIE_COUNT.tie_count (c * 0x100)
  meetsPrivate s b n c || overlap b n (com s HST_TIE_SHARED.shared_base) (com s HST_TIE_SHARED_COUNT.shared_count)

/-- The checks of an opening commit in the order of R767.
Log entries: 35 (DEDUCED), 138 (DEDUCED). -/
def openChecks (c : Nat) (s : State) : List (Bool × Refuse) :=
  let h := c * 0x100
  let areas := ctxAreas s c
  let save := stg s HST_SAVE_BASE.save_base h
  let clash := areas.find? (areaClash areas)
  ctxRangeChecks s c ++ ctxAlignChecks s c ++
    areas.map (fun x => (!ringSpan x.2.1 x.2.2, (0x0004, x.1))) ++
    [(!rangeInPartition s c save (64 * stg s HST_SAVE_BASE.save_mib h * 1048576) true, (0x0004, 0x800070 + h)),
     (clash.isSome, (0x0005, (clash.map (·.1)).getD 0)),
     (!pollOk (stgPolled s c ++ polledLines s (some c) none), (0x0006, 0x800040 + h)),
     (tiesClash s c, (0x0006, 0x800078 + h)),
     (ctxOpen s c, (0x0006, 0x800080 + h))]

/-! ## Opening and closing -/

/-- Draw a context's key (R685, R688).
Log entry: 17 (DEDUCED). -/
def drawCtxKey (c : Nat) (s : State) : State :=
  { s with mem := { s.mem with ctxKey := aset s.mem.ctxKey c s.mem.nextKey 0, nextKey := s.mem.nextKey + 1 } }

/-- Give a context its key pair (R688): a fresh one from the closed state, or where it has none; else the one it kept. -/
def openKey (c : Nat) (s : State) : State :=
  if rd s HST_CTX_STATE.state (c * 0x100) = 2 ∧ keyOf s c ≠ 0 then
    record 0x0016 { ctx := c, detail := (ctxOf s c).keyGen } s
  else
    let n := (ctxOf s c).keyGen + 1
    let s1 := record 0x0015 { ctx := c, detail := n } s
    drawCtxKey c (modCtx c (fun x => { x with keyGen := n }) s1)

/-- Reset every Tie of a context's private range, and evaluate the waits on them (R332). -/
def resetTies (c : Nat) (s : State) : State :=
  let b := com s HST_TIE_BASE.tie_base (c * 0x100)
  let n := com s HST_TIE_COUNT.tie_count (c * 0x100)
  let s1 := { s with rings := { s.rings with ties := aclear s.rings.ties b (b + n) } }
  ((s1.rings.waits.map (·.tie)).filter (fun t => decide (b ≤ t) && decide (t < b + n))).foldl (fun s t => evalWaits t s) s1

/-- Zero the health counters of a context (R556). -/
def zeroHealth (c : Nat) (s : State) : State :=
  [FAB_HEALTH_REPLAYS.replays, FAB_HEALTH_STRIKES.strikes, FAB_HEALTH_UNRESOLVED.unresolved, FAB_HEALTH_RESIDUE.residue_repeats,
   FAB_HEALTH_PARITY.parity, FAB_HEALTH_GROUT.grout_mismatch, FAB_HEALTH_HBM_CE.hbm_corrected].foldl
    (fun s f => wr f (c * 0x80) 0 s) s

/-- Open a context (R336): its counts 0, its Ties 0, its transfer queue disabled, and every doorbell line read once. -/
def openContext (c : Nat) (s : State) : State :=
  let s1 := openKey c (acceptStaged (ctxFields c) s)
  let s2 := modCtx c (fun x => { keyGen := x.keyGen, scrubCause := x.scrubCause }) s1
  let s3 := wr HST_CTX_STATE.stopped (c * 0x100) 0 (wr HST_CTX_STATE.state (c * 0x100) 1 s2)
  let s4 := dropOuvur c (zeroHealth c (resetTies c s3))
  (List.range 4).foldl (fun s r => if ringEnabled s c r then
    readDoorbell c r (modRing c r (fun x => { x with polledAt := now s }) s) else s) s4

/-- CONTEXT_OPEN (R336): a write of 1 to HST_CTX_COMMIT with open staged. -/
def execContextOpen (ctx value : Nat) (s : State) : Host.Outcome State Fault Refusal :=
  .next (if ctx < 64 ∧ stg s HST_CTX_CTRL.opened (ctx * 0x100) = 1 then
    commit 0 (0x8000FC + ctx * 0x100) value (openChecks ctx s) (openContext ctx) s else s)

/-- Close a context (R336, R688): an open one is torn down first; its key pair is destroyed. A closed one stays as it is.
Log entry: 36 (DEDUCED). -/
def closeContext (c : Nat) (s : State) : State :=
  if rd s HST_CTX_STATE.state (c * 0x100) = 0 then s
  else
    let s1 := acceptStaged (ctxFields c) (teardown c 0x0630 [] s)
    let s2 := record 0x0017 { ctx := c, detail := (ctxOf s1 c).keyGen } (wr HST_CTX_STATE.state (c * 0x100) 0 s1)
    { s2 with mem := { s2.mem with ctxKey := adel s2.mem.ctxKey c } }

/-- CONTEXT_CLOSE (R336): a write of 1 to HST_CTX_COMMIT with open clear. -/
def execContextClose (ctx value : Nat) (s : State) : Host.Outcome State Fault Refusal :=
  .next (if ctx < 64 ∧ stg s HST_CTX_CTRL.opened (ctx * 0x100) = 0 then
    commit 0 (0x8000FC + ctx * 0x100) value [] (closeContext ctx) s else s)

end Sys2Proof.Machine
end

