-- ==== Sys2Proof/Machine/Setup.lean ====
section
/-! DEFINITION. Reads and writes of setup registers from a host-side port (R755 to R761), and TRW_COMMIT (R97). -/

namespace Sys2Proof.Machine

open Reg

/-- The status of a setup access: 0x0701 from any port but 68 and 69 or outside the seven windows (R25, R755), 0x0810
for the window of a Course die that cannot be reached or is in steps 2 to 7 of a partial reset (R760). -/
def setupStatus (s : State) (port addr : Nat) : Nat :=
  if (port ≠ 68 ∧ port ≠ 69) ∨ 7 * 0x10000000 ≤ addr then 0x0701
  else if 1 ≤ addr / 0x10000000 ∧ addr / 0x10000000 ≤ 4 ∧ !reach s 0 (addr / 0x10000000) then 0x0810
  else 0

/-- Whether an access has a width and alignment that R756 performs. -/
def setupAligned (addr width : Nat) : Bool := (width == 32 && addr % 4 == 0) || (width == 64 && addr % 8 == 0)

/-- A 32-bit read of setup space by a port (R756): the low word of NWT_DIAL_NOW latches the high word for the port, whose
next 32-bit read of the high word returns it (R36).
Log entry: 10 (DEDUCED). -/
def readWordBy (port addr : Nat) (s : State) : Nat × State :=
  let t := dial s
  if addr = 0x10000 then
    (t % 2 ^ 32, { s with clock := { s.clock with latch := aput s.clock.latch port (t / 2 ^ 32 * 2 + 1) } })
  else if addr = 0x10004 then
    (aget s.clock.latch port (t / 2 ^ 32 * 2) / 2,
      { s with clock := { s.clock with latch := adel s.clock.latch port } })
  else readWord s addr

/-- A read of setup space: the answer, with RC fields cleared (R36, R756 to R758).
Log entry: 9 (DEDUCED). -/
def setupRead (port addr width : Nat) (s : State) : State :=
  let n := width / 8
  if setupStatus s port addr ≠ 0 then
    { s with bus := ⟨port, setupStatus s port addr, List.replicate n 255⟩ }
  else if !setupAligned addr width then { s with bus := ⟨port, 0, List.replicate n 255⟩ }
  else if width = 32 then
    let r := readWordBy port addr s
    { r.2 with bus := ⟨port, 0, leBytes 4 r.1⟩ }
  else
    let r := readWord s addr
    let q := readWord r.2 (addr + 4)
    { q.2 with bus := ⟨port, 0, leBytes 4 r.1 ++ leBytes 4 q.1⟩ }

/-- RC_COUNTER_READ (R757). -/
def execRcCounterRead (port addr width : Nat) (s : State) : Host.Outcome State Fault Refusal :=
  .next (setupRead port addr width s)

/-- Whether a setup offset is one of the two mailbox registers of an island (R759). -/
def isMailbox (addr : Nat) : Bool :=
  (addr / 0x10000000 == 5 || addr / 0x10000000 == 6) &&
    (addr % 0x10000000 == 0x1000 || addr % 0x10000000 == 0x1004)

/-- A write of the mailbox argument (R601): kept for the next command. -/
def mailboxArg (addr v : Nat) (s : State) : State :=
  { s with regs := { s.regs with committed := aset s.regs.committed (addr * 64) (v % 2 ^ 32) 0 } }

/-- A write of an island's mailbox: the argument, or a command that is neither of the two, which is refused with 0x0C01
(R601). The two commands have rows of their own. A 64-bit write gives the command first.
Log entry: 8 (DEDUCED). -/
def mailboxWrite (addr width value : Nat) (s : State) : State :=
  let die := dieBase (addr / 0x10000000)
  if addr % 0x10000000 = 0x1004 then mailboxArg addr value s
  else
    let c := value % 256
    let s1 := if c = 1 ∨ c = 2 then s else wr ISL_MAILBOX_STATUS.status die 0x0C01 s
    if width = 64 then mailboxArg (die + 0x1004) (value / 2 ^ 32) s1 else s1

/-- A write of setup space (R755 to R759). A write to a field that has a row of its own acts there: here it changes
nothing.
Log entry: 8 (DEDUCED). -/
def setupWrite (port addr width value : Nat) (s : State) : State :=
  if setupStatus s port addr ≠ 0 then { s with bus := ⟨port, setupStatus s port addr, []⟩ }
  else
    let s0 := { s with bus := ⟨port, 0, []⟩ }
    if !setupAligned addr width then noteIgnored addr s0
    else if isMailbox addr then mailboxWrite addr width value s0
    else if 5 ≤ addr / 0x10000000 then s0
    else
      let s1 := writeWord addr (value % 2 ^ 32) s0
      let s2 := if width = 64 then writeWord (addr + 4) (value / 2 ^ 32 % 2 ^ 32) s1 else s1
      if wordIgnored addr (value % 2 ^ 32) || (width == 64 && wordIgnored (addr + 4) (value / 2 ^ 32 % 2 ^ 32))
      then noteIgnored addr s2 else s2

/-- REGISTER_WRITE (R757).
Log entry: 178 (DESIGN CHOICE). -/
def execRegisterWrite (port addr width value : Nat) (s : State) : Host.Outcome State Fault Refusal :=
  .next (setupWrite port addr width value s)

/-- The fields of TRW_COMMIT of a Course. -/
def trwFields (course : Nat) : List (Field × Nat) :=
  [(TRW_WDOG_CTRL.timeout_us, atCourse course 0x100), (TRW_WDOG_CTRL.enable, atCourse course 0x100)]

/-- TRW_COMMIT (R97): a timeout of 0 or above 1,000,000 is refused with 0x0002. A watchdog that the commit disarms
stops; one that it arms uses the new period from its next restart (R79). -/
def execTrwCommit (course value : Nat) (s : State) : Host.Outcome State Fault Refusal :=
  let t := stg s TRW_WDOG_CTRL.timeout_us (atCourse course 0x100)
  .next (if course < 64 then
    ifReached (courseDie course) (commit (courseDie course) (0x20001C + course % 16 * 0x100) value
      [(t == 0 || decide (1000000 < t), (0x0002, 0x20000C + course % 16 * 0x100))]
      (fun s =>
        let s1 := acceptStaged (trwFields course) s
        if com s1 TRW_WDOG_CTRL.enable (atCourse course 0x100) = 0
        then modCourse course (fun x => { x with wdogAt := none }) s1 else s1)) s
    else s)

end Sys2Proof.Machine
end

