-- ==== Sys2Proof/Machine/Dial.lean ====
section
/-! DEFINITION. Dial time: its discipline, holdover, the Night tick, its read and its commit (R29 to R39). -/

namespace Sys2Proof.Machine

open Reg

/-- Change sync_state, with event 0x0E12 on a change (R33, R37). -/
def setSync (v : Nat) (s : State) : State :=
  if rd s NWT_DIAL_STATUS.sync_state = v then s
  else event 0x0E12 0 0xFF 0 0 [v] (wr NWT_DIAL_STATUS.sync_state 0 v s)

/-- The coding of offset_ns (R38): signed, saturating at 2,147,483,647 either way. -/
def offsetCode (o : Int) : Nat := enc (max (-2147483647) (min 2147483647 o)) 32

/-- Count a sync interval: inside the lock window it counts towards locked (R33). The rule says only how locked is
entered: an offset outside the window starts the count again, leaves a locked Dial time locked, and takes one that is
free-running or in holdover to acquiring, which are the model's choices.
Log entry: 23 (DEDUCED). -/
def countSync (o : Int) (s : State) : State :=
  let win : Bool := decide (o.natAbs ≤ com s NWT_DIAL_CTRL.lock_window * 100)
  let n := if win then s.clock.inWindow + 1 else 0
  let s1 := { s with clock := { s.clock with inWindow := n } }
  if com s NWT_DIAL_CTRL.lock_count ≤ n then setSync 2 s1
  else if rd s1 NWT_DIAL_STATUS.sync_state = 2 then s1 else setSync 1 s1

/-- A rate correction of at most slew_limit_ppm in the direction given: its size is a free value, and `pass` applies it
to Dial time (R31).
Log entry: 20 (DESIGN CHOICE). -/
def slew (down : Bool) (s : State) : State :=
  withDraw s (com s NWT_DIAL_CTRL.slew_limit_ppm + 1) (fun v s =>
    { s with clock := { s.clock with rate := if down then -(v : Int) else v } })

/-- The rate correction downward at slew_limit_ppm itself (R31, the third item).
Log entry: 20 (DESIGN CHOICE). -/
def slewDown (s : State) : State :=
  { s with clock := { s.clock with rate := -(com s NWT_DIAL_CTRL.slew_limit_ppm : Int) } }

/-- Correct Dial time towards a reference (R31): slew, step forward once, or slew down with ahead_of_ref set.
Log entry: 20 (DESIGN CHOICE). -/
def dialSync (reference : Nat) (s : State) : State :=
  let o : Int := (reference : Int) - (dial s : Int)
  let s1 := wr NWT_DIAL_OFFSET.offset_ns 0 (offsetCode o)
    { s with clock := { s.clock with lastSync := some (now s) } }
  let s2 :=
    if 1000000 < o then
      event 0x0E10 0 0xFF 0 1 (leBytes 8 (reference - dial s))
        (wr NWT_DIAL_NOW.dial_ns 0 reference (wrB NWT_DIAL_STATUS.stepped 0 true
          (wrB NWT_DIAL_STATUS.ahead_of_ref 0 false s1)))
    else if o < -1000000 then
      slewDown (if rdB s1 NWT_DIAL_STATUS.ahead_of_ref then s1
        else event 0x0E11 0 0xFF 0 1 (leBytes 4 (offsetCode o)) (wrB NWT_DIAL_STATUS.ahead_of_ref 0 true s1))
    else slew (decide (o < 0)) (wrB NWT_DIAL_STATUS.ahead_of_ref 0 false s1)
  countSync o s2

/-- Whether Dial time is disciplined: while the package runs, up to the instant at which Night begins (R31, R34). -/
def disciplined (s : State) : Bool := s.mode == .run || s.mode == .nightEntry

/-- DIAL_SYNC_MESSAGE (R31): a message from an Ethernet source while one is selected. -/
def execDialSyncMessage (reference : Nat) (s : State) : Host.Outcome State Fault Refusal :=
  let src := com s NWT_DIAL_CTRL.source_sel
  .next (if 1 ≤ src ∧ src ≤ 4 ∧ disciplined s then dialSync (reference % 2 ^ 64) s else s)

/-- The earliest end of three expected intervals without a message: heartbeats are expected every 20 µs (R610); the
interval of an Ethernet source is not stated.
Log entry: 21 (DEDUCED). -/
def syncDue (s : State) : Nat :=
  match s.clock.lastSync with
  | some t => if com s NWT_DIAL_CTRL.source_sel = 5 then t + 60000 else t
  | none => 0

/-- DIAL_HOLDOVER (R33): the last rate correction stays.
Log entries: 21 (DEDUCED), 23 (DEDUCED). -/
def execDialHoldover (s : State) : Host.Outcome State Fault Refusal :=
  .next (if rd s NWT_DIAL_STATUS.sync_state = 1 ∨ rd s NWT_DIAL_STATUS.sync_state = 2
    then setSync 3 (passTo (syncDue s) { s with clock := { s.clock with inWindow := 0 } }) else s)

/-- NIGHTWATCH_TICK (R34): in Night and Deep Night. -/
def execNightwatchTick (s : State) : Host.Outcome State Fault Refusal :=
  .next (if ticking s then passTicks 1 s else s)

/-- DIAL_NOW_READ (R36): a 64-bit read gives one value; a 32-bit read of the low word latches the high word, and the
next 32-bit read of the high word by the same requester returns it.
Log entry: 10 (DEDUCED). -/
def execDialNowRead (port : Nat) (wide high : Bool) (s : State) : Host.Outcome State Fault Refusal :=
  .next (
    if port ≠ 68 ∧ port ≠ 69 then { s with bus := ⟨port, 0x0701, List.replicate (if wide then 8 else 4) 255⟩ }
    else if wide then { s with bus := ⟨port, 0, leBytes 8 (dial s)⟩ }
    else
      let r := readWordBy port (if high then 0x10004 else 0x10000) s
      { r.2 with bus := ⟨port, 0, leBytes 4 r.1⟩ })

/-- The checks of NWT_COMMIT (R39, R767): a reserved source, or a field of zero or out of range. -/
def nwtChecks (s : State) : List (Bool × Refuse) :=
  [(decide (5 < stg s NWT_DIAL_CTRL.source_sel) || stg s NWT_DIAL_CTRL.slew_limit_ppm == 0
    || decide (200 < stg s NWT_DIAL_CTRL.slew_limit_ppm) || stg s NWT_DIAL_CTRL.lock_count == 0
    || stg s NWT_DIAL_CTRL.lock_window == 0, (0x0002, 0x10010))]

/-- The fields that NWT_COMMIT commits. -/
def nwtFields : List (Field × Nat) :=
  [(NWT_DIAL_CTRL.source_sel, 0), (NWT_DIAL_CTRL.slew_limit_ppm, 0), (NWT_DIAL_CTRL.lock_count, 0),
   (NWT_DIAL_CTRL.lock_window, 0)]

/-- Hold the rate correction within a newly committed slew_limit_ppm (R31): Dial time that slews down towards a reference
behind it does so at the limit itself.
Log entry: 20 (DESIGN CHOICE). -/
def limitRate (s : State) : State :=
  let m : Int := com s NWT_DIAL_CTRL.slew_limit_ppm
  if rdB s NWT_DIAL_STATUS.ahead_of_ref then slewDown s
  else { s with clock := { s.clock with rate := max (-m) (min m s.clock.rate) } }

/-- Leave a source (R31, R37): the slew towards it ends, and with it ahead_of_ref; without a source Dial time runs free
of any correction. -/
def leaveSource (new : Nat) (s : State) : State :=
  wrB NWT_DIAL_STATUS.ahead_of_ref 0 false { s with
    clock := { s.clock with
      rate := if new = 0 ∨ rdB s NWT_DIAL_STATUS.ahead_of_ref then 0 else s.clock.rate
      inWindow := 0 } }

/-- The effect of an accepted NWT_COMMIT: the new source and limit are in use; another source is acquired afresh. -/
def nwtApply (s : State) : State :=
  let old := com s NWT_DIAL_CTRL.source_sel
  let s1 := acceptStaged nwtFields s
  let new := com s1 NWT_DIAL_CTRL.source_sel
  if old = new then limitRate s1
  else setSync (if new = 0 then 0 else 1) (wr NWT_DIAL_STATUS.active_source 0 new (limitRate (leaveSource new s1)))

/-- NWT_COMMIT (R39). -/
def execNwtCommit (value : Nat) (s : State) : Host.Outcome State Fault Refusal :=
  .next (commit 0 0x1001C value (nwtChecks s) nwtApply s)

/-- PCIE_LINK_UP (R714, R772): DL_Up after training, with PERST_N high, the package in run and the endpoint enabled. The
MSI-X messages that have waited for the link go out (R319). -/
def execPcieLinkUp (s : State) : Host.Outcome State Fault Refusal :=
  .next (if s.perst ∨ s.mode ≠ .run ∨ !bit s.nwt.boot.flags 0 then s else sendPending { s with pcieUp := true })

/-- Whether ring r of context c, its doorbell line, or a line that its reports go to lies in the PCIe outbound window. -/
def ringInPcie (s : State) (c r : Nat) : Bool :=
  inPcie (com s HST_SQ_BASE.sq_base (c * 0x100 + 8 * r)) || inPcie (com s HST_DB_ADDR.db_addr (c * 0x100 + 8 * r))
    || inPcie (com s HST_CQ_BASE.cq_base (c * 0x100)) || inPcie (com s HST_EQ_BASE.eq_base (c * 0x100))
    || inPcie (com s HST_ECHO_ADDR.echo_addr (c * 0x100))

/-- The PCIe link goes down: every enabled ring of an open context with a line in the window stops with cause 0x0614
(R313, R746). -/
def pcieDown (s : State) : State :=
  (List.range 64).foldl (fun s c =>
    if ctxOpen s c then (List.range 4).foldl (fun s r =>
      if ringEnabled s c r && ringInPcie s c r then stopRing c r 0x0614 (ringOf s c r).head s else s) s
    else s) { s with pcieUp := false }

/-- PCIE_LINK_DOWN (R746, R772). -/
def execPcieLinkDown (s : State) : Host.Outcome State Fault Refusal := .next (pcieDown s)

/-- PERST_ASSERT (R746, R772). -/
def execPerstAssert (samples : Nat) (s : State) : Host.Outcome State Fault Refusal :=
  .next (if s.perst ∨ !filtered 40 samples then s else pcieDown { s with perst := true })

/-- PERST_DEASSERT (R746): the PCIe domain leaves reset; the link is down until it has trained. -/
def execPerstDeassert (samples : Nat) (s : State) : Host.Outcome State Fault Refusal :=
  .next (if filtered 40 samples then { s with perst := false } else s)

end Sys2Proof.Machine
end

