-- ==== Sys2Proof/Machine/LoadChecks.lean ====
section
/-! DEFINITION. The load checks that depend on a Bond image alone (steps 2 to 9 of R70, and the checks of classes 0x02,
0x04, 0x05 and 0x07 that other chapters add to them). -/

namespace Sys2Proof.Machine

open Reg

/-! ## Header, section table and role map: step 4 (R50 to R54, R72) -/

/-- The occupancy bits that a footprint's width and height allow. -/
def footprintMask (w h : Nat) : Nat :=
  sumNat ((List.range 16).map (fun c => if c % 4 < w ∧ c / 4 < h then 2 ^ c else 0))

/-- Whether every link of link_mask joins two occupied cells (R51). -/
def linkMaskOk (img : List Nat) : Bool :=
  (List.range 24).all (fun k => !bit (imgLinks img) k ||
    (bit (imgOccupancy img) (linkEnds k).1 && bit (imgOccupancy img) (linkEnds k).2))

/-- Whether the header is well formed (R50, R51, R72); format_version and feature_word have steps of their own. -/
def headerOk (img : List Nat) : Bool :=
  let size := fld img 8 4
  fld img 0 4 == 0x444E4F42 && fld img 6 2 == 128 && decide (384 ≤ size) && decide (size ≤ 131072)
    && img.length == size && decide (1 ≤ imgSections img) && decide (imgSections img ≤ 64) && zeroAt img 14 2
    && decide (1 ≤ imgBricks img) && decide (imgBricks img ≤ 16) && decide (1 ≤ imgW img) && decide (imgW img ≤ 4)
    && decide (1 ≤ imgH img) && decide (imgH img ≤ 4) && decide (imgShape img < 8)
    && popcount (imgOccupancy img) 16 == imgBricks img
    && (imgOccupancy img &&& footprintMask (imgW img) (imgH img)) == imgOccupancy img && zeroAt img 38 2
    && decide (imgLinks img < 2 ^ 24) && decide (imgFlags img < 32) && decide (1 ≤ imgWcet img)
    && decide (imgWcet img ≤ 1530000000) && decide (imgBed img ≤ 262144) && decide (imgHod img ≤ 4194304)
    && decide (imgParams img ≤ 16) && decide (img.getD 69 0 ≤ 7) && zeroAt img 70 2 && fld img 72 4 == size - 128
    && zeroAt img 76 52 && (bit (imgFlags img) 0 || imgGap img == imgWcet img) && linkMaskOk img

/-- Bytes that a section type allows (R53). -/
def sectionLimit (kind : Nat) : Nat :=
  match kind with
  | 1 => 2048 | 2 => 128 | 3 => 64 | 4 => 4096 | 5 => 16 | 6 => 64 | 7 => 1024 | 8 => 65536 | _ => 0

/-- Whether a section table entry is well formed (R52, R53). -/
def sectionOk (img : List Nat) (x : Section) : Bool :=
  decide (1 ≤ x.kind) && decide (x.kind ≤ 8) && x.res == 0 && x.off % 64 == 0 && decide (x.size ≤ sectionLimit x.kind)
    && decide (128 + 16 * imgSections img ≤ x.off) && decide (x.off + x.size ≤ fld img 72 4)
    && (x.kind != 1 || x.size % 4 == 0) && (decide (x.kind < 5) || x.role == 0xFF)
    && (x.role == 0xFF || decide (x.role < imgBricks img))

/-- Whether a section's bytes match its CRC-32C. -/
def sectionCrcOk (img : List Nat) (x : Section) : Bool := crc32c (slice img x.off x.size) == x.crc

/-- Whether each role receives at most one section of each loaded type, and every role a program (R53). -/
def sectionsOnce (img : List Nat) : Bool :=
  (List.range (imgBricks img)).all (fun r =>
    (List.range 7).all (fun k => decide ((sectionsFor img r (k + 1)).length ≤ 1)) && !(sectionsFor img r 1).isEmpty)

/-- Whether the role map sends the roles to distinct occupied cells and covers every occupied cell (R54). -/
def roleMapOk (img : List Nat) : Bool :=
  let cells := (List.range (imgBricks img)).map (roleCell img)
  (match sectionBytes img 0 5 with | some m => decide (imgBricks img ≤ m.length) | none => false)
    && cells.all (fun c => decide (c < 16) && bit (imgOccupancy img) c) && decide cells.Nodup

/-- Whether every section's CRC matches. -/
def imageCrcOk (img : List Nat) : Bool := (sectionsOf img).all (sectionCrcOk img)

/-- Step 4 of R70. -/
def imageOk (img : List Nat) : Bool :=
  headerOk img && (sectionsOf img).all (sectionOk img) && sectionsOnce img && roleMapOk img && imageCrcOk img

/-! ## Programs: step 5 (R64 to R67, R142, R541, R544, R779) -/

/-- The instruction words of role r. -/
def wordsOf (img : List Nat) (r : Nat) : List Nat := (List.range (programLen img r)).map (wordAt (programOf img r))

/-- Whether a word's class and operation are legal (R65). -/
def opLegal (w : Nat) : Bool :=
  match w / 2 ^ 29 % 8, bits w 24 5 with
  | 0, o => decide (o ≤ 6)
  | 1, o => decide (o ≤ 1)
  | 2, o => decide (o ≤ 3) && (o != 0 || decide (bits w 18 6 ≤ 7)) && (o != 1 || decide (bits w 18 6 ≤ 5))
      && (o != 2 || decide (bits w 18 6 ≤ 2))
  | 3, o => decide (o ≤ 1)
  | 4, o => o == 0
  | 5, o => decide (o ≤ 5)
  | 6, o => o == 0
  | _, o => decide (o ≤ 3)

/-- Whether a direction, from the cell of role r, names a link of link_mask (R67). -/
def dirOk (img : List Nat) (r dir : Nat) : Bool :=
  match linkBit (roleCell img r) dir with
  | some k => bit (imgLinks img) k
  | none => false

/-- Whether a legal word at address pc of role r's program has a field out of range (R65, R67). -/
def fieldBad (img : List Nat) (r n pc w : Nat) : Bool :=
  let op := opOf w
  let target := bits w 15 9
  let pw := imgParams img
  let grout := bit (imgFlags img) 3
  if op = opJump ∨ op = opLoop then decide (target ≤ pc) || decide (n ≤ target)
  else if op = opLoopp then decide (target ≤ pc) || decide (n ≤ target) || decide (pw ≤ bits w 0 4)
  else if op = opMma ∨ op = opDrain then bits w 0 4 != 0
  else if w / 2 ^ 29 % 8 = 2 then !fmtOk (bits w 14 4) || bits w 8 2 == 3
  else if op = opCopy ∨ op = opCopyg then
    ((bits w 22 2 == 2 || bits w 20 2 == 2) && !dirOk img r (bits w 18 2)) || (op == opCopyg && !grout)
  else if op = opQuant then decide (17 ≤ bits w 6 5)
  else if op = opNsig ∨ op = opNwait then bits w 16 2 != 0 || !dirOk img r (bits w 18 2)
  else if op = opBarrier then bits w 16 2 != 0
  else if op = opTsig ∨ op = opTwaitge ∨ op = opTwaiteq then bits w 16 2 != 0 || decide (pw ≤ bits w 20 4)
  else if op = opGroutchk then bits w 16 2 != 0 || decide (pw ≤ bits w 20 4) || !grout
  else if op = opBasep then
    decide (32 ≤ bits w 0 20) || decide (pw ≤ bits w 0 4) || (bit w 4 && decide (pw ≤ bits w 0 4 + 1))
  else false

/-- A loop of a program: its own address, its target and its counter. -/
abbrev LoopSpan := Nat × Nat × Nat

/-- The loops of a program. -/
def loopsOf (ws : List Nat) : List LoopSpan :=
  ((List.range ws.length).zip ws).filterMap (fun e =>
    if opOf e.2 = opLoop ∨ opOf e.2 = opLoopp then some (e.1, bits e.2 15 9, bits e.2 13 2) else none)

/-- Whether loop i lies wholly inside the body of loop j. -/
def loopInside (i j : LoopSpan) : Bool := decide (j.1 < i.1) && decide (i.2.1 ≤ j.2.1)

/-- Whether two loops share no address. -/
def loopsApart (i j : LoopSpan) : Bool := decide (j.2.1 < i.1) || decide (i.2.1 < j.1)

/-- Whether a loop breaks R66 against the others: it lies partly inside one, shares an enclosing loop's counter, or
nests beyond 4. -/
def loopBad (all : List LoopSpan) (i : LoopSpan) : Bool :=
  all.any (fun j => i != j && !loopsApart i j && !loopInside i j && !loopInside j i)
    || all.any (fun j => i != j && loopInside i j && i.2.2 == j.2.2)
    || decide (4 < countIf all (fun j => i == j || loopInside i j))

/-- Whether address a lies in a loop's body. -/
def inBody (l : LoopSpan) (a : Nat) : Bool := decide (l.1 < a) && decide (a ≤ l.2.1)

/-- Whether a program breaks R66. -/
def nestBad (ws : List Nat) : Bool :=
  let loops := loopsOf ws
  loops.any (loopBad loops) || ((List.range ws.length).zip ws).any (fun e =>
    opOf e.2 == opJump && loops.any (fun l => inBody l e.1 != inBody l (bits e.2 15 9)))

/-- Whether the MMAs of a program use a streamer with a run_count of 0, or a streamer record has a reserved bit set
in its first 16 bytes (R778, R779). R778 says that the record of a streamer that no MMA uses is 0 there and names no status
for one that is not: such a record is accepted, which is the model's choice.
Log entry: 181 (DESIGN CHOICE). -/
def streamerBad (st : List Nat) (usesMma : Bool) : Bool :=
  [0, 32].any (fun b => decide (4 ≤ st.getD b 0) || st.getD (b + 1) 0 != 0 || decide (4096 ≤ fld st (b + 2) 2)
    || !zeroAt st (b + 6) 10 || (usesMma && fld st (b + 4) 2 == 0))

/-- Whether generator a is the destination generator of a COPYG of the program into the Bed or the Hod (R541). -/
def groutDest (ws : List Nat) (a : Nat) : Bool :=
  ws.any (fun w => opOf w == opCopyg && decide (bits w 20 2 ≤ 1) && (bits w 16 2 + 1) % 4 == a)

/-- Step 5 of R70 for role r. -/
def programBad (img : List Nat) (r : Nat) : Bool :=
  let ws := wordsOf img r
  let ag := agenBytes img r
  ((List.range ws.length).zip ws).any (fun e => !opLegal e.2 || fieldBad img r ws.length e.1 e.2)
    || opOf (ws.getLast?.getD 0) != opHalt || ws.isEmpty || nestBad ws
    || streamerBad (streamerBytes img r) (ws.any (fun w => opOf w == opMma))
    || (List.range 4).any (fun a => !zeroAt ag (32 * a + 24) 3 && !groutDest ws a)

/-- The roles of an image. -/
def rolesOf (img : List Nat) : List Nat := List.range (imgBricks img)

/-- Step 6 of R70 (R111, R112). -/
def pairsBad (img : List Nat) : Bool :=
  (rolesOf img).any (fun r => (wordsOf img r).any (fun w => opOf w == opMma && !pairOk (bits w 20 4) (bits w 16 4)))

/-- Step 7 of R70 (R71, R544). -/
def classBad (img : List Nat) (isSealed : Bool) : Bool := isSealed && (bit (imgFlags img) 1 || !bit (imgFlags img) 3)

/-- Step 8 of R70 (R250): pp_gap_cycles at gclk MHz above 40 µs. -/
def gapBad (img : List Nat) (gclk : Nat) : Bool := decide (40 * gclk < imgGap img)

/-- Word p of the loop_bounds section, 0 without one. -/
def loopBound (img : List Nat) (p : Nat) : Nat := fld ((sectionBytes img 0 6).getD []) (4 * p) 4

/-- Step 9 of R70: a parameter word that a LOOPP uses exceeds its bound. -/
def loopParamBad (img params : List Nat) : Bool :=
  (rolesOf img).any (fun r => (wordsOf img r).any (fun w =>
    opOf w == opLoopp && decide (loopBound img (bits w 0 4) < params.getD (bits w 0 4) 0)))

/-! ## Checks of class 0x02 (R121, R125, R131, R140, R143, R144, R162) -/

/-- 0x0201 (R131). -/
def roundingBad (img : List Nat) (r : Nat) : Bool :=
  !bit (imgFlags img) 2 && (wordsOf img r).any (fun w =>
    (w / 2 ^ 29 % 8 == 2 && bits w 8 2 == 2)
      || (opOf w == opQuant && (agenBytes img r).getD (32 * bits w 15 2 + 29) 0 % 4 == 2))

/-- 0x0202 (R121): a format byte that is no format code. -/
def formatByteBad (img : List Nat) (r : Nat) : Bool :=
  (List.range 4).any (fun a => !fmtOk ((agenBytes img r).getD (32 * a + 28) 0))

/-- Whether an FP32 word is finite. -/
def finiteWord (w : Nat) : Bool := bits w 23 8 != 255

/-- Whether a lookup table is well formed (R125): inv_step positive and finite, every sample finite. -/
def laneTableOk (t : List Nat) : Bool :=
  let inv := fld t 4 4
  !bit inv 31 && inv != 0 && finiteWord inv && (List.range 1022).all (fun i => finiteWord (fld t (4 * (i + 2)) 4))

/-- 0x0203 (R125). -/
def laneTableBad (img : List Nat) (r : Nat) : Bool :=
  (wordsOf img r).any (fun w => opOf w == opUnary && bits w 18 6 == 6)
    && !(match sectionBytes img r 4 with | some t => laneTableOk t | none => false)

/-- 0x0281 (R144). -/
def carriedBad (img : List Nat) (r : Nat) : Bool :=
  !bit (imgFlags img) 1 && (wordsOf img r).any (fun w => opOf w == opQuant && bit w 19)

/-- 0x0282 (R140). -/
def scaleFormatBad (img : List Nat) (r : Nat) : Bool :=
  (wordsOf img r).any (fun w => opOf w == opQuant && (decide (bits w 20 4 < 3) || !fmtOk (bits w 20 4)
    || decide (2 < (agenBytes img r).getD (32 * bits w 17 2 + 28) 0)))

/-- 0x0283 (R143, R162). -/
def scaleFieldBad (img : List Nat) (r : Nat) : Bool :=
  let ag := agenBytes img r
  let st := streamerBytes img r
  (wordsOf img r).any (fun w =>
    (opOf w == opQuant && (decide (3 ≤ ag.getD (32 * bits w 15 2 + 29) 0) || decide (4096 ≤ fld ag (32 * bits w 15 2 + 30) 2)))
      || (opOf w == opMma && bit w 12 && (decide (4096 ≤ fld st 24 2) || !zeroAt st 30 2)))

/-! ## Checks of classes 0x04, 0x05 and 0x07 -/

/-- Whether bytes 16 to 23 of streamer record k, used by MMAs of given formats, are malformed (R233). -/
def attentionRecBad (st : List Nat) (k : Nat) (fmts : List Nat) : Bool :=
  let b := 32 * k
  let w := fld st (b + 16) 2
  let line := fld st (b + 18) 2
  let off := fld st (b + 20) 4
  if w % 8 = 0 then !zeroAt st (b + 16) 8
  else decide (2 ≤ w % 4) || (if w % 4 = 1 then bits w 4 4 != 3 && bits w 4 4 != 10 else bits w 4 4 != 0 || line != 0)
    || decide (4096 ≤ line) || decide (2 ^ 22 ≤ off) || off % 8 != 0 || (!bit w 2 && off != 0)
    || decide (bits w 8 8 < 1) || decide (16 < bits w 8 8) || fmts.any (· != 1)

/-- 0x0408 (R233). -/
def attentionFieldsBad (img : List Nat) (r : Nat) : Bool :=
  let mmas := (wordsOf img r).filter (fun w => opOf w == opMma)
  let st := streamerBytes img r
  attentionRecBad st 0 (mmas.map (fun w => bits w 20 4)) || attentionRecBad st 1 (mmas.map (fun w => bits w 16 4))

/-- 0x0510 (R266): a Tie wait of a preemptible Bond without a PPOINT before it. -/
def tieWaitBad (img : List Nat) (r : Nat) : Bool :=
  let ws := wordsOf img r
  bit (imgFlags img) 0 && ((List.range ws.length).zip ws).any (fun e =>
    (opOf e.2 == opTwaitge || opOf e.2 == opTwaiteq) && (e.1 == 0 || opOf (ws.getD (e.1 - 1) 0) != opPpoint))

/-- 0x0703 (R356). -/
def hintBad (img : List Nat) (r : Nat) : Bool :=
  (List.range 4).any (fun a => decide (4 ≤ (agenBytes img r).getD (32 * a + 27) 0))

/-! ## Together -/

/-- Checks of class 0x01 that an image meets or not, in the order of R70, steps 2 to 8.
Log entries: 18 (DEDUCED), 56 (DEDUCED). -/
def imageChecks (img : List Nat) (capability : Nat) (isSealed : Bool) (gclk : Nat) : List (Bool × Nat) :=
  [(fld img 4 2 != 1, 0x0102),
   ((fld img 16 8 &&& capability) != fld img 16 8, 0x0103),
   (!imageOk img, 0x0104),
   ((rolesOf img).any (programBad img), 0x0105),
   (pairsBad img, 0x0106),
   (classBad img isSealed, 0x0107),
   (gapBad img gclk, 0x0108)]

/-- Checks of class 0x02 in the order of R13.
Log entry: 56 (DEDUCED). -/
def scaleChecks (img : List Nat) : List (Bool × Nat) :=
  let any := fun (p : List Nat → Nat → Bool) => (rolesOf img).any (p img)
  [(any roundingBad, 0x0201), (any formatByteBad, 0x0202), (any laneTableBad, 0x0203), (any carriedBad, 0x0281),
   (any scaleFormatBad, 0x0282), (any scaleFieldBad, 0x0283)]

/-- The first status of a list of checks that fails, 0 when none does.
Log entry: 56 (DEDUCED). -/
def firstStatus (l : List (Bool × Nat)) : Nat := ((l.find? (·.1)).map (·.2)).getD 0

end Sys2Proof.Machine
end

