-- ==== Sys2Proof/Machine/Records.lean ====
section
/-! DEFINITION. The window record (R169 to R192, R214) and the attention record with its sequence table (R216 to R224,
R246, R249): their checks and the parameter words that the Trowel derives from them. -/

namespace Sys2Proof.Machine

/-! ## The window record -/

/-- Kernel rows as dilated (R175). -/
def winEh (r : List Nat) : Nat := r.getD 18 0 * (r.getD 14 0 - 1) + 1
/-- Kernel columns as dilated. -/
def winEw (r : List Nat) : Nat := r.getD 19 0 * (r.getD 15 0 - 1) + 1

/-- Output height in exact signed arithmetic (R175). -/
def winHo (r : List Nat) : Int :=
  ((fld r 4 2 + r.getD 20 0 + r.getD 21 0 : Nat) - (winEh r : Nat) : Int).fdiv (r.getD 16 0) + 1

/-- Output width. -/
def winWo (r : List Nat) : Int :=
  ((fld r 6 2 + r.getD 22 0 + r.getD 23 0 : Nat) - (winEw r : Nat) : Int).fdiv (r.getD 17 0) + 1

/-- Whether a BF16 word is positive and finite. -/
def bf16Positive (w : Nat) : Bool := decide (0 < w) && decide (w < 0x7F80)

/-- Whether an FP32 word is positive and finite. -/
def f32Positive (w : Nat) : Bool := decide (0 < w) && decide (w < 0x7F800000)

/-- Whether a number lies in a range. -/
def inRange (v lo hi : Nat) : Bool := decide (lo ≤ v) && decide (v ≤ hi)

/-- Bytes of one row of elements of a format; 0 for a reserved code, which has no packing.
Log entry: 76 (DEDUCED). -/
def rowBytes (f n : Nat) : Nat := if fmtOk f then packedBytes f n else 0

/-- Bytes of one weight row, rounded up to 64 (R174). -/
def weightRow (r : List Nat) : Nat :=
  divUp (rowBytes (r.getD 2 0) (r.getD 14 0 * r.getD 15 0 * (fld r 8 2 / max 1 (fld r 12 2)))) 64 * 64

/-- 0x0302 (R169, R173).
Log entries: 75 (DEDUCED), 76 (DEDUCED). -/
def windowMalformed (r : List Nat) : Bool :=
  let op := r.getD 0 0
  let conv := op == 1
  let fl := r.getD 25 0
  !inRange op 1 4 || decide (16 ≤ r.getD 1 0) || (if conv then decide (16 ≤ r.getD 2 0) else r.getD 2 0 != 0)
    || decide (16 ≤ r.getD 3 0) || !inRange (fld r 4 2) 1 16384 || !inRange (fld r 6 2) 1 16384
    || !inRange (fld r 8 2) 1 16384 || !inRange (fld r 10 2) 1 16384 || !inRange (fld r 12 2) 1 16384
    || fld r 8 2 % fld r 12 2 != 0 || fld r 10 2 % fld r 12 2 != 0
    || (!conv && (fld r 10 2 != fld r 8 2 || fld r 12 2 != fld r 8 2))
    || !inRange (r.getD 14 0) 1 15 || !inRange (r.getD 15 0) 1 15 || !inRange (r.getD 16 0) 1 8
    || !inRange (r.getD 17 0) 1 8 || !inRange (r.getD 18 0) 1 8 || !inRange (r.getD 19 0) 1 8
    || decide (63 < r.getD 20 0) || decide (63 < r.getD 21 0) || decide (63 < r.getD 22 0) || decide (63 < r.getD 23 0)
    || decide (2 < r.getD 24 0) || decide (8 ≤ fl) || (!conv && bit fl 0) || fld r 26 2 == 0 || fld r 28 2 == 0
    || !bf16Positive (fld r 30 2) || !bf16Positive (fld r 32 2)
    || (!bit fl 1 && fld r 34 6 % 64 != 0) || fld r 40 6 % 64 != 0 || (!conv && fld r 40 6 != 0)
    || (!bit fl 2 && fld r 46 6 % 64 != 0) || fld r 52 6 % 64 != 0 || (!bit fl 0 && fld r 52 6 != 0) || !zeroAt r 58 6
    || decide (fld r 26 2 * 64 < rowBytes (r.getD 1 0) (fld r 6 2 * fld r 8 2))
    || decide (fld r 28 2 * 64 < rowBytes (r.getD 3 0) ((winWo r).toNat * fld r 10 2))

/-- 0x0303 (R179). -/
def reflectBad (r : List Nat) : Bool :=
  r.getD 24 0 == 2 && (decide (fld r 4 2 ≤ r.getD 20 0) || decide (fld r 4 2 ≤ r.getD 21 0)
    || decide (fld r 6 2 ≤ r.getD 22 0) || decide (fld r 6 2 ≤ r.getD 23 0))

/-- 0x0304 (R181). -/
def windowFormatBad (r : List Nat) : Bool :=
  let i := r.getD 1 0
  let o := r.getD 3 0
  if r.getD 0 0 = 1 then i == 0 || decide (9 < i) || !pairOk i (r.getD 2 0) || decide (9 < o)
  else decide (9 < i) || decide (9 < o)

/-- First output row of band b of n (R189). -/
def bandRow (r : List Nat) (n b : Nat) : Nat := b * (winHo r).toNat / n

/-- First input row that band b of n holds (R190). -/
def heldRow (r : List Nat) (n b : Nat) : Nat := b * fld r 4 2 / n

/-- The input rows that a band needs, from the first to one past the last, within the input (R189).
Log entry: 77 (DEDUCED). -/
def needRows (r : List Nat) (n b : Nat) : Nat × Nat :=
  let lo := bandRow r n b * r.getD 16 0
  let hi := (bandRow r n (b + 1) - 1) * r.getD 16 0 + winEh r
  if bandRow r n b = bandRow r n (b + 1) then (0, 0)
  else (min (fld r 4 2) (lo - r.getD 20 0), min (fld r 4 2) (hi - r.getD 20 0))

/-- Rows of the upper and the lower halo of a band (R190).
Log entry: 77 (DEDUCED). -/
def haloRows (r : List Nat) (n b : Nat) : Nat × Nat :=
  let need := needRows r n b
  (min need.2 (heldRow r n b) - need.1, need.2 - max need.1 (heldRow r n (b + 1)))

/-- Most held and halo rows of any band (R182). -/
def mostIn (r : List Nat) (n : Nat) : Nat :=
  (List.range n).foldl (fun m b => max m (heldRow r n (b + 1) - heldRow r n b + (haloRows r n b).1 + (haloRows r n b).2)) 0

/-- Most output rows of any band (R182). -/
def mostOut (r : List Nat) (n : Nat) : Nat :=
  (List.range n).foldl (fun m b => max m (bandRow r n (b + 1) - bandRow r n b)) 0

/-- A range: whether it lies in Hods, its base and its length. -/
abbrev Span := Bool × Nat × Nat

/-- Whether two ranges share a byte. -/
def spansMeet (a b : Span) : Bool := a.1 == b.1 && overlap a.2.1 a.2.2 b.2.1 b.2.2

/-- 0x0307 (R182).
Log entry: 75 (DEDUCED). -/
def windowOverlap (r : List Nat) (n : Nat) : Bool :=
  let fl := r.getD 25 0
  let inp : Span := if bit fl 1 then (true, fld r 34 6 % 2 ^ 22, mostIn r n * fld r 26 2 * 64)
    else (false, fld r 34 6, fld r 4 2 * fld r 26 2 * 64)
  let out : Span := if bit fl 2 then (true, fld r 46 6 % 2 ^ 22, mostOut r n * fld r 28 2 * 64)
    else (false, fld r 46 6, (winHo r).toNat * fld r 28 2 * 64)
  let wt : Span := (false, fld r 40 6, if r.getD 0 0 = 1 then fld r 10 2 * weightRow r else 0)
  let bias : Span := (false, fld r 52 6, if bit fl 0 then 4 * fld r 10 2 else 0)
  spansMeet out inp || spansMeet out wt || spansMeet out bias

/-- 0x0305 (R192); `oneDie` says that the Course set lies on one die.
Log entry: 77 (DEDUCED). -/
def bandBad (r : List Nat) (n : Nat) (oneDie : Bool) : Bool :=
  let fl := r.getD 25 0
  decide ((winHo r).toNat < n) || (bit fl 1 && decide (fld r 4 2 < n)) || ((bit fl 1 || bit fl 2) && !oneDie)
    || (bit fl 1 && (List.range n).any (fun b =>
      (decide (0 < (haloRows r n b).1) && decide ((needRows r n b).1 < heldRow r n (b - 1)))
        || (decide (0 < (haloRows r n b).2) && decide (heldRow r n (b + 2) < (needRows r n b).2))))

/-- Whether some output position has no tap inside an input of n rows (or columns). -/
def tapless (n out kernel stride dil pad : Nat) : Bool :=
  (List.range out).any (fun i => !(List.range kernel).any (fun k =>
    decide (pad ≤ i * stride + k * dil) && decide (i * stride + k * dil < n + pad)))

/-- 0x0306 (R188). -/
def poolEmpty (r : List Nat) : Bool :=
  ((r.getD 0 0 == 2 && r.getD 24 0 == 0) || r.getD 0 0 == 4)
    && (tapless (fld r 4 2) (winHo r).toNat (r.getD 14 0) (r.getD 16 0) (r.getD 18 0) (r.getD 20 0)
      || tapless (fld r 6 2) (winWo r).toNat (r.getD 15 0) (r.getD 17 0) (r.getD 19 0) (r.getD 22 0))

/-- The checks of a window record in the order of R214.
Log entry: 76 (DEDUCED). -/
def windowStatus (r : List Nat) (n : Nat) (oneDie : Bool) : Nat :=
  if windowMalformed r then 0x0302
  else if winHo r < 1 ∨ winWo r < 1 then 0x0301
  else if reflectBad r then 0x0303
  else if windowFormatBad r then 0x0304
  else if windowOverlap r n then 0x0307
  else if bandBad r n oneDie then 0x0305
  else if poolEmpty r then 0x0306
  else 0

/-- Parameter words 0 to 7 of band b of n (R191). -/
def windowWords (r : List Nat) (n b : Nat) : List Nat :=
  let a0 := bandRow r n b
  let a1 := bandRow r n (b + 1)
  [b, a0, a1 - a0, a0 * r.getD 16 0, (a1 - 1 - a0) * r.getD 16 0 + winEh r, (winWo r).toNat, (winHo r).toNat, n]

/-! ## The attention record -/

/-- Head width D (R216). -/
def attD (r : List Nat) : Nat := 64 * r.getD 4 0

/-- Group size g (R220). -/
def attG (r : List Nat) : Nat := r.getD 5 0 / max 1 (r.getD 6 0)

/-- 0x0401 (R216). -/
def attentionMalformed (r : List Nat) : Bool :=
  let op := r.getD 0 0
  let att := op == 1
  let mask := r.getD 9 0
  let fl := r.getD 10 0
  !inRange op 1 2 || decide (16 ≤ r.getD 1 0) || decide (16 ≤ r.getD 2 0)
    || (if att then decide (16 ≤ r.getD 3 0) else r.getD 3 0 != 0)
    || !(r.getD 4 0 == 1 || r.getD 4 0 == 2 || r.getD 4 0 == 4)
    || !inRange (r.getD 5 0) 1 128 || !inRange (r.getD 6 0) 1 128 || (!att && r.getD 5 0 != r.getD 6 0)
    || r.getD 8 0 == 0 || decide (r.getD 8 0 ≤ r.getD 7 0) || decide (8 ≤ mask) || (!att && mask != 0)
    || decide (8 ≤ fl) || r.getD 11 0 != 0 || !inRange (fld r 12 2) 1 256
    || (if bit mask 1 then fld r 14 2 == 0 else fld r 14 2 != 0)
    || (if att then !f32Positive (fld r 16 4) else fld r 16 4 != 0)
    || (if bit fl 0 then !inRange (fld r 20 4) 1 65536 else fld r 20 4 != 0)
    || fld r 24 6 % 64 != 0 || fld r 30 6 % 64 != 0 || fld r 36 6 % 64 != 0 || (!att && fld r 36 6 != 0)
    || fld r 42 6 % 64 != 0 || (!bit fl 0 && fld r 42 6 != 0) || fld r 48 6 % 64 != 0
    || (!bit fl 2 && fld r 48 6 != 0) || fld r 54 6 % 64 != 0 || !zeroAt r 60 4

/-- 0x0402 (R219). -/
def attentionFormatBad (r : List Nat) : Bool :=
  !inRange (r.getD 1 0) 1 2 || !(r.getD 2 0 == 3 || r.getD 2 0 == 10) || (r.getD 0 0 == 1 && decide (2 < r.getD 3 0))

/-- 0x0403 (R220). -/
def headsBad (r : List Nat) : Bool := r.getD 5 0 % r.getD 6 0 != 0 || decide (16 < attG r)

/-- The sequence records of a table (R221). -/
def seqsOf (r table : List Nat) : List (List Nat) :=
  (List.range (fld r 12 2)).map (fun i => slice table (32 * i) 32)

/-- Whether a sequence record breaks R222. -/
def seqBad (r q : List Nat) : Bool :=
  !inRange (fld q 0 2) 1 8192 || !inRange (fld q 2 2) 1 256 || !inRange (fld q 4 4) 1 65536
    || decide (65535 < fld q 8 4) || decide (16777215 < fld q 12 4) || fld q 16 6 % 64 != 0 || fld q 22 6 % 64 != 0
    || (!bit (r.getD 9 0) 2 && fld q 22 6 != 0) || !zeroAt q 28 4
    || decide (fld q 4 4 < fld q 8 4 + fld q 0 2) || decide (fld q 2 2 < divUp (fld q 4 4) 256)

/-- 0x0405 (R223). -/
def rotaryShort (r table : List Nat) : Bool :=
  bit (r.getD 10 0) 0 && (seqsOf r table).any (fun q => decide (fld r 20 4 < fld q 4 4))

/-- Query tokens of one block (R246). -/
def blockTokens (r : List Nat) : Nat := 128 / max 1 (attG r)

/-- Items of a launch (R246). -/
def itemCount (r table : List Nat) : Nat :=
  sumNat ((seqsOf r table).map (fun q =>
    r.getD 6 0 * (if r.getD 0 0 = 1 then divUp (fld q 0 2) (blockTokens r) else 1)))

/-- First token row and one past the last of all sequences.
Log entry: 78 (DEDUCED). -/
def rowSpan (r table : List Nat) : Nat × Nat :=
  let qs := seqsOf r table
  (qs.foldl (fun m q => min m (fld q 12 4)) (2 ^ 24), qs.foldl (fun m q => max m (fld q 12 4 + fld q 0 2)) 0)

/-- A range of device memory: base and length. -/
abbrev Range := Nat × Nat

/-- Whether two ranges share a byte. -/
def rangesMeet (a b : Range) : Bool := overlap a.1 a.2 b.1 b.2

/-- A tensor's range: `per` bytes a token row.
Log entry: 78 (DEDUCED). -/
def tensorRange (r table : List Nat) (base per : Nat) : Range :=
  let w := rowSpan r table
  (base + w.1 * per, (w.2 - w.1) * per)

/-- 0x0406 (R224); `at_` is the record's own address.
Log entry: 78 (DEDUCED). -/
def attentionOverlap (r table : List Nat) (at_ : Nat) : Bool :=
  let d := attD r
  let att := r.getD 0 0 == 1
  let qs := seqsOf r table
  let t := divUp (qs.foldl (fun m q => max m (fld q 4 4)) 0) 128
  let out : Range := if att then tensorRange r table (fld r 36 6) (r.getD 5 0 * d * (if r.getD 3 0 = 0 then 4 else 2)) else (0, 0)
  let src : Range := tensorRange r table (fld r 30 6) (r.getD 5 0 * d * (if att then 2 else 4))
  let trace : Range := (fld r 48 6, if bit (r.getD 10 0) 2 && att then itemCount r table * t * 33792 else 0)
  let stats : Range := (fld r 54 6, if fld r 54 6 = 0 then 0 else 64)
  let own : List Range := [(at_, 64), (fld r 24 6, 32 * fld r 12 2)]
  let rot : Range := (fld r 42 6, if bit (r.getD 10 0) 0 then fld r 20 4 * (d / 2) * 8 else 0)
  let masks : List Range := if bit (r.getD 9 0) 2 then
    qs.map (fun q => (fld q 22 6, divUp (fld q 0 2) (blockTokens r) * divUp (fld q 4 4) 128 * 2048)) else []
  let inputs := own ++ [rot] ++ masks ++ (if att then [src] else [])
  let outs : List Range := [out, trace, stats]
  rangesMeet out trace || rangesMeet out stats || rangesMeet trace stats
    || outs.any (fun o => inputs.any (rangesMeet o)) || (!att && own.any (rangesMeet src))

/-- The checks of an attention record and its sequence table in the order of R249, but for 0x0408. -/
def attentionStatus (r table : List Nat) (at_ : Nat) : Nat :=
  if attentionMalformed r then 0x0401
  else if attentionFormatBad r then 0x0402
  else if headsBad r then 0x0403
  else if (seqsOf r table).any (seqBad r) then 0x0404
  else if rotaryShort r table then 0x0405
  else if attentionOverlap r table at_ then 0x0406
  else 0

end Sys2Proof.Machine
end

