-- ==== Sys2Proof/Machine/Scale.lean ====
section
/-! DEFINITION. The Scale unit: QUANT in present and carried mode, scale blocks and side records (R137 to R160,
R167). -/

namespace Sys2Proof.Machine

open Reg

/-- Qmax of a target format. -/
def qmax (f : Nat) : Frac :=
  match f with
  | 7 => fracNat 32767
  | 8 => fracNat 127
  | 9 => fracNat 7
  | 3 => fracNat 448
  | 4 => fracNat 57344
  | 5 => fracNat 28
  | 6 => fracNat 6
  | _ => fracNat 1

/-- Whether a format may be a target of SCALE (R140). -/
def scaleTarget (f : Nat) : Bool := decide (3 ≤ f) && decide (f ≤ 11)

/-- What one SCALE execution works on: the fields of its word (R142), the record fields of R143, the source format and
the length of a row. -/
structure ScaleJob where
  target : Nat
  carried : Bool
  hist : Nat
  headroom : Nat
  tight : Bool
  rows : Nat
  rnd : Nat
  line : Nat
  fmt : Nat
  len : Nat
  srcLines : Nat
  dstLines : Nat
  deriving DecidableEq, Repr

/-- The job that a role's SCALE word names. -/
def scaleJob (r : Role) : ScaleJob :=
  let w := r.word
  let gs := r.agen (bits w 17 2)
  let gd := r.agen (bits w 15 2)
  let n := gs.counts.getD 0 1
  let len := n * 64 * 8 / storeBits gs.fmt
  { target := bits w 20 4, carried := bit w 19, hist := bits w 11 4 + 1, headroom := bits w 6 5, tight := bit w 5,
    rows := bits w 0 5 + 1, rnd := bits (gd.tail.getD 5 0) 0 2, line := bits (fld gd.tail 6 2) 0 12, fmt := gs.fmt,
    len := len, srcLines := n, dstLines := divUp (packedBytes (bits w 20 4) len) 64 }

/-- The scale block's two lines. -/
def scaleBlock (s : State) (brick line : Nat) : List Nat := bedBytes s brick (line * 64) 128

/-- The listed outlier channels of a scale block. -/
def listedOf (blk : List Nat) : List Nat := (List.range (min 16 (blk.getD 4 0))).map (fun i => fld blk (8 + 2 * i) 2)

/-- Whether a list is strictly ascending. -/
def strictly : List Nat → Bool
  | a :: b :: r => decide (a < b) && strictly (b :: r)
  | _ => true

/-- Whether a scale block is malformed for rows of a length (R146). -/
def scaleBlockBad (blk : List Nat) (len : Nat) : Bool :=
  decide (16 < blk.getD 4 0) || !strictly (listedOf blk) || (listedOf blk).any (fun c => decide (len ≤ c))
    || decide (16 < blk.getD 96 0) || decide (15 < blk.getD 97 0) || !zeroAt blk 5 3 || !zeroAt blk 40 24
    || !zeroAt blk 98 30

/-- Whether a row length is outside R141. -/
def rowLenBad (len : Nat) : Bool := decide (len < 32) || decide (16384 < len) || len % 32 != 0

/-- The element index of R167 for element i of row r of an execution. -/
def scaleRandom (x : Site) (rows r i : Nat) : Nat :=
  srBits x.launch.seed (i % 2 ^ 14 + x.idxBase + (x.role.earlier * rows + r) % 2 ^ 31 * 2 ^ 33)

/-- The row maximum (R150): the largest magnitude among finite elements that are not outlier channels. -/
def rowMax (listed : List Nat) (vals : List Val) : Frac :=
  ((List.range vals.length).zip vals).foldl (fun a e =>
    match e.2 with
    | .fin v => if !listed.contains e.1 ∧ a.lt { v with neg := false } then { v with neg := false } else a
    | _ => a) {}

/-- The code that an outlier channel's element takes (R152).
Log entry: 61 (DEDUCED). -/
def outlierCode (target : Nat) : Nat := match target with | 10 => 0x20 | 11 => 8 | _ => 0

/-- What a row converts to: codes, flags, scale, row_flags, the overflow list, and what its instance counts. -/
structure RowResult where
  codes : List Nat
  arith : Nat
  scale : Nat
  flags : Nat
  overs : List (Nat × Nat)
  reissued : Bool := false
  under : Bool := false
  lost : Bool := false
  seeded : Bool := false
  deriving DecidableEq, Repr

/-- Convert one element under a scale (R152).
Log entry: 61 (DEDUCED). -/
def scaleElem (x : Site) (j : ScaleJob) (row i scale : Nat) (v : Val) : Nat × Nat :=
  let q := match v with
    | .fin _ => divVal v (bf16Val scale)
    | _ => v
  convert j.target j.rnd (scaleRandom x j.rows row i) q

/-- Convert a row under a scale; elements of `overs` become markers (R152, R154). -/
def convertRow (x : Site) (j : ScaleJob) (row scale : Nat) (listed overs : List Nat) (vals : List Val) : List (Nat × Nat) :=
  ((List.range vals.length).zip vals).map (fun e =>
    if listed.contains e.1 ∨ overs.contains e.1 then (outlierCode j.target, if e.2.isNan then flagNan else 0)
    else scaleElem x j row e.1 scale e.2)

/-- Convert a row in present mode (R150 to R152).
Log entry: 62 (DEDUCED). -/
def rowPresent (x : Site) (j : ScaleJob) (row flags : Nat) (listed : List Nat) (vals : List Val) : RowResult :=
  let a := rowMax listed vals
  let s := if a.num = 0 then 0x3F80 else bf16Up (a.div (qmax j.target))
  let l := convertRow x j row s listed [] vals
  { codes := l.map (·.1), arith := l.foldl (fun f e => f ||| e.2) 0, scale := s, flags := flags, overs := [] }

/-- The BF16 history entries that a row consults, newest first from hist_next (R153). -/
def historyOf (blk : List Nat) (n : Nat) : List Nat :=
  (List.range (min n (blk.getD 96 0))).map (fun i => fld blk (64 + 2 * ((blk.getD 97 0 + 15 - i) % 16)) 2)

/-- H of R153: the largest of the entries by value, 0 where there is none; an entry that is not a number stands before
all others.
Log entry: 63 (DEDUCED). -/
def historyMax (blk : List Nat) (n : Nat) : Nat :=
  match historyOf blk n with
  | [] => 0
  | h :: rest => rest.foldl (fun m e =>
      if (bf16Val m).isNan then m else if (bf16Val e).isNan || ltVal (bf16Val m) (bf16Val e) then e else m) h

/-- The row scale of carried mode from H (R153): an infinite H gives the limit.
Log entry: 63 (DEDUCED). -/
def carriedScale (h headroom target : Nat) : Nat :=
  match bf16Val h with
  | .fin x => if x.neg then Config.oddScale h headroom target % 65536
      else bf16Up ((x.mul (fracOf (16 + headroom) 16)).div (qmax target))
  | .inf false => 0x7F7F
  | _ => Config.oddScale h headroom target % 65536

/-- Capacity of the overflow list of a target. -/
def overCap (f : Nat) : Nat := if isBell f then 4 else 0

/-- Convert a row in carried mode (R153 to R156).
Log entry: 63 (DEDUCED). -/
def rowCarried (x : Site) (j : ScaleJob) (row : Nat) (blk : List Nat) (vals : List Val) : RowResult :=
  let listed := listedOf blk
  let h := historyMax blk j.hist
  if h % 32768 = 0 then { rowPresent x j row 8 listed vals with seeded := true }
  else
    let s := carriedScale h j.headroom j.target
    let sv := fracF (s * 65536)
    let lim := sv.mul (qmax j.target)
    let overs := ((List.range vals.length).zip vals).filterMap (fun e =>
      match e.2 with
      | .fin v => if !listed.contains e.1 ∧ lim.lt { v with neg := false } then some e.1 else none
      | _ => none)
    if overCap j.target < overs.length then { rowPresent x j row 3 listed vals with reissued := true }
    else if (rowMax listed vals).lt (lim.div (fracNat 64)) then
      if j.tight then { rowPresent x j row 7 listed vals with under := true }
      else
        let l := convertRow x j row s listed overs vals
        { codes := l.map (·.1), arith := l.foldl (fun f e => f ||| e.2) 0, scale := s, flags := 5, overs := [],
          under := true, lost := true }
    else
      let l := convertRow x j row s listed overs vals
      { codes := l.map (·.1), arith := l.foldl (fun f e => f ||| e.2) 0, scale := s,
        flags := if overs.isEmpty then 1 else 17,
        overs := overs.map (fun i => (i, bf16 (vals.getD i .nan))) }

/-- The side record of a converted row (R147). -/
def sideLine (r : RowResult) (amax : Nat) (listed : List Nat) (vals : List Val) : List Nat :=
  let overs := (List.range 4).map (fun i =>
    match r.overs[i]? with | some e => leBytes 2 e.1 ++ leBytes 2 e.2 | none => [0xFF, 0xFF, 0, 0])
  let outs := (List.range 16).map (fun i =>
    match listed[i]? with | some c => leBytes 2 (bf16 (vals.getD c .nan)) | none => [0, 0])
  leBytes 2 r.scale ++ [r.overs.length, r.flags] ++ overs.flatten ++ leBytes 2 amax ++ List.replicate 10 0 ++ outs.flatten

/-- The flags of the BF16 conversions of a row's true values in its side record (R135, R152, R154). -/
def sideFlags (r : RowResult) (listed : List Nat) (vals : List Val) : Nat :=
  (r.overs.map (·.1) ++ listed).foldl (fun f i => f ||| (convert 1 0 0 (vals.getD i (.fin {}))).2) 0

/-- Push a row maximum into the history (R157). -/
def pushHistory (blk : List Nat) (amax : Nat) : List Nat :=
  let n := blk.getD 97 0
  let b1 := setAt (setAt blk (64 + 2 * n) (amax % 256)) (65 + 2 * n) (amax / 256)
  setAt (setAt b1 96 (min 16 (blk.getD 96 0 + 1))) 97 ((n + 1) % 16)

/-- Count a row's outcome on its instance (R159) and its Course (R160).
Log entry: 62 (DEDUCED). -/
def countRow (x : Site) (r : RowResult) (s : State) : State :=
  let at_ := atCourse x.inst.course 0x20
  let s1 := if r.reissued then incSat QNT_REISSUE_COUNT.reissues at_ 1 s else s
  let s2 := if r.under then incSat QNT_UNDERSCALE_COUNT.underscaled at_ 1 s1 else s1
  let s3 := if r.lost then incSat QNT_PRECISION_LOSS_COUNT.precision_loss at_ 1 s2 else s2
  let s4 := if r.overs.isEmpty then s3 else incSat QNT_OVERFLOW_ROWS.overflow_rows at_ 1 s3
  let s5 := if r.seeded then incSat QNT_SEEDED_ROWS.seeded at_ 1 s4 else s4
  modInst x.launch.id x.inst.course (fun i => { i with
    arith := i.arith ||| r.arith
    reissues := satTo (i.reissues + b2n r.reissued) 0xFFFF
    underscaled := satTo (i.underscaled + b2n r.under) 0xFFFF
    precision := satTo (i.precision + b2n r.lost) 0xFFFF }) s5

/-- The source lines, destination lines and side record line of row r of an execution; a side_base, a tensor row and a
row_cursor beyond their ranges wrap.
Log entry: 83 (DEDUCED). -/
def rowLines (x : Site) (j : ScaleJob) (blk : List Nat) (r : Nat) : List Int × List Int × Int :=
  let gs := x.role.agen (bits x.role.word 17 2)
  let r1 := x.role.modAgen (bits x.role.word 17 2) (fun g => g.skip (j.rows * j.srcLines))
  let gd := r1.agen (bits x.role.word 15 2)
  ((gs.skip (r * j.srcLines)).take j.srcLines, (gd.skip (r * j.dstLines)).take j.dstLines,
    ((fld blk 0 2 % 4096 + (fld blk 2 2 + r) % 65536 : Nat) : Int))

/-- The lines of a row's destination that its codes touch overlap its source, the scale block or its side record
(R149).
Log entry: 83 (DEDUCED). -/
def rowOverlaps (j : ScaleJob) (l : List Int × List Int × Int) : Bool :=
  l.2.1.any (fun d => l.1.contains d || d == (j.line : Int) || d == (j.line : Int) + 1 || d == l.2.2)

/-- Convert row r of an execution; the second part is the scale block with its history, and `some` status where the row
stops the instance.
Log entries: 62 (DEDUCED), 83 (DEDUCED). -/
def scaleRow (x : Site) (j : ScaleJob) (a : State × List Nat × Option (Nat × Nat)) (r : Nat) :
    State × List Nat × Option (Nat × Nat) :=
  let s := a.1
  let blk := a.2.1
  match a.2.2 with
  | some _ => a
  | none =>
    let l := rowLines x j blk r
    let brick := x.role.brick
    if !linesOk x.launch.image (l.2.2 :: (l.1 ++ l.2.1)) then (s, blk, some (0x0113, 0))
    else if rowOverlaps j l then (s, blk, some (0x0292, (fld blk 2 2 + r) % 65536))
    else
      let vals := (unpack j.fmt (runBytes s brick l.1 0 (j.srcLines * 64)) j.len).map (decodeElem j.fmt)
      let res := if j.carried then rowCarried x j r blk vals else rowPresent x j r 0 (listedOf blk) vals
      let amax := bf16Ceil (rowMax (listedOf blk) vals)
      let s1 := wrRun brick l.2.1 0 (pack j.target res.codes) s
      let s2 := wrBed brick (l.2.2.toNat * 64) (sideLine res amax (listedOf blk) vals) s1
      (countRow x { res with arith := res.arith ||| sideFlags res (listedOf blk) vals } s2,
        if j.carried then pushHistory blk amax else blk, none)

/-- The effect of QUANT (R153): the checks of R146 and R141 first, then row by row; the cursor and the history go back
to the scale block at the end (R148).
Log entry: 83 (DEDUCED). -/
def quantRun (x : Site) (s : State) : State :=
  let j := scaleJob x.role
  let brick := x.role.brick
  if !bedBytesOk x.launch.image (j.line * 64) 128 then boundsFault x s
  else
    let blk := scaleBlock s brick j.line
    if scaleBlockBad blk j.len then brickFault x 0x0290 (leBytes 2 j.line) true s
    else if rowLenBad j.len then brickFault x 0x0291 (leBytes 2 j.len) true s
    else
      let a := (List.range j.rows).foldl (scaleRow x j) (s, blk, none)
      match a.2.2 with
      | some (st, p) => brickFault x st (if st = 0x0113 then [] else leBytes 2 p) true a.1
      | none =>
        let cur := leBytes 2 (fld blk 2 2 + j.rows)
        let blk' := slice a.2.1 0 2 ++ cur ++ a.2.1.drop 4
        let gs := bits x.role.word 17 2
        let gd := bits x.role.word 15 2
        goOn x (setRole x (fun r => (r.modAgen gs (fun g => g.skip (j.rows * j.srcLines))).modAgen gd
          (fun g => g.skip (j.rows * j.dstLines))) (wrBed brick (j.line * 64) blk' a.1))

/-- QUANT (R153). -/
def execQuant (brick : Nat) (upset : Upset) (s : State) : Host.Outcome State Fault Refusal :=
  .next (match issuing s brick opQuant with
    | none => s
    | some x => withUpset x upset (quantRun x) s)

end Sys2Proof.Machine
end

