-- ==== Sys2Proof/Machine/Attention.lean ====
section
/-! DEFINITION. What an attention Bond brings out, item by item (R225 to R230, R234 to R247): its reads of queries,
pages, scale blocks, rotary entries and bitmasks, the tile pass and the merge, its outputs, trace records and
statistics line, and the append of new keys and values. -/

namespace Sys2Proof.Machine

/-! ## Device memory as an instance's MOVEs reach it -/

/-- What an access of an instance ended in: a run-time status with its payload, or none. -/
abbrev MoveStop := Option (Nat × List Nat)

/-- What a refused or failed access of device memory stops its instance with (R68, R364, R412). -/
def accessStop (s : State) (a st : Nat) : MoveStop :=
  if st = 0 then none
  else if st = 0x0810 then some (0x0810, [stackIdx s a + 1])
  else if st / 256 = 7 then some (st, leBytes 6 (a / 64 * 64))
  else some (0x0113, [])

/-- Read bytes of one line for an instance. -/
def partRead (x : Site) (a n : Nat) (s : State) : MoveStop × List Nat × State :=
  if !rangeInPartition s x.launch.ctx a n false then (some (0x0113, []), [], s)
  else
    let r := readMem x.inst.course x.launch.ctx a n [(x.launch.id, 0x0711, x.inst.course)] s
    (accessStop s a r.1, if r.1 = 0 then r.2.1 else [], r.2.2)

/-- Write bytes of one line for an instance. -/
def partWrite (x : Site) (a : Nat) (data : List Nat) (s : State) : MoveStop × State :=
  if !rangeInPartition s x.launch.ctx a data.length true then (some (0x0113, []), s)
  else
    let r := writeMem x.inst.course x.launch.ctx a data s
    (accessStop s a r.1, r.2)

/-- Work under way for an instance: the state, what stopped it, and the flags of its arithmetic (R135). -/
structure AttRun where
  s : State
  stop : MoveStop := none
  arith : Nat := 0

/-- Read n bytes line by line, unless the work has stopped. -/
def AttRun.read (x : Site) (a n : Nat) (m : AttRun) : List Nat × AttRun :=
  (lineAddrs a n).foldl (fun (q : List Nat × AttRun) l =>
    if q.2.stop.isSome then q
    else
      let b := max a l
      let r := partRead x b (min (a + n) (l + 64) - b) q.2.s
      (q.1 ++ r.2.1, { q.2 with s := r.2.2, stop := r.1 })) ([], m)

/-- Write bytes line by line, unless the work has stopped. -/
def AttRun.write (x : Site) (a : Nat) (data : List Nat) (m : AttRun) : AttRun :=
  (lineAddrs a data.length).foldl (fun (m : AttRun) l =>
    if m.stop.isSome then m
    else
      let p := linePart a data l
      let r := partWrite x p.1 p.2 m.s
      { m with s := r.2, stop := r.1 }) m

/-- Do one piece of work for each of a list, in order. -/
def attEach {α β : Type} (f : α → AttRun → β × AttRun) : List α → AttRun → List β × AttRun
  | [], m => ([], m)
  | a :: r, m =>
    let p := f a m
    let q := attEach f r p.2
    (p.1 :: q.1, q.2)

/-- Note arithmetic flags. -/
def AttRun.flag (fl : Nat) (m : AttRun) : AttRun := { m with arith := m.arith ||| fl }

/-! ## Items (R236, R246) -/

/-- One item: a sequence, a key-value head and a query block. -/
structure AttItem where
  seq : Nat
  head : Nat
  block : Nat
  deriving DecidableEq, Repr

/-- The items of a launch in the order of their numbers (R246); for op 2 each sequence and head is one. -/
def attItems (r table : List Nat) : List AttItem :=
  ((List.range (fld r 12 2)).map (fun i =>
    let blocks := if r.getD 0 0 = 1 then divUp (fld table (32 * i) 2) (blockTokens r) else 1
    ((List.range (r.getD 6 0)).map (fun h => (List.range blocks).map (fun b => AttItem.mk i h b))).flatten)).flatten

/-- The sequence record of a sequence of an instance's launch (R221). -/
def seqRecord (x : Site) (i : Nat) : List Nat := slice x.inst.table (32 * i) 32

/-- Whether a launch is an attention launch. -/
def Launch.attends (l : Launch) : Bool := bit (l.raw.getD 1 0) 5

/-- Whether item w is one of an instance's: instance b of n takes items b, b + n, b + 2n and so on (R246). -/
def ownsItem (x : Site) (w : Nat) : Bool :=
  x.launch.attends && decide (w < itemCount x.inst.record x.inst.table)
    && decide (w % x.launch.insts.length = x.launch.indexOf x.inst.course)

/-- The item of a number. -/
def itemOf (x : Site) (w : Nat) : AttItem := (attItems x.inst.record x.inst.table).getD w ⟨0, 0, 0⟩

/-- The query rows of an item: the token of its sequence and the query head of each, head by head within a token. -/
def itemRows (r q : List Nat) (it : AttItem) : List (Nat × Nat) :=
  let first := it.block * blockTokens r
  (List.range (min (blockTokens r) (fld q 0 2 - first) * attG r)).map (fun i =>
    (first + i / max 1 (attG r), it.head * attG r + i % max 1 (attG r)))

/-! ## Pages (R225 to R228) -/

/-- Whether an attention launch has the sequence, the key-value head and a page of valid tokens named (R230).
Log entry: 82 (DEDUCED). -/
def pageNamed (x : Site) (i h p : Nat) : Bool :=
  x.launch.attends && decide (i < fld x.inst.record 12 2) && decide (h < x.inst.record.getD 6 0)
    && decide (256 * p < fld (seqRecord x i) 4 4)

/-- The address of a page list entry (R226).
Log entry: 82 (DEDUCED). -/
def pageEntry (x : Site) (i h p : Nat) : Nat :=
  fld (seqRecord x i) 16 6
    + ((x.inst.record.getD 7 0 * x.inst.record.getD 6 0 + h) * fld (seqRecord x i) 2 2 + p) * 16

/-- The page and the scale block that an entry names (R225, R226), each at a multiple of its own size. -/
def entryBases (d : Nat) (e : List Nat) : Nat × Nat :=
  (fld e 0 8 / (512 * d) * (512 * d), fld e 8 8 / 1024 * 1024)

/-- What an entry of a page list stops its Bond with (R228): 0x0410 where the page is not present, 0x0113 where the page
or its scale block lies outside the context's partition.
Log entry: 82 (DEDUCED). -/
def entryStop (x : Site) (i h p : Nat) (e : List Nat) (s : State) : MoveStop :=
  let b := entryBases (attD x.inst.record) e
  if fld e 0 8 % 2 = 0 then some (0x0410, [i, x.inst.record.getD 7 0, h, p])
  else if !rangeInPartition s x.launch.ctx b.1 (512 * attD x.inst.record) false
    || !rangeInPartition s x.launch.ctx b.2 1024 false then some (0x0113, [])
  else none

/-- Read the entry of a page that an attention Bond needs: its page and scale block (R68, R226, R228).
Log entry: 82 (DEDUCED). -/
def needPage (x : Site) (i h p : Nat) (m : AttRun) : (Nat × Nat) × AttRun :=
  let e := m.read x (pageEntry x i h p) 16
  (entryBases (attD x.inst.record) e.1,
    if e.2.stop.isSome then e.2 else { e.2 with stop := entryStop x i h p e.1 e.2.s })

/-- The address of the key (kind 0) or the value (kind 1) of token slot j in a page (R225). -/
def slotAt (d page kind j : Nat) : Nat := page + kind * (256 * d) + j * d

/-- The address of the scale of the key or the value of slot j in a scale block (R227). -/
def scaleAt (block kind j : Nat) : Nat := block + kind * 512 + 2 * j

/-! ## Rounded operations (R122) -/

/-- One Lane-unit operation: its operands as FP32 words, and its exact result rounded once to nearest even, with the
flags of R135. -/
def laneOp (ops : List Nat) (exact : Val) : Nat × Nat :=
  let z := f32 0 0 exact
  (z.1, resultFlags (ops.map f32Val) exact z)

/-- Sum of two words. -/
def attAdd (a b : Nat) : Nat × Nat := laneOp [a, b] (addVal (f32Val a) (f32Val b))
/-- Difference of two words. -/
def attSub (a b : Nat) : Nat × Nat := laneOp [a, b] (addVal (f32Val a) (negVal (f32Val b)))
/-- Product of two words. -/
def attMul (a b : Nat) : Nat × Nat := laneOp [a, b] (mulVal (f32Val a) (f32Val b))
/-- Larger of two words. -/
def attMax (a b : Nat) : Nat × Nat := laneOp [a, b] (maxVal (f32Val a) (f32Val b))
/-- e to the power of a word. -/
def attExp (a : Nat) : Nat × Nat := laneOp [a] (expVal (f32Val a))
/-- Reciprocal of a word. -/
def attRecip (a : Nat) : Nat × Nat := laneOp [a] (recipVal (f32Val a))

/-- The FP32 word of −∞. -/
def minusInf : Nat := 0xFF800000

/-- exp((x − m) × tau) in three operations (R239, R240). -/
def expScaled (tau x m : Nat) : Nat × Nat :=
  let a := attSub x m
  let b := attMul a.1 tau
  let c := attExp b.1
  (c.1, a.2 ||| b.2 ||| c.2)

/-- The reduction of 128 words: each half of 64 by R124, then one further operation (R239); function 0 is the sum and 1
the maximum. -/
def reduceHalves (fn : Nat) (l : List Nat) : Nat × Nat :=
  let a := reduceVec fn 0 0 0 ((l.take 64).map f32Val)
  let b := reduceVec fn 0 0 0 ((l.drop 64).map f32Val)
  let z := f32 0 0 (reduceVal fn a.1 b.1)
  (z.1, a.2 ||| b.2 ||| resultFlags [a.1, b.1] (reduceVal fn a.1 b.1) z)

/-! ## Operands (R234, R235) -/

/-- A rotary entry: the words of its cosine and sine (R236). -/
def rotPair (l : List Nat) (i : Nat) : Nat × Nat := (fld l (8 * i) 4, fld l (8 * i + 4) 4)

/-- One element of a row after rotation (R235): the pairs are (2i, 2i + 1) where `inter`, else (i, i + D/2). -/
def rotElem (inter : Bool) (row rot : List Nat) (d : Nat) : Nat :=
  let half := row.length / 2
  let i := if inter then d / 2 else d % half
  let xa := row.getD (if inter then 2 * i else i) 0
  let xb := row.getD (if inter then 2 * i + 1 else i + half) 0
  let c := rotPair rot i
  if d = (if inter then 2 * i else i) then subF (mulF xa c.1) (mulF xb c.2) else addF (mulF xa c.2) (mulF xb c.1)

/-- The BF16 codes of a row of FP32 words, rotated where a rotary entry list is given (R235). -/
def bf16Row (inter : Bool) (rot : Option (List Nat)) (row : List Nat) : List Nat × Nat :=
  let y := match rot with
    | some l => (List.range row.length).map (rotElem inter row l)
    | none => row
  let z := y.map (fun w => convert 1 0 0 (f32Val w))
  (z.map (·.1), z.foldl (fun f e => f ||| e.2) 0)

/-- A cached row's elements under its scale (R234): a marker reads as +0. -/
def scaledRow (fmt scale : Nat) (codes : List Nat) : List Nat × Nat :=
  let z := codes.map (fun c =>
    match decodeElem fmt c with
    | .marker => (0, flagMarkerLost)
    | v => attMul (rne v) (rne (bf16Val scale)))
  (z.map (·.1), z.foldl (fun f e => f ||| e.2) 0)

/-- A product of BF16 rows in the MAC array: blocks of 32 in ascending order (R116, R117, R237). -/
def dotRow (a b : List Nat) : Nat × Nat :=
  (List.range (a.length / 32)).foldl (fun w n =>
    let z := foldWord 1 1 (slice a (32 * n) 32) (slice b (32 * n) 32) w.1
    (z.1, w.2 ||| z.2)) (0, 0)

/-! ## Masks (R238, R242) -/

/-- Whether the causal and window masks allow token t for a query at position q (R238). -/
def geometryAllows (r : List Nat) (q t : Nat) : Bool :=
  (!bit (r.getD 9 0) 0 || decide (t ≤ q)) && (!bit (r.getD 9 0) 1 || (decide (q < t + fld r 14 2) && decide (t ≤ q)))

/-- Whether slot j of key tile k is allowed for row i of an item at position q (R238); `mask` is the tile's bitmask. -/
def slotAllowed (r seq mask : List Nat) (q k i j : Nat) : Bool :=
  let t := 128 * k + j
  decide (t < fld seq 4 4) && geometryAllows r q t
    && (!bit (r.getD 9 0) 2 || bit (mask.getD ((i * 128 + j) / 8) 0) ((i * 128 + j) % 8))

/-- Whether the causal and window masks leave some row of an item a token of key tile k (R242). -/
def geometryReaches (r seq : List Nat) (rows : List (Nat × Nat)) (k : Nat) : Bool :=
  rows.any (fun e => (List.range 128).any (fun j =>
    decide (128 * k + j < fld seq 4 4) && geometryAllows r (fld seq 8 4 + e.1) (128 * k + j)))

/-- Key tiles of a sequence. -/
def keyTiles (seq : List Nat) : Nat := divUp (fld seq 4 4) 128

/-- The address of the bitmask tile of a query block and a key tile (R238). -/
def maskAt (seq : List Nat) (block k : Nat) : Nat := fld seq 22 6 + (block * keyTiles seq + k) * 2048

/-! ## The tile pass and the merge (R239 to R241) -/

/-- A row of a normalised tile: its BF16 codes, m_t and l_t, and the flags of its operations. -/
structure TileRow where
  p : List Nat
  m : Nat
  l : Nat
  arith : Nat

/-- The Lane pass over one row of 128 scores (R239). -/
def tileRow (tau : Nat) (x : List Nat) (ok : List Bool) : TileRow :=
  let y := (x.zip ok).map (fun e => if e.2 then e.1 else minusInf)
  let m := reduceHalves 1 y
  if m.1 = minusInf then ⟨List.replicate 128 0, minusInf, 0, m.2⟩
  else
    let e := y.map (fun w => expScaled tau w m.1)
    let l := reduceHalves 0 (e.map (·.1))
    let r := attRecip l.1
    let p := e.map (fun w =>
      let v := attMul w.1 r.1
      let c := convert 1 0 0 (f32Val v.1)
      (c.1, w.2 ||| v.2 ||| c.2))
    ⟨p.map (·.1), m.1, l.1, p.foldl (fun f w => f ||| w.2) (m.2 ||| l.2 ||| r.2)⟩

/-- The running state of a query row (R240). -/
structure RunRow where
  m : Nat := minusInf
  l : Nat := 0
  o : List Nat
  arith : Nat := 0

/-- Merge a tile's value product into a row (R240). -/
def mergeRow (tau : Nat) (t : TileRow) (ot : List Nat) (x : RunRow) : RunRow :=
  if t.m = minusInf then x
  else
    let m := attMax x.m t.m
    let a := if x.m = minusInf then (0, 0) else expScaled tau x.m m.1
    let e := expScaled tau t.m m.1
    let w := attMul t.l e.1
    let o := (x.o.zip ot).map (fun q =>
      let u := attMul q.1 a.1
      let v := attMul q.2 w.1
      let z := attAdd u.1 v.1
      (z.1, u.2 ||| v.2 ||| z.2))
    let u := attMul x.l a.1
    let l := attAdd u.1 w.1
    { m := m.1, l := l.1, o := o.map (·.1),
      arith := o.foldl (fun f q => f ||| q.2) (x.arith ||| m.2 ||| a.2 ||| e.2 ||| w.2 ||| u.2 ||| l.2) }

/-- A row's output codes in out_fmt (R241); a row whose l_run is 0 is +0. -/
def outputRow (fmt : Nat) (x : RunRow) : List Nat × Nat :=
  if x.l % 2 ^ 31 = 0 then (x.o.map (fun _ => 0), 0)
  else
    let r := attRecip x.l
    let z := x.o.map (fun w =>
      let v := attMul w r.1
      let c := convert fmt 0 0 (f32Val v.1)
      (c.1, v.2 ||| c.2))
    (z.map (·.1), z.foldl (fun f e => f ||| e.2) r.2)

/-- The trace record of a computed tile (R244): 128 BF16 rows, then 128 pairs (m_t, l_t). Rows that no query of the item
takes are free values. -/
def traceRecord (spare : Nat → Nat) (rows : List TileRow) : List Nat :=
  let p := (List.range 128).map (fun i =>
    match rows[i]? with
    | some t => (t.p.map (leBytes 2)).flatten
    | none => (List.range 256).map (fun b => spare (256 * i + b) % 256))
  let ml := (List.range 128).map (fun i =>
    match rows[i]? with
    | some t => leBytes 4 t.m ++ leBytes 4 t.l
    | none => (List.range 8).map (fun b => spare (32768 + 8 * i + b) % 256))
  p.flatten ++ ml.flatten

/-! ## One key tile -/

/-- A key tile as it reaches the array: the BF16 codes of its keys and values, slot by slot. -/
structure KeyTile where
  keys : List (List Nat)
  values : List (List Nat)

/-- Rows of D codes and their scales in bytes read together. -/
def splitRows (d n : Nat) (codes scales : List Nat) : List (List Nat × Nat) :=
  (List.range n).map (fun j => (slice codes (d * j) d, fld scales (2 * j) 2))

/-- The rotary entries of a position, where the launch rotates (R236). -/
def rotRead (x : Site) (p : Nat) (m : AttRun) : Option (List Nat) × AttRun :=
  let r := x.inst.record
  if bit (r.getD 10 0) 0 then
    let q := m.read x (fld r 42 6 + p * (attD r / 2) * 8) (4 * attD r)
    (some q.1, q.2)
  else (none, m)

/-- Read the keys, values and scales of the valid slots of a key tile (R226, R227, R230) and form its operands (R234,
R235); a slot at or beyond kv_len has +0 for its value. -/
def readTile (x : Site) (it : AttItem) (k : Nat) (m : AttRun) : KeyTile × AttRun :=
  let r := x.inst.record
  let d := attD r
  let n := min 128 (fld (seqRecord x it.seq) 4 4 - 128 * k)
  let j := k % 2 * 128
  let e := needPage x it.seq it.head (k / 2) m
  let kc := e.2.read x (slotAt d e.1.1 0 j) (n * d)
  let ks := kc.2.read x (scaleAt e.1.2 0 j) (2 * n)
  let vc := ks.2.read x (slotAt d e.1.1 1 j) (n * d)
  let vs := vc.2.read x (scaleAt e.1.2 1 j) (2 * n)
  let rot := attEach (fun i => rotRead x (128 * k + i)) (List.range n) vs.2
  let keys := ((splitRows d n kc.1 ks.1).zip rot.1).map (fun q =>
    let w := scaledRow (r.getD 2 0) q.1.2 q.1.1
    let b := bf16Row (bit (r.getD 10 0) 1) q.2 w.1
    (b.1, w.2 ||| b.2))
  let vals := (splitRows d n vc.1 vs.1).map (fun q =>
    let w := scaledRow (r.getD 2 0) q.2 q.1
    let b := bf16Row false none w.1
    (b.1, w.2 ||| b.2))
  let zero := List.replicate (128 - n) (List.replicate d 0)
  (⟨keys.map (·.1) ++ zero, vals.map (·.1) ++ zero⟩, rot.2.flag ((keys ++ vals).foldl (fun f q => f ||| q.2) 0))

/-- The rows of a computed tile (R237 to R239): scores in the MAC array, then the Lane pass. -/
def tileRows (x : Site) (it : AttItem) (k : Nat) (mask : List Nat) (queries : List (List Nat)) (rows : List (Nat × Nat))
    (t : KeyTile) : List TileRow :=
  let r := x.inst.record
  let seq := seqRecord x it.seq
  ((List.range rows.length).zip (rows.zip queries)).map (fun e =>
    let sc := t.keys.map (dotRow e.2.2)
    let y := tileRow (fld r 16 4) (sc.map (·.1))
      ((List.range 128).map (slotAllowed r seq mask (fld seq 8 4 + e.2.1.1) k e.1))
    { y with arith := sc.foldl (fun f w => f ||| w.2) y.arith })

/-- What the tiles of an item have come to: its running rows, and the tiles computed and skipped. -/
structure ItemSum where
  rows : List RunRow
  computed : Nat := 0
  skipped : Nat := 0

/-- Compute key tile k into an item's rows, and trace it (R239, R240, R244). -/
def computeTile (x : Site) (w : Nat) (it : AttItem) (queries : List (List Nat)) (rows : List (Nat × Nat)) (mask : List Nat)
    (k : Nat) (m : AttRun) (sum : ItemSum) : ItemSum × AttRun :=
  let r := x.inst.record
  let seq := seqRecord x it.seq
  let t := readTile x it k m
  let ts := tileRows x it k mask queries rows t.1
  let prod := ts.map (fun y => (List.range (attD r)).map (fun d => dotRow y.p (t.1.values.map (fun v => v.getD d 0))))
  let new := (sum.rows.zip (ts.zip prod)).map (fun e => mergeRow (fld r 16 4) e.2.1 (e.2.2.map (·.1)) e.1)
  let slots := divUp ((seqsOf r x.inst.table).foldl (fun n q => max n (fld q 4 4)) 0) 128
  let m1 := t.2.flag (prod.foldl (fun f e => e.foldl (fun f q => f ||| q.2) f) (ts.foldl (fun f y => f ||| y.arith) 0))
  ({ sum with rows := new, computed := sum.computed + 1 },
    if bit (r.getD 10 0) 2 ∧ m1.stop.isNone then
      m1.write x (fld r 48 6 + (w * slots + k) * 33792) (traceRecord (Config.traceSpare r seq it.block k) ts)
    else m1)

/-- Key tile k of an item: skipped where no row may use it (R242), else computed. -/
def itemTile (x : Site) (w : Nat) (it : AttItem) (queries : List (List Nat)) (rows : List (Nat × Nat))
    (q : ItemSum × AttRun) (k : Nat) : ItemSum × AttRun :=
  let r := x.inst.record
  let seq := seqRecord x it.seq
  if q.2.stop.isSome then q
  else if !geometryReaches r seq rows k then ({ q.1 with skipped := q.1.skipped + 1 }, q.2)
  else
    let mk := if bit (r.getD 9 0) 2 then q.2.read x (maskAt seq it.block k) 2048 else ([], q.2)
    if mk.2.stop.isNone ∧ bit (r.getD 9 0) 2 ∧ mk.1.all (· == 0) then ({ q.1 with skipped := q.1.skipped + 1 }, mk.2)
    else computeTile x w it queries rows mk.1 k mk.2 q.1

/-! ## Whole items -/

/-- The query row of a token and a head, as BF16 codes (R235). -/
def queryRow (x : Site) (seq : List Nat) (e : Nat × Nat) (m : AttRun) : List Nat × AttRun :=
  let r := x.inst.record
  let d := attD r
  let b := m.read x (fld r 30 6 + ((fld seq 12 4 + e.1) * r.getD 5 0 + e.2) * d * 2) (2 * d)
  let rot := rotRead x (fld seq 8 4 + e.1) b.2
  let q := bf16Row (bit (r.getD 10 0) 1) rot.1 ((unpack (r.getD 1 0) b.1 d).map (fun c => rne (decodeElem (r.getD 1 0) c)))
  (q.1, rot.2.flag q.2)

/-- Write the output row of a token and a head (R241). -/
def putOutput (x : Site) (seq : List Nat) (m : AttRun) (e : (Nat × Nat) × (List Nat × Nat)) : AttRun :=
  let r := x.inst.record
  let f := r.getD 3 0
  (m.flag e.2.2).write x (fld r 36 6 + ((fld seq 12 4 + e.1.1) * r.getD 5 0 + e.1.2) * attD r * (storeBits f / 8))
    (pack f e.2.1)

/-- What an item adds to its launch's statistics (R245). -/
def itemStats (fmt : Nat) (sum : ItemSum) (outs : List (List Nat × Nat)) (a : AttStats) : AttStats :=
  { a with computed := a.computed + sum.computed
           skipped := a.skipped + sum.skipped
           empty := a.empty + countIf sum.rows (fun y => y.l % 2 ^ 31 == 0)
           nan := a.nan + countIf outs (fun o => o.1.any (fun c => (decodeElem fmt c).isNan)) }

/-- Attend from the queries of an item to its sequence's cached keys and values (R236 to R242).
Log entry: 82 (DEDUCED). -/
def attendItem (x : Site) (w : Nat) (m : AttRun) (a : AttStats) : AttStats × AttRun :=
  let r := x.inst.record
  let it := itemOf x w
  let seq := seqRecord x it.seq
  let rows := itemRows r seq it
  let qs := attEach (queryRow x seq) rows m
  let z := (List.range (keyTiles seq)).foldl (itemTile x w it qs.1 rows)
    ({ rows := rows.map (fun _ => { o := List.replicate (attD r) 0 }) }, qs.2)
  let outs := z.1.rows.map (outputRow (r.getD 3 0))
  let m1 := z.2.flag (z.1.rows.foldl (fun f y => f ||| y.arith) 0)
  if m1.stop.isSome then (a, m1)
  else (itemStats (r.getD 3 0) z.1 outs a, (rows.zip outs).foldl (putOutput x seq) m1)

/-- Append the key (kind 0) or the value (kind 1) of a token: its D codes, then its scale (R229). -/
def appendRow (x : Site) (it : AttItem) (m : AttRun) (e : Nat × Nat) : AttRun :=
  let r := x.inst.record
  let d := attD r
  let seq := seqRecord x it.seq
  let t := fld seq 8 4 + e.1
  let p := needPage x it.seq it.head (t / 256) m
  let b := p.2.read x (fld r 30 6 + (((fld seq 12 4 + e.1) * r.getD 6 0 + it.head) * 2 + e.2) * d * 2) (2 * d)
  let j : ScaleJob := ⟨r.getD 2 0, false, 1, 0, false, 1, 0, 0, r.getD 1 0, d, 0, 0⟩
  let res := rowPresent x j 0 0 [] ((unpack (r.getD 1 0) b.1 d).map (decodeElem (r.getD 1 0)))
  ((b.2.flag res.arith).write x (slotAt d p.1.1 e.2 (t % 256)) (pack (r.getD 2 0) res.codes)).write x
    (scaleAt p.1.2 e.2 (t % 256)) (leBytes 2 res.scale)

/-- Append the new keys and values of an item: one sequence and one key-value head (R229, R246).
Log entry: 82 (DEDUCED). -/
def appendItem (x : Site) (w : Nat) (m : AttRun) : AttRun :=
  let it := itemOf x w
  ((List.range (fld (seqRecord x it.seq) 0 2)).map (fun r => [(r, 0), (r, 1)])).flatten.foldl (appendRow x it) m

/-- The statistics line (R245). -/
def statsLine (a : AttStats) : List Nat :=
  leBytes 4 a.computed ++ leBytes 4 a.skipped ++ leBytes 4 a.empty ++ leBytes 4 a.nan ++ List.replicate 48 0

/-- The work of item w up to its launch's statistics line (R236 to R246). -/
def itemWork (x : Site) (w : Nat) (s : State) : AttStats × AttRun :=
  if x.inst.record.getD 0 0 = 1 then attendItem x w { s := s } x.launch.stats
  else (x.launch.stats, appendItem x w { s := s })

/-- Do the work of item w of an instance (R236 to R247): after the last item of its launch the statistics line is written
(R245). -/
def doItem (x : Site) (w : Nat) (s : State) : MoveStop × State :=
  let r := x.inst.record
  let z := itemWork x w s
  let a := { z.1 with done := w :: z.1.done }
  let last := decide (itemCount r x.inst.table ≤ a.done.length)
  let m := if last ∧ fld r 54 6 ≠ 0 then z.2.write x (fld r 54 6) (statsLine a) else z.2
  (m.stop, noteArith x m.arith (if m.stop.isSome then m.s else modLaunch x.launch.id (fun l => { l with stats := a }) m.s))

/-- Whether an instance may now bring out item w: it is its own, and is not done. -/
def itemDue (x : Site) (w : Nat) : Bool := ownsItem x w && !x.launch.stats.done.contains w

end Sys2Proof.Machine
end

