-- ==== Sys2Proof/Machine/Move.lean ====
section
/-! DEFINITION. The MOVE instructions COPY and COPYG with the Grout checks of COPYG and GROUTCHK (R48, R65, R68, R538 to
R546, R777). -/

namespace Sys2Proof.Machine

open Reg

/-! ## Grout -/

/-- The check value of a 4 KiB block under its block number (R538). -/
def groutValue (data : List Nat) (number : Nat) : Nat := crc32c (data ++ leBytes 4 number)

/-- The table index of the device block at an address in a context's window (R539), none outside it. -/
def groutIndex (s : State) (ctx a : Nat) : Option Nat :=
  let lo := com s FAB_GROUT_LO.grout_lo (ctx * 0x80)
  if lo ≤ a ∧ a < lo + 4096 * com s FAB_GROUT_SPAN.grout_span (ctx * 0x80) then some ((a - lo) / 4096) else none

/-- The address of a table entry. -/
def groutEntry (s : State) (ctx i : Nat) : Nat := com s FAB_GROUT_TABLE.grout_table (ctx * 0x80) + 4 * i

/-- Write a check value to a table entry by a port acting for a context: the write's status, and the state. -/
def groutWrite (port ctx i v : Nat) (s : State) : Nat × State := writeMem port ctx (groutEntry s ctx i) (leBytes 4 v) s

/-- Count a Grout mismatch of a context's reader (R546). -/
def groutCount (ctx : Nat) (s : State) : State := incWrap FAB_HEALTH_GROUT.grout_mismatch (ctx * 0x80) 1 s

/-! ## One line of a MOVE -/

/-- Read one line on the source side of a MOVE. -/
def moveRead (x : Site) (kind dir : Nat) (a : Int) (s : State) : MoveStop × List Nat × State :=
  let img := x.launch.image
  match kind with
  | 0 => if bedLineOk img a then (none, bedBytes s x.role.brick (a.toNat * 64) 64, s) else (some (0x0113, []), [], s)
  | 1 =>
    match hodPlace s img x.launch.ctx x.inst.course a with
    | some (c, b) => (none, hodBytes s c b 64, s)
    | none => (some (0x0113, []), [], s)
  | 2 =>
    match neighbourBrick x dir with
    | some n => if bedLineOk img a then (none, bedBytes s n (a.toNat * 64) 64, s) else (some (0x0113, []), [], s)
    | none => (some (0x0113, []), [], s)
  | _ =>
    if a < 0 then (some (0x0113, []), [], s) else partRead x (a.toNat * 64) 64 s

/-- Write one line on the destination side of a MOVE. -/
def moveWrite (x : Site) (kind dir : Nat) (a : Int) (data : List Nat) (s : State) : MoveStop × State :=
  let img := x.launch.image
  match kind with
  | 0 => if bedLineOk img a then (none, wrBed x.role.brick (a.toNat * 64) data s) else (some (0x0113, []), s)
  | 1 =>
    match hodPlace s img x.launch.ctx x.inst.course a with
    | some (c, b) => (none, wrHod c b data s)
    | none => (some (0x0113, []), s)
  | 2 =>
    match neighbourBrick x dir with
    | some n => if bedLineOk img a then (none, wrBed n (a.toNat * 64) data s) else (some (0x0113, []), s)
    | none => (some (0x0113, []), s)
  | _ =>
    if a < 0 then (some (0x0113, []), s) else partWrite x (a.toNat * 64) data s

/-! ## The whole instruction -/

/-- A MOVE in progress: the state, the bytes of the source and destination blocks under way with the address of each
block's first line and the lines so far, the destination blocks written, the blocks checked, the mismatch and whether its
block was read whole, and what stopped it. -/
structure MoveRun where
  s : State
  src : List Nat := []
  srcAt : Int := 0
  dst : List Nat := []
  dstAt : Int := 0
  written : Nat := 0
  checked : Nat := 0
  wrote : List Nat := []
  bad : Option (Nat × Bool) := none
  whole : Bool := false
  stop : MoveStop := none
  deriving DecidableEq, Repr

/-- The fields of a MOVE word: source kind, destination kind, direction, generator, lines. -/
structure MoveJob where
  sk : Nat
  dk : Nat
  dir : Nat
  g : Nat
  n : Nat
  grout : Bool
  deriving DecidableEq, Repr

/-- The MOVE that a word names. -/
def moveJob (w : Nat) (grout : Bool) : MoveJob := ⟨bits w 22 2, bits w 20 2, bits w 18 2, bits w 16 2, bits w 0 16 + 1, grout⟩

/-- Whether the source generator is armed for the next line of a MOVE (R543).
Log entry: 81 (DEDUCED). -/
def armedNow (x : Site) (j : MoveJob) (m : MoveRun) : Option Nat :=
  (x.role.agen j.g).grout.bind (fun a => if m.checked < a.blocks then some (a.table + m.checked) else none)

/-- Check an armed source block that has been read whole (R543): the mismatch carries the block's number.
Log entry: 81 (DEDUCED). -/
def checkBlock (x : Site) (j : MoveJob) (index : Nat) (m : MoveRun) : MoveRun :=
  let num := if j.sk = 3 then (m.srcAt.toNat / 64) % 2 ^ 32 else index % 2 ^ 32
  let r := readMem x.inst.course x.launch.ctx (groutEntry m.s x.launch.ctx index) 4
    [(x.launch.id, 0x0711, x.inst.course)] m.s
  let m1 := { m with s := r.2.2, checked := m.checked + 1, src := [] }
  if r.1 ≠ 0 ∧ r.1 ≠ 0x0701 ∧ r.1 ≠ 0x0702 then { m1 with stop := some (r.1, []) }
  else if leNat r.2.1 = groutValue m.src num then m1
  else { m1 with whole := true, bad := some (num, j.sk != 3 && x.role.groutWrote.contains index) }

/-- Take a line into the armed source block (R543): blocks must be read whole, 64 lines in ascending order.
Log entry: 81 (DEDUCED). -/
def checkLine (x : Site) (j : MoveJob) (a : Int) (data : List Nat) (m : MoveRun) : MoveRun :=
  match armedNow x j m with
  | none => m
  | some index =>
    let n := m.src.length / 64
    let num := if j.sk = 3 then (a.toNat / 64) % 2 ^ 32 else index % 2 ^ 32
    if (if n = 0 then a % 64 ≠ 0 else a ≠ m.srcAt + n) then { m with bad := some (num, false) }
    else
      let m1 := { m with src := m.src ++ data, srcAt := if n = 0 then a else m.srcAt }
      if n = 63 then checkBlock x j index m1 else m1

/-- The check value index of the n-th block that a COPYG writes (R539 to R541): `e` comes from the destination
generator's record. -/
def writeIndex (x : Site) (j : MoveJob) (m : MoveRun) : Option Nat :=
  if j.dk = 3 then groutIndex m.s x.launch.ctx (m.dstAt.toNat * 64)
  else some (fld (x.role.agen ((j.g + 1) % 4)).tail 0 3 + m.written)

/-- Take a line into the destination block of a COPYG; after its last line its check value is written (R540, R541).
Log entry: 81 (DEDUCED). -/
def groutLine (x : Site) (j : MoveJob) (a : Int) (data : List Nat) (m : MoveRun) : MoveRun :=
  if !j.grout then m
  else
    let n := m.dst.length / 64
    if j.dk = 3 ∧ (if n = 0 then a % 64 ≠ 0 else a ≠ m.dstAt + n) then { m with stop := some (0x0B15, []) }
    else
      let m1 := { m with dst := m.dst ++ data, dstAt := if n = 0 then a else m.dstAt }
      if n = 63 then
        match writeIndex x j m1 with
        | none => { m1 with stop := some (0x0B15, []) }
        | some i =>
          let num := if j.dk = 3 then (m1.dstAt.toNat / 64) % 2 ^ 32 else i % 2 ^ 32
          let w := groutWrite x.inst.course x.launch.ctx i (groutValue m1.dst num) m1.s
          { m1 with s := w.2, dst := [], written := m1.written + 1,
                    wrote := if j.dk = 3 then m1.wrote else i :: m1.wrote,
                    stop := if w.1 = 0 then none else some (if w.1 = 0x0810 then 0x0810 else 0x0113, []) }
      else m1

/-- Move line i of a MOVE. -/
def moveLine (x : Site) (j : MoveJob) (src dst : List Int) (m : MoveRun) (i : Nat) : MoveRun :=
  if m.stop.isSome ∨ m.bad.isSome then m
  else
    let a := src.getD i 0
    let d := dst.getD i 0
    let r := moveRead x j.sk j.dir a m.s
    match r.1 with
    | some e => { m with s := r.2.2, stop := some e }
    | none =>
      let m1 := checkLine x j a r.2.1 { m with s := r.2.2 }
      if m1.stop.isSome ∨ m1.bad.isSome then m1
      else
        let w := moveWrite x j.dk j.dir d r.2.1 m1.s
        match w.1 with
        | some e => { m1 with s := w.2, stop := some e }
        | none => groutLine x j d r.2.1 { m1 with s := w.2 }

/-- The payload of 0x0411 on key tile k of an item (R249): sequence index, key-value head, query block and key tile. -/
def tilePayload (x : Site) (w k : Nat) : List Nat :=
  let it := itemOf x w
  [it.seq % 256, it.head % 256] ++ leBytes 2 it.block ++ leBytes 2 k

/-- A Grout mismatch of a MOVE (R532, R543, R546): 0x0B10; or, where it reads the normalised score tile of a sealed
context's attention Bond in the Bed, and has read the block whole, 0x0411 (R243, R249). A strike where the instance
itself wrote the block.
Log entries: 72 (DEDUCED), 81 (DEDUCED). -/
def moveMismatch (x : Site) (j : MoveJob) (u : Upset) (whole : Bool) (num : Nat) (own : Bool) (s : State) : State :=
  let s1 := groutCount x.launch.ctx s
  let plain := fun (s : State) =>
    let s2 := brickFault x 0x0B10 (leBytes 4 num) false s
    if own then strike x.role.brick x.launch.ctx 0x0B10 s2 else s2
  match u with
  | .tile w k =>
    if whole ∧ x.launch.attends ∧ ctxSealed s x.launch.ctx ∧ j.sk = 0 ∧ w < itemCount x.inst.record x.inst.table then
      let s2 := brickFault x 0x0411 (tilePayload x w k) true s1
      if own then strike x.role.brick x.launch.ctx 0x0411 s2 else s2
    else plain s1
  | .none | .checksum _ _ _ _ | .residue _ _ | .parity _ _ | .bed _ _ | .hod _ | .page _ _ _ | .item _ => plain s1

/-- Which of the MOVE stops tears the context down: those of class 0x01 (R94). An unreachable home stops the launch
alone; an uncorrectable line has its own event and teardown (R364). A page that is not present tears it down (R248). -/
def moveTears (st : Nat) : Bool := st / 256 == 1 || st == 0x0410

/-- The end of a MOVE that has stopped with a status and its payload. -/
def moveEnd (x : Site) (e : Nat × List Nat) (s : State) : State :=
  if e.1 = 0x0810 then courseFault x e.1 e.2 false s
  else if e.1 / 256 = 7 then stopLaunch x.launch.id x.inst.course e.1 s
  else brickFault x e.1 e.2 (moveTears e.1) s

/-! ## COPY and COPYG -/

/-- The effect of COPY and COPYG (R65, R777): source lines come from generator g, destination lines from g + 1.
Log entry: 72 (DEDUCED). -/
def moveRun (x : Site) (u : Upset) (grout : Bool) (s : State) : State :=
  let j := moveJob x.role.word grout
  let src := (x.role.agen j.g).take j.n
  let dst := (x.role.agen ((j.g + 1) % 4)).take j.n
  let m := (List.range j.n).foldl (moveLine x j src dst) { s := s }
  match m.stop, m.bad with
  | some e, _ => moveEnd x e m.s
  | none, some (num, own) => moveMismatch x j u m.whole num own m.s
  | none, none =>
    if !m.src.isEmpty then
      moveMismatch x j u false (if j.sk = 3 then (m.srcAt.toNat / 64) % 2 ^ 32 else ((armedNow x j m).getD 0) % 2 ^ 32) false m.s
    else if !m.dst.isEmpty ∧ j.dk = 3 then brickFault x 0x0B15 [] false m.s
    else
      let disarm := fun (g : Agen) => { g.skip j.n with
        grout := g.grout.bind (fun a => if m.checked < a.blocks then some ⟨a.table + m.checked, a.blocks - m.checked⟩ else none) }
      goOn x (setRole x (fun r => { (r.modAgen j.g disarm).modAgen ((j.g + 1) % 4) (fun g => g.skip j.n) with
        groutWrote := m.wrote ++ r.groutWrote }) m.s)

/-- A MOVE, with the work of the attention Bond that it stands for (R236 to R247) or the page of the key-value cache that
it needs (R228), where one is named. -/
def movePaged (x : Site) (u : Upset) (grout : Bool) (s : State) : State :=
  match u with
  | .page i h p =>
    let m := if pageNamed x i h p then (needPage x i h p { s := s }).2 else { s := s }
    match m.stop with
    | some e => moveEnd x e m.s
    | none => moveRun x u grout m.s
  | .item w =>
    let r := if itemDue x w then doItem x w s else (none, s)
    match r.1 with
    | some e => moveEnd x e r.2
    | none => moveRun x u grout r.2
  | .none | .checksum _ _ _ _ | .residue _ _ | .parity _ _ | .bed _ _ | .hod _ | .tile _ _ => moveRun x u grout s

/-- COPY (R777). -/
def execCopy (brick : Nat) (upset : Upset) (s : State) : Host.Outcome State Fault Refusal :=
  .next (match issuing s brick opCopy with
    | none => s
    | some x => withUpset x upset (movePaged x upset false) s)

/-- COPYG (R540). -/
def execCopyg (brick : Nat) (upset : Upset) (s : State) : Host.Outcome State Fault Refusal :=
  .next (match issuing s brick opCopyg with
    | none => s
    | some x => withUpset x upset (movePaged x upset true) s)

/-- GROUTCHK (R543): arms the generator for the next blocks, the first at the table index in the parameter word. -/
def execGroutchk (brick : Nat) (s : State) : Host.Outcome State Fault Refusal :=
  .next (match issuing s brick opGroutchk with
    | none => s
    | some x =>
      let w := x.role.word
      goOn x (setRole x (fun r => r.modAgen (bits w 18 2) (fun g =>
        { g with grout := some ⟨paramWord x.launch x.inst.course (bits w 20 4), bits w 0 16 + 1⟩ })) s))

end Sys2Proof.Machine
end

