-- ==== Sys2Proof/Machine/Sieve.lean ====
section
/-! DEFINITION. The Sieve (R195 to R215, R545, R546), and the checked reads and writes of a sealed context's data that
it shares with Meridian. -/

namespace Sys2Proof.Machine

open Reg

/-! ## Reads and writes of a sealed context (R545) -/

/-- What a master's access ended in: 0, an access or run-time status, or a Grout mismatch, with payload and bytes. -/
structure IoResult where
  status : Nat := 0
  payload : List Nat := []
  data : List Nat := []
  deriving DecidableEq, Repr

/-- The 4 KiB blocks that n bytes at a touch. -/
def blocksOf (a n : Nat) : List Nat :=
  if n = 0 then [] else (List.range ((a + n - 1) / 4096 - a / 4096 + 1)).map (fun i => (a / 4096 + i) * 4096)

/-- Read one block and check it in a context's window (R538, R539, R545): `bad` is the reader's status of a mismatch. -/
def checkedBlock (port ctx bad : Nat) (acc : IoResult × State) (b : Nat) : IoResult × State :=
  if acc.1.status ≠ 0 then acc
  else
    let s := acc.2
    let miss := fun (s : State) => ({ status := bad, payload := leBytes 6 b : IoResult }, groutCount ctx s)
    match groutIndex s ctx b with
    | none => miss s
    | some i =>
      let e := readMem port ctx (groutEntry s ctx i) 4 [] s
      if e.1 ≠ 0 then ({ status := e.1 }, e.2.2)
      else
        let r := readMem port ctx b 4096 [] e.2.2
        if r.1 ≠ 0 then ({ status := r.1 }, r.2.2)
        else if groutValue r.2.1 (b / 4096) = leNat e.2.1 then ({ acc.1 with data := acc.1.data ++ r.2.1 }, r.2.2)
        else miss r.2.2

/-- n bytes at a, read by a master's port for a context, with every block that they touch checked where `isSealed`.
Log entry: 79 (DEDUCED). -/
def ioRead (port ctx bad : Nat) (isSealed : Bool) (a n : Nat) (s : State) : IoResult × State :=
  if n = 0 then ({}, s)
  else if isSealed then
    let r := (blocksOf a n).foldl (checkedBlock port ctx bad) (({} : IoResult), s)
    ({ r.1 with data := (r.1.data.drop (a % 4096)).take n }, r.2)
  else
    let r := readMem port ctx a n [] s
    ({ status := r.1, data := r.2.1 }, r.2.2)

/-- Write the check value of a block of 4,096 bytes (R540, R545); a block outside the window has none. -/
def writeCheck (port ctx : Nat) (data : List Nat) (s : State) (b : Nat) : Nat × State :=
  match groutIndex s ctx b with
  | some i => groutWrite port ctx i (groutValue (slice data 0 4096) (b / 4096)) s
  | none => (0, s)

/-- Write the check values of the blocks of an output at a, in order: the status of the first that is refused (R545). -/
def writeChecks (port ctx a : Nat) (full : List Nat) (s : State) : Nat × State :=
  (blocksOf a full.length).foldl (fun w b =>
    if w.1 ≠ 0 then w else writeCheck port ctx (slice full (b - a) 4096) w.2 b) (0, s)

/-- Write a whole output at a for a context; with checking, every block whole and padded with 0, and its check value. -/
def ioWrite (port ctx : Nat) (checking : Bool) (a : Nat) (data : List Nat) (s : State) : Nat × State :=
  if checking then
    let n := divUp data.length 4096 * 4096
    let w := writeMem port ctx a (padTo n data) s
    if w.1 ≠ 0 then w else writeChecks port ctx a (padTo n data) w.2
  else writeMem port ctx a data s

/-- Write an output that a line heads: every other part first, with the check values where it is checked, then the line
(R205, R211, R501); the status of the first write that is refused. -/
def headedWrite (port ctx : Nat) (checking : Bool) (a : Nat) (header body : List Nat) (s : State) : Nat × State :=
  let all := header ++ body
  let full := if checking then padTo (divUp all.length 4096 * 4096) all else all
  let w := if full.length ≤ 64 then (0, s) else writeMem port ctx (a + 64) (full.drop 64) s
  if w.1 ≠ 0 then w
  else
    let k := if checking then writeChecks port ctx a full w.2 else w
    if k.1 ≠ 0 then k else writeMem port ctx a header k.2

/-! ## The record -/

/-- The Sieve's port (R372). -/
def sievePort : Nat := 67

/-- Whether an FP32 field is finite. -/
def finiteAt (r : List Nat) (at_ : Nat) : Bool := finiteWord (fld r at_ 4)

/-- Whether a job's boxes are anchor offsets. -/
def jobAnchored (r : List Nat) : Bool := r.getD 1 0 == 1

/-- 0x0340 (R195). -/
def sieveMalformed (r : List Nat) : Bool :=
  let anchored := jobAnchored r
  r.getD 0 0 != 1 || decide (1 < r.getD 1 0) || decide (3 < r.getD 2 0) || r.getD 3 0 != 0
    || !inRange (fld r 4 2) 1 8192 || !inRange (fld r 6 2) 1 1024 || !inRange (fld r 8 2) 1 256
    || (if anchored then fld r 10 2 == 0 else fld r 10 2 != 0) || !finiteAt r 12
    || (if bit (r.getD 2 0) 0 then !f32Positive (fld r 16 4) || !f32Positive (fld r 20 4) else !zeroAt r 16 8)
    || (if anchored then !finiteAt r 24 || !finiteAt r 28 || !finiteAt r 32 || !finiteAt r 36 else !zeroAt r 24 16)
    || fld r 40 6 % 64 != 0 || fld r 46 6 % 64 != 0 || (!anchored && fld r 46 6 != 0) || fld r 52 6 % 64 != 0
    || fld r 58 6 % 64 != 0

/-- The threshold words of a table. -/
def threshAt (t : List Nat) (c : Nat) : Nat := fld t (4 * c) 4

/-- 0x0341 (R197): a value that is NaN or outside 0 to 1. -/
def threshBad (r t : List Nat) : Bool :=
  (List.range (fld r 8 2)).any (fun c => !(leF 0 (threshAt t c) && leF (threshAt t c) 0x3F800000))

/-- 0x0342 (R197). -/
def sieveOverlap (r : List Nat) (recAddr : Nat) : Bool :=
  let out : Range := (fld r 58 6, 64 + 32 * fld r 6 2)
  [(recAddr, 64), (fld r 40 6, 16 * fld r 4 2), (fld r 46 6, 16 * fld r 10 2), (fld r 52 6, 4 * fld r 8 2)].any
    (rangesMeet out)

/-- Refuse a job (R197, R212). -/
def refuseJob (c r n : Nat) (raw : List Nat) (status : Nat) (s : State) : State :=
  finishDesc c r n raw { status := status } (incSat SIV_REFUSE_COUNT.refusals 0 1 s)

/-- Whether a status has an event where a Sieve job stops with it: the access statuses have none (R388), and the event
of an uncorrectable line is written where it is read.
Log entry: 80 (DEDUCED). -/
def sieveEvent (status : Nat) : Bool := status == 0x0350 || status == 0x0351 || status == 0x0810

/-- Stop a job with a run-time status (R211, R215).
Log entry: 80 (DEDUCED). -/
def stopJob (c r n : Nat) (raw : List Nat) (io : IoResult) (s : State) : State :=
  let s1 := if sieveEvent io.status then
      event io.status 0 c (if io.status = 0x0810 then sievePort else 0) 1 io.payload s else s
  finishDesc c r n raw { status := io.status } s1

/-- Accept a job whose record and thresholds are read, or refuse it (R197, R545).
Log entry: 79 (DEDUCED). -/
def acceptJob (c r n : Nat) (raw record thresh : List Nat) (s : State) : State :=
  if threshBad record thresh then refuseJob c r n raw 0x0341 s
  else if sieveOverlap record (fld raw 24 6) then refuseJob c r n raw 0x0342 s
  else if ctxSealed s c ∧ fld record 58 6 % 4096 ≠ 0 then refuseJob c r n raw 0x0B09 s
  else
    let j : SieveJob := { ctx := c, ring := r, count := n, raw := raw, record := record, thresh := thresh }
    refreshSieve { s with sieve := { s.sieve with jobs := s.sieve.jobs ++ [j] } }

/-- SIEVE_JOB_ACCEPT (R197, R308): the oldest SIEVE descriptor that waits for a place, once one is free.
Log entry: 79 (DEDUCED). -/
def execSieveJobAccept (s : State) : Host.Outcome State Fault Refusal :=
  .next (match s.rings.sieveIn with
    | [] => s
    | (c, r, n) :: rest =>
      match s.rings.descs.find? (fun d => d.ctx == c && d.ring == r && d.count == n) with
      | none => { s with rings := { s.rings with sieveIn := rest } }
      | some d =>
        if 16 ≤ s.sieve.jobs.length ∨ s.mode ≠ .run then s
        else
          let s1 := holdRing c r .none { s with rings := { s.rings with sieveIn := rest } }
          let a := ioRead sievePort c 0x0350 false (fld d.raw 24 6) 64 s1
          if a.1.status ≠ 0 then stopJob c r n d.raw a.1 a.2
          else if sieveMalformed a.1.data then refuseJob c r n d.raw 0x0340 a.2
          else
            let t := ioRead sievePort c 0x0350 (ctxSealed a.2 c) (fld a.1.data 52 6) (4 * fld a.1.data 8 2) a.2
            if t.1.status ≠ 0 then stopJob c r n d.raw t.1 t.2 else acceptJob c r n d.raw a.1.data t.1.data t.2)

/-! ## Decoding, sorting and suppression -/

/-- A candidate that is considered: its corners in FP32, its score, class and index (R198 to R200). -/
structure Cand where
  x1 : Nat
  y1 : Nat
  x2 : Nat
  y2 : Nat
  score : Nat
  cls : Nat
  index : Nat
  deriving DecidableEq, Repr

/-- A BF16 word widened to FP32. -/
def widen (w : Nat) : Nat := w % 65536 * 65536

/-- exp correctly rounded to FP32 (R122). -/
def expF (a : Nat) : Nat := rne (expVal (f32Val a))

/-- x + k/2 of two FP32 words rounded once; `sub` subtracts. -/
def halfOff (sub : Bool) (x w : Nat) : Nat :=
  let h := mulVal (f32Val w) (.fin ⟨sub, 1, 2⟩)
  rne (addVal (f32Val x) h)

/-- Centre and size of a candidate (R198): cx, cy, w, h. -/
def decodeBox (r cand anchor : List Nat) : Nat × Nat × Nat × Nat :=
  let v := fun (i : Nat) => widen (fld cand (2 * i) 2)
  if jobAnchored r then
    let a := fun (i : Nat) => fld anchor (4 * i) 4
    let var := fun (i : Nat) => fld r (24 + 4 * i) 4
    (addF (a 0) (mulF (mulF (v 0) (var 0)) (a 2)), addF (a 1) (mulF (mulF (v 1) (var 1)) (a 3)),
     mulF (a 2) (expF (mulF (v 2) (var 2))), mulF (a 3) (expF (mulF (v 3) (var 3))))
  else (v 0, v 1, v 2, v 3)

/-- An FP32 word clamped to 0 to a limit (R200). -/
def clampF (x hi : Nat) : Nat := if ltF x 0 then 0 else if ltF hi x then hi else x

/-- What a candidate is (R199). -/
inductive CandClass where
  | below | invalid | good (c : Cand)
  deriving DecidableEq, Repr

/-- Classify candidate i (R198 to R200). -/
def classify (r cands anchors : List Nat) (i : Nat) : CandClass :=
  let c := slice cands (16 * i) 16
  let score := fld c 8 4
  let anchor := fld c 14 2
  if !leF (fld r 12 4) score then .below
  else if fld r 8 2 ≤ fld c 12 2 ∨ (jobAnchored r ∧ fld r 10 2 ≤ anchor) then .invalid
  else
    let b := decodeBox r c (slice anchors (16 * anchor) 16)
    let x1 := halfOff true b.1 b.2.2.1
    let y1 := halfOff true b.2.1 b.2.2.2
    let x2 := halfOff false b.1 b.2.2.1
    let y2 := halfOff false b.2.1 b.2.2.2
    if [b.1, b.2.1, b.2.2.1, b.2.2.2, x1, y1, x2, y2].any (fun w => !finiteWord w)
      ∨ !ltF 0 b.2.2.1 ∨ !ltF 0 b.2.2.2 then .invalid
    else if bit (r.getD 2 0) 0 then
      let w := fld r 16 4
      let h := fld r 20 4
      .good ⟨clampF x1 w, clampF y1 h, clampF x2 w, clampF y2 h, score, fld c 12 2, i⟩
    else .good ⟨x1, y1, x2, y2, score, fld c 12 2, i⟩

/-- Whether a candidate comes before another (R201). -/
def candBefore (a b : Cand) : Bool := ltF b.score a.score || (!ltF a.score b.score && decide (a.index < b.index))

/-- Insert a candidate into an ordered list. -/
def insertCand (c : Cand) : List Cand → List Cand
  | [] => [c]
  | d :: r => if candBefore c d then c :: d :: r else d :: insertCand c r

/-- An FP32 word that is at least +0: the word or 0. -/
def atLeastZero (a : Nat) : Nat := if ltF 0 a then a else 0

/-- The larger or smaller of two FP32 words. -/
def pickF (larger : Bool) (a b : Nat) : Nat := if ltF a b then (if larger then b else a) else (if larger then a else b)

/-- Whether candidate b is suppressed by a kept candidate a at threshold t (R203). -/
def suppresses (t : Nat) (a b : Cand) : Bool :=
  let iw := atLeastZero (subF (pickF false a.x2 b.x2) (pickF true a.x1 b.x1))
  let ih := atLeastZero (subF (pickF false a.y2 b.y2) (pickF true a.y1 b.y1))
  let inter := mulF iw ih
  let area := fun (c : Cand) => mulF (subF c.x2 c.x1) (subF c.y2 c.y1)
  let ua := subF (addF (area a) (area b)) inter
  ltF (mulF t ua) inter

/-- The walk of R202: candidates left, those kept so far (last first), those suppressed; whether it was cut short. -/
def sieveWalk (agnostic : Bool) (thresh : List Nat) (most : Nat) : List Cand → List Cand → Nat → List Cand × Nat × Bool
  | [], kept, sup => (kept.reverse, sup, false)
  | c :: r, kept, sup =>
    if most ≤ kept.length then (kept.reverse, sup, true)
    else
      let t := threshAt thresh (if agnostic then 0 else c.cls)
      if kept.any (fun k => (agnostic || k.cls == c.cls) && suppresses t k c) then
        sieveWalk agnostic thresh most r kept (sup + 1)
      else sieveWalk agnostic thresh most r (c :: kept) sup

/-- A kept entry (R204). -/
def keptEntry (c : Cand) : List Nat :=
  leBytes 4 c.x1 ++ leBytes 4 c.y1 ++ leBytes 4 c.x2 ++ leBytes 4 c.y2 ++ leBytes 4 c.score ++ leBytes 2 c.cls
    ++ leBytes 2 c.index ++ List.replicate 8 0

/-- The whole work of a job on its candidates and anchors (R198 to R203). -/
def sieveWork (r thresh cands anchors : List Nat) : SieveResult :=
  let cls := (List.range (fld r 4 2)).map (classify r cands anchors)
  let good := cls.filterMap (fun c => match c with | .good x => some x | _ => none)
  let w := sieveWalk (bit (r.getD 2 0) 1) thresh (fld r 6 2) (good.foldr insertCand []) [] 0
  { entries := w.1.map keptEntry, considered := good.length, below := countIf cls (· == .below)
    invalid := countIf cls (· == .invalid), suppressed := w.2.1, truncated := w.2.2 }

/-! ## The run of a job -/

/-- Take the running job out of the queue. -/
def popJob (s : State) : State := refreshSieve { s with sieve := { s.sieve with jobs := s.sieve.jobs.tail } }

/-- SIEVE_JOB_START (R207): the head of the queue starts; its candidates and anchors are read and worked on. A disabled
Sieve completes it with 0x0351 (R210).
Log entry: 79 (DEDUCED). -/
def execSieveJobStart (s : State) : Host.Outcome State Fault Refusal :=
  .next (match s.sieve.jobs with
    | [] => s
    | j :: rest =>
      if j.result.isSome ∨ s.mode ≠ .run then s
      else if rdB s SIV_STATUS.disabled then stopJob j.ctx j.ring j.count j.raw { status := 0x0351 } (popJob s)
      else
        let isSealed := ctxSealed s j.ctx
        let a := ioRead sievePort j.ctx 0x0350 isSealed (fld j.record 40 6) (16 * fld j.record 4 2) s
        let b := if a.1.status = 0 then
            ioRead sievePort j.ctx 0x0350 isSealed (fld j.record 46 6) (16 * fld j.record 10 2) a.2 else a
        -- a teardown of its context that a read brought about has removed the job, which writes nothing more (R208)
        if b.2.sieve.jobs.head? ≠ some j then b.2
        else if b.1.status ≠ 0 then stopJob j.ctx j.ring j.count j.raw b.1 (popJob b.2)
        else
          let j1 := { j with startAt := now s, startDial := dial s,
                             result := some (sieveWork j.record j.thresh a.1.data b.1.data) }
          refreshSieve { b.2 with sieve := { b.2.sieve with jobs := j1 :: rest } })

/-- The summary line (R205). -/
def sieveSummary (j : SieveJob) (w : SieveResult) (endDial : Nat) : List Nat :=
  leBytes 2 w.entries.length ++ leBytes 2 w.considered ++ leBytes 2 w.below ++ leBytes 2 w.invalid
    ++ leBytes 2 w.suppressed ++ [b2n w.truncated] ++ List.replicate 5 0 ++ leBytes 8 j.startDial ++ leBytes 8 endDial
    ++ List.replicate 32 0

/-- Write a job's entries, then its summary (R204, R205, R209): the status of the writes. -/
def writeJob (j : SieveJob) (w : SieveResult) (s : State) : Nat × State :=
  headedWrite sievePort j.ctx (ctxSealed s j.ctx) (fld j.record 58 6) (sieveSummary j w (dial s)) w.entries.flatten s

/-- SIEVE_JOB_COMPLETE (R206, R211, R212): a job counts where it ends with success. -/
def execSieveJobComplete (s : State) : Host.Outcome State Fault Refusal :=
  .next (match s.sieve.jobs.head? with
    | none => s
    | some j =>
      match j.result with
      | none => s
      | some w =>
        let o := writeJob j w s
        let s1 := popJob (noteRun j o.2)
        if o.1 ≠ 0 then stopJob j.ctx j.ring j.count j.raw { status := o.1 } s1
        else finishWork j.ctx j.ring j.count j.raw { result := w.entries.length }
          (if signalReaches s1 j.raw then incWrap SIV_JOB_COUNT.jobs 0 1 s1 else s1))

/-- SIEVE_INTERNAL_FAULT (R210): the running job stops with 0x0351, and the Sieve is disabled, with event 0x0352 once. -/
def execSieveInternalFault (s : State) : Host.Outcome State Fault Refusal :=
  let s1 := match s.sieve.jobs.head? with
    | some j =>
      if j.result.isSome then stopJob j.ctx j.ring j.count j.raw { status := 0x0351 } (popJob (noteRun j s)) else s
    | none => s
  .next (if rdB s1 SIV_STATUS.disabled then s1
    else event 0x0352 0 0xFF 0 2 [] (wrB SIV_STATUS.disabled 0 true s1))

end Sys2Proof.Machine
end

