-- ==== Sys2Proof/Machine/Islands.lean ====
section
/-! DEFINITION. The islands' monitors (R561 to R565), messages and safe states (R566 to R569), their restart, output
and mailbox (R561, R571, R601), and what a die does on a silent command (R569). -/

namespace Sys2Proof.Machine

open Reg

/-! ## Suspended monitors (R563, R719, R722) -/

/-- Whether a power domain is on, as PWR_DOMAIN_ON shows it (R675). -/
def domainOn (s : State) (d : Nat) : Bool := bit (rd s PWR_DOMAIN_ON.on (d / 32 * 4)) (d % 32)

/-- Whether an island holds back the monitor of a domain: reported off in the last Hearth heartbeat, or reported on
again within the last 100 µs. -/
def domainHeld (x : Island) (t d : Nat) : Bool := aget x.off d false || decide (t < aget x.onAt d 0 + 100000 ∧ 0 < aget x.onAt d 0)

/-- Whether an island holds back a monitor of Course die n for its partial reset (R719): until 100 µs after its end.
Log entry: 47 (DEDUCED). -/
def partialHeld (x : Island) (t n : Nat) : Bool :=
  x.partialDie == some n || decide (0 < aget x.partialEnd n 0 ∧ t < aget x.partialEnd n 0 + 100000)

/-- Memory uncore domain of Course die n (R642). -/
def memDomain (n : Nat) : Nat := 64 + 2 * (n - 1)

/-- Count a reading of a monitor: a good one clears its count; at the limit the state is commanded. -/
def judge (i cause idx limit st who : Nat) (bad : Bool) (s : State) : State :=
  let k := cause * 256 + idx
  let n := if bad then aget (islandOf s i).bad k 0 + 1 else 0
  let s1 := modIsland i (fun x => { x with bad := aset x.bad k (min n limit) 0 }) s
  if limit ≤ n then commandState i st cause who s1 else s1

/-! ## Rails, PLLs and junctions -/

/-- The core voltage target that a Course die reports in mV (R652): 750 at boot and in a partial reset (R719).
Log entries: 43 (DEDUCED), 47 (DEDUCED). -/
def coreTarget (s : State) (i n : Nat) : Nat :=
  if partialHeld (islandOf s i) (osc s) n ∨ s.mode ≠ .run then 750
  else 600 + Config.avsTarget n ((aget s.power.agents n {}).setMhz) % 301

/-- Whether a reading of rail k in mV lies outside its fault window (R563, R734).
Log entry: 43 (DEDUCED). -/
def railBad (s : State) (i k mv : Nat) : Bool :=
  let out := fun (lo hi : Nat) => decide (mv < lo) || decide (hi < mv)
  if k < 4 then out 570 930 || out (coreTarget s i (k + 1) - 60) (coreTarget s i (k + 1) + 60)
  else if k < 8 then out 1034 1166
  else match k with | 8 => out 690 810 | 9 => out 1656 1944 | 10 => out 782 918 | _ => out 1656 1944

/-- Cause, state and the die concerned of rail k (R563). -/
def railCause (k : Nat) : Nat × Nat × Nat :=
  if k < 4 then (0x01, 2, k + 1) else if k < 8 then (0x03, 2, k - 3)
  else match k with | 8 => (0x02, 2, 0) | 9 => (0x04, 1, 0) | 10 => (0x04, 1, 0) | _ => (0x05, 1, 0)

/-- Whether the monitor of rail k is held back. -/
def railHeld (x : Island) (t k : Nat) : Bool :=
  if k < 4 then domainHeld x t (memDomain (k + 1)) else if k < 8 then domainHeld x t (92 + k)
  else k != 11 && x.night

/-- RAIL_SAMPLE (R563): an island samples a rail, 0 to 3 Course-die core, 4 to 7 HBM stack, 8 Hearth core, 9 Hearth
input/output, 10 SerDes and PHY, 11 Nightwatch.
Log entry: 179 (DESIGN CHOICE). -/
def execRailSample (island rail mv : Nat) (s : State) : Host.Outcome State Fault Refusal :=
  .next (if !watching s island ∨ 12 ≤ rail then s
    else
      let s1 := wr ISL_RAIL.mv (dieBase island + 4 * rail) mv s
      let c := railCause rail
      if railHeld (islandOf s island) (osc s) rail then
        modIsland island (fun x => { x with bad := adel x.bad (c.1 * 256 + rail) }) s1
      else judge island c.1 rail 16 c.2.1 c.2.2 (railBad s island rail mv) s1)

/-- PLL_CHECK_WINDOW (R563): a 10 µs window of PLL k ends: 0 the Hearth's, 1 to 4 the compute PLLs, 5 to 8 the HBM PHY
PLLs; its error in parts per million, and whether it had edges. -/
def execPllCheckWindow (island pll errorPpm : Nat) (edges : Bool) (s : State) : Host.Outcome State Fault Refusal :=
  let cause := if pll = 0 then 0x09 else if pll < 5 then 0x08 else 0x0A
  let who := if pll < 5 then pll else pll - 4
  .next (if !watching s island ∨ 9 ≤ pll then s
    else
      let x := islandOf s island
      let t := osc s
      let heldBack := if pll = 0 then x.night else if pll < 5 then domainHeld x t (memDomain pll) || partialHeld x t pll
        else domainHeld x t (91 + pll)
      if heldBack then modIsland island (fun x => { x with bad := adel x.bad (cause * 256 + pll) }) s
      else if !edges then commandState island 2 cause who s
      else judge island cause pll 2 2 who (decide (20000 < errorPpm)) s)

/-- The thermal ceiling of a junction temperature in MHz (R655).
Log entry: 44 (DEDUCED). -/
def thermalCeiling (tj : Int) : Nat :=
  if tj ≤ 108 then 1530 else if 115 < tj then 200 else 1530 - 1330 * (tj - 108).toNat / 7

/-- PWR_STATUS.ceiling_mhz from the flow ceiling and the dies' thermal ceilings (R675).
Log entry: 44 (DEDUCED). -/
def refreshCeiling (s : State) : State :=
  wr PWR_STATUS.ceiling_mhz 0
    ([1, 2, 3, 4].foldl (fun m n => min m (thermalCeiling (aget s.power.agents n {}).tj)) (min 1530 s.power.flowCeiling)) s

/-- An island's read of the two sensors of a die (R563): 0 the Hearth, 1 to 4 the Course dies, 5 to 8 the stacks. -/
def junctionAt (die : Nat) (a b : Int) (s : State) (i : Nat) : State :=
  if !watching s i then s
  else
    let t := max a b
    let x := islandOf s i
    let s1 := wr ISL_TEMP.max_c (dieBase i + 4 * die) (enc t 8) s
    let off := if die = 0 then x.night else if die < 5 then domainHeld x (osc s) (memDomain die) else domainHeld x (osc s) (91 + die)
    let who := if die < 5 then die else die - 4
    if off then modIsland i (fun x => { x with bad := [0x10, 0x11, 0x12].foldl (fun m c => adel m (c * 256 + die)) x.bad }) s1
    else
      let s2 := judge i 0x10 die 10 1 who (if die < 5 then decide (115 < t) else decide (105 < t)) s1
      let s3 := if die < 5 then judge i 0x11 die 2 2 who (decide (120 ≤ t)) s2 else s2
      if partialHeld x (osc s) die && decide (die < 5) then
        modIsland i (fun x => { x with bad := adel x.bad (0x12 * 256 + die) }) s3
      else judge i 0x12 die 1000 1 who (decide (8 < (a - b).natAbs)) s3

/-- JUNCTION_READ (R563, R655): the two sensors of a die are read in °C, by both islands and by a Course die's own power
agent.
Log entry: 179 (DESIGN CHOICE). -/
def execJunctionRead (die : Nat) (a b : Int) (s : State) : Host.Outcome State Fault Refusal :=
  .next (if 9 ≤ die then s
    else
      let s1 := if 1 ≤ die ∧ die ≤ 4 then
          refreshCeiling { s with power := { s.power with
            agents := aset s.power.agents die { aget s.power.agents die {} with tj := max a b } {} } }
        else s
      [5, 6].foldl (junctionAt die a b) s1)

/-! ## Heartbeats and links -/

/-- Cause, state, whose it is and the limit in ns of a watched heartbeat: 0 to 63 the Trowels, 64 Meridian, 65 the
Hearth, 66 the other island, 67 Nightwatch (R563, R722). -/
def beatCause (i src : Nat) : Nat × Nat × Nat × Nat :=
  if src < 64 then (0x18, 1, src, 500000)
  else match src with
    | 64 => (0x19, 1, 0, 500000)
    | 65 => (0x1B, 2, 0, 500000)
    | 66 => (0x28, 1, otherIsland i, 500000)
    | _ => (0x1B, 2, 0, 5000000)

/-- Whether an island watches a heartbeat now (R563, R719, R722).
Log entry: 47 (DEDUCED). -/
def beatWatched (s : State) (i src : Nat) : Bool :=
  let x := islandOf s i
  let t := osc s
  if src < 64 then
    !x.night && !domainHeld x t src && !domainHeld x t (memDomain (courseDie src)) && !partialHeld x t (courseDie src)
  else match src with
    | 64 => !x.night && rdB s MER_STATUS.running
    | 65 => !x.night
    | 66 => true
    | _ => x.night

/-- From when an island counts the absence of a heartbeat: the last one, or the end of a suspension of its monitor.
Log entry: 47 (DEDUCED). -/
def beatFrom (s : State) (i src : Nat) : Nat :=
  let x := islandOf s i
  let back := fun (m : AMap Nat) (k : Nat) => if aget m k 0 = 0 then 0 else aget m k 0 + 100000
  let h := aget x.heard src 0
  if src < 64 then
    max (max h (back x.onAt src)) (max (back x.onAt (memDomain (courseDie src))) (back x.partialEnd (courseDie src)))
  else h

/-- HEARTBEAT_TIMEOUT (R563): a watched heartbeat is missing for its limit. -/
def execHeartbeatTimeout (island source : Nat) (s : State) : Host.Outcome State Fault Refusal :=
  .next (if !watching s island ∨ 67 < source ∨ !beatWatched s island source then s
    else
      let c := beatCause island source
      let s1 := passOscTo (beatFrom s island source + c.2.2.2) s
      let s2 := if source = 66 then wrB ISL_STATE.peer_ok (dieBase island) false s1 else s1
      commandState island c.2.1 c.1 c.2.2.1 s2)

/-- ISLAND_HEARTBEAT (R561): an island's heartbeat to the other, every 50 µs. -/
def execIslandHeartbeat (island : Nat) (s : State) : Host.Outcome State Fault Refusal :=
  let o := otherIsland island
  .next (if !watching s island then s
    else
      let s1 := send .islandHeartbeat [island] s
      if watching s o && !(islandOf s o).lost.contains island then
        wrB ISL_STATE.peer_ok (dieBase o) true (heardAt o 66 s1)
      else s1)

/-- What a Hearth heartbeat tells an island: the domains, the die in partial reset, and Dial time, whose rate is checked
over 10 ms (R561, R563, R719). -/
def hearthBeatAt (s : State) (i : Nat) : State :=
  let x := islandOf s i
  if !watching s i ∨ x.lost.contains 0 then s
  else
    let t := osc s
    let off := (List.range 100).filterMap (fun d => if domainOn s d then none else some (d, true))
    let back := (List.range 100).filter (fun d => aget x.off d false && domainOn s d)
    let onAt := back.foldl (fun m d => aput m d t) x.onAt
    let ended := match x.partialDie with
      | some n => if s.partialDie = some n then x.partialEnd else aput x.partialEnd n t
      | none => x.partialEnd
    let s1 := modIsland i (fun x => { x with
      off := off, onAt := onAt, partialDie := s.partialDie, partialEnd := ended, told := (dial s, t) })
      (heardAt i 65 s)
    match x.rate with
    | none => modIsland i (fun x => { x with rate := some (dial s, t) }) s1
    | some (d0, t0) =>
      if t < t0 + 10000000 then s1
      else
        let s2 := modIsland i (fun x => { x with rate := some (dial s, t) }) s1
        let dd : Int := (dial s : Int) - d0
        let dt : Int := (t : Int) - t0
        if dt * 1000 < (dd - dt).natAbs * 1000000 then commandState i 1 0x1B 0 s2 else s2

/-- HEARTH_HEARTBEAT (R561): to both islands, every 100 µs in run. -/
def execHearthHeartbeat (s : State) : Host.Outcome State Fault Refusal :=
  .next (if s.mode ≠ .run then s else [5, 6].foldl hearthBeatAt (send .hearthHeartbeat (leBytes 8 (dial s)) s))

/-- When an island last had a valid frame from a die, as the heartbeats from it show: 64 and 65 and any Trowel's.
Log entry: 47 (DEDUCED). -/
def frameFrom (s : State) (i die : Nat) : Nat :=
  let h := fun (k : Nat) => aget (islandOf s i).heard k 0
  if die = 0 then max (h 64) (h 65)
  else if die < 5 then (List.range 16).foldl (fun m k => max m (h (16 * (die - 1) + k))) 0
  else h 66

/-- ISLAND_LINK_LOST (R562, R563): an island's link to a die, 0 to 4, or to the other island, is lost: 3 consecutive
frames have failed their CRC, or for 200 µs none was valid. A die that neither island reaches is unobserved, and both
command silent.
Log entry: 47 (DEDUCED). -/
def execIslandLinkLost (island die : Nat) (crc : Bool) (s : State) : Host.Outcome State Fault Refusal :=
  let o := otherIsland island
  .next (if !watching s island ∨ 6 < die ∨ die = island ∨ (islandOf s island).lost.contains die then s
    else
      let s1 := modIsland island (fun x => { x with lost := x.lost ++ [die] })
        (if crc then s else passOscTo (frameFrom s island die + 200000) s)
      if die = o then commandState island 1 0x28 o (wrB ISL_STATE.peer_ok (dieBase island) false s1)
      else if partialHeld (islandOf s island) (osc s) die then s1
      else if (islandOf s o).lost.contains die then commandState o 2 0x29 die (commandState island 2 0x29 die s1)
      else if watching s o then commandState island 1 0x29 die s1
      else commandState island 2 0x29 die s1)

/-! ## Forwarded events and states -/

/-- Take the first forwarded event of an island off its way. -/
def takeForward (i : Nat) : List Forward → Option (Forward × List Forward)
  | [] => none
  | f :: r => if f.island = i then some (f, r) else (takeForward i r).map (fun x => (x.1, f :: x.2))

/-- What an island does on a forwarded event or status (R565).
Log entry: 38 (DEDUCED). -/
def onForward (i : Nat) (f : Forward) (s : State) : State :=
  let s1 := if f.severity = 2 then commandState i 1 0x30 f.die s else if f.severity = 3 then commandState i 2 0x31 f.die s else s
  let s2 := if f.sealedRun then commandState i 1 0x32 f.die s1 else s1
  if f.status = 0x0532 then
    let n := aget (islandOf s2 i).misses f.unit 0 + 1
    let s3 := modIsland i (fun x => { x with misses := aset x.misses f.unit n 0 }) s2
    if n = 3 then commandState i 1 0x33 f.die s3 else s3
  else s2

/-- FORWARDED_EVENT (R564, R565): the oldest that is on its way to an island arrives; one that finds the island down or
its link to the Hearth lost is lost. -/
def execForwardedEvent (island : Nat) (s : State) : Host.Outcome State Fault Refusal :=
  .next (match takeForward island s.forwards with
    | none => s
    | some (f, rest) =>
      let s1 := { s with forwards := rest }
      if watching s island && !(islandOf s island).lost.contains 0 then onForward island f s1 else s1)

/-- SAFE_STATE_MESSAGE (R567): an island takes the oldest message of the other.
Log entry: 40 (DESIGN CHOICE). -/
def execSafeStateMessage (island : Nat) (s : State) : Host.Outcome State Fault Refusal :=
  .next (match (islandOf s island).inbox with
    | [] => s
    | m :: rest =>
      let s1 := modIsland island (fun x => { x with inbox := rest }) s
      if watching s island then commandState island m.state m.cause m.who s1 else s1)

/-! ## The silent command (R569) -/

/-- Stop the launches that have an instance on a Course die, with 0x0C41 and no signal.
Log entry: 176 (DEDUCED). -/
def silenceTrowels (d : Nat) (s : State) : State :=
  (s.fab.launches.filter (fun l => l.insts.any (fun i => courseDie i.course == d))).foldl (fun s l =>
    let c := ((l.insts.find? (fun i => courseDie i.course == d)).map (·.course)).getD 0xFF
    endLaunch l { launchDone l with status := 0x0C41, course := c } s) s

/-- Stop the Hearth's blocks: the descriptors that wait or are held and the Sieve's jobs complete with 0x0C41, and
Meridian, the streams, the decoders and the samplers stop.
Log entry: 176 (DEDUCED). -/
def silenceHearth (s : State) : State :=
  let ds := s.rings.descs.filter (fun d => d.phase != .forwarded || d.raw.getD 0 0 == 2)
  let s1 := { s with sieve := { s.sieve with jobs := [] }, rings := { s.rings with sieveIn := [], regJobs := [] } }
  let gone := fun (a : Agent) => match a with | .desc _ _ _ => true | .other i => decide (1280 ≤ i) | _ => false
  let s2 := { s1 with rings := { s1.rings with
    waits := s1.rings.waits.filter (fun w => !gone w.who)
    rels := s1.rings.rels.map (fun r => { r with who := r.who.filter (fun a => !gone a) }) } }
  let s3 := ds.foldl (fun s d => modRing d.ctx d.ring (fun r => { r with hold := .none })
    (finishDesc d.ctx d.ring d.count d.raw { status := 0x0C41 } s)) s2
  let s4 := (List.range 24).foldl (fun s k => wrB CAM_STREAM_STATUS.running (k * 0x20) false s) s3
  haltMer true { refreshSieve s4 with
    input := { s4.input with streams := [], decs := [], engines := [{}, {}, {}, {}], samplers := [] } }

/-- Note that a die has received its silent command (R569, R570). -/
def markSilent (die : Nat) (s : State) : State :=
  { s with isl := { s.isl with silentSent := s.isl.silentSent.filter (· != die) }, silent := aset s.silent die true false }

/-- SILENT_COMMAND (R569): a die that a silent command is on its way to receives it.
Log entry: 176 (DEDUCED). -/
def execSilentCommand (die : Nat) (s : State) : Host.Outcome State Fault Refusal :=
  .next (if !s.isl.silentSent.contains die then s
    else
      let s1 := markSilent die s
      if die = 0 then silenceHearth s1 else silenceTrowels die s1)

/-! ## Restart, output and mailbox -/

/-- What an island loses when it resets: it holds its output low, and its monitors stop. The state that it held stands.
Log entry: 42 (DESIGN CHOICE). -/
def islandDown (i : Nat) (s : State) : State :=
  modIsland i (fun x => { x with up := false, high := false, phaseAt := osc s, bad := [], approved := none, rate := none }) s

/-- ISLAND_SELF_RESET (R561): 1 lockstep, 2 watchdog, 3 own supply. -/
def execIslandSelfReset (island why : Nat) (s : State) : Host.Outcome State Fault Refusal :=
  .next (if !watching s island ∨ why < 1 ∨ 3 < why then s
    else modIsland island (fun x => { x with resetWhy := some why }) (islandDown island s))

/-- Let an island's monitors run: every heartbeat counts as just heard.
Log entry: 42 (DESIGN CHOICE). -/
def islandStart (i : Nat) (s : State) : State :=
  let heard := (List.range 68).map (fun k => (k, osc s))
  modIsland i (fun x => { x with
    up := true, heard := if osc s = 0 then [] else heard, phaseAt := osc s, high := false, resetWhy := none }) s

/-- ISLAND_RESTART_COMPLETE (R560, R561): the island's firmware verifies, or it stays in reset. -/
def execIslandRestartComplete (island : Nat) (verified : Bool) (s : State) : Host.Outcome State Fault Refusal :=
  .next (if island ≠ 5 ∧ island ≠ 6 then s
    else match (islandOf s island).resetWhy with
      | none => s
      | some why =>
        if (islandOf s island).held ∨ !verified then s
        else event 0x0C23 island 0xFF island 1 [why]
          (incSat ISL_RESTART_COUNT.restarts (dieBase island) 1 (islandStart island s)))

/-- Length in ns of a phase of an island's output (R571), 0 where it has none. -/
def phaseNs (st : Nat) (high : Bool) : Nat :=
  match st with
  | 0 => 500000
  | 1 => if high then 750000 else 250000
  | _ => 0

/-- SS_OUTPUT_PHASE (R571): a phase of an island's output ends. -/
def execSsOutputPhase (island : Nat) (s : State) : Host.Outcome State Fault Refusal :=
  .next (if !watching s island ∨ phaseNs (heldState s island) (islandOf s island).high = 0 then s
    else
      let x := islandOf s island
      let s1 := passOscTo (x.phaseAt + phaseNs (heldState s island) x.high) s
      modIsland island (fun x => { x with high := !x.high, phaseAt := osc s1 }) s1)

/-- A mailbox command (R601): accepted when the argument holds 0xA55A, which it then clears. -/
def mailbox (port island st : Nat) (s : State) : State :=
  let at_ := dieBase island
  if setupStatus s port (at_ + 0x1000) ≠ 0 ∨ (island ≠ 5 ∧ island ≠ 6) ∨ !watching s island then s
  else if aget s.regs.committed ((at_ + 0x1004) * 64) 0 = 0xA55A then
    let s1 := mailboxArg (at_ + 0x1004) 0 (wr ISL_MAILBOX_STATUS.status at_ 0 s)
    if st ≤ heldState s island then s1 else commandState island st 0x38 0xFF s1
  else wr ISL_MAILBOX_STATUS.status at_ 0x0C01 s

/-- MAILBOX_DEGRADED (R601): command 0x01. -/
def execMailboxDegraded (port island : Nat) (s : State) : Host.Outcome State Fault Refusal := .next (mailbox port island 1 s)

/-- MAILBOX_SILENT (R601): command 0x02. -/
def execMailboxSilent (port island : Nat) (s : State) : Host.Outcome State Fault Refusal := .next (mailbox port island 2 s)

end Sys2Proof.Machine
end

