-- ==== Sys2Proof/Machine/Power.lean ====
section
/-! DEFINITION. Course states (R644 to R648), the die power agents (R651 to R656), forecasts (R657 to R660), the coolant
loop (R661 to R667), loss of flow and the limp profile (R668 to R672), the thermal trip (R673) and PWR_COMMIT (R675). -/

namespace Sys2Proof.Machine

open Reg

/-- Change the coolant loop's state. -/
def modCool (f : CoolState → CoolState) (s : State) : State := { s with power := { s.power with cool := f s.power.cool } }

/-! ## Course states -/

/-- Set the sleep state of a Course. -/
def sleepCourse (c k : Nat) (s : State) : State := { s with power := { s.power with sleep := aset s.power.sleep c k 0 } }

/-- Whether a Watch names Course c now or within the next t ns (R645). Under the limp profile only Watches that run
count (R672).
Log entry: 160 (DEDUCED). -/
def namedWithin (s : State) (c t : Nat) : Bool :=
  (courseOf s c).watch.isSome || (courseOf s c).switch.isSome ||
    (match nextWatch s c (now s) with
     | some (_, w, at_) => limpAllows s w.ctx && decide (at_ ≤ now s + t)
     | none => false)

/-- COURSE_RETAIN (R645): an idle Course that no Watch names within retain_after_us.
Log entry: 160 (DEDUCED). -/
def execCourseRetain (course : Nat) (s : State) : Host.Outcome State Fault Refusal :=
  .next (if course < 64 ∧ s.mode = .run ∧ courseCode s course = 1
      ∧ !namedWithin s course (com s PWR_COURSE_POLICY.retain_after_us * 1000) then sleepCourse course 2 s else s)

/-- COURSE_OFF (R645): with off_allowed set, no Watch within 1 ms, and its state saved and scrubbed.
Log entry: 160 (DEDUCED). -/
def execCourseOff (course : Nat) (s : State) : Host.Outcome State Fault Refusal :=
  let st := courseOf s course
  .next (if course < 64 ∧ s.mode = .run ∧ (courseCode s course = 1 ∨ courseCode s course = 2)
      ∧ com s PWR_COURSE_POLICY.off_allowed = 1 ∧ !namedWithin s course 1000000 ∧ 64 ≤ st.owner ∧ !st.scrub
    then setDomain course false (sleepCourse course 3 s) else s)

/-- COURSE_WAKE (R643, R646): the Course's domain comes on once both uncore domains of its die are.
Log entry: 160 (DEDUCED). -/
def execCourseWake (course : Nat) (s : State) : Host.Outcome State Fault Refusal :=
  let n := courseDie course
  .next (if course < 64 ∧ s.mode = .run ∧ domainOn s (64 + 2 * (n - 1)) ∧ domainOn s (65 + 2 * (n - 1))
    then wakeCourse course s else s)

/-! ## Power agents -/

/-- The highest set point that limits 3 and 4 of R654 allow a die, in steps of 10 MHz (R651).
Log entry: 161 (DESIGN CHOICE). -/
def clockCeiling (s : State) (n : Nat) : Nat :=
  min (thermalCeiling (agentOf s n).tj) (min 1530 s.power.flowCeiling) / 10 * 10

/-- The set points up to a ceiling, each with the edges of 64 to suppress, whose effective clock lies in a range
(R651).
Log entry: 161 (DESIGN CHOICE). -/
def clockPairs (hi lo top : Nat) : List (Nat × Nat) :=
  (List.range (hi / 10 - 19)).flatMap (fun i => (List.range 57).filterMap (fun k =>
    if lo ≤ (20 + i) * 10 * (64 - k) / 64 ∧ (20 + i) * 10 * (64 - k) / 64 ≤ top then some ((20 + i) * 10, k) else none))

/-- Note the clock of a sample (R656): a mean below a floor that is not zero over the last 10 µs, whichever sample they
begin at, goes into the report; the windows that follow one another are counted.
Log entry: 161 (DESIGN CHOICE). -/
def windowSample (n : Nat) (s : State) : State :=
  let a := agentOf s n
  let clocks := (a.clk :: a.clocks).take 100
  let floor := (budgetOf s n).floor
  let below := floor != 0 && clocks.length == 100 && decide (sumNat clocks < floor * 100)
  let k := (a.samples + 1) % 100
  let s1 := modAgent n (fun a => { a with samples := k, clocks := clocks, belowFloor := a.belowFloor || below }) s
  if k = 0 ∧ below then incSat PWR_BELOW_FLOOR_COUNT.count 0 1 s1 else s1

/-- Whether a die exceeds limit 1 or 2 of R654 or its stack cap, all of which its agent enforces (R424).
Log entry: 161 (DESIGN CHOICE). -/
def beyondCaps (s : State) (n amps core hbm : Nat) : Bool :=
  decide (130 < amps) || decide (rd s MTR_BUDGET.core_cap (dieBase n) < core) || decide (rd s MTR_BUDGET.hbm_cap (dieBase n) < hbm)

/-- The set points and stretches that R654 leaves a die's agent. Beyond a cap the clock falls: not below the floor
(R251) while it was above it, and below it where no clock does so or the floor itself does not hold the cap. Else it
does not fall but to a ceiling, and stands at or above the floor.
Log entry: 161 (DESIGN CHOICE). -/
def clockChoices (s : State) (n : Nat) (beyond : Bool) : List (Nat × Nat) :=
  let hi := clockCeiling s n
  let cur := (agentOf s n).clk
  let floor := min (budgetOf s n).floor hi
  if beyond then
    match clockPairs hi floor (cur - 1) with
    | [] => clockPairs hi 25 (max 25 (cur - 1))
    | l => l
  else clockPairs hi (min hi (max floor cur)) hi

/-- POWER_AGENT_SAMPLE (R424, R651, R654, R656): every 100 ns a die's agent measures the core current in A, the mean
core power of the last 1 µs and the mean stack power in 0.25 W, and sets its clock. The clock at which the limits are
just met is a free choice among those that they leave.
Log entry: 161 (DESIGN CHOICE). -/
def execPowerAgentSample (die amps core hbm : Nat) (s0 : State) : Host.Outcome State Fault Refusal :=
  .next (if die = 0 ∨ 4 < die ∨ s0.mode ≠ .run then s0
    else
      let s := passTo ((agentOf s0 die).sampledAt + 100) s0
      let beyond := beyondCaps s die amps core hbm
      let l := clockChoices s die beyond
      withDraw s (max 1 l.length) (fun v s =>
        let c := l.getD v (200, 0)
        windowSample die (modAgent die (fun a => { a with
          setMhz := c.1, stretch := c.2, coreAvg := core, hbmAvg := hbm, capApplied := beyond
          coreLog := (core :: a.coreLog).take 1000, hbmLog := (hbm :: a.hbmLog).take 1000, sampledAt := now s }) s)))

/-! ## Forecasts -/

/-- Entry e of a forecast (R657). -/
def forecastEntry (b : List Nat) (e : Nat) : FcEntry :=
  let r := slice b (64 + 32 * e) 32
  { start := fld r 0 8, lengthUs := fld r 8 4, core := [fld r 12 2, fld r 14 2, fld r 16 2, fld r 18 2],
    hbm := fld r 20 2, hearth := fld r 22 2 }

/-- The entries of a forecast. -/
def forecastEntries (b : List Nat) : List FcEntry := (List.range (b.getD 4 0)).map (forecastEntry b)

/-- 0x0E01 (R658).
Log entry: 162 (DEDUCED). -/
def forecastBad (b : List Nat) (seq : Nat) : Bool :=
  let n := b.getD 4 0
  fld b 0 4 != seq || n == 0 || decide (16 < n) || !zeroAt b 5 59
    || (List.range n).any (fun e => !zeroAt b (64 + 32 * e + 24) 8)
    || (forecastEntries b).any (fun e => e.lengthUs == 0 || decide (1000000 < e.lengthUs)
      || e.core.any (fun p => decide (340 < p)) || decide (320 < e.hbm) || decide (180 < e.hearth))

/-- When an entry ends, in Dial time. -/
def FcEntry.stop (e : FcEntry) : Nat := e.start + e.lengthUs * 1000

/-- Whether each entry begins no earlier than the one before it ends, and after it begins (R658).
Log entry: 162 (DEDUCED). -/
def inOrder : List FcEntry → Bool
  | a :: b :: r => decide (a.stop ≤ b.start) && inOrder (b :: r)
  | _ => true

/-- FORECAST_POST (R658): a write of seq to PWR_FCAST_POST.
Log entry: 162 (DEDUCED). -/
def execForecastPost (seq : Nat) (s : State) : Host.Outcome State Fault Refusal :=
  .next (
    let q := readMem 72 0xFF (com s PWR_FCAST_ADDR.addr) 576 [] s
    let es := forecastEntries q.2.1
    let st := if q.1 ≠ 0 ∨ forecastBad q.2.1 (seq % 2 ^ 32) then 0x0E01
      else if !inOrder es ∨ es.all (fun e => decide (e.stop ≤ dial s)) then 0x0E02 else 0
    let s1 := wr PWR_FCAST_STATUS.status 0 st q.2.2
    if st ≠ 0 then s1 else { s1 with power := { s1.power with forecast := es, staleRaised := false } })

/-- FORECAST_STALE (R660): 100 ms after the last entry ends, once.
Log entry: 162 (DEDUCED). -/
def execForecastStale (s : State) : Host.Outcome State Fault Refusal :=
  .next (match s.power.forecast.getLast? with
    | some e =>
      if s.power.staleRaised then s
      else
        let due := e.stop + 100000000
        let s1 := if dial s < due then passTo (now s + (due - dial s)) s else s
        event 0x0E35 0 0xFF 0 0 [] { s1 with power := { s1.power with staleRaised := true } }
    | none => s)

/-! ## Coolant temperatures -/

/-- Terms z^(2i+1) / (2i+1) of the series of atanh from term i on, in units of 2⁻⁶⁴. -/
def atanhSum (z2 : Int) : (fuel i : Nat) → (t : Int) → Int
  | 0, _, _ => 0
  | n + 1, i, t => t / (2 * (i : Int) + 1) + atanhSum z2 n (i + 1) (t * z2 / 2 ^ 64)

/-- The natural logarithm of a ratio of positive numbers, in units of 2⁻⁶⁴: the power of two, then
2 atanh ((m − 1) / (m + 1)) for the rest m. -/
def lnRatio (num den : Nat) : Int :=
  let k : Int := (Nat.log2 num : Int) - Nat.log2 den
  let a : Int := num * 2 ^ Nat.log2 den
  let b : Int := den * 2 ^ Nat.log2 num
  let z := (a - b) * 2 ^ 64 / (a + b)
  k * 12786308645202655660 + 2 * atanhSum (z * z / 2 ^ 64) 30 0 z

/-- The temperature in 0.01 °C that a converter reading of 16 bits stands for: a 10 kΩ thermistor of β 3,435 K below a
10 kΩ resistor from the converter's own reference (R661, R749).
Log entry: 163 (DEDUCED). -/
def celsius (code : Nat) : Int :=
  let d := 343500 * 2 ^ 64 + 29815 * lnRatio code (65536 - code)
  (2 * (29815 * 3435 * 100 * 2 ^ 64) + d) / (2 * d) - 27315

/-- Whether a reading lies in the validity window, 0.094 V to 1.749 V of a reference of 1.800 V (R749). -/
def inWindow (code : Nat) : Bool := decide (94 * 65536 ≤ 1800 * code) && decide (1800 * code ≤ 1749 * 65536)

/-- A thermistor's temperature in 0.01 °C from the mean of its samples, none where it lies outside its window (R661,
R749).
Log entry: 163 (DEDUCED). -/
def thermistor (l : List Nat) : Option Int :=
  let m := l.foldl (· + ·) 0 / max 1 l.length
  if inWindow m then some (celsius m) else none

/-- Form a point from its two thermistors (R662): `base` is the event's number of the first, `which` that of the point.
Log entry: 163 (DEDUCED). -/
def formPoint (a b : Option Int) (p : CoolPoint) (base which : Nat) (s : State) : CoolPoint × State :=
  let t := now s
  let q : CoolPoint := match a, b with
    | some x, some y =>
      if (x - y).natAbs ≤ 200 then { value := some ((x + y) / 2) }
      else
        let since := p.apartSince.getD t
        if since + 1000000000 ≤ t then { code := 3, apartSince := some since }
        else { apartSince := some since, value := some ((x + y) / 2) }
    | some x, none => { code := 2, value := some x }
    | none, some y => { code := 1, value := some y }
    | none, none => { code := 3 }
  let s1 := if q.code = p.code then s
    else match q.code with
      | 0 => s
      | 1 => event 0x0E30 0 0xFF 0 1 [base] s
      | 2 => event 0x0E30 0 0xFF 0 1 [base + 1] s
      | _ => event 0x0E31 0 0xFF 0 2 [which] s
  (q, s1)

/-- A temperature as PWR_COOLANT_T codes it. -/
def tempCode (v : Option Int) : Nat := match v with | some t => enc t 16 | none => 0x8000

/-- The inlet against its limit (R665): 65 °C for glycol, 45 °C for water. -/
def checkInlet (s : State) : State :=
  let c := s.power.cool
  let limit : Int := if com s PWR_COOL_CFG.coolant = 1 then 4500 else 6500
  let hot := match c.inlet.value with | some t => decide (limit + 200 < t) | none => false
  if !hot then modCool (fun c => { c with hotSince := none, hotTold := false }) s
  else
    let since := c.hotSince.getD (now s)
    let s1 := modCool (fun c => { c with hotSince := some since }) s
    if since + 10000000000 ≤ now s ∧ !c.hotTold then
      event 0x0E37 0 0xFF 0 2 [] (modCool (fun c => { c with hotTold := true }) s1)
    else s1

/-- THERMISTOR_SAMPLE (R661, R662, R665, R749): the four thermistors are sampled, at 1 kHz, as the 16-bit converter reads
them.
Log entry: 179 (DESIGN CHOICE). -/
def execThermistorSample (tinA tinB toutA toutB : Nat) (s : State) : Host.Outcome State Fault Refusal :=
  .next (if s.mode ≠ .run then s
    else
      let s1 := passTo (s.power.cool.sampledAt + 1000000) s
      let w := (s1.power.cool.samples.zip [tinA, tinB, toutA, toutB]).map (fun e => (e.2 :: e.1).take 16)
      let v := fun (k : Nat) => thermistor (w.getD k [])
      let i := formPoint (v 0) (v 1) s1.power.cool.inlet 0 0 s1
      let o := formPoint (v 2) (v 3) s1.power.cool.outlet 2 1 i.2
      let s2 := modCool (fun c => { c with samples := w, inlet := i.1, outlet := o.1, sampledAt := now s1 }) o.2
      checkInlet (wr PWR_COOLANT_T.outlet 0 (tempCode o.1.value) (wr PWR_COOLANT_T.inlet 0 (tempCode i.1.value) s2)))

/-! ## Flow -/

/-- Latch a flow input invalid (R661): 0 FLOW_A, 1 FLOW_B.
Log entry: 163 (DEDUCED). -/
def latchFlow (k : Nat) (s : State) : State :=
  let x := if k = 0 then s.power.cool.flowA else s.power.cool.flowB
  if x.latched then s
  else
    let s1 := modCool (fun c => if k = 0 then { c with flowA := { c.flowA with latched := true } }
      else { c with flowB := { c.flowB with latched := true } }) s
    event 0x0E36 0 0xFF 0 1 [4 + k] s1

/-- Add an edge to an input, keeping those of the last 100 ms. -/
def FlowInput.edge (x : FlowInput) (t : Nat) : FlowInput :=
  { x with pulses := (t :: x.pulses).filter (fun p => decide (t ≤ p + 100000000)), last := t }

/-- FLOW_PULSE (R661): a filtered rising edge on FLOW_A (0) or FLOW_B (1); more than 500 in 100 ms are above 5 kHz.
Log entry: 163 (DEDUCED). -/
def execFlowPulse (input samples : Nat) (s : State) : Host.Outcome State Fault Refusal :=
  .next (if 1 < input ∨ s.mode ≠ .run ∨ !filtered (com s PWR_COOL_REQ_CFG.flow_filt 0) samples then s
    else
      let s1 := modCool (fun c => if input = 0 then { c with flowA := c.flowA.edge (now s) }
        else { c with flowB := c.flowB.edge (now s) }) s
      let x := if input = 0 then s1.power.cool.flowA else s1.power.cool.flowB
      if 500 < x.pulses.length then latchFlow input s1 else s1)

/-- The flow of an input in 0.01 L/min from the pulse periods of the last 100 ms (R663). -/
def FlowInput.rate (x : FlowInput) (t k : Nat) : Nat :=
  let p := x.pulses.filter (fun e => decide (t ≤ e + 100000000))
  match p.head?, p.getLast? with
  | some a, some b => if b < a then 6000 * (p.length - 1) * 1000000000 / ((a - b) * max 1 k) else 0
  | _, _ => 0

/-- The flow formed from the two inputs, and whether they are apart (R663): more than 10 % of the higher.
Log entry: 163 (DEDUCED). -/
def formFlow (s : State) : Option Nat × Bool :=
  let c := s.power.cool
  let k := com s PWR_COOL_CFG.flow_k
  let a := c.flowA.rate (now s) k
  let b := c.flowB.rate (now s) k
  match c.flowA.latched, c.flowB.latched with
  | false, false => (some (min a b), decide (max a b < 10 * (max a b - min a b)))
  | false, true => (some a, false)
  | true, false => (some b, false)
  | true, true => (none, false)

/-- Nominal flow in 0.01 L/min. -/
def nominalFlow (s : State) : Nat := com s PWR_COOL_CFG.nominal_flow * 10

/-- The flow ceiling of R668 for a flow.
Log entry: 164 (DEDUCED). -/
def ceilingFor (s : State) (f : Nat) : Nat := max 200 (min 1530 (1530 * f * 100 / (70 * max 1 (nominalFlow s))))

/-- Set the flow ceiling. -/
def setCeiling (v : Nat) (s : State) : State := refreshCeiling { s with power := { s.power with flowCeiling := v } }

/-- Low and restored flow (R668).
Log entry: 164 (DEDUCED). -/
def judgeFlow (f : Option Nat) (s : State) : State :=
  let t := now s
  let low := match f with | some x => decide (x * 100 < 70 * nominalFlow s) | none => false
  let high := match f with | some x => decide (75 * nominalFlow s ≤ x * 100) | none => false
  let c := s.power.cool
  let lowAt := if low then some (c.lowSince.getD t) else none
  let highAt := if high then some (c.highSince.getD t) else none
  let s1 := modCool (fun c => { c with lowSince := lowAt, highSince := highAt }) s
  let held := fun (x : Option Nat) => match x with | some a => decide (a + 10000000000 ≤ t) | none => false
  if !rdB s PWR_STATUS.flow_low then
    if held lowAt then
      let v := f.getD 0
      setCeiling (ceilingFor s v) (modCool (fun c => { c with ceilingAt := t })
        (event 0x0E32 0 0xFF 0 1 (leBytes 2 v) (wrB PWR_STATUS.flow_low 0 true s1)))
    else s1
  else if held highAt then setCeiling 1530 (event 0x0E33 0 0xFF 0 0 [] (wrB PWR_STATUS.flow_low 0 false s1))
  else if c.ceilingAt + 100000000 ≤ t then
    match f with
    | some v => setCeiling (ceilingFor s v) (modCool (fun c => { c with ceilingAt := t }) s1)
    | none => s1
  else s1

/-- Whether flow has stopped (R669).
Log entry: 164 (DEDUCED). -/
def flowStopped (s : State) : Bool :=
  let c := s.power.cool
  let valid := ([c.flowA, c.flowB]).filter (fun x => !x.latched)
  if valid.isEmpty then
    let rises := (c.outlets.zip c.outlets.tail).map (fun e => match e.1, e.2 with
      | some a, some b => decide (b + 4 ≤ a)
      | _, _ => false)
    decide (4 ≤ rises.length) && (rises.take 4).all (fun x => x)
  else valid.all (fun x => decide (x.last + 40000000 ≤ now s))

/-- Stop the Watches of contexts that are not critical (R672).
Log entry: 164 (DEDUCED). -/
def limpCourse (s : State) (c : Nat) : State :=
  if (courseOf s c).watch.isNone ∨ limpAllows s (courseCtx s c) then s
  else requestStop c (wr TRW_COURSE_STATE.context (atCourse c 0x100) 0xFF
    (modCourse c (fun x => { x with watch := none, preempt := true, testsLeft := 0 }) s))

/-- The limp profile (R671, R672).
Log entry: 164 (DEDUCED). -/
def limpProfile (s : State) : State :=
  let s1 := wrB PWR_STATUS.limp 0 true s
  let s2 := [1, 2, 3, 4].foldl (fun s n => sendGrant n (capTarget s n).1 (capTarget s n).2 s) s1
  let s3 := [78, 79, 80, 81].foldl (fun s d => setDomain d false s)
    { s2 with input := { s2.input with engines := [{}, {}, {}, {}] } }
  event 0x0E34 0 0xFF 0 2 [] (wr PWR_COOL_DUTY.duty 0 950 ((List.range 64).foldl limpCourse s3))

/-- The electrical power from the reports, without the Hearth's own measurement, in 0.25 W (R664). -/
def reportedPower (s : State) : Nat :=
  12 + sumNat ([1, 2, 3, 4].map (fun n => (budgetOf s n).coreAvg + (budgetOf s n).hbmAvg))

/-- Add a measurement to the calorimetric interval (R664).
Log entry: 163 (DEDUCED). -/
def calSample (f : Option Nat) (s : State) : State :=
  match f, s.power.cool.inlet.value, s.power.cool.outlet.value with
  | some v, some i, some o => modCool (fun c => { c with
      calN := c.calN + 1, calFlow := c.calFlow + v, calDelta := c.calDelta + (o - i), calPower := c.calPower + reportedPower s }) s
  | _, _, _ => s

/-- FLOW_MEASURE (R663, R668, R669, R671): every 10 ms. -/
def execFlowMeasure (s : State) : Host.Outcome State Fault Refusal :=
  .next (if s.mode ≠ .run then s
    else
      let s1 := passTo (s.power.cool.measuredAt + 10000000) s
      let f := formFlow s1
      let s2 := if f.2 ∧ !s1.power.cool.apartTold then
          event 0x0E30 0 0xFF 0 1 [6] (modCool (fun c => { c with apartTold := true }) s1) else s1
      let s3 := modCool (fun c => { c with
        measuredAt := now s1, flow := f.1, outlets := (c.outlet.value :: c.outlets).take 5 }) s2
      let s4 := wrB PWR_FLOW.flow_a_valid 0 (!s3.power.cool.flowA.latched) (wrB PWR_FLOW.flow_b_valid 0
        (!s3.power.cool.flowB.latched) (wr PWR_FLOW.flow 0 (satTo (f.1.getD 0) 0xFFFF) s3))
      let s5 := judgeFlow f.1 (calSample f.1 s4)
      if flowStopped s5 ∧ !rdB s5 PWR_STATUS.limp then limpProfile s5 else s5)

/-- CALORIMETRIC_CHECK (R664): every 10 s, with the Hearth's own mean power in 0.25 W. The two means are compared as
exact fractions.
Log entry: 163 (DEDUCED). -/
def execCalorimetricCheck (hearth : Nat) (s : State) : Host.Outcome State Fault Refusal :=
  .next (if s.mode ≠ .run ∨ rdB s PWR_STATUS.cal_fault then s
    else
      let s1 := passTo (s.power.cool.calAt + 10000000000) s
      let c := s1.power.cool
      let s2 := modCool (fun c => { c with calN := 0, calFlow := 0, calDelta := 0, calPower := 0, calAt := now s1 }) s1
      let n := c.calN
      let p := c.calPower + hearth * n
      if n = 0 ∨ c.flow.isNone ∨ c.inlet.value.isNone ∨ c.outlet.value.isNone ∨ p < 400 * n then s2
      else
        let k : Int := if com s PWR_COOL_CFG.coolant = 1 then 4150 else 3550
        let q : Int := (c.calFlow : Int) * k * c.calDelta * 4
        let u : Nat := 600000 * n
        let s3 := wr PWR_HEAT.q_cal 0 (satTo (q / (u * n : Nat)).toNat 0xFFFF) (wr PWR_HEAT.p_el 0 (satTo (p / n) 0xFFFF) s2)
        if u * p < (q - (u * p : Nat)).natAbs * 4 then event 0x0E31 0 0xFF 0 2 [2] (wrB PWR_STATUS.cal_fault 0 true s3) else s3)

/-! ## The pump request -/

/-- The largest package power among the forecast entries not yet ended, in 0.25 W (R666).
Log entry: 165 (DEDUCED). -/
def forecastPower (s : State) : Nat :=
  match entryAt s (dial s) with
  | none => 1920
  | some _ => (s.power.forecast.filter (fun e => decide (dial s < e.stop))).foldl
      (fun m e => max m (sumNat e.core + e.hbm + e.hearth)) 0

/-- The duty of COOL_REQ in 0.1 % (R666).
Log entry: 165 (DEDUCED). -/
def coolDuty (s : State) : Nat :=
  let idle := com s PWR_COOL_REQ_CFG.duty_idle * 10
  let full := rdB s PWR_STATUS.flow_low || rdB s PWR_STATUS.limp || rdB s PWR_STATUS.cal_fault || dieSilent s 0
    || rdB s PWR_STATUS.trip_seen
  match s.mode with
  | .deepNight => 50
  | .night => idle
  | _ =>
    match s.power.cool.outlet.value with
    | none => 950
    | some t =>
      if full then 950
      else
        let back : Int := (com s PWR_COOL_SET.gain : Int) * 10 * (t - sext (com s PWR_COOL_SET.outlet_set) 8 * 100) / 100
        let d : Int := (idle + (950 - idle) * forecastPower s / 1920 : Nat) + back
        (max (idle : Int) (min 950 d)).toNat

/-- COOL_REQ_UPDATE (R666): every 10 ms.
Log entry: 165 (DEDUCED). -/
def execCoolReqUpdate (s : State) : Host.Outcome State Fault Refusal :=
  .next (if s.mode = .unpowered ∨ s.mode = .stopped then s
    else
      let s1 := passTo (s.power.cool.dutyAt + 10000000) s
      wr PWR_COOL_DUTY.duty 0 (coolDuty s1) (modCool (fun c => { c with dutyAt := now s1 }) s1))

/-! ## PWR_COMMIT -/

/-- The fields that PWR_COMMIT commits. -/
def pwrFields : List (Field × Nat) :=
  [(PWR_PKG_CAP.cap_w, 0), (PWR_COOL_CFG.coolant, 0), (PWR_COOL_CFG.nominal_flow, 0), (PWR_COOL_CFG.flow_k, 0),
   (PWR_COOL_REQ_CFG.pwm_hz, 0), (PWR_COOL_REQ_CFG.duty_idle, 0), (PWR_COOL_REQ_CFG.flow_filt, 0),
   (PWR_COOL_SET.outlet_set, 0), (PWR_COOL_SET.gain, 0), (PWR_COURSE_POLICY.retain_after_us, 0),
   (PWR_COURSE_POLICY.off_allowed, 0), (PWR_FCAST_ADDR.addr, 0)]

/-- The checks of PWR_COMMIT (R675, R767). -/
def pwrChecks (s : State) : List (Bool × Refuse) :=
  let out := fun (f : Field) (lo hi : Nat) => decide (stg s f < lo) || decide (hi < stg s f)
  let a := stg s PWR_FCAST_ADDR.addr
  [(out PWR_PKG_CAP.cap_w 180 480, (0x0002, 0x1200000)),
   (out PWR_COOL_CFG.nominal_flow 20 80 || out PWR_COOL_CFG.flow_k 3000 37500, (0x0002, 0x1200004)),
   (out PWR_COOL_REQ_CFG.pwm_hz 100 25000 || out PWR_COOL_REQ_CFG.duty_idle 5 95 || out PWR_COOL_REQ_CFG.flow_filt 1 255,
    (0x0002, 0x1200008)),
   (out PWR_COOL_SET.gain 0 100, (0x0002, 0x120000C)),
   (out PWR_COURSE_POLICY.retain_after_us 10 65535, (0x0002, 0x1200010)),
   (a % 64 != 0, (0x0003, 0x1200018)),
   (!rangeHost s a 576, (0x0004, 0x1200018))]

/-- PWR_COMMIT (R675). -/
def execPwrCommit (value : Nat) (s : State) : Host.Outcome State Fault Refusal :=
  .next (commit 0 0x120003C value (pwrChecks s) (acceptStaged pwrFields) s)

end Sys2Proof.Machine
end

