-- ==== Sys2Proof/Machine/Dawn.lean ====
section
/-! DEFINITION. Dawn and the resets of the whole package (R399 to R401, R706 to R715, R736 to R746), the thermal trip
(R673), the input filters (R754) and the islands' reset inputs. -/

namespace Sys2Proof.Machine

open Reg

/-- Change Nightwatch's state. -/
def modNwt (f : NwtState → NwtState) (s : State) : State := { s with nwt := f s.nwt }

/-- Every die silent (R570). -/
def allSilent : AMap Bool := [(0, true), (1, true), (2, true), (3, true), (4, true)]

/-! ## What a reset clears and keeps (R710) -/

/-- Give fields the values that they had in another state. -/
def keepFields (l : List (Field × Nat)) (old s : State) : State := l.foldl (fun s fa => wr fa.1 fa.2 (rd old fa.1 fa.2) s) s

/-- The levels of the discrete inputs.
Log entry: 179 (DESIGN CHOICE). -/
def inputFields : List (Field × Nat) :=
  [(NWT_INPUT_STATE.pwr_good, 0), (NWT_INPUT_STATE.warm_rst_n, 0), (NWT_INPUT_STATE.wake_n, 0), (NWT_INPUT_STATE.flow_a, 0),
   (NWT_INPUT_STATE.flow_b, 0), (NWT_INPUT_STATE.thermtrip_n, 0)]

/-- The latched faults of the discrete inputs. -/
def faultFields : List (Field × Nat) :=
  [(NWT_INPUT_FAULT.warm_stuck, 0), (NWT_INPUT_FAULT.warm_toggle, 0), (NWT_INPUT_FAULT.wake_stuck, 0),
   (NWT_INPUT_FAULT.wake_toggle, 0)]

/-- The straps of Course die n (R399). -/
def strapFields (n : Nat) : List (Field × Nat) :=
  [(MTR_DIE_ID.position, dieBase n), (MTR_DIE_ID.orientation, dieBase n), (MTR_DIE_ID.strap_fault, dieBase n)]

/-- The fence maps of Course c (R534). -/
def fenceFields (c : Nat) : List (Field × Nat) :=
  [(TRW_FENCE_MAP.brick_fenced, atCourse c 0x100), (TRW_LINK_FENCE.link_fenced, atCourse c 0x100),
   (TRW_COURSE_STATE.course_fenced, atCourse c 0x100)]

/-- The setup registers of an island.
Log entry: 172 (DEDUCED). -/
def keepIslandRegs (old s : State) : State :=
  let mine := fun (m : AMap Nat) => m.filter (fun e => decide (dieBase 5 * 64 ≤ e.1) && decide (e.1 < dieBase 7 * 64))
  let rest := fun (m : AMap Nat) => m.filter (fun e => !(decide (dieBase 5 * 64 ≤ e.1) && decide (e.1 < dieBase 7 * 64)))
  { s with regs := { s.regs with live := rest s.regs.live ++ mine old.regs.live,
                                 committed := rest s.regs.committed ++ mine old.regs.committed } }

/-- Keystone after a reset (R698, R710): fuses, key store and record stay, policies are cleared, and a cold reset
relocks the debug port.
Log entries: 168 (DEDUCED), 172 (DEDUCED). -/
def resetKey (cold : Bool) (k : KeyState) : KeyState :=
  { k with policies := k.policies.map (fun e => (e.1, ({ gen := e.2.gen } : PolicySlot)))
           half := none
           unlocked := if cold then 0 else k.unlocked
           everUnlocked := !cold && k.everUnlocked }

/-- A Brick after a reset: its strikes, fences and last test survive every reset but a cold one (R534).
Log entry: 172 (DEDUCED). -/
def resetBrick (cold : Bool) (b : BrickState) : BrickState :=
  if cold then {} else { b with replayWindow := none, sufferedWindow := none }

/-- The package with everything cleared that a cold or a warm reset clears (R710), in a mode.
Log entry: 172 (DEDUCED). -/
def resetPackage (cold : Bool) (mode : PkgMode) (s : State) : State :=
  let t : State := {
    pending := s.pending, fresh := s.fresh, out := s.out, bus := s.bus, perst := s.perst, silent := allSilent, mode := mode
    clock := { count := s.clock.count, nightFrac := s.clock.nightFrac, osc := s.clock.osc, tickPhase := s.clock.tickPhase }
    mem := { ext := s.mem.ext, hostErr := s.mem.hostErr, nextKey := s.mem.nextKey,
             ceFrame := if cold then [] else s.mem.ceFrame, ceRaised := if cold then [] else s.mem.ceRaised }
    rings := { ctxs := s.rings.ctxs.map (fun e => (e.1, ({ keyGen := e.2.keyGen } : CtxState))),
               store := s.rings.store.map (fun e => (e.1, ({ gen := e.2.gen } : StoreSlot))) }
    fab := { nextLaunch := s.fab.nextLaunch, packs := s.fab.packs,
             bricks := if cold then [] else s.fab.bricks.map (fun e => (e.1, resetBrick false e.2)) }
    key := resetKey cold s.key
    power := { enMain := s.power.enMain, tripped := s.power.tripped }
    isl := { matin := { held := s.isl.matin.held }, vesper := { held := s.isl.vesper.held } }
    nwt := { s.nwt with waitWarm := false, target := 0, stopped := false, wake := none,
                        lockedRate := if cold then none else s.nwt.lockedRate } }
  let kept := [(NWT_DIAL_NOW.dial_ns, 0), (PWR_STATUS.trip_seen, 0), (FAB_PACK_SET.set_version, 0)] ++ inputFields
    ++ (if cold then [] else faultFields ++ [1, 2, 3, 4].flatMap strapFields ++ (List.range 64).flatMap fenceFields)
  keepFields kept s t

/-! ## The start of Dawn -/

/-- The orientation that R18 gives a die. -/
def orientationOf (n : Nat) : Nat := match n with | 2 => 2 | 4 => 3 | _ => 0

/-- Sample the straps of the Course dies: bits [1:0] the position, bits [3:2] the orientation (R399, R400). -/
def sampleStraps (straps : List Nat) (s : State) : State :=
  [1, 2, 3, 4].foldl (fun s n =>
    let v := straps.getD (n - 1) (n - 1 + 4 * orientationOf n)
    wrB MTR_DIE_ID.strap_fault (dieBase n) (bits v 2 2 != orientationOf (bits v 0 2 + 1))
      (wr MTR_DIE_ID.orientation (dieBase n) (bits v 2 2) (wr MTR_DIE_ID.position (dieBase n) (bits v 0 2) s))) s

/-- What Course die n shows of itself: its stepping, its feature word, which has bit 0 set and no other (R414), and its
physical ports.
Log entry: 3 (DESIGN CHOICE). -/
def showDie (n : Nat) (s : State) : State :=
  let at_ := dieBase n
  let s1 := wr MTR_FEATURE.feature at_ 1 (wr MTR_DIE_ID.minor at_ (Config.dieMinor n) (wr MTR_DIE_ID.major at_ (Config.dieMajor n) s))
  [0, 1, 2].foldl (fun s p => wr MTR_PORT_STATUS.phys_port (portAt n p) (physPort (rd s MTR_DIE_ID.orientation at_) p) s) s1

/-- Step 1 of Dawn and the training of the ports (R403, R711): a die with a strap fault brings up none of its own.
Log entry: 171 (DEDUCED). -/
def dawnStep1 (s : State) : State :=
  let s1 := wr NWT_DAWN_STATUS.step 0 1 { modNwt (fun x => { x with waitWarm := false, dawnAt := now s }) s with mode := .dawn }
  allEnds.foldl (fun s e =>
    if e.1 ≠ 0 ∧ rdB s MTR_DIE_ID.strap_fault (dieBase e.1) then s else beginTraining e.1 e.2 1 s) s1

/-- Dial time after power-on with the Nightwatch supply lost starts at 0 at power-good (R35). -/
def dialFromZero (s : State) : State :=
  wr NWT_DIAL_NOW.dial_ns 0 0 { s with clock := { s.clock with nightFrac := 0, tickPhase := 0 } }

/-- Start a Dawn (R706, R710): `kind` as NWT_RESET_CAUSE codes it; kinds 0 and 1 are cold. `straps` are sampled at a cold
one. -/
def beginDawn (kind : Nat) (straps : List Nat) (s : State) : State :=
  let cold := decide (kind ≤ 1)
  let s1 := if kind = 0 then dialFromZero (resetPackage cold .dawn s) else resetPackage cold .dawn s
  let s2 := if cold then sampleStraps straps s1 else s1
  let s3 := wrB NWT_RESET_CAUSE.nightwatch_lost 0 s.nwt.lost (wr NWT_RESET_CAUSE.kind 0 kind ([1, 2, 3, 4].foldl (fun s n => showDie n s) s2))
  modNwt (fun x => { x with lost := false, deepExit := false }) s3

/-- PWR_GOOD_RISE (R706): cold after the Nightwatch supply was absent, else warm; while the thermal trip holds, no Dawn
starts (R673).
Log entry: 7 (DEDUCED). -/
def execPwrGoodRise (straps : List Nat) (samples : Nat) (s : State) : Host.Outcome State Fault Refusal :=
  .next (if rdB s NWT_INPUT_STATE.pwr_good ∨ !s.nwt.supply ∨ !filtered 16 samples then s
    else
      let s1 := wrB NWT_INPUT_STATE.pwr_good 0 true s
      if s.power.tripped then s1
      else dawnStep1 (beginDawn (if s.nwt.lost then 0 else if s.nwt.deepExit then 5 else 4) straps s1))

/-- PWR_GOOD_FALL (R708): every die but Nightwatch and the islands stops.
Log entry: 172 (DEDUCED). -/
def execPwrGoodFall (samples : Nat) (s : State) : Host.Outcome State Fault Refusal :=
  .next (if !rdB s NWT_INPUT_STATE.pwr_good ∨ !filtered 16 samples then s
    else
      let s1 := modNwt (fun x => { x with goodLowAt := now s }) (wrB NWT_INPUT_STATE.pwr_good 0 false s)
      if s.mode = .deepNight then s1
      else { keepIslandRegs s (resetPackage false .stopped s1) with isl := s.isl })

/-! ## Supplies and the thermal trip -/

/-- NIGHTWATCH_SUPPLY_UP (R737): PWR_EN_MAIN rises once VDD_NW is in range. -/
def execNightwatchSupplyUp (s : State) : Host.Outcome State Fault Refusal :=
  .next (if s.nwt.supply then s
    else modNwt (fun x => { x with supply := true, goodLowAt := now s }) { s with power := { s.power with enMain := true } })

/-- NIGHTWATCH_SUPPLY_LOSS (R706): Dial time, trip_seen and all else that Nightwatch retains are lost, and so is
Keystone's monitor (R703).
Log entry: 172 (DEDUCED). -/
def execNightwatchSupplyLoss (s : State) : Host.Outcome State Fault Refusal :=
  .next (if !s.nwt.supply then s
    else
      let t := resetPackage true .unpowered s
      { t with
        regs := { live := aset [] (fkey FAB_PACK_SET.set_version 0) (rd s FAB_PACK_SET.set_version) 0 }
        clock := { count := s.clock.count }
        key := { t.key with monitor := none }
        power := {}
        nwt := { supply := false } })

/-- THERMAL_TRIP (R673, R737): a junction at 130 °C or a CATTRIP stops every PLL, THERMTRIP_N and PWR_EN_MAIN go low. -/
def execThermalTrip (s : State) : Host.Outcome State Fault Refusal :=
  .next (if s.power.tripped ∨ !s.nwt.supply ∨ s.mode = .unpowered ∨ s.mode = .deepNight then s
    else
      let s1 := wrB PWR_STATUS.trip_seen 0 true (wrB NWT_INPUT_STATE.thermtrip_n 0 false s)
      let t := resetPackage false .stopped s1
      { keepIslandRegs s t with isl := s.isl, power := { t.power with tripped := true, enMain := false } })

/-- THERMAL_TRIP_RELEASE (R673, R737): after PWR_GOOD has been low for 10 s.
Log entry: 175 (DEDUCED). -/
def execThermalTripRelease (s : State) : Host.Outcome State Fault Refusal :=
  .next (if !s.power.tripped ∨ rdB s NWT_INPUT_STATE.pwr_good then s
    else
      let s1 := wrB NWT_INPUT_STATE.thermtrip_n 0 true (passTo (s.nwt.goodLowAt + 10000000000) s)
      { s1 with power := { s1.power with tripped := false, enMain := true } })

/-! ## The reset and wake inputs -/

/-- A wake takes effect (R723, R726): in Night the exit begins, in entry it waits, in Deep Night PWR_EN_MAIN rises. The
ports train under new epochs. -/
def wakeUp (byAlarm : Bool) (s : State) : State :=
  match s.mode with
  | .night =>
    allEnds.foldl (fun s e => startTraining e.1 e.2 s)
      (wrB NWT_NIGHT_STATUS.by_alarm 0 byAlarm (wrB NWT_NIGHT_STATUS.busy 0 true { s with mode := .nightExit }))
  | .nightEntry => modNwt (fun x => { x with wake := some byAlarm }) s
  | .deepNight =>
    wrB NWT_NIGHT_STATUS.by_alarm 0 byAlarm
      (modNwt (fun x => { x with deepExit := true }) { s with power := { s.power with enMain := true } })
  | _ => s

/-- Note a fall of a pin.
Log entry: 175 (DEDUCED). -/
def PinState.fall (p : PinState) (t : Nat) : PinState :=
  { p with falls := (t :: p.falls).filter (fun x => decide (t < x + 1000000000)) }

/-- Whether a pin acts at an instant (R743): armed, or inactive for 100 ms since its latch was cleared.
Log entry: 175 (DEDUCED). -/
def PinState.acts (p : PinState) (t : Nat) (latched : Bool) : Bool :=
  !latched && (p.armed || decide (p.highAt + 100000000 ≤ t))

/-- WARM_RST_FALL (R706, R742, R744, R745): more than ten falls in 1 s latch the input, which then is taken high.
Log entry: 175 (DEDUCED). -/
def execWarmRstFall (samples : Nat) (s : State) : Host.Outcome State Fault Refusal :=
  let t := now s
  let p := s.nwt.warm.fall t
  let latched := rdB s NWT_INPUT_FAULT.warm_stuck || rdB s NWT_INPUT_FAULT.warm_toggle
  .next (if !s.nwt.supply ∨ !rdB s NWT_INPUT_STATE.warm_rst_n ∨ !filtered (com s NWT_INPUT_FILTER.warm_filt 0) samples then s
    else
      let s1 := modNwt (fun x => { x with warm := { p with armed := p.acts t latched } })
        (wrB NWT_INPUT_STATE.warm_rst_n 0 false s)
      if !p.acts t latched then s1
      else if 10 < p.falls.length then
        modNwt (fun x => { x with warm := { p with armed := false } }) (wrB NWT_INPUT_FAULT.warm_toggle 0 true s1)
      else match s.mode with
        | .unpowered | .stopped => s1
        | .deepNight => wakeUp false s1
        | _ => modNwt (fun x => { x with waitWarm := true }) (beginDawn 2 [] s1))

/-- WARM_RST_RISE (R744): step 1 of the warm Dawn begins.
Log entry: 175 (DEDUCED). -/
def execWarmRstRise (samples : Nat) (s : State) : Host.Outcome State Fault Refusal :=
  .next (if rdB s NWT_INPUT_STATE.warm_rst_n ∨ !filtered (com s NWT_INPUT_FILTER.warm_filt 0) samples then s
    else
      let s1 := modNwt (fun x => { x with warm := { x.warm with highAt := now s } }) (wrB NWT_INPUT_STATE.warm_rst_n 0 true s)
      if s.nwt.waitWarm then dawnStep1 s1 else s1)

/-- Whether boot_flags, wake_mask and NWT_NIGHT_CTRL permit a wake by the pin or by the alarm (R723). -/
def wakePermitted (s : State) (alarm : Bool) : Bool :=
  bit s.nwt.boot.wakeMask (if alarm then 1 else 0)
    && com s (if alarm then NWT_NIGHT_CTRL.wake_alarm else NWT_NIGHT_CTRL.wake_pin) == 1

/-- WAKE_N_FALL (R723, R726, R742): a low that lasts past the filter.
Log entry: 175 (DEDUCED). -/
def execWakeNFall (samples : Nat) (s : State) : Host.Outcome State Fault Refusal :=
  let t := now s
  let p := s.nwt.wakePin.fall t
  let latched := rdB s NWT_INPUT_FAULT.wake_stuck || rdB s NWT_INPUT_FAULT.wake_toggle
  .next (if !s.nwt.supply ∨ !filtered (com s NWT_INPUT_FILTER.wake_filt 0) samples then s
    else
      let s1 := modNwt (fun x => { x with wakePin := { p with armed := p.acts t latched, highAt := t } }) s
      if !p.acts t latched then s1
      else if 10 < p.falls.length then
        modNwt (fun x => { x with wakePin := { p with armed := false, highAt := t } }) (wrB NWT_INPUT_FAULT.wake_toggle 0 true s1)
      else if wakePermitted s false then wakeUp false s1 else s1)

/-- DIAL_ALARM (R723): Dial time reaches NWT_NIGHT_WAKE_AT. -/
def execDialAlarm (s : State) : Host.Outcome State Fault Refusal :=
  .next (if wakePermitted s true ∧ (s.mode = .night ∨ s.mode = .nightEntry ∨ s.mode = .deepNight) then
      wakeUp true (passTo (now s + (com s NWT_NIGHT_WAKE_AT.alarm - dial s)) s)
    else s)

/-- INPUT_STUCK (R741, R744): 0 WARM_RST_N, 1 WAKE_N, 2 FLOW_A, 3 FLOW_B (R661).
Log entry: 175 (DEDUCED). -/
def execInputStuck (input : Nat) (s : State) : Host.Outcome State Fault Refusal :=
  .next (match input with
    | 0 =>
      if rdB s NWT_INPUT_STATE.warm_rst_n ∨ !s.nwt.supply then s
      else
        let s1 := passTo ((s.nwt.warm.falls.head?).getD 0 + 1000000000) s
        let s2 := modNwt (fun x => { x with warm := { x.warm with armed := false } }) (wrB NWT_INPUT_FAULT.warm_stuck 0 true s1)
        if s.nwt.waitWarm then dawnStep1 s2 else s2
    | 1 =>
      match s.nwt.wakePin.falls.head? with
      | none => s
      | some t => modNwt (fun x => { x with wakePin := { x.wakePin with armed := false, highAt := t + 10000000000 } })
          (wrB NWT_INPUT_FAULT.wake_stuck 0 true (passTo (t + 10000000000) s))
    | 2 => if s.mode = .run then latchFlow 0 (passTo (s.power.cool.flowA.last + 100000000) s) else s
    | 3 => if s.mode = .run then latchFlow 1 (passTo (s.power.cool.flowB.last + 100000000) s) else s
    | _ => s)

/-- NWT_INPUT_COMMIT (R754): a filter of 0 is refused. -/
def execNwtInputCommit (value : Nat) (s : State) : Host.Outcome State Fault Refusal :=
  .next (commit 0 0x1021C value
    [(stg s NWT_INPUT_FILTER.warm_filt == 0 || stg s NWT_INPUT_FILTER.wake_filt == 0, (0x0002, 0x10200))]
    (acceptStaged [(NWT_INPUT_FILTER.warm_filt, 0), (NWT_INPUT_FILTER.wake_filt, 0)]) s)

/-! ## Reset requests -/

/-- Write the result of a reset request (R727). -/
def resetDone (r : Refuse) (s : State) : State := commitDone 0 r (wr NWT_RESET_STATUS.status 0 r.1 s)

/-- A write of 1 to NWT_RESET_COMMIT with a kind staged (R727, R771): the die and the key are checked, a partial request
also whether another reset or a Night transition runs (R709). -/
def resetRequest (kind value : Nat) (act : State → State) (s : State) : State :=
  let k := stg s NWT_RESET_REQ.kind
  let die := stg s NWT_RESET_REQ.die
  let alive := s.mode == .run || s.mode == .dawn || s.mode == .nightEntry || s.mode == .nightExit
  if value % 2 = 0 ∨ !alive ∨ (k ≠ kind ∧ !(k = 0 ∧ kind = 1)) then s
  else
    let s0 := commitAt 0 0x1011C s
    if kind = 3 ∧ dieSilent s 0 then resetDone (0x0C40, 0) s0
    else if k = 0 then resetDone (0x0002, 0x10110) s0
    else if kind = 3 ∧ (s.partialDie.isSome ∨ s.mode ≠ .run) then resetDone (0x1005, 0) s0
    else if stg s NWT_RESET_REQ.key ≠ 0xD0A5 ∨ (if kind = 3 then die = 0 ∨ 4 < die else die ≠ 0) then resetDone (0x1006, 0) s0
    else act (resetDone (0, 0)
      (acceptStaged [(NWT_RESET_REQ.kind, 0), (NWT_RESET_REQ.die, 0), (NWT_RESET_REQ.key, 0)] s0))

/-- RESET_WARM (R706): kind 1; a reserved kind is refused here. -/
def execResetWarm (value : Nat) (s : State) : Host.Outcome State Fault Refusal :=
  .next (resetRequest 1 value (fun s => dawnStep1 (beginDawn 3 [] s)) s)

/-- RESET_COLD (R706): kind 2. -/
def execResetCold (value : Nat) (straps : List Nat) (s : State) : Host.Outcome State Fault Refusal :=
  .next (resetRequest 2 value (fun s => dawnStep1 (beginDawn 1 straps s)) s)

/-! ## The rest of Dawn (R711, R712) -/

/-- Hold Dawn at a step with a status.
Log entry: 171 (DEDUCED). -/
def dawnHold (st step : Nat) (s : State) : State :=
  wrB NWT_DAWN_STATUS.held 0 true (wr NWT_DAWN_STATUS.step 0 step (wr NWT_DAWN_STATUS.status 0 st s))

/-- The boot configuration in a body (R714). -/
def bootOf (b : List Nat) : BootConfig :=
  { hostPages := fld b 0 4, hostStack := b.getD 4 0, flags := b.getD 5 0, wakeMask := b.getD 6 0 }

/-- The body of a policy image (R681). -/
def imageBody (img : List Nat) : List Nat := (img.take (img.length - 128)).drop 128

/-- Whether a boot configuration's body keeps its ranges (R714). -/
def bootOk (b : List Nat) : Bool :=
  let c := bootOf b
  decide (16384 ≤ c.hostPages) && decide (c.hostPages ≤ 262144) && c.hostPages % 16384 == 0 && decide (1 ≤ c.hostStack)
    && decide (c.hostStack ≤ 4) && decide (c.flags < 16) && decide (c.wakeMask < 4) && zeroAt b 7 57

/-- Whether the boot configuration in the boot store verifies as a policy of type 4 and keeps its ranges (R680, R712,
R714). -/
def configOk (s : State) (img : List Nat) : Bool :=
  policyVerify s img == 0 && img.getD 6 0 == 4 && bootOk (imageBody img)

/-- The maker default of lifecycle states 0 and 1 (R714). -/
def makerBoot : BootConfig := { hostPages := 65536, hostStack := 1, flags := 3, wakeMask := 0 }

/-- Whether a Dawn followed a loss of the main supplies, so that Keystone's SRAM holds nothing. -/
def supplyDawn (s : State) : Bool := let k := rd s NWT_RESET_CAUSE.kind; k == 0 || k == 4 || k == 5

/-- Step 3 of Dawn: the record is reloaded, compared with the monitor, and the Dawn entry written (R701, R703).
Log entry: 171 (DEDUCED). -/
def reloadRecord (r : DawnReport) (s : State) : State :=
  let n := s.key.bootSeq - r.recLost
  let s1 := if supplyDawn s then modKey (fun k => { k with record := k.bootRecord, nextSeq := n }) s else s
  let newest := (s1.key.nextSeq + 2 ^ 32 - 1) % 2 ^ 32
  let mon := match s1.key.monitor with | some m => m.seq | none => newest
  let behind := (mon + 2 ^ 32 - newest) % 2 ^ 32
  let lostTail := decide (0 < behind) && decide (behind < 2 ^ 31)
  let bad := lostTail || r.chainBroken
  let s2 := if bad then event 0x0F23 0 0xFF 0 1 (leBytes 4 mon ++ leBytes 4 newest) s1 else s1
  record 0x0020 { status := if bad then 0x0F23 else 0, lostTail := lostTail,
                  subject := sha384 (firmwareDigest 0 ++ firmwareDigest 5 ++ firmwareDigest 6) } s2

/-- Step 5 of Dawn: the steppings are read and FAB_CAPABILITY written (R415, R418).
Log entry: 171 (DEDUCED). -/
def readSteppings (s : State) : State :=
  let maj := fun n => rd s MTR_DIE_ID.major (dieBase n)
  let mnr := fun n => rd s MTR_DIE_ID.minor (dieBase n)
  let code := fun n => maj n + 16 * mnr n
  let cap := [1, 2, 3, 4].foldl (fun c n => c &&& rd s MTR_FEATURE.feature (dieBase n)) 1
  let s1 := wr FAB_STEP_MAP.die4_step 0 (code 4) (wr FAB_STEP_MAP.die3_step 0 (code 3) (wr FAB_STEP_MAP.die2_step 0 (code 2)
    (wr FAB_STEP_MAP.die1_step 0 (code 1) (wr FAB_CAPABILITY.capability 0 cap s))))
  if [2, 3, 4].all (fun n => code n == code 1) then s1 else event 0x0827 0 0xFF 0 0 ([1, 2, 3, 4].map code) s1

/-- Step 4 of Dawn: the stacks that have trained (R383). -/
def showTrained (up : Nat) (s : State) : State :=
  [1, 2, 3, 4].foldl (fun s n => wrB HBM_STATUS.trained (dieBase n) (bit up (n - 1)) s) s

/-- Whether step 5 fails (R712): a strap fault, a die that cannot be read, or a hub port down. -/
def step5Fails (r : DawnReport) (s : State) : Bool :=
  [1, 2, 3, 4].any (fun n => rdB s MTR_DIE_ID.strap_fault (dieBase n) || bit r.unreadable (n - 1)
    || portState s n 2 != 2 || hubPortState s n != 2)

/-- The islands that start at this Dawn (R560): out of reset, with firmware that verifies. -/
def islandsStarting (r : DawnReport) (s : State) : List Nat :=
  [5, 6].filter (fun i => !(islandOf s i).held && (if i = 5 then r.matin else r.vesper))

/-- The results of the checker test at one island (R575 to R577). -/
def showInject (r : DawnReport) (i : Nat) (s : State) : State :=
  wr ISL_INJECT_TIME.ms (dieBase i) r.injectMs (wrB ISL_STATE.inject_passed (dieBase i) r.firstFailed.isNone
    (wr ISL_INJECT.first_failed (dieBase i) (r.firstFailed.getD 0xFFF) (wr ISL_INJECT.passed (dieBase i) r.passed s)))

/-- Start an island in Dawn: its monitors run, and it holds the package silent (R570).
Log entry: 3 (DESIGN CHOICE). -/
def startIsland (i : Nat) (s : State) : State := wr ISL_FW_VERSION.version (dieBase i) (Config.islandFw i) (islandStart i s)

/-- Step 7 of Dawn: the Dawn map with the host partition, region keys, the zeroed host partition, and the packs (R344,
R715). -/
def dawnMap (s : State) : State :=
  let b := s.nwt.boot
  let s1 := drawRegionKeys { s with mem := { s.mem with
    home := [], hostFirst := (b.hostStack - 1) * 393216, hostPages := b.hostPages, hostKey := s.mem.nextKey } }
  showPacks (s1.fab.packs.foldl (fun s p => loadPack p s) s1)

/-- Start the timers of the coolant loop. -/
def startTimers (s : State) : State :=
  let t := now s
  modCool (fun c => { c with flowA := { c.flowA with last := t }, flowB := { c.flowB with last := t },
                             sampledAt := t, measuredAt := t, calAt := t, dutyAt := t, ceilingAt := t }) s

/-- Every power domain on, and the timers that run from the release; after a cold reset each Brick's first test falls due
15 minutes later (R534). -/
def powerOn (s : State) : State :=
  let t := now s
  let s2 := startTimers ((List.range 100).foldl (fun s d => setDomain d true s) s)
  if rd s NWT_RESET_CAUSE.kind ≤ 1 ∧ t ≠ 0 then
    { s2 with fab := { s2.fab with bricks := (List.range 1024).map (fun b => (b, ({ lastTest := t } : BrickState))) } }
  else s2

/-- The first Course that is fenced.
Log entry: 39 (DEDUCED). -/
def firstFenced (s : State) : Option Nat :=
  (List.range 64).find? (fun c => rdB s TRW_COURSE_STATE.course_fenced (atCourse c 0x100))

/-- Step 8 of Dawn (R570): the islands release the package, normal or with the standing causes degraded.
Log entries: 39 (DEDUCED), 171 (DEDUCED). -/
def releasePackage (up : List Nat) (s : State) : State :=
  let s1 := up.foldl (fun s i =>
    wrB ISL_STATE.peer_ok (dieBase i) (up.length == 2) (wr ISL_STATE.state (dieBase i) 0
      (modIsland i (fun x => { x with phaseAt := osc s, high := false }) s))) { s with mode := .run }
  let s2 := match firstFenced s1 with
    | some c => up.foldl (fun s i => commandState i 1 0x30 c s) s1
    | none => s1
  let s3 := if up.length = 2 then s2 else up.foldl (fun s i => commandState i 1 0x28 (otherIsland i) s) s2
  match [1, 2, 3, 4].find? (fun n => !reach s3 0 n) with
  | some n => up.foldl (fun s i => commandState i 1 0x30 n s) s3
  | none => s3

/-- A Dial time that was locked when Deep Night began resumes in holdover, with the rate correction it then had
(R33, R34).
Log entry: 22 (DEDUCED). -/
def resumeDial (s : State) : State :=
  match s.nwt.lockedRate with
  | some r => setSync 3 (modNwt (fun x => { x with lockedRate := none }) { s with clock := { s.clock with rate := r } })
  | none => s

/-- The application cores are released at their reset vector, where the boot configuration has them released (R714,
R723). -/
def releaseCores (s : State) : State := if bit s.nwt.boot.flags 1 then send .coreRelease [] s else s

/-- Steps 7 and 8: release, event 0x1030, and event 0x0E40 where trip_seen is set (R674).
Log entry: 171 (DEDUCED). -/
def finishDawn (r : DawnReport) (up : List Nat) (s : State) : State :=
  let s1 := releaseCores (releasePackage up { powerOn (dawnMap s) with silent := [] })
  let s2 := wrB NWT_DAWN_STATUS.ready 0 true (wr NWT_DAWN_STATUS.step 0 8 (wr NWT_DAWN_TIME.ms 0 (satTo r.ms 0xFFFF)
    (resumeDial s1)))
  let s3 := if rdB s2 PWR_STATUS.trip_seen then event 0x0E40 0 0xFF 0 1 [] s2 else s2
  event 0x1030 0 0xFF 0 0 ([rd s3 NWT_RESET_CAUSE.kind, 0] ++ leBytes 2 (satTo r.ms 0xFFFF)) s3

/-- Whether a port is still in training. -/
def portsTraining (s : State) : Bool := allEnds.any (fun e => endState s e.1 e.2 == 1)

/-- DAWN_COMPLETE (R711, R712): what each step of Dawn finds decides whether the package is released or Dawn held.
Log entries: 7 (DEDUCED), 171 (DEDUCED). -/
def execDawnComplete (report : DawnReport) (s : State) : Host.Outcome State Fault Refusal :=
  let up := islandsStarting report s
  .next (if s.mode ≠ .dawn ∨ rdB s NWT_DAWN_STATUS.held ∨ s.nwt.waitWarm ∨ portsTraining s ∨ up.isEmpty then s
    else
      let s0 := passTo (s.nwt.dawnAt + report.ms * 1000000) s
      let maker := decide (s.key.lifecycle ≤ 1)
      if !report.firmware then dawnHold 0x1010 3 s0
      else if report.storeVersion ≠ s.key.fusesBurnt then dawnHold 0x1011 3 s0
      else if !maker && !configOk s0 report.config then dawnHold 0x1012 3 s0
      else
        let s1 := modNwt (fun x => { x with boot := if maker then makerBoot else bootOf (imageBody report.config) }) s0
        let s2 := showTrained report.stacksUp (drawChallenge (refreshKey (reloadRecord report s1)))
        if report.stacksUp % 16 ≠ 15 then dawnHold 0x1013 4 s2
        else if step5Fails report s2 then dawnHold 0x1014 5 s2
        else
          let s3 := up.foldl (fun s i => showInject report i (startIsland i s)) (readSteppings s2)
          if report.firstFailed.isSome then
            up.foldl (fun s i => commandState i 2 0x3F 0xFF s) (dawnHold 0x1015 6 s3)
          else finishDawn report up s3)

/-! ## The islands' reset inputs -/

/-- ISLAND_RESET_ASSERT (R739, R740): the island's reset input goes low; its output is low. -/
def execIslandResetAssert (island : Nat) (s : State) : Host.Outcome State Fault Refusal :=
  .next (if island ≠ 5 ∧ island ≠ 6 then s
    else modIsland island (fun x => { x with held := true, resetWhy := none }) (islandDown island s))

/-- ISLAND_RESET_RELEASE (R560, R739): the island verifies its firmware and runs; before a package release it starts in
Dawn. -/
def execIslandResetRelease (island : Nat) (verified : Bool) (s : State) : Host.Outcome State Fault Refusal :=
  .next (if (island ≠ 5 ∧ island ≠ 6) ∨ !(islandOf s island).held then s
    else
      let s1 := modIsland island (fun x => { x with held := false }) s
      if verified ∧ (s.mode = .run ∨ s.mode = .nightEntry ∨ s.mode = .night ∨ s.mode = .nightExit)
      then startIsland island s1 else s1)

end Sys2Proof.Machine
end

