-- ==== Sys2Proof/Machine/Ethernet.lean ====
section
/-! DEFINITION. The Ethernet MACs, their host rings and the point-packet parser (R446 to R452). -/

namespace Sys2Proof.Machine

open Reg

/-! ## Host rings -/

/-- Entry n of a MAC's receive or transmit ring: its device address (R448).
Log entry: 131 (DEDUCED). -/
def macEntry (s : State) (mac : Nat) (rx : Bool) (n : Nat) : Nat :=
  let log := if rx then com s CAM_MAC_CFG.rx_log2 (mac * 0x20) else com s CAM_MAC_CFG.tx_log2 (mac * 0x20)
  (if rx then com s CAM_MAC_RX_RING.base (mac * 0x20) else com s CAM_MAC_TX_RING.base (mac * 0x20)) + n % 2 ^ log * 16

/-- Fill the next entry of a MAC's receive ring with a frame (R448); without an entry passed to it the frame is lost.
Log entries: 129 (DEDUCED), 131 (DEDUCED). -/
def hostReceive (mac : Nat) (frame : List Nat) (s : State) : State :=
  let n := aget s.input.rxNext mac 0
  let at_ := macEntry s mac true n
  let e := readMem 70 0xFF at_ 16 [] s
  if e.1 ≠ 0 ∨ !bit (e.2.1.getD 8 0) 0 then e.2.2
  else
    let room := fld e.2.1 6 2
    let data := frame.take room
    let s1 := if data.isEmpty then e.2.2 else writeMem' 70 0xFF (fld e.2.1 0 6) data e.2.2
    let flags := setBit (setBit (e.2.1.getD 8 0) 0 false) 1 (decide (room < frame.length))
    let s2 := writeMem' 70 0xFF at_ (slice e.2.1 0 6 ++ leBytes 2 data.length ++ [flags] ++ leBytes 7 (dial s)) s1
    { s2 with input := { s2.input with rxNext := aset s2.input.rxNext mac (n + 1) 0 } }

/-- ETH_FRAME_TRANSMIT (R448): the next entry of a MAC's transmit ring, passed to the device, is sent and cleared.
Log entry: 131 (DEDUCED). -/
def execEthFrameTransmit (mac : Nat) (s : State) : Host.Outcome State Fault Refusal :=
  .next (
    if 4 ≤ mac ∨ com s CAM_MAC_CFG.mode (mac * 0x20) = 0 ∨ s.mode ≠ .run then s
    else
      let n := aget s.input.txNext mac 0
      let at_ := macEntry s mac false n
      let e := readMem 70 0xFF at_ 16 [] s
      if e.1 ≠ 0 ∨ !bit (e.2.1.getD 8 0) 0 then e.2.2
      else
        let d := readMem 70 0xFF (fld e.2.1 0 6) (fld e.2.1 6 2) [] e.2.2
        let s1 := if d.1 = 0 then send .ethernet (mac :: d.2.1) d.2.2 else d.2.2
        let s2 := writeMem' 70 0xFF at_ (setAt e.2.1 8 (setBit (e.2.1.getD 8 0) 0 false)) s1
        { s2 with input := { s2.input with txNext := aset s2.input.txNext mac (n + 1) 0 } })

/-! ## UDP -/

/-- A frame without the one 802.1Q tag that it may carry (R446). -/
def untag (f : List Nat) : List Nat := if fldBE f 12 2 = 0x8100 then f.take 12 ++ f.drop 16 else f

/-- The ones' complement sum of 16-bit words of a list, highest byte first, with carries folded.
Log entry: 13 (PRESUMED). -/
def onesSum (l : List Nat) : Nat :=
  let t := sumNat ((List.range ((l.length + 1) / 2)).map (fun i => l.getD (2 * i) 0 * 256 + l.getD (2 * i + 1) 0))
  let a := t % 65536 + t / 65536
  let b := a % 65536 + a / 65536
  b % 65536 + b / 65536

/-- The UDP datagram inside an IPv6 payload: the hop-by-hop (0), routing (43) and destination options (60) headers that
stand before it are passed over; a fragment header or any other ends the search (R447). -/
def udp6 : Nat → Nat → List Nat → Option (List Nat)
  | 0, _, _ => none
  | fuel + 1, kind, p =>
    if kind = 17 then some p
    else if kind = 0 ∨ kind = 43 ∨ kind = 60 then udp6 fuel (p.getD 0 0) (p.drop (p.getD 1 0 * 8 + 8))
    else none

/-- The UDP datagram of an untagged frame, unfragmented in IPv4 or IPv6: its pseudo-header addresses and its bytes
(R447).
Log entries: 13 (PRESUMED), 129 (DEDUCED). -/
def udpOf (f : List Nat) : Option (List Nat × List Nat) :=
  let ip := f.drop 14
  if fldBE f 12 2 = 0x0800 then
    let ihl := ip.getD 0 0 % 16 * 4
    if ip.getD 0 0 / 16 = 4 ∧ 20 ≤ ihl ∧ ip.getD 9 0 = 17 ∧ fldBE ip 6 2 % 0x4000 = 0 then
      some (slice ip 12 8, (ip.take (fldBE ip 2 2)).drop ihl)
    else none
  else if fldBE f 12 2 = 0x86DD ∧ ip.getD 0 0 / 16 = 6 then
    (udp6 (fldBE ip 4 2) (ip.getD 6 0) ((ip.drop 40).take (fldBE ip 4 2))).map (fun d => (slice ip 8 32, d))
  else none

/-- Whether a datagram's checksum is non-zero and wrong (R447).
Log entries: 13 (PRESUMED), 129 (DEDUCED). -/
def udpBad (addrs udp : List Nat) : Bool :=
  let d := udp.take (fldBE udp 4 2)
  fldBE udp 6 2 != 0 &&
    onesSum (addrs ++ d ++ (if d.length % 2 = 1 then [0] else []) ++ [0, 17] ++ beBytes 2 (fldBE udp 4 2)) != 0xFFFF

/-- The template that is committed for a MAC and a destination port: the lowest stream (R447).
Log entry: 129 (DEDUCED). -/
def templateFor (s : State) (mac udpPort : Nat) : Option Nat :=
  ((List.range 8).map (· + 16)).find? (fun k =>
    (streamOf s k).enabled && (streamOf s k).record.getD 1 0 == mac && fld (streamOf s k).record 4 2 == udpPort)

/-! ## Points -/

/-- A field of a packet of n bytes in the template's byte order (R449). -/
def pktField (r p : List Nat) (at_ n : Nat) : Nat := if bit (r.getD 2 0) 1 then fldBE p at_ n else fld p at_ n

/-- Size of a coordinate field. -/
def coordSize (r : List Nat) : Nat := match r.getD 0 0 with | 0 => 2 | 3 => 2 | _ => 4

/-- A coordinate or range field as an FP32 word, before its scale (R450).
Log entry: 126 (DESIGN CHOICE). -/
def coordWord (r p : List Nat) (at_ : Nat) : Nat :=
  match r.getD 0 0 with
  | 0 => rne (.fin (fracOf (sext (pktField r p at_ 2) 16) 1))
  | 1 => rne (.fin (fracOf (sext (pktField r p at_ 4) 32) 1))
  | 2 => pktField r p at_ 4
  | _ => Config.rangeWord p at_ (bit (r.getD 2 0) 1) % 2 ^ 32

/-- Azimuth index of the point that starts at an offset. -/
def azimuthAt (r p : List Nat) (o : Nat) : Nat := pktField r p (o + fld r 18 2) 2

/-- x, y and z of the point at an offset, with the direction table (R450).
Log entry: 126 (DESIGN CHOICE). -/
def pointXyz (r table p : List Nat) (o : Nat) : List Nat :=
  let scale := fld r 24 4
  let v := fun (i : Nat) => mulF (coordWord r p (o + fld r 12 2 + i * coordSize r)) scale
  if r.getD 0 0 = 3 then
    let u := (p.getD (o + fld r 16 2) 0 * fld r 28 2 + azimuthAt r p o) * 12
    [0, 4, 8].map (fun i => mulF (v 0) (fld table (u + i) 4))
  else [v 0, v 1, v 2]

/-- Offset of a point's own time field, 0 where it has none (R451). -/
def pointOffset (r p : List Nat) (o : Nat) : Nat := if fld r 20 2 = 0xFFFF then 0 else pktField r p (o + fld r 20 2) 4

/-- Whether a point is written: its channel and azimuth in range, its bytes inside the payload (R450).
Log entry: 128 (DEDUCED). -/
def pointGood (r p : List Nat) (o : Nat) : Bool :=
  decide (o + fld r 8 2 ≤ p.length) && decide (p.getD (o + fld r 16 2) 0 < fld r 30 2)
    && (r.getD 0 0 != 3 || decide (azimuthAt r p o < fld r 28 2))

/-- Time of the packet (R451): its receive stamp, or its own field with options bit 0 while Dial time is locked. -/
def packetTime (s : State) (r p : List Nat) : Nat :=
  if bit (r.getD 2 0) 0 ∧ rd s NWT_DIAL_STATUS.sync_state = 2 then pktField r p (fld r 22 2) 8 else dial s

/-- Write the point at offset o of a packet, of time t and an intensity, into the batch that lands (R450).
Log entry: 127 (DESIGN CHOICE). -/
def putPoint (k : Nat) (f : Frame) (p : List Nat) (o t intensity : Nat) (s : State) : State :=
  let x := streamOf s k
  let r := x.record
  let data := (pointXyz r x.table p o).flatMap (leBytes 4) ++ leBytes 4 ((t + 2 ^ 64 - f.capture) % 2 ^ 32)
    ++ leBytes 2 intensity ++ [p.getD (o + fld r 16 2) 0] ++ List.replicate 13 0
  let w := writeMem 70 x.owner (inBuf r + f.buf * inBufBytes r + f.points * 32) data s
  let g := { f with points := f.points + 1, fe := t % 2 ^ 64, refused := f.refused || w.1 != 0 }
  modStream k (fun x => { x with landing := some g }) w.2

/-- Take one point of a packet into the batch that lands (R450). The intensity of a sensor that gives none is a free
value.
Log entries: 127 (DESIGN CHOICE), 128 (DEDUCED). -/
def takePoint (k : Nat) (p : List Nat) (time : Nat) (s : State) (i : Nat) : State :=
  let x := streamOf s k
  match x.landing with
  | none => s
  | some f =>
    let r := x.record
    let o := fld r 6 2 + i * fld r 8 2
    if !pointGood r p o ∨ inBufBytes r < f.points * 32 + 32 then
      modStream k (fun x => { x with landing := some { f with badPoints := f.badPoints + 1 } }) s
    else
      let t := time + pointOffset r p o
      if fld r 14 2 = 0xFFFF then withDraw s 65536 (fun v s => putPoint k f p o t v s)
      else putPoint k f p o t (pktField r p (o + fld r 14 2) 2) s

/-- Close the batch that lands (R451). -/
def closeBatch (k : Nat) (s : State) : State :=
  match (streamOf s k).landing with
  | none => s
  | some f => completeFrame k f s

/-- Take a packet's points (R450, R451): for encoding 3 a lower first azimuth closes the batch before it; a batch begins
with its first packet; a buffer that cannot hold a further packet's points closes it after. -/
def parsePacket (k : Nat) (p : List Nat) (s : State) : State :=
  let r := (streamOf s k).record
  let az := azimuthAt r p (fld r 6 2)
  let turned := r.getD 0 0 == 3 && (((streamOf s k).lastAz.map (fun a => decide (az < a))).getD false)
  let s1 := if turned then closeBatch k s else s
  let begins := (streamOf s1 k).landing.isNone
  if begins ∧ (streamOf s1 k).stopping then stopStream k s1
  else
    let time := packetTime s1 r p
    let first := time + pointOffset r p (fld r 6 2)
    let fell := bit (r.getD 2 0) 0 && rd s1 NWT_DIAL_STATUS.sync_state != 2
    let f0 : Frame := { capture := first % 2 ^ 64, baseAge := dial s1 - first, fe := first % 2 ^ 64,
                        flags := b2n (rd s1 NWT_DIAL_STATUS.sync_state != 2) }
    let s2 := if begins then beginFrame k f0 s1 else s1
    let mark := fun (f : Frame) => if fell then { f with flags := setBit f.flags 1 true } else f
    let s3 := modStream k (fun x => { x with lastAz := some az, landing := x.landing.map mark }) s2
    let s4 := (List.range (fld r 10 2)).foldl (takePoint k p time) s3
    match (streamOf s4 k).landing with
    | some f => if inBufBytes r < (f.points + fld r 10 2) * 32 then closeBatch k s4 else s4
    | none => s4

/-- ETH_FRAME_RECEIVE (R447): a frame of a MAC, from its destination address to before its FCS.
Log entries: 119 (DESIGN CHOICE), 129 (DEDUCED). -/
def execEthFrameReceive (mac : Nat) (fcsOk : Bool) (frame : List Nat) (s : State) : Host.Outcome State Fault Refusal :=
  .next (
    if 4 ≤ mac ∨ com s CAM_MAC_CFG.mode (mac * 0x20) = 0 ∨ s.mode ≠ .run ∨ 9216 < frame.length then s
    else if !fcsOk then incSat CAM_MAC_BAD_COUNT.bad (mac * 0x20) 1 s
    else
      let f := untag frame
      match udpOf f with
      | none => hostReceive mac f s
      | some (addrs, udp) =>
        match templateFor s mac (fldBE udp 2 2) with
        | none => hostReceive mac f s
        | some k =>
          if udpBad addrs udp then incSat CAM_MAC_BAD_COUNT.bad (mac * 0x20) 1 s
          else parsePacket k ((udp.take (fldBE udp 4 2)).drop 8) s)

/-- BATCH_SWEEP_TIMEOUT (R451). -/
def execBatchSweepTimeout (stream : Nat) (s : State) : Host.Outcome State Fault Refusal :=
  .next (match (streamOf s stream).landing with
    | some f => if isLidar stream ∧ s.mode = .run then
        closeBatch stream (passTo (f.startAt + inPeriod stream (streamOf s stream).record * 1000) s) else s
    | none => s)

/-! ## CAM_MAC_COMMIT -/

/-- The fields that CAM_MAC_COMMIT commits. -/
def macFields (m : Nat) : List (Field × Nat) :=
  [(CAM_MAC_CFG.mode, m * 0x20), (CAM_MAC_CFG.fec, m * 0x20), (CAM_MAC_CFG.usx_speed, m * 0x20),
   (CAM_MAC_CFG.rx_log2, m * 0x20), (CAM_MAC_CFG.tx_log2, m * 0x20), (CAM_MAC_RX_RING.base, m * 0x20),
   (CAM_MAC_TX_RING.base, m * 0x20)]

/-- The checks of CAM_MAC_COMMIT (R446, R448, R767); a MAC that is off needs no rings.
Log entry: 130 (DEDUCED). -/
def macChecks (s : State) (m : Nat) : List (Bool × Refuse) :=
  let at_ := m * 0x20
  let cfg := 0xD01000 + at_
  let mode := stg s CAM_MAC_CFG.mode at_
  let rx := stg s CAM_MAC_CFG.rx_log2 at_
  let tx := stg s CAM_MAC_CFG.tx_log2 at_
  let out := fun (n : Nat) => decide (n < 6) || decide (12 < n)
  let on := mode != 0
  [(decide (4 < stg s CAM_MAC_CFG.usx_speed at_) || out rx || out tx, (0x0002, cfg)),
   (on && !rangeHost s (stg s CAM_MAC_RX_RING.base at_) (16 * 2 ^ rx), (0x0004, cfg + 8)),
   (on && !rangeHost s (stg s CAM_MAC_TX_RING.base at_) (16 * 2 ^ tx), (0x0004, cfg + 0x10)),
   ((mode == 3 && stg s CAM_MAC_CFG.fec at_ == 1) ||
     (on && overlap (stg s CAM_MAC_RX_RING.base at_) (16 * 2 ^ rx) (stg s CAM_MAC_TX_RING.base at_) (16 * 2 ^ tx)),
     (0x0005, cfg))]

/-- CAM_MAC_COMMIT (R446): both rings start again at their entry 0.
Log entry: 130 (DEDUCED). -/
def execCamMacCommit (mac value : Nat) (s : State) : Host.Outcome State Fault Refusal :=
  .next (if mac < 4 then
    commit 0 (0xD0101C + mac * 0x20) value (macChecks s mac)
      (fun s =>
        let s1 := acceptStaged (macFields mac) s
        { s1 with input := { s1.input with rxNext := aset s1.input.rxNext mac 0 0,
                                           txNext := aset s1.input.txNext mac 0 0 } }) s
    else s)

end Sys2Proof.Machine
end

