-- ==== Sys2Proof/Machine/Hbm.lean ====
section
/-! DEFINITION. The HBM controllers and the home map (R342 to R371, R383 to R385, R785). -/

namespace Sys2Proof.Machine

open Reg

/-- Record how long a read waited at its port (R386). -/
def noteWait (port ns : Nat) (s : State) : State :=
  if rd s PLB_PORT_STATE.max_wait_10ns (port * 16) < satTo (ns / 10) 0xFFFF
  then wr PLB_PORT_STATE.max_wait_10ns (port * 16) (satTo (ns / 10) 0xFFFF) s else s

/-- Whether a pseudo-channel is in the pause of a retraining (R369). -/
def paused (s : State) (k pc : Nat) : Bool :=
  rdB s HBM_STATUS.retraining (dieBase (k + 1)) && (stackOf s k).phase == 1 && pc % 16 == (stackOf s k).pair

/-- Whether an access of n bytes at an HBM address touches a paused pseudo-channel. -/
def pausedRange (s : State) (a n : Nat) : Bool :=
  (lineAddrs a n).any (fun x => paused s (stackIdx s x) (pcOf (physOf s x)))

/-- The row that an access of a port leaves in its bank by the port's hint (R355): left open under hint 1, closed under
hint 2, and closed under hint 3, since no other request waits in the queue. -/
def touchRow (port a : Nat) (s : State) : State :=
  let p := physOf s a
  let key := pcOf p * 4096 + bankOf p
  modStack (stackIdx s a) (fun x => { x with
    openRow := aset x.openRow key (if com s PLB_PORT_CFG.policy (port * 16) = 1 then rowOf p + 1 else 0) 0 }) s

/-- The instances whose Bond accesses memory by a Course port: those active on the Course, each with what it stops with
when it causes a partition reset (R365). -/
def portLaunches (s : State) (port st : Nat) : List (Nat × Nat × Nat) :=
  s.fab.launches.filterMap (fun l =>
    if l.insts.any (fun i => i.course == port && i.phase == .active) then some (l.id, st, port) else none)

/-- The launches of a Course port stop with 0x0712 where its access has met an uncorrectable line outside the context's
own pages (R364, R365). -/
def stopPort (port st : Nat) (s : State) : State :=
  if st = 0x0712 then (portLaunches s port st).foldl (fun s l => stopLaunch l.1 l.2.2 l.2.1 s) s else s

/-- Give a port its answer; one that a paused pseudo-channel holds up waits for the end of the pause (R369, step 3). The
value is the one that the order of arrival gives (R358). -/
def answer (held : Option Nat) (port status : Nat) (data : List Nat) (s : State) : State :=
  match held with
  | some k => { s with mem := { s.mem with answers := s.mem.answers ++ [⟨k, port, status, data⟩] } }
  | none => { s with bus := ⟨port, status, data⟩ }

/-- The stack whose pause holds up an access, if one does. -/
def heldUp (s : State) (a n : Nat) : Option Nat := if pausedRange s a n then some (stackIdx s a) else none

/-- The answer of a read that HBM serves (R348, R357, R361 to R364). -/
def readHbm (port ctx addr len waitNs : Nat) (s : State) : State :=
  let r := readMem port ctx addr len (portLaunches s port 0x0711) (touchRow port addr (noteWait port waitNs s))
  stopPort port r.1 (answer (heldUp s addr len) port r.1 r.2.1 r.2.2)

/-- A read of the outbound window or of a reserved region (R25, R26, R772), or one that is refused. -/
def readElsewhere (port ctx addr len : Nat) (s : State) : State :=
  let r := readMem port ctx addr len [] s
  { r.2.2 with bus := ⟨port, r.1, r.2.1⟩ }

/-- Whether an access is one to setup space by a port that may make it (R24, R755). -/
def setupAccess (port addr : Nat) : Bool := inSetup addr && (port == 68 || port == 69)

/-- MEMORY_READ (R24, R357): a read of `len` bytes by a master port acting for a context (0xFF: none). `upset` befalls
the address first, whether or not the read reaches it.
Log entry: 19 (DEDUCED). -/
def execMemoryRead (port ctx addr len : Nat) (upset : MemUpset) (s : State) : Host.Outcome State Fault Refusal :=
  let s0 := befall addr upset s
  if 2 ^ 48 < addr + len then .fault .addressBeyond48
  else if setupAccess port addr then .next (setupRead port (addr - 0xF00000000000) (len * 8) s0)
  else if addr < hbmEnd ∧ readStatus s port ctx addr len = 0 then .next (readHbm port ctx addr len upset.waitNs s0)
  else .next (readElsewhere port ctx addr len s0)

/-- Whether a write queue of a stack's pseudo-channel holds enough to drain (R356). A paused one does not drain (R369).
Log entry: 103 (DEDUCED). -/
def mustDrain (s : State) (k pc : Nat) : Bool :=
  decide (48 ≤ countIf s.mem.queue (fun w => w.stack == k && w.pc == pc)) && !paused s k pc

/-- Drain the write queue of one pseudo-channel in order of arrival (R356).
Log entry: 103 (DEDUCED). -/
def drainPc (k pc : Nat) (s : State) : State := drainQueues (fun w => w.stack == k && w.pc == pc) s

/-- Cut bytes at an address into 256 B granules, each on one pseudo-channel (R354). -/
def granules (a : Nat) (data : List Nat) : List (Nat × List Nat) :=
  ((List.range ((a + data.length - 1) / 256 - a / 256 + 1)).map (fun i =>
    let x := if i = 0 then a else (a / 256 + i) * 256
    (x, (data.drop (x - a)).take (256 - x % 256)))).filter (fun e => !e.2.isEmpty)

/-- Put a served write into the write queues of its home (R358), draining a queue that reaches 48 entries (R356).
Log entry: 103 (DEDUCED). -/
def enqueueWrite (addr : Nat) (data : List Nat) (s : State) : State :=
  (granules addr data).foldl (fun s e =>
    let p := physOf s e.1
    let w : QWrite := ⟨stackIdx s e.1, pcOf p, p, e.2, keyOf s (ownerOf s e.1), now s⟩
    let s1 := { s with mem := { s.mem with queue := s.mem.queue ++ [w] } }
    if mustDrain s1 w.stack w.pc then drainPc w.stack w.pc s1 else s1) s

/-- A write that HBM serves: a line that it must merge with, or whose burst fails, may be uncorrectable; the other lines
join the queues (R358, R361, R362, R364). -/
def writeHbm (port ctx addr : Nat) (data : List Nat) (s : State) : State :=
  let m := meetWrite addr data.length (touchRow port addr (policeRange port addr data.length s))
  let put := fun (s : State) => if m.1.isEmpty then enqueueWrite addr data s
    else (writeRuns addr data m.1).foldl (fun s r => enqueueWrite r.1 r.2 s) s
  match m.1 with
  | [] => let s1 := settleFound false [] (put m.2)
    { s1 with bus := ⟨port, 0, []⟩ }
  | l :: _ =>
    let st := ueStatus m.2 l
    let s1 := settleFound false (portLaunches s port 0x0711)
      (event st (portDie port) ctx port 1 (leBytes 6 l) (put m.2))
    stopPort port st { s1 with bus := ⟨port, st, []⟩ }

/-- MEMORY_WRITE (R24, R358). `upset` befalls the address first, whether or not the write reaches it.
Log entries: 19 (DEDUCED), 178 (DESIGN CHOICE). -/
def execMemoryWrite (port ctx addr : Nat) (data : List Nat) (upset : MemUpset) (s : State) :
    Host.Outcome State Fault Refusal :=
  let s0 := befall addr upset s
  if 2 ^ 48 < addr + data.length then .fault .addressBeyond48
  else if setupAccess port addr then
    .next (setupWrite port (addr - 0xF00000000000) (data.length * 8) (leNat data) s0)
  else if addr < hbmEnd ∧ data ≠ [] ∧ rangeStatus s port ctx addr data.length true = 0 then
    .next (writeHbm port ctx addr data s0)
  else
    let w := writeMem port ctx addr data s0
    .next { w.2 with bus := ⟨port, w.1, []⟩ }

/-- WRITE_QUEUE_DRAIN (R356): on the threshold, the 2 µs age limit or an overlapping read. A paused pseudo-channel's
requests wait in their queues (R369). -/
def execWriteQueueDrain (stack pc : Nat) (s : State) : Host.Outcome State Fault Refusal :=
  .next (if paused s stack pc then s else drainPc stack pc s)

/-- The pages whose entries name a frame: among those whose entries differ from the Dawn map, and the Dawn page of the
frame. -/
def pagesNaming (s : State) (frame : Nat) : List Nat :=
  ((frame :: s.mem.home.map (·.1)).filter (fun p => decide (p < 1572864) &&
    bits (homeEntry s p) 19 2 * 393216 + bits (homeEntry s p) 0 19 == frame))

/-- The pages that are not free and name a frame. -/
def pagesOf (s : State) (frame : Nat) : List Nat :=
  (pagesNaming s frame).filter (fun p => bits (homeEntry s p) 24 8 != 0xFF)

/-- Patrol scrub of a line that a page names, treated as a read (R363).
Log entry: 102 (DEDUCED). -/
def scrubUsed (a : Nat) (s : State) : State :=
  settleFound true [] (meetLine a true (settleFound false [] s)).2

/-- Patrol scrub of a line of a free frame: an uncorrectable line is only counted; a corrected one and exhausted retries
are treated as by a read, with event 0x0722 where a free page names the frame (R363).
Log entry: 102 (DEDUCED). -/
def scrubFree (stack phys : Nat) (s : State) : State :=
  let m := meetAt stack (phys / 64) true s
  let s1 := if m.1.exhausted then event 0x0723 (stack + 1) 0xFF (stack + 1) 1 [pcOf phys] m.2 else m.2
  if m.1.bad then incSat HBM_UE_COUNT.uncorrectable (dieBase (stack + 1)) 1 s1
  else if m.1.fixed then
    match pagesNaming s1 (phys / 65536) with
    | p :: _ => corrected (p * 65536 + phys % 65536) s1
    | [] => incSat HBM_CE_COUNT.corrected (dieBase (stack + 1)) 1
        { s1 with mem := { s1.mem with ceFrame := aset s1.mem.ceFrame (phys / 65536) (aget s1.mem.ceFrame (phys / 65536) 0 + 1) 0 } }
  else s1

/-- What befalls a line of a stack, by its physical address, before patrol scrub reads it (R360, R362). -/
def befallPhys (stack phys : Nat) (u : MemUpset) (s : State) : State :=
  let ch := stack * 32 + pcOf phys
  { s with mem := { s.mem with
      symbols := aset s.mem.symbols (phys / 64) (aget s.mem.symbols (phys / 64) 0 + u.symbols) 0
      stray := match u.strayFrom with | some x => aset s.mem.stray (phys / 64) (x + 1) 0 | none => s.mem.stray
      linkErr := aset s.mem.linkErr ch (aget s.mem.linkErr ch 0 + u.crc) 0 } }

/-- The physical address of the line that patrol scrub reads next on a stack. -/
def scrubPhys (s : State) (stack : Nat) : Nat := stack * 25769803776 + (stackOf s stack).scrubLine * 64

/-- PATROL_SCRUB (R363): the next line of the stack, treated as a read; an uncorrectable line of a free frame is only
counted. -/
def execPatrolScrub (stack : Nat) (upset : MemUpset) (s : State) : Host.Outcome State Fault Refusal :=
  .next (if stack < 4 then
    let s1 := befallPhys stack (scrubPhys s stack) upset
      (modStack stack (fun x => { x with scrubLine := (x.scrubLine + 1) % 402653184 }) s)
    match pagesOf s1 (scrubPhys s stack / 65536) with
    | p :: _ => scrubUsed (p * 65536 + scrubPhys s stack % 65536) s1
    | [] => scrubFree stack (scrubPhys s stack) s1
    else s)

/-- REFRESH (R367, R370): a refresh of a paused pseudo-channel is postponed and made up later.
Log entry: 104 (DEDUCED). -/
def execRefresh (stack pc bank : Nat) (s : State) : Host.Outcome State Fault Refusal :=
  .next (if stack < 4 ∧ pc < 32 then
    let key := pc * 4096 + bank
    if paused s stack pc then
      modStack stack (fun x => { x with postponed := aset x.postponed key (aget x.postponed key 0 + 1) 0 }) s
    else
      modStack stack (fun x => { x with refreshed := aset x.refreshed key (now s) 0,
                                        openRow := aset x.openRow key 0 0,
                                        postponed := aset x.postponed key (aget x.postponed key 0 - 1) 0 }) s
    else s)

/-- Start the pause of a pair of pseudo-channels: their write queues drain first (R369, step 2). -/
def startPair (k pair : Nat) (s : State) : State :=
  modStack k (fun x => { x with pair := pair, phase := 1, pairAt := now s })
    (drainPc k (pair + 16) (drainPc k pair s))

/-- When the next retraining round of stack k starts (R368): 100 ms after the start of the previous round, earlier at a
change of 5 °C, never within 10 ms of its end.
Log entry: 105 (DEDUCED). -/
def roundDue (k : Nat) (temp : Int) (s : State) : Nat :=
  let x := stackOf s k
  let soonest := match x.roundEnd with
    | some e => e + 10000000
    | none => 0
  match x.roundStart with
  | some b => if 5 ≤ (temp - x.roundTemp).natAbs then soonest else max soonest (b + 100000000)
  | none => soonest

/-- RETRAIN_ROUND_START (R368, R369).
Log entry: 105 (DEDUCED). -/
def execRetrainRoundStart (stack : Nat) (s : State) : Host.Outcome State Fault Refusal :=
  .next (if stack < 4 ∧ !rdB s HBM_STATUS.retraining (dieBase (stack + 1)) then
    let t := sext (rd s HBM_STATUS.temp_c (dieBase (stack + 1))) 8
    let s1 := passTo (roundDue stack t s) s
    startPair stack 0 (modStack stack (fun x => { x with roundStart := some (now s1), roundTemp := t })
      (wrB HBM_STATUS.retraining (dieBase (stack + 1)) true s1))
    else s)

/-- RETRAIN_PAIR_START (R369): after the gap of at least 20 µs the next pair stops and drains. -/
def execRetrainPairStart (stack : Nat) (s : State) : Host.Outcome State Fault Refusal :=
  .next (if stack < 4 ∧ rdB s HBM_STATUS.retraining (dieBase (stack + 1)) ∧ (stackOf s stack).phase = 2 then
    startPair stack ((stackOf s stack).pair + 1) (passTo ((stackOf s stack).pairAt + 20000) s)
    else s)

/-- The outcome of one pseudo-channel's retraining (R371). -/
def retrained (k pc : Nat) (ok : Bool) (s : State) : State :=
  let n := if ok then 0 else aget (stackOf s k).failRounds pc 0 + 1
  let s1 := modStack k (fun x => { x with failRounds := aset x.failRounds pc n 0 }) s
  if ok then s1
  else
    let s2 := event 0x0724 (k + 1) 0xFF (k + 1) 1 [pc] s1
    if n = 3 then event 0x0725 (k + 1) 0xFF (k + 1) 2 [pc] s2 else s2

/-- Give the answers that have waited for the end of a stack's pause, in the order of the reads (R369, step 4).
Log entry: 105 (DEDUCED). -/
def giveAnswers (k : Nat) (s : State) : State :=
  (s.mem.answers.filter (fun x => x.stack == k)).foldl (fun s x => { s with bus := ⟨x.port, x.status, x.data⟩ })
    { s with mem := { s.mem with answers := s.mem.answers.filter (fun x => x.stack != k) } }

/-- RETRAIN_PAIR_DONE (R369, R371): the pair resumes, and the reads that wait get their answers; after the pair k = 15
the round ends.
Log entry: 105 (DEDUCED). -/
def execRetrainPairDone (stack : Nat) (okLow okHigh : Bool) (s : State) : Host.Outcome State Fault Refusal :=
  .next (if stack < 4 ∧ rdB s HBM_STATUS.retraining (dieBase (stack + 1)) ∧ (stackOf s stack).phase = 1 then
    let k := (stackOf s stack).pair
    let at_ := dieBase (stack + 1)
    let s1 := wr HBM_STATUS.retrain_fail_map at_
      (setBit (rd s HBM_STATUS.retrain_fail_map at_) k (!okLow || !okHigh)) s
    let s2 := retrained stack (k + 16) okHigh (retrained stack k okLow s1)
    giveAnswers stack (if k = 15 then
      wrB HBM_STATUS.retraining at_ false
        (modStack stack (fun x => { x with phase := 0, roundEnd := some (now s2) }) s2)
    else modStack stack (fun x => { x with phase := 2, pairAt := now s2 }) s2)
    else s)

/-- STACK_TEMP_READ (R785): hot from a reading at or above 85 °C until one below 80 °C; a change re-evaluates the
ledger (R378).
Log entry: 106 (DEDUCED). -/
def execStackTempRead (stack : Nat) (temp : Int) (s : State) : Host.Outcome State Fault Refusal :=
  .next (if stack < 4 then
    let at_ := dieBase (stack + 1)
    let s1 := wr HBM_STATUS.temp_c at_ (enc temp 8) s
    if 85 ≤ temp ∧ !rdB s HBM_STATUS.hot at_ then
      reevaluate (event 0x0731 (stack + 1) 0xFF (stack + 1) 0 [1] (wrB HBM_STATUS.hot at_ true s1))
    else if temp < 80 ∧ rdB s HBM_STATUS.hot at_ then
      refreshLedger (event 0x0731 (stack + 1) 0xFF (stack + 1) 0 [0] (wrB HBM_STATUS.hot at_ false s1))
    else s1
    else s)

/-! ## The home map -/

/-- Whether an entry is well formed (R343, R347, R350). -/
def entryOk (e : Nat) : Bool :=
  bits e 21 3 == 0 && decide (bits e 0 19 < 393216) && (decide (bits e 24 8 ≤ 0x50) || bits e 24 8 == 0xFF)

/-- Whether R349 permits the change of one entry. -/
def changeOk (old new : Nat) : Bool :=
  let o := bits old 24 8
  let n := bits new 24 8
  if o == 0x50 then new == old
  else n != 0x50 && (o == 0xFF || n == 0xFF || bits old 0 21 == bits new 0 21)

/-- The frame, counted through the stacks, that an entry names. -/
def entryFrame (e : Nat) : Nat := bits e 19 2 * 393216 + bits e 0 19

/-- The entry of a page in the map that a run would give. -/
def entryAfter (s : State) (first : Nat) (es : List Nat) (p : Nat) : Nat :=
  if first ≤ p ∧ p < first + es.length then es.getD (p - first) 0 else homeEntry s p

/-- Whether page p of a run would share its frame with another page that is not free (R350). -/
def sharesFrame (s : State) (first : Nat) (es : List Nat) (p : Nat) : Bool :=
  let e := entryAfter s first es p
  let cand := entryFrame e :: (s.mem.home.map (·.1) ++ (List.range es.length).map (first + ·))
  bits e 24 8 != 0xFF && cand.any (fun q => q != p && decide (q < 1572864) &&
    bits (entryAfter s first es q) 24 8 != 0xFF && entryFrame (entryAfter s first es q) == entryFrame e)

/-- The first page of a run for which a check fails. -/
def firstPage (n : Nat) (bad : Nat → Bool) : Option Nat := firstIdx n bad

/-- Put the result of a map commit into HBM_MAP_STATUS too (R352, R769). -/
def mapResult (status page : Nat) (fieldOff : Nat) (s : State) : State :=
  commitDone 0 (status, fieldOff) (wr HBM_MAP_FAULT_PAGE.page 0 page (wr HBM_MAP_STATUS.status 0 status s))

/-- The checks of class 0x07 on a run's entries (R349, R350, R385), in the order of R388: the status and the page.
Log entry: 97 (DEDUCED). -/
def mapChecks (s : State) (first count : Nat) (es : List Nat) : Option (Nat × Nat) :=
  match firstPage count (fun i => !entryOk (es.getD i 0) || decide (1572864 ≤ first + i)) with
  | some i => some (0x0740, first + i)
  | none => match firstPage count (fun i => !changeOk (homeEntry s (first + i)) (es.getD i 0)) with
    | some i => some (0x0741, first + i)
    | none => match firstPage count (fun i => sharesFrame s first es (first + i)) with
      | some i => some (0x0742, first + i)
      | none => if rdB s HBM_MAP_STATUS.busy then some (0x0743, 0) else none

/-- The class 0x00 checks of a map commit (R767). -/
def mapSetup (s : State) : List (Bool × Refuse) :=
  [(stg s HBM_MAP_COUNT.count == 0 || decide (1572864 < stg s HBM_MAP_COUNT.count), (0x0002, 0xB0000C)),
   (stg s HBM_MAP_SRC.src % 64 != 0, (0x0003, 0xB00000)),
   (!rangeHost s (stg s HBM_MAP_SRC.src) (stg s HBM_MAP_COUNT.count * 4), (0x0004, 0xB00000))]

/-- The accepted part of a map commit: the run is taken, and its entries wait to be installed (R352).
Log entries: 97 (DEDUCED), 99 (DEDUCED). -/
def mapStart (first count : Nat) (es : List Nat) (s : State) : State :=
  commitBusy 0 (wrB HBM_MAP_STATUS.busy 0 true
    { acceptStaged [(HBM_MAP_SRC.src, 0), (HBM_MAP_FIRST.first, 0), (HBM_MAP_COUNT.count, 0)] s with
      mem := { s.mem with mapJob := some ⟨first, es.take count⟩ } })

/-- HBM_MAP_COMMIT (R349, R350, R385, R773).
Log entry: 97 (DEDUCED). -/
def execHbmMapCommit (value : Nat) (s : State) : Host.Outcome State Fault Refusal :=
  .next (if value % 2 = 0 then s
    else if dieSilent s 0 then mapResult 0x0C40 0 0 (commitAt 0 0xB00020 s)
    else
      let s0 := commitAt 0 0xB00020 s
      let first := stg s HBM_MAP_FIRST.first
      let count := stg s HBM_MAP_COUNT.count
      match firstFail (mapSetup s) with
      | some r => mapResult r.1 0 r.2 s0
      | none =>
        let r := readMem 72 0xFF (stg s HBM_MAP_SRC.src) (count * 4) [] s0
        if r.1 ≠ 0 then mapResult 0x0007 0 0 r.2.2
        else
          let es := (List.range count).map (fun i => fld r.2.1 (4 * i) 4)
          match mapChecks r.2.2 first count es with
          | some x => mapResult x.1 x.2 0 r.2.2
          | none => mapStart first count es r.2.2)

/-- Install one entry and zero its frame where its owner changes to another than free (R351, R352).
Log entry: 98 (DEDUCED). -/
def installEntry (page e : Nat) (s : State) : State :=
  let old := homeEntry s page
  let s1 := { s with mem := { s.mem with home := aset s.mem.home page e (dawnEntry s page) } }
  if bits e 24 8 ≠ 0xFF ∧ bits e 24 8 ≠ bits old 24 8
  then zeroFrame (entryFrame e) (keyOf s1 (bits e 24 8)) s1 else s1

/-- MAP_COMMIT_COMPLETE (R351, R352).
Log entries: 98 (DEDUCED), 99 (DEDUCED). -/
def execMapCommitComplete (s : State) : Host.Outcome State Fault Refusal :=
  .next (match s.mem.mapJob with
    | none => s
    | some j =>
      let s1 := ((List.range j.entries.length).zip j.entries).foldl (fun s e => installEntry (j.first + e.1) e.2 s) s
      mapResult 0 0 0 (wrB HBM_MAP_STATUS.busy 0 false { s1 with mem := { s1.mem with mapJob := none } }))

/-- The fields of every share mask (R384). -/
def shareFields : List (Field × Nat) :=
  ((List.range 15).map (fun i => [(HBM_SHARE_RD.ctx_rd, 16 * (i + 1)), (HBM_SHARE_WR.ctx_wr, 16 * (i + 1)),
    (HBM_SHARE_PORTS.port_rd, 8 * (i + 1)), (HBM_SHARE_PORTS.port_wr, 8 * (i + 1))])).flatten

/-- HBM_SHARE_COMMIT (R385). -/
def execHbmShareCommit (value : Nat) (s : State) : Host.Outcome State Fault Refusal :=
  .next (commit 0 0xB002FC value [] (acceptStaged shareFields) s)

/-- HBM_COMMIT of a stack, 0 to 3 (R383): a threshold of 0 is refused. -/
def execHbmCommit (stack value : Nat) (s : State) : Host.Outcome State Fault Refusal :=
  .next (if stack < 4 then
    ifReached (stack + 1)
      (commit (stack + 1) 0x30001C value [(stg s HBM_CE_THRESH.threshold (dieBase (stack + 1)) == 0, (0x0002, 0x300018))]
        (acceptStaged [(HBM_CE_THRESH.threshold, dieBase (stack + 1))])) s
    else s)

end Sys2Proof.Machine
end

