-- ==== Sys2Proof/Machine/Lane.lean ====
section
/-! DEFINITION. The Lane unit's instructions: UNARY, BINARY, REDUCE and CONVERT (R65, R121 to R126, R130 to R135). -/

namespace Sys2Proof.Machine

/-- What a LANE instruction reads and writes: the fields of its word (R64), the lines of its source and destination,
and the drained tile that it consumes. -/
structure LaneJob where
  fn : Nat
  out : Nat
  mode : Nat
  n : Nat
  fmt : Nat
  src : List Int
  dst : List Int
  tile : Option Drained
  deriving DecidableEq, Repr

/-- Bytes that one vector of 64 elements takes. -/
def vecBytes (f : Nat) : Nat := packedBytes f 64

/-- The vectors that an instruction reads through its source generator: BINARY reads its two operands in turn, vector
by vector, after the broadcast operand of function 5; a drained tile stands for the first operand.
Log entry: 67 (DEDUCED). -/
def laneReads (op fn n : Nat) (drained : Bool) : Nat :=
  if op = opBinary then (if fn = 5 then 1 else 0) + (if drained then n else 2 * n)
  else if drained then 0 else n

/-- The bytes that an instruction writes: a result for each element, or one for each vector of REDUCE. -/
def laneWrites (op out n : Nat) : Nat := if op = opReduce then packedBytes out n else n * vecBytes out

/-- Set up a LANE instruction: its lines, and the site's generators moved on. The source takes its addresses before the
destination. -/
def laneJob (x : Site) (op : Nat) : LaneJob × (Role → Role) :=
  let w := x.role.word
  let fn := if op = opConvert then 0 else bits w 18 6
  let n := bits w 0 8 + 1
  let ga := bits w 12 2
  let gd := bits w 10 2
  let f := (x.role.agen ga).fmt
  let ns := divUp (laneReads op fn n x.role.drained.isSome * vecBytes f) 64
  let r1 := x.role.modAgen ga (fun g => g.skip ns)
  let nd := divUp (laneWrites op (bits w 14 4) n) 64
  ({ fn := fn, out := bits w 14 4, mode := bits w 8 2, n := n, fmt := f, src := (x.role.agen ga).take ns,
     dst := (r1.agen gd).take nd, tile := x.role.drained },
   fun r => (({ r with drained := none }).modAgen ga (fun g => g.skip ns)).modAgen gd (fun g => g.skip nd))

/-- Element i of the drained tile; past its 1,024 words, a free value of the tile and the place (the spec names
none, and R89 lets it depend on nothing else). -/
def Drained.word (t : Drained) (i : Nat) : Nat :=
  if i < 1024 then t.words.getD i 0 else Config.pastTile t.words i % 2 ^ 32

/-- The exact value of element i of a drained tile (R126). -/
def Drained.exact (t : Drained) (i : Nat) : Val :=
  if t.fp then f32Val (t.word i) else .fin (fracOf (sext (t.word i) 32) 1)

/-- Element i of a drained tile as an operand: an INT32 word rounded to FP32 (R126). -/
def LaneJob.tileRead (j : LaneJob) (x : Site) (t : Drained) (i : Nat) : Val × Nat :=
  (f32Val (f32 j.mode (x.randomAt i) (t.exact i)).1, 0)

/-- Vector k of what the source generator yields, as operands at element positions pos and on. -/
def LaneJob.readVec (j : LaneJob) (s : State) (x : Site) (k pos : Nat) : List (Val × Nat) :=
  let codes := unpack j.fmt (runBytes s x.role.brick j.src (k * vecBytes j.fmt) (vecBytes j.fmt)) 64
  ((List.range 64).zip codes).map (fun e => laneRead j.fmt j.mode (x.randomAt (pos + e.1)) e.2)

/-- The first operand of vector v. -/
def LaneJob.first (j : LaneJob) (s : State) (x : Site) (k v : Nat) : List (Val × Nat) :=
  match j.tile with
  | some t => (List.range 64).map (fun i => j.tileRead x t (v * 64 + i))
  | none => j.readVec s x k (v * 64)

/-- The flags of a list of operands or results. -/
def orFlags (l : List Nat) : Nat := l.foldl (· ||| ·) 0

/-- Write one vector's results and set their flags. -/
def LaneJob.put (j : LaneJob) (x : Site) (v : Nat) (res : List (Nat × Nat)) (fl : Nat) (s : State) : State :=
  noteArith x (orFlags (res.map (·.2)) ||| fl)
    (wrRun x.role.brick j.dst (v * vecBytes j.out) (pack j.out (res.map (·.1))) s)

/-- Vector v of UNARY. -/
def unaryVec (j : LaneJob) (x : Site) (s : State) (v : Nat) : State :=
  let a := j.first s x v v
  let res := ((List.range 64).zip a).map (fun e =>
    laneWrite j.out j.mode (x.randomAt (v * 64 + e.1)) [e.2.1] (unaryVal j.fn x.role.laneTable e.2.1))
  j.put x v res (orFlags (a.map (·.2))) s

/-- Vector v of BINARY: x ∘ y, or x × b + y with the broadcast b, element 0 of the vector that leads the source's. 
Log entry: 67 (DEDUCED). -/
def binaryVec (j : LaneJob) (x : Site) (s : State) (v : Nat) : State :=
  let o := if j.fn = 5 then 1 else 0
  let b := if j.fn = 5 then (j.readVec s x 0 0).headD (.nan, 0) else (.fin {}, 0)
  let a := j.first s x (o + 2 * v) v
  let c := j.readVec s x (if j.tile.isSome then o + v else o + 2 * v + 1) (v * 64)
  let res := ((List.range 64).zip (a.zip c)).map (fun e =>
    laneWrite j.out j.mode (x.randomAt (v * 64 + e.1)) (e.2.1.1 :: e.2.2.1 :: (if j.fn = 5 then [b.1] else []))
      (binaryVal j.fn b.1 e.2.1.1 e.2.2.1))
  j.put x v res (orFlags (a.map (·.2)) ||| orFlags (c.map (·.2)) ||| b.2) s

/-- Element i of vector v of a conversion: its exact value, a drained INT32 word by way of FP32 unless the destination
is an integer or Bell format (R126).
Log entries: 59 (DEDUCED), 60 (DEDUCED). -/
def convertElem (j : LaneJob) (s : State) (x : Site) (v i : Nat) : Nat × Nat :=
  let r := x.randomAt (v * 64 + i)
  match j.tile with
  | some t =>
    if 7 ≤ j.out then convert j.out j.mode r (t.exact (v * 64 + i))
    else convert j.out j.mode r (j.tileRead x t (v * 64 + i)).1
  | none =>
    let code := unpackAt j.fmt (runBytes s x.role.brick j.src (v * vecBytes j.fmt) (vecBytes j.fmt)) i
    convert j.out j.mode r (decodeElem j.fmt code)

/-- Vector v of CONVERT. -/
def convertVec (j : LaneJob) (x : Site) (s : State) (v : Nat) : State :=
  j.put x v ((List.range 64).map (convertElem j s x v)) 0 s

/-- The result of REDUCE for vector v: its code and flags (R124). -/
def reduceOne (j : LaneJob) (s : State) (x : Site) (v : Nat) : Nat × Nat :=
  let a := j.first s x v v
  let at_ := v * 64 + x.idxBase + x.role.earlier % 2 ^ 31 * 2 ^ 33
  let q := reduceVec j.fn j.mode x.launch.seed at_ (a.map (·.1))
  let y := convert j.out j.mode (x.randomAt (v * 64)) q.1
  (y.1, y.2 ||| q.2 ||| orFlags (a.map (·.2)) ||| (if a.any (fun e => e.1.isNan) then flagNan else 0))

/-- All of REDUCE: the results follow one another in the destination lines. -/
def reduceAll (j : LaneJob) (x : Site) (s : State) : State :=
  let res := (List.range j.n).map (reduceOne j s x)
  j.put x 0 res 0 s

/-- The effect of a LANE instruction: bounds first (R68), then vector by vector. -/
def laneRun (x : Site) (op : Nat) (s : State) : State :=
  let q := laneJob x op
  let j := q.1
  if !linesOk x.launch.image j.src || !linesOk x.launch.image j.dst then boundsFault x s
  else
    let vs := List.range j.n
    let s1 :=
      if op = opUnary then vs.foldl (unaryVec j x) s
      else if op = opBinary then vs.foldl (binaryVec j x) s
      else if op = opReduce then reduceAll j x s
      else vs.foldl (convertVec j x) s
    goOn x (setRole x q.2 s1)

/-- A LANE instruction on a Brick. -/
def laneStep (b op : Nat) (u : Upset) (s : State) : State :=
  match issuing s b op with
  | none => s
  | some x => withUpset x u (laneRun x op) s

/-- UNARY (R122). -/
def execUnary (brick : Nat) (upset : Upset) (s : State) : Host.Outcome State Fault Refusal :=
  .next (laneStep brick opUnary upset s)

/-- BINARY (R122). -/
def execBinary (brick : Nat) (upset : Upset) (s : State) : Host.Outcome State Fault Refusal :=
  .next (laneStep brick opBinary upset s)

/-- REDUCE (R124). -/
def execReduce (brick : Nat) (upset : Upset) (s : State) : Host.Outcome State Fault Refusal :=
  .next (laneStep brick opReduce upset s)

/-- CONVERT (R132). -/
def execConvert (brick : Nat) (upset : Upset) (s : State) : Host.Outcome State Fault Refusal :=
  .next (laneStep brick opConvert upset s)

end Sys2Proof.Machine
end

