-- ==== Sys2Proof/Machine/MerMath.lean ====
section
/-! DEFINITION. Meridian's arithmetic: FP32 helpers, the calibration table (R482, R483), projection (R484), de-skew
(R494), and the occupancy grid (R497). -/

namespace Sys2Proof.Machine

/-! ## FP32 -/

/-- The FP32 word nearest to n / d. -/
def lit (n d : Nat) : Nat := rne (.fin ⟨false, n, d⟩)

/-- A correctly rounded function of a finite FP32 word; NaN of any other. -/
def funF (f : Frac → Frac) (w : Nat) : Nat :=
  match f32Val w with
  | .fin x => rne (.fin (f x))
  | _ => 0x7FC00000

/-- Sine of an FP32 word. -/
def sinF (w : Nat) : Nat := funF sinFrac w
/-- Cosine of an FP32 word. -/
def cosF (w : Nat) : Nat := funF cosFrac w
/-- Arctangent of an FP32 word. -/
def atanF (w : Nat) : Nat := funF (fun x => atan2Frac x ⟨false, 1, 1⟩) w
/-- The larger of two FP32 words. -/
def maxF (a b : Nat) : Nat := if ltF a b then b else a

/-- The floor of a finite FP32 word. -/
def floorF (w : Nat) : Int := (fracF w).floor

/-! ## The table (R482, R483) -/

/-- Bytes of a table image. -/
def tableSize : Nat := 3136

/-- Entry of a stream in a table image. -/
def calEntry (t : List Nat) (k : Nat) : List Nat := slice t (64 + 128 * k) 128

/-- Whether a table holds a valid entry for a stream. -/
def calPresent (t : List Nat) (k : Nat) : Bool := bit (fld t 8 4) k

/-- Word (i, j) of an entry's transform. -/
def calWord (e : List Nat) (i j : Nat) : Nat := fld e (4 * (4 * i + j)) 4

/-- The time offset of an entry in ns. -/
def calOffset (e : List Nat) : Int := sext (fld e 64 4) 32

/-- Whether every element of RᵀR − I lies within 10⁻⁵ (R483). -/
def orthoOk (e : List Nat) : Bool :=
  (List.range 3).all (fun i => (List.range 3).all (fun j =>
    let t := (List.range 3).foldl (fun a k => a.add ((fracF (calWord e k i)).mul (fracF (calWord e k j)))) (fracNat 0)
    let d := t.add (fracOf (if i = j then -1 else 0) 1)
    (Frac.mk false d.num d.den).le ⟨false, 1, 100000⟩))

/-- Whether an entry is well formed for a stream (R483). -/
def entryGood (e : List Nat) (k : Nat) : Bool :=
  let model := e.getD 68 0
  (List.range 16).all (fun i => finF (fld e (4 * i) 4)) && calWord e 3 0 == 0 && calWord e 3 1 == 0 && calWord e 3 2 == 0
    && calWord e 3 3 == 0x3F800000 && orthoOk e && (if k < 16 then model == 1 || model == 2 else model == 0)
    && zeroAt e 69 3 && zeroAt e 120 8
    && (model == 0 || (ltF 0 (fld e 72 4) && finF (fld e 72 4) && ltF 0 (fld e 76 4) && finF (fld e 76 4)))
    && (model != 2 || zeroAt e 104 16)

/-- The CRC of a table image, with its own field taken as 0 (R482). -/
def tableCrc (t : List Nat) : Nat := crc32c (slice t 0 60 ++ [0, 0, 0, 0] ++ slice t 64 3072)

/-- Whether a table image is well formed and its CRC correct (R482, R483). -/
def tableOk (t : List Nat) : Bool :=
  let within := fun (at_ hi : Nat) => decide (1 ≤ fld t at_ 4) && decide (fld t at_ 4 ≤ hi)
  fld t 0 4 == 0x424C4143 && decide (fld t 8 4 < 2 ^ 24) && within 12 10000 && within 16 100000 && within 20 100000
    && within 24 100000 && decide (1 ≤ t.getD 28 0) && decide (t.getD 28 0 ≤ 64) && zeroAt t 29 7 && zeroAt t 44 16
    && fld t 60 4 == tableCrc t && (List.range 24).all (fun k => !calPresent t k || entryGood (calEntry t k) k)

/-- A table image with another version and time of adoption, and its CRC made anew (R482, R487).
Log entry: 143 (DEDUCED). -/
def stampTable (t : List Nat) (version adopted : Nat) : List Nat :=
  let u := slice t 0 4 ++ leBytes 4 version ++ slice t 8 28 ++ leBytes 8 adopted ++ slice t 44 16 ++ [0, 0, 0, 0]
    ++ slice t 64 3072
  slice u 0 60 ++ leBytes 4 (tableCrc u) ++ slice t 64 3072

/-- A table image with another transform for a stream. -/
def setTransform (t : List Nat) (k : Nat) (words : List Nat) : List Nat :=
  slice t 0 (64 + 128 * k) ++ padTo64 words ++ slice t (128 + 128 * k) (3136 - 128 - 128 * k)
where
  /-- The 64 bytes of sixteen words. -/
  padTo64 (w : List Nat) : List Nat := (List.range 16).flatMap (fun i => leBytes 4 (w.getD i 0))

/-- The square of the Frobenius norm of the difference of two rotations (R581). -/
def rotDiff2 (a b : List Nat) : Frac :=
  (List.range 9).foldl (fun t i =>
    let d := (fracF (calWord b (i / 3) (i % 3))).add (fracF (calWord a (i / 3) (i % 3))).opp
    t.add (d.mul d)) (fracNat 0)

/-- The square of the distance of two translations in m². -/
def transDiff2 (a b : List Nat) : Frac :=
  (List.range 3).foldl (fun t i =>
    let d := (fracF (calWord b i 3)).add (fracF (calWord a i 3)).opp
    t.add (d.mul d)) (fracNat 0)

/-- The angle between two rotations in 10⁻⁹ °, rounded down: 2 asin(‖·‖ / (2√2)) (R581).
Log entry: 142 (DESIGN CHOICE). -/
def rotAngle (a b : List Nat) : Nat :=
  let q := rotDiff2 a b
  -- the sine of half the angle, in fixed point, at most 1
  let s := min fixOne (isqrt (q.num * fixOne * fixOne / (8 * q.den)))
  let half := atanRatio s (isqrt (fixOne * fixOne - s * s))
  2 * half * 180000000000 / piFix

/-- The distance of two translations in nm, rounded down.
Log entry: 142 (DESIGN CHOICE). -/
def transDist (a b : List Nat) : Nat :=
  let q := transDiff2 a b
  isqrt (q.num * 1000000000000000000 / q.den)

/-! ## Geometry (R484, R494) -/

/-- A sum of three products, left to right. -/
def dot3 (a0 b0 a1 b1 a2 b2 : Nat) : Nat := addF (addF (mulF a0 b0) (mulF a1 b1)) (mulF a2 b2)

/-- A point moved into the vehicle frame by a transform: R·p + t. -/
def toVehicle (e : List Nat) (p : Nat × Nat × Nat) : Nat × Nat × Nat :=
  let row := fun (i : Nat) =>
    addF (dot3 (calWord e i 0) p.1 (calWord e i 1) p.2.1 (calWord e i 2) p.2.2) (calWord e i 3)
  (row 0, row 1, row 2)

/-- A projection (R484): depth, r2 and the image coordinates. -/
structure Proj where
  z : Nat
  r2 : Nat
  u : Nat
  v : Nat
  deriving DecidableEq, Repr

/-- Distorted coordinates of model 1 (R484). -/
def distortRational (e : List Nat) (x y r2 : Nat) : Nat × Nat :=
  let k := fun (i : Nat) => fld e (88 + 4 * i) 4
  let r4 := mulF r2 r2
  let r6 := mulF r4 r2
  let one := 0x3F800000
  let two := 0x40000000
  let num := addF (addF (addF one (mulF (k 0) r2)) (mulF (k 1) r4)) (mulF (k 4) r6)
  let den := addF (addF (addF one (mulF (k 5) r2)) (mulF (k 6) r4)) (mulF (k 7) r6)
  let rad := divF num den
  let xd := addF (addF (mulF x rad) (mulF (mulF (mulF two (k 2)) x) y)) (mulF (k 3) (addF r2 (mulF two (mulF x x))))
  let yd := addF (addF (mulF y rad) (mulF (k 2) (addF r2 (mulF two (mulF y y))))) (mulF (mulF (mulF two (k 3)) x) y)
  (xd, yd)

/-- Distorted coordinates of model 2 (R484). -/
def distortFisheye (e : List Nat) (x y r2 : Nat) : Nat × Nat :=
  let k := fun (i : Nat) => fld e (88 + 4 * i) 4
  let r := sqrtF r2
  if r = 0 then (x, y)
  else
    let th := atanF r
    let t2 := mulF th th
    let t4 := mulF t2 t2
    let t6 := mulF t4 t2
    let t8 := mulF t4 t4
    let poly := addF (addF (addF (addF 0x3F800000 (mulF (k 0) t2)) (mulF (k 1) t4)) (mulF (k 2) t6)) (mulF (k 3) t8)
    let thd := mulF th poly
    (divF (mulF x thd) r, divF (mulF y thd) r)

/-- Project a point of the vehicle frame into a camera (R484). -/
def project (e : List Nat) (p : Nat × Nat × Nat) : Proj :=
  let d0 := subF p.1 (calWord e 0 3)
  let d1 := subF p.2.1 (calWord e 1 3)
  let d2 := subF p.2.2 (calWord e 2 3)
  let col := fun (j : Nat) => dot3 (calWord e 0 j) d0 (calWord e 1 j) d1 (calWord e 2 j) d2
  let z := col 2
  let x := divF (col 0) z
  let y := divF (col 1) z
  let r2 := addF (mulF x x) (mulF y y)
  let q := if e.getD 68 0 = 2 then distortFisheye e x y r2 else distortRational e x y r2
  ⟨z, r2, addF (mulF (fld e 72 4) q.1) (fld e 80 4), addF (mulF (fld e 76 4) q.2) (fld e 84 4)⟩

/-- Whether a projection lies in an image (R484). -/
def inImage (q : Proj) (w h : Nat) : Bool :=
  leF (lit 1 10) q.z && leF 0 q.u && ltF q.u (intF w) && leF 0 q.v && ltF q.v (intF h)

/-- De-skew a point by dt seconds with a velocity and an angular rate: p − dt·(v + ω × p) (R494). -/
def deskew (tw : List Nat) (dt : Nat) (p : Nat × Nat × Nat) : Nat × Nat × Nat :=
  let v := fun (i : Nat) => tw.getD i 0
  let w := fun (i : Nat) => tw.getD (3 + i) 0
  let c0 := subF (mulF (w 1) p.2.2) (mulF (w 2) p.2.1)
  let c1 := subF (mulF (w 2) p.1) (mulF (w 0) p.2.2)
  let c2 := subF (mulF (w 0) p.2.1) (mulF (w 1) p.1)
  (subF p.1 (mulF dt (addF (v 0) c0)), subF p.2.1 (mulF dt (addF (v 1) c1)), subF p.2.2 (mulF dt (addF (v 2) c2)))

/-! ## The occupancy grid (R497) -/

/-- Cell number along an axis of a coordinate: (x + 51.2) / 0.8, rounded down, exactly.
Log entry: 148 (DEDUCED). -/
def cellOf (x : Frac) : Int := ((x.add ⟨false, 256, 5⟩).mul ⟨false, 5, 4⟩).floor

/-- Key of a cell, none outside the grid. -/
def cellKey (i j : Int) : Option Nat := if 0 ≤ i ∧ i < 128 ∧ 0 ≤ j ∧ j < 128 then some (i.toNat * 128 + j.toNat) else none

/-- The y of a segment at an x, from (x0, y0) to (x1, y1) with x0 ≠ x1. -/
def segY (x0 y0 x1 y1 x : Frac) : Frac :=
  y0.add (((x.add x0.opp).mul (y1.add y0.opp)).div (x1.add x0.opp))

/-- The key of cell (i, j) where j lies between two rows. -/
def rowCell (i : Nat) (a b : Int) (j : Nat) : Option Nat :=
  if a ≤ (j : Int) ∧ (j : Int) ≤ b then some (i * 128 + j) else none

/-- The cells of the grid that a segment crosses: column by column, from its lower to its higher row.
Log entry: 148 (DEDUCED). -/
def cellsCrossed (x0 y0 x1 y1 : Frac) : List Nat :=
  let lo := if x0.le x1 then (x0, y0) else (x1, y1)
  let hi := if x0.le x1 then (x1, y1) else (x0, y0)
  (List.range 128).flatMap (fun (i : Nat) =>
    let left : Frac := fracOf (4 * (i : Int) - 256) 5
    let right : Frac := fracOf (4 * (i : Int) - 252) 5
    if hi.1.lt left ∨ right.le lo.1 then []
    else
      let ya := if lo.1.lt left then segY lo.1 lo.2 hi.1 hi.2 left else lo.2
      let yb := if right.lt hi.1 then segY lo.1 lo.2 hi.1 hi.2 right else hi.2
      let a := min (cellOf ya) (cellOf yb)
      let b := max (cellOf ya) (cellOf yb)
      (List.range 128).filterMap (rowCell i a b))

/-- Whether a cell is free (R497). -/
def cellFree (c : Nat × Nat) : Bool := c.1 == 0 && decide (4 ≤ c.2)

end Sys2Proof.Machine
end

