-- ==== Sys2Proof/Machine/EgoMotion.lean ====
section
/-! DEFINITION. Meridian's estimates from points and frames: lidar registration (R490), visual odometry (R491), and the
edge correspondences of online refinement (R487). The chapter states the data that each takes and when its answer stands;
the arithmetic in between is opaque functions of those data. -/

namespace Sys2Proof.Machine

/-- A position: its three FP32 words. -/
abbrev Pos := Nat × Nat × Nat

/-- The words of an estimate: translation 0 to 2, rotation 3 to 5, velocity 6 to 8, angular rate 9 to 11, variances 12
and 13. -/
abbrev Ego := List Nat

/-- Length of a vector of three words. -/
def norm3 (a b c : Nat) : Nat := sqrtF (dot3 a a b b c c)

/-- n words of a list. -/
def f32Words (n : Nat) (l : List Nat) : List Nat := (List.range n).map (fun i => l.getD i 0 % 2 ^ 32)

/-! ## Lidar registration (R490) -/

/-- The voxel of 0.5 m that holds a position, none where a coordinate is not finite. -/
def voxelOf (p : Pos) : Option (Int × Int × Int) :=
  let f := fun (w : Nat) => ((fracF w).mul ⟨false, 2, 1⟩).floor
  if finF p.1 && finF p.2.1 && finF p.2.2 then some (f p.1, f p.2.1, f p.2.2) else none

/-- The plane of the voxel that contains a position, where at least 5 points of the reference lie in it: its normal's
three words and its offset.
Log entry: 141 (DESIGN CHOICE). -/
def planeAt (reference : List Pos) (p : Pos) : Option (List Nat) :=
  match voxelOf p with
  | none => none
  | some v =>
    let mine := reference.filter (fun q => voxelOf q == some v)
    if mine.length < 5 then none
    else some (f32Words 4 (Config.voxelPlane (mine.flatMap (fun q => [q.1, q.2.1, q.2.2]))))

/-- A source position under a pose: three rows of four words. -/
def applyPose (pose : List Nat) (p : Pos) : Pos :=
  let row := fun (i : Nat) => addF (dot3 (pose.getD (4 * i) 0) p.1 (pose.getD (4 * i + 1) 0) p.2.1
    (pose.getD (4 * i + 2) 0) p.2.2) (pose.getD (4 * i + 3) 0)
  (row 0, row 1, row 2)

/-- The correspondences of an iteration in ascending source order: a source position, and the plane of the voxel that
contains it, at a distance of at most 1.0 m. -/
def matchPlanes (reference : List Pos) (pose : List Nat) (source : List Pos) : List (List Nat) :=
  source.filterMap (fun p =>
    let q := applyPose pose p
    match planeAt reference q with
    | none => none
    | some pl =>
      let d := addF (dot3 (pl.getD 0 0) q.1 (pl.getD 1 0) q.2.1 (pl.getD 2 0) q.2.2) (pl.getD 3 0)
      if leF (absF d) 0x3F800000 then some ([q.1, q.2.1, q.2.2] ++ pl) else none)

/-- What registration holds after an iteration: the pose, its last update in translation and rotation, and the
correspondences. -/
structure Registration where
  pose : List Nat
  update : List Nat := []
  matched : List (List Nat) := []

/-- One Gauss-Newton iteration. -/
def registerOnce (reference source : List Pos) (r : Registration) : Registration :=
  let m := matchPlanes reference r.pose source
  let w := f32Words 18 (Config.icpStep r.pose m)
  ⟨w.take 12, w.drop 12, m⟩

/-- The source points: every ceil(N / 8,192)th of the cycle's points. -/
def sourcePoints (l : List Pos) : List Pos :=
  let k := max 1 (divUp l.length 8192)
  (List.range (divUp l.length k)).map (fun i => l.getD (i * k) (0, 0, 0))

/-- The registration of a cycle's points, de-skewed with the previous twist, after its 6 iterations.
Log entry: 141 (DESIGN CHOICE). -/
def registration (reference : List Pos) (tw : List Nat) (pts : List Pos) : Registration :=
  (List.range 6).foldl (fun r _ => registerOnce reference (sourcePoints pts) r) { pose := f32Words 12 (Config.icpStart tw) }

/-- An angle of n / d degrees as an FP32 word in radians. -/
def degF (n d : Nat) : Nat := rne (.fin ((⟨false, piFix, fixOne⟩ : Frac).mul ⟨false, n, 180 * d⟩))

/-- Whether a registration has converged: at least 500 correspondences, and a last update of at most 1 mm and 0.01°. -/
def Registration.converged (r : Registration) : Bool :=
  let u := fun (i : Nat) => r.update.getD i 0
  decide (500 ≤ r.matched.length) && leF (norm3 (u 0) (u 1) (u 2)) (lit 1 1000)
    && leF (norm3 (u 3) (u 4) (u 5)) (degF 1 100)

/-- The estimate of a registration over a cycle of `us` microseconds. -/
def Registration.ego (r : Registration) (us : Nat) : Ego := f32Words 14 (Config.icpEstimate r.pose r.matched us)

/-! ## Visual odometry (R491) -/

/-- Element c of a pixel of a frame's bytes. -/
def pixelAt (f : LastFrame) (x y c : Nat) : Nat :=
  f.image.getD (y * (camPitch f.record * 64) + x * camChannels f.record + c) 0

/-- Width and height of a frame. -/
def LastFrame.size (f : LastFrame) : Nat × Nat := (fld f.record 4 2, fld f.record 6 2)

/-- The sum of absolute differences of two windows of 11 × 11 pixels around two pixels. -/
def sad (f g : LastFrame) (x y x' y' : Nat) : Nat :=
  sumNat ((List.range 121).map (fun i => sumNat ((List.range (camChannels f.record)).map (fun c =>
    (sext (pixelAt f (x + i % 11 - 5) (y + i / 11 - 5) c) 8
      - sext (pixelAt g (x' + i % 11 - 5) (y' + i / 11 - 5) c) 8).natAbs))))

/-- Whether a window of 11 × 11 pixels lies in a frame. -/
def windowIn (f : LastFrame) (x y : Nat) : Bool :=
  decide (5 ≤ x) && decide (x + 5 < f.size.1) && decide (5 ≤ y) && decide (y + 5 < f.size.2)

/-- Where a corner of a frame stood in the previous one: the least difference over ±32 pixels, the first of equals row by
row. -/
def trackCorner (f prev : LastFrame) (x y : Nat) : Option (Nat × Nat) :=
  let at_ := fun (i : Nat) => (x + i % 65 - 32, y + i / 65 - 32)
  let inside := (List.range 4225).filter (fun i =>
    decide (32 ≤ x + i % 65) && decide (32 ≤ y + i / 65) && windowIn prev (at_ i).1 (at_ i).2)
  let best := inside.foldl (fun (b : Option (Nat × Nat)) i =>
    let d := sad f prev x y (at_ i).1 (at_ i).2
    match b with
    | some e => if d < e.1 then some (d, i) else b
    | none => some (d, i)) none
  best.map (fun e => at_ e.2)

/-- The depth of a pixel in a frame's depth image, reduced by 2^shift: an FP16 code, none in an empty cell. -/
def depthAt (shift : Nat) (f : LastFrame) (x y : Nat) : Option Nat :=
  let w := divUp f.size.1 (2 ^ shift)
  let c := y / 2 ^ shift * w + x / 2 ^ shift
  let z := fld f.depth (2 * c) 2
  if z = 0 then none else some z

/-- The tracks of a camera that have depth: the corner's pixel, its pixel in the previous frame, and the depth there.
Log entry: 141 (DESIGN CHOICE). -/
def cornerTracks (shift : Nat) (f prev : LastFrame) : List (List Nat) :=
  (List.range 64).filterMap (fun cell =>
    match Config.harrisCorner f.image f.size.1 f.size.2 (camChannels f.record) cell with
    | none => none
    | some (x, y) =>
      if !windowIn f x y then none
      else match trackCorner f prev x y with
        | none => none
        | some (x', y') => (depthAt shift prev x' y').map (fun z => [f.stream, x, y, x', y', z]))

/-- The answer of visual odometry: its estimate where at least 64 tracks have depth.
Log entry: 141 (DESIGN CHOICE). -/
def visualEgo (r : List Nat) (frames before : List LastFrame) : Option Ego :=
  let mine := frames.filter (fun f => bit (fld r 16 2) f.stream)
  let tracks := mine.flatMap (fun f => match before.find? (fun g => g.stream == f.stream && g.size == f.size) with
    | some g => cornerTracks (r.getD 1 0) f g
    | none => [])
  if tracks.length < 64 then none
  else some (f32Words 14 (Config.voEstimate tracks (mine.map (·.entry)) (fld r 28 4)))

/-! ## Edge correspondences (R487) -/

/-- Whether the gradient of a frame's G channel, at depth-image resolution, exceeds 48 at a cell (Sobel). -/
def edgeAt (shift : Nat) (f : LastFrame) (x y : Nat) : Bool :=
  let w := divUp f.size.1 (2 ^ shift)
  let h := divUp f.size.2 (2 ^ shift)
  let g := fun (i j : Nat) =>
    sext (Config.reducedG f.image f.size.1 f.size.2 (camChannels f.record) shift (x + i - 1) (y + j - 1) % 256) 8
  let gx := (g 2 0 + 2 * g 2 1 + g 2 2) - (g 0 0 + 2 * g 0 1 + g 0 2)
  let gy := (g 0 2 + 2 * g 1 2 + g 2 2) - (g 0 0 + 2 * g 1 0 + g 2 0)
  decide (1 ≤ x) && decide (x + 1 < w) && decide (1 ≤ y) && decide (y + 1 < h) && decide (48 * 48 < gx * gx + gy * gy)

/-- The edge pixels of a frame at depth-image resolution, row by row. -/
def edgePixels (shift : Nat) (f : LastFrame) : List (Nat × Nat) :=
  let w := divUp f.size.1 (2 ^ shift)
  ((List.range (w * divUp f.size.2 (2 ^ shift))).map (fun c => (c % w, c / w))).filter (fun c => edgeAt shift f c.1 c.2)

/-- The edge pixel nearest to a projection, the first of equals row by row: the square of the distance, exactly, decides. -/
def nearestEdge (shift : Nat) (edges : List (Nat × Nat)) (u v : Nat) : Option (Nat × Nat) :=
  let d2 := fun (c : Nat × Nat) =>
    let along := fun (w n : Nat) => ((fracF w).mul ⟨false, 1, 2 ^ shift⟩).add (fracOf (-(n : Int)) 1)
    ((along u c.1).mul (along u c.1)).add ((along v c.2).mul (along v c.2))
  (edges.foldl (fun (b : Option (Frac × (Nat × Nat))) c => match b with
    | some e => if (d2 c).lt e.1 then some (d2 c, c) else b
    | none => some (d2 c, c)) none).map (·.2)

/-- The nearer points of pairs of successive returns on one channel of one lidar whose ranges differ by more than 0.5 m:
their places in the list. `pts` holds stream, channel and position in sensor coordinates. -/
def edgePoints (pts : List (Nat × Nat × Pos)) : List Nat :=
  let range := fun (p : Pos) => norm3 p.1 p.2.1 p.2.2
  let step := fun (acc : AMap (Nat × Nat) × List Nat) (e : Nat × (Nat × Nat × Pos)) =>
    let key := e.2.1 * 256 + e.2.2.1
    let r := range e.2.2.2
    let out := match acc.1.find? (fun x => x.1 == key) with
      | some (_, i, q) =>
        if ltF (lit 1 2) (absF (subF r q)) then
          let k := if ltF r q then e.1 else i
          if acc.2.contains k then acc.2 else acc.2 ++ [k]
        else acc.2
      | none => acc.2
    (aput acc.1 key (e.1, r), out)
  (((List.range pts.length).zip pts).foldl step ([], [])).2

end Sys2Proof.Machine
end

