-- ==== Sys2Proof/Machine/Meridian.lean ====
section
/-! DEFINITION. Meridian's cycles: samples and closes (R471 to R476), ego-motion (R490 to R493), raw-sample fusion (R494
to R499), and the fusion output (R500 to R502, R513). -/

namespace Sys2Proof.Machine

open Reg

/-! ## The configuration record (R477) -/

/-- Meridian's port (R372). -/
def merPort : Nat := 66

/-- Change Meridian's state. -/
def modMer (f : MerState → MerState) (s : State) : State := { s with mer := f s.mer }

/-- Whether the record asks for replay mode. -/
def merReplay (r : List Nat) : Bool := bit (r.getD 0 0) 0
/-- Whether input stream k is enabled. -/
def merUses (r : List Nat) (k : Nat) : Bool := bit (fld r 8 4) k
/-- The streams that are enabled, in ascending order. -/
def merStreams (r : List Nat) : List Nat := (List.range 24).filter (merUses r)
/-- Cameras that are enabled. -/
def merCameras (r : List Nat) : List Nat := (List.range 16).filter (merUses r)
/-- Dial time of instant 0. -/
def merT0 (r : List Nat) : Nat := fld r 20 8
/-- Length of a cycle in ns. -/
def merCycleNs (r : List Nat) : Nat := fld r 28 4 * 1000
/-- Entries of the rings. -/
def merSlots (r : List Nat) : Nat := max 1 (r.getD 5 0)
/-- The time of validity of cycle n (R471). -/
def merTv (r : List Nat) (n : Nat) : Nat := merT0 r + n * merCycleNs r
/-- n rounded up to 4,096. -/
def up4k (n : Nat) : Nat := divUp n 4096 * 4096
/-- A Tie of the record. -/
def merTie (r : List Nat) (at_ : Nat) : Nat := fld r at_ 4 % 2 ^ 17

/-- Width and height of a camera stream. -/
def camSize (s : State) (k : Nat) : Nat × Nat := (fld (streamOf s k).record 4 2, fld (streamOf s k).record 6 2)

/-- Width and height of a camera's depth image (R496). -/
def depthSize (r : List Nat) (wh : Nat × Nat) : Nat × Nat :=
  (divUp wh.1 (2 ^ r.getD 1 0), divUp wh.2 (2 ^ r.getD 1 0))

/-- Bytes of a fusion slot by R498. -/
def fusionLayout (s : State) (r : List Nat) : Nat :=
  4096 + up4k (48 * fld r 48 4)
    + sumNat ((merCameras r).map (fun k => let d := depthSize r (camSize s k); up4k (2 * d.1 * d.2)))

/-! ## Samples (R472 to R475) -/

/-- The instant of a reference time (R472): the smallest n whose time of validity is at or after it. -/
def instantOf (r : List Nat) (t : Int) : Nat :=
  if t ≤ merT0 r then 0 else divUp (t - merT0 r).toNat (max 1 (merCycleNs r))

/-- The sample of record k of a stream, with its calibration entry's time offset. -/
def sampleOf (r table : List Nat) (stream seq : Nat) (rec_ : List Nat) : Sample :=
  let off := calOffset (calEntry table stream)
  let ref : Int := (if stream < 16 then fld rec_ 8 8 else fld rec_ 16 8 : Nat) + off
  { stream := stream, seq := seq, refTime := ref, capture := fld rec_ 8 8, fe := fld rec_ 16 8, buf := fld rec_ 32 6,
    points := fld rec_ 4 4, instant := instantOf r ref, published := fld rec_ 24 8 }

/-- Read the records that a stream has published since the last read, in pub_seq order; a stream committed afresh begins
again at 0.
Log entry: 140 (DEDUCED). -/
def readStream (s : State) (k : Nat) : State :=
  let x := streamOf s k
  let from_ := if x.pubSeq < aget s.mer.readSeq k 0 then 0 else aget s.mer.readSeq k 0
  let table := s.mer.active.getD []
  let s1 := (List.range (x.pubSeq - from_)).foldl (fun s i =>
    let q := readMem merPort s.mer.owner (inRec x.record + (from_ + i) % max 1 (inSlots k x.record) * 64) 64 [] s
    if q.1 ≠ 0 then q.2.2
    else modMer (fun m => { m with held := m.held ++ [sampleOf m.record table k (from_ + i) q.2.1] }) q.2.2) s
  modMer (fun m => { m with readSeq := aset m.readSeq k x.pubSeq 0 }) s1

/-- Read the new records of every enabled stream. -/
def readAll (s : State) : State := (merStreams s.mer.record).foldl readStream s

/-- The age of a sample at a time of validity in ns (R474, R475). -/
def sampleAge (tv : Nat) (x : Sample) : Nat := tv - x.capture

/-- The distance of a sample's reference time from a time of validity. -/
def refDist (tv : Nat) (x : Sample) : Nat := (x.refTime - tv).natAbs

/-- The camera frame to use of some (R475): the nearest, on a tie the later.
Log entry: 140 (DEDUCED). -/
def nearest (tv : Nat) (l : List Sample) : Option Sample :=
  l.foldl (fun b x => match b with
    | none => some x
    | some y => if refDist tv x ≤ refDist tv y then some x else some y) none

/-- What a cycle does with the samples of a stream: those merged, late ones merged, late ones dropped (R474, R475). -/
structure Taken where
  merged : List Sample
  lateUsed : Nat
  lateDropped : Nat

/-- The samples of a stream that a cycle merges.
Log entry: 140 (DEDUCED). -/
def takeSamples (tv n window k : Nat) (l : List Sample) : Taken :=
  let mine := l.filter (fun x => x.stream == k)
  let onTime := mine.filter (fun x => x.instant == n)
  let late := mine.filter (fun x => decide (x.instant < n))
  let fit := late.filter (fun x => decide (sampleAge tv x ≤ window))
  if k < 16 then
    if onTime.isEmpty then ⟨(nearest tv fit).toList, min 1 fit.length, late.length - min 1 fit.length⟩
    else ⟨(nearest tv onTime).toList, 0, late.length⟩
  else ⟨fit ++ onTime, fit.length, late.length - fit.length⟩

/-! ## Lidar points -/

/-- A lidar point as read (R450, R494): its stream, entry, position in sensor coordinates, time, intensity, channel. -/
structure LPoint where
  stream : Nat
  pos : Nat × Nat × Nat
  dt : Int
  intensity : Nat
  channel : Nat

/-- The points of a merged batch, with dt in ns (R494).
Log entry: 140 (DEDUCED). -/
def batchPoints (s : State) (table : List Nat) (tv : Nat) (b : Sample) : List LPoint × State :=
  if b.points = 0 then ([], s)
  else
    let q := readMem merPort s.mer.owner b.buf (32 * b.points) [] s
    if q.1 ≠ 0 then ([], q.2.2)
    else
      let off := calOffset (calEntry table b.stream)
      ((List.range b.points).map (fun i =>
        let p := slice q.2.1 (32 * i) 32
        ⟨b.stream, (fld p 0 4, fld p 4 4, fld p 8 4), (tv : Int) - (b.capture + fld p 12 4 : Nat) - off,
         fld p 16 2, p.getD 18 0⟩), q.2.2)

/-- dt in seconds (R494). -/
def dtSeconds (p : LPoint) : Nat := mulF (intF p.dt) (lit 1 1000000000)

/-- A point in the vehicle frame at the time of validity (R494). -/
def placePoint (table tw : List Nat) (p : LPoint) : Nat × Nat × Nat :=
  deskew tw (dtSeconds p) (toVehicle (calEntry table p.stream) p.pos)

/-! ## Ego-motion (R490 to R493) -/

/-- Whether two estimates disagree (R492).
Log entry: 141 (DESIGN CHOICE). -/
def egoDisagree (a b : Ego) : Bool :=
  let d := fun (i : Nat) => subF (a.getD i 0) (b.getD i 0)
  let limit := addF (lit 1 20) (mulF (lit 1 50) (norm3 (a.getD 0 0) (a.getD 1 0) (a.getD 2 0)))
  ltF limit (norm3 (d 0) (d 1) (d 2)) ||
    ltF (degF 1 5) (norm3 (d 3) (d 4) (d 5))

/-- The predicted motion: the previous twist held for one cycle (R492).
Log entry: 141 (DESIGN CHOICE). -/
def predicted (r tw : List Nat) : Ego :=
  let t := mulF (intF (fld r 28 4)) (lit 1 1000000)
  tw.map (fun w => mulF w t) ++ tw ++ f32Words 2 (Config.predictedVar tw)

/-- Choose the estimate (R492): words, source and ego flags.
Log entry: 141 (DESIGN CHOICE). -/
def chooseEgo (icp vo : Option Ego) (pred : Ego) : Ego × Nat × Nat :=
  match icp, vo with
  | some a, some b => (a, 0, b2n (egoDisagree a b))
  | some a, none => (a, 0, 8)
  | none, some b => (b, 1, 4)
  | none, none => (pred, 2, 12)

/-- Whether an odometry line makes an estimate implausible (R493): `line` holds its bytes, `ok` that it is present.
Log entry: 141 (DESIGN CHOICE). -/
def egoImplausible (r : List Nat) (e : Ego) (line : List Nat) (ok : Bool) : Bool :=
  let speed := fld line 8 4
  let tol := maxF (fld r 88 4) (mulF (lit 1 10) (absF speed))
  ok && ((bit (line.getD 16 0) 0 && ltF tol (absF (subF (norm3 (e.getD 6 0) (e.getD 7 0) (e.getD 8 0)) speed)))
    || (bit (line.getD 16 0) 1 && ltF (fld r 92 4) (absF (subF (e.getD 11 0) (fld line 12 4)))))

/-! ## Painting (R495 to R498) -/

/-- A painted point's projection in the camera that paints it (R495): the smallest r2, the lower stream on a tie. -/
def paintCamera (frames : List UsedFrame) (p : Nat × Nat × Nat) : Option (UsedFrame × Proj) :=
  frames.foldl (fun b f =>
    let q := project f.entry p
    if !inImage q (fld f.record 4 2) (fld f.record 6 2) then b
    else match b with
      | none => some (f, q)
      | some x => if ltF q.r2 x.2.r2 then some (f, q) else b) none

/-- The colour of a pixel of a camera frame (R495), three elements or one three times, and the state after its read. -/
def pixelColour (s : State) (f : UsedFrame) (q : Proj) : List Nat × State :=
  let ch := camChannels f.record
  let at_ := f.buf + (floorF q.v).toNat * camPitch f.record * 64 + (floorF q.u).toNat * ch
  let d := readMem merPort s.mer.owner at_ (if ch = 1 then 1 else 3) [] s
  (if ch = 1 then List.replicate 3 (d.2.1.headD 255) else d.2.1, d.2.2)

/-- The 48 bytes of a painted point (R498), and the state after the read of its pixel. -/
def paintedPoint (s : State) (frames : List UsedFrame) (l : LPoint) (p : Nat × Nat × Nat) : List Nat × State :=
  let head := leBytes 4 p.1 ++ leBytes 4 p.2.1 ++ leBytes 4 p.2.2 ++ leBytes 4 (enc l.dt 32) ++ leBytes 2 l.intensity
    ++ [l.channel, l.stream - 16]
  match paintCamera frames p with
  | none => (head ++ [0xFF, 0, 0, 0] ++ List.replicate 24 0, s)
  | some (f, q) =>
    let c := pixelColour s f q
    (head ++ [f.stream] ++ c.1 ++ leBytes 4 q.u ++ leBytes 4 q.v ++ leBytes 4 q.z ++ List.replicate 12 0, c.2)

/-- Paint points one after another: their bytes, and the state after the reads of their pixels. -/
def paintAll (frames : List UsedFrame) (ps : List (LPoint × (Nat × Nat × Nat))) (s : State) : List Nat × State :=
  ps.foldl (fun (acc : List Nat × State) x =>
    let q := paintedPoint acc.2 frames x.1 x.2
    (acc.1 ++ q.1, q.2)) (([] : List Nat), s)

/-- The depth image of a camera (R496), row by row: an empty cell holds +0. -/
def depthImage (r : List Nat) (f : UsedFrame) (ps : List (Nat × Nat × Nat)) : List Nat :=
  let wh := (fld f.record 4 2, fld f.record 6 2)
  let d := depthSize r wh
  let k := 2 ^ r.getD 1 0
  let cells := ps.foldl (fun (m : AMap Nat) p =>
    let q := project f.entry p
    if !inImage q wh.1 wh.2 then m
    else
      let c := (floorF q.v).toNat / k * d.1 + (floorF q.u).toNat / k
      if aget m c 0 = 0 ∨ ltF q.z (aget m c 0) then aput m c q.z else m) []
  (List.range (d.1 * d.2)).flatMap (fun c => leBytes 2 (match aget cells c 0 with
    | 0 => 0
    | z => (convert 2 0 0 (f32Val z)).1))

/-- Mark a point on the occupancy grid (R497).
Log entry: 148 (DEDUCED). -/
def gridPoint (r table : List Nat) (m : AMap (Nat × Nat)) (e : LPoint × (Nat × Nat × Nat)) : AMap (Nat × Nat) :=
  let p := e.2
  let cal := calEntry table e.1.stream
  let x := fracF p.1
  let y := fracF p.2.1
  let own := cellKey (cellOf x) (cellOf y)
  let m1 := match own with
    | some c => if leF (addF (fld r 52 4) (lit 3 10)) p.2.2
        then aput m c ((aget m c (0, 0)).1 + 1, (aget m c (0, 0)).2) else m
    | none => m
  (cellsCrossed (fracF (calWord cal 0 3)) (fracF (calWord cal 1 3)) x y).foldl (fun m c =>
    if own = some c then m else aput m c ((aget m c (0, 0)).1, (aget m c (0, 0)).2 + 1)) m1

/-! ## The close (R473, R476, R499) -/

/-- Whether a stream holds back no close of cycle n in replay mode: it has a sample of that instant or later, or cannot
publish again (R473, R476).
Log entry: 140 (DEDUCED). -/
def streamReady (s : State) (n k : Nat) : Bool :=
  let x := streamOf s k
  !x.enabled || x.owner != s.mer.owner || s.mer.held.any (fun y => y.stream == k && decide (n ≤ y.instant))

/-- Let time pass to the close of the next cycle, none while it must wait (R473, R476). -/
def closeTime (s : State) : Option State :=
  let r := s.mer.record
  let n := s.mer.next
  if merReplay r then
    let s1 := readAll s
    if s.mer.stopping || (merStreams r).all (streamReady s1 n) then some s1
    else if fld r 32 4 ≠ 0 then some (readAll (passTo (s.mer.closeAt + fld r 32 4 * 1000) s1))
    else none
  else
    let due := merTv r n + fld r 32 4 * 1000
    some (readAll (if dial s < due then passTo (now s + (due - dial s)) s else s))

/-- The sensor status entry of a stream (R498). -/
def statusEntry (r : List Nat) (k : Nat) (t : Taken) : List Nat :=
  let state := if !merUses r k then 0 else if t.merged.isEmpty then 1
    else if t.lateUsed = 0 then 2 else if t.lateUsed = t.merged.length then 4 else 3
  match t.merged.getLast? with
  | some x => leBytes 4 x.seq ++ [state, satTo t.lateUsed 255, satTo t.lateDropped 255, 0] ++ leBytes 8 x.capture
  | none => [0, 0, 0, 0, state, satTo t.lateUsed 255, satTo t.lateDropped 255, 0] ++ List.replicate 8 0

/-- The odometry line read at a close, and whether it is used (R481).
Log entry: 140 (DEDUCED). -/
def readOdometry (tv : Nat) (s : State) : List Nat × Bool × State :=
  let a := fld s.mer.record 128 6
  if a = 0 then ([], false, s)
  else
    let q := readMem merPort s.mer.owner a 64 [] s
    let t := fld q.2.1 0 8
    (q.2.1, q.1 == 0 && decide (max t tv - min t tv ≤ 100000000), q.2.2)

/-- The bytes of a frame that a cycle uses, none where they cannot be read, and the state after their read. -/
def frameBytes (s : State) (f : UsedFrame) : Option LastFrame × State :=
  let q := readMem merPort s.mer.owner f.buf (fld f.record 6 2 * (camPitch f.record * 64)) [] s
  (if q.1 = 0 then some ⟨f.stream, f.entry, f.record, q.2.1, []⟩ else none, q.2.2)

/-- Read the frames of a list. -/
def readFrames (l : List UsedFrame) (s : State) : List LastFrame × State :=
  l.foldl (fun (acc : List LastFrame × State) f =>
    let q := frameBytes acc.2 f
    (acc.1 ++ q.1.toList, q.2)) (([] : List LastFrame), s)

/-- The estimate of a cycle with its source and ego flags (R492), and the correspondences of its registration: `pts` are
the cycle's points de-skewed with the previous twist. A cycle without points, or after one without, has none.
Log entry: 141 (DESIGN CHOICE). -/
def egoOf (m : MerState) (pts : List Pos) (frames : List LastFrame) : (Ego × Nat × Nat) × Nat :=
  let reg := registration m.reference m.twist pts
  let icp := if reg.converged then some (reg.ego (fld m.record 28 4)) else none
  (chooseEgo icp (visualEgo m.record frames m.lastFrames) (predicted m.record m.twist), reg.matched.length)

/-- The edge correspondences that a cycle gives each camera (R487), after those gathered before: the position of a lidar
edge point, its projection, and the nearest edge pixel of the frame that paints it.
Log entry: 142 (DESIGN CHOICE). -/
def gatherEdges (shift : Nat) (images : List LastFrame) (frames : List UsedFrame) (pts : List LPoint) (placed : List Pos)
    (m : AMap (List (List Nat))) : AMap (List (List Nat)) :=
  let edges := images.map (fun f => (f.stream, edgePixels shift f))
  (edgePoints (pts.map (fun p => (p.stream, p.channel, p.pos)))).foldl (fun m i =>
    let p := placed.getD i (0, 0, 0)
    match paintCamera frames p with
    | none => m
    | some (f, q) =>
      match edges.find? (fun e => e.1 == f.stream) with
      | none => m
      | some e => match nearestEdge shift e.2 q.u q.v with
        | none => m
        | some c => aput m f.stream (aget m f.stream [] ++ [[p.1, p.2.1, p.2.2, q.u, q.v, c.1, c.2]])) m

/-- The frames that a cycle uses, with a calibration entry (R475). -/
def usedFrames (s : State) (table : List Nat) (taken : List (Nat × Taken)) : List UsedFrame :=
  (taken.filter (fun e => decide (e.1 < 16) && calPresent table e.1)).flatMap (fun e => e.2.merged.map (fun x =>
    ⟨e.1, x.buf, calEntry table e.1, (streamOf s e.1).record⟩))

/-- Whether the refinement of calibration runs (R477). -/
def merRefines (r : List Nat) : Bool := !merReplay r && bit (r.getD 0 0) 1

/-- Whether a sample is dealt with at the close of cycle n: its instant has come, and in live mode it was published by
the close (R473, R474).
Log entry: 140 (DEDUCED). -/
def dueBy (r : List Nat) (n : Nat) (x : Sample) : Bool :=
  decide (x.instant ≤ n) && (merReplay r || decide (x.published ≤ merTv r n + fld r 32 4 * 1000))

/-- Everything that a close computes once its samples are fixed.
Log entry: 140 (DEDUCED). -/
def closeCycle (taken : List (Nat × Taken)) (s : State) : State :=
  let m := s.mer
  let r := m.record
  let n := m.next
  let tv := merTv r n
  let table := m.active.getD []
  let get := fun (k : Nat) => ((taken.find? (fun e => e.1 == k)).map (·.2)).getD ⟨[], 0, 0⟩
  let odo := readOdometry tv s
  let lidars := ((List.range 8).map (· + 16)).filter (fun k => calPresent table k)
  let batches := lidars.flatMap (fun k => (get k).merged)
  let read := batches.foldl (fun (acc : List LPoint × State) x =>
    let q := batchPoints acc.2 table tv x
    (acc.1 ++ q.1, q.2)) (([] : List LPoint), odo.2.2)
  let all := read.1
  let pts := all.take (fld r 48 4)
  let frames := usedFrames read.2 table taken
  let images := readFrames (frames.filter (fun f => bit (fld r 16 2) f.stream || merRefines r)) read.2
  let e := egoOf m (pts.map (placePoint table m.twist)) images.1
  let bad := egoImplausible r e.1.1 odo.1 odo.2.1
  let flags := e.1.2.2 + 2 * b2n bad
  let tw := (e.1.1.drop 6).take 6
  let placed := pts.map (placePoint table tw)
  let painted := paintAll frames (pts.zip placed) images.2
  let s1 := painted.2
  let merged := taken.flatMap (fun x => x.2.merged)
  let far := (taken.filter (fun x => decide (x.1 < 16))).any (fun x =>
    x.2.merged.any (fun y => decide (fld r 40 4 * 1000 < refDist tv y)))
  let missing := (List.range 24).any (fun k => bit (fld r 12 4) k && (get k).merged.isEmpty)
  let level := b2n (missing || e.1.2.1 == 2 || bad || far)
  let late := sumNat (taken.map (fun x => x.2.lateUsed + x.2.lateDropped))
  let mask := sumNat (taken.map (fun x => if x.2.merged.isEmpty then 0 else 2 ^ x.1))
    + (if odo.2.1 ∧ bit (odo.1.getD 16 0) 0 then 2 ^ 24 else 0) + (if odo.2.1 ∧ bit (odo.1.getD 16 0) 1 then 2 ^ 25 else 0)
  let mine := m.held.filter (dueBy r n)
  let count := fun (k : Nat) => countIf mine (fun x => x.stream == k)
  let ego := (e.1.1.take 14).flatMap (leBytes 4) ++ [e.1.2.1, flags] ++ leBytes 2 (satTo e.2 0xFFFF) ++ [0, 0, 0, 0]
  let depths := frames.map (fun f => (f.stream, depthImage r f placed))
  let c : Cycle := {
    n := n, tv := tv, level := level, source := e.1.2.1, truncated := decide (pts.length < all.length)
    oldest := satTo (merged.foldl (fun o x => max o (sampleAge tv x)) 0) 0xFFFFFFFF, mask := mask, late := late
    entries := pts.length, version := fld table 4 4
    points := painted.1, ego := ego
    status := (List.range 24).flatMap (fun k => statusEntry r k (get k))
    depth := (merCameras r).map (fun k => match depths.find? (fun d => d.1 == k) with
      | some d => d.2
      | none => let d := depthSize r (camSize s1 k); List.replicate (2 * d.1 * d.2) 0)
    seen := (merCameras r).map (fun k => (k, count k))
    releases := ((List.range 8).map (fun k => (k + 16, count (k + 16)))).filter (fun x => merUses r x.1)
    frames := frames, grid := (pts.zip placed).foldl (gridPoint r table) [] }
  let s2 := modMer (fun m => { m with
    next := n + 1, closeAt := now s1, held := m.held.filter (fun x => !dueBy r n x), fusion := some c
    twist := tw, reference := placed, lastFrames := images.1.map (fun f => { f with
      depth := ((depths.find? (fun d => d.1 == f.stream)).map (·.2)).getD [] })
    edges := if merRefines r then gatherEdges (r.getD 1 0) images.1 frames pts placed m.edges else m.edges
    level := level, enabled := m.enabled && !m.stopping }) s1
  let s3 := wr MER_CYCLE.cycle 0 n (incSat MER_LATE_COUNT.late 0 late
    (if level = 1 then incSat MER_FALLBACK_COUNT.fallback 0 1 s2 else s2))
  let s4 := if bad then event 0x0A35 0 m.owner 0 1 [] s3 else s3
  -- a teardown of the owner that a read brought about has stopped Meridian (R364, R516)
  if !s1.mer.enabled then s1
  else if level = 1 ∧ m.level = 0 then event 0x0A34 0 m.owner 0 1 (leBytes 4 n) s4 else s4

/-! ## The fusion output (R498 to R502, R513) -/

/-- The header of an output (R500). -/
def merHeader (s : State) (c : Cycle) (kind flags conflictFlags conflicts late entries : Nat) : List Nat :=
  leBytes 4 c.n ++ [kind, c.level, c.source, flags] ++ leBytes 8 c.tv ++ leBytes 4 c.oldest ++ leBytes 4 c.mask
    ++ leBytes 2 conflictFlags ++ leBytes 2 (satTo late 0xFFFF) ++ leBytes 2 (satTo conflicts 0xFFFF)
    ++ leBytes 2 (satTo entries 0xFFFF) ++ leBytes 4 c.version ++ leBytes 8 (dial s) ++ List.replicate 20 0

/-- Header flags that a cycle's outputs share (R500). -/
def merFlags (s : State) (c : Cycle) : Nat := b2n c.truncated + 8 * b2n (rdB s MER_STATUS.frozen)

/-- Write an output: everything after its first line, the check values of its blocks, then the header as one line (R501,
R545); the status of the first write that is refused.
Log entry: 147 (DEDUCED). -/
def writeOutput (a : Nat) (header body : List Nat) (s : State) : Nat × State :=
  headedWrite merPort s.mer.owner true a header body s

/-- Signal a Tie n times by 1. -/
def signalTimes (c tie : Nat) : Nat → State → State
  | 0, s => s
  | n + 1, s => signalTimes c tie n (signalFrom 1372 merPort c tie 1 s)

/-- Stop Meridian once it is to stop and every output has been written (R518).
Log entry: 144 (DEDUCED). -/
def settleStop (s : State) : State :=
  if s.mer.stopping && !s.mer.enabled && s.mer.fusion.isNone && s.mer.waiting.isEmpty && s.mer.tracking.isEmpty
  then wrB MER_STATUS.running 0 false (modMer (fun m => { m with stopping := false }) s) else s

/-- FUSION_OUTPUT_COMPLETE (R501): the output is written and fusion_tie signalled; then the frames seen and the batches
merged or dropped are signalled (R479, R480).
Log entry: 147 (DEDUCED). -/
def execFusionOutputComplete (s : State) : Host.Outcome State Fault Refusal :=
  .next (match s.mer.fusion with
    | none => s
    | some c =>
      if s.mode ≠ .run then s
      else
        let r := s.mer.record
        let body := padTo 4032 (c.ego ++ c.status) ++ padTo (up4k (48 * fld r 48 4)) c.points
          ++ c.depth.flatMap (fun d => padTo (up4k d.length) d)
        let head := merHeader s c 1 (merFlags s c) 0 0 c.late c.entries
        let w := writeOutput (fld r 96 6 + c.n % merSlots r * fld r 102 4) head body s
        let o := s.mer.owner
        let s1 := if w.1 ≠ 0 then event 0x0A21 0 o 0 1 [1] w.2 else signalFrom 1372 merPort o (merTie r 140) 1 w.2
        let s2 := c.seen.foldl (fun s e => signalTimes o (merTie r 156 + e.1) e.2 s) s1
        let s3 := c.releases.foldl (fun s e => signalTimes o (inRelease (streamOf s e.1).record) e.2 s) s2
        settleStop (modMer (fun m => { m with
          fusion := none
          waiting := if bit (r.getD 0 0) 2 then m.waiting ++ [{ c with doneAt := now s3 }] else m.waiting }) s3))

end Sys2Proof.Machine
end

