-- ==== Sys2Proof/Machine/Tracker.lean ====
section
/-! DEFINITION. Meridian's tracker (R503 to R510): detection sets, prediction, pairing, association, conflicts, births
and deletions, the freeze of refinement (R488), and the track output. -/

namespace Sys2Proof.Machine

open Reg

/-! ## Detections (R503, R512) -/

/-- A detection or measurement: its class, box and centre, variance, score, and which sources it holds. -/
structure Det where
  cls : Nat
  box : Nat × Nat
  x : Nat
  y : Nat
  var : Nat
  score : Nat
  a : Bool := false
  b : Bool := false
  deriving DecidableEq, Repr

/-- A detection from a kept entry (R204): its centre, and its extent along x as length and along y as width. -/
def detOf (var : Nat) (srcB : Bool) (e : List Nat) : Det :=
  let half := fun (p q : Nat) => divF (addF p q) 0x40000000
  { cls := fld e 20 2, box := (subF (fld e 12 4) (fld e 4 4), subF (fld e 8 4) (fld e 0 4)), x := half (fld e 0 4) (fld e 8 4)
    y := half (fld e 4 4) (fld e 12 4), var := var, score := fld e 16 4, a := !srcB, b := srcB }

/-- Whether a source, 0 for A and 1 for B, is enabled. -/
def srcOn (r : List Nat) (src : Nat) : Bool := bit (r.getD 0 0) (3 + src)

/-- The Tie that counts a source's sets. -/
def srcTie (r : List Nat) (src : Nat) : Nat := merTie r (148 + 4 * src)

/-- The detections of a source's set of cycle n, none where a check value does not match (R512) or the set cannot be
read.
Log entry: 139 (DEDUCED). -/
def readSet (src n : Nat) (s : State) : Option (List Det) × State :=
  let r := s.mer.record
  let c := s.mer.owner
  let a := fld r (112 + 6 * src) 6 + n % merSlots r * fld r 124 4
  let fail := fun (io : IoResult) (s : State) =>
    if io.status = 0x0A20 then event 0x0A20 0 c 0 1 [src] s else s
  let h := ioRead merPort c 0x0A20 (ctxSealed s c) a 64 s
  if h.1.status ≠ 0 then (none, fail h.1 h.2)
  else
    let k := min (fld h.1.data 0 2) ((fld r 124 4 - 64) / 32)
    let e := ioRead merPort c 0x0A20 (ctxSealed s c) (a + 64) (32 * k) h.2
    if e.1.status ≠ 0 then (none, fail e.1 e.2)
    else (some ((List.range k).map (fun i =>
      detOf (fld r (60 + 4 * src) 4) (src == 1) (slice e.1.data (32 * i) 32))), e.2)

/-- Whether a source's set of cycle n has arrived: its Tie stands at n + 1 or more (R503).
Log entry: 139 (DEDUCED). -/
def setHere (s : State) (src n : Nat) : Bool := decide (n + 1 ≤ tieValue s (srcTie s.mer.record src))

/-- What a tracker takes from one source: its detections, whether it is absent, the late sets counted, and the age of a
late set that it uses. -/
structure SetTaken where
  dets : List Det := []
  absent : Bool := false
  late : Nat := 0
  age : Nat := 0

/-- Take a source's set for cycle n (R474, R475, R503): its own where it has arrived, else the newest late one that is
within the merge window.
Log entry: 139 (DEDUCED). -/
def takeSet (src n : Nat) (s : State) : SetTaken × State :=
  let r := s.mer.record
  if !srcOn r src then ({}, s)
  else
    let here := setHere s src n
    let late := s.mer.detMissed.filter (fun e => e.1 == src && setHere s src e.2)
    let missed := s.mer.detMissed.filter (fun e => !(e.1 == src && late.contains e)) ++ (if here then [] else [(src, n)])
    let s1 := modMer (fun m => { m with detMissed := missed }) s
    if here then
      let q := readSet src n s1
      ({ dets := q.1.getD [], absent := q.1.isNone, late := late.length }, q.2)
    else
      let age := fun (m : Nat) => merTv r n - merTv r m
      match (late.filter (fun e => decide (age e.2 ≤ fld r 36 4 * 1000))).getLast? with
      | none => ({ absent := true, late := late.length }, s1)
      | some e =>
        let q := readSet src e.2 s1
        ({ dets := q.1.getD [], absent := true, late := late.length, age := if q.1.isSome then age e.2 else 0 }, q.2)

/-! ## Greedy pairs -/

/-- A candidate pair: its distance and two indices, the first of which comes first in the order. -/
abbrev Pair := Nat × Nat × Nat

/-- Ascending distance, then first, then second index. -/
def pairBefore (p q : Pair) : Bool :=
  ltF p.1 q.1 || (!ltF q.1 p.1 && (decide (p.2.1 < q.2.1) || (p.2.1 == q.2.1 && decide (p.2.2 < q.2.2))))

/-- Put a pair into an ordered list. -/
def insertPair (p : Pair) : List Pair → List Pair
  | [] => [p]
  | q :: r => if pairBefore p q then p :: q :: r else q :: insertPair p r

/-- Take pairs greedily: each index is used once (R505, R506). -/
def greedy : List Pair → List (Nat × Nat) → List (Nat × Nat)
  | [], acc => acc.reverse
  | p :: r, acc =>
    if acc.any (fun e => e.1 == p.2.1 || e.2 == p.2.2) then greedy r acc else greedy r (p.2 :: acc)

/-- All pairs of two lists within the gate, taken greedily. -/
def pairUp {α β : Type} (gate : Nat) (dist : α → β → Option Nat) (xs : List (Nat × α)) (ys : List (Nat × β)) :
    List (Nat × Nat) :=
  let all := xs.flatMap (fun x => ys.filterMap (fun y =>
    match dist x.2 y.2 with
    | some d => if leF d gate then some (d, x.1, y.1) else none
    | none => none))
  greedy (all.foldr insertPair []) []

/-- A list with its indices. -/
def indexed {α : Type} (l : List α) : List (Nat × α) := (List.range l.length).zip l

/-- Squared Mahalanobis distance of two detections of one class (R505). -/
def detDist (va vb : Nat) (p q : Det) : Option Nat :=
  if p.cls = q.cls then
    let dx := subF q.x p.x
    let dy := subF q.y p.y
    some (divF (addF (mulF dx dx) (mulF dy dy)) (addF va vb))
  else none

/-- The measurement list (R505): paired and unpaired B detections, then unpaired A detections. -/
def measurements (r : List Nat) (as_ bs : List Det) : List Det :=
  let pairs := pairUp (fld r 68 4) (fun (b a : Det) => detDist (fld r 60 4) (fld r 64 4) b a) (indexed bs) (indexed as_)
  let fromB := (indexed bs).map (fun e =>
    match pairs.find? (fun p => p.1 == e.1) with
    | some p =>
      let a := as_.getD p.2 e.2
      { e.2 with score := maxF e.2.score a.score, a := true }
    | none => e.2)
  fromB ++ ((indexed as_).filter (fun e => !pairs.any (fun p => p.2 == e.1))).map (·.2)

/-! ## The filter (R504, R506) -/

/-- Element (i, j) of a covariance. -/
def covAt (p : List Nat) (i j : Nat) : Nat := p.getD (5 * i + j) 0

/-- A 5 × 5 matrix from its elements. -/
def mat5 (f : Nat → Nat → Nat) : List Nat := (List.range 25).map (fun k => f (k / 5) (k % 5))

/-- Product of two 5 × 5 matrices, each sum in ascending order.
Log entry: 145 (DESIGN CHOICE). -/
def mulM (p q : List Nat) : List Nat :=
  mat5 (fun i j => (List.range 4).foldl (fun a k => addF a (mulF (covAt p i (k + 1)) (covAt q (k + 1) j)))
    (mulF (covAt p i 0) (covAt q 0 j)))

/-- An angle wrapped into (−π, π], rounded once (R504).
Log entry: 145 (DESIGN CHOICE). -/
def wrapPi (w : Nat) : Nat :=
  match f32Val w with
  | .fin x =>
    let pi : Frac := ⟨false, piFix, fixOne⟩
    let turns : Int := -((((pi.add x.opp).div (pi.add pi)).floor))
    if turns = 0 then w else rne (.fin (x.add ((fracOf turns 1).mul (pi.add pi)).opp))
  | _ => w

/-- The prediction of the state words and its Jacobian over dt (R504).
Log entry: 145 (DESIGN CHOICE). -/
def predictWords (dt : Nat) (x : List Nat) : List Nat × List Nat :=
  let psi := x.getD 2 0
  let v := x.getD 3 0
  let w := x.getD 4 0
  let one := 0x3F800000
  let a := addF psi (mulF w dt)
  let ident := fun (i j : Nat) => if i = j then one else 0
  if ltF (lit 1 10000) (absF w) then
    let q := divF v w
    let ds := subF (sinF a) (sinF psi)
    let dc := subF (cosF psi) (cosF a)
    let jac := fun (i j : Nat) => match i, j with
      | 0, 2 => mulF q (subF (cosF a) (cosF psi))
      | 0, 3 => divF ds w
      | 0, 4 => subF (mulF q (mulF (cosF a) dt)) (mulF (divF q w) ds)
      | 1, 2 => mulF q ds
      | 1, 3 => divF dc w
      | 1, 4 => subF (mulF q (mulF (sinF a) dt)) (mulF (divF q w) dc)
      | 2, 4 => dt
      | _, _ => ident i j
    ([addF (x.getD 0 0) (mulF q ds), addF (x.getD 1 0) (mulF q dc), wrapPi a, v, w], mat5 jac)
  else
    let jac := fun (i j : Nat) => match i, j with
      | 0, 2 => negF (mulF (mulF v (sinF psi)) dt)
      | 0, 3 => mulF (cosF psi) dt
      | 1, 2 => mulF (mulF v (cosF psi)) dt
      | 1, 3 => mulF (sinF psi) dt
      | 2, 4 => dt
      | _, _ => ident i j
    ([addF (x.getD 0 0) (mulF (mulF v (cosF psi)) dt), addF (x.getD 1 0) (mulF (mulF v (sinF psi)) dt), wrapPi a, v, w],
      mat5 jac)

/-- Predict a track to the cycle's time of validity and move it into the new vehicle frame (R504): `ego` is the cycle's
ego-motion record.
Log entry: 145 (DESIGN CHOICE). -/
def predictTrack (r ego : List Nat) (t : Track) : Track :=
  let dt := mulF (intF (fld r 28 4)) (lit 1 1000000)
  let p := predictWords dt t.x
  let tr := mat5 (fun i j => covAt p.2 j i)
  let m := mulM (mulM p.2 t.cov) tr
  let noisy := mat5 (fun i j =>
    if i = 3 ∧ j = 3 then addF (covAt m 3 3) (mulF (fld r 80 4) dt)
    else if i = 4 ∧ j = 4 then addF (covAt m 4 4) (mulF (fld r 84 4) dt)
    else covAt m i j)
  let c := cosF (fld ego 20 4)
  let sn := sinF (fld ego 20 4)
  let dx := subF (p.1.getD 0 0) (fld ego 0 4)
  let dy := subF (p.1.getD 1 0) (fld ego 4 4)
  let rot := fun (i j : Nat) => match i, j with | 0, 0 => c | 0, 1 => sn | 1, 0 => negF sn | _, _ => c
  let half := fun (i j : Nat) => addF (mulF (rot i 0) (covAt noisy 0 j)) (mulF (rot i 1) (covAt noisy 1 j))
  let cov := mat5 (fun i j =>
    if i < 2 ∧ j < 2 then addF (mulF (half i 0) (rot j 0)) (mulF (half i 1) (rot j 1)) else covAt noisy i j)
  { t with
    x := [addF (mulF c dx) (mulF sn dy), addF (mulF (negF sn) dx) (mulF c dy), subF (p.1.getD 2 0) (fld ego 20 4),
      p.1.getD 3 0, p.1.getD 4 0]
    cov := cov }

/-- S = P_xy + R of a track and a measurement: its four elements and its determinant (R506).
Log entry: 145 (DESIGN CHOICE). -/
def innovation (t : Track) (d : Det) : (Nat × Nat × Nat × Nat) × Nat :=
  let a := addF (covAt t.cov 0 0) d.var
  let b := covAt t.cov 0 1
  let c := covAt t.cov 1 0
  let e := addF (covAt t.cov 1 1) d.var
  ((a, b, c, e), subF (mulF a e) (mulF b c))

/-- S⁻¹ applied to a pair. -/
def applyInverse (q : (Nat × Nat × Nat × Nat) × Nat) (u v : Nat) : Nat × Nat :=
  let (a, b, c, e) := q.1
  (divF (subF (mulF e u) (mulF b v)) q.2, divF (subF (mulF a v) (mulF c u)) q.2)

/-- Squared Mahalanobis distance of a measurement from a track of its class (R506). -/
def trackDist (t : Track) (d : Det) : Option Nat :=
  if t.cls = d.cls then
    let dx := subF d.x (t.x.getD 0 0)
    let dy := subF d.y (t.x.getD 1 0)
    let y := applyInverse (innovation t d) dx dy
    some (addF (mulF dx y.1) (mulF dy y.2))
  else none

/-- Whether a measurement is conflicted: bit 0 and bit 1 of its flags (R507). -/
def conflictOf (r : List Nat) (c : Cycle) (d : Det) : Nat :=
  let free := match cellKey (cellOf (fracF d.x)) (cellOf (fracF d.y)) with
    | some k => finF d.x && finF d.y && cellFree (aget c.grid k (0, 0))
    | none => false
  let p := (d.x, d.y, addF (fld r 52 4) 0x3F800000)
  let seen := c.frames.any (fun f =>
    let q := project f.entry p
    inImage q (fld f.record 4 2) (fld f.record 6 2) && leF q.z (fld r 56 4))
  if d.a && !d.b then b2n free else if d.b && !d.a then 2 * b2n seen else 0

/-- Update a track by the Kalman filter on position (R506).
Log entry: 145 (DESIGN CHOICE). -/
def updateTrack (tv bad : Nat) (d : Det) (t : Track) : Track :=
  let q := innovation t d
  let dx := subF d.x (t.x.getD 0 0)
  let dy := subF d.y (t.x.getD 1 0)
  -- the gain's two columns: row i of P Hᵀ times S⁻¹
  let gain := fun (i : Nat) =>
    let (a, b, c, e) := q.1
    let u := covAt t.cov i 0
    let v := covAt t.cov i 1
    (divF (subF (mulF u e) (mulF v c)) q.2, divF (subF (mulF v a) (mulF u b)) q.2)
  { t with
    x := (List.range 5).map (fun i => addF (t.x.getD i 0) (addF (mulF (gain i).1 dx) (mulF (gain i).2 dy)))
    cov := mat5 (fun i j => subF (covAt t.cov i j)
      (addF (mulF (gain i).1 (covAt t.cov 0 j)) (mulF (gain i).2 (covAt t.cov 1 j))))
    size := [d.box.1, d.box.2], cls := d.cls, score := d.score, tSeen := tv, badHit := bad != 0
    flags := b2n d.a + 2 * b2n d.b + 4 * b2n (bad != 0), missed := 0 }

/-- A track that a measurement starts (R508). -/
def bornTrack (uses tv bad : Nat) (d : Det) : Track :=
  let piF := rne (.fin ((⟨false, piFix, fixOne⟩ : Frac).mul ⟨false, piFix, fixOne⟩))
  { uses := uses, cls := d.cls, state := 1, flags := b2n d.a + 2 * b2n d.b + 4 * b2n (bad != 0)
    x := [d.x, d.y, 0, 0, 0]
    cov := mat5 (fun i j => if i ≠ j then 0 else match i with
      | 0 => d.var | 1 => d.var | 2 => piF | 3 => lit 100 1 | _ => 0x3F800000)
    size := [d.box.1, d.box.2], hits := 1, missed := 0, age := 0, score := d.score, tSeen := tv, badHit := bad != 0 }

/-- Start a track from a measurement in the lowest free slot, or drop the birth: the tracks, the uses, and whether a
birth was dropped (R508).
Log entry: 146 (DEDUCED). -/
def birth (tv : Nat) (acc : AMap Track × AMap Nat × Bool) (m : Det × Nat) : AMap Track × AMap Nat × Bool :=
  let free := firstIdx 1024 (fun i => acc.1.all (fun e => e.1 != i))
  match free with
  | none => (acc.1, acc.2.1, true)
  | some i =>
    let uses := (aget acc.2.1 i 0 + 1) % 2 ^ 22
    (aput acc.1 i (bornTrack uses tv m.2 m.1), aput acc.2.1 i uses, acc.2.2)

/-- Confirm a tentative track (R508).
Log entry: 146 (DEDUCED). -/
def confirmTrack (r : List Nat) (t : Track) : Track :=
  if t.state = 1 ∧ r.getD 2 0 ≤ popcount t.hits (r.getD 3 0) ∧ !t.badHit then { t with state := 2 } else t

/-- Whether a track lives on (R508).
Log entry: 146 (DEDUCED). -/
def keepTrack (r : List Nat) (t : Track) : Bool :=
  !(t.state == 1 && decide (r.getD 3 0 ≤ t.age)) && decide (t.missed < r.getD 4 0)
    && !ltF (fld r 76 4) (addF (covAt t.cov 0 0) (covAt t.cov 1 1))

/-- The record of a track (R509).
Log entry: 146 (DEDUCED). -/
def trackRecord (slot : Nat) (t : Track) : List Nat :=
  leBytes 4 (slot + t.uses * 1024) ++ leBytes 2 t.cls ++ [t.state, t.flags] ++ t.x.flatMap (leBytes 4)
    ++ t.size.flatMap (leBytes 4) ++ leBytes 4 (covAt t.cov 0 0) ++ leBytes 4 (covAt t.cov 1 1)
    ++ leBytes 4 (covAt t.cov 3 3) ++ [t.hits % 256, t.missed % 256] ++ leBytes 2 (satTo t.age 0xFFFF)
    ++ leBytes 4 t.score ++ leBytes 8 t.tSeen

/-! ## The run of the tracker -/

/-- Set the frozen bit from the last 64 marks and the table's limit, with event 0x0A33 at a change (R488). -/
def refreshFreeze (s : State) : State :=
  match s.mer.active with
  | none => s
  | some t =>
    let now_ := decide (t.getD 28 0 ≤ countIf s.mer.conflicts (fun b => b))
    if rdB s MER_STATUS.frozen = now_ then s
    else event 0x0A33 0 s.mer.owner 0 1 [b2n now_] (wrB MER_STATUS.frozen 0 now_ s)

/-- Run the tracker of a cycle on the sets taken (R504 to R509).
Log entry: 146 (DEDUCED). -/
def runTracker (c : Cycle) (a b : SetTaken) (s : State) : State :=
  let m := s.mer
  let r := m.record
  let ms := (measurements r a.dets b.dets).map (fun d => (d, conflictOf r c d))
  let moved := m.tracks.map (fun e => (e.1, predictTrack r c.ego e.2))
  let pairs := pairUp (fld r 68 4) trackDist moved (indexed (ms.map (·.1)))
  let stepped := moved.map (fun e =>
    let t0 := { e.2 with age := e.2.age + 1, hits := e.2.hits * 2 % 256 }
    match pairs.find? (fun p => p.1 == e.1) with
    | some p => match ms[p.2]? with
      | some d =>
        let u := updateTrack c.tv d.2 d.1 t0
        (e.1, { u with hits := u.hits + 1 })
      | none => (e.1, t0)
    | none => (e.1, { t0 with missed := t0.missed + 1, flags := 8 }))
  let births := ((indexed ms).filter (fun e => !pairs.any (fun p => p.2 == e.1) && leF (fld r 72 4) e.2.1.score)).map (·.2)
  let born := births.foldl (birth c.tv) (stepped, m.slotUses, false)
  let live := (born.1.map (fun e => (e.1, confirmTrack r e.2))).filter (fun e => keepTrack r e.2)
  let conflicts := countIf ms (fun d => d.2 != 0)
  let flags := b2n (ms.any (fun d => d.2 == 1)) + 2 * b2n (ms.any (fun d => d.2 == 2))
  let out : TrackOut := {
    cycle := { c with oldest := satTo (max c.oldest (max a.age b.age)) 0xFFFFFFFF }
    absent := b2n a.absent + 2 * b2n b.absent, conflictFlags := flags
    conflicts := conflicts, late := c.late + a.late + b.late, entries := live.length
    records := live.flatMap (fun e => trackRecord e.1 e.2) }
  let s1 := modMer (fun m => { m with
    tracks := live, slotUses := born.2.1, births := born.2.2, tracking := m.tracking ++ [out]
    conflicts := (m.conflicts ++ [flags != 0]).drop (m.conflicts.length + 1 - 64) }) s
  let s2 := incSat MER_LATE_COUNT.late 0 (a.late + b.late) (incSat MER_CONFLICT_COUNT.conflicts 0 conflicts s1)
  refreshFreeze (if born.2.2 && !m.births then event 0x0A36 0 m.owner 0 1 [] s2 else s2)

/-- TRACKER_START (R503): the tracker of the oldest cycle that waits.
Log entry: 139 (DEDUCED). -/
def execTrackerStart (s : State) : Host.Outcome State Fault Refusal :=
  .next (match s.mer.waiting with
    | [] => s
    | c :: rest =>
      let r := s.mer.record
      let all := (List.range 2).all (fun k => !srcOn r k || setHere s k c.n)
      if s.mode ≠ .run ∨ (!all ∧ merReplay r) then s
      else
        let s1 := modMer (fun m => { m with waiting := rest })
          (if all then s else passTo (c.doneAt + fld r 44 4 * 1000) s)
        let a := takeSet 0 c.n s1
        let b := takeSet 1 c.n a.2
        runTracker c a.1 b.1 b.2)

/-- TRACK_OUTPUT_COMPLETE (R501, R509, R510): the output is written and track_tie signalled.
Log entry: 147 (DEDUCED). -/
def execTrackOutputComplete (s : State) : Host.Outcome State Fault Refusal :=
  .next (match s.mer.tracking with
    | [] => s
    | t :: rest =>
      if s.mode ≠ .run then s
      else
        let r := s.mer.record
        let o := s.mer.owner
        let head := merHeader s t.cycle 2 (merFlags s t.cycle + 2 * t.absent) t.conflictFlags t.conflicts t.late t.entries
        let w := writeOutput (fld r 106 6 + t.cycle.n % merSlots r * 69632) head t.records s
        let s1 := if w.1 ≠ 0 then event 0x0A21 0 o 0 1 [2] w.2 else signalFrom 1372 merPort o (merTie r 144) 1 w.2
        settleStop (modMer (fun m => { m with tracking := rest }) s1))

end Sys2Proof.Machine
end

