-- ==== Sys2Proof/Machine/Refine.lean ====
section
/-! DEFINITION. Meridian's close command with its refinement of calibration (R473, R485 to R488), the islands' checks of
proposals (R581 to R583), and adoption (R487). -/

namespace Sys2Proof.Machine

open Reg

/-! ## Allowances (R485, R582) -/

/-- A full allowance: one hour at a rate. -/
def fullAllow (rate : Nat) : Nat := rate * 3600000000000

/-- A camera's allowance now, filled at the table's rates.
Log entries: 46 (DEDUCED), 142 (DESIGN CHOICE). -/
def allowNow (table : List Nat) (m : AMap Allowance) (t k : Nat) : Nat × Nat :=
  let a := aget m k ⟨0, 0, t⟩
  (min (fullAllow (fld table 12 4)) (a.rot + fld table 12 4 * (t - a.at_)),
   min (fullAllow (fld table 16 4)) (a.trans + fld table 16 4 * (t - a.at_)))

/-- A camera's allowance after a debit. -/
def debit (table : List Nat) (t k rot trans : Nat) (m : AMap Allowance) : AMap Allowance :=
  let a := allowNow table m t k
  aput m k ⟨a.1 - rot, a.2 - trans, t⟩

/-- Every camera's allowance full (R485, R583).
Log entry: 46 (DEDUCED). -/
def fillAll (table : List Nat) (t : Nat) : AMap Allowance :=
  (List.range 16).map (fun k => (k, ⟨fullAllow (fld table 12 4), fullAllow (fld table 16 4), t⟩))

/-- A rotation of 10⁻⁹ ° and a distance in nm in the units of an allowance.
Log entry: 46 (DEDUCED). -/
def allowUnits (rot trans : Nat) : Nat × Nat := (rot * 3600000, trans * 360000000)

/-- The scaled delta's angle and translation in the units of an allowance (R485).
Log entry: 142 (DESIGN CHOICE). -/
def scaledDelta (allow delta : Nat × Nat) : Nat × Nat :=
  let (ar, at_) := allow
  let (r, t) := delta
  if r ≤ ar ∧ t ≤ at_ then (r, t)
  else if ar * t ≤ at_ * r then (ar, t * ar / r) else (r * at_ / t, at_)

/-! ## The solve (R485 to R487) -/

/-- Set the pending bit from the proposals under way. -/
def refreshPending (s : State) : State :=
  wrB MER_STATUS.pending 0 (s.mer.proposal.isSome || s.mer.install.isSome) s

/-- Solve for one camera over what it has gathered and propose the candidate (R485 to R487): the solve's transform stands
only where it keeps the limits of R485.
Log entry: 142 (DESIGN CHOICE). -/
def solveCamera (k : Nat) (s : State) : State :=
  match s.mer.active, s.mer.installed with
  | some t, some inst =>
    let corr := aget s.mer.edges k []
    if corr.length < 2000 ∨ s.mer.proposal.isSome ∨ s.mer.install.isSome then s
    else
      let sol := Config.calibSolve (calEntry t k) corr
      let room := allowNow t s.mer.allow (now s) k
      let d := scaledDelta room (allowUnits sol.1 sol.2)
      let drawn := setTransform t k (f32Words 16 (Config.calibTransform (calEntry t k) corr d))
      let fits := fun (u : List Nat) =>
        let m := allowUnits (rotAngle (calEntry t k) (calEntry u k)) (transDist (calEntry t k) (calEntry u k))
        entryGood (calEntry u k) k && decide (m.1 ≤ d.1) && decide (m.2 ≤ d.2)
      let cand := stampTable (if fits drawn then drawn else t) ((fld t 4 4 + 1) % 2 ^ 32) (dial s)
      if fld inst 20 4 * 1000000 < rotAngle (calEntry inst k) (calEntry cand k)
          ∨ fld inst 24 4 * 100000 < transDist (calEntry inst k) (calEntry cand k) then
        event 0x0A32 0 s.mer.owner 0 1 [k] s
      else
        let p : Proposal := { stream := some k, image := cand, debitRot := d.1, debitTrans := d.2,
                              deadline := now s + 20000000 }
        let words := (List.range 16).map (fun i => fld (calEntry cand k) (4 * i) 4)
        refreshPending (send .calibration ([k, d.1, d.2] ++ words ++ [fld cand 4 4, fld cand 60 4, room.1, room.2])
          (modMer (fun m => { m with proposal := some p }) s))
  | _, _ => s

/-- Solve at a close for each camera, every refine_cycles cycles, where refinement runs and is not frozen (R487, R488);
what the cameras gathered in that span is then spent.
Log entry: 142 (DESIGN CHOICE). -/
def refine (s : State) : State :=
  let r := s.mer.record
  if !merRefines r ∨ s.mer.next % max 1 (fld r 6 2) ≠ 0 then s
  else
    let s1 := if rdB s MER_STATUS.frozen then s
      else (merCameras r).foldl (fun s k => if calPresent (s.mer.active.getD []) k then solveCamera k s else s) s
    modMer (fun m => { m with edges := [] }) s1

/-- CYCLE_CLOSE (R473): the next cycle closes, fixes its samples, and computes its outputs; then refinement. -/
def execCycleClose (s : State) : Host.Outcome State Fault Refusal :=
  .next (
    if !s.mer.enabled ∨ rdB s MER_STATUS.disabled ∨ s.mode ≠ .run ∨ s.mer.fusion.isSome then s
    else match closeTime s with
      | none => s
      | some t =>
        if !t.mer.enabled then t else
        let n := t.mer.next
        let r := t.mer.record
        let due := t.mer.held.filter (dueBy r n)
        let taken := (merStreams r).map (fun k => (k, takeSamples (merTv r n) n (fld r 36 4 * 1000) k due))
        let s1 := closeCycle taken t
        -- a teardown of the owner on the way has stopped Meridian (R516)
        if s1.mer.fusion.isNone then s1 else refine s1)

/-! ## The islands' checks -/

/-- The reason for which an island refuses a refinement proposal, 0 when it approves (R581).
Log entry: 45 (DEDUCED). -/
def refuseReason (s : State) (i k : Nat) (cand : List Nat) : Nat :=
  let x := islandOf s i
  match x.active, x.installed with
  | some t, some inst =>
    let e := calEntry cand k
    let rot := rotAngle (calEntry t k) e
    let trans := transDist (calEntry t k) e
    let d := allowUnits rot trans
    let a := allowNow t x.allow (osc s) k
    let words := (List.range 16).map (fun j => fld e (4 * j) 4)
    let built := stampTable (setTransform t k words) (fld cand 4 4) (fld cand 36 8)
    if heldState s i ≠ 0 then 1
    else if fld cand 4 4 ≠ (fld t 4 4 + 1) % 2 ^ 32 then 2
    else if !entryGood e k then 3
    else if a.1 * 101 < d.1 * 100 ∨ a.2 * 101 < d.2 * 100 then 4
    else if fld inst 20 4 * 1000000 < rotAngle (calEntry inst k) e ∨ fld inst 24 4 * 100000 < transDist (calEntry inst k) e
      then 5
    else if fld built 60 4 ≠ fld cand 60 4 then 6 else 0
  | _, _ => if heldState s i ≠ 0 then 1 else 2

/-- Give a proposal an island's answer.
Log entry: 45 (DEDUCED). -/
def Proposal.answer (p : Proposal) (i : Nat) (ok : Bool) : Proposal :=
  if i = 5 then { p with matin := some ok } else { p with vesper := some ok }

/-- An island's answer, none before it has checked the proposal. -/
def Proposal.of (p : Proposal) (i : Nat) : Option Bool := if i = 5 then p.matin else p.vesper

/-- An island approves a proposal: it keeps the candidate until it learns that both islands approved, and tells the
other island (R582). -/
def approve (i : Nat) (c : CalPending) (other : Bool) (s : State) : State :=
  let s1 := modIsland i (fun x => { x with approved := some { c with peer := other } }) s
  send .approval [i] (modIsland (otherIsland i) (fun x => { x with
    approved := x.approved.map (fun p => if p.image = c.image then { p with peer := true } else p) }) s1)

/-- CALIBRATION_PROPOSAL (R581): an island checks the refinement proposal that stands. -/
def execCalibrationProposal (island : Nat) (s : State) : Host.Outcome State Fault Refusal :=
  .next (match s.mer.proposal with
    | none => s
    | some p =>
      if (island ≠ 5 ∧ island ≠ 6) ∨ !(islandOf s island).up ∨ (p.of island).isSome ∨ p.deadline < now s then s
      else
        let k := p.stream.getD 0
        let why := refuseReason s island k p.image
        let s1 := modMer (fun m => { m with proposal := some (p.answer island (why == 0)) }) s
        if why ≠ 0 then event 0x0C30 island 0xFF island 1 [why, k] s1
        else
          let t := (islandOf s island).active.getD []
          let d := allowUnits (rotAngle (calEntry t k) (calEntry p.image k)) (transDist (calEntry t k) (calEntry p.image k))
          approve island ⟨some k, p.image, d.1, d.2, false⟩ (p.of (otherIsland island) == some true) s1)

/-- The reason for which an island refuses an installation, 0 when it approves (R583).
Log entry: 45 (DEDUCED). -/
def installReason (s : State) (i : Nat) (img : List Nat) : Nat :=
  if 1 < heldState s i then 1
  else if !tableOk img then (if fld img 60 4 ≠ tableCrc img then 6 else 3)
  else if !(islandOf s i).notices.contains (sha384 img) then 7 else 0

/-- INSTALLATION_PROPOSAL (R583): an island checks the installation that stands. -/
def execInstallationProposal (island : Nat) (s : State) : Host.Outcome State Fault Refusal :=
  .next (match s.mer.install with
    | none => s
    | some p =>
      if (island ≠ 5 ∧ island ≠ 6) ∨ !(islandOf s island).up ∨ (p.of island).isSome ∨ p.deadline < now s then s
      else
        let why := installReason s island p.image
        let s1 := modMer (fun m => { m with install := some (p.answer island (why == 0)) }) s
        if why ≠ 0 then event 0x0C30 island 0xFF island 1 [why, 0xFF] s1
        else approve island ⟨none, p.image, 0, 0, false⟩ (p.of (otherIsland island) == some true) s1)

/-- PEER_APPROVAL (R582, R583): an island that learns that both approved debits its allowances and adopts its copy; until
1.1 s later it accepts heartbeats that show the old table.
Log entry: 143 (DEDUCED). -/
def execPeerApproval (island : Nat) (s : State) : Host.Outcome State Fault Refusal :=
  .next (
    let x := islandOf s island
    match x.approved with
    | some c =>
      if (island ≠ 5 ∧ island ≠ 6) ∨ !x.up ∨ !c.peer then s
      else
        let old := x.active.getD []
        let t := osc s
        modIsland island (fun x => { x with
          approved := none, active := some c.image
          installed := if c.stream.isNone then some c.image else x.installed
          allow := match c.stream with
            | some k => debit old t k c.debitRot c.debitTrans x.allow
            | none => fillAll c.image t
          grace := some (t + 1100000000, fld old 4 4, fld old 60 4) }) s
    | none => s)

/-! ## Adoption (R487) -/

/-- Discard a proposal, with event 0x0A31 and why.
Log entry: 143 (DEDUCED). -/
def discard (install : Bool) (why : Nat) (s : State) : State :=
  refreshPending (event 0x0A31 0 s.mer.owner 0 1 [why]
    (modMer (fun m => if install then { m with install := none } else { m with proposal := none }) s))

/-- Write the active table to table_out_addr (R487): 3,136 bytes, and zeros to the end of its 4 KiB, with the block's
check value (R545).
Log entry: 147 (DEDUCED). -/
def writeTable (t : List Nat) (s : State) : State :=
  if s.mer.record.isEmpty then s
  else (ioWrite merPort s.mer.owner true (fld s.mer.record 134 6) t s).2

/-- Adopt a candidate as the active table (R487, R489).
Log entry: 143 (DEDUCED). -/
def adopt (p : Proposal) (s : State) : State :=
  let t := p.image
  let n := now s
  let old := s.mer.active.getD []
  let s1 := modMer (fun m => match p.stream with
    | some k => { m with active := some t, proposal := none, allow := debit old n k p.debitRot p.debitTrans m.allow }
    | none => { m with active := some t, installed := some t, install := none, allow := fillAll t n }) s
  let s2 := wr MER_TABLE_VER.version 0 (fld t 4 4) (wr MER_TABLE_CRC.crc 0 (fld t 60 4)
    (incSat MER_ADOPT_COUNT.adopted 0 1 (writeTable t s1)))
  let s3 := event 0x0A30 0 s.mer.owner 0 0 (leBytes 4 (fld t 4 4) ++ leBytes 4 (fld t 60 4) ++ [p.stream.getD 0xFF]) s2
  let s4 := if p.stream.isNone && s3.mer.proposal.isSome then discard false 5 s3 else s3
  refreshFreeze (refreshPending s4)

/-- CALIBRATION_ANSWER (R487): both answers to a proposal have arrived; `install` selects the installation. -/
def execCalibrationAnswer (install : Bool) (s : State) : Host.Outcome State Fault Refusal :=
  .next (match (if install then s.mer.install else s.mer.proposal) with
    | none => s
    | some p =>
      match p.matin, p.vesper with
      | some a, some b =>
        if p.deadline < now s then s
        else if !a ∨ !b then discard install (b2n (!a) + 2 * b2n (!b)) s
        else if !install && rdB s MER_STATUS.frozen then discard false 5 s
        else adopt p s
      | _, _ => s)

/-- PROPOSAL_TIMEOUT (R487): an island has not answered within 20 ms. -/
def execProposalTimeout (install : Bool) (s : State) : Host.Outcome State Fault Refusal :=
  .next (match (if install then s.mer.install else s.mer.proposal) with
    | none => s
    | some p => if p.matin.isSome && p.vesper.isSome then s else discard install 4 (passTo p.deadline s))

/-! ## Heartbeat and fault -/

/-- The heartbeat at an island: its table and CRC must be those of the island's record (R563, R582).
Log entry: 143 (DEDUCED). -/
def heartbeatAt (version crc : Nat) (s : State) (i : Nat) : State :=
  let x := islandOf s i
  if !x.up ∨ x.lost.contains 0 then s
  else
    let t := x.active.getD []
    let fresh := decide (version = fld t 4 4) && decide (crc = fld t 60 4)
    let old := match x.grace with
      | some (d, v, c) => decide (osc s ≤ d) && v == version && c == crc
      | none => false
    let ahead := match x.approved with
      | some c => c.peer && decide (version = fld c.image 4 4) && decide (crc = fld c.image 60 4)
      | none => false
    let s1 := modIsland i (fun x => { x with
      heard := aset x.heard 64 (osc s) 0, grace := if fresh && !old then none else x.grace }) s
    if fresh || old || ahead then s1 else commandState i 2 0x1A 0 s1

/-- MERIDIAN_HEARTBEAT (R515): every 100 µs while Meridian runs. -/
def execMeridianHeartbeat (s : State) : Host.Outcome State Fault Refusal :=
  .next (if !rdB s MER_STATUS.running ∨ rdB s MER_STATUS.disabled ∨ s.mode ≠ .run ∨ dieSilent s 0 then s
    else
      let v := rd s MER_TABLE_VER.version
      let c := rd s MER_TABLE_CRC.crc
      [5, 6].foldl (heartbeatAt v c) (send .meridianHeartbeat [rd s MER_CYCLE.cycle, v, c] s))

/-- MERIDIAN_INTERNAL_FAULT (R514): the running cycle stops with 0x0A51 and Meridian is disabled. R514 states event 0x0A52
only; that the stop is written as event 0x0A51 too is the model's choice.
Log entry: 180 (DESIGN CHOICE). -/
def execMeridianInternalFault (s : State) : Host.Outcome State Fault Refusal :=
  .next (if !rdB s MER_STATUS.running ∨ rdB s MER_STATUS.disabled then s
    else
      let o := s.mer.owner
      let s1 := wrB MER_STATUS.disabled 0 true (haltMer true s)
      event 0x0A52 0 o 0 2 [] (event 0x0A51 0 o 0 1 [] s1))

end Sys2Proof.Machine
end

