-- ==== Sys2Proof/Machine/MerCommit.lean ====
section
/-! DEFINITION. The commits of Meridian: MER_COMMIT and MER_INSTALL (R477, R478, R489, R518). -/

namespace Sys2Proof.Machine

open Reg

/-- Whether the configuration record is malformed (R477), for a commit at the present Dial time.
Log entry: 144 (DEDUCED). -/
def merMalformed (s : State) (r : List Nat) : Bool :=
  let b := fun (i : Nat) => r.getD i 0
  let out := fun (at_ lo hi : Nat) => decide (fld r at_ 4 < lo) || decide (hi < fld r at_ 4)
  let pos := fun (at_ : Nat) => !f32Positive (fld r at_ 4)
  let em := fld r 8 4
  decide (32 ≤ b 0) || decide (3 < b 1) || b 2 == 0 || decide (8 < b 2) || decide (b 3 < b 2) || decide (8 < b 3)
    || b 4 == 0 || decide (b 5 < 2) || decide (16 < b 5) || decide (fld r 6 2 < 30) || decide (2 ^ 24 ≤ em)
    || decide (fld r 12 4 &&& em ≠ fld r 12 4) || decide (4 < popcount (fld r 16 2) 16)
    || decide (fld r 16 2 &&& em ≠ fld r 16 2) || !zeroAt r 18 2 || decide (fld r 20 8 < dial s + 1000000)
    || out 28 4000 1000000 || out 32 0 1000000 || out 36 0 2000000 || out 40 1 1000000 || out 44 1 1000000
    || out 48 1024 1048576 || pos 56 || pos 60 || pos 64 || pos 68
    || fld r 96 6 % 4096 != 0 || fld r 102 4 % 4096 != 0 || decide (fld r 102 4 < fusionLayout s r)
    || fld r 106 6 % 4096 != 0 || (List.range 2).any (fun k =>
      let a := fld r (112 + 6 * k) 6
      a % 64 != 0 || (!srcOn r k && a != 0))
    || fld r 124 4 % 64 != 0 || decide (fld r 124 4 < 32832) || fld r 128 6 % 64 != 0 || fld r 134 6 % 4096 != 0
    || [140, 144, 148, 152, 156].any (fun a => !tieField r a) || !zeroAt r 160 32

/-- Whether n bytes at a lie in pages that a context owns, or in a shared region that grants port 66 the access. -/
def merRange (s : State) (c a n : Nat) (write : Bool) : Bool :=
  (checkPoints a n).all (fun x => decide (x < hbmEnd) && ((decide (c < 64) && ownerOf s x == c) ||
    (decide (0x41 ≤ ownerOf s x) && decide (ownerOf s x ≤ 0x4F) && portShares s (ownerOf s x - 0x40) merPort write)))

/-- Whether every ring, slot, line and area may be reached (R518, step 5). -/
def merReachable (s : State) (c : Nat) (r : List Nat) : Bool :=
  let n := merSlots r
  merRange s c (fld r 96 6) (n * fld r 102 4) true && merRange s c (fld r 106 6) (n * 69632) true
    && (List.range 2).all (fun k => !srcOn r k || merRange s c (fld r (112 + 6 * k) 6) (n * fld r 124 4) false)
    && (fld r 128 6 == 0 || merRange s c (fld r 128 6) 64 false) && merRange s c (fld r 134 6) 4096 true

/-- Whether every Tie lies in the owner's ranges (R518, step 6).
Log entry: 144 (DEDUCED). -/
def merTies (s : State) (c : Nat) (r : List Nat) : Bool :=
  [140, 144, 148, 152].all (fun a => tieAllowed s c (fld r a 4))
    && (merCameras r).all (fun k => tieAllowed s c (fld r 156 4 + k))

/-- Whether every enabled stream can be used (R478). -/
def merStreamsOk (s : State) (c : Nat) (r : List Nat) : Bool :=
  (merStreams r).all (fun k =>
    let x := streamOf s k
    x.enabled && x.owner == c && (decide (16 ≤ k) || (camElem x.record == 1 && decide (x.record.getD 3 0 ≤ 4))))

/-- The staged fields of Meridian. -/
def merFields : List (Field × Nat) :=
  [(MER_CFG_ADDR.addr, 0), (MER_TABLE_ADDR.addr, 0), (MER_CTRL.enable, 0), (MER_CTRL.install, 0), (MER_CTRL.owner, 0),
   (MER_POLICY.policy_handle, 0)]

/-- Write the result of a commit (R517, R769).
Log entry: 18 (DEDUCED). -/
def merDone (st off : Nat) (s : State) : State := commitDone 0 (st, off) (wr MER_STATUS.status 0 st s)

/-- Whether a calibration policy's handle covers an image (R518, step 4; R682). -/
def policyCovers (s : State) (h : Nat) (img : List Nat) : Bool :=
  match policyAt s h with
  | some p => p.kind == 2 && (List.range (p.body.getD 0 0)).any (fun i => slice p.body (16 + 48 * i) 48 == sha384 img)
  | none => false

/-- Keystone's notice to both islands (R583).
Log entry: 144 (DEDUCED). -/
def notice (img : List Nat) (s : State) : State :=
  [5, 6].foldl (fun s i => modIsland i (fun x => { x with notices := x.notices ++ [sha384 img] }) s) s

/-- Start Meridian on a record (R471, R518).
Log entry: 144 (DEDUCED). -/
def startMer (owner : Nat) (r : List Nat) (s0 : State) : State :=
  let s := [5, 6].foldl (fun s i => if watching s i then heardAt i 64 s else s) s0
  let seqs := (merStreams r).filterMap (fun k =>
    let n := (streamOf s k).pubSeq
    if n = 0 then none else some (k, n))
  wrB MER_STATUS.running 0 true (modMer (fun m => { m with
    enabled := true, stopping := false, record := r, owner := owner, next := 0, closeAt := now s, readSeq := seqs
    held := [], fusion := none, waiting := [], tracking := [], twist := [0, 0, 0, 0, 0, 0], reference := []
    lastFrames := [], edges := []
    level := 0, births := false, tracks := [], detMissed := [] }) s)

/-- Propose an image to the islands (R487, R489).
Log entry: 143 (DEDUCED). -/
def proposeInstall (img : List Nat) (s : State) : State :=
  let p : Proposal := { stream := none, image := img, debitRot := 0, debitTrans := 0, deadline := now s + 20000000 }
  let s1 := if s.mer.install.isSome then discard true 5 s else s
  refreshPending (send .calibration [0xFF, fld img 4 4, fld img 60 4] (modMer (fun m => { m with install := some p }) s1))

/-- A commit of Meridian, with `install` as its MER_CTRL holds it (R518).
Log entries: 18 (DEDUCED), 144 (DEDUCED). -/
def merCommit (install : Bool) (value : Nat) (s : State) : State :=
  if value % 2 = 0 ∨ (stg s MER_CTRL.install = 1) ≠ install then s
  else
    let s0 := commitAt 0 0xF0003C s
    let enable := stg s MER_CTRL.enable == 1
    let owner := stg s MER_CTRL.owner
    let running := rdB s MER_STATUS.running
    let same := sameStaged s [(MER_CFG_ADDR.addr, 0), (MER_CTRL.owner, 0)]
    let accept := fun (s : State) => merDone 0 0 (acceptStaged merFields s)
    if dieSilent s 0 then merDone 0x0C40 0 s0
    else if stg s MER_CFG_ADDR.addr % 64 ≠ 0 then merDone 0x0003 0xF00000 s0
    else if stg s MER_TABLE_ADDR.addr % 64 ≠ 0 then merDone 0x0003 0xF00008 s0
    else
      let start := enable && !running
      let only := !running || (same && (enable == install))
      let c := if start then readMem merPort owner (stg s MER_CFG_ADDR.addr) 192 [] s0 else (0, [], s0)
      let t := if install ∧ c.1 = 0 then readMem merPort owner (stg s MER_TABLE_ADDR.addr) 3136 [] c.2.2
        else (0, [], c.2.2)
      if c.1 ≠ 0 then merDone 0x0007 0 c.2.2
      else if t.1 ≠ 0 then merDone 0x0007 0 t.2.2
      else if !only then merDone 0x0A01 0 t.2.2
      else if start && merMalformed s c.2.1 then merDone 0x0A02 0 t.2.2
      else if install && !tableOk t.2.1 then merDone 0x0A03 0 t.2.2
      else if install && !policyCovers s (stg s MER_POLICY.policy_handle) t.2.1 then merDone 0x0A04 0 t.2.2
      else
        let s1 := if install then notice t.2.1 t.2.2 else t.2.2
        if start && !merReachable s owner c.2.1 then merDone 0x0A05 0 s1
        else if start && !merTies s owner c.2.1 then merDone 0x0A06 0 s1
        else if start && !merStreamsOk s owner c.2.1 then merDone 0x0A07 0 s1
        else if start && !install && s.mer.active.isNone then merDone 0x0A08 0 s1
        else
          let h := stg s MER_POLICY.policy_handle
          let s2 := if install then record 0x0012
              { role := 1, slot := ((policyAt s h).map (·.keySlot)).getD 0xFF, detail := h, subject := sha384 t.2.1 } s1
            else s1
          let s3 := if start then startMer owner c.2.1 (accept s2) else accept s2
          let s4 := if install then proposeInstall t.2.1 s3 else s3
          if running && !enable then modMer (fun m => { m with stopping := true }) s4 else s4

/-- MER_COMMIT (R518): a commit with install clear. -/
def execMerCommit (value : Nat) (s : State) : Host.Outcome State Fault Refusal := .next (merCommit false value s)

/-- MER_INSTALL (R489): a commit with install set. -/
def execMerInstall (value : Nat) (s : State) : Host.Outcome State Fault Refusal := .next (merCommit true value s)

end Sys2Proof.Machine
end

