-- ==== Sys2Proof/Machine/Ouvur.lean ====
section
/-! DEFINITION. Ouvur's ports and link layer (R603 to R609, R697), heartbeats and Dial time (R610, R611), and the
membership protocol (R612 to R625, R638). -/

namespace Sys2Proof

/-! ## Packet headers (R604) -/

/-- Kind of a packet. -/
def OvHead.kind (h : OvHead) : Nat := h.raw.getD 0 0
/-- Flags of a packet. -/
def OvHead.flags (h : OvHead) : Nat := h.raw.getD 1 0
/-- Sending package. -/
def OvHead.src (h : OvHead) : Nat := Machine.fld h.raw 2 2
/-- Destination package, 0xFFFF where it is flooded. -/
def OvHead.dst (h : OvHead) : Nat := Machine.fld h.raw 4 2
/-- The sender's epoch. -/
def OvHead.epoch (h : OvHead) : Nat := Machine.fld h.raw 6 4
/-- CRC-32C of the sender's roster. -/
def OvHead.roster (h : OvHead) : Nat := Machine.fld h.raw 10 4
/-- Byte i of kind_data. -/
def OvHead.data (h : OvHead) (i n : Nat) : Nat := Machine.fld h.raw (16 + i) n
/-- Link sequence number. -/
def OvHead.seq (h : OvHead) : Nat := Machine.fld h.raw 24 4
/-- Whether the header's CRC, and on a data packet the tag, are right (R605). -/
def OvHead.ok (h : OvHead) : Bool := Machine.fld h.raw 28 4 == Machine.crc32c (h.raw.take 28) && h.tagOk

end Sys2Proof

namespace Sys2Proof.Machine

open Reg

/-! ## The roster (R607) -/

/-- Change Ouvur's state. -/
def modOuv (f : OuvurState → OuvurState) (s : State) : State := { s with ouvur := f s.ouvur }

/-- Entries of a roster. -/
def rosterCount (r : List Nat) : Nat := fld r 0 2

/-- Entry k of a roster. -/
def rosterEntry (r : List Nat) (k : Nat) : List Nat := slice r (64 + 32 * k) 32

/-- The entries of a roster. -/
def rosterEntries (r : List Nat) : List (List Nat) := (List.range (rosterCount r)).map (rosterEntry r)

/-- Package ID of an entry. -/
def entId (e : List Nat) : Nat := fld e 0 2

/-- The neighbour that an entry expects on port p, 0xFFFF for none. -/
def entPort (e : List Nat) (p : Nat) : Nat := fld e (2 + 2 * p) 2

/-- Whether an entry is marked required. -/
def entRequired (e : List Nat) : Bool := bit (e.getD 10 0) 0

/-- Identity bytes of an entry. -/
def entIdentity (e : List Nat) : List Nat := slice e 16 8

/-- The neighbour of entry k of a W × H torus on port p (R603, R607). -/
def torusPort (w h k p : Nat) : Nat :=
  let x := k % w
  let y := k / w
  match p with
  | 0 => y * w + (x + 1) % w
  | 1 => y * w + (x + w - 1) % w
  | 2 => (y + 1) % h * w + x
  | _ => (y + h - 1) % h * w + x

/-- Whether a roster is well formed (R607). -/
def rosterOk (r : List Nat) : Bool :=
  let n := rosterCount r
  let w := r.getD 2 0
  let h := r.getD 3 0
  let es := rosterEntries r
  let ids := es.map entId
  decide (2 ≤ n) && decide (n ≤ 4096) && zeroAt r 4 60 && ((w == 0 && h == 0) || (decide (1 ≤ w) && decide (w ≤ 64)
    && decide (1 ≤ h) && decide (h ≤ 64) && w * h == n)) && decide ids.Nodup
    && es.all (fun e => decide (entId e < 4096) && decide (e.getD 10 0 < 2) && zeroAt e 11 5 && zeroAt e 24 8
      && [0, 1, 2, 3].all (fun p => entPort e p == 0xFFFF || ids.contains (entPort e p)))
    && (w == 0 || (List.range n).all (fun k => let e := rosterEntry r k
      entId e == k && [0, 1, 2, 3].all (fun p => entPort e p == torusPort w h k p)))

/-- First 8 bytes of the SHA-384 digest of this package's identity key (R607). -/
def ownIdentity : List Nat := (sha384 identityKey).take 8

/-- The entry of a package ID in the roster in force. -/
def entryOf (s : State) (id : Nat) : Option (List Nat) := (rosterEntries s.ouvur.roster).find? (fun e => entId e == id)

/-- This package's ID (R608). -/
def ownId (s : State) : Nat := rd s OVR_STATUS.pkg_id

/-- The neighbour that the roster expects on a port of this package. -/
def expected (s : State) (p : Nat) : Nat := ((entryOf s (ownId s)).map (fun e => entPort e p)).getD 0xFFFF

/-- The bitmap of a list of package IDs. -/
def idMap (l : List Nat) : Nat := l.foldl (fun m i => setBit m i true) 0

/-- CRC-32C of the roster in force. -/
def rosterCrc (s : State) : Nat := crc32c (s.ouvur.roster.take (64 + 32 * rosterCount s.ouvur.roster))

/-- The packages that count as members of the present epoch: before the first epoch, those of the roster.
Log entry: 155 (DEDUCED). -/
def baseMembers (s : State) : Nat :=
  if rd s OVR_EPOCH.epoch = 0 then idMap ((rosterEntries s.ouvur.roster).map entId) else s.ouvur.members

/-- The members of a bitmap, ascending. -/
def idsOf (m : Nat) : List Nat := (List.range 4096).filter (bit m)

/-- Ouvur's state code (R639). -/
def ovState (s : State) : Nat := rd s OVR_STATUS.state

/-- Whether the package takes part in the agreement: joining or member. -/
def ovActive (s : State) : Bool := ovState s == 1 || ovState s == 2

/-! ## Ports and packets -/

/-- The state of Ouvur port p. -/
def ovPort (s : State) (p : Nat) : OvPort := aget s.ouvur.ports p {}

/-- Change Ouvur port p. -/
def modPort (p : Nat) (f : OvPort → OvPort) (s : State) : State :=
  modOuv (fun o => { o with ports := aset o.ports p (f (aget o.ports p {})) {} }) s

/-- The state code of port p. -/
def portCode (s : State) (p : Nat) : Nat := rd s OVR_PORT.state (8 * p)

/-- Change the state code of port p, with event 0x0D34 (R606).
Log entry: 153 (DEDUCED). -/
def setPort (p v : Nat) (s : State) : State :=
  if portCode s p = v then s
  else event 0x0D34 0 0xFF p (if v < 2 then 1 else 0) [v] (wr OVR_PORT.state (8 * p) v s)

/-- Whether port p is up; a foreign port is up for heartbeats only (R609). -/
def ovPortUp (s : State) (p : Nat) : Bool := portCode s p == 2 || portCode s p == 3

/-- The 32 bytes of a packet's header (R604), for a payload of n bytes and a link sequence number.
Log entry: 152 (DESIGN CHOICE). -/
def ovHeader (s : State) (q : OvPacket) (n seq : Nat) : List Nat :=
  let h := [q.code, q.flags] ++ leBytes 2 q.src ++ leBytes 2 q.dst ++ leBytes 4 (rd s OVR_EPOCH.epoch)
    ++ leBytes 4 (rosterCrc s) ++ leBytes 2 n ++ padTo 8 q.kindData ++ leBytes 4 seq
  h ++ leBytes 4 (crc32c h)

/-- What follows a header: a control packet's payload, or a data packet's contents under the link's key with their tag of
16 bytes (R604, R697). -/
def ovBody (key : Nat) (q : OvPacket) (head : List Nat) : List Nat :=
  if q.code = 0x10 then
    (List.range (q.payload.length + 16)).map (fun i => (Config.linkByte key head (q.extra ++ q.payload) i).toNat)
  else q.payload

/-- Send a packet on a port: its header and what follows, its place in the replay buffer of 64, and the packet count
(R604, R605, R697).
Log entries: 152 (DESIGN CHOICE), 153 (DEDUCED). -/
def ovSend (p : Nat) (kind : MsgKind) (q : OvPacket) (s : State) : State :=
  let x := ovPort s p
  let head := ovHeader s q q.payload.length x.txSeq
  let d := p :: head ++ ovBody x.keyGen q head
  send kind d (modPort p (fun x => { x with
    txSeq := (x.txSeq + 1) % 2 ^ 32, packets := x.packets + 1
    replay := (x.replay ++ [(⟨x.txSeq, d⟩ : OvSent)]).drop (x.replay.length - 63) }) s)

/-- A control packet of this package: its kind, kind_data and payload. -/
def ctlPacket (s : State) (code : Nat) (kindData payload : List Nat) : OvPacket :=
  { code := code, src := ownId s, kindData := kindData, payload := payload }

/-- A packet that names an epoch, a coordinator and a bitmap of 4,096 bits: proposal, acknowledgement or commit (R614,
R616). -/
def mapPacket (s : State) (code epoch coord map : Nat) : OvPacket :=
  ctlPacket s code (leBytes 4 epoch ++ leBytes 2 coord) (leBytes 512 map)

/-- Send a control packet on every port that is up and not foreign, other than `skip` (R612). -/
def ovFlood (kind : MsgKind) (q : OvPacket) (skip : Option Nat) (s : State) : State :=
  [0, 1, 2, 3].foldl (fun s p => if portCode s p = 2 ∧ skip ≠ some p then ovSend p kind q s else s) s

/-- Take a received packet at a port: one whose CRC or tag fails is discarded and asked for again; one that is not the
next of its link waits for the retransmission (R605). `k` acts on a packet that is taken.
Log entry: 153 (DEDUCED). -/
def ovTake (p : Nat) (h : OvHead) (k : State → State) (s : State) : State :=
  if 4 ≤ p ∨ !ovPortUp s p then s
  else if !h.ok then (if ovState s = 4 then s else send .ouvurResend [p, (ovPort s p).rxSeq] s)
  else if h.seq ≠ (ovPort s p).rxSeq then s
  else k (modPort p (fun x => { x with rxSeq := (x.rxSeq + 1) % 2 ^ 32 }) s)

/-- Take a control packet other than a heartbeat: a foreign port and a package in a drill drop it (R609, R638).
Log entry: 5 (DESIGN CHOICE). -/
def ovControl (p : Nat) (h : OvHead) (k : State → State) (s : State) : State :=
  ovTake p h (fun s => if portCode s p ≠ 2 ∨ ovState s = 4 ∨ ovState s = 0 then s else k s) s

/-- OUVUR_RETRANSMIT_REQUEST (R605): the packets from a sequence number on are sent again from the replay buffer. -/
def execOuvurRetransmitRequest (port seq : Nat) (s : State) : Host.Outcome State Fault Refusal :=
  .next (if 4 ≤ port ∨ !ovPortUp s port ∨ ovState s = 4 then s
    else ((ovPort s port).replay.dropWhile (fun x => x.seq != seq)).foldl (fun s x => send .ouvurReplay x.data s) s)

/-- OUVUR_LINK_DOWN (R606): a link whose correction layer fails goes down; it retrains after 100 ms. -/
def execOuvurLinkDown (port : Nat) (s : State) : Host.Outcome State Fault Refusal :=
  .next (if 4 ≤ port ∨ !ovPortUp s port then s
    else setPort port 0 (modPort port (fun x => { x with retrainAt := now s + 100000000, validSince := none }) s))

/-- Agree link keys on a port: the neighbour's identity must be the one that the roster expects there (R697). A failed
agreement leaves the port down.
Log entry: 153 (DEDUCED). -/
def agreeKeys (p : Nat) (works : Bool) (identity : List Nat) (s : State) : State :=
  let want := (entryOf s (expected s p)).map entIdentity
  if works ∧ want = some identity then
    setPort p 2 (modPort p (fun x => { x with
      been := true, keyAt := now s, packets := 0, keyGen := x.keyGen + 1 }) s)
  else setPort p 0 (modPort p (fun x => { x with retrainAt := now s + 100000000, validSince := none }) s)

/-- OUVUR_LINK_RETRAIN (R606, R697): a port that is down or in training trains: whether the lane trained and both
signatures verified, and the neighbour's identity bytes.
Log entry: 153 (DEDUCED). -/
def execOuvurLinkRetrain (port : Nat) (works : Bool) (identity : List Nat) (s : State) : Host.Outcome State Fault Refusal :=
  .next (if 4 ≤ port ∨ ovPortUp s port ∨ com s OVR_CTRL.enable = 0 then s
    else
      let s1 := passTo (ovPort s port).retrainAt s
      agreeKeys port works identity (modPort port (fun x => { x with
        rxSeq := 0, txSeq := 0, replay := [], miss := 0, missAt := now s1 }) s1))

/-- LINK_KEY_RENEWAL (R697): after an hour, or after 2^32 packets.
Log entry: 153 (DEDUCED). -/
def execLinkKeyRenewal (port : Nat) (works : Bool) (identity : List Nat) (s : State) : Host.Outcome State Fault Refusal :=
  .next (if 4 ≤ port ∨ !ovPortUp s port then s
    else
      let x := ovPort s port
      let s1 := if x.packets < 2 ^ 32 then passTo (x.keyAt + 3600000000000) s else s
      let foreign := portCode s1 port
      let s2 := agreeKeys port works identity s1
      if foreign = 3 ∧ portCode s2 port = 2 then wr OVR_PORT.state (8 * port) 3 s2 else s2)

/-! ## Suspicions (R611 to R614) -/

/-- The ports that face a package. -/
def facing (s : State) (y : Nat) : List Nat := [0, 1, 2, 3].filter (fun p => expected s p == y && y != 0xFFFF)

/-- Whether this package suspects a neighbour (R611): 5 misses in a row on every port that faces it.
Log entry: 154 (DEDUCED). -/
def suspects (s : State) (y : Nat) : Bool :=
  !(facing s y).isEmpty && (facing s y).all (fun p => decide (5 ≤ (ovPort s p).miss))

/-- The packages that the reports held name. -/
def suspected (s : State) : List Nat := (s.ouvur.reports.map (·.suspect)).eraseDups

/-- How many packages of the roster neighbour one. -/
def neighboursOf (s : State) (y : Nat) : List Nat :=
  match entryOf s y with
  | some e => (([0, 1, 2, 3].map (entPort e)).filter (· != 0xFFFF)).eraseDups
  | none => []

/-- Whether the reports held confirm a suspicion (R613). -/
def confirmed (s : State) (y : Nat) : Bool :=
  let rs := ((s.ouvur.reports.filter (fun r => r.suspect == y)).map (·.reporter)).eraseDups
  let good := rs.filter (fun r => bit (baseMembers s) r && !(suspected s).contains r)
  bit (baseMembers s) y && (decide (2 ≤ good.length) || ((neighboursOf s y).length == 1 && !rs.isEmpty))

/-- The members confirmed failed. -/
def failed (s : State) : List Nat := (suspected s).filter (confirmed s)

/-- The coordinator (R614): the lowest member neither suspected nor confirmed failed. -/
def coordinatorOf (s : State) : Option Nat := (idsOf (baseMembers s)).find? (fun i => !(suspected s).contains i)

/-- Whether something calls for a proposal that no proposal acknowledged covers: a confirmed failure, a first epoch, or
a rejoin request (R614, R619).
Log entry: 155 (DEDUCED). -/
def needProposal (s : State) : Bool :=
  let joins := (idsOf s.ouvur.rejoins).filter (fun i => !bit (baseMembers s) i)
  let covered := match s.ouvur.agree with
    | some a => (failed s).all (fun i => !bit a.members i) && !(suspected s).contains a.coord && joins.all (bit a.members)
    | none => false
  (!(failed s).isEmpty || (ovState s == 1 && s.ouvur.heardAny) || !joins.isEmpty) && !covered

/-- Work out again what the reports held imply: the coordinator, the settle window of 250 µs, and since when a
confirmed suspicion stands unresolved (R614, R619).
Log entry: 155 (DEDUCED). -/
def ovEval (s : State) : State :=
  if !ovActive s then s
  else
    let coord := decide (coordinatorOf s = some (ownId s))
    let s1 := wrB OVR_STATUS.coordinator 0 coord s
    let conf := if (failed s).isEmpty then none else some (s.ouvur.confirmedAt.getD (now s))
    let settle := if coord && needProposal s then some (s.ouvur.settle.getD (now s + 250000)) else none
    modOuv (fun o => { o with confirmedAt := conf, settle := settle }) s1

/-- Hold and forward a report once (R612). -/
def takeReport (r : OvReport) (from_ : Option Nat) (s : State) : State :=
  if s.ouvur.seen.contains r then s
  else
    let s1 := ovFlood .ouvurSuspicion (ctlPacket s 2 (leBytes 2 r.suspect ++ leBytes 2 r.reporter ++ leBytes 4 r.epoch) []) from_
      (modOuv (fun o => { o with seen := o.seen ++ [r] }) s)
    if r.epoch = rd s OVR_EPOCH.epoch then ovEval (modOuv (fun o => { o with reports := o.reports ++ [r] }) s1) else s1

/-- The suspect bit of the ports that face a package. -/
def showSuspect (y : Nat) (s : State) : State :=
  (facing s y).foldl (fun s p => wrB OVR_PORT.suspect (8 * p) (suspects s y) s) s

/-- HEARTBEAT_MISS_INTERVAL (R611): a 20 µs interval of a port ends without a valid heartbeat.
Log entry: 154 (DEDUCED). -/
def execHeartbeatMissInterval (port : Nat) (s : State) : Host.Outcome State Fault Refusal :=
  .next (if 4 ≤ port ∨ com s OVR_CTRL.enable = 0 ∨ !(ovPortUp s port || (ovPort s port).been) then s
    else
      let s1 := passTo ((ovPort s port).missAt + 20000) s
      let s2 := incSat OVR_MISS.misses (8 * port) 1 (modPort port (fun x => { x with
        miss := satTo (x.miss + 1) 5, missAt := now s1, validSince := none }) s1)
      let y := expected s2 port
      let s3 := showSuspect y s2
      if suspects s3 y ∧ ovActive s3 ∧ bit (baseMembers s3) y then takeReport ⟨y, ownId s3, rd s3 OVR_EPOCH.epoch⟩ none s3
      else s3)

/-- SUSPICION_REPORT (R612, R613). -/
def execSuspicionReport (port : Nat) (head : OvHead) (suspect reporter epoch : Nat) (s : State) :
    Host.Outcome State Fault Refusal :=
  .next (ovControl port head (fun s => if ovActive s then takeReport ⟨suspect, reporter, epoch⟩ (some port) s else s) s)

/-! ## Ending transfers, exclusion and the epoch record -/

/-- End the records at work of all queues that `p` picks, with a status. -/
def endTransfers (st : Nat) (p : Nat → OvRun → Bool) (s : State) : State :=
  (List.range 64).foldl (fun s c => match (ovQueue s c).run with
    | some r => if p c r then endTransfer c st s else s
    | none => s) s

/-- The islands note the membership condition (R563 cause 0x20, R625). -/
def membershipLost (s : State) : State :=
  [5, 6].foldl (fun s i => if watching s i then commandState i 1 0x20 0 s else s) s

/-- Whether this package's own entry is marked required. -/
def ownRequired (s : State) : Bool := ((entryOf s (ownId s)).map entRequired).getD false

/-- What leaving the membership does to the transfers and the agreement (R619, R623).
Log entry: 159 (DEDUCED). -/
def leave (code : Nat) (s : State) : State :=
  let s1 := endTransfers 0x0D24 (fun _ _ => true) s
  wrB OVR_STATUS.coordinator 0 false (wr OVR_STATUS.state 0 code
    (modOuv (fun o => { o with agree := none, reports := [], settle := none, confirmedAt := none,
                               inbound := [], early := [], rejoinFlag := false }) s1))

/-- Enter the excluded state (R623, R625).
Log entry: 159 (DEDUCED). -/
def exclude (epoch : Nat) (s : State) : State :=
  if ovState s = 3 then s
  else
    let s1 := modOuv (fun o => { o with excludedAt := now s, driverRejoin := false, drillRejoin := false }) s
    let s2 := leave 3 (event 0x0D31 0 0xFF 0 1 (leBytes 4 epoch) s1)
    if ownRequired s2 then membershipLost s2 else s2

/-- Enter the no-quorum state (R619, R625).
Log entry: 159 (DEDUCED). -/
def noQuorum (s : State) : State :=
  let s1 := leave 5 (event 0x0D32 0 0xFF 0 2 [] s)
  if ownRequired s1 then membershipLost s1 else s1

/-- NO_QUORUM_TIMEOUT (R619): a confirmed suspicion stands unresolved for 4 ms.
Log entry: 155 (DEDUCED). -/
def execNoQuorumTimeout (s : State) : Host.Outcome State Fault Refusal :=
  .next (match s.ouvur.confirmedAt with
    | some t => if ovActive s then noQuorum (passTo (t + 4000000) s) else s
    | none => s)

/-- Bytes 528 on of an epoch record: the count of shards lost and up to 64 of them (R622). -/
def lostBytes (l : List (Nat × Nat)) : List Nat :=
  leBytes 4 l.length ++ (l.take 64).flatMap (fun e => leBytes 2 e.1 ++ [e.2, 0])

/-- An epoch record of 1 KiB (R622). -/
def epochRecord (epoch coord members time : Nat) (lost : List (Nat × Nat)) : List Nat :=
  padTo 1024 (leBytes 4 epoch ++ leBytes 2 coord ++ leBytes 2 (popcount members 4096) ++ leBytes 8 time
    ++ leBytes 512 members ++ lostBytes lost)

/-- The slot of an epoch's record. -/
def recordSlot (s : State) (epoch : Nat) : Nat := com s OVR_EREC_ADDR.addr + epoch % 16 * 1024

/-- Declare shards lost (R637): the count and the event of each. -/
def declareLost (l : List (Nat × Nat)) (s : State) : State :=
  l.foldl (fun s e => event 0x0D35 0 e.2 0 1 (leBytes 2 e.1 ++ [e.2]) (incSat OVR_LOST_COUNT.lost 0 1 s)) s

/-- Mirror entry i of a queue (R635). -/
def mirrorOf (s : State) (c i : Nat) : List Nat := (ovQueue s c).mirrors.getD i []

/-- The mirror entry that a mirror or refill record names. -/
def runMirror (s : State) (c : Nat) (r : OvRun) : List Nat := mirrorOf s c (fld r.raw 4 2)

/-- Whether a record at work is a refill that has started. -/
def isRefill (r : OvRun) : Bool := r.started && r.raw.getD 0 0 == 7

/-- The shards that an epoch's membership loses: those of refills from a partner that it excludes (R637). -/
def lostTo (s : State) (members : Nat) : List (Nat × Nat) :=
  (List.range 64).filterMap (fun c => match (ovQueue s c).run with
    | some r => if isRefill r ∧ !bit members (fld (runMirror s c r) 4 2) then some (fld (runMirror s c r) 2 2, c) else none
    | none => none)

/-- Install an epoch (R617, R621 to R625, R637). -/
def install (epoch coord members : Nat) (s : State) : State :=
  if !bit members (ownId s) then exclude epoch s
  else
    let prev := baseMembers s
    let left := countIf (idsOf prev) (fun i => !bit members i)
    let lost := lostTo s members
    let s1 := endTransfers 0x0D25 (fun c _ => lost.any (fun e => e.2 == c)) s
    let s2 := endTransfers 0x0D20 (fun _ r => r.started) s1
    let n := popcount members 4096
    let back := ovState s == 3
    let s3 := modOuv (fun o => { o with
      members := members, agree := none, reports := [], settle := none, confirmedAt := none, inbound := [], early := []
      seen := o.seen.filter (fun r => decide (epoch ≤ r.epoch)), rejoinFlag := false, driverRejoin := false
      drillRejoin := false, rejoins := 0, heardAny := false
      excludedBy := (idsOf prev).foldl (fun m i => if bit members i then m else aput m i epoch)
        (o.excludedBy.filter (fun e => !bit members e.1)) }) s2
    let s4 := wr OVR_STATUS.state 0 2 (wr OVR_MEMBERS.members 0 n (wr OVR_EPOCH.epoch 0 epoch s3))
    let s5 := wrB OVR_STATUS.coordinator 0 (decide ((idsOf members).head? = some (ownId s))) s4
    let s6 := declareLost lost (writeMem' 71 0xFF (recordSlot s5 epoch) (epochRecord epoch coord members (dial s5) lost) s5)
    let s7 := event 0x0D30 0 0xFF 0 0 (leBytes 4 epoch ++ leBytes 2 n ++ leBytes 2 left) s6
    let s8 := if back then event 0x0D33 0 0xFF 0 0 (leBytes 4 epoch) s7 else s7
    if (rosterEntries s8.ouvur.roster).any (fun e => entRequired e && !bit members (entId e)) then membershipLost s8 else s8

/-! ## Proposals and commits (R614 to R617) -/

/-- Whether acknowledged members are a quorum of the previous epoch's (R615).
Log entry: 155 (DEDUCED). -/
def quorum (prev acked : Nat) : Bool :=
  let ps := idsOf prev
  let a := countIf ps (bit acked)
  decide (ps.length < 2 * a) || (2 * a == ps.length && ((ps.head?.map (bit acked)).getD false))

/-- A coordinator that has reached quorum floods a commit and installs it (R616).
Log entry: 155 (DEDUCED). -/
def tryCommit (s : State) : State :=
  match s.ouvur.agree with
  | some a =>
    if a.parent.isNone && a.coord == ownId s && quorum (baseMembers s) a.acked then
      install a.epoch a.coord a.members (ovFlood .ouvurCommit (mapPacket s 5 a.epoch a.coord a.members) none s)
    else s
  | none => s

/-- SETTLE_WINDOW_END (R614): the coordinator floods a proposal for the next epoch.
Log entry: 155 (DEDUCED). -/
def execSettleWindowEnd (s : State) : Host.Outcome State Fault Refusal :=
  .next (match s.ouvur.settle with
    | some t =>
      if !ovActive s then s
      else
        let s1 := passTo t s
        let e := (max (rd s1 OVR_EPOCH.epoch) ((s1.ouvur.agree.map (·.epoch)).getD 0) + 1) % 2 ^ 32
        let m := idMap ((List.range 4096).filter (fun i => (bit (baseMembers s1) i && !(failed s1).contains i)
          || bit s1.ouvur.rejoins i))
        let me := ownId s1
        let s2 := modOuv (fun o => { o with settle := none, agree := some ⟨e, me, m, idMap [me], none⟩ }) s1
        tryCommit (ovFlood .ouvurProposal (mapPacket s2 3 e me m) none s2)
    | none => s)

/-- Whether a proposal is acknowledged (R616): the first of an epoch, or a later one of that epoch from a lower ID. -/
def acknowledges (s : State) (epoch coord : Nat) : Bool :=
  decide (rd s OVR_EPOCH.epoch < epoch) && (match s.ouvur.agree with
    | none => true
    | some a => decide (a.epoch < epoch) || (a.epoch == epoch && decide (coord < a.coord)))

/-- OUVUR_PROPOSAL (R616): a proposal arrives at a port; it is passed on and acknowledged along the tree. -/
def execOuvurProposal (port : Nat) (head : OvHead) (epoch coord members : Nat) (s : State) :
    Host.Outcome State Fault Refusal :=
  .next (ovControl port head (fun s =>
    if ovActive s && acknowledges s epoch coord then
      let mine := idMap [ownId s]
      let s1 := modOuv (fun o => { o with agree := some ⟨epoch, coord, members, mine, some port⟩ }) s
      ovEval (ovSend port .ouvurAck (mapPacket s1 4 epoch coord mine)
        (ovFlood .ouvurProposal (mapPacket s1 3 epoch coord members) (some port) s1))
    else s) s)

/-- ACKNOWLEDGEMENT (R616): merged at each hop; at the coordinator, quorum leads to a commit. -/
def execAcknowledgement (port : Nat) (head : OvHead) (epoch coord acked : Nat) (s : State) :
    Host.Outcome State Fault Refusal :=
  .next (ovControl port head (fun s =>
    match s.ouvur.agree with
    | some a =>
      if ovActive s ∧ a.epoch = epoch ∧ a.coord = coord then
        let m := a.acked ||| acked
        let s1 := modOuv (fun o => { o with agree := some { a with acked := m } }) s
        match a.parent with
        | some p => ovSend p .ouvurAck (mapPacket s1 4 epoch coord m) s1
        | none => tryCommit s1
      else s
    | none => s) s)

/-- OUVUR_COMMIT (R617): an epoch later than the installed one is passed on and installed. -/
def execOuvurCommit (port : Nat) (head : OvHead) (epoch coord members : Nat) (s : State) :
    Host.Outcome State Fault Refusal :=
  .next (ovControl port head (fun s =>
    if rd s OVR_EPOCH.epoch < epoch then
      install epoch coord members
        (if ovActive s then ovFlood .ouvurCommit (mapPacket s 5 epoch coord members) (some port) s else s)
    else s) s)

/-! ## Heartbeats -/

/-- The time depth that heartbeats carry (R610).
Log entry: 156 (DEDUCED). -/
def ownDepth (s : State) : Nat :=
  let src := com s NWT_DIAL_CTRL.source_sel
  if 1 ≤ src ∧ src ≤ 4 ∧ rd s NWT_DIAL_STATUS.sync_state = 2 then 0
  else if src = 5 then min 15 ((ovPort s (com s OVR_CTRL.time_port)).depth + 1) else 15

/-- The flags of a heartbeat (R604, R623, R624): rejoin requested, excluded. -/
def beatFlags (s : State) : Nat := b2n s.ouvur.rejoinFlag + 2 * b2n (decide (ovState s = 3 ∨ ovState s = 5))

/-- Send a heartbeat on one port, or to an excluded neighbour an exclusion notice (R610, R623).
Log entry: 156 (DEDUCED). -/
def beatOn (p : Nat) (s : State) : State :=
  if !ovPortUp s p then s
  else if ovState s = 2 ∧ portCode s p = 2 ∧ !bit s.ouvur.members (expected s p) then
    ovSend p .ouvurExclude { ctlPacket s 6 [] [] with dst := expected s p } s
  else
    let x := ovPort s p
    let payload := padTo 32 (leBytes 8 x.lastT1 ++ leBytes 8 x.lastT2 ++ [ownDepth s])
    ovSend p .ouvurHeartbeat { ctlPacket s 1 (leBytes 8 (dial s)) payload with flags := beatFlags s, dst := expected s p } s

/-- OUVUR_HEARTBEAT_SEND (R610): every 20 µs, on each port that is up; none in a drill (R638). -/
def execOuvurHeartbeatSend (s : State) : Host.Outcome State Fault Refusal :=
  .next (if com s OVR_CTRL.enable = 0 ∨ ovState s = 0 then s
    else
      let s1 := passTo (s.ouvur.beatAt + 20000) s
      let s2 := modOuv (fun o => { o with beatAt := now s1 }) s1
      if ovState s2 = 4 then s2 else [0, 1, 2, 3].foldl (fun s p => beatOn p s) s2)

/-- A valid heartbeat of the neighbour on a port (R609, R611): misses in a row end, and a suspicion of it is cleared.
Log entry: 154 (DEDUCED). -/
def heardNeighbour (p : Nat) (s : State) : State :=
  let y := expected s p
  let s1 := modPort p (fun x => { x with
    miss := 0, missAt := now s, validSince := some (x.validSince.getD (now s)) }) s
  let s2 := showSuspect y (setPort p 2 s1)
  let me := ownId s2
  modOuv (fun o => { o with
    heardAny := true
    reports := o.reports.filter (fun r => !(r.suspect == y && r.reporter == me))
    seen := o.seen.filter (fun r => !(r.suspect == y && r.reporter == me)) }) s2

/-- Take Dial time from a heartbeat on the time port (R33, R610).
Log entries: 23 (DEDUCED), 156 (DEDUCED). -/
def beatTime (p t1 t3 t4 depth : Nat) (s : State) : State :=
  if com s NWT_DIAL_CTRL.source_sel = 5 ∧ p = com s OVR_CTRL.time_port ∧ depth < 14 ∧ t3 ≠ 0 then
    let o : Int := (((t1 : Int) - dial s) + ((t4 : Int) - t3)) / 2
    dialSync ((dial s : Int) + o).toNat s
  else s

/-- OUVUR_HEARTBEAT (R609 to R611): a heartbeat arrives, its send time in its header, with this package's earlier send
time and its receive time at the neighbour, and the neighbour's depth.
Log entries: 23 (DEDUCED), 153 (DEDUCED). -/
def execOuvurHeartbeat (port : Nat) (head : OvHead) (t3 t4 depth : Nat) (s : State) :
    Host.Outcome State Fault Refusal :=
  .next (ovTake port head (fun s =>
    let sent := head.data 0 8
    let s0 := wr OVR_PORT.neighbour (8 * port) head.src s
    if head.roster ≠ rosterCrc s0 ∨ head.src ≠ expected s0 port then
      let told := (ovPort s0 port).foreignTold
      let s1 := setPort port 3 (modPort port (fun x => { x with foreignTold := true, validSince := none }) s0)
      if told then s1 else event 0x0D37 0 0xFF port 1 [] s1
    else
      let s1 := beatTime port sent t3 t4 depth (modPort port (fun x => { x with
        lastT1 := sent, lastT2 := dial s0, depth := depth }) (heardNeighbour port s0))
      let asks := bit head.flags 0
      ovEval (modOuv (fun o => { o with rejoins := setBit o.rejoins head.src asks }) s1)) s)

/-- EXCLUSION_NOTICE (R623): it stands in place of a heartbeat, and the package enters the excluded state.
Log entry: 154 (DEDUCED). -/
def execExclusionNotice (port : Nat) (head : OvHead) (s : State) : Host.Outcome State Fault Refusal :=
  .next (ovControl port head (fun s =>
    if head.roster = rosterCrc s ∧ head.src = expected s port then exclude head.epoch (heardNeighbour port s) else s) s)

/-! ## Rejoin and drills -/

/-- The conditions of R624 at this instant, leaving the 10 ms aside. -/
def mayRejoin (s : State) : Bool :=
  [0, 1, 2, 3].all (fun p => expected s p == 0xFFFF || (portCode s p == 2 &&
    (match (ovPort s p).validSince with | some t => decide (t + 1000000 ≤ now s) | none => false)))
    && (com s OVR_CTRL.rejoin_auto == 1 || s.ouvur.driverRejoin || s.ouvur.drillRejoin)

/-- REJOIN_READY (R624): the conditions hold, and heartbeats carry the rejoin flag. -/
def execRejoinReady (s : State) : Host.Outcome State Fault Refusal :=
  let s1 := passTo (s.ouvur.excludedAt + 10000000) s
  .next (if ovState s = 3 ∧ mayRejoin s1 then modOuv (fun o => { o with rejoinFlag := true }) s1 else s)

/-- OVR_REJOIN (R624, R639): a write of 1 to rejoin in OVR_REQ permits one rejoin. -/
def execOvrRejoin (value : Nat) (s : State) : Host.Outcome State Fault Refusal :=
  .next (if value % 2 = 1 ∧ ovState s = 3 then modOuv (fun o => { o with driverRejoin := true }) s else s)

/-- Start a drill with a window in ms, or the status that refuses it (R638, R695).
Log entry: 159 (DEDUCED). -/
def startDrill (b : List Nat) (s : State) : Nat × (State → State) :=
  if ovState s ≠ 2 ∨ ownRequired s then (0x0D05, id)
  else (0, fun s =>
    let s1 := event 0x0D36 0 0xFF 0 0 [1] s
    let s2 := modOuv (fun o => { o with drillEnd := some (now s + fld (rqBody b) 0 4 * 1000000) }) s1
    leave 4 s2)

/-- DRILL (R638, R690, R695). -/
def execDrill (value : Nat) (s : State) : Host.Outcome State Fault Refusal :=
  .next (keyRequest 7 value (plainRequest startDrill) s)

/-- DRILL_END (R638): heartbeats resume in the excluded state, and the package rejoins with rejoin_auto taken as set.
Log entry: 159 (DEDUCED). -/
def execDrillEnd (s : State) : Host.Outcome State Fault Refusal :=
  .next (match s.ouvur.drillEnd with
    | some t =>
      let s1 := passTo t s
      event 0x0D36 0 0xFF 0 0 [0] (wr OVR_STATUS.state 0 3 (modOuv (fun o => { o with
        drillEnd := none, drillRejoin := true, driverRejoin := false, excludedAt := now s1 }) s1))
    | none => s)

end Sys2Proof.Machine
end

