-- ==== Sys2Proof/Machine/Transfer.lean ====
section
/-! DEFINITION. Ouvur's transfers (R620, R626 to R637) and its commits (R639, R640); the release of waiting units. -/

namespace Sys2Proof.Machine

open Reg

/-! ## Records (R626) -/

/-- Operation of a transfer record. -/
def xfOp (r : List Nat) : Nat := r.getD 0 0
/-- Element type. -/
def xfType (r : List Nat) : Nat := r.getD 2 0
/-- Group, peer or mirror entry. -/
def xfTarget (r : List Nat) : Nat := fld r 4 2
/-- Tag. -/
def xfTag (r : List Nat) : Nat := fld r 6 2
/-- First shard held locally. -/
def xfFirst (r : List Nat) : Nat := fld r 8 2
/-- Local shards. -/
def xfCount (r : List Nat) : Nat := fld r 10 2
/-- Source address. -/
def xfSrc (r : List Nat) : Nat := fld r 16 6
/-- Destination address. -/
def xfDst (r : List Nat) : Nat := fld r 22 6
/-- Bytes between local contributions. -/
def xfStride (r : List Nat) : Nat := fld r 28 4
/-- Bytes of one shard's contribution. -/
def xfBytes (r : List Nat) : Nat := fld r 12 4 * (if xfType r = 2 then 1 else 4)
/-- Whether a record works on a group. -/
def xfGroupOp (r : List Nat) : Bool := decide (1 ≤ xfOp r) && decide (xfOp r ≤ 3)
/-- The group byte of a record's packets: 0xFF for a transfer between two packages.
Log entry: 152 (DESIGN CHOICE). -/
def xfGroup (r : List Nat) : Nat := if xfGroupOp r then xfTarget r else 0xFF

/-- The committed size of a queue's ring. -/
def xfSize (s : State) (c : Nat) : Nat := 2 ^ com s OVR_Q_CFG.size_log2 (c * 0x40)

/-- A record's group. -/
def groupOf (s : State) (c : Nat) (r : List Nat) : OvGroup := (ovQueue s c).groups.getD (xfTarget r) {}

/-- This package's place in a record's chain. -/
def chainPos (s : State) (c : Nat) (r : List Nat) : Option Nat := (groupOf s c r).chain.findIdx? (· == (ownId s, c))

/-- The member before this package in the chain (R629). -/
def chainPred (s : State) (c : Nat) (r : List Nat) : Option (Nat × Nat) :=
  match chainPos s c r with
  | some (i + 1) => (groupOf s c r).chain[i]?
  | _ => none

/-- The member after this package in the chain (R629). -/
def chainSucc (s : State) (c : Nat) (r : List Nat) : Option (Nat × Nat) :=
  match chainPos s c r with
  | some i => (groupOf s c r).chain[i + 1]?
  | none => none

/-- Field values of a mirror entry (R635). -/
def mirShard (e : List Nat) : Nat := fld e 2 2
/-- Partner package of a mirror entry. -/
def mirPartner (e : List Nat) : Nat := fld e 4 2
/-- Partner's context of a mirror entry. -/
def mirCtx (e : List Nat) : Nat := e.getD 6 0
/-- Bytes of the shard of a mirror entry. -/
def mirBytes (e : List Nat) : Nat := fld e 8 4 * 65536
/-- Local region or slot A. -/
def mirAddr (e : List Nat) : Nat := fld e 12 6
/-- Slot B. -/
def mirSlotB (e : List Nat) : Nat := fld e 18 6

/-- 0x0D10 (R626, R628). -/
def xfMalformed (s : State) (c : Nat) (r : List Nat) : Bool :=
  let op := xfOp r
  let g := xfGroupOp r
  op == 0 || decide (7 < op) || decide (3 < r.getD 1 0) || decide (2 < xfType r) || (xfType r == 2 && op == 1)
    || decide (2 < r.getD 3 0) || (op != 1 && r.getD 3 0 != 0)
    || decide ((if op = 4 ∨ op = 5 then 4095 else 15) < xfTarget r)
    || (op != 4 && op != 5 && xfTag r != 0) || (g && xfCount r == 0) || (!g && xfCount r != 0)
    || (g && decide (0 < (groupOf s c r).shards) && decide ((groupOf s c r).shards < xfFirst r + xfCount r))
    || fld r 12 4 == 0 || xfSrc r % 64 != 0 || xfDst r % 64 != 0 || ((op == 4 || op == 6) && xfDst r != 0)
    || xfStride r % 64 != 0 || !tieWordOk (fld r 32 4) || !tieWordOk (fld r 40 4) || !timeoutOk (fld r 48 4)
    || !zeroAt r 52 12 || ((op == 6 || op == 7) && (mirrorOf s c (xfTarget r)).getD 0 0 != 1)

/-- 0x0D11 (R622, R628). A refill whose partner is not a member when it starts is R637's case.
Log entry: 157 (DEDUCED). -/
def xfNotMember (s : State) (c : Nat) (r : List Nat) : Bool :=
  ovState s != 2 || (match xfOp r with
    | 4 | 5 => !bit s.ouvur.members (xfTarget r)
    | 6 | 7 => !bit s.ouvur.members (mirPartner (mirrorOf s c (xfTarget r)))
    | _ => (chainPos s c r).isNone || (groupOf s c r).chain.any (fun m => !bit s.ouvur.members m.1))

/-- 0x0D12 (R628). -/
def xfOutside (s : State) (c : Nat) (r : List Nat) : Bool :=
  let n := xfBytes r
  let src := fun (_ : Unit) => rangeInPartition s c (xfSrc r) ((xfCount r - 1) * xfStride r + n) false
  let dst := fun (k : Nat) => rangeInPartition s c (xfDst r) (k * n) true
  let e := mirrorOf s c (xfTarget r)
  (bit (r.getD 1 0) 0 && !tieAllowed s c (fld r 32 4)) || (bit (r.getD 1 0) 1 && !tieAllowed s c (fld r 40 4))
    || !(match xfOp r with
      | 1 => src () && dst 1
      | 2 => src () && dst (groupOf s c r).shards
      | 3 => src () && dst (xfCount r)
      | 4 => rangeInPartition s c (xfSrc r) n false
      | 5 => dst 1
      | op => rangeInPartition s c (mirAddr e) (mirBytes e) (op == 7))

/-- The checks of a transfer record, in the order of R641: the status that refuses it, or 0.
Log entry: 157 (DEDUCED). -/
def xfCheck (s : State) (c : Nat) (r : List Nat) : Nat :=
  if xfMalformed s c r then 0x0D10 else if xfNotMember s c r then 0x0D11 else if xfOutside s c r then 0x0D12 else 0

/-! ## Packets of transfers -/

/-- A code for what a packet carries.
Log entry: 152 (DESIGN CHOICE). -/
def roleCode : OvRole → Nat
  | .running => 0 | .result => 1 | .shard => 2 | .stream => 3 | .mirrorOpen => 4 | .mirrorBytes => 5 | .mirrorDone => 6
  | .mirrorRefused => 7 | .refillOpen => 8 | .refillBytes => 9 | .refillRefused => 10 | .stop => 11

/-- Send a packet towards a package: on a port that faces it, else on some port that is up.
Log entry: 157 (DEDUCED). -/
def ovToward (dst : Nat) (kind : MsgKind) (q : OvPacket) (s : State) : State :=
  match (facing s dst).find? (fun p => portCode s p == 2) with
  | some p => ovSend p kind q s
  | none =>
    let up := [0, 1, 2, 3].filter (fun p => portCode s p == 2)
    if up.isEmpty then s else withDraw s up.length (fun v s => ovSend (up.getD v 0) kind q s)

/-- A data packet from a package to a context of another (R604). What its contents say beside the header's fields is in
`extra`. -/
def dataPacket (src dst dctx : Nat) (d : OvData) : OvPacket :=
  { code := 0x10, src := src, dst := dst, kindData := [dctx, d.group] ++ leBytes 2 d.tag ++ leBytes 4 d.chunk
    payload := d.bytes, extra := [roleCode d.role, d.num, b2n d.last, d.crc, d.ctx] }

/-- Send a data packet of this package to a context of another, with the present epoch (R604, R620).
Log entry: 152 (DESIGN CHOICE). -/
def ovData (dst dctx : Nat) (d : OvData) (s : State) : State :=
  ovToward dst .ouvurData (dataPacket (ownId s) dst dctx d) s

/-- A ready packet of a transfer (R634). -/
def readyPacket (src dst dctx group tag : Nat) : OvPacket :=
  { code := 7, src := src, dst := dst, kindData := [dctx, group] ++ leBytes 2 tag }

/-- Send a ready packet (R634). -/
def ovReady (dst dctx group tag : Nat) (s : State) : State :=
  ovToward dst .ouvurReady (readyPacket (ownId s) dst dctx group tag) s

/-- Bytes of the chunks of a transfer of n bytes (R630). -/
def chunkBytes (n : Nat) : Nat := max 1 (min 262144 n)

/-- The chunk in which an offset of a transfer of n bytes lies (R604, R630). -/
def chunkAt (n off : Nat) : Nat := off / chunkBytes n

/-- Change the record at work of a context's queue. -/
def modRun (c : Nat) (f : OvRun → OvRun) (s : State) : State := modOvQueue c (fun q => { q with run := q.run.map f }) s

/-- Send a packet of the record at work once its receiver is ready (R634). -/
def sendRun (c : Nat) (r : OvRun) (to_ : Nat × Nat) (d : OvData) (s : State) : State :=
  let ready := ((ovQueue s c).run.map (fun x => x.ready.contains to_.1)).getD false
  let d1 := { d with group := xfGroup r.raw, tag := xfTag r.raw, ctx := c }
  if ready then ovData to_.1 to_.2 d1 s else modRun c (fun x => { x with hold := x.hold ++ [(to_.1, to_.2, d1)] }) s

/-- End the record at work with success once nothing of it waits to be sent.
Log entry: 157 (DEDUCED). -/
def tryEnd (c : Nat) (s : State) : State :=
  match (ovQueue s c).run with
  | some r => if r.sentAll && r.hold.isEmpty then endTransfer c 0 s else s
  | none => s

/-- Nothing is left to do but to send what waits. -/
def runDone (c : Nat) (s : State) : State := tryEnd c (modRun c (fun r => { r with sentAll := true }) s)

/-- End the record at work of a chain with a status, on every member (R631). -/
def stopChain (c : Nat) (r : OvRun) (st : Nat) (skip : Nat) (s : State) : State :=
  let to_ := ((chainPred s c r.raw).toList ++ (chainSucc s c r.raw).toList).filter (fun m => m.1 != skip)
  endTransfer c st (to_.foldl (fun s m => ovData m.1 m.2
    { group := xfGroup r.raw, tag := xfTag r.raw, role := .stop, num := st, ctx := c } s) s)

/-- Cut n bytes into payloads of at most 4,096: offset and length of each (R603). -/
def packets (n : Nat) : List (Nat × Nat) := (List.range (divUp n 4096)).map (fun i => (i * 4096, min 4096 (n - i * 4096)))

/-! ## Folding (R630) -/

/-- One step of the fold. -/
def chainWord (dtype redop a b : Nat) : Nat :=
  if dtype = 0 then
    match redop with
    | 0 => addF a b
    | 1 => rne (maxVal (f32Val a) (f32Val b))
    | _ => rne (minVal (f32Val a) (f32Val b))
  else
    match redop with
    | 0 => (clamp32 (sext a 32 + sext b 32)).1
    | 1 => if sext a 32 < sext b 32 then b else a
    | _ => if sext b 32 < sext a 32 then b else a

/-- Bytes as 32-bit words. -/
def toWords (l : List Nat) : List Nat := (List.range (l.length / 4)).map (fun i => fld l (4 * i) 4)

/-- Fold this member's shards, in order, into a running value of n bytes at an offset: the status of the reads, the
words, and the state after. -/
def foldOwn (c : Nat) (r : List Nat) (off n : Nat) (start : Option (List Nat)) (s : State) : Nat × List Nat × State :=
  let x := (List.range (xfCount r)).foldl (fun (a : Nat × Option (List Nat) × State) k =>
    if a.1 ≠ 0 then a
    else
      let q := readMem 71 c (xfSrc r + k * xfStride r + off) n [] a.2.2
      let w := toWords q.2.1
      let v := match a.2.1 with
        | none => w
        | some u => (u.zip w).map (fun e => chainWord (xfType r) (r.getD 3 0) e.1 e.2)
      (q.1, some v, q.2.2)) (0, start, s)
  (x.1, x.2.1.getD [], x.2.2)

/-- Words as bytes. -/
def fromWords (l : List Nat) : List Nat := l.flatMap (leBytes 4)

/-! ## Starting a transfer -/

/-- The first member of an all-reduce folds its own shards and passes the running value on. -/
def startReduce (c : Nat) (r : OvRun) (s : State) : State :=
  match chainPred s c r.raw, chainSucc s c r.raw with
  | none, some m =>
    if xfFirst r.raw ≠ 0 then stopChain c r 0x0D21 0xFFFF s
    else
      (packets (xfBytes r.raw)).foldl (fun s e =>
        if (ovQueue s c).run.isNone then s
        else
          let q := foldOwn c r.raw e.1 e.2 none s
          if q.1 ≠ 0 then endTransfer c q.1 q.2.2
          else sendRun c r m { role := .running, num := xfCount r.raw, chunk := chunkAt (xfBytes r.raw) e.1
                               bytes := fromWords q.2.1 } q.2.2) s
  | _, _ => s

/-- Write the record at work's destination at an offset; a write that is refused ends the record with its status. -/
def putDst (c : Nat) (r : List Nat) (off : Nat) (bytes : List Nat) (s : State) : State :=
  let w := writeMem 71 c (xfDst r + off) bytes s
  if w.1 ≠ 0 then endTransfer c w.1 w.2 else w.2

/-- Read one packet of local contribution k and act on its bytes; a read that fails ends the record with its status. -/
def withShard (c : Nat) (r : OvRun) (k off n : Nat) (f : List Nat → State → State) (s : State) : State :=
  if (ovQueue s c).run.isNone then s
  else
    let q := readMem 71 c (xfSrc r.raw + k * xfStride r.raw + off) n [] s
    if q.1 ≠ 0 then endTransfer c q.1 q.2.2 else f q.2.1 q.2.2

/-- The local contributions of a record, packet by packet: contribution, offset and length. -/
def ownPackets (r : List Nat) : List (Nat × Nat × Nat) :=
  (List.range (max 1 (xfCount r))).flatMap (fun k => (packets (xfBytes r)).map (fun e => (k, e.1, e.2)))

/-- Whether an all-gather has every shard (R632). -/
def gatherDone (s : State) (c : Nat) (r : OvRun) : Bool :=
  decide (((groupOf s c r.raw).shards - xfCount r.raw) * xfBytes r.raw ≤ sumNat (r.gotBy.map (·.2)))

/-- A member of an all-gather writes its own shards and sends them both ways along the chain (R632). -/
def startGather (c : Nat) (r : OvRun) (s : State) : State :=
  let s1 := (ownPackets r.raw).foldl (fun s e => withShard c r e.1 e.2.1 e.2.2 (fun b s =>
    let k := xfFirst r.raw + e.1
    ((chainPred s c r.raw).toList ++ (chainSucc s c r.raw).toList).foldl
      (fun s m => sendRun c r m { role := .shard, num := k, chunk := chunkAt (xfBytes r.raw) e.2.1, bytes := b } s)
      (putDst c r.raw (k * xfBytes r.raw + e.2.1) b s)) s) s
  if gatherDone s c r then runDone c s1 else s1

/-- The first member of a broadcast writes its own contributions and sends them down the chain; a send streams its bytes
to its peer (R632). -/
def startStream (c : Nat) (r : OvRun) (to_ : Option (Nat × Nat)) (own : Bool) (s : State) : State :=
  let ps := ownPackets r.raw
  let s1 := ((List.range ps.length).zip ps).foldl (fun s e => withShard c r e.2.1 e.2.2.1 e.2.2.2 (fun b s =>
    let s1 := if own then putDst c r.raw (e.2.1 * xfBytes r.raw + e.2.2.1) b s else s
    match to_ with
    | some m => sendRun c r m { role := .stream, last := decide (e.1 + 1 = ps.length)
                                chunk := chunkAt (xfBytes r.raw) e.2.2.1, bytes := b } s1
    | none => s1) s) s
  runDone c s1

/-- A mirror record asks its partner, and streams the region once the partner is ready (R636). -/
def startMirror (c : Nat) (r : OvRun) (s : State) : State :=
  let e := runMirror s c r
  let q := readMem 71 c (mirAddr e) (mirBytes e) [] s
  if q.1 ≠ 0 then endTransfer c q.1 q.2.2
  else
    let ask := { group := 0xFF, role := .mirrorOpen, num := mirShard e, ctx := c : OvData }
    (packets (mirBytes e)).foldl (fun s x => sendRun c r (mirPartner e, mirCtx e)
        { role := .mirrorBytes, num := mirShard e, last := decide (x.1 + x.2 = mirBytes e), crc := crc32c q.2.1,
          chunk := chunkAt (mirBytes e) x.1, bytes := slice q.2.1 x.1 x.2 } s)
      (ovData (mirPartner e) (mirCtx e) ask q.2.2)

/-- List a shard as lost in the epoch record of the epoch that excluded its partner (R622, R637). -/
def listLost (epoch shard c : Nat) (s : State) : State :=
  let a := recordSlot s epoch
  let q := readMem 71 0xFF a 1024 [] s
  if q.1 ≠ 0 ∨ fld q.2.1 0 4 ≠ epoch then q.2.2
  else
    let n := fld q.2.1 528 4
    let s1 := writeMem' 71 0xFF (a + 528) (leBytes 4 (n + 1)) q.2.2
    if n < 64 then writeMem' 71 0xFF (a + 532 + 4 * n) (leBytes 2 shard ++ [c, 0]) s1 else s1

/-- A refill fails and its shard is lost (R637). -/
def loseShard (c : Nat) (r : OvRun) (s : State) : State :=
  let e := runMirror s c r
  declareLost [(mirShard e, c)] (endTransfer c 0x0D25 s)

/-- A refill record asks its partner for its newest complete slot (R637).
Log entry: 157 (DEDUCED). -/
def startRefill (c : Nat) (r : OvRun) (s : State) : State :=
  let e := runMirror s c r
  if bit s.ouvur.members (mirPartner e) then
    ovData (mirPartner e) (mirCtx e) { group := 0xFF, role := .refillOpen, num := mirShard e, ctx := c } s
  else listLost (aget s.ouvur.excludedBy (mirPartner e) 0) (mirShard e) c (loseShard c r s)

/-- The partners of a record that must hear that this member is ready (R634). -/
def readyTo (s : State) (c : Nat) (r : List Nat) : List (Nat × Nat) :=
  match xfOp r with
  | 1 | 2 => (chainPred s c r).toList ++ (chainSucc s c r).toList
  | 3 => (chainPred s c r).toList
  | 5 => [(xfTarget r, c)]
  | _ => []

/-- Start the record at work of a context's queue: its wait, where it has one, is over (R626 to R637).
Log entry: 157 (DEDUCED). -/
def startRun (c : Nat) (s : State) : State :=
  match (ovQueue s c).run with
  | none => s
  | some r0 =>
    if r0.started ∨ dieSilent s 0 then s
    else if xfOp r0.raw ≠ 7 ∧ xfNotMember s c r0.raw then endTransfer c 0x0D11 s
    else
      let g := xfGroup r0.raw
      let mine := fun (e : Nat × Nat × Nat × Nat) => e.2.1 == c && e.2.2.1 == g && e.2.2.2 == xfTag r0.raw
      let r := { r0 with started := true, deadline := now s + fld r0.raw 48 4 * 1000, ready := (s.ouvur.early.filter mine).map (·.1) }
      let s1 := modOuv (fun o => { o with early := o.early.filter (fun e => !mine e) }) (modRun c (fun _ => r) s)
      let s2 := (readyTo s1 c r.raw).foldl (fun s m => ovReady m.1 m.2 g (xfTag r.raw) s) s1
      match xfOp r.raw with
      | 1 => startReduce c r s2
      | 2 => startGather c r s2
      | 3 => if (chainPred s2 c r.raw).isNone then startStream c r (chainSucc s2 c r.raw) true s2 else s2
      | 4 => startStream c r (some (xfTarget r.raw, c)) false s2
      | 5 => s2
      | 6 => startMirror c r s2
      | _ => startRefill c r s2

/-- Read a queue's doorbell line (R292, R293): a tail more than a ring ahead is not taken.
Log entry: 29 (DEDUCED). -/
def ovDoorbell (c : Nat) (s : State) : State :=
  let q := ovQueue s c
  let db := com s OVR_Q_DB.db (c * 0x40)
  let s1 := if inPcie db then passTo (q.polledAt + com s OVR_Q_CFG.poll_us (c * 0x40) * 1000) s else s
  let d := readMem 71 c db 64 [] s1
  let t := fld d.2.1 0 4
  if d.1 ≠ 0 ∨ xfSize s c < (t + 2 ^ 32 - q.head) % 2 ^ 32 then d.2.2
  else modOvQueue c (fun q => { q with tail := t, polledAt := now s1 }) d.2.2

/-- Take the next record of a queue whose operation `p` accepts: read, check, wait, start (R626 to R628).
Log entry: 157 (DEDUCED). -/
def nextTransfer (p : Nat → Bool) (c : Nat) (s : State) : State :=
  if 64 ≤ c ∨ com s OVR_Q_CFG.enable (c * 0x40) = 0 ∨ (ovQueue s c).run.isSome ∨ dieSilent s 0 then s
  else
    let s1 := if (ovQueue s c).head = (ovQueue s c).tail then ovDoorbell c s else s
    let q := ovQueue s1 c
    if q.head = q.tail then s1
    else
      let d := readMem 71 c (com s1 OVR_Q_BASE.base (c * 0x40) + q.head % xfSize s1 c * 64) 64 [] s1
      if d.1 = 0 ∧ !p (xfOp d.2.1) then s1
      else
        let r : OvRun := ⟨q.head, d.2.1, false, now s1 + fld d.2.1 48 4 * 1000, [], [], 0, 0, [], false⟩
        let s2 := modOvQueue c (fun q => { q with run := some r }) d.2.2
        let st := if d.1 ≠ 0 then d.1 else xfCheck s2 c r.raw
        let tie := fld r.raw 40 4
        if st ≠ 0 then endTransfer c st s2
        else if !bit (r.raw.getD 1 0) 1 then startRun c s2
        else if !reach s2 0 (tieHome tie) then endTransfer c 0x0810 s2
        else issueTie ⟨.waitGe, tie, fld r.raw 44 4, .other (1376 + c), c, fld r.raw 48 4⟩ s2

/-- ALL_REDUCE (R630). A record of a reserved operation, which has no row of its own, is taken here too and ends with
0x0D10 (R628). -/
def execAllReduce (ctx : Nat) (s : State) : Host.Outcome State Fault Refusal :=
  .next (nextTransfer (fun op => op == 1 || op == 0 || decide (7 < op)) ctx s)

/-- ALL_GATHER (R632). -/
def execAllGather (ctx : Nat) (s : State) : Host.Outcome State Fault Refusal := .next (nextTransfer (· == 2) ctx s)

/-- BROADCAST (R632). -/
def execBroadcast (ctx : Nat) (s : State) : Host.Outcome State Fault Refusal := .next (nextTransfer (· == 3) ctx s)

/-- SEND (R632). -/
def execSend (ctx : Nat) (s : State) : Host.Outcome State Fault Refusal := .next (nextTransfer (· == 4) ctx s)

/-- RECEIVE (R632). -/
def execReceive (ctx : Nat) (s : State) : Host.Outcome State Fault Refusal := .next (nextTransfer (· == 5) ctx s)

/-- MIRROR (R636). -/
def execMirror (ctx : Nat) (s : State) : Host.Outcome State Fault Refusal := .next (nextTransfer (· == 6) ctx s)

/-- REFILL (R637). -/
def execRefill (ctx : Nat) (s : State) : Host.Outcome State Fault Refusal := .next (nextTransfer (· == 7) ctx s)

/-! ## Ready packets and timeouts -/

/-- Send what waits for a package that is ready (R634). -/
def flushTo (c src : Nat) (s : State) : State :=
  match (ovQueue s c).run with
  | none => s
  | some r =>
    let s1 := modRun c (fun x => { x with ready := src :: x.ready, hold := x.hold.filter (fun e => e.1 != src) }) s
    tryEnd c ((r.hold.filter (fun e => e.1 == src)).foldl (fun s e => ovData e.1 e.2.1 e.2.2 s) s1)

/-- OUVUR_READY (R634): a ready packet for a transfer of a context, named by its group byte and tag. One that comes
before the transfer starts here is kept for it. -/
def execOuvurReady (port : Nat) (head : OvHead) (ctx group tag : Nat) (s : State) : Host.Outcome State Fault Refusal :=
  .next (ovControl port head (fun s =>
    if head.epoch ≠ rd s OVR_EPOCH.epoch ∨ ovState s ≠ 2 ∨ dieSilent s 0 then s
    else if head.dst ≠ ownId s then ovToward head.dst .ouvurReady (readyPacket head.src head.dst ctx group tag) s
    else match (ovQueue s ctx).run with
      | some r =>
        if r.started ∧ xfGroup r.raw = group ∧ xfTag r.raw = tag then flushTo ctx head.src s
        else modOuv (fun o => { o with early := o.early ++ [(head.src, ctx, group, tag)] }) s
      | none => modOuv (fun o => { o with early := o.early ++ [(head.src, ctx, group, tag)] }) s) s)

/-- Whether a partner of the record at work has not shown that it is ready (R634). -/
def unready (s : State) (c : Nat) (r : OvRun) : Bool :=
  !r.hold.isEmpty || (match xfOp r.raw with
    | 1 | 2 => ((chainPred s c r.raw).toList ++ (chainSucc s c r.raw).toList).any (fun m => !r.ready.contains m.1)
    | 3 => (chainSucc s c r.raw).toList.any (fun m => !r.ready.contains m.1)
    | 7 => r.got == 0
    | _ => false)

/-- TRANSFER_TIMEOUT (R634): a Tie wait that its home has not released ends with 0x0D22, its timeout measured from its
arrival there (R326); a partner that is not ready ends its transfer with 0x0D23.
Log entry: 157 (DEDUCED). -/
def execTransferTimeout (ctx : Nat) (s : State) : Host.Outcome State Fault Refusal :=
  .next (match (ovQueue s ctx).run with
    | none => s
    | some r =>
      if !r.started then
        match s.rings.waits.find? (fun w => w.who == .other (1376 + ctx)) with
        | none => s
        | some w =>
          endTransfer ctx 0x0D22 (incSat TIE_TIMEOUT_COUNT.timeouts (dieBase (tieHome w.tie)) 1 (passTo w.deadline s))
      else if unready s ctx r then endTransfer ctx 0x0D23 (passTo r.deadline s)
      else s)

/-! ## Data packets (R620, R630 to R637) -/

/-- A running value arrives from the member before this one (R630, R631). -/
def onRunning (c : Nat) (r : OvRun) (d : OvData) (s : State) : State :=
  let beyond := (chainSucc s c r.raw).isNone && xfFirst r.raw + xfCount r.raw != (groupOf s c r.raw).shards
  if d.num ≠ xfFirst r.raw ∨ beyond then stopChain c r 0x0D21 0xFFFF s
  else
    let q := foldOwn c r.raw r.got d.bytes.length (some (toWords d.bytes)) s
    if q.1 ≠ 0 then endTransfer c q.1 q.2.2
    else
      let v := fromWords q.2.1
      let s1 := modRun c (fun x => { x with got := x.got + d.bytes.length }) q.2.2
      match chainSucc s c r.raw with
      | some m => sendRun c r m { role := .running, num := xfFirst r.raw + xfCount r.raw, chunk := d.chunk, bytes := v } s1
      | none =>
        let s2 := (chainPred s c r.raw).toList.foldl (fun s m => sendRun c r m { role := .result, chunk := d.chunk, bytes := v } s)
          (putDst c r.raw r.back v s1)
        let n := r.back + v.length
        let s3 := modRun c (fun x => { x with back := n }) s2
        if xfBytes r.raw ≤ n then runDone c s3 else s3

/-- A result comes back along the chain (R630). -/
def onResult (c : Nat) (r : OvRun) (d : OvData) (s : State) : State :=
  let s1 := (chainPred s c r.raw).toList.foldl (fun s m => sendRun c r m { role := .result, chunk := d.chunk, bytes := d.bytes } s)
    (putDst c r.raw r.back d.bytes s)
  let n := r.back + d.bytes.length
  let s2 := modRun c (fun x => { x with back := n }) s1
  if xfBytes r.raw ≤ n then runDone c s2 else s2

/-- A shard of an all-gather arrives from one side and goes on to the other (R632). -/
def onShard (c : Nat) (r : OvRun) (src : Nat) (d : OvData) (s : State) : State :=
  let off := aget r.gotBy d.num 0
  let s1 := putDst c r.raw (d.num * xfBytes r.raw + off) d.bytes s
  let s2 := modRun c (fun x => { x with gotBy := aset x.gotBy d.num (off + d.bytes.length) 0 }) s1
  let on := ((chainPred s c r.raw).toList ++ (chainSucc s c r.raw).toList).filter (fun m => m.1 != src)
  let s3 := on.foldl (fun s m => sendRun c r m { role := .shard, num := d.num, chunk := d.chunk, bytes := d.bytes } s) s2
  match (ovQueue s3 c).run with
  | some r1 => if gatherDone s3 c r1 then runDone c s3 else s3
  | none => s3

/-- Bytes of a broadcast or of a send arrive (R632). -/
def onStream (c : Nat) (r : OvRun) (d : OvData) (s : State) : State :=
  let s1 := putDst c r.raw r.got d.bytes s
  let s2 := modRun c (fun x => { x with got := x.got + d.bytes.length }) s1
  let s3 := if xfOp r.raw = 3 then (chainSucc s c r.raw).toList.foldl
    (fun s m => sendRun c r m { role := .stream, last := d.last, chunk := d.chunk, bytes := d.bytes } s) s2 else s2
  if d.last then runDone c s3 else s3

/-- Bytes of a refill arrive; after the last the region's CRC is checked (R637). -/
def onRefill (c : Nat) (r : OvRun) (d : OvData) (s : State) : State :=
  let e := runMirror s c r
  let w := writeMem 71 c (mirAddr e + r.got) d.bytes s
  let n := r.got + d.bytes.length
  let s2 := modRun c (fun x => { x with got := n }) w.2
  if w.1 ≠ 0 then endTransfer c w.1 w.2
  else if !d.last then s2
  else
    let q := readMem 71 c (mirAddr e) n [] s2
    if n = mirBytes e ∧ q.1 = 0 ∧ crc32c q.2.1 = d.crc then runDone c q.2.2 else loseShard c r q.2.2

/-- The inbound mirror entry of a context for a partner's shard (R635, R636). -/
def inboundEntry (s : State) (c src srcCtx shard : Nat) : Option (List Nat) :=
  (ovQueue s c).mirrors.find? (fun e => e.getD 0 0 == 2 && mirShard e == shard && mirPartner e == src && mirCtx e == srcCtx)

/-- A slot's header: generation, CRC, complete (R635), and the state after its read.
Log entry: 158 (DEDUCED). -/
def slotHeader (c a : Nat) (s : State) : (Nat × Nat × Bool) × State :=
  let q := readMem 71 c a 64 [] s
  ((fld q.2.1 0 4, fld q.2.1 4 4, q.1 == 0 && bit (q.2.1.getD 8 0) 0), q.2.2)

/-- A partner asks to stream a mirror: the slot with the lower generation or an incomplete one takes it, its complete bit
cleared first; without a matching entry it is refused (R636).
Log entry: 158 (DEDUCED). -/
def onMirrorOpen (c src : Nat) (d : OvData) (s : State) : State :=
  match inboundEntry s c src d.ctx d.num with
  | none => ovData src d.ctx { group := 0xFF, role := .mirrorRefused, num := d.num, ctx := c } s
  | some e =>
    let a := slotHeader c (mirAddr e) s
    let b := slotHeader c (mirSlotB e) a.2
    let useA := !a.1.2.2 || (b.1.2.2 && decide (a.1.1 ≤ b.1.1))
    let slot := if useA then mirAddr e else mirSlotB e
    let gen := ((if useA then b.1.1 else a.1.1) + 1) % 2 ^ 32
    let s1 := writeMem' 71 c (slot + 8) [0] b.2
    let i : OvInbound := ⟨src, d.ctx, c, d.num, slot, gen, mirBytes e, 0⟩
    ovReady src d.ctx 0xFF 0 (modOuv (fun o => { o with
      inbound := o.inbound.filter (fun x => !(x.src == src && x.ctx == c && x.shard == d.num)) ++ [i] }) s1)

/-- Bytes of a mirror arrive; after the last its CRC is checked, and the slot is completed or the record refused
(R636).
Log entry: 158 (DEDUCED). -/
def onMirrorBytes (c src : Nat) (d : OvData) (s : State) : State :=
  match s.ouvur.inbound.find? (fun x => x.src == src && x.ctx == c && x.shard == d.num) with
  | none => s
  | some i =>
    let s1 := writeMem' 71 c (i.slot + 4096 + i.got) d.bytes s
    let n := i.got + d.bytes.length
    let others := s.ouvur.inbound.filter (fun x => x != i)
    if !d.last then modOuv (fun o => { o with inbound := others ++ [{ i with got := n }] }) s1
    else
      let q := readMem 71 c (i.slot + 4096) n [] (modOuv (fun o => { o with inbound := others }) s1)
      let good := n == i.size && q.1 == 0 && crc32c q.2.1 == d.crc
      let answer := fun (k : OvRole) (s : State) => ovData src i.srcCtx { group := 0xFF, role := k, num := d.num, ctx := c } s
      if good then
        answer .mirrorDone (writeMem' 71 c i.slot (padTo 4096 (leBytes 4 i.gen ++ leBytes 4 d.crc ++ [1])) q.2.2)
      else answer .mirrorRefused q.2.2

/-- A partner asks for a shard back: the complete slot of highest generation is sent, or the request refused (R637).
Log entry: 158 (DEDUCED). -/
def onRefillOpen (c src : Nat) (d : OvData) (s : State) : State :=
  let refuse := ovData src d.ctx { group := 0xFF, role := .refillRefused, num := d.num, ctx := c }
  match inboundEntry s c src d.ctx d.num with
  | none => refuse s
  | some e =>
    let a := slotHeader c (mirAddr e) s
    let b := slotHeader c (mirSlotB e) a.2
    if !a.1.2.2 && !b.1.2.2 then refuse b.2
    else
      let useA := a.1.2.2 && (!b.1.2.2 || decide (b.1.1 ≤ a.1.1))
      let slot := if useA then mirAddr e else mirSlotB e
      let crc := if useA then a.1.2.1 else b.1.2.1
      let q := readMem 71 c (slot + 4096) (mirBytes e) [] b.2
      if q.1 ≠ 0 then refuse q.2.2
      else (packets (mirBytes e)).foldl (fun s x => ovData src d.ctx
        { group := 0xFF, role := .refillBytes, num := d.num, last := decide (x.1 + x.2 = mirBytes e), crc := crc, ctx := c,
          chunk := chunkAt (mirBytes e) x.1, bytes := slice q.2.1 x.1 x.2 } s) q.2.2

/-- Whether a packet comes from the package that the record at work expects it from. -/
def fromPartner (s : State) (c src : Nat) (r : OvRun) (d : OvData) : Bool :=
  let is := fun (m : Option (Nat × Nat)) => (m.map (fun x => x.1 == src)).getD false
  r.started && d.group == xfGroup r.raw && d.tag == xfTag r.raw &&
    (match d.role with
     | .running => xfOp r.raw == 1 && is (chainPred s c r.raw)
     | .result => xfOp r.raw == 1 && is (chainSucc s c r.raw)
     | .shard => xfOp r.raw == 2 && (is (chainPred s c r.raw) || is (chainSucc s c r.raw))
     | .stream => (xfOp r.raw == 3 && is (chainPred s c r.raw)) || (xfOp r.raw == 5 && xfTarget r.raw == src)
     | .stop => is (chainPred s c r.raw) || is (chainSucc s c r.raw)
     | .mirrorDone | .mirrorRefused => xfOp r.raw == 6 && mirPartner (runMirror s c r) == src
     | .refillBytes | .refillRefused => xfOp r.raw == 7 && mirPartner (runMirror s c r) == src
     | _ => false)

/-- A data packet that a transfer of context c takes. -/
def onData (c src : Nat) (d : OvData) (s : State) : State :=
  match d.role with
  | .mirrorOpen => onMirrorOpen c src d s
  | .mirrorBytes => onMirrorBytes c src d s
  | .refillOpen => onRefillOpen c src d s
  | k =>
    match (ovQueue s c).run with
    | none => s
    | some r =>
      if !fromPartner s c src r d then s
      else match k with
        | .running => onRunning c r d s
        | .result => onResult c r d s
        | .shard => onShard c r src d s
        | .stream => onStream c r d s
        | .mirrorDone => runDone c s
        | .mirrorRefused => endTransfer c 0x0D26 s
        | .refillBytes => onRefill c r d s
        | .refillRefused => loseShard c r s
        | _ => stopChain c r d.num src s

/-- OUVUR_DATA (R620): a packet of another epoch, or from a package that is not a member, is dropped and counted; one for
another package goes on towards it; in the silent state none is carried (R569). `ctx` is byte 16 of the header. -/
def execOuvurData (port : Nat) (head : OvHead) (ctx : Nat) (data : OvData) (s : State) : Host.Outcome State Fault Refusal :=
  .next (ovControl port head (fun s =>
    if head.epoch ≠ rd s OVR_EPOCH.epoch ∨ !bit s.ouvur.members head.src then incSat OVR_DROP_COUNT.drops 0 1 s
    else if ovState s ≠ 2 ∨ dieSilent s 0 then s
    else if head.dst ≠ ownId s then ovToward head.dst .ouvurData (dataPacket head.src head.dst ctx data) s
    else onData ctx head.src data s) s)

/-! ## Commits -/

/-- The roster that a policy handle names, where it is one of type 3 with a well-formed roster that has an entry for
this package (R608). -/
def rosterFor (s : State) (h : Nat) : Option (List Nat) :=
  match policyAt s h with
  | some p => if p.kind = 3 ∧ rosterOk p.body ∧ (rosterEntries p.body).any (fun e => entIdentity e == ownIdentity)
    then some p.body else none
  | none => none

/-- The fields that OVR_COMMIT commits. -/
def ovrFields : List (Field × Nat) :=
  [(OVR_POLICY.policy_handle, 0), (OVR_CTRL.enable, 0), (OVR_CTRL.rejoin_auto, 0), (OVR_CTRL.time_port, 0),
   (OVR_EREC_ADDR.addr, 0)]

/-- The checks of OVR_COMMIT (R608, R639, R641). -/
def ovrChecks (s : State) : List (Bool × Refuse) :=
  let a := stg s OVR_EREC_ADDR.addr
  let on := stg s OVR_CTRL.enable == 1
  [(a % 4096 != 0, (0x0003, 0x1100008)), (!rangeHost s a 16384, (0x0004, 0x1100008)),
   (com s OVR_CTRL.enable == 1 && stg s OVR_POLICY.policy_handle != com s OVR_POLICY.policy_handle, (0x0D01, 0)),
   (com s OVR_CTRL.enable == 0 && on && (rosterFor s (stg s OVR_POLICY.policy_handle)).isNone, (0x0D02, 0))]

/-- Ouvur joins (R606, R608): its ports train. -/
def ovrEnable (s : State) : State :=
  let r := (rosterFor s (com s OVR_POLICY.policy_handle)).getD []
  let id := (((rosterEntries r).find? (fun e => entIdentity e == ownIdentity)).map entId).getD 0
  let s1 := modOuv (fun o => { roster := r, beatAt := now s, queues := o.queues,
                               ports := (List.range 4).map (fun p => (p, ({ missAt := now s, retrainAt := now s } : OvPort))) }) s
  [0, 1, 2, 3].foldl (fun s p => setPort p 1 s)
    (wr OVR_STATUS.pkg_id 0 id (wr OVR_STATUS.state 0 1 s1))

/-- Ouvur is switched off: its transfers end, its ports go down, and it holds no epoch.
Log entry: 159 (DEDUCED). -/
def ovrDisable (s : State) : State :=
  let s1 := leave 0 s
  let s2 := [0, 1, 2, 3].foldl (fun s p => wr OVR_PORT.suspect (8 * p) 0 (setPort p 0 s)) s1
  wr OVR_MEMBERS.members 0 0 (wr OVR_EPOCH.epoch 0 0 (wr OVR_STATUS.pkg_id 0 0
    (modOuv (fun o => { queues := o.queues }) s2)))

/-- OVR_COMMIT (R639). -/
def execOvrCommit (value : Nat) (s : State) : Host.Outcome State Fault Refusal :=
  .next (commit 0 0x110003C value (ovrChecks s) (fun s =>
    let was := com s OVR_CTRL.enable
    let s1 := acceptStaged ovrFields s
    let is := com s1 OVR_CTRL.enable
    if was = 0 ∧ is = 1 then ovrEnable s1 else if was = 1 ∧ is = 0 then ovrDisable s1 else s1) s)

/-- The fields that OVR_Q_COMMIT commits for context c. -/
def ovqFields (c : Nat) : List (Field × Nat) :=
  [(OVR_Q_BASE.base, c * 0x40), (OVR_Q_DB.db, c * 0x40), (OVR_Q_STAT.stat, c * 0x40), (OVR_Q_CFG.size_log2, c * 0x40),
   (OVR_Q_CFG.enable, c * 0x40), (OVR_Q_CFG.poll_us, c * 0x40), (OVR_GROUP_ADDR.groups, c * 0x40),
   (OVR_MIRROR_ADDR.mirrors, c * 0x40)]

/-- Whether a ring, line or array of n bytes lies in the context's partition or in the outbound window. -/
def ovqSpan (s : State) (c a n : Nat) (write : Bool) : Bool :=
  rangeInPartition s c a n write || (inPcie a && decide (a + n ≤ 0x800000000000))

/-- 0x0D03 (R640). -/
def ovqBad (s : State) (c : Nat) : Bool :=
  let base := stg s OVR_Q_BASE.base (c * 0x40)
  let db := stg s OVR_Q_DB.db (c * 0x40)
  let stat := stg s OVR_Q_STAT.stat (c * 0x40)
  let lg := stg s OVR_Q_CFG.size_log2 (c * 0x40)
  let poll := stg s OVR_Q_CFG.poll_us (c * 0x40)
  decide (lg < 6) || decide (12 < lg) || base % 4096 != 0 || db % 64 != 0 || stat % 4096 != 0
    || (if inPcie db then poll == 0 || decide (1000 < poll) else poll != 0)
    || stg s OVR_GROUP_ADDR.groups (c * 0x40) % 4096 != 0 || stg s OVR_MIRROR_ADDR.mirrors (c * 0x40) % 64 != 0
    || !ovqSpan s c base (64 * 2 ^ lg) false || !ovqSpan s c db 64 false || !ovqSpan s c stat (16 * 2 ^ lg) true

/-- One group of the table (R629), none where it is malformed. -/
def parseGroup (t : List Nat) : Option OvGroup :=
  let n := fld t 0 2
  let ms := (List.range n).map (fun i => slice t (64 + 4 * i) 4)
  if n = 1 ∨ 4096 < n ∨ !zeroAt t 4 60 ∨ (n ≠ 0 ∧ fld t 2 2 = 0)
    ∨ ms.any (fun m => decide (4095 < fld m 0 2) || decide (63 < m.getD 2 0) || m.getD 3 0 != 0) then none
  else some ⟨fld t 2 2, ms.map (fun m => (fld m 0 2, m.getD 2 0))⟩

/-- The 16 groups of the table (R629), none where one is malformed. -/
def parseGroups (t : List Nat) : Option (List OvGroup) :=
  let gs := (List.range 16).map (fun g => parseGroup (slice t (g * 32768) 32768))
  if gs.all (·.isSome) then some (gs.filterMap id) else none

/-- Whether a mirror entry is well formed (R635). -/
def mirrorOk (e : List Nat) : Bool :=
  let k := e.getD 0 0
  k == 0 || (decide (k ≤ 2) && e.getD 1 0 == 0 && decide (mirPartner e < 4096) && decide (mirCtx e < 64) && e.getD 7 0 == 0
    && decide (1 ≤ fld e 8 4) && decide (fld e 8 4 ≤ 262144) && (k == 2 || mirSlotB e == 0) && zeroAt e 24 8)

/-- The state with a context's queue taken as disabled, for the count of the other polled lines. -/
def ovqOff (ctx : Nat) (s : State) : State := wrCom OVR_Q_CFG.enable (ctx * 0x40) 0 s

/-- Read the tables that a queue commit names, check them and commit (R640, R641). -/
def ovqTake (ctx : Nat) (s : State) : State :=
  let at_ := ctx * 0x40
  let g := readMem 71 ctx (stg s OVR_GROUP_ADDR.groups at_) 524288 [] s
  let m := readMem 71 ctx (stg s OVR_MIRROR_ADDR.mirrors at_) 512 [] g.2.2
  let es := (List.range 16).map (fun i => slice m.2.1 (32 * i) 32)
  if g.1 ≠ 0 ∨ m.1 ≠ 0 then commitDone 0 (0x0007, 0) m.2.2
  else if ovqBad m.2.2 ctx then commitDone 0 (0x0D03, 0) m.2.2
  else
    match parseGroups g.2.1 with
    | none => commitDone 0 (0x0D04, 0) m.2.2
    | some gs =>
      if !es.all mirrorOk then commitDone 0 (0x0D04, 0) m.2.2
      else
        let q := if com s OVR_Q_CFG.enable at_ = 0 then { groups := gs, mirrors := es, polledAt := now s : OvQueue }
          else { ovQueue s ctx with groups := gs, mirrors := es }
        commitDone 0 (0, 0) (modOvQueue ctx (fun _ => q) (acceptStaged (ovqFields ctx) m.2.2))

/-- OVR_Q_COMMIT (R629, R635, R640): refused while a record of the queue is at work; the tables are read at each
commit. Counts start at 0 where the queue was not enabled before.
Log entry: 157 (DEDUCED). -/
def execOvrQCommit (ctx value : Nat) (s : State) : Host.Outcome State Fault Refusal :=
  .next (if value % 2 = 0 ∨ 64 ≤ ctx then s
    else
      let at_ := ctx * 0x40
      let s0 := commitAt 0 (0x110103C + at_) s
      let poll := stg s OVR_Q_CFG.poll_us at_
      let beyond := stg s OVR_Q_CFG.enable at_ == 1 && poll != 0 && !pollOk (poll :: polledLines (ovqOff ctx s) none none)
      if dieSilent s 0 then commitDone 0 (0x0C40, 0) s0
      else if (ovQueue s ctx).run.isSome ∨ beyond then commitDone 0 (0x0006, 0x1101000 + at_) s0
      else ovqTake ctx s0)

/-! ## Releases of waiting units -/

/-- Release one waiter of a release message: a decode stream writes its outputs, a transfer record starts, and every
other waiter is that of R325. -/
def releaseWaiter (tie value : Nat) (s : State) (who : Agent) : State :=
  match who with
  | .other i =>
    if 1304 ≤ i ∧ i < 1368 then assignEngines (flushOuts (i - 1304) (decOf s (i - 1304)).outs.length s)
    else if 1376 ≤ i ∧ i < 1440 then startRun (i - 1376) s
    else s
  | _ => releaseOne tie value s who

/-- TIE_RELEASE (R775): the oldest release message of a Tie reaches a die and releases all its waiters at once. -/
def execTieRelease (die tie : Nat) (s : State) : Host.Outcome State Fault Refusal :=
  .next (match s.rings.rels.find? (fun m => m.die == die && m.tie == tie) with
    | none => s
    | some m => m.who.foldl (releaseWaiter m.tie m.value)
        { s with rings := { s.rings with rels := s.rings.rels.erase m } })

end Sys2Proof.Machine
end

