-- ==== Sys2Proof/Machine/Night.lean ====
section
/-! DEFINITION. The partial reset of a Course die (R716 to R719), and Night and Deep Night (R720 to R726). -/

namespace Sys2Proof.Machine

open Reg

/-! ## Per-die partial reset -/

/-- Whether a plan's Watches name a Course of die n for a context. -/
def planNames (p : Option Plan) (c n : Nat) : Bool :=
  match p with
  | none => false
  | some p => p.watches.any (fun w => w.ctx == c && (List.range 16).any (fun k => bit w.mask ((n - 1) * 16 + k)))

/-- The contexts that step 1 tears down (R718).
Log entry: 173 (DEDUCED). -/
def partialContexts (s : State) (n : Nat) : List Nat :=
  (List.range 64).filter (fun c => ctxOpen s c &&
    (planNames s.day.active c n || planNames s.day.staged c n
      || s.fab.launches.any (fun l => l.ctx == c && l.insts.any (fun i => courseDie i.course == n))
      || overlap (com s HST_TIE_BASE.tie_base (c * 0x100)) (com s HST_TIE_COUNT.tie_count (c * 0x100)) ((n - 1) * 32768) 32768))

/-- Settle a wait homed on a die in partial reset as timed out (R718).
Log entry: 173 (DEDUCED). -/
def settleWait (s : State) (w : TieWait) : State :=
  let gone := fun (s : State) => { s with rings := { s.rings with waits := s.rings.waits.erase w } }
  match w.who with
  | .other i =>
    if 1280 ≤ i ∧ i < 1304 then
      modStream (i - 1280) (fun x => { x with waiting := x.waiting.map (fun f => { f with lost := true, deadline := now s }) }) (gone s)
    else if 1376 ≤ i ∧ i < 1440 then
      endTransfer (i - 1376) 0x0D22 (incSat TIE_TIMEOUT_COUNT.timeouts (dieBase (tieHome w.tie)) 1 (gone s))
    else gone s
  | _ => timeoutWait w s

/-- Steps 1 and 2: the contexts are torn down, the waits settled, the Tie operations in flight applied, and the write
queues of the stack drained.
Log entry: 173 (DEDUCED). -/
def partialDrain (n : Nat) (s : State) : State :=
  let s1 := (partialContexts s n).foldl (fun s c => teardown c 0x1020 [] s) s
  let s2 := (s1.rings.waits.filter (fun w => tieHome w.tie == n)).foldl settleWait s1
  let s3 := (s2.rings.ops.filter (fun o => tieHome o.tie == n)).foldl (fun s o => tieDeliver n (agentIndex o.sender) s) s2
  (List.range 32).foldl (fun s pc => drainPc (n - 1) pc s) s3

/-- Step 3: die n's registers at their reset values, the retained ones excepted, its Beds, Hods and accumulators zeroed
and its Ties 0 (R710); its stack counts as cool again (R785), which the ledger's limit shows (R387).
Log entry: 173 (DEDUCED). -/
def partialClear (n : Nat) (s : State) : State :=
  let courses := (List.range 16).map (fun k => (n - 1) * 16 + k)
  let kept := strapFields n ++ courses.flatMap fenceFields ++ [0, 1, 2].map (fun p => (MTR_PORT_STATUS.epoch, portAt n p))
  let s1 := showDie n (keepFields kept s (resetRegs (dieBase n) (dieBase (n + 1)) s))
  let b := (n - 1) * 256
  let s2 := { s1 with
    fab := { s1.fab with bed := aclear s1.fab.bed (b * 262144) ((b + 256) * 262144)
                         hod := aclear s1.fab.hod ((n - 1) * 16 * 4194304) (n * 16 * 4194304)
                         acc := aclear s1.fab.acc (b * 4096) ((b + 256) * 4096)
                         courses := aclear s1.fab.courses ((n - 1) * 16) (n * 16) }
    rings := { s1.rings with ties := aclear s1.rings.ties ((n - 1) * 32768) (n * 32768) }
    power := { s1.power with agents := adel s1.power.agents n, sleep := aclear s1.power.sleep ((n - 1) * 16) (n * 16) } }
  refreshLedger (modStack (n - 1) (fun _ => {})
    ((courses ++ [64 + 2 * (n - 1), 65 + 2 * (n - 1)]).foldl (fun s d => setDomain d true s) s2))

/-- A port of die n, which knows nothing any longer, and its peer train under new epochs (R403). A test of the port
ends, and its peer is free to train; a peer that is itself under test stays so, and holds the port in training until
its test ends (R421). -/
def trainPair (n p : Nat) (s : State) : State :=
  let q := peerOf n p
  if endState s q.1 q.2 = 3 then
    modEnd n p (fun e => { e with peerTest := true }) (startTraining n p (modEnd n p (fun _ => {}) s))
  else
    let s1 := startTraining n p (modEnd n p (fun _ => {}) s)
    startTraining q.1 q.2 (resendUnacked q.1 q.2 (modEnd q.1 q.2 (fun e => { e with peerTest := false }) s1))

/-- Step 5: the ports of die n and their peers train under new epochs (R403); what a peer had not had acknowledged is
sent again by another route (R411). The routes that go with the links may leave other dies without one (R413), and the
ledger is re-evaluated (R378).
Log entry: 173 (DEDUCED). -/
def partialTrain (n : Nat) (s : State) : State :=
  portChange (fun s => [0, 1, 2].foldl (fun s p => trainPair n p s) s) s

/-- RESET_PARTIAL (R716 to R718): kind 3.
Log entry: 173 (DEDUCED). -/
def execResetPartial (value : Nat) (s : State) : Host.Outcome State Fault Refusal :=
  .next (resetRequest 3 value (fun s =>
    let n := com s NWT_RESET_REQ.die
    let s1 := modNwt (fun x => { x with partialAt := now s })
      (wrB NWT_RESET_STATUS.partial_busy 0 true { partialDrain n s with partialDie := some n, partialStep := 2 })
    { partialTrain n (partialClear n s1) with partialStep := 6 }) s)

/-- PARTIAL_RESET_COMPLETE (R579, R716, R719): once the ports have trained, the islands' test of the die's checkers ends,
`ms` after the request.
Log entry: 173 (DEDUCED). -/
def execPartialResetComplete (passed : Bool) (ms : Nat) (s : State) : Host.Outcome State Fault Refusal :=
  .next (match s.partialDie with
    | none => s
    | some n =>
      if (s.mode ≠ .run ∧ s.mode ≠ .nightEntry) ∨ [0, 1, 2].any (fun p => endState s n p == 1) then s
      else if !passed then commandState (if n ≤ 2 then 5 else 6) 2 0x3F n s
      else
        let s1 := passTo (s.nwt.partialAt + ms * 1000000) s
        let s2 := wr NWT_DAWN_TIME.ms 0 (satTo ms 0xFFFF) (wrB NWT_RESET_STATUS.partial_busy 0 false <|
          wrB HBM_STATUS.trained (dieBase n) true
          { s1 with partialDie := none, partialStep := 0 })
        let s3 := event 0x1032 0 0xFF n 0 (leBytes 2 (satTo ms 0xFFFF)) s2
        reevaluate (if reach s3 0 n then s3 else event 0x0824 0 0xFF n 2 [] s3))

/-! ## Entry to Night -/

/-- Whether an input, Meridian, Ouvur or the Sieve still works (R720). -/
def nightActivity (s : State) : Bool :=
  s.input.streams.any (fun e => e.2.enabled) || s.input.decs.any (fun e => e.2.enabled) || s.input.samplers.any (fun e => e.2.enabled)
    || s.mer.enabled || com s OVR_CTRL.enable == 1 || (List.range 64).any (fun c => com s OVR_Q_CFG.enable (c * 0x40) == 1)
    || !s.sieve.jobs.isEmpty || !s.rings.sieveIn.isEmpty

/-- The fields that NWT_NIGHT_COMMIT commits (R727). -/
def nightFields : List (Field × Nat) :=
  [(NWT_NIGHT_CTRL.target, 0), (NWT_NIGHT_CTRL.wake_pin, 0), (NWT_NIGHT_CTRL.wake_alarm, 0), (NWT_NIGHT_WAKE_AT.alarm, 0),
   (NWT_NIGHT_SAVE.addr, 0)]

/-- Bytes of the Tie save area (R721). -/
def tieSaveBytes : Nat := 524288

/-- The checks of a Night commit (R720, R727, R767).
Log entries: 18 (DEDUCED), 174 (DEDUCED). -/
def nightChecks (s : State) : List (Bool × Refuse) :=
  let t := stg s NWT_NIGHT_CTRL.target
  let a := stg s NWT_NIGHT_SAVE.addr
  [(t == 0 || t == 3, (0x0002, 0x10120)), (a % 4096 != 0, (0x0003, 0x10130)), (!rangeHost s a tieSaveBytes, (0x0004, 0x10130)),
   (s.mode != .run, (0x0006, 0x10120)),
   (!bit s.nwt.boot.flags 2 || (t == 2 && !bit s.nwt.boot.flags 3), (0x1001, 0)), (nightActivity s, (0x1002, 0)),
   (s.rings.descs.any (fun d => d.phase == .waiting), (0x1003, 0)),
   (t == 2 && (List.range 64).any (ctxOpen s), (0x1004, 0))]

/-- Write the result of a Night commit. -/
def nightDone (r : Refuse) (s : State) : State := commitDone 0 r (wr NWT_NIGHT_STATUS.status 0 r.1 s)

/-- When the Courses switch out (R721): the first grid boundary at least 1 ms away, or at once without a plan.
Log entry: 174 (DEDUCED). -/
def nightStopAt (s : State) : Nat :=
  match s.day.active with
  | none => now s
  | some p => s.day.periodAt + divUp (now s + 1000000 - s.day.periodAt) (p.periodUs * 1000) * (p.periodUs * 1000)

/-- A write of 1 to NWT_NIGHT_COMMIT with a target staged (R720, R721): the ring engine holds every ring. -/
def nightCommit (target value : Nat) (s : State) : State :=
  let t := stg s NWT_NIGHT_CTRL.target
  if value % 2 = 0 ∨ (t ≠ target ∧ !((t = 0 ∨ t = 3) ∧ target = 1)) then s
  else
    let s0 := commitAt 0 0x1013C s
    if dieSilent s 0 then nightDone (0x0C40, 0) s0
    else match firstFail (nightChecks s) with
      | some r => nightDone r s0
      | none =>
        let s1 := nightDone (0, 0) (wrB NWT_NIGHT_STATUS.busy 0 true (acceptStaged nightFields s0))
        nightHook (modNwt (fun x => { x with target := t, stopAt := nightStopAt s, stopped := false, wake := none })
          { s1 with mode := .nightEntry })

/-- NIGHT (R721): target 1; a reserved target is refused here. -/
def execNight (value : Nat) (s : State) : Host.Outcome State Fault Refusal := .next (nightCommit 1 value s)

/-- DEEP_NIGHT (R725): target 2. -/
def execDeepNight (value : Nat) (s : State) : Host.Outcome State Fault Refusal := .next (nightCommit 2 value s)

/-- Step 2 of R721 where it has not come yet: the periods run to the boundary, and the Courses are asked to switch out.
-/
def reachNightStop (s : State) : State :=
  if s.nwt.stopped then s
  else
    let k := match s.day.active with
      | none => 0
      | some p => (s.nwt.stopAt - s.day.periodAt) / (p.periodUs * 1000)
    let s1 := passTo s.nwt.stopAt ((List.range k).foldl (fun s _ => nextPeriod s) s)
    if s1.nwt.stopped then s1 else nightStop s1

/-- Whether the Courses still hold work: an instance that runs or a teardown's scrub. -/
def coursesBusy (s : State) : Bool :=
  s.fab.launches.any (fun l => l.insts.any (fun i => i.phase == .active)) || s.fab.courses.any (fun e => e.2.scrub)

/-- Every Course switches out its holder (R262, R721): its state is saved and scrubbed. -/
def saveCourses (s : State) : State :=
  (List.range 64).foldl (fun s c =>
    let s1 := if saveTooBig s c then zeroCourse c (teardown (courseOf s c).owner 0x0615 [] s) else saveState c s
    wrB TRW_COURSE_STATE.switching (atCourse c 0x100) false
      (modCourse c (fun x => { x with
        owner := 0xFF, switch := none, preempt := false, prev := none, scrub := false, test := none, preload := none }) s1)) s

/-- The Tie values, 4 B each in Tie order, as the save area holds them. -/
def tieImage (s : State) : List Nat := (List.range 131072).flatMap (fun t => leBytes 4 (tieValue s t))

/-- Step 3 of R721.
Log entry: 174 (DEDUCED). -/
def saveTies (s : State) : State :=
  let s1 := writeBack (writeMem' 72 0xFF (com s NWT_NIGHT_SAVE.addr) (tieImage s) s)
  { s1 with rings := { s1.rings with ties := [] } }

/-- The Night notice at an island (R722): it holds back the monitors of every domain, and watches Nightwatch instead. -/
def nightNotice (s : State) (i : Nat) : State :=
  if watching s i then
    modIsland i (fun x => { x with night := true, off := (List.range 100).map (fun d => (d, true)), rate := none,
                                   heard := aset x.heard 67 (osc s) 0 }) s
  else s

/-- Step 4 of R721 into Night: only Nightwatch, Keystone and the HBM PHYs stay on (R649); the links and PCIe are down.
Log entry: 174 (DEDUCED). -/
def enterNight (s : State) : State :=
  let s1 := [5, 6].foldl nightNotice (pcieDown s)
  let s2 := allEnds.foldl (fun s e => wrData e.1 e.2 0 (wrWidth e.1 e.2 0 (wrState e.1 e.2 0 s))) s1
  let s3 := (List.range 94).foldl (fun s d => setDomain d false s) s2
  modNwt (fun x => { x with nightAt := now s3, target := 0 }) (wrB NWT_NIGHT_STATUS.busy 0 false { s3 with mode := .night })

/-- Step 4 into Deep Night (R725): every supply but Nightwatch's goes, the islands' too; Nightwatch notes a locked Dial
time (R34).
Log entries: 22 (DEDUCED), 174 (DEDUCED). -/
def enterDeepNight (s : State) : State :=
  let t := resetPackage false .deepNight s
  modNwt (fun x => { x with
      nightAt := now s
      lockedRate := if rd s NWT_DIAL_STATUS.sync_state = 2 then some s.clock.rate else none })
    (nightFields.foldl (fun u fa => wrCom fa.1 fa.2 (com s fa.1 fa.2) u) { t with power := { t.power with enMain := false } })

/-- NIGHT_ENTRY_COMPLETE (R721, R723, R725): not before every instance has stopped; a wake that came during the entry
then takes effect.
Log entry: 174 (DEDUCED). -/
def execNightEntryComplete (s : State) : Host.Outcome State Fault Refusal :=
  .next (if s.mode ≠ .nightEntry ∨ s.partialDie.isSome then s
    else
      let s1 := reachNightStop s
      if coursesBusy s1 then s1
      else
        let s2 := saveTies (saveCourses s1)
        let s3 := if s.nwt.target = 2 then enterDeepNight s2 else enterNight s2
        match s.nwt.wake with
        | some b => wakeUp b (modNwt (fun x => { x with wake := none }) s3)
        | none => s3)

/-- NIGHTWATCH_HEARTBEAT (R722): every 1 ms in Night, to both islands. -/
def execNightwatchHeartbeat (s : State) : Host.Outcome State Fault Refusal :=
  .next (if s.mode ≠ .night then s
    else [5, 6].foldl (fun s i => if watching s i then heardAt i 67 s else s) (send .nightwatchHeartbeat [] s))

/-! ## Exit from Night -/

/-- Restore the Tie values from the save area (R723).
Log entry: 174 (DEDUCED). -/
def restoreTies (s : State) : State :=
  let r := readMem 72 0xFF (com s NWT_NIGHT_SAVE.addr) tieSaveBytes [] s
  if r.1 ≠ 0 then r.2.2
  else (List.range 131072).foldl (fun s t => setTie t (fld r.2.1 (4 * t) 4) s) r.2.2

/-- The wake notice at an island (R722): its monitors resume 100 µs later, its heartbeats count as just heard. -/
def wakeNotice (s : State) (i : Nat) : State :=
  if watching s i then
    modIsland i (fun x => { x with night := false, off := [], onAt := (List.range 100).map (fun d => (d, osc s)), rate := none,
                                   heard := (List.range 68).map (fun k => (k, osc s)) }) s
  else s

/-- The grid of the active plan goes on in Dial time (R724): its Watches resume at the first boundary at least 1 ms away,
and DAY_PERIOD_INDEX has counted every period; a staged plan takes over no earlier.
Log entry: 174 (DEDUCED). -/
def resumePlan (s : State) : State :=
  match s.day.active with
  | none => s
  | some p =>
    let per := p.periodUs * 1000
    let k := divUp (now s + 1000000 - s.day.periodAt) per
    let at_ := s.day.periodAt + (k - 1) * per
    let s1 := incWrap DAY_PERIOD_INDEX.period 0 (k - 1) { s with
      day := { s.day with periodAt := at_, begun := [], ended := List.range p.watches.length,
                          stagedAt := max s.day.stagedAt (at_ + per) } }
    (List.range 64).foldl (fun s c => match nextWatch s c (at_ + per) with
      | some (j, v, t) => if v.ctx < 64 then startSwitch c v.ctx (some j) (some t) s else s
      | none => s) s1

/-- Each Brick's next test falls due later by the time spent in Night (R724).
Log entry: 174 (DEDUCED). -/
def delayTests (len : Nat) (s : State) : State :=
  let later := (List.range 1024).map (fun b => (b, { brickOf s b with lastTest := (brickOf s b).lastTest + len }))
  { s with fab := { s.fab with bricks := later.filter (fun e => e.2 != {}) } }

/-- Raise event 0x0824 for each Course die that no route reaches once the ports have trained again (R413). -/
def noteUnreached (s : State) : State :=
  [1, 2, 3, 4].foldl (fun s n => if reach s 0 n then s else event 0x0824 0 0xFF n 2 [] s) s

/-- NIGHT_EXIT_COMPLETE (R34, R413, R723, R724): once the ports have trained.
Log entry: 22 (DEDUCED). -/
def execNightExitComplete (s : State) : Host.Outcome State Fault Refusal :=
  .next (if s.mode ≠ .nightExit ∨ portsTraining s then s
    else
      let len := now s - s.nwt.nightAt
      let ms := satTo (len / 1000000) 0xFFFFFFFF
      let s1 := (List.range 100).foldl (fun s d => setDomain d true s)
        { s with mode := .run, power := { s.power with sleep := [] } }
      let s2 := [0, 1, 2, 3].foldl (fun s k => modStack k (fun x => { x with
        roundStart := some (now s), roundEnd := some (now s), phase := 0 }) s) (startTimers s1)
      let s3 := [5, 6].foldl wakeNotice (restoreTies s2)
      let s4 := noteUnreached (delayTests len (reevaluate (resumePlan s3)))
      let s5 := if rd s4 NWT_DIAL_STATUS.sync_state = 2 then setSync 3 s4 else s4
      event 0x1031 0 0xFF 0 0 (leBytes 4 ms)
        (wr NWT_NIGHT_TIME.ms 0 ms (wrB NWT_NIGHT_STATUS.busy 0 false (releaseCores s5))))

end Sys2Proof.Machine
end

