-- ==== Sys2Proof/Machine/Sequencer.lean ====
section
/-! DEFINITION. The sequencer's control, synchronisation and address-generator instructions (R64 to R66, R77, R81,
R267, R322, R329, R776, R777). Each command is one instruction of the role on a Brick; it has its effect only where the
word at the role's pc is that instruction and nothing holds the role. -/

namespace Sys2Proof.Machine

/-! ## Control -/

/-- NOP (R65): one cycle. -/
def execNop (brick : Nat) (s : State) : Host.Outcome State Fault Refusal :=
  .next (match issuing s brick opNop with
    | none => s
    | some x => addCycles x 1 (goOn x s))

/-- Let the roles of an instance past their BARRIER once every role that has not halted has reached its own (R65): what
each has waited there counts (R77).
Log entry: 49 (DESIGN CHOICE). -/
def settleBarrier (id c : Nat) (s : State) : State :=
  match instOf s id c with
  | none => s
  | some i =>
    if i.roles.all (fun r => r.halted || r.atBarrier) then
      modInst id c (fun i => { i with roles := i.roles.map (fun r =>
        if r.atBarrier then { r with atBarrier := false, cycles := max r.cycles i.cycles }.advance else r) }) s
    else s

/-- HALT (R65): the role's part ends; barriers and a pending preemption go on without it. -/
def execHalt (brick : Nat) (s : State) : Host.Outcome State Fault Refusal :=
  .next (match issuing s brick opHalt with
    | none => s
    | some x =>
      let id := x.launch.id
      let c := x.inst.course
      tryPark id c (settleBarrier id c (setRole x (fun r => { r with halted := true }) s)))

/-- JUMP (R65). -/
def execJump (brick : Nat) (s : State) : Host.Outcome State Fault Refusal :=
  .next (match issuing s brick opJump with
    | none => s
    | some x => setRole x (fun r => { r with pc := bits r.word 15 9 }) s)

/-- Enter a loop body that runs `passes` times; 0 skips it (R65).
Log entry: 65 (DESIGN CHOICE). -/
def Role.enterLoop (r : Role) (passes : Nat) : Role :=
  let target := bits r.word 15 9
  if passes = 0 then r.past target
  else { r with pc := r.pc + 1, loops := ⟨bits r.word 13 2, r.pc + 1, target, passes - 1⟩ :: r.loops }

/-- LOOP (R65). -/
def execLoop (brick : Nat) (s : State) : Host.Outcome State Fault Refusal :=
  .next (match issuing s brick opLoop with
    | none => s
    | some x => setRole x (fun r => r.enterLoop (bits r.word 0 13 + 1)) s)

/-- LOOPP (R65).
Log entry: 65 (DESIGN CHOICE). -/
def execLoopp (brick : Nat) (s : State) : Host.Outcome State Fault Refusal :=
  .next (match issuing s brick opLoopp with
    | none => s
    | some x => setRole x (fun r => r.enterLoop (paramWord x.launch x.inst.course (bits r.word 0 4))) s)

/-- Whether a role stops at the PPOINT that it has reached (R81): a stop is pending for its preemptible instance, and
no role has passed that PPOINT.
Log entry: 50 (DEDUCED). -/
def stopsHere (s : State) (x : Site) : Bool :=
  x.launch.preemptible && ((courseOf s x.inst.course).preempt || x.inst.roles.any (·.atPpoint))
    && x.inst.roles.all (fun r => r.halted || decide (r.ppoints ≤ x.role.ppoints))

/-- PPOINT (R81).
Log entry: 50 (DEDUCED). -/
def execPpoint (brick : Nat) (s : State) : Host.Outcome State Fault Refusal :=
  .next (match issuing s brick opPpoint with
    | none => s
    | some x =>
      if stopsHere s x then
        tryPark x.launch.id x.inst.course (setRole x (fun r => { r with atPpoint := true }.advance) s)
      else goOn x (setRole x (fun r => { r with ppoints := r.ppoints + 1 }) s))

/-- WAIT (R65): count + 1 cycles. -/
def execWait (brick : Nat) (s : State) : Host.Outcome State Fault Refusal :=
  .next (match issuing s brick opWait with
    | none => s
    | some x => addCycles x (bits x.role.word 0 13 + 1) (goOn x s))

/-! ## Synchronisation -/

/-- NSIG (R65): the flag is raised on the neighbour's side that faces this Brick.
Log entry: 51 (DESIGN CHOICE). -/
def execNsig (brick : Nat) (s : State) : Host.Outcome State Fault Refusal :=
  .next (match issuing s brick opNsig with
    | none => s
    | some x =>
      let d := bits x.role.word 18 2
      let k := (cellTowards (roleCell x.launch.image x.k) d).bind (roleAtCell x.launch.image)
      let s1 := match k with
        | some k => setRole { x with k := k } (fun r => { r with flags := setAt r.flags ((d + 2) % 4) true }) s
        | none => s
      goOn x s1)

/-- NWAIT (R65): goes on, clearing the flag, once the flag is raised; until then the role waits.
Log entry: 51 (DESIGN CHOICE). -/
def execNwait (brick : Nat) (s : State) : Host.Outcome State Fault Refusal :=
  .next (match issuing s brick opNwait with
    | none => s
    | some x =>
      let d := bits x.role.word 18 2
      if x.role.flags.getD d false then goOn x (setRole x (fun r => { r with flags := setAt r.flags d false }) s) else s)

/-- The Tie that a SYNC word names: a parameter word (R65). -/
def tieOf (x : Site) : Nat := paramWord x.launch x.inst.course (bits x.role.word 20 4)

/-- Run a Tie operation of a role: outside the context's ranges it stops the launch with 0x0611 (R329), without a route
with 0x0810 (R412). -/
def tieStep (x : Site) (k : State → State) (s : State) : State :=
  let t := tieOf x
  if 131072 ≤ t ∨ tieRefused s x.launch.ctx t then courseFault x 0x0611 (leBytes 4 t) false s
  else if !reach s (courseDie x.inst.course) (tieHome t) then courseFault x 0x0810 [tieHome t] false s
  else k s

/-- TSIG (R322). -/
def execTsig (brick : Nat) (s : State) : Host.Outcome State Fault Refusal :=
  .next (match issuing s brick opTsig with
    | none => s
    | some x => tieStep x (fun s => goOn x (issueTie
        ⟨.signal, tieOf x, bits x.role.word 0 16, .role brick, x.launch.ctx, 0⟩ s)) s)

/-- Whether a stop is pending for an instance (R267).
Log entry: 50 (DEDUCED). -/
def stopPending (s : State) (x : Site) : Bool :=
  x.launch.preemptible && ((courseOf s x.inst.course).preempt || x.inst.roles.any (·.atPpoint))

/-- A Tie wait of a role (R65, R267): the wait is sent to its home and the role blocks; where a stop is pending the role
stands as at the PPOINT before it. -/
def waitStep (x : Site) (kind : TieKind) (s : State) : State :=
  if stopPending s x then
    tryPark x.launch.id x.inst.course
      (setRole x (fun r => { r with atPpoint := true, ppoints := r.ppoints - 1 }) s)
  else
    tieStep x (fun s => setRole x (fun r => { r with tieWait := some (tieOf x) }) (issueTie
      ⟨kind, tieOf x, bits x.role.word 0 16, .role x.role.brick, x.launch.ctx, fld x.launch.raw 36 4⟩ s)) s

/-- TWAITGE (R322). -/
def execTwaitge (brick : Nat) (s : State) : Host.Outcome State Fault Refusal :=
  .next (match issuing s brick opTwaitge with
    | none => s
    | some x => waitStep x .waitGe s)

/-- TWAITEQ (R322). -/
def execTwaiteq (brick : Nat) (s : State) : Host.Outcome State Fault Refusal :=
  .next (match issuing s brick opTwaiteq with
    | none => s
    | some x => waitStep x .waitEq s)

/-- BARRIER (R65).
Log entry: 49 (DESIGN CHOICE). -/
def execBarrier (brick : Nat) (s : State) : Host.Outcome State Fault Refusal :=
  .next (match issuing s brick opBarrier with
    | none => s
    | some x => settleBarrier x.launch.id x.inst.course (setRole x (fun r => { r with atBarrier := true }) s))

/-! ## Address generators -/

/-- Set a field of the generator that an AGEN word names; its sequence restarts (R777). -/
def agenStep (x : Site) (f : Agen → Agen) (s : State) : State :=
  goOn x (setRole x (fun r => r.modAgen (bits r.word 22 2) (fun g => { f g with pos := 0 })) s)

/-- BASE (R65). -/
def execBase (brick : Nat) (s : State) : Host.Outcome State Fault Refusal :=
  .next (match issuing s brick opBase with
    | none => s
    | some x => agenStep x (fun g => { g with base := bits x.role.word 0 20 }) s)

/-- STRIDE (R65): signed, 20 bits. -/
def execStride (brick : Nat) (s : State) : Host.Outcome State Fault Refusal :=
  .next (match issuing s brick opStride with
    | none => s
    | some x => agenStep x (fun g => { g with
        strides := setAt g.strides (bits x.role.word 20 2) (sext (bits x.role.word 0 20) 20) }) s)

/-- COUNT (R65). -/
def execCount (brick : Nat) (s : State) : Host.Outcome State Fault Refusal :=
  .next (match issuing s brick opCount with
    | none => s
    | some x => agenStep x (fun g => { g with
        counts := setAt g.counts (bits x.role.word 20 2) (bits x.role.word 0 20 + 1) }) s)

/-- BASEP (R65): one parameter word, or two that form a 64-bit count of lines; one with any of bits [63:42] set stops
the Bond with 0x0113. -/
def execBasep (brick : Nat) (s : State) : Host.Outcome State Fault Refusal :=
  .next (match issuing s brick opBasep with
    | none => s
    | some x =>
      let i := bits x.role.word 0 4
      let p := paramWord x.launch x.inst.course
      if bit x.role.word 4 then
        let v := p i % 2 ^ 32 + p (i + 1) % 2 ^ 32 * 2 ^ 32
        if 2 ^ 42 ≤ v then boundsFault x s else agenStep x (fun g => { g with base := v }) s
      else agenStep x (fun g => { g with base := p i % 2 ^ 32 }) s)

end Sys2Proof.Machine
end

