-- ==== Sys2Proof/Machine/Trowel.lean ====
section
/-! DEFINITION. The Trowel's commands: taking and checking a launch (R70, R309, R310), staging (R73 to R75), activation
and completion (R76, R777), its budgets and watchdog (R77 to R80), resumption (R81 to R83, R261) and a link's failure
(R86). -/

namespace Sys2Proof.Machine

open Reg

/-! ## Taking a launch -/

/-- Whether the Trowel of a Course may take and start launches now: the package runs, a context that is open holds the
Course, and no switch, stop or scrub is in work there (R260, R310). -/
def trowelOpen (s : State) (c : Nat) : Bool :=
  let x := courseOf s c
  s.mode == .run && decide (c < 64) && ctxOpen s (courseCtx s c) && x.switch.isNone && !x.preempt && !x.scrub

/-- The head of the queue of one ring of a context at a Course (R309). -/
def queueHead (s : State) (ctx ring c : Nat) : Option (Launch × Inst) :=
  (instsOn s c).find? (fun x => x.1.ctx == ctx && x.1.ring == ring && x.2.phase == .queued)

/-- The next queue head that the Trowel takes, in ascending order of ring and then round (R310). -/
def nextHead (s : State) (c : Nat) : Option (Launch × Inst) :=
  (List.range 4).findSome? (fun k =>
    match queueHead s (courseCtx s c) (((courseOf s c).ringNext + k) % 4) c with
    | some x => if x.2.checked then none else some x
    | none => none)

/-- A read that the Trowel of Course c makes for a launch (step 0 of R70, R364): a refused one refuses the launch with
0x010D, an uncorrectable line stops it.
Log entry: 54 (DEDUCED). -/
def loadRead (l : Launch) (c a n : Nat) (k : List Nat → State → State) (s : State) : State :=
  let r := readMem c l.ctx a n [(l.id, 0x0711, c)] s
  if r.1 = 0 then k r.2.1 r.2.2
  else if r.1 = 0x0711 then r.2.2
  else if r.1 = 0x0712 then stopLaunch l.id c 0x0712 r.2.2
  else refuseInst l.id c 0x010D r.2.2

/-- Read bytes where there are any to read. -/
def loadReadIf (cond : Bool) (l : Launch) (c a n : Nat) (k : List Nat → State → State) (s : State) : State :=
  if cond then loadRead l c a n k s else k [] s

/-- Read a launch's image from its Bond store slot over the Course port (R56, R364, R412).
Log entries: 54 (DEDUCED), 55 (DEDUCED). -/
def loadImage (l : Launch) (c slot : Nat) (k : List Nat → State → State) (s : State) : State :=
  let size := min 131072 (max 384 (leNat ((List.range 4).map (fun i => slotByte s slot (8 + i)))))
  let r := readMem c l.ctx (slotAddr slot) size [(l.id, 0x0711, c)] s
  if r.1 = 0 then k r.2.1 r.2.2
  else if r.1 = 0x0712 then stopLaunch l.id c 0x0712 r.2.2
  else faultInst l.id c r.1 (courseDie c) c [stackIdx s (slotAddr slot) + 1] false r.2.2

/-- The parameter words of an instance (R300, R301, R171, R191, R246): those of the line, with the words that the
Trowel writes itself. -/
def launchWords (l : Launch) (img rec0 table line : List Nat) (c : Nat) : List Nat :=
  let fl := l.raw.getD 1 0
  let b := l.indexOf c
  let n := l.insts.length
  let own := (List.range 16).map (fun p => if p < imgParams img then fld line (4 * p) 4 else 0)
  let put := fun (w : List Nat) => w ++ own.drop w.length
  if bit fl 4 then put (windowWords rec0 n b)
  else if bit fl 5 then put [b, n, itemCount rec0 table, attG rec0]
  else if bit (imgFlags img) 4 then put [b, n]
  else own

/-- The status of the record that a launch names, 0 without one. -/
def recordStatus (l : Launch) (rec0 table : List Nat) : Nat :=
  let fl := l.raw.getD 1 0
  let oneDie := l.insts.all (fun i => courseDie i.course == courseDie (firstCourse l))
  if bit fl 4 then windowStatus rec0 l.insts.length oneDie
  else if bit fl 5 then attentionStatus rec0 table (fld l.raw 30 6)
  else 0

/-- Whether one Watch of the launch's context holds every Course of its set (R261). -/
def oneWatch (s : State) (l : Launch) : Bool :=
  let w := l.insts.map (fun i => (courseOf s i.course).watch)
  l.insts.all (fun i => courseCtx s i.course == l.ctx) && w.all (fun x => x.isSome && x == w.head?.getD none)

/-- The status with which the checks of a launch refuse it, 0 when it may be staged or wait: class 0x01 in the order of
R70, then the higher classes in the order of R13.
Log entry: 56 (DEDUCED). -/
def loadStatus (s : State) (l : Launch) (c : Nat) (img rec0 table line : List Nat) : Nat :=
  let own := firstStatus (imageChecks img (rd s FAB_CAPABILITY.capability) (ctxSealed s l.ctx)
    ((s.day.active.map (·.gclk)).getD 0))
  if own ≠ 0 then own
  else
    let recSt := recordStatus l rec0 table
    firstStatus
      ([(recSt == 0 && !(bit (l.raw.getD 1 0) 5 && (rolesOf img).any (attentionFieldsBad img))
          && loopParamBad img (launchWords l img rec0 table line c), 0x0109),
        (footprintBad s img l.ctx c l.id, 0x010A),
        ((placements s img c).isEmpty, 0x010B),
        (l.multi && !oneWatch s l, 0x010C)] ++ scaleChecks img ++
       [(recSt != 0 && decide (recSt < 0x0400), recSt),
        ((rolesOf img).any (attentionFieldsBad img), 0x0408),
        (recSt != 0, recSt),
        ((rolesOf img).any (tieWaitBad img), 0x0510),
        ((rolesOf img).any (hintBad img), 0x0703)])

/-- Check a launch with what it names read, then place it (R70, R75).
Log entry: 56 (DEDUCED). -/
def checkLaunch (l : Launch) (c : Nat) (rec0 table line img : List Nat) (s : State) : State :=
  let st := loadStatus s l c img rec0 table line
  if st ≠ 0 then refuseInst l.id c st s
  else
    let s1 := modInst l.id c (fun i => { i with
        params := launchWords l img rec0 table line c, record := rec0, table := table, checked := true })
      (modLaunch l.id (fun x => { x with image := img }) s)
    match launchOf s1 l.id with
    | some l1 => tryStage l1 c s1
    | none => s1

/-- Step 0 and step 1 of R70, then the rest. -/
def takeLaunch (l : Launch) (c : Nat) (s : State) : State :=
  let fl := l.raw.getD 1 0
  let recAddr := fld l.raw 30 6
  loadReadIf (fld l.raw 24 6 != 0) l c (fld l.raw 24 6) 64 (fun line s =>
    loadReadIf (bit fl 4 || bit fl 5) l c recAddr 64 (fun rec0 s =>
      loadReadIf (bit fl 5 && fld rec0 12 2 != 0) l c (fld rec0 24 6) (32 * fld rec0 12 2) (fun table s =>
        match handleSlot s l.ctx (fld l.raw 4 4) with
        | none => refuseInst l.id c 0x0101 s
        | some slot => loadImage l c slot (checkLaunch l c rec0 table line) s) s) s) s

/-- TROWEL_FETCH_LAUNCH (R70). A Course whose Bricks are all fenced refuses every launch (R88).
Log entry: 53 (DEDUCED). -/
def execTrowelFetchLaunch (course : Nat) (s : State) : Host.Outcome State Fault Refusal :=
  .next (if trowelOpen s course then
    match nextHead s course with
    | none => s
    | some x =>
      let s1 := restartWdog course (modCourse course (fun y => { y with ringNext := (x.1.ring + 1) % 4 }) s)
      if rdB s1 TRW_COURSE_STATE.course_fenced (atCourse course 0x100) then refuseInst x.1.id course 0x010B s1
      else takeLaunch x.1 course s1
    else s)

/-! ## Staging and activation -/

/-- Whether a waiting launch's search now has an outcome other than waiting (R75). -/
def searchSettles (s : State) (x : Launch × Inst) (c : Nat) : Bool :=
  let ps := placements s x.1.image c
  x.2.checked && (ps.isEmpty || (firstPlace s ps).isSome)

/-- LAUNCH_STAGE (R75): the first waiting queue head, in the order of R310, whose search now finds a placement or none
that fits. -/
def execLaunchStage (course : Nat) (s : State) : Host.Outcome State Fault Refusal :=
  .next (if trowelOpen s course then
    match (List.range 4).findSome? (fun k =>
      match queueHead s (courseCtx s course) (((courseOf s course).ringNext + k) % 4) course with
      | some x => if searchSettles s x course then some x.1 else none
      | none => none) with
    | some l => tryStage l course s
    | none => s
    else s)

/-- The role that role k of an image becomes at activation (R776, R777).
Log entry: 51 (DESIGN CHOICE). -/
def newRole (img : List Nat) (k brick : Nat) : Role :=
  { brick := brick
    program := programOf img k
    agens := (List.range 4).map (fun g => agenOf (agenRec (agenBytes img k) g))
    streamers := streamerBytes img k
    laneTable := (sectionBytes img k 4).getD [] }

/-- STAGING_COMPLETE (R74): the sections have streamed in, and their CRCs are checked again (step 4 of R70).
Log entry: 55 (DEDUCED). -/
def execStagingComplete (launch course : Nat) (s : State) : Host.Outcome State Fault Refusal :=
  .next (match launchOf s launch, instOf s launch course with
    | some l, some i =>
      if i.phase = .staging then
        loadImage l course (fld l.raw 4 4 % 4096) (fun img s =>
          if imageOk img then modInst launch course (fun i => { i with phase := .staged })
            (modLaunch launch (fun x => { x with image := img }) s)
          else refuseInst launch course 0x0104 s) s
      else s
    | _, _ => s)

/-- Whether no role still runs on a Brick. -/
def brickFree (s : State) (b : Nat) : Bool :=
  match siteOf s b with
  | some x => x.role.halted
  | none => true

/-- Whether every Course of a launch's set has accepted it (R62): a Course that still loads it may refuse it. -/
def Launch.accepted (l : Launch) : Bool :=
  l.insts.all (fun i => i.phase != .queued && i.phase != .staging && i.phase != .refused)

/-- Activate an instance (R73, R76): its roles start together, and its placement is the Course's previous one (R60). -/
def activate (l : Launch) (i : Inst) (s : State) : State :=
  let roles := ((List.range i.bricks.length).zip i.bricks).map (fun e => newRole l.image e.1 e.2)
  refreshCourse i.course (restartWdog i.course
    (modCourse i.course (fun x => { x with prev := some (i.origin, i.transform), owner := l.ctx })
      (modInst l.id i.course (fun i => { i with phase := .active, roles := roles, cycles := 0 }) s)))

/-- BOND_ACTIVATE (R73, R76). -/
def execBondActivate (launch course : Nat) (s : State) : Host.Outcome State Fault Refusal :=
  .next (match launchOf s launch, instOf s launch course with
    | some l, some i =>
      if i.phase = .staged ∧ l.accepted ∧ trowelOpen s course ∧ courseCtx s course = l.ctx ∧ i.bricks.all (brickFree s)
      then activate l i s else s
    | _, _ => s)

/-- INSTANCE_COMPLETE (R76): every role has executed HALT; the launch completes with its last instance (R316). -/
def execInstanceComplete (launch course : Nat) (s : State) : Host.Outcome State Fault Refusal :=
  .next (match instOf s launch course with
    | none => s
    | some i =>
      if i.phase = .active ∧ i.roles.all (·.halted) then
        let s1 := refreshCourse course (restartWdog course
          (modInst launch course (fun i => { i with phase := .done, status := 0 }) s))
        match launchOf s1 launch with
        | some l => if l.insts.all (fun i => i.phase == .done) then completeLaunch l s1 else s1
        | none => s1
      else s)

/-! ## Budgets, watchdog and heartbeat -/

/-- Whether a role's cycles count towards its instance's budget now: it runs, and no Tie blocks it (R77).
Log entry: 71 (DESIGN CHOICE). -/
def Role.counts (x : Role) : Bool := !x.halted && !x.atPpoint && x.tieWait.isNone

/-- WCET_EXCEEDED (R78): the count has passed the budget. `cycles` holds the cycles that the spec fixes; bank conflicts,
waits and instructions whose length is not stated take more (R77), so an instance with a running role may be past its
budget at any moment, and the command says that it is.
Log entry: 71 (DESIGN CHOICE). -/
def execWcetExceeded (launch course : Nat) (s : State) : Host.Outcome State Fault Refusal :=
  .next (match launchOf s launch, instOf s launch course with
    | some l, some i =>
      if i.phase = .active ∧ (imgWcet l.image < i.cycles ∨ i.roles.any Role.counts) then
        faultInst launch course 0x0110 (courseDie course) ((i.roles.head?.map (·.brick)).getD 0) [] true s
      else s
    | _, _ => s)

/-- Whether an instance is a Bond on its Course: staged, active or preempted there. -/
def Inst.onCourse (i : Inst) : Bool :=
  i.phase == .staging || i.phase == .staged || i.phase == .active || i.phase == .preempted

/-- COURSE_WATCHDOG_EXPIRY (R79): at its deadline, every Bond on the Course stops and the context that holds the
Course, or whose state lies there, is torn down.
Log entry: 52 (DEDUCED). -/
def execCourseWatchdogExpiry (course : Nat) (s : State) : Host.Outcome State Fault Refusal :=
  .next (match (courseOf s course).wdogAt with
    | none => s
    | some t =>
      let holder := if courseCtx s course < 64 then courseCtx s course else (courseOf s course).owner
      let run := (instsOn s course).filter (fun x => x.2.onCourse)
      let s1 := modCourse course (fun y => { y with wdogAt := none }) (passTo t s)
      let s2 := run.foldl (fun s y => event 0x0111 (courseDie course) y.1.ctx course 1 [] s) s1
      teardown holder 0x0111 (run.map (fun y => (y.1.id, 0x0111, course))) s2)

/-- TROWEL_HEARTBEAT (R80): the Course, its context and its count of completions, to both islands over its die's island
links; an island that is down, or whose link to the die is lost, hears nothing. -/
def execTrowelHeartbeat (course : Nat) (s : State) : Host.Outcome State Fault Refusal :=
  .next (if s.mode = .run ∧ course < 64 then
      [5, 6].foldl (fun s i =>
        if watching s i && !(islandOf s i).lost.contains (courseDie course) then heardAt i course s else s)
        (send .trowelHeartbeat [course, courseCtx s course, (courseOf s course).completions] s)
    else s)

/-! ## Resumption -/

/-- Whether a Brick of a preempted instance has been fenced, or reserved by another, meanwhile (R83). -/
def brickLost (s : State) (id b : Nat) : Bool :=
  fenced s b || (instsOn s (brickCourse b)).any (fun x => x.1.id != id &&
    ((x.2.phase == .preempted && x.2.bricks.contains b) || (x.1.multi && stagedOn x.2 b)))

/-- Restart the roles of a preempted instance at the instruction after their PPOINT (R81); a Tie wait that stood there
runs again from the start (R267). -/
def resumeInst (id : Nat) (s : State) (i : Inst) : State :=
  refreshCourse i.course (restartWdog i.course (modInst id i.course (fun i => { i with
    phase := .active,
    roles := i.roles.map (fun r => if r.atPpoint then { r with atPpoint := false, ppoints := r.ppoints + 1 } else r) }) s))

/-- INSTANCE_RESUME (R81, R83, R261): the preempted instances of a launch resume together on their own Bricks; where one
of these is fenced or reserved the launch completes with 0x010B, which TRW_REFUSE_COUNT does not count.
Log entry: 53 (DEDUCED). -/
def execInstanceResume (launch : Nat) (s : State) : Host.Outcome State Fault Refusal :=
  .next (match launchOf s launch with
    | none => s
    | some l =>
      let held := l.insts.filter (fun i => i.phase == .preempted)
      if held.isEmpty ∨ !held.all (fun i => trowelOpen s i.course && courseCtx s i.course == l.ctx)
        ∨ (l.multi ∧ !oneWatch s l) then s
      else match held.find? (fun i => i.bricks.any (brickLost s launch)) with
        | some i => stopLaunch launch i.course 0x010B s
        | none => held.foldl (resumeInst launch) s)

/-! ## A link's failure -/

/-- Whether the Bond of an instance uses a neighbour link of its Course.
Log entry: 74 (DESIGN CHOICE). -/
def usesLink (l : Launch) (i : Inst) (link : Nat) : Bool :=
  (List.range 24).any (fun k => bit (imgLinks l.image) k &&
    (match placeCell l.image i.origin i.transform (linkEnds k).1, placeCell l.image i.origin i.transform (linkEnds k).2 with
     | some a, some b => linkBetween a b == link
     | _, _ => false))

/-- NEIGHBOUR_LINK_FAILURE (R86): the link is fenced, and the instance that uses it stops with 0x0114; a launch staged
across it stays staged.
Log entry: 74 (DESIGN CHOICE). -/
def execNeighbourLinkFailure (course link : Nat) (s : State) : Host.Outcome State Fault Refusal :=
  .next (if course < 64 ∧ link < 24 ∧ !bit (rd s TRW_LINK_FENCE.link_fenced (atCourse course 0x100)) link then
    let s1 := fenceLink course link s
    ((instsOn s1 course).filter (fun x => x.2.phase == .active && usesLink x.1 x.2 link)).foldl (fun s x =>
      faultInst x.1.id course 0x0114 (courseDie course) (course * 16 + (linkEnds link).1)
        [if link < 12 then 1 else 2] true s) s1
    else s)

end Sys2Proof.Machine
end

