-- ==== Sys2Proof/Machine/Dispatch.lean ====
section
/-! DEFINITION. The meaning of every command, one arm per constructor. -/

namespace Sys2Proof.Machine

def exec (i : Instr) (s : State) : Host.Outcome State Fault Refusal :=
  match i with
  | .dialSyncMessage reference => Sys2Proof.Machine.execDialSyncMessage reference s
  | .dialHoldover => Sys2Proof.Machine.execDialHoldover s
  | .nightwatchTick => Sys2Proof.Machine.execNightwatchTick s
  | .dialNowRead port wide high => Sys2Proof.Machine.execDialNowRead port wide high s
  | .nwtCommit value => Sys2Proof.Machine.execNwtCommit value s
  | .pcieLinkUp => Sys2Proof.Machine.execPcieLinkUp s
  | .pcieLinkDown => Sys2Proof.Machine.execPcieLinkDown s
  | .perstAssert samples => Sys2Proof.Machine.execPerstAssert samples s
  | .nop brick => Sys2Proof.Machine.execNop brick s
  | .halt brick => Sys2Proof.Machine.execHalt brick s
  | .jump brick => Sys2Proof.Machine.execJump brick s
  | .loop brick => Sys2Proof.Machine.execLoop brick s
  | .loopp brick => Sys2Proof.Machine.execLoopp brick s
  | .ppoint brick => Sys2Proof.Machine.execPpoint brick s
  | .wait brick => Sys2Proof.Machine.execWait brick s
  | .mma brick upset => Sys2Proof.Machine.execMma brick upset s
  | .drain brick => Sys2Proof.Machine.execDrain brick s
  | .unary brick upset => Sys2Proof.Machine.execUnary brick upset s
  | .binary brick upset => Sys2Proof.Machine.execBinary brick upset s
  | .reduce brick upset => Sys2Proof.Machine.execReduce brick upset s
  | .convert brick upset => Sys2Proof.Machine.execConvert brick upset s
  | .copy brick upset => Sys2Proof.Machine.execCopy brick upset s
  | .copyg brick upset => Sys2Proof.Machine.execCopyg brick upset s
  | .quant brick upset => Sys2Proof.Machine.execQuant brick upset s
  | .nsig brick => Sys2Proof.Machine.execNsig brick s
  | .nwait brick => Sys2Proof.Machine.execNwait brick s
  | .tsig brick => Sys2Proof.Machine.execTsig brick s
  | .twaitge brick => Sys2Proof.Machine.execTwaitge brick s
  | .twaiteq brick => Sys2Proof.Machine.execTwaiteq brick s
  | .barrier brick => Sys2Proof.Machine.execBarrier brick s
  | .groutchk brick => Sys2Proof.Machine.execGroutchk brick s
  | .base brick => Sys2Proof.Machine.execBase brick s
  | .stride brick => Sys2Proof.Machine.execStride brick s
  | .count brick => Sys2Proof.Machine.execCount brick s
  | .basep brick => Sys2Proof.Machine.execBasep brick s
  | .trowelFetchLaunch course => Sys2Proof.Machine.execTrowelFetchLaunch course s
  | .launchStage course => Sys2Proof.Machine.execLaunchStage course s
  | .stagingComplete launch course => Sys2Proof.Machine.execStagingComplete launch course s
  | .bondActivate launch course => Sys2Proof.Machine.execBondActivate launch course s
  | .instanceComplete launch course => Sys2Proof.Machine.execInstanceComplete launch course s
  | .wcetExceeded launch course => Sys2Proof.Machine.execWcetExceeded launch course s
  | .courseWatchdogExpiry course => Sys2Proof.Machine.execCourseWatchdogExpiry course s
  | .trowelHeartbeat course => Sys2Proof.Machine.execTrowelHeartbeat course s
  | .instanceResume launch => Sys2Proof.Machine.execInstanceResume launch s
  | .neighbourLinkFailure course link => Sys2Proof.Machine.execNeighbourLinkFailure course link s
  | .trwCommit course value => Sys2Proof.Machine.execTrwCommit course value s
  | .rcCounterRead port addr width => Sys2Proof.Machine.execRcCounterRead port addr width s
  | .registerWrite port addr width value => Sys2Proof.Machine.execRegisterWrite port addr width value s
  | .sieveJobAccept => Sys2Proof.Machine.execSieveJobAccept s
  | .sieveJobStart => Sys2Proof.Machine.execSieveJobStart s
  | .sieveJobComplete => Sys2Proof.Machine.execSieveJobComplete s
  | .sieveInternalFault => Sys2Proof.Machine.execSieveInternalFault s
  | .dayCommit value => Sys2Proof.Machine.execDayCommit value s
  | .dayCommitComplete => Sys2Proof.Machine.execDayCommitComplete s
  | .planTakeover => Sys2Proof.Machine.execPlanTakeover s
  | .periodBoundary => Sys2Proof.Machine.execPeriodBoundary s
  | .watchEnd watch => Sys2Proof.Machine.execWatchEnd watch s
  | .switchComplete course => Sys2Proof.Machine.execSwitchComplete course s
  | .watchStart watch course => Sys2Proof.Machine.execWatchStart watch course s
  | .watchOverrunExpiry course => Sys2Proof.Machine.execWatchOverrunExpiry course s
  | .brickTestComplete brick pass packId pattern => Sys2Proof.Machine.execBrickTestComplete brick pass packId pattern s
  | .brickTestOverdue brick => Sys2Proof.Machine.execBrickTestOverdue brick s
  | .teardownScrubComplete ctx => Sys2Proof.Machine.execTeardownScrubComplete ctx s
  | .doorbellWrite ctx ring => Sys2Proof.Machine.execDoorbellWrite ctx ring s
  | .doorbellPoll ctx ring => Sys2Proof.Machine.execDoorbellPoll ctx ring s
  | .launch ctx ring => Sys2Proof.Machine.execLaunch ctx ring s
  | .sieve ctx ring => Sys2Proof.Machine.execSieve ctx ring s
  | .fence ctx ring => Sys2Proof.Machine.execFence ctx ring s
  | .fenceRelease ctx ring => Sys2Proof.Machine.execFenceRelease ctx ring s
  | .tieSignal ctx ring => Sys2Proof.Machine.execTieSignal ctx ring s
  | .tieWait ctx ring => Sys2Proof.Machine.execTieWait ctx ring s
  | .tieReset ctx ring => Sys2Proof.Machine.execTieReset ctx ring s
  | .bondRegister ctx ring => Sys2Proof.Machine.execBondRegister ctx ring s
  | .bondRegisterComplete ctx ring => Sys2Proof.Machine.execBondRegisterComplete ctx ring s
  | .bondRelease ctx ring => Sys2Proof.Machine.execBondRelease ctx ring s
  | .bondReleaseComplete ctx ring => Sys2Proof.Machine.execBondReleaseComplete ctx ring s
  | .tieOperation home sender => Sys2Proof.Machine.execTieOperation home sender s
  | .tieRelease die tie => Sys2Proof.Machine.execTieRelease die tie s
  | .tieWaitTimeout sender => Sys2Proof.Machine.execTieWaitTimeout sender s
  | .ringRestart ctx rings => Sys2Proof.Machine.execRingRestart ctx rings s
  | .contextTeardownRequest ctx => Sys2Proof.Machine.execContextTeardownRequest ctx s
  | .contextOpen ctx value => Sys2Proof.Machine.execContextOpen ctx value s
  | .contextClose ctx value => Sys2Proof.Machine.execContextClose ctx value s
  | .hstCommit value => Sys2Proof.Machine.execHstCommit value s
  | .memoryRead port ctx addr len upset => Sys2Proof.Machine.execMemoryRead port ctx addr len upset s
  | .memoryWrite port ctx addr data upset => Sys2Proof.Machine.execMemoryWrite port ctx addr data upset s
  | .writeQueueDrain stack pc => Sys2Proof.Machine.execWriteQueueDrain stack pc s
  | .patrolScrub stack upset => Sys2Proof.Machine.execPatrolScrub stack upset s
  | .refresh stack pc bank => Sys2Proof.Machine.execRefresh stack pc bank s
  | .retrainRoundStart stack => Sys2Proof.Machine.execRetrainRoundStart stack s
  | .retrainPairDone stack okLow okHigh => Sys2Proof.Machine.execRetrainPairDone stack okLow okHigh s
  | .stackTempRead stack temp => Sys2Proof.Machine.execStackTempRead stack temp s
  | .hbmMapCommit value => Sys2Proof.Machine.execHbmMapCommit value s
  | .mapCommitComplete => Sys2Proof.Machine.execMapCommitComplete s
  | .hbmShareCommit value => Sys2Proof.Machine.execHbmShareCommit value s
  | .plbCommit value => Sys2Proof.Machine.execPlbCommit value s
  | .hbmCommit stack value => Sys2Proof.Machine.execHbmCommit stack value s
  | .flitReceive die port flit garbled parity badEye => Sys2Proof.Machine.execFlitReceive die port flit garbled parity badEye s
  | .replayRequest die port seq => Sys2Proof.Machine.execReplayRequest die port seq s
  | .laneRepairMessage die port epoch lane replacement boundary => Sys2Proof.Machine.execLaneRepairMessage die port epoch lane replacement boundary s
  | .portRetrain die port => Sys2Proof.Machine.execPortRetrain die port s
  | .trainingProposal die port epoch width map peerDie peerPort => Sys2Proof.Machine.execTrainingProposal die port epoch width map peerDie peerPort s
  | .framingCheckEnd die port passed => Sys2Proof.Machine.execFramingCheckEnd die port passed s
  | .trainingReady die port epoch width => Sys2Proof.Machine.execTrainingReady die port epoch width s
  | .sidebandSilent die port failed => Sys2Proof.Machine.execSidebandSilent die port failed s
  | .mtrLoopbackCommit die value => Sys2Proof.Machine.execMtrLoopbackCommit die value s
  | .loopbackTestEnd die port errors => Sys2Proof.Machine.execLoopbackTestEnd die port errors s
  | .mtrCommit die value => Sys2Proof.Machine.execMtrCommit die value s
  | .budgetGrantPeriod => Sys2Proof.Machine.execBudgetGrantPeriod s
  | .budgetGrant die => Sys2Proof.Machine.execBudgetGrant die s
  | .budgetReport die => Sys2Proof.Machine.execBudgetReport die s
  | .grantTimeout die => Sys2Proof.Machine.execGrantTimeout die s
  | .reportTimeout die => Sys2Proof.Machine.execReportTimeout die s
  | .powerAgentSample die amps core hbm => Sys2Proof.Machine.execPowerAgentSample die amps core hbm s
  | .csiPacket port vc dataType ecc crcOk payload => Sys2Proof.Machine.execCsiPacket port vc dataType ecc crcOk payload s
  | .frameStart stream vc ecc => Sys2Proof.Machine.execFrameStart stream vc ecc s
  | .frameEnd stream vc ecc => Sys2Proof.Machine.execFrameEnd stream vc ecc s
  | .framePublish stream => Sys2Proof.Machine.execFramePublish stream s
  | .frameStale stream => Sys2Proof.Machine.execFrameStale stream s
  | .sensorSilent stream => Sys2Proof.Machine.execSensorSilent stream s
  | .camStreamCommit stream value => Sys2Proof.Machine.execCamStreamCommit stream value s
  | .camMacCommit mac value => Sys2Proof.Machine.execCamMacCommit mac value s
  | .ethFrameReceive mac fcsOk frame => Sys2Proof.Machine.execEthFrameReceive mac fcsOk frame s
  | .ethFrameTransmit mac => Sys2Proof.Machine.execEthFrameTransmit mac s
  | .batchSweepTimeout stream => Sys2Proof.Machine.execBatchSweepTimeout stream s
  | .decStreamCommit stream value => Sys2Proof.Machine.execDecStreamCommit stream value s
  | .decSamplerCommit sampler value => Sys2Proof.Machine.execDecSamplerCommit sampler value s
  | .chunkDoorbell stream => Sys2Proof.Machine.execChunkDoorbell stream s
  | .sliceComplete engine report => Sys2Proof.Machine.execSliceComplete engine report s
  | .decodeBudgetExpiry engine => Sys2Proof.Machine.execDecodeBudgetExpiry engine s
  | .manifestWrite sampler => Sys2Proof.Machine.execManifestWrite sampler s
  | .merCommit value => Sys2Proof.Machine.execMerCommit value s
  | .merInstall value => Sys2Proof.Machine.execMerInstall value s
  | .cycleClose => Sys2Proof.Machine.execCycleClose s
  | .fusionOutputComplete => Sys2Proof.Machine.execFusionOutputComplete s
  | .trackerStart => Sys2Proof.Machine.execTrackerStart s
  | .trackOutputComplete => Sys2Proof.Machine.execTrackOutputComplete s
  | .calibrationAnswer install => Sys2Proof.Machine.execCalibrationAnswer install s
  | .proposalTimeout install => Sys2Proof.Machine.execProposalTimeout install s
  | .meridianHeartbeat => Sys2Proof.Machine.execMeridianHeartbeat s
  | .meridianInternalFault => Sys2Proof.Machine.execMeridianInternalFault s
  | .replayOutcome brick hostPass upset => Sys2Proof.Machine.execReplayOutcome brick hostPass upset s
  | .packInstall value => Sys2Proof.Machine.execPackInstall value s
  | .packRemove value => Sys2Proof.Machine.execPackRemove value s
  | .packCommitComplete => Sys2Proof.Machine.execPackCommitComplete s
  | .fabCtxCommit ctx value => Sys2Proof.Machine.execFabCtxCommit ctx value s
  | .railSample island rail mv => Sys2Proof.Machine.execRailSample island rail mv s
  | .pllCheckWindow island pll errorPpm edges => Sys2Proof.Machine.execPllCheckWindow island pll errorPpm edges s
  | .junctionRead die a b => Sys2Proof.Machine.execJunctionRead die a b s
  | .heartbeatTimeout island source => Sys2Proof.Machine.execHeartbeatTimeout island source s
  | .islandHeartbeat island => Sys2Proof.Machine.execIslandHeartbeat island s
  | .hearthHeartbeat => Sys2Proof.Machine.execHearthHeartbeat s
  | .islandLinkLost island die crc => Sys2Proof.Machine.execIslandLinkLost island die crc s
  | .forwardedEvent island => Sys2Proof.Machine.execForwardedEvent island s
  | .safeStateMessage island => Sys2Proof.Machine.execSafeStateMessage island s
  | .silentCommand die => Sys2Proof.Machine.execSilentCommand die s
  | .islandSelfReset island why => Sys2Proof.Machine.execIslandSelfReset island why s
  | .islandRestartComplete island verified => Sys2Proof.Machine.execIslandRestartComplete island verified s
  | .ssOutputPhase island => Sys2Proof.Machine.execSsOutputPhase island s
  | .mailboxDegraded port island => Sys2Proof.Machine.execMailboxDegraded port island s
  | .mailboxSilent port island => Sys2Proof.Machine.execMailboxSilent port island s
  | .calibrationProposal island => Sys2Proof.Machine.execCalibrationProposal island s
  | .installationProposal island => Sys2Proof.Machine.execInstallationProposal island s
  | .ouvurHeartbeatSend => Sys2Proof.Machine.execOuvurHeartbeatSend s
  | .ouvurHeartbeat port head t3 t4 depth => Sys2Proof.Machine.execOuvurHeartbeat port head t3 t4 depth s
  | .heartbeatMissInterval port => Sys2Proof.Machine.execHeartbeatMissInterval port s
  | .suspicionReport port head suspect reporter epoch => Sys2Proof.Machine.execSuspicionReport port head suspect reporter epoch s
  | .settleWindowEnd => Sys2Proof.Machine.execSettleWindowEnd s
  | .ouvurProposal port head epoch coord members => Sys2Proof.Machine.execOuvurProposal port head epoch coord members s
  | .acknowledgement port head epoch coord acked => Sys2Proof.Machine.execAcknowledgement port head epoch coord acked s
  | .ouvurCommit port head epoch coord members => Sys2Proof.Machine.execOuvurCommit port head epoch coord members s
  | .exclusionNotice port head => Sys2Proof.Machine.execExclusionNotice port head s
  | .noQuorumTimeout => Sys2Proof.Machine.execNoQuorumTimeout s
  | .rejoinReady => Sys2Proof.Machine.execRejoinReady s
  | .ouvurLinkRetrain port works identity => Sys2Proof.Machine.execOuvurLinkRetrain port works identity s
  | .linkKeyRenewal port works identity => Sys2Proof.Machine.execLinkKeyRenewal port works identity s
  | .ouvurData port head ctx data => Sys2Proof.Machine.execOuvurData port head ctx data s
  | .ouvurReady port head ctx group tag => Sys2Proof.Machine.execOuvurReady port head ctx group tag s
  | .allReduce ctx => Sys2Proof.Machine.execAllReduce ctx s
  | .allGather ctx => Sys2Proof.Machine.execAllGather ctx s
  | .broadcast ctx => Sys2Proof.Machine.execBroadcast ctx s
  | .send ctx => Sys2Proof.Machine.execSend ctx s
  | .receive ctx => Sys2Proof.Machine.execReceive ctx s
  | .mirror ctx => Sys2Proof.Machine.execMirror ctx s
  | .refill ctx => Sys2Proof.Machine.execRefill ctx s
  | .transferTimeout ctx => Sys2Proof.Machine.execTransferTimeout ctx s
  | .drillEnd => Sys2Proof.Machine.execDrillEnd s
  | .ovrCommit value => Sys2Proof.Machine.execOvrCommit value s
  | .ovrRejoin value => Sys2Proof.Machine.execOvrRejoin value s
  | .ovrQCommit ctx value => Sys2Proof.Machine.execOvrQCommit ctx value s
  | .courseRetain course => Sys2Proof.Machine.execCourseRetain course s
  | .courseOff course => Sys2Proof.Machine.execCourseOff course s
  | .courseWake course => Sys2Proof.Machine.execCourseWake course s
  | .pwrCommit value => Sys2Proof.Machine.execPwrCommit value s
  | .forecastPost seq => Sys2Proof.Machine.execForecastPost seq s
  | .forecastStale => Sys2Proof.Machine.execForecastStale s
  | .thermistorSample tinA tinB toutA toutB => Sys2Proof.Machine.execThermistorSample tinA tinB toutA toutB s
  | .flowPulse input samples => Sys2Proof.Machine.execFlowPulse input samples s
  | .flowMeasure => Sys2Proof.Machine.execFlowMeasure s
  | .calorimetricCheck hearth => Sys2Proof.Machine.execCalorimetricCheck hearth s
  | .coolReqUpdate => Sys2Proof.Machine.execCoolReqUpdate s
  | .thermalTrip => Sys2Proof.Machine.execThermalTrip s
  | .thermalTripRelease => Sys2Proof.Machine.execThermalTripRelease s
  | .provisionInstallerSlot value => Sys2Proof.Machine.execProvisionInstallerSlot value s
  | .revokeInstallerSlot value => Sys2Proof.Machine.execRevokeInstallerSlot value s
  | .provisionOperatorSlot value => Sys2Proof.Machine.execProvisionOperatorSlot value s
  | .revokeOperatorSlot value => Sys2Proof.Machine.execRevokeOperatorSlot value s
  | .debugUnlock value => Sys2Proof.Machine.execDebugUnlock value s
  | .debugHalfExpiry => Sys2Proof.Machine.execDebugHalfExpiry s
  | .retestBricks value => Sys2Proof.Machine.execRetestBricks value s
  | .drill value => Sys2Proof.Machine.execDrill value s
  | .raiseFirmwareMinimum value => Sys2Proof.Machine.execRaiseFirmwareMinimum value s
  | .raisePolicyMinimum value => Sys2Proof.Machine.execRaisePolicyMinimum value s
  | .policyRegister value => Sys2Proof.Machine.execPolicyRegister value s
  | .policyRelease value => Sys2Proof.Machine.execPolicyRelease value s
  | .attestationReport value => Sys2Proof.Machine.execAttestationReport value s
  | .copyRecord value => Sys2Proof.Machine.execCopyRecord value s
  | .copyCertificateChain value => Sys2Proof.Machine.execCopyCertificateChain value s
  | .recordWriteBack => Sys2Proof.Machine.execRecordWriteBack s
  | .keystoneInternalFault => Sys2Proof.Machine.execKeystoneInternalFault s
  | .pwrGoodRise straps samples => Sys2Proof.Machine.execPwrGoodRise straps samples s
  | .pwrGoodFall samples => Sys2Proof.Machine.execPwrGoodFall samples s
  | .warmRstFall samples => Sys2Proof.Machine.execWarmRstFall samples s
  | .wakeNFall samples => Sys2Proof.Machine.execWakeNFall samples s
  | .dialAlarm => Sys2Proof.Machine.execDialAlarm s
  | .inputStuck input => Sys2Proof.Machine.execInputStuck input s
  | .resetWarm value => Sys2Proof.Machine.execResetWarm value s
  | .resetCold value straps => Sys2Proof.Machine.execResetCold value straps s
  | .resetPartial value => Sys2Proof.Machine.execResetPartial value s
  | .dawnComplete report => Sys2Proof.Machine.execDawnComplete report s
  | .partialResetComplete passed ms => Sys2Proof.Machine.execPartialResetComplete passed ms s
  | .night value => Sys2Proof.Machine.execNight value s
  | .deepNight value => Sys2Proof.Machine.execDeepNight value s
  | .nightEntryComplete => Sys2Proof.Machine.execNightEntryComplete s
  | .nightExitComplete => Sys2Proof.Machine.execNightExitComplete s
  | .nightwatchHeartbeat => Sys2Proof.Machine.execNightwatchHeartbeat s
  | .nwtInputCommit value => Sys2Proof.Machine.execNwtInputCommit value s
  | .retrainPairStart stack => Sys2Proof.Machine.execRetrainPairStart stack s
  | .laneMeasurementComplete die port good => Sys2Proof.Machine.execLaneMeasurementComplete die port good s
  | .framingLoss die port => Sys2Proof.Machine.execFramingLoss die port s
  | .ouvurLinkDown port => Sys2Proof.Machine.execOuvurLinkDown port s
  | .ouvurRetransmitRequest port seq => Sys2Proof.Machine.execOuvurRetransmitRequest port seq s
  | .islandResetAssert island => Sys2Proof.Machine.execIslandResetAssert island s
  | .islandResetRelease island verified => Sys2Proof.Machine.execIslandResetRelease island verified s
  | .warmRstRise samples => Sys2Proof.Machine.execWarmRstRise samples s
  | .nightwatchSupplyUp => Sys2Proof.Machine.execNightwatchSupplyUp s
  | .nightwatchSupplyLoss => Sys2Proof.Machine.execNightwatchSupplyLoss s
  | .perstDeassert samples => Sys2Proof.Machine.execPerstDeassert samples s
  | .peerApproval island => Sys2Proof.Machine.execPeerApproval island s

end Sys2Proof.Machine
end

