-- ==== Sys2Proof/Machine/Step.lean ====
section
/-! DEFINITION. One step of the block: the command at the front of the queue, or, where none waits, the passing of one
nanosecond of the slewed count. -/

namespace Sys2Proof.Machine

/-- What happens when no command waits: in run, Dawn and the ways into and out of Night, one nanosecond passes (R32);
in every other mode nothing does, since Night advances Dial time by its own tick (R34).
Log entry: 1 (DESIGN CHOICE). -/
def idle (s : State) : State :=
  match s.mode with
  | .dawn | .run | .nightEntry | .nightExit => pass 1 s
  | .unpowered | .night | .deepNight | .stopped => s

/-- Take the command at the front of the queue and run it on the state with the queue's rest; idle on an empty queue.
Log entries: 1 (DESIGN CHOICE), 2 (DESIGN CHOICE), 177 (DESIGN CHOICE), 178 (DESIGN CHOICE). -/
def step (s : State) : Host.Outcome State Fault Refusal :=
  match s.pending with
  | [] => .next (idle s)
  | c :: rest => exec c { s with pending := rest }

/-- Put the command that a word of the command table spells at the front of the queue.
Log entry: 2 (DESIGN CHOICE). -/
def State.withFetchWord (s : State) (nbits w : Nat) : State :=
  match decodeTableWord nbits w with
  | some c => { s with pending := c :: s.pending }
  | none => s

end Sys2Proof.Machine
end

