-- ==== Sys2Proof/Safety.lean ====
section
/-! DEFINITION. What counts as a safe run, and the invariants that the statements are about. -/

namespace Sys2Proof.Machine

/-- Both byte tables of memory are in their canonical form: addresses strictly rising, and no entry equal to what an
unlisted address reads as. -/
def MemState.wf (m : MemState) : Bool := awf (fun _ => (0 : Byte)) m.cells && awf Config.hostByte m.ext

/-- The invariant of every run: memory is in its canonical form. -/
def Inv (s : State) : Prop := s.mem.wf = true

/-- A run of n steps from a state that meets no fault and no refusal. -/
def SafeRun : Nat → State → Prop
  | 0, _ => True
  | n + 1, s => match step s with
    | .next t => SafeRun n t
    | .fault _ => False
    | .refused _ => False

/-- The instance of a site as it now stands. -/
def instAt (s : State) (x : Site) : Option Inst := instOf s x.launch.id x.inst.course

/-- The role of a site as it now stands. -/
def roleAt (s : State) (x : Site) : Option Role := (instAt s x).bind (fun i => i.roles[x.k]?)

end Sys2Proof.Machine
end

