-- ==== Sys2Proof/Certificates/Slice0/Obligations.lean ====
section
/-! DEFINITION. The statements for the provers, one definition each. The docstring of each says what it states and the
rules of the spec that it comes from. -/

section

open Sys2Proof Sys2Proof.Machine Sys2Proof.Machine.Reg

/-- While an Ethernet source is selected in run, a sync message whose reference is more than 1 ms ahead makes Dial time
the reference, sets stepped and clears ahead_of_ref; one more than 1 ms behind leaves Dial time, sets ahead_of_ref and
sets the rate correction to slew_limit_ppm downward; any other leaves Dial time, clears ahead_of_ref and takes a rate
correction of at most slew_limit_ppm. The slewed count on which timers run stays in each case, and offset_ns holds the
offset, saturated. Where it goes beyond the words of the rules it rests on the model's own readings, log entry 20.
(R31, R32, R38) -/
def Obligations.DialFollowsItsSource : Prop :=
  ∀ (s : State) (r : Nat), 1 ≤ com s NWT_DIAL_CTRL.source_sel → com s NWT_DIAL_CTRL.source_sel ≤ 4 → s.mode = .run →
    r < 2 ^ 64 →
    ∃ t, exec (.dialSyncMessage r) s = .next t ∧ now t = now s ∧
      rd t NWT_DIAL_OFFSET.offset_ns = offsetCode ((r : Int) - dial s) ∧
      (dial s + 1000000 < r → dial t = r ∧ rdB t NWT_DIAL_STATUS.stepped ∧ rdB t NWT_DIAL_STATUS.ahead_of_ref = false) ∧
      (r + 1000000 < dial s → dial t = dial s ∧ rdB t NWT_DIAL_STATUS.ahead_of_ref ∧
        t.clock.rate = -(com s NWT_DIAL_CTRL.slew_limit_ppm : Int)) ∧
      (r ≤ dial s + 1000000 → dial s ≤ r + 1000000 → dial t = dial s ∧ rdB t NWT_DIAL_STATUS.ahead_of_ref = false ∧
        t.clock.rate.natAbs ≤ com s NWT_DIAL_CTRL.slew_limit_ppm)

/-- From acquiring or locked, three missed intervals make sync_state holdover and keep the rate correction. In Night and
Deep Night each tick of the crystal advances Dial time by the whole nanoseconds of 1,000,000,000 / 32,768 with its
remainder carried. A 64-bit read of NWT_DIAL_NOW by a host-side port answers Dial time; a 32-bit read of the low word
answers it and latches the high word for that requester, and the next 32-bit read of the high word answers the latched
word. A port other than 68 and 69 is refused with 0x0701. Where it goes beyond the words of the rules it rests on the
model's own readings, log entries 22 and 10. (R33, R34, R36, R31) -/
def Obligations.DialHoldoverNightRead : Prop :=
  (∀ s : State, rd s NWT_DIAL_STATUS.sync_state = 1 ∨ rd s NWT_DIAL_STATUS.sync_state = 2 →
    ∃ t, exec .dialHoldover s = .next t ∧ rd t NWT_DIAL_STATUS.sync_state = 3 ∧ t.clock.rate = s.clock.rate) ∧
  (∀ s : State, s.mode = .night ∨ s.mode = .deepNight → s.clock.nightFrac < 32768 →
    dial s + 30518 < 2 ^ 64 →
    ∃ t, exec .nightwatchTick s = .next t ∧ dial t = dial s + (s.clock.nightFrac + 1000000000) / 32768 ∧
      t.clock.nightFrac = (s.clock.nightFrac + 1000000000) % 32768 ∧ t = { s with regs := t.regs, clock := t.clock }) ∧
  (∀ (s : State) (p : Nat), p = 68 ∨ p = 69 →
    ∃ t, exec (.dialNowRead p true false) s = .next t ∧ t.bus = ⟨p, 0, leBytes 8 (dial s)⟩ ∧ t = { s with bus := t.bus }) ∧
  (∀ (s : State) (p : Nat), p = 68 ∨ p = 69 →
    ∃ t, exec (.dialNowRead p false false) s = .next t ∧ t.bus = ⟨p, 0, leBytes 4 (dial s)⟩ ∧
      t = { s with bus := t.bus, clock := t.clock } ∧
      ∀ v : State, v.clock.latch = t.clock.latch →
        ∃ u, exec (.dialNowRead p false true) v = .next u ∧ u.bus = ⟨p, 0, leBytes 4 (dial s / 2 ^ 32)⟩) ∧
  (∀ (s : State) (p : Nat) (w h : Bool), p ≠ 68 → p ≠ 69 →
    ∃ t, exec (.dialNowRead p w h) s = .next t ∧ t.bus.status = 0x0701 ∧ t = { s with bus := t.bus })

/-- A write of 1 to NWT_COMMIT with every staged field in range, on a Hearth that is not silent, makes the staged copies
the committed ones and reports 0; with a field out of range it reports 0x0002 with the register's offset and changes
no committed copy. TRW_COMMIT of a Course whose die is reached does the same for the timeout and the enable bit of its
watchdog; where the die is not reached it is discarded with 0x0810. In the silent state each reports 0x0C40 and
changes no committed copy, and a write of 0 changes nothing. (R39, R97, R763, R764, R771, R767) -/
def Obligations.DialCommitAndWatchdogCommit : Prop :=
  (∀ (s : State) (v : Nat), v % 2 = 1 → dieSilent s 0 = false → stg s NWT_DIAL_CTRL.source_sel ≤ 5 →
    1 ≤ stg s NWT_DIAL_CTRL.slew_limit_ppm → stg s NWT_DIAL_CTRL.slew_limit_ppm ≤ 200 →
    1 ≤ stg s NWT_DIAL_CTRL.lock_count → 1 ≤ stg s NWT_DIAL_CTRL.lock_window → stg s NWT_DIAL_CTRL.lock_count < 256 →
    stg s NWT_DIAL_CTRL.lock_window < 256 →
    ∃ t, exec (.nwtCommit v) s = .next t ∧ com t NWT_DIAL_CTRL.source_sel = stg s NWT_DIAL_CTRL.source_sel ∧
      com t NWT_DIAL_CTRL.slew_limit_ppm = stg s NWT_DIAL_CTRL.slew_limit_ppm ∧
      com t NWT_DIAL_CTRL.lock_count = stg s NWT_DIAL_CTRL.lock_count ∧
      com t NWT_DIAL_CTRL.lock_window = stg s NWT_DIAL_CTRL.lock_window ∧ t.regs.staged = s.regs.staged ∧
      rd t FAB_COMMIT_STATUS.status = 0 ∧ rd t FAB_COMMIT_WHERE.commit_offset = 0x1001C) ∧
  (∀ (s : State) (v : Nat), v % 2 = 1 → dieSilent s 0 = false → 5 < stg s NWT_DIAL_CTRL.source_sel →
    ∃ t, exec (.nwtCommit v) s = .next t ∧ t.regs.committed = s.regs.committed ∧ t.regs.staged = s.regs.staged ∧
      rd t FAB_COMMIT_STATUS.status = 0x0002 ∧ rd t FAB_COMMIT_FIELD.field_offset = 0x10010) ∧
  (∀ (s : State) (c v : Nat), c < 64 → v % 2 = 1 → dieSilent s (courseDie c) = false → reach s 0 (courseDie c) = true →
    1 ≤ stg s TRW_WDOG_CTRL.timeout_us (atCourse c 0x100) → stg s TRW_WDOG_CTRL.timeout_us (atCourse c 0x100) ≤ 1000000 →
    ∃ t, exec (.trwCommit c v) s = .next t ∧
      com t TRW_WDOG_CTRL.timeout_us (atCourse c 0x100) = stg s TRW_WDOG_CTRL.timeout_us (atCourse c 0x100) ∧
      com t TRW_WDOG_CTRL.enable (atCourse c 0x100) = stg s TRW_WDOG_CTRL.enable (atCourse c 0x100) % 2 ∧
      rd t FAB_COMMIT_STATUS.status (dieBase (courseDie c)) = 0 ∧ t = { s with regs := t.regs, fab := t.fab }) ∧
  (∀ (s : State) (c v : Nat), c < 64 → v % 2 = 1 → dieSilent s (courseDie c) = false → reach s 0 (courseDie c) = true →
    (stg s TRW_WDOG_CTRL.timeout_us (atCourse c 0x100) = 0 ∨ 1000000 < stg s TRW_WDOG_CTRL.timeout_us (atCourse c 0x100)) →
    ∃ t, exec (.trwCommit c v) s = .next t ∧ t.regs.committed = s.regs.committed ∧
      rd t FAB_COMMIT_STATUS.status (dieBase (courseDie c)) = 0x0002) ∧
  (∀ (s : State) (v : Nat), v % 2 = 1 → dieSilent s 0 = true →
    ∃ t, exec (.nwtCommit v) s = .next t ∧ t.regs.committed = s.regs.committed ∧
      rd t FAB_COMMIT_STATUS.status = 0x0C40) ∧
  (∀ (s : State) (c v : Nat), c < 64 → v % 2 = 1 → dieSilent s (courseDie c) = true → reach s 0 (courseDie c) = true →
    ∃ t, exec (.trwCommit c v) s = .next t ∧ t.regs.committed = s.regs.committed ∧
      rd t FAB_COMMIT_STATUS.status (dieBase (courseDie c)) = 0x0C40) ∧
  (∀ (s : State) (v : Nat), v % 2 = 0 → exec (.nwtCommit v) s = .next s) ∧
  (∀ (s : State) (c v : Nat), v % 2 = 0 → reach s 0 (courseDie c) = true → exec (.trwCommit c v) s = .next s) ∧
  (∀ (s : State) (c v : Nat), c < 64 → reach s 0 (courseDie c) = false →
    exec (.trwCommit c v) s = .next { s with bus := ⟨68, 0x0810, []⟩ })

/-- A 32-bit read of an RC count answers it and puts it at its reset value. A 32-bit write of an RW register sets it, of
an ST register sets the staged copy alone, and of a W1C bit clears it where a 1 is written. A write where no register
stands sets ignored_write of its window, with its offset in FAB_IGNORED_ADDR. An access from a port that is not
host-side is refused with 0x0701 and changes no register. Where it goes beyond the words of the rules it rests on the
model's own readings, log entries 8 and 9. (R757, R758, R756, R759, R755, R25) -/
def Obligations.SetupSpaceAccess : Prop :=
  (∀ s : State, ∃ t, exec (.rcCounterRead 68 0x600008 32) s = .next t ∧
      t.bus = ⟨68, 0, leBytes 4 (rd s SIV_REFUSE_COUNT.refusals)⟩ ∧ rd t SIV_REFUSE_COUNT.refusals = 0 ∧
      t = { s with regs := t.regs, bus := t.bus }) ∧
  (∀ s : State, ∃ t, exec (.rcCounterRead 69 0x400020 32) s = .next t ∧
      t.bus = ⟨69, 0, leBytes 4 (rd s DAY_OVERRUN_COUNT.overruns)⟩ ∧ rd t DAY_OVERRUN_COUNT.overruns = 0 ∧
      rd t DAY_LATE_COUNT.late = rd s DAY_LATE_COUNT.late) ∧
  (∀ (s : State) (v : Nat), v < 256 → ∃ t, exec (.registerWrite 69 0x10010 32 v) s = .next t ∧
      stg t NWT_DIAL_CTRL.source_sel = v % 16 ∧ t.regs.committed = s.regs.committed ∧
      t = { s with regs := t.regs, bus := t.bus }) ∧
  (∀ s : State, ∃ t, exec (.registerWrite 68 0x10008 32 4) s = .next t ∧
      rdB t NWT_DIAL_STATUS.stepped = false ∧ rd t NWT_DIAL_STATUS.sync_state = rd s NWT_DIAL_STATUS.sync_state) ∧
  (∀ (s : State) (v : Nat), ∃ t, exec (.registerWrite 68 0x20 32 v) s = .next t ∧
      rdB t FAB_COMMIT_STATUS.ignored_write ∧ rd t FAB_IGNORED_ADDR.offset = 0x20 ∧ t.regs.staged = s.regs.staged) ∧
  (∀ (s : State) (p a w v : Nat), p ≠ 68 → p ≠ 69 →
    ∃ t, exec (.registerWrite p a w v) s = .next t ∧ t.regs = s.regs ∧ t.bus.status = 0x0701)

/-- With PERST_N high, the package in run and the endpoint enabled by the boot configuration, PCIE_LINK_UP makes the link
up, sends the MSI-X messages that wait for it, and changes nothing else; a PERST_DEASSERT that has stood for 40
samples raises PERST_N and leaves the link as it is, and one that has not changes nothing. PCIE_LINK_DOWN and a
PERST_ASSERT of 40 samples make the link down, and every enabled ring of an open context whose lines lie in the
outbound window reads as stopped afterwards. (R772, R746, R26, R740, R319) -/
def Obligations.PcieLinkAndItsWindow : Prop :=
  (∀ s : State, s.perst = false → s.mode = .run → bit s.nwt.boot.flags 0 = true →
    ∃ t, exec .pcieLinkUp s = .next t ∧ t.pcieUp = true ∧
      t.out = s.out ++ s.rings.irqs.map (fun v => ⟨.interrupt, [v, 1]⟩) ∧ t.rings = { s.rings with irqs := [] } ∧
      t = { s with pcieUp := true, out := t.out, rings := t.rings }) ∧
  (∀ (s : State) (n : Nat), 40 ≤ n → exec (.perstDeassert n) s = .next { s with perst := false }) ∧
  (∀ (s : State) (n : Nat), n < 40 → exec (.perstDeassert n) s = .next s ∧ exec (.perstAssert n) s = .next s) ∧
  (∀ s : State, ∃ t, exec .pcieLinkDown s = .next t ∧ t.pcieUp = false ∧ t.perst = s.perst ∧ t.fab = s.fab ∧
    (∀ c r, c < 64 → r < 4 → ctxOpen s c → ringEnabled s c r → ringInPcie s c r → ringStopped t c r)) ∧
  (∀ (s : State) (n : Nat), s.perst = false → 40 ≤ n → ∃ t, exec (.perstAssert n) s = .next t ∧ t.pcieUp = false ∧ t.perst = true ∧
    t.mode = s.mode ∧ t.fab = s.fab ∧
    (∀ c r, c < 64 → r < 4 → ctxOpen s c → ringEnabled s c r → ringInPcie s c r → ringStopped t c r))

/-- For every state, each host-side port, and each aligned word of a register of the map, in a window that is reached, a
32-bit read (NWT_DIAL_NOW apart, whose read has a row of its own) answers the word of the register's value with status
0, puts each RC field that the word touches at its reset value, and changes nothing else. A 32-bit write of a word
below the island windows answers status 0; each RW field in the word takes the bits written and each ST field has them
staged; where no bit of the write is ignored, each W1C field in the word whose bit is 1 reads 0; no committed copy and
nothing outside the registers changes. A 64-bit access that is not aligned is performed nowhere: a read answers all
ones, and a write is noted as ignored. (R755, R756, R757, R758, R759, R760, R763) -/
def Obligations.RegisterAccessesComplete : Prop :=
  (∀ (s : State) (p addr a : Nat) (r : RegRow), p = 68 ∨ p = 69 → addr % 4 = 0 → addr < 7 * 0x10000000 →
    (1 ≤ addr / 0x10000000 → addr / 0x10000000 ≤ 4 → reach s 0 (addr / 0x10000000) = true) → regAt addr = some (r, a) →
    addr ≠ 0x10000 → addr ≠ 0x10004 →
    ∃ t, exec (.rcCounterRead p addr 32) s = .next t ∧
      t.bus = ⟨p, 0, leBytes 4 (bits (regValue s r a) ((addr - a) * 8) 32)⟩ ∧
      (∀ f ∈ r.fields, f.acc = .rc → f.lo < (addr - a) * 8 + 32 → (addr - a) * 8 < f.lo + f.width →
        aget t.regs.live (placeKey f a) f.reset = f.reset) ∧
      (∀ k d, (∀ f ∈ r.fields, f.acc = .rc → k ≠ placeKey f a) → aget t.regs.live k d = aget s.regs.live k d) ∧
      t = { s with regs := { s.regs with live := t.regs.live }, bus := t.bus }) ∧
  (∀ (s : State) (p addr a v : Nat) (r : RegRow), p = 68 ∨ p = 69 → addr % 4 = 0 → addr < 5 * 0x10000000 → v < 2 ^ 32 →
    (1 ≤ addr / 0x10000000 → reach s 0 (addr / 0x10000000) = true) → regAt addr = some (r, a) →
    ∃ t, exec (.registerWrite p addr 32 v) s = .next t ∧ t.bus = ⟨p, 0, []⟩ ∧
      (∀ f ∈ r.fields, (addr - a) * 8 ≤ f.lo → f.lo + f.width ≤ (addr - a) * 8 + 32 →
        (f.acc = .rw → aget t.regs.live (placeKey f a) f.reset = bits v (f.lo - (addr - a) * 8) f.width) ∧
        (f.acc = .st → aget t.regs.staged (placeKey f a) f.reset = bits v (f.lo - (addr - a) * 8) f.width) ∧
        (f.acc = .w1c → wordIgnored addr v = false → bit v (f.lo - (addr - a) * 8) = true →
          aget t.regs.live (placeKey f a) f.reset = 0)) ∧
      t.regs.committed = s.regs.committed ∧ t = { s with regs := t.regs, bus := t.bus }) ∧
  (∀ (s : State) (p addr v : Nat), p = 68 ∨ p = 69 → addr < 0x10000000 → addr % 8 ≠ 0 →
    exec (.rcCounterRead p addr 64) s = .next { s with bus := ⟨p, 0, List.replicate 8 255⟩ } ∧
    ∃ t, exec (.registerWrite p addr 64 v) s = .next t ∧ rdB t FAB_COMMIT_STATUS.ignored_write ∧
      rd t FAB_IGNORED_ADDR.offset = addr ∧ t.regs.staged = s.regs.staged ∧ t.regs.committed = s.regs.committed)

/-- Where the word at a role's pc is the instruction and nothing holds the role: NOP goes on and adds one cycle to its
role, WAIT goes on and adds count + 1, and the instance's count is the largest of what it was and its roles'; HALT
halts the role; JUMP goes to its target; LOOP enters its body for count + 1 passes, LOOPP for the passes that its
parameter word gives, and skips the body for 0; PPOINT with no stop pending goes on and counts, and with one pending
parks the role. Beds, Hods, accumulators and memory stay. Where it goes beyond the words of the rules it rests on the
model's own readings, log entries 65 and 50. (R64, R65, R66, R77, R81, R84) -/
def Obligations.SequencerControl : Prop :=
  (∀ (s : State) (b : Nat) (x : Site), issuing s b opNop = some x → roleAt s x = some x.role →
    ∃ t i j, exec (.nop b) s = .next t ∧ roleAt t x = some { x.role.counted.advance with cycles := x.role.cycles + 1 } ∧
      instAt s x = some i ∧ instAt t x = some j ∧ j.cycles = max i.cycles (roleCycles j.roles) ∧ t = { s with fab := t.fab } ∧
      t.fab.bed = s.fab.bed ∧ t.fab.hod = s.fab.hod ∧ t.fab.acc = s.fab.acc) ∧
  (∀ (s : State) (b : Nat) (x : Site), issuing s b opWait = some x → roleAt s x = some x.role →
    ∃ t i j, exec (.wait b) s = .next t ∧
      roleAt t x = some { x.role.counted.advance with cycles := x.role.cycles + (bits x.role.word 0 13 + 1) } ∧
      instAt s x = some i ∧ instAt t x = some j ∧ j.cycles = max i.cycles (roleCycles j.roles) ∧
      t = { s with fab := t.fab } ∧ t.fab.bed = s.fab.bed ∧ t.fab.hod = s.fab.hod ∧ t.fab.acc = s.fab.acc) ∧
  (∀ (s : State) (b : Nat) (x : Site), issuing s b opHalt = some x → roleAt s x = some x.role →
    ∃ t, exec (.halt b) s = .next t ∧ (roleAt t x).map (·.halted) = some true ∧
      (roleAt t x).map (·.pc) = some x.role.pc ∧ t.mem = s.mem ∧ t.fab.bed = s.fab.bed ∧ t.fab.hod = s.fab.hod ∧
      t.fab.acc = s.fab.acc) ∧
  (∀ (s : State) (b : Nat) (x : Site), issuing s b opJump = some x → roleAt s x = some x.role →
    ∃ t, exec (.jump b) s = .next t ∧ roleAt t x = some { x.role with pc := bits x.role.word 15 9 } ∧
      t = { s with fab := t.fab } ∧ t.fab.bed = s.fab.bed ∧ t.fab.hod = s.fab.hod ∧ t.fab.acc = s.fab.acc) ∧
  (∀ (s : State) (b : Nat) (x : Site), issuing s b opLoop = some x → roleAt s x = some x.role →
    ∃ t, exec (.loop b) s = .next t ∧ roleAt t x = some { x.role with
        pc := x.role.pc + 1
        loops := ⟨bits x.role.word 13 2, x.role.pc + 1, bits x.role.word 15 9, bits x.role.word 0 13⟩ :: x.role.loops } ∧
      t = { s with fab := t.fab }) ∧
  (∀ (s : State) (b : Nat) (x : Site), issuing s b opLoopp = some x → roleAt s x = some x.role →
    ∃ t, exec (.loopp b) s = .next t ∧ t = { s with fab := t.fab } ∧
      (paramWord x.launch x.inst.course (bits x.role.word 0 4) = 0 →
        roleAt t x = some (x.role.past (bits x.role.word 15 9))) ∧
      (∀ n, paramWord x.launch x.inst.course (bits x.role.word 0 4) = n + 1 →
        roleAt t x = some { x.role with
          pc := x.role.pc + 1
          loops := ⟨bits x.role.word 13 2, x.role.pc + 1, bits x.role.word 15 9, n⟩ :: x.role.loops })) ∧
  (∀ (s : State) (b : Nat) (x : Site), issuing s b opPpoint = some x → roleAt s x = some x.role →
    ∃ t, exec (.ppoint b) s = .next t ∧
      (stopsHere s x = false → roleAt t x = some ({ x.role with ppoints := x.role.ppoints + 1 } : Role).counted.advance ∧
        t = { s with fab := t.fab }) ∧
      (stopsHere s x = true → roleAt t x = some ({ x.role with atPpoint := true } : Role).advance ∧ t.mem = s.mem))

/-- NSIG raises the flag on the side of its neighbour that faces it; NWAIT with its flag raised clears it and goes on, and
waits with nothing changed while it is not. TSIG of a Tie in the context's ranges with a home that can be reached
sends a signal-add there and goes on; TWAITGE and TWAITEQ with no stop pending send their wait and block the role on
that Tie; outside the ranges each stops with 0x0611. BARRIER holds the role while another that has not halted has not
reached its own, and lets every role past once all have, with the cycles that it waited counted. Where it goes beyond
the words of the rules it rests on the model's own readings, log entries 32, 49 and 51. (R65, R267, R322, R329, R412) -/
def Obligations.SequencerSync : Prop :=
  (∀ (s : State) (b : Nat) (x : Site) (k : Nat) (r : Role), issuing s b opNsig = some x → roleAt s x = some x.role →
    (cellTowards (roleCell x.launch.image x.k) (bits x.role.word 18 2)).bind (roleAtCell x.launch.image) = some k →
    k ≠ x.k → roleAt s { x with k := k } = some r →
    ∃ t, exec (.nsig b) s = .next t ∧ roleAt t x = some x.role.counted.advance ∧
      roleAt t { x with k := k } = some { r with flags := setAt r.flags ((bits x.role.word 18 2 + 2) % 4) true } ∧
      t = { s with fab := t.fab } ∧ t.fab.bed = s.fab.bed) ∧
  (∀ (s : State) (b : Nat) (x : Site), issuing s b opNwait = some x → roleAt s x = some x.role →
    ∃ t, exec (.nwait b) s = .next t ∧
      (x.role.flags.getD (bits x.role.word 18 2) false = true → roleAt t x =
        some ({ x.role with flags := setAt x.role.flags (bits x.role.word 18 2) false } : Role).counted.advance) ∧
      (x.role.flags.getD (bits x.role.word 18 2) false = false → t = s)) ∧
  (∀ (s : State) (b : Nat) (x : Site), issuing s b opTsig = some x → roleAt s x = some x.role → tieOf x < 131072 →
    tieRefused s x.launch.ctx (tieOf x) = false → reach s (courseDie x.inst.course) (tieHome (tieOf x)) = true →
    ∃ t, exec (.tsig b) s = .next t ∧ roleAt t x = some x.role.counted.advance ∧
      t.rings = { s.rings with ops := s.rings.ops ++ [⟨.signal, tieOf x, bits x.role.word 0 16, .role b, x.launch.ctx, 0⟩] } ∧
      t.mem = s.mem ∧ t.regs = s.regs) ∧
  (∀ (s : State) (b : Nat) (x : Site), issuing s b opTwaitge = some x → roleAt s x = some x.role → tieOf x < 131072 →
    stopPending s x = false → tieRefused s x.launch.ctx (tieOf x) = false →
    reach s (courseDie x.inst.course) (tieHome (tieOf x)) = true →
    ∃ t, exec (.twaitge b) s = .next t ∧ roleAt t x = some { x.role with tieWait := some (tieOf x) } ∧
      t.rings.ops = s.rings.ops ++ [⟨.waitGe, tieOf x, bits x.role.word 0 16, .role x.role.brick, x.launch.ctx,
        fld x.launch.raw 36 4⟩] ∧ t.mem = s.mem ∧ t.regs = s.regs) ∧
  (∀ (s : State) (b : Nat) (x : Site), issuing s b opTwaiteq = some x → roleAt s x = some x.role → tieOf x < 131072 →
    stopPending s x = false → tieRefused s x.launch.ctx (tieOf x) = false →
    reach s (courseDie x.inst.course) (tieHome (tieOf x)) = true →
    ∃ t, exec (.twaiteq b) s = .next t ∧ roleAt t x = some { x.role with tieWait := some (tieOf x) } ∧
      t.rings.ops = s.rings.ops ++ [⟨.waitEq, tieOf x, bits x.role.word 0 16, .role x.role.brick, x.launch.ctx,
        fld x.launch.raw 36 4⟩] ∧ t.mem = s.mem ∧ t.regs = s.regs) ∧
  (∀ (s : State) (b : Nat) (x : Site), issuing s b opBarrier = some x → roleAt s x = some x.role →
    instAt s x = some x.inst →
    ∃ t, exec (.barrier b) s = .next t ∧ t = { s with fab := t.fab } ∧
      ((∃ r ∈ x.inst.roles, r ≠ x.role ∧ r.brick ≠ x.role.brick ∧ r.halted = false ∧ r.atBarrier = false) →
        roleAt t x = some { x.role with atBarrier := true }) ∧
      ((∀ k r, x.inst.roles[k]? = some r → k ≠ x.k → r.halted = true ∨ r.atBarrier = true) →
        roleAt t x = some ({ x.role with cycles := max x.role.cycles x.inst.cycles } : Role).advance))

/-- Each sets the field that its word names of the generator that its word names, restarts the generator's sequence
(GROUTCHK arms it instead), and goes on with the next instruction; nothing outside the role changes. BASEP with two
words of which any of bits 63 to 42 is set has no such effect: the instance leaves its Course with status 0x0113.
Where it goes beyond the words of the rules it rests on the model's own readings, log entry 48. (R65, R543, R776,
R777) -/
def Obligations.AddressGenerators : Prop :=
  (∀ (s : State) (b : Nat) (x : Site), issuing s b opBase = some x → roleAt s x = some x.role →
    ∃ t, exec (.base b) s = .next t ∧ roleAt t x = some (x.role.modAgen (bits x.role.word 22 2)
      (fun g => { g with base := bits x.role.word 0 20, pos := 0 })).counted.advance ∧ t = { s with fab := t.fab } ∧
      t.fab.bed = s.fab.bed) ∧
  (∀ (s : State) (b : Nat) (x : Site), issuing s b opStride = some x → roleAt s x = some x.role →
    ∃ t, exec (.stride b) s = .next t ∧ roleAt t x = some (x.role.modAgen (bits x.role.word 22 2) (fun g => { g with
      strides := setAt g.strides (bits x.role.word 20 2) (sext (bits x.role.word 0 20) 20), pos := 0 })).counted.advance ∧
      t = { s with fab := t.fab }) ∧
  (∀ (s : State) (b : Nat) (x : Site), issuing s b opCount = some x → roleAt s x = some x.role →
    ∃ t, exec (.count b) s = .next t ∧ roleAt t x = some (x.role.modAgen (bits x.role.word 22 2) (fun g => { g with
      counts := setAt g.counts (bits x.role.word 20 2) (bits x.role.word 0 20 + 1), pos := 0 })).counted.advance ∧
      t = { s with fab := t.fab }) ∧
  (∀ (s : State) (b : Nat) (x : Site), issuing s b opBasep = some x → roleAt s x = some x.role →
    bit x.role.word 4 = false →
    ∃ t, exec (.basep b) s = .next t ∧ roleAt t x = some (x.role.modAgen (bits x.role.word 22 2) (fun g => { g with
      base := paramWord x.launch x.inst.course (bits x.role.word 0 4) % 2 ^ 32, pos := 0 })).counted.advance ∧
      t = { s with fab := t.fab }) ∧
  (∀ (s : State) (b v : Nat) (x : Site), issuing s b opBasep = some x → roleAt s x = some x.role →
    bit x.role.word 4 = true → v = paramWord x.launch x.inst.course (bits x.role.word 0 4) % 2 ^ 32
      + paramWord x.launch x.inst.course (bits x.role.word 0 4 + 1) % 2 ^ 32 * 2 ^ 32 → v < 2 ^ 42 →
    ∃ t, exec (.basep b) s = .next t ∧ roleAt t x = some (x.role.modAgen (bits x.role.word 22 2) (fun g => { g with
      base := v, pos := 0 })).counted.advance ∧ t = { s with fab := t.fab }) ∧
  (∀ (s : State) (b : Nat) (x : Site), issuing s b opGroutchk = some x → roleAt s x = some x.role →
    ∃ t, exec (.groutchk b) s = .next t ∧ roleAt t x = some (x.role.modAgen (bits x.role.word 18 2) (fun g => { g with
      grout := some ⟨paramWord x.launch x.inst.course (bits x.role.word 20 4), bits x.role.word 0 16 + 1⟩ })).counted.advance ∧
      t = { s with fab := t.fab })

/-- An MMA without a Quoin fold, whose streamers are well formed and within bounds and whose hardware meets nothing,
leaves in its tile the fold of its blocks, in ascending order, into the tile's words (zero where the word clears it),
notes whether the tile holds FP32, and goes on; the other tiles of the Brick, the Beds, the Hods and memory stay.
DRAIN hands the 1,024 words of its tile and their kind to the Lane unit, leaves every word of the tile 0, and goes on;
other tiles, Beds, Hods and memory stay. Where it goes beyond the words of the rules it rests on the model's own
readings, log entries 66 and 59. (R65, R115, R116, R117, R118, R778, R779) -/
def Obligations.MacArray : Prop :=
  (∀ (s : State) (b : Nat) (x : Site) (j : MmaJob), issuing s b opMma = some x → roleAt s x = some x.role → x.role.brick = b →
    j = mmaJob x x.role.pc ((x.role.agen (streamRec x.role.streamers 0).ag).addr (x.role.agen (streamRec x.role.streamers 0).ag).pos)
      (((x.role.modAgen (streamRec x.role.streamers 0).ag (fun g => g.skip 1)).agen (streamRec x.role.streamers 1).ag).addr
        ((x.role.modAgen (streamRec x.role.streamers 0).ag (fun g => g.skip 1)).agen (streamRec x.role.streamers 1).ag).pos) →
    j.quoin = false → streamFault s x.launch.image b j.ra j.fa j.kb j.baseA = none →
    streamFault s x.launch.image b j.rb j.fb j.kb j.baseB = none →
    ∃ t, exec (.mma b .none) s = .next t ∧
      accTile t b j.tile = (List.range j.kb).foldl (fun acc n =>
          (foldTile j.fa j.fb (operandBlock s x j.fa j.ra j.baseA (runTable s b j.ra) j.kb n).1
            (operandBlock s x j.fb j.rb j.baseB (runTable s b j.rb) j.kb n).1 acc).1)
        (if bit x.role.word 13 then List.replicate 1024 0 else accTile s b j.tile) ∧
      (roleAt t x).map (·.pc) = some x.role.counted.advance.pc ∧
      (roleAt t x).map (·.accFp) = some (setAt x.role.accFp j.tile (!pairInt j.fa j.fb)) ∧
      (∀ k, k < 4 → k ≠ j.tile → accTile t b k = accTile s b k) ∧
      t = { s with fab := t.fab } ∧ t.fab.bed = s.fab.bed ∧ t.fab.hod = s.fab.hod) ∧
  (∀ (s : State) (b : Nat) (x : Site) (k : Nat), issuing s b opDrain = some x → roleAt s x = some x.role →
    k = bits x.role.word 14 2 →
    ∃ t, exec (.drain b) s = .next t ∧
      roleAt t x = some ({ x.role with drained := some ⟨accTile s b k, x.role.accFp.getD k false⟩ } : Role).counted.advance ∧
      (∀ i < 1024, accWord t b k i = 0) ∧ (∀ m, m < 4 → m ≠ k → accTile t b m = accTile s b m) ∧
      t = { s with fab := t.fab } ∧ t.fab.bed = s.fab.bed ∧ t.fab.hod = s.fab.hod)

/-- For one vector, with every source and destination line inside the Bed that the Bond declares and distinct destination
lines, UNARY writes the rounded function of each element, BINARY of each pair (functions 0 to 4, operands from the
Bed), REDUCE the one tree result, and CONVERT each element in the output format, packed in that format; Bed bytes
outside the destination lines, accumulators, Hods and memory stay. Where it goes beyond the words of the rules it
rests on the model's own readings, log entries 67, 58 and 59. (R65, R122, R124, R126, R132, R68) -/
def Obligations.LaneUnit : Prop :=
  (∀ (s : State) (b : Nat) (x : Site) (j : LaneJob), issuing s b opUnary = some x → roleAt s x = some x.role →
    j = (laneJob x opUnary).1 → j.n = 1 → linesOk x.launch.image j.src → linesOk x.launch.image j.dst → j.dst.Nodup →
    ∃ t, exec (.unary b .none) s = .next t ∧
      runBytes t x.role.brick j.dst 0 (vecBytes j.out) = pack j.out (((List.range 64).zip (j.first s x 0 0)).map (fun e =>
        (laneWrite j.out j.mode (x.randomAt e.1) [e.2.1] (unaryVal j.fn x.role.laneTable e.2.1)).1)) ∧
      (∀ a, (a / 64 : Nat) ∉ j.dst.map Int.toNat → bedByte t x.role.brick a = bedByte s x.role.brick a) ∧
      t = { s with fab := t.fab } ∧ t.fab.hod = s.fab.hod ∧ t.fab.acc = s.fab.acc) ∧
  (∀ (s : State) (b : Nat) (x : Site) (j : LaneJob), issuing s b opBinary = some x → roleAt s x = some x.role →
    j = (laneJob x opBinary).1 → j.n = 1 → j.fn ≠ 5 → j.tile = none → linesOk x.launch.image j.src →
    linesOk x.launch.image j.dst → j.dst.Nodup →
    ∃ t, exec (.binary b .none) s = .next t ∧
      runBytes t x.role.brick j.dst 0 (vecBytes j.out) =
        pack j.out (((List.range 64).zip ((j.readVec s x 0 0).zip (j.readVec s x 1 0))).map (fun e =>
          (laneWrite j.out j.mode (x.randomAt e.1) [e.2.1.1, e.2.2.1] (binaryVal j.fn (.fin {}) e.2.1.1 e.2.2.1)).1)) ∧
      (∀ a, (a / 64 : Nat) ∉ j.dst.map Int.toNat → bedByte t x.role.brick a = bedByte s x.role.brick a) ∧
      t = { s with fab := t.fab } ∧ t.fab.hod = s.fab.hod ∧ t.fab.acc = s.fab.acc) ∧
  (∀ (s : State) (b : Nat) (x : Site) (j : LaneJob), issuing s b opReduce = some x → roleAt s x = some x.role →
    j = (laneJob x opReduce).1 → j.n = 1 → linesOk x.launch.image j.src → linesOk x.launch.image j.dst → j.dst.Nodup →
    ∃ t, exec (.reduce b .none) s = .next t ∧
      runBytes t x.role.brick j.dst 0 (packedBytes j.out 1) = pack j.out [(reduceOne j s x 0).1] ∧
      (∀ a, (a / 64 : Nat) ∉ j.dst.map Int.toNat → bedByte t x.role.brick a = bedByte s x.role.brick a) ∧
      t = { s with fab := t.fab } ∧ t.fab.hod = s.fab.hod ∧ t.fab.acc = s.fab.acc) ∧
  (∀ (s : State) (b : Nat) (x : Site) (j : LaneJob), issuing s b opConvert = some x → roleAt s x = some x.role →
    j = (laneJob x opConvert).1 → j.n = 1 → linesOk x.launch.image j.src → linesOk x.launch.image j.dst → j.dst.Nodup →
    ∃ t, exec (.convert b .none) s = .next t ∧
      runBytes t x.role.brick j.dst 0 (vecBytes j.out) = pack j.out ((List.range 64).map (fun i => (convertElem j s x 0 i).1)) ∧
      (∀ a, (a / 64 : Nat) ∉ j.dst.map Int.toNat → bedByte t x.role.brick a = bedByte s x.role.brick a) ∧
      t = { s with fab := t.fab } ∧ t.fab.hod = s.fab.hod ∧ t.fab.acc = s.fab.acc)

/-- COPY from Bed to Bed with lines in bounds, distinct destination lines apart from the source lines and no Grout check
armed leaves in each destination line the bytes of its source line, and every other Bed byte as it was. COPYG of a
block of 64 lines does the same, writes the block's check value at the table index that its destination generator
gives, and notes the index. QUANT of one row in present mode, with a well-formed scale block, a legal row length and
lines in bounds that do not overlap, writes the row's codes, its side record, and the row cursor one higher. No other
Brick's Bed changes. Where it goes beyond the words of the rules it rests on the model's own readings, log entries 83
and 64. (R65, R777, R540, R538, R146, R147, R148, R149, R151) -/
def Obligations.MoveAndScaleUnits : Prop :=
  (∀ (s : State) (b : Nat) (x : Site) (j : MoveJob) (src dst : List Int), issuing s b opCopy = some x →
    roleAt s x = some x.role → j = moveJob x.role.word false → j.sk = 0 → j.dk = 0 →
    src = (x.role.agen j.g).take j.n → dst = (x.role.agen ((j.g + 1) % 4)).take j.n → (x.role.agen j.g).grout = none →
    linesOk x.launch.image src → linesOk x.launch.image dst → imgBed x.launch.image ≤ 262144 → dst.Nodup →
    (∀ a ∈ src, a ∉ dst) →
    ∃ t, exec (.copy b .none) s = .next t ∧
      (∀ i < j.n, bedBytes t x.role.brick ((dst.getD i 0).toNat * 64) 64 = bedBytes s x.role.brick ((src.getD i 0).toNat * 64) 64) ∧
      (∀ n a, ¬ (n = x.role.brick ∧ (a / 64 : Nat) ∈ dst.map Int.toNat) → a < 262144 → bedByte t n a = bedByte s n a) ∧
      (roleAt t x).map (·.pc) = some x.role.counted.advance.pc ∧ t = { s with fab := t.fab } ∧
      t.fab.hod = s.fab.hod ∧ t.fab.acc = s.fab.acc) ∧
  (∀ (s : State) (b i : Nat) (x : Site) (j : MoveJob) (src dst : List Int) (blk : List Nat), issuing s b opCopyg = some x →
    roleAt s x = some x.role → j = moveJob x.role.word true → j.sk = 0 → j.dk = 0 → j.n = 64 →
    src = (x.role.agen j.g).take 64 → dst = (x.role.agen ((j.g + 1) % 4)).take 64 → (x.role.agen j.g).grout = none →
    linesOk x.launch.image src → linesOk x.launch.image dst → dst.Nodup → (∀ a ∈ src, a ∉ dst) →
    i = fld (x.role.agen ((j.g + 1) % 4)).tail 0 3 →
    blk = (src.map (fun a => bedBytes s x.role.brick (a.toNat * 64) 64)).flatten →
    (groutWrite x.inst.course x.launch.ctx i (groutValue blk (i % 2 ^ 32)) s).1 = 0 →
    ∃ t, exec (.copyg b .none) s = .next t ∧
      (∀ k < 64, bedBytes t x.role.brick ((dst.getD k 0).toNat * 64) 64 = bedBytes s x.role.brick ((src.getD k 0).toNat * 64) 64) ∧
      t.mem = (groutWrite x.inst.course x.launch.ctx i (groutValue blk (i % 2 ^ 32)) s).2.mem ∧
      (roleAt t x).map (·.groutWrote) = some (i :: x.role.groutWrote)) ∧
  (∀ (s : State) (b : Nat) (x : Site) (j : ScaleJob) (blk : List Nat) (l : List Int × List Int × Int) (v : List Val),
    issuing s b opQuant = some x → roleAt s x = some x.role → j = scaleJob x.role → j.rows = 1 → j.carried = false →
    blk = scaleBlock s x.role.brick j.line → bedBytesOk x.launch.image (j.line * 64) 128 → scaleBlockBad blk j.len = false →
    rowLenBad j.len = false → l = rowLines x j blk 0 → linesOk x.launch.image (l.2.2 :: (l.1 ++ l.2.1)) →
    rowOverlaps j l = false → l.2.1.Nodup → l.2.2 ≠ j.line → l.2.2 ≠ j.line + 1 → imgBed x.launch.image ≤ 262144 →
    v = (unpack j.fmt (runBytes s x.role.brick l.1 0 (j.srcLines * 64)) j.len).map (decodeElem j.fmt) →
    ∃ t, exec (.quant b .none) s = .next t ∧
      runBytes t x.role.brick l.2.1 0 (packedBytes j.target j.len) =
        pack j.target (rowPresent x j 0 0 (listedOf blk) v).codes ∧
      bedBytes t x.role.brick (l.2.2.toNat * 64) 64 =
        sideLine (rowPresent x j 0 0 (listedOf blk) v) (bf16Ceil (rowMax (listedOf blk) v)) (listedOf blk) v ∧
      fld (scaleBlock t x.role.brick j.line) 2 2 = (fld blk 2 2 + 1) % 65536 ∧
      (∀ n a, n ≠ x.role.brick → a < 262144 → bedByte t n a = bedByte s n a) ∧ t.mem = s.mem)

/-- A Trowel that is open takes the next queue head, restarts its watchdog, and, where no record or parameter line is
named and every load check passes, holds the launch, which no Course of its set has refused, as checked, staging or
waiting, or staged at once where the last switch has loaded its sections. LAUNCH_STAGE stages the first waiting head
for which a placement fits. STAGING_COMPLETE of a staging instance whose image is read and still correct makes it
staged. BOND_ACTIVATE of a staged instance that every Course has accepted, on free Bricks of a Course that its context
holds, makes it active with one role for each Brick and the Course running. INSTANCE_COMPLETE of an active instance
whose roles have all halted, of a launch with another instance at work, marks it done and restarts the watchdog. Where
it goes beyond the words of the rules it rests on the model's own readings, log entries 24, 54 and 55. (R70, R73, R74,
R75, R76, R79, R95) -/
def Obligations.TrowelTakesAndStages : Prop :=
  (∀ (s s1 s2 : State) (c slot : Nat) (x : Launch × Inst) (img : List Nat), trowelOpen s c = true → nextHead s c = some x →
    rdB s TRW_COURSE_STATE.course_fenced (atCourse c 0x100) = false → x.2.course = c → instOf s x.1.id c = some x.2 →
    launchOf s x.1.id = some x.1 → x.1.insts.any (fun i => i.phase == .refused) = false →
    bit (x.1.raw.getD 1 0) 4 = false → bit (x.1.raw.getD 1 0) 5 = false → fld x.1.raw 24 6 = 0 →
    s1 = restartWdog c (modCourse c (fun y => { y with ringNext := (x.1.ring + 1) % 4 }) s) →
    handleSlot s1 x.1.ctx (fld x.1.raw 4 4) = some slot →
    readMem c x.1.ctx (slotAddr slot) (min 131072 (max 384 (leNat ((List.range 4).map (fun i => slotByte s1 slot (8 + i))))))
      [(x.1.id, 0x0711, c)] s1 = (0, img, s2) →
    loadStatus s2 x.1 c img [] [] [] = 0 →
    ∃ t, exec (.trowelFetchLaunch c) s = .next t ∧ (courseOf t c).ringNext = (x.1.ring + 1) % 4 ∧
      (launchOf t x.1.id).map (·.image) = some img ∧
      ∃ i, instOf t x.1.id c = some i ∧ i.checked = true ∧
        (i.phase = .staging ∨ (i.phase = .staged ∧ (courseOf s c).preload = some x.1.id) ∨ i.phase = .queued)) ∧
  (∀ (s : State) (c : Nat) (x : Launch × Inst) (p : Place), trowelOpen s c = true →
    queueHead s (courseCtx s c) ((courseOf s c).ringNext % 4) c = some x → x.2.checked = true →
    instOf s x.1.id c = some x.2 → launchOf s x.1.id = some x.1 →
    x.1.insts.any (fun i => i.phase == .refused) = false → footprintBad s x.1.image x.1.ctx c x.1.id = false →
    firstPlace s (placements s x.1.image c) = some p →
    ∃ t, exec (.launchStage c) s = .next t ∧
      instOf t x.1.id c = some
        { x.2 with phase := if (courseOf s c).preload = some x.1.id then .staged else .staging, checked := true, origin := p.origin, transform := p.transform, bricks := p.bricks, roles := [] } ∧ t.mem = s.mem ∧ t.rings = s.rings) ∧
  (∀ (s s1 : State) (id c : Nat) (l : Launch) (i : Inst) (img : List Nat), launchOf s id = some l → instOf s id c = some i →
    i.phase = .staging →
    readMem c l.ctx (slotAddr (fld l.raw 4 4 % 4096))
      (min 131072 (max 384 (leNat ((List.range 4).map (fun k => slotByte s (fld l.raw 4 4 % 4096) (8 + k))))))
      [(l.id, 0x0711, c)] s = (0, img, s1) → imageOk img = true →
    ∃ t, exec (.stagingComplete id c) s = .next t ∧ instOf t id c = some { i with phase := .staged } ∧
      (launchOf t id).map (·.image) = some img) ∧
  (∀ (s : State) (id c : Nat) (l : Launch) (i : Inst), launchOf s id = some l → instOf s id c = some i → i.phase = .staged →
    l.accepted = true → trowelOpen s c = true → courseCtx s c = l.ctx → i.bricks.all (brickFree s) = true →
    ∃ t, exec (.bondActivate id c) s = .next t ∧ rdB t TRW_COURSE_STATE.running (atCourse c 0x100) = true ∧
      (courseOf t c).owner = l.ctx ∧ (courseOf t c).prev = some (i.origin, i.transform) ∧ t.mem = s.mem ∧
      ∃ r, instOf t id c = some { i with phase := .active, cycles := 0, roles := r } ∧ r.map (·.brick) = i.bricks ∧
        r.all (fun x => !x.halted && x.pc == 0)) ∧
  (∀ (s : State) (id c : Nat) (l : Launch) (i : Inst), launchOf s id = some l → instOf s id c = some i → i.phase = .active →
    i.roles.all (·.halted) = true → l.insts.all (fun k => k.phase == .done || k.course == c) = false →
    ∃ t, exec (.instanceComplete id c) s = .next t ∧ instOf t id c = some { i with phase := .done, status := 0 } ∧
      t.mem = s.mem ∧ t.rings = s.rings)

/-- An active instance whose counted cycles pass wcet_cycles, or with a role that runs and may so have spent the rest (the
model's choice), has its open context torn down with cause 0x0110; a Course watchdog at its deadline disarms, lets
time reach the deadline and tears the open context that holds the Course, or whose state lies there, down with cause
0x0111. In run each Trowel's heartbeat sends the Course, its context and its count of completions, and is heard by
each island that watches and whose link to the die is not lost, and by no other. A preempted single-Course launch on
an open Course that its context holds, none of its Bricks lost, becomes active again with its roles past their PPOINT.
A failed neighbour link is fenced in its Course's map. Where it goes beyond the words of the rules it rests on the
model's own readings, log entries 71 and 52. (R78, R79, R80, R81, R86, R94, R278) -/
def Obligations.TrowelBudgetsAndHeartbeat : Prop :=
  (∀ (s : State) (id c : Nat) (l : Launch) (i : Inst), launchOf s id = some l → instOf s id c = some i → i.phase = .active →
    (imgWcet l.image < i.cycles ∨ i.roles.any Role.counts = true) → ctxOpen s l.ctx = true →
    ∃ t, exec (.wcetExceeded id c) s = .next t ∧ (ctxOf t l.ctx).scrubCause = some 0x0110 ∧
      rd t HST_CTX_STATE.state (l.ctx * 0x100) = 2 ∧ now t = now s) ∧
  (∀ (s : State) (c d h : Nat), (courseOf s c).wdogAt = some d → ticking s = false →
    h = (if courseCtx s c < 64 then courseCtx s c else (courseOf s c).owner) → ctxOpen s h = true →
    ∃ t, exec (.courseWatchdogExpiry c) s = .next t ∧ now t = max (now s) d ∧
      (ctxOf t h).scrubCause = some 0x0111 ∧ rd t HST_CTX_STATE.state (h * 0x100) = 2) ∧
  (∀ (s : State) (c : Nat), s.mode = .run → c < 64 →
    ∃ t, exec (.trowelHeartbeat c) s = .next t ∧
      t.out = s.out ++ [⟨.trowelHeartbeat, [c, courseCtx s c, (courseOf s c).completions]⟩] ∧
      (∀ i ∈ [5, 6], islandOf t i = if watching s i = true ∧ (islandOf s i).lost.contains (courseDie c) = false
        then { islandOf s i with heard := aset (islandOf s i).heard c (osc s) 0 } else islandOf s i) ∧
      t = { s with out := t.out, isl := { s.isl with matin := t.isl.matin, vesper := t.isl.vesper } }) ∧
  (∀ (s : State) (id c : Nat) (l : Launch) (i : Inst), launchOf s id = some l → l.insts = [i] → i.course = c →
    i.phase = .preempted → trowelOpen s c = true → courseCtx s c = l.ctx → i.bricks.any (brickLost s id) = false →
    ∃ t, exec (.instanceResume id) s = .next t ∧ rdB t TRW_COURSE_STATE.running (atCourse c 0x100) = true ∧
      instOf t id c = some { i with
        phase := .active
        roles := i.roles.map (fun r => if r.atPpoint then { r with atPpoint := false, ppoints := r.ppoints + 1 } else r) } ∧
      t.mem = s.mem ∧ t.rings = s.rings) ∧
  (∀ (s : State) (c k : Nat), c < 64 → k < 24 → bit (rd s TRW_LINK_FENCE.link_fenced (atCourse c 0x100)) k = false →
    (instsOn s c).all (fun x => x.2.phase != .active) = true →
    ∃ t, exec (.neighbourLinkFailure c k) s = .next t ∧
      bit (rd t TRW_LINK_FENCE.link_fenced (atCourse c 0x100)) k = true ∧ t.fab = s.fab ∧ t.clock = s.clock)

/-- In run, with fewer than 16 jobs, the oldest waiting SIEVE descriptor whose record and thresholds are read and pass
every check of class 0x03 joins the end of the Sieve queue with its record and thresholds, leaves the list of those
that wait, and queue_depth counts it. The head of the queue, its candidates and anchors read, starts, unless the reads
have torn its context down: it keeps its place, notes the slewed count and Dial time at its start, and holds the
result of the whole work on what was read. A disabled Sieve takes the head off the queue. The work keeps at most
max_detections entries, and every candidate is considered, below the score, or invalid. Where it goes beyond the words
of the rules it rests on the model's own readings, log entry 79. (R195, R197, R198, R199, R200, R202, R207, R210,
R212, R308) -/
def Obligations.SieveTakesAndStartsJobs : Prop :=
  (∀ (s s1 s2 : State) (c r n : Nat) (rest : List (Nat × Nat × Nat)) (d : Desc) (record thr : List Nat),
    s.rings.sieveIn = (c, r, n) :: rest →
    s.rings.descs.find? (fun d => d.ctx == c && d.ring == r && d.count == n) = some d →
    s.sieve.jobs.length < 16 → s.mode = .run →
    ioRead sievePort c 0x0350 false (fld d.raw 24 6) 64
      (holdRing c r .none { s with rings := { s.rings with sieveIn := rest } }) = ({ data := record }, s1) →
    sieveMalformed record = false →
    ioRead sievePort c 0x0350 (ctxSealed s1 c) (fld record 52 6) (4 * fld record 8 2) s1 = ({ data := thr }, s2) →
    threshBad record thr = false → sieveOverlap record (fld d.raw 24 6) = false →
    (ctxSealed s2 c = true → fld record 58 6 % 4096 = 0) →
    ∃ t, exec .sieveJobAccept s = .next t ∧ t.rings.sieveIn = rest ∧
      t.sieve.jobs = s.sieve.jobs ++ [{ ctx := c, ring := r, count := n, raw := d.raw, record := record, thresh := thr }] ∧
      rd t SIV_STATUS.queue_depth = s.sieve.jobs.length + 1) ∧
  (∀ (s s1 s2 : State) (j : SieveJob) (rest : List SieveJob) (cands anchors : List Nat), s.sieve.jobs = j :: rest →
    j.result = none → s.mode = .run → rdB s SIV_STATUS.disabled = false →
    ioRead sievePort j.ctx 0x0350 (ctxSealed s j.ctx) (fld j.record 40 6) (16 * fld j.record 4 2) s = ({ data := cands }, s1) →
    ioRead sievePort j.ctx 0x0350 (ctxSealed s j.ctx) (fld j.record 46 6) (16 * fld j.record 10 2) s1 = ({ data := anchors }, s2) →
    s2.sieve.jobs.head? = some j →
    ∃ t, exec .sieveJobStart s = .next t ∧ rdB t SIV_STATUS.busy = true ∧
      t.sieve.jobs = { j with startAt := now s, startDial := dial s,
                              result := some (sieveWork j.record j.thresh cands anchors) } :: rest) ∧
  (∀ (s : State) (j : SieveJob) (rest : List SieveJob), s.sieve.jobs = j :: rest → j.result = none → s.mode = .run →
    rdB s SIV_STATUS.disabled = true →
    ∃ t, exec .sieveJobStart s = .next t ∧ t.sieve.jobs = rest ∧ rdB t SIV_STATUS.disabled = true) ∧
  (∀ (record thr cands anchors : List Nat),
    (sieveWork record thr cands anchors).entries.length ≤ fld record 6 2 ∧
    (sieveWork record thr cands anchors).considered + (sieveWork record thr cands anchors).below +
      (sieveWork record thr cands anchors).invalid = fld record 4 2)

/-- The running job, once its entries and summary are written, leaves the queue, adds one to the jobs count unless the
home of its signal cannot be reached, completes its descriptor, and max_us holds at least its time in µs, saturated.
An internal fault of a Sieve that is not disabled disables it, takes the running job off the queue, ends its
descriptor, and writes event 0x0352; the queue, home map, launches and Ties stay otherwise. The summary line of a job
is 64 bytes and each entry 32. Where it goes beyond the words of the rules it rests on the model's own readings, log
entry 80. (R204, R205, R206, R210, R211, R212, R315) -/
def Obligations.SieveCompletesJobs : Prop :=
  (∀ (s s1 : State) (j : SieveJob) (w : SieveResult), s.sieve.jobs.head? = some j → j.result = some w →
    writeJob j w s = (0, s1) →
    ∃ t, exec .sieveJobComplete s = .next t ∧ t.sieve.jobs = s.sieve.jobs.tail ∧
      rd t SIV_JOB_COUNT.jobs = (rd s SIV_JOB_COUNT.jobs + (if signalReaches s1 j.raw then 1 else 0)) % 2 ^ 32 ∧
      min ((now s - j.startAt) / 1000) 0xFFFF ≤ rd t SIV_MAX_TIME.max_us ∧
      (∀ d ∈ t.rings.descs, (d.ctx, d.ring, d.count) ≠ (j.ctx, j.ring, j.count)) ∧
      t.fab = s.fab ∧ t.mem.home = s.mem.home ∧ t.clock = s.clock) ∧
  (∀ (s : State) (j : SieveJob) (w : SieveResult), s.sieve.jobs.head? = some j → j.result = some w →
    rdB s SIV_STATUS.disabled = false →
    ∃ t, exec .sieveInternalFault s = .next t ∧ rdB t SIV_STATUS.disabled = true ∧ t.sieve.jobs = s.sieve.jobs.tail ∧
      (∀ d ∈ t.rings.descs, (d.ctx, d.ring, d.count) ≠ (j.ctx, j.ring, j.count)) ∧
      t.rings.ties = s.rings.ties ∧ t.fab = s.fab ∧ t.mem.home = s.mem.home ∧ t.clock = s.clock) ∧
  (∀ (j : SieveJob) (w : SieveResult) (n : Nat), (sieveSummary j w n).length = 64) ∧
  (∀ c : Cand, (keptEntry c).length = 32)

/-- DAY_COMMIT with an aligned address below the end of HBM and a readable image, with no plan being checked, takes the
image into work with the time, sets commit_busy and leaves the plans. In the silent state it reports 0x0C40 and takes
nothing. DAY_COMMIT_COMPLETE clears commit_busy and the job; a plan that fails a check reports the status, Watch and
Course and leaves both plans; one that passes becomes the staged plan with status 0 and staged_valid, to take over,
where a plan is active, at a boundary of it at least 1 ms ahead. PLAN_TAKEOVER, while Watches run, where no plan is
active or the staged one takes over at the end of the present period, makes the staged plan active at its instant,
clears the staged plan and period index, and shows its number. Where it goes beyond the words of the rules it rests on
the model's own readings, log entries 11 and 84. (R271, R272, R773, R774, R569, R771) -/
def Obligations.DayPlanCommits : Prop :=
  (∀ (s s1 s2 : State) (v : Nat) (hdr img : List Nat), v % 2 = 1 → dieSilent s 0 = false → s.day.job = none →
    stg s DAY_PLAN_ADDR.plan_addr % 64 = 0 → stg s DAY_PLAN_ADDR.plan_addr + 64 < hbmEnd →
    readMem 72 0xFF (stg s DAY_PLAN_ADDR.plan_addr) 64 [] (commitAt 0 0x40001C s) = (0, hdr, s1) →
    readMem 72 0xFF (stg s DAY_PLAN_ADDR.plan_addr) (planLength hdr) [] s1 = (0, img, s2) →
    ∃ t, exec (.dayCommit v) s = .next t ∧ t.day = { s.day with job := some ⟨img, now s, dial s, stg s DAY_PLAN_ADDR.plan_addr⟩ } ∧
      rdB t DAY_STATUS.commit_busy = true ∧ rd t FAB_COMMIT_STATUS.busy = 1 ∧ t.clock = s.clock ∧ t.fab = s.fab) ∧
  (∀ (s : State) (v : Nat), v % 2 = 1 → dieSilent s 0 = true →
    ∃ t, exec (.dayCommit v) s = .next t ∧ rd t DAY_COMMIT_STATUS.status = 0x0C40 ∧ rd t FAB_COMMIT_STATUS.status = 0x0C40 ∧
      t = { s with regs := t.regs }) ∧
  (∀ (s : State) (j : PlanJob), s.day.job = some j → (planChecks s j).1 ≠ 0 → (planChecks s j).1 < 2 ^ 16 →
    ∃ t, exec .dayCommitComplete s = .next t ∧ t.day = { s.day with job := none } ∧
      rd t DAY_COMMIT_STATUS.status = (planChecks s j).1 ∧ rd t DAY_COMMIT_STATUS.course = (planChecks s j).2.2 % 64 ∧
      rdB t DAY_STATUS.commit_busy = false ∧ t = { s with regs := t.regs, day := t.day }) ∧
  (∀ (s : State) (j : PlanJob), s.day.job = some j → (planChecks s j).1 = 0 →
    ∃ t p, exec .dayCommitComplete s = .next t ∧ t.day.staged = some p ∧ t.day.active = s.day.active ∧ t.day.job = none ∧
      p = planOf j.image (dayPolicy ((policyBody s (fld j.image 36 4) 1).getD [])) ∧
      rd t DAY_COMMIT_STATUS.status = 0 ∧ rdB t DAY_STATUS.staged_valid = true ∧ rdB t DAY_STATUS.commit_busy = false ∧
      (∀ a, s.day.active = some a → 0 < a.periodUs → s.day.periodAt ≤ now s →
        now s + 1000000 ≤ t.day.stagedAt ∧ (a.periodUs * 1000) ∣ (t.day.stagedAt - s.day.periodAt))) ∧
  (∀ (s : State) (p : Plan), s.day.staged = some p → watchesRun s = true →
    (∀ a, s.day.active = some a → s.day.stagedAt ≤ s.day.periodAt + a.periodUs * 1000) →
    ∃ t, exec .planTakeover s = .next t ∧ t.day.active = some p ∧ t.day.staged = none ∧ t.day.begun = [] ∧
      t.day.ended = [] ∧ t.day.periodAt = s.day.stagedAt ∧ s.day.stagedAt ≤ now t ∧
      rd t DAY_ACTIVE_ID.plan_id = p.id % 2 ^ 32 ∧ rd t DAY_PERIOD_INDEX.period = 0 ∧
      rdB t DAY_STATUS.active_valid = true ∧ rdB t DAY_STATUS.staged_valid = false)

/-- While Watches run, a period boundary comes at the end of the period, moves the period on by its length, forgets which
Watches began and ended, and adds one to the period index, where no staged plan takes over at it. A Watch that occurs
and may begin on a Course begins not before its start: the Course shows its context, is held for it and has the
Watch's tests, and no launch changes; where the Course holds the context already, or nothing of the context is saved
for it, its memories stay. While Watches run, the end of a Watch that occurs in the period comes not before its end,
is noted, and each Course that it held is without a Watch and shows no context. A switch on a Course with no active
instance and no scrub, that holds no context's state, outside Night, and whose incoming context has nothing saved
there, takes 800 ns, leaves the Course's Hod and Beds zero, and leaves the incoming context holding the Course. Where
it goes beyond the words of the rules it rests on the model's own readings, log entries 86 and 90. (R252, R257, R259,
R262, R264, R274, R47) -/
def Obligations.WatchesRunOnTheSlewedCount : Prop :=
  (∀ (s : State) (p : Plan), s.day.active = some p → watchesRun s = true →
    (∀ q, s.day.staged = some q → s.day.periodAt + p.periodUs * 1000 < s.day.stagedAt) →
    ∃ t, exec .periodBoundary s = .next t ∧ t.day.active = some p ∧ t.day.staged = s.day.staged ∧
      t.day.periodAt = s.day.periodAt + p.periodUs * 1000 ∧ s.day.periodAt + p.periodUs * 1000 ≤ now t ∧
      t.day.begun = [] ∧ t.day.ended = [] ∧
      rd t DAY_PERIOD_INDEX.period = (rd s DAY_PERIOD_INDEX.period + 1) % 2 ^ 32) ∧
  (∀ (s : State) (i c : Nat) (w : Watch), watchNow s i = some w → mayBegin s i w c = true → now s < watchEndAt s w →
    0 < w.lengthUs → c < 64 → (courseOf s c).owner < 64 ∨ aget s.day.saved (w.ctx * 64 + c) 0 = 0 →
    ∃ t, exec (.watchStart i c) s = .next t ∧ now t = max (now s) (watchStartAt s w) ∧
      (courseOf t c).watch = some i ∧ (courseOf t c).owner = (if w.ctx < 64 then w.ctx else 0xFF) ∧
      (courseOf t c).testsLeft = w.tests ∧ (i * 64 + c) ∈ t.day.begun ∧
      rd t TRW_COURSE_STATE.context (atCourse c 0x100) = (if w.ctx < 64 then w.ctx else 0xFF) ∧
      t.fab.launches = s.fab.launches ∧ t.fab.hod = s.fab.hod ∧ t.fab.bed = s.fab.bed) ∧
  (∀ (s : State) (i : Nat) (w : Watch), watchNow s i = some w → i ∉ s.day.ended → watchesRun s = true →
    ∃ t, exec (.watchEnd i) s = .next t ∧ now t = max (now s) (watchEndAt s w) ∧ i ∈ t.day.ended ∧
      t.day.active = s.day.active ∧
      (∀ c < 64, bit w.mask c = true → (courseOf s c).watch = some i →
        (courseOf t c).watch = none ∧ rd t TRW_COURSE_STATE.context (atCourse c 0x100) = 0xFF)) ∧
  (∀ (s : State) (c : Nat) (sw : Switch), (courseOf s c).switch = some sw → c < 64 → activeOn s c = [] →
    (courseOf s c).scrub = false → ticking s = false → 64 ≤ (courseOf s c).owner →
    aget s.day.saved (sw.inCtx * 64 + c) 0 = 0 →
    ∃ t, exec (.switchComplete c) s = .next t ∧ now t = now s + 800 ∧
      (courseOf t c).owner = (if sw.inCtx < 64 then sw.inCtx else 0xFF) ∧
      (∀ a < 4194304, aget t.fab.hod (c * 4194304 + a) 0 = 0) ∧
      (∀ a < 4194304, aget t.fab.bed (c * 4194304 + a) 0 = 0) ∧ t.mem = s.mem)

/-- A passed test that is in work on a Brick, not a retest, notes the slewed count of the test, zeroes the Brick's Bed,
moves on to the next Brick and uses one test of the Watch, fences nothing, and the Course's next test starts on the
Brick that is next, where one may start; a failed one adds one to the failures and fences the Brick. In run, 15
minutes without a test of a Brick count one missed test, at that instant at the earliest. An overrun timer that
expires outside Night is disarmed at its instant, and where no instance is active on the Course nothing else happens;
where one is, its open context is torn down with cause 0x0520. The end of a teardown's scrub forgets the cause, and
every Course that held the context's state for the scrub is free. Where it goes beyond the words of the rules it rests
on the model's own readings, log entries 95 and 150. (R273, R275, R277, R278, R548, R549, R47) -/
def Obligations.TestsOverrunsAndScrubs : Prop :=
  (∀ (s : State) (b pk pt : Nat) (tr : TestRun), b < 1024 → s.mode = .run →
    (courseOf s (brickCourse b)).test = some tr → tr.brick = b → tr.retest = false →
    ∃ t, exec (.brickTestComplete b true pk pt) s = .next t ∧ (brickOf t b).lastTest = now s ∧ (brickOf t b).missed = 0 ∧
      (courseOf t (brickCourse b)).testsLeft = (courseOf s (brickCourse b)).testsLeft - 1 ∧
      (courseOf t (brickCourse b)).nextTest = (b + 1) % 16 ∧
      (mayTest t (brickCourse b) = true →
        (courseOf t (brickCourse b)).test.map (·.brick) = testNext t (brickCourse b)) ∧
      (mayTest t (brickCourse b) = false → (courseOf t (brickCourse b)).test = none) ∧
      (∀ a < 262144, aget t.fab.bed (b * 262144 + a) 0 = 0) ∧ t.regs = s.regs ∧ t.mem = s.mem ∧
      t.fab.hod = s.fab.hod ∧ t.fab.launches = s.fab.launches) ∧
  (∀ (s : State) (b pk pt : Nat) (tr : TestRun), b < 1024 → s.mode = .run →
    (courseOf s (brickCourse b)).test = some tr → tr.brick = b → tr.names pk = true →
    ∃ t, exec (.brickTestComplete b false pk pt) s = .next t ∧ fenced t b = true ∧
      rd t FAB_TEST_FAIL_COUNT.fails = min (rd s FAB_TEST_FAIL_COUNT.fails + 1) (2 ^ 32 - 1)) ∧
  (∀ (s : State) (b : Nat), b < 1024 → s.mode = .run →
    ∃ t, exec (.brickTestOverdue b) s = .next t ∧
      now t = max (now s) ((brickOf s b).lastTest + 900000000000 * ((brickOf s b).missed + 1)) ∧
      (brickOf t b).missed = (brickOf s b).missed + 1 ∧
      rd t DAY_TEST_MISS_COUNT.misses = min (rd s DAY_TEST_MISS_COUNT.misses + 1) (2 ^ 32 - 1) ∧
      t.day = s.day ∧ t.fab.launches = s.fab.launches) ∧
  (∀ (s : State) (c d : Nat), (courseOf s c).overrunAt = some d → activeOn s c = [] → ticking s = false →
    ∃ t, exec (.watchOverrunExpiry c) s = .next t ∧ now t = max (now s) d ∧ (courseOf t c).overrunAt = none ∧
      t.fab.launches = s.fab.launches ∧ t.mem = s.mem ∧ t.rings = s.rings ∧ t.out = s.out) ∧
  (∀ (s : State) (c d : Nat) (x : Launch × Inst) (r : List (Launch × Inst)), (courseOf s c).overrunAt = some d →
    activeOn s c = x :: r → ctxOpen s x.1.ctx = true → ticking s = false →
    ∃ t, exec (.watchOverrunExpiry c) s = .next t ∧ now t = max (now s) d ∧
      (ctxOf t x.1.ctx).scrubCause = some 0x0520 ∧ rd t HST_CTX_STATE.state (x.1.ctx * 0x100) = 2) ∧
  (∀ (s : State) (c k : Nat), c < 64 → (ctxOf s c).scrubCause = some k →
    ∃ t, exec (.teardownScrubComplete c) s = .next t ∧ (ctxOf t c).scrubCause = none ∧
      (∀ n < 64, (courseOf s n).scrub = true → (courseOf s n).owner = c →
        (courseOf t n).scrub = false ∧ (courseOf t n).owner = 0xFF) ∧
      (∀ n < 64, (courseOf s n).owner ≠ c → courseOf t n = courseOf s n) ∧
      t.fab.launches = s.fab.launches ∧ t.day = s.day ∧ t.clock = s.clock)

/-- Where the ring engine is not silent, a ring is ready, nothing that an access has met is still to be reported, and its
next descriptor of the opcode is read and passes every check: sq_head advances by one and the descriptor joins those
fetched. A FENCE, BOND_REGISTER or BOND_RELEASE holds its ring; a registration, where nothing has befallen any line of
memory, joins those in work. A TIE_SIGNAL or TIE_RESET with a route to the Tie's home sends its operation there; a
TIE_WAIT, or a LAUNCH with its wait flag, sends a wait and holds its ring. A SIEVE waits for the Sieve's queue with
its ring held. A LAUNCH whose Course dies are all reached becomes a launch with the next number and one queued
instance for each Course of its set. Where it goes beyond the words of the rules it rests on the model's own readings,
log entries 27 and 5. (R289, R299, R303, R305, R308, R309, R312, R322, R324, R341, R569) -/
def Obligations.RingsFetchDescriptors : Prop :=
  ∀ (s s0 : State) (c r op : Nat) (raw : List Nat), nextIs s c r (· == op) = true → dieSilent s 0 = false → raw.getD 0 0 = op →
    s.mem.found = [] →
    readMem 72 c (nextDesc s c r) 64 [] s = (0, raw, s0) → descCheck (noteFetch c r s0) c raw = 0 →
    (op = 3 → ∃ t, exec (.fence c r) s = .next t ∧ (ringOf t c r).head = ((ringOf s c r).head + 1) % 2 ^ 32 ∧
      (ringOf t c r).hold = .fence ∧ t.rings.descs = s.rings.descs ++ [⟨c, r, (ringOf s c r).head, raw, .held, 0, 0⟩] ∧
      t.rings.ops = s.rings.ops ∧ t.fab = s.fab) ∧
    (op = 4 → reach s 0 (tieHome (fld raw 4 4 % 2 ^ 17)) = true → ∃ t, exec (.tieSignal c r) s = .next t ∧
      (ringOf t c r).head = ((ringOf s c r).head + 1) % 2 ^ 32 ∧
      t.rings.descs = s.rings.descs ++ [⟨c, r, (ringOf s c r).head, raw, .issued, 0, 0⟩] ∧
      t.rings.ops = s.rings.ops ++
        [⟨.signal, fld raw 4 4 % 2 ^ 17, fld raw 8 4, .desc c r (ringOf s c r).head, c, 0⟩] ∧
      t.rings.ties = s.rings.ties ∧ t.fab = s.fab) ∧
    (op = 6 → reach s 0 (tieHome (fld raw 4 4 % 2 ^ 17)) = true → ∃ t, exec (.tieReset c r) s = .next t ∧
      (ringOf t c r).head = ((ringOf s c r).head + 1) % 2 ^ 32 ∧
      t.rings.descs = s.rings.descs ++ [⟨c, r, (ringOf s c r).head, raw, .issued, 0, 0⟩] ∧
      t.rings.ops = s.rings.ops ++ [⟨.reset, fld raw 4 4 % 2 ^ 17, 0, .desc c r (ringOf s c r).head, c, 0⟩] ∧
      t.rings.ties = s.rings.ties ∧ t.fab = s.fab) ∧
    (op = 5 → reach s 0 (tieHome (fld raw 4 4 % 2 ^ 17)) = true → ∃ t, exec (.tieWait c r) s = .next t ∧
      (ringOf t c r).head = ((ringOf s c r).head + 1) % 2 ^ 32 ∧ (ringOf t c r).hold = .tieWait ∧
      t.rings.descs = s.rings.descs ++ [⟨c, r, (ringOf s c r).head, raw, .waiting, 0, 0⟩] ∧
      t.rings.ops = s.rings.ops ++ [⟨if bit (fld raw 4 4) 31 then .waitEq else .waitGe, fld raw 4 4 % 2 ^ 17, fld raw 8 4,
        .desc c r (ringOf s c r).head, c, fld raw 12 4⟩] ∧ t.fab = s.fab) ∧
    (op = 2 → bit (raw.getD 1 0) 2 = false → ∃ t, exec (.sieve c r) s = .next t ∧
      (ringOf t c r).head = ((ringOf s c r).head + 1) % 2 ^ 32 ∧ (ringOf t c r).hold = .sieve ∧
      t.rings.descs = s.rings.descs ++ [⟨c, r, (ringOf s c r).head, raw, .forwarded, 0, 0⟩] ∧
      t.rings.sieveIn = s.rings.sieveIn ++ [(c, r, (ringOf s c r).head)] ∧ t.sieve = s.sieve ∧ t.fab = s.fab) ∧
    (op = 1 → bit (raw.getD 1 0) 2 = true → reach s 0 (tieHome (fld raw 40 4 % 2 ^ 17)) = true →
      ∃ t, exec (.launch c r) s = .next t ∧ (ringOf t c r).hold = .tieWait ∧ t.fab = s.fab ∧
        t.rings.ops = s.rings.ops ++ [⟨if bit (fld raw 40 4) 31 then .waitEq else .waitGe, fld raw 40 4 % 2 ^ 17, fld raw 44 4,
          .desc c r (ringOf s c r).head, c, fld raw 36 4⟩]) ∧
    (op = 1 → bit (raw.getD 1 0) 2 = false →
      ((List.range 64).filter (bit (fld raw 8 8))).all (fun g => reach s 0 (courseDie g)) = true →
      ∃ t, exec (.launch c r) s = .next t ∧ (ringOf t c r).head = ((ringOf s c r).head + 1) % 2 ^ 32 ∧
        t.rings.descs = s.rings.descs ++ [⟨c, r, (ringOf s c r).head, raw, .forwarded, 0, 0⟩] ∧
        t.fab.nextLaunch = s.fab.nextLaunch + 1 ∧
        t.fab.launches = s.fab.launches ++ [{
          id := s.fab.nextLaunch, ctx := c, ring := r, count := (ringOf s c r).head, raw := raw
          insts := ((List.range 64).filter (bit (fld raw 8 8))).map (fun g => ({ course := g } : Inst)) }]) ∧
    (op = 7 → sound s = true → ∀ (j : RegJob) (s3 : State),
      readImage c r (ringOf s c r).head (fld raw 8 6) (holdRing c r .register
        (keepDesc c r (ringOf s c r).head raw .held (noteFetch c r s0))) = (j, s3) → j.status = 0 →
      ∃ t, exec (.bondRegister c r) s = .next t ∧ (ringOf t c r).hold = .register ∧
        t.rings.descs = s.rings.descs ++ [⟨c, r, (ringOf s c r).head, raw, .held, 0, 0⟩] ∧
        t.rings.regJobs = s.rings.regJobs ++ [j] ∧ t.rings.store = s.rings.store ∧ t.fab = s.fab) ∧
    (op = 8 → (ownSlot s c (fld raw 4 4)).isSome = true → ∃ t, exec (.bondRelease c r) s = .next t ∧
      (ringOf t c r).hold = .release ∧ t.rings.store = s.rings.store ∧ t.fab = s.fab ∧
      t.rings.descs = s.rings.descs ++ [⟨c, r, (ringOf s c r).head, raw, .held, 0, 0⟩])

/-- A fence with no earlier descriptor of its scope left gives its ring free and leaves the list. A Tie operation that
arrives at its home, an add within 32 bits without waits, or a reset, sets the Tie, and a wait whose condition does
not hold waits with its deadline; no other Tie changes. A release message that reaches a die leaves the list, and a
role that waits there goes on past its wait. A pending wait of a descriptor that times out outside Night, at its
deadline at the earliest, is cancelled, counted, and its descriptor ended. A restart of stopped rings, where nothing
has befallen any line of memory, clears their stop bits and sets each to resume at the count kept. A BOND_RELEASE
whose handle no launch names frees its ring, and the slot where the handle is still the context's own. Where it goes
beyond the words of the rules it rests on the model's own readings, log entries 32 and 33. (R305, R308, R314, R322,
R323, R324, R325, R326, R775) -/
def Obligations.RingsReleaseAndComplete : Prop :=
  (∀ (s : State) (c r : Nat) (d : Desc), heldDesc s c r 3 = some d → fenceWaits s d = false → bit (d.raw.getD 1 0) 0 = false →
    ∃ t, exec (.fenceRelease c r) s = .next t ∧ (ringOf t c r).hold = .none ∧
      t.rings.descs = s.rings.descs.filter (fun x => !(x.ctx == c && x.ring == r && x.count == d.count)) ∧
      t.mem = s.mem ∧ t.fab = s.fab ∧ t.regs = s.regs) ∧
  (∀ (s : State) (h n : Nat) (op : TieOp) (rest : List TieOp), takeOp h n s.rings.ops = some (op, rest) →
    op.kind = .signal → tieValue s op.tie + op.value < 2 ^ 32 → s.rings.waits = [] → (∃ b, op.sender = .role b) →
    ∃ t, exec (.tieOperation h n) s = .next t ∧ tieValue t op.tie = tieValue s op.tie + op.value ∧
      (∀ k, k ≠ op.tie → tieValue t k = tieValue s k) ∧ t.rings.ops = rest ∧ t.mem = s.mem ∧ t.fab = s.fab) ∧
  (∀ (s : State) (h n : Nat) (op : TieOp) (rest : List TieOp), takeOp h n s.rings.ops = some (op, rest) →
    op.kind = .waitGe → tieValue s op.tie < op.value → (∀ w ∈ s.rings.waits, w.tie = op.tie → w.holdsAt (tieValue s op.tie) = false) →
    ∃ t, exec (.tieOperation h n) s = .next t ∧ t.rings.ties = s.rings.ties ∧ t.rings.ops = rest ∧
      t.rings.waits = s.rings.waits ++ [⟨op.tie, op.value, false, op.sender, op.ctx, now s + op.timeoutUs * 1000⟩] ∧
      t.rings.rels = s.rings.rels) ∧
  (∀ (s : State) (d tie : Nat) (m : TieRel) (b : Nat) (l : Launch) (i : Inst) (x : Role),
    s.rings.rels.find? (fun m => m.die == d && m.tie == tie) = some m → m.who = [.role b] →
    s.fab.launches = [l] → l.insts = [i] → i.phase = .active → i.roles = [x] → x.brick = b → x.tieWait = some tie →
    ∃ t, exec (.tieRelease d tie) s = .next t ∧ t.rings.rels = s.rings.rels.erase m ∧ t.mem = s.mem ∧
      t.fab.launches = [{ l with insts := [{ i with roles := [({ x with tieWait := none } : Role).advance] }] }]) ∧
  (∀ (s : State) (k : Nat) (w : TieWait) (c r n : Nat) (d : Desc), k < 1280 →
    s.rings.waits.find? (fun w => agentIndex w.who == k && decide (k < 1280)) = some w → w.who = .desc c r n →
    s.rings.descs.find? (fun d => d.ctx == c && d.ring == r && d.count == n && d.phase == .waiting) = some d → c < 64 →
    ticking s = false →
    ∃ t, exec (.tieWaitTimeout k) s = .next t ∧ now t = max (now s) w.deadline ∧ t.rings.waits = s.rings.waits.erase w ∧
      rd t TIE_TIMEOUT_COUNT.timeouts (dieBase (tieHome w.tie)) =
        min (rd s TIE_TIMEOUT_COUNT.timeouts (dieBase (tieHome w.tie)) + 1) (2 ^ 32 - 1) ∧
      (∀ x ∈ t.rings.descs, (x.ctx, x.ring, x.count) ≠ (c, r, n)) ∧ t.rings.ties = s.rings.ties ∧ t.fab = s.fab) ∧
  (∀ (s : State) (c m : Nat), c < 64 → sound s = true →
    rangeStatus s 72 c (com s HST_ECHO_ADDR.echo_addr (c * 0x100)) 64 true = 0 →
    ∃ t, exec (.ringRestart c m) s = .next t ∧
      (∀ r < 4, bit m r = true → ringStopped s c r = true →
        ringStopped t c r = false ∧ (ringOf t c r).head = (ringOf s c r).resume ∧ (ringOf t c r).cause = 0) ∧
      (∀ r < 4, bit m r = false → ringStopped t c r = ringStopped s c r ∧ ringOf t c r = ringOf s c r) ∧
      t.fab = s.fab ∧ t.rings.descs = s.rings.descs) ∧
  (∀ (s : State) (c r : Nat) (d : Desc), heldDesc s c r 8 = some d → bit (d.raw.getD 1 0) 0 = false →
    s.fab.launches.any (fun l => l.ctx == c && fld l.raw 4 4 == fld d.raw 4 4) = false →
    (ownSlot s c (fld d.raw 4 4)).isSome = true →
    ∃ t, exec (.bondReleaseComplete c r) s = .next t ∧ (ringOf t c r).hold = .none ∧
      (aget t.rings.store (fld d.raw 4 4 % 4096) {}).owner = none ∧
      (aget t.rings.store (fld d.raw 4 4 % 4096) {}).gen = (aget s.rings.store (fld d.raw 4 4 % 4096) {}).gen ∧
      (∀ k, k ≠ fld d.raw 4 4 % 4096 → aget t.rings.store k {} = aget s.rings.store k {}) ∧ t.mem = s.mem ∧ t.fab = s.fab) ∧
  (∀ (s : State) (c r : Nat) (d : Desc), heldDesc s c r 8 = some d →
    s.fab.launches.any (fun l => l.ctx == c && fld l.raw 4 4 == fld d.raw 4 4) = false →
    (ownSlot s c (fld d.raw 4 4)).isNone = true →
    ∃ t, exec (.bondReleaseComplete c r) s = .next t ∧ (ringOf t c r).hold = .none ∧ t.rings.store = s.rings.store ∧
      t.rings.descs = s.rings.descs.filter (fun x => !(x.ctx == c && x.ring == r && x.count == d.count)) ∧ t.fab = s.fab)

/-- A flagged write to the doorbell line of a live ring in HBM, or, for a line in the outbound window, its poll at the end
of its interval, reads the line and takes its tail where it lies at most one ring ahead of sq_head; ring 0's line also
gives the two heads. A registration in work that passes Keystone's checks with a slot free fills the first free slot
for its context with the next generation, so that its handle is one the context may launch; one that fails fills none.
In both cases the descriptor ends and the ring is free. Where it goes beyond the words of the rules it rests on the
model's own readings, log entries 29 and 96. (R286, R292, R293, R295, R302, R303, R304, R680, R784) -/
def Obligations.DoorbellsAndRegistrations : Prop :=
  (∀ (s s1 : State) (c r : Nat) (line : List Nat), ringLive s c r = true → dbAddr s c r < hbmEnd →
    readMem 72 c (dbAddr s c r) 64 [] s = (0, line, s1) →
    (fld line 0 4 + 2 ^ 32 - (ringOf s1 c r).head) % 2 ^ 32 ≤ sqSize s1 c r →
    ∃ t, exec (.doorbellWrite c r) s = .next t ∧ (ringOf t c r).tail = fld line 0 4 ∧
      (ringOf t c r).head = (ringOf s1 c r).head ∧
      (r = 0 → (ctxOf t c).cqHead = fld line 4 4 ∧ (ctxOf t c).eqHead = fld line 8 4) ∧
      (∀ k, k ≠ r → ringOf t c k = ringOf s1 c k) ∧ t.fab = s1.fab ∧ t.clock = s1.clock ∧ t.mem = s1.mem ∧ t.regs = s1.regs) ∧
  (∀ (s s1 : State) (c r due : Nat) (line : List Nat), ringLive s c r = true → inPcie (dbAddr s c r) = true →
    due = (ringOf s c r).polledAt + com s HST_SQ_CFG.poll_us (c * 0x100 + 4 * r) * 1000 →
    readMem 72 c (dbAddr s c r) 64 [] (modRing c r (fun x => { x with polledAt := now (passTo due s) }) (passTo due s)) =
      (0, line, s1) →
    (fld line 0 4 + 2 ^ 32 - (ringOf s1 c r).head) % 2 ^ 32 ≤ sqSize s1 c r →
    ∃ t, exec (.doorbellPoll c r) s = .next t ∧ (ringOf t c r).tail = fld line 0 4 ∧
      (ringOf t c r).polledAt = now (passTo due s) ∧
      (r = 0 → (ctxOf t c).cqHead = fld line 4 4 ∧ (ctxOf t c).eqHead = fld line 8 4) ∧
      (∀ k, k ≠ r → ringOf t c k = ringOf s c k) ∧ t.fab = s.fab ∧ t.clock = (passTo due s).clock ∧ t.regs = (passTo due s).regs) ∧
  (∀ (s : State) (c r : Nat) (j : RegJob) (d : Desc),
    s.rings.regJobs.find? (fun j => j.ctx == c && j.ring == r) = some j → heldDesc s c r 7 = some d → d.count = j.count →
    bondStatus s j = 0 →
    ∃ t k, exec (.bondRegisterComplete c r) s = .next t ∧ k ∈ freeSlots s ∧ (ringOf t c r).hold = .none ∧
      aget t.rings.store k {} = {
        gen := ((aget s.rings.store k {}).gen + 1) % 65536, owner := some c, keySlot := (j.image.getD []).getD 69 0
        digest := sha384 (j.image.getD []), valid := true } ∧
      handleSlot t c (k + 4096 * (((aget s.rings.store k {}).gen + 1) % 65536)) = some k ∧
      (∀ n, n ≠ k → aget t.rings.store n {} = aget s.rings.store n {}) ∧
      (∀ x ∈ t.rings.descs, (x.ctx, x.ring, x.count) ≠ (c, r, d.count)) ∧ t.fab = s.fab) ∧
  (∀ (s : State) (c r : Nat) (j : RegJob) (d : Desc),
    s.rings.regJobs.find? (fun j => j.ctx == c && j.ring == r) = some j → heldDesc s c r 7 = some d → d.count = j.count →
    bondStatus s j ≠ 0 →
    ∃ t, exec (.bondRegisterComplete c r) s = .next t ∧ t.rings.store = s.rings.store ∧
      t.rings.regJobs = s.rings.regJobs.filter (fun x => x != j) ∧
      (∀ x ∈ t.rings.descs, (x.ctx, x.ring, x.count) ≠ (c, r, d.count)) ∧ t.fab = s.fab)

/-- An opening commit of a closed context that passes every check, with nothing befallen to memory, opens it: the state
reads open, the staged fields are in force, a fresh key is drawn and recorded, the Ties of its private range are 0 and
its transfer queue is disabled. A teardown request of an open context marks it torn down with cause 0x0630 and ends
every launch of it. A closing commit of an open context leaves it closed without a key and without launches, and is
recorded. HST_COMMIT that passes its checks puts the staged ring and Tie settings in force and opens the device event
ring, with no event left waiting. Where it goes beyond the words of the rules it rests on the model's own readings,
log entry 35. (R278, R332, R335, R336, R339, R640, R688, R702, R713, R764) -/
def Obligations.ContextsOpenAndClose : Prop :=
  (∀ (s : State) (c v : Nat), c < 64 → v % 2 = 1 → dieSilent s 0 = false → stg s HST_CTX_CTRL.opened (c * 0x100) = 1 →
    rd s HST_CTX_STATE.state (c * 0x100) = 0 → firstFail (openChecks c s) = none → sound s = true → s.mem.hostErr = [] →
    ∃ t, exec (.contextOpen c v) s = .next t ∧ ctxOpen t c = true ∧ rd t FAB_COMMIT_STATUS.status = 0 ∧
      keyOf t c = s.mem.nextKey ∧ t.mem.nextKey = s.mem.nextKey + 1 ∧ t.key.nextSeq = (s.key.nextSeq + 1) % 2 ^ 32 ∧
      (∀ x ∈ ctxFields c, com t x.1 x.2 = stg s x.1 x.2 % 2 ^ x.1.width) ∧
      (∀ k, stg s HST_TIE_BASE.tie_base (c * 0x100) ≤ k →
        k < stg s HST_TIE_BASE.tie_base (c * 0x100) + stg s HST_TIE_COUNT.tie_count (c * 0x100) → tieValue t k = 0) ∧
      com t OVR_Q_CFG.enable (c * 0x40) = 0 ∧ t.fab.launches = s.fab.launches) ∧
  (∀ (s : State) (c : Nat), ctxOpen s c = true →
    ∃ t, exec (.contextTeardownRequest c) s = .next t ∧ rd t HST_CTX_STATE.state (c * 0x100) = 2 ∧
      (ctxOf t c).scrubCause = some 0x0630 ∧ (∀ l ∈ t.fab.launches, l.ctx ≠ c) ∧
      (∀ j ∈ t.sieve.jobs, j.ctx ≠ c) ∧ (∀ j ∈ t.rings.regJobs, j.ctx ≠ c) ∧ t.clock = s.clock) ∧
  (∀ (s : State) (c v : Nat), v % 2 = 1 → dieSilent s 0 = false → stg s HST_CTX_CTRL.opened (c * 0x100) = 0 →
    ctxOpen s c = true →
    ∃ t, exec (.contextClose c v) s = .next t ∧ rd t HST_CTX_STATE.state (c * 0x100) = 0 ∧ keyOf t c = 0 ∧
      (∀ l ∈ t.fab.launches, l.ctx ≠ c) ∧ t.key.nextSeq = (s.key.nextSeq + 1) % 2 ^ 32 ∧
      rd t FAB_COMMIT_STATUS.status = 0) ∧
  (∀ (s : State) (v : Nat), v % 2 = 1 → dieSilent s 0 = false → firstFail (hstChecks s) = none →
    ∃ t, exec (.hstCommit v) s = .next t ∧ (∀ x ∈ hstFields, com t x.1 x.2 = stg s x.1 x.2 % 2 ^ x.1.width) ∧
      t.rings.devOpen = true ∧ t.rings.dawnQueue = [] ∧ rd t FAB_COMMIT_STATUS.status = 0 ∧ t.fab = s.fab ∧
      t.rings.ties = s.rings.ties ∧ t.clock = s.clock)

/-- For a port that may write and read a page of HBM and does not see ciphertext there, with no write queued, nothing
befallen to memory and no pause of a retraining on its pseudo-channels, MEMORY_WRITE of a run of bytes inside the page
that meets nothing at the stack is accepted with status 0 and leaves every byte of the stacks as it was, in the queue;
MEMORY_READ of the same bytes then waits for the overlapping writes and answers status 0 with exactly the bytes
written, and every byte of a line of the stacks that the run does not touch is as before both. Where it goes beyond
the words of the rules it rests on the model's own readings, log entry 103. (R342, R348, R354, R356, R357, R358, R685) -/
def Obligations.ReadAfterWrite : Prop :=
  ∀ (s : State) (port ctx a : Nat) (data : List Nat), a + data.length ≤ hbmEnd → a % 65536 + data.length ≤ 65536 → data ≠ [] →
    (∀ x ∈ data, x < 256) → rangeStatus s port ctx a data.length true = 0 → readStatus s port ctx a data.length = 0 →
    seesCipher port ctx (ownerOf s a) = false → s.mem.queue = [] → sound s = true → pausedRange s a data.length = false →
    ∃ t u, exec (.memoryWrite port ctx a data {}) s = .next t ∧ t.bus = ⟨port, 0, []⟩ ∧ t.mem.cells = s.mem.cells ∧
      t.mem.home = s.mem.home ∧ t.fab = s.fab ∧ t.rings = s.rings ∧
      exec (.memoryRead port ctx a data.length {}) t = .next u ∧ u.bus = ⟨port, 0, data⟩ ∧
      (∀ p, p / 64 < physOf s a / 64 ∨ (physOf s a + data.length - 1) / 64 < p / 64 → rawByte u p = rawByte s p) ∧
      u.fab = s.fab ∧ u.rings = s.rings ∧ u.clock = s.clock

/-- A drain of a queue that holds one write of a stack's pseudo-channel, where no retraining pauses it, leaves the queue
empty, the write's bytes in place under its key, and every other line as it was; a paused one does not drain. Patrol
scrub moves on to the next line and changes no byte of a stack to whose memory nothing has befallen and no write is
queued. A refresh of a pseudo-channel that is not paused is noted at the time; of a paused one it is postponed. A
retraining round starts when due with the pair 0 paused and its queues drained, by a clock that does not tick in
Night; after a pair is done the next starts after 20 µs, and after pair 15 the round ends; the reads that waited for
the pair have their answers. A stack at 85 °C or more becomes hot and below 80 °C cool. Where it goes beyond the words
of the rules it rests on the model's own readings, log entries 104 and 105. (R356, R361, R363, R364, R367, R368, R369,
R370, R371, R785) -/
def Obligations.HomeControllers : Prop :=
  (∀ (s : State) (k pc : Nat) (w : QWrite), s.mem.queue = [w] → w.stack = k → w.pc = pc → w.data ≠ [] → paused s k pc = false →
    ∃ t, exec (.writeQueueDrain k pc) s = .next t ∧ t.mem.queue = [] ∧
      (∀ i < w.data.length, physByte t (w.phys + i) w.key = BitVec.ofNat 8 (w.data.getD i 0)) ∧
      (∀ p, p / 64 < w.phys / 64 ∨ (w.phys + w.data.length - 1) / 64 < p / 64 →
        rawByte t p = rawByte s p ∧ lineKeyOf t (p / 64) = lineKeyOf s (p / 64)) ∧ t = { s with mem := t.mem }) ∧
  (∀ (s : State) (k pc : Nat), paused s k pc = true → exec (.writeQueueDrain k pc) s = .next s) ∧
  (∀ (s : State) (k : Nat), k < 4 → s.mem.queue = [] → sound s = true →
    ∃ t, exec (.patrolScrub k {}) s = .next t ∧ (stackOf t k).scrubLine = ((stackOf s k).scrubLine + 1) % 402653184 ∧
      t.mem.cells = s.mem.cells ∧ t = { s with mem := t.mem } ∧ (∀ n, n ≠ k → stackOf t n = stackOf s n)) ∧
  (∀ (s : State) (k pc b : Nat), k < 4 → pc < 32 → paused s k pc = false →
    ∃ t, exec (.refresh k pc b) s = .next t ∧ aget (stackOf t k).refreshed (pc * 4096 + b) 0 = now s ∧
      aget (stackOf t k).postponed (pc * 4096 + b) 0 = aget (stackOf s k).postponed (pc * 4096 + b) 0 - 1 ∧
      t = { s with mem := t.mem } ∧ t.mem.cells = s.mem.cells) ∧
  (∀ (s : State) (k pc b : Nat), k < 4 → pc < 32 → paused s k pc = true →
    ∃ t, exec (.refresh k pc b) s = .next t ∧ (stackOf t k).refreshed = (stackOf s k).refreshed ∧
      aget (stackOf t k).postponed (pc * 4096 + b) 0 = aget (stackOf s k).postponed (pc * 4096 + b) 0 + 1 ∧
      t = { s with mem := t.mem } ∧ t.mem.cells = s.mem.cells) ∧
  (∀ (s : State) (k : Nat), k < 4 → rdB s HBM_STATUS.retraining (dieBase (k + 1)) = false → ticking s = false →
    ∃ t, exec (.retrainRoundStart k) s = .next t ∧ rdB t HBM_STATUS.retraining (dieBase (k + 1)) = true ∧
      now t = max (now s) (roundDue k (sext (rd s HBM_STATUS.temp_c (dieBase (k + 1))) 8) s) ∧
      (stackOf t k).roundStart = some (now t) ∧ (stackOf t k).pair = 0 ∧ (stackOf t k).phase = 1 ∧
      (∀ w ∈ t.mem.queue, w.stack = k → w.pc ≠ 0 ∧ w.pc ≠ 16) ∧ t.fab = s.fab ∧ t.rings = s.rings) ∧
  (∀ (s : State) (k : Nat), k < 4 → rdB s HBM_STATUS.retraining (dieBase (k + 1)) = true → (stackOf s k).phase = 2 → ticking s = false →
    ∃ t, exec (.retrainPairStart k) s = .next t ∧ now t = max (now s) ((stackOf s k).pairAt + 20000) ∧
      (stackOf t k).pair = (stackOf s k).pair + 1 ∧ (stackOf t k).phase = 1 ∧
      (∀ w ∈ t.mem.queue, w.stack = k → w.pc ≠ (stackOf s k).pair + 1 ∧ w.pc ≠ (stackOf s k).pair + 17) ∧
      t.fab = s.fab ∧ t.rings = s.rings) ∧
  (∀ (s : State) (k : Nat), k < 4 → rdB s HBM_STATUS.retraining (dieBase (k + 1)) = true → (stackOf s k).phase = 1 →
    (∀ lo hi : Bool, (stackOf s k).pair < 16 → ∃ t, exec (.retrainPairDone k lo hi) s = .next t ∧
      bit (rd t HBM_STATUS.retrain_fail_map (dieBase (k + 1))) (stackOf s k).pair = (!lo || !hi) ∧
      rdB t HBM_STATUS.retraining (dieBase (k + 1)) = decide ((stackOf s k).pair ≠ 15) ∧
      (stackOf t k).phase = (if (stackOf s k).pair = 15 then 0 else 2)) ∧
    ∃ t, exec (.retrainPairDone k true true) s = .next t ∧
      rdB t HBM_STATUS.retraining (dieBase (k + 1)) = decide ((stackOf s k).pair ≠ 15) ∧
      (stackOf t k).phase = (if (stackOf s k).pair = 15 then 0 else 2) ∧
      ((stackOf s k).pair = 15 → (stackOf t k).roundEnd = some (now s)) ∧ (∀ x ∈ t.mem.answers, x.stack ≠ k) ∧ t.mem.cells = s.mem.cells ∧ t.rings = s.rings) ∧
  (∀ (s : State) (k : Nat) (c : Int), k < 4 → -128 ≤ c → c < 128 →
    ∃ t, exec (.stackTempRead k c) s = .next t ∧ rd t HBM_STATUS.temp_c (dieBase (k + 1)) = enc c 8 ∧
      (85 ≤ c → rdB t HBM_STATUS.hot (dieBase (k + 1)) = true) ∧ (c < 80 → rdB t HBM_STATUS.hot (dieBase (k + 1)) = false) ∧
      (80 ≤ c → c < 85 → rdB t HBM_STATUS.hot (dieBase (k + 1)) = rdB s HBM_STATUS.hot (dieBase (k + 1))) ∧
      t.clock = s.clock ∧ t.fab = s.fab)

/-- An HBM_MAP_COMMIT that passes its checks takes the run into work. Its completion installs every entry of the run and
no other, clears the work and busy; for a run of one page whose owner changes to another than free, the page's frame
reads as zeros under the new owner's key. HBM_SHARE_COMMIT puts every share mask in force, and HBM_COMMIT a threshold
that is not 0, on a stack that is reached; one that is not discards it with 0x0810. A PLB_COMMIT that passes its
checks holds exactly the contracts whose kind is not none, with the staged reservations, and what the ledger then
shows reserved on a stack is at most its limit. Where it goes beyond the words of the rules it rests on the model's
own readings, log entries 97, 108 and 109. (R349, R350, R351, R352, R376, R377, R383, R385, R387, R764) -/
def Obligations.MapSharesAndContracts : Prop :=
  (∀ (s s1 : State) (v : Nat) (img : List Nat), v % 2 = 1 → dieSilent s 0 = false → firstFail (mapSetup s) = none →
    readMem 72 0xFF (stg s HBM_MAP_SRC.src) (stg s HBM_MAP_COUNT.count * 4) [] (commitAt 0 0xB00020 s) = (0, img, s1) →
    mapChecks s1 (stg s HBM_MAP_FIRST.first) (stg s HBM_MAP_COUNT.count)
      ((List.range (stg s HBM_MAP_COUNT.count)).map (fun i => fld img (4 * i) 4)) = none →
    ∃ t, exec (.hbmMapCommit v) s = .next t ∧ rdB t HBM_MAP_STATUS.busy = true ∧ t.mem.home = s1.mem.home ∧
      t.mem.mapJob = some ⟨stg s HBM_MAP_FIRST.first,
        (List.range (stg s HBM_MAP_COUNT.count)).map (fun i => fld img (4 * i) 4)⟩ ∧ t.fab = s1.fab) ∧
  (∀ (s : State) (j : MapJob), s.mem.mapJob = some j →
    ∃ t, exec .mapCommitComplete s = .next t ∧ t.mem.mapJob = none ∧ rdB t HBM_MAP_STATUS.busy = false ∧
      rd t HBM_MAP_STATUS.status = 0 ∧ (∀ i < j.entries.length, homeEntry t (j.first + i) = j.entries.getD i 0) ∧
      (∀ p, p < j.first ∨ j.first + j.entries.length ≤ p → homeEntry t p = homeEntry s p) ∧
      t = { s with mem := t.mem, regs := t.regs }) ∧
  (∀ (s : State) (p e : Nat), s.mem.mapJob = some ⟨p, [e]⟩ → bits e 24 8 ≠ 0xFF → bits e 24 8 ≠ bits (homeEntry s p) 24 8 →
    ∃ t, exec .mapCommitComplete s = .next t ∧
      (∀ i < 65536, physByte t (entryFrame e * 65536 + i) (keyOf t (bits e 24 8)) = 0) ∧
      (∀ a, a / 65536 ≠ entryFrame e → rawByte t a = rawByte s a)) ∧
  (∀ (s : State) (v : Nat), v % 2 = 1 → dieSilent s 0 = false →
    ∃ t, exec (.hbmShareCommit v) s = .next t ∧ rd t FAB_COMMIT_STATUS.status = 0 ∧
      (∀ x ∈ shareFields, com t x.1 x.2 = stg s x.1 x.2 % 2 ^ x.1.width) ∧ t = { s with regs := t.regs }) ∧
  (∀ (s : State) (k v : Nat), k < 4 → v % 2 = 1 → reach s 0 (k + 1) = true → dieSilent s (k + 1) = false →
    stg s HBM_CE_THRESH.threshold (dieBase (k + 1)) ≠ 0 →
    ∃ t, exec (.hbmCommit k v) s = .next t ∧ rd t FAB_COMMIT_STATUS.status (dieBase (k + 1)) = 0 ∧
      com t HBM_CE_THRESH.threshold (dieBase (k + 1)) = stg s HBM_CE_THRESH.threshold (dieBase (k + 1)) % 2 ^ 16 ∧
      t = { s with regs := t.regs }) ∧
  (∀ (s : State) (k v : Nat), k < 4 → reach s 0 (k + 1) = false →
    exec (.hbmCommit k v) s = .next { s with bus := ⟨68, 0x0810, []⟩ }) ∧
  (∀ (s : State) (v : Nat), v % 2 = 1 → dieSilent s 0 = false → (plbResult s).1 = 0 →
    ∃ t, exec (.plbCommit v) s = .next t ∧ rd t PLB_COMMIT_STATUS.status = 0 ∧ rd t FAB_COMMIT_STATUS.status = 0 ∧
      (∀ p < 74, rdB t PLB_PORT_STATE.held (p * 16) = decide (stgKind s p ≠ 0)) ∧
      (∀ p < 74, ∀ k < 4, portBw t p k = stgBw s p k) ∧
      (∀ k < 4, rd t PLB_LEDGER.reserved_gbps (k * 4) ≤ rd t PLB_LEDGER.limit_gbps (k * 4)) ∧ t = { s with regs := t.regs })

/-- A retrain of a port that may train, on a die that is reached, or a loss of framing of one that is up, puts its end
into training under the epoch after the newer of its last and the last received, with width 0 and no lane in use; a
retrain on a die that is not reached is discarded with 0x0810. An end that has measured its lanes and has no proposal
from its peer holds its own: the good lanes and the width that they allow. A proposal of the end's epoch with the same
width, not 0, from the peer that the straps give sets the width to check; one of a newer epoch restarts the training
at that epoch, or, where it is the next epoch of a training whose width is being checked, begins the second attempt at
the width below. A passed framing check after the peer's READY, or a matching READY after a passed check, brings the
end up at the width. An end in training that hears nothing for 1 ms goes down then, and one whose sideband lane fails
at once. Where it goes beyond the words of the rules it rests on the model's own readings, log entries 111 and 112.
(R402, R403, R404, R405, R406, R407, R408, R409, R410) -/
def Obligations.MortarPortsTrain : Prop :=
  (∀ (s : State) (d p : Nat), 1 ≤ d → d ≤ 4 → reach s 0 d = false →
    exec (.portRetrain d p) s = .next { s with bus := ⟨68, 0x0810, []⟩ }) ∧
  (∀ (s : State) (d p : Nat), mayTrain s d p = true → (d = 0 ∨ reach s 0 d = true) →
    ∃ t, exec (.portRetrain d p) s = .next t ∧ endState t d p = 1 ∧
      endEpoch t d p = (newest (endEpoch s d p) (endOf s d p).rxEpoch + 1) % 65536 ∧
      endWidth t d p = 0 ∧ endData t d p = 0 ∧ (endOf t d p).proposal = none ∧ (endOf t d p).attempt = 1 ∧
      t.fab = s.fab ∧ t.clock = s.clock) ∧
  (∀ (s : State) (d p : Nat), isEnd d p = true → endState s d p = 2 →
    ∃ t, exec (.framingLoss d p) s = .next t ∧ endState t d p = 1 ∧
      endEpoch t d p = (newest (endEpoch s d p) (endOf s d p).rxEpoch + 1) % 65536 ∧
      endWidth t d p = 0 ∧ (endOf t d p).before = endWidth s d p ∧ t.fab = s.fab ∧ t.clock = s.clock) ∧
  (∀ (s : State) (d p good : Nat), isEnd d p = true → endState s d p = 1 → (endOf s d p).proposal = none →
    (endOf s d p).peer = none →
    ∃ t, exec (.laneMeasurementComplete d p good) s = .next t ∧ endGood t d p = good % 2 ^ 22 ∧
      (endOf t d p).proposal = some (widthFor (popcount (good % 2 ^ 22) 22), good % 2 ^ 22) ∧ endState t d p = 1 ∧
      t.out = s.out ++ [⟨.mortarProposal, [linkOf d p, endEpoch s d p, widthFor (popcount (good % 2 ^ 22) 22),
        good % 2 ^ 22, strapDie s d, p]⟩] ∧ t.mem = s.mem ∧ t.rings = s.rings) ∧
  (∀ (s : State) (d p ep w map mine : Nat), mayTrain s d p = true → ep % 65536 = endEpoch s d p → endState s d p = 1 →
    (endOf s d p).attempt = 1 → (endOf s d p).peer = none → (endOf s d p).proposal = some (w, mine) → w ≠ 0 →
    ∃ t, exec (.trainingProposal d p ep w map (peerOf (strapDie s d) p).1 (peerOf (strapDie s d) p).2) s = .next t ∧
      endOf t d p = { endOf s d p with heard := now s, rxEpoch := newest (endOf s d p).rxEpoch (ep % 65536), peer := some (w, map), target := w } ∧ t = { s with mortar := t.mortar }) ∧
  (∀ (s : State) (d p ep w map : Nat), mayTrain s d p = true → newer (ep % 65536) (endEpoch s d p) = true →
    (endState s d p ≠ 1 ∨ (endOf s d p).target = 0) →
    ∃ t, exec (.trainingProposal d p ep w map (peerOf (strapDie s d) p).1 (peerOf (strapDie s d) p).2) s = .next t ∧
      endState t d p = 1 ∧ endEpoch t d p = ep % 65536 ∧ (endOf t d p).peer = some (w, map) ∧
      (endOf t d p).proposal = none ∧ (endOf t d p).attempt = 1 ∧ t.fab = s.fab) ∧
  (∀ (s : State) (d p w map : Nat), mayTrain s d p = true → endState s d p = 1 → (endOf s d p).attempt = 1 →
    newer ((endEpoch s d p + 1) % 65536) (endEpoch s d p) = true → (endOf s d p).target ∈ [12, 16, 20] →
    ∃ t, exec (.trainingProposal d p (endEpoch s d p + 1) w map (peerOf (strapDie s d) p).1 (peerOf (strapDie s d) p).2) s = .next t ∧
      endState t d p = 1 ∧ endEpoch t d p = (endEpoch s d p + 1) % 65536 ∧ (endOf t d p).attempt = 2 ∧
      (endOf t d p).want = lowerWidth (endOf s d p).target ∧ (endOf t d p).peer = some (w, map) ∧
      (endOf t d p).proposal = none ∧ t.fab = s.fab) ∧
  (∀ (s : State) (d p : Nat), isEnd d p = true → endState s d p = 1 → 8 ≤ (endOf s d p).target →
    (endOf s d p).target ≤ 20 → (endOf s d p).sent = false → (endOf s d p).got = true →
    ∃ t, exec (.framingCheckEnd d p true) s = .next t ∧ endState t d p = 2 ∧ endWidth t d p = (endOf s d p).target ∧
      endData t d p = lowLanes (endGood s d p) (endOf s d p).target % 2 ^ 22 ∧ endEpoch t d p = endEpoch s d p ∧ t.fab = s.fab) ∧
  (∀ (s : State) (d p : Nat), isEnd d p = true → endState s d p = 1 → 8 ≤ (endOf s d p).target → (endOf s d p).sent = false →
    ((endOf s d p).got = false → exec (.framingCheckEnd d p true) s = .next (modEnd d p (fun e => { e with sent := true })
      { s with out := s.out ++ [⟨.mortarReady, [linkOf d p, endEpoch s d p, (endOf s d p).target]⟩] })) ∧
    ((endOf s d p).attempt = 1 → (endOf s d p).target ∈ [12, 16, 20] →
      ∃ t, exec (.framingCheckEnd d p false) s = .next t ∧ endState t d p = 1 ∧ endEpoch t d p = (endEpoch s d p + 1) % 65536 ∧
        (endOf t d p).attempt = 2 ∧ (endOf t d p).want = lowerWidth (endOf s d p).target ∧ t.fab = s.fab) ∧
    ((endOf s d p).attempt ≠ 1 ∨ (endOf s d p).target = 8 →
      ∃ t, exec (.framingCheckEnd d p false) s = .next t ∧ endState t d p = 0 ∧ endWidth t d p = 0 ∧ t.fab = s.fab)) ∧
  (∀ (s : State) (d p ep w map pd pp : Nat), mayTrain s d p = true → ep % 65536 = endEpoch s d p → endState s d p = 1 →
    peerOf (strapDie s d) p ≠ (pd, pp) → d ≠ 0 ∨ (pd, pp) ≠ peerOf 0 p →
    ∃ t, exec (.trainingProposal d p ep w map pd pp) s = .next t ∧ endState t d p = 0 ∧ endWidth t d p = 0 ∧ t.fab = s.fab) ∧
  (∀ (s : State) (d p ep : Nat), mayTrain s d p = true → endState s d p = 1 → ep % 65536 = endEpoch s d p →
    8 ≤ (endOf s d p).target → (endOf s d p).target ≤ 20 → (endOf s d p).sent = true →
    ∃ t, exec (.trainingReady d p ep (endOf s d p).target) s = .next t ∧ endState t d p = 2 ∧
      endWidth t d p = (endOf s d p).target ∧ endEpoch t d p = endEpoch s d p ∧ t.fab = s.fab) ∧
  (∀ (s : State) (d p : Nat), isEnd d p = true → endState s d p = 1 → (endOf s d p).peerTest = false → ticking s = false →
    ∃ t, exec (.sidebandSilent d p false) s = .next t ∧ endState t d p = 0 ∧ endWidth t d p = 0 ∧
      now t = max (now s) ((endOf s d p).heard + 1000000) ∧ (endOf t d p).replay = [] ∧ t.fab = s.fab) ∧
  (∀ (s : State) (d p : Nat), isEnd d p = true → endState s d p = 1 → (endOf s d p).peerTest = false →
    ∃ t, exec (.sidebandSilent d p true) s = .next t ∧ endState t d p = 0 ∧ endWidth t d p = 0 ∧ now t = now s ∧
      (endOf t d p).replay = [] ∧ t.fab = s.fab)

/-- A flit that an up end takes in order with a good CRC, no lane disturbed and no lane repair in work, is acknowledged
there and its credits returned to the sender, and nothing else changes but what waits to be sent again; one that
arrives garbled, not behind a discarded one, asks for a replay from the next number and is not taken. A replay request
of an up port counts and resends, in order, what is buffered from the number on. A repair message of the epoch moves
the data of a sending lane, at once where its boundary is reached, else when the flits come to it. A commit that asks
for one loopback that isolates no die puts the port under test for its test_ms and its peer into training; without a
loopback it puts the fields in force; a die that is not reached discards either. All three loopbacks of a die whose
debug port is unlocked make the stand-alone test, which tests the unused port with them. The end of the test trains
the port again, or adds up the errors of the unused port. Where it goes beyond the words of the rules it rests on the
model's own readings, log entries 113 and 114. (R390, R393, R395, R396, R397, R404, R419, R421, R422, R428) -/
def Obligations.MortarFlitsAndTests : Prop :=
  (∀ (s : State) (d p : Nat) (f : List Nat) (e : PortEnd), isEnd d p = true → endState s d p = 2 → (endOf s d p).parity = [] →
    flitSent (endOf s (peerOf d p).1 (peerOf d p).2) f = some e → outOfTurn s (peerOf d p).1 d f = false →
    crc32c (slice f 0 252) = fld f 252 4 → fld f 240 2 = (endOf s d p).rxNext → (endOf s d p).moves = [] →
    bits (f.getD 244 0) 2 2 ≠ 2 →
    ∃ t, exec (.flitReceive d p f false (fld f 249 3) 0) s = .next t ∧ endOf t d p = flitTaken (endOf s d p) f ∧
      endOf t (peerOf d p).1 (peerOf d p).2 = creditsReturned e f ∧ t = { s with mortar := t.mortar }) ∧
  (∀ (s : State) (d p : Nat) (f : List Nat) (e : PortEnd), isEnd d p = true → endState s d p = 2 → (endOf s d p).parity = [] →
    flitSent (endOf s (peerOf d p).1 (peerOf d p).2) f = some e → outOfTurn s (peerOf d p).1 d f = false →
    ((endOf s d p).discarding = false ∨ fld f 240 2 = (endOf s d p).rxNext) →
    ∃ t, exec (.flitReceive d p f true (fld f 249 3) 0) s = .next t ∧ endOf t d p = { endOf s d p with discarding := true } ∧
      t.out = s.out ++ [⟨.mortarReplay, [linkOf d p, (endOf s d p).rxNext]⟩] ∧ t = { s with mortar := t.mortar, out := t.out }) ∧
  (∀ (s : State) (d p n : Nat), isEnd d p = true → endState s d p = 2 →
    ∃ t, exec (.replayRequest d p n) s = .next t ∧ t.mortar = s.mortar ∧
      t.out = s.out ++ (((endOf s d p).replay.filter (fun f => fld f 240 2 == n || newer (fld f 240 2) n)).map
        (fun f => ⟨.mortarReplay, [linkOf d p] ++ f⟩)) ∧ t = { s with regs := t.regs, out := t.out }) ∧
  (∀ (s : State) (d p ep l r b : Nat), isEnd d p = true → endState s d p = 2 → ep % 65536 = endEpoch s d p →
    bit (endOf s d p).txLanes l = true → (endOf s d p).txMoves = [] → r < 22 →
    ∃ t, exec (.laneRepairMessage d p ep l r b) s = .next t ∧
      (newer (b % 65536) (endOf s d p).txNext = false →
        (endOf t d p).txLanes = setBit (setBit (endOf s d p).txLanes l false) r true ∧ (endOf t d p).txMoves = []) ∧
      (newer (b % 65536) (endOf s d p).txNext = true →
        (endOf t d p).txLanes = (endOf s d p).txLanes ∧ (endOf t d p).txMoves = [(b % 65536, l, r)]) ∧
      t = { s with mortar := t.mortar, regs := t.regs }) ∧
  (∀ (s : State) (d p v : Nat), d ≤ 4 → v % 2 = 1 → dieSilent s d = false → loopbacks s d = [p] → loopbackBad s d p = false →
    (d = 0 ∨ reach s 0 d = true) →
    (∀ q ∈ endsOf d, 1 ≤ endStg s d q MTR_PORT_CTRL.test_ms MTR_HUB_PORT_CTRL.test_ms ∧
      endStg s d q MTR_PORT_CTRL.test_ms MTR_HUB_PORT_CTRL.test_ms ≤ 10000) →
    ∃ t, exec (.mtrLoopbackCommit d v) s = .next t ∧ endState t d p = 3 ∧ endState t (peerOf d p).1 (peerOf d p).2 = 1 ∧
      (endOf t d p).testEnd = some (now s + endStg s d p MTR_PORT_CTRL.test_ms MTR_HUB_PORT_CTRL.test_ms * 1000000) ∧
      (endOf t (peerOf d p).1 (peerOf d p).2).peerTest = true ∧ rd t FAB_COMMIT_STATUS.status (dieBase d) = 0 ∧
      t.fab = s.fab ∧ t.clock = s.clock) ∧
  (∀ (s : State) (d v : Nat), d ≤ 4 → v % 2 = 1 → dieSilent s d = false → loopbacks s d = [] →
    (d = 0 ∨ reach s 0 d = true) →
    (∀ q ∈ endsOf d, 1 ≤ endStg s d q MTR_PORT_CTRL.test_ms MTR_HUB_PORT_CTRL.test_ms ∧
      endStg s d q MTR_PORT_CTRL.test_ms MTR_HUB_PORT_CTRL.test_ms ≤ 10000) →
    ∃ t, exec (.mtrCommit d v) s = .next t ∧ (∀ x ∈ mtrFields d, com t x.1 x.2 = stg s x.1 x.2 % 2 ^ x.1.width) ∧
      rd t FAB_COMMIT_STATUS.status (dieBase d) = 0 ∧ t = { s with regs := t.regs }) ∧
  (∀ (s : State) (d v : Nat), 1 ≤ d → d ≤ 4 → reach s 0 d = false →
    exec (.mtrCommit d v) s = .next { s with bus := ⟨68, 0x0810, []⟩ }) ∧
  (∀ (s : State) (d v : Nat), d ≤ 4 → v % 2 = 1 → dieSilent s d = false → reach s 0 d = true → standAlone s d = true →
    (∀ q ∈ endsOf d, 1 ≤ endStg s d q MTR_PORT_CTRL.test_ms MTR_HUB_PORT_CTRL.test_ms ∧
      endStg s d q MTR_PORT_CTRL.test_ms MTR_HUB_PORT_CTRL.test_ms ≤ 10000) →
    ∃ t, exec (.mtrLoopbackCommit d v) s = .next t ∧ (∀ p ∈ endsOf d, endState t d p = 3) ∧
      (d, List.replicate 22 0) ∈ t.mortar.alone ∧ rd t FAB_COMMIT_STATUS.status (dieBase d) = 0 ∧ t.fab = s.fab) ∧
  (∀ (s : State) (d : Nat) (x : Nat × List Nat) (l : List Nat), 1 ≤ d → d ≤ 4 → s.mortar.alone.find? (fun e => e.1 == d) = some x →
    ∃ t, exec (.loopbackTestEnd d 3 l) s = .next t ∧
      (d, (List.range 22).map (fun i => min (x.2.getD i 0 + l.getD i 0) 255)) ∈ t.mortar.alone ∧ t = { s with mortar := t.mortar }) ∧
  (∀ (s : State) (d p e : Nat) (l : List Nat), isEnd d p = true → endState s d p = 3 → (endOf s d p).testEnd = some e →
    ticking s = false →
    ∃ t, exec (.loopbackTestEnd d p l) s = .next t ∧ now t = max (now s) e ∧ endState t d p = 1 ∧
      endEpoch t d p = (newest (endEpoch s d p) (endOf s d p).rxEpoch + 1) % 65536 ∧ (endOf t d p).testEnd = none ∧
      (endOf t (peerOf d p).1 (peerOf d p).2).peerTest = false ∧ t.mem = s.mem ∧ t.rings = s.rings ∧ t.fab = s.fab)

/-- In run every grant period sends each die that is reached, and no other, the caps that it is to have where they do not
raise the sum of the applied caps beyond 468 W, and never caps above those it is to have. A die applies its oldest
grant in range, its caps then being the grant's, notes the time and reports them; a grant out of range changes no cap
and counts as missing. The Hearth takes the caps that a report names as applied. A die without a grant for 500 µs
holds itself to at most 85 quarter-watts of core and 20 of HBM; without a report the Hearth counts the die at its last
grant. Where it goes beyond the words of the rules it rests on the model's own readings, log entries 116 and 118.
(R423, R424, R425, R426, R653) -/
def Obligations.BudgetMessages : Prop :=
  (∀ (s : State), s.mode ≠ .run → exec .budgetGrantPeriod s = .next s) ∧
  (∀ (s : State), s.mode = .run →
    ∃ t, exec .budgetGrantPeriod s = .next t ∧
      (∀ n ∈ [1, 2, 3, 4], reach s 0 n = false → budgetOf t n = budgetOf s n) ∧
      (∀ n ∈ [1, 2, 3, 4], reach s 0 n = true → (budgetOf t n).seq = ((budgetOf s n).seq + 1) % 256 ∧
        (budgetOf t n).granted.1 ≤ (capTarget s n).1 ∧ (budgetOf t n).granted.2 ≤ (capTarget s n).2 ∧
        (budgetOf t n).applied = (budgetOf s n).applied) ∧
      (t.mortar.grants.drop s.mortar.grants.length).map (·.die) = [1, 2, 3, 4].filter (reach s 0) ∧
      t = { s with mortar := t.mortar, out := t.out }) ∧
  (∀ (s : State) (d : Nat), s.mortar.grants.find? (fun g => g.die == d) = none → exec (.budgetGrant d) s = .next s) ∧
  (∀ (s : State) (d : Nat), s.mortar.reports.find? (fun r => r.die == d) = none → exec (.budgetReport d) s = .next s) ∧
  (∀ (s : State) (d : Nat) (g : Grant), 1 ≤ d → d ≤ 4 → s.mortar.grants.find? (fun g => g.die == d) = some g → grantOk g = true →
    ∃ t, exec (.budgetGrant d) s = .next t ∧ rd t MTR_BUDGET.core_cap (dieBase d) = g.core ∧
      rd t MTR_BUDGET.hbm_cap (dieBase d) = g.hbm ∧ (budgetOf t d).grantAt = now s ∧ (budgetOf t d).fallback = false ∧
      t.mortar.grants = s.mortar.grants.erase g ∧ t.mortar.reports.length = s.mortar.reports.length + 1 ∧
      t.mem = s.mem ∧ t.fab = s.fab ∧ t.rings = s.rings) ∧
  (∀ (s : State) (d : Nat) (g : Grant), 1 ≤ d → d ≤ 4 → s.mortar.grants.find? (fun g => g.die == d) = some g → grantOk g = false →
    ∃ t, exec (.budgetGrant d) s = .next t ∧ rd t MTR_BUDGET.core_cap (dieBase d) = rd s MTR_BUDGET.core_cap (dieBase d) ∧
      rd t MTR_MISS_COUNT.missed (dieBase d) = min (rd s MTR_MISS_COUNT.missed (dieBase d) + 1) (2 ^ 32 - 1) ∧
      t.mortar.budgets = s.mortar.budgets ∧ t.mortar.reports = s.mortar.reports) ∧
  (∀ (s : State) (d : Nat) (r : GrantReport), s.mortar.reports.find? (fun r => r.die == d) = some r →
    ∃ t, exec (.budgetReport d) s = .next t ∧ (budgetOf t d).applied = (r.core, r.hbm) ∧ (budgetOf t d).reportAt = now s ∧ (budgetOf t d).silent = false ∧
      (budgetOf t d).granted = (budgetOf s d).granted ∧ t.mortar.reports = s.mortar.reports.erase r ∧ t.fab = s.fab) ∧
  (∀ (s : State) (d : Nat), 1 ≤ d → d ≤ 4 → s.mode = .run → (budgetOf s d).fallback = false →
    ∃ t, exec (.grantTimeout d) s = .next t ∧ now t = max (now s) ((budgetOf s d).grantAt + 500000) ∧
      rd t MTR_BUDGET.core_cap (dieBase d) ≤ 85 ∧ rd t MTR_BUDGET.core_cap (dieBase d) ≤ rd s MTR_BUDGET.core_cap (dieBase d) ∧
      rd t MTR_BUDGET.hbm_cap (dieBase d) ≤ 20 ∧ (budgetOf t d).fallback = true ∧
      rd t MTR_MISS_COUNT.missed (dieBase d) = min (rd s MTR_MISS_COUNT.missed (dieBase d) + 1) (2 ^ 32 - 1)) ∧
  (∀ (s : State) (d : Nat), 1 ≤ d → d ≤ 4 → s.mode = .run →
    ∃ t, exec (.reportTimeout d) s = .next t ∧ now t = max (now s) ((budgetOf s d).reportAt + 500000) ∧
      (budgetOf t d).counted = (budgetOf s d).granted ∧ (budgetOf t d).granted = (budgetOf s d).granted ∧
      t.mem = s.mem ∧ t.fab = s.fab ∧ t.rings = s.rings) ∧
  (∀ (s : State) (d : Nat), d = 0 ∨ 4 < d ∨ s.mode ≠ .run →
    exec (.grantTimeout d) s = .next s ∧ exec (.reportTimeout d) s = .next s) ∧
  (∀ (s : State) (d : Nat), (budgetOf s d).fallback = true → exec (.grantTimeout d) s = .next s)

/-- For a camera port whose stream is enabled in run: a packet of another channel or data type only counts as foreign; a
frame start takes the capture time as Dial time less the offset, and always finds a free buffer; a packet of the
stream adds a line, counts a bad CRC, and marks the geometry bad where its length is wrong, in the same buffer; a
frame end leaves no frame landing, drops one of bad geometry or too many CRC errors, and lets a good one wait with
Dial time and its deadline. A waiting frame whose wait is pending goes stale at its deadline. A stream without a frame
start for three periods reports it once. A frame start stops a stream that was disabled. Where it goes beyond the
words of the rules it rests on the model's own readings, log entries 120 and 123. (R432, R438, R439, R440, R441, R442,
R444, R445) -/
def Obligations.FramesLandAndComplete : Prop :=
  (∀ (s : State) (port vc dt ecc : Nat) (ok : Bool) (p : List Nat), camOn s port = true → ecc ≠ 2 →
    (vc ≠ (streamOf s port).record.getD 0 0 ∨ dt ≠ (streamOf s port).record.getD 1 0) →
    ∃ t, exec (.csiPacket port vc dt ecc ok p) s = .next t ∧ t = { s with regs := t.regs } ∧
      rd t CAM_FOREIGN_COUNT.foreign = min (rd s CAM_FOREIGN_COUNT.foreign + 1) (2 ^ 32 - 1)) ∧
  (∀ (s : State) (port vc dt ecc : Nat) (ok : Bool) (p : List Nat) (f : Frame), camOn s port = true → ecc ≠ 2 →
    vc = (streamOf s port).record.getD 0 0 → dt = (streamOf s port).record.getD 1 0 → (streamOf s port).landing = some f →
    ∃ t g, exec (.csiPacket port vc dt ecc ok p) s = .next t ∧ (streamOf t port).landing = some g ∧
      g.lines = f.lines + 1 ∧ g.crcLines = f.crcLines + (if ok then 0 else 1) ∧ g.buf = f.buf ∧ g.capture = f.capture ∧
      (p.length ≠ fld (streamOf s port).record 4 2 * rawBits dt / 8 → g.geomBad = true) ∧
      (∀ k, k ≠ port → streamOf t k = streamOf s k) ∧ t.fab = s.fab ∧ t.clock = s.clock) ∧
  (∀ (s : State) (port vc ecc : Nat), camOn s port = true → ecc ≠ 2 → vc = (streamOf s port).record.getD 0 0 →
    (streamOf s port).landing = none → (streamOf s port).stopping = false →
    ∃ t g, exec (.frameStart port vc ecc) s = .next t ∧ (streamOf t port).landing = some g ∧ g.buf ∈ freeBufs s port ∧
      g.capture = (dial s + 2 ^ 64 - fld (streamOf s port).record 20 4 * 1000) % 2 ^ 64 ∧ g.lines = 0 ∧
      g.fsCount = ((streamOf s port).fsCount + 1) % 2 ^ 32 ∧ (streamOf t port).lastStart = now s ∧
      (∀ k, k ≠ port → streamOf t k = streamOf s k) ∧ t = { s with fresh := t.fresh, input := t.input }) ∧
  (∀ (s : State) (port vc ecc : Nat), camOn s port = true → ecc ≠ 2 → vc = (streamOf s port).record.getD 0 0 →
    (streamOf s port).landing = none → (streamOf s port).stopping = true →
    ∃ t, exec (.frameStart port vc ecc) s = .next t ∧ (streamOf t port).enabled = false ∧
      rdB t CAM_STREAM_STATUS.running (port * 0x20) = false ∧ t = { s with regs := t.regs, input := t.input }) ∧
  (∀ (s : State) (port vc ecc : Nat) (f : Frame), camOn s port = true → ecc ≠ 2 → vc = (streamOf s port).record.getD 0 0 →
    (streamOf s port).landing = some f →
    ∃ t, exec (.frameEnd port vc ecc) s = .next t ∧ (streamOf t port).landing = none ∧
      ((f.lines ≠ fld (streamOf s port).record 6 2 ∨ f.geomBad = true ∨ (streamOf s port).record.getD 10 0 < f.crcLines) →
        (streamOf t port).dropped = min ((streamOf s port).dropped + 1) 0xFFFF ∧
        rd t CAM_DROP_COUNT.drops (port * 0x20) = min (rd s CAM_DROP_COUNT.drops (port * 0x20) + 1) (2 ^ 32 - 1) ∧
        (streamOf t port).pubSeq = (streamOf s port).pubSeq) ∧
      (4 ≤ (streamOf s port).record.getD 3 0 → f.lines = fld (streamOf s port).record 6 2 → f.geomBad = false →
        f.refused = false → f.crcLines ≤ (streamOf s port).record.getD 10 0 →
        frameAge s f ≤ inStale port (streamOf s port).record → (streamOf s port).waiting = none →
        reach s 0 (tieHome (inRelease (streamOf s port).record)) = true →
        ∃ g, (streamOf t port).waiting = some g ∧ g.buf = f.buf ∧ g.capture = f.capture ∧ g.fe = dial s ∧ g.lost = false ∧
          g.deadline = now s + max 1000 (inStale port (streamOf s port).record - frameAge s f)) ∧
      t.fab = s.fab ∧ t.clock = s.clock) ∧
  (∀ (s : State) (k : Nat) (f : Frame), k < 24 → (streamOf s k).waiting = some f → f.lost = false →
    waitPending s (1280 + k) = true → ticking s = false →
    ∃ t, exec (.frameStale k) s = .next t ∧ now t = max (now s) f.deadline ∧ (streamOf t k).waiting = none ∧
      waitPending t (1280 + k) = false ∧ (streamOf t k).dropped = min ((streamOf s k).dropped + 1) 0xFFFF ∧
      rd t CAM_DROP_COUNT.drops (k * 0x20) = min (rd s CAM_DROP_COUNT.drops (k * 0x20) + 1) (2 ^ 32 - 1) ∧ t.fab = s.fab) ∧
  (∀ (s : State) (k : Nat), k < 24 → (streamOf s k).enabled = true → (streamOf s k).silentRaised = false → s.mode = .run →
    ∃ t, exec (.sensorSilent k) s = .next t ∧ (streamOf t k).silentRaised = true ∧
      now t = max (now s) ((streamOf s k).lastStart + 3 * inPeriod k (streamOf s k).record * 1000) ∧
      (s.rings.devOpen = false → s.rings.dawnQueue.length < 64 → t.rings.dawnQueue[s.rings.dawnQueue.length]? =
        some (eventRecord (dial t) 0x0931 0 (streamOf s k).owner k 1 0 0 [])) ∧ t.fab = s.fab)

/-- FRAME_PUBLISH of a frame whose wait is released and whose record is written counts one publish, clears the drop count
and the reports, leaves no frame waiting, and adds 1 to the ready Tie, with memory as the record's write left it.
CAM_STREAM_COMMIT with a misaligned record address reports 0x0003 and the register; one that enables, with its record
and table read and every check passed, opens the stream with exactly those, every count at 0, and reads as running
with status 0; one that only disables marks the stream to stop and changes no memory. CAM_MAC_COMMIT that passes its
checks puts the staged fields in force and starts both rings again at entry 0. Where it goes beyond the words of the
rules it rests on the model's own readings, log entries 124 and 130. (R435, R436, R441, R442, R443, R445, R446, R448,
R468) -/
def Obligations.RecordsPublishAndStreamsOpen : Prop :=
  (∀ (s s1 : State) (k : Nat) (f : Frame), k < 24 → (streamOf s k).waiting = some f → f.lost = false → s.mode = .run →
    waitPending s (1280 + k) = false → s.rings.ops = [] →
    writeMem (streamPort k) (streamOf s k).owner
      (inRec (streamOf s k).record + (streamOf s k).pubSeq % max 1 (inSlots k (streamOf s k).record) * 64)
      (frameRecord s k (streamOf s k) f)
      (withdraw (1280 + k) (modStream k (fun x => { x with waiting := none }) s)) = (0, s1) →
    reach s 0 (tieHome (inReady (streamOf s k).record)) = true →
    tieValue s (inReady (streamOf s k).record) < 2 ^ 32 - 1 →
    ∃ t, exec (.framePublish k) s = .next t ∧ (streamOf t k).waiting = none ∧
      (streamOf t k).pubSeq = ((streamOf s k).pubSeq + 1) % 2 ^ 32 ∧ (streamOf t k).dropped = 0 ∧
      (streamOf t k).dropRaised = false ∧ (streamOf t k).silentRaised = false ∧ f.buf ∈ (streamOf t k).bufs ∧
      tieValue t (inReady (streamOf s k).record) = tieValue s (inReady (streamOf s k).record) + 1 ∧
      (∀ n, n ≠ inReady (streamOf s k).record → tieValue t n = tieValue s n) ∧
      t.mem = s1.mem ∧ t.fab = s.fab ∧ t.clock = s.clock) ∧
  (∀ (s : State) (k : Nat) (x : InStream) (f : Frame), (frameRecord s k x f).length = 64) ∧
  (∀ (s : State) (k v : Nat), k < 24 → v % 2 = 1 → dieSilent s 0 = false → stg s CAM_STREAM_ADDR.addr (k * 0x20) % 64 ≠ 0 →
    ∃ t, exec (.camStreamCommit k v) s = .next t ∧ rd t CAM_STREAM_STATUS.status (k * 0x20) = 0x0003 ∧
      rd t FAB_COMMIT_STATUS.status = 0x0003 ∧ rd t FAB_COMMIT_FIELD.field_offset = 0xD00000 + k * 0x20 ∧
      t = { s with regs := t.regs }) ∧
  (∀ (s s1 : State) (k v : Nat) (r table : List Nat), k < 24 → v % 2 = 1 → dieSilent s 0 = false →
    stg s CAM_STREAM_ADDR.addr (k * 0x20) % 64 = 0 → stg s CAM_TONE_ADDR.addr (k * 0x20) % 64 = 0 →
    stg s CAM_STREAM_CTRL.enable (k * 0x20) ≠ 0 →
    camReads k (stg s CAM_STREAM_CTRL.owner (k * 0x20)) (stg s CAM_STREAM_ADDR.addr (k * 0x20))
      (stg s CAM_TONE_ADDR.addr (k * 0x20)) (commitAt 0 (0xD0001C + k * 0x20) s) = (0, r, table, s1) →
    camStatus s1 k (stg s CAM_STREAM_CTRL.owner (k * 0x20)) (stg s CAM_TONE_ADDR.addr (k * 0x20)) r = 0 →
    ∃ t, exec (.camStreamCommit k v) s = .next t ∧ rd t CAM_STREAM_STATUS.status (k * 0x20) = 0 ∧
      rdB t CAM_STREAM_STATUS.running (k * 0x20) = true ∧
      streamOf t k = { enabled := true, record := r, table := table, owner := stg s CAM_STREAM_CTRL.owner (k * 0x20)
                       lastStart := now s } ∧
      (∀ j, j ≠ k → streamOf t j = streamOf s1 j) ∧ t.fab = s1.fab ∧ t.mem = s1.mem) ∧
  (∀ (s : State) (k v : Nat), k < 24 → v % 2 = 1 → dieSilent s 0 = false →
    stg s CAM_STREAM_ADDR.addr (k * 0x20) % 64 = 0 → stg s CAM_TONE_ADDR.addr (k * 0x20) % 64 = 0 →
    stg s CAM_STREAM_CTRL.enable (k * 0x20) = 0 → (streamOf s k).enabled = true →
    sameStaged s [(CAM_STREAM_ADDR.addr, k * 0x20), (CAM_TONE_ADDR.addr, k * 0x20), (CAM_STREAM_CTRL.owner, k * 0x20)] = true →
    ∃ t, exec (.camStreamCommit k v) s = .next t ∧ rd t CAM_STREAM_STATUS.status (k * 0x20) = 0 ∧
      streamOf t k = { streamOf s k with stopping := true } ∧ com t CAM_STREAM_CTRL.enable (k * 0x20) = 0 ∧
      t = { s with regs := t.regs, input := t.input }) ∧
  (∀ (s : State) (m v : Nat), m < 4 → v % 2 = 1 → dieSilent s 0 = false → firstFail (macChecks s m) = none →
    ∃ t, exec (.camMacCommit m v) s = .next t ∧ rd t FAB_COMMIT_STATUS.status = 0 ∧
      aget t.input.rxNext m 0 = 0 ∧ aget t.input.txNext m 0 = 0 ∧
      (∀ e ∈ macFields m, com t e.1 e.2 = stg s e.1 e.2 % 2 ^ e.1.width) ∧ t.input.streams = s.input.streams ∧
      t = { s with regs := t.regs, input := t.input })

/-- On a MAC that is on, in run, a frame of at most 9,216 bytes with a bad FCS only counts; a good one that carries no
datagram for a committed template goes into the next receive entry that was passed to the device, its data cut at the
entry's room and the entry given back with its length and Dial time; one for a template that starts a batch finds a
free buffer, and each of its points is written or counted bad. A transmit entry passed to the device is sent and given
back. The end of a sweep closes the batch: none lands any more, and it waits or is dropped. Where it goes beyond the
words of the rules it rests on the model's own readings, log entries 129 and 128. (R438, R446, R447, R448, R449, R450,
R451) -/
def Obligations.EthernetFramesAndBatches : Prop :=
  (∀ (s : State) (mac : Nat) (f : List Nat), mac < 4 → com s CAM_MAC_CFG.mode (mac * 0x20) ≠ 0 → s.mode = .run →
    f.length ≤ 9216 →
    ∃ t, exec (.ethFrameReceive mac false f) s = .next t ∧ t = { s with regs := t.regs } ∧
      rd t CAM_MAC_BAD_COUNT.bad (mac * 0x20) = min (rd s CAM_MAC_BAD_COUNT.bad (mac * 0x20) + 1) (2 ^ 32 - 1)) ∧
  (∀ (s s1 : State) (mac : Nat) (f e : List Nat), mac < 4 → com s CAM_MAC_CFG.mode (mac * 0x20) ≠ 0 → s.mode = .run →
    f.length ≤ 9216 → (udpOf (untag f)).bind (fun a => templateFor s mac (fldBE a.2 2 2)) = none →
    readMem 70 0xFF (macEntry s mac true (aget s.input.rxNext mac 0)) 16 [] s = (0, e, s1) → bit (e.getD 8 0) 0 = true →
    ∃ t, exec (.ethFrameReceive mac true f) s = .next t ∧ aget t.input.rxNext mac 0 = aget s.input.rxNext mac 0 + 1 ∧
      (((untag f).take (fld e 6 2)).isEmpty = false → t.mem =
        (writeMem' 70 0xFF (macEntry s mac true (aget s.input.rxNext mac 0))
          (slice e 0 6 ++ leBytes 2 (min (fld e 6 2) (untag f).length) ++
            [setBit (setBit (e.getD 8 0) 0 false) 1 (decide (fld e 6 2 < (untag f).length))] ++ leBytes 7 (dial s))
          (writeMem' 70 0xFF (fld e 0 6) ((untag f).take (fld e 6 2)) s1)).mem) ∧
      t.input.streams = s1.input.streams ∧ t.input.txNext = s1.input.txNext ∧ t.fab = s1.fab ∧ t.clock = s1.clock) ∧
  (∀ (s : State) (mac k : Nat) (f addrs u : List Nat), mac < 4 → com s CAM_MAC_CFG.mode (mac * 0x20) ≠ 0 → s.mode = .run →
    f.length ≤ 9216 → udpOf (untag f) = some (addrs, u) → templateFor s mac (fldBE u 2 2) = some k → udpBad addrs u = false →
    (streamOf s k).landing = none → (streamOf s k).stopping = false →
    2 * fld (streamOf s k).record 10 2 * 32 ≤ inBufBytes (streamOf s k).record →
    ∃ t g, exec (.ethFrameReceive mac true f) s = .next t ∧ (streamOf t k).landing = some g ∧ g.buf ∈ freeBufs s k ∧
      g.points + g.badPoints = fld (streamOf s k).record 10 2 ∧ (streamOf t k).lastStart = now s ∧
      g.capture = (packetTime s (streamOf s k).record ((u.take (fldBE u 4 2)).drop 8) + pointOffset (streamOf s k).record
        ((u.take (fldBE u 4 2)).drop 8) (fld (streamOf s k).record 6 2)) % 2 ^ 64 ∧
      (∀ j, j ≠ k → streamOf t j = streamOf s j) ∧ t.input.rxNext = s.input.rxNext ∧ t.fab = s.fab ∧ t.clock = s.clock) ∧
  (∀ (s s1 s2 : State) (mac : Nat) (e d : List Nat), mac < 4 → com s CAM_MAC_CFG.mode (mac * 0x20) ≠ 0 → s.mode = .run →
    readMem 70 0xFF (macEntry s mac false (aget s.input.txNext mac 0)) 16 [] s = (0, e, s1) → bit (e.getD 8 0) 0 = true →
    readMem 70 0xFF (fld e 0 6) (fld e 6 2) [] s1 = (0, d, s2) →
    ∃ t, exec (.ethFrameTransmit mac) s = .next t ∧ ⟨.ethernet, mac :: d⟩ ∈ t.out ∧
      aget t.input.txNext mac 0 = aget s.input.txNext mac 0 + 1 ∧
      t.mem = (writeMem' 70 0xFF (macEntry s mac false (aget s.input.txNext mac 0))
        (setAt e 8 (setBit (e.getD 8 0) 0 false)) s2).mem ∧
      t.input.streams = s2.input.streams ∧ t.input.rxNext = s2.input.rxNext ∧ t.fab = s2.fab ∧ t.clock = s2.clock) ∧
  (∀ (s : State) (k : Nat) (f : Frame), 16 ≤ k → k < 24 → (streamOf s k).landing = some f → s.mode = .run →
    ∃ t, exec (.batchSweepTimeout k) s = .next t ∧ (streamOf t k).landing = none ∧
      now t = max (now s) (f.startAt + inPeriod k (streamOf s k).record * 1000) ∧
      ((∃ g, (streamOf t k).waiting = some g ∧ g.buf = f.buf ∧ g.points = f.points ∧ g.capture = f.capture) ∨
        (streamOf t k).dropped = min ((streamOf s k).dropped + 1) 0xFFFF) ∧ t.fab = s.fab)

/-- A doorbell of an enabled stream takes the line's tail where it lies at most one ring ahead of the head, and else stops
the stream. An engine's report of an inner slice adds its engine time to the frame, which stays; of the last slice of
a frame that is not output now it counts the frame and keeps it in output order; of a frame at its budget, or at the
instant that the budget runs out, the frame is abandoned and counted, and the stream discards chunks. A commit that
enables a stream with its record read and every check passed opens it at count 0; one that disables it takes no
further chunk. Where it goes beyond the words of the rules it rests on the model's own readings, log entries 135 and
134. (R455, R456, R457, R458, R459, R460, R469, R671, R782) -/
def Obligations.DecodersTakeChunksAndSlices : Prop :=
  (∀ (s s1 : State) (d : Nat) (line : List Nat), (decOf s d).enabled = true → (decOf s d).stopped = false → s.mode = .run →
    fld (decOf s d).record 10 2 = 0 → readMem 65 (decOf s d).owner (fld (decOf s d).record 18 6) 64 [] s = (0, line, s1) →
    ∃ t, exec (.chunkDoorbell d) s = .next t ∧ now t = now s ∧
      (chunkSize (decOf s d).record < (fld line 0 4 + 2 ^ 32 - (decOf s d).head) % 2 ^ 32 →
        decOf t d = { decOf s1 d with stopped := true } ∧ t.fab = s1.fab) ∧
      ((fld line 0 4 + 2 ^ 32 - (decOf s d).head) % 2 ^ 32 ≤ chunkSize (decOf s d).record → sound s = true →
        (decOf t d).tail = fld line 0 4 ∧ (decOf t d).stopped = false ∧ (decOf t d).owner = (decOf s d).owner ∧
        t.fab = s.fab)) ∧
  (∀ (s s1 : State) (d : Nat) (line : List Nat) (due : Nat), (decOf s d).enabled = true → (decOf s d).stopped = false →
    s.mode = .run → fld (decOf s d).record 10 2 ≠ 0 → due = (decOf s d).polledAt + fld (decOf s d).record 10 2 * 1000 →
    readMem 65 (decOf s d).owner (fld (decOf s d).record 18 6) 64 []
      (modDec d (fun x => { x with polledAt := now (passTo due s) }) (passTo due s)) = (0, line, s1) →
    chunkSize (decOf s d).record < (fld line 0 4 + 2 ^ 32 - (decOf s d).head) % 2 ^ 32 ∨ fld line 0 4 = (decOf s d).head →
    sound s = true →
    ∃ t, exec (.chunkDoorbell d) s = .next t ∧ now t = max (now s) due ∧ (decOf t d).polledAt = now t ∧ t.fab = s.fab) ∧
  (∀ (s : State) (e d : Nat) (f : DecFrame) (p : SliceReport), e < s.input.engines.length →
    (engineOf s e).stream = some d → (decOf s d).frame = some f → f.whole = true → p.header = none → p.fault = false →
    f.readBad = false → f.crcBad = false → p.last = false →
    f.engineNs + (now s - (engineOf s e).startAt) < decBudget (decOf s d) →
    ∃ t, exec (.sliceComplete e p) s = .next t ∧
      decOf t d = { decOf s d with frame := some { f with engineNs := f.engineNs + (now s - (engineOf s e).startAt) } } ∧
      (∀ k, k ≠ d → decOf t k = decOf s k) ∧ t = { s with input := t.input }) ∧
  (∀ (s : State) (e d : Nat) (f : DecFrame) (p : SliceReport), d < 64 → e < s.input.engines.length →
    (engineOf s e).stream = some d → (decOf s d).frame = some f → (decOf s d).head = (decOf s d).tail → p.header = none →
    p.fault = false → f.readBad = false → f.crcBad = false → p.last = true → p.outputs = 0 →
    decSample (decOf s d).record = false →
    f.engineNs + (now s - (engineOf s e).startAt) < decBudget (decOf s d) →
    ∃ t, exec (.sliceComplete e p) s = .next t ∧ (decOf t d).frame = none ∧
      rd t DEC_FRAME_COUNT.frames (d * 0x20) = (rd s DEC_FRAME_COUNT.frames (d * 0x20) + 1) % 2 ^ 32 ∧
      (decOf t d).done.length = (decOf s d).done.length + 1 ∧ (decOf t d).outs = (decOf s d).outs ∧
      (decOf t d).times.head? = some (f.engineNs + (now s - (engineOf s e).startAt)) ∧
      t = { s with regs := t.regs, input := t.input }) ∧
  (∀ (s : State) (e d : Nat) (f : DecFrame) (p : SliceReport), d < 64 → e < s.input.engines.length →
    (engineOf s e).stream = some d → (decOf s d).frame = some f → (decOf s d).head = (decOf s d).tail →
    decBudget (decOf s d) ≤ f.engineNs + (now s - (engineOf s e).startAt) →
    ∃ t, exec (.sliceComplete e p) s = .next t ∧ (decOf t d).frame = none ∧ (decOf t d).discarding = true ∧
      rd t DEC_ABANDON_COUNT.abandoned (d * 0x20) = min (rd s DEC_ABANDON_COUNT.abandoned (d * 0x20) + 1) (2 ^ 32 - 1) ∧
      t.fab = s.fab ∧ t.clock = s.clock) ∧
  (∀ (s : State) (e d : Nat) (f : DecFrame), d < 64 → e < s.input.engines.length → (engineOf s e).stream = some d →
    (decOf s d).frame = some f → (decOf s d).head = (decOf s d).tail → ticking s = false →
    ∃ t, exec (.decodeBudgetExpiry e) s = .next t ∧ (decOf t d).frame = none ∧ (decOf t d).discarding = true ∧
      now t = max (now s) ((engineOf s e).startAt + (decBudget (decOf s d) - f.engineNs)) ∧
      rd t DEC_ABANDON_COUNT.abandoned (d * 0x20) = min (rd s DEC_ABANDON_COUNT.abandoned (d * 0x20) + 1) (2 ^ 32 - 1) ∧
      t.fab = s.fab) ∧
  (∀ (s s1 : State) (d v : Nat) (r : List Nat), d < 64 → v % 2 = 1 → dieSilent s 0 = false →
    stg s DEC_STREAM_CTRL.enable (d * 0x20) ≠ 0 →
    readMem 65 (stg s DEC_STREAM_CTRL.owner (d * 0x20)) (stg s DEC_STREAM_ADDR.addr (d * 0x20)) 64 []
      (commitAt 0 (0xE0001C + d * 0x20) s) = (0, r, s1) →
    (fld r 10 2 ≠ 0 → pollOk (fld r 10 2 :: polledLines s none (some d)) = true) →
    decStatus s1 d (stg s DEC_STREAM_CTRL.owner (d * 0x20)) r = 0 →
    ∃ t, exec (.decStreamCommit d v) s = .next t ∧ rd t DEC_STREAM_STATUS.status (d * 0x20) = 0 ∧
      decOf t d = { enabled := true, record := r, owner := stg s DEC_STREAM_CTRL.owner (d * 0x20), polledAt := now s } ∧
      (∀ k, k ≠ d → decOf t k = decOf s1 k) ∧ t.fab = s1.fab) ∧
  (∀ (s : State) (d v : Nat), d < 64 → v % 2 = 1 → dieSilent s 0 = false → stg s DEC_STREAM_CTRL.enable (d * 0x20) = 0 →
    ((decOf s d).enabled = false ∨
      sameStaged s [(DEC_STREAM_ADDR.addr, d * 0x20), (DEC_STREAM_CTRL.owner, d * 0x20)] = true) →
    ∃ t, exec (.decStreamCommit d v) s = .next t ∧ rd t DEC_STREAM_STATUS.status (d * 0x20) = 0 ∧
      decOf t d = { decOf s d with enabled := false } ∧ t = { s with regs := t.regs, input := t.input })

/-- For every dataset size n from 1 to 2^32 − 1, every seed and every epoch, shuffle maps 0 to n − 1 one to one onto 0 to
n − 1. MANIFEST_WRITE of an enabled sampler with a batch left and the release Tie far enough adds the next batch,
whose samples are the shuffled positions j × B on, at most B of them, counts on by one, and through the epochs where
the record continues; the manifest is written to its ring entry and the manifest Tie signalled by 1. A sampler's
commit that passes its checks opens it at its first batch and epoch; one that disables it keeps its batches. Where it
goes beyond the words of the rules it rests on the model's own readings, log entry 136. (R461, R462, R463, R467, R782) -/
def Obligations.SamplersWriteManifests : Prop :=
  (∀ (n seed epoch i : Nat), 0 < n → n < 2 ^ 32 → i < n → shuffle i n seed epoch < n) ∧
  (∀ (n seed epoch i j : Nat), 0 < n → n < 2 ^ 32 → i < n → j < n → shuffle i n seed epoch = shuffle j n seed epoch → i = j) ∧
  (∀ (s : State) (k : Nat), (samplerOf s k).enabled = true → s.mode = .run →
    (samplerOf s k).index < smBatches (samplerOf s k).record →
    (samplerOf s k).number < smReleased s k + smAhead (samplerOf s k).record → s.rings.ops = [] →
    reach s 0 (tieHome (fld (samplerOf s k).record 40 4)) = true → tieValue s (fld (samplerOf s k).record 40 4) < 2 ^ 32 - 1 →
    ∃ t b, exec (.manifestWrite k) s = .next t ∧ (samplerOf t k).batches.getLast? = some b ∧
      b.number = (samplerOf s k).number ∧ b.index = (samplerOf s k).index ∧ b.settled = [] ∧
      b.samples.length = min (smB (samplerOf s k).record)
        (smN (samplerOf s k).record - (samplerOf s k).index * smB (samplerOf s k).record) ∧
      (∀ i, i < b.samples.length → b.samples[i]? = some (shuffle ((samplerOf s k).index * smB (samplerOf s k).record + i)
        (smN (samplerOf s k).record) (fld (samplerOf s k).record 8 8) (samplerOf s k).epoch)) ∧
      (samplerOf t k).number = (samplerOf s k).number + 1 ∧
      (((samplerOf s k).index + 1 < smBatches (samplerOf s k).record ∨ bit ((samplerOf s k).record.getD 19 0) 0 = false) →
        (samplerOf t k).index = (samplerOf s k).index + 1 ∧ (samplerOf t k).epoch = (samplerOf s k).epoch) ∧
      ((samplerOf s k).index + 1 = smBatches (samplerOf s k).record → bit ((samplerOf s k).record.getD 19 0) 0 = true →
        (samplerOf t k).index = 0 ∧ (samplerOf t k).epoch = ((samplerOf s k).epoch + 1) % 2 ^ 32) ∧
      tieValue t (fld (samplerOf s k).record 40 4) = tieValue s (fld (samplerOf s k).record 40 4) + 1 ∧
      t.mem = (writeMem' 65 (samplerOf s k).owner (fld (samplerOf s k).record 24 6 +
        (samplerOf s k).number % smAhead (samplerOf s k).record * manifestBytes (samplerOf s k).record)
        (b.samples.flatMap (leBytes 4)) s).mem ∧
      (∀ j, j ≠ k → samplerOf t j = samplerOf s j) ∧ t.fab = s.fab ∧ t.clock = s.clock) ∧
  (∀ (s s1 : State) (k v : Nat) (r : List Nat), k < 4 → v % 2 = 1 → dieSilent s 0 = false →
    stg s DEC_SAMPLER_CTRL.enable (k * 0x20) ≠ 0 →
    readMem 65 (stg s DEC_SAMPLER_CTRL.owner (k * 0x20)) (stg s DEC_SAMPLER_ADDR.addr (k * 0x20)) 64 []
      (commitAt 0 (0xE0101C + k * 0x20) s) = (0, r, s1) →
    samplerStatus s1 k (stg s DEC_SAMPLER_CTRL.owner (k * 0x20)) r = 0 →
    ∃ t, exec (.decSamplerCommit k v) s = .next t ∧ rd t DEC_SAMPLER_STATUS.status (k * 0x20) = 0 ∧
      samplerOf t k = { enabled := true, record := r, owner := stg s DEC_SAMPLER_CTRL.owner (k * 0x20)
                        number := fld r 36 4, epoch := fld r 4 4, index := fld r 36 4 } ∧ t.fab = s1.fab) ∧
  (∀ (s : State) (k v : Nat), k < 4 → v % 2 = 1 → dieSilent s 0 = false → stg s DEC_SAMPLER_CTRL.enable (k * 0x20) = 0 →
    ((samplerOf s k).enabled = false ∨
      sameStaged s [(DEC_SAMPLER_ADDR.addr, k * 0x20), (DEC_SAMPLER_CTRL.owner, k * 0x20)] = true) →
    ∃ t, exec (.decSamplerCommit k v) s = .next t ∧ rd t DEC_SAMPLER_STATUS.status (k * 0x20) = 0 ∧
      samplerOf t k = { samplerOf s k with enabled := false } ∧ t = { s with regs := t.regs, input := t.input })

/-- MER_COMMIT that starts Meridian, its record read and every check passed, runs it from cycle 0 with no tracks; one that
disables it lets it stop; a misaligned record address is refused with 0x0003. In live mode with nothing befallen to
memory a close takes place at the cycle's time of validity plus collect_us, hands over cycle next, sets MER_CYCLE and
goes on to the next cycle. A fusion or track output that is written signals its Tie and leaves the list; with the
tracker on, the cycle then waits for it. A tracker start takes the oldest waiting cycle and hands over its tracks. An
internal fault disables Meridian with its tracks kept and no output left. Where it goes beyond the words of the rules
it rests on the model's own readings, log entries 140, 147 and 144. (R471, R473, R498, R501, R503, R509, R514, R516,
R517, R518) -/
def Obligations.MeridianRunsCycles : Prop :=
  (∀ (s s1 : State) (v : Nat) (r : List Nat), v % 2 = 1 → dieSilent s 0 = false → stg s MER_CTRL.install ≠ 1 →
    stg s MER_CTRL.enable = 1 → rdB s MER_STATUS.running = false → stg s MER_CFG_ADDR.addr % 64 = 0 →
    stg s MER_TABLE_ADDR.addr % 64 = 0 →
    readMem merPort (stg s MER_CTRL.owner) (stg s MER_CFG_ADDR.addr) 192 [] (commitAt 0 0xF0003C s) = (0, r, s1) →
    merMalformed s r = false → merReachable s (stg s MER_CTRL.owner) r = true → merTies s (stg s MER_CTRL.owner) r = true →
    merStreamsOk s (stg s MER_CTRL.owner) r = true → s.mer.active.isSome = true →
    ∃ t, exec (.merCommit v) s = .next t ∧ rd t MER_STATUS.status = 0 ∧ rdB t MER_STATUS.running = true ∧
      t.mer.enabled = true ∧ t.mer.record = r ∧ t.mer.owner = stg s MER_CTRL.owner ∧ t.mer.next = 0 ∧ t.mer.tracks = [] ∧
      t.mer.active = s1.mer.active ∧ t.fab = s1.fab ∧ t.input = s1.input) ∧
  (∀ (s : State) (v : Nat), v % 2 = 1 → dieSilent s 0 = false → stg s MER_CTRL.install ≠ 1 → stg s MER_CTRL.enable = 0 →
    rdB s MER_STATUS.running = true → stg s MER_CFG_ADDR.addr % 64 = 0 → stg s MER_TABLE_ADDR.addr % 64 = 0 →
    sameStaged s [(MER_CFG_ADDR.addr, 0), (MER_CTRL.owner, 0)] = true →
    ∃ t, exec (.merCommit v) s = .next t ∧ rd t MER_STATUS.status = 0 ∧ t.mer = { s.mer with stopping := true } ∧
      t = { s with regs := t.regs, mer := t.mer }) ∧
  (∀ (s : State) (v : Nat), v % 2 = 1 → dieSilent s 0 = false → stg s MER_CTRL.install ≠ 1 →
    stg s MER_CFG_ADDR.addr % 64 ≠ 0 →
    ∃ t, exec (.merCommit v) s = .next t ∧ rd t MER_STATUS.status = 0x0003 ∧
      rd t FAB_COMMIT_FIELD.field_offset = 0xF00000 ∧ t = { s with regs := t.regs }) ∧
  (∀ (s : State), s.mer.enabled = true → rdB s MER_STATUS.disabled = false → s.mode = .run → s.mer.fusion = none →
    merReplay s.mer.record = false → sound s = true →
    ∃ t c, exec .cycleClose s = .next t ∧ t.mer.fusion = some c ∧ c.n = s.mer.next ∧
      c.tv = merTv s.mer.record s.mer.next ∧ t.mer.next = s.mer.next + 1 ∧ rd t MER_CYCLE.cycle = s.mer.next % 2 ^ 32 ∧
      now t = now s + (merTv s.mer.record s.mer.next + fld s.mer.record 32 4 * 1000 - dial s) ∧
      t.mer.tracks = s.mer.tracks ∧ t.fab = s.fab) ∧
  (∀ (s s1 : State) (c : Cycle), s.mer.fusion = some c → s.mode = .run → s.rings.ops = [] →
    writeOutput (fld s.mer.record 96 6 + c.n % merSlots s.mer.record * fld s.mer.record 102 4)
      (merHeader s c 1 (merFlags s c) 0 0 c.late c.entries)
      (padTo 4032 (c.ego ++ c.status) ++ padTo (up4k (48 * fld s.mer.record 48 4)) c.points
        ++ c.depth.flatMap (fun d => padTo (up4k d.length) d)) s = (0, s1) →
    reach s 0 (tieHome (merTie s.mer.record 140)) = true → tieValue s (merTie s.mer.record 140) < 2 ^ 32 - 1 →
    ∃ t, exec .fusionOutputComplete s = .next t ∧ t.mer.fusion = none ∧
      tieValue s (merTie s.mer.record 140) + 1 ≤ tieValue t (merTie s.mer.record 140) ∧
      t.mer.waiting = (if bit (s.mer.record.getD 0 0) 2 then s.mer.waiting ++ [{ c with doneAt := now s }]
        else s.mer.waiting) ∧ t.fab = s.fab ∧ t.clock = s.clock) ∧
  (∀ (s : State) (c : Cycle) (rest : List Cycle), s.mer.waiting = c :: rest → s.mode = .run → sound s = true →
    ((List.range 2).all (fun k => !srcOn s.mer.record k || setHere s k c.n) = true ∨ merReplay s.mer.record = false) →
    ∃ t o, exec .trackerStart s = .next t ∧ t.mer.waiting = rest ∧ t.mer.tracking = s.mer.tracking ++ [o] ∧
      o.cycle.n = c.n ∧ o.entries = t.mer.tracks.length ∧
      ((List.range 2).all (fun k => !srcOn s.mer.record k || setHere s k c.n) = true → now t = now s) ∧
      ((List.range 2).all (fun k => !srcOn s.mer.record k || setHere s k c.n) = false →
        now t = max (now s) (c.doneAt + fld s.mer.record 44 4 * 1000)) ∧ t.fab = s.fab) ∧
  (∀ (s s1 : State) (o : TrackOut) (rest : List TrackOut), s.mer.tracking = o :: rest → s.mode = .run → s.rings.ops = [] →
    writeOutput (fld s.mer.record 106 6 + o.cycle.n % merSlots s.mer.record * 69632)
      (merHeader s o.cycle 2 (merFlags s o.cycle + 2 * o.absent) o.conflictFlags o.conflicts o.late o.entries)
      o.records s = (0, s1) →
    reach s 0 (tieHome (merTie s.mer.record 144)) = true → tieValue s (merTie s.mer.record 144) < 2 ^ 32 - 1 →
    ∃ t, exec .trackOutputComplete s = .next t ∧ t.mer.tracking = rest ∧ t.mem = s1.mem ∧
      tieValue t (merTie s.mer.record 144) = tieValue s (merTie s.mer.record 144) + 1 ∧
      t.mer.tracks = s.mer.tracks ∧ t.fab = s.fab ∧ t.clock = s.clock) ∧
  (∀ (s : State), rdB s MER_STATUS.running = true → rdB s MER_STATUS.disabled = false →
    ∃ t, exec .meridianInternalFault s = .next t ∧ rdB t MER_STATUS.disabled = true ∧ rdB t MER_STATUS.running = false ∧
      t.mer.enabled = false ∧ t.mer.fusion = none ∧ t.mer.waiting = [] ∧ t.mer.tracking = [] ∧
      t.mer.tracks = s.mer.tracks ∧ t.mer.active = s.mer.active ∧ t.fab = s.fab ∧ t.clock = s.clock)

/-- An island that is up answers a standing refinement or installation proposal once: it approves where it finds no reason
to refuse, keeping the candidate, and else records a refusal. An island that learns that both approved adopts its
copy. With both approvals in time Meridian adopts the candidate as its active table, shows its version and CRC and
counts the adoption; with a refusal it discards the proposal and keeps its table; without an answer it does so at the
deadline. MER_INSTALL of a table that is well formed and covered proposes it and names its digest to both islands,
leaving the active table. A heartbeat is sent and noted at each island that is up. Where it goes beyond the words of
the rules it rests on the model's own readings, log entries 143 and 45. (R482, R485, R487, R489, R515, R563, R581,
R582, R583) -/
def Obligations.MeridianCalibration : Prop :=
  (∀ (s : State) (i : Nat) (p : Proposal), i = 5 ∨ i = 6 → s.mer.proposal = some p → (islandOf s i).up = true →
    p.of i = none → now s ≤ p.deadline →
    ∃ t, exec (.calibrationProposal i) s = .next t ∧
      t.mer = { s.mer with proposal := some (p.answer i (refuseReason s i (p.stream.getD 0) p.image == 0)) } ∧
      (refuseReason s i (p.stream.getD 0) p.image = 0 → ∃ c, (islandOf t i).approved = some c ∧ c.image = p.image) ∧
      (refuseReason s i (p.stream.getD 0) p.image ≠ 0 → t.isl = s.isl) ∧
      (islandOf t i).active = (islandOf s i).active ∧ t.fab = s.fab ∧ t.clock = s.clock) ∧
  (∀ (s : State) (i : Nat) (p : Proposal), i = 5 ∨ i = 6 → s.mer.install = some p → (islandOf s i).up = true →
    p.of i = none → now s ≤ p.deadline →
    ∃ t, exec (.installationProposal i) s = .next t ∧
      t.mer = { s.mer with install := some (p.answer i (installReason s i p.image == 0)) } ∧
      (installReason s i p.image = 0 → ∃ c, (islandOf t i).approved = some c ∧ c.image = p.image) ∧
      (installReason s i p.image ≠ 0 → t.isl = s.isl) ∧
      (islandOf t i).active = (islandOf s i).active ∧ t.fab = s.fab ∧ t.clock = s.clock) ∧
  (∀ (s : State) (i : Nat) (c : CalPending), i = 5 ∨ i = 6 → (islandOf s i).up = true → (islandOf s i).approved = some c →
    c.peer = true →
    ∃ t, exec (.peerApproval i) s = .next t ∧ (islandOf t i).active = some c.image ∧ (islandOf t i).approved = none ∧
      islandOf t (11 - i) = islandOf s (11 - i) ∧ t = { s with isl := t.isl }) ∧
  (∀ (s : State) (inst : Bool) (p : Proposal), (if inst then s.mer.install else s.mer.proposal) = some p →
    p.matin = some true → p.vesper = some true → now s ≤ p.deadline → (inst = true ↔ p.stream = none) →
    (inst = false → rdB s MER_STATUS.frozen = false) →
    ∃ t, exec (.calibrationAnswer inst) s = .next t ∧ t.mer.active = some p.image ∧
      (if inst then t.mer.install else t.mer.proposal) = none ∧ rd t MER_TABLE_VER.version = fld p.image 4 4 % 2 ^ 32 ∧
      rd t MER_TABLE_CRC.crc = fld p.image 60 4 % 2 ^ 32 ∧
      rd t MER_ADOPT_COUNT.adopted = min (rd s MER_ADOPT_COUNT.adopted + 1) (2 ^ 32 - 1) ∧ t.fab = s.fab ∧
      t.clock = s.clock) ∧
  (∀ (s : State) (inst : Bool) (p : Proposal) (a b : Bool), (if inst then s.mer.install else s.mer.proposal) = some p →
    p.matin = some a → p.vesper = some b → (a = false ∨ b = false) → now s ≤ p.deadline →
    ∃ t, exec (.calibrationAnswer inst) s = .next t ∧ (if inst then t.mer.install else t.mer.proposal) = none ∧
      t.mer.active = s.mer.active ∧ t.mer.allow = s.mer.allow ∧ t.fab = s.fab ∧ t.clock = s.clock) ∧
  (∀ (s : State) (inst : Bool) (p : Proposal), (if inst then s.mer.install else s.mer.proposal) = some p →
    (p.matin = none ∨ p.vesper = none) → ticking s = false →
    ∃ t, exec (.proposalTimeout inst) s = .next t ∧ (if inst then t.mer.install else t.mer.proposal) = none ∧
      now t = max (now s) p.deadline ∧ t.mer.active = s.mer.active ∧ t.fab = s.fab) ∧
  (∀ (s s1 : State) (v : Nat) (img : List Nat), v % 2 = 1 → dieSilent s 0 = false → stg s MER_CTRL.install = 1 →
    stg s MER_CTRL.enable = 0 → rdB s MER_STATUS.running = false → stg s MER_CFG_ADDR.addr % 64 = 0 →
    stg s MER_TABLE_ADDR.addr % 64 = 0 →
    readMem merPort (stg s MER_CTRL.owner) (stg s MER_TABLE_ADDR.addr) 3136 [] (commitAt 0 0xF0003C s) = (0, img, s1) →
    tableOk img = true → policyCovers s (stg s MER_POLICY.policy_handle) img = true →
    ∃ t p, exec (.merInstall v) s = .next t ∧ t.mer.install = some p ∧ p.image = img ∧ p.deadline = now s + 20000000 ∧
      sha384 img ∈ t.isl.matin.notices ∧ sha384 img ∈ t.isl.vesper.notices ∧ rd t MER_STATUS.status = 0 ∧
      t.key.nextSeq = (s1.key.nextSeq + 1) % 2 ^ 32 ∧ t.mer.active = s1.mer.active ∧ t.fab = s1.fab) ∧
  (∀ (s : State), rdB s MER_STATUS.running = true → rdB s MER_STATUS.disabled = false → s.mode = .run →
    dieSilent s 0 = false →
    ∃ t, exec .meridianHeartbeat s = .next t ∧
      ⟨.meridianHeartbeat, [rd s MER_CYCLE.cycle, rd s MER_TABLE_VER.version, rd s MER_TABLE_CRC.crc]⟩ ∈ t.out ∧
      (∀ i, i = 5 ∨ i = 6 → (islandOf s i).up = true → (islandOf s i).lost.contains 0 = false →
        aget (islandOf t i).heard 64 0 = osc s) ∧ t.mer = s.mer ∧ t.fab = s.fab ∧ t.clock = s.clock)

/-- A replay whose host agrees counts for the context, strikes the suspect, folds the stalled block from its shadowed
operands and every block after it that meets nothing, and lets the role go on, with the Beds and Hods as they were;
one whose host fails its own checksums counts as unresolved too and ends the launch. A pack commit that passes its
checks reads the image and stays busy; when it completes, a status that is not 0 leaves the packs, and status 0
removes the named pack or puts the new one in place of it, counts the set version and writes a record entry.
FAB_CTX_COMMIT of a closed context puts its staged fields in force. Where it goes beyond the words of the rules it
rests on the model's own readings, log entries 149 and 151. (R525, R526, R532, R536, R551, R552, R553, R556, R557) -/
def Obligations.SilentErrorsAndPacks : Prop :=
  (∀ (s : State) (b : Nat) (x : Site) (st : Stall) (j : MmaJob), siteOf s b = some x → roleAt s x = some x.role →
    x.role.brick = b → x.role.stall = some st → x.launch.ctx < 64 → j = mmaJob x st.at_ st.baseA st.baseB →
    j.quoin = false → streamFault s x.launch.image b j.ra j.fa j.kb j.baseA = none →
    streamFault s x.launch.image b j.rb j.fb j.kb j.baseB = none → (brickOf s b).lastStrike = none →
    ∃ t, exec (.replayOutcome b true .none) s = .next t ∧
      rd t FAB_HEALTH_REPLAYS.replays (x.launch.ctx * 0x80) =
        (rd s FAB_HEALTH_REPLAYS.replays (x.launch.ctx * 0x80) + 1) % 2 ^ 32 ∧
      rd t FAB_HEALTH_STRIKES.strikes (x.launch.ctx * 0x80) =
        (rd s FAB_HEALTH_STRIKES.strikes (x.launch.ctx * 0x80) + 1) % 2 ^ 32 ∧
      accTile t b j.tile = (List.range (j.kb - (st.block + 1))).foldl (fun acc i =>
          (foldTile j.fa j.fb (operandBlock s x j.fa j.ra j.baseA (runTable s b j.ra) j.kb (st.block + 1 + i)).1
            (operandBlock s x j.fb j.rb j.baseB (runTable s b j.rb) j.kb (st.block + 1 + i)).1 acc).1)
        (foldTile j.fa j.fb st.a st.b (accTile s b j.tile)).1 ∧
      (roleAt t x).map (·.stall) = some none ∧ (roleAt t x).map (·.pc) = some x.role.counted.advance.pc ∧
      t.fab.bed = s.fab.bed ∧ t.fab.hod = s.fab.hod ∧ t.clock = s.clock) ∧
  (∀ (s : State) (b : Nat) (x : Site) (st : Stall) (u : Upset), siteOf s b = some x → x.role.stall = some st → x.launch.ctx < 64 →
    ∃ t, exec (.replayOutcome b false u) s = .next t ∧ launchOf t x.launch.id = none ∧
      rd t FAB_HEALTH_REPLAYS.replays (x.launch.ctx * 0x80) =
        (rd s FAB_HEALTH_REPLAYS.replays (x.launch.ctx * 0x80) + 1) % 2 ^ 32 ∧
      rd t FAB_HEALTH_UNRESOLVED.unresolved (x.launch.ctx * 0x80) =
        (rd s FAB_HEALTH_UNRESOLVED.unresolved (x.launch.ctx * 0x80) + 1) % 2 ^ 32 ∧
      t.fab.bed = s.fab.bed ∧ t.fab.acc = s.fab.acc ∧ t.fab.hod = s.fab.hod ∧ t.clock = s.clock) ∧
  (∀ (s s1 s2 : State) (v : Nat) (hdr img : List Nat), v % 2 = 1 → dieSilent s 0 = false → stg s FAB_PACK_CTRL.op = 1 →
    stg s FAB_PACK_ADDR.addr % 64 = 0 → rangeHost s (stg s FAB_PACK_ADDR.addr) 128 = true → s.fab.packJob = none →
    readMem 73 0xFF (stg s FAB_PACK_ADDR.addr) 128 [] (commitAt 0 0x100203C s) = (0, hdr, s1) →
    rangeHost s1 (stg s FAB_PACK_ADDR.addr) (max 128 (packBytes hdr)) = true →
    readMem 73 0xFF (stg s FAB_PACK_ADDR.addr) (max 128 (packBytes hdr)) [] s1 = (0, img, s2) →
    ∃ t, exec (.packInstall v) s = .next t ∧ t.fab = { s2.fab with packJob := some ⟨true, stg s FAB_PACK_ID.pack_id, img⟩ } ∧
      rdB t FAB_PACK_STATUS.busy = true ∧ rdB t FAB_COMMIT_STATUS.busy = true ∧ t.clock = s.clock) ∧
  (∀ (s : State) (v : Nat), v % 2 = 1 → dieSilent s 0 = false → stg s FAB_PACK_CTRL.op = 2 →
    stg s FAB_PACK_ADDR.addr % 64 = 0 → s.fab.packJob = none →
    ∃ t, exec (.packRemove v) s = .next t ∧ t.fab = { s.fab with packJob := some ⟨false, stg s FAB_PACK_ID.pack_id, []⟩ } ∧
      rdB t FAB_PACK_STATUS.busy = true ∧ t = { s with regs := t.regs, fab := t.fab }) ∧
  (∀ (s : State) (j : PackJob), s.fab.packJob = some j →
    ∃ t, exec .packCommitComplete s = .next t ∧ t.fab.packJob = none ∧ rdB t FAB_PACK_STATUS.busy = false ∧
      (packStatus { s with fab := { s.fab with packJob := none } } j ≠ 0 → t.fab.packs = s.fab.packs ∧
        rd t FAB_PACK_STATUS.status = packStatus { s with fab := { s.fab with packJob := none } } j % 2 ^ 16) ∧
      (packStatus { s with fab := { s.fab with packJob := none } } j = 0 → rd t FAB_PACK_STATUS.status = 0 ∧
        rd t FAB_PACK_SET.set_version = (rd s FAB_PACK_SET.set_version + 1) % 65536 ∧
        t.key.nextSeq = (s.key.nextSeq + 1) % 2 ^ 32 ∧
        (j.install = false → t.fab.packs = s.fab.packs.filter (fun p => p.id != j.id)) ∧
        (j.install = true → ∃ p, t.fab.packs = s.fab.packs.filter (fun p => p.id != fld j.image 12 4) ++ [p] ∧
          p.id = fld j.image 12 4 ∧ p.image = j.image ∧ (∀ n ∈ p.slots, n ∈ freeSlots s))) ∧
      t.fab.launches = s.fab.launches ∧ t.clock = s.clock) ∧
  (∀ (s : State) (c v : Nat), c < 64 → v % 2 = 1 → dieSilent s 0 = false → firstFail (fabCtxChecks c s) = none →
    ∃ t, exec (.fabCtxCommit c v) s = .next t ∧ rd t FAB_COMMIT_STATUS.status = 0 ∧
      (∀ f ∈ [FAB_GROUT_TABLE.grout_table, FAB_GROUT_LO.grout_lo, FAB_GROUT_SPAN.grout_span, FAB_CAPTURE_BASE.capture_base,
        FAB_CAPTURE_BASE.capture_slots], com t f (c * 0x80) = stg s f (c * 0x80) % 2 ^ f.width) ∧
      t = { s with regs := t.regs })

/-- An island that runs its monitors shows a rail's sample; a good one clears its count, the sixteenth bad one in a row
commands the rail's cause and state. A clock without edges commands silent, and so does its second window beyond 2 %.
A junction read shows the hotter sensor at each island and gives a Course die's agent its temperature. A watched
heartbeat that is missing commands its cause at its limit, by the crystal's time; heartbeats are sent and noted. A
link lost, at once on bad frames or 200 µs after the last valid one, is noted and commands its cause, silent where no
island reaches the die. A forwarded event of severity 2 or 3 and a message of the other island command their state,
always the more severe of the two. Where it goes beyond the words of the rules it rests on the model's own readings,
log entries 43 and 46. (R561, R562, R563, R564, R565, R566, R567, R655) -/
def Obligations.IslandMonitors : Prop :=
  (∀ (s : State) (i k mv : Nat), watching s i = true → k < 12 →
    ∃ t, exec (.railSample i k mv) s = .next t ∧ rd t ISL_RAIL.mv (dieBase i + 4 * k) = mv % 2 ^ 16 ∧
      (railHeld (islandOf s i) (osc s) k = false → railBad s i k mv = false →
        aget (islandOf t i).bad ((railCause k).1 * 256 + k) 0 = 0 ∧ heldState t i = heldState s i) ∧
      (railHeld (islandOf s i) (osc s) k = false → railBad s i k mv = true →
        15 ≤ aget (islandOf s i).bad ((railCause k).1 * 256 + k) 0 →
        hasCause t i (railCause k).1 = true ∧ heldState t i = max (heldState s i) (railCause k).2.1) ∧
      t.fab = s.fab ∧ t.clock = s.clock) ∧
  (∀ (s : State) (i k ppm : Nat) (edges : Bool), watching s i = true → k < 9 →
    (if k = 0 then (islandOf s i).night else if k < 5 then domainHeld (islandOf s i) (osc s) (memDomain k) ||
      partialHeld (islandOf s i) (osc s) k else domainHeld (islandOf s i) (osc s) (91 + k)) = false →
    (edges = false ∨ (20000 < ppm ∧
      1 ≤ aget (islandOf s i).bad ((if k = 0 then 0x09 else if k < 5 then 0x08 else 0x0A) * 256 + k) 0)) →
    ∃ t, exec (.pllCheckWindow i k ppm edges) s = .next t ∧
      hasCause t i (if k = 0 then 0x09 else if k < 5 then 0x08 else 0x0A) = true ∧
      heldState t i = max (heldState s i) 2 ∧ t.fab = s.fab ∧ t.clock = s.clock) ∧
  (∀ (s : State) (die : Nat) (a b : Int), die < 9 →
    ∃ t, exec (.junctionRead die a b) s = .next t ∧
      (∀ i, watching s i = true → rd t ISL_TEMP.max_c (dieBase i + 4 * die) = enc (max a b) 8) ∧
      (1 ≤ die → die ≤ 4 → (aget t.power.agents die {}).tj = max a b ∧
        rd t PWR_STATUS.ceiling_mhz ≤ thermalCeiling (max a b)) ∧
      t.fab = s.fab ∧ t.clock = s.clock) ∧
  (∀ (s : State) (i src : Nat), watching s i = true → src ≤ 67 → beatWatched s i src = true →
    ∃ t, exec (.heartbeatTimeout i src) s = .next t ∧ hasCause t i (beatCause i src).1 = true ∧
      heldState t i = max (heldState s i) (beatCause i src).2.1 ∧
      osc t = max (osc s) (beatFrom s i src + (beatCause i src).2.2.2) ∧ t.fab = s.fab) ∧
  (∀ (s : State) (i : Nat), watching s i = true →
    ∃ t, exec (.islandHeartbeat i) s = .next t ∧ ⟨.islandHeartbeat, [i]⟩ ∈ t.out ∧
      (watching s (11 - i) = true → (islandOf s (11 - i)).lost.contains i = false →
        aget (islandOf t (11 - i)).heard 66 0 = osc s ∧ rdB t ISL_STATE.peer_ok (dieBase (11 - i)) = true) ∧
      t = { s with regs := t.regs, out := t.out, isl := t.isl }) ∧
  (∀ (s : State), s.mode = .run →
    ∃ t, exec .hearthHeartbeat s = .next t ∧ ⟨.hearthHeartbeat, leBytes 8 (dial s)⟩ ∈ t.out ∧
      (∀ i, watching s i = true → (islandOf s i).lost.contains 0 = false → aget (islandOf t i).heard 65 0 = osc s ∧
        ∀ d < 100, aget (islandOf t i).off d false = !domainOn s d) ∧ t.fab = s.fab ∧ t.clock = s.clock) ∧
  (∀ (s : State) (i die : Nat) (crc : Bool), watching s i = true → die ≤ 6 → die ≠ i → (islandOf s i).lost.contains die = false →
    ∃ t, exec (.islandLinkLost i die crc) s = .next t ∧ (islandOf t i).lost = (islandOf s i).lost ++ [die] ∧
      (die = 11 - i → hasCause t i 0x28 = true) ∧
      (die ≠ 11 - i → partialHeld (islandOf s i) (osc s) die = false → hasCause t i 0x29 = true ∧
        ((islandOf s (11 - i)).lost.contains die = true ∨ watching s (11 - i) = false →
          heldState t i = max (heldState s i) 2)) ∧ t.fab = s.fab ∧
      (crc = true → t.clock = s.clock) ∧ (crc = false → osc t = max (osc s) (frameFrom s i die + 200000))) ∧
  (∀ (s : State) (i : Nat) (f : Forward) (rest : List Forward), takeForward i s.forwards = some (f, rest) →
    watching s i = true → (islandOf s i).lost.contains 0 = false →
    ∃ t more, exec (.forwardedEvent i) s = .next t ∧ t.forwards = rest ++ more ∧
      (f.severity = 2 → hasCause t i 0x30 = true) ∧
      (f.severity = 3 → hasCause t i 0x31 = true ∧ heldState t i = max (heldState s i) 2) ∧
      (f.sealedRun = true → hasCause t i 0x32 = true) ∧
      (f.status = 0x0532 → aget (islandOf t i).misses f.unit 0 = aget (islandOf s i).misses f.unit 0 + 1) ∧
      t.fab = s.fab ∧ t.clock = s.clock) ∧
  (∀ (s : State) (i : Nat) (m : SafeMsg) (rest : List SafeMsg), (islandOf s i).inbox = m :: rest → watching s i = true →
    m.state ≤ 2 → m.cause < 64 →
    ∃ t, exec (.safeStateMessage i) s = .next t ∧ (islandOf t i).inbox = rest ∧
      (heldState s i < m.state → hasCause t i m.cause = true) ∧ heldState t i = max (heldState s i) m.state ∧
      t.fab = s.fab ∧ t.clock = s.clock)

/-- A die that a silent command reaches is silent from then on: at a Course die no launch with an instance there goes on;
at the Hearth the Sieve's queue, the streams, decoders and samplers empty and Meridian stops. A self-reset takes an
island's monitors down with its output low and keeps the state it holds; once its firmware verifies the monitors run
again and the restart counts, else nothing changes. A phase of the output ends in its time. A mailbox command with the
argument 0xA55A is accepted, clears the argument and holds the more severe state; with another it reports 0x0C01.
Where it goes beyond the words of the rules it rests on the model's own readings, log entries 176 and 42. (R560, R561,
R568, R569, R571, R601) -/
def Obligations.SilentStateAndIslandRestart : Prop :=
  (∀ (s : State) (d : Nat), s.isl.silentSent.contains d = true →
    ∃ t, exec (.silentCommand d) s = .next t ∧ dieSilent t d = true ∧ t.isl.silentSent.contains d = false ∧
      (∀ k, dieSilent s k = true → dieSilent t k = true) ∧
      (d ≠ 0 → ∀ l ∈ t.fab.launches, ∀ x ∈ l.insts, courseDie x.course ≠ d) ∧
      (d = 0 → t.sieve.jobs = [] ∧ t.input.streams = [] ∧ t.input.decs = [] ∧ t.input.samplers = [] ∧
        t.mer.enabled = false ∧ rdB t MER_STATUS.running = false) ∧ t.clock = s.clock) ∧
  (∀ (s : State) (i why : Nat), watching s i = true → 1 ≤ why → why ≤ 3 →
    ∃ t, exec (.islandSelfReset i why) s = .next t ∧ (islandOf t i).up = false ∧ (islandOf t i).high = false ∧
      (islandOf t i).resetWhy = some why ∧ islandOf t (11 - i) = islandOf s (11 - i) ∧ t = { s with isl := t.isl }) ∧
  (∀ (s : State) (i why : Nat), i = 5 ∨ i = 6 → (islandOf s i).resetWhy = some why → (islandOf s i).held = false →
    ∃ t, exec (.islandRestartComplete i true) s = .next t ∧ (islandOf t i).up = true ∧ (islandOf t i).resetWhy = none ∧
      rd t ISL_RESTART_COUNT.restarts (dieBase i) = min (rd s ISL_RESTART_COUNT.restarts (dieBase i) + 1) (2 ^ 32 - 1) ∧
      heldState t i = heldState s i ∧ t.fab = s.fab ∧ t.clock = s.clock) ∧
  (∀ (s : State) (i : Nat), i = 5 ∨ i = 6 → exec (.islandRestartComplete i false) s = .next s) ∧
  (∀ (s : State) (i : Nat), watching s i = true → phaseNs (heldState s i) (islandOf s i).high ≠ 0 →
    ∃ t, exec (.ssOutputPhase i) s = .next t ∧ (islandOf t i).high = !(islandOf s i).high ∧ (islandOf t i).phaseAt = osc t ∧
      osc t = max (osc s) ((islandOf s i).phaseAt + phaseNs (heldState s i) (islandOf s i).high) ∧
      t = { s with regs := t.regs, clock := t.clock, isl := t.isl }) ∧
  (∀ (s : State) (port i st : Nat) (c : Instr), (c = .mailboxDegraded port i ∧ st = 1) ∨ (c = .mailboxSilent port i ∧ st = 2) →
    watching s i = true → setupStatus s port (dieBase i + 0x1000) = 0 →
    ∃ t, exec c s = .next t ∧
      (aget s.regs.committed ((dieBase i + 0x1004) * 64) 0 = 0xA55A → rd t ISL_MAILBOX_STATUS.status (dieBase i) = 0 ∧
        aget t.regs.committed ((dieBase i + 0x1004) * 64) 0 = 0 ∧ heldState t i = max (heldState s i) st ∧
        (heldState s i < st → hasCause t i 0x38 = true)) ∧
      (aget s.regs.committed ((dieBase i + 0x1004) * 64) 0 ≠ 0xA55A → rd t ISL_MAILBOX_STATUS.status (dieBase i) = 0x0C01 ∧
        heldState t i = heldState s i) ∧ t.fab = s.fab ∧ t.clock = s.clock)

/-- An idle Course that no Watch names in time goes to retain; one whose state is saved and scrubbed goes off and its
domain with it, no other domain; it wakes once both uncore domains of its die are on. An agent's sample comes 100 ns
after the last, keeps its two mean powers, sets a set point in whole steps of 10 MHz, at least 200 MHz and otherwise
not above the die's ceiling; while the current, the core cap and the stack cap hold, the clock does not fall but to
the ceiling and stands at the floor or above, and beyond one of them it falls (the clock chosen between them is the
model's free value, log entry 161). A forecast that breaks R658 is refused with 0x0E01 or 0x0E02 and changes no
forecast, a good one replaces it; 100 ms after its last entry ends it is stale once. PWR_COMMIT takes every staged
field or refuses a cap outside 180 to 480 W. Where it goes beyond the words of the rules it rests on the model's own
readings, log entries 160, 161 and 162. (R643, R644, R645, R646, R651, R654, R657, R658, R660, R675) -/
def Obligations.CoursesSleepAndAgentsSample : Prop :=
  (∀ (s : State) (c : Nat), c < 64 → s.mode = .run → courseCode s c = 1 →
    namedWithin s c (com s PWR_COURSE_POLICY.retain_after_us * 1000) = false →
    ∃ t, exec (.courseRetain c) s = .next t ∧ courseCode t c = 2 ∧ t = { s with power := t.power } ∧
      (∀ k, k ≠ c → courseCode t k = courseCode s k)) ∧
  (∀ (s : State) (c : Nat), c < 64 → s.mode = .run → courseCode s c = 1 ∨ courseCode s c = 2 →
    com s PWR_COURSE_POLICY.off_allowed = 1 → namedWithin s c 1000000 = false → 64 ≤ (courseOf s c).owner →
    (courseOf s c).scrub = false →
    ∃ t, exec (.courseOff c) s = .next t ∧ courseCode t c = 3 ∧ domainOn t c = false ∧
      (∀ d, d < 100 → d ≠ c → domainOn t d = domainOn s d) ∧ t = { s with regs := t.regs, power := t.power }) ∧
  (∀ (s : State) (c : Nat), c < 64 → s.mode = .run → domainOn s (64 + 2 * (courseDie c - 1)) = true →
    domainOn s (65 + 2 * (courseDie c - 1)) = true →
    ∃ t, exec (.courseWake c) s = .next t ∧ courseCode t c ≤ 1 ∧ domainOn t c = true ∧
      (∀ d, d < 100 → d ≠ c → domainOn t d = domainOn s d) ∧ t = { s with regs := t.regs, power := t.power }) ∧
  (∀ (s : State) (n amps core hbm : Nat), 1 ≤ n → n ≤ 4 → s.mode = .run →
    ∃ t, exec (.powerAgentSample n amps core hbm) s = .next t ∧ (agentOf t n).coreAvg = core ∧ (agentOf t n).hbmAvg = hbm ∧
      (agentOf t n).setMhz % 10 = 0 ∧ 200 ≤ (agentOf t n).setMhz ∧ (agentOf t n).setMhz ≤ max 200 (clockCeiling s n) ∧
      (agentOf t n).stretch ≤ 56 ∧ (agentOf t n).sampledAt = now t ∧ now t = max (now s) ((agentOf s n).sampledAt + 100) ∧
      (agentOf t n).capApplied = beyondCaps s n amps core hbm ∧
      (200 ≤ clockCeiling s n → beyondCaps s n amps core hbm = false →
        min (clockCeiling s n) (max (budgetOf s n).floor (agentOf s n).clk) ≤ (agentOf t n).clk) ∧
      (200 ≤ clockCeiling s n → beyondCaps s n amps core hbm = true →
        (agentOf t n).clk ≤ max 25 ((agentOf s n).clk - 1)) ∧
      (∀ k, k ≠ n → agentOf t k = agentOf s k) ∧
      t = { s with fresh := t.fresh, regs := t.regs, clock := t.clock, power := t.power }) ∧
  (∀ (s : State) (n amps core hbm : Nat), beyondCaps s n amps core hbm = true ↔
    130 < amps ∨ rd s MTR_BUDGET.core_cap (dieBase n) < core ∨ rd s MTR_BUDGET.hbm_cap (dieBase n) < hbm) ∧
  (∀ (s s1 : State) (seq : Nat) (b : List Nat), readMem 72 0xFF (com s PWR_FCAST_ADDR.addr) 576 [] s = (0, b, s1) →
    ∃ t, exec (.forecastPost seq) s = .next t ∧
      (forecastBad b (seq % 2 ^ 32) = true → rd t PWR_FCAST_STATUS.status = 0x0E01 ∧ t.power = s1.power) ∧
      (forecastBad b (seq % 2 ^ 32) = false →
        (inOrder (forecastEntries b) = false ∨ ∀ e ∈ forecastEntries b, e.stop ≤ dial s) →
        rd t PWR_FCAST_STATUS.status = 0x0E02 ∧ t.power = s1.power) ∧
      (forecastBad b (seq % 2 ^ 32) = false → inOrder (forecastEntries b) = true →
        (∃ e ∈ forecastEntries b, dial s < e.stop) → rd t PWR_FCAST_STATUS.status = 0 ∧
        t.power.forecast = forecastEntries b ∧ t.power.staleRaised = false)) ∧
  (∀ (s : State) (e : FcEntry), s.power.forecast.getLast? = some e → s.power.staleRaised = false →
    ticking s = false → e.stop + 100000000 < 2 ^ 64 → dial s ≤ e.stop + 100000000 →
    ∃ t, exec .forecastStale s = .next t ∧ t.power.staleRaised = true ∧ dial t = e.stop + 100000000 ∧
      now t = now s + (e.stop + 100000000 - dial s) ∧ t.power.forecast = s.power.forecast ∧
      (s.rings.devOpen = false → s.rings.dawnQueue.length < 64 →
        t.rings.dawnQueue[s.rings.dawnQueue.length]? = some (eventRecord (dial t) 0x0E35 0 0xFF 0 0 0 0 []))) ∧
  (∀ (s : State) (v : Nat), v % 2 = 1 → dieSilent s 0 = false → (∀ c ∈ pwrChecks s, c.1 = false) →
    ∃ t, exec (.pwrCommit v) s = .next t ∧ rd t FAB_COMMIT_STATUS.status = 0 ∧
      (∀ fa ∈ pwrFields, com t fa.1 fa.2 = stg s fa.1 fa.2 % 2 ^ fa.1.width) ∧ t.power = s.power) ∧
  (∀ (s : State) (v : Nat), v % 2 = 1 → dieSilent s 0 = false →
    stg s PWR_PKG_CAP.cap_w < 180 ∨ 480 < stg s PWR_PKG_CAP.cap_w →
    ∃ t, exec (.pwrCommit v) s = .next t ∧ rd t FAB_COMMIT_STATUS.status = 0x0002 ∧
      rd t FAB_COMMIT_FIELD.field_offset = 0x1200000 ∧ t.regs.committed = s.regs.committed)

/-- In run a thermistor sample comes 1 ms after the last; a point with two valid thermistors within 2.00 °C is their mean,
with one valid that one, with none lost and shown 0x8000. A flow pulse that has stood for the filter's samples is
noted, a shorter one is not; more than 500 in 100 ms latch its input. A measurement comes 10 ms after the last and
shows the flow; valid inputs silent for 40 ms bring the limp profile with a duty of 95 %. A calorimetric check shows Q
and P and latches their fault where they differ by more than 25 %. The duty is 5 % in Deep Night, the idle duty in
Night, and 95 % with the outlet lost or a full-duty condition. The thermal trip stops every launch and lowers
THERMTRIP_N and PWR_EN_MAIN, the islands running on; both rise 10 s after PWR_GOOD fell. Where it goes beyond the
words of the rules it rests on the model's own readings, log entries 163, 164 and 165. (R661, R662, R663, R664, R666,
R669, R671, R673, R674, R737) -/
def Obligations.CoolantLoopAndTrip : Prop :=
  (∀ (s : State) (a b c d : Nat), s.mode = .run → s.power.cool.samples.length = 4 →
    let v := fun (k x : Nat) => thermistor ((x :: s.power.cool.samples.getD k []).take 16)
    ∃ t, exec (.thermistorSample a b c d) s = .next t ∧ t.power.cool.sampledAt = now t ∧
      now t = max (now s) (s.power.cool.sampledAt + 1000000) ∧
      rd t PWR_COOLANT_T.inlet = tempCode t.power.cool.inlet.value ∧
      rd t PWR_COOLANT_T.outlet = tempCode t.power.cool.outlet.value ∧
      (∀ x y, v 0 a = some x → v 1 b = some y → (x - y).natAbs ≤ 200 → t.power.cool.inlet = { value := some ((x + y) / 2) }) ∧
      (∀ x, v 0 a = some x → v 1 b = none → t.power.cool.inlet.value = some x ∧ t.power.cool.inlet.code = 2) ∧
      (∀ x, v 2 c = none → v 3 d = some x → t.power.cool.outlet.value = some x ∧ t.power.cool.outlet.code = 1) ∧
      (v 2 c = none → v 3 d = none → t.power.cool.outlet.value = none ∧ rd t PWR_COOLANT_T.outlet = 0x8000) ∧
      t.fab = s.fab) ∧
  (∀ (s : State) (i n : Nat), filtered (com s PWR_COOL_REQ_CFG.flow_filt) n = false → exec (.flowPulse i n) s = .next s) ∧
  (∀ (s : State) (n : Nat), s.mode = .run → filtered (com s PWR_COOL_REQ_CFG.flow_filt) n = true →
    ∃ t, exec (.flowPulse 0 n) s = .next t ∧ t.power.cool.flowA.last = now s ∧
      t.power.cool.flowA.pulses = (s.power.cool.flowA.edge (now s)).pulses ∧
      t.power.cool.flowA.latched = (s.power.cool.flowA.latched || decide (500 < (s.power.cool.flowA.edge (now s)).pulses.length)) ∧
      t.power.cool.flowB = s.power.cool.flowB ∧ t.regs.committed = s.regs.committed) ∧
  (∀ (s : State) (n : Nat), s.mode = .run → filtered (com s PWR_COOL_REQ_CFG.flow_filt) n = true →
    ∃ t, exec (.flowPulse 1 n) s = .next t ∧ t.power.cool.flowB.last = now s ∧
      t.power.cool.flowB.latched = (s.power.cool.flowB.latched || decide (500 < (s.power.cool.flowB.edge (now s)).pulses.length)) ∧
      t.power.cool.flowA = s.power.cool.flowA ∧ t.regs.committed = s.regs.committed) ∧
  (∀ (s : State), s.mode = .run →
    ∃ t, exec .flowMeasure s = .next t ∧ t.power.cool.measuredAt = now t ∧
      now t = max (now s) (s.power.cool.measuredAt + 10000000) ∧
      t.power.cool.flow = (formFlow (passTo (s.power.cool.measuredAt + 10000000) s)).1 ∧
      rd t PWR_FLOW.flow = satTo (t.power.cool.flow.getD 0) 0xFFFF ∧
      (s.power.cool.flowA.latched = false ∨ s.power.cool.flowB.latched = false →
        s.power.cool.flowA.last + 40000000 ≤ now t → s.power.cool.flowB.last + 40000000 ≤ now t →
        rdB s PWR_STATUS.limp = false → rdB t PWR_STATUS.limp = true ∧ rd t PWR_COOL_DUTY.duty = 950)) ∧
  (∀ (s : State) (hearth : Nat) (i o : Int), s.mode = .run → rdB s PWR_STATUS.cal_fault = false →
    s.power.cool.inlet.value = some i → s.power.cool.outlet.value = some o → s.power.cool.flow.isSome →
    0 < s.power.cool.calN →
    let c := s.power.cool
    let p := c.calPower + hearth * c.calN
    let k : Int := if com s PWR_COOL_CFG.coolant = 1 then 4150 else 3550
    let q : Int := (c.calFlow : Int) * k * c.calDelta * 4
    let u : Nat := 600000 * c.calN
    400 * c.calN ≤ p →
    ∃ t, exec (.calorimetricCheck hearth) s = .next t ∧ t.power.cool.calN = 0 ∧ t.power.cool.calAt = now t ∧
      now t = max (now s) (c.calAt + 10000000000) ∧ rd t PWR_HEAT.p_el = satTo (p / c.calN) 0xFFFF ∧
      rd t PWR_HEAT.q_cal = satTo (q / ((u * c.calN : Nat) : Int)).toNat 0xFFFF ∧
      rdB t PWR_STATUS.cal_fault = decide (u * p < (q - ((u * p : Nat) : Int)).natAbs * 4)) ∧
  (∀ (s : State), s.mode ≠ .unpowered → s.mode ≠ .stopped →
    ∃ t, exec .coolReqUpdate s = .next t ∧ t.power.cool.dutyAt = now t ∧
      (ticking s = false → now t = max (now s) (s.power.cool.dutyAt + 10000000)) ∧
      (s.mode = .deepNight → rd t PWR_COOL_DUTY.duty = 50) ∧
      (s.mode = .night → rd t PWR_COOL_DUTY.duty = com s PWR_COOL_REQ_CFG.duty_idle * 10 % 1024) ∧
      (s.mode = .run → s.power.cool.outlet.value = none ∨ rdB s PWR_STATUS.limp = true ∨ rdB s PWR_STATUS.flow_low = true ∨
        rdB s PWR_STATUS.trip_seen = true ∨ rdB s PWR_STATUS.cal_fault = true ∨ dieSilent s 0 = true →
        rd t PWR_COOL_DUTY.duty = 950) ∧ t = { s with regs := t.regs, clock := t.clock, power := t.power }) ∧
  (∀ (s : State), s.power.tripped = false → s.nwt.supply = true → s.mode ≠ .unpowered → s.mode ≠ .deepNight →
    ∃ t, exec .thermalTrip s = .next t ∧ t.power.tripped = true ∧ t.power.enMain = false ∧ t.mode = .stopped ∧
      rdB t PWR_STATUS.trip_seen = true ∧ rdB t NWT_INPUT_STATE.thermtrip_n = false ∧ t.isl = s.isl ∧ t.fab.launches = [] ∧
      (∀ d < 5, dieSilent t d = true) ∧ t.clock.count = s.clock.count ∧ t.pending = s.pending) ∧
  (∀ (s : State), s.power.tripped = true → rdB s NWT_INPUT_STATE.pwr_good = false → ticking s = false →
    ∃ t, exec .thermalTripRelease s = .next t ∧ t.power = { s.power with tripped := false, enMain := true } ∧
      rdB t NWT_INPUT_STATE.thermtrip_n = true ∧ now t = max (now s) (s.nwt.goodLowAt + 10000000000) ∧
      t = { s with regs := t.regs, clock := t.clock, power := t.power })

/-- A retransmission request sends the kept packets again from its number, none in a drill. A link whose correction fails
goes down and may retrain 100 ms later; it comes up only where it trained and the neighbour is the one that the roster
expects, else it is down again. Keys are agreed anew after an hour, or at once after 2^32 packets. Every 20 µs each
port that is up sends a heartbeat, none in a drill. A taken heartbeat of the expected neighbour ends the misses and
brings a foreign port back; one of another package or roster makes the port foreign; one whose CRC or tag fails is
asked for again but in a drill; one out of order is left. An excluded neighbour gets an exclusion notice in a
heartbeat's place. An interval without one counts, and five on every port that faces a member report it. Where it goes
beyond the words of the rules it rests on the model's own readings, log entries 153, 154 and 152. (R604, R605, R606,
R609, R610, R611, R697) -/
def Obligations.OuvurLinksAndHeartbeats : Prop :=
  (∀ (s : State) (p seq : Nat), p < 4 → ovPortUp s p = true → ovState s ≠ 4 →
    exec (.ouvurRetransmitRequest p seq) s = .next { s with out := s.out ++
      ((ovPort s p).replay.dropWhile (fun x => x.seq != seq)).map (fun x => ⟨.ouvurReplay, x.data⟩) }) ∧
  (∀ (s : State) (p : Nat), p < 4 → ovPortUp s p = true →
    ∃ t, exec (.ouvurLinkDown p) s = .next t ∧ portCode t p = 0 ∧ (ovPort t p).retrainAt = now s + 100000000 ∧
      (ovPort t p).validSince = none ∧ (∀ q < 4, q ≠ p → portCode t q = portCode s q ∧ ovPort t q = ovPort s q) ∧
      (s.rings.devOpen = false → s.rings.dawnQueue.length < 64 →
        t.rings.dawnQueue[s.rings.dawnQueue.length]? = some (eventRecord (dial s) 0x0D34 0 0xFF p 1 0 0 [0]))) ∧
  (∀ (s : State) (p : Nat) (works : Bool) (id : List Nat), p < 4 → ovPortUp s p = false → com s OVR_CTRL.enable ≠ 0 →
    ticking s = false →
    ∃ t, exec (.ouvurLinkRetrain p works id) s = .next t ∧ now t = max (now s) (ovPort s p).retrainAt ∧
      (ovPort t p).rxSeq = 0 ∧ (ovPort t p).txSeq = 0 ∧ (ovPort t p).replay = [] ∧
      (works = true → (entryOf s (expected s p)).map entIdentity = some id → portCode t p = 2 ∧ (ovPort t p).keyAt = now t ∧
        (ovPort t p).packets = 0) ∧
      (works = false ∨ (entryOf s (expected s p)).map entIdentity ≠ some id → portCode t p = 0 ∧
        (ovPort t p).retrainAt = now t + 100000000) ∧ (∀ q < 4, q ≠ p → portCode t q = portCode s q)) ∧
  (∀ (s : State) (p : Nat) (works : Bool) (id : List Nat), p < 4 → ovPortUp s p = true → ticking s = false →
    ∃ t, exec (.linkKeyRenewal p works id) s = .next t ∧
      now t = (if (ovPort s p).packets < 2 ^ 32 then max (now s) ((ovPort s p).keyAt + 3600000000000) else now s) ∧
      (works = true → (entryOf s (expected s p)).map entIdentity = some id → portCode t p = portCode s p ∧
        (ovPort t p).packets = 0 ∧ (ovPort t p).keyGen = (ovPort s p).keyGen + 1 ∧ (ovPort t p).keyAt = now t) ∧
      (works = false ∨ (entryOf s (expected s p)).map entIdentity ≠ some id → portCode t p = 0)) ∧
  (∀ (s : State), com s OVR_CTRL.enable ≠ 0 → ovState s ≠ 0 → ticking s = false →
    ∃ t, exec .ouvurHeartbeatSend s = .next t ∧ t.ouvur.beatAt = now t ∧ now t = max (now s) (s.ouvur.beatAt + 20000) ∧
      (ovState s = 4 → t.out = s.out) ∧
      (ovState s ≠ 4 → ∀ p < 4, ovPortUp s p = true →
        (ovPort t p).txSeq = ((ovPort s p).txSeq + 1) % 2 ^ 32 ∧
        (ovState s = 2 ∧ portCode s p = 2 ∧ bit s.ouvur.members (expected s p) = false →
          ⟨.ouvurExclude, p :: ovHeader s { ctlPacket s 6 [] [] with dst := expected s p } 0 (ovPort s p).txSeq⟩ ∈ t.out) ∧
        (ovState s ≠ 2 ∨ portCode s p ≠ 2 ∨ bit s.ouvur.members (expected s p) = true →
          let d := padTo 32 (leBytes 8 (ovPort s p).lastT1 ++ leBytes 8 (ovPort s p).lastT2 ++ [ownDepth t])
          let q := { ctlPacket s 1 (leBytes 8 (dial t)) d with flags := beatFlags s, dst := expected s p }
          ⟨.ouvurHeartbeat, p :: ovHeader s q d.length (ovPort s p).txSeq ++ d⟩ ∈ t.out)) ∧
      (∀ p < 4, ovPortUp s p = false → ovPort t p = ovPort s p)) ∧
  (∀ (s : State) (p t3 t4 depth : Nat) (h : OvHead), p < 4 → ovPortUp s p = true → h.ok = true →
    h.seq = (ovPort s p).rxSeq → h.roster = rosterCrc s → h.src = expected s p → h.src < 4096 →
    ∃ t, exec (.ouvurHeartbeat p h t3 t4 depth) s = .next t ∧ portCode t p = 2 ∧ (ovPort t p).miss = 0 ∧
      (ovPort t p).rxSeq = ((ovPort s p).rxSeq + 1) % 2 ^ 32 ∧ (ovPort t p).lastT1 = h.data 0 8 ∧ (ovPort t p).depth = depth ∧
      (ovPort t p).validSince = some ((ovPort s p).validSince.getD (now s)) ∧
      rd t OVR_PORT.neighbour (8 * p) = h.src ∧ bit t.ouvur.rejoins h.src = bit h.flags 0 ∧ t.ouvur.heardAny = true) ∧
  (∀ (s : State) (p t3 t4 depth : Nat) (h : OvHead), p < 4 → ovPortUp s p = true → h.ok = true →
    h.seq = (ovPort s p).rxSeq → h.roster ≠ rosterCrc s ∨ h.src ≠ expected s p →
    ∃ t, exec (.ouvurHeartbeat p h t3 t4 depth) s = .next t ∧ portCode t p = 3 ∧ (ovPort t p).foreignTold = true ∧
      (ovPort t p).miss = (ovPort s p).miss ∧ t.ouvur.heardAny = s.ouvur.heardAny) ∧
  (∀ (s : State) (p t3 t4 depth : Nat) (h : OvHead), p < 4 → ovPortUp s p = true →
    (h.ok = false → ovState s ≠ 4 → exec (.ouvurHeartbeat p h t3 t4 depth) s =
      .next { s with out := s.out ++ [⟨.ouvurResend, [p, (ovPort s p).rxSeq]⟩] }) ∧
    (h.ok = false → ovState s = 4 → exec (.ouvurHeartbeat p h t3 t4 depth) s = .next s) ∧
    (h.ok = true → h.seq ≠ (ovPort s p).rxSeq → exec (.ouvurHeartbeat p h t3 t4 depth) s = .next s)) ∧
  (∀ (s : State) (p : Nat), p < 4 → com s OVR_CTRL.enable ≠ 0 → ovPortUp s p = true ∨ (ovPort s p).been = true →
    ticking s = false →
    ∃ t, exec (.heartbeatMissInterval p) s = .next t ∧ now t = max (now s) ((ovPort s p).missAt + 20000) ∧
      (ovPort t p).missAt = now t ∧ (ovPort t p).miss = satTo ((ovPort s p).miss + 1) 5 ∧
      rd t OVR_MISS.misses (8 * p) = min (rd s OVR_MISS.misses (8 * p) + 1) (2 ^ 32 - 1) ∧
      (4 ≤ (ovPort s p).miss → (∀ q ∈ facing s (expected s p), q ≠ p → 5 ≤ (ovPort s q).miss) → expected s p ≠ 0xFFFF →
        ovActive s = true → bit (baseMembers s) (expected s p) = true →
        ⟨expected s p, ownId s, rd s OVR_EPOCH.epoch⟩ ∈ t.ouvur.seen))

/-- A report taken by an active package is noted once and held where it names the present epoch. At the end of its settle
window a coordinator proposes the next epoch without the failed and with those that rejoin, and installs it where its
own acknowledgement is a quorum. A proposal of a later epoch is held, passed on and acknowledged towards its port;
acknowledgements are merged on the way, and a quorum installs the epoch. A commit of a later epoch is installed by its
members and excludes the others; one not later changes nothing of the membership. An exclusion notice ends every
transfer and excludes; 4 ms of an unresolved suspicion bring the no-quorum state; an excluded package asks to rejoin
once its conditions hold or the driver permits; a drill ends in the excluded state. Where it goes beyond the words of
the rules it rests on the model's own readings, log entries 155 and 159. (R612, R614, R616, R617, R619, R622, R623,
R624, R638, R639) -/
def Obligations.OuvurMembership : Prop :=
  (∀ (s : State) (p a b e : Nat) (h : OvHead), p < 4 → portCode s p = 2 → h.ok = true → h.seq = (ovPort s p).rxSeq →
    ovActive s = true →
    ∃ t, exec (.suspicionReport p h a b e) s = .next t ∧ ⟨a, b, e⟩ ∈ t.ouvur.seen ∧
      (⟨a, b, e⟩ ∈ s.ouvur.seen → t.ouvur.reports = s.ouvur.reports ∧ t.out = s.out) ∧
      (⟨a, b, e⟩ ∉ s.ouvur.seen → e = rd s OVR_EPOCH.epoch → t.ouvur.reports = s.ouvur.reports ++ [⟨a, b, e⟩]) ∧
      (⟨a, b, e⟩ ∉ s.ouvur.seen → e ≠ rd s OVR_EPOCH.epoch → t.ouvur.reports = s.ouvur.reports)) ∧
  (∀ (s : State) (w : Nat), s.ouvur.settle = some w → ovActive s = true → ticking s = false →
    let e := (max (rd s OVR_EPOCH.epoch) ((s.ouvur.agree.map (·.epoch)).getD 0) + 1) % 2 ^ 32
    let m := idMap ((List.range 4096).filter (fun i => (bit (baseMembers s) i && !(failed s).contains i) || bit s.ouvur.rejoins i))
    ∃ t, exec .settleWindowEnd s = .next t ∧ now t = max (now s) w ∧ t.ouvur.settle = none ∧
      (quorum (baseMembers s) (idMap [ownId s]) = false →
        t.ouvur.agree = some ⟨e, ownId s, m, idMap [ownId s], none⟩ ∧ rd t OVR_EPOCH.epoch = rd s OVR_EPOCH.epoch) ∧
      (quorum (baseMembers s) (idMap [ownId s]) = true → bit m (ownId s) = true →
        rd t OVR_EPOCH.epoch = e ∧ t.ouvur.members = m ∧ ovState t = 2)) ∧
  (∀ (s : State) (p e c m : Nat) (h : OvHead), p < 4 → portCode s p = 2 → h.ok = true → h.seq = (ovPort s p).rxSeq →
    ovActive s = true →
    ∃ t, exec (.ouvurProposal p h e c m) s = .next t ∧
      (acknowledges s e c = true → t.ouvur.agree = some ⟨e, c, m, idMap [ownId s], some p⟩ ∧
        ⟨.ouvurAck, p :: ovHeader s (mapPacket s 4 e c (idMap [ownId s])) 512 (ovPort s p).txSeq ++
          leBytes 512 (idMap [ownId s])⟩ ∈ t.out) ∧
      (acknowledges s e c = false → t.ouvur.agree = s.ouvur.agree ∧ t.out = s.out) ∧ t.regs.committed = s.regs.committed) ∧
  (∀ (s : State) (p m : Nat) (h : OvHead) (a : OvAgree), p < 4 → portCode s p = 2 → h.ok = true →
    h.seq = (ovPort s p).rxSeq → ovActive s = true → s.ouvur.agree = some a →
    ∃ t, exec (.acknowledgement p h a.epoch a.coord m) s = .next t ∧
      (∀ q, a.parent = some q → t.ouvur.agree = some { a with acked := a.acked ||| m } ∧
        ⟨.ouvurAck, q :: ovHeader s (mapPacket s 4 a.epoch a.coord (a.acked ||| m)) 512 (ovPort s q).txSeq ++
          leBytes 512 (a.acked ||| m)⟩ ∈ t.out) ∧
      (a.parent = none → a.coord = ownId s → quorum (baseMembers s) (a.acked ||| m) = true → bit a.members (ownId s) = true →
        a.epoch < 2 ^ 32 → rd t OVR_EPOCH.epoch = a.epoch ∧ t.ouvur.members = a.members ∧ ovState t = 2)) ∧
  (∀ (s : State) (p e c m : Nat) (h : OvHead), p < 4 → portCode s p = 2 → h.ok = true → h.seq = (ovPort s p).rxSeq →
    ovState s ≠ 0 → ovState s ≠ 4 → e < 2 ^ 32 →
    ∃ t, exec (.ouvurCommit p h e c m) s = .next t ∧
      (rd s OVR_EPOCH.epoch < e → bit m (ownId s) = true → rd t OVR_EPOCH.epoch = e ∧ t.ouvur.members = m ∧ ovState t = 2 ∧
        rd t OVR_MEMBERS.members = popcount m 4096 ∧
        (∀ k < 64, ∀ r, (ovQueue t k).run = some r → r.started = false)) ∧
      (rd s OVR_EPOCH.epoch < e → bit m (ownId s) = false → ovState t = 3 ∧ rd t OVR_EPOCH.epoch = rd s OVR_EPOCH.epoch) ∧
      (e ≤ rd s OVR_EPOCH.epoch → ovState t = ovState s ∧ t.ouvur.members = s.ouvur.members ∧ t.ouvur.queues = s.ouvur.queues)) ∧
  (∀ (s : State) (p : Nat) (h : OvHead), p < 4 → portCode s p = 2 → h.ok = true → h.seq = (ovPort s p).rxSeq →
    h.roster = rosterCrc s → h.src = expected s p → ovState s = 2 →
    ∃ t, exec (.exclusionNotice p h) s = .next t ∧ ovState t = 3 ∧ t.ouvur.excludedAt = now s ∧ t.ouvur.agree = none ∧
      (∀ c < 64, (ovQueue t c).run = none)) ∧
  (∀ (s : State) (w : Nat), s.ouvur.confirmedAt = some w → ovActive s = true → ticking s = false →
    ∃ t, exec .noQuorumTimeout s = .next t ∧ ovState t = 5 ∧ now t = max (now s) (w + 4000000) ∧
      (∀ c < 64, (ovQueue t c).run = none)) ∧
  (∀ (s : State), ovState s = 3 → ticking s = false →
    mayRejoin (passTo (s.ouvur.excludedAt + 10000000) s) = true →
    ∃ t, exec .rejoinReady s = .next t ∧ t.ouvur = { s.ouvur with rejoinFlag := true } ∧
      now t = max (now s) (s.ouvur.excludedAt + 10000000) ∧ t = { s with regs := t.regs, clock := t.clock, ouvur := t.ouvur }) ∧
  (∀ (s : State) (v : Nat), v % 2 = 1 → ovState s = 3 →
    exec (.ovrRejoin v) s = .next { s with ouvur := { s.ouvur with driverRejoin := true } }) ∧
  (∀ (s : State) (w : Nat), s.ouvur.drillEnd = some w → ticking s = false →
    ∃ t, exec .drillEnd s = .next t ∧ ovState t = 3 ∧ t.ouvur.drillEnd = none ∧ t.ouvur.drillRejoin = true ∧
      t.ouvur.excludedAt = now t ∧ now t = max (now s) w ∧ t.ouvur.queues = s.ouvur.queues)

/-- The command of an operation takes the oldest record of that operation from an enabled queue with none at work: a
record that fails its checks ends at once; one with a Tie wait is at work, not started, with its wait issued; one
without starts or ends. A receive that starts tells its peer that it is ready; an all-reduce or broadcast behind a
predecessor starts and waits for it; a send of one packet holds it until its peer is ready. A timeout ends a record
whose Tie wait is still held, at the deadline that its home gave it, and counts it; or one with an unready partner, at
the record's own; any other it leaves. A ready packet of the present epoch marks its sender ready for the started
transfer that it names; one that comes early is kept. Where it goes beyond the words of the rules it rests on the
model's own readings, log entry 157. (R626, R627, R628, R632, R634, R636, R637, R641) -/
def Obligations.OuvurTakesTransferRecords : Prop :=
  (∀ (s s1 : State) (c op : Nat) (i : Instr) (r : List Nat),
    (op, i) ∈ [(1, .allReduce c), (2, .allGather c), (3, .broadcast c), (4, .send c), (5, .receive c), (6, .mirror c), (7, .refill c)] →
    c < 64 → com s OVR_Q_CFG.enable (c * 0x40) ≠ 0 → (ovQueue s c).run = none → dieSilent s 0 = false →
    (ovQueue s c).head ≠ (ovQueue s c).tail →
    readMem 71 c (com s OVR_Q_BASE.base (c * 0x40) + (ovQueue s c).head % xfSize s c * 64) 64 [] s = (0, r, s1) → xfOp r = op →
    ∃ t, exec i s = .next t ∧
      (xfCheck s1 c r ≠ 0 → (ovQueue t c).run = none ∧ (ovQueue t c).head = ((ovQueue s c).head + 1) % 2 ^ 32) ∧
      (xfCheck s1 c r = 0 → bit (r.getD 1 0) 1 = true → reach s1 0 (tieHome (fld r 40 4)) = true →
        (∃ x, (ovQueue t c).run = some x ∧ x.raw = r ∧ x.started = false ∧ x.deadline = now s + fld r 48 4 * 1000) ∧
        t.rings.ops = s1.rings.ops ++ [⟨.waitGe, fld r 40 4, fld r 44 4, .other (1376 + c), c, fld r 48 4⟩]) ∧
      (xfCheck s1 c r = 0 → bit (r.getD 1 0) 1 = false →
        (∃ x, (ovQueue t c).run = some x ∧ x.raw = r ∧ x.started = true) ∨
        ((ovQueue t c).run = none ∧ (ovQueue t c).head = ((ovQueue s c).head + 1) % 2 ^ 32)) ∧
      (xfCheck s1 c r = 0 → bit (r.getD 1 0) 1 = false → op = 5 ∨ ((op = 1 ∨ op = 3) ∧ (chainPred s1 c r).isSome) →
        ∃ x, (ovQueue t c).run = some x ∧ x.raw = r ∧ x.started = true ∧ x.got = 0 ∧ x.hold = [] ∧ x.sentAll = false) ∧
      (∀ s2 b, xfCheck s1 c r = 0 → bit (r.getD 1 0) 1 = false → op = 4 → xfBytes r ≤ 4096 → s.ouvur.early = [] →
        readMem 71 c (xfSrc r) (xfBytes r) [] (modRun c (fun x => { x with started := true })
          (modOvQueue c (fun q => { q with run := some ⟨q.head, r, false, now s1 + fld r 48 4 * 1000, [], [], 0, 0, [], false⟩ }) s1)) = (0, b, s2) →
        ∃ x, (ovQueue t c).run = some x ∧ x.sentAll = true ∧
          x.hold = [(xfTarget r, c, { group := 0xFF, tag := xfTag r, role := .stream, last := true, ctx := c, bytes := b })])) ∧
  (∀ (s : State) (c : Nat) (r : OvRun) (w : TieWait), (ovQueue s c).run = some r → r.started = false → ticking s = false →
    s.rings.waits.find? (fun w => w.who == .other (1376 + c)) = some w →
    ∃ t, exec (.transferTimeout c) s = .next t ∧ (ovQueue t c).run = none ∧
      (ovQueue t c).head = ((ovQueue s c).head + 1) % 2 ^ 32 ∧ now t = max (now s) w.deadline ∧
      rd t TIE_TIMEOUT_COUNT.timeouts (dieBase (tieHome w.tie)) =
        min (rd s TIE_TIMEOUT_COUNT.timeouts (dieBase (tieHome w.tie)) + 1) (2 ^ 32 - 1) ∧
      (∀ w ∈ t.rings.waits, w.who ≠ .other (1376 + c))) ∧
  (∀ (s : State) (c : Nat) (r : OvRun), (ovQueue s c).run = some r → r.started = true → ticking s = false →
    (unready s c r = true → ∃ t, exec (.transferTimeout c) s = .next t ∧ (ovQueue t c).run = none ∧
      (ovQueue t c).head = ((ovQueue s c).head + 1) % 2 ^ 32 ∧ now t = max (now s) r.deadline) ∧
    (unready s c r = false → exec (.transferTimeout c) s = .next s)) ∧
  (∀ (s : State) (c : Nat) (r : OvRun), (ovQueue s c).run = some r → r.started = false →
    s.rings.waits.find? (fun w => w.who == .other (1376 + c)) = none → exec (.transferTimeout c) s = .next s) ∧
  (∀ (s : State) (p c g k : Nat) (h : OvHead), p < 4 → portCode s p = 2 → h.ok = true → h.seq = (ovPort s p).rxSeq →
    h.epoch = rd s OVR_EPOCH.epoch → ovState s = 2 → dieSilent s 0 = false →
    ∃ t, exec (.ouvurReady p h c g k) s = .next t ∧
      ((ovQueue s c).run = none → t.ouvur.early = s.ouvur.early ++ [(h.src, c, g, k)] ∧ t.out = s.out) ∧
      (∀ r, (ovQueue s c).run = some r → r.started = false ∨ xfGroup r.raw ≠ g ∨ xfTag r.raw ≠ k →
        t.ouvur.early = s.ouvur.early ++ [(h.src, c, g, k)]) ∧
      (∀ r, (ovQueue s c).run = some r → r.started = true → xfGroup r.raw = g → xfTag r.raw = k → r.sentAll = false →
        ∃ x, (ovQueue t c).run = some x ∧ h.src ∈ x.ready ∧ x.hold = r.hold.filter (fun e => e.1 != h.src)) ∧
      (∀ r, (ovQueue s c).run = some r → r.started = true → xfGroup r.raw = g → xfTag r.raw = k → r.sentAll = true →
        (∀ e ∈ r.hold, e.1 = h.src) → (ovQueue t c).run = none ∧
          (ovQueue t c).head = ((ovQueue s c).head + 1) % 2 ^ 32))

/-- A data packet of another epoch or from a package that is not a member is dropped and counted; one for another package
leaves this one's transfers as they are. Bytes of a send are counted by the receive at work; the last, or a write that
is refused, ends it; a stop packet of a chain and a refused mirror end their record. OVR_COMMIT that enables Ouvur
with a roster that names this package makes it join, its four ports in training; without such a roster it is refused
with 0x0D02. Disabling it takes the ports down and ends every transfer. OVR_Q_COMMIT is refused with 0x0006 while a
record is at work, with 0x0D03 where a field or span is bad, with 0x0D04 where a table is; with 0x0007 where a table
cannot be read; else it takes the fields and the tables, its counts from 0 where it was disabled. Where it goes beyond
the words of the rules it rests on the model's own readings, log entries 158 and 159. (R606, R608, R620, R631, R632,
R636, R639, R640) -/
def Obligations.OuvurDataAndCommits : Prop :=
  (∀ (s : State) (p c : Nat) (h : OvHead) (d : OvData), p < 4 → portCode s p = 2 → h.ok = true → h.seq = (ovPort s p).rxSeq →
    ovState s = 2 → dieSilent s 0 = false →
    ∃ t, exec (.ouvurData p h c d) s = .next t ∧ (ovPort t p).rxSeq = ((ovPort s p).rxSeq + 1) % 2 ^ 32 ∧
      (h.epoch ≠ rd s OVR_EPOCH.epoch ∨ bit s.ouvur.members h.src = false →
        rd t OVR_DROP_COUNT.drops = min (rd s OVR_DROP_COUNT.drops + 1) (2 ^ 32 - 1) ∧ t.ouvur.queues = s.ouvur.queues ∧
        t.mem = s.mem ∧ t.out = s.out) ∧
      (h.epoch = rd s OVR_EPOCH.epoch → bit s.ouvur.members h.src = true → h.dst ≠ ownId s →
        t.ouvur.queues = s.ouvur.queues ∧ t.mem = s.mem ∧ rd t OVR_DROP_COUNT.drops = rd s OVR_DROP_COUNT.drops) ∧
      (∀ r, h.epoch = rd s OVR_EPOCH.epoch → bit s.ouvur.members h.src = true → h.dst = ownId s →
        (ovQueue s c).run = some r → fromPartner s c h.src r d = true → d.role = .stream → xfOp r.raw = 5 →
        let refused := (writeMem 71 c (xfDst r.raw + r.got) d.bytes
          (modPort p (fun x => { x with rxSeq := (x.rxSeq + 1) % 2 ^ 32 }) s)).1 ≠ 0
        (d.last = false → ¬refused → (ovQueue t c).run = some { r with got := r.got + d.bytes.length }) ∧
        (refused ∨ (d.last = true ∧ r.hold = []) → (ovQueue t c).run = none ∧ (ovQueue t c).head = ((ovQueue s c).head + 1) % 2 ^ 32)) ∧
      (∀ r, h.epoch = rd s OVR_EPOCH.epoch → bit s.ouvur.members h.src = true → h.dst = ownId s →
        (ovQueue s c).run = some r → fromPartner s c h.src r d = true → d.role = .stop ∨ d.role = .mirrorRefused →
        (ovQueue t c).run = none ∧ (ovQueue t c).head = ((ovQueue s c).head + 1) % 2 ^ 32)) ∧
  (∀ (s : State) (v : Nat) (r : List Nat), v % 2 = 1 → dieSilent s 0 = false → com s OVR_CTRL.enable = 0 →
    stg s OVR_CTRL.enable = 1 → stg s OVR_EREC_ADDR.addr % 4096 = 0 → stg s OVR_EREC_ADDR.addr < 2 ^ 48 →
    rangeHost s (stg s OVR_EREC_ADDR.addr) 16384 = true → stg s OVR_POLICY.policy_handle < 2 ^ 32 →
    rosterFor s (stg s OVR_POLICY.policy_handle) = some r →
    ∃ t, exec (.ovrCommit v) s = .next t ∧ rd t FAB_COMMIT_STATUS.status = 0 ∧ ovState t = 1 ∧ t.ouvur.roster = r ∧
      com t OVR_CTRL.enable = 1 ∧ (∀ p < 4, portCode t p = 1 ∧ (ovPort t p).retrainAt = now s) ∧
      (∃ e ∈ rosterEntries r, entIdentity e = ownIdentity ∧ rd t OVR_STATUS.pkg_id = entId e) ∧
      t.ouvur.queues = s.ouvur.queues) ∧
  (∀ (s : State) (v : Nat), v % 2 = 1 → dieSilent s 0 = false → com s OVR_CTRL.enable = 0 → stg s OVR_CTRL.enable = 1 →
    stg s OVR_EREC_ADDR.addr % 4096 = 0 → rangeHost s (stg s OVR_EREC_ADDR.addr) 16384 = true →
    rosterFor s (stg s OVR_POLICY.policy_handle) = none →
    ∃ t, exec (.ovrCommit v) s = .next t ∧ rd t FAB_COMMIT_STATUS.status = 0x0D02 ∧ t.ouvur = s.ouvur ∧
      t.regs.committed = s.regs.committed) ∧
  (∀ (s : State) (v : Nat), v % 2 = 1 → dieSilent s 0 = false → com s OVR_CTRL.enable = 1 → stg s OVR_CTRL.enable = 0 →
    stg s OVR_EREC_ADDR.addr % 4096 = 0 → rangeHost s (stg s OVR_EREC_ADDR.addr) 16384 = true →
    stg s OVR_POLICY.policy_handle = com s OVR_POLICY.policy_handle →
    ∃ t, exec (.ovrCommit v) s = .next t ∧ rd t FAB_COMMIT_STATUS.status = 0 ∧ ovState t = 0 ∧
      (∀ p < 4, portCode t p = 0) ∧ rd t OVR_EPOCH.epoch = 0 ∧ rd t OVR_MEMBERS.members = 0 ∧
      (∀ c < 64, (ovQueue t c).run = none)) ∧
  (∀ (s : State) (c v : Nat), v % 2 = 1 → c < 64 → dieSilent s 0 = false → (ovQueue s c).run.isSome →
    ∃ t, exec (.ovrQCommit c v) s = .next t ∧ rd t FAB_COMMIT_STATUS.status = 0x0006 ∧ t.ouvur = s.ouvur ∧
      t.regs.committed = s.regs.committed) ∧
  (∀ (s s1 s2 : State) (c v gst mst : Nat) (g m : List Nat), v % 2 = 1 → c < 64 → dieSilent s 0 = false → (ovQueue s c).run = none →
    stg s OVR_Q_CFG.poll_us (c * 0x40) = 0 →
    readMem 71 c (stg s OVR_GROUP_ADDR.groups (c * 0x40)) 524288 [] (commitAt 0 (0x110103C + c * 0x40) s) = (gst, g, s1) →
    readMem 71 c (stg s OVR_MIRROR_ADDR.mirrors (c * 0x40)) 512 [] s1 = (mst, m, s2) →
    ∃ t, exec (.ovrQCommit c v) s = .next t ∧
      (gst ≠ 0 ∨ mst ≠ 0 → rd t FAB_COMMIT_STATUS.status = 0x0007 ∧ t.ouvur = s2.ouvur) ∧ (gst = 0 → mst = 0 →
      (ovqBad s2 c = true → rd t FAB_COMMIT_STATUS.status = 0x0D03 ∧ t.ouvur = s2.ouvur) ∧
      (ovqBad s2 c = false → parseGroups g = none → rd t FAB_COMMIT_STATUS.status = 0x0D04 ∧ t.ouvur = s2.ouvur) ∧
      (∀ gs, ovqBad s2 c = false → parseGroups g = some gs → (∀ i < 16, mirrorOk (slice m (32 * i) 32) = true) →
        rd t FAB_COMMIT_STATUS.status = 0 ∧ (ovQueue t c).groups = gs ∧
        (∀ i < 16, mirrorOf t c i = slice m (32 * i) 32) ∧
        (∀ fa ∈ ovqFields c, com t fa.1 fa.2 = stg s2 fa.1 fa.2 % 2 ^ fa.1.width) ∧
        (com s2 OVR_Q_CFG.enable (c * 0x40) = 0 → (ovQueue t c).head = 0 ∧ (ovQueue t c).tail = 0) ∧
        (∀ k, k ≠ c → ovQueue t k = ovQueue s2 k))))

/-- For each of the eight request kinds of one signature: a block of the kind that fails a check gives that check's
status, is recorded, and leaves the slots, minimums, fuses and retests as they were; one that passes them all acts and
is recorded with its kind and status 0. Provisioning fills a slot, and the first installer slot moves the lifecycle to
deployed; revoking empties it; each change of the key store burns a fuse; the firmware minimum and a policy minimum
rise to the value; a retest is queued for each Brick named; a drill begins at a member not marked required and ends
the transfers at work. While a debug half waits, a request is refused with 0x0F01; in the silent state with 0x0C40.
Where it goes beyond the words of the rules it rests on the model's own readings, log entry 167. (R535, R638, R677,
R679, R689, R690, R691, R693, R694, R695, R702) -/
def Obligations.KeystoneRequests : Prop :=
  (∀ (s s1 : State) (v : Nat) (b : List Nat), v % 2 = 1 → dieSilent s 0 = false → s1.key.half = none →
    stg s KEY_REQ_ADDR.addr % 64 = 0 → rangeHost s (stg s KEY_REQ_ADDR.addr) 512 = true →
    readMem 73 0xFF (stg s KEY_REQ_ADDR.addr) 512 [] (commitAt 0 0x130003C s) = (0, b, s1) →
    (∀ (k : Nat) (i : Instr), (k, i) ∈ [(1, .provisionInstallerSlot v), (2, .revokeInstallerSlot v),
        (3, .provisionOperatorSlot v), (4, .revokeOperatorSlot v), (6, .retestBricks v), (7, .drill v),
        (8, .raiseFirmwareMinimum v), (9, .raisePolicyMinimum v)] →
      (rqKind b = k ∨ rqKind b = 0 ∨ 9 < rqKind b → requestStatus s1 b none ≠ 0 →
        ∃ t, exec i s = .next t ∧ rd t KEY_REQ_STATUS.status = requestStatus s1 b none ∧
          t.key.installer = s1.key.installer ∧ t.key.operator = s1.key.operator ∧ t.key.policyMin = s1.key.policyMin ∧
          t.key.fwMin = s1.key.fwMin ∧ t.key.fusesBurnt = s1.key.fusesBurnt ∧ t.fab.retests = s1.fab.retests ∧
          t.key.nextSeq = (s1.key.nextSeq + 1) % 2 ^ 32) ∧
      (rqKind b ≠ k → 1 ≤ rqKind b → rqKind b ≤ 9 → exec i s = .next s)) ∧
    (requestStatus s1 b none = 0 → rqKind b = 1 →
      ∃ t, exec (.provisionInstallerSlot v) s = .next t ∧ rd t KEY_REQ_STATUS.status = 0 ∧
        t.key.installer = setAt s1.key.installer ((rqBody b).getD 0 0) (some (bodyKey (rqBody b) ((rqBody b).getD 1 0))) ∧
        t.key.lifecycle = (if noInstaller s1 then 2 else s1.key.lifecycle) ∧ t.key.fusesBurnt = s1.key.fusesBurnt + 1 ∧
        fld (recordEntry t s1.key.nextSeq) 4 2 = 1 ∧ fld (recordEntry t s1.key.nextSeq) 6 2 = 0) ∧
    (requestStatus s1 b none = 0 → rqKind b = 2 →
      ∃ t, exec (.revokeInstallerSlot v) s = .next t ∧ rd t KEY_REQ_STATUS.status = 0 ∧
        t.key.installer = setAt s1.key.installer ((rqBody b).getD 0 0) none ∧ t.key.fusesBurnt = s1.key.fusesBurnt + 1 ∧
        (∀ e ∈ t.key.policies, e.2.keySlot = (rqBody b).getD 0 0 → e.2.filled = false) ∧
        (∀ e ∈ t.rings.store, e.2.keySlot = (rqBody b).getD 0 0 → e.2.valid = false)) ∧
    (requestStatus s1 b none = 0 → rqKind b = 3 →
      ∃ t, exec (.provisionOperatorSlot v) s = .next t ∧ rd t KEY_REQ_STATUS.status = 0 ∧
        t.key.operator = setAt s1.key.operator ((rqBody b).getD 0 0) (some (bodyKey (rqBody b) 0)) ∧
        t.key.fusesBurnt = s1.key.fusesBurnt + 1 ∧ t.key.installer = s1.key.installer) ∧
    (requestStatus s1 b none = 0 → rqKind b = 4 →
      ∃ t, exec (.revokeOperatorSlot v) s = .next t ∧ rd t KEY_REQ_STATUS.status = 0 ∧
        t.key.operator = setAt s1.key.operator ((rqBody b).getD 0 0) none ∧ t.key.fusesBurnt = s1.key.fusesBurnt + 1) ∧
    (requestStatus s1 b none = 0 → rqKind b = 6 →
      ∃ t, exec (.retestBricks v) s = .next t ∧ rd t KEY_REQ_STATUS.status = 0 ∧ t.key.fusesBurnt = s1.key.fusesBurnt ∧
        (∀ i < (rqBody b).getD 0 0, fld (rqBody b) (2 + 2 * i) 2 ∈ t.fab.retests) ∧
        (∀ n ∈ s1.fab.retests, n ∈ t.fab.retests)) ∧
    (requestStatus s1 b none = 0 → rqKind b = 7 → ovState s1 = 2 → ownRequired s1 = false →
      ∃ t, exec (.drill v) s = .next t ∧ rd t KEY_REQ_STATUS.status = 0 ∧ ovState t = 4 ∧
        t.ouvur.drillEnd = some (now s1 + fld (rqBody b) 0 4 * 1000000) ∧ (∀ c < 64, (ovQueue t c).run = none)) ∧
    (requestStatus s1 b none = 0 → rqKind b = 7 → ovState s1 ≠ 2 ∨ ownRequired s1 = true →
      ∃ t, exec (.drill v) s = .next t ∧ rd t KEY_REQ_STATUS.status = 0x0D05 ∧ t.ouvur = s1.ouvur) ∧
    (requestStatus s1 b none = 0 → rqKind b = 8 →
      ∃ t, exec (.raiseFirmwareMinimum v) s = .next t ∧ rd t KEY_REQ_STATUS.status = 0 ∧
        t.key.fwMin = fld (rqBody b) 0 2 ∧ s1.key.fwMin < t.key.fwMin ∧ t.key.fusesBurnt = s1.key.fusesBurnt) ∧
    (requestStatus s1 b none = 0 → rqKind b = 9 →
      ∃ t, exec (.raisePolicyMinimum v) s = .next t ∧ rd t KEY_REQ_STATUS.status = 0 ∧
        aget t.key.policyMin ((rqBody b).getD 0 0) 0 = fld (rqBody b) 2 4 ∧
        (∀ k, k ≠ (rqBody b).getD 0 0 → aget t.key.policyMin k 0 = aget s1.key.policyMin k 0) ∧
        t.key.fusesBurnt = s1.key.fusesBurnt + 1)) ∧
  (∀ (s s1 : State) (v : Nat) (b : List Nat) (h : Half), v % 2 = 1 → dieSilent s 0 = false → s1.key.half = some h →
    stg s KEY_REQ_ADDR.addr % 64 = 0 → rangeHost s (stg s KEY_REQ_ADDR.addr) 512 = true →
    readMem 73 0xFF (stg s KEY_REQ_ADDR.addr) 512 [] (commitAt 0 0x130003C s) = (0, b, s1) → rqKind b = 1 →
    ∃ t, exec (.provisionInstallerSlot v) s = .next t ∧ rd t KEY_REQ_STATUS.status = 0x0F01 ∧ t.key = s1.key) ∧
  (∀ (s : State) (v : Nat) (i : Instr), i ∈ [.provisionInstallerSlot v, .revokeInstallerSlot v, .provisionOperatorSlot v,
      .revokeOperatorSlot v, .debugUnlock v, .retestBricks v, .drill v, .raiseFirmwareMinimum v, .raisePolicyMinimum v] →
    v % 2 = 1 → dieSilent s 0 = true →
    ∃ t, exec i s = .next t ∧ rd t KEY_REQ_STATUS.status = 0x0C40 ∧ t.key = s.key ∧ t.ouvur = s.ouvur ∧ t.fab = s.fab)

/-- The first accepted half of an unlock is held for 300 s; the second, of the other of the two roles, opens the port in
its scope, closes every context, drops both plans and gives the regions new keys; one that fails cancels the pending
half, and one of no such role is refused with 0x0F01. A policy that verifies fills a slot under a handle with a new
generation; another leaves the slots as they are. A release empties the slot of a current handle that nothing uses,
and is refused with 0x0F09 or 0x0F0A otherwise. While the Hearth firmware runs, an attestation report is written with
the caller's nonce and a signature of the identity key whose random number is a free value of the model; a bad address
or context gets 0x0F0B. A copy writes the record or the certificate chain. A write-back stores the record and its
newest entry; an internal fault is an event. Where it goes beyond the words of the rules it rests on the model's own
readings, log entries 168, 169 and 170. (R680, R682, R683, R684, R692, R698, R699, R700, R703, R704, R705, R771) -/
def Obligations.KeystoneUnlocksPoliciesAndReports : Prop :=
  (∀ (s s1 : State) (v : Nat) (b : List Nat), v % 2 = 1 → dieSilent s 0 = false → s1.key.half = none →
    stg s KEY_REQ_ADDR.addr % 64 = 0 → rangeHost s (stg s KEY_REQ_ADDR.addr) 512 = true →
    readMem 73 0xFF (stg s KEY_REQ_ADDR.addr) 512 [] (commitAt 0 0x130003C s) = (0, b, s1) → rqKind b = 5 →
    ∃ t, exec (.debugUnlock v) s = .next t ∧ rd t KEY_REQ_STATUS.status = requestStatus s1 b none ∧
      t.key.half = (if requestStatus s1 b none = 0 then some ⟨rqRole b, rqBody b, now s1 + 300000000000⟩ else none) ∧
      t.key.unlocked = s1.key.unlocked ∧ t.key.nextSeq = (s1.key.nextSeq + 1) % 2 ^ 32) ∧
  (∀ (s s1 : State) (v : Nat) (b : List Nat) (h : Half), v % 2 = 1 → dieSilent s 0 = false → s1.key.half = some h →
    stg s KEY_REQ_ADDR.addr % 64 = 0 → rangeHost s (stg s KEY_REQ_ADDR.addr) 512 = true →
    readMem 73 0xFF (stg s KEY_REQ_ADDR.addr) 512 [] (commitAt 0 0x130003C s) = (0, b, s1) → rqKind b = 5 → rqRole b + h.role = 1 →
    ∃ t, exec (.debugUnlock v) s = .next t ∧ rd t KEY_REQ_STATUS.status = requestStatus s1 b (some h.body) ∧ t.key.half = none ∧
      (requestStatus s1 b (some h.body) = 0 → t.key.unlocked = (rqBody b).getD 0 0 ∧ t.key.everUnlocked = true ∧
        t.day.active = none ∧ t.day.staged = none ∧ (∀ c < 64, ctxOpen t c = false) ∧ s1.mem.nextKey < t.mem.nextKey) ∧
      (requestStatus s1 b (some h.body) ≠ 0 → t.key.unlocked = s1.key.unlocked ∧ t.day = s1.day)) ∧
  (∀ (s s1 : State) (v : Nat) (b : List Nat) (h : Half), v % 2 = 1 → dieSilent s 0 = false → s1.key.half = some h →
    stg s KEY_REQ_ADDR.addr % 64 = 0 → rangeHost s (stg s KEY_REQ_ADDR.addr) 512 = true →
    readMem 73 0xFF (stg s KEY_REQ_ADDR.addr) 512 [] (commitAt 0 0x130003C s) = (0, b, s1) → rqKind b = 5 → rqRole b + h.role ≠ 1 →
    ∃ t, exec (.debugUnlock v) s = .next t ∧ rd t KEY_REQ_STATUS.status = 0x0F01 ∧ t.key = s1.key ∧ t.day = s1.day) ∧
  (∀ (s : State) (h : Half), s.key.half = some h → ticking s = false →
    ∃ t, exec .debugHalfExpiry s = .next t ∧ t.key = { s.key with half := none } ∧ now t = max (now s) h.deadline ∧
      rdB t KEY_STATE.half_pending = false) ∧
  (∀ (s s1 s2 : State) (v : Nat) (hdr img : List Nat), v % 2 = 1 → dieSilent s 0 = false → stg s KEY_POLICY_OP.op = 1 →
    stg s KEY_POLICY_ADDR.addr % 64 = 0 → rangeHost s (stg s KEY_POLICY_ADDR.addr) 128 = true →
    readMem 73 0xFF (stg s KEY_POLICY_ADDR.addr) 128 [] (commitAt 0 0x130005C s) = (0, hdr, s1) →
    384 ≤ fld hdr 8 4 → fld hdr 8 4 ≤ 262144 → rangeHost s1 (stg s KEY_POLICY_ADDR.addr) (fld hdr 8 4) = true →
    readMem 73 0xFF (stg s KEY_POLICY_ADDR.addr) (fld hdr 8 4) [] s1 = (0, img, s2) →
    ∃ t, exec (.policyRegister v) s = .next t ∧ rd t KEY_POLICY_STATUS.status = policyStatus s2 img ∧
      (policyStatus s2 img ≠ 0 → t.key = s2.key) ∧
      (policyStatus s2 img = 0 → ∃ i < 32, (aget s2.key.policies i {}).filled = false ∧
        aget t.key.policies i {} = ⟨(aget s2.key.policies i {}).gen % 65535 + 1, true, img.getD 6 0, fld img 16 4,
          fld img 12 4, img.getD 7 0, (img.take (img.length - 128)).drop 128, sha384 img⟩ ∧
        rd t KEY_POLICY_HANDLE.handle = i + 32 * (aget t.key.policies i {}).gen ∧
        (∀ k, k ≠ i → aget t.key.policies k {} = aget s2.key.policies k {}))) ∧
  (∀ (s : State) (v : Nat) (p : PolicySlot), v % 2 = 1 → dieSilent s 0 = false → stg s KEY_POLICY_OP.op = 2 →
    stg s KEY_POLICY_ADDR.addr % 64 = 0 → policyAt s (rd s KEY_POLICY_HANDLE.handle) = some p →
    ∃ t, exec (.policyRelease v) s = .next t ∧
      (policyInUse s (rd s KEY_POLICY_HANDLE.handle) = false → rd t KEY_POLICY_STATUS.status = 0 ∧
        policyAt t (rd s KEY_POLICY_HANDLE.handle) = none ∧
        aget t.key.policies (rd s KEY_POLICY_HANDLE.handle % 32) {} = { p with filled := false }) ∧
      (policyInUse s (rd s KEY_POLICY_HANDLE.handle) = true → rd t KEY_POLICY_STATUS.status = 0x0F09 ∧ t.key = s.key)) ∧
  (∀ (s : State) (v : Nat), v % 2 = 1 → dieSilent s 0 = false → stg s KEY_POLICY_OP.op = 2 →
    stg s KEY_POLICY_ADDR.addr % 64 = 0 → policyAt s (rd s KEY_POLICY_HANDLE.handle) = none →
    ∃ t, exec (.policyRelease v) s = .next t ∧ rd t KEY_POLICY_STATUS.status = 0x0F0A ∧ t.key = s.key) ∧
  (∀ (s s1 : State) (v : Nat) (nonce : List Nat), v % 2 = 1 → hearthRuns s = true → stg s KEY_ATT_ADDR.addr % 64 = 0 →
    rangeHost s (stg s KEY_ATT_ADDR.addr) 768 = true → stg s KEY_ATT_CTX.context = 0xFF ∨ ctxOpen s (stg s KEY_ATT_CTX.context) = true →
    readMem 73 0xFF (stg s KEY_ATT_ADDR.addr + 32) 32 [] (commitAt 0 0x130007C s) = (0, nonce, s1) →
    let body := reportBytes s1 (stg s KEY_ATT_CTX.context) nonce
      (match s.mer.active with | some x => sha384 x | none => List.replicate 48 0) (packageState s)
    ∃ t, exec (.attestationReport v) s = .next t ∧ rd t KEY_ATT_STATUS.status = 0 ∧ t.key = s1.key ∧
      (∃ k u, let sg := ecdsaSign identitySecret (scalar384 k) body
        t.mem = (writeMem' 73 0xFF (stg s KEY_ATT_ADDR.addr)
          (body ++ beBytes 48 sg.1 ++ beBytes 48 sg.2 ++ List.replicate 32 0) { s1 with fresh := u }).mem)) ∧
  (∀ (s : State) (v : Nat), hearthRuns s = false → exec (.attestationReport v) s = .next s) ∧
  (∀ (s : State) (v : Nat), v % 2 = 1 → hearthRuns s = true → stg s KEY_ATT_ADDR.addr % 64 ≠ 0 →
    ∃ t, exec (.attestationReport v) s = .next t ∧ rd t KEY_ATT_STATUS.status = 0x0003 ∧ t.mem = s.mem) ∧
  (∀ (s : State) (v : Nat), v % 2 = 1 → hearthRuns s = true → stg s KEY_ATT_ADDR.addr % 64 = 0 →
    rangeHost s (stg s KEY_ATT_ADDR.addr) 768 = false ∨
      (stg s KEY_ATT_CTX.context ≠ 0xFF ∧ ctxOpen s (stg s KEY_ATT_CTX.context) = false) →
    ∃ t, exec (.attestationReport v) s = .next t ∧ rd t KEY_ATT_STATUS.status = 0x0F0B ∧ t.mem = s.mem) ∧
  (∀ (s : State) (v op n : Nat) (i : Instr) (d : List Nat), v % 2 = 1 → hearthRuns s = true → stg s KEY_COPY_OP.op = op →
    (op, i, n, d) ∈ [(1, .copyRecord v, 2097152, (List.range 16384).flatMap (fun i => padTo 128 (aget s.key.record i []))),
      (2, .copyCertificateChain v, 16388, certChain)] →
    stg s KEY_COPY_ADDR.addr % 4096 = 0 → rangeHost s (stg s KEY_COPY_ADDR.addr) n = true →
    ∃ t, exec i s = .next t ∧ rd t KEY_COPY_STATUS.status = 0 ∧ t.key = s.key ∧
      t.mem = (writeMem' 73 0xFF (stg s KEY_COPY_ADDR.addr) d
        (acceptStaged [(KEY_COPY_ADDR.addr, 0), (KEY_COPY_OP.op, 0)] (commitAt 0 0x130009C s))).mem) ∧
  (∀ (s : State), ∃ t, exec .recordWriteBack s = .next t ∧ t.key.bootRecord = s.key.record ∧ t.key.bootSeq = s.key.nextSeq ∧
    t.key.record = s.key.record ∧ t = { s with key := t.key } ∧ (s.key.nextSeq ≠ 0 →
      t.key.monitor = some ⟨(s.key.nextSeq + 2 ^ 32 - 1) % 2 ^ 32, sha384 (recordEntry s (s.key.nextSeq + 2 ^ 32 - 1))⟩)) ∧
  (∀ (s : State), ∃ t, exec .keystoneInternalFault s = .next t ∧ t.key = s.key ∧ (s.rings.devOpen = false →
    s.rings.dawnQueue.length < 64 →
    t.rings.dawnQueue[s.rings.dawnQueue.length]? = some (eventRecord (dial s) 0x0F30 0 0xFF 0 3 0 0 [])))

/-- A level shorter than its input's filter does nothing. PWR_EN_MAIN rises with the Nightwatch supply; its loss takes the
package out of power, Dial time and the monitor with it, the key slots kept. PWR_GOOD high begins a Dawn: cold after
the supply was absent, else after a Deep Night or a loss of power; while the thermal trip holds it is only noted. Its
fall stops everything but Nightwatch and the islands, in Deep Night nothing. A low WARM_RST_N clears the package at
once and Dawn begins when it rises; the eleventh fall within a second latches it faulty instead. A reset request with
its key begins a warm or cold Dawn, without it is refused with 0x1006. Each Dawn begins at step 1, every die silent,
no launch left, the count and the fused minimum kept. Where it goes beyond the words of the rules it rests on the
model's own readings, log entries 172 and 175. (R673, R698, R706, R708, R710, R727, R737, R740, R744, R745) -/
def Obligations.ResetsBeginDawn : Prop :=
  (∀ (s : State), s.nwt.supply = false →
    exec .nightwatchSupplyUp s = .next { s with nwt := { s.nwt with supply := true, goodLowAt := now s }, power := { s.power with enMain := true } }) ∧
  (∀ (s : State), s.nwt.supply = true →
    ∃ t, exec .nightwatchSupplyLoss s = .next t ∧ t.mode = .unpowered ∧ t.nwt = { supply := false } ∧ t.power = {} ∧ dial t = 0 ∧
      t.key.monitor = none ∧ t.key.installer = s.key.installer ∧ t.key.operator = s.key.operator ∧ t.key.fwMin = s.key.fwMin ∧
      t.fab.launches = [] ∧ t.clock.count = s.clock.count ∧ t.pending = s.pending) ∧
  (∀ (s : State) (straps : List Nat) (n : Nat), rdB s NWT_INPUT_STATE.pwr_good = false → s.nwt.supply = true →
    s.power.tripped = false → 16 ≤ n →
    ∃ t, exec (.pwrGoodRise straps n) s = .next t ∧ t.mode = .dawn ∧ rdB t NWT_INPUT_STATE.pwr_good = true ∧
      rd t NWT_RESET_CAUSE.kind = (if s.nwt.lost then 0 else if s.nwt.deepExit then 5 else 4) ∧
      rdB t NWT_RESET_CAUSE.nightwatch_lost = s.nwt.lost ∧ rd t NWT_DAWN_STATUS.step = 1 ∧ t.nwt.lost = false ∧
      t.nwt.dawnAt = now t ∧ (∀ d < 5, dieSilent t d = true) ∧ t.fab.launches = [] ∧ t.clock.count = s.clock.count ∧
      t.key.fwMin = s.key.fwMin ∧ (s.nwt.lost = true → t.fab.bricks = [] ∧ dial t = 0)) ∧
  (∀ (s : State) (straps : List Nat) (n : Nat), rdB s NWT_INPUT_STATE.pwr_good = false → s.nwt.supply = true →
    s.power.tripped = true → 16 ≤ n →
    ∃ t, exec (.pwrGoodRise straps n) s = .next t ∧ rdB t NWT_INPUT_STATE.pwr_good = true ∧ t = { s with regs := t.regs }) ∧
  (∀ (s : State) (straps : List Nat) (n : Nat), n < 16 → exec (.pwrGoodRise straps n) s = .next s ∧ exec (.pwrGoodFall n) s = .next s) ∧
  (∀ (s : State) (n : Nat), rdB s NWT_INPUT_STATE.pwr_good = true → 16 ≤ n →
    ∃ t, exec (.pwrGoodFall n) s = .next t ∧ rdB t NWT_INPUT_STATE.pwr_good = false ∧ t.isl = s.isl ∧ t.nwt.goodLowAt = now s ∧
      (s.mode = .deepNight → t.mode = .deepNight ∧ t.fab = s.fab) ∧
      (s.mode ≠ .deepNight → t.mode = .stopped ∧ t.fab.launches = [] ∧ (∀ d < 5, dieSilent t d = true))) ∧
  (∀ (s : State) (n : Nat), s.nwt.supply = true → rdB s NWT_INPUT_STATE.warm_rst_n = true →
    com s NWT_INPUT_FILTER.warm_filt ≤ n → rdB s NWT_INPUT_FAULT.warm_stuck = false →
    rdB s NWT_INPUT_FAULT.warm_toggle = false → s.nwt.warm.armed = true → s.mode = .run ∨ s.mode = .dawn ∨ s.mode = .night →
    ∃ t, exec (.warmRstFall n) s = .next t ∧ rdB t NWT_INPUT_STATE.warm_rst_n = false ∧
      ((s.nwt.warm.fall (now s)).falls.length ≤ 10 → t.mode = .dawn ∧ rd t NWT_RESET_CAUSE.kind = 2 ∧ t.nwt.waitWarm = true ∧
        t.fab.launches = [] ∧ (∀ d < 5, dieSilent t d = true)) ∧
      (10 < (s.nwt.warm.fall (now s)).falls.length → rdB t NWT_INPUT_FAULT.warm_toggle = true ∧ t.mode = s.mode ∧ t.fab = s.fab)) ∧
  (∀ (s : State) (n : Nat), n < com s NWT_INPUT_FILTER.warm_filt →
    exec (.warmRstFall n) s = .next s ∧ exec (.warmRstRise n) s = .next s) ∧
  (∀ (s : State) (n : Nat), rdB s NWT_INPUT_STATE.warm_rst_n = false → com s NWT_INPUT_FILTER.warm_filt ≤ n →
    ∃ t, exec (.warmRstRise n) s = .next t ∧ rdB t NWT_INPUT_STATE.warm_rst_n = true ∧ t.nwt.warm.highAt = now s ∧
      (s.nwt.waitWarm = true → t.mode = .dawn ∧ t.nwt.waitWarm = false ∧ rd t NWT_DAWN_STATUS.step = 1 ∧ t.nwt.dawnAt = now s) ∧
      (s.nwt.waitWarm = false → t.mode = s.mode ∧ t.fab = s.fab)) ∧
  (∀ (s : State) (v k c : Nat) (straps : List Nat) (i : Instr), (i, k, c) ∈ [(.resetWarm v, 1, 3), (.resetCold v straps, 2, 1)] → v % 2 = 1 → s.mode = .run →
    stg s NWT_RESET_REQ.kind = k → stg s NWT_RESET_REQ.die = 0 →
    ∃ t, exec i s = .next t ∧
      (stg s NWT_RESET_REQ.key = 0xD0A5 → t.mode = .dawn ∧ rd t NWT_RESET_CAUSE.kind = c ∧ rd t NWT_DAWN_STATUS.step = 1 ∧
        (∀ d < 5, dieSilent t d = true) ∧ t.fab.launches = [] ∧ t.key.fwMin = s.key.fwMin ∧ t.key.installer = s.key.installer ∧
        (c = 1 → t.key.unlocked = 0 ∧ t.fab.bricks = []) ∧ (c = 3 → t.key.unlocked = s.key.unlocked)) ∧
      (stg s NWT_RESET_REQ.key ≠ 0xD0A5 → rd t NWT_RESET_STATUS.status = 0x1006 ∧ t = { s with regs := t.regs }))

/-- Dawn, its ports trained and an island about to start, ends its work in the reported time: a firmware, key store,
configuration, stack or stepping check that fails holds it at that step with its status; where every check and the
checker test pass, the package is released: in run, no die silent, ready, step 8, its time shown. An island's reset
input takes it down and its release lets it run once its firmware verifies. A partial reset of a Course die in run
begins with its key: the die is named, its Ties are 0 and its ports train; a second one meanwhile is refused with
0x1005, one of a die that is none with 0x1006, one in the silent state with 0x0C40. It ends once the die's checkers
pass, and stays where they fail. Where it goes beyond the words of the rules it rests on the model's own readings, log
entries 171 and 173. (R560, R711, R712, R714, R716, R717, R718, R719, R727, R739) -/
def Obligations.DawnHoldsOrReleases : Prop :=
  (∀ (s : State) (r : DawnReport), s.mode = .dawn → rdB s NWT_DAWN_STATUS.held = false → s.nwt.waitWarm = false →
    portsTraining s = false → islandsStarting r s ≠ [] →
    let cfg := s.key.lifecycle ≤ 1 ∨ configOk s r.config = true
    let keyOk := r.storeVersion = s.key.fusesBurnt
    ∃ t, exec (.dawnComplete r) s = .next t ∧ now t = max (now s) (s.nwt.dawnAt + r.ms * 1000000) ∧
      (r.firmware = false → t.mode = .dawn ∧ rdB t NWT_DAWN_STATUS.held = true ∧ rd t NWT_DAWN_STATUS.status = 0x1010 ∧ rd t NWT_DAWN_STATUS.step = 3) ∧
      (r.firmware = true → ¬keyOk → t.mode = .dawn ∧ rdB t NWT_DAWN_STATUS.held = true ∧ rd t NWT_DAWN_STATUS.status = 0x1011) ∧
      (r.firmware = true → keyOk → ¬cfg → t.mode = .dawn ∧ rdB t NWT_DAWN_STATUS.held = true ∧ rd t NWT_DAWN_STATUS.status = 0x1012) ∧
      (r.firmware = true → keyOk → cfg → r.stacksUp % 16 ≠ 15 → t.mode = .dawn ∧ rdB t NWT_DAWN_STATUS.held = true ∧
        rd t NWT_DAWN_STATUS.status = 0x1013 ∧ rd t NWT_DAWN_STATUS.step = 4) ∧
      (r.firmware = true → keyOk → cfg → r.stacksUp % 16 = 15 → step5Fails r s = true → t.mode = .dawn ∧
        rdB t NWT_DAWN_STATUS.held = true ∧ rd t NWT_DAWN_STATUS.status = 0x1014 ∧ rd t NWT_DAWN_STATUS.step = 5) ∧
      (r.firmware = true → keyOk → cfg → r.stacksUp % 16 = 15 → step5Fails r s = false → r.firstFailed.isSome →
        t.mode = .dawn ∧ rdB t NWT_DAWN_STATUS.held = true ∧ rd t NWT_DAWN_STATUS.status = 0x1015 ∧ rd t NWT_DAWN_STATUS.step = 6) ∧
      (r.firmware = true → keyOk → cfg → r.stacksUp % 16 = 15 → step5Fails r s = false → r.firstFailed = none →
        t.mode = .run ∧ t.silent = [] ∧ rdB t NWT_DAWN_STATUS.ready = true ∧ rd t NWT_DAWN_STATUS.step = 8 ∧
        rd t NWT_DAWN_TIME.ms = satTo r.ms 0xFFFF)) ∧
  (∀ (s : State) (i : Nat), i = 5 ∨ i = 6 →
    ∃ t, exec (.islandResetAssert i) s = .next t ∧ (islandOf t i).held = true ∧ (islandOf t i).up = false ∧
      (islandOf t i).high = false ∧ islandOf t (11 - i) = islandOf s (11 - i) ∧ t = { s with isl := t.isl }) ∧
  (∀ (s : State) (i : Nat) (ok : Bool), i = 5 ∨ i = 6 → (islandOf s i).held = true →
    ∃ t, exec (.islandResetRelease i ok) s = .next t ∧ (islandOf t i).held = false ∧
      (ok = true → s.mode = .run → (islandOf t i).up = true) ∧ (ok = false → (islandOf t i).up = (islandOf s i).up) ∧
      t.fab = s.fab ∧ t.clock = s.clock) ∧
  (∀ (s : State) (v n : Nat), v % 2 = 1 → s.mode = .run → dieSilent s 0 = false → stg s NWT_RESET_REQ.kind = 3 →
    stg s NWT_RESET_REQ.die = n → stg s NWT_RESET_REQ.key = 0xD0A5 →
    ∃ t, exec (.resetPartial v) s = .next t ∧
      (s.partialDie = none → 1 ≤ n → n ≤ 4 → t.partialDie = some n ∧ t.partialStep = 6 ∧
        rdB t NWT_RESET_STATUS.partial_busy = true ∧ t.nwt.partialAt = now t ∧ (∀ p < 3, endState t n p = 1) ∧
        (∀ k, (n - 1) * 32768 ≤ k → k < n * 32768 → tieValue t k = 0)) ∧
      (s.partialDie = none → n = 0 ∨ 4 < n → rd t NWT_RESET_STATUS.status = 0x1006 ∧ t = { s with regs := t.regs }) ∧
      (s.partialDie.isSome → rd t NWT_RESET_STATUS.status = 0x1005 ∧ t = { s with regs := t.regs })) ∧
  (∀ (s : State) (v : Nat), v % 2 = 1 → s.mode = .run → dieSilent s 0 = true → stg s NWT_RESET_REQ.kind = 3 →
    ∃ t, exec (.resetPartial v) s = .next t ∧ rd t NWT_RESET_STATUS.status = 0x0C40 ∧ t = { s with regs := t.regs }) ∧
  (∀ (s : State) (n ms : Nat), s.partialDie = some n → 1 ≤ n → n ≤ 4 → s.mode = .run → (∀ p < 3, endState s n p ≠ 1) →
    (∃ t, exec (.partialResetComplete true ms) s = .next t ∧ t.partialDie = none ∧ t.partialStep = 0 ∧
      rdB t NWT_RESET_STATUS.partial_busy = false ∧ now t = max (now s) (s.nwt.partialAt + ms * 1000000) ∧
      rd t NWT_DAWN_TIME.ms = satTo ms 0xFFFF) ∧
    (∃ t, exec (.partialResetComplete false ms) s = .next t ∧ t.partialDie = some n ∧ t.fab = s.fab ∧ t.clock = s.clock))

/-- A Night or Deep Night commit whose checks pass begins the entry; one that fails a check, or names a reserved target,
shows its status and stays in run. Once the Courses hold no work the entry ends: Ties 0, every domain but the
always-on ones off, in Deep Night PWR_EN_MAIN low. In Night a heartbeat goes to both islands. A permitted WAKE_N or
alarm, this one at the first tick from its time on, begins the exit, waits while the entry works, or raises
PWR_EN_MAIN from Deep Night; a forbidden one does nothing. The exit ends with its ports trained, in run, with the time
of the Night shown. An input stuck low is latched; the filter commit refuses a filter of 0. Where it goes beyond the
words of the rules it rests on the model's own readings, log entries 174 and 175. (R720, R721, R722, R723, R724, R725,
R726, R727, R741, R754) -/
def Obligations.NightAndItsWakes : Prop :=
  (∀ (s : State) (v k : Nat) (i : Instr), (i, k) ∈ [(.night v, 1), (.deepNight v, 2)] → v % 2 = 1 → dieSilent s 0 = false →
    stg s NWT_NIGHT_CTRL.target = k →
    ((∀ c ∈ nightChecks s, c.1 = false) → ∃ t, exec i s = .next t ∧ t.mode = .nightEntry ∧ rd t NWT_NIGHT_STATUS.status = 0 ∧
      rdB t NWT_NIGHT_STATUS.busy = true ∧ t.nwt.target = k ∧ t.nwt.stopAt = nightStopAt s ∧ t.clock = s.clock) ∧
    (∀ r, firstFail (nightChecks s) = some r → ∃ t, exec i s = .next t ∧ t.mode = s.mode ∧
      rd t NWT_NIGHT_STATUS.status = r.1 % 2 ^ 16 ∧ t = { s with regs := t.regs })) ∧
  (∀ (s : State) (v : Nat), v % 2 = 1 → dieSilent s 0 = false →
    stg s NWT_NIGHT_CTRL.target = 0 ∨ stg s NWT_NIGHT_CTRL.target = 3 →
    ∃ t, exec (.night v) s = .next t ∧ rd t NWT_NIGHT_STATUS.status = 0x0002 ∧ t = { s with regs := t.regs }) ∧
  (∀ (s : State), s.mode = .nightEntry → s.partialDie = none → s.nwt.wake = none →
    ∃ t, exec .nightEntryComplete s = .next t ∧
      (coursesBusy (reachNightStop s) = true → t.mode = .nightEntry ∧ t.rings.ties = (reachNightStop s).rings.ties) ∧
      (coursesBusy (reachNightStop s) = false → t.rings.ties = [] ∧ t.nwt.nightAt = now t) ∧
      (coursesBusy (reachNightStop s) = false → s.nwt.target ≠ 2 → t.mode = .night ∧ (∀ d < 94, domainOn t d = false) ∧
        rdB t NWT_NIGHT_STATUS.busy = false) ∧
      (coursesBusy (reachNightStop s) = false → s.nwt.target = 2 → t.mode = .deepNight ∧ t.power.enMain = false)) ∧
  (∀ (s : State), s.mode = .night →
    ∃ t, exec .nightwatchHeartbeat s = .next t ∧ t.out = s.out ++ [⟨.nightwatchHeartbeat, []⟩] ∧
      (∀ i, i = 5 ∨ i = 6 → watching s i = true → aget (islandOf t i).heard 67 0 = osc s) ∧ t = { s with out := t.out, isl := t.isl }) ∧
  (∀ (s : State) (n : Nat), n < com s NWT_INPUT_FILTER.wake_filt → exec (.wakeNFall n) s = .next s) ∧
  (∀ (s : State) (n : Nat), s.nwt.supply = true → com s NWT_INPUT_FILTER.wake_filt ≤ n → rdB s NWT_INPUT_FAULT.wake_stuck = false → rdB s NWT_INPUT_FAULT.wake_toggle = false →
    s.nwt.wakePin.armed = true → (s.nwt.wakePin.fall (now s)).falls.length ≤ 10 →
    ∃ t, exec (.wakeNFall n) s = .next t ∧
      (wakePermitted s false = true → s.mode = .night → t.mode = .nightExit ∧ rdB t NWT_NIGHT_STATUS.busy = true ∧
        rdB t NWT_NIGHT_STATUS.by_alarm = false ∧ (∀ e ∈ allEnds, endState t e.1 e.2 = 1)) ∧
      (wakePermitted s false = true → s.mode = .nightEntry → t.mode = .nightEntry ∧ t.nwt.wake = some false) ∧
      (wakePermitted s false = true → s.mode = .deepNight → t.power.enMain = true ∧ t.nwt.deepExit = true) ∧
      (wakePermitted s false = false ∨ s.mode = .run → t = { s with nwt := t.nwt } ∧ t.nwt.wake = s.nwt.wake)) ∧
  (∀ (s : State), wakePermitted s true = true → dial s ≤ com s NWT_NIGHT_WAKE_AT.alarm →
    com s NWT_NIGHT_WAKE_AT.alarm + 30518 < 2 ^ 64 → s.clock.nightFrac < 32768 → s.mode = .night ∨ s.mode = .nightEntry ∨ s.mode = .deepNight →
    ∃ t, exec .dialAlarm s = .next t ∧
      com s NWT_NIGHT_WAKE_AT.alarm ≤ dial t ∧ dial t < com s NWT_NIGHT_WAKE_AT.alarm + 30518 ∧
      (s.mode = .night → t.mode = .nightExit ∧ rdB t NWT_NIGHT_STATUS.by_alarm = true) ∧
      (s.mode = .nightEntry → t.mode = .nightEntry ∧ t.nwt.wake = some true ∧ dial t = com s NWT_NIGHT_WAKE_AT.alarm) ∧
      (s.mode = .deepNight → t.mode = .deepNight ∧ t.power.enMain = true ∧ rdB t NWT_NIGHT_STATUS.by_alarm = true)) ∧
  (∀ (s : State), wakePermitted s true = false → exec .dialAlarm s = .next s) ∧
  (∀ (s : State), s.mode = .nightExit → portsTraining s = false →
    ∃ t, exec .nightExitComplete s = .next t ∧ t.mode = .run ∧ rdB t NWT_NIGHT_STATUS.busy = false ∧
      rd t NWT_NIGHT_TIME.ms = satTo ((now s - s.nwt.nightAt) / 1000000) (2 ^ 32 - 1) ∧ t.clock.count = s.clock.count) ∧
  (∀ (s : State) (x : Nat), s.nwt.supply = true → rdB s NWT_INPUT_STATE.warm_rst_n = false → s.nwt.warm.falls.head? = some x →
    s.nwt.waitWarm = false → ticking s = false →
    ∃ t, exec (.inputStuck 0) s = .next t ∧ rdB t NWT_INPUT_FAULT.warm_stuck = true ∧ t.nwt.warm.armed = false ∧
      now t = max (now s) (x + 1000000000) ∧ t.mode = s.mode) ∧
  (∀ (s : State) (x : Nat), s.nwt.wakePin.falls.head? = some x →
    ∃ t, exec (.inputStuck 1) s = .next t ∧ rdB t NWT_INPUT_FAULT.wake_stuck = true ∧ t.nwt.wakePin.armed = false ∧
      max (now s) (x + 10000000000) ≤ now t ∧ (ticking s = false → now t = max (now s) (x + 10000000000)) ∧ t.mode = s.mode) ∧
  (∀ (s : State), s.mode = .run →
    (∃ t, exec (.inputStuck 2) s = .next t ∧ t.power.cool.flowA.latched = true ∧ t.power.cool.flowB = s.power.cool.flowB) ∧
    (∃ t, exec (.inputStuck 3) s = .next t ∧ t.power.cool.flowB.latched = true ∧ t.power.cool.flowA = s.power.cool.flowA)) ∧
  (∀ (s : State) (v : Nat), v % 2 = 1 → dieSilent s 0 = false →
    ∃ t, exec (.nwtInputCommit v) s = .next t ∧ t = { s with regs := t.regs } ∧
      (stg s NWT_INPUT_FILTER.warm_filt ≠ 0 → stg s NWT_INPUT_FILTER.wake_filt ≠ 0 → rd t FAB_COMMIT_STATUS.status = 0 ∧
        com t NWT_INPUT_FILTER.warm_filt = stg s NWT_INPUT_FILTER.warm_filt % 256 ∧
        com t NWT_INPUT_FILTER.wake_filt = stg s NWT_INPUT_FILTER.wake_filt % 256) ∧
      (stg s NWT_INPUT_FILTER.warm_filt = 0 ∨ stg s NWT_INPUT_FILTER.wake_filt = 0 → rd t FAB_COMMIT_STATUS.status = 0x0002 ∧
        rd t FAB_COMMIT_FIELD.field_offset = 0x10200 ∧ t.regs.committed = s.regs.committed))

/-- For every command c and state s: a step of s with c at the front of its queue is exec of c on s with the queue's rest.
With an empty queue the block idles: in run, Dawn and the ways into and out of Night one nanosecond of the slewed
count passes, the crystal with it, and nothing else changes; in every other mode nothing changes. That an empty queue
stands for one nanosecond is the model's choice (log entry 1), no rule of the spec. (R30, R32, R34) -/
def Obligations.StepRunsTheFrontCommand : Prop :=
  (∀ (s : State) (c : Instr) (rest : List Instr), s.pending = c :: rest → step s = exec c { s with pending := rest }) ∧
  (∀ s : State, s.pending = [] → s.mode = .run ∨ s.mode = .dawn ∨ s.mode = .nightEntry ∨ s.mode = .nightExit →
    ∃ t, step s = .next t ∧ now t = now s + 1 ∧ dial t = (dial s + 1) % 2 ^ 64 ∧
      t = { s with clock := { s.clock with count := t.clock.count, osc := t.clock.osc, oscFrac := t.clock.oscFrac }, regs := { s.regs with live := t.regs.live } } ∧
      ∀ k d, k ≠ fkey NWT_DIAL_NOW.dial_ns 0 → aget t.regs.live k d = aget s.regs.live k d) ∧
  (∀ s : State, s.pending = [] → s.mode = .unpowered ∨ s.mode = .stopped ∨ s.mode = .night ∨ s.mode = .deepNight →
    step s = .next s)

/-- State.reset is the instant after the Nightwatch supply came up: PWR_EN_MAIN is high, no command waits, the package is
not in run, all five dies are silent, every setup register reads its reset value in each of its copies, Dial time and
the slewed count are 0, no launch exists, no context is open, no ring is enabled, no Tie counts, both islands are held
in reset, no stack lists a byte, and the invariant holds. Where it goes beyond the words of the rules it rests on the
model's own readings, log entries 3, 7 and 16. (R570, R673, R736, R757) -/
def Obligations.ResetLeaves : Prop :=
  Inv State.reset ∧ State.reset.pending = [] ∧ State.reset.mode = .unpowered ∧ State.reset.power.enMain = true ∧
  (∀ d < 5, dieSilent State.reset d = true) ∧
  (∀ (f : Field) (a : Nat), rd State.reset f a = f.reset ∧ stg State.reset f a = f.reset ∧ com State.reset f a = f.reset) ∧
  dial State.reset = 0 ∧ now State.reset = 0 ∧ State.reset.fab.launches = [] ∧ (∀ c, ctxOpen State.reset c = false) ∧
  (∀ c r, ringEnabled State.reset c r = false ∧ ringStopped State.reset c r = false) ∧ (∀ k, tieValue State.reset k = 0) ∧
  (islandOf State.reset 5).held = true ∧ (islandOf State.reset 6).held = true ∧ (∀ p, rawByte State.reset p = 0)

/-- For every state in which both byte tables of memory (the stacks' and the external host's) are in canonical form
(addresses strictly rising, no entry equal to what an unlisted address reads as), reached or not, if a step answers a
next state, both tables are in canonical form there. Where it goes beyond the words of the rules it rests on the
model's own readings, log entry 16. (R351, R358, R772) -/
def Obligations.EveryStepKeepsMemoryCanonical : Prop :=
  ∀ s t : State, Inv s → step s = .next t → Inv t

/-- For every state, if a step answers a next state, the slewed count on which every timer, timeout, watchdog and Watch
runs is not less than before, and neither is the number of the next encryption key, so no key that was ever given out
is given out again. The counter of the model's free values is not less than before either, so no free value is drawn
twice (the model's own field). Where it goes beyond the words of the rules it rests on the model's own readings, log
entries 17 and 4. (R30, R32, R685, R688) -/
def Obligations.TimeAndKeysNeverRunBack : Prop :=
  ∀ s t : State, step s = .next t → now s ≤ now t ∧ s.mem.nextKey ≤ t.mem.nextKey ∧ s.fresh ≤ t.fresh

/-- For every state and every command: where a command other than DAWN_COMPLETE answers a next state, every die that was
silent is silent there. So no register write, message, island command, commit, partial reset or wake-up from Night
releases a silent die; only a package release at the end of Dawn does. Where it goes beyond the words of the rules it
rests on the model's own readings, log entry 171. (R569, R570, R573, R710) -/
def Obligations.OnlyDawnEndsSilence : Prop :=
  ∀ (s t : State) (c : Instr) (d : Nat), d < 5 → dieSilent s d = true → exec c s = .next t →
    dieSilent t d = true ∨ ∃ r : DawnReport, c = .dawnComplete r

/-- For every state and every command, if exec answers a next state, the fused minimum of the firmware generation and the
policy minimum of every policy are not less than before: no reset, loss of supply, key replacement or policy
installation rolls a minimum back. (R684, R690) -/
def Obligations.MinimumsNeverFall : Prop :=
  ∀ (s t : State) (c : Instr), exec c s = .next t →
    s.key.fwMin ≤ t.key.fwMin ∧ ∀ k, aget s.key.policyMin k 0 ≤ aget t.key.policyMin k 0

/-- For every command and state, exec refuses nothing, and it faults exactly where the command is a MEMORY_READ or
MEMORY_WRITE whose last byte lies beyond the 48-bit device address space; every other command answers a next state. A
step that answers a next state takes exactly the front command off the queue. Where it goes beyond the words of the
rules it rests on the model's own readings, log entry 19. (R24, R28) -/
def Obligations.OnlyAddressesBeyond48BitsStop : Prop :=
  (∀ (c : Instr) (s : State) (r : Refusal), exec c s ≠ .refused r) ∧
  (∀ (c : Instr) (s : State), (∃ t, exec c s = .next t) ∨
    (∃ p x a n u, c = .memoryRead p x a n u ∧ 2 ^ 48 < a + n) ∨ (∃ p x a d u, c = .memoryWrite p x a d u ∧ 2 ^ 48 < a + d.length)) ∧
  (∀ (s : State) (p x a n : Nat) (u : MemUpset), 2 ^ 48 < a + n → exec (.memoryRead p x a n u) s = .fault .addressBeyond48) ∧
  (∀ (s : State) (p x a : Nat) (d : List Nat) (u : MemUpset), 2 ^ 48 < a + d.length →
    exec (.memoryWrite p x a d u) s = .fault .addressBeyond48) ∧
  (∀ s t : State, step s = .next t → t.pending = s.pending.tail)

/-- In Night and Deep Night one tick of the crystal adds exactly 1,000,000,000 to Dial time in units of 1 / 32,768 ns, the
part below one nanosecond carried as a fraction below 32,768 of those units; between ticks, with no command waiting,
Dial time does not move. On the return to run from Night, a package that was locked is in holdover; from Deep Night
too: Nightwatch notes a locked Dial time at the entry, keeps it through the rise of PWR_GOOD, and the release at the
end of Dawn puts it in holdover with its last rate correction. (R34) -/
def Obligations.NightCountsCrystalTicks : Prop :=
  (∀ s : State, s.mode = .night ∨ s.mode = .deepNight → dial s + (s.clock.nightFrac + 1000000000) / 32768 < 2 ^ 64 →
    ∃ t, exec .nightwatchTick s = .next t ∧
      dial t * 32768 + t.clock.nightFrac = dial s * 32768 + s.clock.nightFrac + 1000000000 ∧ t.clock.nightFrac < 32768 ∧
      t = { s with regs := { s.regs with live := t.regs.live }, clock := t.clock } ∧
      ∀ k d, k ≠ fkey NWT_DIAL_NOW.dial_ns 0 → aget t.regs.live k d = aget s.regs.live k d) ∧
  (∀ s : State, s.mode = .night ∨ s.mode = .deepNight → s.pending = [] → step s = .next s) ∧
  (∀ s : State, s.mode = .nightExit → portsTraining s = false → rd s NWT_DIAL_STATUS.sync_state = 2 →
    ∃ t, exec .nightExitComplete s = .next t ∧ t.mode = .run ∧ rd t NWT_DIAL_STATUS.sync_state = 3) ∧
  (∀ s : State, s.mode = .nightEntry → s.partialDie = none → s.nwt.wake = none → s.nwt.target = 2 →
    coursesBusy (reachNightStop s) = false → rd s NWT_DIAL_STATUS.sync_state = 2 →
    ∃ t, exec .nightEntryComplete s = .next t ∧ t.mode = .deepNight ∧ t.nwt.lockedRate.isSome) ∧
  (∀ (s : State) (straps : List Nat) (n : Nat), rdB s NWT_INPUT_STATE.pwr_good = false → s.nwt.supply = true →
    s.power.tripped = false → s.nwt.lost = false → 16 ≤ n → ∃ t, exec (.pwrGoodRise straps n) s = .next t ∧ t.mode = .dawn ∧ t.nwt.lockedRate = s.nwt.lockedRate) ∧
  (∀ (s : State) (r : DawnReport) (x : Int), s.nwt.lockedRate = some x → s.mode = .dawn → rdB s NWT_DAWN_STATUS.held = false →
    s.nwt.waitWarm = false → portsTraining s = false → islandsStarting r s ≠ [] → r.firmware = true → r.storeVersion = s.key.fusesBurnt →
    s.key.lifecycle ≤ 1 ∨ configOk s r.config = true → r.stacksUp % 16 = 15 → step5Fails r s = false →
    r.firstFailed = none →
    ∃ t, exec (.dawnComplete r) s = .next t ∧ t.mode = .run ∧ rd t NWT_DIAL_STATUS.sync_state = 3 ∧ t.clock.rate = x)

/-- For every port, context and length: an access to a device address in one of the three reserved regions of the address
map, or in the PCIe outbound window while the PCIe link is down, is refused. A read gives bytes of all ones, a write
changes nothing, and the requester gets status 0x0701, the status of an unmapped address: both as the commands
MEMORY_READ and MEMORY_WRITE, whose answer carries the status, and as the reads and writes that every engine of the
package makes. (R25) -/
def Obligations.UnmappedAddressesAreRefused : Prop :=
  ∀ (s : State) (a : Nat),
    (0x1800000000 ≤ a ∧ a < 0x400000000000) ∨ (0x400000000000 ≤ a ∧ a < 0x800000000000 ∧ s.pcieUp = false) ∨
      (0x800000000000 ≤ a ∧ a < 0xF00000000000) ∨ (0xF00070000000 ≤ a ∧ a < 2 ^ 48) →
    (∀ port ctx n causing, readMem port ctx a n causing s = (0x0701, List.replicate n 255, s)) ∧
    (∀ port ctx data, writeMem port ctx a data s = (0x0701, s)) ∧
    (∀ port ctx n u, a + n ≤ 2 ^ 48 →
      exec (.memoryRead port ctx a n u) s = .next { befall a u s with bus := ⟨port, 0x0701, List.replicate n 255⟩ }) ∧
    (∀ port ctx data u, a + data.length ≤ 2 ^ 48 →
      exec (.memoryWrite port ctx a data u) s = .next { befall a u s with bus := ⟨port, 0x0701, []⟩ })

/-- Where Dial time steps forward to a reference more than 1 ms ahead of it, by a sync message or by a neighbour's time
transfer, the slewed count that every timer, timeout, watchdog and Watch measures stays, and so does all that they
hold: the Courses' and launches' state with its watchdogs, the pending Tie waits with their deadlines, the rings' poll
times, the Watches, the memory stacks' rounds, the inputs, Meridian, the islands, Ouvur, power, cooling and
Nightwatch. Only Dial time, the registers and the event of the step, and the clock's own discipline change. (R32) -/
def Obligations.StepsAreSeenByNoTimer : Prop :=
  ∀ (s : State) (r : Nat), dial s + 1000000 < r → r < 2 ^ 64 →
    (let t := dialSync r s
     dial t = r ∧ now t = now s ∧
      t = { s with clock := { s.clock with rate := t.clock.rate, inWindow := t.clock.inWindow, lastSync := t.clock.lastSync },
                   regs := { s.regs with live := t.regs.live }, rings := t.rings, mem := t.mem, out := t.out, forwards := t.forwards } ∧
      t.rings.waits = s.rings.waits ∧ t.rings.ctxs = s.rings.ctxs ∧ t.rings.descs = s.rings.descs ∧ t.mem.stackTab = s.mem.stackTab) ∧
    (s.mode = .run → 1 ≤ com s NWT_DIAL_CTRL.source_sel → com s NWT_DIAL_CTRL.source_sel ≤ 4 →
      exec (.dialSyncMessage r) s = .next (dialSync r s))

end
end

