-- ==== Sys2Proof/Laws/AMap.lean ====
section
/-! SUPPORT. The laws of sparse tables: what a read gives after a write, a deletion and a clearing, and that each of
them keeps the canonical form. -/

namespace Sys2Proof.Machine

variable {V : Type}

/-! ## A read after a write -/

@[simp] theorem aget_nil (k : Nat) (d : V) : aget [] k d = d := rfl

theorem aget_aput (m : AMap V) (k j : Nat) (v d : V) : aget (aput m k v) j d = if k = j then v else aget m j d := by
  induction m with
  | nil => simp [aput, aget]
  | cons e r ih =>
    obtain ⟨a, w⟩ := e
    simp only [aput]
    split
    · simp [aget]
    · split
      · subst_vars; simp only [aget]; split <;> rfl
      · simp only [aget, ih]
        split <;> split <;> first | rfl | omega

theorem aget_adel (m : AMap V) (k j : Nat) (d : V) : aget (adel m k) j d = if k = j then d else aget m j d := by
  induction m with
  | nil => simp [adel, aget]
  | cons e r ih =>
    obtain ⟨a, w⟩ := e
    simp only [adel]
    split
    · subst_vars; rw [ih]; simp only [aget]; split <;> rfl
    · simp only [aget, ih]
      split <;> split <;> first | rfl | omega

/-- The one law of a write: it answers at its own key and nowhere else. -/
theorem aget_aset [DecidableEq V] (m : AMap V) (k j : Nat) (v d e : V) (h : k = j → e = d) :
    aget (aset m k v d) j e = if k = j then v else aget m j e := by
  unfold aset
  by_cases hk : k = j
  · subst hk; rw [h rfl]; split
    · subst_vars; simp [aget_adel]
    · simp [aget_aput]
  · split <;> simp [aget_adel, aget_aput, hk]

@[simp] theorem aget_aset_self [DecidableEq V] (m : AMap V) (k : Nat) (v d : V) : aget (aset m k v d) k d = v := by
  rw [aget_aset _ _ _ _ _ _ (fun _ => rfl)]; simp

theorem aget_aset_ne [DecidableEq V] (m : AMap V) (k j : Nat) (v d e : V) (h : k ≠ j) :
    aget (aset m k v d) j e = aget m j e := by
  rw [aget_aset _ _ _ _ _ _ (fun hk => absurd hk h)]; simp [h]

theorem aget_aclear (m : AMap V) (lo hi j : Nat) (d : V) :
    aget (aclear m lo hi) j d = if lo ≤ j ∧ j < hi then d else aget m j d := by
  induction m with
  | nil => simp [aclear]
  | cons e r ih =>
    obtain ⟨a, w⟩ := e
    have hstep : aclear ((a, w) :: r) lo hi =
        if lo ≤ a ∧ a < hi then aclear r lo hi else (a, w) :: aclear r lo hi := by
      simp only [aclear, List.filter_cons]
      by_cases h : lo ≤ a ∧ a < hi
      · rw [if_pos h, if_neg (by simp; omega)]
      · rw [if_neg h, if_pos (by simp; omega)]
    rw [hstep]
    by_cases h : lo ≤ a ∧ a < hi
    · rw [if_pos h, ih]
      by_cases hj : a = j
      · subst hj; rw [if_pos h, if_pos h]
      · simp [aget, hj]
    · rw [if_neg h]
      by_cases hj : a = j
      · subst hj; simp [aget, h]
      · simp [aget, hj, ih]

/-! ## The canonical form -/

theorem awfFrom_mono [DecidableEq V] (d : Nat → V) (m : AMap V) {lo lo' : Nat} (h : lo' ≤ lo) (hw : awfFrom d lo m = true) :
    awfFrom d lo' m = true := by
  cases m with
  | nil => rfl
  | cons e r =>
    obtain ⟨a, v⟩ := e
    simp only [awfFrom, Bool.and_eq_true, decide_eq_true_eq] at hw ⊢
    exact ⟨⟨by omega, hw.1.2⟩, hw.2⟩

theorem awfFrom_aput [DecidableEq V] (d : Nat → V) (m : AMap V) (lo k : Nat) (v : V) (hk : lo ≤ k) (hv : v ≠ d k)
    (hw : awfFrom d lo m = true) : awfFrom d lo (aput m k v) = true := by
  induction m generalizing lo with
  | nil => simp [aput, awfFrom, hk, hv]
  | cons e r ih =>
    obtain ⟨a, w⟩ := e
    simp only [awfFrom, Bool.and_eq_true, decide_eq_true_eq] at hw
    simp only [aput]
    split
    · simp only [awfFrom, Bool.and_eq_true, decide_eq_true_eq]
      exact ⟨⟨hk, hv⟩, ⟨by omega, hw.1.2⟩, hw.2⟩
    · split
      · subst_vars
        simp only [awfFrom, Bool.and_eq_true, decide_eq_true_eq]
        exact ⟨⟨hk, hv⟩, hw.2⟩
      · simp only [awfFrom, Bool.and_eq_true, decide_eq_true_eq]
        exact ⟨hw.1, ih (a + 1) (by omega) hw.2⟩

theorem awfFrom_filter [DecidableEq V] (d : Nat → V) (p : Nat × V → Bool) (m : AMap V) (lo : Nat)
    (hw : awfFrom d lo m = true) : awfFrom d lo (m.filter p) = true := by
  induction m generalizing lo with
  | nil => simpa using hw
  | cons e r ih =>
    obtain ⟨a, w⟩ := e
    simp only [awfFrom, Bool.and_eq_true, decide_eq_true_eq] at hw
    simp only [List.filter_cons]
    split
    · simp only [awfFrom, Bool.and_eq_true, decide_eq_true_eq]
      exact ⟨hw.1, ih _ hw.2⟩
    · exact ih _ (awfFrom_mono d r (by omega) hw.2)

theorem adel_eq_filter (m : AMap V) (k : Nat) : adel m k = m.filter (fun e => e.1 != k) := by
  induction m with
  | nil => rfl
  | cons e r ih =>
    obtain ⟨a, w⟩ := e
    simp only [adel, List.filter_cons, ih]
    by_cases h : k = a
    · simp [h]
    · have h' : a ≠ k := fun e => h e.symm
      simp [h, h']

/-- A write keeps the canonical form: writing what an unlisted key reads as takes the entry out. -/
theorem awf_aset [DecidableEq V] (d : Nat → V) (m : AMap V) (k : Nat) (v : V) (h : awf d m = true) :
    awf d (aset m k v (d k)) = true := by
  unfold aset awf
  split
  · rw [adel_eq_filter]; exact awfFrom_filter d _ m 0 h
  · exact awfFrom_aput d m 0 k v (Nat.zero_le k) ‹_› h

/-- A clearing keeps the canonical form. -/
theorem awf_aclear [DecidableEq V] (d : Nat → V) (m : AMap V) (lo hi : Nat) (h : awf d m = true) :
    awf d (aclear m lo hi) = true := awfFrom_filter d _ m 0 h

@[simp] theorem awf_nil [DecidableEq V] (d : Nat → V) : awf d [] = true := rfl

end Sys2Proof.Machine
end

