-- ==== Sys2Proof/Laws/State.lean ====
section
/-! SUPPORT. The laws of the named updates of the state. For each update, one law for every part of the state that it
leaves alone; then what a read of a register gives after a write of one. -/

namespace Sys2Proof.Machine

open Reg

/-! ## What a field that is not staged leaves alone -/

@[simp] theorem wr_pending (f : Field) (at_ v : Nat) (s : State) : (wr f at_ v s).pending = s.pending := rfl
@[simp] theorem wr_fresh (f : Field) (at_ v : Nat) (s : State) : (wr f at_ v s).fresh = s.fresh := rfl
@[simp] theorem wr_clock (f : Field) (at_ v : Nat) (s : State) : (wr f at_ v s).clock = s.clock := rfl
@[simp] theorem wr_mode (f : Field) (at_ v : Nat) (s : State) : (wr f at_ v s).mode = s.mode := rfl
@[simp] theorem wr_silent (f : Field) (at_ v : Nat) (s : State) : (wr f at_ v s).silent = s.silent := rfl
@[simp] theorem wr_partialDie (f : Field) (at_ v : Nat) (s : State) : (wr f at_ v s).partialDie = s.partialDie := rfl
@[simp] theorem wr_partialStep (f : Field) (at_ v : Nat) (s : State) : (wr f at_ v s).partialStep = s.partialStep := rfl
@[simp] theorem wr_pcieUp (f : Field) (at_ v : Nat) (s : State) : (wr f at_ v s).pcieUp = s.pcieUp := rfl
@[simp] theorem wr_perst (f : Field) (at_ v : Nat) (s : State) : (wr f at_ v s).perst = s.perst := rfl
@[simp] theorem wr_bus (f : Field) (at_ v : Nat) (s : State) : (wr f at_ v s).bus = s.bus := rfl
@[simp] theorem wr_out (f : Field) (at_ v : Nat) (s : State) : (wr f at_ v s).out = s.out := rfl
@[simp] theorem wr_forwards (f : Field) (at_ v : Nat) (s : State) : (wr f at_ v s).forwards = s.forwards := rfl
@[simp] theorem wr_mem (f : Field) (at_ v : Nat) (s : State) : (wr f at_ v s).mem = s.mem := rfl
@[simp] theorem wr_rings (f : Field) (at_ v : Nat) (s : State) : (wr f at_ v s).rings = s.rings := rfl
@[simp] theorem wr_fab (f : Field) (at_ v : Nat) (s : State) : (wr f at_ v s).fab = s.fab := rfl
@[simp] theorem wr_day (f : Field) (at_ v : Nat) (s : State) : (wr f at_ v s).day = s.day := rfl
@[simp] theorem wr_key (f : Field) (at_ v : Nat) (s : State) : (wr f at_ v s).key = s.key := rfl
@[simp] theorem wr_sieve (f : Field) (at_ v : Nat) (s : State) : (wr f at_ v s).sieve = s.sieve := rfl
@[simp] theorem wr_mortar (f : Field) (at_ v : Nat) (s : State) : (wr f at_ v s).mortar = s.mortar := rfl
@[simp] theorem wr_power (f : Field) (at_ v : Nat) (s : State) : (wr f at_ v s).power = s.power := rfl
@[simp] theorem wr_input (f : Field) (at_ v : Nat) (s : State) : (wr f at_ v s).input = s.input := rfl
@[simp] theorem wr_mer (f : Field) (at_ v : Nat) (s : State) : (wr f at_ v s).mer = s.mer := rfl
@[simp] theorem wr_isl (f : Field) (at_ v : Nat) (s : State) : (wr f at_ v s).isl = s.isl := rfl
@[simp] theorem wr_ouvur (f : Field) (at_ v : Nat) (s : State) : (wr f at_ v s).ouvur = s.ouvur := rfl
@[simp] theorem wr_nwt (f : Field) (at_ v : Nat) (s : State) : (wr f at_ v s).nwt = s.nwt := rfl

/-! ## What a one-bit field leaves alone -/

@[simp] theorem wrB_pending (f : Field) (at_ : Nat) (b : Bool) (s : State) : (wrB f at_ b s).pending = s.pending := rfl
@[simp] theorem wrB_fresh (f : Field) (at_ : Nat) (b : Bool) (s : State) : (wrB f at_ b s).fresh = s.fresh := rfl
@[simp] theorem wrB_clock (f : Field) (at_ : Nat) (b : Bool) (s : State) : (wrB f at_ b s).clock = s.clock := rfl
@[simp] theorem wrB_mode (f : Field) (at_ : Nat) (b : Bool) (s : State) : (wrB f at_ b s).mode = s.mode := rfl
@[simp] theorem wrB_silent (f : Field) (at_ : Nat) (b : Bool) (s : State) : (wrB f at_ b s).silent = s.silent := rfl
@[simp] theorem wrB_partialDie (f : Field) (at_ : Nat) (b : Bool) (s : State) : (wrB f at_ b s).partialDie = s.partialDie := rfl
@[simp] theorem wrB_partialStep (f : Field) (at_ : Nat) (b : Bool) (s : State) : (wrB f at_ b s).partialStep = s.partialStep := rfl
@[simp] theorem wrB_pcieUp (f : Field) (at_ : Nat) (b : Bool) (s : State) : (wrB f at_ b s).pcieUp = s.pcieUp := rfl
@[simp] theorem wrB_perst (f : Field) (at_ : Nat) (b : Bool) (s : State) : (wrB f at_ b s).perst = s.perst := rfl
@[simp] theorem wrB_bus (f : Field) (at_ : Nat) (b : Bool) (s : State) : (wrB f at_ b s).bus = s.bus := rfl
@[simp] theorem wrB_out (f : Field) (at_ : Nat) (b : Bool) (s : State) : (wrB f at_ b s).out = s.out := rfl
@[simp] theorem wrB_forwards (f : Field) (at_ : Nat) (b : Bool) (s : State) : (wrB f at_ b s).forwards = s.forwards := rfl
@[simp] theorem wrB_mem (f : Field) (at_ : Nat) (b : Bool) (s : State) : (wrB f at_ b s).mem = s.mem := rfl
@[simp] theorem wrB_rings (f : Field) (at_ : Nat) (b : Bool) (s : State) : (wrB f at_ b s).rings = s.rings := rfl
@[simp] theorem wrB_fab (f : Field) (at_ : Nat) (b : Bool) (s : State) : (wrB f at_ b s).fab = s.fab := rfl
@[simp] theorem wrB_day (f : Field) (at_ : Nat) (b : Bool) (s : State) : (wrB f at_ b s).day = s.day := rfl
@[simp] theorem wrB_key (f : Field) (at_ : Nat) (b : Bool) (s : State) : (wrB f at_ b s).key = s.key := rfl
@[simp] theorem wrB_sieve (f : Field) (at_ : Nat) (b : Bool) (s : State) : (wrB f at_ b s).sieve = s.sieve := rfl
@[simp] theorem wrB_mortar (f : Field) (at_ : Nat) (b : Bool) (s : State) : (wrB f at_ b s).mortar = s.mortar := rfl
@[simp] theorem wrB_power (f : Field) (at_ : Nat) (b : Bool) (s : State) : (wrB f at_ b s).power = s.power := rfl
@[simp] theorem wrB_input (f : Field) (at_ : Nat) (b : Bool) (s : State) : (wrB f at_ b s).input = s.input := rfl
@[simp] theorem wrB_mer (f : Field) (at_ : Nat) (b : Bool) (s : State) : (wrB f at_ b s).mer = s.mer := rfl
@[simp] theorem wrB_isl (f : Field) (at_ : Nat) (b : Bool) (s : State) : (wrB f at_ b s).isl = s.isl := rfl
@[simp] theorem wrB_ouvur (f : Field) (at_ : Nat) (b : Bool) (s : State) : (wrB f at_ b s).ouvur = s.ouvur := rfl
@[simp] theorem wrB_nwt (f : Field) (at_ : Nat) (b : Bool) (s : State) : (wrB f at_ b s).nwt = s.nwt := rfl

/-! ## What a staged copy leaves alone -/

@[simp] theorem wrStg_pending (f : Field) (at_ v : Nat) (s : State) : (wrStg f at_ v s).pending = s.pending := rfl
@[simp] theorem wrStg_fresh (f : Field) (at_ v : Nat) (s : State) : (wrStg f at_ v s).fresh = s.fresh := rfl
@[simp] theorem wrStg_clock (f : Field) (at_ v : Nat) (s : State) : (wrStg f at_ v s).clock = s.clock := rfl
@[simp] theorem wrStg_mode (f : Field) (at_ v : Nat) (s : State) : (wrStg f at_ v s).mode = s.mode := rfl
@[simp] theorem wrStg_silent (f : Field) (at_ v : Nat) (s : State) : (wrStg f at_ v s).silent = s.silent := rfl
@[simp] theorem wrStg_partialDie (f : Field) (at_ v : Nat) (s : State) : (wrStg f at_ v s).partialDie = s.partialDie := rfl
@[simp] theorem wrStg_partialStep (f : Field) (at_ v : Nat) (s : State) : (wrStg f at_ v s).partialStep = s.partialStep := rfl
@[simp] theorem wrStg_pcieUp (f : Field) (at_ v : Nat) (s : State) : (wrStg f at_ v s).pcieUp = s.pcieUp := rfl
@[simp] theorem wrStg_perst (f : Field) (at_ v : Nat) (s : State) : (wrStg f at_ v s).perst = s.perst := rfl
@[simp] theorem wrStg_bus (f : Field) (at_ v : Nat) (s : State) : (wrStg f at_ v s).bus = s.bus := rfl
@[simp] theorem wrStg_out (f : Field) (at_ v : Nat) (s : State) : (wrStg f at_ v s).out = s.out := rfl
@[simp] theorem wrStg_forwards (f : Field) (at_ v : Nat) (s : State) : (wrStg f at_ v s).forwards = s.forwards := rfl
@[simp] theorem wrStg_mem (f : Field) (at_ v : Nat) (s : State) : (wrStg f at_ v s).mem = s.mem := rfl
@[simp] theorem wrStg_rings (f : Field) (at_ v : Nat) (s : State) : (wrStg f at_ v s).rings = s.rings := rfl
@[simp] theorem wrStg_fab (f : Field) (at_ v : Nat) (s : State) : (wrStg f at_ v s).fab = s.fab := rfl
@[simp] theorem wrStg_day (f : Field) (at_ v : Nat) (s : State) : (wrStg f at_ v s).day = s.day := rfl
@[simp] theorem wrStg_key (f : Field) (at_ v : Nat) (s : State) : (wrStg f at_ v s).key = s.key := rfl
@[simp] theorem wrStg_sieve (f : Field) (at_ v : Nat) (s : State) : (wrStg f at_ v s).sieve = s.sieve := rfl
@[simp] theorem wrStg_mortar (f : Field) (at_ v : Nat) (s : State) : (wrStg f at_ v s).mortar = s.mortar := rfl
@[simp] theorem wrStg_power (f : Field) (at_ v : Nat) (s : State) : (wrStg f at_ v s).power = s.power := rfl
@[simp] theorem wrStg_input (f : Field) (at_ v : Nat) (s : State) : (wrStg f at_ v s).input = s.input := rfl
@[simp] theorem wrStg_mer (f : Field) (at_ v : Nat) (s : State) : (wrStg f at_ v s).mer = s.mer := rfl
@[simp] theorem wrStg_isl (f : Field) (at_ v : Nat) (s : State) : (wrStg f at_ v s).isl = s.isl := rfl
@[simp] theorem wrStg_ouvur (f : Field) (at_ v : Nat) (s : State) : (wrStg f at_ v s).ouvur = s.ouvur := rfl
@[simp] theorem wrStg_nwt (f : Field) (at_ v : Nat) (s : State) : (wrStg f at_ v s).nwt = s.nwt := rfl

/-! ## What a committed copy leaves alone -/

@[simp] theorem wrCom_pending (f : Field) (at_ v : Nat) (s : State) : (wrCom f at_ v s).pending = s.pending := rfl
@[simp] theorem wrCom_fresh (f : Field) (at_ v : Nat) (s : State) : (wrCom f at_ v s).fresh = s.fresh := rfl
@[simp] theorem wrCom_clock (f : Field) (at_ v : Nat) (s : State) : (wrCom f at_ v s).clock = s.clock := rfl
@[simp] theorem wrCom_mode (f : Field) (at_ v : Nat) (s : State) : (wrCom f at_ v s).mode = s.mode := rfl
@[simp] theorem wrCom_silent (f : Field) (at_ v : Nat) (s : State) : (wrCom f at_ v s).silent = s.silent := rfl
@[simp] theorem wrCom_partialDie (f : Field) (at_ v : Nat) (s : State) : (wrCom f at_ v s).partialDie = s.partialDie := rfl
@[simp] theorem wrCom_partialStep (f : Field) (at_ v : Nat) (s : State) : (wrCom f at_ v s).partialStep = s.partialStep := rfl
@[simp] theorem wrCom_pcieUp (f : Field) (at_ v : Nat) (s : State) : (wrCom f at_ v s).pcieUp = s.pcieUp := rfl
@[simp] theorem wrCom_perst (f : Field) (at_ v : Nat) (s : State) : (wrCom f at_ v s).perst = s.perst := rfl
@[simp] theorem wrCom_bus (f : Field) (at_ v : Nat) (s : State) : (wrCom f at_ v s).bus = s.bus := rfl
@[simp] theorem wrCom_out (f : Field) (at_ v : Nat) (s : State) : (wrCom f at_ v s).out = s.out := rfl
@[simp] theorem wrCom_forwards (f : Field) (at_ v : Nat) (s : State) : (wrCom f at_ v s).forwards = s.forwards := rfl
@[simp] theorem wrCom_mem (f : Field) (at_ v : Nat) (s : State) : (wrCom f at_ v s).mem = s.mem := rfl
@[simp] theorem wrCom_rings (f : Field) (at_ v : Nat) (s : State) : (wrCom f at_ v s).rings = s.rings := rfl
@[simp] theorem wrCom_fab (f : Field) (at_ v : Nat) (s : State) : (wrCom f at_ v s).fab = s.fab := rfl
@[simp] theorem wrCom_day (f : Field) (at_ v : Nat) (s : State) : (wrCom f at_ v s).day = s.day := rfl
@[simp] theorem wrCom_key (f : Field) (at_ v : Nat) (s : State) : (wrCom f at_ v s).key = s.key := rfl
@[simp] theorem wrCom_sieve (f : Field) (at_ v : Nat) (s : State) : (wrCom f at_ v s).sieve = s.sieve := rfl
@[simp] theorem wrCom_mortar (f : Field) (at_ v : Nat) (s : State) : (wrCom f at_ v s).mortar = s.mortar := rfl
@[simp] theorem wrCom_power (f : Field) (at_ v : Nat) (s : State) : (wrCom f at_ v s).power = s.power := rfl
@[simp] theorem wrCom_input (f : Field) (at_ v : Nat) (s : State) : (wrCom f at_ v s).input = s.input := rfl
@[simp] theorem wrCom_mer (f : Field) (at_ v : Nat) (s : State) : (wrCom f at_ v s).mer = s.mer := rfl
@[simp] theorem wrCom_isl (f : Field) (at_ v : Nat) (s : State) : (wrCom f at_ v s).isl = s.isl := rfl
@[simp] theorem wrCom_ouvur (f : Field) (at_ v : Nat) (s : State) : (wrCom f at_ v s).ouvur = s.ouvur := rfl
@[simp] theorem wrCom_nwt (f : Field) (at_ v : Nat) (s : State) : (wrCom f at_ v s).nwt = s.nwt := rfl

/-! ## What a count that saturates leaves alone -/

@[simp] theorem incSat_pending (f : Field) (at_ n : Nat) (s : State) : (incSat f at_ n s).pending = s.pending := rfl
@[simp] theorem incSat_fresh (f : Field) (at_ n : Nat) (s : State) : (incSat f at_ n s).fresh = s.fresh := rfl
@[simp] theorem incSat_clock (f : Field) (at_ n : Nat) (s : State) : (incSat f at_ n s).clock = s.clock := rfl
@[simp] theorem incSat_mode (f : Field) (at_ n : Nat) (s : State) : (incSat f at_ n s).mode = s.mode := rfl
@[simp] theorem incSat_silent (f : Field) (at_ n : Nat) (s : State) : (incSat f at_ n s).silent = s.silent := rfl
@[simp] theorem incSat_partialDie (f : Field) (at_ n : Nat) (s : State) : (incSat f at_ n s).partialDie = s.partialDie := rfl
@[simp] theorem incSat_partialStep (f : Field) (at_ n : Nat) (s : State) : (incSat f at_ n s).partialStep = s.partialStep := rfl
@[simp] theorem incSat_pcieUp (f : Field) (at_ n : Nat) (s : State) : (incSat f at_ n s).pcieUp = s.pcieUp := rfl
@[simp] theorem incSat_perst (f : Field) (at_ n : Nat) (s : State) : (incSat f at_ n s).perst = s.perst := rfl
@[simp] theorem incSat_bus (f : Field) (at_ n : Nat) (s : State) : (incSat f at_ n s).bus = s.bus := rfl
@[simp] theorem incSat_out (f : Field) (at_ n : Nat) (s : State) : (incSat f at_ n s).out = s.out := rfl
@[simp] theorem incSat_forwards (f : Field) (at_ n : Nat) (s : State) : (incSat f at_ n s).forwards = s.forwards := rfl
@[simp] theorem incSat_mem (f : Field) (at_ n : Nat) (s : State) : (incSat f at_ n s).mem = s.mem := rfl
@[simp] theorem incSat_rings (f : Field) (at_ n : Nat) (s : State) : (incSat f at_ n s).rings = s.rings := rfl
@[simp] theorem incSat_fab (f : Field) (at_ n : Nat) (s : State) : (incSat f at_ n s).fab = s.fab := rfl
@[simp] theorem incSat_day (f : Field) (at_ n : Nat) (s : State) : (incSat f at_ n s).day = s.day := rfl
@[simp] theorem incSat_key (f : Field) (at_ n : Nat) (s : State) : (incSat f at_ n s).key = s.key := rfl
@[simp] theorem incSat_sieve (f : Field) (at_ n : Nat) (s : State) : (incSat f at_ n s).sieve = s.sieve := rfl
@[simp] theorem incSat_mortar (f : Field) (at_ n : Nat) (s : State) : (incSat f at_ n s).mortar = s.mortar := rfl
@[simp] theorem incSat_power (f : Field) (at_ n : Nat) (s : State) : (incSat f at_ n s).power = s.power := rfl
@[simp] theorem incSat_input (f : Field) (at_ n : Nat) (s : State) : (incSat f at_ n s).input = s.input := rfl
@[simp] theorem incSat_mer (f : Field) (at_ n : Nat) (s : State) : (incSat f at_ n s).mer = s.mer := rfl
@[simp] theorem incSat_isl (f : Field) (at_ n : Nat) (s : State) : (incSat f at_ n s).isl = s.isl := rfl
@[simp] theorem incSat_ouvur (f : Field) (at_ n : Nat) (s : State) : (incSat f at_ n s).ouvur = s.ouvur := rfl
@[simp] theorem incSat_nwt (f : Field) (at_ n : Nat) (s : State) : (incSat f at_ n s).nwt = s.nwt := rfl

/-! ## What a count that wraps leaves alone -/

@[simp] theorem incWrap_pending (f : Field) (at_ n : Nat) (s : State) : (incWrap f at_ n s).pending = s.pending := rfl
@[simp] theorem incWrap_fresh (f : Field) (at_ n : Nat) (s : State) : (incWrap f at_ n s).fresh = s.fresh := rfl
@[simp] theorem incWrap_clock (f : Field) (at_ n : Nat) (s : State) : (incWrap f at_ n s).clock = s.clock := rfl
@[simp] theorem incWrap_mode (f : Field) (at_ n : Nat) (s : State) : (incWrap f at_ n s).mode = s.mode := rfl
@[simp] theorem incWrap_silent (f : Field) (at_ n : Nat) (s : State) : (incWrap f at_ n s).silent = s.silent := rfl
@[simp] theorem incWrap_partialDie (f : Field) (at_ n : Nat) (s : State) : (incWrap f at_ n s).partialDie = s.partialDie := rfl
@[simp] theorem incWrap_partialStep (f : Field) (at_ n : Nat) (s : State) : (incWrap f at_ n s).partialStep = s.partialStep := rfl
@[simp] theorem incWrap_pcieUp (f : Field) (at_ n : Nat) (s : State) : (incWrap f at_ n s).pcieUp = s.pcieUp := rfl
@[simp] theorem incWrap_perst (f : Field) (at_ n : Nat) (s : State) : (incWrap f at_ n s).perst = s.perst := rfl
@[simp] theorem incWrap_bus (f : Field) (at_ n : Nat) (s : State) : (incWrap f at_ n s).bus = s.bus := rfl
@[simp] theorem incWrap_out (f : Field) (at_ n : Nat) (s : State) : (incWrap f at_ n s).out = s.out := rfl
@[simp] theorem incWrap_forwards (f : Field) (at_ n : Nat) (s : State) : (incWrap f at_ n s).forwards = s.forwards := rfl
@[simp] theorem incWrap_mem (f : Field) (at_ n : Nat) (s : State) : (incWrap f at_ n s).mem = s.mem := rfl
@[simp] theorem incWrap_rings (f : Field) (at_ n : Nat) (s : State) : (incWrap f at_ n s).rings = s.rings := rfl
@[simp] theorem incWrap_fab (f : Field) (at_ n : Nat) (s : State) : (incWrap f at_ n s).fab = s.fab := rfl
@[simp] theorem incWrap_day (f : Field) (at_ n : Nat) (s : State) : (incWrap f at_ n s).day = s.day := rfl
@[simp] theorem incWrap_key (f : Field) (at_ n : Nat) (s : State) : (incWrap f at_ n s).key = s.key := rfl
@[simp] theorem incWrap_sieve (f : Field) (at_ n : Nat) (s : State) : (incWrap f at_ n s).sieve = s.sieve := rfl
@[simp] theorem incWrap_mortar (f : Field) (at_ n : Nat) (s : State) : (incWrap f at_ n s).mortar = s.mortar := rfl
@[simp] theorem incWrap_power (f : Field) (at_ n : Nat) (s : State) : (incWrap f at_ n s).power = s.power := rfl
@[simp] theorem incWrap_input (f : Field) (at_ n : Nat) (s : State) : (incWrap f at_ n s).input = s.input := rfl
@[simp] theorem incWrap_mer (f : Field) (at_ n : Nat) (s : State) : (incWrap f at_ n s).mer = s.mer := rfl
@[simp] theorem incWrap_isl (f : Field) (at_ n : Nat) (s : State) : (incWrap f at_ n s).isl = s.isl := rfl
@[simp] theorem incWrap_ouvur (f : Field) (at_ n : Nat) (s : State) : (incWrap f at_ n s).ouvur = s.ouvur := rfl
@[simp] theorem incWrap_nwt (f : Field) (at_ n : Nat) (s : State) : (incWrap f at_ n s).nwt = s.nwt := rfl

/-! ## What a power domain leaves alone -/

@[simp] theorem setDomain_pending (d : Nat) (on : Bool) (s : State) : (setDomain d on s).pending = s.pending := rfl
@[simp] theorem setDomain_fresh (d : Nat) (on : Bool) (s : State) : (setDomain d on s).fresh = s.fresh := rfl
@[simp] theorem setDomain_clock (d : Nat) (on : Bool) (s : State) : (setDomain d on s).clock = s.clock := rfl
@[simp] theorem setDomain_mode (d : Nat) (on : Bool) (s : State) : (setDomain d on s).mode = s.mode := rfl
@[simp] theorem setDomain_silent (d : Nat) (on : Bool) (s : State) : (setDomain d on s).silent = s.silent := rfl
@[simp] theorem setDomain_partialDie (d : Nat) (on : Bool) (s : State) : (setDomain d on s).partialDie = s.partialDie := rfl
@[simp] theorem setDomain_partialStep (d : Nat) (on : Bool) (s : State) : (setDomain d on s).partialStep = s.partialStep := rfl
@[simp] theorem setDomain_pcieUp (d : Nat) (on : Bool) (s : State) : (setDomain d on s).pcieUp = s.pcieUp := rfl
@[simp] theorem setDomain_perst (d : Nat) (on : Bool) (s : State) : (setDomain d on s).perst = s.perst := rfl
@[simp] theorem setDomain_bus (d : Nat) (on : Bool) (s : State) : (setDomain d on s).bus = s.bus := rfl
@[simp] theorem setDomain_out (d : Nat) (on : Bool) (s : State) : (setDomain d on s).out = s.out := rfl
@[simp] theorem setDomain_forwards (d : Nat) (on : Bool) (s : State) : (setDomain d on s).forwards = s.forwards := rfl
@[simp] theorem setDomain_mem (d : Nat) (on : Bool) (s : State) : (setDomain d on s).mem = s.mem := rfl
@[simp] theorem setDomain_rings (d : Nat) (on : Bool) (s : State) : (setDomain d on s).rings = s.rings := rfl
@[simp] theorem setDomain_fab (d : Nat) (on : Bool) (s : State) : (setDomain d on s).fab = s.fab := rfl
@[simp] theorem setDomain_day (d : Nat) (on : Bool) (s : State) : (setDomain d on s).day = s.day := rfl
@[simp] theorem setDomain_key (d : Nat) (on : Bool) (s : State) : (setDomain d on s).key = s.key := rfl
@[simp] theorem setDomain_sieve (d : Nat) (on : Bool) (s : State) : (setDomain d on s).sieve = s.sieve := rfl
@[simp] theorem setDomain_mortar (d : Nat) (on : Bool) (s : State) : (setDomain d on s).mortar = s.mortar := rfl
@[simp] theorem setDomain_power (d : Nat) (on : Bool) (s : State) : (setDomain d on s).power = s.power := rfl
@[simp] theorem setDomain_input (d : Nat) (on : Bool) (s : State) : (setDomain d on s).input = s.input := rfl
@[simp] theorem setDomain_mer (d : Nat) (on : Bool) (s : State) : (setDomain d on s).mer = s.mer := rfl
@[simp] theorem setDomain_isl (d : Nat) (on : Bool) (s : State) : (setDomain d on s).isl = s.isl := rfl
@[simp] theorem setDomain_ouvur (d : Nat) (on : Bool) (s : State) : (setDomain d on s).ouvur = s.ouvur := rfl
@[simp] theorem setDomain_nwt (d : Nat) (on : Bool) (s : State) : (setDomain d on s).nwt = s.nwt := rfl

/-! ## What the reset of a range of registers leaves alone -/

@[simp] theorem resetRegs_pending (lo hi : Nat) (s : State) : (resetRegs lo hi s).pending = s.pending := rfl
@[simp] theorem resetRegs_fresh (lo hi : Nat) (s : State) : (resetRegs lo hi s).fresh = s.fresh := rfl
@[simp] theorem resetRegs_clock (lo hi : Nat) (s : State) : (resetRegs lo hi s).clock = s.clock := rfl
@[simp] theorem resetRegs_mode (lo hi : Nat) (s : State) : (resetRegs lo hi s).mode = s.mode := rfl
@[simp] theorem resetRegs_silent (lo hi : Nat) (s : State) : (resetRegs lo hi s).silent = s.silent := rfl
@[simp] theorem resetRegs_partialDie (lo hi : Nat) (s : State) : (resetRegs lo hi s).partialDie = s.partialDie := rfl
@[simp] theorem resetRegs_partialStep (lo hi : Nat) (s : State) : (resetRegs lo hi s).partialStep = s.partialStep := rfl
@[simp] theorem resetRegs_pcieUp (lo hi : Nat) (s : State) : (resetRegs lo hi s).pcieUp = s.pcieUp := rfl
@[simp] theorem resetRegs_perst (lo hi : Nat) (s : State) : (resetRegs lo hi s).perst = s.perst := rfl
@[simp] theorem resetRegs_bus (lo hi : Nat) (s : State) : (resetRegs lo hi s).bus = s.bus := rfl
@[simp] theorem resetRegs_out (lo hi : Nat) (s : State) : (resetRegs lo hi s).out = s.out := rfl
@[simp] theorem resetRegs_forwards (lo hi : Nat) (s : State) : (resetRegs lo hi s).forwards = s.forwards := rfl
@[simp] theorem resetRegs_mem (lo hi : Nat) (s : State) : (resetRegs lo hi s).mem = s.mem := rfl
@[simp] theorem resetRegs_rings (lo hi : Nat) (s : State) : (resetRegs lo hi s).rings = s.rings := rfl
@[simp] theorem resetRegs_fab (lo hi : Nat) (s : State) : (resetRegs lo hi s).fab = s.fab := rfl
@[simp] theorem resetRegs_day (lo hi : Nat) (s : State) : (resetRegs lo hi s).day = s.day := rfl
@[simp] theorem resetRegs_key (lo hi : Nat) (s : State) : (resetRegs lo hi s).key = s.key := rfl
@[simp] theorem resetRegs_sieve (lo hi : Nat) (s : State) : (resetRegs lo hi s).sieve = s.sieve := rfl
@[simp] theorem resetRegs_mortar (lo hi : Nat) (s : State) : (resetRegs lo hi s).mortar = s.mortar := rfl
@[simp] theorem resetRegs_power (lo hi : Nat) (s : State) : (resetRegs lo hi s).power = s.power := rfl
@[simp] theorem resetRegs_input (lo hi : Nat) (s : State) : (resetRegs lo hi s).input = s.input := rfl
@[simp] theorem resetRegs_mer (lo hi : Nat) (s : State) : (resetRegs lo hi s).mer = s.mer := rfl
@[simp] theorem resetRegs_isl (lo hi : Nat) (s : State) : (resetRegs lo hi s).isl = s.isl := rfl
@[simp] theorem resetRegs_ouvur (lo hi : Nat) (s : State) : (resetRegs lo hi s).ouvur = s.ouvur := rfl
@[simp] theorem resetRegs_nwt (lo hi : Nat) (s : State) : (resetRegs lo hi s).nwt = s.nwt := rfl

/-! ## What the note of a commit leaves alone -/

@[simp] theorem commitAt_pending (die off : Nat) (s : State) : (commitAt die off s).pending = s.pending := rfl
@[simp] theorem commitAt_fresh (die off : Nat) (s : State) : (commitAt die off s).fresh = s.fresh := rfl
@[simp] theorem commitAt_clock (die off : Nat) (s : State) : (commitAt die off s).clock = s.clock := rfl
@[simp] theorem commitAt_mode (die off : Nat) (s : State) : (commitAt die off s).mode = s.mode := rfl
@[simp] theorem commitAt_silent (die off : Nat) (s : State) : (commitAt die off s).silent = s.silent := rfl
@[simp] theorem commitAt_partialDie (die off : Nat) (s : State) : (commitAt die off s).partialDie = s.partialDie := rfl
@[simp] theorem commitAt_partialStep (die off : Nat) (s : State) : (commitAt die off s).partialStep = s.partialStep := rfl
@[simp] theorem commitAt_pcieUp (die off : Nat) (s : State) : (commitAt die off s).pcieUp = s.pcieUp := rfl
@[simp] theorem commitAt_perst (die off : Nat) (s : State) : (commitAt die off s).perst = s.perst := rfl
@[simp] theorem commitAt_bus (die off : Nat) (s : State) : (commitAt die off s).bus = s.bus := rfl
@[simp] theorem commitAt_out (die off : Nat) (s : State) : (commitAt die off s).out = s.out := rfl
@[simp] theorem commitAt_forwards (die off : Nat) (s : State) : (commitAt die off s).forwards = s.forwards := rfl
@[simp] theorem commitAt_mem (die off : Nat) (s : State) : (commitAt die off s).mem = s.mem := rfl
@[simp] theorem commitAt_rings (die off : Nat) (s : State) : (commitAt die off s).rings = s.rings := rfl
@[simp] theorem commitAt_fab (die off : Nat) (s : State) : (commitAt die off s).fab = s.fab := rfl
@[simp] theorem commitAt_day (die off : Nat) (s : State) : (commitAt die off s).day = s.day := rfl
@[simp] theorem commitAt_key (die off : Nat) (s : State) : (commitAt die off s).key = s.key := rfl
@[simp] theorem commitAt_sieve (die off : Nat) (s : State) : (commitAt die off s).sieve = s.sieve := rfl
@[simp] theorem commitAt_mortar (die off : Nat) (s : State) : (commitAt die off s).mortar = s.mortar := rfl
@[simp] theorem commitAt_power (die off : Nat) (s : State) : (commitAt die off s).power = s.power := rfl
@[simp] theorem commitAt_input (die off : Nat) (s : State) : (commitAt die off s).input = s.input := rfl
@[simp] theorem commitAt_mer (die off : Nat) (s : State) : (commitAt die off s).mer = s.mer := rfl
@[simp] theorem commitAt_isl (die off : Nat) (s : State) : (commitAt die off s).isl = s.isl := rfl
@[simp] theorem commitAt_ouvur (die off : Nat) (s : State) : (commitAt die off s).ouvur = s.ouvur := rfl
@[simp] theorem commitAt_nwt (die off : Nat) (s : State) : (commitAt die off s).nwt = s.nwt := rfl

/-! ## What the result of a commit leaves alone -/

@[simp] theorem commitDone_pending (die : Nat) (r : Refuse) (s : State) : (commitDone die r s).pending = s.pending := rfl
@[simp] theorem commitDone_fresh (die : Nat) (r : Refuse) (s : State) : (commitDone die r s).fresh = s.fresh := rfl
@[simp] theorem commitDone_clock (die : Nat) (r : Refuse) (s : State) : (commitDone die r s).clock = s.clock := rfl
@[simp] theorem commitDone_mode (die : Nat) (r : Refuse) (s : State) : (commitDone die r s).mode = s.mode := rfl
@[simp] theorem commitDone_silent (die : Nat) (r : Refuse) (s : State) : (commitDone die r s).silent = s.silent := rfl
@[simp] theorem commitDone_partialDie (die : Nat) (r : Refuse) (s : State) : (commitDone die r s).partialDie = s.partialDie := rfl
@[simp] theorem commitDone_partialStep (die : Nat) (r : Refuse) (s : State) : (commitDone die r s).partialStep = s.partialStep := rfl
@[simp] theorem commitDone_pcieUp (die : Nat) (r : Refuse) (s : State) : (commitDone die r s).pcieUp = s.pcieUp := rfl
@[simp] theorem commitDone_perst (die : Nat) (r : Refuse) (s : State) : (commitDone die r s).perst = s.perst := rfl
@[simp] theorem commitDone_bus (die : Nat) (r : Refuse) (s : State) : (commitDone die r s).bus = s.bus := rfl
@[simp] theorem commitDone_out (die : Nat) (r : Refuse) (s : State) : (commitDone die r s).out = s.out := rfl
@[simp] theorem commitDone_forwards (die : Nat) (r : Refuse) (s : State) : (commitDone die r s).forwards = s.forwards := rfl
@[simp] theorem commitDone_mem (die : Nat) (r : Refuse) (s : State) : (commitDone die r s).mem = s.mem := rfl
@[simp] theorem commitDone_rings (die : Nat) (r : Refuse) (s : State) : (commitDone die r s).rings = s.rings := rfl
@[simp] theorem commitDone_fab (die : Nat) (r : Refuse) (s : State) : (commitDone die r s).fab = s.fab := rfl
@[simp] theorem commitDone_day (die : Nat) (r : Refuse) (s : State) : (commitDone die r s).day = s.day := rfl
@[simp] theorem commitDone_key (die : Nat) (r : Refuse) (s : State) : (commitDone die r s).key = s.key := rfl
@[simp] theorem commitDone_sieve (die : Nat) (r : Refuse) (s : State) : (commitDone die r s).sieve = s.sieve := rfl
@[simp] theorem commitDone_mortar (die : Nat) (r : Refuse) (s : State) : (commitDone die r s).mortar = s.mortar := rfl
@[simp] theorem commitDone_power (die : Nat) (r : Refuse) (s : State) : (commitDone die r s).power = s.power := rfl
@[simp] theorem commitDone_input (die : Nat) (r : Refuse) (s : State) : (commitDone die r s).input = s.input := rfl
@[simp] theorem commitDone_mer (die : Nat) (r : Refuse) (s : State) : (commitDone die r s).mer = s.mer := rfl
@[simp] theorem commitDone_isl (die : Nat) (r : Refuse) (s : State) : (commitDone die r s).isl = s.isl := rfl
@[simp] theorem commitDone_ouvur (die : Nat) (r : Refuse) (s : State) : (commitDone die r s).ouvur = s.ouvur := rfl
@[simp] theorem commitDone_nwt (die : Nat) (r : Refuse) (s : State) : (commitDone die r s).nwt = s.nwt := rfl

/-! ## What the busy bit of a commit leaves alone -/

@[simp] theorem commitBusy_pending (die : Nat) (s : State) : (commitBusy die s).pending = s.pending := rfl
@[simp] theorem commitBusy_fresh (die : Nat) (s : State) : (commitBusy die s).fresh = s.fresh := rfl
@[simp] theorem commitBusy_clock (die : Nat) (s : State) : (commitBusy die s).clock = s.clock := rfl
@[simp] theorem commitBusy_mode (die : Nat) (s : State) : (commitBusy die s).mode = s.mode := rfl
@[simp] theorem commitBusy_silent (die : Nat) (s : State) : (commitBusy die s).silent = s.silent := rfl
@[simp] theorem commitBusy_partialDie (die : Nat) (s : State) : (commitBusy die s).partialDie = s.partialDie := rfl
@[simp] theorem commitBusy_partialStep (die : Nat) (s : State) : (commitBusy die s).partialStep = s.partialStep := rfl
@[simp] theorem commitBusy_pcieUp (die : Nat) (s : State) : (commitBusy die s).pcieUp = s.pcieUp := rfl
@[simp] theorem commitBusy_perst (die : Nat) (s : State) : (commitBusy die s).perst = s.perst := rfl
@[simp] theorem commitBusy_bus (die : Nat) (s : State) : (commitBusy die s).bus = s.bus := rfl
@[simp] theorem commitBusy_out (die : Nat) (s : State) : (commitBusy die s).out = s.out := rfl
@[simp] theorem commitBusy_forwards (die : Nat) (s : State) : (commitBusy die s).forwards = s.forwards := rfl
@[simp] theorem commitBusy_mem (die : Nat) (s : State) : (commitBusy die s).mem = s.mem := rfl
@[simp] theorem commitBusy_rings (die : Nat) (s : State) : (commitBusy die s).rings = s.rings := rfl
@[simp] theorem commitBusy_fab (die : Nat) (s : State) : (commitBusy die s).fab = s.fab := rfl
@[simp] theorem commitBusy_day (die : Nat) (s : State) : (commitBusy die s).day = s.day := rfl
@[simp] theorem commitBusy_key (die : Nat) (s : State) : (commitBusy die s).key = s.key := rfl
@[simp] theorem commitBusy_sieve (die : Nat) (s : State) : (commitBusy die s).sieve = s.sieve := rfl
@[simp] theorem commitBusy_mortar (die : Nat) (s : State) : (commitBusy die s).mortar = s.mortar := rfl
@[simp] theorem commitBusy_power (die : Nat) (s : State) : (commitBusy die s).power = s.power := rfl
@[simp] theorem commitBusy_input (die : Nat) (s : State) : (commitBusy die s).input = s.input := rfl
@[simp] theorem commitBusy_mer (die : Nat) (s : State) : (commitBusy die s).mer = s.mer := rfl
@[simp] theorem commitBusy_isl (die : Nat) (s : State) : (commitBusy die s).isl = s.isl := rfl
@[simp] theorem commitBusy_ouvur (die : Nat) (s : State) : (commitBusy die s).ouvur = s.ouvur := rfl
@[simp] theorem commitBusy_nwt (die : Nat) (s : State) : (commitBusy die s).nwt = s.nwt := rfl

/-! ## What a message sent leaves alone -/

@[simp] theorem send_pending (k : MsgKind) (d : List Nat) (s : State) : (send k d s).pending = s.pending := rfl
@[simp] theorem send_fresh (k : MsgKind) (d : List Nat) (s : State) : (send k d s).fresh = s.fresh := rfl
@[simp] theorem send_regs (k : MsgKind) (d : List Nat) (s : State) : (send k d s).regs = s.regs := rfl
@[simp] theorem send_clock (k : MsgKind) (d : List Nat) (s : State) : (send k d s).clock = s.clock := rfl
@[simp] theorem send_mode (k : MsgKind) (d : List Nat) (s : State) : (send k d s).mode = s.mode := rfl
@[simp] theorem send_silent (k : MsgKind) (d : List Nat) (s : State) : (send k d s).silent = s.silent := rfl
@[simp] theorem send_partialDie (k : MsgKind) (d : List Nat) (s : State) : (send k d s).partialDie = s.partialDie := rfl
@[simp] theorem send_partialStep (k : MsgKind) (d : List Nat) (s : State) : (send k d s).partialStep = s.partialStep := rfl
@[simp] theorem send_pcieUp (k : MsgKind) (d : List Nat) (s : State) : (send k d s).pcieUp = s.pcieUp := rfl
@[simp] theorem send_perst (k : MsgKind) (d : List Nat) (s : State) : (send k d s).perst = s.perst := rfl
@[simp] theorem send_bus (k : MsgKind) (d : List Nat) (s : State) : (send k d s).bus = s.bus := rfl
@[simp] theorem send_forwards (k : MsgKind) (d : List Nat) (s : State) : (send k d s).forwards = s.forwards := rfl
@[simp] theorem send_mem (k : MsgKind) (d : List Nat) (s : State) : (send k d s).mem = s.mem := rfl
@[simp] theorem send_rings (k : MsgKind) (d : List Nat) (s : State) : (send k d s).rings = s.rings := rfl
@[simp] theorem send_fab (k : MsgKind) (d : List Nat) (s : State) : (send k d s).fab = s.fab := rfl
@[simp] theorem send_day (k : MsgKind) (d : List Nat) (s : State) : (send k d s).day = s.day := rfl
@[simp] theorem send_key (k : MsgKind) (d : List Nat) (s : State) : (send k d s).key = s.key := rfl
@[simp] theorem send_sieve (k : MsgKind) (d : List Nat) (s : State) : (send k d s).sieve = s.sieve := rfl
@[simp] theorem send_mortar (k : MsgKind) (d : List Nat) (s : State) : (send k d s).mortar = s.mortar := rfl
@[simp] theorem send_power (k : MsgKind) (d : List Nat) (s : State) : (send k d s).power = s.power := rfl
@[simp] theorem send_input (k : MsgKind) (d : List Nat) (s : State) : (send k d s).input = s.input := rfl
@[simp] theorem send_mer (k : MsgKind) (d : List Nat) (s : State) : (send k d s).mer = s.mer := rfl
@[simp] theorem send_isl (k : MsgKind) (d : List Nat) (s : State) : (send k d s).isl = s.isl := rfl
@[simp] theorem send_ouvur (k : MsgKind) (d : List Nat) (s : State) : (send k d s).ouvur = s.ouvur := rfl
@[simp] theorem send_nwt (k : MsgKind) (d : List Nat) (s : State) : (send k d s).nwt = s.nwt := rfl

/-! ## What a free value drawn leaves alone -/

@[simp] theorem draw_pending (s : State) (m : Nat) : ((draw s m).2).pending = s.pending := rfl
@[simp] theorem draw_regs (s : State) (m : Nat) : ((draw s m).2).regs = s.regs := rfl
@[simp] theorem draw_clock (s : State) (m : Nat) : ((draw s m).2).clock = s.clock := rfl
@[simp] theorem draw_mode (s : State) (m : Nat) : ((draw s m).2).mode = s.mode := rfl
@[simp] theorem draw_silent (s : State) (m : Nat) : ((draw s m).2).silent = s.silent := rfl
@[simp] theorem draw_partialDie (s : State) (m : Nat) : ((draw s m).2).partialDie = s.partialDie := rfl
@[simp] theorem draw_partialStep (s : State) (m : Nat) : ((draw s m).2).partialStep = s.partialStep := rfl
@[simp] theorem draw_pcieUp (s : State) (m : Nat) : ((draw s m).2).pcieUp = s.pcieUp := rfl
@[simp] theorem draw_perst (s : State) (m : Nat) : ((draw s m).2).perst = s.perst := rfl
@[simp] theorem draw_bus (s : State) (m : Nat) : ((draw s m).2).bus = s.bus := rfl
@[simp] theorem draw_out (s : State) (m : Nat) : ((draw s m).2).out = s.out := rfl
@[simp] theorem draw_forwards (s : State) (m : Nat) : ((draw s m).2).forwards = s.forwards := rfl
@[simp] theorem draw_mem (s : State) (m : Nat) : ((draw s m).2).mem = s.mem := rfl
@[simp] theorem draw_rings (s : State) (m : Nat) : ((draw s m).2).rings = s.rings := rfl
@[simp] theorem draw_fab (s : State) (m : Nat) : ((draw s m).2).fab = s.fab := rfl
@[simp] theorem draw_day (s : State) (m : Nat) : ((draw s m).2).day = s.day := rfl
@[simp] theorem draw_key (s : State) (m : Nat) : ((draw s m).2).key = s.key := rfl
@[simp] theorem draw_sieve (s : State) (m : Nat) : ((draw s m).2).sieve = s.sieve := rfl
@[simp] theorem draw_mortar (s : State) (m : Nat) : ((draw s m).2).mortar = s.mortar := rfl
@[simp] theorem draw_power (s : State) (m : Nat) : ((draw s m).2).power = s.power := rfl
@[simp] theorem draw_input (s : State) (m : Nat) : ((draw s m).2).input = s.input := rfl
@[simp] theorem draw_mer (s : State) (m : Nat) : ((draw s m).2).mer = s.mer := rfl
@[simp] theorem draw_isl (s : State) (m : Nat) : ((draw s m).2).isl = s.isl := rfl
@[simp] theorem draw_ouvur (s : State) (m : Nat) : ((draw s m).2).ouvur = s.ouvur := rfl
@[simp] theorem draw_nwt (s : State) (m : Nat) : ((draw s m).2).nwt = s.nwt := rfl

/-! ## What time that passes leaves alone -/

@[simp] theorem pass_pending (d : Nat) (s : State) : (pass d s).pending = s.pending := rfl
@[simp] theorem pass_fresh (d : Nat) (s : State) : (pass d s).fresh = s.fresh := rfl
@[simp] theorem pass_mode (d : Nat) (s : State) : (pass d s).mode = s.mode := rfl
@[simp] theorem pass_silent (d : Nat) (s : State) : (pass d s).silent = s.silent := rfl
@[simp] theorem pass_partialDie (d : Nat) (s : State) : (pass d s).partialDie = s.partialDie := rfl
@[simp] theorem pass_partialStep (d : Nat) (s : State) : (pass d s).partialStep = s.partialStep := rfl
@[simp] theorem pass_pcieUp (d : Nat) (s : State) : (pass d s).pcieUp = s.pcieUp := rfl
@[simp] theorem pass_perst (d : Nat) (s : State) : (pass d s).perst = s.perst := rfl
@[simp] theorem pass_bus (d : Nat) (s : State) : (pass d s).bus = s.bus := rfl
@[simp] theorem pass_out (d : Nat) (s : State) : (pass d s).out = s.out := rfl
@[simp] theorem pass_forwards (d : Nat) (s : State) : (pass d s).forwards = s.forwards := rfl
@[simp] theorem pass_mem (d : Nat) (s : State) : (pass d s).mem = s.mem := rfl
@[simp] theorem pass_rings (d : Nat) (s : State) : (pass d s).rings = s.rings := rfl
@[simp] theorem pass_fab (d : Nat) (s : State) : (pass d s).fab = s.fab := rfl
@[simp] theorem pass_day (d : Nat) (s : State) : (pass d s).day = s.day := rfl
@[simp] theorem pass_key (d : Nat) (s : State) : (pass d s).key = s.key := rfl
@[simp] theorem pass_sieve (d : Nat) (s : State) : (pass d s).sieve = s.sieve := rfl
@[simp] theorem pass_mortar (d : Nat) (s : State) : (pass d s).mortar = s.mortar := rfl
@[simp] theorem pass_power (d : Nat) (s : State) : (pass d s).power = s.power := rfl
@[simp] theorem pass_input (d : Nat) (s : State) : (pass d s).input = s.input := rfl
@[simp] theorem pass_mer (d : Nat) (s : State) : (pass d s).mer = s.mer := rfl
@[simp] theorem pass_isl (d : Nat) (s : State) : (pass d s).isl = s.isl := rfl
@[simp] theorem pass_ouvur (d : Nat) (s : State) : (pass d s).ouvur = s.ouvur := rfl
@[simp] theorem pass_nwt (d : Nat) (s : State) : (pass d s).nwt = s.nwt := rfl

/-! ## What ticks that pass leaves alone -/

@[simp] theorem passTicks_pending (k : Nat) (s : State) : (passTicks k s).pending = s.pending := rfl
@[simp] theorem passTicks_fresh (k : Nat) (s : State) : (passTicks k s).fresh = s.fresh := rfl
@[simp] theorem passTicks_mode (k : Nat) (s : State) : (passTicks k s).mode = s.mode := rfl
@[simp] theorem passTicks_silent (k : Nat) (s : State) : (passTicks k s).silent = s.silent := rfl
@[simp] theorem passTicks_partialDie (k : Nat) (s : State) : (passTicks k s).partialDie = s.partialDie := rfl
@[simp] theorem passTicks_partialStep (k : Nat) (s : State) : (passTicks k s).partialStep = s.partialStep := rfl
@[simp] theorem passTicks_pcieUp (k : Nat) (s : State) : (passTicks k s).pcieUp = s.pcieUp := rfl
@[simp] theorem passTicks_perst (k : Nat) (s : State) : (passTicks k s).perst = s.perst := rfl
@[simp] theorem passTicks_bus (k : Nat) (s : State) : (passTicks k s).bus = s.bus := rfl
@[simp] theorem passTicks_out (k : Nat) (s : State) : (passTicks k s).out = s.out := rfl
@[simp] theorem passTicks_forwards (k : Nat) (s : State) : (passTicks k s).forwards = s.forwards := rfl
@[simp] theorem passTicks_mem (k : Nat) (s : State) : (passTicks k s).mem = s.mem := rfl
@[simp] theorem passTicks_rings (k : Nat) (s : State) : (passTicks k s).rings = s.rings := rfl
@[simp] theorem passTicks_fab (k : Nat) (s : State) : (passTicks k s).fab = s.fab := rfl
@[simp] theorem passTicks_day (k : Nat) (s : State) : (passTicks k s).day = s.day := rfl
@[simp] theorem passTicks_key (k : Nat) (s : State) : (passTicks k s).key = s.key := rfl
@[simp] theorem passTicks_sieve (k : Nat) (s : State) : (passTicks k s).sieve = s.sieve := rfl
@[simp] theorem passTicks_mortar (k : Nat) (s : State) : (passTicks k s).mortar = s.mortar := rfl
@[simp] theorem passTicks_power (k : Nat) (s : State) : (passTicks k s).power = s.power := rfl
@[simp] theorem passTicks_input (k : Nat) (s : State) : (passTicks k s).input = s.input := rfl
@[simp] theorem passTicks_mer (k : Nat) (s : State) : (passTicks k s).mer = s.mer := rfl
@[simp] theorem passTicks_isl (k : Nat) (s : State) : (passTicks k s).isl = s.isl := rfl
@[simp] theorem passTicks_ouvur (k : Nat) (s : State) : (passTicks k s).ouvur = s.ouvur := rfl
@[simp] theorem passTicks_nwt (k : Nat) (s : State) : (passTicks k s).nwt = s.nwt := rfl

/-! ## What a context leaves alone -/

@[simp] theorem setCtx_pending (c : Nat) (v : CtxState) (s : State) : (setCtx c v s).pending = s.pending := rfl
@[simp] theorem setCtx_fresh (c : Nat) (v : CtxState) (s : State) : (setCtx c v s).fresh = s.fresh := rfl
@[simp] theorem setCtx_regs (c : Nat) (v : CtxState) (s : State) : (setCtx c v s).regs = s.regs := rfl
@[simp] theorem setCtx_clock (c : Nat) (v : CtxState) (s : State) : (setCtx c v s).clock = s.clock := rfl
@[simp] theorem setCtx_mode (c : Nat) (v : CtxState) (s : State) : (setCtx c v s).mode = s.mode := rfl
@[simp] theorem setCtx_silent (c : Nat) (v : CtxState) (s : State) : (setCtx c v s).silent = s.silent := rfl
@[simp] theorem setCtx_partialDie (c : Nat) (v : CtxState) (s : State) : (setCtx c v s).partialDie = s.partialDie := rfl
@[simp] theorem setCtx_partialStep (c : Nat) (v : CtxState) (s : State) : (setCtx c v s).partialStep = s.partialStep := rfl
@[simp] theorem setCtx_pcieUp (c : Nat) (v : CtxState) (s : State) : (setCtx c v s).pcieUp = s.pcieUp := rfl
@[simp] theorem setCtx_perst (c : Nat) (v : CtxState) (s : State) : (setCtx c v s).perst = s.perst := rfl
@[simp] theorem setCtx_bus (c : Nat) (v : CtxState) (s : State) : (setCtx c v s).bus = s.bus := rfl
@[simp] theorem setCtx_out (c : Nat) (v : CtxState) (s : State) : (setCtx c v s).out = s.out := rfl
@[simp] theorem setCtx_forwards (c : Nat) (v : CtxState) (s : State) : (setCtx c v s).forwards = s.forwards := rfl
@[simp] theorem setCtx_mem (c : Nat) (v : CtxState) (s : State) : (setCtx c v s).mem = s.mem := rfl
@[simp] theorem setCtx_fab (c : Nat) (v : CtxState) (s : State) : (setCtx c v s).fab = s.fab := rfl
@[simp] theorem setCtx_day (c : Nat) (v : CtxState) (s : State) : (setCtx c v s).day = s.day := rfl
@[simp] theorem setCtx_key (c : Nat) (v : CtxState) (s : State) : (setCtx c v s).key = s.key := rfl
@[simp] theorem setCtx_sieve (c : Nat) (v : CtxState) (s : State) : (setCtx c v s).sieve = s.sieve := rfl
@[simp] theorem setCtx_mortar (c : Nat) (v : CtxState) (s : State) : (setCtx c v s).mortar = s.mortar := rfl
@[simp] theorem setCtx_power (c : Nat) (v : CtxState) (s : State) : (setCtx c v s).power = s.power := rfl
@[simp] theorem setCtx_input (c : Nat) (v : CtxState) (s : State) : (setCtx c v s).input = s.input := rfl
@[simp] theorem setCtx_mer (c : Nat) (v : CtxState) (s : State) : (setCtx c v s).mer = s.mer := rfl
@[simp] theorem setCtx_isl (c : Nat) (v : CtxState) (s : State) : (setCtx c v s).isl = s.isl := rfl
@[simp] theorem setCtx_ouvur (c : Nat) (v : CtxState) (s : State) : (setCtx c v s).ouvur = s.ouvur := rfl
@[simp] theorem setCtx_nwt (c : Nat) (v : CtxState) (s : State) : (setCtx c v s).nwt = s.nwt := rfl

/-! ## What a submission ring leaves alone -/

@[simp] theorem modRing_pending (c r : Nat) (f : Ring → Ring) (s : State) : (modRing c r f s).pending = s.pending := rfl
@[simp] theorem modRing_fresh (c r : Nat) (f : Ring → Ring) (s : State) : (modRing c r f s).fresh = s.fresh := rfl
@[simp] theorem modRing_regs (c r : Nat) (f : Ring → Ring) (s : State) : (modRing c r f s).regs = s.regs := rfl
@[simp] theorem modRing_clock (c r : Nat) (f : Ring → Ring) (s : State) : (modRing c r f s).clock = s.clock := rfl
@[simp] theorem modRing_mode (c r : Nat) (f : Ring → Ring) (s : State) : (modRing c r f s).mode = s.mode := rfl
@[simp] theorem modRing_silent (c r : Nat) (f : Ring → Ring) (s : State) : (modRing c r f s).silent = s.silent := rfl
@[simp] theorem modRing_partialDie (c r : Nat) (f : Ring → Ring) (s : State) : (modRing c r f s).partialDie = s.partialDie := rfl
@[simp] theorem modRing_partialStep (c r : Nat) (f : Ring → Ring) (s : State) : (modRing c r f s).partialStep = s.partialStep := rfl
@[simp] theorem modRing_pcieUp (c r : Nat) (f : Ring → Ring) (s : State) : (modRing c r f s).pcieUp = s.pcieUp := rfl
@[simp] theorem modRing_perst (c r : Nat) (f : Ring → Ring) (s : State) : (modRing c r f s).perst = s.perst := rfl
@[simp] theorem modRing_bus (c r : Nat) (f : Ring → Ring) (s : State) : (modRing c r f s).bus = s.bus := rfl
@[simp] theorem modRing_out (c r : Nat) (f : Ring → Ring) (s : State) : (modRing c r f s).out = s.out := rfl
@[simp] theorem modRing_forwards (c r : Nat) (f : Ring → Ring) (s : State) : (modRing c r f s).forwards = s.forwards := rfl
@[simp] theorem modRing_mem (c r : Nat) (f : Ring → Ring) (s : State) : (modRing c r f s).mem = s.mem := rfl
@[simp] theorem modRing_fab (c r : Nat) (f : Ring → Ring) (s : State) : (modRing c r f s).fab = s.fab := rfl
@[simp] theorem modRing_day (c r : Nat) (f : Ring → Ring) (s : State) : (modRing c r f s).day = s.day := rfl
@[simp] theorem modRing_key (c r : Nat) (f : Ring → Ring) (s : State) : (modRing c r f s).key = s.key := rfl
@[simp] theorem modRing_sieve (c r : Nat) (f : Ring → Ring) (s : State) : (modRing c r f s).sieve = s.sieve := rfl
@[simp] theorem modRing_mortar (c r : Nat) (f : Ring → Ring) (s : State) : (modRing c r f s).mortar = s.mortar := rfl
@[simp] theorem modRing_power (c r : Nat) (f : Ring → Ring) (s : State) : (modRing c r f s).power = s.power := rfl
@[simp] theorem modRing_input (c r : Nat) (f : Ring → Ring) (s : State) : (modRing c r f s).input = s.input := rfl
@[simp] theorem modRing_mer (c r : Nat) (f : Ring → Ring) (s : State) : (modRing c r f s).mer = s.mer := rfl
@[simp] theorem modRing_isl (c r : Nat) (f : Ring → Ring) (s : State) : (modRing c r f s).isl = s.isl := rfl
@[simp] theorem modRing_ouvur (c r : Nat) (f : Ring → Ring) (s : State) : (modRing c r f s).ouvur = s.ouvur := rfl
@[simp] theorem modRing_nwt (c r : Nat) (f : Ring → Ring) (s : State) : (modRing c r f s).nwt = s.nwt := rfl

/-! ## What a change of a context leaves alone -/

@[simp] theorem modCtx_pending (c : Nat) (f : CtxState → CtxState) (s : State) : (modCtx c f s).pending = s.pending := rfl
@[simp] theorem modCtx_fresh (c : Nat) (f : CtxState → CtxState) (s : State) : (modCtx c f s).fresh = s.fresh := rfl
@[simp] theorem modCtx_regs (c : Nat) (f : CtxState → CtxState) (s : State) : (modCtx c f s).regs = s.regs := rfl
@[simp] theorem modCtx_clock (c : Nat) (f : CtxState → CtxState) (s : State) : (modCtx c f s).clock = s.clock := rfl
@[simp] theorem modCtx_mode (c : Nat) (f : CtxState → CtxState) (s : State) : (modCtx c f s).mode = s.mode := rfl
@[simp] theorem modCtx_silent (c : Nat) (f : CtxState → CtxState) (s : State) : (modCtx c f s).silent = s.silent := rfl
@[simp] theorem modCtx_partialDie (c : Nat) (f : CtxState → CtxState) (s : State) : (modCtx c f s).partialDie = s.partialDie := rfl
@[simp] theorem modCtx_partialStep (c : Nat) (f : CtxState → CtxState) (s : State) : (modCtx c f s).partialStep = s.partialStep := rfl
@[simp] theorem modCtx_pcieUp (c : Nat) (f : CtxState → CtxState) (s : State) : (modCtx c f s).pcieUp = s.pcieUp := rfl
@[simp] theorem modCtx_perst (c : Nat) (f : CtxState → CtxState) (s : State) : (modCtx c f s).perst = s.perst := rfl
@[simp] theorem modCtx_bus (c : Nat) (f : CtxState → CtxState) (s : State) : (modCtx c f s).bus = s.bus := rfl
@[simp] theorem modCtx_out (c : Nat) (f : CtxState → CtxState) (s : State) : (modCtx c f s).out = s.out := rfl
@[simp] theorem modCtx_forwards (c : Nat) (f : CtxState → CtxState) (s : State) : (modCtx c f s).forwards = s.forwards := rfl
@[simp] theorem modCtx_mem (c : Nat) (f : CtxState → CtxState) (s : State) : (modCtx c f s).mem = s.mem := rfl
@[simp] theorem modCtx_fab (c : Nat) (f : CtxState → CtxState) (s : State) : (modCtx c f s).fab = s.fab := rfl
@[simp] theorem modCtx_day (c : Nat) (f : CtxState → CtxState) (s : State) : (modCtx c f s).day = s.day := rfl
@[simp] theorem modCtx_key (c : Nat) (f : CtxState → CtxState) (s : State) : (modCtx c f s).key = s.key := rfl
@[simp] theorem modCtx_sieve (c : Nat) (f : CtxState → CtxState) (s : State) : (modCtx c f s).sieve = s.sieve := rfl
@[simp] theorem modCtx_mortar (c : Nat) (f : CtxState → CtxState) (s : State) : (modCtx c f s).mortar = s.mortar := rfl
@[simp] theorem modCtx_power (c : Nat) (f : CtxState → CtxState) (s : State) : (modCtx c f s).power = s.power := rfl
@[simp] theorem modCtx_input (c : Nat) (f : CtxState → CtxState) (s : State) : (modCtx c f s).input = s.input := rfl
@[simp] theorem modCtx_mer (c : Nat) (f : CtxState → CtxState) (s : State) : (modCtx c f s).mer = s.mer := rfl
@[simp] theorem modCtx_isl (c : Nat) (f : CtxState → CtxState) (s : State) : (modCtx c f s).isl = s.isl := rfl
@[simp] theorem modCtx_ouvur (c : Nat) (f : CtxState → CtxState) (s : State) : (modCtx c f s).ouvur = s.ouvur := rfl
@[simp] theorem modCtx_nwt (c : Nat) (f : CtxState → CtxState) (s : State) : (modCtx c f s).nwt = s.nwt := rfl

/-! ## What a Course leaves alone -/

@[simp] theorem modCourse_pending (c : Nat) (f : CourseState → CourseState) (s : State) : (modCourse c f s).pending = s.pending := rfl
@[simp] theorem modCourse_fresh (c : Nat) (f : CourseState → CourseState) (s : State) : (modCourse c f s).fresh = s.fresh := rfl
@[simp] theorem modCourse_regs (c : Nat) (f : CourseState → CourseState) (s : State) : (modCourse c f s).regs = s.regs := rfl
@[simp] theorem modCourse_clock (c : Nat) (f : CourseState → CourseState) (s : State) : (modCourse c f s).clock = s.clock := rfl
@[simp] theorem modCourse_mode (c : Nat) (f : CourseState → CourseState) (s : State) : (modCourse c f s).mode = s.mode := rfl
@[simp] theorem modCourse_silent (c : Nat) (f : CourseState → CourseState) (s : State) : (modCourse c f s).silent = s.silent := rfl
@[simp] theorem modCourse_partialDie (c : Nat) (f : CourseState → CourseState) (s : State) : (modCourse c f s).partialDie = s.partialDie := rfl
@[simp] theorem modCourse_partialStep (c : Nat) (f : CourseState → CourseState) (s : State) : (modCourse c f s).partialStep = s.partialStep := rfl
@[simp] theorem modCourse_pcieUp (c : Nat) (f : CourseState → CourseState) (s : State) : (modCourse c f s).pcieUp = s.pcieUp := rfl
@[simp] theorem modCourse_perst (c : Nat) (f : CourseState → CourseState) (s : State) : (modCourse c f s).perst = s.perst := rfl
@[simp] theorem modCourse_bus (c : Nat) (f : CourseState → CourseState) (s : State) : (modCourse c f s).bus = s.bus := rfl
@[simp] theorem modCourse_out (c : Nat) (f : CourseState → CourseState) (s : State) : (modCourse c f s).out = s.out := rfl
@[simp] theorem modCourse_forwards (c : Nat) (f : CourseState → CourseState) (s : State) : (modCourse c f s).forwards = s.forwards := rfl
@[simp] theorem modCourse_mem (c : Nat) (f : CourseState → CourseState) (s : State) : (modCourse c f s).mem = s.mem := rfl
@[simp] theorem modCourse_rings (c : Nat) (f : CourseState → CourseState) (s : State) : (modCourse c f s).rings = s.rings := rfl
@[simp] theorem modCourse_day (c : Nat) (f : CourseState → CourseState) (s : State) : (modCourse c f s).day = s.day := rfl
@[simp] theorem modCourse_key (c : Nat) (f : CourseState → CourseState) (s : State) : (modCourse c f s).key = s.key := rfl
@[simp] theorem modCourse_sieve (c : Nat) (f : CourseState → CourseState) (s : State) : (modCourse c f s).sieve = s.sieve := rfl
@[simp] theorem modCourse_mortar (c : Nat) (f : CourseState → CourseState) (s : State) : (modCourse c f s).mortar = s.mortar := rfl
@[simp] theorem modCourse_power (c : Nat) (f : CourseState → CourseState) (s : State) : (modCourse c f s).power = s.power := rfl
@[simp] theorem modCourse_input (c : Nat) (f : CourseState → CourseState) (s : State) : (modCourse c f s).input = s.input := rfl
@[simp] theorem modCourse_mer (c : Nat) (f : CourseState → CourseState) (s : State) : (modCourse c f s).mer = s.mer := rfl
@[simp] theorem modCourse_isl (c : Nat) (f : CourseState → CourseState) (s : State) : (modCourse c f s).isl = s.isl := rfl
@[simp] theorem modCourse_ouvur (c : Nat) (f : CourseState → CourseState) (s : State) : (modCourse c f s).ouvur = s.ouvur := rfl
@[simp] theorem modCourse_nwt (c : Nat) (f : CourseState → CourseState) (s : State) : (modCourse c f s).nwt = s.nwt := rfl

/-! ## What a Brick leaves alone -/

@[simp] theorem modBrick_pending (b : Nat) (f : BrickState → BrickState) (s : State) : (modBrick b f s).pending = s.pending := rfl
@[simp] theorem modBrick_fresh (b : Nat) (f : BrickState → BrickState) (s : State) : (modBrick b f s).fresh = s.fresh := rfl
@[simp] theorem modBrick_regs (b : Nat) (f : BrickState → BrickState) (s : State) : (modBrick b f s).regs = s.regs := rfl
@[simp] theorem modBrick_clock (b : Nat) (f : BrickState → BrickState) (s : State) : (modBrick b f s).clock = s.clock := rfl
@[simp] theorem modBrick_mode (b : Nat) (f : BrickState → BrickState) (s : State) : (modBrick b f s).mode = s.mode := rfl
@[simp] theorem modBrick_silent (b : Nat) (f : BrickState → BrickState) (s : State) : (modBrick b f s).silent = s.silent := rfl
@[simp] theorem modBrick_partialDie (b : Nat) (f : BrickState → BrickState) (s : State) : (modBrick b f s).partialDie = s.partialDie := rfl
@[simp] theorem modBrick_partialStep (b : Nat) (f : BrickState → BrickState) (s : State) : (modBrick b f s).partialStep = s.partialStep := rfl
@[simp] theorem modBrick_pcieUp (b : Nat) (f : BrickState → BrickState) (s : State) : (modBrick b f s).pcieUp = s.pcieUp := rfl
@[simp] theorem modBrick_perst (b : Nat) (f : BrickState → BrickState) (s : State) : (modBrick b f s).perst = s.perst := rfl
@[simp] theorem modBrick_bus (b : Nat) (f : BrickState → BrickState) (s : State) : (modBrick b f s).bus = s.bus := rfl
@[simp] theorem modBrick_out (b : Nat) (f : BrickState → BrickState) (s : State) : (modBrick b f s).out = s.out := rfl
@[simp] theorem modBrick_forwards (b : Nat) (f : BrickState → BrickState) (s : State) : (modBrick b f s).forwards = s.forwards := rfl
@[simp] theorem modBrick_mem (b : Nat) (f : BrickState → BrickState) (s : State) : (modBrick b f s).mem = s.mem := rfl
@[simp] theorem modBrick_rings (b : Nat) (f : BrickState → BrickState) (s : State) : (modBrick b f s).rings = s.rings := rfl
@[simp] theorem modBrick_day (b : Nat) (f : BrickState → BrickState) (s : State) : (modBrick b f s).day = s.day := rfl
@[simp] theorem modBrick_key (b : Nat) (f : BrickState → BrickState) (s : State) : (modBrick b f s).key = s.key := rfl
@[simp] theorem modBrick_sieve (b : Nat) (f : BrickState → BrickState) (s : State) : (modBrick b f s).sieve = s.sieve := rfl
@[simp] theorem modBrick_mortar (b : Nat) (f : BrickState → BrickState) (s : State) : (modBrick b f s).mortar = s.mortar := rfl
@[simp] theorem modBrick_power (b : Nat) (f : BrickState → BrickState) (s : State) : (modBrick b f s).power = s.power := rfl
@[simp] theorem modBrick_input (b : Nat) (f : BrickState → BrickState) (s : State) : (modBrick b f s).input = s.input := rfl
@[simp] theorem modBrick_mer (b : Nat) (f : BrickState → BrickState) (s : State) : (modBrick b f s).mer = s.mer := rfl
@[simp] theorem modBrick_isl (b : Nat) (f : BrickState → BrickState) (s : State) : (modBrick b f s).isl = s.isl := rfl
@[simp] theorem modBrick_ouvur (b : Nat) (f : BrickState → BrickState) (s : State) : (modBrick b f s).ouvur = s.ouvur := rfl
@[simp] theorem modBrick_nwt (b : Nat) (f : BrickState → BrickState) (s : State) : (modBrick b f s).nwt = s.nwt := rfl

/-! ## What a stack controller leaves alone -/

@[simp] theorem modStack_pending (k : Nat) (f : StackState → StackState) (s : State) : (modStack k f s).pending = s.pending := rfl
@[simp] theorem modStack_fresh (k : Nat) (f : StackState → StackState) (s : State) : (modStack k f s).fresh = s.fresh := rfl
@[simp] theorem modStack_regs (k : Nat) (f : StackState → StackState) (s : State) : (modStack k f s).regs = s.regs := rfl
@[simp] theorem modStack_clock (k : Nat) (f : StackState → StackState) (s : State) : (modStack k f s).clock = s.clock := rfl
@[simp] theorem modStack_mode (k : Nat) (f : StackState → StackState) (s : State) : (modStack k f s).mode = s.mode := rfl
@[simp] theorem modStack_silent (k : Nat) (f : StackState → StackState) (s : State) : (modStack k f s).silent = s.silent := rfl
@[simp] theorem modStack_partialDie (k : Nat) (f : StackState → StackState) (s : State) : (modStack k f s).partialDie = s.partialDie := rfl
@[simp] theorem modStack_partialStep (k : Nat) (f : StackState → StackState) (s : State) : (modStack k f s).partialStep = s.partialStep := rfl
@[simp] theorem modStack_pcieUp (k : Nat) (f : StackState → StackState) (s : State) : (modStack k f s).pcieUp = s.pcieUp := rfl
@[simp] theorem modStack_perst (k : Nat) (f : StackState → StackState) (s : State) : (modStack k f s).perst = s.perst := rfl
@[simp] theorem modStack_bus (k : Nat) (f : StackState → StackState) (s : State) : (modStack k f s).bus = s.bus := rfl
@[simp] theorem modStack_out (k : Nat) (f : StackState → StackState) (s : State) : (modStack k f s).out = s.out := rfl
@[simp] theorem modStack_forwards (k : Nat) (f : StackState → StackState) (s : State) : (modStack k f s).forwards = s.forwards := rfl
@[simp] theorem modStack_rings (k : Nat) (f : StackState → StackState) (s : State) : (modStack k f s).rings = s.rings := rfl
@[simp] theorem modStack_fab (k : Nat) (f : StackState → StackState) (s : State) : (modStack k f s).fab = s.fab := rfl
@[simp] theorem modStack_day (k : Nat) (f : StackState → StackState) (s : State) : (modStack k f s).day = s.day := rfl
@[simp] theorem modStack_key (k : Nat) (f : StackState → StackState) (s : State) : (modStack k f s).key = s.key := rfl
@[simp] theorem modStack_sieve (k : Nat) (f : StackState → StackState) (s : State) : (modStack k f s).sieve = s.sieve := rfl
@[simp] theorem modStack_mortar (k : Nat) (f : StackState → StackState) (s : State) : (modStack k f s).mortar = s.mortar := rfl
@[simp] theorem modStack_power (k : Nat) (f : StackState → StackState) (s : State) : (modStack k f s).power = s.power := rfl
@[simp] theorem modStack_input (k : Nat) (f : StackState → StackState) (s : State) : (modStack k f s).input = s.input := rfl
@[simp] theorem modStack_mer (k : Nat) (f : StackState → StackState) (s : State) : (modStack k f s).mer = s.mer := rfl
@[simp] theorem modStack_isl (k : Nat) (f : StackState → StackState) (s : State) : (modStack k f s).isl = s.isl := rfl
@[simp] theorem modStack_ouvur (k : Nat) (f : StackState → StackState) (s : State) : (modStack k f s).ouvur = s.ouvur := rfl
@[simp] theorem modStack_nwt (k : Nat) (f : StackState → StackState) (s : State) : (modStack k f s).nwt = s.nwt := rfl

/-! ## What a byte of a stack leaves alone -/

@[simp] theorem putByte_pending (p : Nat) (b : Byte) (s : State) : (putByte p b s).pending = s.pending := rfl
@[simp] theorem putByte_fresh (p : Nat) (b : Byte) (s : State) : (putByte p b s).fresh = s.fresh := rfl
@[simp] theorem putByte_regs (p : Nat) (b : Byte) (s : State) : (putByte p b s).regs = s.regs := rfl
@[simp] theorem putByte_clock (p : Nat) (b : Byte) (s : State) : (putByte p b s).clock = s.clock := rfl
@[simp] theorem putByte_mode (p : Nat) (b : Byte) (s : State) : (putByte p b s).mode = s.mode := rfl
@[simp] theorem putByte_silent (p : Nat) (b : Byte) (s : State) : (putByte p b s).silent = s.silent := rfl
@[simp] theorem putByte_partialDie (p : Nat) (b : Byte) (s : State) : (putByte p b s).partialDie = s.partialDie := rfl
@[simp] theorem putByte_partialStep (p : Nat) (b : Byte) (s : State) : (putByte p b s).partialStep = s.partialStep := rfl
@[simp] theorem putByte_pcieUp (p : Nat) (b : Byte) (s : State) : (putByte p b s).pcieUp = s.pcieUp := rfl
@[simp] theorem putByte_perst (p : Nat) (b : Byte) (s : State) : (putByte p b s).perst = s.perst := rfl
@[simp] theorem putByte_bus (p : Nat) (b : Byte) (s : State) : (putByte p b s).bus = s.bus := rfl
@[simp] theorem putByte_out (p : Nat) (b : Byte) (s : State) : (putByte p b s).out = s.out := rfl
@[simp] theorem putByte_forwards (p : Nat) (b : Byte) (s : State) : (putByte p b s).forwards = s.forwards := rfl
@[simp] theorem putByte_rings (p : Nat) (b : Byte) (s : State) : (putByte p b s).rings = s.rings := rfl
@[simp] theorem putByte_fab (p : Nat) (b : Byte) (s : State) : (putByte p b s).fab = s.fab := rfl
@[simp] theorem putByte_day (p : Nat) (b : Byte) (s : State) : (putByte p b s).day = s.day := rfl
@[simp] theorem putByte_key (p : Nat) (b : Byte) (s : State) : (putByte p b s).key = s.key := rfl
@[simp] theorem putByte_sieve (p : Nat) (b : Byte) (s : State) : (putByte p b s).sieve = s.sieve := rfl
@[simp] theorem putByte_mortar (p : Nat) (b : Byte) (s : State) : (putByte p b s).mortar = s.mortar := rfl
@[simp] theorem putByte_power (p : Nat) (b : Byte) (s : State) : (putByte p b s).power = s.power := rfl
@[simp] theorem putByte_input (p : Nat) (b : Byte) (s : State) : (putByte p b s).input = s.input := rfl
@[simp] theorem putByte_mer (p : Nat) (b : Byte) (s : State) : (putByte p b s).mer = s.mer := rfl
@[simp] theorem putByte_isl (p : Nat) (b : Byte) (s : State) : (putByte p b s).isl = s.isl := rfl
@[simp] theorem putByte_ouvur (p : Nat) (b : Byte) (s : State) : (putByte p b s).ouvur = s.ouvur := rfl
@[simp] theorem putByte_nwt (p : Nat) (b : Byte) (s : State) : (putByte p b s).nwt = s.nwt := rfl

/-! ## What the waking of a Course leaves alone -/

@[simp] theorem wakeCourse_pending (c : Nat) (s : State) : (wakeCourse c s).pending = s.pending := rfl
@[simp] theorem wakeCourse_fresh (c : Nat) (s : State) : (wakeCourse c s).fresh = s.fresh := rfl
@[simp] theorem wakeCourse_clock (c : Nat) (s : State) : (wakeCourse c s).clock = s.clock := rfl
@[simp] theorem wakeCourse_mode (c : Nat) (s : State) : (wakeCourse c s).mode = s.mode := rfl
@[simp] theorem wakeCourse_silent (c : Nat) (s : State) : (wakeCourse c s).silent = s.silent := rfl
@[simp] theorem wakeCourse_partialDie (c : Nat) (s : State) : (wakeCourse c s).partialDie = s.partialDie := rfl
@[simp] theorem wakeCourse_partialStep (c : Nat) (s : State) : (wakeCourse c s).partialStep = s.partialStep := rfl
@[simp] theorem wakeCourse_pcieUp (c : Nat) (s : State) : (wakeCourse c s).pcieUp = s.pcieUp := rfl
@[simp] theorem wakeCourse_perst (c : Nat) (s : State) : (wakeCourse c s).perst = s.perst := rfl
@[simp] theorem wakeCourse_bus (c : Nat) (s : State) : (wakeCourse c s).bus = s.bus := rfl
@[simp] theorem wakeCourse_out (c : Nat) (s : State) : (wakeCourse c s).out = s.out := rfl
@[simp] theorem wakeCourse_forwards (c : Nat) (s : State) : (wakeCourse c s).forwards = s.forwards := rfl
@[simp] theorem wakeCourse_mem (c : Nat) (s : State) : (wakeCourse c s).mem = s.mem := rfl
@[simp] theorem wakeCourse_rings (c : Nat) (s : State) : (wakeCourse c s).rings = s.rings := rfl
@[simp] theorem wakeCourse_fab (c : Nat) (s : State) : (wakeCourse c s).fab = s.fab := rfl
@[simp] theorem wakeCourse_day (c : Nat) (s : State) : (wakeCourse c s).day = s.day := rfl
@[simp] theorem wakeCourse_key (c : Nat) (s : State) : (wakeCourse c s).key = s.key := rfl
@[simp] theorem wakeCourse_sieve (c : Nat) (s : State) : (wakeCourse c s).sieve = s.sieve := rfl
@[simp] theorem wakeCourse_mortar (c : Nat) (s : State) : (wakeCourse c s).mortar = s.mortar := rfl
@[simp] theorem wakeCourse_input (c : Nat) (s : State) : (wakeCourse c s).input = s.input := rfl
@[simp] theorem wakeCourse_mer (c : Nat) (s : State) : (wakeCourse c s).mer = s.mer := rfl
@[simp] theorem wakeCourse_isl (c : Nat) (s : State) : (wakeCourse c s).isl = s.isl := rfl
@[simp] theorem wakeCourse_ouvur (c : Nat) (s : State) : (wakeCourse c s).ouvur = s.ouvur := rfl
@[simp] theorem wakeCourse_nwt (c : Nat) (s : State) : (wakeCourse c s).nwt = s.nwt := rfl

/-! ## Registers -/

/-- A field that is not staged holds, after a write, what was written, in its width. -/
@[simp] theorem rd_wr_self (f : Field) (a v : Nat) (s : State) : rd (wr f a v s) f a = v % 2 ^ f.width := by
  simp [rd, wr]

@[simp] theorem rdB_wrB_self (f : Field) (a : Nat) (b : Bool) (s : State) (h : 0 < f.width) :
    rdB (wrB f a b s) f a = b := by
  have h2 : 1 < 2 ^ f.width := Nat.one_lt_two_pow (by omega)
  cases b <;> simp [rdB, wrB, b2n, Nat.mod_eq_of_lt h2]

/-- A write of one field leaves every field at another place. -/
theorem rd_wr_ne (f g : Field) (a b v : Nat) (s : State) (h : fkey f a ≠ fkey g b) : rd (wr f a v s) g b = rd s g b := by
  simp [rd, wr, aget_aset_ne _ _ _ _ _ _ h]

theorem rdB_wrB_ne (f g : Field) (a b : Nat) (v : Bool) (s : State) (h : fkey f a ≠ fkey g b) :
    rdB (wrB f a v s) g b = rdB s g b := by simp [rdB, wrB, rd_wr_ne _ _ _ _ _ _ h]

/-- A committed copy holds, after it is set, what was set, in its width. -/
@[simp] theorem com_wrCom_self (f : Field) (a v : Nat) (s : State) : com (wrCom f a v s) f a = v % 2 ^ f.width := by
  simp [com, wrCom]

theorem com_wrCom_ne (f g : Field) (a b v : Nat) (s : State) (h : fkey f a ≠ fkey g b) :
    com (wrCom f a v s) g b = com s g b := by simp [com, wrCom, aget_aset_ne _ _ _ _ _ _ h]

@[simp] theorem stg_wrStg_self (f : Field) (a v : Nat) (s : State) : stg (wrStg f a v s) f a = v % 2 ^ f.width := by
  simp [stg, wrStg]

theorem stg_wrStg_ne (f g : Field) (a b v : Nat) (s : State) (h : fkey f a ≠ fkey g b) :
    stg (wrStg f a v s) g b = stg s g b := by simp [stg, wrStg, aget_aset_ne _ _ _ _ _ _ h]

/-! The three copies are apart: an update of one leaves the others (R757, R762). -/

@[simp] theorem com_wr (f g : Field) (a b v : Nat) (s : State) : com (wr f a v s) g b = com s g b := rfl
@[simp] theorem stg_wr (f g : Field) (a b v : Nat) (s : State) : stg (wr f a v s) g b = stg s g b := rfl
@[simp] theorem rd_wrCom (f g : Field) (a b v : Nat) (s : State) : rd (wrCom f a v s) g b = rd s g b := rfl
@[simp] theorem stg_wrCom (f g : Field) (a b v : Nat) (s : State) : stg (wrCom f a v s) g b = stg s g b := rfl
@[simp] theorem rd_wrStg (f g : Field) (a b v : Nat) (s : State) : rd (wrStg f a v s) g b = rd s g b := rfl
@[simp] theorem com_wrStg (f g : Field) (a b v : Nat) (s : State) : com (wrStg f a v s) g b = com s g b := rfl

/-- Reads of registers see nothing but the registers. -/
theorem rd_congr {s t : State} (h : t.regs = s.regs) (f : Field) (a : Nat) : rd t f a = rd s f a := by simp [rd, h]
theorem com_congr {s t : State} (h : t.regs = s.regs) (f : Field) (a : Nat) : com t f a = com s f a := by simp [com, h]
theorem stg_congr {s t : State} (h : t.regs = s.regs) (f : Field) (a : Nat) : stg t f a = stg s f a := by simp [stg, h]

/-! ## Time -/

@[simp] theorem now_pass (d : Nat) (s : State) : now (pass d s) = now s + d := rfl

@[simp] theorem ticks_count (c : ClockState) (k : Nat) : (c.ticks k).count = c.count + c.tickNs k := rfl

@[simp] theorem now_passTicks (k : Nat) (s : State) : now (passTicks k s) = now s + s.clock.tickNs k := rfl

/-- Outside Night time passes exactly up to the instant that a timer is due at. -/
theorem now_passTo (t : Nat) (s : State) (h : ticking s = false) : now (passTo t s) = max (now s) t := by
  unfold passTo; split
  · rw [h]; simp; omega
  · omega

/-- Division rounded up reaches the number. -/
theorem le_divUp_mul (a b : Nat) (h : 0 < b) : a ≤ b * divUp a b := by
  unfold divUp
  have := Nat.lt_mul_div_succ (a + b - 1) h
  rw [Nat.mul_add] at this
  omega

/-- The ticks up to an instant reach it. -/
theorem le_tickNs (c : ClockState) (d : Nat) : d ≤ c.tickNs (divUp (d * 32768 - c.nightFrac) 1000000000) := by
  unfold ClockState.tickNs
  rw [Nat.le_div_iff_mul_le (by decide)]
  have h := le_divUp_mul (d * 32768 - c.nightFrac) 1000000000 (by decide)
  generalize 1000000000 * divUp (d * 32768 - c.nightFrac) 1000000000 = x at h
  omega

/-- Time passes at least up to the instant that a timer is due at, in Night to the first tick that is not earlier. -/
theorem now_passTo_ge (t : Nat) (s : State) : max (now s) t ≤ now (passTo t s) := by
  unfold passTo; split
  · split
    · have := le_tickNs s.clock (t - now s)
      rw [now_passTicks]
      generalize s.clock.tickNs _ = x at this
      omega
    · simp; omega
  · omega

/-! ## Contexts, Courses and Bricks by their number -/

@[simp] theorem ctxOf_setCtx_self (c : Nat) (v : CtxState) (s : State) : ctxOf (setCtx c v s) c = v := by
  simp [ctxOf, setCtx]

theorem ctxOf_setCtx_ne (c d : Nat) (v : CtxState) (s : State) (h : c ≠ d) : ctxOf (setCtx c v s) d = ctxOf s d := by
  simp [ctxOf, setCtx, aget_aset_ne _ _ _ _ _ _ h]

@[simp] theorem ctxOf_modCtx_self (c : Nat) (f : CtxState → CtxState) (s : State) :
    ctxOf (modCtx c f s) c = f (ctxOf s c) := by simp [modCtx]

@[simp] theorem courseOf_modCourse_self (c : Nat) (f : CourseState → CourseState) (s : State) :
    courseOf (modCourse c f s) c = f (courseOf s c) := by simp [courseOf, modCourse]

theorem courseOf_modCourse_ne (c d : Nat) (f : CourseState → CourseState) (s : State) (h : c ≠ d) :
    courseOf (modCourse c f s) d = courseOf s d := by simp [courseOf, modCourse, aget_aset_ne _ _ _ _ _ _ h]

@[simp] theorem brickOf_modBrick_self (b : Nat) (f : BrickState → BrickState) (s : State) :
    brickOf (modBrick b f s) b = f (brickOf s b) := by simp [brickOf, modBrick]

theorem brickOf_modBrick_ne (b d : Nat) (f : BrickState → BrickState) (s : State) (h : b ≠ d) :
    brickOf (modBrick b f s) d = brickOf s d := by simp [brickOf, modBrick, aget_aset_ne _ _ _ _ _ _ h]

end Sys2Proof.Machine
end

