-- ==== Sys2Proof/Laws/Kept.lean ====
section
/-! SUPPORT. What every operation of the model keeps, said once: `Kept s t` reads "on the way from s to t the queue was
not touched, time did not run back, no free value was drawn twice, memory stayed in its canonical form, no key was reused,
no silent die began again and no fused or stored minimum fell". -/

namespace Sys2Proof.Machine

/-- What holds between a state and one that operations of the model make from it. -/
structure Kept (s t : State) : Prop where
  pending : t.pending = s.pending
  time : s.clock.count ≤ t.clock.count
  fresh : s.fresh ≤ t.fresh
  mem : s.mem.wf = true → t.mem.wf = true
  nextKey : s.mem.nextKey ≤ t.mem.nextKey
  silent : ∀ d < 5, aget s.silent d false = true → aget t.silent d false = true
  fwMin : s.key.fwMin ≤ t.key.fwMin
  policyMin : ∀ k, aget s.key.policyMin k 0 ≤ aget t.key.policyMin k 0

namespace Kept

variable {s t u : State}

protected theorem refl (s : State) : Kept s s :=
  ⟨rfl, Nat.le_refl _, Nat.le_refl _, id, Nat.le_refl _, fun _ _ h => h, Nat.le_refl _, fun _ => Nat.le_refl _⟩

protected theorem trans (h : Kept s t) (g : Kept t u) : Kept s u :=
  ⟨g.pending.trans h.pending, Nat.le_trans h.time g.time, Nat.le_trans h.fresh g.fresh, fun x => g.mem (h.mem x),
    Nat.le_trans h.nextKey g.nextKey, fun d l x => g.silent d l (h.silent d l x), Nat.le_trans h.fwMin g.fwMin,
    fun k => Nat.le_trans (h.policyMin k) (g.policyMin k)⟩

/-- An update of parts of the state that `Kept` does not speak of. -/
theorem upd {xpending xfresh xregs xclock xmode xsilent xpartialDie xpartialStep xpcieUp xperst xbus xout xforwards xmem xrings xfab xday xkey xsieve xmortar xpower xinput xmer xisl xouvur xnwt} (h : Kept s t) (hp : xpending = t.pending) (hf : xfresh = t.fresh)
    (hc : xclock.count = t.clock.count) (hm : xmem.cells = t.mem.cells) (he : xmem.ext = t.mem.ext)
    (hn : xmem.nextKey = t.mem.nextKey) (hs : xsilent = t.silent) (hw : xkey.fwMin = t.key.fwMin)
    (hq : xkey.policyMin = t.key.policyMin) :
    Kept s ⟨xpending, xfresh, xregs, xclock, xmode, xsilent, xpartialDie, xpartialStep, xpcieUp, xperst, xbus, xout, xforwards, xmem, xrings, xfab, xday, xkey, xsieve, xmortar, xpower, xinput, xmer, xisl, xouvur, xnwt⟩ := by
  subst hp hf hs
  exact h.trans ⟨rfl, Nat.le_of_eq hc.symm, Nat.le_refl _, fun x => by simpa [MemState.wf, hm, he] using x,
    Nat.le_of_eq hn.symm, fun _ _ x => x, Nat.le_of_eq hw.symm, fun k => Nat.le_of_eq (by rw [hq])⟩

/-- An update of the clocks by which the count does not run back. -/
theorem clock (h : Kept s t) (c : ClockState) (hc : t.clock.count ≤ c.count) : Kept s { t with clock := c } :=
  h.trans ⟨rfl, hc, Nat.le_refl _, id, Nat.le_refl _, fun _ _ x => x, Nat.le_refl _, fun _ => Nat.le_refl _⟩

/-- An update that draws keys, and leaves the rest that `Kept` speaks of. -/
theorem keys (h : Kept s t) (g : u.pending = t.pending ∧ u.fresh = t.fresh ∧ u.clock.count = t.clock.count ∧
    u.mem.cells = t.mem.cells ∧ u.mem.ext = t.mem.ext ∧ t.mem.nextKey ≤ u.mem.nextKey ∧ u.silent = t.silent ∧ u.key = t.key) :
    Kept s u := by
  obtain ⟨hp, hf, hc, hm, he, hn, hs, hk⟩ := g
  exact h.trans ⟨hp, Nat.le_of_eq hc.symm, Nat.le_of_eq hf.symm, fun x => by rw [MemState.wf, hm, he]; exact x, hn,
    fun d _ x => by rw [hs]; exact x, Nat.le_of_eq (by rw [hk]), fun k => Nat.le_of_eq (by rw [hk])⟩

/-- The release of a package ends every silence at once, before and after. -/
theorem wake (h : Kept s t) : Kept { s with silent := [] } { t with silent := [] } :=
  ⟨h.pending, h.time, h.fresh, h.mem, h.nextKey, fun _ _ x => x, h.fwMin, h.policyMin⟩

theorem ite {c : Prop} [Decidable c] (ht : Kept s t) (hu : Kept s u) : Kept s (if c then t else u) := by
  split <;> assumption

theorem iteSnd {α : Type} {c : Prop} [Decidable c] {p q : α × State} (hp : Kept s p.2) (hq : Kept s q.2) :
    Kept s (if c then p else q).2 := by
  split <;> assumption

theorem iteSnd2 {α β : Type} {c : Prop} [Decidable c] {p q : α × β × State} (hp : Kept s p.2.2) (hq : Kept s q.2.2) :
    Kept s (if c then p else q).2.2 := by
  split <;> assumption

theorem iteFst {α : Type} {c : Prop} [Decidable c] {p q : State × α} (hp : Kept s p.1) (hq : Kept s q.1) :
    Kept s (if c then p else q).1 := by
  split <;> assumption

theorem foldl {α : Type} (f : State → α → State) (l : List α) (hf : ∀ x a, Kept s x → Kept s (f x a)) (h : Kept s t) :
    Kept s (l.foldl f t) := by
  induction l generalizing t with
  | nil => exact h
  | cons a r ih => exact ih (hf t a h)

/-- A fold that carries something beside the state. -/
theorem foldlFst {α β : Type} (f : State × β → α → State × β) (l : List α) (p : State × β)
    (hf : ∀ x a, Kept s x.1 → Kept s (f x a).1) (h : Kept s p.1) : Kept s (l.foldl f p).1 := by
  induction l generalizing p with
  | nil => exact h
  | cons a r ih => exact ih (f p a) (hf p a h)

theorem foldlSnd {α β : Type} (f : β × State → α → β × State) (l : List α) (p : β × State)
    (hf : ∀ x a, Kept s x.2 → Kept s (f x a).2) (h : Kept s p.2) : Kept s (l.foldl f p).2 := by
  induction l generalizing p with
  | nil => exact h
  | cons a r ih => exact ih (f p a) (hf p a h)

/-- A fold that carries a state in some place of what it carries. -/
theorem foldlBy {α β : Type} (get : β → State) (f : β → α → β) (l : List α) (p : β)
    (hf : ∀ x a, Kept s (get x) → Kept s (get (f x a))) (h : Kept s (get p)) : Kept s (get (l.foldl f p)) := by
  induction l generalizing p with
  | nil => exact h
  | cons a r ih => exact ih (f p a) (hf p a h)

end Kept

end Sys2Proof.Machine
end

