-- ==== Sys2Proof/Laws/KeptOps.lean ====
section
/-! SUPPORT. What the operations of Machine/Ops.lean keep (`Kept`). -/

set_option linter.unusedTactic false
set_option linter.unreachableTactic false

namespace Sys2Proof.Machine

open Reg

theorem draw_kept {base s : State} {m : Nat} (h : Kept base s) : Kept base (draw s m).2 :=
  h.trans ⟨rfl, Nat.le_refl _, Nat.le_succ _, id, Nat.le_refl _, fun _ _ x => x, Nat.le_refl _, fun _ => Nat.le_refl _⟩

theorem skipFresh_kept {base : State} (n : Nat) (s : State) (hb : Kept base s) : Kept base (skipFresh n s) :=
  hb.trans ⟨rfl, Nat.le_refl _, Nat.le_add_right _ _, id, Nat.le_refl _, fun _ _ x => x, Nat.le_refl _,
    fun _ => Nat.le_refl _⟩

theorem withDraw_kept {base s : State} {m : Nat} {f : Nat → State → State} (h : Kept base s)
    (hf : ∀ v x, Kept base x → Kept base (f v x)) : Kept base (withDraw s m f) := hf _ _ (draw_kept h)

theorem send_kept {base : State} (kind : MsgKind) (data : List Nat) (s : State) (hb : Kept base s) :
    Kept base (send kind data s) := by
  unfold send
  try dsimp only
  repeat' first
    | with_reducible
      first
      | assumption
    | fail_if_no_progress refine Kept.upd ?_ rfl rfl rfl rfl rfl rfl rfl rfl rfl

theorem wr_kept {base : State} (f : Field) (at_ v : Nat) (s : State) (hb : Kept base s) :
    Kept base (wr f at_ v s) := by
  unfold wr
  try dsimp only
  repeat' first
    | with_reducible
      first
      | assumption
    | fail_if_no_progress refine Kept.upd ?_ rfl rfl rfl rfl rfl rfl rfl rfl rfl

theorem wrB_kept {base : State} (f : Field) (at_ : Nat) (b : Bool) (s : State) (hb : Kept base s) :
    Kept base (wrB f at_ b s) := by
  unfold wrB
  try dsimp only
  repeat' first
    | with_reducible
      first
      | assumption | apply wr_kept

theorem incSat_kept {base : State} (f : Field) (at_ n : Nat) (s : State) (hb : Kept base s) :
    Kept base (incSat f at_ n s) := by
  unfold incSat
  try dsimp only
  repeat' first
    | with_reducible
      first
      | assumption | apply wr_kept

theorem incWrap_kept {base : State} (f : Field) (at_ n : Nat) (s : State) (hb : Kept base s) :
    Kept base (incWrap f at_ n s) := by
  unfold incWrap
  try dsimp only
  repeat' first
    | with_reducible
      first
      | assumption | apply wr_kept

theorem wrStg_kept {base : State} (f : Field) (at_ v : Nat) (s : State) (hb : Kept base s) :
    Kept base (wrStg f at_ v s) := by
  unfold wrStg
  try dsimp only
  repeat' first
    | with_reducible
      first
      | assumption
    | fail_if_no_progress refine Kept.upd ?_ rfl rfl rfl rfl rfl rfl rfl rfl rfl

theorem wrCom_kept {base : State} (f : Field) (at_ v : Nat) (s : State) (hb : Kept base s) :
    Kept base (wrCom f at_ v s) := by
  unfold wrCom
  try dsimp only
  repeat' first
    | with_reducible
      first
      | assumption
    | fail_if_no_progress refine Kept.upd ?_ rfl rfl rfl rfl rfl rfl rfl rfl rfl

theorem acceptStaged_kept {base : State} (l : List (Field × Nat)) (s : State) (hb : Kept base s) :
    Kept base (acceptStaged l s) := by
  unfold acceptStaged
  try dsimp only
  repeat' first
    | with_reducible
      first
      | assumption | apply wrCom_kept | (apply Kept.iteSnd <;> dsimp only) | apply Kept.foldlSnd | apply Kept.foldlFst
      | apply Kept.foldl
    | (intro _; intros; try dsimp only)

theorem resetRegs_kept {base : State} (lo hi : Nat) (s : State) (hb : Kept base s) :
    Kept base (resetRegs lo hi s) := by
  unfold resetRegs
  try dsimp only
  repeat' first
    | with_reducible
      first
      | assumption
    | fail_if_no_progress refine Kept.upd ?_ rfl rfl rfl rfl rfl rfl rfl rfl rfl

theorem setDomain_kept {base : State} (d : Nat) (on : Bool) (s : State) (hb : Kept base s) :
    Kept base (setDomain d on s) := by
  unfold setDomain
  try dsimp only
  repeat' first
    | with_reducible
      first
      | assumption | apply wr_kept

theorem wakeCourse_kept {base : State} (c : Nat) (s : State) (hb : Kept base s) :
    Kept base (wakeCourse c s) := by
  unfold wakeCourse
  try dsimp only
  repeat' first
    | with_reducible
      first
      | assumption | apply setDomain_kept
    | fail_if_no_progress refine Kept.upd ?_ rfl rfl rfl rfl rfl rfl rfl rfl rfl

theorem clearRc_kept {base : State} (r : RegRow) (a lo hi : Nat) (s : State) (hb : Kept base s) :
    Kept base (clearRc r a lo hi s) := by
  unfold clearRc
  try dsimp only
  repeat' first
    | with_reducible
      first
      | assumption | apply Kept.ite | apply Kept.foldl
    | fail_if_no_progress refine Kept.upd ?_ rfl rfl rfl rfl rfl rfl rfl rfl rfl | (intro _; intros; try dsimp only)

theorem readWord_kept {base : State} (s : State) (addr : Nat) (hb : Kept base s) :
    Kept base (readWord s addr).2 := by
  unfold readWord
  try dsimp only
  repeat' first
    | with_reducible
      first
      | assumption | apply clearRc_kept | (apply Kept.iteSnd <;> dsimp only)
    | (split <;> try dsimp only)

theorem writeField_kept {base : State} (f : Field) (a v lo hi : Nat) (s : State) (hb : Kept base s) :
    Kept base (writeField f a v lo hi s) := by
  unfold writeField
  try dsimp only
  repeat' first
    | with_reducible
      first
      | assumption | apply Kept.ite
    | fail_if_no_progress refine Kept.upd ?_ rfl rfl rfl rfl rfl rfl rfl rfl rfl | (split <;> try dsimp only)

theorem noteIgnored_kept {base : State} (addr : Nat) (s : State) (hb : Kept base s) :
    Kept base (noteIgnored addr s) := by
  unfold noteIgnored
  try dsimp only
  repeat' first
    | with_reducible
      first
      | assumption | apply wr_kept | apply Kept.ite

theorem writeWord_kept {base : State} (addr v : Nat) (s : State) (hb : Kept base s) :
    Kept base (writeWord addr v s) := by
  unfold writeWord
  try dsimp only
  repeat' first
    | with_reducible
      first
      | assumption | apply writeField_kept | apply Kept.foldl
    | (split <;> try dsimp only) | (intro _; intros; try dsimp only)

theorem commitAt_kept {base : State} (die off : Nat) (s : State) (hb : Kept base s) :
    Kept base (commitAt die off s) := by
  unfold commitAt
  try dsimp only
  repeat' first
    | with_reducible
      first
      | assumption | apply wr_kept

theorem commitDone_kept {base : State} (die : Nat) (r : Refuse) (s : State) (hb : Kept base s) :
    Kept base (commitDone die r s) := by
  unfold commitDone
  try dsimp only
  repeat' first
    | with_reducible
      first
      | assumption | apply wr_kept | (apply Kept.iteSnd <;> dsimp only)

theorem commitBusy_kept {base : State} (die : Nat) (s : State) (hb : Kept base s) :
    Kept base (commitBusy die s) := by
  unfold commitBusy
  try dsimp only
  repeat' first
    | with_reducible
      first
      | assumption | apply wr_kept

theorem commit_kept {base s : State} {die off value : Nat} {checks : List (Bool × Refuse)} {eff : State → State}
    (h : Kept base s) (he : ∀ x, Kept base x → Kept base (eff x)) : Kept base (commit die off value checks eff s) := by
  unfold commit
  repeat' first | assumption | apply he | apply commitDone_kept | apply commitAt_kept | split

theorem pass_kept {base s : State} {d : Nat} (h : Kept base s) : Kept base (pass d s) :=
  h.trans ⟨rfl, Nat.le_add_right _ _, Nat.le_refl _, id, Nat.le_refl _, fun _ _ x => x, Nat.le_refl _,
    fun _ => Nat.le_refl _⟩

theorem passTicks_kept {base : State} (k : Nat) (s : State) (hb : Kept base s) : Kept base (passTicks k s) :=
  wr_kept _ _ _ _ (hb.clock _ (Nat.le_add_right _ _))

theorem passTo_kept {base : State} (t : Nat) (s : State) (hb : Kept base s) :
    Kept base (passTo t s) := by
  unfold passTo
  try dsimp only
  repeat' first
    | with_reducible
      first
      | assumption | apply passTicks_kept | apply pass_kept | apply Kept.ite

theorem passOsc_kept {base : State} (d : Nat) (s : State) (hb : Kept base s) : Kept base (passOsc d s) := by
  unfold passOsc
  split
  · exact (passTicks_kept _ _ hb).clock _ (Nat.le_refl _)
  · exact wr_kept _ _ _ _ (hb.clock _ (Nat.le_add_right _ _))

theorem passOscTo_kept {base : State} (t : Nat) (s : State) (hb : Kept base s) :
    Kept base (passOscTo t s) := by
  unfold passOscTo
  try dsimp only
  repeat' first
    | with_reducible
      first
      | assumption | apply passOsc_kept | apply Kept.ite

theorem setCtx_kept {base : State} (c : Nat) (v : CtxState) (s : State) (hb : Kept base s) :
    Kept base (setCtx c v s) := by
  unfold setCtx
  try dsimp only
  repeat' first
    | with_reducible
      first
      | assumption
    | fail_if_no_progress refine Kept.upd ?_ rfl rfl rfl rfl rfl rfl rfl rfl rfl

theorem modCtx_kept {base : State} (c : Nat) (f : CtxState → CtxState) (s : State) (hb : Kept base s) :
    Kept base (modCtx c f s) := by
  unfold modCtx
  try dsimp only
  repeat' first
    | with_reducible
      first
      | assumption | apply setCtx_kept

theorem modRing_kept {base : State} (c r : Nat) (f : Ring → Ring) (s : State) (hb : Kept base s) :
    Kept base (modRing c r f s) := by
  unfold modRing
  try dsimp only
  repeat' first
    | with_reducible
      first
      | assumption | apply modCtx_kept
    | fail_if_no_progress refine Kept.upd ?_ rfl rfl rfl rfl rfl rfl rfl rfl rfl | (intro _; intros; try dsimp only)

theorem modCourse_kept {base : State} (c : Nat) (f : CourseState → CourseState) (s : State) (hb : Kept base s) :
    Kept base (modCourse c f s) := by
  unfold modCourse
  try dsimp only
  repeat' first
    | with_reducible
      first
      | assumption
    | fail_if_no_progress refine Kept.upd ?_ rfl rfl rfl rfl rfl rfl rfl rfl rfl

theorem modBrick_kept {base : State} (b : Nat) (f : BrickState → BrickState) (s : State) (hb : Kept base s) :
    Kept base (modBrick b f s) := by
  unfold modBrick
  try dsimp only
  repeat' first
    | with_reducible
      first
      | assumption
    | fail_if_no_progress refine Kept.upd ?_ rfl rfl rfl rfl rfl rfl rfl rfl rfl

theorem refreshTest_kept {base : State} (s : State) (hb : Kept base s) :
    Kept base (refreshTest s) := by
  unfold refreshTest
  try dsimp only
  repeat' first
    | with_reducible
      first
      | assumption | apply wr_kept

theorem modStack_kept {base : State} (k : Nat) (f : StackState → StackState) (s : State) (hb : Kept base s) :
    Kept base (modStack k f s) := by
  unfold modStack
  try dsimp only
  repeat' first
    | with_reducible
      first
      | assumption
    | fail_if_no_progress refine Kept.upd ?_ rfl rfl rfl rfl rfl rfl rfl rfl rfl

end Sys2Proof.Machine
end

