-- ==== Sys2Proof/Laws/KeptAccess.lean ====
section
/-! SUPPORT. What the operations of Machine/Access.lean keep (`Kept`). -/

set_option linter.unusedTactic false
set_option linter.unreachableTactic false

namespace Sys2Proof.Machine

open Reg

theorem putByte_kept {base s : State} {phys : Nat} {b : Byte} (h : Kept base s) : Kept base (putByte phys b s) := by
  refine h.trans ⟨rfl, Nat.le_refl _, Nat.le_refl _, fun x => ?_, Nat.le_refl _, fun _ _ x => x, Nat.le_refl _,
    fun _ => Nat.le_refl _⟩
  simp only [MemState.wf, Bool.and_eq_true] at x ⊢
  exact ⟨awf_aset (fun _ => 0) s.mem.cells phys b x.1, x.2⟩

theorem putExt_kept {base s : State} {bus : Nat} {b : Byte} (h : Kept base s) : Kept base (putExt bus b s) := by
  refine h.trans ⟨rfl, Nat.le_refl _, Nat.le_refl _, fun x => ?_, Nat.le_refl _, fun _ _ x => x, Nat.le_refl _,
    fun _ => Nat.le_refl _⟩
  simp only [MemState.wf, Bool.and_eq_true] at x ⊢
  exact ⟨x.1, awf_aset Config.hostByte s.mem.ext bus b x.2⟩

theorem setLineKey_kept {base : State} (line key : Nat) (s : State) (hb : Kept base s) :
    Kept base (setLineKey line key s) := by
  unfold setLineKey
  try dsimp only
  repeat' first
    | with_reducible
      first
      | assumption
    | fail_if_no_progress refine Kept.upd ?_ rfl rfl rfl rfl rfl rfl rfl rfl rfl

theorem rekeyLine_kept {base : State} (line key : Nat) (s : State) (hb : Kept base s) :
    Kept base (rekeyLine line key s) := by
  unfold rekeyLine
  try dsimp only
  repeat' first
    | with_reducible
      first
      | assumption | apply setLineKey_kept | apply putByte_kept | apply Kept.ite | (apply Kept.iteSnd <;> dsimp only)
      | apply Kept.foldlSnd | apply Kept.foldlFst | apply Kept.foldl
    | (intro _; intros; try dsimp only)

theorem clearLine_kept {base : State} (line : Nat) (s : State) (hb : Kept base s) :
    Kept base (clearLine line s) := by
  unfold clearLine
  try dsimp only
  repeat' first
    | with_reducible
      first
      | assumption
    | fail_if_no_progress refine Kept.upd ?_ rfl rfl rfl rfl rfl rfl rfl rfl rfl

theorem putPhys_kept {base : State} (phys key : Nat) (data : List Nat) (s : State) (hb : Kept base s) :
    Kept base (putPhys phys key data s) := by
  unfold putPhys
  try dsimp only
  repeat' first
    | with_reducible
      first
      | assumption | apply rekeyLine_kept | apply putByte_kept | apply clearLine_kept | apply Kept.ite
      | (apply Kept.iteSnd <;> dsimp only) | apply Kept.foldlSnd | apply Kept.foldlFst | apply Kept.foldl
    | (intro _; intros; try dsimp only)

theorem drainOne_kept {base : State} (w : QWrite) (s : State) (hb : Kept base s) :
    Kept base (drainOne w s) := by
  unfold drainOne
  try dsimp only
  repeat' first
    | with_reducible
      first
      | assumption | apply putPhys_kept

theorem drainQueues_kept {base : State} (hit : QWrite → Bool) (s : State) (hb : Kept base s) :
    Kept base (drainQueues hit s) := by
  unfold drainQueues
  try dsimp only
  repeat' first
    | with_reducible
      first
      | assumption | apply drainOne_kept | apply Kept.foldl
    | fail_if_no_progress refine Kept.upd ?_ rfl rfl rfl rfl rfl rfl rfl rfl rfl | (intro _; intros; try dsimp only)

theorem drainOverlap_kept {base : State} (phys n : Nat) (s : State) (hb : Kept base s) :
    Kept base (drainOverlap phys n s) := by
  unfold drainOverlap
  try dsimp only
  repeat' first
    | with_reducible
      first
      | assumption | apply drainQueues_kept
    | (intro _; intros; try dsimp only)

theorem drainRange_kept {base : State} (a n : Nat) (s : State) (hb : Kept base s) :
    Kept base (drainRange a n s) := by
  unfold drainRange
  try dsimp only
  repeat' first
    | with_reducible
      first
      | assumption | apply drainOverlap_kept | apply Kept.ite | apply Kept.foldl
    | (intro _; intros; try dsimp only)

theorem zeroFrame_kept {base s : State} {frame key : Nat} (h : Kept base s) : Kept base (zeroFrame frame key s) := by
  refine h.trans ⟨rfl, Nat.le_refl _, Nat.le_refl _, fun x => ?_, Nat.le_refl _, fun _ _ x => x, Nat.le_refl _,
    fun _ => Nat.le_refl _⟩
  simp only [MemState.wf, Bool.and_eq_true] at x ⊢
  exact ⟨awf_aclear (fun _ => 0) s.mem.cells _ _ x.1, x.2⟩

theorem police_kept {base : State} (port k n : Nat) (s : State) (hb : Kept base s) :
    Kept base (police port k n s) := by
  unfold police
  try dsimp only
  repeat' first
    | with_reducible
      first
      | assumption | apply wr_kept | apply Kept.ite
    | fail_if_no_progress refine Kept.upd ?_ rfl rfl rfl rfl rfl rfl rfl rfl rfl

theorem policeRange_kept {base : State} (port a n : Nat) (s : State) (hb : Kept base s) :
    Kept base (policeRange port a n s) := by
  unfold policeRange
  try dsimp only
  repeat' first
    | with_reducible
      first
      | assumption | apply police_kept | apply Kept.foldl
    | (intro _; intros; try dsimp only)

theorem meetLink_kept {base : State} (stack pc : Nat) (s : State) (hb : Kept base s) :
    Kept base (meetLink stack pc s).2 := by
  unfold meetLink
  try dsimp only
  repeat' first
    | with_reducible
      first
      | assumption | apply incSat_kept | apply Kept.ite | (apply Kept.iteSnd <;> dsimp only)
    | fail_if_no_progress refine Kept.upd ?_ rfl rfl rfl rfl rfl rfl rfl rfl rfl | (split <;> try dsimp only)

theorem miscorrect_kept {base : State} (line : Nat) (s : State) (hb : Kept base s) :
    Kept base (miscorrect line s) := by
  unfold miscorrect
  try dsimp only
  repeat' first
    | with_reducible
      first
      | assumption | apply skipFresh_kept | apply putByte_kept | apply Kept.ite | (apply Kept.iteSnd <;> dsimp only)
      | (apply Kept.iteSnd2 <;> dsimp only) | (apply Kept.iteFst <;> dsimp only) | apply Kept.foldlSnd
      | apply Kept.foldlFst | apply Kept.foldl
    | fail_if_no_progress refine Kept.upd ?_ rfl rfl rfl rfl rfl rfl rfl rfl rfl | (split <;> try dsimp only)
    | (intro _; intros; try dsimp only)

theorem mended_kept {base : State} (line : Nat) (s : State) (hb : Kept base s) :
    Kept base (mended line s) := by
  unfold mended
  try dsimp only
  repeat' first
    | with_reducible
      first
      | assumption
    | fail_if_no_progress refine Kept.upd ?_ rfl rfl rfl rfl rfl rfl rfl rfl rfl

theorem meetCode_kept {base : State} (line : Nat) (s : State) (hb : Kept base s) :
    Kept base (meetCode line s).2 := by
  unfold meetCode
  try dsimp only
  repeat' first
    | with_reducible
      first
      | assumption | apply mended_kept | apply draw_kept | apply miscorrect_kept | apply Kept.ite
      | (apply Kept.iteSnd <;> dsimp only)
    | fail_if_no_progress refine Kept.upd ?_ rfl rfl rfl rfl rfl rfl rfl rfl rfl | (split <;> try dsimp only)

theorem meetAt_kept {base : State} (stack line : Nat) (reading : Bool) (s : State) (hb : Kept base s) :
    Kept base (meetAt stack line reading s).2 := by
  unfold meetAt
  try dsimp only
  repeat' first
    | with_reducible
      first
      | assumption | apply meetLink_kept | apply meetCode_kept | apply Kept.ite | (apply Kept.iteSnd <;> dsimp only)
    | fail_if_no_progress refine Kept.upd ?_ rfl rfl rfl rfl rfl rfl rfl rfl rfl | (split <;> try dsimp only)

theorem poisonLine_kept {base : State} (line : Nat) (s : State) (hb : Kept base s) :
    Kept base (poisonLine line s) := by
  unfold poisonLine
  try dsimp only
  repeat' first
    | with_reducible
      first
      | assumption
    | fail_if_no_progress refine Kept.upd ?_ rfl rfl rfl rfl rfl rfl rfl rfl rfl

theorem meetLine_kept {base : State} (a : Nat) (reading : Bool) (s : State) (hb : Kept base s) :
    Kept base (meetLine a reading s).2 := by
  unfold meetLine
  try dsimp only
  repeat' first
    | with_reducible
      first
      | assumption | apply drainOverlap_kept | apply meetAt_kept | apply poisonLine_kept | apply Kept.ite
      | (apply Kept.iteSnd <;> dsimp only) | (apply Kept.iteSnd2 <;> dsimp only) | (apply Kept.iteFst <;> dsimp only)
      | apply Kept.foldlSnd | apply Kept.foldlFst | apply Kept.foldl
    | fail_if_no_progress refine Kept.upd ?_ rfl rfl rfl rfl rfl rfl rfl rfl rfl | (split <;> try dsimp only)
    | (intro _; intros; try dsimp only)

theorem meetReads_kept {base : State} (l : List Nat) (s : State) (hb : Kept base s) : Kept base (meetReads l s).2 := by
  induction l generalizing s with
  | nil => exact hb
  | cons a r ih =>
    unfold meetReads
    dsimp only
    split
    · exact meetLine_kept _ _ _ hb
    · exact ih _ (meetLine_kept _ _ _ hb)

theorem meetWrites_kept {base : State} (a n : Nat) (l : List Nat) (s : State) (hb : Kept base s) :
    Kept base (meetWrites a n l s).2 := by
  induction l generalizing s with
  | nil => exact hb
  | cons x r ih =>
    unfold meetWrites
    dsimp only
    exact ih _ (meetLine_kept _ _ _ hb)

theorem befall_kept {base : State} (a : Nat) (u : MemUpset) (s : State) (hb : Kept base s) :
    Kept base (befall a u s) := by
  unfold befall
  try dsimp only
  repeat' first
    | with_reducible
      first
      | assumption | apply Kept.ite
    | fail_if_no_progress refine Kept.upd ?_ rfl rfl rfl rfl rfl rfl rfl rfl rfl | (split <;> try dsimp only)

theorem applyWrite_kept {base : State} (a : Nat) (data : List Nat) (s : State) (hb : Kept base s) :
    Kept base (applyWrite a data s) := by
  unfold applyWrite
  try dsimp only
  repeat' first
    | with_reducible
      first
      | assumption | apply putPhys_kept | apply drainOverlap_kept | apply putExt_kept | apply Kept.ite
      | (apply Kept.iteSnd <;> dsimp only) | apply Kept.foldlSnd | apply Kept.foldlFst | apply Kept.foldl
    | (intro _; intros; try dsimp only)

theorem meetWrite_kept {base : State} (a n : Nat) (s : State) (hb : Kept base s) :
    Kept base (meetWrite a n s).2 := by
  unfold meetWrite
  try dsimp only
  repeat' first
    | with_reducible
      first
      | assumption | apply meetWrites_kept | apply Kept.ite | (apply Kept.iteSnd <;> dsimp only)
    | (split <;> try dsimp only)

theorem writeMem_kept {base : State} (port ctx a : Nat) (data : List Nat) (s : State) (hb : Kept base s) :
    Kept base (writeMem port ctx a data s).2 := by
  unfold writeMem
  try dsimp only
  repeat' first
    | with_reducible
      first
      | assumption | apply meetWrite_kept | apply policeRange_kept | apply applyWrite_kept | apply Kept.ite
      | (apply Kept.iteSnd <;> dsimp only) | apply Kept.foldlSnd | apply Kept.foldlFst | apply Kept.foldl
    | (split <;> try dsimp only) | (intro _; intros; try dsimp only)

theorem writeMem'_kept {base : State} (port ctx a : Nat) (data : List Nat) (s : State) (hb : Kept base s) :
    Kept base (writeMem' port ctx a data s) := by
  unfold writeMem'
  try dsimp only
  repeat' first
    | with_reducible
      first
      | assumption | apply writeMem_kept | (apply Kept.iteSnd <;> dsimp only)

end Sys2Proof.Machine
end

