-- ==== Sys2Proof/Laws/KeptOperands.lean ====
section
/-! SUPPORT. What the operations of Machine/Operands.lean keep (`Kept`). -/

set_option linter.unusedTactic false
set_option linter.unreachableTactic false

namespace Sys2Proof.Machine

open Reg

theorem wrBed_kept {base : State} (brick a : Nat) (data : List Nat) (s : State) (hb : Kept base s) :
    Kept base (wrBed brick a data s) := by
  unfold wrBed
  try dsimp only
  repeat' first
    | with_reducible
      first
      | assumption
    | fail_if_no_progress refine Kept.upd ?_ rfl rfl rfl rfl rfl rfl rfl rfl rfl

theorem wrHod_kept {base : State} (course a : Nat) (data : List Nat) (s : State) (hb : Kept base s) :
    Kept base (wrHod course a data s) := by
  unfold wrHod
  try dsimp only
  repeat' first
    | with_reducible
      first
      | assumption
    | fail_if_no_progress refine Kept.upd ?_ rfl rfl rfl rfl rfl rfl rfl rfl rfl

theorem wrAccTile_kept {base : State} (brick tile : Nat) (l : List Nat) (s : State) (hb : Kept base s) :
    Kept base (wrAccTile brick tile l s) := by
  unfold wrAccTile
  try dsimp only
  repeat' first
    | with_reducible
      first
      | assumption | (apply Kept.iteSnd <;> dsimp only) | apply Kept.foldlSnd | apply Kept.foldlFst | apply Kept.foldl
    | fail_if_no_progress refine Kept.upd ?_ rfl rfl rfl rfl rfl rfl rfl rfl rfl | (intro _; intros; try dsimp only)

theorem zeroTile_kept {base : State} (brick tile : Nat) (s : State) (hb : Kept base s) :
    Kept base (zeroTile brick tile s) := by
  unfold zeroTile
  try dsimp only
  repeat' first
    | with_reducible
      first
      | assumption
    | fail_if_no_progress refine Kept.upd ?_ rfl rfl rfl rfl rfl rfl rfl rfl rfl

end Sys2Proof.Machine
end

