-- ==== Sys2Proof/Laws/KeptReport.lean ====
section
/-! SUPPORT. What the operations of Machine/Report.lean keep (`Kept`). -/

set_option linter.unusedTactic false
set_option linter.unreachableTactic false

namespace Sys2Proof.Machine

open Reg

theorem notify_kept {base : State} (ring vector : Nat) (s : State) (hb : Kept base s) :
    Kept base (notify ring vector s) := by
  unfold notify
  try dsimp only
  repeat' first
    | with_reducible
      first
      | assumption | apply send_kept | apply Kept.ite
    | fail_if_no_progress refine Kept.upd ?_ rfl rfl rfl rfl rfl rfl rfl rfl rfl

theorem sendPending_kept {base : State} (s : State) (hb : Kept base s) :
    Kept base (sendPending s) := by
  unfold sendPending
  try dsimp only
  repeat' first
    | with_reducible
      first
      | assumption | apply send_kept | apply Kept.foldl
    | fail_if_no_progress refine Kept.upd ?_ rfl rfl rfl rfl rfl rfl rfl rfl rfl | (intro _; intros; try dsimp only)

theorem devWrite_kept {base : State} (ev : List Nat) (s : State) (hb : Kept base s) :
    Kept base (devWrite ev s) := by
  unfold devWrite
  try dsimp only
  repeat' first
    | with_reducible
      first
      | assumption | apply incSat_kept | apply writeMem'_kept | apply notify_kept | apply wr_kept | apply Kept.ite
    | fail_if_no_progress refine Kept.upd ?_ rfl rfl rfl rfl rfl rfl rfl rfl rfl

theorem devEvent_kept {base : State} (ev : List Nat) (s : State) (hb : Kept base s) :
    Kept base (devEvent ev s) := by
  unfold devEvent
  try dsimp only
  repeat' first
    | with_reducible
      first
      | assumption | apply devWrite_kept | apply incSat_kept | apply Kept.ite
    | fail_if_no_progress refine Kept.upd ?_ rfl rfl rfl rfl rfl rfl rfl rfl rfl

theorem ctxEvent_kept {base : State} (c : Nat) (ev : List Nat) (s : State) (h : Kept base s) :
    Kept base (ctxEvent c ev s).2 := by
  unfold ctxEvent
  refine Kept.iteSnd ?_ (Kept.iteSnd ?_ ?_)
  · exact incSat_kept _ _ _ _ (setCtx_kept _ _ _ h)
  · exact writeMem_kept _ _ _ _ _ h
  · exact setCtx_kept _ _ _ (writeMem_kept _ _ _ _ _ h)

theorem forward_kept {base : State} (status die unit sev : Nat) (sealedRun : Bool) (s : State) (hb : Kept base s) :
    Kept base (forward status die unit sev sealedRun s) := by
  unfold forward
  try dsimp only
  repeat' first
    | with_reducible
      first
      | assumption | apply Kept.ite
    | fail_if_no_progress refine Kept.upd ?_ rfl rfl rfl rfl rfl rfl rfl rfl rfl

theorem eventRaw_kept {base : State} (status die ctx unit sev : Nat) (payload : List Nat) (s : State)
    (hb : Kept base s) :
    Kept base (eventRaw status die ctx unit sev payload s).2 := by
  unfold eventRaw
  try dsimp only
  repeat' first
    | with_reducible
      first
      | assumption | apply forward_kept | apply devEvent_kept | apply ctxEvent_kept | apply Kept.ite
      | (apply Kept.iteSnd <;> dsimp only)
    | (split <;> try dsimp only)

theorem echoRaw_kept {base : State} (c : Nat) (s : State) (hb : Kept base s) :
    Kept base (echoRaw c s).2 := by
  unfold echoRaw
  try dsimp only
  repeat' first
    | with_reducible
      first
      | assumption | apply writeMem_kept | (apply Kept.iteSnd <;> dsimp only)
    | (split <;> try dsimp only)

theorem stopRaw_kept {base : State} (c r cause resume : Nat) (s : State) (hb : Kept base s) :
    Kept base (stopRaw c r cause resume s).2 := by
  unfold stopRaw
  try dsimp only
  repeat' first
    | with_reducible
      first
      | assumption | apply wr_kept | apply modRing_kept | apply eventRaw_kept | (apply Kept.iteSnd <;> dsimp only)
    | fail_if_no_progress refine Kept.upd ?_ rfl rfl rfl rfl rfl rfl rfl rfl rfl | (split <;> try dsimp only)
    | (intro _; intros; try dsimp only)

theorem stopRings_kept {base : State} (c cause : Nat) (s : State) (hb : Kept base s) :
    Kept base (stopRings c cause s) := by
  unfold stopRings
  try dsimp only
  repeat' first
    | with_reducible
      first
      | assumption | apply stopRaw_kept | apply echoRaw_kept | apply Kept.ite | (apply Kept.iteSnd <;> dsimp only)
      | apply Kept.foldlSnd | apply Kept.foldlFst | apply Kept.foldl
    | (intro _; intros; try dsimp only)

theorem writeEcho_kept {base : State} (c : Nat) (s : State) (hb : Kept base s) :
    Kept base (writeEcho c s) := by
  unfold writeEcho
  try dsimp only
  repeat' first
    | with_reducible
      first
      | assumption | apply echoRaw_kept | apply stopRings_kept | apply Kept.ite | (apply Kept.iteSnd <;> dsimp only)

theorem stopRing_kept {base : State} (c r cause resume : Nat) (s : State) (hb : Kept base s) :
    Kept base (stopRing c r cause resume s) := by
  unfold stopRing
  try dsimp only
  repeat' first
    | with_reducible
      first
      | assumption | apply stopRaw_kept | apply stopRings_kept | apply writeEcho_kept | apply Kept.ite
      | (apply Kept.iteSnd <;> dsimp only)

theorem event_kept {base : State} (status die ctx unit sev : Nat) (payload : List Nat) (s : State) (hb : Kept base s) :
    Kept base (event status die ctx unit sev payload s) := by
  unfold event
  try dsimp only
  repeat' first
    | with_reducible
      first
      | assumption | apply eventRaw_kept | apply stopRings_kept | apply writeEcho_kept | apply Kept.ite
      | (apply Kept.iteSnd <;> dsimp only)

theorem finishDesc_kept {base : State} (c ring count : Nat) (raw : List Nat) (d : Done) (s : State) (hb : Kept base s) :
    Kept base (finishDesc c ring count raw d s) := by
  unfold finishDesc
  try dsimp only
  repeat' first
    | with_reducible
      first
      | assumption | apply modCtx_kept | apply writeMem_kept | apply stopRings_kept | apply notify_kept
      | apply writeEcho_kept | apply Kept.ite | (apply Kept.iteSnd <;> dsimp only)
    | fail_if_no_progress refine Kept.upd ?_ rfl rfl rfl rfl rfl rfl rfl rfl rfl | (intro _; intros; try dsimp only)

theorem setTie_kept {base : State} (t v : Nat) (s : State) (hb : Kept base s) :
    Kept base (setTie t v s) := by
  unfold setTie
  try dsimp only
  repeat' first
    | with_reducible
      first
      | assumption
    | fail_if_no_progress refine Kept.upd ?_ rfl rfl rfl rfl rfl rfl rfl rfl rfl

theorem evalWaits_kept {base : State} (t : Nat) (s : State) (hb : Kept base s) :
    Kept base (evalWaits t s) := by
  unfold evalWaits
  try dsimp only
  repeat' first
    | with_reducible
      first
      | assumption | apply Kept.ite
    | fail_if_no_progress refine Kept.upd ?_ rfl rfl rfl rfl rfl rfl rfl rfl rfl | (intro _; intros; try dsimp only)

theorem tieApply_kept {base : State} (op : TieOp) (s : State) (hb : Kept base s) :
    Kept base (tieApply op s) := by
  unfold tieApply
  try dsimp only
  repeat' first
    | with_reducible
      first
      | assumption | apply evalWaits_kept | apply setTie_kept | apply event_kept | apply incSat_kept | apply Kept.ite
    | fail_if_no_progress refine Kept.upd ?_ rfl rfl rfl rfl rfl rfl rfl rfl rfl | (split <;> try dsimp only)

theorem tieDescDone_kept {base : State} (op : TieOp) (s : State) (hb : Kept base s) :
    Kept base (tieDescDone op s) := by
  unfold tieDescDone
  try dsimp only
  repeat' first
    | with_reducible
      first
      | assumption | apply finishDesc_kept
    | fail_if_no_progress refine Kept.upd ?_ rfl rfl rfl rfl rfl rfl rfl rfl rfl | (split <;> try dsimp only)
    | (intro _; intros; try dsimp only)

theorem tieDeliver_kept {base : State} (home sender : Nat) (s : State) (hb : Kept base s) :
    Kept base (tieDeliver home sender s) := by
  unfold tieDeliver
  try dsimp only
  repeat' first
    | with_reducible
      first
      | assumption | apply tieDescDone_kept | apply tieApply_kept
    | fail_if_no_progress refine Kept.upd ?_ rfl rfl rfl rfl rfl rfl rfl rfl rfl | (split <;> try dsimp only)

theorem tieFlush_kept {base : State} (home sender : Nat) (s : State) (hb : Kept base s) :
    Kept base (tieFlush home sender s) := by
  unfold tieFlush
  try dsimp only
  repeat' first
    | with_reducible
      first
      | assumption | apply tieDeliver_kept | apply Kept.foldl
    | (intro _; intros; try dsimp only)

theorem signalNow_kept {base : State} (sender : Agent) (ctx tie value : Nat) (s : State) (hb : Kept base s) :
    Kept base (signalNow sender ctx tie value s) := by
  unfold signalNow
  try dsimp only
  repeat' first
    | with_reducible
      first
      | assumption | apply tieApply_kept | apply tieFlush_kept | apply Kept.ite

theorem modLaunch_kept {base : State} (id : Nat) (f : Launch → Launch) (s : State) (hb : Kept base s) :
    Kept base (modLaunch id f s) := by
  unfold modLaunch
  try dsimp only
  repeat' first
    | with_reducible
      first
      | assumption | apply Kept.ite
    | fail_if_no_progress refine Kept.upd ?_ rfl rfl rfl rfl rfl rfl rfl rfl rfl | (intro _; intros; try dsimp only)

theorem modInst_kept {base : State} (id course : Nat) (f : Inst → Inst) (s : State) (hb : Kept base s) :
    Kept base (modInst id course f s) := by
  unfold modInst
  try dsimp only
  repeat' first
    | with_reducible
      first
      | assumption | apply modLaunch_kept | apply Kept.ite
    | fail_if_no_progress refine Kept.upd ?_ rfl rfl rfl rfl rfl rfl rfl rfl rfl | (intro _; intros; try dsimp only)

theorem refreshCourse_kept {base : State} (c : Nat) (s : State) (hb : Kept base s) :
    Kept base (refreshCourse c s) := by
  unfold refreshCourse
  try dsimp only
  repeat' first
    | with_reducible
      first
      | assumption | apply wr_kept | apply wrB_kept | apply Kept.ite
    | (intro _; intros; try dsimp only)

theorem restartWdog_kept {base : State} (c : Nat) (s : State) (hb : Kept base s) :
    Kept base (restartWdog c s) := by
  unfold restartWdog
  try dsimp only
  repeat' first
    | with_reducible
      first
      | assumption | apply modCourse_kept | apply Kept.ite
    | fail_if_no_progress refine Kept.upd ?_ rfl rfl rfl rfl rfl rfl rfl rfl rfl | (intro _; intros; try dsimp only)

theorem endLaunch_kept {base : State} (l : Launch) (d : Done) (s : State) (hb : Kept base s) :
    Kept base (endLaunch l d s) := by
  unfold endLaunch
  try dsimp only
  repeat' first
    | with_reducible
      first
      | assumption | apply refreshCourse_kept | apply modCourse_kept | apply restartWdog_kept | apply finishDesc_kept
      | apply Kept.foldl
    | fail_if_no_progress refine Kept.upd ?_ rfl rfl rfl rfl rfl rfl rfl rfl rfl | (split <;> try dsimp only)
    | (intro _; intros; try dsimp only)

theorem completeLaunch_kept {base : State} (l : Launch) (s : State) (hb : Kept base s) :
    Kept base (completeLaunch l s) := by
  unfold completeLaunch
  try dsimp only
  repeat' first
    | with_reducible
      first
      | assumption | apply endLaunch_kept | apply signalNow_kept | apply event_kept | apply Kept.ite
    | fail_if_no_progress refine Kept.upd ?_ rfl rfl rfl rfl rfl rfl rfl rfl rfl

theorem ifReached_kept {base : State} (die : Nat) (act : State → State) (s : State)
    (hact : ∀ z0, Kept base z0 → Kept base (act z0)) (hb : Kept base s) :
    Kept base (ifReached die act s) := by
  unfold ifReached
  try dsimp only
  repeat' first
    | with_reducible
      first
      | assumption | apply hact | apply Kept.ite
    | fail_if_no_progress refine Kept.upd ?_ rfl rfl rfl rfl rfl rfl rfl rfl rfl | (intro _; intros; try dsimp only)

theorem finishWork_kept {base : State} (c ring count : Nat) (raw : List Nat) (d : Done) (s : State) (hb : Kept base s) :
    Kept base (finishWork c ring count raw d s) := by
  unfold finishWork
  try dsimp only
  repeat' first
    | with_reducible
      first
      | assumption | apply finishDesc_kept | apply signalNow_kept | apply event_kept | apply Kept.ite
    | fail_if_no_progress refine Kept.upd ?_ rfl rfl rfl rfl rfl rfl rfl rfl rfl

theorem stopLaunch_kept {base : State} (id course status : Nat) (s : State) (hb : Kept base s) :
    Kept base (stopLaunch id course status s) := by
  unfold stopLaunch
  try dsimp only
  repeat' first
    | with_reducible
      first
      | assumption | apply endLaunch_kept
    | fail_if_no_progress refine Kept.upd ?_ rfl rfl rfl rfl rfl rfl rfl rfl rfl | (split <;> try dsimp only)

theorem endDescs_kept {base : State} (c status : Nat) (s : State) (hb : Kept base s) :
    Kept base (endDescs c status s) := by
  unfold endDescs
  try dsimp only
  repeat' first
    | with_reducible
      first
      | assumption | apply finishDesc_kept | apply Kept.foldl
    | fail_if_no_progress refine Kept.upd ?_ rfl rfl rfl rfl rfl rfl rfl rfl rfl | (intro _; intros; try dsimp only)

theorem releaseHandles_kept {base : State} (c : Nat) (s : State) (hb : Kept base s) :
    Kept base (releaseHandles c s) := by
  unfold releaseHandles
  try dsimp only
  repeat' first
    | with_reducible
      first
      | assumption | apply Kept.ite | (apply Kept.iteSnd <;> dsimp only)
    | fail_if_no_progress refine Kept.upd ?_ rfl rfl rfl rfl rfl rfl rfl rfl rfl | (intro _; intros; try dsimp only)

theorem noteRun_kept {base : State} (j : SieveJob) (s : State) (hb : Kept base s) :
    Kept base (noteRun j s) := by
  unfold noteRun
  try dsimp only
  repeat' first
    | with_reducible
      first
      | assumption | apply wr_kept | apply incSat_kept
    | (split <;> try dsimp only)

theorem dropSieve_kept {base : State} (c : Nat) (s : State) (hb : Kept base s) :
    Kept base (dropSieve c s) := by
  unfold dropSieve
  try dsimp only
  repeat' first
    | with_reducible
      first
      | assumption | apply noteRun_kept | apply Kept.foldl
    | fail_if_no_progress refine Kept.upd ?_ rfl rfl rfl rfl rfl rfl rfl rfl rfl | (intro _; intros; try dsimp only)

theorem dropInput_kept {base : State} (c : Nat) (s : State) (hb : Kept base s) :
    Kept base (dropInput c s) := by
  unfold dropInput
  try dsimp only
  repeat' first
    | with_reducible
      first
      | assumption | apply wrB_kept | apply Kept.ite | (apply Kept.iteSnd <;> dsimp only) | apply Kept.foldlSnd
      | apply Kept.foldlFst | apply Kept.foldl
    | fail_if_no_progress refine Kept.upd ?_ rfl rfl rfl rfl rfl rfl rfl rfl rfl | (split <;> try dsimp only)
    | (intro _; intros; try dsimp only)

theorem signalFrom_kept {base : State} (index port ctx tie value : Nat) (s : State) (hb : Kept base s) :
    Kept base (signalFrom index port ctx tie value s) := by
  unfold signalFrom
  try dsimp only
  repeat' first
    | with_reducible
      first
      | assumption | apply signalNow_kept | apply event_kept | apply Kept.ite

theorem withdraw_kept {base : State} (index : Nat) (s : State) (hb : Kept base s) :
    Kept base (withdraw index s) := by
  unfold withdraw
  try dsimp only
  repeat' first
    | with_reducible
      first
      | assumption
    | fail_if_no_progress refine Kept.upd ?_ rfl rfl rfl rfl rfl rfl rfl rfl rfl | (split <;> try dsimp only)
    | (intro _; intros; try dsimp only)

theorem modOvQueue_kept {base : State} (c : Nat) (f : OvQueue → OvQueue) (s : State) (hb : Kept base s) :
    Kept base (modOvQueue c f s) := by
  unfold modOvQueue
  try dsimp only
  repeat' first
    | with_reducible
      first
      | assumption
    | fail_if_no_progress refine Kept.upd ?_ rfl rfl rfl rfl rfl rfl rfl rfl rfl

theorem endTransfer_kept {base : State} (c st : Nat) (s : State) (hb : Kept base s) :
    Kept base (endTransfer c st s) := by
  unfold endTransfer
  try dsimp only
  repeat' first
    | with_reducible
      first
      | assumption | apply writeMem_kept | apply withdraw_kept | apply modOvQueue_kept | apply signalFrom_kept
      | apply Kept.ite | (apply Kept.iteSnd <;> dsimp only)
    | fail_if_no_progress refine Kept.upd ?_ rfl rfl rfl rfl rfl rfl rfl rfl rfl | (split <;> try dsimp only)
    | (intro _; intros; try dsimp only)

theorem dropOuvur_kept {base : State} (c : Nat) (s : State) (hb : Kept base s) :
    Kept base (dropOuvur c s) := by
  unfold dropOuvur
  try dsimp only
  repeat' first
    | with_reducible
      first
      | assumption | apply endTransfer_kept | apply wrCom_kept
    | fail_if_no_progress refine Kept.upd ?_ rfl rfl rfl rfl rfl rfl rfl rfl rfl | (intro _; intros; try dsimp only)

theorem haltMer_kept {base : State} (keepTracks : Bool) (s : State) (hb : Kept base s) :
    Kept base (haltMer keepTracks s) := by
  unfold haltMer
  try dsimp only
  repeat' first
    | with_reducible
      first
      | assumption | apply install_kept | apply wrB_kept | apply Kept.ite
    | fail_if_no_progress refine Kept.upd ?_ rfl rfl rfl rfl rfl rfl rfl rfl rfl

theorem dropMer_kept {base : State} (c : Nat) (s : State) (hb : Kept base s) :
    Kept base (dropMer c s) := by
  unfold dropMer
  try dsimp only
  repeat' first
    | with_reducible
      first
      | assumption | apply haltMer_kept | apply Kept.ite

theorem refreshSieve_kept {base : State} (s : State) (hb : Kept base s) :
    Kept base (refreshSieve s) := by
  unfold refreshSieve
  try dsimp only
  repeat' first
    | with_reducible
      first
      | assumption | apply wr_kept | apply wrB_kept

theorem teardown_kept {base : State} (c cause : Nat) (causing : List (Nat × Nat × Nat)) (s : State) (hb : Kept base s) :
    Kept base (teardown c cause causing s) := by
  unfold teardown
  try dsimp only
  repeat' first
    | with_reducible
      first
      | assumption | apply wr_kept | apply endLaunch_kept | apply endDescs_kept | apply dropOuvur_kept
      | apply dropMer_kept | apply dropInput_kept | apply refreshSieve_kept | apply dropSieve_kept
      | apply releaseHandles_kept | apply wrB_kept | apply modCourse_kept | apply modCtx_kept | apply Kept.ite
      | (apply Kept.iteSnd <;> dsimp only) | apply Kept.foldlSnd | apply Kept.foldlFst | apply Kept.foldl
    | fail_if_no_progress refine Kept.upd ?_ rfl rfl rfl rfl rfl rfl rfl rfl rfl | (split <;> try dsimp only)
    | (intro _; intros; try dsimp only)

theorem markSlot_kept {base : State} (slot : Nat) (s : State) (hb : Kept base s) :
    Kept base (markSlot slot s) := by
  unfold markSlot
  try dsimp only
  repeat' first
    | with_reducible
      first
      | assumption
    | fail_if_no_progress refine Kept.upd ?_ rfl rfl rfl rfl rfl rfl rfl rfl rfl

theorem corrected_kept {base : State} (a : Nat) (s : State) (hb : Kept base s) :
    Kept base (corrected a s) := by
  unfold corrected
  try dsimp only
  repeat' first
    | with_reducible
      first
      | assumption | apply incWrap_kept | apply incSat_kept | apply event_kept | apply Kept.ite
      | (apply Kept.iteSnd <;> dsimp only) | (apply Kept.iteSnd2 <;> dsimp only) | (apply Kept.iteFst <;> dsimp only)
      | apply Kept.foldlSnd | apply Kept.foldlFst | apply Kept.foldl
    | fail_if_no_progress refine Kept.upd ?_ rfl rfl rfl rfl rfl rfl rfl rfl rfl | (split <;> try dsimp only)
    | (intro _; intros; try dsimp only)

theorem uncorrectable_kept {base : State} (a : Nat) (was scrub : Bool) (causing : List (Nat × Nat × Nat))
    (s : State) (hb : Kept base s) :
    Kept base (uncorrectable a was scrub causing s) := by
  unfold uncorrectable
  try dsimp only
  repeat' first
    | with_reducible
      first
      | assumption | apply wr_kept | apply incSat_kept | apply poisonLine_kept | apply teardown_kept
      | apply event_kept | apply markSlot_kept | apply Kept.ite

theorem report_kept {base : State} (scrub : Bool) (causing : List (Nat × Nat × Nat)) (s : State) (f : Nat × Nat)
    (hb : Kept base s) :
    Kept base (report scrub causing s f) := by
  unfold report
  try dsimp only
  repeat' first
    | with_reducible
      first
      | assumption | apply event_kept | apply corrected_kept | apply uncorrectable_kept
      | (apply Kept.iteSnd <;> dsimp only)
    | (split <;> try dsimp only)

theorem settleFound_kept {base : State} (scrub : Bool) (causing : List (Nat × Nat × Nat)) (s : State)
    (hb : Kept base s) :
    Kept base (settleFound scrub causing s) := by
  unfold settleFound
  try dsimp only
  repeat' first
    | with_reducible
      first
      | assumption | apply report_kept | apply Kept.foldl
    | fail_if_no_progress refine Kept.upd ?_ rfl rfl rfl rfl rfl rfl rfl rfl rfl | (intro _; intros; try dsimp only)

theorem readMet_kept {base : State} (port ctx a n : Nat) (causing : List (Nat × Nat × Nat)) (s : State)
    (hb : Kept base s) :
    Kept base (readMet port ctx a n causing s).2.2 := by
  unfold readMet
  try dsimp only
  repeat' first
    | with_reducible
      first
      | assumption | apply meetReads_kept | apply settleFound_kept | apply event_kept
      | (apply Kept.iteSnd <;> dsimp only) | (apply Kept.iteSnd2 <;> dsimp only)
    | (split <;> try dsimp only)

theorem readMem_kept {base : State} (port ctx a n : Nat) (causing : List (Nat × Nat × Nat)) (s : State)
    (hb : Kept base s) :
    Kept base (readMem port ctx a n causing s).2.2 := by
  unfold readMem
  try dsimp only
  repeat' first
    | with_reducible
      first
      | assumption | apply policeRange_kept | apply drainRange_kept | apply readMet_kept | apply Kept.ite
      | (apply Kept.iteSnd <;> dsimp only) | (apply Kept.iteSnd2 <;> dsimp only)
    | fail_if_no_progress refine Kept.upd ?_ rfl rfl rfl rfl rfl rfl rfl rfl rfl | (split <;> try dsimp only)
    | (intro _; intros; try dsimp only)

theorem faultInst_kept {base : State} (id course status die unit : Nat) (payload : List Nat) (tears : Bool)
    (s : State) (hb : Kept base s) :
    Kept base (faultInst id course status die unit payload tears s) := by
  unfold faultInst
  try dsimp only
  repeat' first
    | with_reducible
      first
      | assumption | apply event_kept | apply teardown_kept | apply stopLaunch_kept | apply Kept.ite
    | (split <;> try dsimp only)

end Sys2Proof.Machine
end

