-- ==== Sys2Proof/Laws/KeptFabric.lean ====
section
/-! SUPPORT. What the operations of Machine/Fabric.lean keep (`Kept`). -/

set_option linter.unusedTactic false
set_option linter.unreachableTactic false

namespace Sys2Proof.Machine

open Reg

theorem settleRefusal_kept {base : State} (id : Nat) (s : State) (hb : Kept base s) :
    Kept base (settleRefusal id s) := by
  unfold settleRefusal
  try dsimp only
  repeat' first
    | with_reducible
      first
      | assumption | apply modLaunch_kept | apply endLaunch_kept | apply Kept.ite
    | fail_if_no_progress refine Kept.upd ?_ rfl rfl rfl rfl rfl rfl rfl rfl rfl | (split <;> try dsimp only)
    | (intro _; intros; try dsimp only)

theorem refuseInst_kept {base : State} (id c status : Nat) (s : State) (hb : Kept base s) :
    Kept base (refuseInst id c status s) := by
  unfold refuseInst
  try dsimp only
  repeat' first
    | with_reducible
      first
      | assumption | apply settleRefusal_kept | apply incSat_kept | apply modInst_kept
    | fail_if_no_progress refine Kept.upd ?_ rfl rfl rfl rfl rfl rfl rfl rfl rfl | (intro _; intros; try dsimp only)

theorem beginStage_kept {base : State} (id c : Nat) (p : Place) (s : State) (hb : Kept base s) :
    Kept base (beginStage id c p s) := by
  unfold beginStage
  try dsimp only
  repeat' first
    | with_reducible
      first
      | assumption | apply incWrap_kept | apply modInst_kept | apply modCourse_kept | apply Kept.ite
    | fail_if_no_progress refine Kept.upd ?_ rfl rfl rfl rfl rfl rfl rfl rfl rfl | (intro _; intros; try dsimp only)

theorem settleAgain_kept {base : State} (id : Nat) (s : State) (hb : Kept base s) :
    Kept base (settleAgain id s) := by
  unfold settleAgain
  try dsimp only
  repeat' first
    | with_reducible
      first
      | assumption | apply settleRefusal_kept | apply Kept.ite
    | (split <;> try dsimp only) | (intro _; intros; try dsimp only)

theorem tryStage_kept {base : State} (l : Launch) (c : Nat) (s : State) (hb : Kept base s) :
    Kept base (tryStage l c s) := by
  unfold tryStage
  try dsimp only
  repeat' first
    | with_reducible
      first
      | assumption | apply refuseInst_kept | apply settleAgain_kept | apply beginStage_kept | apply modInst_kept
      | apply Kept.ite
    | fail_if_no_progress refine Kept.upd ?_ rfl rfl rfl rfl rfl rfl rfl rfl rfl | (split <;> try dsimp only)
    | (intro _; intros; try dsimp only)

theorem restage_kept {base : State} (b : Nat) (s : State) (x : Launch × Inst) (hb : Kept base s) :
    Kept base (restage b s x) := by
  unfold restage
  try dsimp only
  repeat' first
    | with_reducible
      first
      | assumption | apply modInst_kept | apply tryStage_kept | apply Kept.ite | (apply Kept.iteSnd <;> dsimp only)
    | fail_if_no_progress refine Kept.upd ?_ rfl rfl rfl rfl rfl rfl rfl rfl rfl | (split <;> try dsimp only)
    | (intro _; intros; try dsimp only)

theorem fenceBrick_kept {base : State} (b : Nat) (strikes : Bool) (s : State) (hb : Kept base s) :
    Kept base (fenceBrick b strikes s) := by
  unfold fenceBrick
  try dsimp only
  repeat' first
    | with_reducible
      first
      | assumption | apply wr_kept | apply modBrick_kept | apply event_kept | apply restage_kept | apply wrB_kept
      | apply Kept.ite | apply Kept.foldl
    | fail_if_no_progress refine Kept.upd ?_ rfl rfl rfl rfl rfl rfl rfl rfl rfl | (intro _; intros; try dsimp only)

theorem strike_kept {base : State} (b ctx cause : Nat) (s : State) (hb : Kept base s) :
    Kept base (strike b ctx cause s) := by
  unfold strike
  try dsimp only
  repeat' first
    | with_reducible
      first
      | assumption | apply modBrick_kept | apply incSat_kept | apply incWrap_kept | apply event_kept
      | apply fenceBrick_kept | apply Kept.ite
    | fail_if_no_progress refine Kept.upd ?_ rfl rfl rfl rfl rfl rfl rfl rfl rfl | (split <;> try dsimp only)
    | (intro _; intros; try dsimp only)

theorem fenceLink_kept {base : State} (c link : Nat) (s : State) (hb : Kept base s) :
    Kept base (fenceLink c link s) := by
  unfold fenceLink
  try dsimp only
  repeat' first
    | with_reducible
      first
      | assumption | apply event_kept | apply wr_kept | apply Kept.ite

theorem tryPark_kept {base : State} (id c : Nat) (s : State) (hb : Kept base s) :
    Kept base (tryPark id c s) := by
  unfold tryPark
  try dsimp only
  repeat' first
    | with_reducible
      first
      | assumption | apply refreshCourse_kept | apply restartWdog_kept | apply modInst_kept | apply Kept.ite
    | fail_if_no_progress refine Kept.upd ?_ rfl rfl rfl rfl rfl rfl rfl rfl rfl | (split <;> try dsimp only)
    | (intro _; intros; try dsimp only)

theorem withdrawWaits_kept {base : State} (id c : Nat) (s : State) (hb : Kept base s) :
    Kept base (withdrawWaits id c s) := by
  unfold withdrawWaits
  try dsimp only
  repeat' first
    | with_reducible
      first
      | assumption | apply modInst_kept | apply Kept.ite
    | fail_if_no_progress refine Kept.upd ?_ rfl rfl rfl rfl rfl rfl rfl rfl rfl | (split <;> try dsimp only)
    | (intro _; intros; try dsimp only)

theorem requestStop_kept {base : State} (c : Nat) (s : State) (hb : Kept base s) :
    Kept base (requestStop c s) := by
  unfold requestStop
  try dsimp only
  repeat' first
    | with_reducible
      first
      | assumption | apply tryPark_kept | apply withdrawWaits_kept | apply Kept.ite
      | (apply Kept.iteSnd <;> dsimp only) | apply Kept.foldlSnd | apply Kept.foldlFst | apply Kept.foldl
    | (intro _; intros; try dsimp only)

end Sys2Proof.Machine
end

