-- ==== Sys2Proof/Laws/KeptRole.lean ====
section
/-! SUPPORT. What the operations of Machine/Role.lean keep (`Kept`). -/

set_option linter.unusedTactic false
set_option linter.unreachableTactic false

namespace Sys2Proof.Machine

open Reg

theorem setRole_kept {base : State} (x : Site) (f : Role → Role) (s : State) (hb : Kept base s) :
    Kept base (setRole x f s) := by
  unfold setRole
  try dsimp only
  repeat' first
    | with_reducible
      first
      | assumption | apply modInst_kept
    | fail_if_no_progress refine Kept.upd ?_ rfl rfl rfl rfl rfl rfl rfl rfl rfl | (intro _; intros; try dsimp only)

theorem addCycles_kept {base : State} (x : Site) (n : Nat) (s : State) (hb : Kept base s) :
    Kept base (addCycles x n s) := by
  unfold addCycles
  try dsimp only
  repeat' first
    | with_reducible
      first
      | assumption | apply modInst_kept
    | fail_if_no_progress refine Kept.upd ?_ rfl rfl rfl rfl rfl rfl rfl rfl rfl | (intro _; intros; try dsimp only)

theorem noteArith_kept {base : State} (x : Site) (fl : Nat) (s : State) (hb : Kept base s) :
    Kept base (noteArith x fl s) := by
  unfold noteArith
  try dsimp only
  repeat' first
    | with_reducible
      first
      | assumption | apply modInst_kept
    | fail_if_no_progress refine Kept.upd ?_ rfl rfl rfl rfl rfl rfl rfl rfl rfl | (intro _; intros; try dsimp only)

theorem goOn_kept {base : State} (x : Site) (s : State) (hb : Kept base s) :
    Kept base (goOn x s) := by
  unfold goOn
  try dsimp only
  repeat' first
    | with_reducible
      first
      | assumption | apply setRole_kept
    | (intro _; intros; try dsimp only)

theorem brickFault_kept {base : State} (x : Site) (status : Nat) (payload : List Nat) (tears : Bool) (s : State)
    (hb : Kept base s) :
    Kept base (brickFault x status payload tears s) := by
  unfold brickFault
  try dsimp only
  repeat' first
    | with_reducible
      first
      | assumption | apply faultInst_kept

theorem courseFault_kept {base : State} (x : Site) (status : Nat) (payload : List Nat) (tears : Bool) (s : State)
    (hb : Kept base s) :
    Kept base (courseFault x status payload tears s) := by
  unfold courseFault
  try dsimp only
  repeat' first
    | with_reducible
      first
      | assumption | apply faultInst_kept

theorem boundsFault_kept {base : State} (x : Site) (s : State) (hb : Kept base s) :
    Kept base (boundsFault x s) := by
  unfold boundsFault
  try dsimp only
  repeat' first
    | with_reducible
      first
      | assumption | apply brickFault_kept

theorem bedFault_kept {base : State} (x : Site) (brick a : Nat) (s : State) (hb : Kept base s) :
    Kept base (bedFault x brick a s) := by
  unfold bedFault
  try dsimp only
  repeat' first
    | with_reducible
      first
      | assumption | apply faultInst_kept | apply fenceBrick_kept

theorem withUpset_kept {base : State} (x : Site) (u : Upset) (k : State → State) (s : State)
    (hk : ∀ z0, Kept base z0 → Kept base (k z0)) (hb : Kept base s) :
    Kept base (withUpset x u k s) := by
  unfold withUpset
  try dsimp only
  repeat' first
    | with_reducible
      first
      | assumption | apply incWrap_kept | apply strike_kept | apply brickFault_kept | apply courseFault_kept
      | apply bedFault_kept | apply faultInst_kept | apply hk | apply Kept.ite
    | (split <;> try dsimp only) | (intro _; intros; try dsimp only)

theorem wrRun_kept {base : State} (brick : Nat) (lines : List Int) (off : Nat) (data : List Nat) (s : State)
    (hb : Kept base s) :
    Kept base (wrRun brick lines off data s) := by
  unfold wrRun
  try dsimp only
  repeat' first
    | with_reducible
      first
      | assumption | apply wrBed_kept | (apply Kept.iteSnd <;> dsimp only) | apply Kept.foldlSnd | apply Kept.foldlFst
      | apply Kept.foldl
    | (intro _; intros; try dsimp only)

end Sys2Proof.Machine
end

