-- ==== Sys2Proof/Laws/KeptMac.lean ====
section
/-! SUPPORT. What the operations of Machine/Mac.lean keep (`Kept`). -/

set_option linter.unusedTactic false
set_option linter.unreachableTactic false

namespace Sys2Proof.Machine

open Reg

theorem foldBlocks_kept {base : State} (j : MmaJob) (x : Site) (lo hi : Nat) (s : State) (hb : Kept base s) :
    Kept base (foldBlocks j x lo hi s) := by
  unfold foldBlocks
  try dsimp only
  repeat' first
    | with_reducible
      first
      | assumption | apply addCycles_kept | apply noteArith_kept | apply wrAccTile_kept
      | (apply Kept.iteSnd <;> dsimp only) | apply Kept.foldlSnd | apply Kept.foldlFst | apply Kept.foldl
    | (intro _; intros; try dsimp only)

theorem quoinEnd_kept {base : State} (j : MmaJob) (x : Site) (s : State) (hb : Kept base s) :
    Kept base (quoinEnd j x s) := by
  unfold quoinEnd
  try dsimp only
  repeat' first
    | with_reducible
      first
      | assumption | apply addCycles_kept | apply noteArith_kept | apply wrAccTile_kept
      | (apply Kept.iteSnd <;> dsimp only) | apply Kept.foldlSnd | apply Kept.foldlFst | apply Kept.foldl
    | (intro _; intros; try dsimp only)

theorem mmaFinish_kept {base : State} (j : MmaJob) (x : Site) (lo : Nat) (s : State) (hb : Kept base s) :
    Kept base (mmaFinish j x lo s) := by
  unfold mmaFinish
  try dsimp only
  repeat' first
    | with_reducible
      first
      | assumption | apply foldBlocks_kept | apply goOn_kept | apply quoinEnd_kept | apply boundsFault_kept
      | apply Kept.ite

theorem mmaStall_kept {base : State} (j : MmaJob) (x : Site) (lo block row col : Nat) (off : Int) (s : State)
    (hb : Kept base s) :
    Kept base (mmaStall j x lo block row col off s) := by
  unfold mmaStall
  try dsimp only
  repeat' first
    | with_reducible
      first
      | assumption | apply foldBlocks_kept | apply incWrap_kept | apply brickFault_kept | apply noteArith_kept
      | apply setRole_kept | apply modBrick_kept | (apply Kept.iteSnd <;> dsimp only)
    | fail_if_no_progress refine Kept.upd ?_ rfl rfl rfl rfl rfl rfl rfl rfl rfl | (split <;> try dsimp only)
    | (intro _; intros; try dsimp only)

theorem mmaFrom_kept {base : State} (j : MmaJob) (x : Site) (lo : Nat) (u : Upset) (s : State) (hb : Kept base s) :
    Kept base (mmaFrom j x lo u s) := by
  unfold mmaFrom
  try dsimp only
  repeat' first
    | with_reducible
      first
      | assumption | apply brickFault_kept | apply foldBlocks_kept | apply mmaFinish_kept | apply mmaStall_kept
      | apply Kept.ite | (apply Kept.iteSnd <;> dsimp only)
    | (split <;> try dsimp only) | (intro _; intros; try dsimp only)

theorem mmaRun_kept {base : State} (x : Site) (u : Upset) (s : State) (hb : Kept base s) :
    Kept base (mmaRun x u s) := by
  unfold mmaRun
  try dsimp only
  repeat' first
    | with_reducible
      first
      | assumption | apply setRole_kept | apply mmaFrom_kept | apply zeroTile_kept | apply Kept.ite
    | fail_if_no_progress refine Kept.upd ?_ rfl rfl rfl rfl rfl rfl rfl rfl rfl | (intro _; intros; try dsimp only)

end Sys2Proof.Machine
end

