-- ==== Sys2Proof/Laws/KeptScale.lean ====
section
/-! SUPPORT. What the operations of Machine/Scale.lean keep (`Kept`). -/

set_option linter.unusedTactic false
set_option linter.unreachableTactic false

namespace Sys2Proof.Machine

open Reg

theorem countRow_kept {base : State} (x : Site) (r : RowResult) (s : State) (hb : Kept base s) :
    Kept base (countRow x r s) := by
  unfold countRow
  try dsimp only
  repeat' first
    | with_reducible
      first
      | assumption | apply incSat_kept | apply modInst_kept | apply Kept.ite
    | fail_if_no_progress refine Kept.upd ?_ rfl rfl rfl rfl rfl rfl rfl rfl rfl | (intro _; intros; try dsimp only)

theorem scaleRow_kept {base : State} (x : Site) (j : ScaleJob) (a : State × List Nat × Option (Nat × Nat)) (r : Nat)
    (hb : Kept base a.1) : Kept base (scaleRow x j a r).1 := by
  unfold scaleRow
  split
  · exact hb
  · exact Kept.iteFst hb (Kept.iteFst hb (countRow_kept _ _ _ (wrBed_kept _ _ _ _ (wrRun_kept _ _ _ _ _ hb))))

theorem quantRun_kept {base : State} (x : Site) (s : State) (hb : Kept base s) :
    Kept base (quantRun x s) := by
  unfold quantRun
  try dsimp only
  repeat' first
    | with_reducible
      first
      | assumption | apply boundsFault_kept | apply brickFault_kept | apply scaleRow_kept | apply goOn_kept
      | apply setRole_kept | apply wrBed_kept | apply Kept.ite | (apply Kept.iteSnd <;> dsimp only)
      | apply Kept.foldlSnd | apply Kept.foldlFst | apply Kept.foldl
    | (split <;> try dsimp only) | (intro _; intros; try dsimp only)

end Sys2Proof.Machine
end

