-- ==== Sys2Proof/Laws/KeptAttention.lean ====
section
/-! SUPPORT. What the operations of Machine/Attention.lean keep (`Kept`). -/

set_option linter.unusedTactic false
set_option linter.unreachableTactic false

namespace Sys2Proof.Machine

open Reg

theorem partRead_kept {base : State} (x : Site) (a n : Nat) (s : State) (hb : Kept base s) :
    Kept base (partRead x a n s).2.2 := by
  unfold partRead
  try dsimp only
  repeat' first
    | with_reducible
      first
      | assumption | apply readMem_kept | apply Kept.ite | (apply Kept.iteSnd <;> dsimp only)
      | (apply Kept.iteSnd2 <;> dsimp only)
    | (split <;> try dsimp only)

theorem partWrite_kept {base : State} (x : Site) (a : Nat) (data : List Nat) (s : State) (hb : Kept base s) :
    Kept base (partWrite x a data s).2 := by
  unfold partWrite
  try dsimp only
  repeat' first
    | with_reducible
      first
      | assumption | apply writeMem_kept | apply Kept.ite | (apply Kept.iteSnd <;> dsimp only)
    | (split <;> try dsimp only)

variable {base : State}

theorem AttRun.read_kept (x : Site) (a n : Nat) (m : AttRun) (hb : Kept base m.s) : Kept base (m.read x a n).2.s := by
  unfold AttRun.read
  refine Kept.foldlBy (fun q : List Nat × AttRun => q.2.s) _ _ _ (fun q l hq => ?_) hb
  dsimp only
  split
  · exact hq
  · exact partRead_kept _ _ _ _ hq

theorem AttRun.write_kept (x : Site) (a : Nat) (data : List Nat) (m : AttRun) (hb : Kept base m.s) :
    Kept base (m.write x a data).s := by
  unfold AttRun.write
  refine Kept.foldlBy AttRun.s _ _ _ (fun q l hq => ?_) hb
  split
  · exact hq
  · exact partWrite_kept _ _ _ _ hq

theorem attEach_kept {α β : Type} (f : α → AttRun → β × AttRun) (l : List α) (m : AttRun)
    (hf : ∀ a y, Kept base y.s → Kept base (f a y).2.s) (hb : Kept base m.s) : Kept base (attEach f l m).2.s := by
  induction l generalizing m with
  | nil => exact hb
  | cons a r ih => exact ih _ (hf _ _ hb)

theorem needPage_kept (x : Site) (i h p : Nat) (m : AttRun) (hb : Kept base m.s) : Kept base (needPage x i h p m).2.s := by
  unfold needPage
  dsimp only
  repeat' first | exact hb | exact AttRun.read_kept _ _ _ _ hb | split

theorem rotRead_kept (x : Site) (p : Nat) (m : AttRun) (hb : Kept base m.s) : Kept base (rotRead x p m).2.s := by
  unfold rotRead
  dsimp only
  split
  · exact AttRun.read_kept _ _ _ _ hb
  · exact hb

theorem readTile_kept (x : Site) (it : AttItem) (k : Nat) (m : AttRun) (hb : Kept base m.s) :
    Kept base (readTile x it k m).2.s := by
  unfold readTile
  exact attEach_kept _ _ _ (fun i y hy => rotRead_kept _ _ _ hy)
    (AttRun.read_kept _ _ _ _ (AttRun.read_kept _ _ _ _ (AttRun.read_kept _ _ _ _ (AttRun.read_kept _ _ _ _
      (needPage_kept _ _ _ _ _ hb)))))

theorem computeTile_kept (x : Site) (w : Nat) (it : AttItem) (qs : List (List Nat)) (rows : List (Nat × Nat))
    (mask : List Nat) (k : Nat) (m : AttRun) (sum : ItemSum) (hb : Kept base m.s) :
    Kept base (computeTile x w it qs rows mask k m sum).2.s := by
  unfold computeTile
  dsimp only
  split
  · exact AttRun.write_kept _ _ _ _ (readTile_kept _ _ _ _ hb)
  · exact readTile_kept _ _ _ _ hb

theorem itemTile_kept (x : Site) (w : Nat) (it : AttItem) (qs : List (List Nat)) (rows : List (Nat × Nat))
    (q : ItemSum × AttRun) (k : Nat) (hb : Kept base q.2.s) : Kept base (itemTile x w it qs rows q k).2.s := by
  have hr := AttRun.read_kept x (maskAt (seqRecord x it.seq) it.block k) 2048 q.2 hb
  unfold itemTile
  dsimp only
  repeat' first | exact hb | exact hr | split | apply computeTile_kept

theorem queryRow_kept (x : Site) (seq : List Nat) (e : Nat × Nat) (m : AttRun) (hb : Kept base m.s) :
    Kept base (queryRow x seq e m).2.s := rotRead_kept _ _ _ (AttRun.read_kept _ _ _ _ hb)

theorem putOutput_kept (x : Site) (seq : List Nat) (m : AttRun) (e : (Nat × Nat) × (List Nat × Nat))
    (hb : Kept base m.s) : Kept base (putOutput x seq m e).s := AttRun.write_kept _ _ _ _ hb

theorem attendItem_kept (x : Site) (w : Nat) (m : AttRun) (a : AttStats) (hb : Kept base m.s) :
    Kept base (attendItem x w m a).2.s := by
  unfold attendItem
  dsimp only
  have h1 := attEach_kept (queryRow x (seqRecord x (itemOf x w).seq))
    (itemRows x.inst.record (seqRecord x (itemOf x w).seq) (itemOf x w)) m (fun _ _ hy => queryRow_kept _ _ _ _ hy) hb
  have h2 := fun (q : ItemSum × AttRun) (h : Kept base q.2.s) (qs : List (List Nat)) (l : List Nat) =>
    Kept.foldlBy (fun q : ItemSum × AttRun => q.2.s)
      (itemTile x w (itemOf x w) qs (itemRows x.inst.record (seqRecord x (itemOf x w).seq) (itemOf x w))) l q
      (fun y k hy => itemTile_kept _ _ _ _ _ _ _ hy) h
  split
  · exact h2 _ h1 _ _
  · exact Kept.foldlBy AttRun.s _ _ _ (fun y e hy => putOutput_kept _ _ _ _ hy) (h2 _ h1 _ _)

theorem appendRow_kept (x : Site) (it : AttItem) (m : AttRun) (e : Nat × Nat) (hb : Kept base m.s) :
    Kept base (appendRow x it m e).s :=
  AttRun.write_kept _ _ _ _ (AttRun.write_kept _ _ _ _ (AttRun.read_kept _ _ _ _ (needPage_kept _ _ _ _ _ hb)))

theorem appendItem_kept (x : Site) (w : Nat) (m : AttRun) (hb : Kept base m.s) : Kept base (appendItem x w m).s :=
  Kept.foldlBy AttRun.s _ _ _ (fun _ _ hy => appendRow_kept _ _ _ _ hy) hb

theorem itemWork_kept (x : Site) (w : Nat) (s : State) (hb : Kept base s) : Kept base (itemWork x w s).2.s := by
  have h1 := attendItem_kept x w { s := s } x.launch.stats hb
  have h2 := appendItem_kept x w { s := s } hb
  unfold itemWork
  by_cases h : x.inst.record.getD 0 0 = 1
  · rw [if_pos h]; exact h1
  · rw [if_neg h]; exact h2

theorem doItem_kept (x : Site) (w : Nat) (s : State) (hb : Kept base s) : Kept base (doItem x w s).2 := by
  have h := itemWork_kept x w s hb
  unfold doItem
  dsimp only
  generalize itemWork x w s = z at h ⊢
  have h2 := fun a d => AttRun.write_kept x a d z.2 h
  refine noteArith_kept _ _ _ (Kept.ite ?_ (modLaunch_kept _ _ _ ?_)) <;> split <;> first | exact h | exact h2 _ _

end Sys2Proof.Machine
end

