-- ==== Sys2Proof/Laws/KeptPlumb.lean ====
section
/-! SUPPORT. What the operations of Machine/Plumb.lean keep (`Kept`). -/

set_option linter.unusedTactic false
set_option linter.unreachableTactic false

namespace Sys2Proof.Machine

open Reg

theorem refreshLedger_kept {base : State} (s : State) (hb : Kept base s) :
    Kept base (refreshLedger s) := by
  unfold refreshLedger
  try dsimp only
  repeat' first
    | with_reducible
      first
      | assumption | apply wr_kept | apply Kept.foldl
    | (intro _; intros; try dsimp only)

theorem dropEntry_kept {base : State} (e : Nat) (s : State) (hb : Kept base s) :
    Kept base (dropEntry e s) := by
  unfold dropEntry
  try dsimp only
  repeat' first
    | with_reducible
      first
      | assumption | apply wrB_kept | apply event_kept | apply incSat_kept | apply Kept.ite

theorem shed_kept {base : State} (over_ : State → Bool) (chargers : State → List Nat) (n : Nat) (s : State)
    (hb : Kept base s) : Kept base (shed over_ chargers n s) := by
  induction n generalizing s with
  | zero => exact hb
  | succ n ih =>
    simp only [shed]
    split
    · split
      · exact ih _ (dropEntry_kept _ _ hb)
      · exact hb
    · exact hb

theorem fit_kept {base : State} (beyond : State → Bool) (chargers : State → List Nat) (tag : Nat) (s : State)
    (hb : Kept base s) :
    Kept base (fit beyond chargers tag s) := by
  unfold fit
  try dsimp only
  repeat' first
    | with_reducible
      first
      | assumption | apply shed_kept | apply event_kept | apply Kept.ite

theorem reevaluate_kept {base : State} (s : State) (hb : Kept base s) :
    Kept base (reevaluate s) := by
  unfold reevaluate
  try dsimp only
  repeat' first
    | with_reducible
      first
      | assumption | apply fit_kept | apply refreshLedger_kept | apply Kept.ite | apply Kept.foldl
    | (split <;> try dsimp only) | (intro _; intros; try dsimp only)

theorem plbApply_kept {base : State} (s : State) (hb : Kept base s) :
    Kept base (plbApply s) := by
  unfold plbApply
  try dsimp only
  repeat' first
    | with_reducible
      first
      | assumption | apply acceptStaged_kept | apply refreshLedger_kept | apply wrB_kept | apply Kept.ite
      | apply Kept.foldl
    | (intro _; intros; try dsimp only)

theorem plbDone_kept {base : State} (r : Nat × Nat × Nat) (s : State) (hb : Kept base s) :
    Kept base (plbDone r s) := by
  unfold plbDone
  try dsimp only
  repeat' first
    | with_reducible
      first
      | assumption | apply commitDone_kept | apply wr_kept | (apply Kept.iteSnd <;> dsimp only)

end Sys2Proof.Machine
end

