-- ==== Sys2Proof/Laws/KeptMortar.lean ====
section
/-! SUPPORT. What the operations of Machine/Mortar.lean keep (`Kept`). -/

set_option linter.unusedTactic false
set_option linter.unreachableTactic false

namespace Sys2Proof.Machine

open Reg

theorem wrEnd_kept {base : State} (die p : Nat) (f h : Field) (v : Nat) (s : State) (hb : Kept base s) :
    Kept base (wrEnd die p f h v s) := by
  unfold wrEnd
  try dsimp only
  repeat' first
    | with_reducible
      first
      | assumption | apply wr_kept

theorem wrState_kept {base : State} (die p v : Nat) (s : State) (hb : Kept base s) :
    Kept base (wrState die p v s) := by
  unfold wrState
  try dsimp only
  repeat' first
    | with_reducible
      first
      | assumption | apply wrEnd_kept

theorem wrWidth_kept {base : State} (die p v : Nat) (s : State) (hb : Kept base s) :
    Kept base (wrWidth die p v s) := by
  unfold wrWidth
  try dsimp only
  repeat' first
    | with_reducible
      first
      | assumption | apply wrEnd_kept

theorem wrEpoch_kept {base : State} (die p v : Nat) (s : State) (hb : Kept base s) :
    Kept base (wrEpoch die p v s) := by
  unfold wrEpoch
  try dsimp only
  repeat' first
    | with_reducible
      first
      | assumption | apply wrEnd_kept

theorem wrGood_kept {base : State} (die p v : Nat) (s : State) (hb : Kept base s) :
    Kept base (wrGood die p v s) := by
  unfold wrGood
  try dsimp only
  repeat' first
    | with_reducible
      first
      | assumption | apply wrEnd_kept

theorem wrData_kept {base : State} (die p v : Nat) (s : State) (hb : Kept base s) :
    Kept base (wrData die p v s) := by
  unfold wrData
  try dsimp only
  repeat' first
    | with_reducible
      first
      | assumption | apply wrEnd_kept

theorem modEnd_kept {base : State} (die p : Nat) (f : PortEnd → PortEnd) (s : State) (hb : Kept base s) :
    Kept base (modEnd die p f s) := by
  unfold modEnd
  try dsimp only
  repeat' first
    | with_reducible
      first
      | assumption
    | fail_if_no_progress refine Kept.upd ?_ rfl rfl rfl rfl rfl rfl rfl rfl rfl

theorem noteLost_kept {base : State} (before s : State) (hb : Kept base s) :
    Kept base (noteLost before s) := by
  unfold noteLost
  try dsimp only
  repeat' first
    | with_reducible
      first
      | assumption | apply event_kept | apply Kept.ite | apply Kept.foldl
    | (intro _; intros; try dsimp only)

theorem portChange_kept {base : State} (f : State → State) (s : State) (hf : ∀ z0, Kept base z0 → Kept base (f z0))
    (hb : Kept base s) :
    Kept base (portChange f s) := by
  unfold portChange
  try dsimp only
  repeat' first
    | with_reducible
      first
      | assumption | apply noteLost_kept | apply reevaluate_kept | apply hf | apply Kept.ite
    | (intro _; intros; try dsimp only)

theorem beginTraining_kept {base : State} (die p epoch : Nat) (s : State) (hb : Kept base s) :
    Kept base (beginTraining die p epoch s) := by
  unfold beginTraining
  try dsimp only
  repeat' first
    | with_reducible
      first
      | assumption | apply modEnd_kept | apply wrData_kept | apply wrWidth_kept | apply wrEpoch_kept
      | apply wrState_kept | apply Kept.ite
    | fail_if_no_progress refine Kept.upd ?_ rfl rfl rfl rfl rfl rfl rfl rfl rfl | (intro _; intros; try dsimp only)

theorem startTraining_kept {base : State} (die p : Nat) (s : State) (hb : Kept base s) :
    Kept base (startTraining die p s) := by
  unfold startTraining
  try dsimp only
  repeat' first
    | with_reducible
      first
      | assumption | apply beginTraining_kept

theorem resendUnacked_kept {base : State} (die p : Nat) (s : State) (hb : Kept base s) :
    Kept base (resendUnacked die p s) := by
  unfold resendUnacked
  try dsimp only
  repeat' first
    | with_reducible
      first
      | assumption | apply modEnd_kept | apply send_kept | apply Kept.foldl
    | fail_if_no_progress refine Kept.upd ?_ rfl rfl rfl rfl rfl rfl rfl rfl rfl | (intro _; intros; try dsimp only)

theorem portDown_kept {base : State} (die p cause : Nat) (s : State) (hb : Kept base s) :
    Kept base (portDown die p cause s) := by
  unfold portDown
  try dsimp only
  repeat' first
    | with_reducible
      first
      | assumption | apply portChange_kept | apply wrData_kept | apply wrWidth_kept | apply wrState_kept
      | apply resendUnacked_kept | apply modEnd_kept | apply event_kept | apply Kept.ite
    | (intro _; intros; try dsimp only)

theorem portUp_kept {base : State} (die p : Nat) (s : State) (hb : Kept base s) :
    Kept base (portUp die p s) := by
  unfold portUp
  try dsimp only
  repeat' first
    | with_reducible
      first
      | assumption | apply wrData_kept | apply wrWidth_kept | apply wrState_kept | apply modEnd_kept
      | apply resendUnacked_kept | apply event_kept | apply reevaluate_kept | apply Kept.ite
      | (apply Kept.iteSnd <;> dsimp only)
    | fail_if_no_progress refine Kept.upd ?_ rfl rfl rfl rfl rfl rfl rfl rfl rfl | (intro _; intros; try dsimp only)

theorem secondAttempt_kept {base : State} (die p w : Nat) (s : State) (hb : Kept base s) :
    Kept base (secondAttempt die p w s) := by
  unfold secondAttempt
  try dsimp only
  repeat' first
    | with_reducible
      first
      | assumption | apply portDown_kept | apply modEnd_kept | apply wrEpoch_kept | apply Kept.ite
    | fail_if_no_progress refine Kept.upd ?_ rfl rfl rfl rfl rfl rfl rfl rfl rfl | (intro _; intros; try dsimp only)

theorem settleProposals_kept {base : State} (die p : Nat) (s : State) (hb : Kept base s) :
    Kept base (settleProposals die p s) := by
  unfold settleProposals
  try dsimp only
  repeat' first
    | with_reducible
      first
      | assumption | apply portDown_kept | apply modEnd_kept | apply secondAttempt_kept | apply Kept.ite
    | fail_if_no_progress refine Kept.upd ?_ rfl rfl rfl rfl rfl rfl rfl rfl rfl | (split <;> try dsimp only)
    | (intro _; intros; try dsimp only)

theorem settleReady_kept {base : State} (die p : Nat) (s : State) (hb : Kept base s) :
    Kept base (settleReady die p s) := by
  unfold settleReady
  try dsimp only
  repeat' first
    | with_reducible
      first
      | assumption | apply portUp_kept | apply Kept.ite

theorem identityFault_kept {base : State} (die p : Nat) (s : State) (hb : Kept base s) :
    Kept base (identityFault die p s) := by
  unfold identityFault
  try dsimp only
  repeat' first
    | with_reducible
      first
      | assumption | apply portDown_kept | apply event_kept

theorem takeProposal_kept {base : State} (die p width map peerDie peerPort : Nat) (s : State) (hb : Kept base s) :
    Kept base (takeProposal die p width map peerDie peerPort s) := by
  unfold takeProposal
  try dsimp only
  repeat' first
    | with_reducible
      first
      | assumption | apply identityFault_kept | apply settleProposals_kept | apply modEnd_kept | apply Kept.ite
    | fail_if_no_progress refine Kept.upd ?_ rfl rfl rfl rfl rfl rfl rfl rfl rfl | (intro _; intros; try dsimp only)

theorem adoptEpoch_kept {base : State} (die p epoch : Nat) (s : State) (hb : Kept base s) :
    Kept base (adoptEpoch die p epoch s) := by
  unfold adoptEpoch
  try dsimp only
  repeat' first
    | with_reducible
      first
      | assumption | apply secondAttempt_kept | apply beginTraining_kept | apply Kept.ite

theorem onSideband_kept {base : State} (die p epoch : Nat) (act : State → State) (s : State)
    (hact : ∀ z0, Kept base z0 → Kept base (act z0)) (hb : Kept base s) :
    Kept base (onSideband die p epoch act s) := by
  unfold onSideband
  try dsimp only
  repeat' first
    | with_reducible
      first
      | assumption | apply modEnd_kept | apply portChange_kept | apply adoptEpoch_kept | apply hact | apply Kept.ite
    | fail_if_no_progress refine Kept.upd ?_ rfl rfl rfl rfl rfl rfl rfl rfl rfl | (intro _; intros; try dsimp only)

theorem takeReady_kept {base : State} (die p width : Nat) (s : State) (hb : Kept base s) :
    Kept base (takeReady die p width s) := by
  unfold takeReady
  try dsimp only
  repeat' first
    | with_reducible
      first
      | assumption | apply settleReady_kept | apply modEnd_kept | apply Kept.ite
    | fail_if_no_progress refine Kept.upd ?_ rfl rfl rfl rfl rfl rfl rfl rfl rfl | (intro _; intros; try dsimp only)

theorem failLane_kept {base : State} (die p lane : Nat) (s : State) (hb : Kept base s) :
    Kept base (failLane die p lane s) := by
  unfold failLane
  try dsimp only
  repeat' first
    | with_reducible
      first
      | assumption | apply event_kept | apply send_kept | apply incSat_kept | apply modEnd_kept | apply wrGood_kept
      | apply portChange_kept | apply startTraining_kept | apply Kept.ite
    | fail_if_no_progress refine Kept.upd ?_ rfl rfl rfl rfl rfl rfl rfl rfl rfl | (split <;> try dsimp only)
    | (intro _; intros; try dsimp only)

theorem receiveMoves_kept {base : State} (die p : Nat) (s : State) (hb : Kept base s) :
    Kept base (receiveMoves die p s) := by
  unfold receiveMoves
  try dsimp only
  repeat' first
    | with_reducible
      first
      | assumption | apply modEnd_kept | apply wrData_kept | apply Kept.ite | (apply Kept.iteSnd <;> dsimp only)
      | apply Kept.foldlSnd | apply Kept.foldlFst | apply Kept.foldl
    | fail_if_no_progress refine Kept.upd ?_ rfl rfl rfl rfl rfl rfl rfl rfl rfl | (intro _; intros; try dsimp only)

theorem judgeLanes_kept {base : State} (die p badParity badEye : Nat) (s : State) (hb : Kept base s) :
    Kept base (judgeLanes die p badParity badEye s) := by
  unfold judgeLanes
  try dsimp only
  repeat' first
    | with_reducible
      first
      | assumption | apply modEnd_kept | apply failLane_kept | apply Kept.ite | (apply Kept.iteSnd <;> dsimp only)
      | apply Kept.foldlSnd | apply Kept.foldlFst | apply Kept.foldl
    | fail_if_no_progress refine Kept.upd ?_ rfl rfl rfl rfl rfl rfl rfl rfl rfl | (intro _; intros; try dsimp only)

theorem replayFrom_kept {base : State} (die p seq : Nat) (s : State) (hb : Kept base s) :
    Kept base (replayFrom die p seq s) := by
  unfold replayFrom
  try dsimp only
  repeat' first
    | with_reducible
      first
      | assumption | apply send_kept | apply incSat_kept | apply Kept.foldl
    | (intro _; intros; try dsimp only)

theorem takeFlit_kept {base : State} (die p : Nat) (flit : List Nat) (s : State) (hb : Kept base s) :
    Kept base (takeFlit die p flit s) := by
  unfold takeFlit
  try dsimp only
  repeat' first
    | with_reducible
      first
      | assumption | apply receiveMoves_kept | apply modEnd_kept | apply replayFrom_kept | apply Kept.ite
      | (apply Kept.iteSnd <;> dsimp only)
    | (intro _; intros; try dsimp only)

theorem askReplay_kept {base : State} (die p : Nat) (s : State) (hb : Kept base s) :
    Kept base (askReplay die p s) := by
  unfold askReplay
  try dsimp only
  repeat' first
    | with_reducible
      first
      | assumption | apply send_kept | apply modEnd_kept
    | fail_if_no_progress refine Kept.upd ?_ rfl rfl rfl rfl rfl rfl rfl rfl rfl | (intro _; intros; try dsimp only)

theorem resent_kept {base : State} (die : Nat) (f : List Nat) (s : State) (hb : Kept base s) :
    Kept base (resent die f s) := by
  unfold resent
  try dsimp only
  repeat' first
    | with_reducible
      first
      | assumption | apply Kept.ite
    | fail_if_no_progress refine Kept.upd ?_ rfl rfl rfl rfl rfl rfl rfl rfl rfl | (split <;> try dsimp only)
    | (intro _; intros; try dsimp only)

theorem testStatus_kept {base : State} (die p status done : Nat) (s : State) (hb : Kept base s) :
    Kept base (testStatus die p status done s) := by
  unfold testStatus
  try dsimp only
  repeat' first
    | with_reducible
      first
      | assumption | apply wrEnd_kept

theorem laneErrors_kept {base : State} (die p : Nat) (f : Nat → Nat → Nat) (s : State) (hb : Kept base s) :
    Kept base (laneErrors die p f s) := by
  unfold laneErrors
  try dsimp only
  repeat' first
    | with_reducible
      first
      | assumption | apply wr_kept | apply Kept.ite | apply Kept.foldl
    | (intro _; intros; try dsimp only)

theorem startTest_kept {base : State} (die p : Nat) (s : State) (hb : Kept base s) :
    Kept base (startTest die p s) := by
  unfold startTest
  try dsimp only
  repeat' first
    | with_reducible
      first
      | assumption | apply portChange_kept | apply resendUnacked_kept | apply wrData_kept | apply wrWidth_kept
      | apply wrState_kept | apply modEnd_kept | apply laneErrors_kept | apply testStatus_kept
      | apply startTraining_kept | (apply Kept.iteSnd <;> dsimp only)
    | fail_if_no_progress refine Kept.upd ?_ rfl rfl rfl rfl rfl rfl rfl rfl rfl | (intro _; intros; try dsimp only)

theorem startAlone_kept {base : State} (die : Nat) (s : State) (hb : Kept base s) :
    Kept base (startAlone die s) := by
  unfold startAlone
  try dsimp only
  repeat' first
    | with_reducible
      first
      | assumption | apply startTest_kept | apply Kept.foldl
    | fail_if_no_progress refine Kept.upd ?_ rfl rfl rfl rfl rfl rfl rfl rfl rfl | (intro _; intros; try dsimp only)

theorem loopResult_kept {base : State} (die : Nat) (ports : List Nat) (s : State) (hb : Kept base s) :
    Kept base (loopResult die ports s) := by
  unfold loopResult
  try dsimp only
  repeat' first
    | with_reducible
      first
      | assumption | apply wrEnd_kept | apply Kept.ite | apply Kept.foldl
    | (intro _; intros; try dsimp only)

theorem mtrCommit_kept {base : State} (die value : Nat) (s : State) (hb : Kept base s) :
    Kept base (mtrCommit die value s) := by
  unfold mtrCommit
  try dsimp only
  repeat' first
    | with_reducible
      first
      | assumption | apply commit_kept | apply acceptStaged_kept | apply startAlone_kept | apply startTest_kept
      | apply loopResult_kept | apply Kept.ite | apply Kept.foldl
    | (intro _; intros; try dsimp only)

theorem aloneEnd_kept {base : State} (die : Nat) (errors : List Nat) (s : State) (hb : Kept base s) :
    Kept base (aloneEnd die errors s) := by
  unfold aloneEnd
  try dsimp only
  repeat' first
    | with_reducible
      first
      | assumption | (apply Kept.iteSnd <;> dsimp only)
    | fail_if_no_progress refine Kept.upd ?_ rfl rfl rfl rfl rfl rfl rfl rfl rfl | (split <;> try dsimp only)
    | (intro _; intros; try dsimp only)

end Sys2Proof.Machine
end

