-- ==== Sys2Proof/Laws/KeptBudget.lean ====
section
/-! SUPPORT. What the operations of Machine/Budget.lean keep (`Kept`). -/

set_option linter.unusedTactic false
set_option linter.unreachableTactic false

namespace Sys2Proof.Machine

open Reg

theorem modBudget_kept {base : State} (n : Nat) (f : DieBudget → DieBudget) (s : State) (hb : Kept base s) :
    Kept base (modBudget n f s) := by
  unfold modBudget
  try dsimp only
  repeat' first
    | with_reducible
      first
      | assumption
    | fail_if_no_progress refine Kept.upd ?_ rfl rfl rfl rfl rfl rfl rfl rfl rfl

theorem modAgent_kept {base : State} (n : Nat) (f : PowerAgent → PowerAgent) (s : State) (hb : Kept base s) :
    Kept base (modAgent n f s) := by
  unfold modAgent
  try dsimp only
  repeat' first
    | with_reducible
      first
      | assumption
    | fail_if_no_progress refine Kept.upd ?_ rfl rfl rfl rfl rfl rfl rfl rfl rfl

theorem sendGrant_kept {base : State} (n core hbm : Nat) (s : State) (hb : Kept base s) :
    Kept base (sendGrant n core hbm s) := by
  unfold sendGrant
  try dsimp only
  repeat' first
    | with_reducible
      first
      | assumption | apply modBudget_kept | apply send_kept | apply Kept.ite
    | fail_if_no_progress refine Kept.upd ?_ rfl rfl rfl rfl rfl rfl rfl rfl rfl | (intro _; intros; try dsimp only)

theorem grantDie_kept {base : State} (s : State) (n : Nat) (hb : Kept base s) :
    Kept base (grantDie s n) := by
  unfold grantDie
  try dsimp only
  repeat' first
    | with_reducible
      first
      | assumption | apply sendGrant_kept | apply Kept.ite | (apply Kept.iteSnd <;> dsimp only)

end Sys2Proof.Machine
end

