-- ==== Sys2Proof/Laws/KeptRings.lean ====
section
/-! SUPPORT. What the operations of Machine/Rings.lean keep (`Kept`). -/

set_option linter.unusedTactic false
set_option linter.unreachableTactic false

namespace Sys2Proof.Machine

open Reg

theorem takeTail_kept {base : State} (c r tail : Nat) (s : State) (hb : Kept base s) :
    Kept base (takeTail c r tail s) := by
  unfold takeTail
  try dsimp only
  repeat' first
    | with_reducible
      first
      | assumption | apply stopRing_kept | apply modRing_kept | apply Kept.ite
    | fail_if_no_progress refine Kept.upd ?_ rfl rfl rfl rfl rfl rfl rfl rfl rfl | (intro _; intros; try dsimp only)

theorem readDoorbell_kept {base : State} (c r : Nat) (s : State) (hb : Kept base s) :
    Kept base (readDoorbell c r s) := by
  unfold readDoorbell
  try dsimp only
  repeat' first
    | with_reducible
      first
      | assumption | apply readMem_kept | apply stopRing_kept | apply modCtx_kept | apply takeTail_kept
      | apply Kept.ite | (apply Kept.iteSnd <;> dsimp only)
    | fail_if_no_progress refine Kept.upd ?_ rfl rfl rfl rfl rfl rfl rfl rfl rfl | (intro _; intros; try dsimp only)

theorem issueTie_kept {base : State} (op : TieOp) (s : State) (hb : Kept base s) :
    Kept base (issueTie op s) := by
  unfold issueTie
  try dsimp only
  repeat' first
    | with_reducible
      first
      | assumption
    | fail_if_no_progress refine Kept.upd ?_ rfl rfl rfl rfl rfl rfl rfl rfl rfl

theorem noteFetch_kept {base : State} (c r : Nat) (s : State) (hb : Kept base s) :
    Kept base (noteFetch c r s) := by
  unfold noteFetch
  try dsimp only
  repeat' first
    | with_reducible
      first
      | assumption | apply writeEcho_kept | apply modCtx_kept | apply modRing_kept
    | fail_if_no_progress refine Kept.upd ?_ rfl rfl rfl rfl rfl rfl rfl rfl rfl | (intro _; intros; try dsimp only)

theorem fetchDesc_kept {base : State} (c r : Nat) (k : Nat → List Nat → State → State) (s : State)
    (hk : ∀ z0 z1 z2, Kept base z2 → Kept base (k z0 z1 z2)) (hb : Kept base s) :
    Kept base (fetchDesc c r k s) := by
  unfold fetchDesc
  try dsimp only
  repeat' first
    | with_reducible
      first
      | assumption | apply readMem_kept | apply stopRing_kept | apply noteFetch_kept | apply finishDesc_kept
      | apply hk | apply Kept.ite | (apply Kept.iteSnd <;> dsimp only)
    | fail_if_no_progress refine Kept.upd ?_ rfl rfl rfl rfl rfl rfl rfl rfl rfl | (intro _; intros; try dsimp only)

theorem keepDesc_kept {base : State} (c r n : Nat) (raw : List Nat) (ph : DescPhase) (s : State) (hb : Kept base s) :
    Kept base (keepDesc c r n raw ph s) := by
  unfold keepDesc
  try dsimp only
  repeat' first
    | with_reducible
      first
      | assumption
    | fail_if_no_progress refine Kept.upd ?_ rfl rfl rfl rfl rfl rfl rfl rfl rfl

theorem holdRing_kept {base : State} (c r : Nat) (h : Hold) (s : State) (hb : Kept base s) :
    Kept base (holdRing c r h s) := by
  unfold holdRing
  try dsimp only
  repeat' first
    | with_reducible
      first
      | assumption | apply modRing_kept
    | fail_if_no_progress refine Kept.upd ?_ rfl rfl rfl rfl rfl rfl rfl rfl rfl | (intro _; intros; try dsimp only)

theorem fetchChecked_kept {base : State} (c r : Nat) (k : Nat → List Nat → State → State) (s : State)
    (hk : ∀ z0 z1 z2, Kept base z2 → Kept base (k z0 z1 z2)) (hb : Kept base s) :
    Kept base (fetchChecked c r k s) := by
  unfold fetchChecked
  try dsimp only
  repeat' first
    | with_reducible
      first
      | assumption | apply fetchDesc_kept | apply finishDesc_kept | apply hk | apply Kept.ite
    | fail_if_no_progress refine Kept.upd ?_ rfl rfl rfl rfl rfl rfl rfl rfl rfl | (intro _; intros; try dsimp only)

theorem forwardLaunch_kept {base : State} (c r n : Nat) (raw : List Nat) (s : State) (hb : Kept base s) :
    Kept base (forwardLaunch c r n raw s) := by
  unfold forwardLaunch
  try dsimp only
  repeat' first
    | with_reducible
      first
      | assumption | apply finishDesc_kept | apply event_kept | apply Kept.ite
    | fail_if_no_progress refine Kept.upd ?_ rfl rfl rfl rfl rfl rfl rfl rfl rfl | (intro _; intros; try dsimp only)

theorem forwardSieve_kept {base : State} (c r n : Nat) (s : State) (hb : Kept base s) :
    Kept base (forwardSieve c r n s) := by
  unfold forwardSieve
  try dsimp only
  repeat' first
    | with_reducible
      first
      | assumption | apply holdRing_kept
    | fail_if_no_progress refine Kept.upd ?_ rfl rfl rfl rfl rfl rfl rfl rfl rfl

theorem sendDesc_kept {base : State} (c r n : Nat) (raw : List Nat) (s : State) (hb : Kept base s) :
    Kept base (sendDesc c r n raw s) := by
  unfold sendDesc
  try dsimp only
  repeat' first
    | with_reducible
      first
      | assumption | apply forwardLaunch_kept | apply forwardSieve_kept | apply Kept.ite

theorem forwardDesc_kept {base : State} (c r n : Nat) (raw : List Nat) (s : State) (hb : Kept base s) :
    Kept base (forwardDesc c r n raw s) := by
  unfold forwardDesc
  try dsimp only
  repeat' first
    | with_reducible
      first
      | assumption | apply sendDesc_kept | apply keepDesc_kept

theorem waitDesc_kept {base : State} (c r n : Nat) (raw : List Nat) (word value us : Nat) (s : State)
    (hb : Kept base s) :
    Kept base (waitDesc c r n raw word value us s) := by
  unfold waitDesc
  try dsimp only
  repeat' first
    | with_reducible
      first
      | assumption | apply finishDesc_kept | apply stopRing_kept | apply issueTie_kept | apply holdRing_kept
      | apply keepDesc_kept | apply Kept.ite
    | fail_if_no_progress refine Kept.upd ?_ rfl rfl rfl rfl rfl rfl rfl rfl rfl

theorem acceptWork_kept {base : State} (c r n : Nat) (raw : List Nat) (s : State) (hb : Kept base s) :
    Kept base (acceptWork c r n raw s) := by
  unfold acceptWork
  try dsimp only
  repeat' first
    | with_reducible
      first
      | assumption | apply waitDesc_kept | apply forwardDesc_kept | apply Kept.ite

theorem tieDesc_kept {base : State} (kind : TieKind) (c r n : Nat) (raw : List Nat) (s : State) (hb : Kept base s) :
    Kept base (tieDesc kind c r n raw s) := by
  unfold tieDesc
  try dsimp only
  repeat' first
    | with_reducible
      first
      | assumption | apply issueTie_kept | apply keepDesc_kept | apply finishDesc_kept | apply Kept.ite
    | fail_if_no_progress refine Kept.upd ?_ rfl rfl rfl rfl rfl rfl rfl rfl rfl

theorem modRole_kept {base : State} (b : Nat) (f : Role → Role) (s : State) (hb : Kept base s) :
    Kept base (modRole b f s) := by
  unfold modRole
  try dsimp only
  repeat' first
    | with_reducible
      first
      | assumption | apply Kept.ite
    | fail_if_no_progress refine Kept.upd ?_ rfl rfl rfl rfl rfl rfl rfl rfl rfl | (intro _; intros; try dsimp only)

theorem releaseOne_kept {base : State} (tie value : Nat) (s : State) (who : Agent) (hb : Kept base s) :
    Kept base (releaseOne tie value s who) := by
  unfold releaseOne
  try dsimp only
  repeat' first
    | with_reducible
      first
      | assumption | apply modRole_kept | apply holdRing_kept | apply finishDesc_kept | apply sendDesc_kept
      | apply Kept.ite
    | fail_if_no_progress refine Kept.upd ?_ rfl rfl rfl rfl rfl rfl rfl rfl rfl | (split <;> try dsimp only)
    | (intro _; intros; try dsimp only)

theorem timeoutWait_kept {base : State} (w : TieWait) (s : State) (hb : Kept base s) :
    Kept base (timeoutWait w s) := by
  unfold timeoutWait
  try dsimp only
  repeat' first
    | with_reducible
      first
      | assumption | apply incSat_kept | apply faultInst_kept | apply finishDesc_kept | apply holdRing_kept
      | apply stopRing_kept
    | fail_if_no_progress refine Kept.upd ?_ rfl rfl rfl rfl rfl rfl rfl rfl rfl | (split <;> try dsimp only)
    | (intro _; intros; try dsimp only)

theorem hstApply_kept {base : State} (s : State) (hb : Kept base s) :
    Kept base (hstApply s) := by
  unfold hstApply
  try dsimp only
  repeat' first
    | with_reducible
      first
      | assumption | apply acceptStaged_kept | apply devWrite_kept | apply Kept.foldl
    | fail_if_no_progress refine Kept.upd ?_ rfl rfl rfl rfl rfl rfl rfl rfl rfl | (intro _; intros; try dsimp only)

end Sys2Proof.Machine
end

