-- ==== Sys2Proof/Laws/KeptCamera.lean ====
section
/-! SUPPORT. What the operations of Machine/Camera.lean keep (`Kept`). -/

set_option linter.unusedTactic false
set_option linter.unreachableTactic false

namespace Sys2Proof.Machine

open Reg

theorem setStream_kept {base : State} (k : Nat) (v : InStream) (s : State) (hb : Kept base s) :
    Kept base (setStream k v s) := by
  unfold setStream
  try dsimp only
  repeat' first
    | with_reducible
      first
      | assumption
    | fail_if_no_progress refine Kept.upd ?_ rfl rfl rfl rfl rfl rfl rfl rfl rfl

theorem modStream_kept {base : State} (k : Nat) (f : InStream → InStream) (s : State) (hb : Kept base s) :
    Kept base (modStream k f s) := by
  unfold modStream
  try dsimp only
  repeat' first
    | with_reducible
      first
      | assumption | apply setStream_kept

theorem dropFrame_kept {base : State} (k cause : Nat) (s : State) (hb : Kept base s) :
    Kept base (dropFrame k cause s) := by
  unfold dropFrame
  try dsimp only
  repeat' first
    | with_reducible
      first
      | assumption | apply modStream_kept | apply incSat_kept | apply withDraw_kept | apply event_kept
      | apply Kept.ite
    | fail_if_no_progress refine Kept.upd ?_ rfl rfl rfl rfl rfl rfl rfl rfl rfl | (intro _; intros; try dsimp only)

theorem waitRecord_kept {base : State} (k : Nat) (f : Frame) (s : State) (hb : Kept base s) :
    Kept base (waitRecord k f s) := by
  unfold waitRecord
  try dsimp only
  repeat' first
    | with_reducible
      first
      | assumption | apply withdraw_kept | apply modStream_kept | apply evalWaits_kept | apply event_kept
      | apply Kept.ite
    | fail_if_no_progress refine Kept.upd ?_ rfl rfl rfl rfl rfl rfl rfl rfl rfl | (intro _; intros; try dsimp only)

theorem completeFrame_kept {base : State} (k : Nat) (f : Frame) (s : State) (hb : Kept base s) :
    Kept base (completeFrame k f s) := by
  unfold completeFrame
  try dsimp only
  repeat' first
    | with_reducible
      first
      | assumption | apply modStream_kept | apply dropFrame_kept | apply waitRecord_kept | apply Kept.ite
    | fail_if_no_progress refine Kept.upd ?_ rfl rfl rfl rfl rfl rfl rfl rfl rfl | (intro _; intros; try dsimp only)

theorem beginFrame_kept {base : State} (k : Nat) (f : Frame) (s : State) (hb : Kept base s) :
    Kept base (beginFrame k f s) := by
  unfold beginFrame
  try dsimp only
  repeat' first
    | with_reducible
      first
      | assumption | apply withDraw_kept | apply modStream_kept
    | fail_if_no_progress refine Kept.upd ?_ rfl rfl rfl rfl rfl rfl rfl rfl rfl | (intro _; intros; try dsimp only)

theorem stopStream_kept {base : State} (k : Nat) (s : State) (hb : Kept base s) :
    Kept base (stopStream k s) := by
  unfold stopStream
  try dsimp only
  repeat' first
    | with_reducible
      first
      | assumption | apply wrB_kept | apply modStream_kept
    | fail_if_no_progress refine Kept.upd ?_ rfl rfl rfl rfl rfl rfl rfl rfl rfl | (intro _; intros; try dsimp only)

theorem writeRow_kept {base : State} (k y : Nat) (data : List Nat) (s : State) (hb : Kept base s) :
    Kept base (writeRow k y data s) := by
  unfold writeRow
  try dsimp only
  repeat' first
    | with_reducible
      first
      | assumption | apply writeMem_kept | apply modStream_kept | apply Kept.ite | (apply Kept.iteSnd <;> dsimp only)
    | fail_if_no_progress refine Kept.upd ?_ rfl rfl rfl rfl rfl rfl rfl rfl rfl | (split <;> try dsimp only)
    | (intro _; intros; try dsimp only)

theorem landLine_kept {base : State} (k : Nat) (payload : List Nat) (s : State) (hb : Kept base s) :
    Kept base (landLine k payload s) := by
  unfold landLine
  try dsimp only
  repeat' first
    | with_reducible
      first
      | assumption | apply modStream_kept | apply writeRow_kept | apply Kept.ite
    | fail_if_no_progress refine Kept.upd ?_ rfl rfl rfl rfl rfl rfl rfl rfl rfl | (split <;> try dsimp only)
    | (intro _; intros; try dsimp only)

theorem landLast_kept {base : State} (k : Nat) (s : State) (hb : Kept base s) :
    Kept base (landLast k s) := by
  unfold landLast
  try dsimp only
  repeat' first
    | with_reducible
      first
      | assumption | apply writeRow_kept | apply Kept.ite
    | (split <;> try dsimp only)

theorem foreign_kept {base : State} (s : State) (hb : Kept base s) :
    Kept base (foreign s) := by
  unfold foreign
  try dsimp only
  repeat' first
    | with_reducible
      first
      | assumption | apply incSat_kept

theorem camReads_kept {base : State} (k owner addr table : Nat) (s : State) (hb : Kept base s) :
    Kept base (camReads k owner addr table s).2.2.2 := by
  unfold camReads
  try dsimp only
  repeat' first
    | with_reducible
      first
      | assumption | apply readMem_kept | apply Kept.ite | (apply Kept.iteSnd <;> dsimp only)
    | (split <;> try dsimp only)

theorem camDone_kept {base : State} (k : Nat) (r : Refuse) (s : State) (hb : Kept base s) :
    Kept base (camDone k r s) := by
  unfold camDone
  try dsimp only
  repeat' first
    | with_reducible
      first
      | assumption | apply commitDone_kept | apply wr_kept

end Sys2Proof.Machine
end

