-- ==== Sys2Proof/Laws/KeptSampler.lean ====
section
/-! SUPPORT. What the operations of Machine/Sampler.lean keep (`Kept`). -/

set_option linter.unusedTactic false
set_option linter.unreachableTactic false

namespace Sys2Proof.Machine

open Reg

theorem modSampler_kept {base : State} (k : Nat) (f : Sampler → Sampler) (s : State) (hb : Kept base s) :
    Kept base (modSampler k f s) := by
  unfold modSampler
  try dsimp only
  repeat' first
    | with_reducible
      first
      | assumption
    | fail_if_no_progress refine Kept.upd ?_ rfl rfl rfl rfl rfl rfl rfl rfl rfl

theorem finishBatch_kept {base : State} (k : Nat) (b : Batch) (s : State) (hb : Kept base s) :
    Kept base (finishBatch k b s) := by
  unfold finishBatch
  try dsimp only
  repeat' first
    | with_reducible
      first
      | assumption | apply signalFrom_kept | apply writeMem'_kept | apply Kept.ite
      | (apply Kept.iteSnd <;> dsimp only)
    | (split <;> try dsimp only) | (intro _; intros; try dsimp only)

theorem settle_kept {base : State} (k batch slot index cause : Nat) (data : List Nat) (s : State) (hb : Kept base s) :
    Kept base (settle k batch slot index cause data s) := by
  unfold settle
  try dsimp only
  repeat' first
    | with_reducible
      first
      | assumption | apply writeMem'_kept | apply modSampler_kept | apply incSat_kept | apply finishBatch_kept
      | apply Kept.ite
    | fail_if_no_progress refine Kept.upd ?_ rfl rfl rfl rfl rfl rfl rfl rfl rfl | (split <;> try dsimp only)
    | (intro _; intros; try dsimp only)

theorem samplerDone_kept {base : State} (k : Nat) (r : Refuse) (s : State) (hb : Kept base s) :
    Kept base (samplerDone k r s) := by
  unfold samplerDone
  try dsimp only
  repeat' first
    | with_reducible
      first
      | assumption | apply commitDone_kept | apply wr_kept

end Sys2Proof.Machine
end

