-- ==== Sys2Proof/Laws/KeptDecoder.lean ====
section
/-! SUPPORT. What the operations of Machine/Decoder.lean keep (`Kept`). -/

set_option linter.unusedTactic false
set_option linter.unreachableTactic false

namespace Sys2Proof.Machine

open Reg

theorem modDec_kept {base : State} (d : Nat) (f : DecStream → DecStream) (s : State) (hb : Kept base s) :
    Kept base (modDec d f s) := by
  unfold modDec
  try dsimp only
  repeat' first
    | with_reducible
      first
      | assumption
    | fail_if_no_progress refine Kept.upd ?_ rfl rfl rfl rfl rfl rfl rfl rfl rfl

theorem writeOut_kept {base : State} (d : Nat) (o : DecOut) (s : State) (hb : Kept base s) :
    Kept base (writeOut d o s) := by
  unfold writeOut
  try dsimp only
  repeat' first
    | with_reducible
      first
      | assumption | apply withDraw_kept | apply writeMem'_kept | apply signalFrom_kept | apply modDec_kept
      | apply Kept.ite
    | fail_if_no_progress refine Kept.upd ?_ rfl rfl rfl rfl rfl rfl rfl rfl rfl | (intro _; intros; try dsimp only)

theorem waitOut_kept {base : State} (d : Nat) (s : State) (hb : Kept base s) :
    Kept base (waitOut d s) := by
  unfold waitOut
  try dsimp only
  repeat' first
    | with_reducible
      first
      | assumption | apply evalWaits_kept | apply Kept.ite
    | fail_if_no_progress refine Kept.upd ?_ rfl rfl rfl rfl rfl rfl rfl rfl rfl

theorem flushOuts_kept {base : State} (d n : Nat) (s : State) (hb : Kept base s) : Kept base (flushOuts d n s) := by
  induction n generalizing s with
  | zero => exact hb
  | succ n ih =>
    simp only [flushOuts]
    split
    · exact hb
    · exact Kept.ite (ih _ (writeOut_kept _ _ _ (modDec_kept _ _ _ hb))) (waitOut_kept _ _ hb)

theorem endFrame_kept {base : State} (d status : Nat) (f : DecFrame) (s : State) (hb : Kept base s) :
    Kept base (endFrame d status f s) := by
  unfold endFrame
  try dsimp only
  repeat' first
    | with_reducible
      first
      | assumption | apply record_kept | apply settle_kept | apply modDec_kept | apply flushOuts_kept | apply Kept.ite
    | fail_if_no_progress refine Kept.upd ?_ rfl rfl rfl rfl rfl rfl rfl rfl rfl | (intro _; intros; try dsimp only)

theorem takeHead_kept {base : State} (d : Nat) (s : State) (hb : Kept base s) :
    Kept base (takeHead d s) := by
  unfold takeHead
  try dsimp only
  repeat' first
    | with_reducible
      first
      | assumption | apply writeMem'_kept | apply modDec_kept
    | fail_if_no_progress refine Kept.upd ?_ rfl rfl rfl rfl rfl rfl rfl rfl rfl | (intro _; intros; try dsimp only)

theorem addChunk_kept {base : State} (d : Nat) (c : List Nat) (s : State) (hb : Kept base s) :
    Kept base (addChunk d c s) := by
  unfold addChunk
  try dsimp only
  repeat' first
    | with_reducible
      first
      | assumption | apply readMem_kept | apply modDec_kept | apply Kept.ite | (apply Kept.iteSnd <;> dsimp only)
      | (apply Kept.iteSnd2 <;> dsimp only) | (apply Kept.iteFst <;> dsimp only) | apply Kept.foldlSnd
      | apply Kept.foldlFst | apply Kept.foldl
    | fail_if_no_progress refine Kept.upd ?_ rfl rfl rfl rfl rfl rfl rfl rfl rfl | (split <;> try dsimp only)
    | (intro _; intros; try dsimp only)

theorem takeChunk_kept {base : State} (d : Nat) (c : List Nat) (s : State) (hb : Kept base s) :
    Kept base (takeChunk d c s) := by
  unfold takeChunk
  try dsimp only
  repeat' first
    | with_reducible
      first
      | assumption | apply event_kept | apply settle_kept | apply endFrame_kept | apply addChunk_kept | apply Kept.ite
    | fail_if_no_progress refine Kept.upd ?_ rfl rfl rfl rfl rfl rfl rfl rfl rfl

theorem pump_kept {base : State} (d n : Nat) (s : State) (hb : Kept base s) : Kept base (pump d n s) := by
  induction n generalizing s with
  | zero => exact hb
  | succ n ih =>
    simp only [pump]
    exact Kept.ite hb (Kept.ite (readMem_kept _ _ _ _ _ _ hb)
      (ih _ (takeChunk_kept _ _ _ (takeHead_kept _ _ (readMem_kept _ _ _ _ _ _ hb)))))

theorem setEngine_kept {base : State} (e : Nat) (v : DecEngine) (s : State) (hb : Kept base s) :
    Kept base (setEngine e v s) := by
  unfold setEngine
  try dsimp only
  repeat' first
    | with_reducible
      first
      | assumption
    | fail_if_no_progress refine Kept.upd ?_ rfl rfl rfl rfl rfl rfl rfl rfl rfl

theorem assignEngine_kept {base : State} (s : State) (e : Nat) (hb : Kept base s) :
    Kept base (assignEngine s e) := by
  unfold assignEngine
  try dsimp only
  repeat' first
    | with_reducible
      first
      | assumption | apply setEngine_kept | apply Kept.ite
    | fail_if_no_progress refine Kept.upd ?_ rfl rfl rfl rfl rfl rfl rfl rfl rfl | (split <;> try dsimp only)
    | (intro _; intros; try dsimp only)

theorem assignEngines_kept {base : State} (s : State) (hb : Kept base s) :
    Kept base (assignEngines s) := by
  unfold assignEngines
  try dsimp only
  repeat' first
    | with_reducible
      first
      | assumption | apply assignEngine_kept | apply Kept.foldl
    | (intro _; intros; try dsimp only)

theorem failFrame_kept {base : State} (d status : Nat) (f : DecFrame) (s : State) (hb : Kept base s) :
    Kept base (failFrame d status f s) := by
  unfold failFrame
  try dsimp only
  repeat' first
    | with_reducible
      first
      | assumption | apply endFrame_kept | apply modDec_kept
    | fail_if_no_progress refine Kept.upd ?_ rfl rfl rfl rfl rfl rfl rfl rfl rfl | (intro _; intros; try dsimp only)

theorem abandon_kept {base : State} (d : Nat) (f : DecFrame) (s : State) (hb : Kept base s) :
    Kept base (abandon d f s) := by
  unfold abandon
  try dsimp only
  repeat' first
    | with_reducible
      first
      | assumption | apply failFrame_kept | apply incSat_kept

theorem goodFrame_kept {base : State} (d : Nat) (f : DecFrame) (p : SliceReport) (s : State) (hb : Kept base s) :
    Kept base (goodFrame d f p s) := by
  unfold goodFrame
  try dsimp only
  repeat' first
    | with_reducible
      first
      | assumption | apply incWrap_kept | apply modDec_kept | apply endFrame_kept | apply Kept.ite | apply Kept.foldl
    | fail_if_no_progress refine Kept.upd ?_ rfl rfl rfl rfl rfl rfl rfl rfl rfl | (intro _; intros; try dsimp only)

theorem judgeSlice_kept {base : State} (d : Nat) (f : DecFrame) (p : SliceReport) (s : State) (hb : Kept base s) :
    Kept base (judgeSlice d f p s) := by
  unfold judgeSlice
  try dsimp only
  repeat' first
    | with_reducible
      first
      | assumption | apply abandon_kept | apply event_kept | apply modDec_kept | apply settle_kept
      | apply failFrame_kept | apply goodFrame_kept | apply Kept.ite
    | fail_if_no_progress refine Kept.upd ?_ rfl rfl rfl rfl rfl rfl rfl rfl rfl | (intro _; intros; try dsimp only)

theorem sliceEnd_kept {base : State} (e : Nat) (k : Nat → DecFrame → State → State) (s : State)
    (hk : ∀ z0 z1 z2, Kept base z2 → Kept base (k z0 z1 z2)) (hb : Kept base s) :
    Kept base (sliceEnd e k s) := by
  unfold sliceEnd
  try dsimp only
  repeat' first
    | with_reducible
      first
      | assumption | apply setEngine_kept | apply assignEngines_kept | apply pump_kept | apply record_kept | apply hk
    | fail_if_no_progress refine Kept.upd ?_ rfl rfl rfl rfl rfl rfl rfl rfl rfl | (split <;> try dsimp only)
    | (intro _; intros; try dsimp only)

theorem decDone_kept {base : State} (d : Nat) (r : Refuse) (s : State) (hb : Kept base s) :
    Kept base (decDone d r s) := by
  unfold decDone
  try dsimp only
  repeat' first
    | with_reducible
      first
      | assumption | apply commitDone_kept | apply wr_kept

end Sys2Proof.Machine
end

