-- ==== Sys2Proof/Laws/KeptRecord.lean ====
section
/-! SUPPORT. What the operations of Machine/Record.lean keep (`Kept`). -/

set_option linter.unusedTactic false
set_option linter.unreachableTactic false

namespace Sys2Proof.Machine

open Reg

theorem record_kept {base : State} (kind : Nat) (a : Act) (s : State) (hb : Kept base s) :
    Kept base (record kind a s) := by
  unfold record
  try dsimp only
  repeat' first
    | with_reducible
      first
      | assumption | apply event_kept | apply wr_kept
    | fail_if_no_progress refine Kept.upd ?_ rfl rfl rfl rfl rfl rfl rfl rfl rfl

theorem writeBack_kept {base : State} (s : State) (hb : Kept base s) :
    Kept base (writeBack s) := by
  unfold writeBack
  try dsimp only
  repeat' first
    | with_reducible
      first
      | assumption
    | fail_if_no_progress refine Kept.upd ?_ rfl rfl rfl rfl rfl rfl rfl rfl rfl

end Sys2Proof.Machine
end

