-- ==== Sys2Proof/Laws/KeptDayPlan.lean ====
section
/-! SUPPORT. What the operations of Machine/DayPlan.lean keep (`Kept`). -/

set_option linter.unusedTactic false
set_option linter.unreachableTactic false

namespace Sys2Proof.Machine

open Reg

theorem dayDone_kept {base : State} (r : Nat × Nat × Nat) (fieldOff : Nat) (s : State) (hb : Kept base s) :
    Kept base (dayDone r fieldOff s) := by
  unfold dayDone
  try dsimp only
  repeat' first
    | with_reducible
      first
      | assumption | apply commitDone_kept | apply wr_kept | (apply Kept.iteSnd <;> dsimp only)

theorem dayStart_kept {base : State} (s : State) (hb : Kept base s) :
    Kept base (dayStart s) := by
  unfold dayStart
  try dsimp only
  repeat' first
    | with_reducible
      first
      | assumption | apply readMem_kept | apply dayDone_kept | apply commitBusy_kept | apply wrB_kept | apply Kept.ite
      | (apply Kept.iteSnd <;> dsimp only)
    | fail_if_no_progress refine Kept.upd ?_ rfl rfl rfl rfl rfl rfl rfl rfl rfl

theorem stagePlan_kept {base : State} (p : Plan) (s : State) (hb : Kept base s) :
    Kept base (stagePlan p s) := by
  unfold stagePlan
  try dsimp only
  repeat' first
    | with_reducible
      first
      | assumption | apply wrB_kept | apply wr_kept | apply refreshLedger_kept | apply Kept.foldl
    | fail_if_no_progress refine Kept.upd ?_ rfl rfl rfl rfl rfl rfl rfl rfl rfl | (intro _; intros; try dsimp only)

theorem releaseStaged_kept {base : State} (c : Nat) (s : State) (hb : Kept base s) :
    Kept base (releaseStaged c s) := by
  unfold releaseStaged
  try dsimp only
  repeat' first
    | with_reducible
      first
      | assumption | apply Kept.ite
    | fail_if_no_progress refine Kept.upd ?_ rfl rfl rfl rfl rfl rfl rfl rfl rfl | (intro _; intros; try dsimp only)

theorem startSwitch_kept {base : State} (c inCtx : Nat) (watch at_ : Option Nat) (s : State) (hb : Kept base s) :
    Kept base (startSwitch c inCtx watch at_ s) := by
  unfold startSwitch
  try dsimp only
  repeat' first
    | with_reducible
      first
      | assumption | apply requestStop_kept | apply wrB_kept | apply modCourse_kept | apply releaseStaged_kept
    | fail_if_no_progress refine Kept.upd ?_ rfl rfl rfl rfl rfl rfl rfl rfl rfl | (intro _; intros; try dsimp only)

theorem passOn_kept {base : State} (c ctx end_ : Nat) (s : State) (hb : Kept base s) :
    Kept base (passOn c ctx end_ s) := by
  unfold passOn
  try dsimp only
  repeat' first
    | with_reducible
      first
      | assumption | apply requestStop_kept | apply modCourse_kept | apply startSwitch_kept | apply Kept.ite
    | fail_if_no_progress refine Kept.upd ?_ rfl rfl rfl rfl rfl rfl rfl rfl rfl | (split <;> try dsimp only)
    | (intro _; intros; try dsimp only)

theorem endWatchOn_kept {base : State} (i : Nat) (w : Watch) (s : State) (c : Nat) (hb : Kept base s) :
    Kept base (endWatchOn i w s c) := by
  unfold endWatchOn
  try dsimp only
  repeat' first
    | with_reducible
      first
      | assumption | apply passOn_kept | apply wr_kept | apply modCourse_kept | apply event_kept | apply incSat_kept
      | apply Kept.ite
    | fail_if_no_progress refine Kept.upd ?_ rfl rfl rfl rfl rfl rfl rfl rfl rfl | (intro _; intros; try dsimp only)

theorem endWatch_kept {base : State} (i : Nat) (s : State) (hb : Kept base s) :
    Kept base (endWatch i s) := by
  unfold endWatch
  try dsimp only
  repeat' first
    | with_reducible
      first
      | assumption | apply passTo_kept | apply endWatchOn_kept | apply Kept.ite | apply Kept.foldl
    | fail_if_no_progress refine Kept.upd ?_ rfl rfl rfl rfl rfl rfl rfl rfl rfl | (split <;> try dsimp only)
    | (intro _; intros; try dsimp only)

theorem nightStop_kept {base : State} (s : State) (hb : Kept base s) :
    Kept base (nightStop s) := by
  unfold nightStop
  try dsimp only
  repeat' first
    | with_reducible
      first
      | assumption | apply requestStop_kept | apply wr_kept | apply modCourse_kept | apply releaseStaged_kept
      | apply Kept.foldl
    | fail_if_no_progress refine Kept.upd ?_ rfl rfl rfl rfl rfl rfl rfl rfl rfl | (intro _; intros; try dsimp only)

theorem nightHook_kept {base : State} (s : State) (hb : Kept base s) :
    Kept base (nightHook s) := by
  unfold nightHook
  try dsimp only
  repeat' first
    | with_reducible
      first
      | assumption | apply nightStop_kept | apply Kept.ite

theorem restoreState_kept {base : State} (ctx c : Nat) (s : State) (hb : Kept base s) :
    Kept base (restoreState ctx c s) := by
  unfold restoreState
  try dsimp only
  repeat' first
    | with_reducible
      first
      | assumption | apply readMem_kept | apply Kept.ite | (apply Kept.iteSnd <;> dsimp only) | apply Kept.foldlSnd
      | apply Kept.foldlFst | apply Kept.foldl
    | fail_if_no_progress refine Kept.upd ?_ rfl rfl rfl rfl rfl rfl rfl rfl rfl | (intro _; intros; try dsimp only)

theorem restoreIdle_kept {base : State} (ctx c : Nat) (s : State) (hb : Kept base s) :
    Kept base (restoreIdle ctx c s) := by
  unfold restoreIdle
  try dsimp only
  repeat' first
    | with_reducible
      first
      | assumption | apply restoreState_kept | apply Kept.ite

theorem startBrickTest_kept {base : State} (c : Nat) (s : State) (hb : Kept base s) :
    Kept base (startBrickTest c s) := by
  unfold startBrickTest
  try dsimp only
  repeat' first
    | with_reducible
      first
      | assumption | apply modCourse_kept | apply Kept.ite
    | fail_if_no_progress refine Kept.upd ?_ rfl rfl rfl rfl rfl rfl rfl rfl rfl | (intro _; intros; try dsimp only)

theorem beginWatch_kept {base : State} (i : Nat) (w : Watch) (c : Nat) (s : State) (hb : Kept base s) :
    Kept base (beginWatch i w c s) := by
  unfold beginWatch
  try dsimp only
  repeat' first
    | with_reducible
      first
      | assumption | apply wr_kept | apply modCourse_kept | apply wakeCourse_kept | apply restoreIdle_kept
      | apply startBrickTest_kept | apply event_kept | apply incSat_kept | apply Kept.ite
    | fail_if_no_progress refine Kept.upd ?_ rfl rfl rfl rfl rfl rfl rfl rfl rfl | (intro _; intros; try dsimp only)

theorem nextPeriod_kept {base : State} (s : State) (hb : Kept base s) :
    Kept base (nextPeriod s) := by
  unfold nextPeriod
  try dsimp only
  repeat' first
    | with_reducible
      first
      | assumption | apply endWatch_kept | apply passTo_kept | apply nightHook_kept | apply incWrap_kept
      | apply Kept.foldl
    | fail_if_no_progress refine Kept.upd ?_ rfl rfl rfl rfl rfl rfl rfl rfl rfl | (split <;> try dsimp only)
    | (intro _; intros; try dsimp only)

theorem takeoverCourse_kept {base : State} (p : Plan) (s : State) (c : Nat) (hb : Kept base s) :
    Kept base (takeoverCourse p s c) := by
  unfold takeoverCourse
  try dsimp only
  repeat' first
    | with_reducible
      first
      | assumption | apply startSwitch_kept | apply Kept.ite
    | (split <;> try dsimp only)

theorem zeroCourse_kept {base : State} (c : Nat) (s : State) (hb : Kept base s) :
    Kept base (zeroCourse c s) := by
  unfold zeroCourse
  try dsimp only
  repeat' first
    | with_reducible
      first
      | assumption
    | fail_if_no_progress refine Kept.upd ?_ rfl rfl rfl rfl rfl rfl rfl rfl rfl

theorem saveState_kept {base : State} (c : Nat) (s : State) (hb : Kept base s) :
    Kept base (saveState c s) := by
  unfold saveState
  try dsimp only
  repeat' first
    | with_reducible
      first
      | assumption | apply zeroCourse_kept | apply writeMem'_kept | apply Kept.ite
      | (apply Kept.iteSnd <;> dsimp only)
    | fail_if_no_progress refine Kept.upd ?_ rfl rfl rfl rfl rfl rfl rfl rfl rfl | (intro _; intros; try dsimp only)

theorem goFurther_kept {base : State} (c inCtx : Nat) (s : State) (hb : Kept base s) :
    Kept base (goFurther c inCtx s) := by
  unfold goFurther
  try dsimp only
  repeat' first
    | with_reducible
      first
      | assumption | apply startSwitch_kept | apply Kept.ite | (apply Kept.iteSnd <;> dsimp only)
    | (split <;> try dsimp only) | (intro _; intros; try dsimp only)

theorem finishSwitch_kept {base : State} (c : Nat) (sw : Switch) (s : State) (hb : Kept base s) :
    Kept base (finishSwitch c sw s) := by
  unfold finishSwitch
  try dsimp only
  repeat' first
    | with_reducible
      first
      | assumption | apply saveState_kept | apply wrB_kept | apply modCourse_kept | apply goFurther_kept
      | apply restoreState_kept | apply Kept.ite
    | fail_if_no_progress refine Kept.upd ?_ rfl rfl rfl rfl rfl rfl rfl rfl rfl | (intro _; intros; try dsimp only)

end Sys2Proof.Machine
end

