-- ==== Sys2Proof/Laws/KeptKeyStore.lean ====
section
/-! SUPPORT. What the operations of Machine/KeyStore.lean keep (`Kept`). -/

set_option linter.unusedTactic false
set_option linter.unreachableTactic false

namespace Sys2Proof.Machine

open Reg

theorem refreshKey_kept {base : State} (s : State) (hb : Kept base s) :
    Kept base (refreshKey s) := by
  unfold refreshKey
  try dsimp only
  repeat' first
    | with_reducible
      first
      | assumption | apply wr_kept | apply wrB_kept

theorem modKey_kept {base : State} (f : KeyState → KeyState) (s : State) (hw : s.key.fwMin ≤ (f s.key).fwMin)
    (hq : ∀ k, aget s.key.policyMin k 0 ≤ aget (f s.key).policyMin k 0) (hb : Kept base s) : Kept base (modKey f s) :=
  hb.trans ⟨rfl, Nat.le_refl _, Nat.le_refl _, id, Nat.le_refl _, fun _ _ x => x, hw, hq⟩

/-- A change of Keystone that leaves the minima. -/
theorem modKey_same {base : State} (f : KeyState → KeyState) (s : State) (hw : (f s.key).fwMin = s.key.fwMin)
    (hq : (f s.key).policyMin = s.key.policyMin) (hb : Kept base s) : Kept base (modKey f s) :=
  modKey_kept f s (Nat.le_of_eq hw.symm) (fun k => Nat.le_of_eq (by rw [hq])) hb

theorem raiseAt_le (m : AMap Nat) (k v j : Nat) : aget m j 0 ≤ aget (raiseAt m k v) j 0 := by
  unfold raiseAt
  rw [aget_aset _ _ _ _ _ _ (fun _ => rfl)]
  split
  · subst_vars; exact Nat.le_max_left _ _
  · exact Nat.le_refl _

theorem drawChallenge_kept {base : State} (s : State) (hb : Kept base s) :
    Kept base (drawChallenge s) := by
  unfold drawChallenge
  try dsimp only
  repeat' first
    | with_reducible
      first
      | assumption | apply withDraw_kept | apply wr_kept | apply Kept.foldl
    | (intro _; intros; try dsimp only)

theorem requestDone_kept {base : State} (st fieldOff : Nat) (s : State) (hb : Kept base s) :
    Kept base (requestDone st fieldOff s) := by
  unfold requestDone
  try dsimp only
  repeat' first
    | with_reducible
      first
      | assumption | apply acceptStaged_kept | apply commitDone_kept | apply wr_kept | apply Kept.ite

theorem checkRequest_kept {base : State} (b : List Nat) (act : List Nat → State → Nat × (State → State)) (s : State)
    (ha : ∀ x, Kept base x → Kept base ((act b s).2 x)) (hb : Kept base s) : Kept base (checkRequest b act s) := by
  unfold checkRequest
  refine drawChallenge_kept _ (requestDone_kept _ _ _ ?_)
  split
  · exact ha _ (record_kept _ _ _ hb)
  · exact record_kept _ _ _ hb

theorem keyRequest_kept {base : State} (kind value : Nat) (body : List Nat → State → State) (s : State)
    (hbody : ∀ z0 z1, Kept base z1 → Kept base (body z0 z1)) (hb : Kept base s) :
    Kept base (keyRequest kind value body s) := by
  unfold keyRequest
  try dsimp only
  repeat' first
    | with_reducible
      first
      | assumption | apply commitAt_kept | apply requestDone_kept | apply readMem_kept | apply hbody | apply Kept.ite
      | (apply Kept.iteSnd <;> dsimp only)
    | (intro _; intros; try dsimp only)

theorem plainRequest_kept {base : State} (act : List Nat → State → Nat × (State → State)) (b : List Nat) (s : State)
    (ha : ∀ x, Kept base x → Kept base ((act b s).2 x)) (hb : Kept base s) : Kept base (plainRequest act b s) :=
  Kept.ite (requestDone_kept _ _ _ hb) (checkRequest_kept _ _ _ ha hb)

theorem burn_kept {base : State} (s : State) (hb : Kept base s) :
    Kept base (burn s) := by
  unfold burn
  try dsimp only
  repeat' first
    | with_reducible
      first
      | assumption | apply refreshKey_kept | (apply modKey_same; exact rfl; exact rfl)
    | fail_if_no_progress refine Kept.upd ?_ rfl rfl rfl rfl rfl rfl rfl rfl rfl | (intro _; intros; try dsimp only)

theorem provisionInstaller_kept {base : State} (b : List Nat) (s x : State) (hb : Kept base x) :
    Kept base ((provisionInstaller b s).2 x) := burn_kept _ (modKey_same _ _ rfl rfl hb)

theorem revokeInstaller_kept {base : State} (b : List Nat) (s x : State) (hb : Kept base x) :
    Kept base ((revokeInstaller b s).2 x) :=
  burn_kept _ (modKey_same _ _ rfl rfl (Kept.upd hb rfl rfl rfl rfl rfl rfl rfl rfl rfl))

theorem drawRegionKeys_kept {base : State} (s : State) (hb : Kept base s) : Kept base (drawRegionKeys s) :=
  hb.keys ⟨rfl, rfl, rfl, rfl, rfl, Nat.le_add_right _ _, rfl, rfl⟩

theorem dropCtxKeys_kept {base : State} (s : State) (hb : Kept base s) :
    Kept base (dropCtxKeys s) := by
  unfold dropCtxKeys
  try dsimp only
  repeat' first
    | with_reducible
      first
      | assumption | apply record_kept | apply Kept.foldl
    | fail_if_no_progress refine Kept.upd ?_ rfl rfl rfl rfl rfl rfl rfl rfl rfl | (intro _; intros; try dsimp only)

theorem clearPlans_kept {base : State} (s : State) (hb : Kept base s) :
    Kept base (clearPlans s) := by
  unfold clearPlans
  try dsimp only
  repeat' first
    | with_reducible
      first
      | assumption | apply wrB_kept | apply wr_kept | apply refreshLedger_kept | (apply Kept.iteSnd <;> dsimp only)
      | apply Kept.foldlSnd | apply Kept.foldlFst | apply Kept.foldl
    | fail_if_no_progress refine Kept.upd ?_ rfl rfl rfl rfl rfl rfl rfl rfl rfl | (intro _; intros; try dsimp only)

theorem unlock_kept {base : State} (scope : Nat) (s : State) (hb : Kept base s) :
    Kept base (unlock scope s) := by
  unfold unlock
  try dsimp only
  repeat' first
    | with_reducible
      first
      | assumption | apply teardown_kept | apply clearPlans_kept | apply drawRegionKeys_kept | apply dropCtxKeys_kept
      | apply refreshTest_kept | apply wrB_kept | apply event_kept | apply refreshKey_kept
      | (apply modKey_same; exact rfl; exact rfl) | apply Kept.ite | apply Kept.foldl
    | fail_if_no_progress refine Kept.upd ?_ rfl rfl rfl rfl rfl rfl rfl rfl rfl | (intro _; intros; try dsimp only)

theorem unlockHalf_kept {base : State} (b : List Nat) (s : State) (hb : Kept base s) :
    Kept base (unlockHalf b s) := by
  unfold unlockHalf
  try dsimp only
  repeat' first
    | with_reducible
      first
      | assumption | apply record_kept | apply drawChallenge_kept | apply requestDone_kept | apply refreshKey_kept
      | (apply modKey_same; exact rfl; exact rfl) | apply unlock_kept | apply Kept.ite
    | fail_if_no_progress refine Kept.upd ?_ rfl rfl rfl rfl rfl rfl rfl rfl rfl | (split <;> try dsimp only)
    | (intro _; intros; try dsimp only)

theorem policyDone_kept {base : State} (st fieldOff : Nat) (s : State) (hb : Kept base s) :
    Kept base (policyDone st fieldOff s) := by
  unfold policyDone
  try dsimp only
  repeat' first
    | with_reducible
      first
      | assumption | apply acceptStaged_kept | apply commitDone_kept | apply wr_kept | apply Kept.ite

theorem registerPolicy_kept {base : State} (a : Nat) (s : State) (hb : Kept base s) :
    Kept base (registerPolicy a s) := by
  unfold registerPolicy
  try dsimp only
  repeat' first
    | with_reducible
      first
      | assumption | apply readMem_kept | apply policyDone_kept | apply record_kept | apply wr_kept
      | (apply modKey_same; exact rfl; exact rfl) | apply Kept.ite | (apply Kept.iteSnd <;> dsimp only)
    | fail_if_no_progress refine Kept.upd ?_ rfl rfl rfl rfl rfl rfl rfl rfl rfl | (intro _; intros; try dsimp only)

theorem attDone_kept {base : State} (st fieldOff : Nat) (s : State) (hb : Kept base s) :
    Kept base (attDone st fieldOff s) := by
  unfold attDone
  try dsimp only
  repeat' first
    | with_reducible
      first
      | assumption | apply acceptStaged_kept | apply commitDone_kept | apply wr_kept | apply Kept.ite

theorem writeReport_kept {base : State} (a c : Nat) (table : List Nat) (safe : Nat) (s : State) (hb : Kept base s) :
    Kept base (writeReport a c table safe s) := by
  unfold writeReport
  try dsimp only
  repeat' first
    | with_reducible
      first
      | assumption | apply readMem_kept | apply attDone_kept | apply withDraw_kept | apply writeMem'_kept
      | apply Kept.ite | (apply Kept.iteSnd <;> dsimp only)
    | (intro _; intros; try dsimp only)

theorem keyCopy_kept {base : State} (value op size : Nat) (data : State → List Nat) (s : State) (hb : Kept base s) :
    Kept base (keyCopy value op size data s) := by
  unfold keyCopy
  try dsimp only
  repeat' first
    | with_reducible
      first
      | assumption | apply commitAt_kept | apply commitDone_kept | apply wr_kept | apply writeMem'_kept
      | apply acceptStaged_kept | apply Kept.ite
    | (intro _; intros; try dsimp only)

end Sys2Proof.Machine
end

