-- ==== Sys2Proof/Laws/KeptSafeState.lean ====
section
/-! SUPPORT. What the operations of Machine/SafeState.lean keep (`Kept`). -/

set_option linter.unusedTactic false
set_option linter.unreachableTactic false

namespace Sys2Proof.Machine

open Reg

theorem setIsland_kept {base : State} (i : Nat) (v : Island) (s : State) (hb : Kept base s) :
    Kept base (setIsland i v s) := by
  unfold setIsland
  try dsimp only
  repeat' first
    | with_reducible
      first
      | assumption | apply Kept.ite
    | fail_if_no_progress refine Kept.upd ?_ rfl rfl rfl rfl rfl rfl rfl rfl rfl

theorem modIsland_kept {base : State} (i : Nat) (f : Island → Island) (s : State) (hb : Kept base s) :
    Kept base (modIsland i f s) := by
  unfold modIsland
  try dsimp only
  repeat' first
    | with_reducible
      first
      | assumption | apply setIsland_kept

theorem heardAt_kept {base : State} (i src : Nat) (s : State) (hb : Kept base s) :
    Kept base (heardAt i src s) := by
  unfold heardAt
  try dsimp only
  repeat' first
    | with_reducible
      first
      | assumption | apply modIsland_kept
    | fail_if_no_progress refine Kept.upd ?_ rfl rfl rfl rfl rfl rfl rfl rfl rfl | (intro _; intros; try dsimp only)

theorem holdState_kept {base : State} (i st : Nat) (s : State) (hb : Kept base s) :
    Kept base (holdState i st s) := by
  unfold holdState
  try dsimp only
  repeat' first
    | with_reducible
      first
      | assumption | apply modIsland_kept | apply wr_kept | apply Kept.ite
    | fail_if_no_progress refine Kept.upd ?_ rfl rfl rfl rfl rfl rfl rfl rfl rfl | (intro _; intros; try dsimp only)

theorem noteCause_kept {base : State} (i cause : Nat) (s : State) (hb : Kept base s) :
    Kept base (noteCause i cause s) := by
  unfold noteCause
  try dsimp only
  repeat' first
    | with_reducible
      first
      | assumption | apply wr_kept

theorem commandState_kept {base : State} (i st cause who : Nat) (s : State) (hb : Kept base s) :
    Kept base (commandState i st cause who s) := by
  unfold commandState
  try dsimp only
  repeat' first
    | with_reducible
      first
      | assumption | apply holdState_kept | apply noteCause_kept | apply modIsland_kept | apply send_kept
      | apply event_kept | apply Kept.ite
    | fail_if_no_progress refine Kept.upd ?_ rfl rfl rfl rfl rfl rfl rfl rfl rfl | (intro _; intros; try dsimp only)

end Sys2Proof.Machine
end

