-- ==== Sys2Proof/Laws/KeptSilent.lean ====
section
/-! SUPPORT. What the operations of Machine/Silent.lean keep (`Kept`). -/

set_option linter.unusedTactic false
set_option linter.unreachableTactic false

namespace Sys2Proof.Machine

open Reg

theorem capture_kept {base : State} (x : Site) (st : Stall) (j : MmaJob) (outcome : Nat) (host : List Nat)
    (s : State) (hb : Kept base s) :
    Kept base (capture x st j outcome host s) := by
  unfold capture
  try dsimp only
  repeat' first
    | with_reducible
      first
      | assumption | apply incSat_kept | apply writeMem_kept | apply incWrap_kept | apply Kept.ite
      | (apply Kept.iteSnd <;> dsimp only)

theorem foldShadow_kept {base : State} (x : Site) (st : Stall) (j : MmaJob) (s : State) (hb : Kept base s) :
    Kept base (foldShadow x st j s) := by
  unfold foldShadow
  try dsimp only
  repeat' first
    | with_reducible
      first
      | assumption | apply noteArith_kept | apply wrAccTile_kept | (apply Kept.iteSnd <;> dsimp only)

theorem replayCost_kept {base : State} (x : Site) (host : Nat) (s : State) (hb : Kept base s) :
    Kept base (replayCost x host s) := by
  unfold replayCost
  try dsimp only
  repeat' first
    | with_reducible
      first
      | assumption | apply withDraw_kept | apply addCycles_kept
    | (split <;> try dsimp only) | (intro _; intros; try dsimp only)

theorem clearFence_kept {base : State} (b : Nat) (s : State) (hb : Kept base s) :
    Kept base (clearFence b s) := by
  unfold clearFence
  try dsimp only
  repeat' first
    | with_reducible
      first
      | assumption | apply wrB_kept | apply wr_kept | apply event_kept | (apply Kept.iteSnd <;> dsimp only)
      | apply Kept.foldlSnd | apply Kept.foldlFst | apply Kept.foldl
    | (intro _; intros; try dsimp only)

theorem endTest_kept {base : State} (t : TestRun) (pass : Bool) (packId pattern : Nat) (s : State) (hb : Kept base s) :
    Kept base (endTest t pass packId pattern s) := by
  unfold endTest
  try dsimp only
  repeat' first
    | with_reducible
      first
      | assumption | apply modCourse_kept | apply modBrick_kept | apply modIsland_kept | apply pass_kept
      | apply clearFence_kept | apply event_kept | apply incSat_kept | apply fenceBrick_kept | apply Kept.ite
      | apply Kept.foldl
    | fail_if_no_progress refine Kept.upd ?_ rfl rfl rfl rfl rfl rfl rfl rfl rfl | (intro _; intros; try dsimp only)

theorem packDone_kept {base : State} (st off : Nat) (s : State) (hb : Kept base s) :
    Kept base (packDone st off s) := by
  unfold packDone
  try dsimp only
  repeat' first
    | with_reducible
      first
      | assumption | apply commitDone_kept | apply wr_kept | apply wrB_kept

theorem packStart_kept {base : State} (op value : Nat) (s : State) (hb : Kept base s) :
    Kept base (packStart op value s) := by
  unfold packStart
  try dsimp only
  repeat' first
    | with_reducible
      first
      | assumption | apply commitAt_kept | apply install_kept | apply commitBusy_kept | apply wrB_kept
      | apply commitDone_kept | apply wr_kept | apply packDone_kept | apply readMem_kept | apply Kept.ite
      | (apply Kept.iteSnd <;> dsimp only)
    | fail_if_no_progress refine Kept.upd ?_ rfl rfl rfl rfl rfl rfl rfl rfl rfl | (intro _; intros; try dsimp only)

theorem showPacks_kept {base : State} (s : State) (hb : Kept base s) :
    Kept base (showPacks s) := by
  unfold showPacks
  try dsimp only
  repeat' first
    | with_reducible
      first
      | assumption | apply wr_kept | apply refreshTest_kept | apply Kept.foldl
    | (intro _; intros; try dsimp only)

theorem loadPack_kept {base : State} (p : Pack) (s : State) (hb : Kept base s) :
    Kept base (loadPack p s) := by
  unfold loadPack
  try dsimp only
  repeat' first
    | with_reducible
      first
      | assumption | apply writeMem'_kept | (apply Kept.iteSnd <;> dsimp only) | apply Kept.foldlSnd
      | apply Kept.foldlFst | apply Kept.foldl
    | (intro _; intros; try dsimp only)

end Sys2Proof.Machine
end

