-- ==== Sys2Proof/Laws/KeptContexts.lean ====
section
/-! SUPPORT. What the operations of Machine/Contexts.lean keep (`Kept`). -/

set_option linter.unusedTactic false
set_option linter.unreachableTactic false

namespace Sys2Proof.Machine

open Reg

theorem readImage_kept {base : State} (c r n a : Nat) (s : State) (hb : Kept base s) :
    Kept base (readImage c r n a s).2 := by
  unfold readImage
  try dsimp only
  repeat' first
    | with_reducible
      first
      | assumption | apply readMem_kept | apply Kept.ite | (apply Kept.iteSnd <;> dsimp only)
    | (split <;> try dsimp only)

theorem fillSlot_kept {base : State} (c k : Nat) (img : List Nat) (s : State) (hb : Kept base s) :
    Kept base (fillSlot c k img s) := by
  unfold fillSlot
  try dsimp only
  repeat' first
    | with_reducible
      first
      | assumption | apply writeMem'_kept
    | fail_if_no_progress refine Kept.upd ?_ rfl rfl rfl rfl rfl rfl rfl rfl rfl

theorem drawCtxKey_kept {base : State} (c : Nat) (s : State) (hb : Kept base s) : Kept base (drawCtxKey c s) :=
  hb.keys ⟨rfl, rfl, rfl, rfl, rfl, Nat.le_succ _, rfl, rfl⟩

theorem openKey_kept {base : State} (c : Nat) (s : State) (hb : Kept base s) :
    Kept base (openKey c s) := by
  unfold openKey
  try dsimp only
  repeat' first
    | with_reducible
      first
      | assumption | apply record_kept | apply drawCtxKey_kept | apply modCtx_kept | apply Kept.ite
    | fail_if_no_progress refine Kept.upd ?_ rfl rfl rfl rfl rfl rfl rfl rfl rfl | (intro _; intros; try dsimp only)

theorem resetTies_kept {base : State} (c : Nat) (s : State) (hb : Kept base s) :
    Kept base (resetTies c s) := by
  unfold resetTies
  try dsimp only
  repeat' first
    | with_reducible
      first
      | assumption | apply evalWaits_kept | apply Kept.foldl
    | fail_if_no_progress refine Kept.upd ?_ rfl rfl rfl rfl rfl rfl rfl rfl rfl | (intro _; intros; try dsimp only)

theorem zeroHealth_kept {base : State} (c : Nat) (s : State) (hb : Kept base s) :
    Kept base (zeroHealth c s) := by
  unfold zeroHealth
  try dsimp only
  repeat' first
    | with_reducible
      first
      | assumption | apply wr_kept | apply Kept.foldl
    | (split <;> try dsimp only) | (intro _; intros; try dsimp only)

theorem openContext_kept {base : State} (c : Nat) (s : State) (hb : Kept base s) :
    Kept base (openContext c s) := by
  unfold openContext
  try dsimp only
  repeat' first
    | with_reducible
      first
      | assumption | apply openKey_kept | apply acceptStaged_kept | apply modCtx_kept | apply wr_kept
      | apply dropOuvur_kept | apply zeroHealth_kept | apply resetTies_kept | apply readDoorbell_kept
      | apply modRing_kept | apply Kept.ite | apply Kept.foldl
    | fail_if_no_progress refine Kept.upd ?_ rfl rfl rfl rfl rfl rfl rfl rfl rfl | (intro _; intros; try dsimp only)

theorem closeContext_kept {base : State} (c : Nat) (s : State) (hb : Kept base s) :
    Kept base (closeContext c s) := by
  unfold closeContext
  try dsimp only
  repeat' first
    | with_reducible
      first
      | assumption | apply acceptStaged_kept | apply teardown_kept | apply record_kept | apply wr_kept
      | apply Kept.ite
    | fail_if_no_progress refine Kept.upd ?_ rfl rfl rfl rfl rfl rfl rfl rfl rfl

end Sys2Proof.Machine
end

