-- ==== Sys2Proof/Laws/KeptSetup.lean ====
section
/-! SUPPORT. What the operations of Machine/Setup.lean keep (`Kept`). -/

set_option linter.unusedTactic false
set_option linter.unreachableTactic false

namespace Sys2Proof.Machine

open Reg

theorem readWordBy_kept {base : State} (port addr : Nat) (s : State) (hb : Kept base s) :
    Kept base (readWordBy port addr s).2 := by
  unfold readWordBy
  try dsimp only
  repeat' first
    | with_reducible
      first
      | assumption | apply readWord_kept | apply Kept.ite | (apply Kept.iteSnd <;> dsimp only)
    | fail_if_no_progress refine Kept.upd ?_ rfl rfl rfl rfl rfl rfl rfl rfl rfl | (split <;> try dsimp only)

theorem setupRead_kept {base : State} (port addr width : Nat) (s : State) (hb : Kept base s) :
    Kept base (setupRead port addr width s) := by
  unfold setupRead
  try dsimp only
  repeat' first
    | with_reducible
      first
      | assumption | apply readWordBy_kept | apply readWord_kept | apply Kept.ite | (apply Kept.iteSnd <;> dsimp only)
    | fail_if_no_progress refine Kept.upd ?_ rfl rfl rfl rfl rfl rfl rfl rfl rfl

theorem mailboxArg_kept {base : State} (addr v : Nat) (s : State) (hb : Kept base s) :
    Kept base (mailboxArg addr v s) := by
  unfold mailboxArg
  try dsimp only
  repeat' first
    | with_reducible
      first
      | assumption
    | fail_if_no_progress refine Kept.upd ?_ rfl rfl rfl rfl rfl rfl rfl rfl rfl

theorem mailboxWrite_kept {base : State} (addr width value : Nat) (s : State) (hb : Kept base s) :
    Kept base (mailboxWrite addr width value s) := by
  unfold mailboxWrite
  try dsimp only
  repeat' first
    | with_reducible
      first
      | assumption | apply mailboxArg_kept | apply wr_kept | apply Kept.ite

theorem setupWrite_kept {base : State} (port addr width value : Nat) (s : State) (hb : Kept base s) :
    Kept base (setupWrite port addr width value s) := by
  unfold setupWrite
  try dsimp only
  repeat' first
    | with_reducible
      first
      | assumption | apply noteIgnored_kept | apply mailboxWrite_kept | apply writeWord_kept | apply Kept.ite
    | fail_if_no_progress refine Kept.upd ?_ rfl rfl rfl rfl rfl rfl rfl rfl rfl

end Sys2Proof.Machine
end

