-- ==== Sys2Proof/Laws/KeptDial.lean ====
section
/-! SUPPORT. What the operations of Machine/Dial.lean keep (`Kept`). -/

set_option linter.unusedTactic false
set_option linter.unreachableTactic false

namespace Sys2Proof.Machine

open Reg

theorem setSync_kept {base : State} (v : Nat) (s : State) (hb : Kept base s) :
    Kept base (setSync v s) := by
  unfold setSync
  try dsimp only
  repeat' first
    | with_reducible
      first
      | assumption | apply event_kept | apply wr_kept | apply Kept.ite

theorem countSync_kept {base : State} (o : Int) (s : State) (hb : Kept base s) :
    Kept base (countSync o s) := by
  unfold countSync
  try dsimp only
  repeat' first
    | with_reducible
      first
      | assumption | apply setSync_kept | apply Kept.ite
    | fail_if_no_progress refine Kept.upd ?_ rfl rfl rfl rfl rfl rfl rfl rfl rfl

theorem slew_kept {base : State} (down : Bool) (s : State) (hb : Kept base s) :
    Kept base (slew down s) := by
  unfold slew
  try dsimp only
  repeat' first
    | with_reducible
      first
      | assumption | apply withDraw_kept | apply Kept.ite
    | fail_if_no_progress refine Kept.upd ?_ rfl rfl rfl rfl rfl rfl rfl rfl rfl | (intro _; intros; try dsimp only)

theorem slewDown_kept {base : State} (s : State) (hb : Kept base s) :
    Kept base (slewDown s) := by
  unfold slewDown
  try dsimp only
  repeat' first
    | with_reducible
      first
      | assumption
    | fail_if_no_progress refine Kept.upd ?_ rfl rfl rfl rfl rfl rfl rfl rfl rfl

theorem dialSync_kept {base : State} (reference : Nat) (s : State) (hb : Kept base s) :
    Kept base (dialSync reference s) := by
  unfold dialSync
  try dsimp only
  repeat' first
    | with_reducible
      first
      | assumption | apply wr_kept | apply event_kept | apply wrB_kept | apply slewDown_kept | apply slew_kept
      | apply countSync_kept | apply Kept.ite
    | fail_if_no_progress refine Kept.upd ?_ rfl rfl rfl rfl rfl rfl rfl rfl rfl

theorem limitRate_kept {base : State} (s : State) (hb : Kept base s) :
    Kept base (limitRate s) := by
  unfold limitRate
  try dsimp only
  repeat' first
    | with_reducible
      first
      | assumption | apply slewDown_kept | apply Kept.ite
    | fail_if_no_progress refine Kept.upd ?_ rfl rfl rfl rfl rfl rfl rfl rfl rfl

theorem leaveSource_kept {base : State} (new : Nat) (s : State) (hb : Kept base s) :
    Kept base (leaveSource new s) := by
  unfold leaveSource
  try dsimp only
  repeat' first
    | with_reducible
      first
      | assumption | apply wrB_kept | apply Kept.ite
    | fail_if_no_progress refine Kept.upd ?_ rfl rfl rfl rfl rfl rfl rfl rfl rfl

theorem nwtApply_kept {base : State} (s : State) (hb : Kept base s) :
    Kept base (nwtApply s) := by
  unfold nwtApply
  try dsimp only
  repeat' first
    | with_reducible
      first
      | assumption | apply acceptStaged_kept | apply limitRate_kept | apply setSync_kept | apply wr_kept
      | apply leaveSource_kept | apply Kept.ite

theorem pcieDown_kept {base : State} (s : State) (hb : Kept base s) :
    Kept base (pcieDown s) := by
  unfold pcieDown
  try dsimp only
  repeat' first
    | with_reducible
      first
      | assumption | apply stopRing_kept | apply Kept.ite | apply Kept.foldl
    | fail_if_no_progress refine Kept.upd ?_ rfl rfl rfl rfl rfl rfl rfl rfl rfl | (intro _; intros; try dsimp only)

end Sys2Proof.Machine
end

