-- ==== Sys2Proof/Laws/KeptMove.lean ====
section
/-! SUPPORT. What the operations of Machine/Move.lean keep (`Kept`). -/

set_option linter.unusedTactic false
set_option linter.unreachableTactic false

namespace Sys2Proof.Machine

open Reg

theorem groutWrite_kept {base : State} (port ctx i v : Nat) (s : State) (hb : Kept base s) :
    Kept base (groutWrite port ctx i v s).2 := by
  unfold groutWrite
  try dsimp only
  repeat' first
    | with_reducible
      first
      | assumption | apply writeMem_kept | (apply Kept.iteSnd <;> dsimp only)
    | (split <;> try dsimp only)

theorem groutCount_kept {base : State} (ctx : Nat) (s : State) (hb : Kept base s) :
    Kept base (groutCount ctx s) := by
  unfold groutCount
  try dsimp only
  repeat' first
    | with_reducible
      first
      | assumption | apply incWrap_kept
    | (split <;> try dsimp only)

theorem moveRead_kept {base : State} (x : Site) (kind dir : Nat) (a : Int) (s : State) (hb : Kept base s) :
    Kept base (moveRead x kind dir a s).2.2 := by
  unfold moveRead
  try dsimp only
  repeat' first
    | with_reducible
      first
      | assumption | apply partRead_kept | apply Kept.ite | (apply Kept.iteSnd <;> dsimp only)
      | (apply Kept.iteSnd2 <;> dsimp only)
    | (split <;> try dsimp only)

theorem moveWrite_kept {base : State} (x : Site) (kind dir : Nat) (a : Int) (data : List Nat) (s : State)
    (hb : Kept base s) :
    Kept base (moveWrite x kind dir a data s).2 := by
  unfold moveWrite
  try dsimp only
  repeat' first
    | with_reducible
      first
      | assumption | apply wrBed_kept | apply wrHod_kept | apply partWrite_kept | apply Kept.ite
      | (apply Kept.iteSnd <;> dsimp only)
    | (split <;> try dsimp only)

theorem moveMismatch_kept {base : State} (x : Site) (j : MoveJob) (u : Upset) (whole : Bool) (num : Nat)
    (own : Bool) (s : State) (hb : Kept base s) :
    Kept base (moveMismatch x j u whole num own s) := by
  unfold moveMismatch
  try dsimp only
  repeat' first
    | with_reducible
      first
      | assumption | apply groutCount_kept | apply brickFault_kept | apply strike_kept | apply Kept.ite
    | (split <;> try dsimp only) | (intro _; intros; try dsimp only)

theorem moveEnd_kept {base : State} (x : Site) (e : Nat × List Nat) (s : State) (hb : Kept base s) :
    Kept base (moveEnd x e s) := by
  unfold moveEnd
  try dsimp only
  repeat' first
    | with_reducible
      first
      | assumption | apply courseFault_kept | apply stopLaunch_kept | apply brickFault_kept | apply Kept.ite
      | (apply Kept.iteSnd <;> dsimp only)

theorem checkBlock_kept {base : State} (x : Site) (j : MoveJob) (i : Nat) (m : MoveRun) (hb : Kept base m.s) :
    Kept base (checkBlock x j i m).s := by
  have h1 := readMem_kept x.inst.course x.launch.ctx (groutEntry m.s x.launch.ctx i) 4
    [(x.launch.id, 0x0711, x.inst.course)] m.s hb
  simp only [checkBlock]
  repeat' split
  all_goals exact h1

theorem checkLine_kept {base : State} (x : Site) (j : MoveJob) (a : Int) (data : List Nat) (m : MoveRun)
    (hb : Kept base m.s) : Kept base (checkLine x j a data m).s := by
  unfold checkLine
  split
  · exact hb
  · dsimp only
    repeat' split
    all_goals first | exact hb | exact checkBlock_kept _ _ _ _ hb

theorem groutLine_kept {base : State} (x : Site) (j : MoveJob) (a : Int) (data : List Nat) (m : MoveRun)
    (hb : Kept base m.s) : Kept base (groutLine x j a data m).s := by
  unfold groutLine
  dsimp only
  repeat' split
  all_goals first | exact hb | exact groutWrite_kept _ _ _ _ _ hb

theorem moveLine_kept {base : State} (x : Site) (j : MoveJob) (src dst : List Int) (m : MoveRun) (i : Nat)
    (hb : Kept base m.s) : Kept base (moveLine x j src dst m i).s := by
  have hr := moveRead_kept x j.sk j.dir (src.getD i 0) m.s hb
  simp only [moveLine]
  split
  · exact hb
  · split
    · exact hr
    · have hc := checkLine_kept x j (src.getD i 0) (moveRead x j.sk j.dir (src.getD i 0) m.s).2.1
        { m with s := (moveRead x j.sk j.dir (src.getD i 0) m.s).2.2 } hr
      split
      · exact hc
      · have hw := moveWrite_kept x j.dk j.dir (dst.getD i 0) (moveRead x j.sk j.dir (src.getD i 0) m.s).2.1 _ hc
        split
        · exact hw
        · exact groutLine_kept _ _ _ _ _ hw

theorem moveRun_kept {base : State} (x : Site) (u : Upset) (grout : Bool) (s : State) (hb : Kept base s) :
    Kept base (moveRun x u grout s) := by
  have hm : ∀ src dst, Kept base ((List.range (moveJob x.role.word grout).n).foldl
      (moveLine x (moveJob x.role.word grout) src dst) { s := s }).s := fun src dst =>
    Kept.foldlBy (fun (m : MoveRun) => m.s) _ _ _ (fun m i h => moveLine_kept _ _ _ _ _ _ h) hb
  simp only [moveRun]
  split
  · exact moveEnd_kept _ _ _ (hm _ _)
  · exact moveMismatch_kept _ _ _ _ _ _ _ (hm _ _)
  · exact Kept.ite (moveMismatch_kept _ _ _ _ _ _ _ (hm _ _)) (Kept.ite (brickFault_kept _ _ _ _ _ (hm _ _))
      (goOn_kept _ _ (setRole_kept _ _ _ (hm _ _))))

theorem movePaged_kept {base : State} (x : Site) (u : Upset) (grout : Bool) (s : State) (hb : Kept base s) :
    Kept base (movePaged x u grout s) := by
  have hp := fun i h p => needPage_kept x i h p { s := s } hb
  have hd := fun w => doItem_kept x w s hb
  have h0 : Kept base (AttRun.mk s none 0).s := hb
  unfold movePaged
  split
  · rename_i i h p
    dsimp only
    by_cases hn : pageNamed x i h p = true
    · rw [if_pos hn]
      split
      · exact moveEnd_kept _ _ _ (hp i h p)
      · exact moveRun_kept _ _ _ _ (hp i h p)
    · rw [if_neg hn]
      exact moveRun_kept _ _ _ _ hb
  · rename_i w
    dsimp only
    by_cases hn : itemDue x w = true
    · rw [if_pos hn]
      split
      · exact moveEnd_kept _ _ _ (hd w)
      · exact moveRun_kept _ _ _ _ (hd w)
    · rw [if_neg hn]
      exact moveRun_kept _ _ _ _ hb
  all_goals exact moveRun_kept _ _ _ _ hb

end Sys2Proof.Machine
end

