-- ==== Sys2Proof/Laws/KeptSieve.lean ====
section
/-! SUPPORT. What the operations of Machine/Sieve.lean keep (`Kept`). -/

set_option linter.unusedTactic false
set_option linter.unreachableTactic false

namespace Sys2Proof.Machine

open Reg

theorem checkedBlock_kept {base : State} (port ctx bad : Nat) (acc : IoResult × State) (b : Nat)
    (hb : Kept base acc.2) : Kept base (checkedBlock port ctx bad acc b).2 := by
  unfold checkedBlock
  refine Kept.iteSnd hb ?_
  dsimp only
  split
  · exact groutCount_kept _ _ hb
  · rename_i i _
    have h1 := readMem_kept port ctx (groutEntry acc.2 ctx i) 4 [] acc.2 hb
    have h2 := readMem_kept port ctx b 4096 [] _ h1
    exact Kept.iteSnd h1 (Kept.iteSnd h2 (Kept.iteSnd h2 (groutCount_kept _ _ h2)))

theorem ioRead_kept {base : State} (port ctx bad : Nat) (isSealed : Bool) (a n : Nat) (s : State) (hb : Kept base s) :
    Kept base (ioRead port ctx bad isSealed a n s).2 := by
  unfold ioRead
  try dsimp only
  repeat' first
    | with_reducible
      first
      | assumption | apply checkedBlock_kept | apply readMem_kept | apply Kept.ite
      | (apply Kept.iteSnd <;> dsimp only) | apply Kept.foldlSnd | apply Kept.foldlFst | apply Kept.foldl
    | fail_if_no_progress refine Kept.upd ?_ rfl rfl rfl rfl rfl rfl rfl rfl rfl | (split <;> try dsimp only)
    | (intro _; intros; try dsimp only)

theorem writeCheck_kept {base : State} (port ctx : Nat) (data : List Nat) (s : State) (b : Nat) (hb : Kept base s) :
    Kept base (writeCheck port ctx data s b).2 := by
  unfold writeCheck
  try dsimp only
  repeat' first
    | with_reducible
      first
      | assumption | apply groutWrite_kept | (apply Kept.iteSnd <;> dsimp only)
    | (split <;> try dsimp only)

theorem writeChecks_kept {base : State} (port ctx a : Nat) (full : List Nat) (s : State) (hb : Kept base s) :
    Kept base (writeChecks port ctx a full s).2 := by
  unfold writeChecks
  try dsimp only
  repeat' first
    | with_reducible
      first
      | assumption | apply writeCheck_kept | apply Kept.ite | (apply Kept.iteSnd <;> dsimp only) | apply Kept.foldlSnd
      | apply Kept.foldlFst | apply Kept.foldl
    | (split <;> try dsimp only) | (intro _; intros; try dsimp only)

theorem ioWrite_kept {base : State} (port ctx : Nat) (checking : Bool) (a : Nat) (data : List Nat) (s : State)
    (hb : Kept base s) :
    Kept base (ioWrite port ctx checking a data s).2 := by
  unfold ioWrite
  try dsimp only
  repeat' first
    | with_reducible
      first
      | assumption | apply writeMem_kept | apply writeChecks_kept | apply Kept.ite
      | (apply Kept.iteSnd <;> dsimp only)
    | (split <;> try dsimp only)

theorem headedWrite_kept {base : State} (port ctx : Nat) (checking : Bool) (a : Nat) (header body : List Nat)
    (s : State) (hb : Kept base s) :
    Kept base (headedWrite port ctx checking a header body s).2 := by
  unfold headedWrite
  try dsimp only
  repeat' first
    | with_reducible
      first
      | assumption | apply writeMem_kept | apply writeChecks_kept | apply record_kept | apply Kept.ite
      | (apply Kept.iteSnd <;> dsimp only)
    | (split <;> try dsimp only)

theorem refuseJob_kept {base : State} (c r n : Nat) (raw : List Nat) (status : Nat) (s : State) (hb : Kept base s) :
    Kept base (refuseJob c r n raw status s) := by
  unfold refuseJob
  try dsimp only
  repeat' first
    | with_reducible
      first
      | assumption | apply finishDesc_kept | apply incSat_kept
    | fail_if_no_progress refine Kept.upd ?_ rfl rfl rfl rfl rfl rfl rfl rfl rfl

theorem stopJob_kept {base : State} (c r n : Nat) (raw : List Nat) (io : IoResult) (s : State) (hb : Kept base s) :
    Kept base (stopJob c r n raw io s) := by
  unfold stopJob
  try dsimp only
  repeat' first
    | with_reducible
      first
      | assumption | apply event_kept | apply finishDesc_kept | apply Kept.ite
    | fail_if_no_progress refine Kept.upd ?_ rfl rfl rfl rfl rfl rfl rfl rfl rfl

theorem acceptJob_kept {base : State} (c r n : Nat) (raw record thresh : List Nat) (s : State) (hb : Kept base s) :
    Kept base (acceptJob c r n raw record thresh s) := by
  unfold acceptJob
  try dsimp only
  repeat' first
    | with_reducible
      first
      | assumption | apply record_kept | apply refuseJob_kept | apply refreshSieve_kept | apply Kept.ite
    | fail_if_no_progress refine Kept.upd ?_ rfl rfl rfl rfl rfl rfl rfl rfl rfl

theorem popJob_kept {base : State} (s : State) (hb : Kept base s) :
    Kept base (popJob s) := by
  unfold popJob
  try dsimp only
  repeat' first
    | with_reducible
      first
      | assumption | apply refreshSieve_kept
    | fail_if_no_progress refine Kept.upd ?_ rfl rfl rfl rfl rfl rfl rfl rfl rfl

theorem writeJob_kept {base : State} (j : SieveJob) (w : SieveResult) (s : State) (hb : Kept base s) :
    Kept base (writeJob j w s).2 := by
  unfold writeJob
  try dsimp only
  repeat' first
    | with_reducible
      first
      | assumption | apply headedWrite_kept | apply Kept.ite | (apply Kept.iteSnd <;> dsimp only)
      | (apply Kept.iteSnd2 <;> dsimp only) | (apply Kept.iteFst <;> dsimp only) | apply Kept.foldlSnd
      | apply Kept.foldlFst | apply Kept.foldl
    | fail_if_no_progress refine Kept.upd ?_ rfl rfl rfl rfl rfl rfl rfl rfl rfl | (split <;> try dsimp only)
    | (intro _; intros; try dsimp only)

end Sys2Proof.Machine
end

