-- ==== Sys2Proof/Laws/KeptIslands.lean ====
section
/-! SUPPORT. What the operations of Machine/Islands.lean keep (`Kept`). -/

set_option linter.unusedTactic false
set_option linter.unreachableTactic false

namespace Sys2Proof.Machine

open Reg

theorem judge_kept {base : State} (i cause idx limit st who : Nat) (bad : Bool) (s : State) (hb : Kept base s) :
    Kept base (judge i cause idx limit st who bad s) := by
  unfold judge
  try dsimp only
  repeat' first
    | with_reducible
      first
      | assumption | apply modIsland_kept | apply commandState_kept | apply Kept.ite
    | fail_if_no_progress refine Kept.upd ?_ rfl rfl rfl rfl rfl rfl rfl rfl rfl | (intro _; intros; try dsimp only)

theorem refreshCeiling_kept {base : State} (s : State) (hb : Kept base s) :
    Kept base (refreshCeiling s) := by
  unfold refreshCeiling
  try dsimp only
  repeat' first
    | with_reducible
      first
      | assumption | apply wr_kept | apply Kept.foldl
    | fail_if_no_progress refine Kept.upd ?_ rfl rfl rfl rfl rfl rfl rfl rfl rfl | (intro _; intros; try dsimp only)

theorem junctionAt_kept {base : State} (die : Nat) (a b : Int) (s : State) (i : Nat) (hb : Kept base s) :
    Kept base (junctionAt die a b s i) := by
  unfold junctionAt
  try dsimp only
  repeat' first
    | with_reducible
      first
      | assumption | apply wr_kept | apply modIsland_kept | apply judge_kept | apply Kept.ite | apply Kept.foldl
    | fail_if_no_progress refine Kept.upd ?_ rfl rfl rfl rfl rfl rfl rfl rfl rfl | (intro _; intros; try dsimp only)

theorem hearthBeatAt_kept {base : State} (s : State) (i : Nat) (hb : Kept base s) :
    Kept base (hearthBeatAt s i) := by
  unfold hearthBeatAt
  try dsimp only
  repeat' first
    | with_reducible
      first
      | assumption | apply modIsland_kept | apply heardAt_kept | apply commandState_kept | apply Kept.ite
      | apply Kept.foldl
    | fail_if_no_progress refine Kept.upd ?_ rfl rfl rfl rfl rfl rfl rfl rfl rfl | (split <;> try dsimp only)
    | (intro _; intros; try dsimp only)

theorem onForward_kept {base : State} (i : Nat) (f : Forward) (s : State) (hb : Kept base s) :
    Kept base (onForward i f s) := by
  unfold onForward
  try dsimp only
  repeat' first
    | with_reducible
      first
      | assumption | apply commandState_kept | apply modIsland_kept | apply Kept.ite
    | fail_if_no_progress refine Kept.upd ?_ rfl rfl rfl rfl rfl rfl rfl rfl rfl | (intro _; intros; try dsimp only)

theorem silenceTrowels_kept {base : State} (d : Nat) (s : State) (hb : Kept base s) :
    Kept base (silenceTrowels d s) := by
  unfold silenceTrowels
  try dsimp only
  repeat' first
    | with_reducible
      first
      | assumption | apply endLaunch_kept | apply Kept.foldl
    | fail_if_no_progress refine Kept.upd ?_ rfl rfl rfl rfl rfl rfl rfl rfl rfl | (intro _; intros; try dsimp only)

theorem silenceHearth_kept {base : State} (s : State) (hb : Kept base s) :
    Kept base (silenceHearth s) := by
  unfold silenceHearth
  try dsimp only
  repeat' first
    | with_reducible
      first
      | assumption | apply modRing_kept | apply finishDesc_kept | apply wrB_kept | apply haltMer_kept
      | apply refreshSieve_kept | apply Kept.foldl
    | fail_if_no_progress refine Kept.upd ?_ rfl rfl rfl rfl rfl rfl rfl rfl rfl | (split <;> try dsimp only)
    | (intro _; intros; try dsimp only)

theorem markSilent_kept {base : State} (die : Nat) (s : State) (hb : Kept base s) : Kept base (markSilent die s) := by
  refine hb.trans ⟨rfl, Nat.le_refl _, Nat.le_refl _, id, Nat.le_refl _, fun d _ x => ?_, Nat.le_refl _,
    fun _ => Nat.le_refl _⟩
  show aget (aset s.silent die true false) d false = true
  rw [aget_aset _ _ _ _ _ _ (fun _ => rfl)]
  split
  · rfl
  · exact x

theorem islandDown_kept {base : State} (i : Nat) (s : State) (hb : Kept base s) :
    Kept base (islandDown i s) := by
  unfold islandDown
  try dsimp only
  repeat' first
    | with_reducible
      first
      | assumption | apply modIsland_kept
    | fail_if_no_progress refine Kept.upd ?_ rfl rfl rfl rfl rfl rfl rfl rfl rfl | (intro _; intros; try dsimp only)

theorem islandStart_kept {base : State} (i : Nat) (s : State) (hb : Kept base s) :
    Kept base (islandStart i s) := by
  unfold islandStart
  try dsimp only
  repeat' first
    | with_reducible
      first
      | assumption | apply modIsland_kept | apply Kept.ite
    | fail_if_no_progress refine Kept.upd ?_ rfl rfl rfl rfl rfl rfl rfl rfl rfl | (intro _; intros; try dsimp only)

theorem mailbox_kept {base : State} (port island st : Nat) (s : State) (hb : Kept base s) :
    Kept base (mailbox port island st s) := by
  unfold mailbox
  try dsimp only
  repeat' first
    | with_reducible
      first
      | assumption | apply mailboxArg_kept | apply wr_kept | apply commandState_kept | apply Kept.ite

end Sys2Proof.Machine
end

