-- ==== Sys2Proof/Laws/KeptPower.lean ====
section
/-! SUPPORT. What the operations of Machine/Power.lean keep (`Kept`). -/

set_option linter.unusedTactic false
set_option linter.unreachableTactic false

namespace Sys2Proof.Machine

open Reg

theorem modCool_kept {base : State} (f : CoolState → CoolState) (s : State) (hb : Kept base s) :
    Kept base (modCool f s) := by
  unfold modCool
  try dsimp only
  repeat' first
    | with_reducible
      first
      | assumption
    | fail_if_no_progress refine Kept.upd ?_ rfl rfl rfl rfl rfl rfl rfl rfl rfl

theorem sleepCourse_kept {base : State} (c k : Nat) (s : State) (hb : Kept base s) :
    Kept base (sleepCourse c k s) := by
  unfold sleepCourse
  try dsimp only
  repeat' first
    | with_reducible
      first
      | assumption
    | fail_if_no_progress refine Kept.upd ?_ rfl rfl rfl rfl rfl rfl rfl rfl rfl

theorem windowSample_kept {base : State} (n : Nat) (s : State) (hb : Kept base s) :
    Kept base (windowSample n s) := by
  unfold windowSample
  try dsimp only
  repeat' first
    | with_reducible
      first
      | assumption | apply modAgent_kept | apply incSat_kept | apply Kept.ite
    | fail_if_no_progress refine Kept.upd ?_ rfl rfl rfl rfl rfl rfl rfl rfl rfl | (intro _; intros; try dsimp only)

theorem formPoint_kept {base : State} (a b : Option Int) (p : CoolPoint) (base_ which : Nat) (s : State)
    (hb : Kept base s) :
    Kept base (formPoint a b p base_ which s).2 := by
  unfold formPoint
  try dsimp only
  repeat' first
    | with_reducible
      first
      | assumption | apply event_kept | apply Kept.ite | (apply Kept.iteSnd <;> dsimp only)
    | fail_if_no_progress refine Kept.upd ?_ rfl rfl rfl rfl rfl rfl rfl rfl rfl | (split <;> try dsimp only)

theorem checkInlet_kept {base : State} (s : State) (hb : Kept base s) :
    Kept base (checkInlet s) := by
  unfold checkInlet
  try dsimp only
  repeat' first
    | with_reducible
      first
      | assumption | apply modCool_kept | apply event_kept | apply Kept.ite
    | fail_if_no_progress refine Kept.upd ?_ rfl rfl rfl rfl rfl rfl rfl rfl rfl | (split <;> try dsimp only)
    | (intro _; intros; try dsimp only)

theorem latchFlow_kept {base : State} (k : Nat) (s : State) (hb : Kept base s) :
    Kept base (latchFlow k s) := by
  unfold latchFlow
  try dsimp only
  repeat' first
    | with_reducible
      first
      | assumption | apply modCool_kept | apply event_kept | apply Kept.ite
    | fail_if_no_progress refine Kept.upd ?_ rfl rfl rfl rfl rfl rfl rfl rfl rfl | (intro _; intros; try dsimp only)

theorem setCeiling_kept {base : State} (v : Nat) (s : State) (hb : Kept base s) :
    Kept base (setCeiling v s) := by
  unfold setCeiling
  try dsimp only
  repeat' first
    | with_reducible
      first
      | assumption | apply refreshCeiling_kept
    | fail_if_no_progress refine Kept.upd ?_ rfl rfl rfl rfl rfl rfl rfl rfl rfl

theorem judgeFlow_kept {base : State} (f : Option Nat) (s : State) (hb : Kept base s) :
    Kept base (judgeFlow f s) := by
  unfold judgeFlow
  try dsimp only
  repeat' first
    | with_reducible
      first
      | assumption | apply modCool_kept | apply setCeiling_kept | apply event_kept | apply wrB_kept | apply Kept.ite
    | fail_if_no_progress refine Kept.upd ?_ rfl rfl rfl rfl rfl rfl rfl rfl rfl | (split <;> try dsimp only)
    | (intro _; intros; try dsimp only)

theorem limpCourse_kept {base : State} (s : State) (c : Nat) (hb : Kept base s) :
    Kept base (limpCourse s c) := by
  unfold limpCourse
  try dsimp only
  repeat' first
    | with_reducible
      first
      | assumption | apply requestStop_kept | apply wr_kept | apply modCourse_kept | apply Kept.ite
    | fail_if_no_progress refine Kept.upd ?_ rfl rfl rfl rfl rfl rfl rfl rfl rfl | (intro _; intros; try dsimp only)

theorem limpProfile_kept {base : State} (s : State) (hb : Kept base s) :
    Kept base (limpProfile s) := by
  unfold limpProfile
  try dsimp only
  repeat' first
    | with_reducible
      first
      | assumption | apply wrB_kept | apply sendGrant_kept | apply setDomain_kept | apply event_kept | apply wr_kept
      | apply limpCourse_kept | (apply Kept.iteSnd <;> dsimp only) | apply Kept.foldlSnd | apply Kept.foldlFst
      | apply Kept.foldl
    | fail_if_no_progress refine Kept.upd ?_ rfl rfl rfl rfl rfl rfl rfl rfl rfl | (intro _; intros; try dsimp only)

theorem calSample_kept {base : State} (f : Option Nat) (s : State) (hb : Kept base s) :
    Kept base (calSample f s) := by
  unfold calSample
  try dsimp only
  repeat' first
    | with_reducible
      first
      | assumption | apply modCool_kept
    | fail_if_no_progress refine Kept.upd ?_ rfl rfl rfl rfl rfl rfl rfl rfl rfl | (split <;> try dsimp only)
    | (intro _; intros; try dsimp only)

end Sys2Proof.Machine
end

