-- ==== Sys2Proof/Laws/KeptDawn.lean ====
section
/-! SUPPORT. What the operations of Machine/Dawn.lean keep (`Kept`). -/

set_option linter.unusedTactic false
set_option linter.unreachableTactic false

namespace Sys2Proof.Machine

open Reg

theorem modNwt_kept {base : State} (f : NwtState → NwtState) (s : State) (hb : Kept base s) :
    Kept base (modNwt f s) := by
  unfold modNwt
  try dsimp only
  repeat' first
    | with_reducible
      first
      | assumption
    | fail_if_no_progress refine Kept.upd ?_ rfl rfl rfl rfl rfl rfl rfl rfl rfl

theorem keepFields_kept {base : State} (l : List (Field × Nat)) (old s : State) (hb : Kept base s) :
    Kept base (keepFields l old s) := by
  unfold keepFields
  try dsimp only
  repeat' first
    | with_reducible
      first
      | assumption | apply wr_kept | (apply Kept.iteSnd <;> dsimp only) | apply Kept.foldlSnd | apply Kept.foldlFst
      | apply Kept.foldl
    | (intro _; intros; try dsimp only)

theorem keepIslandRegs_kept {base : State} (old s : State) (hb : Kept base s) :
    Kept base (keepIslandRegs old s) := by
  unfold keepIslandRegs
  try dsimp only
  repeat' first
    | with_reducible
      first
      | assumption
    | fail_if_no_progress refine Kept.upd ?_ rfl rfl rfl rfl rfl rfl rfl rfl rfl | (intro _; intros; try dsimp only)

theorem resetPackage_kept {base : State} (cold : Bool) (mode : PkgMode) (s : State) (hb : Kept base s) :
    Kept base (resetPackage cold mode s) := by
  unfold resetPackage
  refine keepFields_kept _ _ _ (hb.trans ⟨rfl, Nat.le_refl _, Nat.le_refl _, fun x => ?_, Nat.le_refl _, fun d hd _ => ?_,
    Nat.le_refl _, fun _ => Nat.le_refl _⟩)
  · simp only [MemState.wf, Bool.and_eq_true] at x ⊢
    exact ⟨rfl, x.2⟩
  · have key : ∀ e < 5, aget allSilent e false = true := by decide
    exact key d hd

theorem sampleStraps_kept {base : State} (straps : List Nat) (s : State) (hb : Kept base s) :
    Kept base (sampleStraps straps s) := by
  unfold sampleStraps
  try dsimp only
  repeat' first
    | with_reducible
      first
      | assumption | apply wrB_kept | apply wr_kept | apply Kept.foldl
    | (intro _; intros; try dsimp only)

theorem showDie_kept {base : State} (n : Nat) (s : State) (hb : Kept base s) :
    Kept base (showDie n s) := by
  unfold showDie
  try dsimp only
  repeat' first
    | with_reducible
      first
      | assumption | apply wr_kept | apply Kept.foldl
    | (intro _; intros; try dsimp only)

theorem dawnStep1_kept {base : State} (s : State) (hb : Kept base s) :
    Kept base (dawnStep1 s) := by
  unfold dawnStep1
  try dsimp only
  repeat' first
    | with_reducible
      first
      | assumption | apply wr_kept | apply modNwt_kept | apply beginTraining_kept | apply Kept.ite
      | (apply Kept.iteSnd <;> dsimp only) | apply Kept.foldlSnd | apply Kept.foldlFst | apply Kept.foldl
    | fail_if_no_progress refine Kept.upd ?_ rfl rfl rfl rfl rfl rfl rfl rfl rfl | (intro _; intros; try dsimp only)

theorem dialFromZero_kept {base : State} (s : State) (hb : Kept base s) :
    Kept base (dialFromZero s) := by
  unfold dialFromZero
  try dsimp only
  repeat' first
    | with_reducible
      first
      | assumption | apply wr_kept
    | fail_if_no_progress refine Kept.upd ?_ rfl rfl rfl rfl rfl rfl rfl rfl rfl

theorem beginDawn_kept {base : State} (kind : Nat) (straps : List Nat) (s : State) (hb : Kept base s) :
    Kept base (beginDawn kind straps s) := by
  unfold beginDawn
  try dsimp only
  repeat' first
    | with_reducible
      first
      | assumption | apply dialFromZero_kept | apply resetPackage_kept | apply sampleStraps_kept | apply wrB_kept
      | apply wr_kept | apply showDie_kept | apply modNwt_kept | apply Kept.ite | apply Kept.foldl
    | fail_if_no_progress refine Kept.upd ?_ rfl rfl rfl rfl rfl rfl rfl rfl rfl | (intro _; intros; try dsimp only)

theorem wakeUp_kept {base : State} (byAlarm : Bool) (s : State) (hb : Kept base s) :
    Kept base (wakeUp byAlarm s) := by
  unfold wakeUp
  try dsimp only
  repeat' first
    | with_reducible
      first
      | assumption | apply startTraining_kept | apply wrB_kept | apply modNwt_kept
      | (apply Kept.iteSnd <;> dsimp only) | apply Kept.foldlSnd | apply Kept.foldlFst | apply Kept.foldl
    | fail_if_no_progress refine Kept.upd ?_ rfl rfl rfl rfl rfl rfl rfl rfl rfl | (split <;> try dsimp only)
    | (intro _; intros; try dsimp only)

theorem resetDone_kept {base : State} (r : Refuse) (s : State) (hb : Kept base s) :
    Kept base (resetDone r s) := by
  unfold resetDone
  try dsimp only
  repeat' first
    | with_reducible
      first
      | assumption | apply commitDone_kept | apply wr_kept

theorem resetRequest_kept {base : State} (kind value : Nat) (act : State → State) (s : State)
    (hact : ∀ z0, Kept base z0 → Kept base (act z0)) (hb : Kept base s) :
    Kept base (resetRequest kind value act s) := by
  unfold resetRequest
  try dsimp only
  repeat' first
    | with_reducible
      first
      | assumption | apply commitAt_kept | apply resetDone_kept | apply acceptStaged_kept | apply hact
      | apply Kept.ite
    | (intro _; intros; try dsimp only)

theorem dawnHold_kept {base : State} (st step : Nat) (s : State) (hb : Kept base s) :
    Kept base (dawnHold st step s) := by
  unfold dawnHold
  try dsimp only
  repeat' first
    | with_reducible
      first
      | assumption | apply wrB_kept | apply wr_kept

theorem reloadRecord_kept {base : State} (r : DawnReport) (s : State) (hb : Kept base s) :
    Kept base (reloadRecord r s) := by
  unfold reloadRecord
  try dsimp only
  repeat' first
    | with_reducible
      first
      | assumption | (apply modKey_same; exact rfl; exact rfl) | apply record_kept | apply event_kept | apply Kept.ite
    | fail_if_no_progress refine Kept.upd ?_ rfl rfl rfl rfl rfl rfl rfl rfl rfl | (split <;> try dsimp only)
    | (intro _; intros; try dsimp only)

theorem readSteppings_kept {base : State} (s : State) (hb : Kept base s) :
    Kept base (readSteppings s) := by
  unfold readSteppings
  try dsimp only
  repeat' first
    | with_reducible
      first
      | assumption | apply wr_kept | apply event_kept | apply Kept.ite | apply Kept.foldl
    | (intro _; intros; try dsimp only)

theorem showTrained_kept {base : State} (up : Nat) (s : State) (hb : Kept base s) :
    Kept base (showTrained up s) := by
  unfold showTrained
  try dsimp only
  repeat' first
    | with_reducible
      first
      | assumption | apply wrB_kept | apply Kept.foldl
    | (intro _; intros; try dsimp only)

theorem showInject_kept {base : State} (r : DawnReport) (i : Nat) (s : State) (hb : Kept base s) :
    Kept base (showInject r i s) := by
  unfold showInject
  try dsimp only
  repeat' first
    | with_reducible
      first
      | assumption | apply wr_kept | apply wrB_kept

theorem startIsland_kept {base : State} (i : Nat) (s : State) (hb : Kept base s) :
    Kept base (startIsland i s) := by
  unfold startIsland
  try dsimp only
  repeat' first
    | with_reducible
      first
      | assumption | apply wr_kept | apply islandStart_kept

theorem dawnMap_kept {base : State} (s : State) (hb : Kept base s) :
    Kept base (dawnMap s) := by
  unfold dawnMap
  try dsimp only
  repeat' first
    | with_reducible
      first
      | assumption | apply drawRegionKeys_kept | apply showPacks_kept | apply loadPack_kept | apply Kept.foldl
    | fail_if_no_progress refine Kept.upd ?_ rfl rfl rfl rfl rfl rfl rfl rfl rfl | (intro _; intros; try dsimp only)

theorem startTimers_kept {base : State} (s : State) (hb : Kept base s) :
    Kept base (startTimers s) := by
  unfold startTimers
  try dsimp only
  repeat' first
    | with_reducible
      first
      | assumption | apply modCool_kept
    | fail_if_no_progress refine Kept.upd ?_ rfl rfl rfl rfl rfl rfl rfl rfl rfl | (intro _; intros; try dsimp only)

theorem powerOn_kept {base : State} (s : State) (hb : Kept base s) :
    Kept base (powerOn s) := by
  unfold powerOn
  try dsimp only
  repeat' first
    | with_reducible
      first
      | assumption | apply startTimers_kept | apply setDomain_kept | apply Kept.ite | apply Kept.foldl
    | fail_if_no_progress refine Kept.upd ?_ rfl rfl rfl rfl rfl rfl rfl rfl rfl | (intro _; intros; try dsimp only)

theorem releasePackage_kept {base : State} (up : List Nat) (s : State) (hb : Kept base s) :
    Kept base (releasePackage up s) := by
  unfold releasePackage
  try dsimp only
  repeat' first
    | with_reducible
      first
      | assumption | apply wrB_kept | apply wr_kept | apply modIsland_kept | apply commandState_kept | apply Kept.ite
      | apply Kept.foldl
    | fail_if_no_progress refine Kept.upd ?_ rfl rfl rfl rfl rfl rfl rfl rfl rfl | (split <;> try dsimp only)
    | (intro _; intros; try dsimp only)

theorem resumeDial_kept {base : State} (s : State) (hb : Kept base s) :
    Kept base (resumeDial s) := by
  unfold resumeDial
  try dsimp only
  repeat' first
    | with_reducible
      first
      | assumption | apply setSync_kept | apply modNwt_kept
    | fail_if_no_progress refine Kept.upd ?_ rfl rfl rfl rfl rfl rfl rfl rfl rfl | (split <;> try dsimp only)
    | (intro _; intros; try dsimp only)

theorem releaseCores_kept {base : State} (s : State) (hb : Kept base s) :
    Kept base (releaseCores s) := by
  unfold releaseCores
  try dsimp only
  repeat' first
    | with_reducible
      first
      | assumption | apply send_kept | apply Kept.ite

theorem finishDawn_woken {base : State} (r : DawnReport) (up : List Nat) (s : State) (hb : Kept base s) :
    Kept { base with silent := [] } (finishDawn r up s) := by
  have h0 := releaseCores_kept _ (releasePackage_kept up _ (Kept.wake (powerOn_kept _ (dawnMap_kept _ hb))))
  have h2 : Kept { base with silent := [] } _ :=
    wrB_kept NWT_DAWN_STATUS.ready 0 true _ (wr_kept NWT_DAWN_STATUS.step 0 8 _
      (wr_kept NWT_DAWN_TIME.ms 0 (satTo r.ms 0xFFFF) _ (resumeDial_kept _ h0)))
  unfold finishDawn
  refine event_kept _ _ _ _ _ _ _ ?_
  refine Kept.ite (event_kept _ _ _ _ _ _ _ ?_) ?_
  · exact h2
  · exact h2

end Sys2Proof.Machine
end

