-- ==== Sys2Proof/Laws/KeptEthernet.lean ====
section
/-! SUPPORT. What the operations of Machine/Ethernet.lean keep (`Kept`). -/

set_option linter.unusedTactic false
set_option linter.unreachableTactic false

namespace Sys2Proof.Machine

open Reg

theorem hostReceive_kept {base : State} (mac : Nat) (frame : List Nat) (s : State) (hb : Kept base s) :
    Kept base (hostReceive mac frame s) := by
  unfold hostReceive
  try dsimp only
  repeat' first
    | with_reducible
      first
      | assumption | apply readMem_kept | apply writeMem'_kept | apply Kept.ite | (apply Kept.iteSnd <;> dsimp only)
    | fail_if_no_progress refine Kept.upd ?_ rfl rfl rfl rfl rfl rfl rfl rfl rfl

theorem putPoint_kept {base : State} (k : Nat) (f : Frame) (p : List Nat) (o t intensity : Nat) (s : State)
    (hb : Kept base s) :
    Kept base (putPoint k f p o t intensity s) := by
  unfold putPoint
  try dsimp only
  repeat' first
    | with_reducible
      first
      | assumption | apply writeMem_kept | apply modStream_kept | (apply Kept.iteSnd <;> dsimp only)
    | fail_if_no_progress refine Kept.upd ?_ rfl rfl rfl rfl rfl rfl rfl rfl rfl | (intro _; intros; try dsimp only)

theorem takePoint_kept {base : State} (k : Nat) (p : List Nat) (time : Nat) (s : State) (i : Nat) (hb : Kept base s) :
    Kept base (takePoint k p time s i) := by
  unfold takePoint
  try dsimp only
  repeat' first
    | with_reducible
      first
      | assumption | apply modStream_kept | apply withDraw_kept | apply putPoint_kept | apply Kept.ite
    | fail_if_no_progress refine Kept.upd ?_ rfl rfl rfl rfl rfl rfl rfl rfl rfl | (split <;> try dsimp only)
    | (intro _; intros; try dsimp only)

theorem closeBatch_kept {base : State} (k : Nat) (s : State) (hb : Kept base s) :
    Kept base (closeBatch k s) := by
  unfold closeBatch
  try dsimp only
  repeat' first
    | with_reducible
      first
      | assumption | apply completeFrame_kept
    | (split <;> try dsimp only)

theorem parsePacket_kept {base : State} (k : Nat) (p : List Nat) (s : State) (hb : Kept base s) :
    Kept base (parsePacket k p s) := by
  unfold parsePacket
  try dsimp only
  repeat' first
    | with_reducible
      first
      | assumption | apply record_kept | apply closeBatch_kept | apply stopStream_kept | apply capture_kept
      | apply beginFrame_kept | apply modStream_kept | apply takePoint_kept | apply Kept.ite | apply Kept.foldl
    | fail_if_no_progress refine Kept.upd ?_ rfl rfl rfl rfl rfl rfl rfl rfl rfl | (split <;> try dsimp only)
    | (intro _; intros; try dsimp only)

end Sys2Proof.Machine
end

