-- ==== Sys2Proof/Laws/KeptHbm.lean ====
section
/-! SUPPORT. What the operations of Machine/Hbm.lean keep (`Kept`). -/

set_option linter.unusedTactic false
set_option linter.unreachableTactic false

namespace Sys2Proof.Machine

open Reg

theorem noteWait_kept {base : State} (port ns : Nat) (s : State) (hb : Kept base s) :
    Kept base (noteWait port ns s) := by
  unfold noteWait
  try dsimp only
  repeat' first
    | with_reducible
      first
      | assumption | apply wr_kept | apply Kept.ite

theorem touchRow_kept {base : State} (port a : Nat) (s : State) (hb : Kept base s) :
    Kept base (touchRow port a s) := by
  unfold touchRow
  try dsimp only
  repeat' first
    | with_reducible
      first
      | assumption | apply modStack_kept | apply Kept.ite
    | fail_if_no_progress refine Kept.upd ?_ rfl rfl rfl rfl rfl rfl rfl rfl rfl | (intro _; intros; try dsimp only)

theorem stopPort_kept {base : State} (port st : Nat) (s : State) (hb : Kept base s) :
    Kept base (stopPort port st s) := by
  unfold stopPort
  try dsimp only
  repeat' first
    | with_reducible
      first
      | assumption | apply stopLaunch_kept | apply Kept.ite | (apply Kept.iteSnd <;> dsimp only) | apply Kept.foldlSnd
      | apply Kept.foldlFst | apply Kept.foldl
    | (intro _; intros; try dsimp only)

theorem answer_kept {base : State} (held : Option Nat) (port status : Nat) (data : List Nat) (s : State)
    (hb : Kept base s) :
    Kept base (answer held port status data s) := by
  unfold answer
  try dsimp only
  repeat' first
    | with_reducible
      first
      | assumption
    | fail_if_no_progress refine Kept.upd ?_ rfl rfl rfl rfl rfl rfl rfl rfl rfl | (split <;> try dsimp only)

theorem readHbm_kept {base : State} (port ctx addr len waitNs : Nat) (s : State) (hb : Kept base s) :
    Kept base (readHbm port ctx addr len waitNs s) := by
  unfold readHbm
  try dsimp only
  repeat' first
    | with_reducible
      first
      | assumption | apply readMem_kept | apply touchRow_kept | apply noteWait_kept | apply stopPort_kept
      | apply answer_kept | (apply Kept.iteSnd <;> dsimp only)

theorem readElsewhere_kept {base : State} (port ctx addr len : Nat) (s : State) (hb : Kept base s) :
    Kept base (readElsewhere port ctx addr len s) := by
  unfold readElsewhere
  try dsimp only
  repeat' first
    | with_reducible
      first
      | assumption | apply readMem_kept | (apply Kept.iteSnd <;> dsimp only)
    | fail_if_no_progress refine Kept.upd ?_ rfl rfl rfl rfl rfl rfl rfl rfl rfl

theorem drainPc_kept {base : State} (k pc : Nat) (s : State) (hb : Kept base s) :
    Kept base (drainPc k pc s) := by
  unfold drainPc
  try dsimp only
  repeat' first
    | with_reducible
      first
      | assumption | apply drainQueues_kept
    | (intro _; intros; try dsimp only)

theorem enqueueWrite_kept {base : State} (addr : Nat) (data : List Nat) (s : State) (hb : Kept base s) :
    Kept base (enqueueWrite addr data s) := by
  unfold enqueueWrite
  try dsimp only
  repeat' first
    | with_reducible
      first
      | assumption | apply drainPc_kept | apply Kept.ite | (apply Kept.iteSnd <;> dsimp only) | apply Kept.foldlSnd
      | apply Kept.foldlFst | apply Kept.foldl
    | fail_if_no_progress refine Kept.upd ?_ rfl rfl rfl rfl rfl rfl rfl rfl rfl | (intro _; intros; try dsimp only)

theorem writeHbm_kept {base : State} (port ctx addr : Nat) (data : List Nat) (s : State) (hb : Kept base s) :
    Kept base (writeHbm port ctx addr data s) := by
  unfold writeHbm
  try dsimp only
  repeat' first
    | with_reducible
      first
      | assumption | apply meetWrite_kept | apply touchRow_kept | apply policeRange_kept | apply enqueueWrite_kept
      | apply settleFound_kept | apply event_kept | apply stopPort_kept | apply Kept.ite
      | (apply Kept.iteSnd <;> dsimp only) | apply Kept.foldlSnd | apply Kept.foldlFst | apply Kept.foldl
    | fail_if_no_progress refine Kept.upd ?_ rfl rfl rfl rfl rfl rfl rfl rfl rfl | (split <;> try dsimp only)
    | (intro _; intros; try dsimp only)

theorem scrubUsed_kept {base : State} (a : Nat) (s : State) (hb : Kept base s) :
    Kept base (scrubUsed a s) := by
  unfold scrubUsed
  try dsimp only
  repeat' first
    | with_reducible
      first
      | assumption | apply settleFound_kept | apply meetLine_kept | (apply Kept.iteSnd <;> dsimp only)

theorem scrubFree_kept {base : State} (stack phys : Nat) (s : State) (hb : Kept base s) :
    Kept base (scrubFree stack phys s) := by
  unfold scrubFree
  try dsimp only
  repeat' first
    | with_reducible
      first
      | assumption | apply meetAt_kept | apply event_kept | apply incSat_kept | apply corrected_kept | apply Kept.ite
      | (apply Kept.iteSnd <;> dsimp only)
    | fail_if_no_progress refine Kept.upd ?_ rfl rfl rfl rfl rfl rfl rfl rfl rfl | (split <;> try dsimp only)

theorem befallPhys_kept {base : State} (stack phys : Nat) (u : MemUpset) (s : State) (hb : Kept base s) :
    Kept base (befallPhys stack phys u s) := by
  unfold befallPhys
  try dsimp only
  repeat' first
    | with_reducible
      first
      | assumption
    | fail_if_no_progress refine Kept.upd ?_ rfl rfl rfl rfl rfl rfl rfl rfl rfl | (split <;> try dsimp only)

theorem startPair_kept {base : State} (k pair : Nat) (s : State) (hb : Kept base s) :
    Kept base (startPair k pair s) := by
  unfold startPair
  try dsimp only
  repeat' first
    | with_reducible
      first
      | assumption | apply modStack_kept | apply drainPc_kept
    | fail_if_no_progress refine Kept.upd ?_ rfl rfl rfl rfl rfl rfl rfl rfl rfl | (intro _; intros; try dsimp only)

theorem retrained_kept {base : State} (k pc : Nat) (ok : Bool) (s : State) (hb : Kept base s) :
    Kept base (retrained k pc ok s) := by
  unfold retrained
  try dsimp only
  repeat' first
    | with_reducible
      first
      | assumption | apply modStack_kept | apply event_kept | apply Kept.ite
    | fail_if_no_progress refine Kept.upd ?_ rfl rfl rfl rfl rfl rfl rfl rfl rfl | (intro _; intros; try dsimp only)

theorem giveAnswers_kept {base : State} (k : Nat) (s : State) (hb : Kept base s) :
    Kept base (giveAnswers k s) := by
  unfold giveAnswers
  try dsimp only
  repeat' first
    | with_reducible
      first
      | assumption | apply Kept.foldl
    | fail_if_no_progress refine Kept.upd ?_ rfl rfl rfl rfl rfl rfl rfl rfl rfl | (intro _; intros; try dsimp only)

theorem mapResult_kept {base : State} (status page fieldOff : Nat) (s : State) (hb : Kept base s) :
    Kept base (mapResult status page fieldOff s) := by
  unfold mapResult
  try dsimp only
  repeat' first
    | with_reducible
      first
      | assumption | apply commitDone_kept | apply wr_kept

theorem mapStart_kept {base : State} (first count : Nat) (es : List Nat) (s : State) (hb : Kept base s) :
    Kept base (mapStart first count es s) := by
  unfold mapStart
  try dsimp only
  repeat' first
    | with_reducible
      first
      | assumption | apply commitBusy_kept | apply wrB_kept | apply acceptStaged_kept
    | fail_if_no_progress refine Kept.upd ?_ rfl rfl rfl rfl rfl rfl rfl rfl rfl

theorem installEntry_kept {base : State} (page e : Nat) (s : State) (hb : Kept base s) :
    Kept base (installEntry page e s) := by
  unfold installEntry
  try dsimp only
  repeat' first
    | with_reducible
      first
      | assumption | apply zeroFrame_kept | apply Kept.ite
    | fail_if_no_progress refine Kept.upd ?_ rfl rfl rfl rfl rfl rfl rfl rfl rfl

end Sys2Proof.Machine
end

