-- ==== Sys2Proof/Laws/KeptLane.lean ====
section
/-! SUPPORT. What the operations of Machine/Lane.lean keep (`Kept`). -/

set_option linter.unusedTactic false
set_option linter.unreachableTactic false

namespace Sys2Proof.Machine

open Reg

theorem LaneJob.put_kept {base : State} (j : LaneJob) (x : Site) (v : Nat) (res : List (Nat × Nat)) (fl : Nat)
    (s : State) (hb : Kept base s) :
    Kept base (LaneJob.put j x v res fl s) := by
  unfold LaneJob.put
  try dsimp only
  repeat' first
    | with_reducible
      first
      | assumption | apply noteArith_kept | apply wrRun_kept | (apply Kept.iteSnd <;> dsimp only)

theorem unaryVec_kept {base : State} (j : LaneJob) (x : Site) (s : State) (v : Nat) (hb : Kept base s) :
    Kept base (unaryVec j x s v) := by
  unfold unaryVec
  try dsimp only
  repeat' first
    | with_reducible
      first
      | assumption | apply Kept.ite | (apply Kept.iteSnd <;> dsimp only) | (apply Kept.iteSnd2 <;> dsimp only)
      | (apply Kept.iteFst <;> dsimp only) | apply Kept.foldlSnd | apply Kept.foldlFst | apply Kept.foldl
    | fail_if_no_progress refine Kept.upd ?_ rfl rfl rfl rfl rfl rfl rfl rfl rfl | (split <;> try dsimp only)
    | (intro _; intros; try dsimp only)

theorem binaryVec_kept {base : State} (j : LaneJob) (x : Site) (s : State) (v : Nat) (hb : Kept base s) :
    Kept base (binaryVec j x s v) := by
  unfold binaryVec
  try dsimp only
  repeat' first
    | with_reducible
      first
      | assumption | apply Kept.ite | (apply Kept.iteSnd <;> dsimp only) | (apply Kept.iteSnd2 <;> dsimp only)
      | (apply Kept.iteFst <;> dsimp only) | apply Kept.foldlSnd | apply Kept.foldlFst | apply Kept.foldl
    | fail_if_no_progress refine Kept.upd ?_ rfl rfl rfl rfl rfl rfl rfl rfl rfl | (split <;> try dsimp only)
    | (intro _; intros; try dsimp only)

theorem convertVec_kept {base : State} (j : LaneJob) (x : Site) (s : State) (v : Nat) (hb : Kept base s) :
    Kept base (convertVec j x s v) := by
  unfold convertVec
  try dsimp only
  repeat' first
    | with_reducible
      first
      | assumption | apply Kept.ite | (apply Kept.iteSnd <;> dsimp only) | (apply Kept.iteSnd2 <;> dsimp only)
      | (apply Kept.iteFst <;> dsimp only) | apply Kept.foldlSnd | apply Kept.foldlFst | apply Kept.foldl
    | fail_if_no_progress refine Kept.upd ?_ rfl rfl rfl rfl rfl rfl rfl rfl rfl | (split <;> try dsimp only)
    | (intro _; intros; try dsimp only)

theorem reduceAll_kept {base : State} (j : LaneJob) (x : Site) (s : State) (hb : Kept base s) :
    Kept base (reduceAll j x s) := by
  unfold reduceAll
  try dsimp only
  repeat' first
    | with_reducible
      first
      | assumption | apply Kept.ite | (apply Kept.iteSnd <;> dsimp only) | (apply Kept.iteSnd2 <;> dsimp only)
      | (apply Kept.iteFst <;> dsimp only) | apply Kept.foldlSnd | apply Kept.foldlFst | apply Kept.foldl
    | fail_if_no_progress refine Kept.upd ?_ rfl rfl rfl rfl rfl rfl rfl rfl rfl | (split <;> try dsimp only)
    | (intro _; intros; try dsimp only)

theorem laneRun_kept {base : State} (x : Site) (op : Nat) (s : State) (hb : Kept base s) :
    Kept base (laneRun x op s) := by
  unfold laneRun
  try dsimp only
  repeat' first
    | with_reducible
      first
      | assumption | apply boundsFault_kept | apply unaryVec_kept | apply binaryVec_kept | apply reduceAll_kept
      | apply convertVec_kept | apply skipFresh_kept | apply goOn_kept | apply setRole_kept | apply Kept.ite
      | (apply Kept.iteSnd <;> dsimp only) | apply Kept.foldlSnd | apply Kept.foldlFst | apply Kept.foldl
    | (intro _; intros; try dsimp only)

theorem laneStep_kept {base : State} (b op : Nat) (u : Upset) (s : State) (hb : Kept base s) :
    Kept base (laneStep b op u s) := by
  unfold laneStep
  try dsimp only
  repeat' first
    | with_reducible
      first
      | assumption | apply withUpset_kept | apply laneRun_kept
    | (split <;> try dsimp only)

end Sys2Proof.Machine
end

