-- ==== Sys2Proof/Laws/KeptMeridian.lean ====
section
/-! SUPPORT. What the operations of Machine/Meridian.lean keep (`Kept`). -/

set_option linter.unusedTactic false
set_option linter.unreachableTactic false

namespace Sys2Proof.Machine

open Reg

theorem modMer_kept {base : State} (f : MerState → MerState) (s : State) (hb : Kept base s) :
    Kept base (modMer f s) := by
  unfold modMer
  try dsimp only
  repeat' first
    | with_reducible
      first
      | assumption
    | fail_if_no_progress refine Kept.upd ?_ rfl rfl rfl rfl rfl rfl rfl rfl rfl

theorem readStream_kept {base : State} (s : State) (k : Nat) (hb : Kept base s) :
    Kept base (readStream s k) := by
  unfold readStream
  try dsimp only
  repeat' first
    | with_reducible
      first
      | assumption | apply readMem_kept | apply modMer_kept | apply Kept.ite | (apply Kept.iteSnd <;> dsimp only)
      | apply Kept.foldlSnd | apply Kept.foldlFst | apply Kept.foldl
    | fail_if_no_progress refine Kept.upd ?_ rfl rfl rfl rfl rfl rfl rfl rfl rfl | (intro _; intros; try dsimp only)

theorem readAll_kept {base : State} (s : State) (hb : Kept base s) :
    Kept base (readAll s) := by
  unfold readAll
  try dsimp only
  repeat' first
    | with_reducible
      first
      | assumption | apply readStream_kept | apply Kept.foldl
    | (intro _; intros; try dsimp only)

theorem batchPoints_kept {base : State} (s : State) (table : List Nat) (tv : Nat) (b : Sample) (hb : Kept base s) :
    Kept base (batchPoints s table tv b).2 := by
  unfold batchPoints
  try dsimp only
  repeat' first
    | with_reducible
      first
      | assumption | apply readMem_kept | apply Kept.ite | (apply Kept.iteSnd <;> dsimp only)
    | (split <;> try dsimp only) | (intro _; intros; try dsimp only)

theorem pixelColour_kept {base : State} (s : State) (f : UsedFrame) (q : Proj) (hb : Kept base s) :
    Kept base (pixelColour s f q).2 := by
  unfold pixelColour
  try dsimp only
  repeat' first
    | with_reducible
      first
      | assumption | apply readMem_kept | apply Kept.ite | (apply Kept.iteSnd <;> dsimp only)
    | (split <;> try dsimp only)

theorem paintedPoint_kept {base : State} (s : State) (frames : List UsedFrame) (l : LPoint) (p : Nat × Nat × Nat)
    (hb : Kept base s) :
    Kept base (paintedPoint s frames l p).2 := by
  unfold paintedPoint
  try dsimp only
  repeat' first
    | with_reducible
      first
      | assumption | apply pixelColour_kept | (apply Kept.iteSnd <;> dsimp only)
    | (split <;> try dsimp only)

theorem paintAll_kept {base : State} (frames : List UsedFrame) (ps : List (LPoint × (Nat × Nat × Nat))) (s : State)
    (hb : Kept base s) :
    Kept base (paintAll frames ps s).2 := by
  unfold paintAll
  try dsimp only
  repeat' first
    | with_reducible
      first
      | assumption | apply paintedPoint_kept | (apply Kept.iteSnd <;> dsimp only) | apply Kept.foldlSnd
      | apply Kept.foldlFst | apply Kept.foldl
    | (split <;> try dsimp only) | (intro _; intros; try dsimp only)

theorem closeTime_kept {base : State} (s t : State) (h : closeTime s = some t) (hb : Kept base s) : Kept base t := by
  simp only [closeTime] at h
  have h1 := readAll_kept s hb
  split at h
  · split at h
    · cases h; exact h1
    · split at h
      · cases h; exact readAll_kept _ (passTo_kept _ _ h1)
      · cases h
  · cases h
    exact readAll_kept _ (Kept.ite (passTo_kept _ _ hb) hb)

theorem readOdometry_kept {base : State} (tv : Nat) (s : State) (hb : Kept base s) :
    Kept base (readOdometry tv s).2.2 := by
  unfold readOdometry
  try dsimp only
  repeat' first
    | with_reducible
      first
      | assumption | apply readMem_kept | apply Kept.ite | (apply Kept.iteSnd <;> dsimp only)
      | (apply Kept.iteSnd2 <;> dsimp only)
    | (split <;> try dsimp only)

theorem frameBytes_kept {base : State} (s : State) (f : UsedFrame) (hb : Kept base s) :
    Kept base (frameBytes s f).2 := by
  unfold frameBytes
  try dsimp only
  repeat' first
    | with_reducible
      first
      | assumption | apply readMem_kept | apply Kept.ite | (apply Kept.iteSnd <;> dsimp only)
    | (split <;> try dsimp only)

theorem readFrames_kept {base : State} (l : List UsedFrame) (s : State) (hb : Kept base s) :
    Kept base (readFrames l s).2 := by
  unfold readFrames
  try dsimp only
  repeat' first
    | with_reducible
      first
      | assumption | apply frameBytes_kept | (apply Kept.iteSnd <;> dsimp only) | apply Kept.foldlSnd
      | apply Kept.foldlFst | apply Kept.foldl
    | (split <;> try dsimp only) | (intro _; intros; try dsimp only)

theorem closeCycle_kept {base : State} (taken : List (Nat × Taken)) (s : State) (hb : Kept base s) :
    Kept base (closeCycle taken s) := by
  unfold closeCycle
  try dsimp only
  repeat' first
    | with_reducible
      first
      | assumption | apply readOdometry_kept | apply batchPoints_kept | apply readFrames_kept | apply paintAll_kept
      | apply modMer_kept | apply wr_kept | apply incSat_kept | apply event_kept | apply teardown_kept
      | apply Kept.ite | (apply Kept.iteSnd <;> dsimp only) | (apply Kept.iteSnd2 <;> dsimp only)
      | (apply Kept.iteFst <;> dsimp only) | apply Kept.foldlSnd | apply Kept.foldlFst | apply Kept.foldl
    | fail_if_no_progress refine Kept.upd ?_ rfl rfl rfl rfl rfl rfl rfl rfl rfl | (split <;> try dsimp only)
    | (intro _; intros; try dsimp only)

theorem writeOutput_kept {base : State} (a : Nat) (header body : List Nat) (s : State) (hb : Kept base s) :
    Kept base (writeOutput a header body s).2 := by
  unfold writeOutput
  try dsimp only
  repeat' first
    | with_reducible
      first
      | assumption | apply headedWrite_kept | (apply Kept.iteSnd <;> dsimp only)
    | (split <;> try dsimp only)

theorem signalTimes_kept {base : State} (c tie n : Nat) (s : State) (hb : Kept base s) :
    Kept base (signalTimes c tie n s) := by
  induction n generalizing s with
  | zero => exact hb
  | succ n ih => exact ih _ (signalFrom_kept _ _ _ _ _ _ hb)

theorem settleStop_kept {base : State} (s : State) (hb : Kept base s) :
    Kept base (settleStop s) := by
  unfold settleStop
  try dsimp only
  repeat' first
    | with_reducible
      first
      | assumption | apply wrB_kept | apply modMer_kept | apply Kept.ite
    | fail_if_no_progress refine Kept.upd ?_ rfl rfl rfl rfl rfl rfl rfl rfl rfl | (intro _; intros; try dsimp only)

end Sys2Proof.Machine
end

