-- ==== Sys2Proof/Laws/KeptTracker.lean ====
section
/-! SUPPORT. What the operations of Machine/Tracker.lean keep (`Kept`). -/

set_option linter.unusedTactic false
set_option linter.unreachableTactic false

namespace Sys2Proof.Machine

open Reg

theorem readSet_kept {base : State} (src n : Nat) (s : State) (hb : Kept base s) :
    Kept base (readSet src n s).2 := by
  unfold readSet
  try dsimp only
  repeat' first
    | with_reducible
      first
      | assumption | apply event_kept | apply ioRead_kept | apply Kept.ite | (apply Kept.iteSnd <;> dsimp only)
    | (split <;> try dsimp only) | (intro _; intros; try dsimp only)

theorem takeSet_kept {base : State} (src n : Nat) (s : State) (hb : Kept base s) :
    Kept base (takeSet src n s).2 := by
  unfold takeSet
  try dsimp only
  repeat' first
    | with_reducible
      first
      | assumption | apply modMer_kept | apply readSet_kept | apply Kept.ite | (apply Kept.iteSnd <;> dsimp only)
    | fail_if_no_progress refine Kept.upd ?_ rfl rfl rfl rfl rfl rfl rfl rfl rfl | (split <;> try dsimp only)
    | (intro _; intros; try dsimp only)

theorem refreshFreeze_kept {base : State} (s : State) (hb : Kept base s) :
    Kept base (refreshFreeze s) := by
  unfold refreshFreeze
  try dsimp only
  repeat' first
    | with_reducible
      first
      | assumption | apply event_kept | apply wrB_kept | apply Kept.ite
    | (split <;> try dsimp only) | (intro _; intros; try dsimp only)

theorem runTracker_kept {base : State} (c : Cycle) (a b : SetTaken) (s : State) (hb : Kept base s) :
    Kept base (runTracker c a b s) := by
  unfold runTracker
  try dsimp only
  repeat' first
    | with_reducible
      first
      | assumption | apply modMer_kept | apply incSat_kept | apply refreshFreeze_kept | apply event_kept
      | apply Kept.ite | (apply Kept.iteSnd <;> dsimp only) | apply Kept.foldlSnd | apply Kept.foldlFst
      | apply Kept.foldl
    | fail_if_no_progress refine Kept.upd ?_ rfl rfl rfl rfl rfl rfl rfl rfl rfl | (split <;> try dsimp only)
    | (intro _; intros; try dsimp only)

end Sys2Proof.Machine
end

