-- ==== Sys2Proof/Laws/KeptRefine.lean ====
section
/-! SUPPORT. What the operations of Machine/Refine.lean keep (`Kept`). -/

set_option linter.unusedTactic false
set_option linter.unreachableTactic false

namespace Sys2Proof.Machine

open Reg

theorem refreshPending_kept {base : State} (s : State) (hb : Kept base s) :
    Kept base (refreshPending s) := by
  unfold refreshPending
  try dsimp only
  repeat' first
    | with_reducible
      first
      | assumption | apply wrB_kept

theorem solveCamera_kept {base : State} (k : Nat) (s : State) (hb : Kept base s) :
    Kept base (solveCamera k s) := by
  unfold solveCamera
  try dsimp only
  repeat' first
    | with_reducible
      first
      | assumption | apply event_kept | apply refreshPending_kept | apply send_kept | apply modMer_kept
      | apply Kept.ite | (apply Kept.iteSnd <;> dsimp only)
    | fail_if_no_progress refine Kept.upd ?_ rfl rfl rfl rfl rfl rfl rfl rfl rfl | (split <;> try dsimp only)
    | (intro _; intros; try dsimp only)

theorem refine_kept {base : State} (s : State) (hb : Kept base s) :
    Kept base (refine s) := by
  unfold refine
  try dsimp only
  repeat' first
    | with_reducible
      first
      | assumption | apply solveCamera_kept | apply modMer_kept | apply Kept.ite | apply Kept.foldl
    | fail_if_no_progress refine Kept.upd ?_ rfl rfl rfl rfl rfl rfl rfl rfl rfl | (intro _; intros; try dsimp only)

theorem approve_kept {base : State} (i : Nat) (c : CalPending) (other : Bool) (s : State) (hb : Kept base s) :
    Kept base (approve i c other s) := by
  unfold approve
  try dsimp only
  repeat' first
    | with_reducible
      first
      | assumption | apply modIsland_kept | apply send_kept | apply Kept.ite
    | fail_if_no_progress refine Kept.upd ?_ rfl rfl rfl rfl rfl rfl rfl rfl rfl | (intro _; intros; try dsimp only)

theorem discard_kept {base : State} (install : Bool) (why : Nat) (s : State) (hb : Kept base s) :
    Kept base (discard install why s) := by
  unfold discard
  try dsimp only
  repeat' first
    | with_reducible
      first
      | assumption | apply refreshPending_kept | apply event_kept | apply modMer_kept | apply install_kept
      | apply Kept.ite
    | fail_if_no_progress refine Kept.upd ?_ rfl rfl rfl rfl rfl rfl rfl rfl rfl | (intro _; intros; try dsimp only)

theorem writeTable_kept {base : State} (t : List Nat) (s : State) (hb : Kept base s) :
    Kept base (writeTable t s) := by
  unfold writeTable
  try dsimp only
  repeat' first
    | with_reducible
      first
      | assumption | apply ioWrite_kept | apply Kept.ite | (apply Kept.iteSnd <;> dsimp only)

theorem adopt_kept {base : State} (p : Proposal) (s : State) (hb : Kept base s) :
    Kept base (adopt p s) := by
  unfold adopt
  try dsimp only
  repeat' first
    | with_reducible
      first
      | assumption | apply modMer_kept | apply install_kept | apply wr_kept | apply incSat_kept
      | apply writeTable_kept | apply event_kept | apply discard_kept | apply refreshFreeze_kept
      | apply refreshPending_kept | apply Kept.ite
    | fail_if_no_progress refine Kept.upd ?_ rfl rfl rfl rfl rfl rfl rfl rfl rfl | (split <;> try dsimp only)
    | (intro _; intros; try dsimp only)

theorem heartbeatAt_kept {base : State} (version crc : Nat) (s : State) (i : Nat) (hb : Kept base s) :
    Kept base (heartbeatAt version crc s i) := by
  unfold heartbeatAt
  try dsimp only
  repeat' first
    | with_reducible
      first
      | assumption | apply modIsland_kept | apply commandState_kept | apply Kept.ite
    | fail_if_no_progress refine Kept.upd ?_ rfl rfl rfl rfl rfl rfl rfl rfl rfl | (split <;> try dsimp only)
    | (intro _; intros; try dsimp only)

end Sys2Proof.Machine
end

