-- ==== Sys2Proof/Laws/KeptMerCommit.lean ====
section
/-! SUPPORT. What the operations of Machine/MerCommit.lean keep (`Kept`). -/

set_option linter.unusedTactic false
set_option linter.unreachableTactic false

namespace Sys2Proof.Machine

open Reg

theorem merDone_kept {base : State} (st off : Nat) (s : State) (hb : Kept base s) :
    Kept base (merDone st off s) := by
  unfold merDone
  try dsimp only
  repeat' first
    | with_reducible
      first
      | assumption | apply commitDone_kept | apply wr_kept

theorem notice_kept {base : State} (img : List Nat) (s : State) (hb : Kept base s) :
    Kept base (notice img s) := by
  unfold notice
  try dsimp only
  repeat' first
    | with_reducible
      first
      | assumption | apply modIsland_kept | apply Kept.foldl
    | fail_if_no_progress refine Kept.upd ?_ rfl rfl rfl rfl rfl rfl rfl rfl rfl | (intro _; intros; try dsimp only)

theorem startMer_kept {base : State} (owner : Nat) (r : List Nat) (s0 : State) (hb : Kept base s0) :
    Kept base (startMer owner r s0) := by
  unfold startMer
  try dsimp only
  repeat' first
    | with_reducible
      first
      | assumption | apply heardAt_kept | apply wrB_kept | apply modMer_kept | apply record_kept | apply Kept.ite
      | apply Kept.foldl
    | fail_if_no_progress refine Kept.upd ?_ rfl rfl rfl rfl rfl rfl rfl rfl rfl | (intro _; intros; try dsimp only)

theorem proposeInstall_kept {base : State} (img : List Nat) (s : State) (hb : Kept base s) :
    Kept base (proposeInstall img s) := by
  unfold proposeInstall
  try dsimp only
  repeat' first
    | with_reducible
      first
      | assumption | apply discard_kept | apply refreshPending_kept | apply send_kept | apply modMer_kept
      | apply install_kept | apply Kept.ite
    | fail_if_no_progress refine Kept.upd ?_ rfl rfl rfl rfl rfl rfl rfl rfl rfl | (intro _; intros; try dsimp only)

theorem merCommit_kept {base : State} (install : Bool) (value : Nat) (s : State) (hb : Kept base s) :
    Kept base (merCommit install value s) := by
  unfold merCommit
  try dsimp only
  repeat' first
    | with_reducible
      first
      | assumption | apply install_kept | apply commitAt_kept | apply merDone_kept | apply acceptStaged_kept
      | apply readMem_kept | apply notice_kept | apply record_kept | apply startMer_kept | apply proposeInstall_kept
      | apply modMer_kept | apply Kept.ite | (apply Kept.iteSnd <;> dsimp only) | (apply Kept.iteSnd2 <;> dsimp only)
      | (apply Kept.iteFst <;> dsimp only) | apply Kept.foldlSnd | apply Kept.foldlFst | apply Kept.foldl
    | fail_if_no_progress refine Kept.upd ?_ rfl rfl rfl rfl rfl rfl rfl rfl rfl | (split <;> try dsimp only)
    | (intro _; intros; try dsimp only)

end Sys2Proof.Machine
end

