-- ==== Sys2Proof/Laws/KeptOuvur.lean ====
section
/-! SUPPORT. What the operations of Machine/Ouvur.lean keep (`Kept`). -/

set_option linter.unusedTactic false
set_option linter.unreachableTactic false

namespace Sys2Proof.Machine

open Reg

theorem modOuv_kept {base : State} (f : OuvurState → OuvurState) (s : State) (hb : Kept base s) :
    Kept base (modOuv f s) := by
  unfold modOuv
  try dsimp only
  repeat' first
    | with_reducible
      first
      | assumption
    | fail_if_no_progress refine Kept.upd ?_ rfl rfl rfl rfl rfl rfl rfl rfl rfl

theorem modPort_kept {base : State} (p : Nat) (f : OvPort → OvPort) (s : State) (hb : Kept base s) :
    Kept base (modPort p f s) := by
  unfold modPort
  try dsimp only
  repeat' first
    | with_reducible
      first
      | assumption | apply modOuv_kept
    | fail_if_no_progress refine Kept.upd ?_ rfl rfl rfl rfl rfl rfl rfl rfl rfl | (intro _; intros; try dsimp only)

theorem setPort_kept {base : State} (p v : Nat) (s : State) (hb : Kept base s) :
    Kept base (setPort p v s) := by
  unfold setPort
  try dsimp only
  repeat' first
    | with_reducible
      first
      | assumption | apply event_kept | apply wr_kept | apply Kept.ite

theorem ovSend_kept {base : State} (p : Nat) (kind : MsgKind) (q : OvPacket) (s : State) (hb : Kept base s) :
    Kept base (ovSend p kind q s) := by
  unfold ovSend
  try dsimp only
  repeat' first
    | with_reducible
      first
      | assumption | apply send_kept | apply modPort_kept
    | fail_if_no_progress refine Kept.upd ?_ rfl rfl rfl rfl rfl rfl rfl rfl rfl | (intro _; intros; try dsimp only)

theorem ovFlood_kept {base : State} (kind : MsgKind) (q : OvPacket) (skip : Option Nat) (s : State) (hb : Kept base s) :
    Kept base (ovFlood kind q skip s) := by
  unfold ovFlood
  try dsimp only
  repeat' first
    | with_reducible
      first
      | assumption | apply ovSend_kept | apply Kept.ite | apply Kept.foldl
    | (intro _; intros; try dsimp only)

theorem ovTake_kept {base : State} (p : Nat) (h : OvHead) (k : State → State) (s : State)
    (hk : ∀ z0, Kept base z0 → Kept base (k z0)) (hb : Kept base s) :
    Kept base (ovTake p h k s) := by
  unfold ovTake
  try dsimp only
  repeat' first
    | with_reducible
      first
      | assumption | apply send_kept | apply modPort_kept | apply hk | apply Kept.ite
    | fail_if_no_progress refine Kept.upd ?_ rfl rfl rfl rfl rfl rfl rfl rfl rfl | (intro _; intros; try dsimp only)

theorem ovControl_kept {base : State} (p : Nat) (h : OvHead) (k : State → State) (s : State)
    (hk : ∀ z0, Kept base z0 → Kept base (k z0)) (hb : Kept base s) :
    Kept base (ovControl p h k s) := by
  unfold ovControl
  try dsimp only
  repeat' first
    | with_reducible
      first
      | assumption | apply ovTake_kept | apply hk | apply Kept.ite
    | (intro _; intros; try dsimp only)

theorem agreeKeys_kept {base : State} (p : Nat) (works : Bool) (identity : List Nat) (s : State) (hb : Kept base s) :
    Kept base (agreeKeys p works identity s) := by
  unfold agreeKeys
  try dsimp only
  repeat' first
    | with_reducible
      first
      | assumption | apply setPort_kept | apply modPort_kept | apply Kept.ite
    | fail_if_no_progress refine Kept.upd ?_ rfl rfl rfl rfl rfl rfl rfl rfl rfl | (intro _; intros; try dsimp only)

theorem ovEval_kept {base : State} (s : State) (hb : Kept base s) :
    Kept base (ovEval s) := by
  unfold ovEval
  try dsimp only
  repeat' first
    | with_reducible
      first
      | assumption | apply wrB_kept | apply settle_kept | apply modOuv_kept | apply Kept.ite
    | fail_if_no_progress refine Kept.upd ?_ rfl rfl rfl rfl rfl rfl rfl rfl rfl | (intro _; intros; try dsimp only)

theorem takeReport_kept {base : State} (r : OvReport) (from_ : Option Nat) (s : State) (hb : Kept base s) :
    Kept base (takeReport r from_ s) := by
  unfold takeReport
  try dsimp only
  repeat' first
    | with_reducible
      first
      | assumption | apply ovFlood_kept | apply modOuv_kept | apply ovEval_kept | apply Kept.ite
    | fail_if_no_progress refine Kept.upd ?_ rfl rfl rfl rfl rfl rfl rfl rfl rfl | (intro _; intros; try dsimp only)

theorem showSuspect_kept {base : State} (y : Nat) (s : State) (hb : Kept base s) :
    Kept base (showSuspect y s) := by
  unfold showSuspect
  try dsimp only
  repeat' first
    | with_reducible
      first
      | assumption | apply wrB_kept | apply Kept.foldl
    | (intro _; intros; try dsimp only)

theorem endTransfers_kept {base : State} (st : Nat) (p : Nat → OvRun → Bool) (s : State) (hb : Kept base s) :
    Kept base (endTransfers st p s) := by
  unfold endTransfers
  try dsimp only
  repeat' first
    | with_reducible
      first
      | assumption | apply endTransfer_kept | apply Kept.ite | apply Kept.foldl
    | (split <;> try dsimp only) | (intro _; intros; try dsimp only)

theorem membershipLost_kept {base : State} (s : State) (hb : Kept base s) :
    Kept base (membershipLost s) := by
  unfold membershipLost
  try dsimp only
  repeat' first
    | with_reducible
      first
      | assumption | apply commandState_kept | apply Kept.ite | apply Kept.foldl
    | (intro _; intros; try dsimp only)

theorem leave_kept {base : State} (code : Nat) (s : State) (hb : Kept base s) :
    Kept base (leave code s) := by
  unfold leave
  try dsimp only
  repeat' first
    | with_reducible
      first
      | assumption | apply endTransfers_kept | apply wrB_kept | apply wr_kept | apply modOuv_kept | apply settle_kept
    | fail_if_no_progress refine Kept.upd ?_ rfl rfl rfl rfl rfl rfl rfl rfl rfl | (intro _; intros; try dsimp only)

theorem exclude_kept {base : State} (epoch : Nat) (s : State) (hb : Kept base s) :
    Kept base (exclude epoch s) := by
  unfold exclude
  try dsimp only
  repeat' first
    | with_reducible
      first
      | assumption | apply modOuv_kept | apply leave_kept | apply event_kept | apply membershipLost_kept
      | apply Kept.ite
    | fail_if_no_progress refine Kept.upd ?_ rfl rfl rfl rfl rfl rfl rfl rfl rfl | (intro _; intros; try dsimp only)

theorem noQuorum_kept {base : State} (s : State) (hb : Kept base s) :
    Kept base (noQuorum s) := by
  unfold noQuorum
  try dsimp only
  repeat' first
    | with_reducible
      first
      | assumption | apply leave_kept | apply event_kept | apply membershipLost_kept | apply Kept.ite

theorem declareLost_kept {base : State} (l : List (Nat × Nat)) (s : State) (hb : Kept base s) :
    Kept base (declareLost l s) := by
  unfold declareLost
  try dsimp only
  repeat' first
    | with_reducible
      first
      | assumption | apply event_kept | apply incSat_kept | (apply Kept.iteSnd <;> dsimp only) | apply Kept.foldlSnd
      | apply Kept.foldlFst | apply Kept.foldl
    | (intro _; intros; try dsimp only)

theorem install_kept {base : State} (epoch coord members : Nat) (s : State) (hb : Kept base s) :
    Kept base (install epoch coord members s) := by
  unfold install
  try dsimp only
  repeat' first
    | with_reducible
      first
      | assumption | apply exclude_kept | apply endTransfers_kept | apply modOuv_kept | apply settle_kept
      | apply wr_kept | apply wrB_kept | apply declareLost_kept | apply writeMem'_kept | apply event_kept
      | apply membershipLost_kept | apply Kept.ite | (apply Kept.iteSnd <;> dsimp only) | apply Kept.foldlSnd
      | apply Kept.foldlFst | apply Kept.foldl
    | fail_if_no_progress refine Kept.upd ?_ rfl rfl rfl rfl rfl rfl rfl rfl rfl | (intro _; intros; try dsimp only)

theorem tryCommit_kept {base : State} (s : State) (hb : Kept base s) :
    Kept base (tryCommit s) := by
  unfold tryCommit
  try dsimp only
  repeat' first
    | with_reducible
      first
      | assumption | apply install_kept | apply ovFlood_kept | apply Kept.ite
    | (split <;> try dsimp only)

theorem beatOn_kept {base : State} (p : Nat) (s : State) (hb : Kept base s) :
    Kept base (beatOn p s) := by
  unfold beatOn
  try dsimp only
  repeat' first
    | with_reducible
      first
      | assumption | apply ovSend_kept | apply Kept.ite
    | fail_if_no_progress refine Kept.upd ?_ rfl rfl rfl rfl rfl rfl rfl rfl rfl

theorem heardNeighbour_kept {base : State} (p : Nat) (s : State) (hb : Kept base s) :
    Kept base (heardNeighbour p s) := by
  unfold heardNeighbour
  try dsimp only
  repeat' first
    | with_reducible
      first
      | assumption | apply modPort_kept | apply showSuspect_kept | apply setPort_kept | apply modOuv_kept
    | fail_if_no_progress refine Kept.upd ?_ rfl rfl rfl rfl rfl rfl rfl rfl rfl | (intro _; intros; try dsimp only)

theorem beatTime_kept {base : State} (p t1 t3 t4 depth : Nat) (s : State) (hb : Kept base s) :
    Kept base (beatTime p t1 t3 t4 depth s) := by
  unfold beatTime
  try dsimp only
  repeat' first
    | with_reducible
      first
      | assumption | apply dialSync_kept | apply Kept.ite

theorem startDrill_kept {base : State} (b : List Nat) (s x : State) (hb : Kept base x) :
    Kept base ((startDrill b s).2 x) := by
  unfold startDrill
  split
  · exact hb
  · exact leave_kept _ _ (modOuv_kept _ _ (event_kept _ _ _ _ _ _ _ hb))

end Sys2Proof.Machine
end

