-- ==== Sys2Proof/Laws/KeptTransfer.lean ====
section
/-! SUPPORT. What the operations of Machine/Transfer.lean keep (`Kept`). -/

set_option linter.unusedTactic false
set_option linter.unreachableTactic false

namespace Sys2Proof.Machine

open Reg

theorem ovToward_kept {base : State} (dst : Nat) (kind : MsgKind) (q : OvPacket) (s : State) (hb : Kept base s) :
    Kept base (ovToward dst kind q s) := by
  unfold ovToward
  try dsimp only
  repeat' first
    | with_reducible
      first
      | assumption | apply ovSend_kept | apply withDraw_kept | apply Kept.ite
    | (split <;> try dsimp only) | (intro _; intros; try dsimp only)

theorem ovData_kept {base : State} (dst dctx : Nat) (d : OvData) (s : State) (hb : Kept base s) :
    Kept base (ovData dst dctx d s) := by
  unfold ovData
  try dsimp only
  repeat' first
    | with_reducible
      first
      | assumption | apply ovToward_kept

theorem ovReady_kept {base : State} (dst dctx group tag : Nat) (s : State) (hb : Kept base s) :
    Kept base (ovReady dst dctx group tag s) := by
  unfold ovReady
  try dsimp only
  repeat' first
    | with_reducible
      first
      | assumption | apply ovToward_kept

theorem modRun_kept {base : State} (c : Nat) (f : OvRun → OvRun) (s : State) (hb : Kept base s) :
    Kept base (modRun c f s) := by
  unfold modRun
  try dsimp only
  repeat' first
    | with_reducible
      first
      | assumption | apply modOvQueue_kept
    | fail_if_no_progress refine Kept.upd ?_ rfl rfl rfl rfl rfl rfl rfl rfl rfl | (intro _; intros; try dsimp only)

theorem sendRun_kept {base : State} (c : Nat) (r : OvRun) (to_ : Nat × Nat) (d : OvData) (s : State)
    (hb : Kept base s) :
    Kept base (sendRun c r to_ d s) := by
  unfold sendRun
  try dsimp only
  repeat' first
    | with_reducible
      first
      | assumption | apply ovData_kept | apply modRun_kept | apply Kept.ite | (apply Kept.iteSnd <;> dsimp only)
    | fail_if_no_progress refine Kept.upd ?_ rfl rfl rfl rfl rfl rfl rfl rfl rfl | (intro _; intros; try dsimp only)

theorem tryEnd_kept {base : State} (c : Nat) (s : State) (hb : Kept base s) :
    Kept base (tryEnd c s) := by
  unfold tryEnd
  try dsimp only
  repeat' first
    | with_reducible
      first
      | assumption | apply endTransfer_kept | apply Kept.ite
    | (split <;> try dsimp only)

theorem runDone_kept {base : State} (c : Nat) (s : State) (hb : Kept base s) :
    Kept base (runDone c s) := by
  unfold runDone
  try dsimp only
  repeat' first
    | with_reducible
      first
      | assumption | apply tryEnd_kept | apply modRun_kept
    | fail_if_no_progress refine Kept.upd ?_ rfl rfl rfl rfl rfl rfl rfl rfl rfl | (intro _; intros; try dsimp only)

theorem stopChain_kept {base : State} (c : Nat) (r : OvRun) (st skip : Nat) (s : State) (hb : Kept base s) :
    Kept base (stopChain c r st skip s) := by
  unfold stopChain
  try dsimp only
  repeat' first
    | with_reducible
      first
      | assumption | apply endTransfer_kept | apply ovData_kept | (apply Kept.iteSnd <;> dsimp only)
      | apply Kept.foldlSnd | apply Kept.foldlFst | apply Kept.foldl
    | fail_if_no_progress refine Kept.upd ?_ rfl rfl rfl rfl rfl rfl rfl rfl rfl | (intro _; intros; try dsimp only)

theorem foldOwn_kept {base : State} (c : Nat) (r : List Nat) (off n : Nat) (start : Option (List Nat)) (s : State)
    (hb : Kept base s) : Kept base (foldOwn c r off n start s).2.2 := by
  unfold foldOwn
  refine Kept.foldlBy (fun (p : Nat × Option (List Nat) × State) => p.2.2) _ _ _ (fun p k hp => ?_) hb
  exact Kept.iteSnd2 hp (readMem_kept _ _ _ _ _ _ hp)

theorem startReduce_kept {base : State} (c : Nat) (r : OvRun) (s : State) (hb : Kept base s) :
    Kept base (startReduce c r s) := by
  unfold startReduce
  try dsimp only
  repeat' first
    | with_reducible
      first
      | assumption | apply stopChain_kept | apply foldOwn_kept | apply endTransfer_kept | apply sendRun_kept
      | apply Kept.ite | (apply Kept.iteSnd <;> dsimp only) | apply Kept.foldlSnd | apply Kept.foldlFst
      | apply Kept.foldl
    | fail_if_no_progress refine Kept.upd ?_ rfl rfl rfl rfl rfl rfl rfl rfl rfl | (split <;> try dsimp only)
    | (intro _; intros; try dsimp only)

theorem putDst_kept {base : State} (c : Nat) (r : List Nat) (off : Nat) (bytes : List Nat) (s : State)
    (hb : Kept base s) :
    Kept base (putDst c r off bytes s) := by
  unfold putDst
  try dsimp only
  repeat' first
    | with_reducible
      first
      | assumption | apply writeMem_kept | apply endTransfer_kept | apply Kept.ite
      | (apply Kept.iteSnd <;> dsimp only)

theorem withShard_kept {base : State} (c : Nat) (r : OvRun) (k off n : Nat) (f : List Nat → State → State)
    (s : State) (hf : ∀ z0 z1, Kept base z1 → Kept base (f z0 z1)) (hb : Kept base s) :
    Kept base (withShard c r k off n f s) := by
  unfold withShard
  try dsimp only
  repeat' first
    | with_reducible
      first
      | assumption | apply readMem_kept | apply endTransfer_kept | apply hf | apply Kept.ite
      | (apply Kept.iteSnd <;> dsimp only)
    | (intro _; intros; try dsimp only)

theorem startGather_kept {base : State} (c : Nat) (r : OvRun) (s : State) (hb : Kept base s) :
    Kept base (startGather c r s) := by
  unfold startGather
  try dsimp only
  repeat' first
    | with_reducible
      first
      | assumption | apply withShard_kept | apply sendRun_kept | apply putDst_kept | apply runDone_kept
      | apply Kept.ite | (apply Kept.iteSnd <;> dsimp only) | apply Kept.foldlSnd | apply Kept.foldlFst
      | apply Kept.foldl
    | fail_if_no_progress refine Kept.upd ?_ rfl rfl rfl rfl rfl rfl rfl rfl rfl | (intro _; intros; try dsimp only)

theorem startStream_kept {base : State} (c : Nat) (r : OvRun) (to_ : Option (Nat × Nat)) (own : Bool) (s : State)
    (hb : Kept base s) :
    Kept base (startStream c r to_ own s) := by
  unfold startStream
  try dsimp only
  repeat' first
    | with_reducible
      first
      | assumption | apply withShard_kept | apply putDst_kept | apply sendRun_kept | apply runDone_kept
      | apply Kept.ite | (apply Kept.iteSnd <;> dsimp only) | apply Kept.foldlSnd | apply Kept.foldlFst
      | apply Kept.foldl
    | fail_if_no_progress refine Kept.upd ?_ rfl rfl rfl rfl rfl rfl rfl rfl rfl | (split <;> try dsimp only)
    | (intro _; intros; try dsimp only)

theorem startMirror_kept {base : State} (c : Nat) (r : OvRun) (s : State) (hb : Kept base s) :
    Kept base (startMirror c r s) := by
  unfold startMirror
  try dsimp only
  repeat' first
    | with_reducible
      first
      | assumption | apply readMem_kept | apply endTransfer_kept | apply sendRun_kept | apply ovData_kept
      | apply Kept.ite | (apply Kept.iteSnd <;> dsimp only) | apply Kept.foldlSnd | apply Kept.foldlFst
      | apply Kept.foldl
    | fail_if_no_progress refine Kept.upd ?_ rfl rfl rfl rfl rfl rfl rfl rfl rfl | (intro _; intros; try dsimp only)

theorem listLost_kept {base : State} (epoch shard c : Nat) (s : State) (hb : Kept base s) :
    Kept base (listLost epoch shard c s) := by
  unfold listLost
  try dsimp only
  repeat' first
    | with_reducible
      first
      | assumption | apply readMem_kept | apply writeMem'_kept | apply Kept.ite | (apply Kept.iteSnd <;> dsimp only)

theorem loseShard_kept {base : State} (c : Nat) (r : OvRun) (s : State) (hb : Kept base s) :
    Kept base (loseShard c r s) := by
  unfold loseShard
  try dsimp only
  repeat' first
    | with_reducible
      first
      | assumption | apply declareLost_kept | apply endTransfer_kept

theorem startRefill_kept {base : State} (c : Nat) (r : OvRun) (s : State) (hb : Kept base s) :
    Kept base (startRefill c r s) := by
  unfold startRefill
  try dsimp only
  repeat' first
    | with_reducible
      first
      | assumption | apply ovData_kept | apply listLost_kept | apply loseShard_kept | apply Kept.ite
    | fail_if_no_progress refine Kept.upd ?_ rfl rfl rfl rfl rfl rfl rfl rfl rfl

theorem startRun_kept {base : State} (c : Nat) (s : State) (hb : Kept base s) :
    Kept base (startRun c s) := by
  unfold startRun
  try dsimp only
  repeat' first
    | with_reducible
      first
      | assumption | apply endTransfer_kept | apply modOuv_kept | apply modRun_kept | apply ovReady_kept
      | apply startReduce_kept | apply startGather_kept | apply startStream_kept | apply startMirror_kept
      | apply startRefill_kept | apply Kept.ite | (apply Kept.iteSnd <;> dsimp only) | apply Kept.foldlSnd
      | apply Kept.foldlFst | apply Kept.foldl
    | fail_if_no_progress refine Kept.upd ?_ rfl rfl rfl rfl rfl rfl rfl rfl rfl | (split <;> try dsimp only)
    | (intro _; intros; try dsimp only)

theorem ovDoorbell_kept {base : State} (c : Nat) (s : State) (hb : Kept base s) :
    Kept base (ovDoorbell c s) := by
  unfold ovDoorbell
  try dsimp only
  repeat' first
    | with_reducible
      first
      | assumption | apply passTo_kept | apply readMem_kept | apply modOvQueue_kept | apply Kept.ite
      | (apply Kept.iteSnd <;> dsimp only)
    | fail_if_no_progress refine Kept.upd ?_ rfl rfl rfl rfl rfl rfl rfl rfl rfl | (intro _; intros; try dsimp only)

theorem nextTransfer_kept {base : State} (p : Nat → Bool) (c : Nat) (s : State) (hb : Kept base s) :
    Kept base (nextTransfer p c s) := by
  unfold nextTransfer
  try dsimp only
  repeat' first
    | with_reducible
      first
      | assumption | apply ovDoorbell_kept | apply readMem_kept | apply modOvQueue_kept | apply endTransfer_kept
      | apply startRun_kept | apply issueTie_kept | apply Kept.ite | (apply Kept.iteSnd <;> dsimp only)
    | fail_if_no_progress refine Kept.upd ?_ rfl rfl rfl rfl rfl rfl rfl rfl rfl | (intro _; intros; try dsimp only)

theorem flushTo_kept {base : State} (c src : Nat) (s : State) (hb : Kept base s) :
    Kept base (flushTo c src s) := by
  unfold flushTo
  try dsimp only
  repeat' first
    | with_reducible
      first
      | assumption | apply modRun_kept | apply tryEnd_kept | apply ovData_kept | (apply Kept.iteSnd <;> dsimp only)
      | apply Kept.foldlSnd | apply Kept.foldlFst | apply Kept.foldl
    | fail_if_no_progress refine Kept.upd ?_ rfl rfl rfl rfl rfl rfl rfl rfl rfl | (split <;> try dsimp only)
    | (intro _; intros; try dsimp only)

theorem onRunning_kept {base : State} (c : Nat) (r : OvRun) (d : OvData) (s : State) (hb : Kept base s) :
    Kept base (onRunning c r d s) := by
  unfold onRunning
  try dsimp only
  repeat' first
    | with_reducible
      first
      | assumption | apply stopChain_kept | apply foldOwn_kept | apply endTransfer_kept | apply modRun_kept
      | apply sendRun_kept | apply putDst_kept | apply runDone_kept | apply Kept.ite
      | (apply Kept.iteSnd <;> dsimp only) | apply Kept.foldlSnd | apply Kept.foldlFst | apply Kept.foldl
    | fail_if_no_progress refine Kept.upd ?_ rfl rfl rfl rfl rfl rfl rfl rfl rfl | (split <;> try dsimp only)
    | (intro _; intros; try dsimp only)

theorem onResult_kept {base : State} (c : Nat) (r : OvRun) (d : OvData) (s : State) (hb : Kept base s) :
    Kept base (onResult c r d s) := by
  unfold onResult
  try dsimp only
  repeat' first
    | with_reducible
      first
      | assumption | apply sendRun_kept | apply putDst_kept | apply modRun_kept | apply runDone_kept | apply Kept.ite
      | apply Kept.foldl
    | fail_if_no_progress refine Kept.upd ?_ rfl rfl rfl rfl rfl rfl rfl rfl rfl | (intro _; intros; try dsimp only)

theorem onShard_kept {base : State} (c : Nat) (r : OvRun) (src : Nat) (d : OvData) (s : State) (hb : Kept base s) :
    Kept base (onShard c r src d s) := by
  unfold onShard
  try dsimp only
  repeat' first
    | with_reducible
      first
      | assumption | apply putDst_kept | apply modRun_kept | apply sendRun_kept | apply runDone_kept | apply Kept.ite
      | apply Kept.foldl
    | fail_if_no_progress refine Kept.upd ?_ rfl rfl rfl rfl rfl rfl rfl rfl rfl | (split <;> try dsimp only)
    | (intro _; intros; try dsimp only)

theorem onStream_kept {base : State} (c : Nat) (r : OvRun) (d : OvData) (s : State) (hb : Kept base s) :
    Kept base (onStream c r d s) := by
  unfold onStream
  try dsimp only
  repeat' first
    | with_reducible
      first
      | assumption | apply putDst_kept | apply modRun_kept | apply sendRun_kept | apply runDone_kept | apply Kept.ite
      | apply Kept.foldl
    | fail_if_no_progress refine Kept.upd ?_ rfl rfl rfl rfl rfl rfl rfl rfl rfl | (intro _; intros; try dsimp only)

theorem onRefill_kept {base : State} (c : Nat) (r : OvRun) (d : OvData) (s : State) (hb : Kept base s) :
    Kept base (onRefill c r d s) := by
  unfold onRefill
  try dsimp only
  repeat' first
    | with_reducible
      first
      | assumption | apply writeMem_kept | apply modRun_kept | apply endTransfer_kept | apply readMem_kept
      | apply runDone_kept | apply loseShard_kept | apply Kept.ite | (apply Kept.iteSnd <;> dsimp only)
    | fail_if_no_progress refine Kept.upd ?_ rfl rfl rfl rfl rfl rfl rfl rfl rfl | (intro _; intros; try dsimp only)

theorem slotHeader_kept {base : State} (c a : Nat) (s : State) (hb : Kept base s) :
    Kept base (slotHeader c a s).2 := by
  unfold slotHeader
  try dsimp only
  repeat' first
    | with_reducible
      first
      | assumption | apply readMem_kept | (apply Kept.iteSnd <;> dsimp only)
    | (split <;> try dsimp only)

theorem onMirrorOpen_kept {base : State} (c src : Nat) (d : OvData) (s : State) (hb : Kept base s) :
    Kept base (onMirrorOpen c src d s) := by
  unfold onMirrorOpen
  try dsimp only
  repeat' first
    | with_reducible
      first
      | assumption | apply ovData_kept | apply slotHeader_kept | apply writeMem'_kept | apply ovReady_kept
      | apply modOuv_kept | apply Kept.ite | (apply Kept.iteSnd <;> dsimp only)
    | fail_if_no_progress refine Kept.upd ?_ rfl rfl rfl rfl rfl rfl rfl rfl rfl | (split <;> try dsimp only)
    | (intro _; intros; try dsimp only)

theorem onMirrorBytes_kept {base : State} (c src : Nat) (d : OvData) (s : State) (hb : Kept base s) :
    Kept base (onMirrorBytes c src d s) := by
  unfold onMirrorBytes
  try dsimp only
  repeat' first
    | with_reducible
      first
      | assumption | apply writeMem'_kept | apply modOuv_kept | apply readMem_kept | apply answer_kept
      | apply ovData_kept | apply Kept.ite | (apply Kept.iteSnd <;> dsimp only)
    | fail_if_no_progress refine Kept.upd ?_ rfl rfl rfl rfl rfl rfl rfl rfl rfl | (split <;> try dsimp only)
    | (intro _; intros; try dsimp only)

theorem onRefillOpen_kept {base : State} (c src : Nat) (d : OvData) (s : State) (hb : Kept base s) :
    Kept base (onRefillOpen c src d s) := by
  unfold onRefillOpen
  try dsimp only
  repeat' first
    | with_reducible
      first
      | assumption | apply ovData_kept | apply slotHeader_kept | apply readMem_kept | apply Kept.ite
      | (apply Kept.iteSnd <;> dsimp only) | apply Kept.foldlSnd | apply Kept.foldlFst | apply Kept.foldl
    | fail_if_no_progress refine Kept.upd ?_ rfl rfl rfl rfl rfl rfl rfl rfl rfl | (split <;> try dsimp only)
    | (intro _; intros; try dsimp only)

theorem onData_kept {base : State} (c src : Nat) (d : OvData) (s : State) (hb : Kept base s) :
    Kept base (onData c src d s) := by
  unfold onData
  try dsimp only
  repeat' first
    | with_reducible
      first
      | assumption | apply onMirrorOpen_kept | apply onMirrorBytes_kept | apply onRefillOpen_kept
      | apply onRunning_kept | apply onResult_kept | apply onShard_kept | apply onStream_kept | apply runDone_kept
      | apply endTransfer_kept | apply onRefill_kept | apply loseShard_kept | apply stopChain_kept | apply Kept.ite
    | (split <;> try dsimp only)

theorem ovrEnable_kept {base : State} (s : State) (hb : Kept base s) :
    Kept base (ovrEnable s) := by
  unfold ovrEnable
  try dsimp only
  repeat' first
    | with_reducible
      first
      | assumption | apply modOuv_kept | apply setPort_kept | apply wr_kept | apply Kept.foldl
    | fail_if_no_progress refine Kept.upd ?_ rfl rfl rfl rfl rfl rfl rfl rfl rfl | (intro _; intros; try dsimp only)

theorem ovrDisable_kept {base : State} (s : State) (hb : Kept base s) :
    Kept base (ovrDisable s) := by
  unfold ovrDisable
  try dsimp only
  repeat' first
    | with_reducible
      first
      | assumption | apply leave_kept | apply wr_kept | apply setPort_kept | apply modOuv_kept | apply Kept.foldl
    | fail_if_no_progress refine Kept.upd ?_ rfl rfl rfl rfl rfl rfl rfl rfl rfl | (intro _; intros; try dsimp only)

theorem ovqOff_kept {base : State} (ctx : Nat) (s : State) (hb : Kept base s) :
    Kept base (ovqOff ctx s) := by
  unfold ovqOff
  try dsimp only
  repeat' first
    | with_reducible
      first
      | assumption | apply wrCom_kept

theorem ovqTake_kept {base : State} (ctx : Nat) (s : State) (hb : Kept base s) : Kept base (ovqTake ctx s) := by
  have h1 := readMem_kept 71 ctx (stg s OVR_GROUP_ADDR.groups (ctx * 0x40)) 524288 [] s hb
  have h2 := readMem_kept 71 ctx (stg s OVR_MIRROR_ADDR.mirrors (ctx * 0x40)) 512 [] _ h1
  unfold ovqTake
  refine Kept.ite (commitDone_kept _ _ _ h2) (Kept.ite (commitDone_kept _ _ _ h2) ?_)
  split
  · exact commitDone_kept _ _ _ h2
  · exact Kept.ite (commitDone_kept _ _ _ h2) (commitDone_kept _ _ _ (modOvQueue_kept _ _ _ (acceptStaged_kept _ _ h2)))

theorem releaseWaiter_kept {base : State} (tie value : Nat) (s : State) (who : Agent) (hb : Kept base s) :
    Kept base (releaseWaiter tie value s who) := by
  unfold releaseWaiter
  try dsimp only
  repeat' first
    | with_reducible
      first
      | assumption | apply assignEngines_kept | apply flushOuts_kept | apply startRun_kept | apply releaseOne_kept
      | apply Kept.ite
    | (split <;> try dsimp only)

end Sys2Proof.Machine
end

