-- ==== Sys2Proof/Laws/KeptNight.lean ====
section
/-! SUPPORT. What the operations of Machine/Night.lean keep (`Kept`). -/

set_option linter.unusedTactic false
set_option linter.unreachableTactic false

namespace Sys2Proof.Machine

open Reg

theorem settleWait_kept {base : State} (s : State) (w : TieWait) (hb : Kept base s) :
    Kept base (settleWait s w) := by
  unfold settleWait
  try dsimp only
  repeat' first
    | with_reducible
      first
      | assumption | apply modStream_kept | apply endTransfer_kept | apply incSat_kept | apply timeoutWait_kept
      | apply Kept.ite
    | fail_if_no_progress refine Kept.upd ?_ rfl rfl rfl rfl rfl rfl rfl rfl rfl | (split <;> try dsimp only)
    | (intro _; intros; try dsimp only)

theorem partialDrain_kept {base : State} (n : Nat) (s : State) (hb : Kept base s) :
    Kept base (partialDrain n s) := by
  unfold partialDrain
  try dsimp only
  repeat' first
    | with_reducible
      first
      | assumption | apply teardown_kept | apply settleWait_kept | apply tieDeliver_kept | apply drainPc_kept
      | apply Kept.foldl
    | (intro _; intros; try dsimp only)

theorem partialClear_kept {base : State} (n : Nat) (s : State) (hb : Kept base s) :
    Kept base (partialClear n s) := by
  unfold partialClear
  try dsimp only
  repeat' first
    | with_reducible
      first
      | assumption | apply showDie_kept | apply keepFields_kept | apply resetRegs_kept | apply refreshLedger_kept
      | apply modStack_kept | apply setDomain_kept | apply Kept.foldl
    | fail_if_no_progress refine Kept.upd ?_ rfl rfl rfl rfl rfl rfl rfl rfl rfl | (intro _; intros; try dsimp only)

theorem trainPair_kept {base : State} (n p : Nat) (s : State) (hb : Kept base s) :
    Kept base (trainPair n p s) := by
  unfold trainPair
  try dsimp only
  repeat' first
    | with_reducible
      first
      | assumption | apply modEnd_kept | apply startTraining_kept | apply resendUnacked_kept | apply Kept.ite
      | (apply Kept.iteSnd <;> dsimp only)
    | fail_if_no_progress refine Kept.upd ?_ rfl rfl rfl rfl rfl rfl rfl rfl rfl | (intro _; intros; try dsimp only)

theorem partialTrain_kept {base : State} (n : Nat) (s : State) (hb : Kept base s) :
    Kept base (partialTrain n s) := by
  unfold partialTrain
  try dsimp only
  repeat' first
    | with_reducible
      first
      | assumption | apply portChange_kept | apply trainPair_kept | apply Kept.foldl
    | (intro _; intros; try dsimp only)

theorem nightDone_kept {base : State} (r : Refuse) (s : State) (hb : Kept base s) :
    Kept base (nightDone r s) := by
  unfold nightDone
  try dsimp only
  repeat' first
    | with_reducible
      first
      | assumption | apply commitDone_kept | apply wr_kept

theorem nightCommit_kept {base : State} (target value : Nat) (s : State) (hb : Kept base s) :
    Kept base (nightCommit target value s) := by
  unfold nightCommit
  try dsimp only
  repeat' first
    | with_reducible
      first
      | assumption | apply commitAt_kept | apply nightDone_kept | apply wrB_kept | apply acceptStaged_kept
      | apply nightHook_kept | apply modNwt_kept | apply Kept.ite
    | fail_if_no_progress refine Kept.upd ?_ rfl rfl rfl rfl rfl rfl rfl rfl rfl | (split <;> try dsimp only)
    | (intro _; intros; try dsimp only)

theorem reachNightStop_kept {base : State} (s : State) (hb : Kept base s) :
    Kept base (reachNightStop s) := by
  unfold reachNightStop
  try dsimp only
  repeat' first
    | with_reducible
      first
      | assumption | apply passTo_kept | apply nextPeriod_kept | apply nightStop_kept | apply Kept.ite
      | apply Kept.foldl
    | (split <;> try dsimp only) | (intro _; intros; try dsimp only)

theorem saveCourses_kept {base : State} (s : State) (hb : Kept base s) :
    Kept base (saveCourses s) := by
  unfold saveCourses
  try dsimp only
  repeat' first
    | with_reducible
      first
      | assumption | apply zeroCourse_kept | apply teardown_kept | apply saveState_kept | apply wrB_kept
      | apply modCourse_kept | apply Kept.ite | apply Kept.foldl
    | fail_if_no_progress refine Kept.upd ?_ rfl rfl rfl rfl rfl rfl rfl rfl rfl | (intro _; intros; try dsimp only)

theorem saveTies_kept {base : State} (s : State) (hb : Kept base s) :
    Kept base (saveTies s) := by
  unfold saveTies
  try dsimp only
  repeat' first
    | with_reducible
      first
      | assumption | apply writeBack_kept | apply writeMem'_kept
    | fail_if_no_progress refine Kept.upd ?_ rfl rfl rfl rfl rfl rfl rfl rfl rfl

theorem nightNotice_kept {base : State} (s : State) (i : Nat) (hb : Kept base s) :
    Kept base (nightNotice s i) := by
  unfold nightNotice
  try dsimp only
  repeat' first
    | with_reducible
      first
      | assumption | apply modIsland_kept | apply Kept.ite
    | fail_if_no_progress refine Kept.upd ?_ rfl rfl rfl rfl rfl rfl rfl rfl rfl | (intro _; intros; try dsimp only)

theorem enterNight_kept {base : State} (s : State) (hb : Kept base s) :
    Kept base (enterNight s) := by
  unfold enterNight
  try dsimp only
  repeat' first
    | with_reducible
      first
      | assumption | apply nightNotice_kept | apply pcieDown_kept | apply wrData_kept | apply wrWidth_kept
      | apply wrState_kept | apply setDomain_kept | apply modNwt_kept | apply wrB_kept
      | (apply Kept.iteSnd <;> dsimp only) | apply Kept.foldlSnd | apply Kept.foldlFst | apply Kept.foldl
    | fail_if_no_progress refine Kept.upd ?_ rfl rfl rfl rfl rfl rfl rfl rfl rfl | (intro _; intros; try dsimp only)

theorem enterDeepNight_kept {base : State} (s : State) (hb : Kept base s) :
    Kept base (enterDeepNight s) := by
  unfold enterDeepNight
  try dsimp only
  repeat' first
    | with_reducible
      first
      | assumption | apply resetPackage_kept | apply modNwt_kept | apply wrCom_kept | apply Kept.ite
      | (apply Kept.iteSnd <;> dsimp only) | apply Kept.foldlSnd | apply Kept.foldlFst | apply Kept.foldl
    | fail_if_no_progress refine Kept.upd ?_ rfl rfl rfl rfl rfl rfl rfl rfl rfl | (intro _; intros; try dsimp only)

theorem restoreTies_kept {base : State} (s : State) (hb : Kept base s) :
    Kept base (restoreTies s) := by
  unfold restoreTies
  try dsimp only
  repeat' first
    | with_reducible
      first
      | assumption | apply readMem_kept | apply setTie_kept | apply Kept.ite | (apply Kept.iteSnd <;> dsimp only)
      | apply Kept.foldlSnd | apply Kept.foldlFst | apply Kept.foldl
    | (intro _; intros; try dsimp only)

theorem wakeNotice_kept {base : State} (s : State) (i : Nat) (hb : Kept base s) :
    Kept base (wakeNotice s i) := by
  unfold wakeNotice
  try dsimp only
  repeat' first
    | with_reducible
      first
      | assumption | apply modIsland_kept | apply Kept.ite
    | fail_if_no_progress refine Kept.upd ?_ rfl rfl rfl rfl rfl rfl rfl rfl rfl | (intro _; intros; try dsimp only)

theorem resumePlan_kept {base : State} (s : State) (hb : Kept base s) :
    Kept base (resumePlan s) := by
  unfold resumePlan
  try dsimp only
  repeat' first
    | with_reducible
      first
      | assumption | apply incWrap_kept | apply startSwitch_kept | apply Kept.ite | apply Kept.foldl
    | fail_if_no_progress refine Kept.upd ?_ rfl rfl rfl rfl rfl rfl rfl rfl rfl | (split <;> try dsimp only)
    | (intro _; intros; try dsimp only)

theorem delayTests_kept {base : State} (len : Nat) (s : State) (hb : Kept base s) :
    Kept base (delayTests len s) := by
  unfold delayTests
  try dsimp only
  repeat' first
    | with_reducible
      first
      | assumption | (apply Kept.iteSnd <;> dsimp only)
    | fail_if_no_progress refine Kept.upd ?_ rfl rfl rfl rfl rfl rfl rfl rfl rfl | (intro _; intros; try dsimp only)

theorem noteUnreached_kept {base : State} (s : State) (hb : Kept base s) :
    Kept base (noteUnreached s) := by
  unfold noteUnreached
  try dsimp only
  repeat' first
    | with_reducible
      first
      | assumption | apply event_kept | apply Kept.ite | apply Kept.foldl
    | (intro _; intros; try dsimp only)

end Sys2Proof.Machine
end

