-- ==== Sys2Proof/Laws/KeptSequencer.lean ====
section
/-! SUPPORT. What the operations of Machine/Sequencer.lean keep (`Kept`). -/

set_option linter.unusedTactic false
set_option linter.unreachableTactic false

namespace Sys2Proof.Machine

open Reg

theorem settleBarrier_kept {base : State} (id c : Nat) (s : State) (hb : Kept base s) :
    Kept base (settleBarrier id c s) := by
  unfold settleBarrier
  try dsimp only
  repeat' first
    | with_reducible
      first
      | assumption | apply modInst_kept | apply Kept.ite
    | fail_if_no_progress refine Kept.upd ?_ rfl rfl rfl rfl rfl rfl rfl rfl rfl | (split <;> try dsimp only)
    | (intro _; intros; try dsimp only)

theorem tieStep_kept {base : State} (x : Site) (k : State → State) (s : State) (hk : ∀ z0, Kept base z0 → Kept base
    (k z0)) (hb : Kept base s) :
    Kept base (tieStep x k s) := by
  unfold tieStep
  try dsimp only
  repeat' first
    | with_reducible
      first
      | assumption | apply courseFault_kept | apply hk | apply Kept.ite
    | (intro _; intros; try dsimp only)

theorem waitStep_kept {base : State} (x : Site) (kind : TieKind) (s : State) (hb : Kept base s) :
    Kept base (waitStep x kind s) := by
  unfold waitStep
  try dsimp only
  repeat' first
    | with_reducible
      first
      | assumption | apply tryPark_kept | apply setRole_kept | apply tieStep_kept | apply issueTie_kept
      | apply Kept.ite
    | fail_if_no_progress refine Kept.upd ?_ rfl rfl rfl rfl rfl rfl rfl rfl rfl | (intro _; intros; try dsimp only)

theorem agenStep_kept {base : State} (x : Site) (f : Agen → Agen) (s : State) (hb : Kept base s) :
    Kept base (agenStep x f s) := by
  unfold agenStep
  try dsimp only
  repeat' first
    | with_reducible
      first
      | assumption | apply goOn_kept | apply setRole_kept
    | fail_if_no_progress refine Kept.upd ?_ rfl rfl rfl rfl rfl rfl rfl rfl rfl | (intro _; intros; try dsimp only)

end Sys2Proof.Machine
end

