-- ==== Sys2Proof/Laws/KeptTrowel.lean ====
section
/-! SUPPORT. What the operations of Machine/Trowel.lean keep (`Kept`). -/

set_option linter.unusedTactic false
set_option linter.unreachableTactic false

namespace Sys2Proof.Machine

open Reg

theorem loadRead_kept {base : State} (l : Launch) (c a n : Nat) (k : List Nat → State → State) (s : State)
    (hk : ∀ z x, Kept base x → Kept base (k z x)) (hb : Kept base s) : Kept base (loadRead l c a n k s) := by
  have h1 := readMem_kept c l.ctx a n [(l.id, 0x0711, c)] s hb
  exact Kept.ite (hk _ _ h1) (Kept.ite h1 (Kept.ite (stopLaunch_kept _ _ _ _ h1) (refuseInst_kept _ _ _ _ h1)))

theorem loadReadIf_kept {base : State} (cond : Bool) (l : Launch) (c a n : Nat) (k : List Nat → State → State)
    (s : State) (hk : ∀ z0 z1, Kept base z1 → Kept base (k z0 z1)) (hb : Kept base s) :
    Kept base (loadReadIf cond l c a n k s) := by
  unfold loadReadIf
  try dsimp only
  repeat' first
    | with_reducible
      first
      | assumption | apply loadRead_kept | apply hk | apply Kept.ite
    | (intro _; intros; try dsimp only)

theorem loadImage_kept {base : State} (l : Launch) (c slot : Nat) (k : List Nat → State → State) (s : State)
    (hk : ∀ z0 z1, Kept base z1 → Kept base (k z0 z1)) (hb : Kept base s) :
    Kept base (loadImage l c slot k s) := by
  unfold loadImage
  try dsimp only
  repeat' first
    | with_reducible
      first
      | assumption | apply readMem_kept | apply stopLaunch_kept | apply faultInst_kept | apply hk | apply Kept.ite
      | (apply Kept.iteSnd <;> dsimp only)
    | (intro _; intros; try dsimp only)

theorem checkLaunch_kept {base : State} (l : Launch) (c : Nat) (rec0 table line img : List Nat) (s : State)
    (hb : Kept base s) :
    Kept base (checkLaunch l c rec0 table line img s) := by
  unfold checkLaunch
  try dsimp only
  repeat' first
    | with_reducible
      first
      | assumption | apply refuseInst_kept | apply modInst_kept | apply record_kept | apply modLaunch_kept
      | apply tryStage_kept | apply Kept.ite
    | fail_if_no_progress refine Kept.upd ?_ rfl rfl rfl rfl rfl rfl rfl rfl rfl | (split <;> try dsimp only)
    | (intro _; intros; try dsimp only)

theorem takeLaunch_kept {base : State} (l : Launch) (c : Nat) (s : State) (hb : Kept base s) :
    Kept base (takeLaunch l c s) := by
  unfold takeLaunch
  try dsimp only
  repeat' first
    | with_reducible
      first
      | assumption | apply loadReadIf_kept | apply refuseInst_kept | apply loadImage_kept | apply checkLaunch_kept
    | (split <;> try dsimp only) | (intro _; intros; try dsimp only)

theorem activate_kept {base : State} (l : Launch) (i : Inst) (s : State) (hb : Kept base s) :
    Kept base (activate l i s) := by
  unfold activate
  try dsimp only
  repeat' first
    | with_reducible
      first
      | assumption | apply refreshCourse_kept | apply restartWdog_kept | apply modCourse_kept | apply modInst_kept
      | (apply Kept.iteSnd <;> dsimp only)
    | fail_if_no_progress refine Kept.upd ?_ rfl rfl rfl rfl rfl rfl rfl rfl rfl | (intro _; intros; try dsimp only)

theorem resumeInst_kept {base : State} (id : Nat) (s : State) (i : Inst) (hb : Kept base s) :
    Kept base (resumeInst id s i) := by
  unfold resumeInst
  try dsimp only
  repeat' first
    | with_reducible
      first
      | assumption | apply refreshCourse_kept | apply restartWdog_kept | apply modInst_kept | apply Kept.ite
    | fail_if_no_progress refine Kept.upd ?_ rfl rfl rfl rfl rfl rfl rfl rfl rfl | (intro _; intros; try dsimp only)

end Sys2Proof.Machine
end

