-- ==== Sys2Proof/Laws/KeptExec.lean ====
section
/-! SUPPORT. What the commands keep whose meanings need more than their parts: the two minimums, the release of the
package, the two memory commands and the close of Meridian's cycle. -/

namespace Sys2Proof.Machine

open Reg

theorem execRaiseFirmwareMinimum_kept (value : Nat) (s t : State) (h : execRaiseFirmwareMinimum value s = .next t) :
    Kept s t := by
  unfold execRaiseFirmwareMinimum at h
  injection h with h
  rw [← h]
  refine keyRequest_kept _ _ _ _ (fun _ _ hb => plainRequest_kept _ _ _ (fun x hx => ?_) hb) (Kept.refl s)
  dsimp only
  refine modKey_kept _ _ ?_ ?_ hx
  · exact Nat.le_max_left _ _
  · exact fun _ => Nat.le_refl _

theorem execRaisePolicyMinimum_kept (value : Nat) (s t : State) (h : execRaisePolicyMinimum value s = .next t) :
    Kept s t := by
  unfold execRaisePolicyMinimum at h
  injection h with h
  rw [← h]
  exact keyRequest_kept _ _ _ _ (fun _ _ hb => plainRequest_kept _ _ _
    (fun x hx => burn_kept _ (modKey_kept _ _ (Nat.le_refl _) (fun _ => raiseAt_le _ _ _ _) hx)) hb) (Kept.refl s)

theorem execMemoryRead_kept (port ctx addr len : Nat) (upset : MemUpset) (s t : State)
    (h : execMemoryRead port ctx addr len upset s = .next t) : Kept s t := by
  have h0 := befall_kept addr upset s (Kept.refl s)
  unfold execMemoryRead at h
  dsimp only at h
  split at h
  · cases h
  · split at h
    · injection h with h; rw [← h]; exact setupRead_kept _ _ _ _ h0
    · split at h
      · injection h with h; rw [← h]; exact readHbm_kept _ _ _ _ _ _ h0
      · injection h with h; rw [← h]; exact readElsewhere_kept _ _ _ _ _ h0

theorem execMemoryWrite_kept (port ctx addr : Nat) (data : List Nat) (upset : MemUpset) (s t : State)
    (h : execMemoryWrite port ctx addr data upset s = .next t) : Kept s t := by
  have h0 := befall_kept addr upset s (Kept.refl s)
  unfold execMemoryWrite at h
  dsimp only at h
  split at h
  · cases h
  · split at h
    · injection h with h; rw [← h]; exact setupWrite_kept _ _ _ _ _ h0
    · split at h
      · injection h with h; rw [← h]; exact writeHbm_kept _ _ _ _ _ h0
      · injection h with h
        rw [← h]
        exact Kept.upd (writeMem_kept _ _ _ _ _ h0) rfl rfl rfl rfl rfl rfl rfl rfl rfl

theorem execCycleClose_kept (s t : State) (h : execCycleClose s = .next t) : Kept s t := by
  unfold execCycleClose at h
  injection h with h
  rw [← h]
  split
  · exact Kept.refl s
  · split
    · exact Kept.refl s
    · rename_i u hu
      have hk := closeTime_kept s u hu (Kept.refl s)
      split
      · exact hk
      · have hc := fun taken => closeCycle_kept taken u hk
        exact Kept.ite (hc _) (refine_kept _ (hc _))

/-- Kept in every regard, or in every regard but the silence, which has ended. -/
def Woken (s t : State) : Prop := Kept s t ∨ Kept { s with silent := [] } t

theorem Woken.choose {s a b : State} {c : Prop} [Decidable c] (ha : Woken s a) (hb : Woken s b) :
    Woken s (if c then a else b) := by
  split
  · exact ha
  · exact hb

/-- The completion of Dawn keeps the rest where it ends the silence. -/
theorem execDawnComplete_woken (report : DawnReport) (s t : State) (h : execDawnComplete report s = .next t) :
    Woken s t := by
  unfold execDawnComplete at h
  injection h with h
  rw [← h]
  have h0 : Kept s (passTo (s.nwt.dawnAt + report.ms * 1000000) s) := passTo_kept _ _ (Kept.refl s)
  have h2 := fun f => showTrained_kept report.stacksUp _
    (drawChallenge_kept _ (refreshKey_kept _ (reloadRecord_kept report _ (modNwt_kept f _ h0))))
  have h3 := fun f l => Kept.foldl _ l (fun x i hx => showInject_kept report i _ (startIsland_kept i x hx)) (readSteppings_kept _ (h2 f))
  refine Woken.choose (.inl (Kept.refl s)) ?_
  refine Woken.choose (.inl (dawnHold_kept _ _ _ h0)) ?_
  refine Woken.choose (.inl (dawnHold_kept _ _ _ h0)) ?_
  refine Woken.choose (.inl (dawnHold_kept _ _ _ h0)) ?_
  refine Woken.choose (.inl (dawnHold_kept _ _ _ (h2 _))) ?_
  refine Woken.choose (.inl (dawnHold_kept _ _ _ (h2 _))) ?_
  refine Woken.choose (.inl ?_) (.inr (finishDawn_woken _ _ _ (h3 _ _)))
  exact Kept.foldl _ _ (fun _ _ hx => commandState_kept _ _ _ _ _ hx) (dawnHold_kept _ _ _ (h3 _ _))

end Sys2Proof.Machine
end

