-- ==== Sys2Proof/Laws/KeptExec1.lean ====
section
/-! SUPPORT. What each command keeps (`Kept`), where it answers a next state: part 1. -/

set_option linter.all false

namespace Sys2Proof.Machine

open Reg

theorem execMma_kept (brick : Nat) (upset : Upset) (s : State) (t : State) (h : execMma brick upset s = .next t) : Kept s t := by
  unfold execMma at h
  injection h with h
  rw [← h]
  try dsimp only
  repeat' first | with_reducible exact Kept.refl _ | with_reducible assumption | with_reducible apply withUpset_kept | with_reducible apply mmaRun_kept | with_reducible apply Kept.ite | (with_reducible apply Kept.iteSnd <;> dsimp only) | with_reducible apply Kept.foldl | fail_if_no_progress refine Kept.upd ?_ rfl rfl rfl rfl rfl rfl rfl rfl rfl | (split <;> try dsimp only) | (intro _; intros; try dsimp only)

theorem execDrain_kept (brick : Nat) (s : State) (t : State) (h : execDrain brick s = .next t) : Kept s t := by
  unfold execDrain at h
  injection h with h
  rw [← h]
  try dsimp only
  repeat' first | with_reducible exact Kept.refl _ | with_reducible assumption | with_reducible apply goOn_kept | with_reducible apply zeroTile_kept | with_reducible apply setRole_kept | with_reducible apply Kept.ite | (with_reducible apply Kept.iteSnd <;> dsimp only) | with_reducible apply Kept.foldl | fail_if_no_progress refine Kept.upd ?_ rfl rfl rfl rfl rfl rfl rfl rfl rfl | (split <;> try dsimp only) | (intro _; intros; try dsimp only)

theorem execQuant_kept (brick : Nat) (upset : Upset) (s : State) (t : State) (h : execQuant brick upset s = .next t) : Kept s t := by
  unfold execQuant at h
  injection h with h
  rw [← h]
  try dsimp only
  repeat' first | with_reducible exact Kept.refl _ | with_reducible assumption | with_reducible apply withUpset_kept | with_reducible apply quantRun_kept | with_reducible apply Kept.ite | (with_reducible apply Kept.iteSnd <;> dsimp only) | with_reducible apply Kept.foldl | fail_if_no_progress refine Kept.upd ?_ rfl rfl rfl rfl rfl rfl rfl rfl rfl | (split <;> try dsimp only) | (intro _; intros; try dsimp only)

theorem execPlbCommit_kept (value : Nat) (s : State) (t : State) (h : execPlbCommit value s = .next t) : Kept s t := by
  unfold execPlbCommit at h
  injection h with h
  rw [← h]
  try dsimp only
  repeat' first | with_reducible exact Kept.refl _ | with_reducible assumption | with_reducible apply commitAt_kept | with_reducible apply plbDone_kept | with_reducible apply plbApply_kept | with_reducible apply Kept.ite | (with_reducible apply Kept.iteSnd <;> dsimp only) | with_reducible apply Kept.foldl | fail_if_no_progress refine Kept.upd ?_ rfl rfl rfl rfl rfl rfl rfl rfl rfl | (split <;> try dsimp only) | (intro _; intros; try dsimp only)

theorem execProvisionInstallerSlot_kept (value : Nat) (s : State) (t : State) (h : execProvisionInstallerSlot value s = .next t) : Kept s t := by
  unfold execProvisionInstallerSlot at h
  injection h with h
  rw [← h]
  try dsimp only
  repeat' first | with_reducible exact Kept.refl _ | with_reducible assumption | with_reducible apply keyRequest_kept | with_reducible apply plainRequest_kept | with_reducible apply provisionInstaller_kept | with_reducible apply Kept.ite | (with_reducible apply Kept.iteSnd <;> dsimp only) | with_reducible apply Kept.foldl | fail_if_no_progress refine Kept.upd ?_ rfl rfl rfl rfl rfl rfl rfl rfl rfl | (split <;> try dsimp only) | (intro _; intros; try dsimp only)

theorem execRevokeInstallerSlot_kept (value : Nat) (s : State) (t : State) (h : execRevokeInstallerSlot value s = .next t) : Kept s t := by
  unfold execRevokeInstallerSlot at h
  injection h with h
  rw [← h]
  try dsimp only
  repeat' first | with_reducible exact Kept.refl _ | with_reducible assumption | with_reducible apply keyRequest_kept | with_reducible apply plainRequest_kept | with_reducible apply revokeInstaller_kept | with_reducible apply Kept.ite | (with_reducible apply Kept.iteSnd <;> dsimp only) | with_reducible apply Kept.foldl | fail_if_no_progress refine Kept.upd ?_ rfl rfl rfl rfl rfl rfl rfl rfl rfl | (split <;> try dsimp only) | (intro _; intros; try dsimp only)

theorem execProvisionOperatorSlot_kept (value : Nat) (s : State) (t : State) (h : execProvisionOperatorSlot value s = .next t) : Kept s t := by
  unfold execProvisionOperatorSlot at h
  injection h with h
  rw [← h]
  try dsimp only
  repeat' first | with_reducible exact Kept.refl _ | with_reducible assumption | with_reducible apply keyRequest_kept | with_reducible apply plainRequest_kept | with_reducible apply burn_kept | (with_reducible apply modKey_same; exact rfl; exact rfl) | with_reducible apply Kept.ite | (with_reducible apply Kept.iteSnd <;> dsimp only) | with_reducible apply Kept.foldl | fail_if_no_progress refine Kept.upd ?_ rfl rfl rfl rfl rfl rfl rfl rfl rfl | (split <;> try dsimp only) | (intro _; intros; try dsimp only)

theorem execRevokeOperatorSlot_kept (value : Nat) (s : State) (t : State) (h : execRevokeOperatorSlot value s = .next t) : Kept s t := by
  unfold execRevokeOperatorSlot at h
  injection h with h
  rw [← h]
  try dsimp only
  repeat' first | with_reducible exact Kept.refl _ | with_reducible assumption | with_reducible apply keyRequest_kept | with_reducible apply plainRequest_kept | with_reducible apply burn_kept | (with_reducible apply modKey_same; exact rfl; exact rfl) | with_reducible apply Kept.ite | (with_reducible apply Kept.iteSnd <;> dsimp only) | with_reducible apply Kept.foldl | fail_if_no_progress refine Kept.upd ?_ rfl rfl rfl rfl rfl rfl rfl rfl rfl | (split <;> try dsimp only) | (intro _; intros; try dsimp only)

theorem execDebugUnlock_kept (value : Nat) (s : State) (t : State) (h : execDebugUnlock value s = .next t) : Kept s t := by
  unfold execDebugUnlock at h
  injection h with h
  rw [← h]
  try dsimp only
  repeat' first | with_reducible exact Kept.refl _ | with_reducible assumption | with_reducible apply keyRequest_kept | with_reducible apply unlockHalf_kept | with_reducible apply Kept.ite | (with_reducible apply Kept.iteSnd <;> dsimp only) | with_reducible apply Kept.foldl | fail_if_no_progress refine Kept.upd ?_ rfl rfl rfl rfl rfl rfl rfl rfl rfl | (split <;> try dsimp only) | (intro _; intros; try dsimp only)

theorem execDebugHalfExpiry_kept (s : State) (t : State) (h : execDebugHalfExpiry s = .next t) : Kept s t := by
  unfold execDebugHalfExpiry at h
  injection h with h
  rw [← h]
  try dsimp only
  repeat' first | with_reducible exact Kept.refl _ | with_reducible assumption | with_reducible apply refreshKey_kept | (with_reducible apply modKey_same; exact rfl; exact rfl) | with_reducible apply passTo_kept | with_reducible apply Kept.ite | (with_reducible apply Kept.iteSnd <;> dsimp only) | with_reducible apply Kept.foldl | fail_if_no_progress refine Kept.upd ?_ rfl rfl rfl rfl rfl rfl rfl rfl rfl | (split <;> try dsimp only) | (intro _; intros; try dsimp only)

theorem execPolicyRegister_kept (value : Nat) (s : State) (t : State) (h : execPolicyRegister value s = .next t) : Kept s t := by
  unfold execPolicyRegister at h
  injection h with h
  rw [← h]
  try dsimp only
  repeat' first | with_reducible exact Kept.refl _ | with_reducible assumption | with_reducible apply commitAt_kept | with_reducible apply policyDone_kept | with_reducible apply registerPolicy_kept | with_reducible apply Kept.ite | (with_reducible apply Kept.iteSnd <;> dsimp only) | with_reducible apply Kept.foldl | fail_if_no_progress refine Kept.upd ?_ rfl rfl rfl rfl rfl rfl rfl rfl rfl | (split <;> try dsimp only) | (intro _; intros; try dsimp only)

theorem execPolicyRelease_kept (value : Nat) (s : State) (t : State) (h : execPolicyRelease value s = .next t) : Kept s t := by
  unfold execPolicyRelease at h
  injection h with h
  rw [← h]
  try dsimp only
  repeat' first | with_reducible exact Kept.refl _ | with_reducible assumption | with_reducible apply commitAt_kept | with_reducible apply policyDone_kept | with_reducible apply record_kept | (with_reducible apply modKey_same; exact rfl; exact rfl) | with_reducible apply Kept.ite | (with_reducible apply Kept.iteSnd <;> dsimp only) | with_reducible apply Kept.foldl | fail_if_no_progress refine Kept.upd ?_ rfl rfl rfl rfl rfl rfl rfl rfl rfl | (split <;> try dsimp only) | (intro _; intros; try dsimp only)

theorem execCopyRecord_kept (value : Nat) (s : State) (t : State) (h : execCopyRecord value s = .next t) : Kept s t := by
  unfold execCopyRecord at h
  injection h with h
  rw [← h]
  try dsimp only
  repeat' first | with_reducible exact Kept.refl _ | with_reducible assumption | with_reducible apply keyCopy_kept | with_reducible apply Kept.ite | (with_reducible apply Kept.iteSnd <;> dsimp only) | with_reducible apply Kept.foldl | fail_if_no_progress refine Kept.upd ?_ rfl rfl rfl rfl rfl rfl rfl rfl rfl | (split <;> try dsimp only) | (intro _; intros; try dsimp only)

theorem execCopyCertificateChain_kept (value : Nat) (s : State) (t : State) (h : execCopyCertificateChain value s = .next t) : Kept s t := by
  unfold execCopyCertificateChain at h
  injection h with h
  rw [← h]
  try dsimp only
  repeat' first | with_reducible exact Kept.refl _ | with_reducible assumption | with_reducible apply keyCopy_kept | with_reducible apply Kept.ite | (with_reducible apply Kept.iteSnd <;> dsimp only) | with_reducible apply Kept.foldl | fail_if_no_progress refine Kept.upd ?_ rfl rfl rfl rfl rfl rfl rfl rfl rfl | (split <;> try dsimp only) | (intro _; intros; try dsimp only)

theorem execRecordWriteBack_kept (s : State) (t : State) (h : execRecordWriteBack s = .next t) : Kept s t := by
  unfold execRecordWriteBack at h
  injection h with h
  rw [← h]
  try dsimp only
  repeat' first | with_reducible exact Kept.refl _ | with_reducible assumption | with_reducible apply writeBack_kept | with_reducible apply Kept.ite | (with_reducible apply Kept.iteSnd <;> dsimp only) | with_reducible apply Kept.foldl | fail_if_no_progress refine Kept.upd ?_ rfl rfl rfl rfl rfl rfl rfl rfl rfl | (split <;> try dsimp only) | (intro _; intros; try dsimp only)

theorem execKeystoneInternalFault_kept (s : State) (t : State) (h : execKeystoneInternalFault s = .next t) : Kept s t := by
  unfold execKeystoneInternalFault at h
  injection h with h
  rw [← h]
  try dsimp only
  repeat' first | with_reducible exact Kept.refl _ | with_reducible assumption | with_reducible apply event_kept | with_reducible apply Kept.ite | (with_reducible apply Kept.iteSnd <;> dsimp only) | with_reducible apply Kept.foldl | fail_if_no_progress refine Kept.upd ?_ rfl rfl rfl rfl rfl rfl rfl rfl rfl | (split <;> try dsimp only) | (intro _; intros; try dsimp only)

theorem execAttestationReport_kept (value : Nat) (s : State) (t : State) (h : execAttestationReport value s = .next t) : Kept s t := by
  unfold execAttestationReport at h
  injection h with h
  rw [← h]
  try dsimp only
  repeat' first | with_reducible exact Kept.refl _ | with_reducible assumption | with_reducible apply commitAt_kept | with_reducible apply attDone_kept | with_reducible apply writeReport_kept | with_reducible apply Kept.ite | (with_reducible apply Kept.iteSnd <;> dsimp only) | with_reducible apply Kept.foldl | fail_if_no_progress refine Kept.upd ?_ rfl rfl rfl rfl rfl rfl rfl rfl rfl | (split <;> try dsimp only) | (intro _; intros; try dsimp only)

theorem execPortRetrain_kept (die : Nat) (port : Nat) (s : State) (t : State) (h : execPortRetrain die port s = .next t) : Kept s t := by
  unfold execPortRetrain at h
  injection h with h
  rw [← h]
  try dsimp only
  repeat' first | with_reducible exact Kept.refl _ | with_reducible assumption | with_reducible apply ifReached_kept | with_reducible apply portChange_kept | with_reducible apply startTraining_kept | with_reducible apply Kept.ite | (with_reducible apply Kept.iteSnd <;> dsimp only) | with_reducible apply Kept.foldl | fail_if_no_progress refine Kept.upd ?_ rfl rfl rfl rfl rfl rfl rfl rfl rfl | (split <;> try dsimp only) | (intro _; intros; try dsimp only)

theorem execFramingLoss_kept (die : Nat) (port : Nat) (s : State) (t : State) (h : execFramingLoss die port s = .next t) : Kept s t := by
  unfold execFramingLoss at h
  injection h with h
  rw [← h]
  try dsimp only
  repeat' first | with_reducible exact Kept.refl _ | with_reducible assumption | with_reducible apply portChange_kept | with_reducible apply startTraining_kept | with_reducible apply Kept.ite | (with_reducible apply Kept.iteSnd <;> dsimp only) | with_reducible apply Kept.foldl | fail_if_no_progress refine Kept.upd ?_ rfl rfl rfl rfl rfl rfl rfl rfl rfl | (split <;> try dsimp only) | (intro _; intros; try dsimp only)

theorem execLaneMeasurementComplete_kept (die : Nat) (port : Nat) (good : Nat) (s : State) (t : State) (h : execLaneMeasurementComplete die port good s = .next t) : Kept s t := by
  unfold execLaneMeasurementComplete at h
  injection h with h
  rw [← h]
  try dsimp only
  repeat' first | with_reducible exact Kept.refl _ | with_reducible assumption | with_reducible apply settleProposals_kept | with_reducible apply send_kept | with_reducible apply modEnd_kept | with_reducible apply wrGood_kept | with_reducible apply Kept.ite | (with_reducible apply Kept.iteSnd <;> dsimp only) | with_reducible apply Kept.foldl | fail_if_no_progress refine Kept.upd ?_ rfl rfl rfl rfl rfl rfl rfl rfl rfl | (split <;> try dsimp only) | (intro _; intros; try dsimp only)

theorem execTrainingProposal_kept (die : Nat) (port : Nat) (epoch : Nat) (width : Nat) (map : Nat) (peerDie : Nat) (peerPort : Nat) (s : State) (t : State) (h : execTrainingProposal die port epoch width map peerDie peerPort s = .next t) : Kept s t := by
  unfold execTrainingProposal at h
  injection h with h
  rw [← h]
  try dsimp only
  repeat' first | with_reducible exact Kept.refl _ | with_reducible assumption | with_reducible apply onSideband_kept | with_reducible apply takeProposal_kept | with_reducible apply Kept.ite | (with_reducible apply Kept.iteSnd <;> dsimp only) | with_reducible apply Kept.foldl | fail_if_no_progress refine Kept.upd ?_ rfl rfl rfl rfl rfl rfl rfl rfl rfl | (split <;> try dsimp only) | (intro _; intros; try dsimp only)

theorem execFramingCheckEnd_kept (die : Nat) (port : Nat) (passed : Bool) (s : State) (t : State) (h : execFramingCheckEnd die port passed s = .next t) : Kept s t := by
  unfold execFramingCheckEnd at h
  injection h with h
  rw [← h]
  try dsimp only
  repeat' first | with_reducible exact Kept.refl _ | with_reducible assumption | with_reducible apply settleReady_kept | with_reducible apply send_kept | with_reducible apply modEnd_kept | with_reducible apply secondAttempt_kept | with_reducible apply portDown_kept | with_reducible apply Kept.ite | (with_reducible apply Kept.iteSnd <;> dsimp only) | with_reducible apply Kept.foldl | fail_if_no_progress refine Kept.upd ?_ rfl rfl rfl rfl rfl rfl rfl rfl rfl | (split <;> try dsimp only) | (intro _; intros; try dsimp only)

theorem execTrainingReady_kept (die : Nat) (port : Nat) (epoch : Nat) (width : Nat) (s : State) (t : State) (h : execTrainingReady die port epoch width s = .next t) : Kept s t := by
  unfold execTrainingReady at h
  injection h with h
  rw [← h]
  try dsimp only
  repeat' first | with_reducible exact Kept.refl _ | with_reducible assumption | with_reducible apply onSideband_kept | with_reducible apply takeReady_kept | with_reducible apply Kept.ite | (with_reducible apply Kept.iteSnd <;> dsimp only) | with_reducible apply Kept.foldl | fail_if_no_progress refine Kept.upd ?_ rfl rfl rfl rfl rfl rfl rfl rfl rfl | (split <;> try dsimp only) | (intro _; intros; try dsimp only)

theorem execSidebandSilent_kept (die : Nat) (port : Nat) (failed : Bool) (s : State) (t : State) (h : execSidebandSilent die port failed s = .next t) : Kept s t := by
  unfold execSidebandSilent at h
  injection h with h
  rw [← h]
  try dsimp only
  repeat' first | with_reducible exact Kept.refl _ | with_reducible assumption | with_reducible apply portDown_kept | with_reducible apply passTo_kept | with_reducible apply Kept.ite | (with_reducible apply Kept.iteSnd <;> dsimp only) | with_reducible apply Kept.foldl | fail_if_no_progress refine Kept.upd ?_ rfl rfl rfl rfl rfl rfl rfl rfl rfl | (split <;> try dsimp only) | (intro _; intros; try dsimp only)

theorem execFlitReceive_kept (die : Nat) (port : Nat) (flit : List Nat) (garbled : Bool) (parity : Nat) (badEye : Nat) (s : State) (t : State) (h : execFlitReceive die port flit garbled parity badEye s = .next t) : Kept s t := by
  unfold execFlitReceive at h
  injection h with h
  rw [← h]
  try dsimp only
  repeat' first | with_reducible exact Kept.refl _ | with_reducible assumption | with_reducible apply resent_kept | with_reducible apply modEnd_kept | with_reducible apply askReplay_kept | with_reducible apply takeFlit_kept | with_reducible apply judgeLanes_kept | with_reducible apply Kept.ite | (with_reducible apply Kept.iteSnd <;> dsimp only) | with_reducible apply Kept.foldl | fail_if_no_progress refine Kept.upd ?_ rfl rfl rfl rfl rfl rfl rfl rfl rfl | (split <;> try dsimp only) | (intro _; intros; try dsimp only)

theorem execReplayRequest_kept (die : Nat) (port : Nat) (seq : Nat) (s : State) (t : State) (h : execReplayRequest die port seq s = .next t) : Kept s t := by
  unfold execReplayRequest at h
  injection h with h
  rw [← h]
  try dsimp only
  repeat' first | with_reducible exact Kept.refl _ | with_reducible assumption | with_reducible apply replayFrom_kept | with_reducible apply Kept.ite | (with_reducible apply Kept.iteSnd <;> dsimp only) | with_reducible apply Kept.foldl | fail_if_no_progress refine Kept.upd ?_ rfl rfl rfl rfl rfl rfl rfl rfl rfl | (split <;> try dsimp only) | (intro _; intros; try dsimp only)

theorem execLaneRepairMessage_kept (die : Nat) (port : Nat) (epoch : Nat) (lane : Nat) (replacement : Nat) (boundary : Nat) (s : State) (t : State) (h : execLaneRepairMessage die port epoch lane replacement boundary s = .next t) : Kept s t := by
  unfold execLaneRepairMessage at h
  injection h with h
  rw [← h]
  try dsimp only
  repeat' first | with_reducible exact Kept.refl _ | with_reducible assumption | with_reducible apply onSideband_kept | with_reducible apply incSat_kept | with_reducible apply modEnd_kept | with_reducible apply commit_kept | with_reducible apply Kept.ite | (with_reducible apply Kept.iteSnd <;> dsimp only) | with_reducible apply Kept.foldl | fail_if_no_progress refine Kept.upd ?_ rfl rfl rfl rfl rfl rfl rfl rfl rfl | (split <;> try dsimp only) | (intro _; intros; try dsimp only)

theorem execMtrLoopbackCommit_kept (die : Nat) (value : Nat) (s : State) (t : State) (h : execMtrLoopbackCommit die value s = .next t) : Kept s t := by
  unfold execMtrLoopbackCommit at h
  injection h with h
  rw [← h]
  try dsimp only
  repeat' first | with_reducible exact Kept.refl _ | with_reducible assumption | with_reducible apply ifReached_kept | with_reducible apply mtrCommit_kept | with_reducible apply Kept.ite | (with_reducible apply Kept.iteSnd <;> dsimp only) | with_reducible apply Kept.foldl | fail_if_no_progress refine Kept.upd ?_ rfl rfl rfl rfl rfl rfl rfl rfl rfl | (split <;> try dsimp only) | (intro _; intros; try dsimp only)

theorem execMtrCommit_kept (die : Nat) (value : Nat) (s : State) (t : State) (h : execMtrCommit die value s = .next t) : Kept s t := by
  unfold execMtrCommit at h
  injection h with h
  rw [← h]
  try dsimp only
  repeat' first | with_reducible exact Kept.refl _ | with_reducible assumption | with_reducible apply ifReached_kept | with_reducible apply mtrCommit_kept | with_reducible apply Kept.ite | (with_reducible apply Kept.iteSnd <;> dsimp only) | with_reducible apply Kept.foldl | fail_if_no_progress refine Kept.upd ?_ rfl rfl rfl rfl rfl rfl rfl rfl rfl | (split <;> try dsimp only) | (intro _; intros; try dsimp only)

theorem execLoopbackTestEnd_kept (die : Nat) (port : Nat) (errors : List Nat) (s : State) (t : State) (h : execLoopbackTestEnd die port errors s = .next t) : Kept s t := by
  unfold execLoopbackTestEnd at h
  injection h with h
  rw [← h]
  try dsimp only
  repeat' first | with_reducible exact Kept.refl _ | with_reducible assumption | with_reducible apply aloneEnd_kept | with_reducible apply passTo_kept | with_reducible apply laneErrors_kept | with_reducible apply testStatus_kept | with_reducible apply modEnd_kept | with_reducible apply startTraining_kept | with_reducible apply Kept.ite | (with_reducible apply Kept.iteSnd <;> dsimp only) | with_reducible apply Kept.foldl | fail_if_no_progress refine Kept.upd ?_ rfl rfl rfl rfl rfl rfl rfl rfl rfl | (split <;> try dsimp only) | (intro _; intros; try dsimp only)

theorem execBudgetGrantPeriod_kept (s : State) (t : State) (h : execBudgetGrantPeriod s = .next t) : Kept s t := by
  unfold execBudgetGrantPeriod at h
  injection h with h
  rw [← h]
  try dsimp only
  repeat' first | with_reducible exact Kept.refl _ | with_reducible assumption | with_reducible apply grantDie_kept | with_reducible apply Kept.ite | (with_reducible apply Kept.iteSnd <;> dsimp only) | with_reducible apply Kept.foldl | fail_if_no_progress refine Kept.upd ?_ rfl rfl rfl rfl rfl rfl rfl rfl rfl | (split <;> try dsimp only) | (intro _; intros; try dsimp only)

theorem execBudgetGrant_kept (die : Nat) (s : State) (t : State) (h : execBudgetGrant die s = .next t) : Kept s t := by
  unfold execBudgetGrant at h
  injection h with h
  rw [← h]
  try dsimp only
  repeat' first | with_reducible exact Kept.refl _ | with_reducible assumption | with_reducible apply incSat_kept | with_reducible apply wr_kept | with_reducible apply modBudget_kept | with_reducible apply send_kept | with_reducible apply modAgent_kept | with_reducible apply Kept.ite | (with_reducible apply Kept.iteSnd <;> dsimp only) | with_reducible apply Kept.foldl | fail_if_no_progress refine Kept.upd ?_ rfl rfl rfl rfl rfl rfl rfl rfl rfl | (split <;> try dsimp only) | (intro _; intros; try dsimp only)

theorem execBudgetReport_kept (die : Nat) (s : State) (t : State) (h : execBudgetReport die s = .next t) : Kept s t := by
  unfold execBudgetReport at h
  injection h with h
  rw [← h]
  try dsimp only
  repeat' first | with_reducible exact Kept.refl _ | with_reducible assumption | with_reducible apply modBudget_kept | with_reducible apply event_kept | with_reducible apply Kept.ite | (with_reducible apply Kept.iteSnd <;> dsimp only) | with_reducible apply Kept.foldl | fail_if_no_progress refine Kept.upd ?_ rfl rfl rfl rfl rfl rfl rfl rfl rfl | (split <;> try dsimp only) | (intro _; intros; try dsimp only)

theorem execGrantTimeout_kept (die : Nat) (s : State) (t : State) (h : execGrantTimeout die s = .next t) : Kept s t := by
  unfold execGrantTimeout at h
  injection h with h
  rw [← h]
  try dsimp only
  repeat' first | with_reducible exact Kept.refl _ | with_reducible assumption | with_reducible apply passTo_kept | with_reducible apply event_kept | with_reducible apply incSat_kept | with_reducible apply wr_kept | with_reducible apply modBudget_kept | with_reducible apply Kept.ite | (with_reducible apply Kept.iteSnd <;> dsimp only) | with_reducible apply Kept.foldl | fail_if_no_progress refine Kept.upd ?_ rfl rfl rfl rfl rfl rfl rfl rfl rfl | (split <;> try dsimp only) | (intro _; intros; try dsimp only)

theorem execReportTimeout_kept (die : Nat) (s : State) (t : State) (h : execReportTimeout die s = .next t) : Kept s t := by
  unfold execReportTimeout at h
  injection h with h
  rw [← h]
  try dsimp only
  repeat' first | with_reducible exact Kept.refl _ | with_reducible assumption | with_reducible apply passTo_kept | with_reducible apply modBudget_kept | with_reducible apply Kept.ite | (with_reducible apply Kept.iteSnd <;> dsimp only) | with_reducible apply Kept.foldl | fail_if_no_progress refine Kept.upd ?_ rfl rfl rfl rfl rfl rfl rfl rfl rfl | (split <;> try dsimp only) | (intro _; intros; try dsimp only)

theorem execDoorbellWrite_kept (ctx : Nat) (ring : Nat) (s : State) (t : State) (h : execDoorbellWrite ctx ring s = .next t) : Kept s t := by
  unfold execDoorbellWrite at h
  injection h with h
  rw [← h]
  try dsimp only
  repeat' first | with_reducible exact Kept.refl _ | with_reducible assumption | with_reducible apply readDoorbell_kept | with_reducible apply Kept.ite | (with_reducible apply Kept.iteSnd <;> dsimp only) | with_reducible apply Kept.foldl | fail_if_no_progress refine Kept.upd ?_ rfl rfl rfl rfl rfl rfl rfl rfl rfl | (split <;> try dsimp only) | (intro _; intros; try dsimp only)

theorem execDoorbellPoll_kept (ctx : Nat) (ring : Nat) (s : State) (t : State) (h : execDoorbellPoll ctx ring s = .next t) : Kept s t := by
  unfold execDoorbellPoll at h
  injection h with h
  rw [← h]
  try dsimp only
  repeat' first | with_reducible exact Kept.refl _ | with_reducible assumption | with_reducible apply passTo_kept | with_reducible apply readDoorbell_kept | with_reducible apply modRing_kept | with_reducible apply Kept.ite | (with_reducible apply Kept.iteSnd <;> dsimp only) | with_reducible apply Kept.foldl | fail_if_no_progress refine Kept.upd ?_ rfl rfl rfl rfl rfl rfl rfl rfl rfl | (split <;> try dsimp only) | (intro _; intros; try dsimp only)

theorem execTieOperation_kept (home : Nat) (sender : Nat) (s : State) (t : State) (h : execTieOperation home sender s = .next t) : Kept s t := by
  unfold execTieOperation at h
  injection h with h
  rw [← h]
  try dsimp only
  repeat' first | with_reducible exact Kept.refl _ | with_reducible assumption | with_reducible apply tieDeliver_kept | with_reducible apply Kept.ite | (with_reducible apply Kept.iteSnd <;> dsimp only) | with_reducible apply Kept.foldl | fail_if_no_progress refine Kept.upd ?_ rfl rfl rfl rfl rfl rfl rfl rfl rfl | (split <;> try dsimp only) | (intro _; intros; try dsimp only)

theorem execLaunch_kept (ctx : Nat) (ring : Nat) (s : State) (t : State) (h : execLaunch ctx ring s = .next t) : Kept s t := by
  unfold execLaunch at h
  injection h with h
  rw [← h]
  try dsimp only
  repeat' first | with_reducible exact Kept.refl _ | with_reducible assumption | with_reducible apply fetchChecked_kept | with_reducible apply acceptWork_kept | with_reducible apply Kept.ite | (with_reducible apply Kept.iteSnd <;> dsimp only) | with_reducible apply Kept.foldl | fail_if_no_progress refine Kept.upd ?_ rfl rfl rfl rfl rfl rfl rfl rfl rfl | (split <;> try dsimp only) | (intro _; intros; try dsimp only)

theorem execSieve_kept (ctx : Nat) (ring : Nat) (s : State) (t : State) (h : execSieve ctx ring s = .next t) : Kept s t := by
  unfold execSieve at h
  injection h with h
  rw [← h]
  try dsimp only
  repeat' first | with_reducible exact Kept.refl _ | with_reducible assumption | with_reducible apply fetchChecked_kept | with_reducible apply acceptWork_kept | with_reducible apply Kept.ite | (with_reducible apply Kept.iteSnd <;> dsimp only) | with_reducible apply Kept.foldl | fail_if_no_progress refine Kept.upd ?_ rfl rfl rfl rfl rfl rfl rfl rfl rfl | (split <;> try dsimp only) | (intro _; intros; try dsimp only)

theorem execFence_kept (ctx : Nat) (ring : Nat) (s : State) (t : State) (h : execFence ctx ring s = .next t) : Kept s t := by
  unfold execFence at h
  injection h with h
  rw [← h]
  try dsimp only
  repeat' first | with_reducible exact Kept.refl _ | with_reducible assumption | with_reducible apply fetchChecked_kept | with_reducible apply holdRing_kept | with_reducible apply keepDesc_kept | with_reducible apply Kept.ite | (with_reducible apply Kept.iteSnd <;> dsimp only) | with_reducible apply Kept.foldl | fail_if_no_progress refine Kept.upd ?_ rfl rfl rfl rfl rfl rfl rfl rfl rfl | (split <;> try dsimp only) | (intro _; intros; try dsimp only)

theorem execFenceRelease_kept (ctx : Nat) (ring : Nat) (s : State) (t : State) (h : execFenceRelease ctx ring s = .next t) : Kept s t := by
  unfold execFenceRelease at h
  injection h with h
  rw [← h]
  try dsimp only
  repeat' first | with_reducible exact Kept.refl _ | with_reducible assumption | with_reducible apply finishDesc_kept | with_reducible apply holdRing_kept | with_reducible apply Kept.ite | (with_reducible apply Kept.iteSnd <;> dsimp only) | with_reducible apply Kept.foldl | fail_if_no_progress refine Kept.upd ?_ rfl rfl rfl rfl rfl rfl rfl rfl rfl | (split <;> try dsimp only) | (intro _; intros; try dsimp only)

theorem execTieSignal_kept (ctx : Nat) (ring : Nat) (s : State) (t : State) (h : execTieSignal ctx ring s = .next t) : Kept s t := by
  unfold execTieSignal at h
  injection h with h
  rw [← h]
  try dsimp only
  repeat' first | with_reducible exact Kept.refl _ | with_reducible assumption | with_reducible apply fetchChecked_kept | with_reducible apply tieDesc_kept | with_reducible apply Kept.ite | (with_reducible apply Kept.iteSnd <;> dsimp only) | with_reducible apply Kept.foldl | fail_if_no_progress refine Kept.upd ?_ rfl rfl rfl rfl rfl rfl rfl rfl rfl | (split <;> try dsimp only) | (intro _; intros; try dsimp only)

theorem execTieReset_kept (ctx : Nat) (ring : Nat) (s : State) (t : State) (h : execTieReset ctx ring s = .next t) : Kept s t := by
  unfold execTieReset at h
  injection h with h
  rw [← h]
  try dsimp only
  repeat' first | with_reducible exact Kept.refl _ | with_reducible assumption | with_reducible apply fetchChecked_kept | with_reducible apply tieDesc_kept | with_reducible apply Kept.ite | (with_reducible apply Kept.iteSnd <;> dsimp only) | with_reducible apply Kept.foldl | fail_if_no_progress refine Kept.upd ?_ rfl rfl rfl rfl rfl rfl rfl rfl rfl | (split <;> try dsimp only) | (intro _; intros; try dsimp only)

theorem execTieWait_kept (ctx : Nat) (ring : Nat) (s : State) (t : State) (h : execTieWait ctx ring s = .next t) : Kept s t := by
  unfold execTieWait at h
  injection h with h
  rw [← h]
  try dsimp only
  repeat' first | with_reducible exact Kept.refl _ | with_reducible assumption | with_reducible apply fetchChecked_kept | with_reducible apply waitDesc_kept | with_reducible apply Kept.ite | (with_reducible apply Kept.iteSnd <;> dsimp only) | with_reducible apply Kept.foldl | fail_if_no_progress refine Kept.upd ?_ rfl rfl rfl rfl rfl rfl rfl rfl rfl | (split <;> try dsimp only) | (intro _; intros; try dsimp only)

theorem execTieWaitTimeout_kept (sender : Nat) (s : State) (t : State) (h : execTieWaitTimeout sender s = .next t) : Kept s t := by
  unfold execTieWaitTimeout at h
  injection h with h
  rw [← h]
  try dsimp only
  repeat' first | with_reducible exact Kept.refl _ | with_reducible assumption | with_reducible apply timeoutWait_kept | with_reducible apply passTo_kept | with_reducible apply Kept.ite | (with_reducible apply Kept.iteSnd <;> dsimp only) | with_reducible apply Kept.foldl | fail_if_no_progress refine Kept.upd ?_ rfl rfl rfl rfl rfl rfl rfl rfl rfl | (split <;> try dsimp only) | (intro _; intros; try dsimp only)

theorem execRingRestart_kept (ctx : Nat) (rings : Nat) (s : State) (t : State) (h : execRingRestart ctx rings s = .next t) : Kept s t := by
  unfold execRingRestart at h
  injection h with h
  rw [← h]
  try dsimp only
  repeat' first | with_reducible exact Kept.refl _ | with_reducible assumption | with_reducible apply writeEcho_kept | with_reducible apply wr_kept | with_reducible apply modRing_kept | with_reducible apply Kept.ite | (with_reducible apply Kept.iteSnd <;> dsimp only) | with_reducible apply Kept.foldl | fail_if_no_progress refine Kept.upd ?_ rfl rfl rfl rfl rfl rfl rfl rfl rfl | (split <;> try dsimp only) | (intro _; intros; try dsimp only)

theorem execContextTeardownRequest_kept (ctx : Nat) (s : State) (t : State) (h : execContextTeardownRequest ctx s = .next t) : Kept s t := by
  unfold execContextTeardownRequest at h
  injection h with h
  rw [← h]
  try dsimp only
  repeat' first | with_reducible exact Kept.refl _ | with_reducible assumption | with_reducible apply teardown_kept | with_reducible apply Kept.ite | (with_reducible apply Kept.iteSnd <;> dsimp only) | with_reducible apply Kept.foldl | fail_if_no_progress refine Kept.upd ?_ rfl rfl rfl rfl rfl rfl rfl rfl rfl | (split <;> try dsimp only) | (intro _; intros; try dsimp only)

theorem execHstCommit_kept (value : Nat) (s : State) (t : State) (h : execHstCommit value s = .next t) : Kept s t := by
  unfold execHstCommit at h
  injection h with h
  rw [← h]
  try dsimp only
  repeat' first | with_reducible exact Kept.refl _ | with_reducible assumption | with_reducible apply commit_kept | with_reducible apply hstApply_kept | with_reducible apply Kept.ite | (with_reducible apply Kept.iteSnd <;> dsimp only) | with_reducible apply Kept.foldl | fail_if_no_progress refine Kept.upd ?_ rfl rfl rfl rfl rfl rfl rfl rfl rfl | (split <;> try dsimp only) | (intro _; intros; try dsimp only)

theorem execCsiPacket_kept (port : Nat) (vc : Nat) (dataType : Nat) (ecc : Nat) (crcOk : Bool) (payload : List Nat) (s : State) (t : State) (h : execCsiPacket port vc dataType ecc crcOk payload s = .next t) : Kept s t := by
  unfold execCsiPacket at h
  injection h with h
  rw [← h]
  try dsimp only
  repeat' first | with_reducible exact Kept.refl _ | with_reducible assumption | with_reducible apply foreign_kept | with_reducible apply landLine_kept | with_reducible apply modStream_kept | with_reducible apply Kept.ite | (with_reducible apply Kept.iteSnd <;> dsimp only) | with_reducible apply Kept.foldl | fail_if_no_progress refine Kept.upd ?_ rfl rfl rfl rfl rfl rfl rfl rfl rfl | (split <;> try dsimp only) | (intro _; intros; try dsimp only)

theorem execFrameStart_kept (stream : Nat) (vc : Nat) (ecc : Nat) (s : State) (t : State) (h : execFrameStart stream vc ecc s = .next t) : Kept s t := by
  unfold execFrameStart at h
  injection h with h
  rw [← h]
  try dsimp only
  repeat' first | with_reducible exact Kept.refl _ | with_reducible assumption | with_reducible apply foreign_kept | with_reducible apply dropFrame_kept | with_reducible apply modStream_kept | with_reducible apply stopStream_kept | with_reducible apply beginFrame_kept | with_reducible apply capture_kept | with_reducible apply Kept.ite | (with_reducible apply Kept.iteSnd <;> dsimp only) | with_reducible apply Kept.foldl | fail_if_no_progress refine Kept.upd ?_ rfl rfl rfl rfl rfl rfl rfl rfl rfl | (split <;> try dsimp only) | (intro _; intros; try dsimp only)

theorem execFrameEnd_kept (stream : Nat) (vc : Nat) (ecc : Nat) (s : State) (t : State) (h : execFrameEnd stream vc ecc s = .next t) : Kept s t := by
  unfold execFrameEnd at h
  injection h with h
  rw [← h]
  try dsimp only
  repeat' first | with_reducible exact Kept.refl _ | with_reducible assumption | with_reducible apply foreign_kept | with_reducible apply landLast_kept | with_reducible apply completeFrame_kept | with_reducible apply Kept.ite | (with_reducible apply Kept.iteSnd <;> dsimp only) | with_reducible apply Kept.foldl | fail_if_no_progress refine Kept.upd ?_ rfl rfl rfl rfl rfl rfl rfl rfl rfl | (split <;> try dsimp only) | (intro _; intros; try dsimp only)

theorem execFramePublish_kept (stream : Nat) (s : State) (t : State) (h : execFramePublish stream s = .next t) : Kept s t := by
  unfold execFramePublish at h
  injection h with h
  rw [← h]
  try dsimp only
  repeat' first | with_reducible exact Kept.refl _ | with_reducible assumption | with_reducible apply withdraw_kept | with_reducible apply modStream_kept | with_reducible apply writeMem_kept | with_reducible apply dropFrame_kept | with_reducible apply signalFrom_kept | with_reducible apply Kept.ite | (with_reducible apply Kept.iteSnd <;> dsimp only) | with_reducible apply Kept.foldl | fail_if_no_progress refine Kept.upd ?_ rfl rfl rfl rfl rfl rfl rfl rfl rfl | (split <;> try dsimp only) | (intro _; intros; try dsimp only)

theorem execFrameStale_kept (stream : Nat) (s : State) (t : State) (h : execFrameStale stream s = .next t) : Kept s t := by
  unfold execFrameStale at h
  injection h with h
  rw [← h]
  try dsimp only
  repeat' first | with_reducible exact Kept.refl _ | with_reducible assumption | with_reducible apply passTo_kept | with_reducible apply incSat_kept | with_reducible apply dropFrame_kept | with_reducible apply withdraw_kept | with_reducible apply modStream_kept | with_reducible apply Kept.ite | (with_reducible apply Kept.iteSnd <;> dsimp only) | with_reducible apply Kept.foldl | fail_if_no_progress refine Kept.upd ?_ rfl rfl rfl rfl rfl rfl rfl rfl rfl | (split <;> try dsimp only) | (intro _; intros; try dsimp only)

theorem execSensorSilent_kept (stream : Nat) (s : State) (t : State) (h : execSensorSilent stream s = .next t) : Kept s t := by
  unfold execSensorSilent at h
  injection h with h
  rw [← h]
  try dsimp only
  repeat' first | with_reducible exact Kept.refl _ | with_reducible assumption | with_reducible apply event_kept | with_reducible apply modStream_kept | with_reducible apply passTo_kept | with_reducible apply Kept.ite | (with_reducible apply Kept.iteSnd <;> dsimp only) | with_reducible apply Kept.foldl | fail_if_no_progress refine Kept.upd ?_ rfl rfl rfl rfl rfl rfl rfl rfl rfl | (split <;> try dsimp only) | (intro _; intros; try dsimp only)

theorem execCamStreamCommit_kept (stream : Nat) (value : Nat) (s : State) (t : State) (h : execCamStreamCommit stream value s = .next t) : Kept s t := by
  unfold execCamStreamCommit at h
  injection h with h
  rw [← h]
  try dsimp only
  repeat' first | with_reducible exact Kept.refl _ | with_reducible assumption | with_reducible apply commitAt_kept | with_reducible apply camDone_kept | with_reducible apply modStream_kept | with_reducible apply acceptStaged_kept | with_reducible apply camReads_kept | with_reducible apply wrB_kept | with_reducible apply setStream_kept | with_reducible apply record_kept | with_reducible apply Kept.ite | (with_reducible apply Kept.iteSnd <;> dsimp only) | with_reducible apply Kept.foldl | fail_if_no_progress refine Kept.upd ?_ rfl rfl rfl rfl rfl rfl rfl rfl rfl | (split <;> try dsimp only) | (intro _; intros; try dsimp only)

theorem execDayCommit_kept (value : Nat) (s : State) (t : State) (h : execDayCommit value s = .next t) : Kept s t := by
  unfold execDayCommit at h
  injection h with h
  rw [← h]
  try dsimp only
  repeat' first | with_reducible exact Kept.refl _ | with_reducible assumption | with_reducible apply commitAt_kept | with_reducible apply dayDone_kept | with_reducible apply dayStart_kept | with_reducible apply Kept.ite | (with_reducible apply Kept.iteSnd <;> dsimp only) | with_reducible apply Kept.foldl | fail_if_no_progress refine Kept.upd ?_ rfl rfl rfl rfl rfl rfl rfl rfl rfl | (split <;> try dsimp only) | (intro _; intros; try dsimp only)

theorem execDayCommitComplete_kept (s : State) (t : State) (h : execDayCommitComplete s = .next t) : Kept s t := by
  unfold execDayCommitComplete at h
  injection h with h
  rw [← h]
  try dsimp only
  repeat' first | with_reducible exact Kept.refl _ | with_reducible assumption | with_reducible apply wrB_kept | with_reducible apply dayDone_kept | with_reducible apply stagePlan_kept | with_reducible apply record_kept | with_reducible apply wrCom_kept | with_reducible apply Kept.ite | (with_reducible apply Kept.iteSnd <;> dsimp only) | with_reducible apply Kept.foldl | fail_if_no_progress refine Kept.upd ?_ rfl rfl rfl rfl rfl rfl rfl rfl rfl | (split <;> try dsimp only) | (intro _; intros; try dsimp only)

theorem execWatchEnd_kept (watch : Nat) (s : State) (t : State) (h : execWatchEnd watch s = .next t) : Kept s t := by
  unfold execWatchEnd at h
  injection h with h
  rw [← h]
  try dsimp only
  repeat' first | with_reducible exact Kept.refl _ | with_reducible assumption | with_reducible apply endWatch_kept | with_reducible apply Kept.ite | (with_reducible apply Kept.iteSnd <;> dsimp only) | with_reducible apply Kept.foldl | fail_if_no_progress refine Kept.upd ?_ rfl rfl rfl rfl rfl rfl rfl rfl rfl | (split <;> try dsimp only) | (intro _; intros; try dsimp only)

theorem execWatchStart_kept (watch : Nat) (course : Nat) (s : State) (t : State) (h : execWatchStart watch course s = .next t) : Kept s t := by
  unfold execWatchStart at h
  injection h with h
  rw [← h]
  try dsimp only
  repeat' first | with_reducible exact Kept.refl _ | with_reducible assumption | with_reducible apply passTo_kept | with_reducible apply beginWatch_kept | with_reducible apply Kept.ite | (with_reducible apply Kept.iteSnd <;> dsimp only) | with_reducible apply Kept.foldl | fail_if_no_progress refine Kept.upd ?_ rfl rfl rfl rfl rfl rfl rfl rfl rfl | (split <;> try dsimp only) | (intro _; intros; try dsimp only)

theorem execPeriodBoundary_kept (s : State) (t : State) (h : execPeriodBoundary s = .next t) : Kept s t := by
  unfold execPeriodBoundary at h
  injection h with h
  rw [← h]
  try dsimp only
  repeat' first | with_reducible exact Kept.refl _ | with_reducible assumption | with_reducible apply nextPeriod_kept | with_reducible apply Kept.ite | (with_reducible apply Kept.iteSnd <;> dsimp only) | with_reducible apply Kept.foldl | fail_if_no_progress refine Kept.upd ?_ rfl rfl rfl rfl rfl rfl rfl rfl rfl | (split <;> try dsimp only) | (intro _; intros; try dsimp only)

end Sys2Proof.Machine
end

