-- ==== Sys2Proof/Laws/KeptExec2.lean ====
section
/-! SUPPORT. What each command keeps (`Kept`), where it answers a next state: part 2. -/

set_option linter.all false

namespace Sys2Proof.Machine

open Reg

theorem execPlanTakeover_kept (s : State) (t : State) (h : execPlanTakeover s = .next t) : Kept s t := by
  unfold execPlanTakeover at h
  injection h with h
  rw [← h]
  try dsimp only
  repeat' first | with_reducible exact Kept.refl _ | with_reducible assumption | with_reducible apply endWatch_kept | with_reducible apply passTo_kept | with_reducible apply refreshTest_kept | with_reducible apply wr_kept | with_reducible apply wrB_kept | with_reducible apply refreshLedger_kept | with_reducible apply event_kept | with_reducible apply nightHook_kept | with_reducible apply takeoverCourse_kept | with_reducible apply Kept.ite | (with_reducible apply Kept.iteSnd <;> dsimp only) | with_reducible apply Kept.foldl | fail_if_no_progress refine Kept.upd ?_ rfl rfl rfl rfl rfl rfl rfl rfl rfl | (split <;> try dsimp only) | (intro _; intros; try dsimp only)

theorem execSwitchComplete_kept (course : Nat) (s : State) (t : State) (h : execSwitchComplete course s = .next t) : Kept s t := by
  unfold execSwitchComplete at h
  injection h with h
  rw [← h]
  try dsimp only
  repeat' first | with_reducible exact Kept.refl _ | with_reducible assumption | with_reducible apply teardown_kept | with_reducible apply finishSwitch_kept | with_reducible apply passTo_kept | with_reducible apply Kept.ite | (with_reducible apply Kept.iteSnd <;> dsimp only) | with_reducible apply Kept.foldl | fail_if_no_progress refine Kept.upd ?_ rfl rfl rfl rfl rfl rfl rfl rfl rfl | (split <;> try dsimp only) | (intro _; intros; try dsimp only)

theorem execWatchOverrunExpiry_kept (course : Nat) (s : State) (t : State) (h : execWatchOverrunExpiry course s = .next t) : Kept s t := by
  unfold execWatchOverrunExpiry at h
  injection h with h
  rw [← h]
  try dsimp only
  repeat' first | with_reducible exact Kept.refl _ | with_reducible assumption | with_reducible apply modCourse_kept | with_reducible apply passTo_kept | with_reducible apply event_kept | with_reducible apply incSat_kept | with_reducible apply teardown_kept | with_reducible apply Kept.ite | (with_reducible apply Kept.iteSnd <;> dsimp only) | with_reducible apply Kept.foldl | fail_if_no_progress refine Kept.upd ?_ rfl rfl rfl rfl rfl rfl rfl rfl rfl | (split <;> try dsimp only) | (intro _; intros; try dsimp only)

theorem execTeardownScrubComplete_kept (ctx : Nat) (s : State) (t : State) (h : execTeardownScrubComplete ctx s = .next t) : Kept s t := by
  unfold execTeardownScrubComplete at h
  injection h with h
  rw [← h]
  try dsimp only
  repeat' first | with_reducible exact Kept.refl _ | with_reducible assumption | with_reducible apply wrB_kept | with_reducible apply modCourse_kept | with_reducible apply zeroCourse_kept | with_reducible apply event_kept | with_reducible apply modCtx_kept | with_reducible apply Kept.ite | (with_reducible apply Kept.iteSnd <;> dsimp only) | with_reducible apply Kept.foldl | fail_if_no_progress refine Kept.upd ?_ rfl rfl rfl rfl rfl rfl rfl rfl rfl | (split <;> try dsimp only) | (intro _; intros; try dsimp only)

theorem execReplayOutcome_kept (brick : Nat) (hostPass : Bool) (upset : Upset) (s : State) (t : State) (h : execReplayOutcome brick hostPass upset s = .next t) : Kept s t := by
  unfold execReplayOutcome at h
  injection h with h
  rw [← h]
  try dsimp only
  repeat' first | with_reducible exact Kept.refl _ | with_reducible assumption | with_reducible apply incWrap_kept | with_reducible apply replayCost_kept | with_reducible apply event_kept | with_reducible apply capture_kept | with_reducible apply strike_kept | with_reducible apply setRole_kept | with_reducible apply foldShadow_kept | with_reducible apply mmaFrom_kept | with_reducible apply withDraw_kept | with_reducible apply brickFault_kept | with_reducible apply Kept.ite | (with_reducible apply Kept.iteSnd <;> dsimp only) | with_reducible apply Kept.foldl | fail_if_no_progress refine Kept.upd ?_ rfl rfl rfl rfl rfl rfl rfl rfl rfl | (split <;> try dsimp only) | (intro _; intros; try dsimp only)

theorem execBrickTestComplete_kept (brick : Nat) (pass : Bool) (packId : Nat) (pattern : Nat) (s : State) (t : State) (h : execBrickTestComplete brick pass packId pattern s = .next t) : Kept s t := by
  unfold execBrickTestComplete at h
  injection h with h
  rw [← h]
  try dsimp only
  repeat' first | with_reducible exact Kept.refl _ | with_reducible assumption | with_reducible apply pass_kept | with_reducible apply startBrickTest_kept | with_reducible apply endTest_kept | with_reducible apply Kept.ite | (with_reducible apply Kept.iteSnd <;> dsimp only) | with_reducible apply Kept.foldl | fail_if_no_progress refine Kept.upd ?_ rfl rfl rfl rfl rfl rfl rfl rfl rfl | (split <;> try dsimp only) | (intro _; intros; try dsimp only)

theorem execBrickTestOverdue_kept (brick : Nat) (s : State) (t : State) (h : execBrickTestOverdue brick s = .next t) : Kept s t := by
  unfold execBrickTestOverdue at h
  injection h with h
  rw [← h]
  try dsimp only
  repeat' first | with_reducible exact Kept.refl _ | with_reducible assumption | with_reducible apply passTo_kept | with_reducible apply event_kept | with_reducible apply incSat_kept | with_reducible apply modBrick_kept | with_reducible apply Kept.ite | (with_reducible apply Kept.iteSnd <;> dsimp only) | with_reducible apply Kept.foldl | fail_if_no_progress refine Kept.upd ?_ rfl rfl rfl rfl rfl rfl rfl rfl rfl | (split <;> try dsimp only) | (intro _; intros; try dsimp only)

theorem execRetestBricks_kept (value : Nat) (s : State) (t : State) (h : execRetestBricks value s = .next t) : Kept s t := by
  unfold execRetestBricks at h
  injection h with h
  rw [← h]
  try dsimp only
  repeat' first | with_reducible exact Kept.refl _ | with_reducible assumption | with_reducible apply keyRequest_kept | with_reducible apply plainRequest_kept | with_reducible apply Kept.ite | (with_reducible apply Kept.iteSnd <;> dsimp only) | with_reducible apply Kept.foldl | fail_if_no_progress refine Kept.upd ?_ rfl rfl rfl rfl rfl rfl rfl rfl rfl | (split <;> try dsimp only) | (intro _; intros; try dsimp only)

theorem execPackInstall_kept (value : Nat) (s : State) (t : State) (h : execPackInstall value s = .next t) : Kept s t := by
  unfold execPackInstall at h
  injection h with h
  rw [← h]
  try dsimp only
  repeat' first | with_reducible exact Kept.refl _ | with_reducible assumption | with_reducible apply packStart_kept | with_reducible apply Kept.ite | (with_reducible apply Kept.iteSnd <;> dsimp only) | with_reducible apply Kept.foldl | fail_if_no_progress refine Kept.upd ?_ rfl rfl rfl rfl rfl rfl rfl rfl rfl | (split <;> try dsimp only) | (intro _; intros; try dsimp only)

theorem execPackRemove_kept (value : Nat) (s : State) (t : State) (h : execPackRemove value s = .next t) : Kept s t := by
  unfold execPackRemove at h
  injection h with h
  rw [← h]
  try dsimp only
  repeat' first | with_reducible exact Kept.refl _ | with_reducible assumption | with_reducible apply packStart_kept | with_reducible apply Kept.ite | (with_reducible apply Kept.iteSnd <;> dsimp only) | with_reducible apply Kept.foldl | fail_if_no_progress refine Kept.upd ?_ rfl rfl rfl rfl rfl rfl rfl rfl rfl | (split <;> try dsimp only) | (intro _; intros; try dsimp only)

theorem execPackCommitComplete_kept (s : State) (t : State) (h : execPackCommitComplete s = .next t) : Kept s t := by
  unfold execPackCommitComplete at h
  injection h with h
  rw [← h]
  try dsimp only
  repeat' first | with_reducible exact Kept.refl _ | with_reducible assumption | with_reducible apply packDone_kept | with_reducible apply record_kept | with_reducible apply loadPack_kept | with_reducible apply showPacks_kept | with_reducible apply wr_kept | with_reducible apply acceptStaged_kept | with_reducible apply event_kept | with_reducible apply Kept.ite | (with_reducible apply Kept.iteSnd <;> dsimp only) | with_reducible apply Kept.foldl | fail_if_no_progress refine Kept.upd ?_ rfl rfl rfl rfl rfl rfl rfl rfl rfl | (split <;> try dsimp only) | (intro _; intros; try dsimp only)

theorem execFabCtxCommit_kept (ctx : Nat) (value : Nat) (s : State) (t : State) (h : execFabCtxCommit ctx value s = .next t) : Kept s t := by
  unfold execFabCtxCommit at h
  injection h with h
  rw [← h]
  try dsimp only
  repeat' first | with_reducible exact Kept.refl _ | with_reducible assumption | with_reducible apply commit_kept | with_reducible apply acceptStaged_kept | with_reducible apply Kept.ite | (with_reducible apply Kept.iteSnd <;> dsimp only) | with_reducible apply Kept.foldl | fail_if_no_progress refine Kept.upd ?_ rfl rfl rfl rfl rfl rfl rfl rfl rfl | (split <;> try dsimp only) | (intro _; intros; try dsimp only)

theorem execManifestWrite_kept (sampler : Nat) (s : State) (t : State) (h : execManifestWrite sampler s = .next t) : Kept s t := by
  unfold execManifestWrite at h
  injection h with h
  rw [← h]
  try dsimp only
  repeat' first | with_reducible exact Kept.refl _ | with_reducible assumption | with_reducible apply writeMem'_kept | with_reducible apply modSampler_kept | with_reducible apply signalFrom_kept | with_reducible apply Kept.ite | (with_reducible apply Kept.iteSnd <;> dsimp only) | with_reducible apply Kept.foldl | fail_if_no_progress refine Kept.upd ?_ rfl rfl rfl rfl rfl rfl rfl rfl rfl | (split <;> try dsimp only) | (intro _; intros; try dsimp only)

theorem execDecSamplerCommit_kept (sampler : Nat) (value : Nat) (s : State) (t : State) (h : execDecSamplerCommit sampler value s = .next t) : Kept s t := by
  unfold execDecSamplerCommit at h
  injection h with h
  rw [← h]
  try dsimp only
  repeat' first | with_reducible exact Kept.refl _ | with_reducible assumption | with_reducible apply commitAt_kept | with_reducible apply samplerDone_kept | with_reducible apply modSampler_kept | with_reducible apply acceptStaged_kept | with_reducible apply readMem_kept | with_reducible apply record_kept | with_reducible apply Kept.ite | (with_reducible apply Kept.iteSnd <;> dsimp only) | with_reducible apply Kept.foldl | fail_if_no_progress refine Kept.upd ?_ rfl rfl rfl rfl rfl rfl rfl rfl rfl | (split <;> try dsimp only) | (intro _; intros; try dsimp only)

theorem execSliceComplete_kept (engine : Nat) (report : SliceReport) (s : State) (t : State) (h : execSliceComplete engine report s = .next t) : Kept s t := by
  unfold execSliceComplete at h
  injection h with h
  rw [← h]
  try dsimp only
  repeat' first | with_reducible exact Kept.refl _ | with_reducible assumption | with_reducible apply sliceEnd_kept | with_reducible apply judgeSlice_kept | with_reducible apply report_kept | with_reducible apply Kept.ite | (with_reducible apply Kept.iteSnd <;> dsimp only) | with_reducible apply Kept.foldl | fail_if_no_progress refine Kept.upd ?_ rfl rfl rfl rfl rfl rfl rfl rfl rfl | (split <;> try dsimp only) | (intro _; intros; try dsimp only)

theorem execDecodeBudgetExpiry_kept (engine : Nat) (s : State) (t : State) (h : execDecodeBudgetExpiry engine s = .next t) : Kept s t := by
  unfold execDecodeBudgetExpiry at h
  injection h with h
  rw [← h]
  try dsimp only
  repeat' first | with_reducible exact Kept.refl _ | with_reducible assumption | with_reducible apply sliceEnd_kept | with_reducible apply abandon_kept | with_reducible apply passTo_kept | with_reducible apply Kept.ite | (with_reducible apply Kept.iteSnd <;> dsimp only) | with_reducible apply Kept.foldl | fail_if_no_progress refine Kept.upd ?_ rfl rfl rfl rfl rfl rfl rfl rfl rfl | (split <;> try dsimp only) | (intro _; intros; try dsimp only)

theorem execChunkDoorbell_kept (stream : Nat) (s : State) (t : State) (h : execChunkDoorbell stream s = .next t) : Kept s t := by
  unfold execChunkDoorbell at h
  injection h with h
  rw [← h]
  try dsimp only
  repeat' first | with_reducible exact Kept.refl _ | with_reducible assumption | with_reducible apply passTo_kept | with_reducible apply modDec_kept | with_reducible apply readMem_kept | with_reducible apply event_kept | with_reducible apply assignEngines_kept | with_reducible apply pump_kept | with_reducible apply commit_kept | with_reducible apply Kept.ite | (with_reducible apply Kept.iteSnd <;> dsimp only) | with_reducible apply Kept.foldl | fail_if_no_progress refine Kept.upd ?_ rfl rfl rfl rfl rfl rfl rfl rfl rfl | (split <;> try dsimp only) | (intro _; intros; try dsimp only)

theorem execDecStreamCommit_kept (stream : Nat) (value : Nat) (s : State) (t : State) (h : execDecStreamCommit stream value s = .next t) : Kept s t := by
  unfold execDecStreamCommit at h
  injection h with h
  rw [← h]
  try dsimp only
  repeat' first | with_reducible exact Kept.refl _ | with_reducible assumption | with_reducible apply commitAt_kept | with_reducible apply decDone_kept | with_reducible apply modDec_kept | with_reducible apply acceptStaged_kept | with_reducible apply readMem_kept | with_reducible apply record_kept | with_reducible apply Kept.ite | (with_reducible apply Kept.iteSnd <;> dsimp only) | with_reducible apply Kept.foldl | fail_if_no_progress refine Kept.upd ?_ rfl rfl rfl rfl rfl rfl rfl rfl rfl | (split <;> try dsimp only) | (intro _; intros; try dsimp only)

theorem execBondRegister_kept (ctx : Nat) (ring : Nat) (s : State) (t : State) (h : execBondRegister ctx ring s = .next t) : Kept s t := by
  unfold execBondRegister at h
  injection h with h
  rw [← h]
  try dsimp only
  repeat' first | with_reducible exact Kept.refl _ | with_reducible assumption | with_reducible apply fetchChecked_kept | with_reducible apply readImage_kept | with_reducible apply holdRing_kept | with_reducible apply keepDesc_kept | with_reducible apply Kept.ite | (with_reducible apply Kept.iteSnd <;> dsimp only) | with_reducible apply Kept.foldl | fail_if_no_progress refine Kept.upd ?_ rfl rfl rfl rfl rfl rfl rfl rfl rfl | (split <;> try dsimp only) | (intro _; intros; try dsimp only)

theorem execBondRegisterComplete_kept (ctx : Nat) (ring : Nat) (s : State) (t : State) (h : execBondRegisterComplete ctx ring s = .next t) : Kept s t := by
  unfold execBondRegisterComplete at h
  injection h with h
  rw [← h]
  try dsimp only
  repeat' first | with_reducible exact Kept.refl _ | with_reducible assumption | with_reducible apply holdRing_kept | with_reducible apply finishDesc_kept | with_reducible apply fillSlot_kept | with_reducible apply Kept.ite | (with_reducible apply Kept.iteSnd <;> dsimp only) | with_reducible apply Kept.foldl | fail_if_no_progress refine Kept.upd ?_ rfl rfl rfl rfl rfl rfl rfl rfl rfl | (split <;> try dsimp only) | (intro _; intros; try dsimp only)

theorem execBondRelease_kept (ctx : Nat) (ring : Nat) (s : State) (t : State) (h : execBondRelease ctx ring s = .next t) : Kept s t := by
  unfold execBondRelease at h
  injection h with h
  rw [← h]
  try dsimp only
  repeat' first | with_reducible exact Kept.refl _ | with_reducible assumption | with_reducible apply fetchChecked_kept | with_reducible apply finishDesc_kept | with_reducible apply holdRing_kept | with_reducible apply keepDesc_kept | with_reducible apply Kept.ite | (with_reducible apply Kept.iteSnd <;> dsimp only) | with_reducible apply Kept.foldl | fail_if_no_progress refine Kept.upd ?_ rfl rfl rfl rfl rfl rfl rfl rfl rfl | (split <;> try dsimp only) | (intro _; intros; try dsimp only)

theorem execBondReleaseComplete_kept (ctx : Nat) (ring : Nat) (s : State) (t : State) (h : execBondReleaseComplete ctx ring s = .next t) : Kept s t := by
  unfold execBondReleaseComplete at h
  injection h with h
  rw [← h]
  try dsimp only
  repeat' first | with_reducible exact Kept.refl _ | with_reducible assumption | with_reducible apply finishDesc_kept | with_reducible apply holdRing_kept | with_reducible apply commit_kept | with_reducible apply Kept.ite | (with_reducible apply Kept.iteSnd <;> dsimp only) | with_reducible apply Kept.foldl | fail_if_no_progress refine Kept.upd ?_ rfl rfl rfl rfl rfl rfl rfl rfl rfl | (split <;> try dsimp only) | (intro _; intros; try dsimp only)

theorem execContextOpen_kept (ctx : Nat) (value : Nat) (s : State) (t : State) (h : execContextOpen ctx value s = .next t) : Kept s t := by
  unfold execContextOpen at h
  injection h with h
  rw [← h]
  try dsimp only
  repeat' first | with_reducible exact Kept.refl _ | with_reducible assumption | with_reducible apply commit_kept | with_reducible apply openContext_kept | with_reducible apply Kept.ite | (with_reducible apply Kept.iteSnd <;> dsimp only) | with_reducible apply Kept.foldl | fail_if_no_progress refine Kept.upd ?_ rfl rfl rfl rfl rfl rfl rfl rfl rfl | (split <;> try dsimp only) | (intro _; intros; try dsimp only)

theorem execContextClose_kept (ctx : Nat) (value : Nat) (s : State) (t : State) (h : execContextClose ctx value s = .next t) : Kept s t := by
  unfold execContextClose at h
  injection h with h
  rw [← h]
  try dsimp only
  repeat' first | with_reducible exact Kept.refl _ | with_reducible assumption | with_reducible apply commit_kept | with_reducible apply closeContext_kept | with_reducible apply Kept.ite | (with_reducible apply Kept.iteSnd <;> dsimp only) | with_reducible apply Kept.foldl | fail_if_no_progress refine Kept.upd ?_ rfl rfl rfl rfl rfl rfl rfl rfl rfl | (split <;> try dsimp only) | (intro _; intros; try dsimp only)

theorem execRcCounterRead_kept (port : Nat) (addr : Nat) (width : Nat) (s : State) (t : State) (h : execRcCounterRead port addr width s = .next t) : Kept s t := by
  unfold execRcCounterRead at h
  injection h with h
  rw [← h]
  try dsimp only
  repeat' first | with_reducible exact Kept.refl _ | with_reducible assumption | with_reducible apply setupRead_kept | with_reducible apply Kept.ite | (with_reducible apply Kept.iteSnd <;> dsimp only) | with_reducible apply Kept.foldl | fail_if_no_progress refine Kept.upd ?_ rfl rfl rfl rfl rfl rfl rfl rfl rfl | (split <;> try dsimp only) | (intro _; intros; try dsimp only)

theorem execRegisterWrite_kept (port : Nat) (addr : Nat) (width : Nat) (value : Nat) (s : State) (t : State) (h : execRegisterWrite port addr width value s = .next t) : Kept s t := by
  unfold execRegisterWrite at h
  injection h with h
  rw [← h]
  try dsimp only
  repeat' first | with_reducible exact Kept.refl _ | with_reducible assumption | with_reducible apply setupWrite_kept | with_reducible apply Kept.ite | (with_reducible apply Kept.iteSnd <;> dsimp only) | with_reducible apply Kept.foldl | fail_if_no_progress refine Kept.upd ?_ rfl rfl rfl rfl rfl rfl rfl rfl rfl | (split <;> try dsimp only) | (intro _; intros; try dsimp only)

theorem execTrwCommit_kept (course : Nat) (value : Nat) (s : State) (t : State) (h : execTrwCommit course value s = .next t) : Kept s t := by
  unfold execTrwCommit at h
  injection h with h
  rw [← h]
  try dsimp only
  repeat' first | with_reducible exact Kept.refl _ | with_reducible assumption | with_reducible apply ifReached_kept | with_reducible apply commit_kept | with_reducible apply acceptStaged_kept | with_reducible apply modCourse_kept | with_reducible apply Kept.ite | (with_reducible apply Kept.iteSnd <;> dsimp only) | with_reducible apply Kept.foldl | fail_if_no_progress refine Kept.upd ?_ rfl rfl rfl rfl rfl rfl rfl rfl rfl | (split <;> try dsimp only) | (intro _; intros; try dsimp only)

theorem execCopy_kept (brick : Nat) (upset : Upset) (s : State) (t : State) (h : execCopy brick upset s = .next t) : Kept s t := by
  unfold execCopy at h
  injection h with h
  rw [← h]
  try dsimp only
  repeat' first | with_reducible exact Kept.refl _ | with_reducible assumption | with_reducible apply withUpset_kept | with_reducible apply movePaged_kept | with_reducible apply Kept.ite | (with_reducible apply Kept.iteSnd <;> dsimp only) | with_reducible apply Kept.foldl | fail_if_no_progress refine Kept.upd ?_ rfl rfl rfl rfl rfl rfl rfl rfl rfl | (split <;> try dsimp only) | (intro _; intros; try dsimp only)

theorem execCopyg_kept (brick : Nat) (upset : Upset) (s : State) (t : State) (h : execCopyg brick upset s = .next t) : Kept s t := by
  unfold execCopyg at h
  injection h with h
  rw [← h]
  try dsimp only
  repeat' first | with_reducible exact Kept.refl _ | with_reducible assumption | with_reducible apply withUpset_kept | with_reducible apply movePaged_kept | with_reducible apply Kept.ite | (with_reducible apply Kept.iteSnd <;> dsimp only) | with_reducible apply Kept.foldl | fail_if_no_progress refine Kept.upd ?_ rfl rfl rfl rfl rfl rfl rfl rfl rfl | (split <;> try dsimp only) | (intro _; intros; try dsimp only)

theorem execGroutchk_kept (brick : Nat) (s : State) (t : State) (h : execGroutchk brick s = .next t) : Kept s t := by
  unfold execGroutchk at h
  injection h with h
  rw [← h]
  try dsimp only
  repeat' first | with_reducible exact Kept.refl _ | with_reducible assumption | with_reducible apply goOn_kept | with_reducible apply setRole_kept | with_reducible apply Kept.ite | (with_reducible apply Kept.iteSnd <;> dsimp only) | with_reducible apply Kept.foldl | fail_if_no_progress refine Kept.upd ?_ rfl rfl rfl rfl rfl rfl rfl rfl rfl | (split <;> try dsimp only) | (intro _; intros; try dsimp only)

theorem execSieveJobAccept_kept (s : State) (t : State) (h : execSieveJobAccept s = .next t) : Kept s t := by
  unfold execSieveJobAccept at h
  injection h with h
  rw [← h]
  try dsimp only
  repeat' first | with_reducible exact Kept.refl _ | with_reducible assumption | with_reducible apply holdRing_kept | with_reducible apply ioRead_kept | with_reducible apply stopJob_kept | with_reducible apply refuseJob_kept | with_reducible apply acceptJob_kept | with_reducible apply Kept.ite | (with_reducible apply Kept.iteSnd <;> dsimp only) | with_reducible apply Kept.foldl | fail_if_no_progress refine Kept.upd ?_ rfl rfl rfl rfl rfl rfl rfl rfl rfl | (split <;> try dsimp only) | (intro _; intros; try dsimp only)

theorem execSieveJobStart_kept (s : State) (t : State) (h : execSieveJobStart s = .next t) : Kept s t := by
  unfold execSieveJobStart at h
  injection h with h
  rw [← h]
  try dsimp only
  repeat' first | with_reducible exact Kept.refl _ | with_reducible assumption | with_reducible apply stopJob_kept | with_reducible apply popJob_kept | with_reducible apply ioRead_kept | with_reducible apply teardown_kept | with_reducible apply refreshSieve_kept | with_reducible apply Kept.ite | (with_reducible apply Kept.iteSnd <;> dsimp only) | with_reducible apply Kept.foldl | fail_if_no_progress refine Kept.upd ?_ rfl rfl rfl rfl rfl rfl rfl rfl rfl | (split <;> try dsimp only) | (intro _; intros; try dsimp only)

theorem execSieveJobComplete_kept (s : State) (t : State) (h : execSieveJobComplete s = .next t) : Kept s t := by
  unfold execSieveJobComplete at h
  injection h with h
  rw [← h]
  try dsimp only
  repeat' first | with_reducible exact Kept.refl _ | with_reducible assumption | with_reducible apply writeJob_kept | with_reducible apply popJob_kept | with_reducible apply noteRun_kept | with_reducible apply stopJob_kept | with_reducible apply finishWork_kept | with_reducible apply incWrap_kept | with_reducible apply Kept.ite | (with_reducible apply Kept.iteSnd <;> dsimp only) | with_reducible apply Kept.foldl | fail_if_no_progress refine Kept.upd ?_ rfl rfl rfl rfl rfl rfl rfl rfl rfl | (split <;> try dsimp only) | (intro _; intros; try dsimp only)

theorem execSieveInternalFault_kept (s : State) (t : State) (h : execSieveInternalFault s = .next t) : Kept s t := by
  unfold execSieveInternalFault at h
  injection h with h
  rw [← h]
  try dsimp only
  repeat' first | with_reducible exact Kept.refl _ | with_reducible assumption | with_reducible apply stopJob_kept | with_reducible apply popJob_kept | with_reducible apply noteRun_kept | with_reducible apply event_kept | with_reducible apply wrB_kept | with_reducible apply Kept.ite | (with_reducible apply Kept.iteSnd <;> dsimp only) | with_reducible apply Kept.foldl | fail_if_no_progress refine Kept.upd ?_ rfl rfl rfl rfl rfl rfl rfl rfl rfl | (split <;> try dsimp only) | (intro _; intros; try dsimp only)

theorem execRailSample_kept (island : Nat) (rail : Nat) (mv : Nat) (s : State) (t : State) (h : execRailSample island rail mv s = .next t) : Kept s t := by
  unfold execRailSample at h
  injection h with h
  rw [← h]
  try dsimp only
  repeat' first | with_reducible exact Kept.refl _ | with_reducible assumption | with_reducible apply wr_kept | with_reducible apply modIsland_kept | with_reducible apply judge_kept | with_reducible apply Kept.ite | (with_reducible apply Kept.iteSnd <;> dsimp only) | with_reducible apply Kept.foldl | fail_if_no_progress refine Kept.upd ?_ rfl rfl rfl rfl rfl rfl rfl rfl rfl | (split <;> try dsimp only) | (intro _; intros; try dsimp only)

theorem execPllCheckWindow_kept (island : Nat) (pll : Nat) (errorPpm : Nat) (edges : Bool) (s : State) (t : State) (h : execPllCheckWindow island pll errorPpm edges s = .next t) : Kept s t := by
  unfold execPllCheckWindow at h
  injection h with h
  rw [← h]
  try dsimp only
  repeat' first | with_reducible exact Kept.refl _ | with_reducible assumption | with_reducible apply modIsland_kept | with_reducible apply commandState_kept | with_reducible apply judge_kept | with_reducible apply Kept.ite | (with_reducible apply Kept.iteSnd <;> dsimp only) | with_reducible apply Kept.foldl | fail_if_no_progress refine Kept.upd ?_ rfl rfl rfl rfl rfl rfl rfl rfl rfl | (split <;> try dsimp only) | (intro _; intros; try dsimp only)

theorem execJunctionRead_kept (die : Nat) (a : Int) (b : Int) (s : State) (t : State) (h : execJunctionRead die a b s = .next t) : Kept s t := by
  unfold execJunctionRead at h
  injection h with h
  rw [← h]
  try dsimp only
  repeat' first | with_reducible exact Kept.refl _ | with_reducible assumption | with_reducible apply refreshCeiling_kept | with_reducible apply junctionAt_kept | with_reducible apply Kept.ite | (with_reducible apply Kept.iteSnd <;> dsimp only) | with_reducible apply Kept.foldl | fail_if_no_progress refine Kept.upd ?_ rfl rfl rfl rfl rfl rfl rfl rfl rfl | (split <;> try dsimp only) | (intro _; intros; try dsimp only)

theorem execHeartbeatTimeout_kept (island : Nat) (source : Nat) (s : State) (t : State) (h : execHeartbeatTimeout island source s = .next t) : Kept s t := by
  unfold execHeartbeatTimeout at h
  injection h with h
  rw [← h]
  try dsimp only
  repeat' first | with_reducible exact Kept.refl _ | with_reducible assumption | with_reducible apply passOscTo_kept | with_reducible apply wrB_kept | with_reducible apply commandState_kept | with_reducible apply Kept.ite | (with_reducible apply Kept.iteSnd <;> dsimp only) | with_reducible apply Kept.foldl | fail_if_no_progress refine Kept.upd ?_ rfl rfl rfl rfl rfl rfl rfl rfl rfl | (split <;> try dsimp only) | (intro _; intros; try dsimp only)

theorem execIslandHeartbeat_kept (island : Nat) (s : State) (t : State) (h : execIslandHeartbeat island s = .next t) : Kept s t := by
  unfold execIslandHeartbeat at h
  injection h with h
  rw [← h]
  try dsimp only
  repeat' first | with_reducible exact Kept.refl _ | with_reducible assumption | with_reducible apply send_kept | with_reducible apply wrB_kept | with_reducible apply heardAt_kept | with_reducible apply Kept.ite | (with_reducible apply Kept.iteSnd <;> dsimp only) | with_reducible apply Kept.foldl | fail_if_no_progress refine Kept.upd ?_ rfl rfl rfl rfl rfl rfl rfl rfl rfl | (split <;> try dsimp only) | (intro _; intros; try dsimp only)

theorem execHearthHeartbeat_kept (s : State) (t : State) (h : execHearthHeartbeat s = .next t) : Kept s t := by
  unfold execHearthHeartbeat at h
  injection h with h
  rw [← h]
  try dsimp only
  repeat' first | with_reducible exact Kept.refl _ | with_reducible assumption | with_reducible apply hearthBeatAt_kept | with_reducible apply send_kept | with_reducible apply Kept.ite | (with_reducible apply Kept.iteSnd <;> dsimp only) | with_reducible apply Kept.foldl | fail_if_no_progress refine Kept.upd ?_ rfl rfl rfl rfl rfl rfl rfl rfl rfl | (split <;> try dsimp only) | (intro _; intros; try dsimp only)

theorem execIslandLinkLost_kept (island : Nat) (die : Nat) (crc : Bool) (s : State) (t : State) (h : execIslandLinkLost island die crc s = .next t) : Kept s t := by
  unfold execIslandLinkLost at h
  injection h with h
  rw [← h]
  try dsimp only
  repeat' first | with_reducible exact Kept.refl _ | with_reducible assumption | with_reducible apply modIsland_kept | with_reducible apply passOscTo_kept | with_reducible apply commandState_kept | with_reducible apply wrB_kept | with_reducible apply Kept.ite | (with_reducible apply Kept.iteSnd <;> dsimp only) | with_reducible apply Kept.foldl | fail_if_no_progress refine Kept.upd ?_ rfl rfl rfl rfl rfl rfl rfl rfl rfl | (split <;> try dsimp only) | (intro _; intros; try dsimp only)

theorem execForwardedEvent_kept (island : Nat) (s : State) (t : State) (h : execForwardedEvent island s = .next t) : Kept s t := by
  unfold execForwardedEvent at h
  injection h with h
  rw [← h]
  try dsimp only
  repeat' first | with_reducible exact Kept.refl _ | with_reducible assumption | with_reducible apply onForward_kept | with_reducible apply Kept.ite | (with_reducible apply Kept.iteSnd <;> dsimp only) | with_reducible apply Kept.foldl | fail_if_no_progress refine Kept.upd ?_ rfl rfl rfl rfl rfl rfl rfl rfl rfl | (split <;> try dsimp only) | (intro _; intros; try dsimp only)

theorem execSafeStateMessage_kept (island : Nat) (s : State) (t : State) (h : execSafeStateMessage island s = .next t) : Kept s t := by
  unfold execSafeStateMessage at h
  injection h with h
  rw [← h]
  try dsimp only
  repeat' first | with_reducible exact Kept.refl _ | with_reducible assumption | with_reducible apply modIsland_kept | with_reducible apply commandState_kept | with_reducible apply Kept.ite | (with_reducible apply Kept.iteSnd <;> dsimp only) | with_reducible apply Kept.foldl | fail_if_no_progress refine Kept.upd ?_ rfl rfl rfl rfl rfl rfl rfl rfl rfl | (split <;> try dsimp only) | (intro _; intros; try dsimp only)

theorem execSilentCommand_kept (die : Nat) (s : State) (t : State) (h : execSilentCommand die s = .next t) : Kept s t := by
  unfold execSilentCommand at h
  injection h with h
  rw [← h]
  try dsimp only
  repeat' first | with_reducible exact Kept.refl _ | with_reducible assumption | with_reducible apply markSilent_kept | with_reducible apply silenceHearth_kept | with_reducible apply silenceTrowels_kept | with_reducible apply mailbox_kept | with_reducible apply Kept.ite | (with_reducible apply Kept.iteSnd <;> dsimp only) | with_reducible apply Kept.foldl | fail_if_no_progress refine Kept.upd ?_ rfl rfl rfl rfl rfl rfl rfl rfl rfl | (split <;> try dsimp only) | (intro _; intros; try dsimp only)

theorem execIslandSelfReset_kept (island : Nat) (why : Nat) (s : State) (t : State) (h : execIslandSelfReset island why s = .next t) : Kept s t := by
  unfold execIslandSelfReset at h
  injection h with h
  rw [← h]
  try dsimp only
  repeat' first | with_reducible exact Kept.refl _ | with_reducible assumption | with_reducible apply modIsland_kept | with_reducible apply islandDown_kept | with_reducible apply Kept.ite | (with_reducible apply Kept.iteSnd <;> dsimp only) | with_reducible apply Kept.foldl | fail_if_no_progress refine Kept.upd ?_ rfl rfl rfl rfl rfl rfl rfl rfl rfl | (split <;> try dsimp only) | (intro _; intros; try dsimp only)

theorem execIslandRestartComplete_kept (island : Nat) (verified : Bool) (s : State) (t : State) (h : execIslandRestartComplete island verified s = .next t) : Kept s t := by
  unfold execIslandRestartComplete at h
  injection h with h
  rw [← h]
  try dsimp only
  repeat' first | with_reducible exact Kept.refl _ | with_reducible assumption | with_reducible apply event_kept | with_reducible apply incSat_kept | with_reducible apply islandStart_kept | with_reducible apply Kept.ite | (with_reducible apply Kept.iteSnd <;> dsimp only) | with_reducible apply Kept.foldl | fail_if_no_progress refine Kept.upd ?_ rfl rfl rfl rfl rfl rfl rfl rfl rfl | (split <;> try dsimp only) | (intro _; intros; try dsimp only)

theorem execSsOutputPhase_kept (island : Nat) (s : State) (t : State) (h : execSsOutputPhase island s = .next t) : Kept s t := by
  unfold execSsOutputPhase at h
  injection h with h
  rw [← h]
  try dsimp only
  repeat' first | with_reducible exact Kept.refl _ | with_reducible assumption | with_reducible apply passOscTo_kept | with_reducible apply modIsland_kept | with_reducible apply Kept.ite | (with_reducible apply Kept.iteSnd <;> dsimp only) | with_reducible apply Kept.foldl | fail_if_no_progress refine Kept.upd ?_ rfl rfl rfl rfl rfl rfl rfl rfl rfl | (split <;> try dsimp only) | (intro _; intros; try dsimp only)

theorem execMailboxDegraded_kept (port : Nat) (island : Nat) (s : State) (t : State) (h : execMailboxDegraded port island s = .next t) : Kept s t := by
  unfold execMailboxDegraded at h
  injection h with h
  rw [← h]
  try dsimp only
  repeat' first | with_reducible exact Kept.refl _ | with_reducible assumption | with_reducible apply mailbox_kept | with_reducible apply Kept.ite | (with_reducible apply Kept.iteSnd <;> dsimp only) | with_reducible apply Kept.foldl | fail_if_no_progress refine Kept.upd ?_ rfl rfl rfl rfl rfl rfl rfl rfl rfl | (split <;> try dsimp only) | (intro _; intros; try dsimp only)

theorem execMailboxSilent_kept (port : Nat) (island : Nat) (s : State) (t : State) (h : execMailboxSilent port island s = .next t) : Kept s t := by
  unfold execMailboxSilent at h
  injection h with h
  rw [← h]
  try dsimp only
  repeat' first | with_reducible exact Kept.refl _ | with_reducible assumption | with_reducible apply mailbox_kept | with_reducible apply Kept.ite | (with_reducible apply Kept.iteSnd <;> dsimp only) | with_reducible apply Kept.foldl | fail_if_no_progress refine Kept.upd ?_ rfl rfl rfl rfl rfl rfl rfl rfl rfl | (split <;> try dsimp only) | (intro _; intros; try dsimp only)

theorem execCourseRetain_kept (course : Nat) (s : State) (t : State) (h : execCourseRetain course s = .next t) : Kept s t := by
  unfold execCourseRetain at h
  injection h with h
  rw [← h]
  try dsimp only
  repeat' first | with_reducible exact Kept.refl _ | with_reducible assumption | with_reducible apply sleepCourse_kept | with_reducible apply Kept.ite | (with_reducible apply Kept.iteSnd <;> dsimp only) | with_reducible apply Kept.foldl | fail_if_no_progress refine Kept.upd ?_ rfl rfl rfl rfl rfl rfl rfl rfl rfl | (split <;> try dsimp only) | (intro _; intros; try dsimp only)

theorem execCourseOff_kept (course : Nat) (s : State) (t : State) (h : execCourseOff course s = .next t) : Kept s t := by
  unfold execCourseOff at h
  injection h with h
  rw [← h]
  try dsimp only
  repeat' first | with_reducible exact Kept.refl _ | with_reducible assumption | with_reducible apply setDomain_kept | with_reducible apply sleepCourse_kept | with_reducible apply Kept.ite | (with_reducible apply Kept.iteSnd <;> dsimp only) | with_reducible apply Kept.foldl | fail_if_no_progress refine Kept.upd ?_ rfl rfl rfl rfl rfl rfl rfl rfl rfl | (split <;> try dsimp only) | (intro _; intros; try dsimp only)

theorem execCourseWake_kept (course : Nat) (s : State) (t : State) (h : execCourseWake course s = .next t) : Kept s t := by
  unfold execCourseWake at h
  injection h with h
  rw [← h]
  try dsimp only
  repeat' first | with_reducible exact Kept.refl _ | with_reducible assumption | with_reducible apply wakeCourse_kept | with_reducible apply Kept.ite | (with_reducible apply Kept.iteSnd <;> dsimp only) | with_reducible apply Kept.foldl | fail_if_no_progress refine Kept.upd ?_ rfl rfl rfl rfl rfl rfl rfl rfl rfl | (split <;> try dsimp only) | (intro _; intros; try dsimp only)

theorem execPowerAgentSample_kept (die : Nat) (amps : Nat) (core : Nat) (hbm : Nat) (s0 : State) (t : State) (h : execPowerAgentSample die amps core hbm s0 = .next t) : Kept s0 t := by
  unfold execPowerAgentSample at h
  injection h with h
  rw [← h]
  try dsimp only
  repeat' first | with_reducible exact Kept.refl _ | with_reducible assumption | with_reducible apply passTo_kept | with_reducible apply withDraw_kept | with_reducible apply windowSample_kept | with_reducible apply modAgent_kept | with_reducible apply Kept.ite | (with_reducible apply Kept.iteSnd <;> dsimp only) | with_reducible apply Kept.foldl | fail_if_no_progress refine Kept.upd ?_ rfl rfl rfl rfl rfl rfl rfl rfl rfl | (split <;> try dsimp only) | (intro _; intros; try dsimp only)

theorem execForecastPost_kept (seq : Nat) (s : State) (t : State) (h : execForecastPost seq s = .next t) : Kept s t := by
  unfold execForecastPost at h
  injection h with h
  rw [← h]
  try dsimp only
  repeat' first | with_reducible exact Kept.refl _ | with_reducible assumption | with_reducible apply readMem_kept | with_reducible apply wr_kept | with_reducible apply Kept.ite | (with_reducible apply Kept.iteSnd <;> dsimp only) | with_reducible apply Kept.foldl | fail_if_no_progress refine Kept.upd ?_ rfl rfl rfl rfl rfl rfl rfl rfl rfl | (split <;> try dsimp only) | (intro _; intros; try dsimp only)

theorem execForecastStale_kept (s : State) (t : State) (h : execForecastStale s = .next t) : Kept s t := by
  unfold execForecastStale at h
  injection h with h
  rw [← h]
  try dsimp only
  repeat' first | with_reducible exact Kept.refl _ | with_reducible assumption | with_reducible apply passTo_kept | with_reducible apply event_kept | with_reducible apply Kept.ite | (with_reducible apply Kept.iteSnd <;> dsimp only) | with_reducible apply Kept.foldl | fail_if_no_progress refine Kept.upd ?_ rfl rfl rfl rfl rfl rfl rfl rfl rfl | (split <;> try dsimp only) | (intro _; intros; try dsimp only)

theorem execThermistorSample_kept (tinA : Nat) (tinB : Nat) (toutA : Nat) (toutB : Nat) (s : State) (t : State) (h : execThermistorSample tinA tinB toutA toutB s = .next t) : Kept s t := by
  unfold execThermistorSample at h
  injection h with h
  rw [← h]
  try dsimp only
  repeat' first | with_reducible exact Kept.refl _ | with_reducible assumption | with_reducible apply passTo_kept | with_reducible apply formPoint_kept | with_reducible apply modCool_kept | with_reducible apply checkInlet_kept | with_reducible apply wr_kept | with_reducible apply Kept.ite | (with_reducible apply Kept.iteSnd <;> dsimp only) | with_reducible apply Kept.foldl | fail_if_no_progress refine Kept.upd ?_ rfl rfl rfl rfl rfl rfl rfl rfl rfl | (split <;> try dsimp only) | (intro _; intros; try dsimp only)

theorem execFlowPulse_kept (input : Nat) (samples : Nat) (s : State) (t : State) (h : execFlowPulse input samples s = .next t) : Kept s t := by
  unfold execFlowPulse at h
  injection h with h
  rw [← h]
  try dsimp only
  repeat' first | with_reducible exact Kept.refl _ | with_reducible assumption | with_reducible apply modCool_kept | with_reducible apply latchFlow_kept | with_reducible apply Kept.ite | (with_reducible apply Kept.iteSnd <;> dsimp only) | with_reducible apply Kept.foldl | fail_if_no_progress refine Kept.upd ?_ rfl rfl rfl rfl rfl rfl rfl rfl rfl | (split <;> try dsimp only) | (intro _; intros; try dsimp only)

theorem execFlowMeasure_kept (s : State) (t : State) (h : execFlowMeasure s = .next t) : Kept s t := by
  unfold execFlowMeasure at h
  injection h with h
  rw [← h]
  try dsimp only
  repeat' first | with_reducible exact Kept.refl _ | with_reducible assumption | with_reducible apply passTo_kept | with_reducible apply event_kept | with_reducible apply modCool_kept | with_reducible apply wrB_kept | with_reducible apply wr_kept | with_reducible apply judgeFlow_kept | with_reducible apply calSample_kept | with_reducible apply limpProfile_kept | with_reducible apply Kept.ite | (with_reducible apply Kept.iteSnd <;> dsimp only) | with_reducible apply Kept.foldl | fail_if_no_progress refine Kept.upd ?_ rfl rfl rfl rfl rfl rfl rfl rfl rfl | (split <;> try dsimp only) | (intro _; intros; try dsimp only)

theorem execCalorimetricCheck_kept (hearth : Nat) (s : State) (t : State) (h : execCalorimetricCheck hearth s = .next t) : Kept s t := by
  unfold execCalorimetricCheck at h
  injection h with h
  rw [← h]
  try dsimp only
  repeat' first | with_reducible exact Kept.refl _ | with_reducible assumption | with_reducible apply passTo_kept | with_reducible apply modCool_kept | with_reducible apply wr_kept | with_reducible apply event_kept | with_reducible apply wrB_kept | with_reducible apply pump_kept | with_reducible apply Kept.ite | (with_reducible apply Kept.iteSnd <;> dsimp only) | with_reducible apply Kept.foldl | fail_if_no_progress refine Kept.upd ?_ rfl rfl rfl rfl rfl rfl rfl rfl rfl | (split <;> try dsimp only) | (intro _; intros; try dsimp only)

theorem execCoolReqUpdate_kept (s : State) (t : State) (h : execCoolReqUpdate s = .next t) : Kept s t := by
  unfold execCoolReqUpdate at h
  injection h with h
  rw [← h]
  try dsimp only
  repeat' first | with_reducible exact Kept.refl _ | with_reducible assumption | with_reducible apply passTo_kept | with_reducible apply wr_kept | with_reducible apply modCool_kept | with_reducible apply Kept.ite | (with_reducible apply Kept.iteSnd <;> dsimp only) | with_reducible apply Kept.foldl | fail_if_no_progress refine Kept.upd ?_ rfl rfl rfl rfl rfl rfl rfl rfl rfl | (split <;> try dsimp only) | (intro _; intros; try dsimp only)

theorem execPwrCommit_kept (value : Nat) (s : State) (t : State) (h : execPwrCommit value s = .next t) : Kept s t := by
  unfold execPwrCommit at h
  injection h with h
  rw [← h]
  try dsimp only
  repeat' first | with_reducible exact Kept.refl _ | with_reducible assumption | with_reducible apply commit_kept | with_reducible apply acceptStaged_kept | with_reducible apply Kept.ite | (with_reducible apply Kept.iteSnd <;> dsimp only) | with_reducible apply Kept.foldl | fail_if_no_progress refine Kept.upd ?_ rfl rfl rfl rfl rfl rfl rfl rfl rfl | (split <;> try dsimp only) | (intro _; intros; try dsimp only)

end Sys2Proof.Machine
end

