-- ==== Sys2Proof/Laws/KeptExec3.lean ====
section
/-! SUPPORT. What each command keeps (`Kept`), where it answers a next state: part 3. -/

set_option linter.all false

namespace Sys2Proof.Machine

open Reg

theorem execDialSyncMessage_kept (reference : Nat) (s : State) (t : State) (h : execDialSyncMessage reference s = .next t) : Kept s t := by
  unfold execDialSyncMessage at h
  injection h with h
  rw [← h]
  try dsimp only
  repeat' first | with_reducible exact Kept.refl _ | with_reducible assumption | with_reducible apply dialSync_kept | with_reducible apply Kept.ite | (with_reducible apply Kept.iteSnd <;> dsimp only) | with_reducible apply Kept.foldl | fail_if_no_progress refine Kept.upd ?_ rfl rfl rfl rfl rfl rfl rfl rfl rfl | (split <;> try dsimp only) | (intro _; intros; try dsimp only)

theorem execDialHoldover_kept (s : State) (t : State) (h : execDialHoldover s = .next t) : Kept s t := by
  unfold execDialHoldover at h
  injection h with h
  rw [← h]
  try dsimp only
  repeat' first | with_reducible exact Kept.refl _ | with_reducible assumption | with_reducible apply setSync_kept | with_reducible apply passTo_kept | with_reducible apply Kept.ite | (with_reducible apply Kept.iteSnd <;> dsimp only) | with_reducible apply Kept.foldl | fail_if_no_progress refine Kept.upd ?_ rfl rfl rfl rfl rfl rfl rfl rfl rfl | (split <;> try dsimp only) | (intro _; intros; try dsimp only)

theorem execNightwatchTick_kept (s : State) (t : State) (h : execNightwatchTick s = .next t) : Kept s t := by
  unfold execNightwatchTick at h
  injection h with h
  rw [← h]
  try dsimp only
  repeat' first | with_reducible exact Kept.refl _ | with_reducible assumption | with_reducible apply passTicks_kept | with_reducible apply Kept.ite | (with_reducible apply Kept.iteSnd <;> dsimp only) | with_reducible apply Kept.foldl | fail_if_no_progress refine Kept.upd ?_ rfl rfl rfl rfl rfl rfl rfl rfl rfl | (split <;> try dsimp only) | (intro _; intros; try dsimp only)

theorem execDialNowRead_kept (port : Nat) (wide : Bool) (high : Bool) (s : State) (t : State) (h : execDialNowRead port wide high s = .next t) : Kept s t := by
  unfold execDialNowRead at h
  injection h with h
  rw [← h]
  try dsimp only
  repeat' first | with_reducible exact Kept.refl _ | with_reducible assumption | with_reducible apply readWordBy_kept | with_reducible apply Kept.ite | (with_reducible apply Kept.iteSnd <;> dsimp only) | with_reducible apply Kept.foldl | fail_if_no_progress refine Kept.upd ?_ rfl rfl rfl rfl rfl rfl rfl rfl rfl | (split <;> try dsimp only) | (intro _; intros; try dsimp only)

theorem execNwtCommit_kept (value : Nat) (s : State) (t : State) (h : execNwtCommit value s = .next t) : Kept s t := by
  unfold execNwtCommit at h
  injection h with h
  rw [← h]
  try dsimp only
  repeat' first | with_reducible exact Kept.refl _ | with_reducible assumption | with_reducible apply commit_kept | with_reducible apply nwtApply_kept | with_reducible apply Kept.ite | (with_reducible apply Kept.iteSnd <;> dsimp only) | with_reducible apply Kept.foldl | fail_if_no_progress refine Kept.upd ?_ rfl rfl rfl rfl rfl rfl rfl rfl rfl | (split <;> try dsimp only) | (intro _; intros; try dsimp only)

theorem execPcieLinkUp_kept (s : State) (t : State) (h : execPcieLinkUp s = .next t) : Kept s t := by
  unfold execPcieLinkUp at h
  injection h with h
  rw [← h]
  try dsimp only
  repeat' first | with_reducible exact Kept.refl _ | with_reducible assumption | with_reducible apply sendPending_kept | with_reducible apply Kept.ite | (with_reducible apply Kept.iteSnd <;> dsimp only) | with_reducible apply Kept.foldl | fail_if_no_progress refine Kept.upd ?_ rfl rfl rfl rfl rfl rfl rfl rfl rfl | (split <;> try dsimp only) | (intro _; intros; try dsimp only)

theorem execPcieLinkDown_kept (s : State) (t : State) (h : execPcieLinkDown s = .next t) : Kept s t := by
  unfold execPcieLinkDown at h
  injection h with h
  rw [← h]
  try dsimp only
  repeat' first | with_reducible exact Kept.refl _ | with_reducible assumption | with_reducible apply pcieDown_kept | with_reducible apply Kept.ite | (with_reducible apply Kept.iteSnd <;> dsimp only) | with_reducible apply Kept.foldl | fail_if_no_progress refine Kept.upd ?_ rfl rfl rfl rfl rfl rfl rfl rfl rfl | (split <;> try dsimp only) | (intro _; intros; try dsimp only)

theorem execPerstAssert_kept (samples : Nat) (s : State) (t : State) (h : execPerstAssert samples s = .next t) : Kept s t := by
  unfold execPerstAssert at h
  injection h with h
  rw [← h]
  try dsimp only
  repeat' first | with_reducible exact Kept.refl _ | with_reducible assumption | with_reducible apply pcieDown_kept | with_reducible apply Kept.ite | (with_reducible apply Kept.iteSnd <;> dsimp only) | with_reducible apply Kept.foldl | fail_if_no_progress refine Kept.upd ?_ rfl rfl rfl rfl rfl rfl rfl rfl rfl | (split <;> try dsimp only) | (intro _; intros; try dsimp only)

theorem execPerstDeassert_kept (samples : Nat) (s : State) (t : State) (h : execPerstDeassert samples s = .next t) : Kept s t := by
  unfold execPerstDeassert at h
  injection h with h
  rw [← h]
  try dsimp only
  repeat' first | with_reducible exact Kept.refl _ | with_reducible assumption | with_reducible apply Kept.ite | (with_reducible apply Kept.iteSnd <;> dsimp only) | with_reducible apply Kept.foldl | fail_if_no_progress refine Kept.upd ?_ rfl rfl rfl rfl rfl rfl rfl rfl rfl | (split <;> try dsimp only) | (intro _; intros; try dsimp only)

theorem execPwrGoodRise_kept (straps : List Nat) (samples : Nat) (s : State) (t : State) (h : execPwrGoodRise straps samples s = .next t) : Kept s t := by
  unfold execPwrGoodRise at h
  injection h with h
  rw [← h]
  try dsimp only
  repeat' first | with_reducible exact Kept.refl _ | with_reducible assumption | with_reducible apply wrB_kept | with_reducible apply dawnStep1_kept | with_reducible apply beginDawn_kept | with_reducible apply Kept.ite | (with_reducible apply Kept.iteSnd <;> dsimp only) | with_reducible apply Kept.foldl | fail_if_no_progress refine Kept.upd ?_ rfl rfl rfl rfl rfl rfl rfl rfl rfl | (split <;> try dsimp only) | (intro _; intros; try dsimp only)

theorem execPwrGoodFall_kept (samples : Nat) (s : State) (t : State) (h : execPwrGoodFall samples s = .next t) : Kept s t := by
  unfold execPwrGoodFall at h
  injection h with h
  rw [← h]
  try dsimp only
  repeat' first | with_reducible exact Kept.refl _ | with_reducible assumption | with_reducible apply modNwt_kept | with_reducible apply wrB_kept | with_reducible apply keepIslandRegs_kept | with_reducible apply resetPackage_kept | with_reducible apply Kept.ite | (with_reducible apply Kept.iteSnd <;> dsimp only) | with_reducible apply Kept.foldl | fail_if_no_progress refine Kept.upd ?_ rfl rfl rfl rfl rfl rfl rfl rfl rfl | (split <;> try dsimp only) | (intro _; intros; try dsimp only)

theorem execNightwatchSupplyUp_kept (s : State) (t : State) (h : execNightwatchSupplyUp s = .next t) : Kept s t := by
  unfold execNightwatchSupplyUp at h
  injection h with h
  rw [← h]
  try dsimp only
  repeat' first | with_reducible exact Kept.refl _ | with_reducible assumption | with_reducible apply modNwt_kept | with_reducible apply Kept.ite | (with_reducible apply Kept.iteSnd <;> dsimp only) | with_reducible apply Kept.foldl | fail_if_no_progress refine Kept.upd ?_ rfl rfl rfl rfl rfl rfl rfl rfl rfl | (split <;> try dsimp only) | (intro _; intros; try dsimp only)

theorem execNightwatchSupplyLoss_kept (s : State) (t : State) (h : execNightwatchSupplyLoss s = .next t) : Kept s t := by
  unfold execNightwatchSupplyLoss at h
  injection h with h
  rw [← h]
  try dsimp only
  repeat' first | with_reducible exact Kept.refl _ | with_reducible assumption | with_reducible apply resetPackage_kept | with_reducible apply Kept.ite | (with_reducible apply Kept.iteSnd <;> dsimp only) | with_reducible apply Kept.foldl | fail_if_no_progress refine Kept.upd ?_ rfl rfl rfl rfl rfl rfl rfl rfl rfl | (split <;> try dsimp only) | (intro _; intros; try dsimp only)

theorem execThermalTrip_kept (s : State) (t : State) (h : execThermalTrip s = .next t) : Kept s t := by
  unfold execThermalTrip at h
  injection h with h
  rw [← h]
  try dsimp only
  repeat' first | with_reducible exact Kept.refl _ | with_reducible assumption | with_reducible apply wrB_kept | with_reducible apply resetPackage_kept | with_reducible apply keepIslandRegs_kept | with_reducible apply Kept.ite | (with_reducible apply Kept.iteSnd <;> dsimp only) | with_reducible apply Kept.foldl | fail_if_no_progress refine Kept.upd ?_ rfl rfl rfl rfl rfl rfl rfl rfl rfl | (split <;> try dsimp only) | (intro _; intros; try dsimp only)

theorem execThermalTripRelease_kept (s : State) (t : State) (h : execThermalTripRelease s = .next t) : Kept s t := by
  unfold execThermalTripRelease at h
  injection h with h
  rw [← h]
  try dsimp only
  repeat' first | with_reducible exact Kept.refl _ | with_reducible assumption | with_reducible apply wrB_kept | with_reducible apply passTo_kept | with_reducible apply Kept.ite | (with_reducible apply Kept.iteSnd <;> dsimp only) | with_reducible apply Kept.foldl | fail_if_no_progress refine Kept.upd ?_ rfl rfl rfl rfl rfl rfl rfl rfl rfl | (split <;> try dsimp only) | (intro _; intros; try dsimp only)

theorem execWarmRstFall_kept (samples : Nat) (s : State) (t : State) (h : execWarmRstFall samples s = .next t) : Kept s t := by
  unfold execWarmRstFall at h
  injection h with h
  rw [← h]
  try dsimp only
  repeat' first | with_reducible exact Kept.refl _ | with_reducible assumption | with_reducible apply modNwt_kept | with_reducible apply wrB_kept | with_reducible apply wakeUp_kept | with_reducible apply beginDawn_kept | with_reducible apply Kept.ite | (with_reducible apply Kept.iteSnd <;> dsimp only) | with_reducible apply Kept.foldl | fail_if_no_progress refine Kept.upd ?_ rfl rfl rfl rfl rfl rfl rfl rfl rfl | (split <;> try dsimp only) | (intro _; intros; try dsimp only)

theorem execWarmRstRise_kept (samples : Nat) (s : State) (t : State) (h : execWarmRstRise samples s = .next t) : Kept s t := by
  unfold execWarmRstRise at h
  injection h with h
  rw [← h]
  try dsimp only
  repeat' first | with_reducible exact Kept.refl _ | with_reducible assumption | with_reducible apply modNwt_kept | with_reducible apply wrB_kept | with_reducible apply dawnStep1_kept | with_reducible apply Kept.ite | (with_reducible apply Kept.iteSnd <;> dsimp only) | with_reducible apply Kept.foldl | fail_if_no_progress refine Kept.upd ?_ rfl rfl rfl rfl rfl rfl rfl rfl rfl | (split <;> try dsimp only) | (intro _; intros; try dsimp only)

theorem execWakeNFall_kept (samples : Nat) (s : State) (t : State) (h : execWakeNFall samples s = .next t) : Kept s t := by
  unfold execWakeNFall at h
  injection h with h
  rw [← h]
  try dsimp only
  repeat' first | with_reducible exact Kept.refl _ | with_reducible assumption | with_reducible apply modNwt_kept | with_reducible apply wrB_kept | with_reducible apply wakeUp_kept | with_reducible apply Kept.ite | (with_reducible apply Kept.iteSnd <;> dsimp only) | with_reducible apply Kept.foldl | fail_if_no_progress refine Kept.upd ?_ rfl rfl rfl rfl rfl rfl rfl rfl rfl | (split <;> try dsimp only) | (intro _; intros; try dsimp only)

theorem execDialAlarm_kept (s : State) (t : State) (h : execDialAlarm s = .next t) : Kept s t := by
  unfold execDialAlarm at h
  injection h with h
  rw [← h]
  try dsimp only
  repeat' first | with_reducible exact Kept.refl _ | with_reducible assumption | with_reducible apply wakeUp_kept | with_reducible apply passTo_kept | with_reducible apply Kept.ite | (with_reducible apply Kept.iteSnd <;> dsimp only) | with_reducible apply Kept.foldl | fail_if_no_progress refine Kept.upd ?_ rfl rfl rfl rfl rfl rfl rfl rfl rfl | (split <;> try dsimp only) | (intro _; intros; try dsimp only)

theorem execInputStuck_kept (input : Nat) (s : State) (t : State) (h : execInputStuck input s = .next t) : Kept s t := by
  unfold execInputStuck at h
  injection h with h
  rw [← h]
  try dsimp only
  repeat' first | with_reducible exact Kept.refl _ | with_reducible assumption | with_reducible apply passTo_kept | with_reducible apply modNwt_kept | with_reducible apply wrB_kept | with_reducible apply dawnStep1_kept | with_reducible apply latchFlow_kept | with_reducible apply Kept.ite | (with_reducible apply Kept.iteSnd <;> dsimp only) | with_reducible apply Kept.foldl | fail_if_no_progress refine Kept.upd ?_ rfl rfl rfl rfl rfl rfl rfl rfl rfl | (split <;> try dsimp only) | (intro _; intros; try dsimp only)

theorem execNwtInputCommit_kept (value : Nat) (s : State) (t : State) (h : execNwtInputCommit value s = .next t) : Kept s t := by
  unfold execNwtInputCommit at h
  injection h with h
  rw [← h]
  try dsimp only
  repeat' first | with_reducible exact Kept.refl _ | with_reducible assumption | with_reducible apply commit_kept | with_reducible apply acceptStaged_kept | with_reducible apply Kept.ite | (with_reducible apply Kept.iteSnd <;> dsimp only) | with_reducible apply Kept.foldl | fail_if_no_progress refine Kept.upd ?_ rfl rfl rfl rfl rfl rfl rfl rfl rfl | (split <;> try dsimp only) | (intro _; intros; try dsimp only)

theorem execResetWarm_kept (value : Nat) (s : State) (t : State) (h : execResetWarm value s = .next t) : Kept s t := by
  unfold execResetWarm at h
  injection h with h
  rw [← h]
  try dsimp only
  repeat' first | with_reducible exact Kept.refl _ | with_reducible assumption | with_reducible apply resetRequest_kept | with_reducible apply dawnStep1_kept | with_reducible apply beginDawn_kept | with_reducible apply Kept.ite | (with_reducible apply Kept.iteSnd <;> dsimp only) | with_reducible apply Kept.foldl | fail_if_no_progress refine Kept.upd ?_ rfl rfl rfl rfl rfl rfl rfl rfl rfl | (split <;> try dsimp only) | (intro _; intros; try dsimp only)

theorem execResetCold_kept (value : Nat) (straps : List Nat) (s : State) (t : State) (h : execResetCold value straps s = .next t) : Kept s t := by
  unfold execResetCold at h
  injection h with h
  rw [← h]
  try dsimp only
  repeat' first | with_reducible exact Kept.refl _ | with_reducible assumption | with_reducible apply resetRequest_kept | with_reducible apply dawnStep1_kept | with_reducible apply beginDawn_kept | with_reducible apply Kept.ite | (with_reducible apply Kept.iteSnd <;> dsimp only) | with_reducible apply Kept.foldl | fail_if_no_progress refine Kept.upd ?_ rfl rfl rfl rfl rfl rfl rfl rfl rfl | (split <;> try dsimp only) | (intro _; intros; try dsimp only)

theorem execIslandResetAssert_kept (island : Nat) (s : State) (t : State) (h : execIslandResetAssert island s = .next t) : Kept s t := by
  unfold execIslandResetAssert at h
  injection h with h
  rw [← h]
  try dsimp only
  repeat' first | with_reducible exact Kept.refl _ | with_reducible assumption | with_reducible apply modIsland_kept | with_reducible apply islandDown_kept | with_reducible apply Kept.ite | (with_reducible apply Kept.iteSnd <;> dsimp only) | with_reducible apply Kept.foldl | fail_if_no_progress refine Kept.upd ?_ rfl rfl rfl rfl rfl rfl rfl rfl rfl | (split <;> try dsimp only) | (intro _; intros; try dsimp only)

theorem execIslandResetRelease_kept (island : Nat) (verified : Bool) (s : State) (t : State) (h : execIslandResetRelease island verified s = .next t) : Kept s t := by
  unfold execIslandResetRelease at h
  injection h with h
  rw [← h]
  try dsimp only
  repeat' first | with_reducible exact Kept.refl _ | with_reducible assumption | with_reducible apply modIsland_kept | with_reducible apply startIsland_kept | with_reducible apply Kept.ite | (with_reducible apply Kept.iteSnd <;> dsimp only) | with_reducible apply Kept.foldl | fail_if_no_progress refine Kept.upd ?_ rfl rfl rfl rfl rfl rfl rfl rfl rfl | (split <;> try dsimp only) | (intro _; intros; try dsimp only)

theorem execEthFrameTransmit_kept (mac : Nat) (s : State) (t : State) (h : execEthFrameTransmit mac s = .next t) : Kept s t := by
  unfold execEthFrameTransmit at h
  injection h with h
  rw [← h]
  try dsimp only
  repeat' first | with_reducible exact Kept.refl _ | with_reducible assumption | with_reducible apply readMem_kept | with_reducible apply send_kept | with_reducible apply writeMem'_kept | with_reducible apply Kept.ite | (with_reducible apply Kept.iteSnd <;> dsimp only) | with_reducible apply Kept.foldl | fail_if_no_progress refine Kept.upd ?_ rfl rfl rfl rfl rfl rfl rfl rfl rfl | (split <;> try dsimp only) | (intro _; intros; try dsimp only)

theorem execEthFrameReceive_kept (mac : Nat) (fcsOk : Bool) (frame : List Nat) (s : State) (t : State) (h : execEthFrameReceive mac fcsOk frame s = .next t) : Kept s t := by
  unfold execEthFrameReceive at h
  injection h with h
  rw [← h]
  try dsimp only
  repeat' first | with_reducible exact Kept.refl _ | with_reducible assumption | with_reducible apply incSat_kept | with_reducible apply hostReceive_kept | with_reducible apply parsePacket_kept | with_reducible apply Kept.ite | (with_reducible apply Kept.iteSnd <;> dsimp only) | with_reducible apply Kept.foldl | fail_if_no_progress refine Kept.upd ?_ rfl rfl rfl rfl rfl rfl rfl rfl rfl | (split <;> try dsimp only) | (intro _; intros; try dsimp only)

theorem execBatchSweepTimeout_kept (stream : Nat) (s : State) (t : State) (h : execBatchSweepTimeout stream s = .next t) : Kept s t := by
  unfold execBatchSweepTimeout at h
  injection h with h
  rw [← h]
  try dsimp only
  repeat' first | with_reducible exact Kept.refl _ | with_reducible assumption | with_reducible apply closeBatch_kept | with_reducible apply passTo_kept | with_reducible apply record_kept | with_reducible apply Kept.ite | (with_reducible apply Kept.iteSnd <;> dsimp only) | with_reducible apply Kept.foldl | fail_if_no_progress refine Kept.upd ?_ rfl rfl rfl rfl rfl rfl rfl rfl rfl | (split <;> try dsimp only) | (intro _; intros; try dsimp only)

theorem execCamMacCommit_kept (mac : Nat) (value : Nat) (s : State) (t : State) (h : execCamMacCommit mac value s = .next t) : Kept s t := by
  unfold execCamMacCommit at h
  injection h with h
  rw [← h]
  try dsimp only
  repeat' first | with_reducible exact Kept.refl _ | with_reducible assumption | with_reducible apply commit_kept | with_reducible apply acceptStaged_kept | with_reducible apply Kept.ite | (with_reducible apply Kept.iteSnd <;> dsimp only) | with_reducible apply Kept.foldl | fail_if_no_progress refine Kept.upd ?_ rfl rfl rfl rfl rfl rfl rfl rfl rfl | (split <;> try dsimp only) | (intro _; intros; try dsimp only)

theorem execWriteQueueDrain_kept (stack : Nat) (pc : Nat) (s : State) (t : State) (h : execWriteQueueDrain stack pc s = .next t) : Kept s t := by
  unfold execWriteQueueDrain at h
  injection h with h
  rw [← h]
  try dsimp only
  repeat' first | with_reducible exact Kept.refl _ | with_reducible assumption | with_reducible apply drainPc_kept | with_reducible apply Kept.ite | (with_reducible apply Kept.iteSnd <;> dsimp only) | with_reducible apply Kept.foldl | fail_if_no_progress refine Kept.upd ?_ rfl rfl rfl rfl rfl rfl rfl rfl rfl | (split <;> try dsimp only) | (intro _; intros; try dsimp only)

theorem execPatrolScrub_kept (stack : Nat) (upset : MemUpset) (s : State) (t : State) (h : execPatrolScrub stack upset s = .next t) : Kept s t := by
  unfold execPatrolScrub at h
  injection h with h
  rw [← h]
  try dsimp only
  repeat' first | with_reducible exact Kept.refl _ | with_reducible assumption | with_reducible apply befallPhys_kept | with_reducible apply modStack_kept | with_reducible apply scrubUsed_kept | with_reducible apply scrubFree_kept | with_reducible apply Kept.ite | (with_reducible apply Kept.iteSnd <;> dsimp only) | with_reducible apply Kept.foldl | fail_if_no_progress refine Kept.upd ?_ rfl rfl rfl rfl rfl rfl rfl rfl rfl | (split <;> try dsimp only) | (intro _; intros; try dsimp only)

theorem execRefresh_kept (stack : Nat) (pc : Nat) (bank : Nat) (s : State) (t : State) (h : execRefresh stack pc bank s = .next t) : Kept s t := by
  unfold execRefresh at h
  injection h with h
  rw [← h]
  try dsimp only
  repeat' first | with_reducible exact Kept.refl _ | with_reducible assumption | with_reducible apply modStack_kept | with_reducible apply Kept.ite | (with_reducible apply Kept.iteSnd <;> dsimp only) | with_reducible apply Kept.foldl | fail_if_no_progress refine Kept.upd ?_ rfl rfl rfl rfl rfl rfl rfl rfl rfl | (split <;> try dsimp only) | (intro _; intros; try dsimp only)

theorem execRetrainRoundStart_kept (stack : Nat) (s : State) (t : State) (h : execRetrainRoundStart stack s = .next t) : Kept s t := by
  unfold execRetrainRoundStart at h
  injection h with h
  rw [← h]
  try dsimp only
  repeat' first | with_reducible exact Kept.refl _ | with_reducible assumption | with_reducible apply passTo_kept | with_reducible apply startPair_kept | with_reducible apply modStack_kept | with_reducible apply wrB_kept | with_reducible apply Kept.ite | (with_reducible apply Kept.iteSnd <;> dsimp only) | with_reducible apply Kept.foldl | fail_if_no_progress refine Kept.upd ?_ rfl rfl rfl rfl rfl rfl rfl rfl rfl | (split <;> try dsimp only) | (intro _; intros; try dsimp only)

theorem execRetrainPairStart_kept (stack : Nat) (s : State) (t : State) (h : execRetrainPairStart stack s = .next t) : Kept s t := by
  unfold execRetrainPairStart at h
  injection h with h
  rw [← h]
  try dsimp only
  repeat' first | with_reducible exact Kept.refl _ | with_reducible assumption | with_reducible apply startPair_kept | with_reducible apply passTo_kept | with_reducible apply Kept.ite | (with_reducible apply Kept.iteSnd <;> dsimp only) | with_reducible apply Kept.foldl | fail_if_no_progress refine Kept.upd ?_ rfl rfl rfl rfl rfl rfl rfl rfl rfl | (split <;> try dsimp only) | (intro _; intros; try dsimp only)

theorem execRetrainPairDone_kept (stack : Nat) (okLow : Bool) (okHigh : Bool) (s : State) (t : State) (h : execRetrainPairDone stack okLow okHigh s = .next t) : Kept s t := by
  unfold execRetrainPairDone at h
  injection h with h
  rw [← h]
  try dsimp only
  repeat' first | with_reducible exact Kept.refl _ | with_reducible assumption | with_reducible apply wr_kept | with_reducible apply retrained_kept | with_reducible apply giveAnswers_kept | with_reducible apply wrB_kept | with_reducible apply modStack_kept | with_reducible apply Kept.ite | (with_reducible apply Kept.iteSnd <;> dsimp only) | with_reducible apply Kept.foldl | fail_if_no_progress refine Kept.upd ?_ rfl rfl rfl rfl rfl rfl rfl rfl rfl | (split <;> try dsimp only) | (intro _; intros; try dsimp only)

theorem execStackTempRead_kept (stack : Nat) (temp : Int) (s : State) (t : State) (h : execStackTempRead stack temp s = .next t) : Kept s t := by
  unfold execStackTempRead at h
  injection h with h
  rw [← h]
  try dsimp only
  repeat' first | with_reducible exact Kept.refl _ | with_reducible assumption | with_reducible apply wr_kept | with_reducible apply reevaluate_kept | with_reducible apply event_kept | with_reducible apply wrB_kept | with_reducible apply refreshLedger_kept | with_reducible apply Kept.ite | (with_reducible apply Kept.iteSnd <;> dsimp only) | with_reducible apply Kept.foldl | fail_if_no_progress refine Kept.upd ?_ rfl rfl rfl rfl rfl rfl rfl rfl rfl | (split <;> try dsimp only) | (intro _; intros; try dsimp only)

theorem execHbmMapCommit_kept (value : Nat) (s : State) (t : State) (h : execHbmMapCommit value s = .next t) : Kept s t := by
  unfold execHbmMapCommit at h
  injection h with h
  rw [← h]
  try dsimp only
  repeat' first | with_reducible exact Kept.refl _ | with_reducible assumption | with_reducible apply mapResult_kept | with_reducible apply commitAt_kept | with_reducible apply readMem_kept | with_reducible apply mapStart_kept | with_reducible apply Kept.ite | (with_reducible apply Kept.iteSnd <;> dsimp only) | with_reducible apply Kept.foldl | fail_if_no_progress refine Kept.upd ?_ rfl rfl rfl rfl rfl rfl rfl rfl rfl | (split <;> try dsimp only) | (intro _; intros; try dsimp only)

theorem execMapCommitComplete_kept (s : State) (t : State) (h : execMapCommitComplete s = .next t) : Kept s t := by
  unfold execMapCommitComplete at h
  injection h with h
  rw [← h]
  try dsimp only
  repeat' first | with_reducible exact Kept.refl _ | with_reducible assumption | with_reducible apply installEntry_kept | with_reducible apply mapResult_kept | with_reducible apply wrB_kept | with_reducible apply Kept.ite | (with_reducible apply Kept.iteSnd <;> dsimp only) | with_reducible apply Kept.foldl | fail_if_no_progress refine Kept.upd ?_ rfl rfl rfl rfl rfl rfl rfl rfl rfl | (split <;> try dsimp only) | (intro _; intros; try dsimp only)

theorem execHbmShareCommit_kept (value : Nat) (s : State) (t : State) (h : execHbmShareCommit value s = .next t) : Kept s t := by
  unfold execHbmShareCommit at h
  injection h with h
  rw [← h]
  try dsimp only
  repeat' first | with_reducible exact Kept.refl _ | with_reducible assumption | with_reducible apply commit_kept | with_reducible apply acceptStaged_kept | with_reducible apply Kept.ite | (with_reducible apply Kept.iteSnd <;> dsimp only) | with_reducible apply Kept.foldl | fail_if_no_progress refine Kept.upd ?_ rfl rfl rfl rfl rfl rfl rfl rfl rfl | (split <;> try dsimp only) | (intro _; intros; try dsimp only)

theorem execHbmCommit_kept (stack : Nat) (value : Nat) (s : State) (t : State) (h : execHbmCommit stack value s = .next t) : Kept s t := by
  unfold execHbmCommit at h
  injection h with h
  rw [← h]
  try dsimp only
  repeat' first | with_reducible exact Kept.refl _ | with_reducible assumption | with_reducible apply ifReached_kept | with_reducible apply commit_kept | with_reducible apply acceptStaged_kept | with_reducible apply Kept.ite | (with_reducible apply Kept.iteSnd <;> dsimp only) | with_reducible apply Kept.foldl | fail_if_no_progress refine Kept.upd ?_ rfl rfl rfl rfl rfl rfl rfl rfl rfl | (split <;> try dsimp only) | (intro _; intros; try dsimp only)

theorem execUnary_kept (brick : Nat) (upset : Upset) (s : State) (t : State) (h : execUnary brick upset s = .next t) : Kept s t := by
  unfold execUnary at h
  injection h with h
  rw [← h]
  try dsimp only
  repeat' first | with_reducible exact Kept.refl _ | with_reducible assumption | with_reducible apply laneStep_kept | with_reducible apply Kept.ite | (with_reducible apply Kept.iteSnd <;> dsimp only) | with_reducible apply Kept.foldl | fail_if_no_progress refine Kept.upd ?_ rfl rfl rfl rfl rfl rfl rfl rfl rfl | (split <;> try dsimp only) | (intro _; intros; try dsimp only)

theorem execBinary_kept (brick : Nat) (upset : Upset) (s : State) (t : State) (h : execBinary brick upset s = .next t) : Kept s t := by
  unfold execBinary at h
  injection h with h
  rw [← h]
  try dsimp only
  repeat' first | with_reducible exact Kept.refl _ | with_reducible assumption | with_reducible apply laneStep_kept | with_reducible apply Kept.ite | (with_reducible apply Kept.iteSnd <;> dsimp only) | with_reducible apply Kept.foldl | fail_if_no_progress refine Kept.upd ?_ rfl rfl rfl rfl rfl rfl rfl rfl rfl | (split <;> try dsimp only) | (intro _; intros; try dsimp only)

theorem execReduce_kept (brick : Nat) (upset : Upset) (s : State) (t : State) (h : execReduce brick upset s = .next t) : Kept s t := by
  unfold execReduce at h
  injection h with h
  rw [← h]
  try dsimp only
  repeat' first | with_reducible exact Kept.refl _ | with_reducible assumption | with_reducible apply laneStep_kept | with_reducible apply Kept.ite | (with_reducible apply Kept.iteSnd <;> dsimp only) | with_reducible apply Kept.foldl | fail_if_no_progress refine Kept.upd ?_ rfl rfl rfl rfl rfl rfl rfl rfl rfl | (split <;> try dsimp only) | (intro _; intros; try dsimp only)

theorem execConvert_kept (brick : Nat) (upset : Upset) (s : State) (t : State) (h : execConvert brick upset s = .next t) : Kept s t := by
  unfold execConvert at h
  injection h with h
  rw [← h]
  try dsimp only
  repeat' first | with_reducible exact Kept.refl _ | with_reducible assumption | with_reducible apply laneStep_kept | with_reducible apply Kept.ite | (with_reducible apply Kept.iteSnd <;> dsimp only) | with_reducible apply Kept.foldl | fail_if_no_progress refine Kept.upd ?_ rfl rfl rfl rfl rfl rfl rfl rfl rfl | (split <;> try dsimp only) | (intro _; intros; try dsimp only)

theorem execFusionOutputComplete_kept (s : State) (t : State) (h : execFusionOutputComplete s = .next t) : Kept s t := by
  unfold execFusionOutputComplete at h
  injection h with h
  rw [← h]
  try dsimp only
  repeat' first | with_reducible exact Kept.refl _ | with_reducible assumption | with_reducible apply writeOutput_kept | with_reducible apply event_kept | with_reducible apply signalFrom_kept | with_reducible apply signalTimes_kept | with_reducible apply record_kept | with_reducible apply settleStop_kept | with_reducible apply modMer_kept | with_reducible apply Kept.ite | (with_reducible apply Kept.iteSnd <;> dsimp only) | with_reducible apply Kept.foldl | fail_if_no_progress refine Kept.upd ?_ rfl rfl rfl rfl rfl rfl rfl rfl rfl | (split <;> try dsimp only) | (intro _; intros; try dsimp only)

theorem execTrackerStart_kept (s : State) (t : State) (h : execTrackerStart s = .next t) : Kept s t := by
  unfold execTrackerStart at h
  injection h with h
  rw [← h]
  try dsimp only
  repeat' first | with_reducible exact Kept.refl _ | with_reducible assumption | with_reducible apply modMer_kept | with_reducible apply passTo_kept | with_reducible apply takeSet_kept | with_reducible apply runTracker_kept | with_reducible apply Kept.ite | (with_reducible apply Kept.iteSnd <;> dsimp only) | with_reducible apply Kept.foldl | fail_if_no_progress refine Kept.upd ?_ rfl rfl rfl rfl rfl rfl rfl rfl rfl | (split <;> try dsimp only) | (intro _; intros; try dsimp only)

theorem execTrackOutputComplete_kept (s : State) (t : State) (h : execTrackOutputComplete s = .next t) : Kept s t := by
  unfold execTrackOutputComplete at h
  injection h with h
  rw [← h]
  try dsimp only
  repeat' first | with_reducible exact Kept.refl _ | with_reducible assumption | with_reducible apply writeOutput_kept | with_reducible apply event_kept | with_reducible apply signalFrom_kept | with_reducible apply settleStop_kept | with_reducible apply modMer_kept | with_reducible apply Kept.ite | (with_reducible apply Kept.iteSnd <;> dsimp only) | with_reducible apply Kept.foldl | fail_if_no_progress refine Kept.upd ?_ rfl rfl rfl rfl rfl rfl rfl rfl rfl | (split <;> try dsimp only) | (intro _; intros; try dsimp only)

theorem execCalibrationProposal_kept (island : Nat) (s : State) (t : State) (h : execCalibrationProposal island s = .next t) : Kept s t := by
  unfold execCalibrationProposal at h
  injection h with h
  rw [← h]
  try dsimp only
  repeat' first | with_reducible exact Kept.refl _ | with_reducible assumption | with_reducible apply modMer_kept | with_reducible apply event_kept | with_reducible apply approve_kept | with_reducible apply Kept.ite | (with_reducible apply Kept.iteSnd <;> dsimp only) | with_reducible apply Kept.foldl | fail_if_no_progress refine Kept.upd ?_ rfl rfl rfl rfl rfl rfl rfl rfl rfl | (split <;> try dsimp only) | (intro _; intros; try dsimp only)

theorem execInstallationProposal_kept (island : Nat) (s : State) (t : State) (h : execInstallationProposal island s = .next t) : Kept s t := by
  unfold execInstallationProposal at h
  injection h with h
  rw [← h]
  try dsimp only
  repeat' first | with_reducible exact Kept.refl _ | with_reducible assumption | with_reducible apply modMer_kept | with_reducible apply install_kept | with_reducible apply event_kept | with_reducible apply approve_kept | with_reducible apply Kept.ite | (with_reducible apply Kept.iteSnd <;> dsimp only) | with_reducible apply Kept.foldl | fail_if_no_progress refine Kept.upd ?_ rfl rfl rfl rfl rfl rfl rfl rfl rfl | (split <;> try dsimp only) | (intro _; intros; try dsimp only)

theorem execPeerApproval_kept (island : Nat) (s : State) (t : State) (h : execPeerApproval island s = .next t) : Kept s t := by
  unfold execPeerApproval at h
  injection h with h
  rw [← h]
  try dsimp only
  repeat' first | with_reducible exact Kept.refl _ | with_reducible assumption | with_reducible apply modIsland_kept | with_reducible apply Kept.ite | (with_reducible apply Kept.iteSnd <;> dsimp only) | with_reducible apply Kept.foldl | fail_if_no_progress refine Kept.upd ?_ rfl rfl rfl rfl rfl rfl rfl rfl rfl | (split <;> try dsimp only) | (intro _; intros; try dsimp only)

theorem execCalibrationAnswer_kept (install : Bool) (s : State) (t : State) (h : execCalibrationAnswer install s = .next t) : Kept s t := by
  unfold execCalibrationAnswer at h
  injection h with h
  rw [← h]
  try dsimp only
  repeat' first | with_reducible exact Kept.refl _ | with_reducible assumption | with_reducible apply install_kept | with_reducible apply discard_kept | with_reducible apply adopt_kept | with_reducible apply Kept.ite | (with_reducible apply Kept.iteSnd <;> dsimp only) | with_reducible apply Kept.foldl | fail_if_no_progress refine Kept.upd ?_ rfl rfl rfl rfl rfl rfl rfl rfl rfl | (split <;> try dsimp only) | (intro _; intros; try dsimp only)

theorem execProposalTimeout_kept (install : Bool) (s : State) (t : State) (h : execProposalTimeout install s = .next t) : Kept s t := by
  unfold execProposalTimeout at h
  injection h with h
  rw [← h]
  try dsimp only
  repeat' first | with_reducible exact Kept.refl _ | with_reducible assumption | with_reducible apply install_kept | with_reducible apply discard_kept | with_reducible apply passTo_kept | with_reducible apply Kept.ite | (with_reducible apply Kept.iteSnd <;> dsimp only) | with_reducible apply Kept.foldl | fail_if_no_progress refine Kept.upd ?_ rfl rfl rfl rfl rfl rfl rfl rfl rfl | (split <;> try dsimp only) | (intro _; intros; try dsimp only)

theorem execMeridianHeartbeat_kept (s : State) (t : State) (h : execMeridianHeartbeat s = .next t) : Kept s t := by
  unfold execMeridianHeartbeat at h
  injection h with h
  rw [← h]
  try dsimp only
  repeat' first | with_reducible exact Kept.refl _ | with_reducible assumption | with_reducible apply heartbeatAt_kept | with_reducible apply send_kept | with_reducible apply Kept.ite | (with_reducible apply Kept.iteSnd <;> dsimp only) | with_reducible apply Kept.foldl | fail_if_no_progress refine Kept.upd ?_ rfl rfl rfl rfl rfl rfl rfl rfl rfl | (split <;> try dsimp only) | (intro _; intros; try dsimp only)

theorem execMeridianInternalFault_kept (s : State) (t : State) (h : execMeridianInternalFault s = .next t) : Kept s t := by
  unfold execMeridianInternalFault at h
  injection h with h
  rw [← h]
  try dsimp only
  repeat' first | with_reducible exact Kept.refl _ | with_reducible assumption | with_reducible apply wrB_kept | with_reducible apply haltMer_kept | with_reducible apply event_kept | with_reducible apply Kept.ite | (with_reducible apply Kept.iteSnd <;> dsimp only) | with_reducible apply Kept.foldl | fail_if_no_progress refine Kept.upd ?_ rfl rfl rfl rfl rfl rfl rfl rfl rfl | (split <;> try dsimp only) | (intro _; intros; try dsimp only)

theorem execMerCommit_kept (value : Nat) (s : State) (t : State) (h : execMerCommit value s = .next t) : Kept s t := by
  unfold execMerCommit at h
  injection h with h
  rw [← h]
  try dsimp only
  repeat' first | with_reducible exact Kept.refl _ | with_reducible assumption | with_reducible apply merCommit_kept | with_reducible apply Kept.ite | (with_reducible apply Kept.iteSnd <;> dsimp only) | with_reducible apply Kept.foldl | fail_if_no_progress refine Kept.upd ?_ rfl rfl rfl rfl rfl rfl rfl rfl rfl | (split <;> try dsimp only) | (intro _; intros; try dsimp only)

theorem execMerInstall_kept (value : Nat) (s : State) (t : State) (h : execMerInstall value s = .next t) : Kept s t := by
  unfold execMerInstall at h
  injection h with h
  rw [← h]
  try dsimp only
  repeat' first | with_reducible exact Kept.refl _ | with_reducible assumption | with_reducible apply merCommit_kept | with_reducible apply Kept.ite | (with_reducible apply Kept.iteSnd <;> dsimp only) | with_reducible apply Kept.foldl | fail_if_no_progress refine Kept.upd ?_ rfl rfl rfl rfl rfl rfl rfl rfl rfl | (split <;> try dsimp only) | (intro _; intros; try dsimp only)

theorem execOuvurRetransmitRequest_kept (port : Nat) (seq : Nat) (s : State) (t : State) (h : execOuvurRetransmitRequest port seq s = .next t) : Kept s t := by
  unfold execOuvurRetransmitRequest at h
  injection h with h
  rw [← h]
  try dsimp only
  repeat' first | with_reducible exact Kept.refl _ | with_reducible assumption | with_reducible apply send_kept | with_reducible apply Kept.ite | (with_reducible apply Kept.iteSnd <;> dsimp only) | with_reducible apply Kept.foldl | fail_if_no_progress refine Kept.upd ?_ rfl rfl rfl rfl rfl rfl rfl rfl rfl | (split <;> try dsimp only) | (intro _; intros; try dsimp only)

theorem execOuvurLinkDown_kept (port : Nat) (s : State) (t : State) (h : execOuvurLinkDown port s = .next t) : Kept s t := by
  unfold execOuvurLinkDown at h
  injection h with h
  rw [← h]
  try dsimp only
  repeat' first | with_reducible exact Kept.refl _ | with_reducible assumption | with_reducible apply setPort_kept | with_reducible apply modPort_kept | with_reducible apply Kept.ite | (with_reducible apply Kept.iteSnd <;> dsimp only) | with_reducible apply Kept.foldl | fail_if_no_progress refine Kept.upd ?_ rfl rfl rfl rfl rfl rfl rfl rfl rfl | (split <;> try dsimp only) | (intro _; intros; try dsimp only)

theorem execOuvurLinkRetrain_kept (port : Nat) (works : Bool) (identity : List Nat) (s : State) (t : State) (h : execOuvurLinkRetrain port works identity s = .next t) : Kept s t := by
  unfold execOuvurLinkRetrain at h
  injection h with h
  rw [← h]
  try dsimp only
  repeat' first | with_reducible exact Kept.refl _ | with_reducible assumption | with_reducible apply passTo_kept | with_reducible apply agreeKeys_kept | with_reducible apply modPort_kept | with_reducible apply Kept.ite | (with_reducible apply Kept.iteSnd <;> dsimp only) | with_reducible apply Kept.foldl | fail_if_no_progress refine Kept.upd ?_ rfl rfl rfl rfl rfl rfl rfl rfl rfl | (split <;> try dsimp only) | (intro _; intros; try dsimp only)

theorem execLinkKeyRenewal_kept (port : Nat) (works : Bool) (identity : List Nat) (s : State) (t : State) (h : execLinkKeyRenewal port works identity s = .next t) : Kept s t := by
  unfold execLinkKeyRenewal at h
  injection h with h
  rw [← h]
  try dsimp only
  repeat' first | with_reducible exact Kept.refl _ | with_reducible assumption | with_reducible apply passTo_kept | with_reducible apply foreign_kept | with_reducible apply agreeKeys_kept | with_reducible apply wr_kept | with_reducible apply Kept.ite | (with_reducible apply Kept.iteSnd <;> dsimp only) | with_reducible apply Kept.foldl | fail_if_no_progress refine Kept.upd ?_ rfl rfl rfl rfl rfl rfl rfl rfl rfl | (split <;> try dsimp only) | (intro _; intros; try dsimp only)

theorem execHeartbeatMissInterval_kept (port : Nat) (s : State) (t : State) (h : execHeartbeatMissInterval port s = .next t) : Kept s t := by
  unfold execHeartbeatMissInterval at h
  injection h with h
  rw [← h]
  try dsimp only
  repeat' first | with_reducible exact Kept.refl _ | with_reducible assumption | with_reducible apply passTo_kept | with_reducible apply incSat_kept | with_reducible apply modPort_kept | with_reducible apply showSuspect_kept | with_reducible apply takeReport_kept | with_reducible apply Kept.ite | (with_reducible apply Kept.iteSnd <;> dsimp only) | with_reducible apply Kept.foldl | fail_if_no_progress refine Kept.upd ?_ rfl rfl rfl rfl rfl rfl rfl rfl rfl | (split <;> try dsimp only) | (intro _; intros; try dsimp only)

end Sys2Proof.Machine
end

