-- ==== Sys2Proof/Laws/KeptExec4.lean ====
section
/-! SUPPORT. What each command keeps (`Kept`), where it answers a next state: part 4. -/

set_option linter.all false

namespace Sys2Proof.Machine

open Reg

theorem execSuspicionReport_kept (port : Nat) (head : OvHead) (suspect : Nat) (reporter : Nat) (epoch : Nat) (s : State) (t : State) (h : execSuspicionReport port head suspect reporter epoch s = .next t) : Kept s t := by
  unfold execSuspicionReport at h
  injection h with h
  rw [← h]
  try dsimp only
  repeat' first | with_reducible exact Kept.refl _ | with_reducible assumption | with_reducible apply ovControl_kept | with_reducible apply takeReport_kept | with_reducible apply record_kept | with_reducible apply Kept.ite | (with_reducible apply Kept.iteSnd <;> dsimp only) | with_reducible apply Kept.foldl | fail_if_no_progress refine Kept.upd ?_ rfl rfl rfl rfl rfl rfl rfl rfl rfl | (split <;> try dsimp only) | (intro _; intros; try dsimp only)

theorem execNoQuorumTimeout_kept (s : State) (t : State) (h : execNoQuorumTimeout s = .next t) : Kept s t := by
  unfold execNoQuorumTimeout at h
  injection h with h
  rw [← h]
  try dsimp only
  repeat' first | with_reducible exact Kept.refl _ | with_reducible assumption | with_reducible apply noQuorum_kept | with_reducible apply passTo_kept | with_reducible apply Kept.ite | (with_reducible apply Kept.iteSnd <;> dsimp only) | with_reducible apply Kept.foldl | fail_if_no_progress refine Kept.upd ?_ rfl rfl rfl rfl rfl rfl rfl rfl rfl | (split <;> try dsimp only) | (intro _; intros; try dsimp only)

theorem execSettleWindowEnd_kept (s : State) (t : State) (h : execSettleWindowEnd s = .next t) : Kept s t := by
  unfold execSettleWindowEnd at h
  injection h with h
  rw [← h]
  try dsimp only
  repeat' first | with_reducible exact Kept.refl _ | with_reducible assumption | with_reducible apply passTo_kept | with_reducible apply modOuv_kept | with_reducible apply settle_kept | with_reducible apply tryCommit_kept | with_reducible apply ovFlood_kept | with_reducible apply Kept.ite | (with_reducible apply Kept.iteSnd <;> dsimp only) | with_reducible apply Kept.foldl | fail_if_no_progress refine Kept.upd ?_ rfl rfl rfl rfl rfl rfl rfl rfl rfl | (split <;> try dsimp only) | (intro _; intros; try dsimp only)

theorem execOuvurProposal_kept (port : Nat) (head : OvHead) (epoch : Nat) (coord : Nat) (members : Nat) (s : State) (t : State) (h : execOuvurProposal port head epoch coord members s = .next t) : Kept s t := by
  unfold execOuvurProposal at h
  injection h with h
  rw [← h]
  try dsimp only
  repeat' first | with_reducible exact Kept.refl _ | with_reducible assumption | with_reducible apply ovControl_kept | with_reducible apply modOuv_kept | with_reducible apply ovEval_kept | with_reducible apply ovSend_kept | with_reducible apply ovFlood_kept | with_reducible apply Kept.ite | (with_reducible apply Kept.iteSnd <;> dsimp only) | with_reducible apply Kept.foldl | fail_if_no_progress refine Kept.upd ?_ rfl rfl rfl rfl rfl rfl rfl rfl rfl | (split <;> try dsimp only) | (intro _; intros; try dsimp only)

theorem execAcknowledgement_kept (port : Nat) (head : OvHead) (epoch : Nat) (coord : Nat) (acked : Nat) (s : State) (t : State) (h : execAcknowledgement port head epoch coord acked s = .next t) : Kept s t := by
  unfold execAcknowledgement at h
  injection h with h
  rw [← h]
  try dsimp only
  repeat' first | with_reducible exact Kept.refl _ | with_reducible assumption | with_reducible apply ovControl_kept | with_reducible apply modOuv_kept | with_reducible apply ovSend_kept | with_reducible apply tryCommit_kept | with_reducible apply Kept.ite | (with_reducible apply Kept.iteSnd <;> dsimp only) | with_reducible apply Kept.foldl | fail_if_no_progress refine Kept.upd ?_ rfl rfl rfl rfl rfl rfl rfl rfl rfl | (split <;> try dsimp only) | (intro _; intros; try dsimp only)

theorem execOuvurCommit_kept (port : Nat) (head : OvHead) (epoch : Nat) (coord : Nat) (members : Nat) (s : State) (t : State) (h : execOuvurCommit port head epoch coord members s = .next t) : Kept s t := by
  unfold execOuvurCommit at h
  injection h with h
  rw [← h]
  try dsimp only
  repeat' first | with_reducible exact Kept.refl _ | with_reducible assumption | with_reducible apply ovControl_kept | with_reducible apply install_kept | with_reducible apply ovFlood_kept | with_reducible apply Kept.ite | (with_reducible apply Kept.iteSnd <;> dsimp only) | with_reducible apply Kept.foldl | fail_if_no_progress refine Kept.upd ?_ rfl rfl rfl rfl rfl rfl rfl rfl rfl | (split <;> try dsimp only) | (intro _; intros; try dsimp only)

theorem execOuvurHeartbeatSend_kept (s : State) (t : State) (h : execOuvurHeartbeatSend s = .next t) : Kept s t := by
  unfold execOuvurHeartbeatSend at h
  injection h with h
  rw [← h]
  try dsimp only
  repeat' first | with_reducible exact Kept.refl _ | with_reducible assumption | with_reducible apply passTo_kept | with_reducible apply modOuv_kept | with_reducible apply beatOn_kept | with_reducible apply Kept.ite | (with_reducible apply Kept.iteSnd <;> dsimp only) | with_reducible apply Kept.foldl | fail_if_no_progress refine Kept.upd ?_ rfl rfl rfl rfl rfl rfl rfl rfl rfl | (split <;> try dsimp only) | (intro _; intros; try dsimp only)

theorem execOuvurHeartbeat_kept (port : Nat) (head : OvHead) (t3 : Nat) (t4 : Nat) (depth : Nat) (s : State) (t : State) (h : execOuvurHeartbeat port head t3 t4 depth s = .next t) : Kept s t := by
  unfold execOuvurHeartbeat at h
  injection h with h
  rw [← h]
  try dsimp only
  repeat' first | with_reducible exact Kept.refl _ | with_reducible assumption | with_reducible apply ovTake_kept | with_reducible apply wr_kept | with_reducible apply setPort_kept | with_reducible apply modPort_kept | with_reducible apply event_kept | with_reducible apply beatTime_kept | with_reducible apply heardNeighbour_kept | with_reducible apply ovEval_kept | with_reducible apply modOuv_kept | with_reducible apply Kept.ite | (with_reducible apply Kept.iteSnd <;> dsimp only) | with_reducible apply Kept.foldl | fail_if_no_progress refine Kept.upd ?_ rfl rfl rfl rfl rfl rfl rfl rfl rfl | (split <;> try dsimp only) | (intro _; intros; try dsimp only)

theorem execExclusionNotice_kept (port : Nat) (head : OvHead) (s : State) (t : State) (h : execExclusionNotice port head s = .next t) : Kept s t := by
  unfold execExclusionNotice at h
  injection h with h
  rw [← h]
  try dsimp only
  repeat' first | with_reducible exact Kept.refl _ | with_reducible assumption | with_reducible apply ovControl_kept | with_reducible apply exclude_kept | with_reducible apply heardNeighbour_kept | with_reducible apply Kept.ite | (with_reducible apply Kept.iteSnd <;> dsimp only) | with_reducible apply Kept.foldl | fail_if_no_progress refine Kept.upd ?_ rfl rfl rfl rfl rfl rfl rfl rfl rfl | (split <;> try dsimp only) | (intro _; intros; try dsimp only)

theorem execRejoinReady_kept (s : State) (t : State) (h : execRejoinReady s = .next t) : Kept s t := by
  unfold execRejoinReady at h
  injection h with h
  rw [← h]
  try dsimp only
  repeat' first | with_reducible exact Kept.refl _ | with_reducible assumption | with_reducible apply passTo_kept | with_reducible apply modOuv_kept | with_reducible apply Kept.ite | (with_reducible apply Kept.iteSnd <;> dsimp only) | with_reducible apply Kept.foldl | fail_if_no_progress refine Kept.upd ?_ rfl rfl rfl rfl rfl rfl rfl rfl rfl | (split <;> try dsimp only) | (intro _; intros; try dsimp only)

theorem execOvrRejoin_kept (value : Nat) (s : State) (t : State) (h : execOvrRejoin value s = .next t) : Kept s t := by
  unfold execOvrRejoin at h
  injection h with h
  rw [← h]
  try dsimp only
  repeat' first | with_reducible exact Kept.refl _ | with_reducible assumption | with_reducible apply modOuv_kept | with_reducible apply Kept.ite | (with_reducible apply Kept.iteSnd <;> dsimp only) | with_reducible apply Kept.foldl | fail_if_no_progress refine Kept.upd ?_ rfl rfl rfl rfl rfl rfl rfl rfl rfl | (split <;> try dsimp only) | (intro _; intros; try dsimp only)

theorem execDrill_kept (value : Nat) (s : State) (t : State) (h : execDrill value s = .next t) : Kept s t := by
  unfold execDrill at h
  injection h with h
  rw [← h]
  try dsimp only
  repeat' first | with_reducible exact Kept.refl _ | with_reducible assumption | with_reducible apply keyRequest_kept | with_reducible apply plainRequest_kept | with_reducible apply startDrill_kept | with_reducible apply Kept.ite | (with_reducible apply Kept.iteSnd <;> dsimp only) | with_reducible apply Kept.foldl | fail_if_no_progress refine Kept.upd ?_ rfl rfl rfl rfl rfl rfl rfl rfl rfl | (split <;> try dsimp only) | (intro _; intros; try dsimp only)

theorem execDrillEnd_kept (s : State) (t : State) (h : execDrillEnd s = .next t) : Kept s t := by
  unfold execDrillEnd at h
  injection h with h
  rw [← h]
  try dsimp only
  repeat' first | with_reducible exact Kept.refl _ | with_reducible assumption | with_reducible apply passTo_kept | with_reducible apply event_kept | with_reducible apply wr_kept | with_reducible apply modOuv_kept | with_reducible apply Kept.ite | (with_reducible apply Kept.iteSnd <;> dsimp only) | with_reducible apply Kept.foldl | fail_if_no_progress refine Kept.upd ?_ rfl rfl rfl rfl rfl rfl rfl rfl rfl | (split <;> try dsimp only) | (intro _; intros; try dsimp only)

theorem execAllReduce_kept (ctx : Nat) (s : State) (t : State) (h : execAllReduce ctx s = .next t) : Kept s t := by
  unfold execAllReduce at h
  injection h with h
  rw [← h]
  try dsimp only
  repeat' first | with_reducible exact Kept.refl _ | with_reducible assumption | with_reducible apply nextTransfer_kept | with_reducible apply Kept.ite | (with_reducible apply Kept.iteSnd <;> dsimp only) | with_reducible apply Kept.foldl | fail_if_no_progress refine Kept.upd ?_ rfl rfl rfl rfl rfl rfl rfl rfl rfl | (split <;> try dsimp only) | (intro _; intros; try dsimp only)

theorem execAllGather_kept (ctx : Nat) (s : State) (t : State) (h : execAllGather ctx s = .next t) : Kept s t := by
  unfold execAllGather at h
  injection h with h
  rw [← h]
  try dsimp only
  repeat' first | with_reducible exact Kept.refl _ | with_reducible assumption | with_reducible apply nextTransfer_kept | with_reducible apply Kept.ite | (with_reducible apply Kept.iteSnd <;> dsimp only) | with_reducible apply Kept.foldl | fail_if_no_progress refine Kept.upd ?_ rfl rfl rfl rfl rfl rfl rfl rfl rfl | (split <;> try dsimp only) | (intro _; intros; try dsimp only)

theorem execBroadcast_kept (ctx : Nat) (s : State) (t : State) (h : execBroadcast ctx s = .next t) : Kept s t := by
  unfold execBroadcast at h
  injection h with h
  rw [← h]
  try dsimp only
  repeat' first | with_reducible exact Kept.refl _ | with_reducible assumption | with_reducible apply nextTransfer_kept | with_reducible apply Kept.ite | (with_reducible apply Kept.iteSnd <;> dsimp only) | with_reducible apply Kept.foldl | fail_if_no_progress refine Kept.upd ?_ rfl rfl rfl rfl rfl rfl rfl rfl rfl | (split <;> try dsimp only) | (intro _; intros; try dsimp only)

theorem execSend_kept (ctx : Nat) (s : State) (t : State) (h : execSend ctx s = .next t) : Kept s t := by
  unfold execSend at h
  injection h with h
  rw [← h]
  try dsimp only
  repeat' first | with_reducible exact Kept.refl _ | with_reducible assumption | with_reducible apply nextTransfer_kept | with_reducible apply Kept.ite | (with_reducible apply Kept.iteSnd <;> dsimp only) | with_reducible apply Kept.foldl | fail_if_no_progress refine Kept.upd ?_ rfl rfl rfl rfl rfl rfl rfl rfl rfl | (split <;> try dsimp only) | (intro _; intros; try dsimp only)

theorem execReceive_kept (ctx : Nat) (s : State) (t : State) (h : execReceive ctx s = .next t) : Kept s t := by
  unfold execReceive at h
  injection h with h
  rw [← h]
  try dsimp only
  repeat' first | with_reducible exact Kept.refl _ | with_reducible assumption | with_reducible apply nextTransfer_kept | with_reducible apply Kept.ite | (with_reducible apply Kept.iteSnd <;> dsimp only) | with_reducible apply Kept.foldl | fail_if_no_progress refine Kept.upd ?_ rfl rfl rfl rfl rfl rfl rfl rfl rfl | (split <;> try dsimp only) | (intro _; intros; try dsimp only)

theorem execMirror_kept (ctx : Nat) (s : State) (t : State) (h : execMirror ctx s = .next t) : Kept s t := by
  unfold execMirror at h
  injection h with h
  rw [← h]
  try dsimp only
  repeat' first | with_reducible exact Kept.refl _ | with_reducible assumption | with_reducible apply nextTransfer_kept | with_reducible apply Kept.ite | (with_reducible apply Kept.iteSnd <;> dsimp only) | with_reducible apply Kept.foldl | fail_if_no_progress refine Kept.upd ?_ rfl rfl rfl rfl rfl rfl rfl rfl rfl | (split <;> try dsimp only) | (intro _; intros; try dsimp only)

theorem execRefill_kept (ctx : Nat) (s : State) (t : State) (h : execRefill ctx s = .next t) : Kept s t := by
  unfold execRefill at h
  injection h with h
  rw [← h]
  try dsimp only
  repeat' first | with_reducible exact Kept.refl _ | with_reducible assumption | with_reducible apply nextTransfer_kept | with_reducible apply Kept.ite | (with_reducible apply Kept.iteSnd <;> dsimp only) | with_reducible apply Kept.foldl | fail_if_no_progress refine Kept.upd ?_ rfl rfl rfl rfl rfl rfl rfl rfl rfl | (split <;> try dsimp only) | (intro _; intros; try dsimp only)

theorem execOuvurReady_kept (port : Nat) (head : OvHead) (ctx : Nat) (group : Nat) (tag : Nat) (s : State) (t : State) (h : execOuvurReady port head ctx group tag s = .next t) : Kept s t := by
  unfold execOuvurReady at h
  injection h with h
  rw [← h]
  try dsimp only
  repeat' first | with_reducible exact Kept.refl _ | with_reducible assumption | with_reducible apply ovControl_kept | with_reducible apply ovToward_kept | with_reducible apply flushTo_kept | with_reducible apply modOuv_kept | with_reducible apply Kept.ite | (with_reducible apply Kept.iteSnd <;> dsimp only) | with_reducible apply Kept.foldl | fail_if_no_progress refine Kept.upd ?_ rfl rfl rfl rfl rfl rfl rfl rfl rfl | (split <;> try dsimp only) | (intro _; intros; try dsimp only)

theorem execTransferTimeout_kept (ctx : Nat) (s : State) (t : State) (h : execTransferTimeout ctx s = .next t) : Kept s t := by
  unfold execTransferTimeout at h
  injection h with h
  rw [← h]
  try dsimp only
  repeat' first | with_reducible exact Kept.refl _ | with_reducible assumption | with_reducible apply endTransfer_kept | with_reducible apply incSat_kept | with_reducible apply passTo_kept | with_reducible apply Kept.ite | (with_reducible apply Kept.iteSnd <;> dsimp only) | with_reducible apply Kept.foldl | fail_if_no_progress refine Kept.upd ?_ rfl rfl rfl rfl rfl rfl rfl rfl rfl | (split <;> try dsimp only) | (intro _; intros; try dsimp only)

theorem execOuvurData_kept (port : Nat) (head : OvHead) (ctx : Nat) (data : OvData) (s : State) (t : State) (h : execOuvurData port head ctx data s = .next t) : Kept s t := by
  unfold execOuvurData at h
  injection h with h
  rw [← h]
  try dsimp only
  repeat' first | with_reducible exact Kept.refl _ | with_reducible assumption | with_reducible apply ovControl_kept | with_reducible apply incSat_kept | with_reducible apply ovToward_kept | with_reducible apply onData_kept | with_reducible apply Kept.ite | (with_reducible apply Kept.iteSnd <;> dsimp only) | with_reducible apply Kept.foldl | fail_if_no_progress refine Kept.upd ?_ rfl rfl rfl rfl rfl rfl rfl rfl rfl | (split <;> try dsimp only) | (intro _; intros; try dsimp only)

theorem execOvrCommit_kept (value : Nat) (s : State) (t : State) (h : execOvrCommit value s = .next t) : Kept s t := by
  unfold execOvrCommit at h
  injection h with h
  rw [← h]
  try dsimp only
  repeat' first | with_reducible exact Kept.refl _ | with_reducible assumption | with_reducible apply commit_kept | with_reducible apply acceptStaged_kept | with_reducible apply ovrEnable_kept | with_reducible apply ovrDisable_kept | with_reducible apply Kept.ite | (with_reducible apply Kept.iteSnd <;> dsimp only) | with_reducible apply Kept.foldl | fail_if_no_progress refine Kept.upd ?_ rfl rfl rfl rfl rfl rfl rfl rfl rfl | (split <;> try dsimp only) | (intro _; intros; try dsimp only)

theorem execOvrQCommit_kept (ctx : Nat) (value : Nat) (s : State) (t : State) (h : execOvrQCommit ctx value s = .next t) : Kept s t := by
  unfold execOvrQCommit at h
  injection h with h
  rw [← h]
  try dsimp only
  repeat' first | with_reducible exact Kept.refl _ | with_reducible assumption | with_reducible apply commitAt_kept | with_reducible apply ovqOff_kept | with_reducible apply commitDone_kept | with_reducible apply ovqTake_kept | with_reducible apply Kept.ite | (with_reducible apply Kept.iteSnd <;> dsimp only) | with_reducible apply Kept.foldl | fail_if_no_progress refine Kept.upd ?_ rfl rfl rfl rfl rfl rfl rfl rfl rfl | (split <;> try dsimp only) | (intro _; intros; try dsimp only)

theorem execTieRelease_kept (die : Nat) (tie : Nat) (s : State) (t : State) (h : execTieRelease die tie s = .next t) : Kept s t := by
  unfold execTieRelease at h
  injection h with h
  rw [← h]
  try dsimp only
  repeat' first | with_reducible exact Kept.refl _ | with_reducible assumption | with_reducible apply releaseWaiter_kept | with_reducible apply Kept.ite | (with_reducible apply Kept.iteSnd <;> dsimp only) | with_reducible apply Kept.foldl | fail_if_no_progress refine Kept.upd ?_ rfl rfl rfl rfl rfl rfl rfl rfl rfl | (split <;> try dsimp only) | (intro _; intros; try dsimp only)

theorem execResetPartial_kept (value : Nat) (s : State) (t : State) (h : execResetPartial value s = .next t) : Kept s t := by
  unfold execResetPartial at h
  injection h with h
  rw [← h]
  try dsimp only
  repeat' first | with_reducible exact Kept.refl _ | with_reducible assumption | with_reducible apply resetRequest_kept | with_reducible apply modNwt_kept | with_reducible apply wrB_kept | with_reducible apply partialDrain_kept | with_reducible apply partialTrain_kept | with_reducible apply partialClear_kept | with_reducible apply Kept.ite | (with_reducible apply Kept.iteSnd <;> dsimp only) | with_reducible apply Kept.foldl | fail_if_no_progress refine Kept.upd ?_ rfl rfl rfl rfl rfl rfl rfl rfl rfl | (split <;> try dsimp only) | (intro _; intros; try dsimp only)

theorem execPartialResetComplete_kept (passed : Bool) (ms : Nat) (s : State) (t : State) (h : execPartialResetComplete passed ms s = .next t) : Kept s t := by
  unfold execPartialResetComplete at h
  injection h with h
  rw [← h]
  try dsimp only
  repeat' first | with_reducible exact Kept.refl _ | with_reducible assumption | with_reducible apply commandState_kept | with_reducible apply passTo_kept | with_reducible apply wr_kept | with_reducible apply wrB_kept | with_reducible apply event_kept | with_reducible apply reevaluate_kept | with_reducible apply Kept.ite | (with_reducible apply Kept.iteSnd <;> dsimp only) | with_reducible apply Kept.foldl | fail_if_no_progress refine Kept.upd ?_ rfl rfl rfl rfl rfl rfl rfl rfl rfl | (split <;> try dsimp only) | (intro _; intros; try dsimp only)

theorem execNight_kept (value : Nat) (s : State) (t : State) (h : execNight value s = .next t) : Kept s t := by
  unfold execNight at h
  injection h with h
  rw [← h]
  try dsimp only
  repeat' first | with_reducible exact Kept.refl _ | with_reducible assumption | with_reducible apply nightCommit_kept | with_reducible apply Kept.ite | (with_reducible apply Kept.iteSnd <;> dsimp only) | with_reducible apply Kept.foldl | fail_if_no_progress refine Kept.upd ?_ rfl rfl rfl rfl rfl rfl rfl rfl rfl | (split <;> try dsimp only) | (intro _; intros; try dsimp only)

theorem execDeepNight_kept (value : Nat) (s : State) (t : State) (h : execDeepNight value s = .next t) : Kept s t := by
  unfold execDeepNight at h
  injection h with h
  rw [← h]
  try dsimp only
  repeat' first | with_reducible exact Kept.refl _ | with_reducible assumption | with_reducible apply nightCommit_kept | with_reducible apply Kept.ite | (with_reducible apply Kept.iteSnd <;> dsimp only) | with_reducible apply Kept.foldl | fail_if_no_progress refine Kept.upd ?_ rfl rfl rfl rfl rfl rfl rfl rfl rfl | (split <;> try dsimp only) | (intro _; intros; try dsimp only)

theorem execNightEntryComplete_kept (s : State) (t : State) (h : execNightEntryComplete s = .next t) : Kept s t := by
  unfold execNightEntryComplete at h
  injection h with h
  rw [← h]
  try dsimp only
  repeat' first | with_reducible exact Kept.refl _ | with_reducible assumption | with_reducible apply reachNightStop_kept | with_reducible apply saveTies_kept | with_reducible apply saveCourses_kept | with_reducible apply enterDeepNight_kept | with_reducible apply enterNight_kept | with_reducible apply wakeUp_kept | with_reducible apply modNwt_kept | with_reducible apply Kept.ite | (with_reducible apply Kept.iteSnd <;> dsimp only) | with_reducible apply Kept.foldl | fail_if_no_progress refine Kept.upd ?_ rfl rfl rfl rfl rfl rfl rfl rfl rfl | (split <;> try dsimp only) | (intro _; intros; try dsimp only)

theorem execNightwatchHeartbeat_kept (s : State) (t : State) (h : execNightwatchHeartbeat s = .next t) : Kept s t := by
  unfold execNightwatchHeartbeat at h
  injection h with h
  rw [← h]
  try dsimp only
  repeat' first | with_reducible exact Kept.refl _ | with_reducible assumption | with_reducible apply heardAt_kept | with_reducible apply send_kept | with_reducible apply Kept.ite | (with_reducible apply Kept.iteSnd <;> dsimp only) | with_reducible apply Kept.foldl | fail_if_no_progress refine Kept.upd ?_ rfl rfl rfl rfl rfl rfl rfl rfl rfl | (split <;> try dsimp only) | (intro _; intros; try dsimp only)

theorem execNightExitComplete_kept (s : State) (t : State) (h : execNightExitComplete s = .next t) : Kept s t := by
  unfold execNightExitComplete at h
  injection h with h
  rw [← h]
  try dsimp only
  repeat' first | with_reducible exact Kept.refl _ | with_reducible assumption | with_reducible apply setDomain_kept | with_reducible apply modStack_kept | with_reducible apply startTimers_kept | with_reducible apply wakeNotice_kept | with_reducible apply restoreTies_kept | with_reducible apply noteUnreached_kept | with_reducible apply delayTests_kept | with_reducible apply reevaluate_kept | with_reducible apply resumePlan_kept | with_reducible apply setSync_kept | with_reducible apply event_kept | with_reducible apply wr_kept | with_reducible apply wrB_kept | with_reducible apply releaseCores_kept | with_reducible apply Kept.ite | (with_reducible apply Kept.iteSnd <;> dsimp only) | with_reducible apply Kept.foldl | fail_if_no_progress refine Kept.upd ?_ rfl rfl rfl rfl rfl rfl rfl rfl rfl | (split <;> try dsimp only) | (intro _; intros; try dsimp only)

theorem execNop_kept (brick : Nat) (s : State) (t : State) (h : execNop brick s = .next t) : Kept s t := by
  unfold execNop at h
  injection h with h
  rw [← h]
  try dsimp only
  repeat' first | with_reducible exact Kept.refl _ | with_reducible assumption | with_reducible apply addCycles_kept | with_reducible apply goOn_kept | with_reducible apply Kept.ite | (with_reducible apply Kept.iteSnd <;> dsimp only) | with_reducible apply Kept.foldl | fail_if_no_progress refine Kept.upd ?_ rfl rfl rfl rfl rfl rfl rfl rfl rfl | (split <;> try dsimp only) | (intro _; intros; try dsimp only)

theorem execHalt_kept (brick : Nat) (s : State) (t : State) (h : execHalt brick s = .next t) : Kept s t := by
  unfold execHalt at h
  injection h with h
  rw [← h]
  try dsimp only
  repeat' first | with_reducible exact Kept.refl _ | with_reducible assumption | with_reducible apply tryPark_kept | with_reducible apply settleBarrier_kept | with_reducible apply setRole_kept | with_reducible apply Kept.ite | (with_reducible apply Kept.iteSnd <;> dsimp only) | with_reducible apply Kept.foldl | fail_if_no_progress refine Kept.upd ?_ rfl rfl rfl rfl rfl rfl rfl rfl rfl | (split <;> try dsimp only) | (intro _; intros; try dsimp only)

theorem execJump_kept (brick : Nat) (s : State) (t : State) (h : execJump brick s = .next t) : Kept s t := by
  unfold execJump at h
  injection h with h
  rw [← h]
  try dsimp only
  repeat' first | with_reducible exact Kept.refl _ | with_reducible assumption | with_reducible apply setRole_kept | with_reducible apply Kept.ite | (with_reducible apply Kept.iteSnd <;> dsimp only) | with_reducible apply Kept.foldl | fail_if_no_progress refine Kept.upd ?_ rfl rfl rfl rfl rfl rfl rfl rfl rfl | (split <;> try dsimp only) | (intro _; intros; try dsimp only)

theorem execLoop_kept (brick : Nat) (s : State) (t : State) (h : execLoop brick s = .next t) : Kept s t := by
  unfold execLoop at h
  injection h with h
  rw [← h]
  try dsimp only
  repeat' first | with_reducible exact Kept.refl _ | with_reducible assumption | with_reducible apply setRole_kept | with_reducible apply Kept.ite | (with_reducible apply Kept.iteSnd <;> dsimp only) | with_reducible apply Kept.foldl | fail_if_no_progress refine Kept.upd ?_ rfl rfl rfl rfl rfl rfl rfl rfl rfl | (split <;> try dsimp only) | (intro _; intros; try dsimp only)

theorem execLoopp_kept (brick : Nat) (s : State) (t : State) (h : execLoopp brick s = .next t) : Kept s t := by
  unfold execLoopp at h
  injection h with h
  rw [← h]
  try dsimp only
  repeat' first | with_reducible exact Kept.refl _ | with_reducible assumption | with_reducible apply setRole_kept | with_reducible apply Kept.ite | (with_reducible apply Kept.iteSnd <;> dsimp only) | with_reducible apply Kept.foldl | fail_if_no_progress refine Kept.upd ?_ rfl rfl rfl rfl rfl rfl rfl rfl rfl | (split <;> try dsimp only) | (intro _; intros; try dsimp only)

theorem execPpoint_kept (brick : Nat) (s : State) (t : State) (h : execPpoint brick s = .next t) : Kept s t := by
  unfold execPpoint at h
  injection h with h
  rw [← h]
  try dsimp only
  repeat' first | with_reducible exact Kept.refl _ | with_reducible assumption | with_reducible apply tryPark_kept | with_reducible apply setRole_kept | with_reducible apply goOn_kept | with_reducible apply Kept.ite | (with_reducible apply Kept.iteSnd <;> dsimp only) | with_reducible apply Kept.foldl | fail_if_no_progress refine Kept.upd ?_ rfl rfl rfl rfl rfl rfl rfl rfl rfl | (split <;> try dsimp only) | (intro _; intros; try dsimp only)

theorem execWait_kept (brick : Nat) (s : State) (t : State) (h : execWait brick s = .next t) : Kept s t := by
  unfold execWait at h
  injection h with h
  rw [← h]
  try dsimp only
  repeat' first | with_reducible exact Kept.refl _ | with_reducible assumption | with_reducible apply addCycles_kept | with_reducible apply goOn_kept | with_reducible apply Kept.ite | (with_reducible apply Kept.iteSnd <;> dsimp only) | with_reducible apply Kept.foldl | fail_if_no_progress refine Kept.upd ?_ rfl rfl rfl rfl rfl rfl rfl rfl rfl | (split <;> try dsimp only) | (intro _; intros; try dsimp only)

theorem execNsig_kept (brick : Nat) (s : State) (t : State) (h : execNsig brick s = .next t) : Kept s t := by
  unfold execNsig at h
  injection h with h
  rw [← h]
  try dsimp only
  repeat' first | with_reducible exact Kept.refl _ | with_reducible assumption | with_reducible apply setRole_kept | with_reducible apply goOn_kept | with_reducible apply Kept.ite | (with_reducible apply Kept.iteSnd <;> dsimp only) | with_reducible apply Kept.foldl | fail_if_no_progress refine Kept.upd ?_ rfl rfl rfl rfl rfl rfl rfl rfl rfl | (split <;> try dsimp only) | (intro _; intros; try dsimp only)

theorem execNwait_kept (brick : Nat) (s : State) (t : State) (h : execNwait brick s = .next t) : Kept s t := by
  unfold execNwait at h
  injection h with h
  rw [← h]
  try dsimp only
  repeat' first | with_reducible exact Kept.refl _ | with_reducible assumption | with_reducible apply goOn_kept | with_reducible apply setRole_kept | with_reducible apply Kept.ite | (with_reducible apply Kept.iteSnd <;> dsimp only) | with_reducible apply Kept.foldl | fail_if_no_progress refine Kept.upd ?_ rfl rfl rfl rfl rfl rfl rfl rfl rfl | (split <;> try dsimp only) | (intro _; intros; try dsimp only)

theorem execTsig_kept (brick : Nat) (s : State) (t : State) (h : execTsig brick s = .next t) : Kept s t := by
  unfold execTsig at h
  injection h with h
  rw [← h]
  try dsimp only
  repeat' first | with_reducible exact Kept.refl _ | with_reducible assumption | with_reducible apply tieStep_kept | with_reducible apply goOn_kept | with_reducible apply issueTie_kept | with_reducible apply Kept.ite | (with_reducible apply Kept.iteSnd <;> dsimp only) | with_reducible apply Kept.foldl | fail_if_no_progress refine Kept.upd ?_ rfl rfl rfl rfl rfl rfl rfl rfl rfl | (split <;> try dsimp only) | (intro _; intros; try dsimp only)

theorem execTwaitge_kept (brick : Nat) (s : State) (t : State) (h : execTwaitge brick s = .next t) : Kept s t := by
  unfold execTwaitge at h
  injection h with h
  rw [← h]
  try dsimp only
  repeat' first | with_reducible exact Kept.refl _ | with_reducible assumption | with_reducible apply waitStep_kept | with_reducible apply Kept.ite | (with_reducible apply Kept.iteSnd <;> dsimp only) | with_reducible apply Kept.foldl | fail_if_no_progress refine Kept.upd ?_ rfl rfl rfl rfl rfl rfl rfl rfl rfl | (split <;> try dsimp only) | (intro _; intros; try dsimp only)

theorem execTwaiteq_kept (brick : Nat) (s : State) (t : State) (h : execTwaiteq brick s = .next t) : Kept s t := by
  unfold execTwaiteq at h
  injection h with h
  rw [← h]
  try dsimp only
  repeat' first | with_reducible exact Kept.refl _ | with_reducible assumption | with_reducible apply waitStep_kept | with_reducible apply Kept.ite | (with_reducible apply Kept.iteSnd <;> dsimp only) | with_reducible apply Kept.foldl | fail_if_no_progress refine Kept.upd ?_ rfl rfl rfl rfl rfl rfl rfl rfl rfl | (split <;> try dsimp only) | (intro _; intros; try dsimp only)

theorem execBarrier_kept (brick : Nat) (s : State) (t : State) (h : execBarrier brick s = .next t) : Kept s t := by
  unfold execBarrier at h
  injection h with h
  rw [← h]
  try dsimp only
  repeat' first | with_reducible exact Kept.refl _ | with_reducible assumption | with_reducible apply settleBarrier_kept | with_reducible apply setRole_kept | with_reducible apply Kept.ite | (with_reducible apply Kept.iteSnd <;> dsimp only) | with_reducible apply Kept.foldl | fail_if_no_progress refine Kept.upd ?_ rfl rfl rfl rfl rfl rfl rfl rfl rfl | (split <;> try dsimp only) | (intro _; intros; try dsimp only)

theorem execBase_kept (brick : Nat) (s : State) (t : State) (h : execBase brick s = .next t) : Kept s t := by
  unfold execBase at h
  injection h with h
  rw [← h]
  try dsimp only
  repeat' first | with_reducible exact Kept.refl _ | with_reducible assumption | with_reducible apply agenStep_kept | with_reducible apply Kept.ite | (with_reducible apply Kept.iteSnd <;> dsimp only) | with_reducible apply Kept.foldl | fail_if_no_progress refine Kept.upd ?_ rfl rfl rfl rfl rfl rfl rfl rfl rfl | (split <;> try dsimp only) | (intro _; intros; try dsimp only)

theorem execStride_kept (brick : Nat) (s : State) (t : State) (h : execStride brick s = .next t) : Kept s t := by
  unfold execStride at h
  injection h with h
  rw [← h]
  try dsimp only
  repeat' first | with_reducible exact Kept.refl _ | with_reducible assumption | with_reducible apply agenStep_kept | with_reducible apply Kept.ite | (with_reducible apply Kept.iteSnd <;> dsimp only) | with_reducible apply Kept.foldl | fail_if_no_progress refine Kept.upd ?_ rfl rfl rfl rfl rfl rfl rfl rfl rfl | (split <;> try dsimp only) | (intro _; intros; try dsimp only)

theorem execCount_kept (brick : Nat) (s : State) (t : State) (h : execCount brick s = .next t) : Kept s t := by
  unfold execCount at h
  injection h with h
  rw [← h]
  try dsimp only
  repeat' first | with_reducible exact Kept.refl _ | with_reducible assumption | with_reducible apply agenStep_kept | with_reducible apply Kept.ite | (with_reducible apply Kept.iteSnd <;> dsimp only) | with_reducible apply Kept.foldl | fail_if_no_progress refine Kept.upd ?_ rfl rfl rfl rfl rfl rfl rfl rfl rfl | (split <;> try dsimp only) | (intro _; intros; try dsimp only)

theorem execBasep_kept (brick : Nat) (s : State) (t : State) (h : execBasep brick s = .next t) : Kept s t := by
  unfold execBasep at h
  injection h with h
  rw [← h]
  try dsimp only
  repeat' first | with_reducible exact Kept.refl _ | with_reducible assumption | with_reducible apply boundsFault_kept | with_reducible apply agenStep_kept | with_reducible apply Kept.ite | (with_reducible apply Kept.iteSnd <;> dsimp only) | with_reducible apply Kept.foldl | fail_if_no_progress refine Kept.upd ?_ rfl rfl rfl rfl rfl rfl rfl rfl rfl | (split <;> try dsimp only) | (intro _; intros; try dsimp only)

theorem execTrowelFetchLaunch_kept (course : Nat) (s : State) (t : State) (h : execTrowelFetchLaunch course s = .next t) : Kept s t := by
  unfold execTrowelFetchLaunch at h
  injection h with h
  rw [← h]
  try dsimp only
  repeat' first | with_reducible exact Kept.refl _ | with_reducible assumption | with_reducible apply restartWdog_kept | with_reducible apply modCourse_kept | with_reducible apply refuseInst_kept | with_reducible apply takeLaunch_kept | with_reducible apply Kept.ite | (with_reducible apply Kept.iteSnd <;> dsimp only) | with_reducible apply Kept.foldl | fail_if_no_progress refine Kept.upd ?_ rfl rfl rfl rfl rfl rfl rfl rfl rfl | (split <;> try dsimp only) | (intro _; intros; try dsimp only)

theorem execLaunchStage_kept (course : Nat) (s : State) (t : State) (h : execLaunchStage course s = .next t) : Kept s t := by
  unfold execLaunchStage at h
  injection h with h
  rw [← h]
  try dsimp only
  repeat' first | with_reducible exact Kept.refl _ | with_reducible assumption | with_reducible apply tryStage_kept | with_reducible apply Kept.ite | (with_reducible apply Kept.iteSnd <;> dsimp only) | with_reducible apply Kept.foldl | fail_if_no_progress refine Kept.upd ?_ rfl rfl rfl rfl rfl rfl rfl rfl rfl | (split <;> try dsimp only) | (intro _; intros; try dsimp only)

theorem execStagingComplete_kept (launch : Nat) (course : Nat) (s : State) (t : State) (h : execStagingComplete launch course s = .next t) : Kept s t := by
  unfold execStagingComplete at h
  injection h with h
  rw [← h]
  try dsimp only
  repeat' first | with_reducible exact Kept.refl _ | with_reducible assumption | with_reducible apply loadImage_kept | with_reducible apply modInst_kept | with_reducible apply modLaunch_kept | with_reducible apply refuseInst_kept | with_reducible apply Kept.ite | (with_reducible apply Kept.iteSnd <;> dsimp only) | with_reducible apply Kept.foldl | fail_if_no_progress refine Kept.upd ?_ rfl rfl rfl rfl rfl rfl rfl rfl rfl | (split <;> try dsimp only) | (intro _; intros; try dsimp only)

theorem execBondActivate_kept (launch : Nat) (course : Nat) (s : State) (t : State) (h : execBondActivate launch course s = .next t) : Kept s t := by
  unfold execBondActivate at h
  injection h with h
  rw [← h]
  try dsimp only
  repeat' first | with_reducible exact Kept.refl _ | with_reducible assumption | with_reducible apply activate_kept | with_reducible apply Kept.ite | (with_reducible apply Kept.iteSnd <;> dsimp only) | with_reducible apply Kept.foldl | fail_if_no_progress refine Kept.upd ?_ rfl rfl rfl rfl rfl rfl rfl rfl rfl | (split <;> try dsimp only) | (intro _; intros; try dsimp only)

theorem execInstanceComplete_kept (launch : Nat) (course : Nat) (s : State) (t : State) (h : execInstanceComplete launch course s = .next t) : Kept s t := by
  unfold execInstanceComplete at h
  injection h with h
  rw [← h]
  try dsimp only
  repeat' first | with_reducible exact Kept.refl _ | with_reducible assumption | with_reducible apply refreshCourse_kept | with_reducible apply restartWdog_kept | with_reducible apply modInst_kept | with_reducible apply completeLaunch_kept | with_reducible apply Kept.ite | (with_reducible apply Kept.iteSnd <;> dsimp only) | with_reducible apply Kept.foldl | fail_if_no_progress refine Kept.upd ?_ rfl rfl rfl rfl rfl rfl rfl rfl rfl | (split <;> try dsimp only) | (intro _; intros; try dsimp only)

theorem execWcetExceeded_kept (launch : Nat) (course : Nat) (s : State) (t : State) (h : execWcetExceeded launch course s = .next t) : Kept s t := by
  unfold execWcetExceeded at h
  injection h with h
  rw [← h]
  try dsimp only
  repeat' first | with_reducible exact Kept.refl _ | with_reducible assumption | with_reducible apply faultInst_kept | with_reducible apply Kept.ite | (with_reducible apply Kept.iteSnd <;> dsimp only) | with_reducible apply Kept.foldl | fail_if_no_progress refine Kept.upd ?_ rfl rfl rfl rfl rfl rfl rfl rfl rfl | (split <;> try dsimp only) | (intro _; intros; try dsimp only)

theorem execCourseWatchdogExpiry_kept (course : Nat) (s : State) (t : State) (h : execCourseWatchdogExpiry course s = .next t) : Kept s t := by
  unfold execCourseWatchdogExpiry at h
  injection h with h
  rw [← h]
  try dsimp only
  repeat' first | with_reducible exact Kept.refl _ | with_reducible assumption | with_reducible apply modCourse_kept | with_reducible apply passTo_kept | with_reducible apply event_kept | with_reducible apply teardown_kept | with_reducible apply Kept.ite | (with_reducible apply Kept.iteSnd <;> dsimp only) | with_reducible apply Kept.foldl | fail_if_no_progress refine Kept.upd ?_ rfl rfl rfl rfl rfl rfl rfl rfl rfl | (split <;> try dsimp only) | (intro _; intros; try dsimp only)

theorem execTrowelHeartbeat_kept (course : Nat) (s : State) (t : State) (h : execTrowelHeartbeat course s = .next t) : Kept s t := by
  unfold execTrowelHeartbeat at h
  injection h with h
  rw [← h]
  try dsimp only
  repeat' first | with_reducible exact Kept.refl _ | with_reducible assumption | with_reducible apply heardAt_kept | with_reducible apply send_kept | with_reducible apply Kept.ite | (with_reducible apply Kept.iteSnd <;> dsimp only) | with_reducible apply Kept.foldl | fail_if_no_progress refine Kept.upd ?_ rfl rfl rfl rfl rfl rfl rfl rfl rfl | (split <;> try dsimp only) | (intro _; intros; try dsimp only)

theorem execInstanceResume_kept (launch : Nat) (s : State) (t : State) (h : execInstanceResume launch s = .next t) : Kept s t := by
  unfold execInstanceResume at h
  injection h with h
  rw [← h]
  try dsimp only
  repeat' first | with_reducible exact Kept.refl _ | with_reducible assumption | with_reducible apply stopLaunch_kept | with_reducible apply resumeInst_kept | with_reducible apply Kept.ite | (with_reducible apply Kept.iteSnd <;> dsimp only) | with_reducible apply Kept.foldl | fail_if_no_progress refine Kept.upd ?_ rfl rfl rfl rfl rfl rfl rfl rfl rfl | (split <;> try dsimp only) | (intro _; intros; try dsimp only)

theorem execNeighbourLinkFailure_kept (course : Nat) (link : Nat) (s : State) (t : State) (h : execNeighbourLinkFailure course link s = .next t) : Kept s t := by
  unfold execNeighbourLinkFailure at h
  injection h with h
  rw [← h]
  try dsimp only
  repeat' first | with_reducible exact Kept.refl _ | with_reducible assumption | with_reducible apply fenceLink_kept | with_reducible apply faultInst_kept | with_reducible apply Kept.ite | (with_reducible apply Kept.iteSnd <;> dsimp only) | with_reducible apply Kept.foldl | fail_if_no_progress refine Kept.upd ?_ rfl rfl rfl rfl rfl rfl rfl rfl rfl | (split <;> try dsimp only) | (intro _; intros; try dsimp only)

end Sys2Proof.Machine
end

