-- ==== Sys2Proof/Laws/KeptAll.lean ====
section
/-! SUPPORT. What every command keeps, said once over all of them. -/

namespace Sys2Proof.Machine

/-- Whatever command runs, where it answers a next state all is kept, but for the silence that DAWN_COMPLETE may end. -/
theorem exec_kept (c : Instr) (s t : State) (h : exec c s = .next t) :
    Kept s t ∨ ∃ r, c = .dawnComplete r ∧ Woken s t := by
  cases c with
  | dialSyncMessage _ => exact .inl (execDialSyncMessage_kept _ _ _ h)
  | dialHoldover => exact .inl (execDialHoldover_kept _ _ h)
  | nightwatchTick => exact .inl (execNightwatchTick_kept _ _ h)
  | dialNowRead _ _ _ => exact .inl (execDialNowRead_kept _ _ _ _ _ h)
  | nwtCommit _ => exact .inl (execNwtCommit_kept _ _ _ h)
  | pcieLinkUp => exact .inl (execPcieLinkUp_kept _ _ h)
  | pcieLinkDown => exact .inl (execPcieLinkDown_kept _ _ h)
  | perstAssert _ => exact .inl (execPerstAssert_kept _ _ _ h)
  | nop _ => exact .inl (execNop_kept _ _ _ h)
  | halt _ => exact .inl (execHalt_kept _ _ _ h)
  | jump _ => exact .inl (execJump_kept _ _ _ h)
  | loop _ => exact .inl (execLoop_kept _ _ _ h)
  | loopp _ => exact .inl (execLoopp_kept _ _ _ h)
  | ppoint _ => exact .inl (execPpoint_kept _ _ _ h)
  | wait _ => exact .inl (execWait_kept _ _ _ h)
  | mma _ _ => exact .inl (execMma_kept _ _ _ _ h)
  | drain _ => exact .inl (execDrain_kept _ _ _ h)
  | unary _ _ => exact .inl (execUnary_kept _ _ _ _ h)
  | binary _ _ => exact .inl (execBinary_kept _ _ _ _ h)
  | reduce _ _ => exact .inl (execReduce_kept _ _ _ _ h)
  | convert _ _ => exact .inl (execConvert_kept _ _ _ _ h)
  | copy _ _ => exact .inl (execCopy_kept _ _ _ _ h)
  | copyg _ _ => exact .inl (execCopyg_kept _ _ _ _ h)
  | quant _ _ => exact .inl (execQuant_kept _ _ _ _ h)
  | nsig _ => exact .inl (execNsig_kept _ _ _ h)
  | nwait _ => exact .inl (execNwait_kept _ _ _ h)
  | tsig _ => exact .inl (execTsig_kept _ _ _ h)
  | twaitge _ => exact .inl (execTwaitge_kept _ _ _ h)
  | twaiteq _ => exact .inl (execTwaiteq_kept _ _ _ h)
  | barrier _ => exact .inl (execBarrier_kept _ _ _ h)
  | groutchk _ => exact .inl (execGroutchk_kept _ _ _ h)
  | base _ => exact .inl (execBase_kept _ _ _ h)
  | stride _ => exact .inl (execStride_kept _ _ _ h)
  | count _ => exact .inl (execCount_kept _ _ _ h)
  | basep _ => exact .inl (execBasep_kept _ _ _ h)
  | trowelFetchLaunch _ => exact .inl (execTrowelFetchLaunch_kept _ _ _ h)
  | launchStage _ => exact .inl (execLaunchStage_kept _ _ _ h)
  | stagingComplete _ _ => exact .inl (execStagingComplete_kept _ _ _ _ h)
  | bondActivate _ _ => exact .inl (execBondActivate_kept _ _ _ _ h)
  | instanceComplete _ _ => exact .inl (execInstanceComplete_kept _ _ _ _ h)
  | wcetExceeded _ _ => exact .inl (execWcetExceeded_kept _ _ _ _ h)
  | courseWatchdogExpiry _ => exact .inl (execCourseWatchdogExpiry_kept _ _ _ h)
  | trowelHeartbeat _ => exact .inl (execTrowelHeartbeat_kept _ _ _ h)
  | instanceResume _ => exact .inl (execInstanceResume_kept _ _ _ h)
  | neighbourLinkFailure _ _ => exact .inl (execNeighbourLinkFailure_kept _ _ _ _ h)
  | trwCommit _ _ => exact .inl (execTrwCommit_kept _ _ _ _ h)
  | rcCounterRead _ _ _ => exact .inl (execRcCounterRead_kept _ _ _ _ _ h)
  | registerWrite _ _ _ _ => exact .inl (execRegisterWrite_kept _ _ _ _ _ _ h)
  | sieveJobAccept => exact .inl (execSieveJobAccept_kept _ _ h)
  | sieveJobStart => exact .inl (execSieveJobStart_kept _ _ h)
  | sieveJobComplete => exact .inl (execSieveJobComplete_kept _ _ h)
  | sieveInternalFault => exact .inl (execSieveInternalFault_kept _ _ h)
  | dayCommit _ => exact .inl (execDayCommit_kept _ _ _ h)
  | dayCommitComplete => exact .inl (execDayCommitComplete_kept _ _ h)
  | planTakeover => exact .inl (execPlanTakeover_kept _ _ h)
  | periodBoundary => exact .inl (execPeriodBoundary_kept _ _ h)
  | watchEnd _ => exact .inl (execWatchEnd_kept _ _ _ h)
  | switchComplete _ => exact .inl (execSwitchComplete_kept _ _ _ h)
  | watchStart _ _ => exact .inl (execWatchStart_kept _ _ _ _ h)
  | watchOverrunExpiry _ => exact .inl (execWatchOverrunExpiry_kept _ _ _ h)
  | brickTestComplete _ _ _ _ => exact .inl (execBrickTestComplete_kept _ _ _ _ _ _ h)
  | brickTestOverdue _ => exact .inl (execBrickTestOverdue_kept _ _ _ h)
  | teardownScrubComplete _ => exact .inl (execTeardownScrubComplete_kept _ _ _ h)
  | doorbellWrite _ _ => exact .inl (execDoorbellWrite_kept _ _ _ _ h)
  | doorbellPoll _ _ => exact .inl (execDoorbellPoll_kept _ _ _ _ h)
  | launch _ _ => exact .inl (execLaunch_kept _ _ _ _ h)
  | sieve _ _ => exact .inl (execSieve_kept _ _ _ _ h)
  | fence _ _ => exact .inl (execFence_kept _ _ _ _ h)
  | fenceRelease _ _ => exact .inl (execFenceRelease_kept _ _ _ _ h)
  | tieSignal _ _ => exact .inl (execTieSignal_kept _ _ _ _ h)
  | tieWait _ _ => exact .inl (execTieWait_kept _ _ _ _ h)
  | tieReset _ _ => exact .inl (execTieReset_kept _ _ _ _ h)
  | bondRegister _ _ => exact .inl (execBondRegister_kept _ _ _ _ h)
  | bondRegisterComplete _ _ => exact .inl (execBondRegisterComplete_kept _ _ _ _ h)
  | bondRelease _ _ => exact .inl (execBondRelease_kept _ _ _ _ h)
  | bondReleaseComplete _ _ => exact .inl (execBondReleaseComplete_kept _ _ _ _ h)
  | tieOperation _ _ => exact .inl (execTieOperation_kept _ _ _ _ h)
  | tieRelease _ _ => exact .inl (execTieRelease_kept _ _ _ _ h)
  | tieWaitTimeout _ => exact .inl (execTieWaitTimeout_kept _ _ _ h)
  | ringRestart _ _ => exact .inl (execRingRestart_kept _ _ _ _ h)
  | contextTeardownRequest _ => exact .inl (execContextTeardownRequest_kept _ _ _ h)
  | contextOpen _ _ => exact .inl (execContextOpen_kept _ _ _ _ h)
  | contextClose _ _ => exact .inl (execContextClose_kept _ _ _ _ h)
  | hstCommit _ => exact .inl (execHstCommit_kept _ _ _ h)
  | memoryRead _ _ _ _ _ => exact .inl (execMemoryRead_kept _ _ _ _ _ _ _ h)
  | memoryWrite _ _ _ _ _ => exact .inl (execMemoryWrite_kept _ _ _ _ _ _ _ h)
  | writeQueueDrain _ _ => exact .inl (execWriteQueueDrain_kept _ _ _ _ h)
  | patrolScrub _ _ => exact .inl (execPatrolScrub_kept _ _ _ _ h)
  | refresh _ _ _ => exact .inl (execRefresh_kept _ _ _ _ _ h)
  | retrainRoundStart _ => exact .inl (execRetrainRoundStart_kept _ _ _ h)
  | retrainPairDone _ _ _ => exact .inl (execRetrainPairDone_kept _ _ _ _ _ h)
  | stackTempRead _ _ => exact .inl (execStackTempRead_kept _ _ _ _ h)
  | hbmMapCommit _ => exact .inl (execHbmMapCommit_kept _ _ _ h)
  | mapCommitComplete => exact .inl (execMapCommitComplete_kept _ _ h)
  | hbmShareCommit _ => exact .inl (execHbmShareCommit_kept _ _ _ h)
  | plbCommit _ => exact .inl (execPlbCommit_kept _ _ _ h)
  | hbmCommit _ _ => exact .inl (execHbmCommit_kept _ _ _ _ h)
  | flitReceive _ _ _ _ _ _ => exact .inl (execFlitReceive_kept _ _ _ _ _ _ _ _ h)
  | replayRequest _ _ _ => exact .inl (execReplayRequest_kept _ _ _ _ _ h)
  | laneRepairMessage _ _ _ _ _ _ => exact .inl (execLaneRepairMessage_kept _ _ _ _ _ _ _ _ h)
  | portRetrain _ _ => exact .inl (execPortRetrain_kept _ _ _ _ h)
  | trainingProposal _ _ _ _ _ _ _ => exact .inl (execTrainingProposal_kept _ _ _ _ _ _ _ _ _ h)
  | framingCheckEnd _ _ _ => exact .inl (execFramingCheckEnd_kept _ _ _ _ _ h)
  | trainingReady _ _ _ _ => exact .inl (execTrainingReady_kept _ _ _ _ _ _ h)
  | sidebandSilent _ _ _ => exact .inl (execSidebandSilent_kept _ _ _ _ _ h)
  | mtrLoopbackCommit _ _ => exact .inl (execMtrLoopbackCommit_kept _ _ _ _ h)
  | loopbackTestEnd _ _ _ => exact .inl (execLoopbackTestEnd_kept _ _ _ _ _ h)
  | mtrCommit _ _ => exact .inl (execMtrCommit_kept _ _ _ _ h)
  | budgetGrantPeriod => exact .inl (execBudgetGrantPeriod_kept _ _ h)
  | budgetGrant _ => exact .inl (execBudgetGrant_kept _ _ _ h)
  | budgetReport _ => exact .inl (execBudgetReport_kept _ _ _ h)
  | grantTimeout _ => exact .inl (execGrantTimeout_kept _ _ _ h)
  | reportTimeout _ => exact .inl (execReportTimeout_kept _ _ _ h)
  | powerAgentSample _ _ _ _ => exact .inl (execPowerAgentSample_kept _ _ _ _ _ _ h)
  | csiPacket _ _ _ _ _ _ => exact .inl (execCsiPacket_kept _ _ _ _ _ _ _ _ h)
  | frameStart _ _ _ => exact .inl (execFrameStart_kept _ _ _ _ _ h)
  | frameEnd _ _ _ => exact .inl (execFrameEnd_kept _ _ _ _ _ h)
  | framePublish _ => exact .inl (execFramePublish_kept _ _ _ h)
  | frameStale _ => exact .inl (execFrameStale_kept _ _ _ h)
  | sensorSilent _ => exact .inl (execSensorSilent_kept _ _ _ h)
  | camStreamCommit _ _ => exact .inl (execCamStreamCommit_kept _ _ _ _ h)
  | camMacCommit _ _ => exact .inl (execCamMacCommit_kept _ _ _ _ h)
  | ethFrameReceive _ _ _ => exact .inl (execEthFrameReceive_kept _ _ _ _ _ h)
  | ethFrameTransmit _ => exact .inl (execEthFrameTransmit_kept _ _ _ h)
  | batchSweepTimeout _ => exact .inl (execBatchSweepTimeout_kept _ _ _ h)
  | decStreamCommit _ _ => exact .inl (execDecStreamCommit_kept _ _ _ _ h)
  | decSamplerCommit _ _ => exact .inl (execDecSamplerCommit_kept _ _ _ _ h)
  | chunkDoorbell _ => exact .inl (execChunkDoorbell_kept _ _ _ h)
  | sliceComplete _ _ => exact .inl (execSliceComplete_kept _ _ _ _ h)
  | decodeBudgetExpiry _ => exact .inl (execDecodeBudgetExpiry_kept _ _ _ h)
  | manifestWrite _ => exact .inl (execManifestWrite_kept _ _ _ h)
  | merCommit _ => exact .inl (execMerCommit_kept _ _ _ h)
  | merInstall _ => exact .inl (execMerInstall_kept _ _ _ h)
  | cycleClose => exact .inl (execCycleClose_kept _ _ h)
  | fusionOutputComplete => exact .inl (execFusionOutputComplete_kept _ _ h)
  | trackerStart => exact .inl (execTrackerStart_kept _ _ h)
  | trackOutputComplete => exact .inl (execTrackOutputComplete_kept _ _ h)
  | calibrationAnswer _ => exact .inl (execCalibrationAnswer_kept _ _ _ h)
  | proposalTimeout _ => exact .inl (execProposalTimeout_kept _ _ _ h)
  | meridianHeartbeat => exact .inl (execMeridianHeartbeat_kept _ _ h)
  | meridianInternalFault => exact .inl (execMeridianInternalFault_kept _ _ h)
  | replayOutcome _ _ _ => exact .inl (execReplayOutcome_kept _ _ _ _ _ h)
  | packInstall _ => exact .inl (execPackInstall_kept _ _ _ h)
  | packRemove _ => exact .inl (execPackRemove_kept _ _ _ h)
  | packCommitComplete => exact .inl (execPackCommitComplete_kept _ _ h)
  | fabCtxCommit _ _ => exact .inl (execFabCtxCommit_kept _ _ _ _ h)
  | railSample _ _ _ => exact .inl (execRailSample_kept _ _ _ _ _ h)
  | pllCheckWindow _ _ _ _ => exact .inl (execPllCheckWindow_kept _ _ _ _ _ _ h)
  | junctionRead _ _ _ => exact .inl (execJunctionRead_kept _ _ _ _ _ h)
  | heartbeatTimeout _ _ => exact .inl (execHeartbeatTimeout_kept _ _ _ _ h)
  | islandHeartbeat _ => exact .inl (execIslandHeartbeat_kept _ _ _ h)
  | hearthHeartbeat => exact .inl (execHearthHeartbeat_kept _ _ h)
  | islandLinkLost _ _ _ => exact .inl (execIslandLinkLost_kept _ _ _ _ _ h)
  | forwardedEvent _ => exact .inl (execForwardedEvent_kept _ _ _ h)
  | safeStateMessage _ => exact .inl (execSafeStateMessage_kept _ _ _ h)
  | silentCommand _ => exact .inl (execSilentCommand_kept _ _ _ h)
  | islandSelfReset _ _ => exact .inl (execIslandSelfReset_kept _ _ _ _ h)
  | islandRestartComplete _ _ => exact .inl (execIslandRestartComplete_kept _ _ _ _ h)
  | ssOutputPhase _ => exact .inl (execSsOutputPhase_kept _ _ _ h)
  | mailboxDegraded _ _ => exact .inl (execMailboxDegraded_kept _ _ _ _ h)
  | mailboxSilent _ _ => exact .inl (execMailboxSilent_kept _ _ _ _ h)
  | calibrationProposal _ => exact .inl (execCalibrationProposal_kept _ _ _ h)
  | installationProposal _ => exact .inl (execInstallationProposal_kept _ _ _ h)
  | ouvurHeartbeatSend => exact .inl (execOuvurHeartbeatSend_kept _ _ h)
  | ouvurHeartbeat _ _ _ _ _ => exact .inl (execOuvurHeartbeat_kept _ _ _ _ _ _ _ h)
  | heartbeatMissInterval _ => exact .inl (execHeartbeatMissInterval_kept _ _ _ h)
  | suspicionReport _ _ _ _ _ => exact .inl (execSuspicionReport_kept _ _ _ _ _ _ _ h)
  | settleWindowEnd => exact .inl (execSettleWindowEnd_kept _ _ h)
  | ouvurProposal _ _ _ _ _ => exact .inl (execOuvurProposal_kept _ _ _ _ _ _ _ h)
  | acknowledgement _ _ _ _ _ => exact .inl (execAcknowledgement_kept _ _ _ _ _ _ _ h)
  | ouvurCommit _ _ _ _ _ => exact .inl (execOuvurCommit_kept _ _ _ _ _ _ _ h)
  | exclusionNotice _ _ => exact .inl (execExclusionNotice_kept _ _ _ _ h)
  | noQuorumTimeout => exact .inl (execNoQuorumTimeout_kept _ _ h)
  | rejoinReady => exact .inl (execRejoinReady_kept _ _ h)
  | ouvurLinkRetrain _ _ _ => exact .inl (execOuvurLinkRetrain_kept _ _ _ _ _ h)
  | linkKeyRenewal _ _ _ => exact .inl (execLinkKeyRenewal_kept _ _ _ _ _ h)
  | ouvurData _ _ _ _ => exact .inl (execOuvurData_kept _ _ _ _ _ _ h)
  | ouvurReady _ _ _ _ _ => exact .inl (execOuvurReady_kept _ _ _ _ _ _ _ h)
  | allReduce _ => exact .inl (execAllReduce_kept _ _ _ h)
  | allGather _ => exact .inl (execAllGather_kept _ _ _ h)
  | broadcast _ => exact .inl (execBroadcast_kept _ _ _ h)
  | send _ => exact .inl (execSend_kept _ _ _ h)
  | receive _ => exact .inl (execReceive_kept _ _ _ h)
  | mirror _ => exact .inl (execMirror_kept _ _ _ h)
  | refill _ => exact .inl (execRefill_kept _ _ _ h)
  | transferTimeout _ => exact .inl (execTransferTimeout_kept _ _ _ h)
  | drillEnd => exact .inl (execDrillEnd_kept _ _ h)
  | ovrCommit _ => exact .inl (execOvrCommit_kept _ _ _ h)
  | ovrRejoin _ => exact .inl (execOvrRejoin_kept _ _ _ h)
  | ovrQCommit _ _ => exact .inl (execOvrQCommit_kept _ _ _ _ h)
  | courseRetain _ => exact .inl (execCourseRetain_kept _ _ _ h)
  | courseOff _ => exact .inl (execCourseOff_kept _ _ _ h)
  | courseWake _ => exact .inl (execCourseWake_kept _ _ _ h)
  | pwrCommit _ => exact .inl (execPwrCommit_kept _ _ _ h)
  | forecastPost _ => exact .inl (execForecastPost_kept _ _ _ h)
  | forecastStale => exact .inl (execForecastStale_kept _ _ h)
  | thermistorSample _ _ _ _ => exact .inl (execThermistorSample_kept _ _ _ _ _ _ h)
  | flowPulse _ _ => exact .inl (execFlowPulse_kept _ _ _ _ h)
  | flowMeasure => exact .inl (execFlowMeasure_kept _ _ h)
  | calorimetricCheck _ => exact .inl (execCalorimetricCheck_kept _ _ _ h)
  | coolReqUpdate => exact .inl (execCoolReqUpdate_kept _ _ h)
  | thermalTrip => exact .inl (execThermalTrip_kept _ _ h)
  | thermalTripRelease => exact .inl (execThermalTripRelease_kept _ _ h)
  | provisionInstallerSlot _ => exact .inl (execProvisionInstallerSlot_kept _ _ _ h)
  | revokeInstallerSlot _ => exact .inl (execRevokeInstallerSlot_kept _ _ _ h)
  | provisionOperatorSlot _ => exact .inl (execProvisionOperatorSlot_kept _ _ _ h)
  | revokeOperatorSlot _ => exact .inl (execRevokeOperatorSlot_kept _ _ _ h)
  | debugUnlock _ => exact .inl (execDebugUnlock_kept _ _ _ h)
  | debugHalfExpiry => exact .inl (execDebugHalfExpiry_kept _ _ h)
  | retestBricks _ => exact .inl (execRetestBricks_kept _ _ _ h)
  | drill _ => exact .inl (execDrill_kept _ _ _ h)
  | raiseFirmwareMinimum _ => exact .inl (execRaiseFirmwareMinimum_kept _ _ _ h)
  | raisePolicyMinimum _ => exact .inl (execRaisePolicyMinimum_kept _ _ _ h)
  | policyRegister _ => exact .inl (execPolicyRegister_kept _ _ _ h)
  | policyRelease _ => exact .inl (execPolicyRelease_kept _ _ _ h)
  | attestationReport _ => exact .inl (execAttestationReport_kept _ _ _ h)
  | copyRecord _ => exact .inl (execCopyRecord_kept _ _ _ h)
  | copyCertificateChain _ => exact .inl (execCopyCertificateChain_kept _ _ _ h)
  | recordWriteBack => exact .inl (execRecordWriteBack_kept _ _ h)
  | keystoneInternalFault => exact .inl (execKeystoneInternalFault_kept _ _ h)
  | pwrGoodRise _ _ => exact .inl (execPwrGoodRise_kept _ _ _ _ h)
  | pwrGoodFall _ => exact .inl (execPwrGoodFall_kept _ _ _ h)
  | warmRstFall _ => exact .inl (execWarmRstFall_kept _ _ _ h)
  | wakeNFall _ => exact .inl (execWakeNFall_kept _ _ _ h)
  | dialAlarm => exact .inl (execDialAlarm_kept _ _ h)
  | inputStuck _ => exact .inl (execInputStuck_kept _ _ _ h)
  | resetWarm _ => exact .inl (execResetWarm_kept _ _ _ h)
  | resetCold _ _ => exact .inl (execResetCold_kept _ _ _ _ h)
  | resetPartial _ => exact .inl (execResetPartial_kept _ _ _ h)
  | dawnComplete r => exact .inr ⟨r, rfl, execDawnComplete_woken _ _ _ h⟩
  | partialResetComplete _ _ => exact .inl (execPartialResetComplete_kept _ _ _ _ h)
  | night _ => exact .inl (execNight_kept _ _ _ h)
  | deepNight _ => exact .inl (execDeepNight_kept _ _ _ h)
  | nightEntryComplete => exact .inl (execNightEntryComplete_kept _ _ h)
  | nightExitComplete => exact .inl (execNightExitComplete_kept _ _ h)
  | nightwatchHeartbeat => exact .inl (execNightwatchHeartbeat_kept _ _ h)
  | nwtInputCommit _ => exact .inl (execNwtInputCommit_kept _ _ _ h)
  | retrainPairStart _ => exact .inl (execRetrainPairStart_kept _ _ _ h)
  | laneMeasurementComplete _ _ _ => exact .inl (execLaneMeasurementComplete_kept _ _ _ _ _ h)
  | framingLoss _ _ => exact .inl (execFramingLoss_kept _ _ _ _ h)
  | ouvurLinkDown _ => exact .inl (execOuvurLinkDown_kept _ _ _ h)
  | ouvurRetransmitRequest _ _ => exact .inl (execOuvurRetransmitRequest_kept _ _ _ _ h)
  | islandResetAssert _ => exact .inl (execIslandResetAssert_kept _ _ _ h)
  | islandResetRelease _ _ => exact .inl (execIslandResetRelease_kept _ _ _ _ h)
  | warmRstRise _ => exact .inl (execWarmRstRise_kept _ _ _ h)
  | nightwatchSupplyUp => exact .inl (execNightwatchSupplyUp_kept _ _ h)
  | nightwatchSupplyLoss => exact .inl (execNightwatchSupplyLoss_kept _ _ h)
  | perstDeassert _ => exact .inl (execPerstDeassert_kept _ _ _ h)
  | peerApproval _ => exact .inl (execPeerApproval_kept _ _ _ h)

end Sys2Proof.Machine
end

