-- ==== Sys2Proof/Laws/KeptStep.lean ====
section
/-! SUPPORT. What the operations of Machine/Step.lean keep (`Kept`). -/

set_option linter.unusedTactic false
set_option linter.unreachableTactic false

namespace Sys2Proof.Machine

open Reg

theorem idle_kept {base : State} (s : State) (hb : Kept base s) : Kept base (idle s) := by
  unfold idle
  split <;> first | exact hb | exact pass_kept hb

theorem State.withFetchWord_kept {base : State} (s : State) (nbits w : Nat) (hb : Kept base s) :
    Kept base (State.withFetchWord s nbits w) := by
  unfold State.withFetchWord
  try dsimp only
  repeat' first
    | with_reducible
      first
      | assumption
    | fail_if_no_progress refine Kept.upd ?_ rfl rfl rfl rfl rfl rfl rfl rfl rfl | (split <;> try dsimp only)

end Sys2Proof.Machine
end

