-- ==== Sys2Proof/Laws/Quiet.lean ====
section
/-! SUPPORT. Everything that a write to memory, an event or the stop of a ring can do, said once: `Quiet S s t` reads
"from s to t only memory's bytes and what is known of its lines, the event and stop counts of the rings, the messages
sent, the count of free values, and the registers whose keys satisfy S have changed". -/

namespace Sys2Proof.Machine

open Reg

/-- A change that leaves all but memory's bytes and lines, the rings' counts, what is sent, the count of free values, and some
registers. -/
structure Quiet (S : Nat → Prop) (s t : State) : Prop where
  rest : t = { s with regs := t.regs, mem := t.mem, rings := t.rings, out := t.out, forwards := t.forwards, fresh := t.fresh }
  regs : t.regs = { s.regs with live := t.regs.live }
  live : ∀ k d, ¬ S k → aget t.regs.live k d = aget s.regs.live k d
  mem : t.mem = { s.mem with cells := t.mem.cells, ext := t.mem.ext, lineKey := t.mem.lineKey, poison := t.mem.poison,
                             queue := t.mem.queue, tokens := t.mem.tokens, tokenAt := t.mem.tokenAt, symbols := t.mem.symbols,
                             stray := t.mem.stray, linkErr := t.mem.linkErr, found := t.mem.found }
  rings : t.rings = { s.rings with ctxs := t.rings.ctxs, devDropped := t.rings.devDropped, devSeq := t.rings.devSeq,
                                   dawnQueue := t.rings.dawnQueue, irqs := t.rings.irqs }

namespace Quiet

variable {S : Nat → Prop} {s t u : State}

protected theorem refl (s : State) : Quiet S s s := ⟨rfl, rfl, fun _ _ _ => rfl, rfl, rfl⟩

protected theorem trans (h : Quiet S s t) (g : Quiet S t u) : Quiet S s u where
  rest := by
    obtain ⟨h1, -, -, -, -⟩ := h
    obtain ⟨g1, -, -, -, -⟩ := g
    rw [g1, h1]
  regs := by
    have h1 := h.regs
    have g1 := g.regs
    rw [g1, h1]
  live := fun k d x => (g.live k d x).trans (h.live k d x)
  mem := by
    have h1 := h.mem
    have g1 := g.mem
    rw [g1, h1]
  rings := by
    have h1 := h.rings
    have g1 := g.rings
    rw [g1, h1]

theorem foldl {α : Type} (f : State → α → State) (l : List α) (hf : ∀ x a, Quiet S x (f x a)) (s : State) :
    Quiet S s (l.foldl f s) := by
  induction l generalizing s with
  | nil => exact Quiet.refl s
  | cons a r ih => exact (hf s a).trans (ih (f s a))

theorem mono {T : Nat → Prop} (h : Quiet S s t) (hST : ∀ k, S k → T k) : Quiet T s t :=
  ⟨h.rest, h.regs, fun k d x => h.live k d (fun y => x (hST k y)), h.mem, h.rings⟩

theorem iteSnd {α : Type} {c : Prop} [Decidable c] {p q : α × State} (hp : Quiet S s p.2) (hq : Quiet S s q.2) :
    Quiet S s (if c then p else q).2 := by
  split <;> assumption

theorem setMem (s : State) (m : MemState) (h : m =
    { s.mem with cells := m.cells, ext := m.ext, lineKey := m.lineKey, poison := m.poison,
                 queue := m.queue, tokens := m.tokens, tokenAt := m.tokenAt, symbols := m.symbols, stray := m.stray,
                 linkErr := m.linkErr, found := m.found }) : Quiet S s { s with mem := m } :=
  ⟨rfl, rfl, fun _ _ _ => rfl, h, rfl⟩

theorem setRings (s : State) (r : RingsState) (h : r =
    { s.rings with ctxs := r.ctxs, devDropped := r.devDropped, devSeq := r.devSeq, dawnQueue := r.dawnQueue,
                   irqs := r.irqs }) : Quiet S s { s with rings := r } :=
  ⟨rfl, rfl, fun _ _ _ => rfl, rfl, h⟩

theorem setForwards (s : State) (l : List Forward) : Quiet S s { s with forwards := l } :=
  ⟨rfl, rfl, fun _ _ _ => rfl, rfl, rfl⟩

theorem setFresh (s : State) (n : Nat) : Quiet S s { s with fresh := n } :=
  ⟨rfl, rfl, fun _ _ _ => rfl, rfl, rfl⟩

theorem setOut (s : State) (l : List OutMsg) : Quiet S s { s with out := l } :=
  ⟨rfl, rfl, fun _ _ _ => rfl, rfl, rfl⟩

end Quiet

theorem putByte_quiet {S : Nat → Prop} (p : Nat) (b : Byte) (s : State) : Quiet S s (putByte p b s) :=
  ⟨rfl, rfl, fun _ _ _ => rfl, rfl, rfl⟩

theorem putExt_quiet {S : Nat → Prop} (p : Nat) (b : Byte) (s : State) : Quiet S s (putExt p b s) :=
  ⟨rfl, rfl, fun _ _ _ => rfl, rfl, rfl⟩

theorem rekeyLine_quiet {S : Nat → Prop} (l k : Nat) (s : State) : Quiet S s (rekeyLine l k s) := by
  unfold rekeyLine
  split
  · exact Quiet.refl s
  · exact (Quiet.foldl _ _ (fun x (a : Nat × Byte) => putByte_quiet a.1 a.2 x) s).trans (Quiet.setMem _ _ (by rfl))

theorem clearLine_quiet {S : Nat → Prop} (l : Nat) (s : State) : Quiet S s (clearLine l s) := Quiet.setMem _ _ (by rfl)

theorem putPhys_quiet {S : Nat → Prop} (p k : Nat) (l : List Nat) (s : State) : Quiet S s (putPhys p k l s) := by
  unfold putPhys
  exact ((Quiet.foldl _ _ (fun x a => rekeyLine_quiet a k x) s).trans
    (Quiet.foldl _ _ (fun x a => putByte_quiet _ _ x) _)).trans
    (Quiet.foldl _ _ (fun x a => by split; exact clearLine_quiet _ _; exact Quiet.refl x) _)

theorem drainQueues_quiet {S : Nat → Prop} (hit : QWrite → Bool) (s : State) : Quiet S s (drainQueues hit s) := by
  unfold drainQueues
  exact (Quiet.foldl _ _ (fun x a => putPhys_quiet _ _ _ x) s).trans (Quiet.setMem _ _ (by rfl))

theorem drainOverlap_quiet {S : Nat → Prop} (p n : Nat) (s : State) : Quiet S s (drainOverlap p n s) :=
  drainQueues_quiet _ s

theorem wr_quiet {S : Nat → Prop} (f : Field) (at_ v : Nat) (s : State) (h : S (fkey f at_)) : Quiet S s (wr f at_ v s) :=
  ⟨rfl, rfl, fun _ _ x => aget_aset_ne _ _ _ _ _ _ (fun e => x (e ▸ h)), rfl, rfl⟩

theorem police_quiet {S : Nat → Prop} (p k n : Nat) (s : State) (h : S (fkey PLB_PORT_STATE.over_rate (p * 16))) :
    Quiet S s (police p k n s) := by
  unfold police
  split
  · dsimp only
    split
    · exact Quiet.trans ((Quiet.setMem s _ (by rfl)).trans (Quiet.setMem _ _ (by rfl))) (wr_quiet _ _ _ _ h)
    · exact (Quiet.setMem s _ (by rfl)).trans (Quiet.setMem _ _ (by rfl))
  · exact Quiet.refl s

theorem policeRange_quiet {S : Nat → Prop} (p a n : Nat) (s : State) (h : S (fkey PLB_PORT_STATE.over_rate (p * 16))) :
    Quiet S s (policeRange p a n s) :=
  Quiet.foldl _ _ (fun x _ => police_quiet _ _ _ x h) s

/-- The counts of link retries of the stacks. -/
def retryKey (k : Nat) : Prop := ∃ d, k = fkey HBM_CRC_RETRY_COUNT.retries (dieBase d)

theorem meetLink_quiet {S : Nat → Prop} (k pc : Nat) (s : State) (h : ∀ x, retryKey x → S x) :
    Quiet S s (meetLink k pc s).2 := by
  unfold meetLink
  dsimp only
  split
  · exact Quiet.refl s
  · exact (Quiet.setMem s _ (by rfl)).trans (wr_quiet _ _ _ _ (h _ ⟨_, rfl⟩))

theorem mended_quiet {S : Nat → Prop} (l : Nat) (s : State) : Quiet S s (mended l s) := Quiet.setMem _ _ (by rfl)

theorem miscorrect_quiet {S : Nat → Prop} (l : Nat) (s : State) : Quiet S s (miscorrect l s) :=
  (Quiet.foldl _ _ (fun x _ => putByte_quiet _ _ x) s).trans (Quiet.setFresh _ _)

theorem meetCode_quiet {S : Nat → Prop} (l : Nat) (s : State) : Quiet S s (meetCode l s).2 := by
  unfold meetCode
  split
  · exact Quiet.refl s
  · split
    · exact Quiet.refl s
    · split
      · exact Quiet.refl s
      · exact mended_quiet _ _
      · exact Quiet.refl s
      · dsimp only
        split
        · exact Quiet.setFresh _ _
        · exact ((Quiet.setFresh s _).trans (mended_quiet _ _)).trans (miscorrect_quiet _ _)

theorem meetAt_quiet {S : Nat → Prop} (k l : Nat) (r : Bool) (s : State) (h : ∀ x, retryKey x → S x) :
    Quiet S s (meetAt k l r s).2 := by
  unfold meetAt
  dsimp only
  split
  · exact meetLink_quiet _ _ s h
  · split
    · exact (meetLink_quiet _ _ s h).trans (meetCode_quiet _ _)
    · exact meetLink_quiet _ _ s h

theorem poisonLine_quiet {S : Nat → Prop} (l : Nat) (s : State) : Quiet S s (poisonLine l s) := Quiet.setMem _ _ (by rfl)

theorem meetLine_quiet {S : Nat → Prop} (a : Nat) (r : Bool) (s : State) (h : ∀ x, retryKey x → S x) :
    Quiet S s (meetLine a r s).2 := by
  unfold meetLine
  dsimp only
  refine Quiet.trans ?_ (Quiet.setMem _ _ (by rfl))
  have h0 : Quiet S s (if r = true then drainOverlap (physOf s a) 64 s else s) := by
    split
    · exact drainOverlap_quiet _ _ s
    · exact Quiet.refl s
  generalize (if r = true then drainOverlap (physOf s a) 64 s else s) = u at h0 ⊢
  split
  · exact (h0.trans (meetAt_quiet _ _ _ _ h)).trans (poisonLine_quiet _ _)
  · exact h0.trans (meetAt_quiet _ _ _ _ h)

theorem meetWrites_quiet {S : Nat → Prop} (a n : Nat) (l : List Nat) (s : State) (h : ∀ x, retryKey x → S x) :
    Quiet S s (meetWrites a n l s).2 := by
  induction l generalizing s with
  | nil => exact Quiet.refl s
  | cons x r ih => exact (meetLine_quiet _ _ s h).trans (ih _)

theorem meetWrite_quiet {S : Nat → Prop} (a n : Nat) (s : State) (h : ∀ x, retryKey x → S x) :
    Quiet S s (meetWrite a n s).2 := by
  unfold meetWrite
  split
  · exact meetWrites_quiet _ _ _ s h
  · exact Quiet.refl s

theorem applyWrite_quiet {S : Nat → Prop} (a : Nat) (l : List Nat) (s : State) : Quiet S s (applyWrite a l s) := by
  unfold applyWrite
  split
  · exact (drainOverlap_quiet _ _ s).trans (putPhys_quiet _ _ _ _)
  · split
    · exact Quiet.foldl _ _ (fun x a => putExt_quiet _ _ x) s
    · exact Quiet.refl s

theorem writeMem_quiet {S : Nat → Prop} (p c a : Nat) (l : List Nat) (s : State)
    (h : S (fkey PLB_PORT_STATE.over_rate (p * 16))) (g : ∀ x, retryKey x → S x) : Quiet S s (writeMem p c a l s).2 := by
  unfold writeMem
  split
  · refine Quiet.trans (Quiet.trans (t := if a < hbmEnd then policeRange p a l.length s else s) ?_ (meetWrite_quiet _ _ _ g))
      (Quiet.foldl _ _ (fun x a => applyWrite_quiet _ _ x) _)
    split
    · exact policeRange_quiet _ _ _ s h
    · exact Quiet.refl s
  · exact Quiet.refl s

/-- The registers that reports change: the two counts of the device event ring, the stopped rings of the contexts, the
over_rate bit of the ring engine's port, and the counts of link retries. -/
def reportKey (k : Nat) : Prop :=
  k = fkey HST_EVT_DROP_COUNT.drops 0 ∨ k = fkey HST_DEV_EQ_TAIL.tail 0 ∨
    k = fkey PLB_PORT_STATE.over_rate (72 * 16) ∨ retryKey k ∨ ∃ c < 64, k = fkey HST_CTX_STATE.stopped (c * 0x100)

theorem reportKey_drops : reportKey (fkey HST_EVT_DROP_COUNT.drops 0) := .inl rfl

theorem reportKey_tail : reportKey (fkey HST_DEV_EQ_TAIL.tail 0) := .inr (.inl rfl)

theorem reportKey_port : reportKey (fkey PLB_PORT_STATE.over_rate (72 * 16)) := .inr (.inr (.inl rfl))

theorem reportKey_retry (k : Nat) (h : retryKey k) : reportKey k := .inr (.inr (.inr (.inl h)))

theorem reportKey_stopped (c : Nat) (h : c < 64) : reportKey (fkey HST_CTX_STATE.stopped (c * 0x100)) :=
  .inr (.inr (.inr (.inr ⟨c, h, rfl⟩)))

/-- A write by the ring engine changes no register but those of a report. -/
theorem writeMem72_quiet (c a : Nat) (l : List Nat) (s : State) : Quiet reportKey s (writeMem 72 c a l s).2 :=
  writeMem_quiet _ _ _ _ s reportKey_port reportKey_retry

theorem setCtx_quiet {S : Nat → Prop} (c : Nat) (x : CtxState) (s : State) : Quiet S s (setCtx c x s) :=
  Quiet.setRings _ _ (by rfl)

theorem modCtx_quiet {S : Nat → Prop} (c : Nat) (f : CtxState → CtxState) (s : State) : Quiet S s (modCtx c f s) :=
  setCtx_quiet _ _ _

theorem modRing_quiet {S : Nat → Prop} (c r : Nat) (f : Ring → Ring) (s : State) : Quiet S s (modRing c r f s) :=
  modCtx_quiet _ _ _

theorem send_quiet {S : Nat → Prop} (k : MsgKind) (l : List Nat) (s : State) : Quiet S s (send k l s) :=
  Quiet.setOut _ _

theorem notify_quiet {S : Nat → Prop} (a v : Nat) (s : State) : Quiet S s (notify a v s) := by
  unfold notify
  split
  · split
    · exact send_quiet _ _ s
    · split
      · exact Quiet.refl s
      · exact Quiet.setRings s _ (by rfl)
  · exact send_quiet _ _ s

theorem devWrite_quiet (ev : List Nat) (s : State) : Quiet reportKey s (devWrite ev s) := by
  unfold devWrite
  dsimp only
  split
  · exact (Quiet.setRings s _ (by rfl)).trans (wr_quiet _ _ _ _ reportKey_drops)
  · exact (((writeMem72_quiet _ _ _ s).trans (Quiet.setRings _ _ (by rfl))).trans
      (wr_quiet _ _ _ _ reportKey_tail)).trans (notify_quiet _ _ _)

theorem devEvent_quiet (ev : List Nat) (s : State) : Quiet reportKey s (devEvent ev s) := by
  unfold devEvent
  split
  · exact devWrite_quiet ev s
  · split
    · exact Quiet.setRings s _ (by rfl)
    · exact (Quiet.setRings s _ (by rfl)).trans (wr_quiet _ _ _ _ reportKey_drops)

theorem ctxEvent_quiet (c : Nat) (ev : List Nat) (s : State) : Quiet reportKey s (ctxEvent c ev s).2 := by
  unfold ctxEvent
  exact Quiet.iteSnd ((setCtx_quiet _ _ s).trans (wr_quiet _ _ _ _ reportKey_drops))
    (Quiet.iteSnd (writeMem72_quiet _ _ _ s) ((writeMem72_quiet _ _ _ s).trans (setCtx_quiet _ _ _)))

theorem forward_quiet {S : Nat → Prop} (a b c d : Nat) (e : Bool) (s : State) : Quiet S s (forward a b c d e s) := by
  unfold forward
  split
  · exact Quiet.setForwards s _
  · exact Quiet.refl s

theorem eventRaw_quiet (status die ctx unit sev : Nat) (p : List Nat) (s : State) :
    Quiet reportKey s (eventRaw status die ctx unit sev p s).2 := by
  have h := (devEvent_quiet (eventRecord (eventTime s die) status die ctx unit sev 0 0 p) s).trans
    (forward_quiet status die unit sev (ctxSealed s ctx && namesChecker status) _)
  unfold eventRaw
  dsimp only
  split
  · exact h.trans (ctxEvent_quiet _ _ _)
  · exact h

/-- Only the event ring of an open context can refuse an event. -/
theorem eventRaw_open {status die ctx unit sev : Nat} {p : List Nat} {s : State}
    (h : (eventRaw status die ctx unit sev p s).1 = true) : ctx < 64 := by
  unfold eventRaw at h
  dsimp only at h
  split at h
  · rename_i g
    unfold ctxOpen at g
    simp at g
    exact g.1
  · cases h

theorem echoRaw_quiet (c : Nat) (s : State) : Quiet reportKey s (echoRaw c s).2 := writeMem72_quiet _ _ _ s

theorem stopRaw_quiet (c r cause resume : Nat) (s : State) (hc : c < 64) :
    Quiet reportKey s (stopRaw c r cause resume s).2 :=
  ((modRing_quiet _ _ _ s).trans (wr_quiet _ _ _ _ (reportKey_stopped c hc))).trans (eventRaw_quiet _ _ _ _ _ _ _)

theorem stopRings_quiet (c cause : Nat) (s : State) (hc : c < 64) : Quiet reportKey s (stopRings c cause s) := by
  unfold stopRings
  refine Quiet.trans (Quiet.foldl _ _ (fun x a => ?_) s) (echoRaw_quiet _ _)
  split
  · exact stopRaw_quiet _ _ _ _ x hc
  · exact Quiet.refl x

theorem writeEcho_quiet (c : Nat) (s : State) (hc : c < 64) : Quiet reportKey s (writeEcho c s) := by
  unfold writeEcho
  dsimp only
  split
  · exact (echoRaw_quiet _ s).trans (stopRings_quiet _ _ _ hc)
  · exact echoRaw_quiet _ s

theorem stopRing_quiet (c r cause resume : Nat) (s : State) (hc : c < 64) :
    Quiet reportKey s (stopRing c r cause resume s) := by
  unfold stopRing
  split
  · exact Quiet.refl s
  · dsimp only
    split
    · exact (stopRaw_quiet _ _ _ _ s hc).trans (stopRings_quiet _ _ _ hc)
    · exact (stopRaw_quiet _ _ _ _ s hc).trans (writeEcho_quiet _ _ hc)

/-- Only an open context has an event ring. -/
theorem ctxOpen_lt {s : State} {c : Nat} (h : ctxOpen s c = true) : c < 64 := by
  unfold ctxOpen at h
  simp at h
  exact h.1

/-- Everything that an event can do. -/
theorem event_quiet (status die ctx unit sev : Nat) (p : List Nat) (s : State) :
    Quiet reportKey s (event status die ctx unit sev p s) := by
  unfold event
  dsimp only
  split
  · rename_i h
    exact (eventRaw_quiet _ _ _ _ _ _ s).trans (stopRings_quiet _ _ _ (eventRaw_open h))
  · split
    · rename_i h
      exact (eventRaw_quiet _ _ _ _ _ _ s).trans (writeEcho_quiet _ _ (ctxOpen_lt h.1))
    · exact eventRaw_quiet _ _ _ _ _ _ s

namespace Quiet

variable {S : Nat → Prop} {s t : State}

theorem toPending (h : Quiet S s t) : t.pending = s.pending := by rw [h.rest]
theorem toClock (h : Quiet S s t) : t.clock = s.clock := by rw [h.rest]
theorem toMode (h : Quiet S s t) : t.mode = s.mode := by rw [h.rest]
theorem toSilent (h : Quiet S s t) : t.silent = s.silent := by rw [h.rest]
theorem toPcie (h : Quiet S s t) : t.pcieUp = s.pcieUp := by rw [h.rest]
theorem toPerst (h : Quiet S s t) : t.perst = s.perst := by rw [h.rest]
theorem toBus (h : Quiet S s t) : t.bus = s.bus := by rw [h.rest]
theorem toFab (h : Quiet S s t) : t.fab = s.fab := by rw [h.rest]
theorem toDay (h : Quiet S s t) : t.day = s.day := by rw [h.rest]
theorem toKey (h : Quiet S s t) : t.key = s.key := by rw [h.rest]
theorem toSieve (h : Quiet S s t) : t.sieve = s.sieve := by rw [h.rest]
theorem toMortar (h : Quiet S s t) : t.mortar = s.mortar := by rw [h.rest]
theorem toPower (h : Quiet S s t) : t.power = s.power := by rw [h.rest]
theorem toInput (h : Quiet S s t) : t.input = s.input := by rw [h.rest]
theorem toMer (h : Quiet S s t) : t.mer = s.mer := by rw [h.rest]
theorem toIsl (h : Quiet S s t) : t.isl = s.isl := by rw [h.rest]
theorem toOuvur (h : Quiet S s t) : t.ouvur = s.ouvur := by rw [h.rest]
theorem toNwt (h : Quiet S s t) : t.nwt = s.nwt := by rw [h.rest]
theorem toPartialDie (h : Quiet S s t) : t.partialDie = s.partialDie := by rw [h.rest]
theorem toPartialStep (h : Quiet S s t) : t.partialStep = s.partialStep := by rw [h.rest]
theorem toTies (h : Quiet S s t) : t.rings.ties = s.rings.ties := by rw [h.rings]
theorem toHome (h : Quiet S s t) : t.mem.home = s.mem.home := by rw [h.mem]
theorem toStacks (h : Quiet S s t) : t.mem.stackTab = s.mem.stackTab := by rw [h.mem]
theorem toStaged (h : Quiet S s t) : t.regs.staged = s.regs.staged := by rw [h.regs]
theorem toCommitted (h : Quiet S s t) : t.regs.committed = s.regs.committed := by rw [h.regs]

/-- The committed copies stay. -/
theorem toCom (h : Quiet S s t) (f : Field) (at_ : Nat) : com t f at_ = com s f at_ := by
  unfold com
  rw [h.toCommitted]

/-- A register outside S keeps its value. -/
theorem toRd (h : Quiet S s t) (f : Field) (at_ : Nat) (x : ¬ S (fkey f at_)) : rd t f at_ = rd s f at_ :=
  h.live _ _ x

end Quiet

end Sys2Proof.Machine
end

