-- ==== Sys2Proof/Laws/Reads.lean ====
section
/-! SUPPORT. Reads of memory that meets no queue, poison or policing, and the bytes of slices. -/

namespace Sys2Proof.Machine

theorem drainOverlap_nil {s : State} (h : s.mem.queue = []) (p n : Nat) : drainOverlap p n s = s := by
  unfold drainOverlap drainQueues
  simp only [h, List.filter_nil, List.foldl_nil]
  rw [← h]

theorem drainRange_nil {s : State} (h : s.mem.queue = []) (a n : Nat) : drainRange a n s = s := by
  unfold drainRange
  induction List.range ((a + n - 1) / 65536 - a / 65536 + 1) with
  | nil => rfl
  | cons i r ih => rw [List.foldl_cons, drainOverlap_nil h, ih]

/-- A port that Plumb does not hold to a contract is not policed. -/
theorem policeRange_free {s : State} {port : Nat} (h : rdB s Reg.PLB_PORT_STATE.held (port * 16) = false) (a n : Nat) :
    policeRange port a n s = s := by
  unfold policeRange
  induction checkPoints a n with
  | nil => rfl
  | cons i r ih => rw [List.foldl_cons]; simpa [police, h] using ih

/-- A read that is served, with nothing queued, policed or befallen to lines, links or the host, gives the bytes there and
changes nothing. -/
theorem readMem_plain {s : State} {port ctx a n : Nat} (l : List (Nat × Nat × Nat)) (hq : s.mem.queue = [])
    (hp : sound s = true) (he : s.mem.hostErr = []) (hh : rdB s Reg.PLB_PORT_STATE.held (port * 16) = false)
    (hs : readStatus s port ctx a n = 0) : readMem port ctx a n l s = (0, readBytes s port ctx a n, s) := by
  have hn : (hostLines s a n).any (fun l => aget s.mem.hostErr l false) = false := by
    rw [he]
    simp [aget]
  unfold readMem
  simp [hs, drainRange_nil hq, policeRange_free hh, hp, hn]

@[simp] theorem slice_length (l : List Nat) (lo n : Nat) : (slice l lo n).length = n := by
  simp only [slice, List.length_append, List.length_replicate, List.length_take]
  omega

/-- A slice that lies in its list. -/
theorem slice_within (l : List Nat) (lo n : Nat) (h : lo + n ≤ l.length) : slice l lo n = (l.drop lo).take n := by
  have : (((l.drop lo).take n).length) = n := by rw [List.length_take, List.length_drop]; omega
  simp [slice, this]

/-- Byte i of a slice. -/
theorem getD_slice (l : List Nat) (lo n i : Nat) : (slice l lo n).getD i 0 = if i < n then l.getD (lo + i) 0 else 0 := by
  simp only [slice, List.getD_eq_getElem?_getD, List.getElem?_append, List.length_take, List.length_drop]
  by_cases h : i < n
  · by_cases g : i < l.length - lo
    · rw [if_pos (by omega), if_pos h, List.getElem?_take_of_lt h, List.getElem?_drop]
    · rw [if_neg (by omega), if_pos h, List.getElem?_eq_none (l := l) (by omega)]
      rcases Nat.lt_or_ge (i - min n (l.length - lo)) (n - min n (l.length - lo)) with c | c
      · rw [List.getElem?_replicate_of_lt c]; rfl
      · rw [List.getElem?_eq_none (by rw [List.length_replicate]; exact c)]
  · rw [if_neg (by omega), if_neg h, List.getElem?_eq_none (by rw [List.length_replicate]; omega)]
    rfl

/-- A slice by its bytes. -/
theorem slice_eq_map (l : List Nat) (lo n : Nat) : slice l lo n = (List.range n).map (fun i => l.getD (lo + i) 0) := by
  refine List.ext_getElem (by simp) fun i hi _ => ?_
  have h := getD_slice l lo n i
  rw [List.getD_eq_getElem _ _ hi, if_pos (by simpa using hi)] at h
  simpa using h

/-- Byte i of what a read gives. -/
theorem getD_readBytes (s : State) (port ctx a n i : Nat) :
    (readBytes s port ctx a n).getD i 0 = if i < n then readByte s port ctx (a + i) else 0 := by
  simp only [readBytes, List.getD_eq_getElem?_getD, List.getElem?_map]
  split
  · rename_i h; rw [List.getElem?_range h]; rfl
  · rename_i h; rw [List.getElem?_eq_none (by simpa using h)]; rfl

/-- What stands behind a prefix. -/
theorem slice_after (p d : List Nat) : slice (p ++ d) p.length d.length = d := by
  rw [slice_within _ _ _ (by simp)]
  simp

/-- What stands between a prefix and a suffix. -/
theorem slice_between (p d q : List Nat) : slice (p ++ d ++ q) p.length d.length = d := by
  rw [slice_within _ _ _ (by simp), List.append_assoc]
  simp

/-- A slice of a slice. -/
theorem slice_slice (l : List Nat) (a n b m : Nat) (h : b + m ≤ n) : slice (slice l a n) b m = slice l (a + b) m := by
  rw [slice_eq_map (slice l a n), slice_eq_map l (a + b)]
  refine List.map_congr_left fun i hi => ?_
  have := List.mem_range.mp hi
  rw [getD_slice, if_pos (by omega), Nat.add_assoc]

/-! ## Bytes placed in memory -/

/-- A state with bytes placed at a physical address. -/
def poke (a : Nat) (l : List Nat) (s : State) : State :=
  ((List.range l.length).zip l).foldl (fun s e => putByte (a + e.1) (BitVec.ofNat 8 e.2) s) s

theorem rawByte_fold (es : List (Nat × Nat)) (a p : Nat) (s : State) (h : ∀ e ∈ es, a + e.1 ≠ p) :
    rawByte (es.foldl (fun s e => putByte (a + e.1) (BitVec.ofNat 8 e.2) s) s) p = rawByte s p := by
  induction es generalizing s with
  | nil => rfl
  | cons e r ih =>
    rw [List.foldl_cons, ih _ (fun x hx => h x (List.mem_cons_of_mem _ hx))]
    exact aget_aset_ne _ _ _ _ _ _ (h e List.mem_cons_self)

/-- Placing bytes changes no more than the cells. -/
theorem poke_cells (a : Nat) (l : List Nat) (s : State) :
    poke a l s = { s with mem := { s.mem with cells := (poke a l s).mem.cells } } := by
  unfold poke
  generalize (List.range l.length).zip l = es
  induction es generalizing s with
  | nil => rfl
  | cons e r ih => rw [List.foldl_cons, ih]; rfl

/-- Each byte placed is there. -/
theorem rawByte_poke (a : Nat) (l : List Nat) (s : State) (i : Nat) (h : i < l.length) :
    rawByte (poke a l s) (a + i) = BitVec.ofNat 8 (l.getD i 0) := by
  have hz : (List.range l.length).zip l = (List.range i).zip (l.take i) ++ (i, l.getD i 0) ::
      ((List.range l.length).zip l).drop (i + 1) := by
    refine List.ext_getElem? fun k => ?_
    rcases Nat.lt_trichotomy k i with g | g | g
    · rw [List.getElem?_append_left (by simp; omega), List.getElem?_eq_getElem (by simp; omega),
        List.getElem?_eq_getElem (by simp; omega)]
      simp
    · subst g
      rw [List.getElem?_append_right (by simp), List.getElem?_eq_getElem (by simp; omega)]
      simp [Nat.min_eq_left (Nat.le_of_lt h), List.getElem?_eq_getElem h]
    · rw [List.getElem?_append_right (by simp; omega)]
      obtain ⟨m, rfl⟩ : ∃ m, k = i + 1 + m := ⟨k - i - 1, by omega⟩
      have e : i + 1 + m - ((List.range i).zip (l.take i)).length = m + 1 := by simp; omega
      rw [e, List.getElem?_cons_succ, List.getElem?_drop]
  unfold poke
  rw [hz, List.foldl_append, List.foldl_cons, rawByte_fold]
  · exact aget_aset_self _ _ _ _
  · intro e he
    obtain ⟨m, hm, rfl⟩ := List.getElem_of_mem he
    simp only [List.getElem_drop, List.getElem_zip, List.getElem_range]
    omega

/-- A byte of HBM that its reader sees in the clear. -/
theorem readByte_hbm {s : State} {port ctx a : Nat} (h : a < hbmEnd) (hc : seesCipher port ctx (ownerOf s a) = false) :
    readByte s port ctx a = (physByte s (physOf s a) (keyOf s (ownerOf s a))).toNat := by
  unfold readByte
  rw [if_pos h]
  dsimp only
  rw [hc, if_neg Bool.false_ne_true]

/-- Bytes that stand in one page, under its key, in the frame of its number are what a read of them gives. -/
theorem readBytes_at {t : State} {port ctx a : Nat} {l : List Nat} (hl : ∀ b ∈ l, b < 256) (hp : a % 65536 + l.length ≤ 65536)
    (he : a < hbmEnd) (hc : seesCipher port ctx (ownerOf t a) = false) (hk : ∀ n, lineKeyOf t n = keyOf t (ownerOf t a))
    (ha : physOf t a = a) (hr : ∀ i, i < l.length → rawByte t (a + i) = BitVec.ofNat 8 (l.getD i 0)) :
    readBytes t port ctx a l.length = l := by
  refine List.ext_getElem (by simp [readBytes]) fun i h1 h2 => ?_
  have hd : (a + i) / 65536 = a / 65536 := by omega
  have hm : (a + i) % 65536 = a % 65536 + i := by omega
  have ho : ownerOf t (a + i) = ownerOf t a := by simp only [ownerOf, hd]
  have hph : physOf t (a + i) = a + i := by
    have h := ha
    simp only [physOf, stackIdx, hd, hm] at h ⊢
    omega
  have hlt : a + i < hbmEnd := by simp only [hbmEnd] at he ⊢; omega
  have hb := hl _ (List.getElem_mem h2)
  simp only [readBytes, List.getElem_map, List.getElem_range]
  rw [readByte_hbm hlt (by rw [ho]; exact hc), ho, hph, physByte, hk, if_pos rfl, hr i h2]
  rw [List.getD_eq_getElem _ _ h2]
  simpa using Nat.mod_eq_of_lt hb

/-- A plain read of bytes that stand in one page, under its key, in the frame of its number. -/
theorem readMem_at {t : State} {port ctx a : Nat} {l : List Nat} (c : List (Nat × Nat × Nat)) (hq : t.mem.queue = [])
    (hp : sound t = true) (hr' : t.mem.hostErr = []) (hh : rdB t Reg.PLB_PORT_STATE.held (port * 16) = false) (hl : ∀ b ∈ l, b < 256)
    (hn : a % 65536 + l.length ≤ 65536) (he : a < hbmEnd) (hc : seesCipher port ctx (ownerOf t a) = false)
    (hk : ∀ n, lineKeyOf t n = keyOf t (ownerOf t a)) (ha : physOf t a = a)
    (hr : ∀ i, i < l.length → rawByte t (a + i) = BitVec.ofNat 8 (l.getD i 0)) (hs : readStatus t port ctx a l.length = 0) :
    readMem port ctx a l.length c t = (0, l, t) := by
  rw [readMem_plain c hq hp hr' hh hs, readBytes_at hl hn he hc hk ha hr]

end Sys2Proof.Machine
end

