-- ==== Sys2Proof/Laws/Sha.lean ====
section
/-! SUPPORT. The length of a SHA-384 digest, of whatever bytes. -/

namespace Sys2Proof.Machine

theorem shaRounds_length (l : List (Nat × Nat)) (h : List Nat) (hl : h.length = 8) : (l.foldl shaRound h).length = 8 := by
  induction l generalizing h with
  | nil => exact hl
  | cons a r ih => exact ih _ rfl

theorem shaBlocks_length (n : Nat) (l h : List Nat) (hl : h.length = 8) : (shaBlocks n l h).length = 8 := by
  induction n generalizing l h with
  | zero => exact hl
  | succ n ih =>
    refine ih _ _ ?_
    rw [shaBlock, List.length_map, List.length_zip, shaRounds_length _ _ hl, hl]
    rfl

theorem sha384_length (m : List Nat) : (sha384 m).length = 48 := by
  have h := shaBlocks_length ((shaPad m).length / 128) (shaPad m) sha384Init rfl
  rw [sha384, List.length_flatMap]
  generalize shaBlocks ((shaPad m).length / 128) (shaPad m) sha384Init = l at h ⊢
  match l, h with
  | [a, b, c, d, e, f, g, h], _ => rfl

end Sys2Proof.Machine
end

