-- ==== Sys2Proof/Laws/Sites.lean ====
section
/-! SUPPORT. What the changes of a launch, an instance and a role do to the site that they name. -/

namespace Sys2Proof.Machine

theorem find_map_same {α : Type} (p : α → Bool) (f : α → α) (l : List α) (h : ∀ a, p (f a) = p a) :
    (l.map f).find? p = (l.find? p).map f := by
  induction l with
  | nil => rfl
  | cons a r ih =>
    simp only [List.map_cons, List.find?_cons, h]
    cases p a <;> simp [ih]

/-- A changed launch is found under its number. -/
theorem launchOf_modLaunch (id : Nat) (f : Launch → Launch) (s : State) (hf : ∀ l, (f l).id = l.id) :
    launchOf (modLaunch id f s) id = (launchOf s id).map f := by
  unfold launchOf modLaunch
  rw [find_map_same _ _ _ (fun a => by split <;> simp [hf])]
  cases h : s.fab.launches.find? (fun l => l.id == id) with
  | none => rfl
  | some l =>
    have := List.find?_some h
    simp at this
    simp [this]

theorem instOf_modInst (id c : Nat) (f : Inst → Inst) (s : State) (hf : ∀ i, (f i).course = i.course) :
    instOf (modInst id c f s) id c = (instOf s id c).map f := by
  unfold instOf modInst
  rw [launchOf_modLaunch _ _ _ (by intro; rfl)]
  cases launchOf s id with
  | none => rfl
  | some l =>
    simp only [Option.map_some, Option.bind_some]
    rw [find_map_same _ _ _ (fun a => by split <;> simp [hf])]
    cases h : l.insts.find? (fun i => i.course == c) with
    | none => rfl
    | some i =>
      have := List.find?_some h
      simp at this
      simp [this]

/-- A changed instance is found at its site. -/
theorem instAt_modInst (x : Site) (f : Inst → Inst) (s : State) (hf : ∀ i, (f i).course = i.course) :
    instAt (modInst x.launch.id x.inst.course f s) x = (instAt s x).map f := instOf_modInst _ _ _ _ hf

theorem getElem?_modAt {α : Type} (l : List α) (k : Nat) (f : α → α) : (modAt l k f)[k]? = (l[k]?).map f := by
  induction l generalizing k with
  | nil => rfl
  | cons a r ih => cases k <;> simp [modAt, ih]

/-- A changed role is found at its site. -/
@[simp] theorem roleAt_setRole (x : Site) (f : Role → Role) (s : State) :
    roleAt (setRole x f s) x = (roleAt s x).map f := by
  unfold roleAt setRole
  rw [instAt_modInst _ _ _ (by intro; rfl)]
  cases instAt s x with
  | none => rfl
  | some i => simp [getElem?_modAt]

@[simp] theorem roleAt_goOn (x : Site) (s : State) : roleAt (goOn x s) x = (roleAt s x).map (fun r => r.counted.advance) :=
  roleAt_setRole _ _ _

/-- What an instance counts leaves its roles. -/
theorem roleAt_modInst (x : Site) (f : Inst → Inst) (s : State) (hc : ∀ i, (f i).course = i.course)
    (hr : ∀ i, (f i).roles = i.roles) : roleAt (modInst x.launch.id x.inst.course f s) x = roleAt s x := by
  unfold roleAt
  rw [instAt_modInst _ _ _ hc]
  cases instAt s x with
  | none => rfl
  | some i => simp [hr]

/-- Cycles counted go into the role's own count too (R77). -/
@[simp] theorem roleAt_addCycles (x : Site) (n : Nat) (s : State) :
    roleAt (addCycles x n s) x = (roleAt s x).map (fun r => { r with cycles := r.cycles + n }) := by
  unfold roleAt addCycles
  rw [instAt_modInst _ _ _ (by intro; rfl)]
  cases instAt s x with
  | none => rfl
  | some i => simp [getElem?_modAt]

@[simp] theorem roleAt_noteArith (x : Site) (n : Nat) (s : State) : roleAt (noteArith x n s) x = roleAt s x :=
  roleAt_modInst _ _ _ (fun _ => rfl) (fun _ => rfl)

/-- A site does not see what lies outside the launches. -/
theorem roleAt_congr {s t : State} (x : Site) (h : t.fab.launches = s.fab.launches) : roleAt t x = roleAt s x := by
  simp [roleAt, instAt, instOf, launchOf, h]

theorem issuing_mode {s : State} {b op : Nat} {x : Site} (h : issuing s b op = some x) : s.mode = .run := by
  unfold issuing at h
  split at h
  · split at h
    · rename_i g; exact g.1
    · cases h
  · cases h

theorem issuing_ready {s : State} {b op : Nat} {x : Site} (h : issuing s b op = some x) : x.role.ready = true := by
  unfold issuing at h
  split at h
  · split at h
    · rename_i g; cases h; exact g.2.1
    · cases h
  · cases h

end Sys2Proof.Machine
end

