-- ==== Sys2Proof/Machine/Balls.lean ====
section
/-! DEFINITION. What each ball of the package carries (R7, R729 to R733). -/

namespace Sys2Proof.Machine

/-- What a ball carries: a rail or a return, one half of a pair (`neg` its N ball), a named signal, or ground (R729). -/
inductive Ball where
  | core (die : Nat) | hearth | hbm (stack : Nat) | io | phy | nightwatch
  | matin | gndMatin | vesper | gndVesper
  | csi (port lane : Nat) (neg : Bool) | pcieTx (lane : Nat) (neg : Bool) | pcieRx (lane : Nat) (neg : Bool)
  | ethTx (mac : Nat) (neg : Bool) | ethRx (mac : Nat) (neg : Bool) | ouvurTx (port : Nat) (neg : Bool)
  | ouvurRx (port : Nat) (neg : Bool) | named (signal : String) | gnd
  deriving DecidableEq, Repr

/-- A row of balls at given columns with the signals named in order. -/
def ballRow (row : Nat) (cols : List Nat) (signals : List String) : List (Nat × Nat × String) :=
  (cols.zip signals).map (fun e => (row, e.1, e.2))

/-- The balls of R732 on the west edge, and the PCIe reference clock of R731. -/
def westBalls : List (Nat × Nat × String) :=
  ballRow 60 [7, 9] ["XTAL32K_IN", "XTAL32K_OUT"] ++
    ballRow 61 [2, 4, 6, 8, 10] ["PWR_GOOD", "WARM_RST_N", "WAKE_N", "PWR_EN_MAIN", "THERMTRIP_N"] ++
    ballRow 62 [7, 9] ["COOL_REQ", "FLOW_A"] ++
    ballRow 63 [2, 4, 6, 8, 10] ["FLOW_B", "TIN_A", "TIN_B", "TOUT_A", "TOUT_B"] ++
    ballRow 64 [5, 7] ["TH_RTN", "TH_RTN"] ++
    ballRow 54 [2, 4, 6, 8] ["MATIN_RST_N", "SS_MATIN_N", "MATIN_XIN", "MATIN_XOUT"] ++
    ballRow 20 [3, 5] ["REF25_XIN", "REF25_XOUT"] ++ ballRow 22 [1, 2] ["MDC", "MDIO"] ++
    ballRow 69 [52, 54, 56] ["REFCLK_P", "PERST_N", "CLKREQ_N"] ++ ballRow 70 [52] ["REFCLK_N"]

/-- The balls of R732 on the east edge. -/
def eastBalls : List (Nat × Nat × String) :=
  ballRow 54 [71, 69, 67, 65] ["VESPER_RST_N", "SS_VESPER_N", "VESPER_XIN", "VESPER_XOUT"] ++
    ballRow 19 [65, 67, 69, 71] ["TCK", "TMS", "TDI", "TDO"] ++ ballRow 20 [65] ["TRST_N"] ++
    ballRow 11 [65, 67, 69, 71] ["XSPI_CLK", "XSPI_CS_N", "XSPI_DQS", "XSPI_RESET_N"] ++
    ballRow 13 [65, 67, 69, 71] ["XSPI_DQ0", "XSPI_DQ1", "XSPI_DQ2", "XSPI_DQ3"] ++
    ballRow 15 [65, 67, 69, 71] ["XSPI_DQ4", "XSPI_DQ5", "XSPI_DQ6", "XSPI_DQ7"]

/-- The balls of R732 for the core rails' regulators. -/
def regulatorBalls : List (Nat × Nat × String) :=
  ballRow 9 [13, 15, 17] ["AVS_CLK1", "AVS_MDATA1", "AVS_SDATA1"] ++
    ballRow 10 [13, 15] ["VSNS_CORE1_P", "VSNS_CORE1_N"] ++
    ballRow 9 [55, 57, 59] ["AVS_CLK2", "AVS_MDATA2", "AVS_SDATA2"] ++
    ballRow 10 [57, 59] ["VSNS_CORE2_P", "VSNS_CORE2_N"] ++
    ballRow 64 [55, 57, 59] ["AVS_CLK3", "AVS_MDATA3", "AVS_SDATA3"] ++
    ballRow 63 [57, 59] ["VSNS_CORE3_P", "VSNS_CORE3_N"] ++
    ballRow 64 [13, 15, 17] ["AVS_CLK4", "AVS_MDATA4", "AVS_SDATA4"] ++
    ballRow 63 [13, 15] ["VSNS_CORE4_P", "VSNS_CORE4_N"] ++
    ballRow 10 [35, 37] ["VSNS_HEARTH_P", "VSNS_HEARTH_N"]

/-- The signal that R732 names at a ball. -/
def namedBall (row col : Nat) : Option Ball :=
  if (row = 60 ∨ row = 62) ∧ (col = 3 ∨ col = 5) then some .nightwatch
  else ((westBalls ++ eastBalls ++ regulatorBalls).find? (fun e => e.1 == row && e.2.1 == col)).map (fun e => .named e.2.2)

/-- The half of a high-speed pair at a ball (R731). -/
def laneBall (row col : Nat) : Option Ball :=
  let k := (col - 20) / 2
  let m := (row - 24) / 4
  let rx := decide ((row - 24) % 4 = 2)
  if 20 ≤ col ∧ col ≤ 50 ∧ col % 2 = 0 then
    (if row ≤ 10 then some (.csi k ((row - 1) / 2) (row % 2 == 0))
     else if row = 71 ∨ row = 72 then some (.pcieTx k (row == 72))
     else if row = 67 ∨ row = 68 then some (.pcieRx k (row == 68))
     else none)
  else if 24 ≤ row ∧ row ≤ 38 ∧ row % 2 = 0 then
    (if col = 1 ∨ col = 2 then some (if rx then .ethRx m (col == 2) else .ethTx m (col == 2))
     else if col = 72 ∨ col = 71 then some (if rx then .ouvurRx m (col == 71) else .ouvurTx m (col == 71))
     else none)
  else none

/-- Whether a number lies in a range of rows or columns. -/
def within (x lo hi : Nat) : Bool := decide (lo ≤ x) && decide (x ≤ hi)

/-- The rail of the region that a ball lies in, and what its other balls are (R730). -/
def regionBall (row col : Nat) : Option (Ball × Ball) :=
  if within row 11 34 ∧ within col 11 34 then some (.core 1, .gnd)
  else if within row 11 34 ∧ within col 39 62 then some (.core 2, .gnd)
  else if within row 39 62 ∧ within col 39 62 then some (.core 3, .gnd)
  else if within row 39 62 ∧ within col 11 34 then some (.core 4, .gnd)
  else if within row 35 38 ∧ within col 11 62 then some (.hearth, .gnd)
  else if (within row 11 34 ∨ within row 39 62) ∧ within col 35 38 then some (.hearth, .gnd)
  else if within row 1 8 ∧ within col 1 12 then some (.hbm 1, .gnd)
  else if within row 1 8 ∧ within col 61 72 then some (.hbm 2, .gnd)
  else if within row 65 72 ∧ within col 61 72 then some (.hbm 3, .gnd)
  else if within row 65 72 ∧ within col 1 12 then some (.hbm 4, .gnd)
  else if within row 11 16 ∧ within col 3 10 then some (.io, .gnd)
  else if within row 41 48 ∧ (within col 3 10 ∨ within col 63 70) then some (.phy, .gnd)
  else if within row 55 58 ∧ within col 3 6 then some (.matin, .gndMatin)
  else if within row 55 58 ∧ within col 67 70 then some (.vesper, .gndVesper)
  else none

/-- What the ball row.column carries, both from 1 to 72 (R729 to R733). -/
def ballAt (row col : Nat) : Ball :=
  match laneBall row col, namedBall row col, regionBall row col with
  | some b, _, _ => b
  | none, some b, _ => b
  | none, none, some r => if (row + col) % 2 = 0 then r.1 else r.2
  | none, none, none => .gnd

/-- How many of the 5,184 balls of the package satisfy a test. -/
def ballCount (p : Ball → Bool) : Nat :=
  (List.range 72).foldl (fun n r => n + ((List.range 72).filter (fun c => p (ballAt (r + 1) (c + 1)))).length) 0

end Sys2Proof.Machine
end

