-- ==== Sys2Proof/WellFormed.lean ====
section
/-! DEFINITION. Which commands are well formed: every operand lies in the range of the object that it names, a written
value fits its register, and bytes are bytes. The meanings themselves answer every command; one that is not well formed
names nothing and mostly changes nothing. -/

namespace Sys2Proof

/-- Every element of a list is a byte. -/
def bytesOk (l : List Nat) : Bool := l.all (fun b => decide (b < 256))

/-- The header of an Ouvur packet is 32 bytes (R604). -/
def OvHead.wf (h : OvHead) : Bool := h.raw.length == 32 && bytesOk h.raw

/-- The maps of what a Dawn finds name the four stacks and dies, and the checkers are no more than R575 counts. -/
def DawnReport.wf (r : DawnReport) : Bool :=
  bytesOk r.config && decide (r.stacksUp < 16) && decide (r.unreadable < 16) && decide (r.passed ≤ 2437)

/-- A picture's depth is 8, 10 or 12 bits or as the codec allows, and its size is not zero (R453). -/
def SliceReport.wf (r : SliceReport) : Bool :=
  decide (1 ≤ r.width) && decide (1 ≤ r.height) && decide (8 ≤ r.depth) && decide (r.depth ≤ 16)

/-- Whether a command is well formed. -/
def Instr.wf : Instr → Bool
  | .dialSyncMessage _ => true
  | .dialHoldover => true
  | .nightwatchTick => true
  | .dialNowRead port _ _ => decide (port < 80)
  | .nwtCommit value => decide (value < 2 ^ 32)
  | .pcieLinkUp => true
  | .pcieLinkDown => true
  | .perstAssert _ => true
  | .nop brick => decide (brick < 1024)
  | .halt brick => decide (brick < 1024)
  | .jump brick => decide (brick < 1024)
  | .loop brick => decide (brick < 1024)
  | .loopp brick => decide (brick < 1024)
  | .ppoint brick => decide (brick < 1024)
  | .wait brick => decide (brick < 1024)
  | .mma brick _ => decide (brick < 1024)
  | .drain brick => decide (brick < 1024)
  | .unary brick _ => decide (brick < 1024)
  | .binary brick _ => decide (brick < 1024)
  | .reduce brick _ => decide (brick < 1024)
  | .convert brick _ => decide (brick < 1024)
  | .copy brick _ => decide (brick < 1024)
  | .copyg brick _ => decide (brick < 1024)
  | .quant brick _ => decide (brick < 1024)
  | .nsig brick => decide (brick < 1024)
  | .nwait brick => decide (brick < 1024)
  | .tsig brick => decide (brick < 1024)
  | .twaitge brick => decide (brick < 1024)
  | .twaiteq brick => decide (brick < 1024)
  | .barrier brick => decide (brick < 1024)
  | .groutchk brick => decide (brick < 1024)
  | .base brick => decide (brick < 1024)
  | .stride brick => decide (brick < 1024)
  | .count brick => decide (brick < 1024)
  | .basep brick => decide (brick < 1024)
  | .trowelFetchLaunch course => decide (course < 64)
  | .launchStage course => decide (course < 64)
  | .stagingComplete _ course => decide (course < 64)
  | .bondActivate _ course => decide (course < 64)
  | .instanceComplete _ course => decide (course < 64)
  | .wcetExceeded _ course => decide (course < 64)
  | .courseWatchdogExpiry course => decide (course < 64)
  | .trowelHeartbeat course => decide (course < 64)
  | .instanceResume _ => true
  | .neighbourLinkFailure course link => decide (course < 64) && decide (link < 24)
  | .trwCommit course value => decide (course < 64) && decide (value < 2 ^ 32)
  | .rcCounterRead port addr width => decide (port < 80) && decide (addr < 2 ^ 48) &&
      (width == 8 || width == 16 || width == 32 || width == 64)
  | .registerWrite port addr width value => decide (port < 80) && decide (addr < 2 ^ 48) &&
      (width == 8 || width == 16 || width == 32 || width == 64) && decide (value < 2 ^ 64)
  | .sieveJobAccept => true
  | .sieveJobStart => true
  | .sieveJobComplete => true
  | .sieveInternalFault => true
  | .dayCommit value => decide (value < 2 ^ 32)
  | .dayCommitComplete => true
  | .planTakeover => true
  | .periodBoundary => true
  | .watchEnd watch => decide (watch < 256)
  | .switchComplete course => decide (course < 64)
  | .watchStart watch course => decide (watch < 256) && decide (course < 64)
  | .watchOverrunExpiry course => decide (course < 64)
  | .brickTestComplete brick _ packId pattern => decide (brick < 1024) && decide (packId < 65536) &&
      decide (pattern < 65536)
  | .brickTestOverdue brick => decide (brick < 1024)
  | .teardownScrubComplete ctx => decide (ctx < 64)
  | .doorbellWrite ctx ring => decide (ctx < 64) && decide (ring < 4)
  | .doorbellPoll ctx ring => decide (ctx < 64) && decide (ring < 4)
  | .launch ctx ring => decide (ctx < 64) && decide (ring < 4)
  | .sieve ctx ring => decide (ctx < 64) && decide (ring < 4)
  | .fence ctx ring => decide (ctx < 64) && decide (ring < 4)
  | .fenceRelease ctx ring => decide (ctx < 64) && decide (ring < 4)
  | .tieSignal ctx ring => decide (ctx < 64) && decide (ring < 4)
  | .tieWait ctx ring => decide (ctx < 64) && decide (ring < 4)
  | .tieReset ctx ring => decide (ctx < 64) && decide (ring < 4)
  | .bondRegister ctx ring => decide (ctx < 64) && decide (ring < 4)
  | .bondRegisterComplete ctx ring => decide (ctx < 64) && decide (ring < 4)
  | .bondRelease ctx ring => decide (ctx < 64) && decide (ring < 4)
  | .bondReleaseComplete ctx ring => decide (ctx < 64) && decide (ring < 4)
  | .tieOperation home _ => decide (home < 5)
  | .tieRelease die tie => decide (die < 5) && decide (tie < 131072)
  | .tieWaitTimeout _ => true
  | .ringRestart ctx rings => decide (ctx < 64) && decide (rings < 16)
  | .contextTeardownRequest ctx => decide (ctx < 64)
  | .contextOpen ctx value => decide (ctx < 64) && decide (value < 2 ^ 32)
  | .contextClose ctx value => decide (ctx < 64) && decide (value < 2 ^ 32)
  | .hstCommit value => decide (value < 2 ^ 32)
  | .memoryRead port ctx addr len _ => decide (port < 80) && (decide (ctx < 64) || ctx == 0xFF) &&
      decide (addr < 2 ^ 48) && decide (1 ≤ len) && decide (addr + len ≤ 2 ^ 48)
  | .memoryWrite port ctx addr data _ => decide (port < 80) && (decide (ctx < 64) || ctx == 0xFF) &&
      decide (addr < 2 ^ 48) && bytesOk data && decide (1 ≤ data.length) && decide (addr + data.length ≤ 2 ^ 48)
  | .writeQueueDrain stack pc => decide (stack < 4) && decide (pc < 32)
  | .patrolScrub stack _ => decide (stack < 4)
  | .refresh stack pc bank => decide (stack < 4) && decide (pc < 32) && decide (bank < 64)
  | .retrainRoundStart stack => decide (stack < 4)
  | .retrainPairDone stack _ _ => decide (stack < 4)
  | .stackTempRead stack _ => decide (stack < 4)
  | .hbmMapCommit value => decide (value < 2 ^ 32)
  | .mapCommitComplete => true
  | .hbmShareCommit value => decide (value < 2 ^ 32)
  | .plbCommit value => decide (value < 2 ^ 32)
  | .hbmCommit stack value => decide (stack < 4) && decide (value < 2 ^ 32)
  | .flitReceive die port flit _ _ _ => decide (die < 5) && decide (port < 4) && bytesOk flit
  | .replayRequest die port seq => decide (die < 5) && decide (port < 4) && decide (seq < 65536)
  | .laneRepairMessage die port epoch lane replacement _ => decide (die < 5) && decide (port < 4) &&
      decide (epoch < 65536) && decide (lane < 22) && decide (replacement < 22)
  | .portRetrain die port => decide (die < 5) && decide (port < 4)
  | .trainingProposal die port epoch width map _ _ => decide (die < 5) && decide (port < 4) &&
      decide (epoch < 65536) && decide (width ≤ 20) && decide (map < 2 ^ 22)
  | .framingCheckEnd die port _ => decide (die < 5) && decide (port < 4)
  | .trainingReady die port epoch width => decide (die < 5) && decide (port < 4) && decide (epoch < 65536) &&
      decide (width ≤ 20)
  | .sidebandSilent die port _ => decide (die < 5) && decide (port < 4)
  | .mtrLoopbackCommit die value => decide (die < 5) && decide (value < 2 ^ 32)
  | .loopbackTestEnd die port _ => decide (die < 5) && decide (port < 4)
  | .mtrCommit die value => decide (die < 5) && decide (value < 2 ^ 32)
  | .budgetGrantPeriod => true
  | .budgetGrant die => decide (1 ≤ die) && decide (die ≤ 4)
  | .budgetReport die => decide (1 ≤ die) && decide (die ≤ 4)
  | .grantTimeout die => decide (1 ≤ die) && decide (die ≤ 4)
  | .reportTimeout die => decide (1 ≤ die) && decide (die ≤ 4)
  | .powerAgentSample die _ _ _ => decide (1 ≤ die) && decide (die ≤ 4)
  | .csiPacket port vc dataType ecc _ payload => decide (port < 16) && decide (vc < 16) && decide (dataType < 64) &&
      decide (ecc < 3) && bytesOk payload
  | .frameStart stream vc ecc => decide (stream < 24) && decide (vc < 16) && decide (ecc < 3)
  | .frameEnd stream vc ecc => decide (stream < 24) && decide (vc < 16) && decide (ecc < 3)
  | .framePublish stream => decide (stream < 24)
  | .frameStale stream => decide (stream < 24)
  | .sensorSilent stream => decide (stream < 24)
  | .camStreamCommit stream value => decide (stream < 24) && decide (value < 2 ^ 32)
  | .camMacCommit mac value => decide (mac < 4) && decide (value < 2 ^ 32)
  | .ethFrameReceive mac _ frame => decide (mac < 4) && bytesOk frame
  | .ethFrameTransmit mac => decide (mac < 4)
  | .batchSweepTimeout stream => decide (stream < 24)
  | .decStreamCommit stream value => decide (stream < 64) && decide (value < 2 ^ 32)
  | .decSamplerCommit sampler value => decide (sampler < 4) && decide (value < 2 ^ 32)
  | .chunkDoorbell stream => decide (stream < 64)
  | .sliceComplete engine report => decide (engine < 4) && report.wf
  | .decodeBudgetExpiry engine => decide (engine < 4)
  | .manifestWrite sampler => decide (sampler < 4)
  | .merCommit value => decide (value < 2 ^ 32)
  | .merInstall value => decide (value < 2 ^ 32)
  | .cycleClose => true
  | .fusionOutputComplete => true
  | .trackerStart => true
  | .trackOutputComplete => true
  | .calibrationAnswer _ => true
  | .proposalTimeout _ => true
  | .meridianHeartbeat => true
  | .meridianInternalFault => true
  | .replayOutcome brick _ _ => decide (brick < 1024)
  | .packInstall value => decide (value < 2 ^ 32)
  | .packRemove value => decide (value < 2 ^ 32)
  | .packCommitComplete => true
  | .fabCtxCommit ctx value => decide (ctx < 64) && decide (value < 2 ^ 32)
  | .railSample island rail mv => (island == 5 || island == 6) && decide (rail < 12) && decide (mv < 65536)
  | .pllCheckWindow island pll _ _ => (island == 5 || island == 6) && decide (pll < 9)
  | .junctionRead die _ _ => decide (die < 9)
  | .heartbeatTimeout island _ => island == 5 || island == 6
  | .islandHeartbeat island => island == 5 || island == 6
  | .hearthHeartbeat => true
  | .islandLinkLost island die _ => (island == 5 || island == 6) && decide (die < 5)
  | .forwardedEvent island => island == 5 || island == 6
  | .safeStateMessage island => island == 5 || island == 6
  | .silentCommand die => decide (die < 5)
  | .islandSelfReset island why => (island == 5 || island == 6) && decide (why < 4)
  | .islandRestartComplete island _ => island == 5 || island == 6
  | .ssOutputPhase island => island == 5 || island == 6
  | .mailboxDegraded port island => decide (port < 80) && (island == 5 || island == 6)
  | .mailboxSilent port island => decide (port < 80) && (island == 5 || island == 6)
  | .calibrationProposal island => island == 5 || island == 6
  | .installationProposal island => island == 5 || island == 6
  | .ouvurHeartbeatSend => true
  | .ouvurHeartbeat port head _ _ _ => decide (port < 4) && head.wf
  | .heartbeatMissInterval port => decide (port < 4)
  | .suspicionReport port head _ _ epoch => decide (port < 4) && head.wf && decide (epoch < 2 ^ 32)
  | .settleWindowEnd => true
  | .ouvurProposal port head epoch _ _ => decide (port < 4) && head.wf && decide (epoch < 2 ^ 32)
  | .acknowledgement port head epoch _ _ => decide (port < 4) && head.wf && decide (epoch < 2 ^ 32)
  | .ouvurCommit port head epoch _ _ => decide (port < 4) && head.wf && decide (epoch < 2 ^ 32)
  | .exclusionNotice port head => decide (port < 4) && head.wf
  | .noQuorumTimeout => true
  | .rejoinReady => true
  | .ouvurLinkRetrain port _ _ => decide (port < 4)
  | .linkKeyRenewal port _ _ => decide (port < 4)
  | .ouvurData port head ctx data => decide (port < 4) && head.wf && decide (ctx < 64) && bytesOk data.bytes
  | .ouvurReady port head ctx _ _ => decide (port < 4) && head.wf && decide (ctx < 64)
  | .allReduce ctx => decide (ctx < 64)
  | .allGather ctx => decide (ctx < 64)
  | .broadcast ctx => decide (ctx < 64)
  | .send ctx => decide (ctx < 64)
  | .receive ctx => decide (ctx < 64)
  | .mirror ctx => decide (ctx < 64)
  | .refill ctx => decide (ctx < 64)
  | .transferTimeout ctx => decide (ctx < 64)
  | .drillEnd => true
  | .ovrCommit value => decide (value < 2 ^ 32)
  | .ovrRejoin value => decide (value < 2 ^ 32)
  | .ovrQCommit ctx value => decide (ctx < 64) && decide (value < 2 ^ 32)
  | .courseRetain course => decide (course < 64)
  | .courseOff course => decide (course < 64)
  | .courseWake course => decide (course < 64)
  | .pwrCommit value => decide (value < 2 ^ 32)
  | .forecastPost seq => decide (seq < 2 ^ 32)
  | .forecastStale => true
  | .thermistorSample tinA tinB toutA toutB => decide (tinA < 65536) && decide (tinB < 65536) &&
      decide (toutA < 65536) && decide (toutB < 65536)
  | .flowPulse input _ => decide (input < 2)
  | .flowMeasure => true
  | .calorimetricCheck _ => true
  | .coolReqUpdate => true
  | .thermalTrip => true
  | .thermalTripRelease => true
  | .provisionInstallerSlot value => decide (value < 2 ^ 32)
  | .revokeInstallerSlot value => decide (value < 2 ^ 32)
  | .provisionOperatorSlot value => decide (value < 2 ^ 32)
  | .revokeOperatorSlot value => decide (value < 2 ^ 32)
  | .debugUnlock value => decide (value < 2 ^ 32)
  | .debugHalfExpiry => true
  | .retestBricks value => decide (value < 2 ^ 32)
  | .drill value => decide (value < 2 ^ 32)
  | .raiseFirmwareMinimum value => decide (value < 2 ^ 32)
  | .raisePolicyMinimum value => decide (value < 2 ^ 32)
  | .policyRegister value => decide (value < 2 ^ 32)
  | .policyRelease value => decide (value < 2 ^ 32)
  | .attestationReport value => decide (value < 2 ^ 32)
  | .copyRecord value => decide (value < 2 ^ 32)
  | .copyCertificateChain value => decide (value < 2 ^ 32)
  | .recordWriteBack => true
  | .keystoneInternalFault => true
  | .pwrGoodRise _ _ => true
  | .pwrGoodFall _ => true
  | .warmRstFall _ => true
  | .wakeNFall _ => true
  | .dialAlarm => true
  | .inputStuck input => decide (input < 4)
  | .resetWarm value => decide (value < 2 ^ 32)
  | .resetCold value _ => decide (value < 2 ^ 32)
  | .resetPartial value => decide (value < 2 ^ 32)
  | .dawnComplete report => report.wf
  | .partialResetComplete _ _ => true
  | .night value => decide (value < 2 ^ 32)
  | .deepNight value => decide (value < 2 ^ 32)
  | .nightEntryComplete => true
  | .nightExitComplete => true
  | .nightwatchHeartbeat => true
  | .nwtInputCommit value => decide (value < 2 ^ 32)
  | .retrainPairStart stack => decide (stack < 4)
  | .laneMeasurementComplete die port good => decide (die < 5) && decide (port < 4) && decide (good < 2 ^ 22)
  | .framingLoss die port => decide (die < 5) && decide (port < 4)
  | .ouvurLinkDown port => decide (port < 4)
  | .ouvurRetransmitRequest port seq => decide (port < 4) && decide (seq < 2 ^ 32)
  | .islandResetAssert island => island == 5 || island == 6
  | .islandResetRelease island _ => island == 5 || island == 6
  | .warmRstRise _ => true
  | .nightwatchSupplyUp => true
  | .nightwatchSupplyLoss => true
  | .perstDeassert _ => true
  | .peerApproval island => island == 5 || island == 6

end Sys2Proof
end

