-- ==== Sys2Proof/Tests/Slice0.lean ====
section
/-! SUPPORT. Small tests. The ill-formed terms come first, one for each check of Instr.wf, which the check refuses. Then,
statement by statement, states and operands that meet its hypotheses. Values come from the spec's rules and examples. -/

set_option Elab.async false

namespace Sys2Proof.Tests

open Sys2Proof.Machine Sys2Proof.Machine.Reg

/-- A header of an Ouvur packet. -/
def goodHead : OvHead := { raw := List.replicate 32 0 }

/-- Ill-formed commands, part 1. -/
theorem test_illFormed1 : ([.dialNowRead 80 false false,
   .nwtCommit (2 ^ 32),
   .nop 1024,
   .halt 1024,
   .jump 1024,
   .loop 1024,
   .loopp 1024,
   .ppoint 1024,
   .wait 1024,
   .mma 1024 .none,
   .drain 1024,
   .unary 1024 .none,
   .binary 1024 .none,
   .reduce 1024 .none,
   .convert 1024 .none,
   .copy 1024 .none,
   .copyg 1024 .none,
   .quant 1024 .none,
   .nsig 1024,
   .nwait 1024,
   .tsig 1024,
   .twaitge 1024,
   .twaiteq 1024,
   .barrier 1024,
   .groutchk 1024,
   .base 1024,
   .stride 1024,
   .count 1024,
   .basep 1024,
   .trowelFetchLaunch 64,
   .launchStage 64,
   .stagingComplete 1 64,
   .bondActivate 1 64,
   .instanceComplete 1 64,
   .wcetExceeded 1 64,
   .courseWatchdogExpiry 64,
   .trowelHeartbeat 64,
   .neighbourLinkFailure 64 1,
   .neighbourLinkFailure 1 24,
   .trwCommit 64 1] : List Instr).all (fun c => !c.wf) = true := by
  decide +kernel

/-- Ill-formed commands, part 2. -/
theorem test_illFormed2 : ([.trwCommit 1 (2 ^ 32),
   .rcCounterRead 80 1 8,
   .rcCounterRead 1 (2 ^ 48) 8,
   .rcCounterRead 1 1 12,
   .registerWrite 80 1 8 1,
   .registerWrite 1 (2 ^ 48) 8 1,
   .registerWrite 1 1 12 1,
   .registerWrite 1 1 8 (2 ^ 64),
   .dayCommit (2 ^ 32),
   .watchEnd 256,
   .switchComplete 64,
   .watchStart 256 1,
   .watchStart 1 64,
   .watchOverrunExpiry 64,
   .brickTestComplete 1024 false 1 1,
   .brickTestComplete 1 false 65536 1,
   .brickTestComplete 1 false 1 65536,
   .brickTestOverdue 1024,
   .teardownScrubComplete 64,
   .doorbellWrite 64 1,
   .doorbellWrite 1 4,
   .doorbellPoll 64 1,
   .doorbellPoll 1 4,
   .launch 64 1,
   .launch 1 4,
   .sieve 64 1,
   .sieve 1 4,
   .fence 64 1,
   .fence 1 4,
   .fenceRelease 64 1,
   .fenceRelease 1 4,
   .tieSignal 64 1,
   .tieSignal 1 4,
   .tieWait 64 1,
   .tieWait 1 4,
   .tieReset 64 1,
   .tieReset 1 4,
   .bondRegister 64 1,
   .bondRegister 1 4,
   .bondRegisterComplete 64 1] : List Instr).all (fun c => !c.wf) = true := by
  decide +kernel

/-- Ill-formed commands, part 3. -/
theorem test_illFormed3 : ([.bondRegisterComplete 1 4,
   .bondRelease 64 1,
   .bondRelease 1 4,
   .bondReleaseComplete 64 1,
   .bondReleaseComplete 1 4,
   .tieOperation 5 1,
   .tieRelease 5 1,
   .tieRelease 1 131072,
   .ringRestart 64 1,
   .ringRestart 1 16,
   .contextTeardownRequest 64,
   .contextOpen 64 1,
   .contextOpen 1 (2 ^ 32),
   .contextClose 64 1,
   .contextClose 1 (2 ^ 32),
   .hstCommit (2 ^ 32),
   .memoryRead 80 1 1 1 {},
   .memoryRead 1 64 1 1 {},
   .memoryRead 1 1 (2 ^ 48) 1 {},
   .memoryRead 1 1 1 0 {},
   .memoryRead 1 1 (2 ^ 48 - 1) 2 {},
   .memoryWrite 80 1 1 [0] {},
   .memoryWrite 1 64 1 [0] {},
   .memoryWrite 1 1 (2 ^ 48) [0] {},
   .memoryWrite 1 1 1 [256] {},
   .memoryWrite 1 1 1 [] {},
   .memoryWrite 1 1 (2 ^ 48 - 1) ([0, 0]) {},
   .writeQueueDrain 4 1,
   .writeQueueDrain 1 32,
   .patrolScrub 4 {},
   .refresh 4 1 1,
   .refresh 1 32 1,
   .refresh 1 1 64,
   .retrainRoundStart 4,
   .retrainPairDone 4 false false,
   .stackTempRead 4 0,
   .hbmMapCommit (2 ^ 32),
   .hbmShareCommit (2 ^ 32),
   .plbCommit (2 ^ 32),
   .hbmCommit 4 1] : List Instr).all (fun c => !c.wf) = true := by
  decide +kernel

/-- Ill-formed commands, part 4. -/
theorem test_illFormed4 : ([.hbmCommit 1 (2 ^ 32),
   .flitReceive 5 1 [] false 1 1,
   .flitReceive 1 4 [] false 1 1,
   .flitReceive 1 1 [256] false 1 1,
   .replayRequest 5 1 1,
   .replayRequest 1 4 1,
   .replayRequest 1 1 65536,
   .laneRepairMessage 5 1 1 1 1 1,
   .laneRepairMessage 1 4 1 1 1 1,
   .laneRepairMessage 1 1 65536 1 1 1,
   .laneRepairMessage 1 1 1 22 1 1,
   .laneRepairMessage 1 1 1 1 22 1,
   .portRetrain 5 1,
   .portRetrain 1 4,
   .trainingProposal 5 1 1 8 1 1 1,
   .trainingProposal 1 4 1 8 1 1 1,
   .trainingProposal 1 1 65536 8 1 1 1,
   .trainingProposal 1 1 1 21 1 1 1,
   .trainingProposal 1 1 1 8 (2 ^ 22) 1 1,
   .framingCheckEnd 5 1 false,
   .framingCheckEnd 1 4 false,
   .trainingReady 5 1 1 8,
   .trainingReady 1 4 1 8,
   .trainingReady 1 1 65536 8,
   .trainingReady 1 1 1 21,
   .sidebandSilent 5 1 false,
   .sidebandSilent 1 4 false,
   .mtrLoopbackCommit 5 1,
   .mtrLoopbackCommit 1 (2 ^ 32),
   .loopbackTestEnd 5 1 [],
   .loopbackTestEnd 1 4 [],
   .mtrCommit 5 1,
   .mtrCommit 1 (2 ^ 32),
   .budgetGrant 0,
   .budgetGrant 5,
   .budgetReport 0,
   .budgetReport 5,
   .grantTimeout 0,
   .grantTimeout 5,
   .reportTimeout 0] : List Instr).all (fun c => !c.wf) = true := by
  decide +kernel

/-- Ill-formed commands, part 5. -/
theorem test_illFormed5 : ([.reportTimeout 5,
   .powerAgentSample 0 1 1 1,
   .powerAgentSample 5 1 1 1,
   .csiPacket 16 1 1 1 false [],
   .csiPacket 1 16 1 1 false [],
   .csiPacket 1 1 64 1 false [],
   .csiPacket 1 1 1 3 false [],
   .csiPacket 1 1 1 1 false [256],
   .frameStart 24 1 1,
   .frameStart 1 16 1,
   .frameStart 1 1 3,
   .frameEnd 24 1 1,
   .frameEnd 1 16 1,
   .frameEnd 1 1 3,
   .framePublish 24,
   .frameStale 24,
   .sensorSilent 24,
   .camStreamCommit 24 1,
   .camStreamCommit 1 (2 ^ 32),
   .camMacCommit 4 1,
   .camMacCommit 1 (2 ^ 32),
   .ethFrameReceive 4 false [],
   .ethFrameReceive 1 false [256],
   .ethFrameTransmit 4,
   .batchSweepTimeout 24,
   .decStreamCommit 64 1,
   .decStreamCommit 1 (2 ^ 32),
   .decSamplerCommit 4 1,
   .decSamplerCommit 1 (2 ^ 32),
   .chunkDoorbell 64,
   .sliceComplete 4 {},
   .sliceComplete 1 { depth := 17 },
   .decodeBudgetExpiry 4,
   .manifestWrite 4,
   .merCommit (2 ^ 32),
   .merInstall (2 ^ 32),
   .replayOutcome 1024 false .none,
   .packInstall (2 ^ 32),
   .packRemove (2 ^ 32),
   .fabCtxCommit 64 1] : List Instr).all (fun c => !c.wf) = true := by
  decide +kernel

/-- Ill-formed commands, part 6. -/
theorem test_illFormed6 : ([.fabCtxCommit 1 (2 ^ 32),
   .railSample 4 1 1,
   .railSample 5 12 1,
   .railSample 5 1 65536,
   .pllCheckWindow 4 1 1 false,
   .pllCheckWindow 5 9 1 false,
   .junctionRead 9 0 0,
   .heartbeatTimeout 4 1,
   .islandHeartbeat 4,
   .islandLinkLost 4 1 false,
   .islandLinkLost 5 5 false,
   .forwardedEvent 4,
   .safeStateMessage 4,
   .silentCommand 5,
   .islandSelfReset 4 1,
   .islandSelfReset 5 4,
   .islandRestartComplete 4 false,
   .ssOutputPhase 4,
   .mailboxDegraded 80 5,
   .mailboxDegraded 1 4,
   .mailboxSilent 80 5,
   .mailboxSilent 1 4,
   .calibrationProposal 4,
   .installationProposal 4,
   .ouvurHeartbeat 4 goodHead 1 1 1,
   .ouvurHeartbeat 1 { raw := [] } 1 1 1,
   .heartbeatMissInterval 4,
   .suspicionReport 4 goodHead 1 1 1,
   .suspicionReport 1 { raw := [] } 1 1 1,
   .suspicionReport 1 goodHead 1 1 (2 ^ 32),
   .ouvurProposal 4 goodHead 1 1 1,
   .ouvurProposal 1 { raw := [] } 1 1 1,
   .ouvurProposal 1 goodHead (2 ^ 32) 1 1,
   .acknowledgement 4 goodHead 1 1 1,
   .acknowledgement 1 { raw := [] } 1 1 1,
   .acknowledgement 1 goodHead (2 ^ 32) 1 1,
   .ouvurCommit 4 goodHead 1 1 1,
   .ouvurCommit 1 { raw := [] } 1 1 1,
   .ouvurCommit 1 goodHead (2 ^ 32) 1 1,
   .exclusionNotice 4 goodHead] : List Instr).all (fun c => !c.wf) = true := by
  decide +kernel

/-- Ill-formed commands, part 7. -/
theorem test_illFormed7 : ([.exclusionNotice 1 { raw := [] },
   .ouvurLinkRetrain 4 false [],
   .linkKeyRenewal 4 false [],
   .ouvurData 4 goodHead 1 {},
   .ouvurData 1 { raw := [] } 1 {},
   .ouvurData 1 goodHead 64 {},
   .ouvurData 1 goodHead 1 { bytes := [256] },
   .ouvurReady 4 goodHead 1 1 1,
   .ouvurReady 1 { raw := [] } 1 1 1,
   .ouvurReady 1 goodHead 64 1 1,
   .allReduce 64,
   .allGather 64,
   .broadcast 64,
   .send 64,
   .receive 64,
   .mirror 64,
   .refill 64,
   .transferTimeout 64,
   .ovrCommit (2 ^ 32),
   .ovrRejoin (2 ^ 32),
   .ovrQCommit 64 1,
   .ovrQCommit 1 (2 ^ 32),
   .courseRetain 64,
   .courseOff 64,
   .courseWake 64,
   .pwrCommit (2 ^ 32),
   .forecastPost (2 ^ 32),
   .thermistorSample 65536 1 1 1,
   .thermistorSample 1 65536 1 1,
   .thermistorSample 1 1 65536 1,
   .thermistorSample 1 1 1 65536,
   .flowPulse 2 1,
   .provisionInstallerSlot (2 ^ 32),
   .revokeInstallerSlot (2 ^ 32),
   .provisionOperatorSlot (2 ^ 32),
   .revokeOperatorSlot (2 ^ 32),
   .debugUnlock (2 ^ 32),
   .retestBricks (2 ^ 32),
   .drill (2 ^ 32),
   .raiseFirmwareMinimum (2 ^ 32)] : List Instr).all (fun c => !c.wf) = true := by
  decide +kernel

/-- Ill-formed commands, part 8. -/
theorem test_illFormed8 : ([.raisePolicyMinimum (2 ^ 32),
   .policyRegister (2 ^ 32),
   .policyRelease (2 ^ 32),
   .attestationReport (2 ^ 32),
   .copyRecord (2 ^ 32),
   .copyCertificateChain (2 ^ 32),
   .inputStuck 4,
   .resetWarm (2 ^ 32),
   .resetCold (2 ^ 32) [],
   .resetPartial (2 ^ 32),
   .dawnComplete { stacksUp := 16 },
   .night (2 ^ 32),
   .deepNight (2 ^ 32),
   .nwtInputCommit (2 ^ 32),
   .retrainPairStart 4,
   .laneMeasurementComplete 5 1 1,
   .laneMeasurementComplete 1 4 1,
   .laneMeasurementComplete 1 1 (2 ^ 22),
   .framingLoss 5 1,
   .framingLoss 1 4,
   .ouvurLinkDown 4,
   .ouvurRetransmitRequest 4 1,
   .ouvurRetransmitRequest 1 (2 ^ 32),
   .islandResetAssert 4,
   .islandResetRelease 4 false,
   .peerApproval 4,
   .exclusionNotice 1 { raw := 256 :: List.replicate 31 0 },
   .exclusionNotice 1 { raw := List.replicate 33 0 },
   .dawnComplete { config := [256] },
   .dawnComplete { unreadable := 16 },
   .dawnComplete { passed := 2438 },
   .sliceComplete 1 { width := 0 },
   .sliceComplete 1 { height := 0 },
   .sliceComplete 1 { depth := 7 }] : List Instr).all (fun c => !c.wf) = true := by
  decide +kernel

/-- Well-formed commands at the ends of their operands' ranges. -/
theorem test_wellFormed : ([.mma 1023 .none, .memoryRead 73 255 (2 ^ 48 - 1) 1 {}, .registerWrite 68 0xF0000001001C 32 1,
    .railSample 6 11 65535, .inputStuck 3, .csiPacket 15 15 63 2 false [255], .launch 63 3] : List Instr).all Instr.wf = true := by
  decide +kernel

/-- No row of the command table has bits, so no word spells a command. -/
theorem test_noWord : decodeTableWord 32 0x12345678 = none ∧ State.reset.withFetchWord 32 7 = State.reset := ⟨rfl, rfl⟩

/-! ## DialFollowsItsSource -/

/-- A package in run that takes its time from MAC 0, at a Dial time of 5 ms. -/
def dialState : State :=
  { mode := .run, regs := { live := [(fkey NWT_DIAL_NOW.dial_ns 0, 5000000)], committed := [(fkey NWT_DIAL_CTRL.source_sel 0, 1)] } }

/-- The source is selected, and one reference lies on either side of each limit of 1 ms. -/
theorem meets_dialSync : 1 ≤ com dialState NWT_DIAL_CTRL.source_sel ∧ com dialState NWT_DIAL_CTRL.source_sel ≤ 4 ∧
    dialState.mode = .run ∧ dial dialState + 1000000 < 6000001 ∧ 3999999 + 1000000 < dial dialState ∧
    (6000000 ≤ dial dialState + 1000000 ∧ dial dialState ≤ 4000000 + 1000000) := by decide

/-! ## DialHoldoverNightRead -/

/-- A package whose Dial time is locked. -/
def lockedState : State := { mode := .run, regs := { live := [(fkey NWT_DIAL_STATUS.sync_state 0, 2)] }, clock := { rate := 3 } }

theorem meets_dialHoldover : rd lockedState NWT_DIAL_STATUS.sync_state = 2 := by decide

theorem meets_nightwatchTick : ({ mode := .night } : State).mode = .night ∧
    ({ mode := .night } : State).clock.nightFrac < 32768 ∧ dial { mode := .night } + 30518 < 2 ^ 64 := by decide

/-! ## DialCommitAndWatchdogCommit -/

/-- A package in run with one staged field of the Dial block set. -/
def nwtState (v : Nat) : State := { mode := .run, regs := { staged := [(fkey NWT_DIAL_CTRL.source_sel 0, v)] } }

/-- The hub link of die 4 up at both ends. -/
def hubLink4 : AMap Nat := [(fkey MTR_HUB_PORT_STATUS.state (3 * 0x40), 2), (fkey MTR_PORT_STATUS.state (portAt 4 2), 2)]

/-- A package in run that reaches die 4, with a staged watchdog period for Course 63. -/
def trwState (v : Nat) : State :=
  { mode := .run, regs := { live := hubLink4, staged := [(fkey TRW_WDOG_CTRL.timeout_us (atCourse 63 0x100), v)] } }

/-- A package in run that reaches die 4, with every die silent. -/
def silentState : State := { mode := .run, regs := { live := hubLink4 }, silent := [(0, true), (1, true), (2, true), (3, true), (4, true)] }

theorem meets_nwtCommit : dieSilent (nwtState 5) 0 = false ∧ stg (nwtState 5) NWT_DIAL_CTRL.source_sel ≤ 5 ∧
    1 ≤ stg (nwtState 5) NWT_DIAL_CTRL.slew_limit_ppm ∧ stg (nwtState 5) NWT_DIAL_CTRL.slew_limit_ppm ≤ 200 ∧
    1 ≤ stg (nwtState 5) NWT_DIAL_CTRL.lock_count ∧ 1 ≤ stg (nwtState 5) NWT_DIAL_CTRL.lock_window ∧
    stg (nwtState 5) NWT_DIAL_CTRL.lock_count < 256 ∧ stg (nwtState 5) NWT_DIAL_CTRL.lock_window < 256 ∧
    dieSilent (nwtState 6) 0 = false ∧ 5 < stg (nwtState 6) NWT_DIAL_CTRL.source_sel := by decide

theorem meets_trwCommit : reach (trwState 1000000) 0 (courseDie 63) = true ∧ reach (trwState 1000001) 0 (courseDie 63) = true ∧
    reach (nwtState 0) 0 (courseDie 63) = false ∧ dieSilent (trwState 1000000) (courseDie 63) = false ∧
    1 ≤ stg (trwState 1000000) TRW_WDOG_CTRL.timeout_us (atCourse 63 0x100) ∧
    stg (trwState 1000000) TRW_WDOG_CTRL.timeout_us (atCourse 63 0x100) ≤ 1000000 ∧
    dieSilent (trwState 1000001) (courseDie 63) = false ∧
    1000000 < stg (trwState 1000001) TRW_WDOG_CTRL.timeout_us (atCourse 63 0x100) := by decide

theorem meets_silentCommit : dieSilent silentState 0 = true ∧ dieSilent silentState (courseDie 63) = true ∧
    reach silentState 0 (courseDie 63) = true := by decide

/-! ## PcieLinkAndItsWindow -/

/-- A package in run with the PCIe endpoint enabled and its link up, and ring 3 of context 63 in the outbound window. -/
def pcieState : State :=
  { mode := .run, pcieUp := true, nwt := { boot := { flags := 1 } },
    regs := { live := [(fkey HST_CTX_STATE.state (63 * 0x100), 1)],
              committed := [(fkey HST_SQ_BASE.sq_base (63 * 0x100 + 8 * 3), 0x400000000000), (fkey HST_SQ_CFG.enable (63 * 0x100 + 4 * 3), 1)] } }

theorem meets_pcie : pcieState.perst = false ∧ pcieState.mode = .run ∧ bit pcieState.nwt.boot.flags 0 = true ∧
    ctxOpen pcieState 63 ∧ ringEnabled pcieState 63 3 ∧ ringInPcie pcieState 63 3 := by decide

/-! ## RegisterAccessesComplete -/

theorem meets_registerAccess : (regAt 0x600008).isSome = true ∧ (regAt 0x10010).isSome = true ∧ (regAt 0x10008).isSome = true ∧
    wordIgnored 0x10008 4 = false ∧ reach (trwState 0) 0 (0x40200000 / 0x10000000) = true ∧
    (regAt 0x4020000C).isSome = true := by decide +kernel

/-! ## SequencerControl -/

/-- A Bond image of two roles side by side: the whole Bed, bit 0 of flags set, a role map. -/
def img0 : List Nat :=
  (List.range 160).map (fun i => match i with
    | 12 => 1 | 32 => 2 | 33 => 2 | 34 => 1 | 36 => 3 | 40 => 1 | 44 => 1 | 58 => 4 | 128 => 5 | 130 => 255 | 132 => 144
    | 136 => 2 | 145 => 1 | _ => 0)

/-- A role on Brick 0 with one word in its program. -/
def role0 (w : Nat) : Role := { brick := 0, program := leBytes 4 w }

/-- An instance of it on Course 0, with a second role on Brick 1 that has the program given. -/
def inst0 (r : Role) (other : Role) : Inst := { course := 0, phase := .active, bricks := [0, 1], roles := [r, other], params := [0, 3, 70000, 7] }

def launch0 (r other : Role) : Launch := { id := 1, ctx := 0, ring := 0, count := 0, raw := List.replicate 64 0, image := img0, insts := [inst0 r other] }

/-- A package in run in which context 0 is open, holds Course 0, and runs two roles there. -/
def roleState (r other : Role) : State :=
  { mode := .run, fab := { launches := [launch0 r other], courses := [(0, { owner := 0 })] },
    regs := { live := [(fkey TRW_COURSE_STATE.context (atCourse 0 0x100), 0), (fkey HST_CTX_STATE.state 0, 1)] } }

def site0 (r other : Role) : Site := ⟨launch0 r other, inst0 r other, r, 0⟩

/-- The second role, at a NOP. -/
def other0 : Role := { brick := 1, program := leBytes 4 0 }

/-- Whether an instruction with operation `op` issues from a role, at a site that stands in the state. -/
def issues (r : Role) (op : Nat) : Prop :=
  issuing (roleState r other0) 0 op = some (site0 r other0) ∧ roleAt (roleState r other0) (site0 r other0) = some r

theorem meets_nop : issues (role0 0) opNop := by unfold issues; decide +kernel
theorem meets_wait : issues (role0 0x06000005) opWait := by unfold issues; decide +kernel
theorem meets_halt : issues (role0 0x01000000) opHalt := by unfold issues; decide +kernel
theorem meets_jump : issues (role0 0x02038000) opJump := by unfold issues; decide +kernel
theorem meets_loop : issues (role0 0x03038002) opLoop := by unfold issues; decide +kernel
theorem meets_loopp_skip : issues (role0 0x04038000) opLoopp ∧ paramWord (launch0 (role0 0x04038000) other0) 0 0 = 0 := by
  unfold issues; decide +kernel
theorem meets_loopp : issues (role0 0x04038001) opLoopp ∧ paramWord (launch0 (role0 0x04038001) other0) 0 1 = 2 + 1 := by
  unfold issues; decide +kernel
theorem meets_ppoint : issues (role0 0x05000000) opPpoint ∧
    stopsHere (roleState (role0 0x05000000) other0) (site0 (role0 0x05000000) other0) = false := by unfold issues; decide +kernel
/-- Course 0 is asked to stop. -/
def stopState : State :=
  { roleState (role0 0x05000000) other0 with fab := { (roleState (role0 0x05000000) other0).fab with courses := [(0, { owner := 0, preempt := true })] } }

theorem meets_ppoint_stop : issuing stopState 0 opPpoint = some (site0 (role0 0x05000000) other0) ∧
    stopsHere stopState (site0 (role0 0x05000000) other0) = true := by decide +kernel

/-! ## SequencerSync -/

/-- Role 0 with a handshake flag raised from the east. -/
def flagged (w : Nat) : Role := { role0 w with flags := [false, true, false, false] }

/-- The ranges of every context span all Ties, and the links of die 1 are up. -/
def tieState (r : Role) : State :=
  { roleState r other0 with
    regs := { live := [(fkey TRW_COURSE_STATE.context (atCourse 0 0x100), 0), (fkey HST_CTX_STATE.state 0, 1)],
              committed := [(fkey HST_TIE_COUNT.tie_count 0, 131072)] } }

theorem meets_nsig : issues (role0 0xA0040000) opNsig ∧
    (cellTowards (roleCell img0 0) (bits 0xA0040000 18 2)).bind (roleAtCell img0) = some 1 ∧
    roleAt (roleState (role0 0xA0040000) other0) { site0 (role0 0xA0040000) other0 with k := 1 } = some other0 := by
  unfold issues; decide +kernel

theorem meets_nwait : issues (flagged 0xA1040000) opNwait ∧ (flagged 0xA1040000).flags.getD (bits 0xA1040000 18 2) false = true := by
  unfold issues; decide +kernel

theorem meets_nwait_wait : issues (role0 0xA1040000) opNwait ∧ (role0 0xA1040000).flags.getD (bits 0xA1040000 18 2) false = false := by
  unfold issues; decide +kernel

theorem meets_tsig : issuing (tieState (role0 0xA2100005)) 0 opTsig = some (site0 (role0 0xA2100005) other0) ∧
    tieOf (site0 (role0 0xA2100005) other0) < 131072 ∧
    tieRefused (tieState (role0 0xA2100005)) 0 (tieOf (site0 (role0 0xA2100005) other0)) = false ∧
    reach (tieState (role0 0xA2100005)) (courseDie 0) (tieHome (tieOf (site0 (role0 0xA2100005) other0))) = true := by decide +kernel

theorem meets_twaitge : issuing (tieState (role0 0xA3100005)) 0 opTwaitge = some (site0 (role0 0xA3100005) other0) ∧
    stopPending (tieState (role0 0xA3100005)) (site0 (role0 0xA3100005) other0) = false := by decide +kernel

theorem meets_twaiteq : issuing (tieState (role0 0xA4100005)) 0 opTwaiteq = some (site0 (role0 0xA4100005) other0) ∧
    stopPending (tieState (role0 0xA4100005)) (site0 (role0 0xA4100005) other0) = false := by decide +kernel

theorem meets_barrier_wait : issues (role0 0xA5000000) opBarrier ∧
    instAt (roleState (role0 0xA5000000) other0) (site0 (role0 0xA5000000) other0) = some (inst0 (role0 0xA5000000) other0) ∧
    other0 ≠ role0 0xA5000000 ∧ other0.brick ≠ 0 ∧ other0.halted = false ∧ other0.atBarrier = false := by
  unfold issues; decide +kernel

theorem meets_barrier : issuing (roleState (role0 0xA5000000) { other0 with atBarrier := true }) 0 opBarrier
    = some (site0 (role0 0xA5000000) { other0 with atBarrier := true }) := by decide +kernel

/-! ## AddressGenerators -/

theorem meets_base : issues (role0 0xE0400007) opBase := by unfold issues; decide +kernel
theorem meets_stride : issues (role0 0xE14FFFFF) opStride := by unfold issues; decide +kernel
theorem meets_count : issues (role0 0xE2400003) opCount := by unfold issues; decide +kernel
theorem meets_basep : issues (role0 0xE3400002) opBasep ∧ bit 0xE3400002 4 = false := by unfold issues; decide +kernel
theorem meets_basep_two : issues (role0 0xE3400012) opBasep ∧ bit 0xE3400012 4 = true ∧
    paramWord (launch0 (role0 0xE3400012) other0) 0 2 % 2 ^ 32 + paramWord (launch0 (role0 0xE3400012) other0) 0 3 % 2 ^ 32 * 2 ^ 32 < 2 ^ 42 := by
  unfold issues; decide +kernel
theorem meets_groutchk : issues (role0 0xC0140003) opGroutchk := by unfold issues; decide +kernel

/-! ## MacArray -/

/-- A role at an INT8 MMA of one block into tile 1: streamers S0 and S1 with one run each, of lane 0. -/
def mmaRole (w : Nat) : Role :=
  { role0 w with
    agens := [{ base := 0 }, { base := 1 }, {}, {}]
    streamers := [0, 0, 16, 0, 1, 0] ++ List.replicate 26 0 ++ [1, 0, 17, 0, 1, 0] ++ List.replicate 26 0 }

/-- Its Brick: A is 3 and 5 at the first two places, B is 7 and 9, each streamer one run of 32 elements; tile 1 holds 100. -/
def mmaState (w : Nat) : State :=
  let s := roleState (mmaRole w) other0
  { s with fab := { s.fab with
      bed := [(0, 3), (1, 5), (64, 7), (65, 9), (1027, 32), (1091, 32)]
      acc := [(1024, 100)] } }

/-- The MMA of the role. -/
def mmaJob0 (w : Nat) : MmaJob := mmaJob (site0 (mmaRole w) other0) 0 0 1

theorem meets_mma : issuing (mmaState 0x20884000) 0 opMma = some (site0 (mmaRole 0x20884000) other0) ∧
    roleAt (mmaState 0x20884000) (site0 (mmaRole 0x20884000) other0) = some (mmaRole 0x20884000) ∧
    (mmaJob0 0x20884000).quoin = false ∧ (mmaJob0 0x20884000).tile = 1 ∧
    streamFault (mmaState 0x20884000) img0 0 (mmaJob0 0x20884000).ra 8 1 0 = none ∧
    streamFault (mmaState 0x20884000) img0 0 (mmaJob0 0x20884000).rb 8 1 1 = none := by decide +kernel

theorem meets_drain : issuing (mmaState 0x21004000) 0 opDrain = some (site0 (mmaRole 0x21004000) other0) ∧
    roleAt (mmaState 0x21004000) (site0 (mmaRole 0x21004000) other0) = some (mmaRole 0x21004000) := by decide +kernel

/-! ## LaneUnit -/

/-- A role at a LANE word: generator 0 from Bed line 0, generator 1 from Bed line 16, in the source format given. -/
def laneRole (w fmt : Nat) : Role :=
  { role0 w with agens := [{ base := 0, counts := [64, 1, 1, 1], strides := [1, 0, 0, 0], tail := [0, 0, 0, 0, fmt, 0, 0, 0] },
                           { base := 16, counts := [64, 1, 1, 1], strides := [1, 0, 0, 0] }, {}, {}] }

/-- Its Brick, with FP32 2.0 and 1.0 in the first two places. -/
def laneState (w fmt : Nat) : State :=
  let s := roleState (laneRole w fmt) other0
  { s with fab := { s.fab with bed := [(3, 0x40), (6, 0x80), (7, 0x3F)] } }

/-- Whether a LANE word issues with one vector on lines that lie in the Bed. -/
def laneMeets (w fmt op : Nat) : Prop :=
  issuing (laneState w fmt) 0 op = some (site0 (laneRole w fmt) other0) ∧
  roleAt (laneState w fmt) (site0 (laneRole w fmt) other0) = some (laneRole w fmt) ∧
  (laneJob (site0 (laneRole w fmt) other0) op).1.n = 1 ∧
  linesOk img0 (laneJob (site0 (laneRole w fmt) other0) op).1.src ∧
  linesOk img0 (laneJob (site0 (laneRole w fmt) other0) op).1.dst ∧
  (laneJob (site0 (laneRole w fmt) other0) op).1.dst.Nodup

theorem meets_unary : laneMeets 0x400C0400 0 opUnary := by unfold laneMeets; decide +kernel
theorem meets_binary : laneMeets 0x41000400 0 opBinary ∧
    (laneJob (site0 (laneRole 0x41000400 0) other0) opBinary).1.fn ≠ 5 ∧
    (laneJob (site0 (laneRole 0x41000400 0) other0) opBinary).1.tile = none := by
  unfold laneMeets; decide +kernel
theorem meets_reduce : laneMeets 0x42000400 0 opReduce := by unfold laneMeets; decide +kernel
theorem meets_convert : laneMeets 0x43008400 0 opConvert := by unfold laneMeets; decide +kernel

/-! ## MoveAndScaleUnits -/

/-- A role at a MOVE word: generator 0 from Bed line 0 and generator 1 from Bed line 100, in line order. -/
def moveRole (w : Nat) : Role :=
  { role0 w with agens := [{ base := 0, counts := [64, 1, 1, 1], strides := [1, 0, 0, 0] },
                           { base := 100, counts := [64, 1, 1, 1], strides := [1, 0, 0, 0], tail := [5, 0, 0, 0, 0, 0, 0, 0] }, {}, {}] }

/-- Its Brick, with some bytes, and a context whose Grout table lies in a page that it owns. -/
def moveState (w : Nat) : State :=
  let s := roleState (moveRole w) other0
  { s with
    fab := { s.fab with bed := [(0, 9), (4095, 8)] }
    mem := { s.mem with home := [(16, 16)] }
    regs := { s.regs with committed := [(fkey FAB_GROUT_TABLE.grout_table 0, 0x100000)] } }

/-- Whether a MOVE word issues with its lines in bounds and apart. -/
def moveMeets (w op : Nat) (grout : Bool) : Prop :=
  issuing (moveState w) 0 op = some (site0 (moveRole w) other0) ∧
  (moveJob w grout).sk = 0 ∧ (moveJob w grout).dk = 0 ∧
  linesOk img0 (((moveRole w).agen 0).take (moveJob w grout).n) ∧
  linesOk img0 (((moveRole w).agen 1).take (moveJob w grout).n) ∧
  (((moveRole w).agen 1).take (moveJob w grout).n).Nodup ∧
  (∀ a ∈ ((moveRole w).agen 0).take (moveJob w grout).n, a ∉ ((moveRole w).agen 1).take (moveJob w grout).n)

/-- The image declares the whole Bed and no more. -/
theorem meets_bedBytes : imgBed img0 ≤ 262144 := by decide +kernel

theorem meets_copy : moveMeets 0x60000002 opCopy false := by unfold moveMeets; decide +kernel

theorem meets_copyg : moveMeets 0x6100003F opCopyg true ∧ (moveJob 0x6100003F true).n = 64 ∧
    (groutWrite 0 0 5 0 (moveState 0x6100003F)).1 = 0 := by unfold moveMeets; decide +kernel

/-- A role at a QUANT word: one row of 32 FP32 elements from Bed lines 0 and 1 to INT8 in Bed line 100; the scale block at
line 200, the side records from line 300. -/
def quantRole : Role :=
  { role0 0x80808000 with
    agens := [{ base := 0, counts := [2, 1, 1, 1], strides := [1, 0, 0, 0] },
              { base := 100, counts := [1, 1, 1, 1], tail := [0, 0, 0, 0, 0, 0, 200, 0] }, {}, {}] }

def quantState : State :=
  let s := roleState quantRole other0
  { s with fab := { s.fab with bed := [(3, 0x40), (6, 0x80), (7, 0x3F), (12800, 44), (12801, 1)] } }

theorem meets_quant : issuing quantState 0 opQuant = some (site0 quantRole other0) ∧ (scaleJob quantRole).rows = 1 ∧
    (scaleJob quantRole).carried = false ∧ bedBytesOk img0 ((scaleJob quantRole).line * 64) 128 ∧
    scaleBlockBad (scaleBlock quantState 0 200) (scaleJob quantRole).len = false ∧ rowLenBad (scaleJob quantRole).len = false ∧
    rowLines (site0 quantRole other0) (scaleJob quantRole) (scaleBlock quantState 0 200) 0 = ([0, 1], [100], 300) ∧
    rowOverlaps (scaleJob quantRole) ([0, 1], [100], 300) = false := by decide +kernel

/-! ## TrowelTakesAndStages -/

/-- A Bond image of one role that only halts: 512 bytes, a program at 192 and a role map at 256. -/
def haltImage : List Nat :=
  (List.range 512).map (fun i => match i with
    | 0 => 0x42 | 1 => 0x4F | 2 => 0x4E | 3 => 0x44 | 4 => 1 | 6 => 128 | 9 => 2 | 12 => 2
    | 32 => 1 | 33 => 1 | 34 => 1 | 36 => 1 | 44 => 1 | 48 => 100 | 72 => 128 | 73 => 1
    | 128 => 1 | 132 => 192 | 136 => 4
    | 140 => crc32c [0, 0, 0, 1] % 256 | 141 => crc32c [0, 0, 0, 1] / 256 % 256 | 142 => crc32c [0, 0, 0, 1] / 65536 % 256
    | 143 => crc32c [0, 0, 0, 1] / 16777216
    | 144 => 5 | 146 => 255 | 149 => 1 | 152 => 1
    | 156 => crc32c [0] % 256 | 157 => crc32c [0] / 256 % 256 | 158 => crc32c [0] / 65536 % 256 | 159 => crc32c [0] / 16777216
    | 195 => 1 | _ => 0)

/-- A launch of the image in slot 0 by context 0 on Course 0, in the phase given. -/
def haltLaunch (i : Inst) (rest : List Inst) (img : List Nat) : Launch :=
  { id := 1, ctx := 0, ring := 0, count := 0, raw := List.replicate 64 0, image := img, insts := i :: rest }

/-- A package in run: context 0 is open and holds Course 0, the image lies in slot 0 of the Bond store, and die 4, whose
stack holds the store, is reached. -/
def haltState (i : Inst) (rest : List Inst) (img : List Nat) : State :=
  let s : State :=
    { mode := .run
      fab := { launches := [haltLaunch i rest img], courses := [(0, { owner := 0 })] }
      rings := { store := [(0, { owner := some 0, valid := true })] }
      regs := { live := [(fkey TRW_COURSE_STATE.context (atCourse 0 0x100), 0), (fkey HST_CTX_STATE.state 0, 1),
                         (fkey MTR_PORT_STATUS.state (portAt 1 1), 2), (fkey MTR_PORT_STATUS.state (portAt 4 0), 2)] } }
  ((List.range 512).zip haltImage).foldl (fun s e => putByte (physOf s (slotAddr 0) + e.1) (BitVec.ofNat 8 e.2) s) s

/-- The states in which Course 0 takes, stages, loads and activates the launch. -/
def queuedInst : Inst := { course := 0 }
def waitingInst : Inst := { course := 0, checked := true }
def stagingInst : Inst := { course := 0, phase := .staging, checked := true, bricks := [0] }
def stagedInst : Inst := { course := 0, phase := .staged, checked := true, bricks := [0] }
def haltedInst : Inst := { course := 0, phase := .active, bricks := [0], roles := [{ brick := 0, halted := true }] }

/-- The state in which the Trowel reads the image, and its read. -/
def fetchState : State :=
  restartWdog 0 (modCourse 0 (fun y => { y with ringNext := 1 }) (haltState queuedInst [] []))

def fetchRead : Nat × List Nat × State :=
  readMem 0 0 (slotAddr 0) (min 131072 (max 384 (leNat ((List.range 4).map (fun i => slotByte fetchState 0 (8 + i))))))
    [(1, 0x0711, 0)] fetchState

theorem meets_trowelFetch : trowelOpen (haltState queuedInst [] []) 0 = true ∧
    nextHead (haltState queuedInst [] []) 0 = some (haltLaunch queuedInst [] [], queuedInst) ∧
    instOf (haltState queuedInst [] []) 1 0 = some queuedInst ∧
    launchOf (haltState queuedInst [] []) 1 = some (haltLaunch queuedInst [] []) ∧
    (haltLaunch queuedInst [] []).insts.any (fun i => i.phase == .refused) = false ∧
    rdB (haltState queuedInst [] []) TRW_COURSE_STATE.course_fenced (atCourse 0 0x100) = false ∧
    handleSlot fetchState 0 0 = some 0 ∧ fetchRead.1 = 0 ∧
    loadStatus fetchRead.2.2 (haltLaunch queuedInst [] []) 0 fetchRead.2.1 [] [] [] = 0 := by decide +kernel

theorem meets_launchStage : trowelOpen (haltState waitingInst [] haltImage) 0 = true ∧
    queueHead (haltState waitingInst [] haltImage) 0 0 0 = some (haltLaunch waitingInst [] haltImage, waitingInst) ∧
    launchOf (haltState waitingInst [] haltImage) 1 = some (haltLaunch waitingInst [] haltImage) ∧
    (haltLaunch waitingInst [] haltImage).insts.any (fun i => i.phase == .refused) = false ∧
    footprintBad (haltState waitingInst [] haltImage) haltImage 0 0 1 = false ∧
    (firstPlace (haltState waitingInst [] haltImage) (placements (haltState waitingInst [] haltImage) haltImage 0)).isSome := by
  decide +kernel

theorem meets_stagingComplete : launchOf (haltState stagingInst [] []) 1 = some (haltLaunch stagingInst [] []) ∧
    instOf (haltState stagingInst [] []) 1 0 = some stagingInst ∧
    (readMem 0 0 (slotAddr 0) 512 [(1, 0x0711, 0)] (haltState stagingInst [] [])).1 = 0 ∧ imageOk haltImage = true := by decide +kernel

theorem meets_bondActivate : instOf (haltState stagedInst [] haltImage) 1 0 = some stagedInst ∧
    (haltLaunch stagedInst [] haltImage).accepted = true ∧ trowelOpen (haltState stagedInst [] haltImage) 0 = true ∧
    courseCtx (haltState stagedInst [] haltImage) 0 = 0 ∧
    stagedInst.bricks.all (brickFree (haltState stagedInst [] haltImage)) = true := by decide +kernel

/-- The launch has a second instance on Course 1 that is still active. -/
def twoInsts : State := haltState haltedInst [{ course := 1, phase := .active }] haltImage

theorem meets_instanceComplete : instOf twoInsts 1 0 = some haltedInst ∧ haltedInst.roles.all (·.halted) = true ∧
    (haltLaunch haltedInst [{ course := 1, phase := .active }] haltImage).insts.all
      (fun k => k.phase == .done || k.course == 0) = false := by decide +kernel

/-! ## TrowelBudgetsAndHeartbeat -/

/-- An instance that has run for longer than the 100 cycles of its Bond, with a watchdog armed. -/
def lateInst : Inst := { course := 0, phase := .active, bricks := [0], roles := [{ brick := 0 }], cycles := 101 }

def lateState : State :=
  let s := haltState lateInst [] haltImage
  { s with fab := { s.fab with courses := [(0, { owner := 0, wdogAt := some 5000 })] } }

theorem meets_wcetExceeded : instOf lateState 1 0 = some lateInst ∧ imgWcet haltImage < lateInst.cycles ∧
    lateInst.roles.any Role.counts = true ∧ ctxOpen lateState 0 = true := by decide +kernel

theorem meets_courseWatchdog : (courseOf lateState 0).wdogAt = some 5000 ∧ ticking lateState = false ∧
    courseCtx lateState 0 = 0 ∧ ctxOpen lateState 0 = true := by decide +kernel

/-- An instance parked at a PPOINT. -/
def parkedInst : Inst := { course := 0, phase := .preempted, bricks := [0], roles := [{ brick := 0, atPpoint := true }] }

theorem meets_instanceResume : launchOf (haltState parkedInst [] haltImage) 1 = some (haltLaunch parkedInst [] haltImage) ∧
    trowelOpen (haltState parkedInst [] haltImage) 0 = true ∧ courseCtx (haltState parkedInst [] haltImage) 0 = 0 ∧
    parkedInst.bricks.any (brickLost (haltState parkedInst [] haltImage) 1) = false := by decide +kernel

theorem meets_linkFailure : bit (rd (haltState parkedInst [] []) TRW_LINK_FENCE.link_fenced (atCourse 0 0x100)) 23 = false ∧
    (instsOn (haltState parkedInst [] []) 0).all (fun x => x.2.phase != .active) = true := by decide +kernel

/-! ## SieveTakesAndStartsJobs -/

/-- A package in run: the hub link of die 1 is up, context 0 is open and owns page 0, page 1 is the host partition's,
both on stack 1 in the frames of their numbers. -/
def ioState : State :=
  { mode := .run
    mem := { home := [(0, 0), (1, 0x40000001)] }
    regs := { live := [(fkey HST_CTX_STATE.state 0, 1), (fkey MTR_PORT_STATUS.state (portAt 1 2), 2),
                       (fkey MTR_HUB_PORT_STATUS.state 0, 2)] } }

/-- A Sieve record at 0x1000 of page 0: corners without anchors, two candidates, one class, threshold 0. -/
def sieveRecord : List Nat :=
  [1, 0, 0, 0, 2, 0, 1, 0, 1, 0] ++ List.replicate 31 0 ++ [0x20] ++ List.replicate 11 0 ++ [0x30] ++ List.replicate 5 0
    ++ [0x40, 0, 0, 0, 0]

/-- Its descriptor, count 0 of ring 0 of context 0. -/
def sieveRaw : List Nat := [2, 1] ++ List.replicate 23 0 ++ [0x10] ++ List.replicate 38 0
def sieveDesc : Desc := { ctx := 0, ring := 0, count := 0, raw := sieveRaw, phase := .forwarded }

/-- Two candidates: one of width and height 2 (0x4000 as BF16) with score 1, one with no size. -/
def sieveCands : List Nat := [0, 0x40, 0, 0x40, 0, 0x40, 0, 0x40, 0, 0, 0x80, 0x3F, 0, 0, 0, 0] ++ List.replicate 16 0

def sieveState : State :=
  let s := poke 0x2000 sieveCands (poke 0x1000 sieveRecord ioState)
  { s with rings := { s.rings with sieveIn := [(0, 0, 0)], descs := [sieveDesc] } }

/-- The two reads of the acceptance. -/
def sieveRead1 : IoResult × State :=
  ioRead sievePort 0 0x0350 false 0x1000 64 (holdRing 0 0 .none { sieveState with rings := { sieveState.rings with sieveIn := [] } })
def sieveRead2 : IoResult × State := ioRead sievePort 0 0x0350 false 0x3000 4 sieveRead1.2

theorem meets_sieveAccept : sieveState.rings.descs.find? (fun d => d.ctx == 0 && d.ring == 0 && d.count == 0) = some sieveDesc ∧
    fld sieveRaw 24 6 = 0x1000 ∧ sieveRead1.1 = { data := sieveRecord } ∧ sieveMalformed sieveRecord = false ∧
    fld sieveRecord 52 6 = 0x3000 ∧ ctxSealed sieveRead1.2 0 = false ∧ sieveRead2.1 = { data := [0, 0, 0, 0] } ∧
    threshBad sieveRecord [0, 0, 0, 0] = false ∧ sieveOverlap sieveRecord 0x1000 = false ∧
    ctxSealed sieveRead2.2 0 = false := by decide +kernel

/-- The job accepted, alone in the queue, with a result or none. -/
def sieveJob (w : Option SieveResult) : SieveJob :=
  { ctx := 0, ring := 0, count := 0, raw := sieveRaw, record := sieveRecord, thresh := [0, 0, 0, 0], result := w }
def jobState (w : Option SieveResult) : State := { sieveState with sieve := { jobs := [sieveJob w] } }
def offState : State := wrB SIV_STATUS.disabled 0 true (jobState none)

theorem meets_sieveStart : rdB (jobState none) SIV_STATUS.disabled = false ∧
    (ioRead sievePort 0 0x0350 (ctxSealed (jobState none) 0) 0x2000 32 (jobState none)).1 = { data := sieveCands } ∧
    (ioRead sievePort 0 0x0350 false 0 0
      (ioRead sievePort 0 0x0350 (ctxSealed (jobState none) 0) 0x2000 32 (jobState none)).2).1 = {} ∧
    (ioRead sievePort 0 0x0350 (ctxSealed (jobState none) 0) 0x2000 32 (jobState none)).2.sieve.jobs.head? = some (sieveJob none) ∧
    rdB offState SIV_STATUS.disabled = true ∧ offState.sieve.jobs = [sieveJob none] := by decide +kernel

/-! ## SieveCompletesJobs -/

/-- The result of the job, which writes its summary and one entry at 0x4000. -/
def sieveDone : SieveResult := sieveWork sieveRecord [0, 0, 0, 0] sieveCands []

theorem meets_sieveComplete : (jobState (some sieveDone)).sieve.jobs.head? = some (sieveJob (some sieveDone)) ∧
    (writeJob (sieveJob (some sieveDone)) sieveDone (jobState (some sieveDone))).1 = 0 ∧
    rdB (jobState (some sieveDone)) SIV_STATUS.disabled = false := by decide +kernel

/-! ## DayPlanCommits -/

/-- Little-endian bytes of a width at a place of an image. -/
def plant (l : List Nat) (at_ n v : Nat) : List Nat := l.take at_ ++ leBytes n v ++ l.drop (at_ + n)

/-- A plan image of a 1,000 µs period with one Watch of context 0 over the whole period on Course 0. -/
def planImage : List Nat :=
  let z := List.replicate 608 0
  let h := plant (plant (plant (plant (plant (plant (plant z 0 4 0x4E414C50) 4 2 1) 6 2 1) 8 4 1000) 12 2 1000) 14 2 50) 16 8 3000000
  let w := plant (plant (plant (plant h 28 2 100) 30 2 100) 32 2 100) 34 2 100
  plant (plant (plant (plant w 24 4 7) 580 4 1000) 586 2 1) 592 8 1

/-- The image lies at the start of the host partition's page, which DAY_PLAN_ADDR names. -/
def dayState : State :=
  let s := poke 0x10000 planImage ioState
  { s with regs := { s.regs with staged := [(fkey DAY_PLAN_ADDR.plan_addr 0, 0x10000)] } }

def dayRead1 : Nat × List Nat × State := readMem 72 0xFF 0x10000 64 [] (commitAt 0 0x40001C dayState)

theorem meets_dayCommit : stg dayState DAY_PLAN_ADDR.plan_addr = 0x10000 ∧ dieSilent dayState 0 = false ∧
    dayRead1.1 = 0 ∧ planLength dayRead1.2.1 = 608 ∧ (readMem 72 0xFF 0x10000 608 [] dayRead1.2.2).1 = 0 ∧
    (readMem 72 0xFF 0x10000 608 [] dayRead1.2.2).2.1 = planImage := by decide +kernel

/-- The image is being checked; policy handle 0 lets context 0 use Course 0; where `on`, a plan is active. -/
def planPolicy : List Nat := plant (plant (List.replicate 1024 0) 0 8 1) 8 1 1
def jobOf (img : List Nat) : State :=
  { ioState with
    day := { job := some ⟨img, 0, 0, 0⟩ }
    key := { policies := [(0, { filled := true, kind := 1, body := planPolicy })] } }

theorem meets_dayRefused : (planChecks (jobOf []) ⟨[], 0, 0, 0⟩).1 = 0x0502 := by decide +kernel

theorem meets_dayStaged : (planChecks (jobOf planImage) ⟨planImage, 0, 0, 0⟩).1 = 0 := by decide +kernel

/-- A package silent on die 0, and one with a plan staged for 1 ms. -/
def mutedState : State := { mode := .run, silent := [(0, true)] }
def planA : Plan := planOf planImage []
def stagedPlanState : State := { mode := .run, day := { active := some planA, staged := some { planA with id := 9 }, stagedAt := 1000000 } }

theorem meets_dayTakeover : dieSilent mutedState 0 = true ∧ stagedPlanState.day.staged = some { planA with id := 9 } ∧
    watchesRun stagedPlanState = true ∧
    stagedPlanState.day.stagedAt ≤ stagedPlanState.day.periodAt + planA.periodUs * 1000 := by decide +kernel

/-! ## WatchesRunOnTheSlewedCount -/

/-- A run in the first period of the plan, at 10 µs. -/
def watchState : State := { pass 10000 ioState with day := { active := some planA } }

/-- The Watch holds Course 0, and the one that may begin. -/
def holdingState : State := { watchState with fab := { courses := [(0, { watch := some 0, owner := 0 })] } }

/-- A switch on Course 0 towards context 0. -/
def switchState : State :=
  { watchState with
    fab := { courses := [(0, { switch := some { outCtx := 0xFF, inCtx := 0, watch := some 0 } })], hod := [(5, 7)], bed := [(6, 8)] } }

theorem meets_period : watchState.day.active = some planA ∧ watchesRun watchState = true := by decide +kernel

theorem meets_watchStart : watchNow watchState 0 = some (watchRec planImage 0) ∧
    mayBegin watchState 0 (watchRec planImage 0) 0 = true ∧ now watchState < watchEndAt watchState (watchRec planImage 0) ∧
    0 < (watchRec planImage 0).lengthUs ∧ watchState.day.staged = none ∧
    aget watchState.day.saved 0 0 = 0 := by decide +kernel

theorem meets_watchEnd : watchNow holdingState 0 = some (watchRec planImage 0) ∧ 0 ∉ holdingState.day.ended ∧
    watchesRun holdingState = true ∧
    bit (watchRec planImage 0).mask 0 = true ∧ (courseOf holdingState 0).watch = some 0 := by decide +kernel

theorem meets_switch : (courseOf switchState 0).switch = some { outCtx := 0xFF, inCtx := 0, watch := some 0 } ∧
    activeOn switchState 0 = [] ∧ (courseOf switchState 0).scrub = false ∧ ticking switchState = false ∧
    (courseOf switchState 0).owner = 0xFF ∧
    aget switchState.day.saved 0 0 = 0 := by decide +kernel

/-! ## TestsOverrunsAndScrubs -/

/-- A test Watch holds Course 0 with one test left, which is in work on Brick 0. -/
def testState : State :=
  { watchState with
    day := { active := some { planA with watches := [⟨0, 1000, 0xFE, 1, 1, 0, 1⟩] } }
    fab := { courses := [(0, { watch := some 0, testsLeft := 1, test := some ⟨0, 10000, 0, [⟨1, 0, 100, [], []⟩], false⟩ })], bed := [(3, 9)] } }

theorem meets_brickTest : (courseOf testState (brickCourse 0)).test = some ⟨0, 10000, 0, [⟨1, 0, 100, [], []⟩], false⟩ ∧
    (⟨0, 10000, 0, [⟨1, 0, 100, [], []⟩], false⟩ : TestRun).names 1 = true ∧ mayTest testState (brickCourse 0) = true ∧
    testNext testState (brickCourse 0) = some 0 := by decide +kernel

/-- An overrun timer runs on Course 0, with and without an active instance there. -/
def overrunState : State := { haltState haltedInst [] [] with fab := { courses := [(0, { overrunAt := some 100 })] } }
def overrunBusy : State :=
  let s := haltState haltedInst [] []
  { s with fab := { s.fab with courses := [(0, { owner := 0, overrunAt := some 100 })] } }

/-- The scrub of context 3 holds Course 5. -/
def scrubState : State :=
  { ioState with
    rings := { ctxs := [(3, { scrubCause := some 0x0110 })] }
    fab := { courses := [(5, { owner := 3, scrub := true }), (6, { owner := 2 })] } }

theorem meets_overrun : (courseOf overrunState 0).overrunAt = some 100 ∧ activeOn overrunState 0 = [] ∧
    ticking overrunState = false ∧ ticking overrunBusy = false ∧
    (courseOf overrunBusy 0).overrunAt = some 100 ∧ activeOn overrunBusy 0 = [(haltLaunch haltedInst [] [], haltedInst)] ∧
    ctxOpen overrunBusy 0 = true := by decide +kernel

theorem meets_scrub : (ctxOf scrubState 3).scrubCause = some 0x0110 ∧ (courseOf scrubState 5).scrub = true ∧
    (courseOf scrubState 5).owner = 3 ∧ (courseOf scrubState 6).owner ≠ 3 := by decide +kernel

/-! ## RingsFetchDescriptors -/

/-- Context 0 with all its rings and lines in its page: ring 0 of 64 descriptors, one of them waiting. Ties 0 to 7 are its
private range. -/
def ringBase : State :=
  { ioState with
    rings := { ctxs := [(0, { rings := [(0, { tail := 1 })] })] }
    regs := { ioState.regs with committed := [
      (fkey HST_SQ_BASE.sq_base 0, 0x1000), (fkey HST_DB_ADDR.db_addr 0, 0x2000), (fkey HST_SQ_CFG.size_log2 0, 6),
      (fkey HST_SQ_CFG.enable 0, 1), (fkey HST_CQ_BASE.cq_base 0, 0x3000), (fkey HST_CQ_CFG.size_log2 0, 6),
      (fkey HST_EQ_CFG.size_log2 0, 6), (fkey HST_EQ_BASE.eq_base 0, 0x4000), (fkey HST_ECHO_ADDR.echo_addr 0, 0x5000),
      (fkey HST_TIE_COUNT.tie_count 0, 8)] } }

def ringState (raw : List Nat) : State := poke 0x1000 raw ringBase

def fenceRaw : List Nat := [3, 1] ++ List.replicate 62 0
def signalRaw : List Nat := [4, 1, 0, 0, 5, 0, 0, 0, 9] ++ List.replicate 55 0
def resetRaw : List Nat := [6, 1, 0, 0, 5] ++ List.replicate 59 0
def waitRaw : List Nat := [5, 1, 0, 0, 5, 0, 0, 0, 9, 0, 0, 0, 50] ++ List.replicate 51 0
def launchRaw : List Nat := [1, 1, 0, 0, 0, 0, 0, 0, 3] ++ List.replicate 27 0 ++ [100] ++ List.replicate 27 0
def waitLaunchRaw : List Nat :=
  [1, 5, 0, 0, 0, 0, 0, 0, 1] ++ List.replicate 27 0 ++ [100, 0, 0, 0, 6, 0, 0, 0, 7] ++ List.replicate 19 0
def registerRaw : List Nat := [7, 1] ++ List.replicate 7 0 ++ [0x60] ++ List.replicate 54 0
def releaseRaw : List Nat := [8, 1, 0, 0, 2] ++ List.replicate 59 0

/-- What a ring needs to fetch a descriptor of an opcode; context 0 has Bond store slot 2, whose image is of many Courses. -/
def fetchable (raw : List Nat) : Bool :=
  let s := poke (physOf (ringState raw) (slotAddr 0 + 44)) [16] (ringState raw)
  let s := { s with rings := { s.rings with store := [(0, { owner := some 0, valid := true }), (2, { owner := some 0, valid := true })] } }
  let d := readMem 72 0 (nextDesc s 0 0) 64 [] s
  nextIs s 0 0 (· == raw.getD 0 0) && sound s && !dieSilent s 0 && d.1 == 0 && d.2.1 == raw && descCheck (noteFetch 0 0 d.2.2) 0 raw == 0

theorem meets_fetch : fetchable fenceRaw = true ∧ fetchable signalRaw = true ∧ fetchable resetRaw = true ∧
    fetchable waitRaw = true ∧ fetchable sieveRaw = true ∧ fetchable registerRaw = true ∧ fetchable releaseRaw = true ∧
    fetchable launchRaw = true ∧ fetchable waitLaunchRaw = true ∧
    reach ioState 0 (tieHome 5) = true ∧ reach ioState 0 (courseDie 0) = true ∧ reach ioState 0 (courseDie 1) = true := by
  decide +kernel

/-- The registration's image is too short for an image: it is read without an error. -/
theorem meets_register : (readImage 0 0 0 0x6000 ringBase).1 = ⟨0, 0, 0, none, 0⟩ := by decide +kernel

/-! ## RingsReleaseAndComplete -/

/-- A descriptor in a phase, alone; its ring is held. -/
def descState (raw : List Nat) (ph : DescPhase) (h : Hold) : State :=
  { ringBase with rings := { ctxs := [(0, { rings := [(0, { head := 1, tail := 1, hold := h })], reserved := 1 })]
                             descs := [⟨0, 0, 0, raw, ph, 0, 0⟩] } }

theorem meets_fenceRelease : heldDesc (descState (3 :: List.replicate 63 0) .held .fence) 0 0 3 =
      some ⟨0, 0, 0, 3 :: List.replicate 63 0, .held, 0, 0⟩ ∧
    fenceWaits (descState (3 :: List.replicate 63 0) .held .fence) ⟨0, 0, 0, 3 :: List.replicate 63 0, .held, 0, 0⟩ = false := by
  decide +kernel

/-- A signal by a role, and a wait by one, on their way to die 1. -/
def opState (k : TieKind) : State := { ioState with rings := { ops := [⟨k, 5, 9, .role 3, 0, 2⟩] } }

theorem meets_tieOperation : takeOp 1 3 (opState .signal).rings.ops = some (⟨.signal, 5, 9, .role 3, 0, 2⟩, []) ∧
    takeOp 1 3 (opState .waitGe).rings.ops = some (⟨.waitGe, 5, 9, .role 3, 0, 2⟩, []) ∧
    tieValue (opState .signal) 5 + 9 < 2 ^ 32 ∧ tieValue (opState .waitGe) 5 < 9 := by decide +kernel

/-- A role of Brick 0 that waits on Tie 5, and the release on its way to die 1. -/
def waitingInst0 : Inst := { course := 0, phase := .active, bricks := [0], roles := [{ brick := 0, tieWait := some 5 }] }
def relState : State :=
  { haltState waitingInst0 [] [] with rings := { rels := [⟨5, 1, 9, [.role 0]⟩] } }

theorem meets_tieRelease : relState.rings.rels.find? (fun m => m.die == 1 && m.tie == 5) = some ⟨5, 1, 9, [.role 0]⟩ ∧
    relState.fab.launches = [haltLaunch waitingInst0 [] []] := by decide +kernel

/-- The wait of a descriptor, due at 50 µs. -/
def dueState : State :=
  let s := descState waitRaw .waiting .tieWait
  { s with rings := { s.rings with waits := [⟨5, 9, false, .desc 0 0 0, 0, 50000⟩] } }

theorem meets_tieTimeout : ticking dueState = false ∧ dueState.rings.waits.find? (fun w => agentIndex w.who == 1024 && decide (1024 < 1280)) =
      some ⟨5, 9, false, .desc 0 0 0, 0, 50000⟩ ∧
    (dueState.rings.descs.find? (fun d => d.ctx == 0 && d.ring == 0 && d.count == 0 && d.phase == .waiting)).isSome := by
  decide +kernel

/-- Rings 0 and 1 of context 0 are stopped. -/
def stoppedState : State :=
  let s := wr HST_CTX_STATE.stopped 0 3 ringBase
  { s with
    rings := { ctxs := [(0, { rings := [(0, { head := 7, resume := 5, cause := 0x0612 }), (1, { head := 3, resume := 3, cause := 0x0613 })] })] } }

theorem meets_restart : sound stoppedState = true ∧ com stoppedState HST_ECHO_ADDR.echo_addr 0 = 0x5000 ∧
    rangeStatus stoppedState 72 0 0x5000 64 true = 0 ∧ ringStopped stoppedState 0 0 = true ∧ ringStopped stoppedState 0 1 = true := by
  decide +kernel

/-- A release of handle 2 that no launch names. -/
def freeState : State :=
  let s := descState ([8, 0, 0, 0, 2] ++ List.replicate 59 0) .held .release
  { s with rings := { s.rings with store := [(2, { owner := some 0, valid := true }), (3, { owner := some 0, valid := true })] } }

/-- A release of handle 2 that another has freed. -/
def freedHandle : State := { freeState with rings := { freeState.rings with store := [] } }

theorem meets_bondReleased : (heldDesc freedHandle 0 0 8).isSome = true ∧ (ownSlot freedHandle 0 2).isNone = true := by decide +kernel

theorem meets_bondRelease : (ownSlot freeState 0 2).isSome = true ∧ heldDesc freeState 0 0 8 = some ⟨0, 0, 0, [8, 0, 0, 0, 2] ++ List.replicate 59 0, .held, 0, 0⟩ := by
  decide +kernel

/-! ## DoorbellsAndRegistrations -/

/-- A doorbell line in memory, and one in the outbound window of a package whose PCIe link is up. -/
def bellState : State := poke 0x2000 [1, 0, 0, 0, 2, 0, 0, 0, 3] ringBase

/-- A ring whose doorbell line is polled, every microsecond; the host has written the line. -/
def pollState : State :=
  { ringBase with
    pcieUp := true
    mem := { ringBase.mem with ext := (List.range 64).map (fun i => (i, if i = 0 then 2 else 0)) }
    regs := { ringBase.regs with committed :=
      (fkey HST_DB_ADDR.db_addr 0, 0x400000000000) :: (fkey HST_SQ_CFG.poll_us 0, 1) :: ringBase.regs.committed } }

def pollRead : Nat × List Nat × State :=
  readMem 72 0 0x400000000000 64 [] (modRing 0 0 (fun x => { x with polledAt := now (passTo 1000 pollState) }) (passTo 1000 pollState))

/-- A signed Bond image, under the base point of the curve as its key. -/
def bondImage : List Nat :=
  plant (plant (plant (plant (List.replicate 256 0) 0 4 0x444E4F42) 6 2 128) 8 4 384) 72 4 256 ++
    List.replicate 16 0 ++ beBytes 48 (p384G.1 % p384N) ++
    beBytes 48 0x4bf09e83a60cb64f9f2fcc5d23d2d684ad6631b8f8802d8a484f52fda3a2f9cf2126abc3e9b480b917fb600d937855b5 ++
    List.replicate 16 0

/-- A registration in work, of that image or of none. -/
def regState (img : Option (List Nat)) : State :=
  let s := descState registerRaw .held .register
  { s with
    rings := { s.rings with regJobs := [⟨0, 0, 0, img, 0⟩] }
    key := { s.key with installer := some ⟨1, p384G.1, p384G.2⟩ :: List.replicate 7 none } }

theorem meets_doorbell : ringLive bellState 0 0 = true ∧ dbAddr bellState 0 0 = 0x2000 ∧
    (readMem 72 0 0x2000 64 [] bellState).1 = 0 ∧ fld (readMem 72 0 0x2000 64 [] bellState).2.1 0 4 = 1 ∧
    (1 + 2 ^ 32 - (ringOf bellState 0 0).head) % 2 ^ 32 ≤ sqSize bellState 0 0 := by decide +kernel

theorem meets_poll : ringLive pollState 0 0 = true ∧ dbAddr pollState 0 0 = 0x400000000000 ∧
    com pollState HST_SQ_CFG.poll_us 0 = 1 ∧ pollRead.1 = 0 ∧ fld pollRead.2.1 0 4 = 2 ∧
    (2 + 2 ^ 32 - (ringOf pollState 0 0).head) % 2 ^ 32 ≤ sqSize pollState 0 0 := by decide +kernel

theorem meets_register_complete : heldDesc (regState (some bondImage)) 0 0 7 = some ⟨0, 0, 0, registerRaw, .held, 0, 0⟩ ∧
    bondStatus (regState (some bondImage)) ⟨0, 0, 0, some bondImage, 0⟩ = 0 ∧
    bondStatus (regState none) ⟨0, 0, 0, none, 0⟩ = 0x0F02 := by decide +kernel

/-! ## ContextsOpenAndClose -/

/-- Context 1 owns 1,025 pages of stack 1, its rings lie in the first and its save area in the others; closed. -/
def openState : State :=
  { mode := .run
    mem := { home := (List.range 1025).map (fun p => (p, 0x1000000 + p)) }
    regs := {
      live := [(fkey MTR_PORT_STATUS.state (portAt 1 2), 2), (fkey MTR_HUB_PORT_STATUS.state 0, 2)]
      staged := [(fkey HST_SQ_BASE.sq_base 0x100, 0x1000), (fkey HST_DB_ADDR.db_addr 0x100, 0x2000),
        (fkey HST_SQ_CFG.size_log2 0x100, 6), (fkey HST_SQ_CFG.enable 0x100, 1), (fkey HST_CQ_BASE.cq_base 0x100, 0x3000),
        (fkey HST_CQ_CFG.size_log2 0x100, 6), (fkey HST_EQ_CFG.size_log2 0x100, 6), (fkey HST_EQ_BASE.eq_base 0x100, 0x4000),
        (fkey HST_ECHO_ADDR.echo_addr 0x100, 0x5000), (fkey HST_SAVE_BASE.save_base 0x100, 0x10000),
        (fkey HST_SAVE_BASE.save_mib 0x100, 1), (fkey HST_TIE_COUNT.tie_count 0x100, 8), (fkey HST_CTX_CTRL.opened 0x100, 1)] } }

theorem meets_contextOpen : stg openState HST_CTX_CTRL.opened 0x100 = 1 ∧ dieSilent openState 0 = false ∧
    rd openState HST_CTX_STATE.state 0x100 = 0 := by decide +kernel

theorem aget_map_key {V : Type} (f : Nat → V) (l : List Nat) (k : Nat) (d : V) (h : k ∈ l) :
    aget (l.map (fun p => (p, f p))) k d = f k := by
  induction l with
  | nil => simp at h
  | cons a r ih =>
    simp only [List.map_cons, aget]
    split
    · next e => rw [e]
    · next e => exact ih (by simpa [Ne.symm e] using h)

theorem openState_owner (x : Nat) (h : x < 1025 * 65536) : inPartition openState 1 x true = true := by
  have m : x / 65536 ∈ List.range 1025 := by rw [List.mem_range]; omega
  have e : homeEntry openState (x / 65536) = 0x1000000 + x / 65536 := by
    simp only [homeEntry, openState]
    exact aget_map_key (fun p => 0x1000000 + p) (List.range 1025) (x / 65536) _ m
  have o : ownerOf openState x = 1 := by
    unfold ownerOf bits
    rw [e]; omega
  have b : x < hbmEnd := Nat.lt_trans h (by decide)
  simp [inPartition, o, b]

theorem meets_openChecks : firstFail (openChecks 1 openState) = none := by
  have h : rangeInPartition openState 1 0x10000 67108864 true = true := by
    simp only [rangeInPartition, List.all_eq_true]
    intro x hx
    apply openState_owner
    simp only [checkPoints, List.mem_cons, List.mem_map, List.mem_range] at hx
    rcases hx with rfl | ⟨i, hi, rfl⟩ <;> omega
  have a : stg openState HST_SAVE_BASE.save_base (1 * 0x100) = 0x10000 := by decide +kernel
  have b : stg openState HST_SAVE_BASE.save_mib (1 * 0x100) = 1 := by decide +kernel
  simp only [firstFail, openChecks, List.find?_append, Option.map_eq_none_iff, Option.or_eq_none_iff]
  refine ⟨⟨⟨by decide +kernel, by decide +kernel⟩, by decide +kernel⟩, ?_⟩
  rw [a, b, List.find?_cons_of_neg (by simp [h])]
  decide +kernel

theorem meets_teardown : ctxOpen ringBase 0 = true ∧ stg ringBase HST_CTX_CTRL.opened 0 = 0 ∧ dieSilent ringBase 0 = false := by
  decide +kernel

/-- A device event ring of 64 records in host memory. -/
theorem meets_hstCommit : firstFail (hstChecks ringBase) = none := by decide +kernel

/-! ## ReadAfterWrite -/

theorem meets_readAfterWrite : rangeStatus ioState 67 0 0x123 3 true = 0 ∧ readStatus ioState 67 0 0x123 3 = 0 ∧
    seesCipher 67 0 (ownerOf ioState 0x123) = false ∧ ioState.mem.queue = [] ∧ sound ioState = true ∧
    pausedRange ioState 0x123 3 = false := by decide +kernel

/-! ## HomeControllers -/

/-- One write of 3 bytes waits on pseudo-channel 1 of stack 0. -/
def queueState : State := { ioState with mem := { ioState.mem with queue := [⟨0, 1, 0x13F, [1, 2, 3], 0, 0⟩] } }

/-- Stack 0 is retraining: pair 15 pauses, or the gap after pair 3 runs. -/
def pairState (pair phase : Nat) : State :=
  wrB HBM_STATUS.retraining (dieBase 1) true
    (modStack 0 (fun x => { x with pair := pair, phase := phase, pairAt := 7 }) ioState)

theorem meets_homes : (⟨0, 1, 0x13F, [1, 2, 3], 0, 0⟩ : QWrite).data ≠ [] ∧
    paused ioState 0 5 = false ∧ paused (pairState 15 1) 0 15 = true ∧
    rdB ioState HBM_STATUS.retraining (dieBase 1) = false ∧ rdB (pairState 3 2) HBM_STATUS.retraining (dieBase 1) = true ∧
    (stackOf (pairState 3 2) 0).phase = 2 ∧ (stackOf (pairState 15 1) 0).phase = 1 ∧
    ticking ioState = false ∧ ticking (pairState 3 2) = false ∧ paused ioState 0 1 = false ∧ sound ioState = true := by decide +kernel

/-! ## MapSharesAndContracts -/

/-- A run of one entry stands in the host partition: page 7 is to be context 3's, in frame 5 of stack 0. -/
def mapState : State :=
  let s := poke 0x10000 [5, 0, 0, 3] ioState
  { s with regs := { s.regs with staged := [(fkey HBM_MAP_SRC.src 0, 0x10000), (fkey HBM_MAP_FIRST.first 0, 7),
                                            (fkey HBM_MAP_COUNT.count 0, 1)] } }

def mapRead : Nat × List Nat × State := readMem 72 0xFF 0x10000 4 [] (commitAt 0 0xB00020 mapState)

theorem meets_mapCommit : firstFail (mapSetup mapState) = none ∧ mapRead.1 = 0 ∧ mapRead.2.1 = [5, 0, 0, 3] ∧
    mapChecks mapRead.2.2 7 1 [0x03000005] = none := by decide +kernel

/-- The run in work. -/
def mapJobState : State := { ioState with mem := { ioState.mem with mapJob := some ⟨7, [0x03000005]⟩, cells := [(327681, 9)] } }

theorem meets_mapComplete : bits 0x03000005 24 8 ≠ 0xFF ∧ bits 0x03000005 24 8 ≠ bits (homeEntry mapJobState 7) 24 8 := by
  decide +kernel

/-- Port 67 is to be best-effort, with 90 GB/s of stack 1, over a hub link of full width. -/
def plbState : State :=
  let s := wr MTR_PORT_STATUS.width (portAt 1 2) 20 (wr MTR_HUB_PORT_STATUS.width 0 20 ioState)
  { s with regs := { s.regs with staged := [(fkey PLB_PORT_BW.bw_stack1 (67 * 16), 90), (fkey PLB_PORT_CFG.kind (67 * 16), 1)] } }

theorem meets_plbCommit : (plbResult plbState).1 = 0 ∧ stg ioState HBM_CE_THRESH.threshold (dieBase 1) ≠ 0 ∧
    reach ioState 0 1 = true := by decide +kernel

/-! ## MortarPortsTrain -/

/-- Port 0 of die 1 in training at epoch 4, as given, with good lanes 0 to 19. Straps name the die. -/
def trainState (e : PortEnd) : State :=
  modEnd 1 0 (fun _ => e) (wrGood 1 0 0xFFFFF (wrEpoch 1 0 4 (wrState 1 0 1 ioState)))

/-- Ends that wait for a proposal, that check a width of 20, and that have heard or sent a READY. -/
def proposing : PortEnd := { proposal := some (20, 0xFFFFF) }
def checking (sent got : Bool) : PortEnd := { proposal := some (20, 0xFFFFF), peer := some (20, 0xFFFFF), target := 20, sent := sent, got := got }

theorem meets_training : mayTrain ioState 1 2 = true ∧ isEnd 1 2 = true ∧ endState ioState 1 2 = 2 ∧
    endState (trainState {}) 1 0 = 1 ∧ (endOf (trainState {}) 1 0).peer = none ∧ mayTrain (trainState proposing) 1 0 = true ∧
    endEpoch (trainState proposing) 1 0 = 4 ∧ newer 5 4 = true ∧ (endOf (trainState proposing) 1 0).proposal = some (20, 0xFFFFF) ∧
    (endOf (trainState (checking false true)) 1 0).got = true ∧ (endOf (trainState (checking true false)) 1 0).sent = true ∧
    (endOf (trainState (checking true false)) 1 0).target = 20 ∧ (endOf (trainState {}) 1 0).peerTest = false ∧ ticking (trainState {}) = false ∧ strapDie (trainState {}) 1 = 1 ∧
    reach ioState 0 1 = true ∧ (endOf (trainState proposing) 1 0).target = 0 ∧ newer ((4 + 1) % 65536) 4 = true ∧
    mayTrain (trainState (checking true false)) 1 0 = true := by decide +kernel

/-! ## MortarFlitsAndTests -/

/-- A flit, number 0, of credits only, with its CRC. -/
def flitBody : List Nat := List.replicate 244 0 ++ [4, 1] ++ List.replicate 6 0
def flitA : List Nat := flitBody ++ leBytes 4 (crc32c flitBody)

/-- Every hub link up at full width, as in run. -/
def linkState : State :=
  [1, 2, 3, 4].foldl (fun s n => wrWidth n 2 20 (wrState n 2 2 (wrWidth 0 (n - 1) 20 (wrState 0 (n - 1) 2
    (wrWidth n 0 20 (wrState n 0 2 (wrWidth n 1 20 (wrState n 1 2 s)))))))) { mode := .run }

/-- The port of die 1 towards die 2 with lane 3 in use, and with a loopback staged, and under test. -/
def portLaneState : State := modEnd 1 0 (fun e => { e with txLanes := 8, replay := [flitA] }) linkState
def loopState : State := wrStg MTR_PORT_CTRL.loopback (portAt 1 0) 1 linkState
def aloneState : State :=
  wrStg MTR_HUB_PORT_CTRL.loopback 0 0 (wrStg MTR_PORT_CTRL.loopback (portAt 1 2) 1 (wrStg MTR_PORT_CTRL.loopback (portAt 1 1) 1
    { loopState with key := { loopState.key with unlocked := 2 }, mortar := { loopState.mortar with alone := [(1, [7])] } }))
def underTest : State := modEnd 1 0 (fun e => { e with testEnd := some 77 }) (wrState 1 0 3 linkState)

theorem meets_flits : isEnd 1 0 = true ∧ endState linkState 1 0 = 2 ∧ (endOf linkState 1 0).parity = [] ∧
    (flitSent (endOf linkState 2 1) flitA).isSome ∧ crc32c (slice flitA 0 252) = fld flitA 252 4 ∧
    fld flitA 240 2 = (endOf linkState 1 0).rxNext ∧ bit (endOf portLaneState 1 0).txLanes 3 = true ∧ outOfTurn linkState 2 1 flitA = false ∧ (endOf linkState 1 0).moves = [] ∧
    bits (flitA.getD 244 0) 2 2 ≠ 2 ∧ newer 0 (endOf portLaneState 1 0).txNext = false ∧ newer 5 (endOf portLaneState 1 0).txNext = true := by decide +kernel

theorem meets_loopback : loopbacks loopState 1 = [0] ∧ loopbackBad loopState 1 0 = false ∧ dieSilent loopState 1 = false ∧
    (∀ q ∈ endsOf 1, 1 ≤ endStg loopState 1 q MTR_PORT_CTRL.test_ms MTR_HUB_PORT_CTRL.test_ms ∧
      endStg loopState 1 q MTR_PORT_CTRL.test_ms MTR_HUB_PORT_CTRL.test_ms ≤ 10000) ∧ loopbacks linkState 1 = [] ∧
    endState underTest 1 0 = 3 ∧ (endOf underTest 1 0).testEnd = some 77 ∧
    reach loopState 0 1 = true ∧ standAlone aloneState 1 = true ∧ reach aloneState 0 1 = true ∧
    aloneState.mortar.alone.find? (fun e => e.1 == 1) = some (1, [7]) ∧ reach { linkState with regs := {} } 0 1 = false := by decide +kernel

/-! ## BudgetMessages -/

/-- A grant to die 1 in range and one out of range, and a report of it. -/
def goodGrant : Grant := { die := 1, seq := 1, dial := 0, core := 340, hbm := 80, floor := 0, limp := false }
def badGrant : Grant := { goodGrant with core := 341 }
def oneReport : GrantReport :=
  { die := 1, seq := 1, dial := 0, core := 300, hbm := 70, coreAvg := 0, hbmAvg := 0, clk := 0, tj := 0, capApplied := false, belowFloor := false }
def grantState (g : Grant) : State := { linkState with mortar := { linkState.mortar with grants := [g], reports := [oneReport] } }

theorem meets_budget : [1, 2, 3, 4].all (reach linkState 0) = true ∧ grantOk goodGrant = true ∧ grantOk badGrant = false ∧
    (grantState goodGrant).mortar.grants.find? (fun g => g.die == 1) = some goodGrant ∧
    (grantState goodGrant).mortar.reports.find? (fun r => r.die == 1) = some oneReport ∧
    (budgetOf linkState 1).fallback = false ∧
    linkState.mortar.grants = [] ∧ linkState.mortar.reports = [] := by decide +kernel

/-! ## FramesLandAndComplete -/

/-- A camera record at channel 0: RAW8, monochrome, 64 by 2, INT8, 2 buffers waiting, periods of 1 ms. -/
def camRecord : List Nat :=
  plant (plant (plant (plant (plant (plant (List.replicate 64 0) 0 4 0x0401_2A00) 4 4 0x2_0040) 8 4 0x0208)
    12 4 1000) 40 6 0x2000) 46 6 0x3000

/-- A frame of two good lines in buffer 1. -/
def camFrame : Frame := { buf := 1, fsCount := 1, lines := 2 }

/-- Stream 0 of a package in run, enabled for context 0, in a state of its frames; the streams release Tie 0. -/
def camState (x : InStream) : State :=
  { ioState with input := { streams := [(0, { x with enabled := true, record := camRecord, owner := 0 })] } }

/-- A frame that waits for its record. -/
def waitState : State :=
  { camState { waiting := some { camFrame with deadline := 500 } } with
    rings := { waits := [⟨0, 1, false, .other 1280, 0, 500⟩] } }

theorem meets_frames : camOn (camState {}) 0 = true ∧ camRecord.getD 0 0 = 0 ∧ camRecord.getD 1 0 = 0x2A ∧
    camRecord.getD 3 0 = 4 ∧ fld camRecord 6 2 = 2 ∧ freeBufs (camState {}) 0 = [0, 1, 2, 3] ∧
    frameAge (camState {}) camFrame ≤ inStale 0 camRecord ∧ reach (camState {}) 0 (tieHome (inRelease camRecord)) = true ∧
    (streamOf (camState { landing := some camFrame }) 0).landing = some camFrame ∧
    (streamOf (camState { stopping := true }) 0).stopping = true := by decide +kernel

theorem meets_stale : (streamOf waitState 0).waiting = some { camFrame with deadline := 500 } ∧
    waitPending waitState 1280 = true ∧ (streamOf waitState 0).silentRaised = false ∧ waitState.rings.devOpen = false ∧
    ticking waitState = false :=
  by decide +kernel

/-! ## RecordsPublishAndStreamsOpen -/

/-- The record and tone table of a stream in page 0, staged to enable stream 0 for context 0, and the same to disable. -/
def openCam (enable : Nat) (x : InStream) : State :=
  let s := poke 0x1000 camRecord { ioState with input := { streams := [(0, x)] } }
  wrStg CAM_STREAM_ADDR.addr 0 0x1000 (wrStg CAM_TONE_ADDR.addr 0 0x8000 (wrStg CAM_STREAM_CTRL.enable 0 enable
    (wrStg CAM_STREAM_CTRL.owner 0 0 s)))

/-- The record of a stream whose two buffers of 4 KiB and two records lie in page 0, with Ties 0 and 1. -/
def openRecord : List Nat := plant (plant camRecord 52 4 0x1000) 56 4 1
def openNow : State := wrCom HST_TIE_COUNT.tie_count 0 64 (poke 0x1000 openRecord (openCam 1 {}))
def camReadsOf (s : State) : Nat × List Nat × List Nat × State :=
  camReads 0 0 0x1000 0x8000 (commitAt 0 0xD0001C s)

/-- A frame whose wait has been released. -/
def freedState : State := { waitState with rings := {} }

theorem meets_publish : waitPending freedState 1280 = false ∧
    (writeMem 64 0 (inRec camRecord) (frameRecord freedState 0 (streamOf freedState 0) { camFrame with deadline := 500 })
      (withdraw 1280 (modStream 0 (fun x => { x with waiting := none }) freedState))).1 = 0 ∧
    reach freedState 0 (tieHome (inReady camRecord)) = true ∧ tieValue freedState 0 = 0 := by decide +kernel

theorem meets_open : (camReadsOf openNow).1 = 0 ∧ (camReadsOf openNow).2.1 = openRecord ∧
    camStatus (camReadsOf openNow).2.2.2 0 0 0x8000 openRecord = 0 ∧ stg openNow CAM_STREAM_ADDR.addr = 0x1000 ∧
    stg openNow CAM_TONE_ADDR.addr = 0x8000 ∧ stg openNow CAM_STREAM_CTRL.enable = 1 ∧
    stg openNow CAM_STREAM_CTRL.owner = 0 ∧ dieSilent openNow 0 = false := by decide +kernel

/-- Stream 0 with the same fields in force, staged to be disabled; and a MAC staged off. -/
def closeCam : State := acceptStaged (camFields 0) (openCam 1 { enabled := true })
def closeNow : State := wrStg CAM_STREAM_CTRL.enable 0 0 closeCam
def macState : State := wrStg CAM_MAC_CFG.rx_log2 0 6 (wrStg CAM_MAC_CFG.tx_log2 0 6 ioState)

theorem meets_close : (streamOf closeNow 0).enabled = true ∧ stg closeNow CAM_STREAM_CTRL.enable = 0 ∧
    sameStaged closeNow [(CAM_STREAM_ADDR.addr, 0), (CAM_TONE_ADDR.addr, 0), (CAM_STREAM_CTRL.owner, 0)] = true ∧
    stg (wrStg CAM_STREAM_ADDR.addr 0 1 ioState) CAM_STREAM_ADDR.addr % 64 ≠ 0 ∧
    firstFail (macChecks macState 0) = none := by decide +kernel

/-! ## EthernetFramesAndBatches -/

/-- MAC 0 on; its receive and transmit entries 0, passed to the device, at 0x11000 and 0x12000 of the host partition,
with room for 8 bytes at 0x13000. -/
def ethState : State :=
  poke 0x12000 [0, 0x30, 1, 0, 0, 0, 8, 0, 1] (poke 0x11000 [0, 0x30, 1, 0, 0, 0, 8, 0, 1]
    (wrCom CAM_MAC_CFG.mode 0 1 (wrCom CAM_MAC_RX_RING.base 0 0x11000 (wrCom CAM_MAC_TX_RING.base 0 0x12000 ioState))))

/-- A template of one INT16 point of 4 bytes at UDP port 5, with a buffer of 4 KiB, and a frame with one such point. -/
def lidarRecord : List Nat :=
  plant (plant (plant (plant (plant (plant (plant (List.replicate 64 0) 3 1 2) 4 2 5) 8 2 8) 10 2 1) 20 2 0xFFFF)
    24 4 0x3F800000) 30 2 1 |> fun r => plant (plant (plant (plant r 18 2 0xFFFF) 32 4 1000) 52 4 0x1000) 14 2 0xFFFF
def lidarState (x : InStream) : State :=
  { ethState with input := { streams := [(16, { x with enabled := true, record := lidarRecord, owner := 0 })] } }
def udpFrame : List Nat :=
  List.replicate 12 0 ++ [8, 0, 0x45, 0, 0, 36, 0, 0, 0, 0, 64, 17] ++ List.replicate 10 0 ++ [0, 1, 0, 5, 0, 16, 0, 0] ++
    List.replicate 8 0

theorem meets_eth : com ethState CAM_MAC_CFG.mode = 1 ∧ udpOf (untag [1, 2, 3]) = none ∧
    (readMem 70 0xFF (macEntry ethState 0 true 0) 16 [] ethState).1 = 0 ∧
    (readMem 70 0xFF (macEntry ethState 0 true 0) 16 [] ethState).2.1 = [0, 0x30, 1, 0, 0, 0, 8, 0, 1, 0, 0, 0, 0, 0, 0, 0] ∧
    (readMem 70 0xFF (macEntry ethState 0 false 0) 16 [] ethState).2.1 = [0, 0x30, 1, 0, 0, 0, 8, 0, 1, 0, 0, 0, 0, 0, 0, 0] ∧
    (readMem 70 0xFF 0x13000 8 [] (readMem 70 0xFF (macEntry ethState 0 false 0) 16 [] ethState).2.2).1 = 0 :=
  by decide +kernel

theorem meets_point : (udpOf (untag udpFrame)).isSome = true ∧
    (udpOf (untag udpFrame)).map (fun a => (templateFor (lidarState {}) 0 (fldBE a.2 2 2), udpBad a.1 a.2)) =
      some (some 16, false) ∧ 2 * fld lidarRecord 10 2 * 32 ≤ inBufBytes lidarRecord := by decide +kernel

/-! ## DecodersTakeChunksAndSlices -/

/-- A record of stream 0: HEVC, a ring of 64 chunks at 0x1000, 16 by 16, 2 outputs, doorbell at 0x2000, echo at 0x3000,
a pool of one block in page 0. -/
def decRecord : List Nat :=
  plant (plant (plant (plant (plant (plant (plant (plant (plant (List.replicate 64 0) 0 1 1) 2 1 6) 4 2 16) 6 2 16) 8 2 0x201)
    12 6 0x1000) 18 6 0x2000) 30 4 1) 40 6 0x3000

/-- Stream 0, enabled for context 0, with an engine that works on it. -/
def decState (x : DecStream) : State :=
  { ioState with input := { decs := [(0, { x with enabled := true, record := decRecord, owner := 0 })]
                            engines := [{ stream := some 0 }, {}, {}, {}] } }
def decWork : DecFrame := { whole := true }

theorem meets_decoders : (readMem 65 0 0x2000 64 [] (decState {})).1 = 0 ∧
    fld (readMem 65 0 0x2000 64 [] (decState {})).2.1 0 4 = 0 ∧ fld decRecord 10 2 = 0 ∧ fld decRecord 18 6 = 0x2000 ∧
    (readMem 65 0 0x2000 64 [] (poke 0x2000 [65] (decState {}))).2.1.head? = some 65 ∧ chunkSize decRecord = 64 ∧
    (engineOf (decState { frame := some decWork }) 0).stream = some 0 ∧ decBudget (decOf (decState {}) 0) = 2048 ∧
    decSample decRecord = false ∧ ticking (decState { frame := some decWork }) = false ∧ sound (decState {}) = true ∧ sound ioState = true := by decide +kernel

/-- Stream 0 polled every microsecond from a line in the outbound window that the host has written. -/
def pollRecord : List Nat := plant (plant decRecord 10 2 1) 18 6 0x400000000000
def polledDec : State :=
  { decState {} with
    pcieUp := true
    mem := { ioState.mem with ext := (List.range 64).map (fun i => (i, 0)) }
    input := { decs := [(0, { enabled := true, record := pollRecord, owner := 0 })] } }

theorem meets_decPoll : (readMem 65 0 0x400000000000 64 []
    (modDec 0 (fun x => { x with polledAt := now (passTo 1000 polledDec) }) (passTo 1000 polledDec))).1 = 0 ∧
    fld (readMem 65 0 0x400000000000 64 []
      (modDec 0 (fun x => { x with polledAt := now (passTo 1000 polledDec) }) (passTo 1000 polledDec))).2.1 0 4 = 0 :=
  by decide +kernel

/-- Stream 0 staged to be enabled for context 0 with the record at 0x8000. -/
def openDec (enable : Nat) : State :=
  wrCom HST_TIE_COUNT.tie_count 0 64 (wrStg DEC_STREAM_ADDR.addr 0 0x8000 (wrStg DEC_STREAM_CTRL.enable 0 enable
    (wrStg DEC_STREAM_CTRL.owner 0 0 (poke 0x8000 decRecord ioState))))

theorem meets_decOpen : (readMem 65 0 0x8000 64 [] (commitAt 0 0xE0001C (openDec 1))).1 = 0 ∧
    (readMem 65 0 0x8000 64 [] (commitAt 0 0xE0001C (openDec 1))).2.1 = decRecord ∧
    decStatus (readMem 65 0 0x8000 64 [] (commitAt 0 0xE0001C (openDec 1))).2.2 0 0 decRecord = 0 ∧
    stg (openDec 1) DEC_STREAM_ADDR.addr = 0x8000 ∧ stg (openDec 1) DEC_STREAM_CTRL.owner = 0 ∧
    dieSilent (openDec 1) 0 = false ∧
    sameStaged (acceptStaged (decFields 0) (openDec 0)) [(DEC_STREAM_ADDR.addr, 0), (DEC_STREAM_CTRL.owner, 0)] = true :=
  by decide +kernel

/-! ## SamplersWriteManifests -/

/-- A sampler of 3 samples of 64 bytes in batches of 2, one ahead, with Ties 0 to 2. -/
def smRecord : List Nat :=
  plant (plant (plant (plant (plant (plant (plant (plant (List.replicate 64 0) 0 4 3) 16 2 2) 18 1 1) 20 4 64) 24 6 0x4000)
    30 6 0x5000) 44 4 1) 48 4 2
def smState : State := { ioState with input := { samplers := [(0, { enabled := true, record := smRecord, owner := 0 })] } }

/-- Sampler 0 staged for context 0 with the record at 0x8000. -/
def openSampler (enable : Nat) : State :=
  wrCom HST_TIE_COUNT.tie_count 0 64 (wrStg DEC_SAMPLER_ADDR.addr 0 0x8000 (wrStg DEC_SAMPLER_CTRL.enable 0 enable
    (wrStg DEC_SAMPLER_CTRL.owner 0 0 (poke 0x8000 smRecord ioState))))

theorem meets_manifest : (samplerOf smState 0).index < smBatches smRecord ∧
    (samplerOf smState 0).number < smReleased smState 0 + smAhead smRecord ∧ smState.rings.ops = [] ∧
    reach smState 0 (tieHome (fld smRecord 40 4)) = true ∧ tieValue smState 0 = 0 := by decide +kernel

theorem meets_sampler : (readMem 65 0 0x8000 64 [] (commitAt 0 0xE0101C (openSampler 1))).1 = 0 ∧
    (readMem 65 0 0x8000 64 [] (commitAt 0 0xE0101C (openSampler 1))).2.1 = smRecord ∧
    samplerStatus (readMem 65 0 0x8000 64 [] (commitAt 0 0xE0101C (openSampler 1))).2.2 0 0 smRecord = 0 ∧
    stg (openSampler 1) DEC_SAMPLER_ADDR.addr = 0x8000 ∧ dieSilent (openSampler 1) 0 = false ∧
    stg (openSampler 1) DEC_SAMPLER_CTRL.enable ≠ 0 ∧
    sameStaged (acceptStaged (samplerFields 0) (openSampler 0)) [(DEC_SAMPLER_ADDR.addr, 0), (DEC_SAMPLER_CTRL.owner, 0)] = true :=
  by decide +kernel

/-! ## MeridianRunsCycles -/

/-- A configuration record in live mode without streams, tracker on and no detection source, its rings at 0x20000 and
0x40000, its table at 0x8000. -/
def merRecord : List Nat :=
  [(0, 1, 4), (2, 1, 1), (3, 1, 1), (4, 1, 1), (5, 1, 2), (6, 2, 30), (20, 8, 2000000), (28, 4, 4000), (40, 4, 1), (44, 4, 1),
   (48, 4, 1024), (56, 4, 0x3F800000), (60, 4, 0x3F800000), (64, 4, 0x3F800000), (68, 4, 0x3F800000), (96, 6, 0x20000),
   (102, 4, 0xD000), (106, 6, 0x40000), (124, 4, 32832), (134, 6, 0x8000), (144, 4, 1)].foldl
    (fun l e => plant l e.1 e.2.1 e.2.2) (List.replicate 192 0)

/-- A package with pages 2 to 6 of context 0 and Ties 0 to 63 in its range; Meridian as given. -/
def merState (m : MerState) (running : Bool) : State :=
  wrB MER_STATUS.running 0 running (wrCom HST_TIE_COUNT.tie_count 0 64
    { ioState with
      mem := { home := [(0, 0), (1, 0x40000001), (2, 2), (3, 3), (4, 4), (5, 5), (6, 6)] }
      mer := { m with owner := 0, active := some [] } })

/-- The record at 0x1000, staged to start or to stop Meridian. -/
def merOpen (enable : Nat) (s : State) : State :=
  poke 0x1000 merRecord (wrStg MER_CFG_ADDR.addr 0 0x1000 (wrStg MER_CTRL.enable 0 enable (wrStg MER_CTRL.owner 0 0 s)))
def merStart : State := merOpen 1 (merState {} false)
def merStop : State := wrStg MER_CTRL.enable 0 0 (acceptStaged merFields (merOpen 1 (merState {} true)))
def merRead : Nat × List Nat × State := readMem merPort 0 0x1000 192 [] (commitAt 0 0xF0003C merStart)

theorem meets_merStart : merRead.1 = 0 ∧ merRead.2.1 = merRecord ∧ merMalformed merStart merRecord = false ∧
    merReachable merStart 0 merRecord = true ∧ merTies merStart 0 merRecord = true ∧
    merStreamsOk merStart 0 merRecord = true ∧ stg merStart MER_CFG_ADDR.addr = 0x1000 ∧
    stg merStart MER_CTRL.enable = 1 ∧ rdB merStart MER_STATUS.running = false ∧ dieSilent merStart 0 = false := by
  decide +kernel

theorem meets_merStop : stg merStop MER_CTRL.enable = 0 ∧ rdB merStop MER_STATUS.running = true ∧
    sameStaged merStop [(MER_CFG_ADDR.addr, 0), (MER_CTRL.owner, 0)] = true ∧
    stg (wrStg MER_CFG_ADDR.addr 0 1 merStart) MER_CFG_ADDR.addr % 64 ≠ 0 := by decide +kernel

/-- A closed cycle without samples, and Meridian in run with it in each list. -/
def oneCycle : Cycle :=
  { n := 0, tv := 2000000, level := 0, source := 2, truncated := false, oldest := 0, mask := 0, late := 0, entries := 0
    version := 0, points := [], ego := List.replicate 64 0, status := List.replicate 384 0, depth := [], seen := []
    releases := [], frames := [], grid := [] }
def oneTrackOut : TrackOut :=
  { cycle := oneCycle, absent := 0, conflictFlags := 0, conflicts := 0, late := 0, entries := 0, records := [] }
def merRun (m : MerState) : State := merState { m with enabled := true, record := merRecord } true
def merBusy : State := merRun { fusion := some oneCycle, waiting := [oneCycle], tracking := [oneTrackOut] }

theorem meets_cycle : (merRun {}).mer.enabled = true ∧ rdB (merRun {}) MER_STATUS.disabled = false ∧
    merReplay merRecord = false ∧ sound (merRun {}) = true ∧ sound merBusy = true ∧
    (List.range 2).all (fun k => !srcOn merRecord k || setHere merBusy k 0) = true ∧
    reach merBusy 0 (tieHome (merTie merRecord 140)) = true ∧ reach merBusy 0 (tieHome (merTie merRecord 144)) = true ∧
    tieValue merBusy (merTie merRecord 140) = 0 ∧ tieValue merBusy (merTie merRecord 144) = 0 := by decide +kernel

theorem meets_trackOutput : (writeOutput 0x40000 (merHeader merBusy oneCycle 2 (merFlags merBusy oneCycle) 0 0 0 0) []
    merBusy).1 = 0 := by decide +kernel

theorem meets_fusionOutput : rangeStatus merBusy merPort 0 (fld merRecord 96 6) 53248 true = 0 := by decide +kernel

/-! ## MeridianCalibration -/

/-- The first 64 bytes of a table image with all its limits at 1 and no camera, its CRC right; and the whole image. -/
def calHead : List Nat :=
  [67, 65, 76, 66, 1, 0, 0, 0, 0, 0, 0, 0, 1, 0, 0, 0, 1, 0, 0, 0, 1, 0, 0, 0, 1, 0, 0, 0, 1] ++ List.replicate 31 0 ++
    [122, 218, 141, 216]
def calImage : List Nat := calHead ++ List.replicate 3072 0

/-- A proposal of it with two answers, under way as an installation or as a refinement of camera 0. -/
def calProposal (st : Option Nat) (a b : Option Bool) : Proposal :=
  { stream := st, image := calHead, debitRot := 0, debitTrans := 0, matin := a, vesper := b, deadline := 1000 }
def upIsland : Island := { held := false, up := true, active := some calHead, installed := some calHead }
def calState (a b : Option Bool) : State :=
  { merState { proposal := some (calProposal (some 0) a b), install := some (calProposal none a b) } true with
    isl := { matin := upIsland, vesper := { upIsland with approved := some ⟨none, calHead, 0, 0, true⟩ } } }

theorem meets_calibration : (calProposal none none none).of 5 = none ∧ (islandOf (calState none none) 6).up = true ∧
    (islandOf (calState none none) 6).approved = some ⟨none, calHead, 0, 0, true⟩ ∧
    rdB (calState none none) MER_STATUS.frozen = false ∧ dieSilent (calState none none) 0 = false ∧
    rdB (calState none none) MER_STATUS.running = true ∧ now (calState none none) = 0 ∧
    ticking (calState none none) = false := by decide +kernel

/-- A calibration policy of one digest. -/
def calPolicy : PolicySlot := { filled := true, kind := 2, body := 1 :: List.replicate 15 0 ++ sha384 calImage }

/-- The image at 0x1000 of a package that stages its installation, under policy handle 0, which covers its digest. -/
def installState : State :=
  let s := poke 0x1000 calHead (wrStg MER_TABLE_ADDR.addr 0 0x1000 (wrStg MER_CTRL.install 0 1
    (wrStg MER_CTRL.owner 0 0 (merState {} false))))
  { s with key := { s.key with policies := [(0, calPolicy)] } }

/-- f of a number that is evaluated first, and the CRC over n zero bytes with it. -/
def force (f : Nat → Nat) : Nat → Nat
  | 0 => f 0
  | n + 1 => f (n + 1)

def crcZeros : Nat → Nat → Nat
  | 0, c => c
  | n + 1, c => force (crcZeros n) (crcByte c 0)

theorem crcZeros_eq (n c : Nat) : (List.replicate n 0).foldl crcByte c = crcZeros n c := by
  induction n generalizing c with
  | zero => rfl
  | succ n ih =>
    rw [List.replicate_succ, List.foldl_cons, ih, crcZeros]
    cases crcByte c 0 <;> rfl

theorem calImage_body : slice calImage 64 3072 = List.replicate 3072 0 := by
  refine List.eq_replicate_iff.mpr ⟨slice_length _ _ _, fun b hb => ?_⟩
  rw [slice_eq_map] at hb
  obtain ⟨i, hi, rfl⟩ := List.mem_map.mp hb
  rw [calImage, List.getD_append_right _ _ _ _ (Nat.le_add_right 64 i), List.getD_eq_getElem?_getD, List.getElem?_replicate]
  split <;> rfl

theorem calImage_crc : tableCrc calImage = 3633175162 := by
  have h : (slice calImage 0 60 ++ [0, 0, 0, 0]).foldl crcByte 0xFFFFFFFF = 1780605114 := by decide +kernel
  have hz : crcZeros 3072 1780605114 = 661792133 := by decide +kernel
  rw [tableCrc, calImage_body, crc32c, List.foldl_append, h, crcZeros_eq, hz]
  decide +kernel

theorem meets_table : tableOk calImage = true := by
  rw [tableOk, calImage_crc]
  decide +kernel

theorem meets_tableRead : (readMem merPort 0 0x1000 3136 [] (commitAt 0 0xF0003C installState)).1 = 0 ∧
    (readMem merPort 0 0x1000 3136 [] (commitAt 0 0xF0003C installState)).2.1 = calImage :=
  ⟨by decide +kernel, eq_of_beq (by decide +kernel)⟩

theorem meets_covers : policyCovers installState 0 calImage = true := by
  have hp : policyAt installState 0 = some calPolicy := rfl
  have hs := slice_after (1 :: List.replicate 15 0) (sha384 calImage)
  rw [sha384_length] at hs
  have hs : slice calPolicy.body (16 + 48 * 0) 48 = sha384 calImage := hs
  have hr : List.range (calPolicy.body.getD 0 0) = [0] := rfl
  rw [policyCovers, hp]
  simp only [hr, List.any_cons, List.any_nil, hs, BEq.rfl]
  rfl

theorem meets_install : stg installState MER_TABLE_ADDR.addr = 0x1000 ∧ stg installState MER_CTRL.install = 1 ∧
    stg installState MER_CTRL.enable = 0 ∧ stg installState MER_POLICY.policy_handle = 0 ∧
    rdB installState MER_STATUS.running = false := by decide +kernel

/-! ## SilentErrorsAndPacks -/

/-- The role of `mmaRole` stalled at block 0 of its MMA, with Brick 1 as its host. -/
def stallRole : Role :=
  { mmaRole 0x20884000 with
    stall := some { block := 0, row := 0, col := 0, off := 1, host := 1, at_ := 0, dialAt := 0, baseA := 0, baseB := 1
                    a := [[3, 5]], b := [[7, 9]] } }
def stallState : State :=
  let s := roleState stallRole other0
  { s with fab := { s.fab with bed := [(1027, 32), (1091, 32)], acc := [(1024, 100)] } }

theorem meets_replay : siteOf stallState 0 = some (site0 stallRole other0) ∧
    roleAt stallState (site0 stallRole other0) = some stallRole ∧ (mmaJob (site0 stallRole other0) 0 0 1).quoin = false ∧
    streamFault stallState img0 0 (mmaJob (site0 stallRole other0) 0 0 1).ra 8 1 0 = none ∧
    streamFault stallState img0 0 (mmaJob (site0 stallRole other0) 0 0 1).rb 8 1 1 = none ∧
    (brickOf stallState 0).lastStrike = none := by decide +kernel

/-- A package that stages an operation on the pack whose image stands at 0x10000 of the host partition. -/
def packState (op : Nat) : State :=
  poke 0x10008 [0, 1] (wrStg FAB_PACK_ADDR.addr 0 0x10000 (wrStg FAB_PACK_CTRL.op 0 op (wrStg FAB_PACK_ID.pack_id 0 7 ioState)))
def packRead : Nat × List Nat × State := readMem 73 0xFF 0x10000 128 [] (commitAt 0 0x100203C (packState 1))

/-- One pack installed, and its removal in work. -/
def removeState : State :=
  { packState 2 with fab := { packs := [⟨7, 1, 100, [0], []⟩], packJob := some ⟨false, 7, []⟩ } }

theorem meets_pack : rangeHost (packState 1) 0x10000 128 = true ∧ stg (packState 1) FAB_PACK_ADDR.addr = 0x10000 ∧
    stg (packState 1) FAB_PACK_CTRL.op = 1 ∧ dieSilent (packState 1) 0 = false ∧ packRead.1 = 0 ∧
    packBytes packRead.2.1 = 256 ∧ rangeHost packRead.2.2 0x10000 256 = true ∧
    (readMem 73 0xFF 0x10000 256 [] packRead.2.2).1 = 0 ∧ stg (packState 2) FAB_PACK_CTRL.op = 2 ∧
    packStatus { removeState with fab := { removeState.fab with packJob := none } } ⟨false, 7, []⟩ = 0 ∧
    firstFail (fabCtxChecks 1 ioState) = none := by decide +kernel

/-! ## IslandMonitors -/

/-- Both islands up in state normal, with a bad reading short of the limit for each monitor named. -/
def islState (x : Island) : State :=
  { mode := .run
    isl := { matin := { x with held := false, up := true }, vesper := { held := false, up := true } }
    regs := { live := [(fkey ISL_STATE.state (dieBase 5), 0), (fkey ISL_STATE.state (dieBase 6), 0)] } }
def badIsland : Island := { bad := [(0x02 * 256 + 8, 15), (0x09 * 256, 1)] }
def oneForward : Forward := { island := 5, status := 0x0532, die := 1, unit := 3, severity := 3, sealedRun := true }

theorem meets_monitors : watching (islState badIsland) 5 = true ∧ watching (islState badIsland) 6 = true ∧
    railBad (islState badIsland) 5 8 0 = true ∧ railBad (islState badIsland) 5 8 750 = false ∧
    railHeld (islandOf (islState badIsland) 5) 0 8 = false ∧ (railCause 8).1 = 0x02 ∧
    aget (islandOf (islState badIsland) 5).bad (0x02 * 256 + 8) 0 = 15 ∧
    aget (islandOf (islState badIsland) 5).bad (0x09 * 256 + 0) 0 = 1 ∧ beatWatched (islState badIsland) 5 66 = true ∧
    heldState (islState badIsland) 5 = 0 := by decide +kernel

theorem meets_messages : takeForward 5 { islState {} with forwards := [oneForward] }.forwards = some (oneForward, []) ∧
    (islandOf (islState { inbox := [⟨1, 0x28, 0⟩] }) 5).inbox = [⟨1, 0x28, 0⟩] ∧
    (islandOf (islState { lost := [1] }) 5).lost.contains 0 = false := by decide +kernel

/-! ## SilentStateAndIslandRestart -/

/-- Silent commands on their way to the Hearth and to die 1, where a launch runs. -/
def sentState : State :=
  { roleState (role0 0) other0 with isl := { silentSent := [0, 1] } }

/-- The mailbox argument of Matin, and Vesper after a self-reset. -/
def boxState (arg : Nat) : State :=
  let s := islState {}
  { s with
    regs := { s.regs with committed := [((dieBase 5 + 0x1004) * 64, arg)] }
    isl := { s.isl with vesper := { held := false, resetWhy := some 2 } } }

theorem meets_silent : sentState.isl.silentSent.contains 0 = true ∧ sentState.isl.silentSent.contains 1 = true ∧
    setupStatus (boxState 0xA55A) 68 (dieBase 5 + 0x1000) = 0 ∧ watching (boxState 0xA55A) 5 = true ∧
    aget (boxState 0xA55A).regs.committed ((dieBase 5 + 0x1004) * 64) 0 = 0xA55A ∧
    (islandOf (boxState 0) 6).resetWhy = some 2 ∧ phaseNs (heldState (boxState 0) 5) (islandOf (boxState 0) 5).high ≠ 0 := by
  decide +kernel

/-! ## CoursesSleepAndAgentsSample -/

/-- Power domains 0 to 99 on. -/
def allOn : AMap Nat := (List.range 4).map (fun k => (fkey PWR_DOMAIN_ON.on (4 * k), 2 ^ 32 - 1))

/-- A forecast of one entry of 1 ms from Dial time 5, for sequence 9. -/
def fcBytes : List Nat :=
  leBytes 4 9 ++ [1] ++ List.replicate 59 0 ++ leBytes 8 5 ++ leBytes 4 1000 ++ List.replicate 500 0

/-- A package in run with an idle Course 7, all domains on and the forecast at the start of the host partition's page. -/
def sleepState : State :=
  let s := poke 0x10000 fcBytes ioState
  { s with
    regs := { s.regs with
      live := allOn ++ s.regs.live
      staged := [(fkey PWR_FCAST_ADDR.addr 0, 0x10000)]
      committed := [(fkey PWR_FCAST_ADDR.addr 0, 0x10000)] }
    fab := { courses := [(7, { owner := 64 })] } }

/-- A forecast that ends at 1000 ns. -/
def staleState : State :=
  { mode := .run, power := { forecast := [⟨0, 1, [0, 0, 0, 0], 0, 0⟩], staleRaised := false } }

/-- A cap of 100 W staged. -/
def capState : State := { mode := .run, regs := { staged := [(fkey PWR_PKG_CAP.cap_w 0, 100)] } }

theorem meets_sleep : courseCode sleepState 7 = 1 ∧ com sleepState PWR_COURSE_POLICY.off_allowed = 1 ∧
    namedWithin sleepState 7 (com sleepState PWR_COURSE_POLICY.retain_after_us * 1000) = false ∧
    namedWithin sleepState 7 1000000 = false ∧ 64 ≤ (courseOf sleepState 7).owner ∧ (courseOf sleepState 7).scrub = false ∧
    domainOn sleepState 64 = true ∧ domainOn sleepState 65 = true ∧ dieSilent capState 0 = false ∧
    stg capState PWR_PKG_CAP.cap_w < 180 ∧ dieSilent sleepState 0 = false ∧ (∀ c ∈ pwrChecks sleepState, c.1 = false) := by
  decide +kernel

theorem meets_forecast : (readMem 72 0xFF 0x10000 576 [] sleepState).1 = 0 ∧
    (readMem 72 0xFF 0x10000 576 [] sleepState).2.1 = fcBytes ∧ forecastBad fcBytes 9 = false ∧ forecastBad fcBytes 8 = true ∧
    inOrder (forecastEntries fcBytes) = true ∧ (forecastEntries fcBytes).length = 1 ∧
    staleState.power.forecast.getLast? = some ⟨0, 1, [0, 0, 0, 0], 0, 0⟩ ∧ ticking staleState = false := by decide +kernel

/-! ## CoolantLoopAndTrip -/

/-- A package in run with supplies, a known flow and both points known. -/
def coolState : State :=
  { mode := .run
    nwt := { supply := true }
    power := { enMain := true
               cool := { inlet := { value := some 3000 }, outlet := { value := some 4000 }
                         flow := some 400, calN := 1, calFlow := 400, calDelta := 1000, calPower := 1000 } } }

/-- The package after a thermal trip. -/
def tripState : State := { mode := .stopped, power := { tripped := true } }

theorem meets_cool : coolState.power.cool.samples.length = 4 ∧ thermistor [32768] = some 2500 ∧ thermistor [100] = none ∧
    (thermistor [32000]).isSome = true ∧ filtered (com coolState PWR_COOL_REQ_CFG.flow_filt) 255 = true ∧ ticking tripState = false ∧ rdB coolState PWR_STATUS.limp = false ∧ rdB coolState PWR_STATUS.cal_fault = false ∧
    400 * coolState.power.cool.calN ≤ coolState.power.cool.calPower + 12 * coolState.power.cool.calN ∧ coolState.power.tripped = false ∧
    rdB tripState NWT_INPUT_STATE.pwr_good = false ∧ dieSilent coolState 0 = false := by decide +kernel

/-! ## OuvurLinksAndHeartbeats -/

/-- A roster of two packages, 0 and 1, whose ports 0 face each other. -/
def rosterTwo : List Nat :=
  [2, 0, 0, 0] ++ List.replicate 60 0
    ++ [0, 0, 1, 0, 255, 255, 255, 255, 255, 255, 0, 0, 0, 0, 0, 0] ++ List.replicate 8 7 ++ List.replicate 8 0
    ++ [1, 0, 0, 0, 255, 255, 255, 255, 255, 255, 0, 0, 0, 0, 0, 0] ++ List.replicate 8 9 ++ List.replicate 8 0

/-- Package 0 of that roster in a state of Ouvur, with port 0 in a state. -/
def ovrState (state port : Nat) : State :=
  { ioState with
    regs := { ioState.regs with
      live := [(fkey OVR_STATUS.state 0, state), (fkey OVR_PORT.state 0, port)] ++ ioState.regs.live
      committed := [(fkey OVR_CTRL.enable 0, 1)] }
    ouvur := { roster := rosterTwo, members := 3, ports := [(0, { been := true, miss := 4, replay := [⟨5, [8, 9]⟩] })] } }

/-- A packet's header with a right CRC: its kind, flags, packages, epoch, roster and link sequence number. -/
def headOf (code flags src dst epoch roster seq : Nat) : OvHead :=
  let h := [code, flags] ++ leBytes 2 src ++ leBytes 2 dst ++ leBytes 4 epoch ++ leBytes 4 roster ++ List.replicate 10 0 ++ leBytes 4 seq
  { raw := h ++ leBytes 4 (crc32c h) }

def beat : OvHead := headOf 1 0 1 0 0 (rosterCrc (ovrState 2 2)) 0

def beatFrom3 : OvHead := headOf 1 0 3 0 0 (rosterCrc (ovrState 2 2)) 0

theorem meets_links : ovPortUp (ovrState 2 2) 0 = true ∧ ovPortUp (ovrState 2 0) 0 = false ∧
    expected (ovrState 2 2) 0 = 1 ∧ (entryOf (ovrState 2 2) 1).map entIdentity = some (List.replicate 8 9) ∧
    com (ovrState 2 2) OVR_CTRL.enable ≠ 0 ∧ ovState (ovrState 2 2) = 2 ∧ ovState (ovrState 4 2) = 4 ∧
    beat.roster = rosterCrc (ovrState 2 2) ∧ beatFrom3.src ≠ expected (ovrState 2 2) 0 ∧ beat.ok = true ∧ beatFrom3.ok = true ∧
    beat.seq = (ovPort (ovrState 2 2) 0).rxSeq ∧ ticking (ovrState 2 2) = false ∧
    facing (ovrState 2 2) 1 = [0] ∧ ovActive (ovrState 2 2) = true ∧ bit (baseMembers (ovrState 2 2)) 1 = true ∧
    (ovPort (ovrState 2 2) 0).packets < 2 ^ 32 := by decide +kernel

/-! ## OuvurMembership -/

/-- Package 0 as a member, agreed on epoch 4 of coordinator c by way of a parent. -/
def agreeState (c : Nat) (parent : Option Nat) : State :=
  let s := ovrState 2 2
  { s with ouvur := { s.ouvur with agree := some ⟨4, c, 1, 0, parent⟩, settle := some 250000, confirmedAt := some 5 } }

/-- Package 0 excluded and ready to rejoin, with one neighbour heard since Dial time 0. -/
def exclState : State :=
  let s := ovrState 3 2
  { s with ouvur := { s.ouvur with ports := [(0, { validSince := some 0 })], drillEnd := some 7000000 } }

theorem meets_members : ovActive (agreeState 0 none) = true ∧ portCode (agreeState 0 none) 0 = 2 ∧
    acknowledges (ovrState 2 2) 4 1 = true ∧ acknowledges (agreeState 0 none) 4 1 = false ∧
    quorum (baseMembers (agreeState 0 none)) (idMap [0]) = true ∧ quorum (2 ^ 3 - 2) (idMap [1]) = true ∧
    quorum (2 ^ 3 - 1) (idMap [0]) = false ∧ ticking exclState = false ∧ ownId (agreeState 0 none) = 0 ∧ ovState exclState = 3 ∧
    mayRejoin (passTo 10000000 exclState) = true := by decide +kernel

/-! ## OuvurTakesTransferRecords -/

/-- A transfer record of 64 elements from 0x6000: operation, flags, element type, target, local shards and destination page. -/
def xfRaw (op flags dtype target count dst : Nat) : List Nat :=
  [op, flags, dtype, 0, target, 0, 0, 0, 0, 0, count, 0, 64, 0, 0, 0, 0, 0x60, 0, 0, 0, 0, 0, dst] ++ List.replicate 16 0
    ++ [5, 0, 0, 0, 9, 0, 0, 0, 50] ++ List.replicate 15 0

/-- Package 0 as a member of epoch 0 with a queue of context 0 in page 0 that holds one record; group 1 is the chain of both
packages, with this one second. -/
def xfState (raw : List Nat) : State :=
  let s := poke 0x1000 raw (ovrState 2 2)
  { s with
    regs := { s.regs with committed := s.regs.committed ++ [(fkey OVR_Q_BASE.base 0, 0x1000), (fkey OVR_Q_CFG.size_log2 0, 6),
      (fkey OVR_Q_CFG.enable 0, 1), (fkey OVR_Q_STAT.stat 0, 0x2000), (fkey HST_TIE_COUNT.tie_count 0, 8)] }
    ouvur := { s.ouvur with queues := [(0, { tail := 1, groups := [{}, ⟨2, [(1, 0), (0, 0)]⟩]
                                             mirrors := List.replicate 16 (1 :: List.replicate 31 0) })] } }

/-- What a record needs to be taken, and its check. -/
def taken (raw : List Nat) : Bool :=
  let s := xfState raw
  let d := readMem 71 0 0x1000 64 [] s
  com s OVR_Q_CFG.enable == 1 && (ovQueue s 0).run.isNone && d.1 == 0 && d.2.1 == raw && xfCheck d.2.2 0 raw == 0

/-- The same package with a record at work. -/
def runState (raw : List Nat) (r : OvRun) : State :=
  let s := xfState raw
  { s with ouvur := { s.ouvur with queues := [(0, { ovQueue s 0 with run := some r })] } }

def sendRaw : List Nat := xfRaw 4 0 2 1 0 0
def recvRaw : List Nat := xfRaw 5 0 2 1 0 0x70
def sendWaits : OvRun := ⟨0, sendRaw, true, 50000, [], [(1, 0, { group := 0xFF, last := true })], 0, 0, [], true⟩
def recvWaits (started : Bool) : OvRun := ⟨0, recvRaw, started, 50000, [], [], 0, 0, [], false⟩

/-- A record that waits for Tie 5 at its home, until an instant. -/
def xfWaitState (d : Nat) : State :=
  let s := runState recvRaw (recvWaits false)
  { s with rings := { s.rings with waits := [⟨5, 9, false, .other 1376, 0, d⟩] } }

theorem meets_xf : taken sendRaw = true ∧ taken recvRaw = true ∧ taken (xfRaw 5 2 2 1 0 0x70) = true ∧
    taken (xfRaw 1 0 0 1 1 0x70) = true ∧ taken (xfRaw 3 0 2 1 1 0x70) = true ∧ taken (xfRaw 2 0 2 1 1 0x70) = true ∧
    taken (xfRaw 6 0 0 0 0 0) = true ∧ taken (xfRaw 7 0 0 0 0 0x70) = true ∧
    (chainPred (xfState (xfRaw 1 0 0 1 1 0x70)) 0 (xfRaw 1 0 0 1 1 0x70)).isSome = true := by decide +kernel

theorem meets_xfTimeout : (ovQueue (xfWaitState 77) 0).run = some (recvWaits false) ∧ ticking (xfWaitState 77) = false ∧
    ((xfWaitState 77).rings.waits.find? (fun w => w.who == .other 1376)).isSome = true ∧
    (runState recvRaw (recvWaits false)).rings.waits = [] ∧
    unready (runState recvRaw (recvWaits true)) 0 (recvWaits true) = false := by decide +kernel

theorem meets_xfrun : reach (xfState recvRaw) 0 (tieHome 5) = true ∧
    unready (runState sendRaw sendWaits) 0 sendWaits = true ∧ ovState (xfState recvRaw) = 2 ∧
    dieSilent (xfState recvRaw) 0 = false ∧ beat.seq = (ovPort (xfState recvRaw) 0).rxSeq ∧
    (ovQueue (runState sendRaw sendWaits) 0).run = some sendWaits ∧ xfGroup sendRaw = 0xFF := by decide +kernel

/-! ## OuvurDataAndCommits -/

/-- A roster of packages 0 and 1 whose entry 0 holds this package's identity. -/
def rosterOwn : List Nat :=
  rosterTwo.take 80 ++ (List.range 8).map (fun i => ownIdentity.getD i 0) ++ rosterTwo.drop 88

/-- A staged OVR_COMMIT that enables Ouvur under policy 5. -/
def joinState (enabled : Nat) : State :=
  { mode := .run
    mem := { home := [(0, 0x40000000)] }
    key := { policies := [(5, { filled := true, kind := 3, body := rosterOwn })] }
    ouvur := { roster := rosterTwo }
    regs := { staged := [(fkey OVR_CTRL.enable 0, 1 - enabled), (fkey OVR_POLICY.policy_handle 0, 5)]
              committed := [(fkey OVR_CTRL.enable 0, enabled), (fkey OVR_POLICY.policy_handle 0, 5 * enabled)] } }

theorem meets_join : dieSilent (joinState 0) 0 = false ∧ com (joinState 0) OVR_CTRL.enable = 0 ∧
    stg (joinState 0) OVR_CTRL.enable = 1 ∧ rangeHost (joinState 0) 0 16384 = true ∧
    stg (joinState 1) OVR_POLICY.policy_handle = com (joinState 1) OVR_POLICY.policy_handle ∧
    stg (joinState 1) OVR_CTRL.enable = 0 := by decide +kernel

theorem ownIdentity_length : ownIdentity.length = 8 := by
  rw [ownIdentity, List.length_take, sha384_length]
  rfl

theorem meets_roster : rosterFor (joinState 0) 5 = some rosterOwn := by
  have hl := ownIdentity_length
  have hi : (List.range 8).map (fun i => ownIdentity.getD i 0) = ownIdentity :=
    List.ext_getElem (by simp [hl]) fun i h1 h2 => by simp [List.getElem?_eq_getElem h2]
  have he : entIdentity (rosterEntry rosterOwn 0) = ownIdentity := by
    have h := slice_between (rosterTwo.take 80) ((List.range 8).map (fun i => ownIdentity.getD i 0)) (rosterTwo.drop 88)
    rw [entIdentity, rosterEntry, slice_slice _ _ _ _ _ (by decide), ← hi]
    exact h
  have hp : policyAt (joinState 0) 5 = some { filled := true, kind := 3, body := rosterOwn } := rfl
  have ho : rosterOk rosterOwn = true := by decide +kernel
  have ha : (rosterEntries rosterOwn).any (fun e => entIdentity e == ownIdentity) = true :=
    List.any_eq_true.mpr ⟨rosterEntry rosterOwn 0, List.mem_map_of_mem (by decide +kernel), by rw [he]; exact beq_self_eq_true _⟩
  rw [rosterFor, hp]
  simp [ho, ha]

/-- A commit of the queue of context 0, which owns pages 0 to 8; the tables of zeros lie at the start of page 1 and in page 0. -/
def ovqState : State :=
  { ioState with
    mem := { home := (List.range 9).map (fun p => (p, p)) }
    regs := { ioState.regs with staged := [(fkey OVR_Q_CFG.size_log2 0, 6), (fkey OVR_Q_DB.db 0, 0x2000),
      (fkey OVR_Q_STAT.stat 0, 0x3000), (fkey OVR_Q_CFG.enable 0, 1), (fkey OVR_GROUP_ADDR.groups 0, 0x10000)] } }

def ovqHeld : State := commitAt 0 0x110103C ovqState

theorem ovq_byte (i : Nat) (h : 0x10000 + i < hbmEnd) (ho : seesCipher 71 0 (ownerOf ovqHeld (0x10000 + i)) = false) :
    readByte ovqHeld 71 0 (0x10000 + i) = 0 := by
  have hk : ∀ p, lineKeyOf ovqHeld p = 0 := by intro p; simp only [lineKeyOf, frameKeyOf, frameBase]; split <;> rfl
  have hq : ∀ o, keyOf ovqHeld o = 0 := by intro o; unfold keyOf; split <;> rfl
  simp only [readByte, h, ho, physByte, hk, hq, if_true]
  rfl

theorem meets_ovqReads : readMem 71 0 0x10000 524288 [] ovqHeld = (0, readBytes ovqHeld 71 0 0x10000 524288, ovqHeld) ∧
    readMem 71 0 0 512 [] ovqHeld = (0, readBytes ovqHeld 71 0 0 512, ovqHeld) :=
  ⟨readMem_plain _ rfl rfl rfl (by decide +kernel) (by decide +kernel),
    readMem_plain _ rfl rfl rfl (by decide +kernel) (by decide +kernel)⟩

theorem ovq_groups (g : Nat) (h : g < 16) : parseGroup (slice (readBytes ovqHeld 71 0 0x10000 524288) (g * 32768) 32768) = some {} := by
  have hb : ∀ i, i < 64 → (slice (readBytes ovqHeld 71 0 0x10000 524288) (g * 32768) 32768).getD i 0 = 0 := by
    intro i hi
    rw [getD_slice, if_pos (by omega), getD_readBytes, if_pos (by omega)]
    exact ovq_byte _ (by simp only [hbmEnd]; omega) (by simp [seesCipher])
  have hs : ∀ lo n, lo + n ≤ 64 → slice (slice (readBytes ovqHeld 71 0 0x10000 524288) (g * 32768) 32768) lo n = List.replicate n 0 := by
    intro lo n hn
    refine List.eq_replicate_iff.mpr ⟨slice_length _ _ _, fun b hb' => ?_⟩
    rw [slice_eq_map] at hb'
    obtain ⟨i, hi, rfl⟩ := List.mem_map.mp hb'
    exact hb _ (by have := List.mem_range.mp hi; omega)
  have h2 := hs 2 2 (by omega)
  have h0 := hs 0 2 (by omega)
  have h4 := hs 4 60 (by omega)
  simp only [parseGroup, fld, zeroAt, h0, h2, h4]
  rfl

theorem meets_ovq : dieSilent ovqState 0 = false ∧ (ovQueue ovqState 0).run = none ∧ ovqBad ovqHeld 0 = false ∧
    stg ovqState OVR_Q_CFG.poll_us 0 = 0 ∧ stg ovqState OVR_GROUP_ADDR.groups 0 = 0x10000 ∧
    (∀ i < 16, mirrorOk (slice (readBytes ovqHeld 71 0 0 512) (32 * i) 32) = true) := by decide +kernel

theorem meets_ovqTable : parseGroups (readBytes ovqHeld 71 0 0x10000 524288) = some (List.replicate 16 {}) := by
  have h : (List.range 16).map (fun g => parseGroup (slice (readBytes ovqHeld 71 0 0x10000 524288) (g * 32768) 32768)) =
      (List.range 16).map (fun _ => some {}) :=
    List.map_congr_left fun g hg => ovq_groups g (List.mem_range.mp hg)
  simp only [parseGroups, h]
  rfl

theorem meets_data : fromPartner (runState recvRaw (recvWaits true)) 0 1 (recvWaits true) { group := 0xFF, role := .stream } = true ∧
    bit (runState recvRaw (recvWaits true)).ouvur.members 1 = true ∧ ownId (runState recvRaw (recvWaits true)) = 0 ∧
    fromPartner (runState (xfRaw 6 0 0 0 0 0) ⟨0, xfRaw 6 0 0 0 0 0, true, 0, [], [], 0, 0, [], false⟩) 0 0
      ⟨0, xfRaw 6 0 0 0 0 0, true, 0, [], [], 0, 0, [], false⟩ { group := 0xFF, role := .mirrorRefused } = true ∧
    fromPartner (runState (xfRaw 1 0 0 1 1 0x70) ⟨0, xfRaw 1 0 0 1 1 0x70, true, 0, [], [], 0, 0, [], false⟩) 0 1
      ⟨0, xfRaw 1 0 0 1 1 0x70, true, 0, [], [], 0, 0, [], false⟩ { group := 1, role := .stop } = true := by decide +kernel

/-! ## KeystoneRequests -/

/-- A request: kind, role, first byte of the challenge, body, the number that is both r and s of its signature, and the key
that it verifies under. Its slot or generation is 0. -/
structure Req where
  kind : Nat
  role : Nat
  nonce : Nat
  body : List Nat
  sig : Nat
  x : Nat
  y : Nat

/-- The bytes of its block. -/
def Req.bytes (q : Req) : List Nat :=
  leBytes 4 0x5145524B ++ [q.kind, 0, q.role, 0, q.nonce] ++ List.replicate 31 0 ++ q.body ++ List.replicate (344 - q.body.length) 0
    ++ List.replicate 16 0 ++ beBytes 48 q.sig ++ beBytes 48 q.sig ++ List.replicate 16 0

/-- A package in run, member 0 of Ouvur, whose key slots hold the request's key; the block lies at the start of the host
partition's page. -/
def reqState (q : Req) : State :=
  let s := poke 0x10000 q.bytes (ovrState 2 2)
  let k : KeySlot := ⟨0xFF, q.x, q.y⟩
  { s with
    regs := { s.regs with
      live := (fkey KEY_CHALLENGE.challenge 0, q.nonce) :: s.regs.live
      staged := [(fkey KEY_REQ_ADDR.addr 0, 0x10000)] }
    key := { maker := List.replicate 8 (q.x, q.y)
             installer := if q.kind = 1 then List.replicate 8 none else [some k, none, none, some ⟨1, 0, 0⟩, none, none, none, none]
             operator := [some k, if q.kind = 4 then some k else none, none, none] } }

def reqRead (q : Req) : State := commitAt 0 0x130003C (reqState q)

/-- The read of a request's block. -/
theorem req_read (q : Req) (hl : q.bytes.length = 512) (h8 : ∀ b ∈ q.bytes, b < 256)
    (hh : rdB (reqRead q) PLB_PORT_STATE.held (73 * 16) = false) (hs : readStatus (reqRead q) 73 0xFF 0x10000 512 = 0) :
    readMem 73 0xFF 0x10000 512 [] (reqRead q) = (0, q.bytes, reqRead q) := by
  have hm : (reqRead q).mem = { ioState.mem with cells := (poke 0x10000 q.bytes (ovrState 2 2)).mem.cells } := by
    have h1 : (ovrState 2 2).mem = ioState.mem := by delta ovrState; rfl
    have h2 : (reqRead q).mem = (poke 0x10000 q.bytes (ovrState 2 2)).mem := by
      have hA : ∀ s, (commitAt 0 0x130003C s).mem = s.mem := fun s => rfl
      rw [reqRead, hA]
      delta reqState
      rfl
    have h3 := congrArg State.mem (poke_cells 0x10000 q.bytes (ovrState 2 2))
    rw [h2, h3]
    simp only [h1]
  have ho : homeEntry (reqRead q) 1 = 0x40000001 := by simp only [homeEntry, hm]; rfl
  have hw : ownerOf (reqRead q) 0x10000 = 0x40 := by
    show bits (homeEntry (reqRead q) 1) 24 8 = _
    rw [ho]; rfl
  rw [← hl] at hs
  have h := readMem_at (port := 73) (ctx := 0xFF) (a := 0x10000) (l := q.bytes) [] (by rw [hm]; rfl) (by simp only [sound, hm]; rfl) (by rw [hm]; rfl) hh h8
    (by omega) (by decide) (by rw [hw]; rfl)
    (fun n => by simp only [lineKeyOf, frameKeyOf, frameBase, keyOf, hm, hw]; split <;> rfl)
    (by
      show (bits (homeEntry (reqRead q) 1) 19 2 * 393216 + bits (homeEntry (reqRead q) 1) 0 19) * 65536 + 0x10000 % 65536 = _
      rw [ho]; rfl)
    (fun i hi => by
      have := rawByte_poke 0x10000 q.bytes (ovrState 2 2) i hi
      unfold rawByte at this ⊢
      rw [hm]
      exact this) hs
  rwa [hl] at h

/-- What a request of one signature needs to act, its block read by `req_read`. -/
def acts (q : Req) : Bool :=
  let s := reqState q
  q.bytes.length == 512 && q.bytes.all (fun b => decide (b < 256)) && stg s KEY_REQ_ADDR.addr == 0x10000
    && !rdB (reqRead q) PLB_PORT_STATE.held (73 * 16) && readStatus (reqRead q) 73 0xFF 0x10000 512 == 0
    && rangeHost s 0x10000 512 && !dieSilent s 0 && rqKind q.bytes == q.kind && requestStatus s q.bytes none == 0

def provisionReq : Req := ⟨1, 0, 0, [2, 128],
  0x5DEA30E80A1E31697133C08766703B53E0F131F9C99E14066966E6BCC7BE286E4B2E0F0BBB8359DAFBE5D11D70FA5FD1,
  0x4F5CAD0CA71E4AD05DA3660307F46E1E51E49D44C8AEB21748CCE2394928E395BA428730A7DF7A93F28AC26540C3BC0F,
  0x775437368C09CEC8969715CB922225A2D44E57898C8A1D1949C64F194EF8D100D3196B08FC27B35C93666932483A6EBC⟩

def revokeReq : Req := ⟨2, 1, 2, [3],
  0x9C39B0A09BDF20BEAC6B08FF961A6B79D248A4C378CB588FC049357A8E5F894A44816A3D155AB218F4597FC85937BA8E,
  0x9007DCF6365B1B61ED49428F1172C4F65A60A96BDA96837A983DBF3D051E208E984BFC2B9762F485F0668EDD0A083060,
  0x334CFB8B8F072F59C969833841D4ED746C8A86787FD567C62EF4C1654076854F14BE0B9BE38590BE860B09B109FA28AA⟩

def provisionOpReq : Req := ⟨3, 1, 0, [1, 0, 5],
  0x48A9769DC9E1D427CD7DB3AB4A6217F717A610563E8BABCD47BD32F54C3035EF89B5718CD84E21A310D47BB3A2D9299E,
  0x2DEC4DF81912CAC6E5D68414CE471EE743ADE371BB46AE1779F3600C05AA808F90F4B5EA0276A826A25188CAC816F11C,
  0xDFD8D395EF4FB82A8EACC3D4ECA42CBC2A3DC593D336E256C8CC3F726EA024079BA963D3B9835D1F659B5F7AAD475223⟩

def revokeOpReq : Req := ⟨4, 1, 1, [1],
  0x2008FE1FA3CDBD0DEE2CE96C9C5F172D6C1D2BC08CB4F54A54856EE8A2D80EB2810074408CAFB9DEE09B84732264457,
  0x430FA9A281EB503ECCA822C25BDF93CF20688AD92EBD673164B824DB92BFD759FCA451607CC97E8B7CA7C373AA22675,
  0x90539BD6D725BB3CCAEB081761D62DE6158C847602A5576D579A1C8874729A0875749D3C6D92D14899B9630223AEC78⟩

def retestReq : Req := ⟨6, 2, 0, [2, 0, 5, 0, 9],
  0x2F9D65C54C1326A99EFFA44D1BC623FA06D0920912E7A30A6F5DA217198D593F3DCC524B1ABAEF3764C707A910E88181,
  0x9BD57CBF5D81F6CAF791C974A9813657381FF69D1CAEE0BAC72D0BF04AACEEA47A2B11E0CFF5C5AFD61D5BBF2C74B9DA,
  0x23DEB50F9F6EE6A0A3F6246C333542EFCAD7A436E5808FC0EF45D544A202489B578E5690CC97F045CC2373FB46BDE33D⟩

def drillReq : Req := ⟨7, 2, 0, [100],
  0x8B61378963C51F3D37675239C60281F49550F3CFA79A55AF3D195827A29EB8860BACA6BDD8D0D71C308FC414B6B7458D,
  0x4E8749A9872F9F7E31EEB9D049CF14936BFD24947E2570EE1A4A3674FADEE6112A7D2DCE64975286E871999C02244AA1,
  0x2C288CB20725ADBC631610358F51A8B316F6DC302C20182B7B9FEA5CE445F4CD66AB4F357DFB21C15A1694FE13869364⟩

def firmwareReq : Req := ⟨8, 0, 2, [5],
  0x20224F9ABE6C0D50D33F74D2879FC951D6A55465F4F8E5A80D2C751C6C02D52DCBD04C6FC845A28A02CBAD2044B5E175,
  0x33805A61C8230008D933C7569FF66244148BE216144DDF7A8BDD1A3DA3F7E9248D3E483C2F3C432C4E9B921FBEFA4E47,
  0x4F59DF92B5D583059DF15B04AEF17E2DFD4669FF41474B30650C0F4611F640B344A7D2E8224AE4BDF075A58F59E64C1C⟩

def minimumReq : Req := ⟨9, 1, 0, [1, 0, 7],
  0x41B421F24D7C0B39A4B88E950466E3E079AE0EE0AE05A024D4E8E479C109CA1C3A46A4D6D82B85AEB6594BF98FA8FA8E,
  0xB2D0F8E3ACE5EB25901C0ADD1AA54EDB8DF43A6A92DF79B508DCB56648CD8DB6BEC0035C848DFD20409B04CE13C70026,
  0x2B284BF10B1F71C03457A33EC7DF2566D4EE0BC7E4E446FBAE937C271FC9439323127FB58DFFBC0D84884699334FF46C⟩

theorem meets_provisionReq : acts provisionReq = true := by decide +kernel

theorem meets_revokeReq : acts revokeReq = true := by decide +kernel

theorem meets_provisionOpReq : acts provisionOpReq = true := by decide +kernel

theorem meets_revokeOpReq : acts revokeOpReq = true := by decide +kernel

theorem meets_retestReq : acts retestReq = true := by decide +kernel

theorem meets_drillReq : acts drillReq = true := by decide +kernel

theorem meets_firmwareReq : acts firmwareReq = true := by decide +kernel

theorem meets_minimumReq : acts minimumReq = true := by decide +kernel

theorem meets_refused : requestStatus (reqState { retestReq with kind := 7 }) ({ retestReq with kind := 7 } : Req).bytes none = 0x0F02 ∧
    ovState (reqState drillReq) = 2 ∧ ownRequired (reqState drillReq) = false ∧
    dieSilent { reqState retestReq with silent := [(0, true)] } 0 = true := by decide +kernel

/-! ## KeystoneUnlocksPoliciesAndReports -/

def halfReq : Req := ⟨5, 0, 2, [2],
  0x206396D2E7A95AC869B099BD71F7EA5CFDD3FB4B09DE68F9EE26DA099582E8060EFAE8235E2187B3B148A3D1A02DEE5D,
  0x5022AC92086330017A3CFC32CFCD8B79EDACCF505566C421CBD1109EDF83E80121A18DFDB34C61194521D6F63B98E624,
  0x9D4B3F4F75E79F035919555EDBB16EF54412B73D161633E2628CFBFFE69A27F568367074DD09C055F04E616CA6C3BB4E⟩


def secondReq : Req := ⟨5, 1, 1, [2],
  0xBABB4841895623AC9401E5682220C03061C7BA4A4D72E8F2D978FEAA0F7D80531B2BEA66916B5136791936DA1EFAF368,
  0xA42306842EDCC6ADFD1E17C76599935C648FD564C05EB4B109339BA987A2558320C72B22683FA82EB1A9AFD99E7D9DEF,
  0x811525634DDCD240974A22CABB5E910652C4F2A2F743F4A374A6B7A6E7658C3CB20AFD5A9FE279213282A763FD428AB⟩

/-- The second half waits for its partner of the maker. -/
def halfState : State :=
  let s := reqState secondReq
  { s with key := { s.key with half := some ⟨0, rqBody secondReq.bytes, 5⟩ } }

theorem meets_half : acts halfReq = true ∧ rqKind halfReq.bytes = 5 := by decide +kernel

theorem meets_second : acts secondReq = true ∧ rqRole secondReq.bytes = 1 ∧
    requestStatus halfState secondReq.bytes (some (rqBody secondReq.bytes)) = 0 := by decide +kernel

/-- A policy image of type 2 signed by installer slot 0. -/
def policyImg : List Nat :=
  leBytes 4 0x594C4F50 ++ [1, 0, 2, 0, 0x80, 1, 0, 0, 3] ++ List.replicate 115 0 ++ [1] ++ List.replicate 127 0
    ++ List.replicate 16 0 ++ beBytes 48 0x953C267D43D2AD434AA7C97C23D2071676972B7E1E3DCD4A9E50A6824FDC72A690F78AB545455E529D19772D15609EAE ++ beBytes 48 0x953C267D43D2AD434AA7C97C23D2071676972B7E1E3DCD4A9E50A6824FDC72A690F78AB545455E529D19772D15609EAE ++ List.replicate 16 0

/-- A package in run with the image at the start of the host partition's page and its key in installer slot 0; an operation of
KEY_POLICY_COMMIT is staged, and addresses for a report and a copy at the start of page 0, which is the host partition's. -/
def polState (op : Nat) : State :=
  let s := poke 0x10000 policyImg ioState
  { s with
    mem := { s.mem with home := (List.range 33).map (fun p => (p, 0x40000000 + p)) }
    regs := { s.regs with staged := [(fkey KEY_POLICY_ADDR.addr 0, 0x10000), (fkey KEY_POLICY_OP.op 0, op),
      (fkey KEY_ATT_CTX.context 0, 0xFF), (fkey KEY_COPY_OP.op 0, op)] }
    key := { installer := [some ⟨0xFF, 0xFC9582AF89E4754D06F550F79B9D045DBD0F877AC586E69F876615496EA49D18F72C9D0EA3F9EC8CD5CAE6DCFA0C791F, 0xE65B622D4BCCAFB0CAC87FC2D2D0417997A220AF445D8299B45B6217C17BDCDDB162A869F660E6AC16882E23109759E8⟩]
             policies := if op = 2 then [(0, { filled := true, kind := 2 }), (1, { gen := 1, filled := true })] else [] } }

/-- The same with a handle in KEY_POLICY_HANDLE. -/
def handleState (h : Nat) : State :=
  { polState 2 with regs := { (polState 2).regs with live := [(fkey KEY_POLICY_HANDLE.handle 0, h)] } }

theorem meets_policy : policyStatus (polState 1) policyImg = 0 ∧ policyStatus (polState 1) (policyImg.take 383) = 0x0F02 ∧
    fld policyImg 8 4 = 384 ∧ stg (polState 1) KEY_POLICY_OP.op = 1 ∧ rangeHost (polState 1) 0x10000 384 = true ∧
    policyAt (handleState 0) 0 = some { filled := true, kind := 2 } ∧ policyInUse (handleState 0) 0 = true ∧
    policyAt (handleState 33) 33 = some { gen := 1, filled := true } ∧ policyInUse (handleState 33) 33 = false ∧
    policyAt (polState 1) 0 = none ∧ stg (handleState 33) KEY_POLICY_OP.op = 2 ∧
    dieSilent (polState 1) 0 = false := by decide +kernel

theorem meets_policyRead : (readMem 73 0xFF 0x10000 128 [] (commitAt 0 0x130005C (polState 1))).1 = 0 ∧
    (readMem 73 0xFF 0x10000 128 [] (commitAt 0 0x130005C (polState 1))).2.1 = policyImg.take 128 ∧
    (readMem 73 0xFF 0x10000 384 [] (readMem 73 0xFF 0x10000 128 [] (commitAt 0 0x130005C (polState 1))).2.2).1 = 0 ∧
    (readMem 73 0xFF 0x10000 384 [] (readMem 73 0xFF 0x10000 128 [] (commitAt 0 0x130005C (polState 1))).2.2).2.1 = policyImg := by
  decide +kernel

theorem meets_report : rangeHost (polState 1) 0 768 = true ∧ rangeHost (polState 1) 0 2097152 = true ∧
    hearthRuns (polState 1) = true ∧ (readMem 73 0xFF 32 32 [] (commitAt 0 0x130007C (polState 1))).1 = 0 ∧ rangeHost (polState 1) 0x1800000000 768 = false := by decide +kernel

/-! ## ResetsBeginDawn -/

/-- A package in run with its supplies up and PWR_GOOD at a level, the Nightwatch supply never lost where `kept`. -/
def upState (good : Nat) (kept : Bool) : State :=
  { mode := .run
    regs := { live := [(fkey NWT_INPUT_STATE.pwr_good 0, good)] }
    nwt := { lost := !kept }
    power := { enMain := true } }

/-- A reset request of a kind with a key, and WARM_RST_N low. -/
def requestState (kind key : Nat) : State :=
  { mode := .run
    nwt := { waitWarm := true }
    regs := { live := [(fkey NWT_INPUT_STATE.warm_rst_n 0, 0)]
              staged := [(fkey NWT_RESET_REQ.kind 0, kind), (fkey NWT_RESET_REQ.key 0, key)] } }

theorem meets_resets : ({ nwt := { supply := false } } : State).nwt.supply = false ∧ rdB (upState 0 true) NWT_INPUT_STATE.pwr_good = false ∧
    rdB (upState 1 true) NWT_INPUT_STATE.pwr_good = true ∧ rdB (upState 1 true) NWT_INPUT_STATE.warm_rst_n = true ∧
    (upState 1 true).nwt.warm.armed = true ∧ ((upState 1 true).nwt.warm.fall 0).falls.length = 1 ∧
    (({ falls := List.replicate 10 0 } : PinState).fall 5).falls.length = 11 ∧
    rdB (requestState 1 0) NWT_INPUT_STATE.warm_rst_n = false ∧ stg (requestState 2 0xD0A5) NWT_RESET_REQ.kind = 2 ∧
    stg (requestState 2 0xD0A5) NWT_RESET_REQ.die = 0 ∧ stg (requestState 1 7) NWT_RESET_REQ.key ≠ 0xD0A5 := by decide +kernel

/-! ## DawnHoldsOrReleases -/

/-- A package in Dawn with its ports trained. -/
def dawnState : State :=
  { mode := .dawn
    isl := { matin := { held := false }, vesper := { held := false } }
    regs := { live := (allEnds.filter (fun e => e.1 ≠ 0)).map (fun e => (fkey MTR_PORT_STATUS.state (portAt e.1 e.2), 2)) ++
      [0, 1, 2, 3].map (fun k => (fkey MTR_HUB_PORT_STATUS.state (0x40 * k), 2)) } }

/-- Die 2 in a partial reset whose ports have trained, and a request for one. -/
def partialState : State := { dawnState with mode := .run, partialDie := some 2 }
def askState (d : Nat) : State :=
  { mode := .run, regs := { staged := [(fkey NWT_RESET_REQ.kind 0, 3), (fkey NWT_RESET_REQ.die 0, d), (fkey NWT_RESET_REQ.key 0, 0xD0A5)] } }

theorem meets_dawn : portsTraining dawnState = false ∧ islandsStarting {} dawnState = [5, 6] ∧ dawnState.key.lifecycle ≤ 1 ∧
    step5Fails {} dawnState = false ∧ step5Fails { unreadable := 2 } dawnState = true ∧ rdB dawnState NWT_DAWN_STATUS.held = false ∧
    (islandOf ({} : State) 5).held = true ∧ (∀ p < 3, endState partialState 2 p ≠ 1) ∧ dieSilent (askState 2) 0 = false ∧
    stg (askState 5) NWT_RESET_REQ.die = 5 ∧ bootOk ([0, 0, 1, 0, 1] ++ List.replicate 59 0) = true := by decide +kernel

theorem meets_configFails : ¬(({ dawnState with key := { lifecycle := 2 } } : State).key.lifecycle ≤ 1 ∨
    configOk { dawnState with key := { lifecycle := 2 } } [] = true) ∧
    ({} : DawnReport).storeVersion = dawnState.key.fusesBurnt ∧
    ({ storeVersion := 1 } : DawnReport).storeVersion ≠ dawnState.key.fusesBurnt := by decide +kernel

/-! ## NightAndItsWakes -/

/-- A package with no context open that may go into Night and Deep Night and be woken, in a mode; the host partition owns
pages 0 to 8. -/
def nightState (mode : PkgMode) (target : Nat) : State :=
  { mode := mode
    nwt := { boot := { flags := 15, wakeMask := 3 }, target := target }
    mem := { home := (List.range 9).map (fun p => (p, 0x40000000 + p)) }
    regs := { live := [(fkey NWT_INPUT_STATE.warm_rst_n 0, 0)]
              staged := [(fkey NWT_NIGHT_CTRL.target 0, target)]
              committed := [(fkey NWT_NIGHT_CTRL.wake_alarm 0, 1), (fkey NWT_NIGHT_WAKE_AT.alarm 0, 5000)] } }

theorem meets_nightForms : com (nightState .night 0) NWT_INPUT_FILTER.wake_filt = 200 ∧ ticking (nightState .run 0) = false ∧
    wakePermitted { nightState .night 0 with nwt := {} } true = false ∧ stg (nightState .run 3) NWT_NIGHT_CTRL.target = 3 ∧
    dial (nightState .deepNight 0) ≤ com (nightState .deepNight 0) NWT_NIGHT_WAKE_AT.alarm := by decide +kernel

theorem meets_night : (∀ c ∈ nightChecks (nightState .run 1), c.1 = false) ∧ (∀ c ∈ nightChecks (nightState .run 2), c.1 = false) ∧
    firstFail (nightChecks { nightState .run 1 with mem := {} }) = some (0x0004, 0x10130) ∧
    coursesBusy (reachNightStop (nightState .nightEntry 1)) = false ∧
    coursesBusy (reachNightStop { nightState .nightEntry 1 with fab := { courses := [(3, { owner := 2, scrub := true })] } }) = true ∧
    wakePermitted (nightState .night 0) false = true ∧ wakePermitted (nightState .night 0) true = true ∧
    wakePermitted { nightState .night 0 with nwt := {} } false = false ∧ portsTraining (nightState .nightExit 0) = false ∧
    ({ falls := [7] } : PinState).falls.head? = some 7 ∧ (nightState .night 0).nwt.wakePin.armed = true ∧
    ((nightState .night 0).nwt.wakePin.fall 0).falls.length ≤ 10 ∧ rdB (nightState .run 1) NWT_INPUT_STATE.warm_rst_n = false ∧
    watching { islState {} with mode := .night } 5 = true ∧ dieSilent (nightState .run 1) 0 = false := by decide +kernel

/-! ## StepRunsTheFrontCommand -/

/-- A package in a mode with some commands waiting. -/
def waitingState (mode : PkgMode) (l : List Instr) : State := { mode := mode, pending := l }

theorem meets_step : (waitingState .run [.nightwatchTick, .pcieLinkUp]).pending = .nightwatchTick :: [.pcieLinkUp] ∧
    (waitingState .run []).pending = [] ∧ (waitingState .run []).mode = .run ∧ (waitingState .night []).mode = .night := by decide +kernel

/-! ## EveryStepKeepsMemoryCanonical -/

theorem meets_keepsMemory : Inv (waitingState .night [.nightwatchTick]) := rfl

theorem meets_keepsMemory_step : ∃ t, step (waitingState .night [.nightwatchTick]) = .next t :=
  ⟨passTicks 1 (waitingState .night []), by unfold step waitingState; rfl⟩

/-! ## TimeAndKeysNeverRunBack -/

theorem meets_timeRuns : ∃ t, step (waitingState .run []) = .next t := ⟨idle (waitingState .run []), by unfold step waitingState; rfl⟩

/-! ## OnlyDawnEndsSilence -/

theorem meets_silence : dieSilent State.reset 4 = true ∧ 4 < 5 := by decide +kernel

theorem meets_silence_step : ∃ t, exec .nightwatchTick State.reset = .next t := ⟨_, rfl⟩

/-! ## MinimumsNeverFall -/

theorem meets_minimums : ∃ t, exec (.raiseFirmwareMinimum 1) State.reset = .next t := ⟨_, rfl⟩

/-! ## OnlyAddressesBeyond48BitsStop -/

theorem meets_beyond48 : 2 ^ 48 < 0xFFFFFFFFFFFF + 2 ∧ 2 ^ 48 < 0xFFFFFFFFFFFF + [1, 2].length := by decide

/-! ## NightCountsCrystalTicks -/

theorem meets_crystal : (waitingState .deepNight []).mode = .deepNight ∧ (waitingState .deepNight []).pending = [] ∧
    dial (waitingState .deepNight []) + ((waitingState .deepNight []).clock.nightFrac + 1000000000) / 32768 < 2 ^ 64 := by decide +kernel

/-- A package on its way out of Night, its ports trained and its Dial time locked before. -/
def leavingNight : State :=
  { mode := .nightExit
    regs := { live := (fkey NWT_DIAL_STATUS.sync_state 0, 2) ::
      (allEnds.filter (fun e => e.1 ≠ 0)).map (fun e => (fkey MTR_PORT_STATUS.state (portAt e.1 e.2), 2)) ++
      [0, 1, 2, 3].map (fun k => (fkey MTR_HUB_PORT_STATUS.state (0x40 * k), 2)) } }

theorem meets_leavingNight : leavingNight.mode = .nightExit ∧ portsTraining leavingNight = false ∧
    rd leavingNight NWT_DIAL_STATUS.sync_state = 2 := by decide +kernel

/-- A package that goes into Deep Night with its Dial time locked, and the same in the Dawn that follows. -/
def lockedNight : State :=
  { mode := .nightEntry
    nwt := { target := 2 }
    regs := { live := [(fkey NWT_DIAL_STATUS.sync_state 0, 2)] } }
def lockedDawn : State := { dawnState with nwt := { lost := false, lockedRate := some 3 } }

theorem meets_lockedNight : coursesBusy (reachNightStop lockedNight) = false ∧ rd lockedNight NWT_DIAL_STATUS.sync_state = 2 ∧
    lockedDawn.nwt.lockedRate = some 3 ∧ rdB lockedDawn NWT_INPUT_STATE.pwr_good = false ∧ lockedDawn.nwt.supply = true ∧
    lockedDawn.power.tripped = false := by decide +kernel

theorem meets_lockedDawn : lockedDawn.mode = .dawn ∧ rdB lockedDawn NWT_DAWN_STATUS.held = false ∧ lockedDawn.nwt.waitWarm = false ∧
    portsTraining lockedDawn = false ∧ islandsStarting {} lockedDawn ≠ [] ∧ ({} : DawnReport).firmware = true ∧
    ({} : DawnReport).storeVersion = lockedDawn.key.fusesBurnt ∧ lockedDawn.key.lifecycle ≤ 1 ∧ ({} : DawnReport).stacksUp % 16 = 15 ∧
    step5Fails {} lockedDawn = false ∧ ({} : DawnReport).firstFailed = none := by decide +kernel

/-! ## UnmappedAddressesAreRefused -/

/-- The first and last bytes of each region, with the link down, and an access that ends where the address space ends. -/
theorem meets_unmapped : (∀ a ∈ [0x1800000000, 0x3FFFFFFFFFFF], (0x1800000000 ≤ a ∧ a < 0x400000000000)) ∧
    (∀ a ∈ [0x400000000000, 0x7FFFFFFFFFFF], (0x400000000000 ≤ a ∧ a < 0x800000000000 ∧ (waitingState .run []).pcieUp = false)) ∧
    (∀ a ∈ [0x800000000000, 0xEFFFFFFFFFFF], (0x800000000000 ≤ a ∧ a < 0xF00000000000)) ∧
    (∀ a ∈ [0xF00070000000, 0xFFFFFFFFFFFF], (0xF00070000000 ≤ a ∧ a < 2 ^ 48)) ∧ 0xFFFFFFFFFFFF + 1 ≤ 2 ^ 48 ∧
    0xFFFFFFFFFFFF + [7].length ≤ 2 ^ 48 := by decide +kernel

/-! ## StepsAreSeenByNoTimer -/

theorem meets_dialSteps : dial dialState + 1000000 < 6000001 ∧ 6000001 < 2 ^ 64 ∧ dialState.mode = .run ∧
    1 ≤ com dialState NWT_DIAL_CTRL.source_sel ∧ com dialState NWT_DIAL_CTRL.source_sel ≤ 4 := by decide +kernel

end Sys2Proof.Tests
end

section
namespace Sys2Proof.Machine

open Reg

/-! ## What a step keeps -/

/-- A step is the front command run on the queue's rest, or idling where the queue is empty. -/
theorem step_cons {s : State} {c : Instr} {rest : List Instr} (h : s.pending = c :: rest) :
    step s = exec c { s with pending := rest } := by
  unfold step
  rw [h]

theorem step_nil {s : State} (h : s.pending = []) : step s = .next (idle s) := by
  unfold step
  rw [h]

/-- Waking a package changes its silence alone, so what `Kept` says of all else holds of `Woken` too. -/
theorem Woken.counts {s t : State} (h : Woken s t) :
    t.pending = s.pending ∧ s.clock.count ≤ t.clock.count ∧ s.mem.nextKey ≤ t.mem.nextKey ∧ s.fresh ≤ t.fresh := by
  rcases h with h | h
  · exact ⟨h.pending, h.time, h.nextKey, h.fresh⟩
  · exact ⟨h.pending, h.time, h.nextKey, h.fresh⟩

/-- No command touches the queue, and by none do the slewed count, the key number and the count of free values fall. -/
theorem exec_counts {c : Instr} {s t : State} (h : exec c s = .next t) :
    t.pending = s.pending ∧ s.clock.count ≤ t.clock.count ∧ s.mem.nextKey ≤ t.mem.nextKey ∧ s.fresh ≤ t.fresh := by
  rcases exec_kept c s t h with k | ⟨_, _, w⟩
  · exact Woken.counts (.inl k)
  · exact w.counts

/-- What a step does to the queue and the counts: the front command is taken off, and no count falls. -/
theorem step_counts {s t : State} (h : step s = .next t) :
    t.pending = s.pending.tail ∧ s.clock.count ≤ t.clock.count ∧ s.mem.nextKey ≤ t.mem.nextKey ∧ s.fresh ≤ t.fresh := by
  cases hp : s.pending with
  | nil =>
    rw [step_nil hp] at h
    cases h
    have k := idle_kept s (Kept.refl s)
    exact ⟨k.pending.trans hp, k.time, k.nextKey, k.fresh⟩
  | cons c rest =>
    rw [step_cons hp] at h
    exact exec_counts h

/-- Settles O54: the counts of `step_counts`, which rests on what every command keeps. -/
theorem timeAndKeysNeverRunBack : Obligations.TimeAndKeysNeverRunBack := by
  unfold Obligations.TimeAndKeysNeverRunBack
  intro s t h
  obtain ⟨-, hcount, hkey, hfresh⟩ := step_counts h
  exact ⟨hcount, hkey, hfresh⟩

/-! ## The idle nanosecond -/

/-- What one nanosecond in a mode in which time passes does (R30, R32): the count, the crystal and Dial time go on. -/
theorem pass_frame (d : Nat) (s : State) :
    pass d s = { s with
      clock := { s.clock with count := (pass d s).clock.count, osc := (pass d s).clock.osc, oscFrac := (pass d s).clock.oscFrac }
      regs := { s.regs with live := (pass d s).regs.live } } := rfl

/-- Time that passes moves Dial time with the count (R30). -/
theorem dial_pass (d : Nat) (s : State) : dial (pass d s) = (dial s + d) % 2 ^ 64 := by
  unfold dial pass
  exact rd_wr_self _ _ _ _

theorem pass_live (d : Nat) (s : State) (k x : Nat) (h : k ≠ fkey NWT_DIAL_NOW.dial_ns 0) :
    aget (pass d s).regs.live k x = aget s.regs.live k x := by
  unfold pass wr
  exact aget_aset_ne _ _ _ _ _ _ h.symm

theorem idle_running {s : State} (h : s.mode = .run ∨ s.mode = .dawn ∨ s.mode = .nightEntry ∨ s.mode = .nightExit) :
    idle s = pass 1 s := by
  unfold idle
  rcases h with h | h | h | h <;> rw [h]

theorem idle_still {s : State} (h : s.mode = .unpowered ∨ s.mode = .stopped ∨ s.mode = .night ∨ s.mode = .deepNight) :
    idle s = s := by
  unfold idle
  rcases h with h | h | h | h <;> rw [h]

/-- Settles O51: a step by the shape of the queue, and what idling does in each mode. -/
theorem stepRunsTheFrontCommand : Obligations.StepRunsTheFrontCommand := by
  unfold Obligations.StepRunsTheFrontCommand
  refine ⟨fun s c rest h => step_cons h, fun s hp hm => ?_, fun s hp hm => ?_⟩
  · exact ⟨pass 1 s, by rw [step_nil hp, idle_running hm], now_pass 1 s, dial_pass 1 s, pass_frame 1 s,
      fun k d hk => pass_live 1 s k d hk⟩
  · rw [step_nil hp, idle_still hm]

/-! ## Which commands stop -/

/-- A MEMORY_READ stops beyond 48 bits of address and answers a next state everywhere else. -/
theorem execMemoryRead_answers (p x a n : Nat) (u : MemUpset) (s : State) :
    (2 ^ 48 < a + n ∧ execMemoryRead p x a n u s = .fault .addressBeyond48) ∨
      (a + n ≤ 2 ^ 48 ∧ ∃ t, execMemoryRead p x a n u s = .next t) := by
  unfold execMemoryRead
  dsimp only
  split
  · exact .inl ⟨‹_›, rfl⟩
  · refine .inr ⟨by omega, ?_⟩
    split
    · exact ⟨_, rfl⟩
    · split <;> exact ⟨_, rfl⟩

/-- A MEMORY_WRITE stops beyond 48 bits of address and answers a next state everywhere else. -/
theorem execMemoryWrite_answers (p x a : Nat) (d : List Nat) (u : MemUpset) (s : State) :
    (2 ^ 48 < a + d.length ∧ execMemoryWrite p x a d u s = .fault .addressBeyond48) ∨
      (a + d.length ≤ 2 ^ 48 ∧ ∃ t, execMemoryWrite p x a d u s = .next t) := by
  unfold execMemoryWrite
  dsimp only
  split
  · exact .inl ⟨‹_›, rfl⟩
  · refine .inr ⟨by omega, ?_⟩
    split
    · exact ⟨_, rfl⟩
    · split <;> exact ⟨_, rfl⟩

/-- Every command answers a next state, but for a memory access beyond 48 bits of address, which faults. -/
theorem exec_answers (c : Instr) (s : State) :
    (∃ t, exec c s = .next t) ∨ exec c s = .fault .addressBeyond48 ∧
      ((∃ p x a n u, c = .memoryRead p x a n u ∧ 2 ^ 48 < a + n) ∨
        (∃ p x a d u, c = .memoryWrite p x a d u ∧ 2 ^ 48 < a + d.length)) := by
  cases c
  case memoryRead p x a n u =>
    rcases execMemoryRead_answers p x a n u s with ⟨h, e⟩ | ⟨-, e⟩
    · exact .inr ⟨e, .inl ⟨p, x, a, n, u, rfl, h⟩⟩
    · exact .inl e
  case memoryWrite p x a d u =>
    rcases execMemoryWrite_answers p x a d u s with ⟨h, e⟩ | ⟨-, e⟩
    · exact .inr ⟨e, .inr ⟨p, x, a, d, u, rfl, h⟩⟩
    · exact .inl e
  all_goals exact .inl ⟨_, rfl⟩

/-- Settles O57: `exec_answers` names the only stop, and `step_counts` says what a step does to the queue. -/
theorem onlyAddressesBeyond48BitsStop : Obligations.OnlyAddressesBeyond48BitsStop := by
  unfold Obligations.OnlyAddressesBeyond48BitsStop
  refine ⟨fun c s r h => ?_, fun c s => ?_, fun s p x a n u h => ?_, fun s p x a d u h => ?_, fun s t h => (step_counts h).1⟩
  · rcases exec_answers c s with ⟨t, e⟩ | ⟨e, -⟩ <;> rw [e] at h <;> cases h
  · exact (exec_answers c s).imp id And.right
  · exact (execMemoryRead_answers p x a n u s).elim And.right (fun e => absurd h (by omega))
  · exact (execMemoryWrite_answers p x a d u s).elim And.right (fun e => absurd h (by omega))

end Sys2Proof.Machine
end

section
namespace Sys2Proof.Machine

open Reg

/-! ## Registers that reports leave alone -/

/-- The first key of the home controllers' block: every register that a report changes lies there or above. -/
def reportFloor : Nat := 0x300000 * 64

theorem not_reportKey_of_lt {k : Nat} (h : k < reportFloor) : ¬ reportKey k := by
  simp only [reportKey, retryKey, fkey, reportFloor, HST_EVT_DROP_COUNT.drops, HST_DEV_EQ_TAIL.tail,
    PLB_PORT_STATE.over_rate, HBM_CRC_RETRY_COUNT.retries, HST_CTX_STATE.stopped] at h ⊢
  rintro (e | e | e | ⟨d, e⟩ | ⟨c, -, e⟩) <;> omega

namespace Quiet

variable {S : Nat → Prop} {s t : State}

theorem toNow (h : Quiet S s t) : now t = now s := congrArg ClockState.count h.toClock

end Quiet

/-! ## The discipline of Dial time -/

/-- The registers that a change of sync_state and its event change. -/
def syncKey (k : Nat) : Prop := k = fkey NWT_DIAL_STATUS.sync_state 0 ∨ reportKey k

theorem not_syncKey_of_lt {k : Nat} (h : k < reportFloor) (g : k ≠ fkey NWT_DIAL_STATUS.sync_state 0) : ¬ syncKey k :=
  fun x => x.elim g (not_reportKey_of_lt h)

theorem setSync_quiet (v : Nat) (s : State) : Quiet syncKey s (setSync v s) := by
  unfold setSync
  split
  · exact Quiet.refl s
  · exact (wr_quiet _ _ _ s (Or.inl rfl)).trans ((event_quiet _ _ _ _ _ _ _).mono (fun _ h => Or.inr h))

/-- The state named is the one that sync_state shows afterwards (R33). -/
theorem rd_setSync (v : Nat) (s : State) (h : v < 4) : rd (setSync v s) NWT_DIAL_STATUS.sync_state = v := by
  unfold setSync
  split
  · assumption
  · rw [(event_quiet _ _ _ _ _ _ _).toRd _ _ (not_reportKey_of_lt (by decide)), rd_wr_self]
    exact Nat.mod_eq_of_lt h

/-- Whichever way the count of the lock window sends sync_state (R33), no more than a change of it happens. -/
theorem chooseSync_quiet (n m : Nat) (s : State) :
    Quiet syncKey s (if n ≤ m then setSync 2 s else if rd s NWT_DIAL_STATUS.sync_state = 2 then s else setSync 1 s) := by
  split
  · exact setSync_quiet _ _
  · split
    · exact Quiet.refl _
    · exact setSync_quiet _ _

/-- Counting a sync interval changes the count of the lock window, and beyond it no more than a change of sync_state does. -/
theorem countSync_quiet (o : Int) (s : State) :
    ∃ n, Quiet syncKey { s with clock := { s.clock with inWindow := n } } (countSync o s) :=
  ⟨_, chooseSync_quiet _ _ _⟩

theorem rd_countSync (o : Int) (s : State) (f : Field) (a : Nat) (h : ¬ syncKey (fkey f a)) :
    rd (countSync o s) f a = rd s f a := by
  obtain ⟨n, hn⟩ := countSync_quiet o s
  exact hn.toRd f a h

theorem now_countSync (o : Int) (s : State) : now (countSync o s) = now s := by
  obtain ⟨n, hn⟩ := countSync_quiet o s
  exact hn.toNow

theorem rate_countSync (o : Int) (s : State) : (countSync o s).clock.rate = s.clock.rate := by
  obtain ⟨n, hn⟩ := countSync_quiet o s
  rw [hn.toClock]

theorem rd_event (status die ctx unit sev : Nat) (p : List Nat) (s : State) (f : Field) (a : Nat)
    (h : fkey f a < reportFloor) : rd (event status die ctx unit sev p s) f a = rd s f a :=
  (event_quiet _ _ _ _ _ _ s).toRd f a (not_reportKey_of_lt h)

@[simp] theorem clock_event (status die ctx unit sev : Nat) (p : List Nat) (s : State) :
    (event status die ctx unit sev p s).clock = s.clock := (event_quiet _ _ _ _ _ _ s).toClock

@[simp] theorem com_event (status die ctx unit sev : Nat) (p : List Nat) (s : State) (f : Field) (a : Nat) :
    com (event status die ctx unit sev p s) f a = com s f a := (event_quiet _ _ _ _ _ _ s).toCom f a

@[simp] theorem rd_slew (down : Bool) (s : State) (f : Field) (a : Nat) : rd (slew down s) f a = rd s f a := rfl

@[simp] theorem now_slew (down : Bool) (s : State) : now (slew down s) = now s := rfl

/-- A slew is within its limit in either direction (R31). -/
theorem rate_slew (down : Bool) (s : State) :
    (slew down s).clock.rate.natAbs ≤ com s NWT_DIAL_CTRL.slew_limit_ppm := by
  have h : (draw s (com s NWT_DIAL_CTRL.slew_limit_ppm + 1)).1 < com s NWT_DIAL_CTRL.slew_limit_ppm + 1 :=
    Nat.mod_lt _ (Nat.succ_pos _)
  simp only [slew, withDraw]
  split <;> omega

/-! ## Dial time and its source -/

/-- How far a reference is ahead of Dial time. -/
def offsetOf (r : Nat) (s : State) : Int := (r : Int) - (dial s : Int)

/-- A sync message taken in: the offset and the time of the message are noted (R38). -/
def noteSync (r : Nat) (s : State) : State :=
  wr NWT_DIAL_OFFSET.offset_ns 0 (offsetCode (offsetOf r s)) { s with clock := { s.clock with lastSync := some (now s) } }

/-- Dial time stepped forward to a reference, before the step is reported (R31, the first item). -/
def stepTo (r : Nat) (s : State) : State :=
  wr NWT_DIAL_NOW.dial_ns 0 r (wrB NWT_DIAL_STATUS.stepped 0 true (wrB NWT_DIAL_STATUS.ahead_of_ref 0 false (noteSync r s)))

/-- Dial time found ahead of a reference, with the event of its first time (R31, the third item). -/
def foundAhead (r : Nat) (s : State) : State :=
  if rdB (noteSync r s) NWT_DIAL_STATUS.ahead_of_ref then noteSync r s
  else event 0x0E11 0 0xFF 0 1 (leBytes 4 (offsetCode (offsetOf r s))) (wrB NWT_DIAL_STATUS.ahead_of_ref 0 true (noteSync r s))

/-- What a correction of Dial time does by the offset (R31). -/
theorem dialSync_eq (r : Nat) (s : State) : dialSync r s = countSync (offsetOf r s)
    (if 1000000 < offsetOf r s then event 0x0E10 0 0xFF 0 1 (leBytes 8 (r - dial s)) (stepTo r s)
     else if offsetOf r s < -1000000 then slewDown (foundAhead r s)
     else slew (decide (offsetOf r s < 0)) (wrB NWT_DIAL_STATUS.ahead_of_ref 0 false (noteSync r s))) := rfl

theorem dialSync_ahead {r : Nat} {s : State} (h : dial s + 1000000 < r) :
    dialSync r s = countSync (offsetOf r s) (event 0x0E10 0 0xFF 0 1 (leBytes 8 (r - dial s)) (stepTo r s)) := by
  have ho : 1000000 < offsetOf r s := by unfold offsetOf; omega
  rw [dialSync_eq, if_pos ho]

theorem dialSync_behind {r : Nat} {s : State} (h : r + 1000000 < dial s) :
    dialSync r s = countSync (offsetOf r s) (slewDown (foundAhead r s)) := by
  have ho : ¬ 1000000 < offsetOf r s := by unfold offsetOf; omega
  have ho' : offsetOf r s < -1000000 := by unfold offsetOf; omega
  rw [dialSync_eq, if_neg ho, if_pos ho']

theorem dialSync_near {r : Nat} {s : State} (h : r ≤ dial s + 1000000) (g : dial s ≤ r + 1000000) :
    dialSync r s = countSync (offsetOf r s)
      (slew (decide (offsetOf r s < 0)) (wrB NWT_DIAL_STATUS.ahead_of_ref 0 false (noteSync r s))) := by
  have ho : ¬ 1000000 < offsetOf r s := by unfold offsetOf; omega
  have ho' : ¬ offsetOf r s < -1000000 := by unfold offsetOf; omega
  rw [dialSync_eq, if_neg ho, if_neg ho']

theorem offsetCode_lt (o : Int) : offsetCode o < 2 ^ 32 := by
  unfold offsetCode enc
  omega

theorem rd_noteSync_offset (r : Nat) (s : State) : rd (noteSync r s) NWT_DIAL_OFFSET.offset_ns = offsetCode (offsetOf r s) := by
  unfold noteSync
  rw [rd_wr_self]
  exact Nat.mod_eq_of_lt (offsetCode_lt _)

theorem rd_noteSync (r : Nat) (s : State) (f : Field) (a : Nat) (h : fkey NWT_DIAL_OFFSET.offset_ns 0 ≠ fkey f a) :
    rd (noteSync r s) f a = rd s f a := rd_wr_ne _ _ _ _ _ _ h

/-- What is found of a reference that is behind: the bit is set, and no other register of the clock's changes. -/
theorem rdB_foundAhead (r : Nat) (s : State) : rdB (foundAhead r s) NWT_DIAL_STATUS.ahead_of_ref = true := by
  unfold foundAhead
  split
  · assumption
  · rw [rdB, rd_event _ _ _ _ _ _ _ _ _ (by decide)]
    exact rdB_wrB_self _ _ _ _ (by decide)

theorem rd_foundAhead (r : Nat) (s : State) (f : Field) (a : Nat) (h : fkey f a < reportFloor)
    (g : fkey NWT_DIAL_STATUS.ahead_of_ref 0 ≠ fkey f a) : rd (foundAhead r s) f a = rd (noteSync r s) f a := by
  unfold foundAhead
  split
  · rfl
  · rw [rd_event _ _ _ _ _ _ _ _ _ h]
    exact rd_wr_ne _ _ _ _ _ _ g

theorem now_foundAhead (r : Nat) (s : State) : now (foundAhead r s) = now s := by
  unfold foundAhead now
  split
  · rfl
  · rw [clock_event]; rfl

theorem com_foundAhead (r : Nat) (s : State) (f : Field) (a : Nat) : com (foundAhead r s) f a = com s f a := by
  unfold foundAhead
  split
  · rfl
  · rw [com_event]; rfl

/-- Where a sync message of an Ethernet source is taken, it is a correction of Dial time. -/
theorem execDialSyncMessage_taken {r : Nat} {s : State} (h1 : 1 ≤ com s NWT_DIAL_CTRL.source_sel)
    (h4 : com s NWT_DIAL_CTRL.source_sel ≤ 4) (hm : s.mode = .run) (hr : r < 2 ^ 64) :
    execDialSyncMessage r s = .next (dialSync r s) := by
  have hd : disciplined s = true := by simp [disciplined, hm]
  unfold execDialSyncMessage
  dsimp only
  rw [if_pos ⟨h1, h4, hd⟩, Nat.mod_eq_of_lt hr]

/-- A step forward (R31, R32, R38): Dial time is the reference, and the slewed count stays. -/
theorem dialSync_ahead_effect {r : Nat} {s : State} (h : dial s + 1000000 < r) (hr : r < 2 ^ 64) :
    now (dialSync r s) = now s ∧ rd (dialSync r s) NWT_DIAL_OFFSET.offset_ns = offsetCode (offsetOf r s) ∧
      dial (dialSync r s) = r ∧ rdB (dialSync r s) NWT_DIAL_STATUS.stepped = true ∧
      rdB (dialSync r s) NWT_DIAL_STATUS.ahead_of_ref = false := by
  have hrd : ∀ (f : Field) (a : Nat), fkey f a < reportFloor → fkey f a ≠ fkey NWT_DIAL_STATUS.sync_state 0 →
      rd (dialSync r s) f a = rd (stepTo r s) f a := by
    intro f a hf hs
    rw [dialSync_ahead h, rd_countSync _ _ _ _ (not_syncKey_of_lt hf hs), rd_event _ _ _ _ _ _ _ _ _ hf]
  refine ⟨?_, ?_, ?_, ?_, ?_⟩
  · rw [dialSync_ahead h, now_countSync, now, clock_event]
    rfl
  · rw [hrd _ _ (by decide) (by decide), ← rd_noteSync_offset]
    unfold stepTo wrB
    rw [rd_wr_ne _ _ _ _ _ _ (by decide), rd_wr_ne _ _ _ _ _ _ (by decide), rd_wr_ne _ _ _ _ _ _ (by decide)]
  · rw [dial, hrd _ _ (by decide) (by decide), stepTo, rd_wr_self]
    exact Nat.mod_eq_of_lt hr
  · rw [rdB, hrd _ _ (by decide) (by decide), stepTo, rd_wr_ne _ _ _ _ _ _ (by decide)]
    exact rdB_wrB_self _ _ _ _ (by decide)
  · rw [rdB, hrd _ _ (by decide) (by decide), stepTo, rd_wr_ne _ _ _ _ _ _ (by decide), wrB,
      rd_wr_ne _ _ _ _ _ _ (by decide)]
    exact rdB_wrB_self _ _ _ _ (by decide)

/-- A reference behind (R31, R38): Dial time stays and is slewed down at the limit. -/
theorem dialSync_behind_effect {r : Nat} {s : State} (h : r + 1000000 < dial s) :
    now (dialSync r s) = now s ∧ rd (dialSync r s) NWT_DIAL_OFFSET.offset_ns = offsetCode (offsetOf r s) ∧
      dial (dialSync r s) = dial s ∧ rdB (dialSync r s) NWT_DIAL_STATUS.ahead_of_ref = true ∧
      (dialSync r s).clock.rate = -(com s NWT_DIAL_CTRL.slew_limit_ppm : Int) := by
  have hrd : ∀ (f : Field) (a : Nat), fkey f a < reportFloor → fkey f a ≠ fkey NWT_DIAL_STATUS.sync_state 0 →
      rd (dialSync r s) f a = rd (foundAhead r s) f a := by
    intro f a hf hs
    rw [dialSync_behind h, rd_countSync _ _ _ _ (not_syncKey_of_lt hf hs)]
    rfl
  refine ⟨?_, ?_, ?_, ?_, ?_⟩
  · rw [dialSync_behind h, now_countSync]
    exact now_foundAhead r s
  · rw [hrd _ _ (by decide) (by decide), rd_foundAhead _ _ _ _ (by decide) (by decide), rd_noteSync_offset]
  · rw [dial, hrd _ _ (by decide) (by decide), rd_foundAhead _ _ _ _ (by decide) (by decide), rd_noteSync _ _ _ _ (by decide)]
    rfl
  · rw [rdB, hrd _ _ (by decide) (by decide)]
    exact rdB_foundAhead r s
  · rw [dialSync_behind h, rate_countSync, slewDown, com_foundAhead]

/-- A reference within 1 ms (R31, R38): Dial time stays and is slewed within the limit. -/
theorem dialSync_near_effect {r : Nat} {s : State} (h : r ≤ dial s + 1000000) (g : dial s ≤ r + 1000000) :
    now (dialSync r s) = now s ∧ rd (dialSync r s) NWT_DIAL_OFFSET.offset_ns = offsetCode (offsetOf r s) ∧
      dial (dialSync r s) = dial s ∧ rdB (dialSync r s) NWT_DIAL_STATUS.ahead_of_ref = false ∧
      (dialSync r s).clock.rate.natAbs ≤ com s NWT_DIAL_CTRL.slew_limit_ppm := by
  have hrd : ∀ (f : Field) (a : Nat), fkey f a < reportFloor → fkey f a ≠ fkey NWT_DIAL_STATUS.sync_state 0 →
      rd (dialSync r s) f a = rd (wrB NWT_DIAL_STATUS.ahead_of_ref 0 false (noteSync r s)) f a := by
    intro f a hf hs
    rw [dialSync_near h g, rd_countSync _ _ _ _ (not_syncKey_of_lt hf hs), rd_slew]
  refine ⟨?_, ?_, ?_, ?_, ?_⟩
  · rw [dialSync_near h g, now_countSync, now_slew]
    rfl
  · rw [hrd _ _ (by decide) (by decide), wrB, rd_wr_ne _ _ _ _ _ _ (by decide), rd_noteSync_offset]
  · rw [dial, hrd _ _ (by decide) (by decide), wrB, rd_wr_ne _ _ _ _ _ _ (by decide), rd_noteSync _ _ _ _ (by decide)]
    rfl
  · rw [rdB, hrd _ _ (by decide) (by decide)]
    exact rdB_wrB_self _ _ _ _ (by decide)
  · rw [dialSync_near h g, rate_countSync]
    exact rate_slew _ _

/-- Settles O1: the three cases of a correction by the offset. -/
theorem dialFollowsItsSource : Obligations.DialFollowsItsSource := by
  unfold Obligations.DialFollowsItsSource
  intro s r h1 h4 hm hr
  refine ⟨dialSync r s, execDialSyncMessage_taken h1 h4 hm hr, ?_⟩
  rcases Nat.lt_or_ge (dial s + 1000000) r with ha | ha
  · obtain ⟨hn, ho, hd, hst, hah⟩ := dialSync_ahead_effect ha hr
    exact ⟨hn, ho, fun _ => ⟨hd, hst, hah⟩, fun x => by omega, fun x => by omega⟩
  · rcases Nat.lt_or_ge (r + 1000000) (dial s) with hb | hb
    · obtain ⟨hn, ho, hd, hah, hrate⟩ := dialSync_behind_effect hb
      exact ⟨hn, ho, fun x => by omega, fun _ => ⟨hd, hah, hrate⟩, fun _ x => by omega⟩
    · obtain ⟨hn, ho, hd, hah, hrate⟩ := dialSync_near_effect ha hb
      exact ⟨hn, ho, fun x => by omega, fun x => by omega, fun _ _ => ⟨hd, hah, hrate⟩⟩

end Sys2Proof.Machine
end

section
namespace Sys2Proof.Machine

open Reg

/-! ## Holdover, the Night tick and the read of Dial time -/

@[simp] theorem clock_setSync (v : Nat) (s : State) : (setSync v s).clock = s.clock := (setSync_quiet v s).toClock

@[simp] theorem rate_pass (d : Nat) (s : State) : (pass d s).clock.rate = s.clock.rate := rfl

@[simp] theorem rate_passTicks (k : Nat) (s : State) : (passTicks k s).clock.rate = s.clock.rate := rfl

/-- Time that passes, tick by tick or not, leaves the rate correction (R33). -/
@[simp] theorem rate_passTo (t : Nat) (s : State) : (passTo t s).clock.rate = s.clock.rate := by
  unfold passTo
  split
  · split
    · exact rate_passTicks _ s
    · exact rate_pass _ s
  · rfl

theorem execDialHoldover_effect {s : State}
    (h : rd s NWT_DIAL_STATUS.sync_state = 1 ∨ rd s NWT_DIAL_STATUS.sync_state = 2) :
    ∃ t, execDialHoldover s = .next t ∧ rd t NWT_DIAL_STATUS.sync_state = 3 ∧ t.clock.rate = s.clock.rate := by
  unfold execDialHoldover
  rw [if_pos h]
  refine ⟨_, rfl, rd_setSync 3 _ (by decide), ?_⟩
  rw [clock_setSync, rate_passTo]

theorem ticking_iff (s : State) : ticking s = true ↔ s.mode = .night ∨ s.mode = .deepNight := by
  simp [ticking]

theorem execNightwatchTick_ticking {s : State} (h : s.mode = .night ∨ s.mode = .deepNight) :
    execNightwatchTick s = .next (passTicks 1 s) :=
  congrArg Host.Outcome.next (if_pos ((ticking_iff s).mpr h))

theorem dial_passTicks (k : Nat) (s : State) : dial (passTicks k s) = (dial s + s.clock.tickNs k) % 2 ^ 64 := by
  unfold dial passTicks
  exact rd_wr_self _ _ _ _

theorem passTicks_frame (k : Nat) (s : State) : passTicks k s =
    { s with regs := { s.regs with live := (passTicks k s).regs.live }, clock := (passTicks k s).clock } := rfl

theorem passTicks_live (k : Nat) (s : State) (j x : Nat) (h : j ≠ fkey NWT_DIAL_NOW.dial_ns 0) :
    aget (passTicks k s).regs.live j x = aget s.regs.live j x := by
  unfold passTicks wr
  exact aget_aset_ne _ _ _ _ _ _ h.symm

theorem tickNs_one (c : ClockState) : c.tickNs 1 = (c.nightFrac + 1000000000) / 32768 := by
  rw [ClockState.tickNs, Nat.mul_one]

theorem nightFrac_passTicks_one (s : State) :
    (passTicks 1 s).clock.nightFrac = (s.clock.nightFrac + 1000000000) % 32768 := by
  simp [passTicks, ClockState.ticks]

/-- One tick of the crystal, where Dial time does not wrap (R34). -/
theorem dial_passTicks_one {s : State} (h : dial s + (s.clock.nightFrac + 1000000000) / 32768 < 2 ^ 64) :
    dial (passTicks 1 s) = dial s + (s.clock.nightFrac + 1000000000) / 32768 := by
  rw [dial_passTicks, tickNs_one, Nat.mod_eq_of_lt h]

/-- n little-endian bytes of a number are those of what it leaves modulo 256 to the n. -/
theorem leBytes_mod (n v : Nat) : leBytes n (v % 256 ^ n) = leBytes n v := by
  induction n generalizing v with
  | zero => rfl
  | succ n ih =>
    have h1 : v % 256 ^ (n + 1) % 256 = v % 256 := Nat.mod_mod_of_dvd _ (Dvd.intro_left (256 ^ n) rfl)
    have h2 : v % 256 ^ (n + 1) / 256 = v / 256 % 256 ^ n := by rw [Nat.pow_succ', Nat.mod_mul_right_div_self]
    simp only [leBytes, h1, h2, ih]

/-- The state after a 32-bit read of the low word: its high word is latched for the port (R36). -/
def latchDial (p : Nat) (s : State) : State :=
  { s with clock := { s.clock with latch := aput s.clock.latch p (dial s / 2 ^ 32 * 2 + 1) } }

theorem execDialNowRead_wide {p : Nat} (h : p = 68 ∨ p = 69) (high : Bool) (s : State) :
    execDialNowRead p true high s = .next { s with bus := ⟨p, 0, leBytes 8 (dial s)⟩ } := by
  have hp : ¬ (p ≠ 68 ∧ p ≠ 69) := by omega
  unfold execDialNowRead
  rw [if_neg hp, if_pos rfl]

theorem execDialNowRead_low {p : Nat} (h : p = 68 ∨ p = 69) (s : State) :
    execDialNowRead p false false s = .next { latchDial p s with bus := ⟨p, 0, leBytes 4 (dial s)⟩ } := by
  have hp : ¬ (p ≠ 68 ∧ p ≠ 69) := by omega
  unfold execDialNowRead
  rw [if_neg hp, if_neg Bool.false_ne_true, ← leBytes_mod 4 (dial s)]
  rfl

/-- A 32-bit read of the high word answers what is latched for the port, and Dial time's own high word where nothing is. -/
theorem execDialNowRead_high {p : Nat} (h : p = 68 ∨ p = 69) (s : State) :
    execDialNowRead p false true s = .next { s with
      clock := { s.clock with latch := adel s.clock.latch p }
      bus := ⟨p, 0, leBytes 4 (aget s.clock.latch p (dial s / 2 ^ 32 * 2) / 2)⟩ } := by
  have hp : ¬ (p ≠ 68 ∧ p ≠ 69) := by omega
  unfold execDialNowRead
  rw [if_neg hp, if_neg Bool.false_ne_true]
  rfl

theorem execDialNowRead_refused {p : Nat} (h68 : p ≠ 68) (h69 : p ≠ 69) (wide high : Bool) (s : State) :
    execDialNowRead p wide high s =
      .next { s with bus := ⟨p, 0x0701, List.replicate (if wide then 8 else 4) 255⟩ } := by
  unfold execDialNowRead
  rw [if_pos ⟨h68, h69⟩]

/-- What the port has latched answers its next read of the high word (R36). -/
theorem execDialNowRead_latched {p : Nat} (h : p = 68 ∨ p = 69) {s v : State}
    (hv : v.clock.latch = (latchDial p s).clock.latch) :
    ∃ u, execDialNowRead p false true v = .next u ∧ u.bus = ⟨p, 0, leBytes 4 (dial s / 2 ^ 32)⟩ := by
  refine ⟨_, execDialNowRead_high h v, ?_⟩
  have hl : (dial s / 2 ^ 32 * 2 + 1) / 2 = dial s / 2 ^ 32 := by omega
  simp only [hv, latchDial, aget_aput, if_true, hl]

/-- Settles O2: holdover, the tick, and the four forms of the read, each by its own lemma. -/
theorem dialHoldoverNightRead : Obligations.DialHoldoverNightRead := by
  unfold Obligations.DialHoldoverNightRead
  refine ⟨fun s h => execDialHoldover_effect h, fun s hm hf hd => ?_, fun s p hp => ?_, fun s p hp => ?_,
    fun s p w h h68 h69 => ?_⟩
  · have hw : dial s + (s.clock.nightFrac + 1000000000) / 32768 < 2 ^ 64 := by omega
    exact ⟨_, execNightwatchTick_ticking hm, dial_passTicks_one hw, nightFrac_passTicks_one s, rfl⟩
  · exact ⟨_, execDialNowRead_wide hp false s, rfl, rfl⟩
  · exact ⟨_, execDialNowRead_low hp s, rfl, rfl, fun v hv => execDialNowRead_latched hp hv⟩
  · exact ⟨_, execDialNowRead_refused h68 h69 w h s, rfl, rfl⟩

end Sys2Proof.Machine
end

section
namespace Sys2Proof.Machine

open Reg

/-! ## An event's own write can draw a free value -/

/-- Whether a read of the line at an HBM address meets three or more failed symbols and nothing before them, so that a
free value says what the code makes of the line (R360). -/
def guesses (s : State) (a : Nat) : Bool :=
  s.mem.queue.isEmpty && aget s.mem.linkErr (stackIdx s a * 32 + pcOf (physOf s a / 64 * 64)) 0 == 0 &&
    !aget s.mem.poison (physOf s a / 64) false && !strayLine s (physOf s a / 64) &&
    decide (3 ≤ aget s.mem.symbols (physOf s a / 64) 0)

theorem meetCode_draws {l : Nat} {s : State} (hp : aget s.mem.poison l false = false) (hs : strayLine s l = false)
    (hn : 3 ≤ aget s.mem.symbols l 0) : s.fresh < (meetCode l s).2.fresh := by
  obtain ⟨k, hk⟩ : ∃ k, aget s.mem.symbols l 0 = k + 3 := ⟨_, (Nat.sub_add_cancel hn).symm⟩
  have hdraw : Kept (draw s 2).2 (meetCode l s).2 := by
    unfold meetCode
    rw [if_neg (by rw [hp]; exact Bool.false_ne_true), if_neg (by rw [hs]; exact Bool.false_ne_true), hk]
    exact Kept.iteSnd (Kept.refl _) (miscorrect_kept _ _ (mended_kept _ _ (Kept.refl _)))
  exact hdraw.fresh

theorem meetLine_draws {s : State} {a : Nat} (h : guesses s a = true) : s.fresh < (meetLine a true s).2.fresh := by
  simp only [guesses, Bool.and_eq_true, List.isEmpty_iff, beq_iff_eq, Bool.not_eq_true', decide_eq_true_eq] at h
  obtain ⟨⟨⟨⟨hq, hlink⟩, hp⟩, hs⟩, hn⟩ := h
  have hat : (meetAt (stackIdx s a) (physOf s a / 64) true s).2 = (meetCode (physOf s a / 64) s).2 := by
    simp [meetAt, meetLink, hlink]
  have hdrain : drainOverlap (physOf s a) 64 s = s := drainOverlap_nil hq _ _
  have hline : (meetLine a true s).2.fresh = (meetCode (physOf s a / 64) s).2.fresh := by
    unfold meetLine
    simp only [if_true, hdrain, hat]
    split <;> rfl
  rw [hline]
  exact meetCode_draws hp hs hn

/-- The line in which n bytes begin is the first of those that they touch. -/
theorem lineAddrs_cons (a n : Nat) (h : 0 < n) : ∃ r, lineAddrs a n = a / 64 * 64 :: r := by
  obtain ⟨k, hk⟩ : ∃ k, (a + n + 63) / 64 - a / 64 = k + 1 := ⟨(a + n + 63) / 64 - a / 64 - 1, by omega⟩
  unfold lineAddrs
  rw [hk, List.range_succ_eq_map]
  exact ⟨_, rfl⟩

/-- Whether a write of an event record at an address is served and must merge with a line that the code guesses at. -/
def recordGuesses (s : State) (a : Nat) : Bool :=
  rangeStatus s 72 0xFF a 32 true == 0 && decide (a < hbmEnd) && !rdB s PLB_PORT_STATE.held (72 * 16) && !sound s &&
    guesses s (a / 64 * 64)

/-- A record of 32 bytes never fills its line, so it is merged with what is read there, and the read draws (R358, R360). -/
theorem writeMem_draws {a : Nat} {data : List Nat} {s : State} (hd : data.length = 32) (h : recordGuesses s a = true) :
    s.fresh < (writeMem 72 0xFF a data s).2.fresh := by
  simp only [recordGuesses, Bool.and_eq_true, beq_iff_eq, decide_eq_true_eq, Bool.not_eq_true'] at h
  obtain ⟨⟨⟨⟨hst, ha⟩, hh⟩, hs⟩, hg⟩ := h
  obtain ⟨r, hl⟩ := lineAddrs_cons a 32 (by decide)
  have hpart : (decide (a / 64 * 64 < a) || decide (a + 32 < a / 64 * 64 + 64)) = true := by
    simp only [Bool.or_eq_true, decide_eq_true_eq]
    omega
  have hmeet : Kept (meetLine (a / 64 * 64) true s).2 (meetWrite a 32 s).2 := by
    unfold meetWrite
    rw [if_pos ⟨ha, by rw [hs]; rfl⟩, hl]
    simp only [meetWrites, hpart]
    exact meetWrites_kept _ _ _ _ (Kept.refl _)
  have hwrite : Kept (meetWrite a 32 s).2 (writeMem 72 0xFF a data s).2 := by
    unfold writeMem
    rw [hd, hst]
    simp only [if_pos ha, policeRange_free hh]
    exact Kept.foldl _ _ (fun y e hy => applyWrite_kept _ _ _ hy) (Kept.refl _)
  exact Nat.lt_of_lt_of_le (meetLine_draws hg) (hmeet.trans hwrite).fresh

/-- The bytes of an event record as a ring stamps it are 32. -/
theorem stampEvent_length (ev : List Nat) (flags seq : Nat) : (stampEvent ev flags seq).length = 32 := by
  simp [stampEvent, leBytes]

/-- Where the next record of the device event ring goes (R320). -/
def devRecordAt (s : State) : Nat :=
  com s HST_DEV_EQ_BASE.dev_eq_base + rd s HST_DEV_EQ_TAIL.tail % 2 ^ com s HST_DEV_EQ_CFG.size_log2 * 32

/-- Whether the device event ring is open and has room, and its next record's write draws. -/
def eventGuesses (s : State) : Bool :=
  s.rings.devOpen && (rd s HST_DEV_EQ_TAIL.tail + 2 ^ 32 - rd s HST_DEV_EQ_HEAD.head) % 2 ^ 32 !=
    2 ^ com s HST_DEV_EQ_CFG.size_log2 && recordGuesses s (devRecordAt s)

/-- The record that the device event ring writes for an event: its phase bit, and the mark of records dropped (R15, R321). -/
def devRecord (ev : List Nat) (s : State) : List Nat :=
  stampEvent ev (phaseBit (rd s HST_DEV_EQ_TAIL.tail) (2 ^ com s HST_DEV_EQ_CFG.size_log2) +
    (if aget s.rings.devDropped (fld ev 8 2) false then 2 else 0)) s.rings.devSeq

/-- Where the device event ring has room, an event's record is written there, and all that follows is kept. -/
theorem devWrite_writes {ev : List Nat} {s : State}
    (h : (rd s HST_DEV_EQ_TAIL.tail + 2 ^ 32 - rd s HST_DEV_EQ_HEAD.head) % 2 ^ 32 ≠ 2 ^ com s HST_DEV_EQ_CFG.size_log2) :
    Kept (writeMem 72 0xFF (devRecordAt s) (devRecord ev s) s).2 (devWrite ev s) := by
  unfold devWrite
  rw [if_neg h]
  refine notify_kept _ _ _ (wr_kept _ _ _ _ (Kept.trans ?_ (Kept.upd (Kept.refl _) rfl rfl rfl rfl rfl rfl rfl rfl rfl)))
  exact Kept.refl _

theorem devEvent_draws {ev : List Nat} {s : State} (h : eventGuesses s = true) : s.fresh < (devEvent ev s).fresh := by
  simp only [eventGuesses, Bool.and_eq_true, bne_iff_ne] at h
  obtain ⟨⟨hopen, hroom⟩, hg⟩ := h
  unfold devEvent
  rw [if_pos hopen]
  exact Nat.lt_of_lt_of_le (writeMem_draws (stampEvent_length _ _ _) hg) (devWrite_writes hroom).fresh

/-- An event for no context draws a free value where its write to the device event ring does. -/
theorem event_draws {status die unit sev : Nat} {p : List Nat} {s : State} (h : eventGuesses s = true) :
    s.fresh < (event status die 0xFF unit sev p s).fresh := by
  have hclosed : ctxOpen s 0xFF = false := rfl
  have hraw : eventRaw status die 0xFF unit sev p s = (false, forward status die unit sev (ctxSealed s 0xFF && namesChecker status)
      (devEvent (eventRecord (eventTime s die) status die 0xFF unit sev 0 0 p) s)) := by
    unfold eventRaw
    rw [hclosed]
    rfl
  unfold event
  rw [hraw]
  simp only [hclosed, Bool.false_eq_true, false_and, if_false]
  exact Nat.lt_of_lt_of_le (devEvent_draws h) (forward_kept _ _ _ _ _ _ (Kept.refl _)).fresh

/-- A step forward of Dial time draws a free value where the write of its event does. -/
theorem dialSync_draws {r : Nat} {s : State} (h : dial s + 1000000 < r) (hg : eventGuesses (stepTo r s) = true) :
    s.fresh < (dialSync r s).fresh := by
  rw [dialSync_ahead h]
  have hstep : s.fresh < (event 0x0E10 0 0xFF 0 1 (leBytes 8 (r - dial s)) (stepTo r s)).fresh :=
    event_draws (s := stepTo r s) hg
  exact Nat.lt_of_lt_of_le hstep (countSync_kept (offsetOf r s) _ (Kept.refl _)).fresh

/-- A package whose device event ring lies in host memory that die 1 holds, and whose first line there has three failed
symbols; the link to die 1 is up, and Dial time is 0. -/
def worn : State :=
  { regs := { live := [(fkey MTR_HUB_PORT_STATUS.state 0, 2), (fkey MTR_PORT_STATUS.state (portAt 1 2), 2)] }
    mem := { hostPages := 1, symbols := [(0, 3)] }
    rings := { devOpen := true } }

theorem dial_worn : dial worn + 1000000 < 2000000 := by decide +kernel

theorem eventGuesses_worn : eventGuesses (stepTo 2000000 worn) = true := by decide +kernel

/-- Refutes O60: the frame of the statement holds the count of free values still, and in `worn` the event of the step to
2,000,000 ns moves it, since its record is merged into a line with three failed symbols (R358, R360). -/
theorem not_stepsAreSeenByNoTimer : ¬ Obligations.StepsAreSeenByNoTimer := by
  unfold Obligations.StepsAreSeenByNoTimer
  intro h
  have hframe := (h worn 2000000 dial_worn (by decide)).1.2.2.1
  have hfresh : (dialSync 2000000 worn).fresh = worn.fresh := by rw [hframe]
  exact absurd hfresh (Nat.ne_of_gt (dialSync_draws dial_worn eventGuesses_worn))

end Sys2Proof.Machine
end

section
namespace Sys2Proof.Machine

open Reg

/-! ## The commit rule -/

theorem commit_ignored {die off v : Nat} {checks : List (Bool × Refuse)} {eff : State → State} {s : State}
    (hv : v % 2 = 0) : commit die off v checks eff s = s := if_pos hv

theorem commit_silent {die off v : Nat} {checks : List (Bool × Refuse)} {eff : State → State} {s : State}
    (hv : v % 2 = 1) (hd : dieSilent s die = true) :
    commit die off v checks eff s = commitDone die (0x0C40, 0) (commitAt die off s) := by
  unfold commit
  rw [if_neg (by omega), if_pos hd]

theorem commit_refused {die off v : Nat} {checks : List (Bool × Refuse)} {eff : State → State} {s : State} {r : Refuse}
    (hv : v % 2 = 1) (hd : dieSilent s die = false) (hc : firstFail checks = some r) :
    commit die off v checks eff s = commitDone die r (commitAt die off s) := by
  unfold commit
  rw [if_neg (by omega), if_neg (by rw [hd]; exact Bool.false_ne_true), hc]

theorem commit_accepted {die off v : Nat} {checks : List (Bool × Refuse)} {eff : State → State} {s : State}
    (hv : v % 2 = 1) (hd : dieSilent s die = false) (hc : firstFail checks = none) :
    commit die off v checks eff s = commitDone die (0, 0) (eff (commitAt die off s)) := by
  unfold commit
  rw [if_neg (by omega), if_neg (by rw [hd]; exact Bool.false_ne_true), hc]

/-- A list of one check fails exactly where the check does. -/
theorem firstFail_one (b : Bool) (r : Refuse) : firstFail [(b, r)] = if b then some r else none := by
  cases b <;> rfl

/-- A commit's result stands in FAB_COMMIT_STATUS and FAB_COMMIT_FIELD of its die (R769, R770). -/
theorem rd_commitDone_status (die : Nat) (r : Refuse) (s : State) (h : r.1 < 2 ^ 16) :
    rd (commitDone die r s) FAB_COMMIT_STATUS.status (dieBase die) = r.1 := by
  unfold commitDone
  rw [rd_wr_ne _ _ _ _ _ _ (by simp only [fkey, FAB_COMMIT_FIELD.field_offset, FAB_COMMIT_STATUS.status]; omega), rd_wr_self]
  exact Nat.mod_eq_of_lt h

theorem rd_commitDone_field (die : Nat) (r : Refuse) (s : State) (h : r.2 < 2 ^ 28) :
    rd (commitDone die r s) FAB_COMMIT_FIELD.field_offset (dieBase die) = r.2 := by
  unfold commitDone
  rw [rd_wr_self]
  exact Nat.mod_eq_of_lt h

theorem rd_commitDone_where (die : Nat) (r : Refuse) (s : State) :
    rd (commitDone die r s) FAB_COMMIT_WHERE.commit_offset (dieBase die) =
      rd s FAB_COMMIT_WHERE.commit_offset (dieBase die) := by
  unfold commitDone
  rw [rd_wr_ne _ _ _ _ _ _ (by simp only [fkey, FAB_COMMIT_FIELD.field_offset, FAB_COMMIT_WHERE.commit_offset]; omega),
    rd_wr_ne _ _ _ _ _ _ (by simp only [fkey, FAB_COMMIT_STATUS.status, FAB_COMMIT_WHERE.commit_offset]; omega),
    rd_wr_ne _ _ _ _ _ _ (by simp only [fkey, FAB_COMMIT_STATUS.busy, FAB_COMMIT_WHERE.commit_offset]; omega)]

theorem rd_commitAt_where (die off : Nat) (s : State) (h : off < 2 ^ 28) :
    rd (commitAt die off s) FAB_COMMIT_WHERE.commit_offset (dieBase die) = off := by
  unfold commitAt
  rw [rd_wr_self]
  exact Nat.mod_eq_of_lt h

@[simp] theorem com_commitDone (die : Nat) (r : Refuse) (s : State) (f : Field) (a : Nat) :
    com (commitDone die r s) f a = com s f a := rfl

@[simp] theorem stg_commitAt (die off : Nat) (s : State) (f : Field) (a : Nat) :
    stg (commitAt die off s) f a = stg s f a := rfl

/-! ## NWT_COMMIT -/

/-- Each committed copy of NWT_DIAL_CTRL takes its staged copy (R39, R763). -/
theorem com_acceptStaged_nwt (s : State) :
    com (acceptStaged nwtFields s) NWT_DIAL_CTRL.source_sel = stg s NWT_DIAL_CTRL.source_sel % 2 ^ 4 ∧
      com (acceptStaged nwtFields s) NWT_DIAL_CTRL.slew_limit_ppm = stg s NWT_DIAL_CTRL.slew_limit_ppm % 2 ^ 8 ∧
      com (acceptStaged nwtFields s) NWT_DIAL_CTRL.lock_count = stg s NWT_DIAL_CTRL.lock_count % 2 ^ 8 ∧
      com (acceptStaged nwtFields s) NWT_DIAL_CTRL.lock_window = stg s NWT_DIAL_CTRL.lock_window % 2 ^ 8 := by
  simp only [acceptStaged, nwtFields, List.foldl_cons, List.foldl_nil]
  refine ⟨?_, ?_, ?_, ?_⟩
  · rw [com_wrCom_ne _ _ _ _ _ _ (by decide), com_wrCom_ne _ _ _ _ _ _ (by decide), com_wrCom_ne _ _ _ _ _ _ (by decide)]
    exact com_wrCom_self _ _ _ _
  · rw [com_wrCom_ne _ _ _ _ _ _ (by decide), com_wrCom_ne _ _ _ _ _ _ (by decide)]
    exact com_wrCom_self _ _ _ _
  · rw [com_wrCom_ne _ _ _ _ _ _ (by decide)]
    exact com_wrCom_self _ _ _ _
  · exact com_wrCom_self _ _ _ _

/-- Beyond the committed copies, an accepted commit changes NWT_DIAL_STATUS and what a report changes. -/
def statusKey (k : Nat) : Prop := k / 64 = 0x10008 ∨ reportKey k

theorem syncKey_statusKey (k : Nat) (h : syncKey k) : statusKey k := by
  rcases h with h | h
  · exact .inl (by rw [h]; decide)
  · exact .inr h

/-- Holding the rate within a new limit changes the clock alone (R31). -/
theorem limitRate_eq (s : State) : ∃ c, limitRate s = { s with clock := c } := by
  unfold limitRate
  dsimp only
  split
  · exact ⟨_, rfl⟩
  · exact ⟨_, rfl⟩

/-- Leaving a source changes the clock and clears ahead_of_ref (R31, R37). -/
theorem leaveSource_eq (new : Nat) (s : State) :
    ∃ c, leaveSource new s = wrB NWT_DIAL_STATUS.ahead_of_ref 0 false { s with clock := c } := ⟨_, rfl⟩

/-- Another source taken up: from the copies on, only the clock, NWT_DIAL_STATUS and a report change. -/
theorem takeSource_quiet (v new : Nat) (s : State) : ∃ c, Quiet statusKey { s with clock := c }
    (setSync v (wr NWT_DIAL_STATUS.active_source 0 new (limitRate (leaveSource new s)))) := by
  obtain ⟨c₁, h₁⟩ := leaveSource_eq new s
  obtain ⟨c, h⟩ := limitRate_eq (leaveSource new s)
  rw [h, h₁]
  exact ⟨c, ((wr_quiet NWT_DIAL_STATUS.ahead_of_ref 0 (b2n false) { s with clock := c } (.inl (by decide))).trans
    (wr_quiet _ _ _ _ (.inl (by decide)))).trans ((setSync_quiet _ _).mono syncKey_statusKey)⟩

/-- What an accepted NWT_COMMIT does beyond taking the copies. -/
theorem nwtApply_quiet (s : State) :
    ∃ c, Quiet statusKey { acceptStaged nwtFields s with clock := c } (nwtApply s) := by
  unfold nwtApply
  dsimp only
  split
  · obtain ⟨c, h⟩ := limitRate_eq (acceptStaged nwtFields s)
    exact ⟨c, by rw [h]; exact Quiet.refl _⟩
  · exact takeSource_quiet _ _ _

theorem com_nwtApply (s : State) (f : Field) (a : Nat) : com (nwtApply s) f a = com (acceptStaged nwtFields s) f a := by
  obtain ⟨c, h⟩ := nwtApply_quiet s
  exact h.toCom f a

theorem staged_nwtApply (s : State) : (nwtApply s).regs.staged = s.regs.staged := by
  obtain ⟨c, h⟩ := nwtApply_quiet s
  exact h.toStaged

theorem rd_nwtApply (s : State) (f : Field) (a : Nat) (h : ¬ statusKey (fkey f a)) : rd (nwtApply s) f a = rd s f a := by
  obtain ⟨c, hq⟩ := nwtApply_quiet s
  exact hq.toRd f a h

theorem nwtChecks_pass {s : State} (hs : stg s NWT_DIAL_CTRL.source_sel ≤ 5) (h1 : 1 ≤ stg s NWT_DIAL_CTRL.slew_limit_ppm)
    (h2 : stg s NWT_DIAL_CTRL.slew_limit_ppm ≤ 200) (hc : 1 ≤ stg s NWT_DIAL_CTRL.lock_count)
    (hw : 1 ≤ stg s NWT_DIAL_CTRL.lock_window) : firstFail (nwtChecks s) = none := by
  unfold nwtChecks
  rw [firstFail_one, if_neg]
  simp only [Bool.or_eq_true, decide_eq_true_eq, beq_iff_eq]
  omega

theorem nwtChecks_fail {s : State} (hs : 5 < stg s NWT_DIAL_CTRL.source_sel) :
    firstFail (nwtChecks s) = some (0x0002, 0x10010) := by
  unfold nwtChecks
  rw [firstFail_one, if_pos]
  simp only [Bool.or_eq_true, decide_eq_true_eq]
  exact .inl (.inl (.inl (.inl hs)))

theorem execNwtCommit_accepted {v : Nat} {s : State} (hv : v % 2 = 1) (hd : dieSilent s 0 = false)
    (hc : firstFail (nwtChecks s) = none) :
    execNwtCommit v s = .next (commitDone 0 (0, 0) (nwtApply (commitAt 0 0x1001C s))) :=
  congrArg Host.Outcome.next (commit_accepted hv hd hc)

theorem execNwtCommit_refused {v : Nat} {s : State} {r : Refuse} (hv : v % 2 = 1) (hd : dieSilent s 0 = false)
    (hc : firstFail (nwtChecks s) = some r) : execNwtCommit v s = .next (commitDone 0 r (commitAt 0 0x1001C s)) :=
  congrArg Host.Outcome.next (commit_refused hv hd hc)

theorem execNwtCommit_silent {v : Nat} {s : State} (hv : v % 2 = 1) (hd : dieSilent s 0 = true) :
    execNwtCommit v s = .next (commitDone 0 (0x0C40, 0) (commitAt 0 0x1001C s)) :=
  congrArg Host.Outcome.next (commit_silent hv hd)

/-- An accepted NWT_COMMIT: the committed copies are the staged ones, and the result is 0 (R39, R763, R769). -/
theorem execNwtCommit_accepted_effect (s : State) :
    (com (commitDone 0 (0, 0) (nwtApply (commitAt 0 0x1001C s))) NWT_DIAL_CTRL.source_sel =
        stg s NWT_DIAL_CTRL.source_sel % 2 ^ 4 ∧
      com (commitDone 0 (0, 0) (nwtApply (commitAt 0 0x1001C s))) NWT_DIAL_CTRL.slew_limit_ppm =
        stg s NWT_DIAL_CTRL.slew_limit_ppm % 2 ^ 8 ∧
      com (commitDone 0 (0, 0) (nwtApply (commitAt 0 0x1001C s))) NWT_DIAL_CTRL.lock_count =
        stg s NWT_DIAL_CTRL.lock_count % 2 ^ 8 ∧
      com (commitDone 0 (0, 0) (nwtApply (commitAt 0 0x1001C s))) NWT_DIAL_CTRL.lock_window =
        stg s NWT_DIAL_CTRL.lock_window % 2 ^ 8) ∧
      (commitDone 0 (0, 0) (nwtApply (commitAt 0 0x1001C s))).regs.staged = s.regs.staged ∧
      rd (commitDone 0 (0, 0) (nwtApply (commitAt 0 0x1001C s))) FAB_COMMIT_STATUS.status = 0 ∧
      rd (commitDone 0 (0, 0) (nwtApply (commitAt 0 0x1001C s))) FAB_COMMIT_WHERE.commit_offset = 0x1001C := by
  refine ⟨?_, ?_, rd_commitDone_status 0 _ _ (by decide), ?_⟩
  · simp only [com_commitDone, com_nwtApply]
    exact com_acceptStaged_nwt (commitAt 0 0x1001C s)
  · exact staged_nwtApply (commitAt 0 0x1001C s)
  · have hkey : ¬ statusKey (fkey FAB_COMMIT_WHERE.commit_offset (dieBase 0)) :=
      fun h => h.elim (by decide) (not_reportKey_of_lt (by decide))
    have hw := (rd_commitDone_where 0 (0, 0) (nwtApply (commitAt 0 0x1001C s))).trans (rd_nwtApply _ _ _ hkey)
    exact hw.trans (rd_commitAt_where 0 0x1001C s (by decide))

/-! ## TRW_COMMIT -/

theorem courseDie_bounds {c : Nat} (h : c < 64) : 1 ≤ courseDie c ∧ courseDie c ≤ 4 := by
  unfold courseDie
  omega

/-- Where the die is reached, a write to its window acts. -/
theorem ifReached_reached {die : Nat} {act : State → State} {s : State} (h : reach s 0 die = true) :
    ifReached die act s = act s := by
  unfold ifReached
  rw [if_neg (by simp [h])]

theorem ifReached_unreached {die : Nat} {act : State → State} {s : State} (h1 : 1 ≤ die) (h4 : die ≤ 4)
    (h : reach s 0 die = false) : ifReached die act s = { s with bus := ⟨68, 0x0810, []⟩ } := by
  unfold ifReached
  rw [if_pos ⟨h1, h4, by rw [h]; rfl⟩]

/-- The check of TRW_COMMIT (R97). -/
def trwChecks (c : Nat) (s : State) : List (Bool × Refuse) :=
  [(stg s TRW_WDOG_CTRL.timeout_us (atCourse c 0x100) == 0 || decide (1000000 < stg s TRW_WDOG_CTRL.timeout_us (atCourse c 0x100)),
    (0x0002, 0x20000C + c % 16 * 0x100))]

/-- The effect of an accepted TRW_COMMIT (R79, R97). -/
def trwApply (c : Nat) (s : State) : State :=
  if com (acceptStaged (trwFields c) s) TRW_WDOG_CTRL.enable (atCourse c 0x100) = 0 then
    modCourse c (fun x => { x with wdogAt := none }) (acceptStaged (trwFields c) s)
  else acceptStaged (trwFields c) s

theorem execTrwCommit_eq (c v : Nat) (s : State) : execTrwCommit c v s = .next (if c < 64 then
    ifReached (courseDie c) (commit (courseDie c) (0x20001C + c % 16 * 0x100) v (trwChecks c s) (trwApply c)) s else s) := rfl

theorem execTrwCommit_reached {c : Nat} (v : Nat) {s : State} (hc : c < 64) (hr : reach s 0 (courseDie c) = true) :
    execTrwCommit c v s =
      .next (commit (courseDie c) (0x20001C + c % 16 * 0x100) v (trwChecks c s) (trwApply c) s) := by
  rw [execTrwCommit_eq, if_pos hc, ifReached_reached hr]

/-- The committed copies of a Course's watchdog take their staged copies (R97, R763). -/
theorem com_acceptStaged_trw (c : Nat) (s : State) :
    com (acceptStaged (trwFields c) s) TRW_WDOG_CTRL.timeout_us (atCourse c 0x100) =
        stg s TRW_WDOG_CTRL.timeout_us (atCourse c 0x100) % 2 ^ 20 ∧
      com (acceptStaged (trwFields c) s) TRW_WDOG_CTRL.enable (atCourse c 0x100) =
        stg s TRW_WDOG_CTRL.enable (atCourse c 0x100) % 2 := by
  simp only [acceptStaged, trwFields, List.foldl_cons, List.foldl_nil]
  refine ⟨?_, com_wrCom_self _ _ _ _⟩
  rw [com_wrCom_ne _ _ _ _ _ _ (by simp only [fkey, TRW_WDOG_CTRL.enable, TRW_WDOG_CTRL.timeout_us]; omega)]
  exact com_wrCom_self _ _ _ _

theorem com_trwApply (c : Nat) (s : State) (f : Field) (a : Nat) :
    com (trwApply c s) f a = com (acceptStaged (trwFields c) s) f a := by
  unfold trwApply
  split <;> rfl

theorem trwApply_frame (c : Nat) (s : State) :
    trwApply c s = { s with regs := (trwApply c s).regs, fab := (trwApply c s).fab } := by
  unfold trwApply
  split <;> rfl

/-- Changes of registers and fabric alone, one after the other, are one. -/
theorem regsFab_trans {s t u : State} (h : t = { s with regs := t.regs, fab := t.fab })
    (g : u = { t with regs := u.regs, fab := u.fab }) : u = { s with regs := u.regs, fab := u.fab } := by
  rw [g, h]

theorem commitAt_frame (die off : Nat) (s : State) :
    commitAt die off s = { s with regs := (commitAt die off s).regs, fab := (commitAt die off s).fab } := rfl

theorem commitDone_frame (die : Nat) (r : Refuse) (s : State) :
    commitDone die r s = { s with regs := (commitDone die r s).regs, fab := (commitDone die r s).fab } := rfl

theorem trwChecks_pass {c : Nat} {s : State} (h1 : 1 ≤ stg s TRW_WDOG_CTRL.timeout_us (atCourse c 0x100))
    (h2 : stg s TRW_WDOG_CTRL.timeout_us (atCourse c 0x100) ≤ 1000000) : firstFail (trwChecks c s) = none := by
  unfold trwChecks
  rw [firstFail_one, if_neg]
  simp only [Bool.or_eq_true, decide_eq_true_eq, beq_iff_eq]
  omega

theorem trwChecks_fail {c : Nat} {s : State} (h : stg s TRW_WDOG_CTRL.timeout_us (atCourse c 0x100) = 0 ∨
    1000000 < stg s TRW_WDOG_CTRL.timeout_us (atCourse c 0x100)) :
    firstFail (trwChecks c s) = some (0x0002, 0x20000C + c % 16 * 0x100) := by
  unfold trwChecks
  rw [firstFail_one, if_pos]
  simpa only [Bool.or_eq_true, decide_eq_true_eq, beq_iff_eq] using h

/-- A TRW_COMMIT that is accepted (R97). -/
theorem execTrwCommit_accepted {c v : Nat} {s : State} (hc : c < 64) (hv : v % 2 = 1)
    (hd : dieSilent s (courseDie c) = false) (hr : reach s 0 (courseDie c) = true)
    (h1 : 1 ≤ stg s TRW_WDOG_CTRL.timeout_us (atCourse c 0x100))
    (h2 : stg s TRW_WDOG_CTRL.timeout_us (atCourse c 0x100) ≤ 1000000) :
    ∃ t, execTrwCommit c v s = .next t ∧
      com t TRW_WDOG_CTRL.timeout_us (atCourse c 0x100) = stg s TRW_WDOG_CTRL.timeout_us (atCourse c 0x100) ∧
      com t TRW_WDOG_CTRL.enable (atCourse c 0x100) = stg s TRW_WDOG_CTRL.enable (atCourse c 0x100) % 2 ∧
      rd t FAB_COMMIT_STATUS.status (dieBase (courseDie c)) = 0 ∧ t = { s with regs := t.regs, fab := t.fab } := by
  obtain ⟨ht, he⟩ := com_acceptStaged_trw c (commitAt (courseDie c) (0x20001C + c % 16 * 0x100) s)
  refine ⟨_, (execTrwCommit_reached v hc hr).trans (congrArg _ (commit_accepted hv hd (trwChecks_pass h1 h2))), ?_, ?_,
    rd_commitDone_status _ _ _ (by decide), ?_⟩
  · rw [com_commitDone, com_trwApply, ht]
    exact Nat.mod_eq_of_lt (by rw [stg_commitAt]; omega)
  · rw [com_commitDone, com_trwApply, he, stg_commitAt]
  · exact regsFab_trans (regsFab_trans (commitAt_frame _ _ s) (trwApply_frame c _)) (commitDone_frame _ _ _)

/-- Settles O3: the commit rule's outcomes, for NWT_COMMIT and for TRW_COMMIT. -/
theorem dialCommitAndWatchdogCommit : Obligations.DialCommitAndWatchdogCommit := by
  unfold Obligations.DialCommitAndWatchdogCommit
  refine ⟨fun s v hv hd hs hl1 hl2 hc1 hw1 hc2 hw2 => ?_, fun s v hv hd hs => ?_,
    fun s c v hc hv hd hr h1 h2 => execTrwCommit_accepted hc hv hd hr h1 h2, fun s c v hc hv hd hr ht => ?_,
    fun s v hv hd => ?_, fun s c v hc hv hd hr => ?_, fun s v hv => ?_, fun s c v hv hr => ?_, fun s c v hc hr => ?_⟩
  · obtain ⟨⟨hsrc, hslew, hcount, hwin⟩, hstaged, hst, hat⟩ := execNwtCommit_accepted_effect s
    refine ⟨_, execNwtCommit_accepted hv hd (nwtChecks_pass hs hl1 hl2 hc1 hw1), ?_, ?_, ?_, ?_, hstaged, hst, hat⟩
    · rw [hsrc]; exact Nat.mod_eq_of_lt (by omega)
    · rw [hslew]; exact Nat.mod_eq_of_lt (by omega)
    · rw [hcount]; exact Nat.mod_eq_of_lt hc2
    · rw [hwin]; exact Nat.mod_eq_of_lt hw2
  · exact ⟨_, execNwtCommit_refused hv hd (nwtChecks_fail hs), rfl, rfl, rd_commitDone_status 0 _ _ (by decide),
      rd_commitDone_field 0 _ _ (by decide)⟩
  · exact ⟨_, (execTrwCommit_reached v hc hr).trans (congrArg _ (commit_refused hv hd (trwChecks_fail ht))), rfl,
      rd_commitDone_status _ _ _ (show 0x0002 < 2 ^ 16 by decide)⟩
  · exact ⟨_, execNwtCommit_silent hv hd, rfl, rd_commitDone_status 0 _ _ (by decide)⟩
  · exact ⟨_, (execTrwCommit_reached v hc hr).trans (congrArg _ (commit_silent hv hd)), rfl,
      rd_commitDone_status _ _ _ (by decide)⟩
  · exact congrArg Host.Outcome.next (commit_ignored hv)
  · have hact : ifReached (courseDie c) (commit (courseDie c) (0x20001C + c % 16 * 0x100) v (trwChecks c s) (trwApply c)) s = s :=
      (ifReached_reached hr).trans (commit_ignored hv)
    exact congrArg Host.Outcome.next ((congrArg (fun x => if c < 64 then x else s) hact).trans (ite_self s))
  · obtain ⟨h1, h4⟩ := courseDie_bounds hc
    exact congrArg Host.Outcome.next ((if_pos hc).trans (ifReached_unreached h1 h4 hr))

end Sys2Proof.Machine
end

section
namespace Sys2Proof.Machine

/-! ## Addresses that nothing is mapped to -/

/-- Whether an address lies in a reserved region of the map, or in the outbound window while the PCIe link is down (R25). -/
def unmapped (s : State) (a : Nat) : Prop :=
  (0x1800000000 ≤ a ∧ a < 0x400000000000) ∨ (0x400000000000 ≤ a ∧ a < 0x800000000000 ∧ s.pcieUp = false) ∨
    (0x800000000000 ≤ a ∧ a < 0xF00000000000) ∨ (0xF00070000000 ≤ a ∧ a < 2 ^ 48)

theorem unmapped_beyond {s : State} {a : Nat} (h : unmapped s a) : ¬ a < hbmEnd := by
  unfold unmapped at h
  unfold hbmEnd
  omega

theorem unmapped_notSetup {s : State} {a : Nat} (h : unmapped s a) : inSetup a = false := by
  unfold unmapped at h
  simp only [inSetup, Bool.and_eq_false_iff, decide_eq_false_iff_not]
  omega

theorem unmapped_window {s : State} {a : Nat} (h : unmapped s a) (hp : inPcie a = true) : s.pcieUp = false := by
  unfold unmapped at h
  simp only [inPcie, Bool.and_eq_true, decide_eq_true_eq] at hp
  rcases h with h | h | h | h
  · omega
  · exact h.2.2
  · omega
  · omega

/-- An unmapped address answers the status of one (R25). -/
theorem accessStatus_unmapped {s : State} {a : Nat} (h : unmapped s a) (port ctx : Nat) (write : Bool) :
    accessStatus s port ctx a write = 0x0701 := by
  unfold accessStatus
  split
  · rfl
  · rw [if_neg (unmapped_beyond h)]
    split
    · rw [if_pos (by rw [unmapped_window h ‹_›]; rfl)]
    · rw [if_neg (by rw [unmapped_notSetup h]; simp)]

/-- The status of the first byte is the status of the whole access, where it is one of refusal. -/
theorem rangeStatus_unmapped {s : State} {a : Nat} (h : unmapped s a) (port ctx n : Nat) (write : Bool) :
    rangeStatus s port ctx a n write = 0x0701 := by
  unfold rangeStatus checkPoints
  rw [List.map_cons, accessStatus_unmapped h]
  rfl

/-- A read of an unmapped address gives all ones and changes nothing (R25). -/
theorem readMem_unmapped {s : State} {a : Nat} (h : unmapped s a) (port ctx n : Nat) (causing : List (Nat × Nat × Nat)) :
    readMem port ctx a n causing s = (0x0701, List.replicate n 255, s) := by
  unfold readMem readStatus
  rw [rangeStatus_unmapped h]
  rfl

/-- A write to an unmapped address is discarded (R25). -/
theorem writeMem_unmapped {s : State} {a : Nat} (h : unmapped s a) (port ctx : Nat) (data : List Nat) :
    writeMem port ctx a data s = (0x0701, s) := by
  unfold writeMem
  rw [rangeStatus_unmapped h]
  rfl

/-- What befalls an address does not map it. -/
theorem unmapped_befall {s : State} {a : Nat} (h : unmapped s a) (u : MemUpset) : unmapped (befall a u s) a := by
  have hp : (befall a u s).pcieUp = s.pcieUp := by
    unfold befall
    rw [if_neg (unmapped_beyond h)]
    split <;> rfl
  unfold unmapped at h ⊢
  rw [hp]
  exact h

theorem setupAccess_unmapped {s : State} {a : Nat} (h : unmapped s a) (port : Nat) : setupAccess port a = false := by
  unfold setupAccess
  rw [unmapped_notSetup h, Bool.false_and]

theorem execMemoryRead_unmapped {s : State} {a : Nat} (h : unmapped s a) (port ctx n : Nat) (u : MemUpset)
    (hn : a + n ≤ 2 ^ 48) : execMemoryRead port ctx a n u s =
      .next { befall a u s with bus := ⟨port, 0x0701, List.replicate n 255⟩ } := by
  unfold execMemoryRead
  dsimp only
  rw [if_neg (by omega), setupAccess_unmapped h, if_neg Bool.false_ne_true, if_neg (fun x => unmapped_beyond h x.1)]
  unfold readElsewhere
  rw [readMem_unmapped (unmapped_befall h u)]

theorem execMemoryWrite_unmapped {s : State} {a : Nat} (h : unmapped s a) (port ctx : Nat) (data : List Nat) (u : MemUpset)
    (hn : a + data.length ≤ 2 ^ 48) : execMemoryWrite port ctx a data u s =
      .next { befall a u s with bus := ⟨port, 0x0701, []⟩ } := by
  unfold execMemoryWrite
  dsimp only
  rw [if_neg (by omega), setupAccess_unmapped h, if_neg Bool.false_ne_true, if_neg (fun x => unmapped_beyond h x.1),
    writeMem_unmapped (unmapped_befall h u)]

/-- Settles O59: the status of the first byte refuses the access, whoever makes it. -/
theorem unmappedAddressesAreRefused : Obligations.UnmappedAddressesAreRefused := by
  unfold Obligations.UnmappedAddressesAreRefused
  intro s a h
  exact ⟨fun port ctx n causing => readMem_unmapped h port ctx n causing,
    fun port ctx data => writeMem_unmapped h port ctx data,
    fun port ctx n u hn => execMemoryRead_unmapped h port ctx n u hn,
    fun port ctx data u hn => execMemoryWrite_unmapped h port ctx data u hn⟩

end Sys2Proof.Machine
end

section
namespace Sys2Proof.Machine

open Reg

/-! ## The PCIe link comes up -/

/-- Messages sent one after another are sent in that order. -/
theorem foldl_send_interrupt (l : List Nat) (s : State) :
    l.foldl (fun s v => send .interrupt [v, 1] s) s =
      { s with out := s.out ++ l.map (fun v => ⟨.interrupt, [v, 1]⟩) } := by
  induction l generalizing s with
  | nil => simp
  | cons v r ih =>
    rw [List.foldl_cons, ih]
    simp [send]

theorem sendPending_eq (s : State) : sendPending s = { s with
    out := s.out ++ s.rings.irqs.map (fun v => ⟨.interrupt, [v, 1]⟩)
    rings := { s.rings with irqs := [] } } := by
  unfold sendPending
  rw [foldl_send_interrupt]

theorem execPcieLinkUp_trained {s : State} (hp : s.perst = false) (hm : s.mode = .run)
    (hb : bit s.nwt.boot.flags 0 = true) : execPcieLinkUp s = .next (sendPending { s with pcieUp := true }) := by
  unfold execPcieLinkUp
  rw [if_neg (by simp [hp, hm, hb])]

/-! ## Rings that stop stay stopped -/

/-- The registers that the write of an event and of an echo line change: those of a report but the stopped rings. -/
def eventKey (k : Nat) : Prop :=
  k = fkey HST_EVT_DROP_COUNT.drops 0 ∨ k = fkey HST_DEV_EQ_TAIL.tail 0 ∨
    k = fkey PLB_PORT_STATE.over_rate (72 * 16) ∨ retryKey k

/-- The stopped rings of no context are among them. -/
theorem not_eventKey_stopped (c : Nat) : ¬ eventKey (fkey HST_CTX_STATE.stopped (c * 0x100)) := by
  simp only [eventKey, retryKey, fkey, dieBase, HST_EVT_DROP_COUNT.drops, HST_DEV_EQ_TAIL.tail,
    PLB_PORT_STATE.over_rate, HBM_CRC_RETRY_COUNT.retries, HST_CTX_STATE.stopped]
  rintro (e | e | e | ⟨d, e⟩) <;> omega

theorem writeMem72_eventQuiet (c a : Nat) (l : List Nat) (s : State) : Quiet eventKey s (writeMem 72 c a l s).2 :=
  writeMem_quiet _ _ _ _ s (.inr (.inr (.inl rfl))) (fun _ h => .inr (.inr (.inr h)))

theorem devWrite_eventQuiet (ev : List Nat) (s : State) : Quiet eventKey s (devWrite ev s) := by
  unfold devWrite
  dsimp only
  split
  · exact (Quiet.setRings s _ (by rfl)).trans (wr_quiet _ _ _ _ (.inl rfl))
  · exact (((writeMem72_eventQuiet _ _ _ s).trans (Quiet.setRings _ _ (by rfl))).trans
      (wr_quiet _ _ _ _ (.inr (.inl rfl)))).trans (notify_quiet _ _ _)

theorem devEvent_eventQuiet (ev : List Nat) (s : State) : Quiet eventKey s (devEvent ev s) := by
  unfold devEvent
  split
  · exact devWrite_eventQuiet ev s
  · split
    · exact Quiet.setRings s _ (by rfl)
    · exact (Quiet.setRings s _ (by rfl)).trans (wr_quiet _ _ _ _ (.inl rfl))

theorem ctxEvent_eventQuiet (c : Nat) (ev : List Nat) (s : State) : Quiet eventKey s (ctxEvent c ev s).2 := by
  unfold ctxEvent
  exact Quiet.iteSnd ((setCtx_quiet _ _ s).trans (wr_quiet _ _ _ _ (.inl rfl)))
    (Quiet.iteSnd (writeMem72_eventQuiet _ _ _ s) ((writeMem72_eventQuiet _ _ _ s).trans (setCtx_quiet _ _ _)))

theorem eventRaw_eventQuiet (status die ctx unit sev : Nat) (p : List Nat) (s : State) :
    Quiet eventKey s (eventRaw status die ctx unit sev p s).2 := by
  have h := (devEvent_eventQuiet (eventRecord (eventTime s die) status die ctx unit sev 0 0 p) s).trans
    (forward_quiet status die unit sev (ctxSealed s ctx && namesChecker status) _)
  unfold eventRaw
  dsimp only
  split
  · exact h.trans (ctxEvent_eventQuiet _ _ _)
  · exact h

/-- No ring that is stopped in s runs in t. -/
def StopsStay (s t : State) : Prop := ∀ c r, r < 4 → ringStopped s c r = true → ringStopped t c r = true

namespace StopsStay

protected theorem refl (s : State) : StopsStay s s := fun _ _ _ h => h

protected theorem trans {s t u : State} (h : StopsStay s t) (g : StopsStay t u) : StopsStay s u :=
  fun c r hr x => g c r hr (h c r hr x)

theorem foldl {α : Type} (f : State → α → State) (l : List α) (hf : ∀ x, ∀ a ∈ l, StopsStay x (f x a)) (s : State) :
    StopsStay s (l.foldl f s) := by
  induction l generalizing s with
  | nil => exact StopsStay.refl s
  | cons a r ih => exact (hf s a List.mem_cons_self).trans (ih (fun x b hb => hf x b (List.mem_cons_of_mem _ hb)) (f s a))

end StopsStay

/-- What changes no register but those of an event stops and restarts no ring. -/
theorem ringStopped_eventQuiet {s t : State} (h : Quiet eventKey s t) (c r : Nat) : ringStopped t c r = ringStopped s c r := by
  unfold ringStopped
  rw [h.toRd _ _ (not_eventKey_stopped c)]

theorem StopsStay.of_eventQuiet {s t : State} (h : Quiet eventKey s t) : StopsStay s t :=
  fun c r _ x => (ringStopped_eventQuiet h c r).trans x

/-- A bit below four of a number whose bit r is set, in the four bits of the field. -/
theorem bit_setBit (n r i : Nat) (hr : r < 4) (hi : i < 4) :
    bit (setBit n r true % 2 ^ 4) i = (bit n i || i == r) := by
  have h16 : ∀ m < 16, ∀ r < 4, ∀ i < 4, bit (setBit m r true % 2 ^ 4) i = (bit m i || i == r) := by decide
  have hbit : ∀ (m i : Nat), i < 4 → bit (m % 16) i = bit m i := by
    intro m i hi
    unfold bit
    have : m % 16 / 2 ^ i % 2 = m / 2 ^ i % 2 := by
      interval_cases i <;> omega
    rw [this]
  have hset : setBit n r true % 2 ^ 4 = setBit (n % 16) r true % 2 ^ 4 := by
    unfold setBit
    rw [hbit n r hr]
    simp only [if_true]
    split <;> omega
  rw [hset, h16 _ (Nat.mod_lt _ (by decide)) r hr i hi, hbit n i hi]

/-- The state in which ring r of context c has just been marked as stopped. -/
theorem ringStopped_mark (c r c' r' : Nat) (s : State) (hr : r < 4) (hr' : r' < 4) :
    ringStopped (wr HST_CTX_STATE.stopped (c * 0x100) (setBit (rd s HST_CTX_STATE.stopped (c * 0x100)) r true) s) c' r' =
      (ringStopped s c' r' || (c' == c && r' == r)) := by
  unfold ringStopped
  by_cases hc : c' = c
  · subst hc
    rw [rd_wr_self, beq_self_eq_true, Bool.true_and]
    exact bit_setBit _ r r' hr hr'
  · rw [rd_wr_ne _ _ _ _ _ _ (by simp only [fkey]; omega)]
    simp [hc]

theorem stopRaw_stops (c r cause resume : Nat) (s : State) (hr : r < 4) :
    StopsStay s (stopRaw c r cause resume s).2 ∧ ringStopped (stopRaw c r cause resume s).2 c r = true := by
  have hraw : ∀ c' r', r' < 4 → ringStopped (stopRaw c r cause resume s).2 c' r' =
      (ringStopped s c' r' || (c' == c && r' == r)) := by
    intro c' r' hr'
    unfold stopRaw
    rw [ringStopped_eventQuiet (eventRaw_eventQuiet _ _ _ _ _ _ _)]
    exact ringStopped_mark c r c' r' (modRing c r _ s) hr hr'
  refine ⟨fun c' r' hr' h => ?_, ?_⟩
  · rw [hraw c' r' hr', h, Bool.true_or]
  · rw [hraw c r hr]
    simp

theorem echoRaw_stay (c : Nat) (s : State) : StopsStay s (echoRaw c s).2 :=
  StopsStay.of_eventQuiet (writeMem72_eventQuiet _ _ _ s)

theorem stopRings_stay (c cause : Nat) (s : State) : StopsStay s (stopRings c cause s) := by
  unfold stopRings
  refine StopsStay.trans (StopsStay.foldl _ _ (fun x r hr => ?_) s) (echoRaw_stay _ _)
  split
  · exact (stopRaw_stops _ _ _ _ _ (List.mem_range.mp hr)).1
  · exact StopsStay.refl x

theorem writeEcho_stay (c : Nat) (s : State) : StopsStay s (writeEcho c s) := by
  unfold writeEcho
  dsimp only
  split
  · exact (echoRaw_stay c s).trans (stopRings_stay _ _ _)
  · exact echoRaw_stay c s

/-- A ring that is stopped reads as stopped, and no other ring restarts (R313). -/
theorem stopRing_stops (c r cause resume : Nat) (s : State) (hr : r < 4) :
    StopsStay s (stopRing c r cause resume s) ∧ ringStopped (stopRing c r cause resume s) c r = true := by
  obtain ⟨hstay, hstop⟩ := stopRaw_stops c r cause resume s hr
  unfold stopRing
  split
  · exact ⟨StopsStay.refl s, ‹_›⟩
  · dsimp only
    split
    · exact ⟨hstay.trans (stopRings_stay _ _ _), stopRings_stay _ _ _ c r hr hstop⟩
    · exact ⟨hstay.trans (writeEcho_stay _ _), writeEcho_stay _ _ c r hr hstop⟩

/-! ## The PCIe link goes down -/

/-- The ring r of context c that must stop when the link goes down: enabled, of an open context, with a line in the
outbound window (R313, R746). -/
def mustStop (s : State) (c r : Nat) : Prop := ctxOpen s c = true ∧ ringEnabled s c r = true ∧ ringInPcie s c r = true

/-- What the stopping of rings does: a report's changes, and no ring restarts. -/
structure Stopping (s t : State) : Prop where
  quiet : Quiet reportKey s t
  stay : StopsStay s t

namespace Stopping

protected theorem refl (s : State) : Stopping s s := ⟨Quiet.refl s, StopsStay.refl s⟩

protected theorem trans {s t u : State} (h : Stopping s t) (g : Stopping t u) : Stopping s u :=
  ⟨h.quiet.trans g.quiet, h.stay.trans g.stay⟩

theorem ctxOpen_eq {s t : State} (h : Stopping s t) (c : Nat) : ctxOpen t c = ctxOpen s c := by
  unfold ctxOpen
  by_cases hc : c < 64
  · rw [h.quiet.toRd]
    simp only [reportKey, retryKey, fkey, dieBase, HST_EVT_DROP_COUNT.drops, HST_DEV_EQ_TAIL.tail,
      PLB_PORT_STATE.over_rate, HBM_CRC_RETRY_COUNT.retries, HST_CTX_STATE.stopped, HST_CTX_STATE.state]
    rintro (e | e | e | ⟨d, e⟩ | ⟨d, -, e⟩) <;> omega
  · simp [hc]

/-- The rings that must stop are the same before and after. -/
theorem mustStop_iff {s t : State} (h : Stopping s t) (c r : Nat) : mustStop t c r ↔ mustStop s c r := by
  have hcom := h.quiet.toCom
  unfold mustStop ringEnabled ringInPcie
  rw [h.ctxOpen_eq]
  simp only [hcom]

end Stopping

theorem Stopping.foldl {α : Type} (f : State → α → State) (l : List α) (hf : ∀ x, ∀ a ∈ l, Stopping x (f x a)) (s : State) :
    Stopping s (l.foldl f s) := by
  induction l generalizing s with
  | nil => exact Stopping.refl s
  | cons a r ih => exact (hf s a List.mem_cons_self).trans (ih (fun x b hb => hf x b (List.mem_cons_of_mem _ hb)) (f s a))

/-- Where the step of an element stops what it must, a fold over it stops that too. -/
theorem ringStopped_foldl {α : Type} (f : State → α → State) (l : List α) {c r : Nat} (hr : r < 4)
    (hf : ∀ x, ∀ a ∈ l, Stopping x (f x a)) {a : α} (ha : a ∈ l)
    (hstop : ∀ x, mustStop x c r → ringStopped (f x a) c r = true) {s : State} (hm : mustStop s c r) :
    ringStopped (l.foldl f s) c r = true := by
  induction l generalizing s with
  | nil => exact absurd ha List.not_mem_nil
  | cons b l ih =>
    have hrest : ∀ x, ∀ a ∈ l, Stopping x (f x a) := fun x a ha => hf x a (List.mem_cons_of_mem _ ha)
    rcases List.mem_cons.mp ha with rfl | ha
    · exact (Stopping.foldl f l hrest (f s a)).stay c r hr (hstop s hm)
    · exact ih hrest ha (((hf s b List.mem_cons_self).mustStop_iff c r).mpr hm)

/-- What happens to ring r of context c, which is open, when the link goes down. -/
def stopIfInPcie (c : Nat) (s : State) (r : Nat) : State :=
  if ringEnabled s c r && ringInPcie s c r then stopRing c r 0x0614 (ringOf s c r).head s else s

theorem stopIfInPcie_stopping {c r : Nat} (hc : c < 64) (hr : r < 4) (s : State) : Stopping s (stopIfInPcie c s r) := by
  unfold stopIfInPcie
  split
  · exact ⟨stopRing_quiet _ _ _ _ s hc, (stopRing_stops _ _ _ _ s hr).1⟩
  · exact Stopping.refl s

theorem stopIfInPcie_stops {c r : Nat} (hr : r < 4) {s : State} (h : mustStop s c r) :
    ringStopped (stopIfInPcie c s r) c r = true := by
  obtain ⟨-, he, hp⟩ := h
  unfold stopIfInPcie
  rw [he, hp]
  exact (stopRing_stops _ _ _ _ s hr).2

/-- What happens to the rings of context c when the link goes down. -/
def stopCtxInPcie (s : State) (c : Nat) : State :=
  if ctxOpen s c then (List.range 4).foldl (stopIfInPcie c) s else s

theorem stopCtxInPcie_stopping {c : Nat} (s : State) : Stopping s (stopCtxInPcie s c) := by
  unfold stopCtxInPcie
  split
  · rename_i h
    exact Stopping.foldl _ _ (fun x a ha => stopIfInPcie_stopping (ctxOpen_lt h) (List.mem_range.mp ha) x) s
  · exact Stopping.refl s

theorem stopCtxInPcie_stops {c r : Nat} (hr : r < 4) {s : State} (h : mustStop s c r) :
    ringStopped (stopCtxInPcie s c) c r = true := by
  have hopen := h.1
  unfold stopCtxInPcie
  rw [if_pos hopen]
  exact ringStopped_foldl _ _ hr (fun x a ha => stopIfInPcie_stopping (ctxOpen_lt hopen) (List.mem_range.mp ha) x)
    (List.mem_range.mpr hr) (fun x hx => stopIfInPcie_stops hr hx) h

theorem pcieDown_eq (s : State) : pcieDown s = (List.range 64).foldl stopCtxInPcie { s with pcieUp := false } := rfl

/-- The link going down stops rings and does no more than their reports do. -/
theorem pcieDown_stopping (s : State) : Stopping { s with pcieUp := false } (pcieDown s) := by
  rw [pcieDown_eq]
  exact Stopping.foldl _ _ (fun x a _ => stopCtxInPcie_stopping x) _

/-- Every ring that must stop when the link goes down reads as stopped afterwards (R313, R746). -/
theorem pcieDown_stops {s : State} {c r : Nat} (hc : c < 64) (hr : r < 4) (h : mustStop s c r) :
    ringStopped (pcieDown s) c r = true := by
  have h' : mustStop { s with pcieUp := false } c r := h
  rw [pcieDown_eq]
  exact ringStopped_foldl stopCtxInPcie (List.range 64) hr (fun x a _ => stopCtxInPcie_stopping x) (List.mem_range.mpr hc)
    (fun x hx => stopCtxInPcie_stops hr hx) h'

theorem execPerstAssert_falls {s : State} {n : Nat} (hp : s.perst = false) (hn : 40 ≤ n) :
    execPerstAssert n s = .next (pcieDown { s with perst := true }) := by
  unfold execPerstAssert
  rw [if_neg (by simp [hp, filtered, hn])]

/-- Settles O5: the link comes up with its messages sent, and goes down with its rings stopped. -/
theorem pcieLinkAndItsWindow : Obligations.PcieLinkAndItsWindow := by
  unfold Obligations.PcieLinkAndItsWindow
  refine ⟨fun s hp hm hb => ?_, fun s n hn => ?_, fun s n hn => ⟨?_, ?_⟩, fun s => ?_, fun s n hp hn => ?_⟩
  · refine ⟨_, execPcieLinkUp_trained hp hm hb, ?_⟩
    rw [sendPending_eq]
    exact ⟨rfl, rfl, rfl, rfl⟩
  · exact congrArg Host.Outcome.next (if_pos (decide_eq_true hn))
  · exact congrArg Host.Outcome.next (if_neg (by simp [filtered, hn]))
  · exact congrArg Host.Outcome.next (if_pos (.inr (by simp [filtered, hn])))
  · have hq := (pcieDown_stopping s).quiet
    exact ⟨pcieDown s, rfl, hq.toPcie, hq.toPerst, hq.toFab,
      fun c r hc hr ho he hi => pcieDown_stops hc hr ⟨ho, he, hi⟩⟩
  · have hq := (pcieDown_stopping { s with perst := true }).quiet
    exact ⟨_, execPerstAssert_falls hp hn, hq.toPcie, hq.toPerst, hq.toMode, hq.toFab,
      fun c r hc hr ho he hi => pcieDown_stops (s := { s with perst := true }) hc hr ⟨ho, he, hi⟩⟩

end Sys2Proof.Machine
end

section
namespace Sys2Proof.Machine

open Reg

/-! ## What keeps the mode and the lock of Dial time -/

/-- From s to t the mode, the rate correction that Nightwatch noted, and sync_state stay. -/
structure Steady (s t : State) : Prop where
  mode : t.mode = s.mode
  lockedRate : t.nwt.lockedRate = s.nwt.lockedRate
  sync : rd t NWT_DIAL_STATUS.sync_state = rd s NWT_DIAL_STATUS.sync_state

namespace Steady

variable {s t u : State}

protected theorem refl (s : State) : Steady s s := ⟨rfl, rfl, rfl⟩

protected theorem trans (h : Steady s t) (g : Steady t u) : Steady s u :=
  ⟨g.mode.trans h.mode, g.lockedRate.trans h.lockedRate, g.sync.trans h.sync⟩

theorem foldl {α : Type} (f : State → α → State) (l : List α) (hf : ∀ x a, Steady x (f x a)) (s : State) :
    Steady s (l.foldl f s) := by
  induction l generalizing s with
  | nil => exact Steady.refl s
  | cons a r ih => exact (hf s a).trans (ih (f s a))

theorem ite {c : Prop} [Decidable c] (ht : Steady s t) (hu : Steady s u) : Steady s (if c then t else u) := by
  split <;> assumption

/-- A change of none of the three comes first. -/
theorem after (h : Steady t u) (hm : t.mode = s.mode) (hl : t.nwt.lockedRate = s.nwt.lockedRate)
    (hr : t.regs = s.regs) : Steady s u :=
  .trans ⟨hm, hl, by rw [rd, hr, rd]⟩ h

/-- A change of none of the three comes last. -/
theorem same (h : Steady s t) (hm : u.mode = t.mode) (hl : u.nwt.lockedRate = t.nwt.lockedRate)
    (hr : u.regs = t.regs) : Steady s u :=
  h.trans ⟨hm, hl, by rw [rd, hr, rd]⟩

theorem setRings (s : State) (r : RingsState) : Steady s { s with rings := r } := ⟨rfl, rfl, rfl⟩

theorem setMem (s : State) (m : MemState) : Steady s { s with mem := m } := ⟨rfl, rfl, rfl⟩

theorem setFab (s : State) (f : FabricState) : Steady s { s with fab := f } := ⟨rfl, rfl, rfl⟩

theorem setKey (s : State) (k : KeyState) : Steady s { s with key := k } := ⟨rfl, rfl, rfl⟩

theorem setMer (s : State) (m : MerState) : Steady s { s with mer := m } := ⟨rfl, rfl, rfl⟩

theorem setFresh (s : State) (n : Nat) : Steady s { s with fresh := n } := ⟨rfl, rfl, rfl⟩

theorem setIsl (s : State) (i : IslandState) : Steady s { s with isl := i } := ⟨rfl, rfl, rfl⟩

theorem setDay (s : State) (d : DayState) : Steady s { s with day := d } := ⟨rfl, rfl, rfl⟩

/-- The write of a register above DIAL_STATUS. -/
theorem wr (h : Steady s t) {f : Field} {a v : Nat} (hf : decide (0x10008 < f.off) = true) :
    Steady s (Machine.wr f a v t) := by
  have hoff := of_decide_eq_true hf
  refine h.trans ⟨rfl, rfl, rd_wr_ne _ _ _ _ _ _ ?_⟩
  simp only [fkey, NWT_DIAL_STATUS.sync_state]
  omega

/-- The write of a register of a die below DIAL_STATUS. -/
theorem wrDie (h : Steady s t) {f : Field} {d v : Nat} (hf : decide (f.off * 64 + f.lo < 0x10008 * 64) = true) :
    Steady s (Machine.wr f (dieBase d) v t) := by
  have hoff := of_decide_eq_true hf
  refine h.trans ⟨rfl, rfl, rd_wr_ne _ _ _ _ _ _ ?_⟩
  simp only [fkey, NWT_DIAL_STATUS.sync_state, dieBase]
  omega

/-- The write of a register that is not sync_state. -/
theorem wrNe (h : Steady s t) {f : Field} {a v : Nat}
    (hf : decide (fkey f a ≠ fkey NWT_DIAL_STATUS.sync_state 0) = true) : Steady s (Machine.wr f a v t) :=
  h.trans ⟨rfl, rfl, rd_wr_ne _ _ _ _ _ _ (of_decide_eq_true hf)⟩

/-- A quiet change, where sync_state is not among the registers that it may change. -/
theorem of_quiet {S : Nat → Prop} (h : Quiet S s t) (x : ¬ S (fkey NWT_DIAL_STATUS.sync_state 0)) : Steady s t :=
  ⟨h.toMode, congrArg NwtState.lockedRate h.toNwt, h.toRd _ _ x⟩

/-- A quiet change that changes no register. -/
theorem of_still (h : Quiet (fun _ => False) s t) : Steady s t := of_quiet h id

end Steady

theorem not_reportKey_sync : ¬ reportKey (fkey NWT_DIAL_STATUS.sync_state 0) := not_reportKey_of_lt (by decide)

/-- The registers other than sync_state. -/
def besideSync (k : Nat) : Prop := k ≠ fkey NWT_DIAL_STATUS.sync_state 0

theorem besideSync_of_lt {f : Field} (a : Nat) (hf : decide (0x10008 < f.off) = true) :
    besideSync (fkey f a) := by
  have hoff := of_decide_eq_true hf
  simp only [besideSync, fkey, NWT_DIAL_STATUS.sync_state]
  omega

theorem besideSync_of_retryKey (k : Nat) (h : retryKey k) : besideSync k := by
  obtain ⟨d, rfl⟩ := h
  exact besideSync_of_lt _ rfl

theorem Steady.of_besideSync {s t : State} (h : Quiet besideSync s t) : Steady s t := .of_quiet h (fun x => x rfl)

/-! ### Time, memory and events -/

theorem event_steady (st die ctx unit sev : Nat) (p : List Nat) (s : State) : Steady s (event st die ctx unit sev p s) :=
  .of_quiet (event_quiet _ _ _ _ _ _ s) not_reportKey_sync

theorem eventRaw_steady (st die ctx unit sev : Nat) (p : List Nat) (s : State) :
    Steady s (eventRaw st die ctx unit sev p s).2 :=
  .of_quiet (eventRaw_quiet _ _ _ _ _ _ s) not_reportKey_sync

theorem dialWrite_steady (v : Nat) (s : State) : Steady s (wr NWT_DIAL_NOW.dial_ns 0 v s) :=
  (Steady.refl s).wrNe rfl

theorem passTo_steady (t : Nat) (s : State) : Steady s (passTo t s) := by
  unfold passTo
  refine .ite (.ite ?_ ?_) (.refl s)
  · exact (dialWrite_steady _ _).after rfl rfl rfl
  · exact (dialWrite_steady _ _).after rfl rfl rfl

theorem setDomain_steady (d : Nat) (on : Bool) (s : State) : Steady s (setDomain d on s) := (Steady.refl s).wr rfl

theorem writeMem_steady (p c a : Nat) (l : List Nat) (s : State) : Steady s (writeMem p c a l s).2 :=
  .of_besideSync (writeMem_quiet p c a l s (besideSync_of_lt _ rfl) besideSync_of_retryKey)

theorem writeMem'_steady (p c a : Nat) (l : List Nat) (s : State) : Steady s (writeMem' p c a l s) :=
  writeMem_steady p c a l s

theorem drainRange_steady (a n : Nat) (s : State) : Steady s (drainRange a n s) :=
  .foldl _ _ (fun x _ => .of_still (drainOverlap_quiet _ _ x)) s

theorem policeRange_steady (p a n : Nat) (s : State) : Steady s (policeRange p a n s) :=
  .of_besideSync (policeRange_quiet p a n s (besideSync_of_lt _ rfl))

theorem meetReads_steady (l : List Nat) (s : State) : Steady s (meetReads l s).2 := by
  induction l generalizing s with
  | nil => exact .refl s
  | cons a r ih =>
    have h : Steady s (meetLine a true s).2 := .of_besideSync (meetLine_quiet a true s besideSync_of_retryKey)
    simp only [meetReads]
    split
    · exact h
    · exact h.trans (ih _)

theorem modCtx_steady (c : Nat) (f : CtxState → CtxState) (s : State) : Steady s (modCtx c f s) :=
  .of_still (modCtx_quiet c f s)

theorem stopRaw_steady (c r cause resume : Nat) (s : State) : Steady s (stopRaw c r cause resume s).2 := by
  unfold stopRaw
  exact ((modCtx_steady _ _ s).wr rfl).trans (eventRaw_steady _ _ _ _ _ _ _)

theorem stopRings_steady (c cause : Nat) (s : State) : Steady s (stopRings c cause s) := by
  unfold stopRings
  exact (Steady.foldl _ _ (fun x _ => .ite (stopRaw_steady _ _ _ _ x) (.refl x)) s).trans (writeMem_steady _ _ _ _ _)

theorem writeEcho_steady (c : Nat) (s : State) : Steady s (writeEcho c s) := by
  unfold writeEcho
  exact .ite ((writeMem_steady _ _ _ _ s).trans (stopRings_steady _ _ _)) (writeMem_steady _ _ _ _ s)

/-! ### Courses, descriptors and Ties -/

theorem modCourse_steady (c : Nat) (f : CourseState → CourseState) (s : State) : Steady s (modCourse c f s) := ⟨rfl, rfl, rfl⟩

theorem modLaunch_steady (i : Nat) (f : Launch → Launch) (s : State) : Steady s (modLaunch i f s) := ⟨rfl, rfl, rfl⟩

theorem modInst_steady (i c : Nat) (f : Inst → Inst) (s : State) : Steady s (modInst i c f s) := modLaunch_steady _ _ s

theorem finishDesc_steady (c ring count : Nat) (raw : List Nat) (d : Done) (s : State) :
    Steady s (finishDesc c ring count raw d s) := by
  unfold finishDesc
  have h2 := (modCtx_steady c (fun x => { x with reserved := x.reserved - 1 }) { s with rings := { s.rings with
      descs := s.rings.descs.filter (fun x => !(x.ctx == c && x.ring == ring && x.count == count)) } }).after (s := s) rfl rfl rfl
  refine .ite ?_ h2
  refine .ite (h2.trans ((writeMem_steady _ _ _ _ _).trans (stopRings_steady _ _ _))) ?_
  refine Steady.trans ?_ (writeEcho_steady _ _)
  refine Steady.trans ?_ (.ite (.of_still (notify_quiet _ _ _)) (.refl _))
  exact (h2.trans (writeMem_steady _ _ _ _ _)).trans (modCtx_steady _ _ _)

theorem evalWaits_steady (t : Nat) (s : State) : Steady s (evalWaits t s) := ⟨rfl, rfl, rfl⟩

theorem setTie_steady (t v : Nat) (s : State) : Steady s (setTie t v s) := ⟨rfl, rfl, rfl⟩

theorem tieApply_steady (op : TieOp) (s : State) : Steady s (tieApply op s) := by
  unfold tieApply
  split
  · have h := (setTie_steady op.tie (satTo (tieValue s op.tie + op.value) 0xFFFFFFFF) s).trans (evalWaits_steady op.tie _)
    exact .ite ((h.wr rfl).trans (event_steady _ _ _ _ _ _ _)) h
  · exact (setTie_steady _ _ s).trans (evalWaits_steady _ _)
  · exact (evalWaits_steady _ _).after rfl rfl rfl

theorem tieDescDone_steady (op : TieOp) (s : State) : Steady s (tieDescDone op s) := by
  have h : ∀ c r n, Steady s (match s.rings.descs.find? (fun d =>
        d.ctx == c && d.ring == r && d.count == n && d.phase == .issued) with
      | some d => finishDesc c r n d.raw {} s
      | none => s) := by
    intro c r n
    split
    · exact finishDesc_steady _ _ _ _ _ s
    · exact .refl s
  unfold tieDescDone
  split
  · exact h _ _ _
  · exact h _ _ _
  · exact .refl s

theorem tieDeliver_steady (home sender : Nat) (s : State) : Steady s (tieDeliver home sender s) := by
  unfold tieDeliver
  split
  · exact .refl s
  · exact ((tieApply_steady _ _).trans (tieDescDone_steady _ _)).after rfl rfl rfl

theorem tieFlush_steady (home sender : Nat) (s : State) : Steady s (tieFlush home sender s) :=
  .foldl _ _ (fun x _ => tieDeliver_steady _ _ x) s

theorem signalNow_steady (a : Agent) (ctx tie v : Nat) (s : State) : Steady s (signalNow a ctx tie v s) :=
  .ite ((tieFlush_steady _ _ s).trans (tieApply_steady _ _)) (.refl s)

theorem refreshCourse_steady (c : Nat) (s : State) : Steady s (refreshCourse c s) := ((Steady.refl s).wr rfl).wr rfl

theorem restartWdog_steady (c : Nat) (s : State) : Steady s (restartWdog c s) :=
  .ite (modCourse_steady _ _ s) (modCourse_steady _ _ s)

theorem endLaunch_steady (l : Launch) (d : Done) (s : State) : Steady s (endLaunch l d s) := by
  unfold endLaunch
  refine Steady.trans ?_ (finishDesc_steady _ _ _ _ _ _)
  refine (Steady.foldl _ _ (fun x i => ?_) _).after rfl rfl rfl
  exact ((restartWdog_steady _ x).trans (modCourse_steady _ _ _)).trans (refreshCourse_steady _ _)

theorem endDescs_steady (c st : Nat) (s : State) : Steady s (endDescs c st s) :=
  .foldl _ _ (fun x _ => finishDesc_steady _ _ _ _ _ x) s

/-! ### What a teardown drops -/

theorem releaseHandles_steady (c : Nat) (s : State) : Steady s (releaseHandles c s) := ⟨rfl, rfl, rfl⟩

theorem noteRun_steady (j : SieveJob) (s : State) : Steady s (noteRun j s) := by
  unfold noteRun
  split
  · exact .refl s
  · exact ((Steady.refl s).wr rfl).wr rfl

theorem dropSieve_steady (c : Nat) (s : State) : Steady s (dropSieve c s) := by
  unfold dropSieve
  exact (Steady.foldl _ _ (fun x j => noteRun_steady j x) s).same rfl rfl rfl

theorem dropInput_steady (c : Nat) (s : State) : Steady s (dropInput c s) := by
  unfold dropInput
  exact (Steady.foldl (fun s i => wrB CAM_STREAM_STATUS.running (i * 0x20) false s) _
    (fun x _ => (Steady.refl x).wr rfl) s).same rfl rfl rfl

theorem signalFrom_steady (i port ctx tie v : Nat) (s : State) : Steady s (signalFrom i port ctx tie v s) :=
  .ite (signalNow_steady _ _ _ _ s) (event_steady _ _ _ _ _ _ s)

theorem withdraw_steady (i : Nat) (s : State) : Steady s (withdraw i s) := ⟨rfl, rfl, rfl⟩

theorem modOvQueue_steady (c : Nat) (f : OvQueue → OvQueue) (s : State) : Steady s (modOvQueue c f s) := ⟨rfl, rfl, rfl⟩

theorem endTransfer_steady (c st : Nat) (s : State) : Steady s (endTransfer c st s) := by
  unfold endTransfer
  split
  · exact .refl s
  · have h := fun l a => ((writeMem_steady 71 c a l s).trans (modOvQueue_steady c
      (fun q => { q with head := (q.head + 1) % 2 ^ 32, run := none }) _)).trans (withdraw_steady (1376 + c) _)
    exact .ite ((h _ _).trans (signalFrom_steady _ _ _ _ _ _)) (h _ _)

theorem dropOuvur_steady (c : Nat) (s : State) : Steady s (dropOuvur c s) :=
  (endTransfer_steady c 0x0521 s).trans ⟨rfl, rfl, rfl⟩

theorem haltMer_steady (keep : Bool) (s : State) : Steady s (haltMer keep s) :=
  ((Steady.setMer s _).wr rfl).wr rfl

theorem dropMer_steady (c : Nat) (s : State) : Steady s (dropMer c s) := .ite (haltMer_steady _ s) (.refl s)

theorem refreshSieve_steady (s : State) : Steady s (refreshSieve s) := ((Steady.refl s).wr rfl).wr rfl

theorem teardown_steady (c cause : Nat) (causing : List (Nat × Nat × Nat)) (s : State) :
    Steady s (teardown c cause causing s) := by
  unfold teardown
  refine .ite (.refl s) (Steady.trans ?_ (modCtx_steady _ _ _))
  refine Steady.trans ?_ (.foldl _ _ (fun x k => .ite ((modCourse_steady _ _ x).wr rfl) (.refl x)) _)
  refine Steady.trans ?_ (.setDay _ _)
  refine Steady.trans ?_ ((refreshSieve_steady _).trans ((dropInput_steady _ _).trans
    ((dropMer_steady _ _).trans (dropOuvur_steady _ _))))
  refine Steady.trans ?_ ((releaseHandles_steady _ _).trans (dropSieve_steady _ _))
  refine Steady.trans ?_ (.setRings _ _)
  refine Steady.trans ?_ (endDescs_steady _ _ _)
  refine ((Steady.refl s).wr rfl).trans (.foldl _ _ (fun x l => ?_) _)
  split
  · exact endLaunch_steady _ _ x
  · exact endLaunch_steady _ _ x

/-! ### Errors of the memory -/

theorem corrected_steady (a : Nat) (s : State) : Steady s (corrected a s) := by
  unfold corrected
  extract_lets k frame n own s0 mem s1
  have h0 : Steady s s0 := .ite ((Steady.refl s).wr rfl) (.refl s)
  have h1 : Steady s s1 := (h0.trans (.setMem s0 _)).wr rfl
  exact .ite ((h1.trans (.setMem s1 _)).trans (event_steady _ _ _ _ _ _ _)) h1

theorem markSlot_steady (k : Nat) (s : State) : Steady s (markSlot k s) := ⟨rfl, rfl, rfl⟩

theorem uncorrectable_steady (a : Nat) (was scrub : Bool) (causing : List (Nat × Nat × Nat)) (s : State) :
    Steady s (uncorrectable a was scrub causing s) := by
  unfold uncorrectable
  extract_lets k owner s1 body s2
  have h1 : Steady s s1 := ((Steady.refl s).wr rfl).wr rfl
  have h2 : Steady s s2 := h1.trans (.of_still (poisonLine_quiet _ s1))
  refine .ite h1 (.ite ?_ ?_)
  · exact h2.trans ((event_steady _ _ _ _ _ _ s2).trans (teardown_steady _ _ _ _))
  · exact h2.trans (Steady.trans (.ite (markSlot_steady _ s2) (.refl s2)) (event_steady _ _ _ _ _ _ _))

theorem report_steady (scrub : Bool) (causing : List (Nat × Nat × Nat)) (s : State) (f : Nat × Nat) :
    Steady s (report scrub causing s f) := by
  unfold report
  split
  · exact event_steady _ _ _ _ _ _ s
  · exact corrected_steady _ s
  · exact uncorrectable_steady _ _ _ _ s
  · exact uncorrectable_steady _ _ _ _ s

theorem settleFound_steady (scrub : Bool) (causing : List (Nat × Nat × Nat)) (s : State) :
    Steady s (settleFound scrub causing s) :=
  (Steady.foldl _ _ (fun x f => report_steady scrub causing x f) _).after rfl rfl rfl

theorem readMet_steady (p c a n : Nat) (causing : List (Nat × Nat × Nat)) (s : State) :
    Steady s (readMet p c a n causing s).2.2 := by
  have h := (settleFound_steady false [] s).trans (meetReads_steady (lineAddrs a n) _)
  unfold readMet
  dsimp only
  split
  · exact h.trans (settleFound_steady _ _ _)
  · exact h.trans ((event_steady _ _ _ _ _ _ _).trans (settleFound_steady _ _ _))

theorem readMem_steady (p c a n : Nat) (causing : List (Nat × Nat × Nat)) (s : State) :
    Steady s (readMem p c a n causing s).2.2 := by
  unfold readMem
  split
  · split
    · dsimp only
      split
      · exact (drainRange_steady _ _ s).trans (policeRange_steady _ _ _ _)
      · exact ((drainRange_steady _ _ s).trans (policeRange_steady _ _ _ _)).trans (readMet_steady _ _ _ _ _ _)
    · split
      · exact ⟨rfl, rfl, rfl⟩
      · exact .refl s
  · exact .refl s

/-! ### The bandwidth ledger -/

theorem dropEntry_steady (e : Nat) (s : State) : Steady s (dropEntry e s) := by
  unfold dropEntry
  exact ((Steady.ite (((Steady.refl s).wr rfl).wr rfl) ((Steady.refl s).wr rfl)).wr rfl).trans (event_steady _ _ _ _ _ _ _)

theorem shed_steady (beyond : State → Bool) (chargers : State → List Nat) (n : Nat) (s : State) :
    Steady s (shed beyond chargers n s) := by
  induction n generalizing s with
  | zero => exact .refl s
  | succ n ih =>
    rw [shed]
    split
    · split
      · exact (dropEntry_steady _ s).trans (ih _)
      · exact .refl s
    · exact .refl s

theorem fit_steady (beyond : State → Bool) (chargers : State → List Nat) (tag : Nat) (s : State) :
    Steady s (fit beyond chargers tag s) :=
  .ite ((shed_steady beyond chargers 80 s).trans (event_steady _ _ _ _ _ _ _)) (shed_steady beyond chargers 80 s)

theorem reevaluate_steady (s : State) : Steady s (reevaluate s) := by
  unfold reevaluate
  refine .ite (.refl s) (Steady.trans ?_ (.foldl _ _ (fun x k => ((Steady.refl x).wr rfl).wr rfl) _))
  exact (Steady.foldl _ _ (fun x _ => fit_steady _ _ _ x) s).trans (.foldl _ _ (fun x _ => fit_steady _ _ _ x) _)

end Sys2Proof.Machine
end

section
namespace Sys2Proof.Machine

open Reg

/-! ## The ways into and out of Night keep the lock of Dial time -/

/-! ### Courses that stop and switch -/

theorem tryPark_steady (i c : Nat) (s : State) : Steady s (tryPark i c s) := by
  unfold tryPark
  split
  · exact .refl s
  · exact .ite (((modInst_steady _ _ _ s).trans (restartWdog_steady _ _)).trans (refreshCourse_steady _ _)) (.refl s)

theorem withdrawWaits_steady (i c : Nat) (s : State) : Steady s (withdrawWaits i c s) := by
  unfold withdrawWaits
  split
  · exact .refl s
  · exact (Steady.setRings s _).trans (modInst_steady _ _ _ _)

theorem requestStop_steady (c : Nat) (s : State) : Steady s (requestStop c s) :=
  .foldl _ _ (fun x _ => .ite ((withdrawWaits_steady _ _ x).trans (tryPark_steady _ _ _)) (.refl x)) s

theorem releaseStaged_steady (c : Nat) (s : State) : Steady s (releaseStaged c s) := ⟨rfl, rfl, rfl⟩

theorem startSwitch_steady (c x : Nat) (w a : Option Nat) (s : State) : Steady s (startSwitch c x w a s) :=
  (((releaseStaged_steady c s).trans (modCourse_steady _ _ _)).wr rfl).trans (requestStop_steady _ _)

theorem passOn_steady (c x e : Nat) (s : State) : Steady s (passOn c x e s) := by
  have h := (modCourse_steady c (fun x => { x with preempt := true }) s).trans (requestStop_steady c _)
  unfold passOn
  split
  · exact .ite (.ite (.refl s) h) (startSwitch_steady _ _ _ _ s)
  · exact h

theorem endWatchOn_steady (i : Nat) (w : Watch) (s : State) (c : Nat) : Steady s (endWatchOn i w s c) := by
  unfold endWatchOn
  refine .ite (((modCourse_steady _ _ s).wr rfl).trans (passOn_steady _ _ _ _)) ?_
  extract_lets s1
  have h1 : Steady s s1 := .ite (((Steady.refl s).wr rfl).trans (event_steady _ _ _ _ _ _ _)) (.refl s)
  exact .ite (h1.trans (passOn_steady _ _ _ s1)) h1

theorem endWatch_steady (i : Nat) (s : State) : Steady s (endWatch i s) := by
  unfold endWatch
  split
  · exact .refl s
  · refine .ite (.refl s) (((passTo_steady _ s).trans (.setDay _ _)).trans (.foldl _ _ (fun x c => ?_) _))
    exact endWatchOn_steady _ _ x c

theorem nightStop_steady (s : State) : Steady s (nightStop s) := by
  unfold nightStop
  refine (Steady.foldl _ _ (fun x c => ?_) _).after rfl rfl rfl
  exact (((releaseStaged_steady c x).trans (modCourse_steady _ _ _)).wr rfl).trans (requestStop_steady _ _)

theorem nightHook_steady (s : State) : Steady s (nightHook s) := .ite (nightStop_steady s) (.refl s)

theorem nextPeriod_steady (s : State) : Steady s (nextPeriod s) := by
  unfold nextPeriod
  split
  · exact .refl s
  · refine Steady.trans ?_ (nightHook_steady _)
    exact (((Steady.foldl _ _ (fun x i => endWatch_steady i x) s).trans (passTo_steady _ _)).trans (.setDay _ _)).wr rfl

theorem reachNightStop_steady (s : State) : Steady s (reachNightStop s) := by
  have h := fun t k => (Steady.foldl (fun s _ => nextPeriod s) (List.range k) (fun x _ => nextPeriod_steady x) s).trans
    (passTo_steady t _)
  unfold reachNightStop
  exact .ite (.refl s) (.ite (h _ _) ((h _ _).trans (nightStop_steady _)))

/-! ### What is saved -/

theorem zeroCourse_steady (c : Nat) (s : State) : Steady s (zeroCourse c s) := ⟨rfl, rfl, rfl⟩

theorem saveState_steady (c : Nat) (s : State) : Steady s (saveState c s) :=
  .ite (zeroCourse_steady c s)
    (((writeMem'_steady _ _ _ _ s).trans (.setDay _ _)).trans (zeroCourse_steady _ _))

theorem saveCourses_steady (s : State) : Steady s (saveCourses s) := by
  unfold saveCourses
  refine .foldl _ _ (fun x c => (Steady.trans ?_ (modCourse_steady _ _ _)).wr rfl) s
  exact .ite ((teardown_steady _ _ _ x).trans (zeroCourse_steady _ _)) (saveState_steady _ x)

theorem saveTies_steady (s : State) : Steady s (saveTies s) := by
  unfold saveTies
  exact ((writeMem'_steady _ _ _ _ s).trans (.setKey _ _)).trans (.setRings _ _)

/-! ### What is restored -/

theorem modStack_steady (k : Nat) (f : StackState → StackState) (s : State) : Steady s (modStack k f s) := ⟨rfl, rfl, rfl⟩

theorem modIsland_steady (i : Nat) (f : Island → Island) (s : State) : Steady s (modIsland i f s) :=
  .ite ⟨rfl, rfl, rfl⟩ (.ite ⟨rfl, rfl, rfl⟩ (.refl s))

theorem startTimers_steady (s : State) : Steady s (startTimers s) := ⟨rfl, rfl, rfl⟩

theorem restoreTies_steady (s : State) : Steady s (restoreTies s) := by
  unfold restoreTies
  have h := readMem_steady 72 0xFF (com s NWT_NIGHT_SAVE.addr) tieSaveBytes [] s
  exact .ite h (h.trans (.foldl _ _ (fun x _ => setTie_steady _ _ x) _))

theorem wakeNotice_steady (s : State) (i : Nat) : Steady s (wakeNotice s i) := .ite (modIsland_steady _ _ s) (.refl s)

theorem resumePlan_steady (s : State) : Steady s (resumePlan s) := by
  unfold resumePlan
  split
  · exact .refl s
  · refine ((Steady.setDay s _).wr rfl).trans (.foldl _ _ (fun x c => ?_) _)
    split
    · exact .ite (startSwitch_steady _ _ _ _ x) (.refl x)
    · exact .refl x

theorem delayTests_steady (n : Nat) (s : State) : Steady s (delayTests n s) := .setFab s _

theorem noteUnreached_steady (s : State) : Steady s (noteUnreached s) :=
  .foldl _ _ (fun x _ => .ite (.refl x) (event_steady _ _ _ _ _ _ x)) s

theorem releaseCores_steady (s : State) : Steady s (releaseCores s) := .ite (.of_still (send_quiet _ _ s)) (.refl s)

end Sys2Proof.Machine
end

section
namespace Sys2Proof.Machine

open Reg

/-! ## Dawn keeps what Nightwatch noted of Dial time -/

/-! ### The start of Dawn -/

/-- Fields that are kept change registers alone. -/
theorem keepFields_frame (l : List (Field × Nat)) (old s : State) : ∃ g, keepFields l old s = { s with regs := g } := by
  unfold keepFields
  induction l generalizing s with
  | nil => exact ⟨s.regs, rfl⟩
  | cons a r ih =>
    obtain ⟨g, hg⟩ := ih (wr a.1 a.2 (rd old a.1 a.2) s)
    exact ⟨g, hg⟩

theorem mode_resetPackage (cold : Bool) (m : PkgMode) (s : State) : (resetPackage cold m s).mode = m := by
  obtain ⟨g, hg⟩ := keepFields_frame _ s _
  rw [resetPackage, hg]

/-- A reset that is not cold keeps the noted rate correction (R710). -/
theorem lockedRate_resetPackage_warm (m : PkgMode) (s : State) :
    (resetPackage false m s).nwt.lockedRate = s.nwt.lockedRate := by
  obtain ⟨g, hg⟩ := keepFields_frame _ s _
  rw [resetPackage, hg]
  rfl

theorem showDie_steady (n : Nat) (s : State) : Steady s (showDie n s) :=
  ((((Steady.refl s).wr rfl).wr rfl).wr rfl).trans (.foldl _ _ (fun x _ => (Steady.refl x).wr rfl) _)

theorem wrEnd_steady (die p : Nat) (f h : Field) (v : Nat) (s : State)
    (hf : decide (0x10008 < f.off) = true) (hh : decide (0x10008 < h.off) = true) : Steady s (wrEnd die p f h v s) := by
  refine (Steady.refl s).wr ?_
  unfold endField
  split <;> assumption

theorem beginTraining_steady (die p epoch : Nat) (s : State) : Steady s (beginTraining die p epoch s) := by
  have h := (((wrEnd_steady die p MTR_PORT_STATUS.state MTR_HUB_PORT_STATUS.state 1 s rfl rfl).trans
    (wrEnd_steady die p MTR_PORT_STATUS.epoch MTR_HUB_PORT_STATUS.epoch epoch _ rfl rfl)).trans
    (wrEnd_steady die p MTR_PORT_STATUS.width MTR_HUB_PORT_STATUS.width 0 _ rfl rfl)).trans
    (wrEnd_steady die p MTR_LANE_USE.rx_data MTR_HUB_LANE_USE.rx_data 0 _ rfl rfl)
  exact h.same rfl rfl rfl

/-- The package at step 1 of Dawn, before its ports train. -/
def dawnBegun (s : State) : State :=
  wr NWT_DAWN_STATUS.step 0 1 { modNwt (fun x => { x with waitWarm := false, dawnAt := now s }) s with mode := .dawn }

/-- The training of the ports keeps all this. -/
theorem dawnStep1_steady (s : State) : Steady (dawnBegun s) (dawnStep1 s) :=
  .foldl _ _ (fun x _ => .ite (.refl x) (beginTraining_steady _ _ _ x)) _

theorem dawnStep1_effect (s : State) : (dawnStep1 s).mode = .dawn ∧ (dawnStep1 s).nwt.lockedRate = s.nwt.lockedRate :=
  ⟨(dawnStep1_steady s).mode.trans rfl, (dawnStep1_steady s).lockedRate.trans rfl⟩

/-- What a Dawn shows of the Course dies and of its cause. -/
def dawnCause (kind : Nat) (lost : Bool) (s : State) : State :=
  wrB NWT_RESET_CAUSE.nightwatch_lost 0 lost (wr NWT_RESET_CAUSE.kind 0 kind ([1, 2, 3, 4].foldl (fun s n => showDie n s) s))

theorem dawnCause_steady (kind : Nat) (lost : Bool) (s : State) : Steady s (dawnCause kind lost s) :=
  ((Steady.foldl (fun s n => showDie n s) [1, 2, 3, 4] (fun x n => showDie_steady n x) s).wr rfl).wr rfl

/-- The start of a Dawn that is not cold samples no straps (R399, R710). -/
theorem beginDawn_warm {kind : Nat} (hk : 1 < kind) (straps : List Nat) (s : State) : beginDawn kind straps s =
    modNwt (fun x => { x with lost := false, deepExit := false })
      (dawnCause kind s.nwt.lost (resetPackage false .dawn s)) := by
  have hcold : decide (kind ≤ 1) = false := by simpa using hk
  have hzero : kind ≠ 0 := by omega
  unfold beginDawn dawnCause
  simp only [hcold, hzero, if_false, Bool.false_eq_true]

theorem lockedRate_dawnBegins (s : State) :
    (modNwt (fun x => { x with lost := false, deepExit := false }) s).nwt.lockedRate = s.nwt.lockedRate := rfl

/-- A Dawn that is not cold keeps the noted rate correction. -/
theorem lockedRate_beginDawn_warm {kind : Nat} (hk : 1 < kind) (straps : List Nat) (s : State) :
    (beginDawn kind straps s).nwt.lockedRate = s.nwt.lockedRate := by
  rw [beginDawn_warm hk, lockedRate_dawnBegins, (dawnCause_steady _ _ _).lockedRate, lockedRate_resetPackage_warm]

/-! ### The steps of Dawn -/

theorem modKey_steady (f : KeyState → KeyState) (s : State) : Steady s (modKey f s) := ⟨rfl, rfl, rfl⟩

theorem record_steady (kind : Nat) (a : Act) (s : State) : Steady s (record kind a s) := by
  unfold record
  exact ((Steady.setKey s _).wr rfl).trans (event_steady _ _ _ _ _ _ _)

theorem reloadRecord_steady (r : DawnReport) (s : State) : Steady s (reloadRecord r s) := by
  unfold reloadRecord
  refine Steady.trans ?_ (record_steady _ _ _)
  refine Steady.trans ?_ (.ite (event_steady _ _ _ _ _ _ _) (.refl _))
  exact .ite (modKey_steady _ s) (.refl s)

theorem refreshKey_steady (s : State) : Steady s (refreshKey s) := (((Steady.refl s).wr rfl).wr rfl).wr rfl

theorem drawChallenge_steady (s : State) : Steady s (drawChallenge s) :=
  .foldl _ _ (fun x _ => (Steady.setFresh x (x.fresh + 1)).wr rfl) s

theorem showTrained_steady (up : Nat) (s : State) : Steady s (showTrained up s) :=
  .foldl _ _ (fun x _ => (Steady.refl x).wr rfl) s

theorem readSteppings_steady (s : State) : Steady s (readSteppings s) := by
  unfold readSteppings
  extract_lets maj mnr code cap s1
  have h1 : Steady s s1 := (((((Steady.refl s).wrNe rfl).wrNe rfl).wrNe rfl).wrNe rfl).wrNe rfl
  exact .ite h1 (h1.trans (event_steady _ _ _ _ _ _ s1))

theorem startIsland_steady (i : Nat) (s : State) : Steady s (startIsland i s) := (modIsland_steady _ _ s).wrDie rfl

theorem showInject_steady (r : DawnReport) (i : Nat) (s : State) : Steady s (showInject r i s) :=
  ((((Steady.refl s).wrDie rfl).wrDie rfl).wrDie rfl).wrDie rfl

theorem loadPack_steady (p : Pack) (s : State) : Steady s (loadPack p s) :=
  .foldl _ _ (fun x _ => writeMem'_steady _ _ _ _ x) s

theorem refreshTest_steady (s : State) : Steady s (refreshTest s) := ((Steady.refl s).wr rfl).wr rfl

theorem showPacks_steady (s : State) : Steady s (showPacks s) := by
  unfold showPacks
  exact ((Steady.foldl _ _ (fun x _ => (((Steady.refl x).wr rfl).wr rfl).wr rfl) s).wr rfl).trans (refreshTest_steady _)

theorem drawRegionKeys_steady (s : State) : Steady s (drawRegionKeys s) := .setMem s _

theorem dawnMap_steady (s : State) : Steady s (dawnMap s) := by
  unfold dawnMap
  refine Steady.trans ?_ (showPacks_steady _)
  exact ((Steady.setMem s _).trans (drawRegionKeys_steady _)).trans (.foldl _ _ (fun x p => loadPack_steady p x) _)

theorem powerOn_steady (s : State) : Steady s (powerOn s) := by
  have h := (Steady.foldl (fun s d => setDomain d true s) (List.range 100) (fun x d => setDomain_steady d true x) s).trans
    (startTimers_steady _)
  exact .ite (h.trans (.setFab _ _)) h

/-! ### The release -/

theorem holdState_steady (i st : Nat) (s : State) : Steady s (holdState i st s) :=
  .ite (.refl s) (((Steady.refl s).wrDie rfl).trans (modIsland_steady _ _ _))

theorem noteCause_steady (i cause : Nat) (s : State) : Steady s (noteCause i cause s) := ((Steady.refl s).wrDie rfl).wrDie rfl

theorem commandState_steady (i st cause who : Nat) (s : State) : Steady s (commandState i st cause who s) := by
  unfold commandState
  refine .ite (.refl s) ?_
  have h : ∀ x, Steady x (if cause = 0x28 ∧ (!hasCause s i cause) = true then event 0x0C22 i 0xFF i 2 [] x else x) :=
    fun x => .ite (event_steady _ _ _ _ _ _ x) (.refl x)
  refine Steady.trans ?_ (h _)
  refine Steady.trans ?_ (.ite (event_steady _ _ _ _ _ _ _) (.ite (event_steady _ _ _ _ _ _ _) (.refl _)))
  refine Steady.trans ?_ (.of_still (send_quiet _ _ _))
  refine Steady.trans ?_ (.ite (.setIsl _ _) (.refl _))
  refine Steady.trans ?_ (.ite (.refl _) (modIsland_steady _ _ _))
  exact (noteCause_steady _ _ s).trans (holdState_steady _ _ _)

/-- What every island is commanded in turn. -/
theorem commandAll_steady (up : List Nat) (cause who : Nat) (s : State) :
    Steady s (up.foldl (fun s i => commandState i 1 cause who s) s) :=
  .foldl _ _ (fun x _ => commandState_steady _ _ _ _ x) s

/-- A release puts the package in run, and beyond that keeps what a step of Dawn keeps. -/
theorem releasePackage_steady (up : List Nat) (s : State) : Steady { s with mode := .run } (releasePackage up s) := by
  unfold releasePackage
  extract_lets s1 s2 s3
  have h1 : Steady { s with mode := .run } s1 := .foldl _ _ (fun x i => ((modIsland_steady _ _ x).wrDie rfl).wrDie rfl) _
  have h2 : Steady s1 s2 := by
    simp only [s2]
    split
    · exact commandAll_steady _ _ _ s1
    · exact .refl s1
  have h3 : Steady s2 s3 := .ite (.refl s2) (.foldl _ _ (fun x _ => commandState_steady _ _ _ _ x) s2)
  refine (h1.trans (h2.trans h3)).trans ?_
  split
  · exact commandAll_steady _ _ _ s3
  · exact .refl s3

end Sys2Proof.Machine
end

section
namespace Sys2Proof.Machine

open Reg

/-! ## What step 5 of Dawn looks at -/

/-- The registers that step 5 looks at: the strap faults, and the ports of the Course dies and of the hub (R712). -/
def step5Key (k : Nat) : Prop := ∃ n, 1 ≤ n ∧ n ≤ 4 ∧ (k = fkey MTR_DIE_ID.strap_fault (dieBase n) ∨
  k = fkey MTR_PORT_STATUS.state (portAt n 2) ∨ k = fkey MTR_HUB_PORT_STATUS.state ((n - 1) * 0x40))

theorem step5Key_bounds {k : Nat} (h : step5Key k) : reportFloor < k ∧ ¬ reportKey k := by
  obtain ⟨n, h1, h4, h⟩ := h
  simp only [reportFloor, reportKey, retryKey, fkey, portAt, dieBase, MTR_DIE_ID.strap_fault, MTR_PORT_STATUS.state,
    MTR_HUB_PORT_STATUS.state, HST_EVT_DROP_COUNT.drops, HST_DEV_EQ_TAIL.tail, PLB_PORT_STATE.over_rate,
    HBM_CRC_RETRY_COUNT.retries, HST_CTX_STATE.stopped] at h ⊢
  refine ⟨by omega, ?_⟩
  rintro (e | e | e | ⟨d, e⟩ | ⟨c, -, e⟩) <;> omega

/-- What changes none of the registers that step 5 looks at. -/
def KeepsStep5 (s t : State) : Prop := ∀ k d, step5Key k → aget t.regs.live k d = aget s.regs.live k d

namespace KeepsStep5

variable {s t u : State}

protected theorem refl (s : State) : KeepsStep5 s s := fun _ _ _ => rfl

protected theorem trans (h : KeepsStep5 s t) (g : KeepsStep5 t u) : KeepsStep5 s u :=
  fun k d x => (g k d x).trans (h k d x)

theorem foldl {α : Type} (f : State → α → State) (l : List α) (hf : ∀ x, ∀ a ∈ l, KeepsStep5 x (f x a)) (s : State) :
    KeepsStep5 s (l.foldl f s) := by
  induction l generalizing s with
  | nil => exact KeepsStep5.refl s
  | cons a r ih => exact (hf s a List.mem_cons_self).trans (ih (fun x b hb => hf x b (List.mem_cons_of_mem _ hb)) (f s a))

theorem ite {c : Prop} [Decidable c] (ht : KeepsStep5 s t) (hu : KeepsStep5 s u) : KeepsStep5 s (if c then t else u) := by
  split <;> assumption

theorem wr (h : KeepsStep5 s t) {f : Field} {a v : Nat} (hf : ¬ step5Key (fkey f a)) :
    KeepsStep5 s (Machine.wr f a v t) :=
  h.trans (fun _ _ x => aget_aset_ne _ _ _ _ _ _ (fun e => hf (e ▸ x)))

/-- A change of no register comes first. -/
theorem after (h : KeepsStep5 t u) (hr : t.regs = s.regs) : KeepsStep5 s u :=
  fun k d x => (h k d x).trans (by rw [hr])

theorem of_quiet (h : Quiet reportKey s t) : KeepsStep5 s t := fun k d x => h.live k d (step5Key_bounds x).2

theorem toRd (h : KeepsStep5 s t) {f : Field} {a : Nat} (x : step5Key (fkey f a)) : rd t f a = rd s f a := h _ _ x

/-- Step 5 finds the same in both. -/
theorem step5Fails_eq (h : KeepsStep5 s t) (r : DawnReport) : step5Fails r t = step5Fails r s := by
  have hstrap : ∀ n, 1 ≤ n → n ≤ 4 → rdB t MTR_DIE_ID.strap_fault (dieBase n) = rdB s MTR_DIE_ID.strap_fault (dieBase n) :=
    fun n h1 h4 => congrArg (· == 1) (h.toRd ⟨n, h1, h4, .inl rfl⟩)
  have hport : ∀ n, 1 ≤ n → n ≤ 4 → portState t n 2 = portState s n 2 :=
    fun n h1 h4 => h.toRd ⟨n, h1, h4, .inr (.inl rfl)⟩
  have hhub : ∀ n, 1 ≤ n → n ≤ 4 → hubPortState t n = hubPortState s n :=
    fun n h1 h4 => h.toRd ⟨n, h1, h4, .inr (.inr rfl)⟩
  simp [step5Fails, hstrap, hport, hhub]

end KeepsStep5

/-- The registers of Keystone and above on the hub's die are none of step 5's. -/
theorem not_step5Key_of_key {k : Nat} (h : 0x1300000 * 64 ≤ k) (g : k < 0x10000000 * 64) : ¬ step5Key k := by
  rintro ⟨n, h1, h4, e⟩
  simp only [fkey, portAt, dieBase, MTR_DIE_ID.strap_fault, MTR_PORT_STATUS.state, MTR_HUB_PORT_STATUS.state] at e
  omega

theorem not_step5Key_trained (n : Nat) : ¬ step5Key (fkey HBM_STATUS.trained (dieBase n)) := by
  rintro ⟨m, h1, h4, e⟩
  simp only [fkey, portAt, dieBase, MTR_DIE_ID.strap_fault, MTR_PORT_STATUS.state, MTR_HUB_PORT_STATUS.state,
    HBM_STATUS.trained] at e
  omega

theorem event_keepsStep5 (st die ctx unit sev : Nat) (p : List Nat) (s : State) :
    KeepsStep5 s (event st die ctx unit sev p s) := .of_quiet (event_quiet _ _ _ _ _ _ s)

theorem dialWrite_keepsStep5 (v : Nat) (s : State) : KeepsStep5 s (wr NWT_DIAL_NOW.dial_ns 0 v s) :=
  (KeepsStep5.refl s).wr (fun x => absurd (step5Key_bounds x).1 (by decide))

theorem passTo_keepsStep5 (t : Nat) (s : State) : KeepsStep5 s (passTo t s) := by
  unfold passTo
  refine .ite (.ite ?_ ?_) (.refl s)
  · exact (dialWrite_keepsStep5 _ _).after rfl
  · exact (dialWrite_keepsStep5 _ _).after rfl

theorem record_keepsStep5 (kind : Nat) (a : Act) (s : State) : KeepsStep5 s (record kind a s) := by
  have h : ∀ x, KeepsStep5 x (wr KEY_REC_SEQ.seq 0 s.key.nextSeq x) :=
    fun x => (KeepsStep5.refl x).wr (not_step5Key_of_key (by decide) (by decide))
  unfold record
  refine KeepsStep5.trans ?_ (event_keepsStep5 _ _ _ _ _ _ _)
  exact (h _).after rfl

theorem reloadRecord_keepsStep5 (r : DawnReport) (s : State) : KeepsStep5 s (reloadRecord r s) := by
  unfold reloadRecord
  extract_lets n s1 newest mon behind lostTail bad s2
  have h1 : KeepsStep5 s s1 := .ite (.refl s) (.refl s)
  have h2 : KeepsStep5 s1 s2 := .ite (event_keepsStep5 _ _ _ _ _ _ s1) (.refl s1)
  exact (h1.trans h2).trans (record_keepsStep5 _ _ s2)

theorem refreshKey_keepsStep5 (s : State) : KeepsStep5 s (refreshKey s) :=
  (((KeepsStep5.refl s).wr (not_step5Key_of_key (by decide) (by decide))).wr
    (not_step5Key_of_key (by decide) (by decide))).wr (not_step5Key_of_key (by decide) (by decide))

theorem drawChallenge_keepsStep5 (s : State) : KeepsStep5 s (drawChallenge s) := by
  refine KeepsStep5.foldl _ _ (fun x k hk => ?_) s
  have hk4 : k < 4 := List.mem_range.mp hk
  have h : ¬ step5Key (fkey KEY_CHALLENGE.challenge (8 * k)) := by
    refine not_step5Key_of_key ?_ ?_ <;> simp only [fkey, KEY_CHALLENGE.challenge] <;> omega
  exact (KeepsStep5.refl x).wr h

theorem showTrained_keepsStep5 (up : Nat) (s : State) : KeepsStep5 s (showTrained up s) :=
  .foldl _ _ (fun x n _ => (KeepsStep5.refl x).wr (not_step5Key_trained n)) s

/-! ## Dawn that is released -/

/-- A boot configuration put in force. -/
def withBoot (b : BootConfig) (s : State) : State := modNwt (fun x => { x with boot := b }) s

theorem withBoot_steady (b : BootConfig) (s : State) : Steady s (withBoot b s) := ⟨rfl, rfl, rfl⟩

theorem withBoot_keepsStep5 (b : BootConfig) (s : State) : KeepsStep5 s (withBoot b s) := fun _ _ _ => rfl

/-- The package at the end of Dawn's report, with the boot configuration in force (R712, R714). -/
def dawnBooted (r : DawnReport) (s : State) : State :=
  withBoot (if decide (s.key.lifecycle ≤ 1) then makerBoot else bootOf (imageBody r.config))
    (passTo (s.nwt.dawnAt + r.ms * 1000000) s)

/-- The package at step 5 of Dawn. -/
def dawnFound (r : DawnReport) (s : State) : State :=
  showTrained r.stacksUp (drawChallenge (refreshKey (reloadRecord r (dawnBooted r s))))

/-- The package at step 6 of Dawn, with its islands started. -/
def dawnStarted (r : DawnReport) (s : State) : State :=
  (islandsStarting r s).foldl (fun s i => showInject r i (startIsland i s)) (readSteppings (dawnFound r s))

theorem dawnFound_keepsStep5 (r : DawnReport) (s : State) : KeepsStep5 s (dawnFound r s) := by
  have h : KeepsStep5 s (dawnBooted r s) := (passTo_keepsStep5 _ s).trans (withBoot_keepsStep5 _ _)
  exact (((h.trans (reloadRecord_keepsStep5 r _)).trans (refreshKey_keepsStep5 _)).trans
    (drawChallenge_keepsStep5 _)).trans (showTrained_keepsStep5 _ _)

theorem dawnBooted_steady (r : DawnReport) (s : State) : Steady s (dawnBooted r s) :=
  (passTo_steady _ s).trans (withBoot_steady _ _)

theorem dawnStarted_steady (r : DawnReport) (s : State) : Steady s (dawnStarted r s) := by
  have h : Steady s (dawnFound r s) := ((((dawnBooted_steady r s).trans (reloadRecord_steady r _)).trans
    (refreshKey_steady _)).trans (drawChallenge_steady _)).trans (showTrained_steady _ _)
  exact (h.trans (readSteppings_steady _)).trans
    (.foldl _ _ (fun x i => (startIsland_steady i x).trans (showInject_steady r i _)) _)

/-- Time that passes changes registers and clocks alone. -/
theorem passTo_frame (t : Nat) (s : State) : ∃ g c, passTo t s = { s with regs := g, clock := c } := by
  unfold passTo
  split
  · split
    · exact ⟨_, _, passTicks_frame _ s⟩
    · exact ⟨_, _, pass_frame _ s⟩
  · exact ⟨s.regs, s.clock, rfl⟩

/-- A boot configuration is verified against Keystone's state, not against registers and clocks. -/
theorem configOk_frame (g : RegFile) (c : ClockState) (s : State) (img : List Nat) :
    configOk { s with regs := g, clock := c } img = configOk s img := rfl

theorem configOk_passTo (t : Nat) (s : State) (img : List Nat) : configOk (passTo t s) img = configOk s img := by
  obtain ⟨g, c, h⟩ := passTo_frame t s
  rw [h, configOk_frame]

/-- A Dawn in which every step succeeds ends in its release (R712). -/
theorem execDawnComplete_released {r : DawnReport} {s : State} (hmode : s.mode = .dawn)
    (hheld : rdB s NWT_DAWN_STATUS.held = false) (hwarm : s.nwt.waitWarm = false) (hports : portsTraining s = false)
    (hup : islandsStarting r s ≠ []) (hfw : r.firmware = true) (hstore : r.storeVersion = s.key.fusesBurnt)
    (hboot : s.key.lifecycle ≤ 1 ∨ configOk s r.config = true) (hstacks : r.stacksUp % 16 = 15)
    (hstep5 : step5Fails r s = false) (hinject : r.firstFailed = none) :
    execDawnComplete r s = .next (finishDawn r (islandsStarting r s) (dawnStarted r s)) := by
  have h5 : step5Fails r (dawnFound r s) = false := ((dawnFound_keepsStep5 r s).step5Fails_eq r).trans hstep5
  have hstart : ¬ (s.mode ≠ .dawn ∨ rdB s NWT_DAWN_STATUS.held = true ∨ s.nwt.waitWarm = true ∨ portsTraining s = true ∨
      (islandsStarting r s).isEmpty = true) := by
    simp [hmode, hheld, hwarm, hports, hup]
  have hconfig : ¬ ((!decide (s.key.lifecycle ≤ 1) &&
      !configOk (passTo (s.nwt.dawnAt + r.ms * 1000000) s) r.config) = true) := by
    rw [configOk_passTo]
    rcases hboot with h | h <;> simp [h]
  unfold execDawnComplete
  dsimp only
  rw [if_neg hstart, if_neg (by simp [hfw]), if_neg (by simp [hstore]), if_neg hconfig, if_neg (by simp [hstacks])]
  change Host.Outcome.next (if step5Fails r (dawnFound r s) = true then _ else
    if r.firstFailed.isSome = true then _ else finishDawn r (islandsStarting r s) (dawnStarted r s)) = _
  rw [if_neg (by simp [h5]), if_neg (by simp [hinject])]

/-- What was noted of a locked Dial time is taken up again in holdover (R34). -/
theorem resumeDial_effect {s : State} {x : Int} (h : s.nwt.lockedRate = some x) :
    (resumeDial s).mode = s.mode ∧ rd (resumeDial s) NWT_DIAL_STATUS.sync_state = 3 ∧ (resumeDial s).clock.rate = x := by
  unfold resumeDial
  rw [h]
  refine ⟨(setSync_quiet 3 _).toMode, rd_setSync 3 _ (by decide), ?_⟩
  rw [clock_setSync]
  rfl

/-- The package in run, before what Nightwatch noted is taken up. -/
def dawnReleased (up : List Nat) (s : State) : State :=
  releaseCores (releasePackage up { powerOn (dawnMap s) with silent := [] })

theorem dawnReleased_effect (up : List Nat) (s : State) :
    (dawnReleased up s).mode = .run ∧ (dawnReleased up s).nwt.lockedRate = s.nwt.lockedRate := by
  have h := (dawnMap_steady s).trans (powerOn_steady _)
  have g := (releasePackage_steady up { powerOn (dawnMap s) with silent := [] }).trans (releaseCores_steady _)
  exact ⟨g.mode, g.lockedRate.trans h.lockedRate⟩

/-- The registers of Dawn after it, and what is reported of a thermal trip (R674, R711). -/
def dawnShown (r : DawnReport) (s : State) : State :=
  let t := wrB NWT_DAWN_STATUS.ready 0 true (wr NWT_DAWN_STATUS.step 0 8 (wr NWT_DAWN_TIME.ms 0 (satTo r.ms 0xFFFF) s))
  if rdB t PWR_STATUS.trip_seen then event 0x0E40 0 0xFF 0 1 [] t else t

theorem dawnShown_steady (r : DawnReport) (s : State) : Steady s (dawnShown r s) := by
  unfold dawnShown
  extract_lets t
  have h : Steady s t := (((Steady.refl s).wr rfl).wr rfl).wr rfl
  exact .ite (h.trans (event_steady _ _ _ _ _ _ t)) h

theorem clock_dawnShown (r : DawnReport) (s : State) : (dawnShown r s).clock = s.clock := by
  unfold dawnShown
  dsimp only
  split
  · rw [clock_event]
    rfl
  · rfl

/-- A Dawn that is released takes up what was noted and is reported (R711). -/
theorem finishDawn_eq (r : DawnReport) (up : List Nat) (s : State) :
    ∃ p, finishDawn r up s = event 0x1030 0 0xFF 0 0 p (dawnShown r (resumeDial (dawnReleased up s))) := ⟨_, rfl⟩

/-- The release at the end of Dawn puts a Dial time that was locked in holdover, with its last rate correction (R34). -/
theorem finishDawn_resumes {r : DawnReport} {up : List Nat} {s : State} {x : Int} (h : s.nwt.lockedRate = some x) :
    (finishDawn r up s).mode = .run ∧ rd (finishDawn r up s) NWT_DIAL_STATUS.sync_state = 3 ∧
      (finishDawn r up s).clock.rate = x := by
  obtain ⟨hrun, hnoted⟩ := dawnReleased_effect up s
  obtain ⟨hmode, hsync, hrate⟩ := resumeDial_effect (hnoted.trans h)
  obtain ⟨p, he⟩ := finishDawn_eq r up s
  have hs := (dawnShown_steady r (resumeDial (dawnReleased up s))).trans (event_steady 0x1030 0 0xFF 0 0 p _)
  rw [he]
  refine ⟨hs.mode.trans (hmode.trans hrun), hs.sync.trans hsync, ?_⟩
  rw [clock_event, clock_dawnShown, hrate]

/-- The rise of PWR_GOOD starts a Dawn that is not cold, and what Nightwatch noted stays (R34, R706). -/
theorem execPwrGoodRise_warm {s : State} (straps : List Nat) {n : Nat} (hgood : rdB s NWT_INPUT_STATE.pwr_good = false)
    (hsupply : s.nwt.supply = true) (htrip : s.power.tripped = false) (hlost : s.nwt.lost = false) (hn : 16 ≤ n) :
    ∃ t, execPwrGoodRise straps n s = .next t ∧ t.mode = .dawn ∧ t.nwt.lockedRate = s.nwt.lockedRate := by
  have hkind : 1 < (if s.nwt.deepExit = true then 5 else 4) := by split <;> decide
  have hlow : ¬ (rdB s NWT_INPUT_STATE.pwr_good = true ∨ (!s.nwt.supply) = true ∨ (!filtered 16 n) = true) := by
    simp [hgood, hsupply, filtered, hn]
  obtain ⟨hdawn, hnoted⟩ := dawnStep1_effect
    (beginDawn (if s.nwt.deepExit = true then 5 else 4) straps (wrB NWT_INPUT_STATE.pwr_good 0 true s))
  refine ⟨_, ?_, hdawn, hnoted.trans (lockedRate_beginDawn_warm hkind straps _)⟩
  unfold execPwrGoodRise
  dsimp only
  rw [if_neg hlow, if_neg (by simp [htrip]), if_neg (by simp [hlost])]

/-! ## Night and back -/

/-- The package with all cleared that goes with the supplies, and the setup of Night kept (R710, R725). -/
def deepReset (s : State) : State :=
  let t := resetPackage false .deepNight s
  nightFields.foldl (fun u fa => wrCom fa.1 fa.2 (com s fa.1 fa.2) u) { t with power := { t.power with enMain := false } }

theorem enterDeepNight_eq (s : State) : enterDeepNight s = modNwt (fun x => { x with
    nightAt := now s
    lockedRate := if rd s NWT_DIAL_STATUS.sync_state = 2 then some s.clock.rate else none }) (deepReset s) := rfl

theorem mode_foldl_wrCom (l : List (Field × Nat)) (v : Field × Nat → Nat) (s : State) :
    (l.foldl (fun u fa => wrCom fa.1 fa.2 (v fa) u) s).mode = s.mode := by
  induction l generalizing s with
  | nil => rfl
  | cons a r ih => exact ih _

theorem mode_deepReset (s : State) : (deepReset s).mode = .deepNight := by
  unfold deepReset
  rw [mode_foldl_wrCom nightFields (fun fa => com s fa.1 fa.2)]
  exact mode_resetPackage false .deepNight s

theorem mode_modNwt (f : NwtState → NwtState) (s : State) : (modNwt f s).mode = s.mode := rfl

theorem nwt_modNwt (f : NwtState → NwtState) (s : State) : (modNwt f s).nwt = f s.nwt := rfl

/-- Deep Night keeps the rate correction of a Dial time that was locked (R34). -/
theorem enterDeepNight_notes {s : State} (h : rd s NWT_DIAL_STATUS.sync_state = 2) :
    (enterDeepNight s).mode = .deepNight ∧ (enterDeepNight s).nwt.lockedRate = some s.clock.rate := by
  rw [enterDeepNight_eq, mode_modNwt, nwt_modNwt, if_pos h]
  exact ⟨mode_deepReset s, rfl⟩

/-- The entry into Deep Night of a package at rest (R721, R725). -/
theorem execNightEntryComplete_deep {s : State} (hmode : s.mode = .nightEntry) (hdie : s.partialDie = none)
    (hwake : s.nwt.wake = none) (htarget : s.nwt.target = 2) (hidle : coursesBusy (reachNightStop s) = false) :
    execNightEntryComplete s = .next (enterDeepNight (saveTies (saveCourses (reachNightStop s)))) := by
  unfold execNightEntryComplete
  dsimp only
  rw [if_neg (by simp [hmode, hdie]), if_neg (by simp [hidle]), if_pos htarget, hwake]

/-- The package that has returned from Night, before its Dial time is looked at. -/
def nightLeft (s : State) : State :=
  noteUnreached (delayTests (now s - s.nwt.nightAt) (reevaluate (resumePlan ([5, 6].foldl wakeNotice (restoreTies
    ([0, 1, 2, 3].foldl (fun t k => modStack k (fun x => { x with
      roundStart := some (now t), roundEnd := some (now t), phase := 0 }) t)
      (startTimers ((List.range 100).foldl (fun s d => setDomain d true s)
        { s with mode := .run, power := { s.power with sleep := [] } }))))))))

theorem nightLeft_steady (s : State) :
    Steady { s with mode := .run, power := { s.power with sleep := [] } } (nightLeft s) := by
  unfold nightLeft
  refine Steady.trans ?_ ((reevaluate_steady _).trans ((delayTests_steady _ _).trans (noteUnreached_steady _)))
  refine Steady.trans ?_ (resumePlan_steady _)
  refine Steady.trans ?_ ((restoreTies_steady _).trans (.foldl _ _ wakeNotice_steady _))
  refine Steady.trans ?_ (.foldl _ _ (fun x k => modStack_steady k _ x) _)
  exact (Steady.foldl _ _ (fun x d => setDomain_steady d true x) _).trans (startTimers_steady _)

theorem execNightExitComplete_eq {s : State} (hmode : s.mode = .nightExit) (hports : portsTraining s = false) :
    ∃ ms, execNightExitComplete s = .next (event 0x1031 0 0xFF 0 0 (leBytes 4 ms) (wr NWT_NIGHT_TIME.ms 0 ms
      (wrB NWT_NIGHT_STATUS.busy 0 false (releaseCores (if rd (nightLeft s) NWT_DIAL_STATUS.sync_state = 2
        then setSync 3 (nightLeft s) else nightLeft s))))) := by
  unfold execNightExitComplete
  dsimp only
  rw [if_neg (by simp [hmode, hports])]
  exact ⟨_, rfl⟩

/-- The return from Night puts a Dial time that was locked in holdover (R34). -/
theorem execNightExitComplete_locked {s : State} (hmode : s.mode = .nightExit) (hports : portsTraining s = false)
    (hlock : rd s NWT_DIAL_STATUS.sync_state = 2) :
    ∃ t, execNightExitComplete s = .next t ∧ t.mode = .run ∧ rd t NWT_DIAL_STATUS.sync_state = 3 := by
  obtain ⟨ms, he⟩ := execNightExitComplete_eq hmode hports
  have hleft := nightLeft_steady s
  rw [if_pos (hleft.sync.trans hlock)] at he
  have h := (((releaseCores_steady (setSync 3 (nightLeft s))).wr (f := NWT_NIGHT_STATUS.busy) (a := 0) (v := b2n false) rfl).wr
    (f := NWT_NIGHT_TIME.ms) (a := 0) (v := ms) rfl).trans (event_steady 0x1031 0 0xFF 0 0 (leBytes 4 ms) _)
  refine ⟨_, he, ?_, h.sync.trans (rd_setSync 3 _ (by decide))⟩
  exact h.mode.trans ((setSync_quiet 3 _).toMode.trans hleft.mode)

/-- One tick of the crystal in Night, with its fraction carried (R34). -/
theorem passTicks_one_effect {s : State} (h : dial s + (s.clock.nightFrac + 1000000000) / 32768 < 2 ^ 64) :
    dial (passTicks 1 s) * 32768 + (passTicks 1 s).clock.nightFrac = dial s * 32768 + s.clock.nightFrac + 1000000000 ∧
      (passTicks 1 s).clock.nightFrac < 32768 := by
  rw [dial_passTicks_one h, nightFrac_passTicks_one]
  omega

/-- Settles O58: the tick, the idle package in Night, and the ways back to run, from Night and through Deep Night. -/
theorem nightCountsCrystalTicks : Obligations.NightCountsCrystalTicks := by
  unfold Obligations.NightCountsCrystalTicks
  refine ⟨?_, ?_, ?_, ?_, ?_, ?_⟩
  · intro s hm hd
    obtain ⟨hsum, hfrac⟩ := passTicks_one_effect hd
    exact ⟨passTicks 1 s, execNightwatchTick_ticking hm, hsum, hfrac, passTicks_frame 1 s,
      fun k d hk => passTicks_live 1 s k d hk⟩
  · intro s hm hp
    rw [step_nil hp, idle_still (.inr (.inr hm))]
  · intro s hmode hports hlock
    exact execNightExitComplete_locked hmode hports hlock
  · intro s hmode hdie hwake htarget hidle hlock
    have h := ((reachNightStop_steady s).trans (saveCourses_steady _)).trans (saveTies_steady _)
    obtain ⟨hdeep, hnoted⟩ := enterDeepNight_notes (h.sync.trans hlock)
    exact ⟨_, execNightEntryComplete_deep hmode hdie hwake htarget hidle, hdeep, by rw [hnoted]; rfl⟩
  · intro s straps n hgood hsupply htrip hlost hn
    exact execPwrGoodRise_warm straps hgood hsupply htrip hlost hn
  · intro s r x hnoted hmode hheld hwarm hports hup hfw hstore hboot hstacks hstep5 hinject
    exact ⟨_, execDawnComplete_released hmode hheld hwarm hports hup hfw hstore hboot hstacks hstep5 hinject,
      finishDawn_resumes ((dawnStarted_steady r s).lockedRate.trans hnoted)⟩

end Sys2Proof.Machine
end

section
namespace Sys2Proof.Machine

open Reg

/-! ## Changes that stay with the launches and the Courses -/

/-- From s to t only the launches on the fabric have changed. -/
def OnlyLaunches (s t : State) : Prop := t = { s with fab := { s.fab with launches := t.fab.launches } }

namespace OnlyLaunches

variable {s t u : State}

protected theorem refl (s : State) : OnlyLaunches s s := rfl

protected theorem trans (h : OnlyLaunches s t) (g : OnlyLaunches t u) : OnlyLaunches s u := by
  unfold OnlyLaunches at h g ⊢
  rw [g, h]

theorem frame (h : OnlyLaunches s t) : t = { s with fab := t.fab } := by
  unfold OnlyLaunches at h
  rw [h]

theorem bed (h : OnlyLaunches s t) : t.fab.bed = s.fab.bed := congrArg (·.fab.bed) h
theorem hod (h : OnlyLaunches s t) : t.fab.hod = s.fab.hod := congrArg (·.fab.hod) h
theorem acc (h : OnlyLaunches s t) : t.fab.acc = s.fab.acc := congrArg (·.fab.acc) h

end OnlyLaunches

theorem modInst_onlyLaunches (id c : Nat) (f : Inst → Inst) (s : State) : OnlyLaunches s (modInst id c f s) := rfl

theorem setRole_onlyLaunches (x : Site) (f : Role → Role) (s : State) : OnlyLaunches s (setRole x f s) := rfl

theorem addCycles_onlyLaunches (x : Site) (n : Nat) (s : State) : OnlyLaunches s (addCycles x n s) := rfl

theorem noteArith_onlyLaunches (x : Site) (n : Nat) (s : State) : OnlyLaunches s (noteArith x n s) := rfl

theorem goOn_onlyLaunches (x : Site) (s : State) : OnlyLaunches s (goOn x s) := rfl

/-- From s to t only registers, launches and Courses have changed. -/
def OnlyCourses (s t : State) : Prop :=
  t = { s with regs := t.regs, fab := { s.fab with launches := t.fab.launches, courses := t.fab.courses } }

namespace OnlyCourses

variable {s t u : State}

protected theorem refl (s : State) : OnlyCourses s s := rfl

protected theorem trans (h : OnlyCourses s t) (g : OnlyCourses t u) : OnlyCourses s u := by
  unfold OnlyCourses at h g ⊢
  rw [g, h]

theorem bed (h : OnlyCourses s t) : t.fab.bed = s.fab.bed := congrArg (·.fab.bed) h
theorem hod (h : OnlyCourses s t) : t.fab.hod = s.fab.hod := congrArg (·.fab.hod) h
theorem acc (h : OnlyCourses s t) : t.fab.acc = s.fab.acc := congrArg (·.fab.acc) h
theorem mem (h : OnlyCourses s t) : t.mem = s.mem := congrArg (·.mem) h
theorem rings (h : OnlyCourses s t) : t.rings = s.rings := congrArg (·.rings) h

end OnlyCourses

theorem OnlyLaunches.toCourses {s t : State} (h : OnlyLaunches s t) : OnlyCourses s t := by
  unfold OnlyLaunches at h
  unfold OnlyCourses
  rw [h]

theorem refreshCourse_onlyCourses (c : Nat) (s : State) : OnlyCourses s (refreshCourse c s) := rfl

theorem modCourse_onlyCourses (c : Nat) (f : CourseState → CourseState) (s : State) : OnlyCourses s (modCourse c f s) := rfl

theorem restartWdog_onlyCourses (c : Nat) (s : State) : OnlyCourses s (restartWdog c s) := by
  unfold restartWdog
  split <;> exact modCourse_onlyCourses _ _ s

@[simp] theorem launches_refreshCourse (c : Nat) (s : State) : (refreshCourse c s).fab.launches = s.fab.launches := rfl

@[simp] theorem launches_modCourse (c : Nat) (f : CourseState → CourseState) (s : State) :
    (modCourse c f s).fab.launches = s.fab.launches := rfl

@[simp] theorem launches_restartWdog (c : Nat) (s : State) : (restartWdog c s).fab.launches = s.fab.launches := by
  unfold restartWdog
  split <;> rfl

/-- A preemption changes the phase of one instance at most, and shows it (R81, R82). -/
theorem tryPark_cases (id c : Nat) (s : State) :
    tryPark id c s = s ∨
      tryPark id c s = refreshCourse c (restartWdog c (modInst id c (fun i => { i with phase := .preempted }) s)) := by
  unfold tryPark
  split
  · exact .inl rfl
  · split
    · exact .inr rfl
    · exact .inl rfl

theorem tryPark_onlyCourses (id c : Nat) (s : State) : OnlyCourses s (tryPark id c s) := by
  rcases tryPark_cases id c s with h | h
  · rw [h]
    exact .refl s
  · rw [h]
    exact ((modInst_onlyLaunches id c _ s).toCourses.trans (restartWdog_onlyCourses c _)).trans
      (refreshCourse_onlyCourses c _)

@[simp] theorem roleAt_tryPark (x : Site) (s : State) :
    roleAt (tryPark x.launch.id x.inst.course s) x = roleAt s x := by
  rcases tryPark_cases x.launch.id x.inst.course s with h | h
  · rw [h]
  · rw [h, roleAt_congr (s := modInst x.launch.id x.inst.course (fun i => { i with phase := .preempted }) s) x (by simp)]
    exact roleAt_modInst x _ s (fun _ => rfl) (fun _ => rfl)

/-! ## The roles of an instance -/

/-- A role at a site stands in the instance at that site. -/
theorem instAt_of_roleAt {s : State} {x : Site} {r : Role} (h : roleAt s x = some r) :
    ∃ i, instAt s x = some i ∧ i.roles[x.k]? = some r := by
  simpa [roleAt, Option.bind_eq_some_iff] using h

theorem roleAt_of_instAt {s : State} {x : Site} {i : Inst} (h : instAt s x = some i) : roleAt s x = i.roles[x.k]? := by
  simp [roleAt, h]

theorem instAt_setRole (x : Site) (f : Role → Role) (s : State) :
    instAt (setRole x f s) x = (instAt s x).map (fun i => { i with roles := modAt i.roles x.k f }) :=
  instAt_modInst x _ s (fun _ => rfl)

theorem getElem?_modAt_ne {α : Type} (l : List α) {k m : Nat} (f : α → α) (h : m ≠ k) : (modAt l m f)[k]? = l[k]? := by
  induction l generalizing m k with
  | nil => rfl
  | cons a r ih =>
    match m, k with
    | 0, 0 => exact absurd rfl h
    | 0, k + 1 => rfl
    | m + 1, 0 => rfl
    | m + 1, k + 1 => exact ih (fun e => h (congrArg (· + 1) e))

/-- A change of one role leaves the others of its instance. -/
theorem roleAt_setRole_ne (x : Site) {k : Nat} (f : Role → Role) (s : State) (h : x.k ≠ k) :
    roleAt (setRole x f s) { x with k := k } = roleAt s { x with k := k } := by
  have hat : ∀ u, instAt u { x with k := k } = instAt u x := fun _ => rfl
  unfold roleAt
  rw [hat, hat, instAt_setRole]
  cases instAt s x with
  | none => rfl
  | some i => exact getElem?_modAt_ne i.roles f h

/-- A role that goes on leaves the others of its instance. -/
theorem roleAt_goOn_ne (x : Site) {k : Nat} (s : State) (h : x.k ≠ k) :
    roleAt (goOn x s) { x with k := k } = roleAt s { x with k := k } := roleAt_setRole_ne x _ s h

/-- The largest of the roles' cycles is what an instance counts after cycles are added (R77). -/
theorem instAt_addCycles (x : Site) (n : Nat) (s : State) {i : Inst} (h : instAt s x = some i) :
    ∃ j, instAt (addCycles x n s) x = some j ∧ j.cycles = max i.cycles (roleCycles j.roles) := by
  unfold addCycles
  rw [instAt_modInst x _ s (by intro; rfl), h]
  exact ⟨_, rfl, rfl⟩

/-- Going on leaves what an instance has counted. -/
theorem instAt_goOn (x : Site) (s : State) {i : Inst} (h : instAt s x = some i) :
    ∃ j, instAt (goOn x s) x = some j ∧ j.cycles = i.cycles := by
  unfold goOn
  rw [instAt_setRole, h]
  exact ⟨_, rfl, rfl⟩

/-! ## BARRIER -/

/-- A role as a BARRIER that every role has reached leaves it: with the cycles of the wait, and past it (R65, R77). -/
def Role.pastBarrier (r : Role) (cycles : Nat) : Role :=
  if r.atBarrier then { r with atBarrier := false, cycles := max r.cycles cycles }.advance else r

theorem settleBarrier_waits {id c : Nat} {s : State} {i : Inst} (h : instOf s id c = some i)
    (hw : i.roles.all (fun r => r.halted || r.atBarrier) = false) : settleBarrier id c s = s := by
  unfold settleBarrier
  rw [h]
  exact if_neg (by rw [hw]; exact Bool.false_ne_true)

theorem settleBarrier_passes {id c : Nat} {s : State} {i : Inst} (h : instOf s id c = some i)
    (hp : i.roles.all (fun r => r.halted || r.atBarrier) = true) : settleBarrier id c s =
      modInst id c (fun i => { i with roles := i.roles.map (fun r => r.pastBarrier i.cycles) }) s := by
  unfold settleBarrier
  rw [h]
  exact if_pos hp

theorem settleBarrier_onlyLaunches (id c : Nat) (s : State) : OnlyLaunches s (settleBarrier id c s) := by
  cases h : instOf s id c with
  | none =>
    unfold settleBarrier
    rw [h]
    exact .refl s
  | some i =>
    cases hp : i.roles.all (fun r => r.halted || r.atBarrier) with
    | false => rw [settleBarrier_waits h hp]; exact .refl s
    | true => rw [settleBarrier_passes h hp]; exact modInst_onlyLaunches _ _ _ s

theorem roleAt_settleBarrier_passes {x : Site} {s : State} {i : Inst} (h : instAt s x = some i)
    (hp : i.roles.all (fun r => r.halted || r.atBarrier) = true) :
    roleAt (settleBarrier x.launch.id x.inst.course s) x = (roleAt s x).map (fun r => r.pastBarrier i.cycles) := by
  rw [settleBarrier_passes h hp]
  unfold roleAt
  rw [instAt_modInst x _ s (by intro; rfl), h]
  simp

/-- A role that is at no BARRIER is not moved by one. -/
theorem roleAt_settleBarrier_off {x : Site} {s : State} {r : Role} (h : roleAt s x = some r) (hb : r.atBarrier = false) :
    roleAt (settleBarrier x.launch.id x.inst.course s) x = some r := by
  obtain ⟨i, hi, -⟩ := instAt_of_roleAt h
  cases hp : i.roles.all (fun r => r.halted || r.atBarrier) with
  | false => rw [settleBarrier_waits hi hp, h]
  | true =>
    rw [roleAt_settleBarrier_passes hi hp, h]
    simp [Role.pastBarrier, hb]

theorem issuing_atBarrier {s : State} {b op : Nat} {x : Site} (h : issuing s b op = some x) : x.role.atBarrier = false := by
  have hready := issuing_ready h
  unfold Role.ready at hready
  simp only [Bool.and_eq_true, Bool.not_eq_true'] at hready
  obtain ⟨⟨⟨⟨-, -⟩, hb⟩, -⟩, -⟩ := hready
  exact hb

/-! ## The sequencer's control instructions -/

section

variable {s : State} {b : Nat} {x : Site}

theorem exec_nop_issuing (h : issuing s b opNop = some x) : exec (.nop b) s = .next (addCycles x 1 (goOn x s)) := by
  change execNop b s = _
  unfold execNop
  rw [h]

theorem exec_wait_issuing (h : issuing s b opWait = some x) :
    exec (.wait b) s = .next (addCycles x (bits x.role.word 0 13 + 1) (goOn x s)) := by
  change execWait b s = _
  unfold execWait
  rw [h]

theorem exec_halt_issuing (h : issuing s b opHalt = some x) :
    exec (.halt b) s = .next (tryPark x.launch.id x.inst.course (settleBarrier x.launch.id x.inst.course
      (setRole x (fun r => { r with halted := true }) s))) := by
  change execHalt b s = _
  unfold execHalt
  rw [h]

theorem exec_jump_issuing (h : issuing s b opJump = some x) :
    exec (.jump b) s = .next (setRole x (fun r => { r with pc := bits r.word 15 9 }) s) := by
  change execJump b s = _
  unfold execJump
  rw [h]

theorem exec_loop_issuing (h : issuing s b opLoop = some x) :
    exec (.loop b) s = .next (setRole x (fun r => r.enterLoop (bits r.word 0 13 + 1)) s) := by
  change execLoop b s = _
  unfold execLoop
  rw [h]

theorem exec_loopp_issuing (h : issuing s b opLoopp = some x) :
    exec (.loopp b) s =
      .next (setRole x (fun r => r.enterLoop (paramWord x.launch x.inst.course (bits r.word 0 4))) s) := by
  change execLoopp b s = _
  unfold execLoopp
  rw [h]

theorem exec_ppoint_goes (h : issuing s b opPpoint = some x) (hs : stopsHere s x = false) :
    exec (.ppoint b) s = .next (goOn x (setRole x (fun r => { r with ppoints := r.ppoints + 1 }) s)) := by
  change execPpoint b s = _
  unfold execPpoint
  rw [h]
  exact congrArg Host.Outcome.next (if_neg (by rw [hs]; exact Bool.false_ne_true))

theorem exec_ppoint_stops (h : issuing s b opPpoint = some x) (hs : stopsHere s x = true) :
    exec (.ppoint b) s = .next (tryPark x.launch.id x.inst.course
      (setRole x (fun r => { r with atPpoint := true }.advance) s)) := by
  change execPpoint b s = _
  unfold execPpoint
  rw [h]
  exact congrArg Host.Outcome.next (if_pos hs)

end

/-- A loop that runs at least once enters its body (R65). -/
theorem enterLoop_succ (r : Role) (n : Nat) : r.enterLoop (n + 1) =
    { r with pc := r.pc + 1, loops := ⟨bits r.word 13 2, r.pc + 1, bits r.word 15 9, n⟩ :: r.loops } := by
  simp [Role.enterLoop]

/-- What a NOP and a WAIT do to their role and instance: on, with n cycles counted (R65, R77). -/
theorem goOn_addCycles_effect {s : State} {x : Site} (n : Nat) (hr : roleAt s x = some x.role) :
    ∃ i j, roleAt (addCycles x n (goOn x s)) x = some { x.role.counted.advance with cycles := x.role.cycles + n } ∧
      instAt s x = some i ∧ instAt (addCycles x n (goOn x s)) x = some j ∧
      j.cycles = max i.cycles (roleCycles j.roles) := by
  obtain ⟨i, hi, -⟩ := instAt_of_roleAt hr
  obtain ⟨m, hm, hcyc⟩ := instAt_goOn x s hi
  obtain ⟨j, hj, hmax⟩ := instAt_addCycles x n (goOn x s) hm
  refine ⟨i, j, ?_, hi, hj, hcyc ▸ hmax⟩
  rw [roleAt_addCycles, roleAt_goOn, hr]
  rfl

/-- Settles O7: each instruction by the state that it leaves, and the role there. -/
theorem sequencerControl : Obligations.SequencerControl := by
  unfold Obligations.SequencerControl
  refine ⟨fun s b x h hr => ?_, fun s b x h hr => ?_, fun s b x h hr => ?_, fun s b x h hr => ?_, fun s b x h hr => ?_,
    fun s b x h hr => ?_, fun s b x h hr => ?_⟩
  · obtain ⟨i, j, hrole, hi, hj, hc⟩ := goOn_addCycles_effect 1 hr
    exact ⟨_, i, j, exec_nop_issuing h, hrole, hi, hj, hc, rfl, rfl, rfl, rfl⟩
  · obtain ⟨i, j, hrole, hi, hj, hc⟩ := goOn_addCycles_effect (bits x.role.word 0 13 + 1) hr
    exact ⟨_, i, j, exec_wait_issuing h, hrole, hi, hj, hc, rfl, rfl, rfl, rfl⟩
  · have hframe := ((setRole_onlyLaunches x (fun r => { r with halted := true }) s).trans
      (settleBarrier_onlyLaunches x.launch.id x.inst.course _)).toCourses.trans
      (tryPark_onlyCourses x.launch.id x.inst.course _)
    have hrole : roleAt (setRole x (fun r => { r with halted := true }) s) x = some { x.role with halted := true } := by
      rw [roleAt_setRole, hr]
      rfl
    have hend := roleAt_settleBarrier_off hrole (issuing_atBarrier h)
    refine ⟨_, exec_halt_issuing h, ?_, ?_, hframe.mem, hframe.bed, hframe.hod, hframe.acc⟩
    · rw [roleAt_tryPark, hend]
      rfl
    · rw [roleAt_tryPark, hend]
      rfl
  · refine ⟨_, exec_jump_issuing h, ?_, rfl, rfl, rfl, rfl⟩
    rw [roleAt_setRole, hr]
    rfl
  · refine ⟨_, exec_loop_issuing h, ?_, rfl⟩
    rw [roleAt_setRole, hr]
    exact congrArg some (enterLoop_succ _ _)
  · refine ⟨_, exec_loopp_issuing h, rfl, fun hz => ?_, fun n hn => ?_⟩
    · rw [roleAt_setRole, hr]
      exact congrArg some (if_pos hz)
    · rw [roleAt_setRole, hr, Option.map_some, hn, enterLoop_succ]
  · cases hs : stopsHere s x with
    | false =>
      refine ⟨_, exec_ppoint_goes h hs, fun _ => ⟨?_, rfl⟩, fun hc => absurd hc Bool.false_ne_true⟩
      rw [roleAt_goOn, roleAt_setRole, hr]
      rfl
    | true =>
      refine ⟨_, exec_ppoint_stops h hs, fun hc => absurd hc.symm Bool.false_ne_true, fun _ => ⟨?_, ?_⟩⟩
      · rw [roleAt_tryPark, roleAt_setRole, hr]
        rfl
      · exact (tryPark_onlyCourses x.launch.id x.inst.course _).mem

end Sys2Proof.Machine
end

section
namespace Sys2Proof.Machine

open Reg

/-! ## The sequencer's synchronisation instructions -/

@[simp] theorem roleAt_issueTie (op : TieOp) (s : State) (x : Site) : roleAt (issueTie op s) x = roleAt s x := rfl

/-- A role whose flag a neighbour raises (R65). -/
def Role.raised (r : Role) (side : Nat) : Role := { r with flags := setAt r.flags side true }

section

variable {s : State} {b : Nat} {x : Site}

theorem exec_nsig_issuing {k : Nat} (h : issuing s b opNsig = some x)
    (hk : (cellTowards (roleCell x.launch.image x.k) (bits x.role.word 18 2)).bind (roleAtCell x.launch.image) = some k) :
    exec (.nsig b) s =
      .next (goOn x (setRole { x with k := k } (fun r => r.raised ((bits x.role.word 18 2 + 2) % 4)) s)) := by
  change execNsig b s = _
  unfold execNsig
  rw [h]
  dsimp only
  rw [hk]
  rfl

theorem exec_nwait_raised (h : issuing s b opNwait = some x)
    (hf : x.role.flags.getD (bits x.role.word 18 2) false = true) :
    exec (.nwait b) s = .next (goOn x (setRole x (fun r => { r with
      flags := setAt r.flags (bits x.role.word 18 2) false }) s)) := by
  change execNwait b s = _
  unfold execNwait
  rw [h]
  exact congrArg Host.Outcome.next (if_pos hf)

theorem exec_nwait_waits (h : issuing s b opNwait = some x)
    (hf : x.role.flags.getD (bits x.role.word 18 2) false = false) : exec (.nwait b) s = .next s := by
  change execNwait b s = _
  unfold execNwait
  rw [h]
  exact congrArg Host.Outcome.next (if_neg (by rw [hf]; exact Bool.false_ne_true))

/-- A Tie operation in the context's ranges whose home is reached is made (R322). -/
theorem tieStep_made (k : State → State) (hlt : tieOf x < 131072) (hin : tieRefused s x.launch.ctx (tieOf x) = false)
    (hreach : reach s (courseDie x.inst.course) (tieHome (tieOf x)) = true) : tieStep x k s = k s := by
  unfold tieStep
  dsimp only
  rw [if_neg (by rw [hin]; simp; omega), if_neg (by rw [hreach]; simp)]

theorem exec_tsig_made (h : issuing s b opTsig = some x) (hlt : tieOf x < 131072)
    (hin : tieRefused s x.launch.ctx (tieOf x) = false)
    (hreach : reach s (courseDie x.inst.course) (tieHome (tieOf x)) = true) :
    exec (.tsig b) s = .next (goOn x (issueTie
      ⟨.signal, tieOf x, bits x.role.word 0 16, .role b, x.launch.ctx, 0⟩ s)) := by
  change execTsig b s = _
  unfold execTsig
  rw [h]
  exact congrArg Host.Outcome.next (tieStep_made _ hlt hin hreach)

/-- The state in which a role waits on its Tie (R65, R267). -/
def waitsOn (x : Site) (kind : TieKind) (s : State) : State :=
  setRole x (fun r => { r with tieWait := some (tieOf x) }) (issueTie
    ⟨kind, tieOf x, bits x.role.word 0 16, .role x.role.brick, x.launch.ctx, fld x.launch.raw 36 4⟩ s)

theorem waitStep_made (kind : TieKind) (hs : stopPending s x = false) (hlt : tieOf x < 131072)
    (hin : tieRefused s x.launch.ctx (tieOf x) = false)
    (hreach : reach s (courseDie x.inst.course) (tieHome (tieOf x)) = true) : waitStep x kind s = waitsOn x kind s := by
  unfold waitStep
  rw [if_neg (by rw [hs]; exact Bool.false_ne_true)]
  exact tieStep_made _ hlt hin hreach

theorem exec_twaitge_issuing (h : issuing s b opTwaitge = some x) : exec (.twaitge b) s = .next (waitStep x .waitGe s) := by
  change execTwaitge b s = _
  unfold execTwaitge
  rw [h]

theorem exec_twaiteq_issuing (h : issuing s b opTwaiteq = some x) : exec (.twaiteq b) s = .next (waitStep x .waitEq s) := by
  change execTwaiteq b s = _
  unfold execTwaiteq
  rw [h]

theorem waitsOn_effect (kind : TieKind) (hr : roleAt s x = some x.role) :
    roleAt (waitsOn x kind s) x = some { x.role with tieWait := some (tieOf x) } ∧
      (waitsOn x kind s).rings.ops = s.rings.ops ++
        [⟨kind, tieOf x, bits x.role.word 0 16, .role x.role.brick, x.launch.ctx, fld x.launch.raw 36 4⟩] ∧
      (waitsOn x kind s).mem = s.mem ∧ (waitsOn x kind s).regs = s.regs := by
  refine ⟨?_, rfl, rfl, rfl⟩
  unfold waitsOn
  rw [roleAt_setRole, roleAt_issueTie, hr]
  rfl

/-! ### BARRIER -/

/-- The state in which a role has reached its BARRIER. -/
def reachBarrier (x : Site) (s : State) : State := setRole x (fun r => { r with atBarrier := true }) s

theorem exec_barrier_issuing (h : issuing s b opBarrier = some x) :
    exec (.barrier b) s = .next (settleBarrier x.launch.id x.inst.course (reachBarrier x s)) := by
  change execBarrier b s = _
  unfold execBarrier
  rw [h]
  rfl

/-- The instance of a role that has reached its BARRIER. -/
theorem instAt_reachBarrier (hi : instAt s x = some x.inst) : instAt (reachBarrier x s) x =
    some { x.inst with roles := modAt x.inst.roles x.k (fun r => { r with atBarrier := true }) } := by
  unfold reachBarrier
  rw [instAt_setRole, hi]
  rfl

/-- A BARRIER holds while another role runs on before its own (R65). -/
theorem reachBarrier_waits (hi : instAt s x = some x.inst) (hk : x.inst.roles[x.k]? = some x.role) {r : Role}
    (hr : r ∈ x.inst.roles) (hne : r ≠ x.role) (hh : r.halted = false) (hb : r.atBarrier = false) :
    settleBarrier x.launch.id x.inst.course (reachBarrier x s) = reachBarrier x s := by
  refine settleBarrier_waits (instAt_reachBarrier hi) ?_
  obtain ⟨m, hm⟩ := List.mem_iff_getElem?.mp hr
  have hmk : x.k ≠ m := by
    rintro rfl
    exact hne (Option.some.inj (hm.symm.trans hk))
  have hmem : r ∈ modAt x.inst.roles x.k (fun r => { r with atBarrier := true }) :=
    List.mem_iff_getElem?.mpr ⟨m, (getElem?_modAt_ne _ _ hmk).trans hm⟩
  exact List.all_eq_false.mpr ⟨r, hmem, by simp [hh, hb]⟩

/-- Once every other role has halted or reached its BARRIER, all pass (R65). -/
theorem reachBarrier_all (hp : ∀ k r, x.inst.roles[k]? = some r → k ≠ x.k → r.halted = true ∨ r.atBarrier = true) :
    (modAt x.inst.roles x.k (fun r => { r with atBarrier := true })).all (fun r => r.halted || r.atBarrier) = true := by
  refine List.all_eq_true.mpr fun r hr => ?_
  obtain ⟨m, hm⟩ := List.mem_iff_getElem?.mp hr
  by_cases hmk : m = x.k
  · subst hmk
    rw [getElem?_modAt] at hm
    obtain ⟨q, -, rfl⟩ := Option.map_eq_some_iff.mp hm
    simp
  · rw [getElem?_modAt_ne _ _ (Ne.symm hmk)] at hm
    simpa using hp m r hm hmk

end

/-- Settles O8: each instruction by the state that it leaves, and for BARRIER by what the other roles have done. -/
theorem sequencerSync : Obligations.SequencerSync := by
  unfold Obligations.SequencerSync
  refine ⟨fun s b x k r h hr hk hne hn => ?_, fun s b x h hr => ?_, fun s b x h hr hlt hin hreach => ?_,
    fun s b x h hr hlt hs hin hreach => ?_, fun s b x h hr hlt hs hin hreach => ?_, fun s b x h hr hi => ?_⟩
  · have hother := roleAt_setRole_ne { x with k := k } (k := x.k)
      (fun r => r.raised ((bits x.role.word 18 2 + 2) % 4)) s hne
    refine ⟨_, exec_nsig_issuing h hk, ?_, ?_, rfl, rfl⟩
    · rw [roleAt_goOn]
      exact congrArg (Option.map (fun r => r.counted.advance)) (hother.trans hr)
    · rw [roleAt_goOn_ne x _ (Ne.symm hne), roleAt_setRole, hn]
      rfl
  · cases hf : x.role.flags.getD (bits x.role.word 18 2) false with
    | true =>
      refine ⟨_, exec_nwait_raised h hf, fun _ => ?_, fun hc => absurd hc.symm Bool.false_ne_true⟩
      rw [roleAt_goOn, roleAt_setRole, hr]
      rfl
    | false => exact ⟨s, exec_nwait_waits h hf, fun hc => absurd hc Bool.false_ne_true, fun _ => rfl⟩
  · refine ⟨_, exec_tsig_made h hlt hin hreach, ?_, rfl, rfl, rfl⟩
    rw [roleAt_goOn, roleAt_issueTie, hr]
    rfl
  · exact ⟨_, (exec_twaitge_issuing h).trans (congrArg _ (waitStep_made .waitGe hs hlt hin hreach)), waitsOn_effect .waitGe hr⟩
  · exact ⟨_, (exec_twaiteq_issuing h).trans (congrArg _ (waitStep_made .waitEq hs hlt hin hreach)), waitsOn_effect .waitEq hr⟩
  · have hk : x.inst.roles[x.k]? = some x.role := (roleAt_of_instAt hi).symm.trans hr
    have hrole : roleAt (reachBarrier x s) x = some { x.role with atBarrier := true } := by
      unfold reachBarrier
      rw [roleAt_setRole, hr]
      rfl
    refine ⟨_, exec_barrier_issuing h, ?_, ?_, ?_⟩
    · exact ((setRole_onlyLaunches x _ s).trans (settleBarrier_onlyLaunches _ _ _)).frame
    · rintro ⟨r, hmem, hne, -, hh, hb⟩
      rw [reachBarrier_waits hi hk hmem hne hh hb, hrole]
    · intro hp
      have hpast : ({ x.role with atBarrier := true } : Role).pastBarrier x.inst.cycles =
          ({ x.role with cycles := max x.role.cycles x.inst.cycles } : Role).advance := by
        simp only [Role.pastBarrier, if_true]
        rw [← issuing_atBarrier h]
      rw [roleAt_settleBarrier_passes (instAt_reachBarrier hi) (reachBarrier_all hp), hrole]
      exact congrArg some hpast

end Sys2Proof.Machine
end

section
namespace Sys2Proof.Machine

/-! ## The address generators -/

section

variable {s : State} {b : Nat} {x : Site}

theorem exec_base_issuing (h : issuing s b opBase = some x) :
    exec (.base b) s = .next (agenStep x (fun g => { g with base := bits x.role.word 0 20 }) s) := by
  change execBase b s = _
  unfold execBase
  rw [h]

theorem exec_stride_issuing (h : issuing s b opStride = some x) : exec (.stride b) s = .next (agenStep x (fun g => { g with
    strides := setAt g.strides (bits x.role.word 20 2) (sext (bits x.role.word 0 20) 20) }) s) := by
  change execStride b s = _
  unfold execStride
  rw [h]

theorem exec_count_issuing (h : issuing s b opCount = some x) : exec (.count b) s = .next (agenStep x (fun g => { g with
    counts := setAt g.counts (bits x.role.word 20 2) (bits x.role.word 0 20 + 1) }) s) := by
  change execCount b s = _
  unfold execCount
  rw [h]

theorem exec_basep_one (h : issuing s b opBasep = some x) (h4 : bit x.role.word 4 = false) :
    exec (.basep b) s = .next (agenStep x (fun g => { g with
      base := paramWord x.launch x.inst.course (bits x.role.word 0 4) % 2 ^ 32 }) s) := by
  change execBasep b s = _
  unfold execBasep
  rw [h]
  exact congrArg Host.Outcome.next (if_neg (by rw [h4]; exact Bool.false_ne_true))

theorem exec_basep_two {v : Nat} (h : issuing s b opBasep = some x) (h4 : bit x.role.word 4 = true)
    (hv : v = paramWord x.launch x.inst.course (bits x.role.word 0 4) % 2 ^ 32
      + paramWord x.launch x.inst.course (bits x.role.word 0 4 + 1) % 2 ^ 32 * 2 ^ 32) (hlt : v < 2 ^ 42) :
    exec (.basep b) s = .next (agenStep x (fun g => { g with base := v }) s) := by
  subst hv
  change execBasep b s = _
  unfold execBasep
  rw [h]
  exact congrArg Host.Outcome.next ((if_pos h4).trans (if_neg (Nat.not_le.mpr hlt)))

theorem exec_groutchk_issuing (h : issuing s b opGroutchk = some x) : exec (.groutchk b) s =
    .next (goOn x (setRole x (fun r => r.modAgen (bits x.role.word 18 2) (fun g => { g with
      grout := some ⟨paramWord x.launch x.inst.course (bits x.role.word 20 4), bits x.role.word 0 16 + 1⟩ })) s)) := by
  change execGroutchk b s = _
  unfold execGroutchk
  rw [h]

/-- What an AGEN instruction does to its role: one generator, and on (R65, R777). -/
theorem roleAt_agenStep (f : Agen → Agen) (hr : roleAt s x = some x.role) :
    roleAt (agenStep x f s) x = some (x.role.modAgen (bits x.role.word 22 2) (fun g => { f g with pos := 0 })).counted.advance := by
  unfold agenStep
  rw [roleAt_goOn, roleAt_setRole, hr]
  rfl

end

/-- Settles O9: every clause but the last is one field of one generator. -/
theorem addressGenerators : Obligations.AddressGenerators := by
  unfold Obligations.AddressGenerators
  refine ⟨fun s b x h hr => ?_, fun s b x h hr => ?_, fun s b x h hr => ?_, fun s b x h hr h4 => ?_,
    fun s b v x h hr h4 hv hlt => ?_, fun s b x h hr => ?_⟩
  · exact ⟨_, exec_base_issuing h, roleAt_agenStep _ hr, rfl, rfl⟩
  · exact ⟨_, exec_stride_issuing h, roleAt_agenStep _ hr, rfl⟩
  · exact ⟨_, exec_count_issuing h, roleAt_agenStep _ hr, rfl⟩
  · exact ⟨_, exec_basep_one h h4, roleAt_agenStep _ hr, rfl⟩
  · exact ⟨_, exec_basep_two h h4 hv hlt, roleAt_agenStep _ hr, rfl⟩
  · refine ⟨_, exec_groutchk_issuing h, ?_, rfl⟩
    rw [roleAt_goOn, roleAt_setRole, hr]
    rfl

end Sys2Proof.Machine
end

section
namespace Sys2Proof.Machine

open Reg

/-! ## What keeps the clocks and the states of the contexts -/

/-- A register that is no context's state. -/
def stateFree (k : Nat) : Prop := ∀ h < 64, k ≠ fkey HST_CTX_STATE.state (h * 0x100)

/-- A field that does not begin at bit 0 of its register is none. -/
theorem stateFree_lo {f : Field} (a : Nat) (hf : decide (0 < f.lo ∧ f.lo < 64) = true) : stateFree (fkey f a) := by
  have hlo := of_decide_eq_true hf
  intro h _
  simp only [fkey, HST_CTX_STATE.state]
  omega

/-- A register of a die below the contexts' block is none. -/
theorem stateFree_die {f : Field} (d : Nat) (hf : decide (f.off < 0x700000 ∧ f.lo < 64) = true) :
    stateFree (fkey f (dieBase d)) := by
  have hoff := of_decide_eq_true hf
  intro h _
  simp only [fkey, HST_CTX_STATE.state, dieBase]
  omega

theorem stateFree_retryKey (k : Nat) (h : retryKey k) : stateFree k := by
  obtain ⟨d, rfl⟩ := h
  exact stateFree_die d rfl

theorem stateFree_reportKey (k : Nat) (h : reportKey k) : stateFree k := by
  rcases h with rfl | rfl | rfl | h | ⟨c, -, rfl⟩
  · intro h _
    simp only [fkey, HST_CTX_STATE.state, HST_EVT_DROP_COUNT.drops]
    omega
  · intro h _
    simp only [fkey, HST_CTX_STATE.state, HST_DEV_EQ_TAIL.tail]
    omega
  · exact stateFree_lo _ rfl
  · exact stateFree_retryKey k h
  · exact stateFree_lo _ rfl

/-- From s to t the clocks and the state of every context stay. -/
structure CtxSteady (s t : State) : Prop where
  clock : t.clock = s.clock
  state : ∀ h < 64, rd t HST_CTX_STATE.state (h * 0x100) = rd s HST_CTX_STATE.state (h * 0x100)

namespace CtxSteady

variable {s t u : State}

protected theorem refl (s : State) : CtxSteady s s := ⟨rfl, fun _ _ => rfl⟩

protected theorem trans (h : CtxSteady s t) (g : CtxSteady t u) : CtxSteady s u :=
  ⟨g.clock.trans h.clock, fun c hc => (g.state c hc).trans (h.state c hc)⟩

theorem foldl {α : Type} (f : State → α → State) (l : List α) (hf : ∀ x a, CtxSteady x (f x a)) (s : State) :
    CtxSteady s (l.foldl f s) := by
  induction l generalizing s with
  | nil => exact .refl s
  | cons a r ih => exact (hf s a).trans (ih (f s a))

theorem ite {c : Prop} [Decidable c] (ht : CtxSteady s t) (hu : CtxSteady s u) : CtxSteady s (if c then t else u) := by
  split <;> assumption

/-- A change of neither clocks nor registers. -/
theorem of_eq (hc : t.clock = s.clock) (hr : t.regs = s.regs) : CtxSteady s t :=
  ⟨hc, fun h _ => rd_congr hr HST_CTX_STATE.state (h * 0x100)⟩

/-- A change of neither clocks nor registers comes first. -/
theorem after (h : CtxSteady t u) (hc : t.clock = s.clock) (hr : t.regs = s.regs) : CtxSteady s u :=
  (of_eq hc hr).trans h

/-- A change of neither clocks nor registers comes last. -/
theorem same (h : CtxSteady s t) (hc : u.clock = t.clock) (hr : u.regs = t.regs) : CtxSteady s u :=
  h.trans (of_eq hc hr)

/-- The write of a register that is no context's state. -/
theorem wr (h : CtxSteady s t) {f : Field} {a v : Nat} (hf : stateFree (fkey f a)) :
    CtxSteady s (Machine.wr f a v t) :=
  h.trans ⟨rfl, fun c hc => rd_wr_ne _ _ _ _ _ _ (hf c hc)⟩

theorem wrLo (h : CtxSteady s t) {f : Field} {a v : Nat} (hf : decide (0 < f.lo ∧ f.lo < 64) = true) :
    CtxSteady s (Machine.wr f a v t) := h.wr (stateFree_lo a hf)

theorem wrDie (h : CtxSteady s t) {f : Field} {d v : Nat} (hf : decide (f.off < 0x700000 ∧ f.lo < 64) = true) :
    CtxSteady s (Machine.wr f (dieBase d) v t) := h.wr (stateFree_die d hf)

theorem setRings (s : State) (r : RingsState) : CtxSteady s { s with rings := r } := ⟨rfl, fun _ _ => rfl⟩

theorem setDay (s : State) (d : DayState) : CtxSteady s { s with day := d } := ⟨rfl, fun _ _ => rfl⟩

theorem setMer (s : State) (m : MerState) : CtxSteady s { s with mer := m } := ⟨rfl, fun _ _ => rfl⟩

theorem of_quiet {S : Nat → Prop} (h : Quiet S s t) (hS : ∀ k, S k → stateFree k) : CtxSteady s t :=
  ⟨h.toClock, fun c hc => h.toRd _ _ (fun x => hS _ x c hc rfl)⟩

theorem ctxOpen_eq (h : CtxSteady s t) (c : Nat) : ctxOpen t c = ctxOpen s c := by
  unfold ctxOpen
  by_cases hc : c < 64
  · rw [h.state c hc]
  · simp [hc]

end CtxSteady

theorem event_ctxSteady (st die ctx unit sev : Nat) (p : List Nat) (s : State) :
    CtxSteady s (event st die ctx unit sev p s) :=
  .of_quiet (event_quiet _ _ _ _ _ _ s) stateFree_reportKey

theorem writeMem_ctxSteady (p c a : Nat) (l : List Nat) (s : State) : CtxSteady s (writeMem p c a l s).2 :=
  .of_quiet (writeMem_quiet p c a l s (S := stateFree) (stateFree_lo _ rfl) stateFree_retryKey) (fun _ h => h)

theorem modCtx_ctxSteady (c : Nat) (f : CtxState → CtxState) (s : State) : CtxSteady s (modCtx c f s) := .of_eq rfl rfl

theorem modCourse_ctxSteady (c : Nat) (f : CourseState → CourseState) (s : State) : CtxSteady s (modCourse c f s) :=
  .of_eq rfl rfl

theorem stopRaw_ctxSteady (c r cause resume : Nat) (s : State) : CtxSteady s (stopRaw c r cause resume s).2 := by
  unfold stopRaw
  exact ((modCtx_ctxSteady _ _ s).wrLo rfl).trans
    (.of_quiet (eventRaw_quiet _ _ _ _ _ _ _) stateFree_reportKey)

theorem stopRings_ctxSteady (c cause : Nat) (s : State) : CtxSteady s (stopRings c cause s) := by
  unfold stopRings
  exact (CtxSteady.foldl _ _ (fun x _ => .ite (stopRaw_ctxSteady _ _ _ _ x) (.refl x)) s).trans
    (writeMem_ctxSteady _ _ _ _ _)

theorem writeEcho_ctxSteady (c : Nat) (s : State) : CtxSteady s (writeEcho c s) := by
  unfold writeEcho
  exact .ite ((writeMem_ctxSteady _ _ _ _ s).trans (stopRings_ctxSteady _ _ _)) (writeMem_ctxSteady _ _ _ _ s)

/-! ### Descriptors, Ties and launches that end -/

theorem finishDesc_ctxSteady (c ring count : Nat) (raw : List Nat) (d : Done) (s : State) :
    CtxSteady s (finishDesc c ring count raw d s) := by
  unfold finishDesc
  have h2 := (modCtx_ctxSteady c (fun x => { x with reserved := x.reserved - 1 }) { s with rings := { s.rings with
      descs := s.rings.descs.filter (fun x => !(x.ctx == c && x.ring == ring && x.count == count)) } }).after (s := s) rfl rfl
  refine .ite (.ite (h2.trans ((writeMem_ctxSteady _ _ _ _ _).trans (stopRings_ctxSteady _ _ _))) ?_) h2
  refine CtxSteady.trans ?_ (writeEcho_ctxSteady _ _)
  refine CtxSteady.trans ?_ (.ite (.of_quiet (S := fun _ => False) (notify_quiet _ _ _) nofun) (.refl _))
  exact (h2.trans (writeMem_ctxSteady _ _ _ _ _)).trans (modCtx_ctxSteady _ _ _)

theorem tieApply_ctxSteady (op : TieOp) (s : State) : CtxSteady s (tieApply op s) := by
  unfold tieApply
  split
  · extract_lets sum s1
    have h1 : CtxSteady s s1 := .of_eq rfl rfl
    exact .ite ((h1.wrDie rfl).trans (event_ctxSteady _ _ _ _ _ _ _)) h1
  · exact .of_eq rfl rfl
  · exact .of_eq rfl rfl

theorem tieDescDone_ctxSteady (op : TieOp) (s : State) : CtxSteady s (tieDescDone op s) := by
  have h : ∀ c r n, CtxSteady s (match s.rings.descs.find? (fun d =>
        d.ctx == c && d.ring == r && d.count == n && d.phase == .issued) with
      | some d => finishDesc c r n d.raw {} s
      | none => s) := by
    intro c r n
    split
    · exact finishDesc_ctxSteady _ _ _ _ _ s
    · exact .refl s
  unfold tieDescDone
  split
  · exact h _ _ _
  · exact h _ _ _
  · exact .refl s

theorem tieDeliver_ctxSteady (home sender : Nat) (s : State) : CtxSteady s (tieDeliver home sender s) := by
  unfold tieDeliver
  split
  · exact .refl s
  · exact ((tieApply_ctxSteady _ _).trans (tieDescDone_ctxSteady _ _)).after rfl rfl

theorem signalNow_ctxSteady (a : Agent) (ctx tie v : Nat) (s : State) : CtxSteady s (signalNow a ctx tie v s) :=
  .ite ((CtxSteady.foldl _ _ (fun x _ => tieDeliver_ctxSteady _ _ x) s).trans (tieApply_ctxSteady _ _)) (.refl s)

theorem refreshCourse_ctxSteady (c : Nat) (s : State) : CtxSteady s (refreshCourse c s) :=
  ((CtxSteady.refl s).wrLo rfl).wrLo rfl

theorem restartWdog_ctxSteady (c : Nat) (s : State) : CtxSteady s (restartWdog c s) :=
  .ite (modCourse_ctxSteady _ _ s) (modCourse_ctxSteady _ _ s)

theorem endLaunch_ctxSteady (l : Launch) (d : Done) (s : State) : CtxSteady s (endLaunch l d s) := by
  unfold endLaunch
  refine CtxSteady.trans ?_ (finishDesc_ctxSteady _ _ _ _ _ _)
  refine (CtxSteady.foldl _ _ (fun x i => ?_) _).after rfl rfl
  exact ((restartWdog_ctxSteady _ x).trans (modCourse_ctxSteady _ _ _)).trans (refreshCourse_ctxSteady _ _)

theorem endDescs_ctxSteady (c st : Nat) (s : State) : CtxSteady s (endDescs c st s) :=
  .foldl _ _ (fun x _ => finishDesc_ctxSteady _ _ _ _ _ x) s

/-! ### What a teardown drops -/

theorem noteRun_ctxSteady (j : SieveJob) (s : State) : CtxSteady s (noteRun j s) := by
  unfold noteRun
  split
  · exact .refl s
  · exact ((CtxSteady.refl s).wrDie (d := 0) rfl).wrDie (d := 0) rfl

theorem dropSieve_ctxSteady (c : Nat) (s : State) : CtxSteady s (dropSieve c s) := by
  unfold dropSieve
  exact (CtxSteady.foldl _ _ (fun x j => noteRun_ctxSteady j x) s).same rfl rfl

theorem refreshSieve_ctxSteady (s : State) : CtxSteady s (refreshSieve s) :=
  ((CtxSteady.refl s).wrDie (d := 0) rfl).wrDie (d := 0) rfl

theorem dropInput_ctxSteady (c : Nat) (s : State) : CtxSteady s (dropInput c s) := by
  unfold dropInput
  exact (CtxSteady.foldl (fun s i => wrB CAM_STREAM_STATUS.running (i * 0x20) false s) _
    (fun x _ => (CtxSteady.refl x).wrLo rfl) s).same rfl rfl

theorem signalFrom_ctxSteady (i port ctx tie v : Nat) (s : State) : CtxSteady s (signalFrom i port ctx tie v s) :=
  .ite (signalNow_ctxSteady _ _ _ _ s) (event_ctxSteady _ _ _ _ _ _ s)

theorem withdraw_ctxSteady (i : Nat) (s : State) : CtxSteady s (withdraw i s) := .of_eq rfl rfl

theorem modOvQueue_ctxSteady (c : Nat) (f : OvQueue → OvQueue) (s : State) : CtxSteady s (modOvQueue c f s) := .of_eq rfl rfl

theorem endTransfer_ctxSteady (c st : Nat) (s : State) : CtxSteady s (endTransfer c st s) := by
  unfold endTransfer
  split
  · exact .refl s
  · have h := fun l a => ((writeMem_ctxSteady 71 c a l s).trans (modOvQueue_ctxSteady c
      (fun q => { q with head := (q.head + 1) % 2 ^ 32, run := none }) _)).trans (withdraw_ctxSteady (1376 + c) _)
    exact .ite ((h _ _).trans (signalFrom_ctxSteady _ _ _ _ _ _)) (h _ _)

theorem dropOuvur_ctxSteady (c : Nat) (s : State) : CtxSteady s (dropOuvur c s) :=
  (endTransfer_ctxSteady c 0x0521 s).trans ⟨rfl, fun _ _ => rfl⟩

theorem haltMer_ctxSteady (keep : Bool) (s : State) : CtxSteady s (haltMer keep s) :=
  ((CtxSteady.setMer s _).wrLo rfl).wrLo rfl

theorem dropMer_ctxSteady (c : Nat) (s : State) : CtxSteady s (dropMer c s) := .ite (haltMer_ctxSteady _ s) (.refl s)

/-! ### Teardown -/

theorem releaseHandles_ctxSteady (c : Nat) (s : State) : CtxSteady s (releaseHandles c s) := .of_eq rfl rfl

/-- A teardown of an open context shows it as torn down and notes the cause; no time passes (R278, R335). -/
theorem teardown_effect {c : Nat} (cause : Nat) (causing : List (Nat × Nat × Nat)) {s : State} (h : ctxOpen s c = true) :
    (ctxOf (teardown c cause causing s) c).scrubCause = some cause ∧
      rd (teardown c cause causing s) HST_CTX_STATE.state (c * 0x100) = 2 ∧
      (teardown c cause causing s).clock = s.clock := by
  unfold teardown
  rw [if_neg (by rw [h]; simp)]
  suffices hrest : CtxSteady (wr HST_CTX_STATE.state (c * 0x100) 2 s) _ from
    ⟨by rw [ctxOf_modCtx_self], (hrest.state c (ctxOpen_lt h)).trans (rd_wr_self _ _ _ _), hrest.clock⟩
  refine CtxSteady.trans ?_ (modCtx_ctxSteady _ _ _)
  refine CtxSteady.trans ?_ (.foldl _ _ (fun x _ => .ite ((modCourse_ctxSteady _ _ x).wrLo rfl) (.refl x)) _)
  refine CtxSteady.trans ?_ (.setDay _ _)
  refine CtxSteady.trans ?_ ((refreshSieve_ctxSteady _).trans ((dropInput_ctxSteady _ _).trans
    ((dropMer_ctxSteady _ _).trans (dropOuvur_ctxSteady _ _))))
  refine CtxSteady.trans ?_ ((releaseHandles_ctxSteady _ _).trans (dropSieve_ctxSteady _ _))
  refine CtxSteady.trans ?_ (.setRings _ _)
  refine CtxSteady.trans ?_ (endDescs_ctxSteady _ _ _)
  refine .foldl _ _ (fun x l => ?_) _
  split
  · exact endLaunch_ctxSteady _ _ x
  · exact endLaunch_ctxSteady _ _ x

end Sys2Proof.Machine
end

section
namespace Sys2Proof.Machine

open Reg

/-! ## Budgets and the watchdog -/

/-- A fault that tears down, of a launch of an open context (R94, R278). -/
theorem faultInst_tears {id c status die unit : Nat} {p : List Nat} {s : State} {l : Launch}
    (hl : launchOf s id = some l) (ho : ctxOpen s l.ctx = true) :
    (ctxOf (faultInst id c status die unit p true s) l.ctx).scrubCause = some status ∧
      rd (faultInst id c status die unit p true s) HST_CTX_STATE.state (l.ctx * 0x100) = 2 ∧
      now (faultInst id c status die unit p true s) = now s := by
  have hev := event_ctxSteady status die l.ctx unit 1 p s
  obtain ⟨hcause, hstate, hclock⟩ :=
    teardown_effect status [(id, status, c)] ((hev.ctxOpen_eq l.ctx).trans ho)
  have hfault : faultInst id c status die unit p true s =
      teardown l.ctx status [(id, status, c)] (event status die l.ctx unit 1 p s) := by
    unfold faultInst
    rw [hl]
    exact if_pos rfl
  rw [hfault]
  exact ⟨hcause, hstate, congrArg ClockState.count (hclock.trans hev.clock)⟩

theorem exec_wcetExceeded_active {id c : Nat} {s : State} {l : Launch} {i : Inst} (hl : launchOf s id = some l)
    (hi : instOf s id c = some i) (hp : i.phase = .active)
    (hw : imgWcet l.image < i.cycles ∨ i.roles.any Role.counts = true) :
    exec (.wcetExceeded id c) s = .next (faultInst id c 0x0110 (courseDie c) ((i.roles.head?.map (·.brick)).getD 0) [] true s) := by
  change execWcetExceeded id c s = _
  unfold execWcetExceeded
  rw [hl, hi]
  exact congrArg Host.Outcome.next (if_pos ⟨hp, hw⟩)

/-- Whose teardown a Course's watchdog starts: the context that holds the Course, or whose state lies there (R79). -/
def wdogHolder (s : State) (c : Nat) : Nat := if courseCtx s c < 64 then courseCtx s c else (courseOf s c).owner

/-- The state in which a Course's watchdog, due at d, has reported its Bonds (R79). -/
def wdogReported (c d : Nat) (s : State) : State :=
  ((instsOn s c).filter (fun x => x.2.onCourse)).foldl
    (fun s y => event 0x0111 (courseDie c) y.1.ctx c 1 [] s)
    (modCourse c (fun y => { y with wdogAt := none }) (passTo d s))

theorem exec_courseWatchdogExpiry_armed {c d : Nat} {s : State} (h : (courseOf s c).wdogAt = some d) :
    exec (.courseWatchdogExpiry c) s = .next (teardown (wdogHolder s c) 0x0111
      (((instsOn s c).filter (fun x => x.2.onCourse)).map (fun y => (y.1.id, 0x0111, c))) (wdogReported c d s)) := by
  change execCourseWatchdogExpiry c s = _
  unfold execCourseWatchdogExpiry
  rw [h]
  rfl

theorem rd_passTicks (k : Nat) (s : State) {f : Field} {a : Nat} (h : fkey NWT_DIAL_NOW.dial_ns 0 ≠ fkey f a) :
    rd (passTicks k s) f a = rd s f a := rd_wr_ne _ _ _ _ _ _ h

theorem rd_pass (d : Nat) (s : State) {f : Field} {a : Nat} (h : fkey NWT_DIAL_NOW.dial_ns 0 ≠ fkey f a) :
    rd (pass d s) f a = rd s f a := rd_wr_ne _ _ _ _ _ _ h

/-- Time that passes changes no register but Dial time. -/
theorem rd_passTo (d : Nat) (s : State) {f : Field} {a : Nat} (h : fkey NWT_DIAL_NOW.dial_ns 0 ≠ fkey f a) :
    rd (passTo d s) f a = rd s f a := by
  unfold passTo
  split
  · split
    · exact rd_passTicks _ s h
    · exact rd_pass _ s h
  · rfl

theorem ctxOpen_passTo (d : Nat) (s : State) (c : Nat) : ctxOpen (passTo d s) c = ctxOpen s c := by
  unfold ctxOpen
  rw [rd_passTo]
  simp only [fkey, NWT_DIAL_NOW.dial_ns, HST_CTX_STATE.state]
  omega

theorem wdogReported_ctxSteady (c d : Nat) (s : State) : CtxSteady (passTo d s) (wdogReported c d s) :=
  (modCourse_ctxSteady c _ (passTo d s)).trans (.foldl _ _ (fun x _ => event_ctxSteady _ _ _ _ _ _ x) _)

/-! ## The Trowel's heartbeat -/

/-- Island i hears Course c, where it watches and its link to the Course's die is not lost (R80). -/
def hears (c : Nat) (s : State) (i : Nat) : State :=
  if watching s i && !(islandOf s i).lost.contains (courseDie c) then heardAt i c s else s

/-- Hearing changes the islands alone. -/
theorem hears_frame (c : Nat) (s : State) (i : Nat) :
    hears c s i = { s with isl := { s.isl with matin := (hears c s i).isl.matin, vesper := (hears c s i).isl.vesper } } := by
  unfold hears heardAt modIsland setIsland
  split
  · split
    · rfl
    · split <;> rfl
  · rfl

theorem islandOf_heardAt_self {i : Nat} (hi : i = 5 ∨ i = 6) (c : Nat) (s : State) :
    islandOf (heardAt i c s) i = { islandOf s i with heard := aset (islandOf s i).heard c (osc s) 0 } := by
  rcases hi with rfl | rfl <;> rfl

theorem islandOf_hears_self {i : Nat} (hi : i = 5 ∨ i = 6) (c : Nat) (s : State) : islandOf (hears c s i) i =
    if watching s i = true ∧ (islandOf s i).lost.contains (courseDie c) = false
    then { islandOf s i with heard := aset (islandOf s i).heard c (osc s) 0 } else islandOf s i := by
  unfold hears
  by_cases h : watching s i = true ∧ (islandOf s i).lost.contains (courseDie c) = false
  · rw [if_pos h, if_pos (by simpa using h), islandOf_heardAt_self hi]
  · rw [if_neg h, if_neg (by simpa using h)]

theorem islandOf_hears_5_6 (c : Nat) (s : State) : islandOf (hears c s 5) 6 = islandOf s 6 := by
  unfold hears
  split <;> rfl

theorem islandOf_hears_6_5 (c : Nat) (s : State) : islandOf (hears c s 6) 5 = islandOf s 5 := by
  unfold hears
  split <;> rfl

theorem osc_hears (c : Nat) (s : State) (i : Nat) : osc (hears c s i) = osc s := by rw [hears_frame]; rfl

theorem exec_trowelHeartbeat_run {c : Nat} {s : State} (hm : s.mode = .run) (hc : c < 64) :
    exec (.trowelHeartbeat c) s = .next (hears c (hears c
      (send .trowelHeartbeat [c, courseCtx s c, (courseOf s c).completions] s) 5) 6) := by
  change execTrowelHeartbeat c s = _
  unfold execTrowelHeartbeat
  rw [if_pos ⟨hm, hc⟩]
  rfl

/-- What both islands hold once each has heard a Course, or has not. -/
theorem islandOf_hears_both (c : Nat) (s : State) {i : Nat} (hi : i = 5 ∨ i = 6) :
    islandOf (hears c (hears c s 5) 6) i =
      if watching s i = true ∧ (islandOf s i).lost.contains (courseDie c) = false
      then { islandOf s i with heard := aset (islandOf s i).heard c (osc s) 0 } else islandOf s i := by
  rcases hi with rfl | rfl
  · rw [islandOf_hears_6_5, islandOf_hears_self (.inl rfl)]
  · have hw : watching (hears c s 5) 6 = watching s 6 := by
      unfold watching
      rw [islandOf_hears_5_6]
    rw [islandOf_hears_self (.inr rfl), hw, islandOf_hears_5_6, osc_hears]

/-! ## Resumption -/

/-- The instance of a launch on a Course sees nothing but the launches. -/
theorem instOf_congr {s t : State} (h : t.fab.launches = s.fab.launches) (id c : Nat) : instOf t id c = instOf s id c := by
  simp [instOf, launchOf, h]

/-- A Course with an active instance shows that it runs (R95). -/
theorem running_of_active {s : State} {id c : Nat} {i : Inst} (h : instOf s id c = some i) (hp : i.phase = .active) :
    rdB (refreshCourse c s) TRW_COURSE_STATE.running (atCourse c 0x100) = true := by
  obtain ⟨l, hl, hi⟩ := Option.bind_eq_some_iff.mp h
  have hc : (i.course == c) = true := List.find?_some (p := fun i : Inst => i.course == c) hi
  have hmem : i ∈ (s.fab.launches.map (·.insts)).flatten.filter (fun i => i.course == c && i.phase == .active) := by
    refine List.mem_filter.mpr ⟨List.mem_flatten.mpr ⟨l.insts, ?_, List.mem_of_find?_eq_some hi⟩, by simp [hc, hp]⟩
    exact List.mem_map_of_mem (List.mem_of_find?_eq_some hl)
  have hne : ((s.fab.launches.map (·.insts)).flatten.filter (fun i => i.course == c && i.phase == .active)).isEmpty = false :=
    List.isEmpty_eq_false_iff.mpr (List.ne_nil_of_mem hmem)
  unfold refreshCourse
  dsimp only
  rw [rdB, rd_wr_ne _ _ _ _ _ _ (by simp only [fkey, TRW_COURSE_STATE.busy_map, TRW_COURSE_STATE.running]; omega), hne]
  exact congrArg (· == 1) (rd_wr_self _ _ _ _)

/-- A role that stood at its PPOINT is past it (R81). -/
def Role.pastPpoint (r : Role) : Role :=
  if r.atPpoint then { r with atPpoint := false, ppoints := r.ppoints + 1 } else r

/-- An instance that resumes: active, its roles past their PPOINT (R81). -/
def Inst.resumed (i : Inst) : Inst := { i with phase := .active, roles := i.roles.map Role.pastPpoint }

theorem resumeInst_eq (id : Nat) (s : State) (i : Inst) : resumeInst id s i =
    refreshCourse i.course (restartWdog i.course (modInst id i.course Inst.resumed s)) := rfl

theorem resumeInst_onlyCourses (id : Nat) (s : State) (i : Inst) : OnlyCourses s (resumeInst id s i) :=
  ((modInst_onlyLaunches id i.course Inst.resumed s).toCourses.trans (restartWdog_onlyCourses _ _)).trans
    (refreshCourse_onlyCourses _ _)

/-- The only instance of a launch is found on its Course. -/
theorem instOf_of_single {s : State} {id : Nat} {l : Launch} {i : Inst} (hl : launchOf s id = some l) (hi : l.insts = [i]) :
    instOf s id i.course = some i := by
  simp [instOf, hl, hi]

/-- A resumed instance stands active on its Course, which shows that it runs. -/
theorem resumeInst_effect {s : State} {id : Nat} {i : Inst} (h : instOf s id i.course = some i) :
    instOf (resumeInst id s i) id i.course = some i.resumed ∧
      rdB (resumeInst id s i) TRW_COURSE_STATE.running (atCourse i.course 0x100) = true := by
  have hmod : instOf (restartWdog i.course (modInst id i.course Inst.resumed s)) id i.course = some i.resumed := by
    rw [instOf_congr (launches_restartWdog i.course _), instOf_modInst id i.course Inst.resumed s (fun _ => rfl), h]
    rfl
  rw [resumeInst_eq]
  exact ⟨(instOf_congr (launches_refreshCourse i.course _) id i.course).trans hmod, running_of_active hmod rfl⟩

theorem exec_instanceResume_single {s : State} {id : Nat} {l : Launch} {i : Inst} (hl : launchOf s id = some l)
    (hi : l.insts = [i]) (hp : i.phase = .preempted) (ho : trowelOpen s i.course = true)
    (hc : courseCtx s i.course = l.ctx) (hb : i.bricks.any (brickLost s id) = false) :
    exec (.instanceResume id) s = .next (resumeInst id s i) := by
  have hheld : l.insts.filter (fun i => i.phase == .preempted) = [i] := by simp [hi, hp]
  have hmulti : l.multi = false := by simp [Launch.multi, hi]
  have hfind : [i].find? (fun i => i.bricks.any (brickLost s id)) = none := by simp only [List.find?_cons, hb, List.find?_nil]
  change execInstanceResume id s = _
  unfold execInstanceResume
  rw [hl]
  dsimp only
  rw [hheld, if_neg (by simp [ho, hc, hmulti]), hfind]
  rfl

/-! ## A neighbour link's failure -/

/-- The bit that is set in a field is set, within the field's width. -/
theorem bit_setBit_self {m k w : Nat} (hk : k < w) (hm : bit m k = false) : bit (setBit m k true % 2 ^ w) k = true := by
  have htest : ∀ n i, bit n i = n.testBit i := fun n i => by
    rw [bit, Nat.testBit_eq_decide_div_mod_eq]
    simp [beq_eq_decide]
  unfold setBit
  rw [hm, if_neg Bool.false_ne_true, if_pos rfl, htest, Nat.testBit_mod_two_pow, Nat.add_comm,
    Nat.testBit_two_pow_add_eq, ← htest, hm]
  simpa using hk

theorem not_reportKey_linkFence (c : Nat) : ¬ reportKey (fkey TRW_LINK_FENCE.link_fenced (atCourse c 0x100)) := by
  simp only [reportKey, retryKey, fkey, atCourse, dieBase, TRW_LINK_FENCE.link_fenced, HST_EVT_DROP_COUNT.drops,
    HST_DEV_EQ_TAIL.tail, PLB_PORT_STATE.over_rate, HBM_CRC_RETRY_COUNT.retries, HST_CTX_STATE.stopped]
  rintro (e | e | e | ⟨d, e⟩ | ⟨d, -, e⟩) <;> omega

/-- A link that is fenced shows in its Course's map, and nothing of the fabric but registers changes (R86). -/
theorem fenceLink_effect {c k : Nat} {s : State} (hk : k < 24)
    (hb : bit (rd s TRW_LINK_FENCE.link_fenced (atCourse c 0x100)) k = false) :
    bit (rd (fenceLink c k s) TRW_LINK_FENCE.link_fenced (atCourse c 0x100)) k = true ∧
      (fenceLink c k s).fab = s.fab ∧ (fenceLink c k s).clock = s.clock := by
  unfold fenceLink
  dsimp only
  rw [if_neg (by rw [hb]; exact Bool.false_ne_true)]
  have hq := event_quiet 0x0121 (courseDie c) 0xFF (c * 16 + (linkEnds k).1) 1 [if k < 12 then 1 else 2]
    (wr TRW_LINK_FENCE.link_fenced (atCourse c 0x100)
      (setBit (rd s TRW_LINK_FENCE.link_fenced (atCourse c 0x100)) k true) s)
  refine ⟨?_, hq.toFab, hq.toClock⟩
  rw [hq.toRd _ _ (not_reportKey_linkFence c), rd_wr_self]
  exact bit_setBit_self hk hb

theorem exec_neighbourLinkFailure_idle {c k : Nat} {s : State} (hc : c < 64) (hk : k < 24)
    (hb : bit (rd s TRW_LINK_FENCE.link_fenced (atCourse c 0x100)) k = false)
    (ha : (instsOn s c).all (fun x => x.2.phase != .active) = true) :
    exec (.neighbourLinkFailure c k) s = .next (fenceLink c k s) := by
  have hinsts : instsOn (fenceLink c k s) c = instsOn s c := by
    unfold instsOn
    rw [(fenceLink_effect hk hb).2.1]
  have hnone : (instsOn s c).filter (fun x => x.2.phase == .active && usesLink x.1 x.2 k) = [] := by
    refine List.filter_eq_nil_iff.mpr fun x hx => ?_
    have hx' := List.all_eq_true.mp ha x hx
    simp only [bne_iff_ne] at hx'
    simp [hx']
  change execNeighbourLinkFailure c k s = _
  unfold execNeighbourLinkFailure
  dsimp only
  rw [if_pos ⟨hc, hk, by rw [hb]; rfl⟩, hinsts, hnone]
  rfl

/-- Settles O14: the two teardowns, the heartbeat, the resumption and the fence, each by its own lemma. -/
theorem trowelBudgetsAndHeartbeat : Obligations.TrowelBudgetsAndHeartbeat := by
  unfold Obligations.TrowelBudgetsAndHeartbeat
  refine ⟨fun s id c l i hl hi hp hw ho => ?_, fun s c d h hd ht hh ho => ?_, fun s c hm hc => ?_,
    fun s id c l i hl hi hic hp ho hctx hb => ?_, fun s c k hc hk hb ha => ?_⟩
  · exact ⟨_, exec_wcetExceeded_active hl hi hp hw, faultInst_tears hl ho⟩
  · subst hh
    have hrep := wdogReported_ctxSteady c d s
    obtain ⟨hcause, hstate, hclock⟩ := teardown_effect 0x0111
      (((instsOn s c).filter (fun x => x.2.onCourse)).map (fun y => (y.1.id, 0x0111, c)))
      ((hrep.ctxOpen_eq (wdogHolder s c)).trans ((ctxOpen_passTo d s _).trans ho))
    refine ⟨_, exec_courseWatchdogExpiry_armed hd, ?_, hcause, hstate⟩
    exact (congrArg ClockState.count (hclock.trans hrep.clock)).trans (now_passTo d s ht)
  · refine ⟨_, exec_trowelHeartbeat_run hm hc, ?_, fun i hi => ?_, ?_⟩
    · rw [hears_frame, hears_frame]
      rfl
    · exact islandOf_hears_both c _ (by simpa using hi)
    · rw [hears_frame, hears_frame]
      rfl
  · subst hic
    obtain ⟨hat, hrun⟩ := resumeInst_effect (instOf_of_single hl hi)
    have hframe := resumeInst_onlyCourses id s i
    exact ⟨_, exec_instanceResume_single hl hi hp ho hctx hb, hrun, hat, hframe.mem, hframe.rings⟩
  · exact ⟨_, exec_neighbourLinkFailure_idle hc hk hb ha, fenceLink_effect hk hb⟩

end Sys2Proof.Machine
end

section
namespace Sys2Proof.Machine

/-! ## Accumulator tiles -/

/-- What a table gives after the values of a list have been set from a key on. -/
theorem aget_foldl_aset (vals : List Nat) (base : Nat) (m : AMap Nat) (k : Nat) :
    aget (((List.range vals.length).zip vals).foldl (fun m e => aset m (base + e.1) e.2 0) m) k 0 =
      if base ≤ k ∧ k < base + vals.length then vals.getD (k - base) 0 else aget m k 0 := by
  induction vals using List.reverseRecOn with
  | nil => simp
  | append_singleton l v ih =>
    have hzip : (List.range (l ++ [v]).length).zip (l ++ [v]) = (List.range l.length).zip l ++ [(l.length, v)] := by
      rw [List.length_append, List.length_singleton, List.range_succ, List.zip_append (by simp)]
      rfl
    rw [hzip, List.foldl_append, List.foldl_cons, List.foldl_nil, aget_aset _ _ _ _ _ _ (fun _ => rfl), ih]
    by_cases hk : base + l.length = k
    · subst hk
      simp
    · rw [if_neg hk]
      by_cases hin : base ≤ k ∧ k < base + l.length
      · rw [if_pos hin, if_pos (by simp; omega), List.getD_append _ _ _ _ (by omega)]
      · rw [if_neg hin, if_neg (by simp; omega)]

theorem getElem?_accTile (s : State) (b k i : Nat) :
    (accTile s b k)[i]? = if i < 1024 then some (accWord s b k i) else none := by
  unfold accTile
  rw [List.getElem?_map]
  split
  · rw [List.getElem?_range ‹_›]
    rfl
  · rw [List.getElem?_eq_none (by simp; omega)]
    rfl

theorem length_accTile (s : State) (b k : Nat) : (accTile s b k).length = 1024 :=
  (List.length_map _).trans List.length_range

theorem accTile_eq_of_words {s t : State} {b k : Nat} (h : ∀ i < 1024, accWord t b k i = accWord s b k i) :
    accTile t b k = accTile s b k :=
  List.map_congr_left fun i hi => h i (List.mem_range.mp hi)

/-- A tile sees nothing but the accumulators. -/
theorem accTile_congr {s t : State} (h : t.fab.acc = s.fab.acc) (b k : Nat) : accTile t b k = accTile s b k :=
  accTile_eq_of_words fun i _ => by simp only [accWord, h]

theorem accWord_wrAccTile (b k m i : Nat) {l : List Nat} (hl : l.length = 1024) (s : State) :
    accWord (wrAccTile b k l s) b m i = if (b * 4 + k) * 1024 ≤ (b * 4 + m) * 1024 + i ∧
      (b * 4 + m) * 1024 + i < (b * 4 + k) * 1024 + 1024 then
        l.getD ((b * 4 + m) * 1024 + i - (b * 4 + k) * 1024) 0 else accWord s b m i := by
  have h := aget_foldl_aset l ((b * 4 + k) * 1024) s.fab.acc ((b * 4 + m) * 1024 + i)
  rw [hl] at h
  simp only [accWord, wrAccTile]
  exact h

/-- A tile that is set holds what was set. -/
theorem accTile_wrAccTile_self (b k : Nat) {l : List Nat} (hl : l.length = 1024) (s : State) :
    accTile (wrAccTile b k l s) b k = l := by
  refine List.ext_getElem? fun i => ?_
  rw [getElem?_accTile]
  split
  · rename_i hi
    rw [accWord_wrAccTile b k k i hl, if_pos (by omega), Nat.add_sub_cancel_left, List.getD_eq_getElem _ _ (by omega),
      List.getElem?_eq_getElem (by omega)]
  · rw [List.getElem?_eq_none (by omega)]

theorem accTile_wrAccTile_ne (b : Nat) {k m : Nat} (hm : m ≠ k) {l : List Nat} (hl : l.length = 1024) (s : State) :
    accTile (wrAccTile b k l s) b m = accTile s b m := by
  refine accTile_eq_of_words fun i hi => ?_
  rw [accWord_wrAccTile b k m i hl, if_neg (by omega)]

theorem accWord_zeroTile_self (b k : Nat) {i : Nat} (hi : i < 1024) (s : State) : accWord (zeroTile b k s) b k i = 0 :=
  (aget_aclear _ _ _ _ _).trans (if_pos (by omega))

theorem accTile_zeroTile_self (b k : Nat) (s : State) : accTile (zeroTile b k s) b k = List.replicate 1024 0 := by
  refine List.eq_replicate_iff.mpr ⟨length_accTile _ _ _, fun v hv => ?_⟩
  obtain ⟨i, hi, rfl⟩ := List.mem_map.mp hv
  exact accWord_zeroTile_self b k (List.mem_range.mp hi) s

theorem accTile_zeroTile_ne (b : Nat) {k m : Nat} (hm : m ≠ k) (s : State) :
    accTile (zeroTile b k s) b m = accTile s b m :=
  accTile_eq_of_words fun i hi => (aget_aclear _ _ _ _ _).trans (if_neg (by omega))

/-! ## Operands -/

/-- What a streamer reads depends on the Beds alone. -/
theorem bedBytes_congr {s t : State} (h : t.fab.bed = s.fab.bed) : bedBytes t = bedBytes s := by
  funext b a n
  simp only [bedBytes, bedByte, h]

theorem runTable_congr {s t : State} (h : t.fab.bed = s.fab.bed) (b : Nat) (r : StreamRec) : runTable t b r = runTable s b r := by
  simp only [runTable, bedBytes_congr h]

theorem streamFault_congr {s t : State} (h : t.fab.bed = s.fab.bed) (img : List Nat) (b : Nat) (r : StreamRec) (f kb : Nat)
    (base : Int) : streamFault t img b r f kb base = streamFault s img b r f kb base := by
  simp only [streamFault, runTable_congr h]

theorem coveredCode_congr {s t : State} (h : t.fab.bed = s.fab.bed) : coveredCode t = coveredCode s := by
  funext b f base runs lane k
  simp only [coveredCode, runElem, bedBytes_congr h]

theorem streamElem_congr {s t : State} (h : t.fab.bed = s.fab.bed) : streamElem t = streamElem s := by
  funext b f r base runs lane k
  simp only [streamElem, coveredCode_congr h, bedBytes_congr h]

theorem rotated_congr {s t : State} (h : t.fab.bed = s.fab.bed) (g : t.fab.hod = s.fab.hod) : rotated t = rotated s := by
  funext x f r base runs kb lane k
  simp only [rotated, streamElem_congr h, rotEntry, hodBytes, hodByte, g]

/-- The operands of a block depend on the Beds and the Hods alone. -/
theorem operandBlock_congr {s t : State} (h : t.fab.bed = s.fab.bed) (g : t.fab.hod = s.fab.hod) :
    operandBlock t = operandBlock s := by
  funext x f r base runs kb n
  simp only [operandBlock, operandCode, coveredCode_congr h, streamElem_congr h, rotated_congr h g]

/-! ## The fold of blocks -/

/-- From s to t only launches and accumulators have changed. -/
def OnlyTiles (s t : State) : Prop :=
  t = { s with fab := { s.fab with acc := t.fab.acc, launches := t.fab.launches } }

namespace OnlyTiles

variable {s t u : State}

protected theorem refl (s : State) : OnlyTiles s s := rfl

protected theorem trans (h : OnlyTiles s t) (g : OnlyTiles t u) : OnlyTiles s u := by
  unfold OnlyTiles at h g ⊢
  rw [g, h]

theorem frame (h : OnlyTiles s t) : t = { s with fab := t.fab } := by
  unfold OnlyTiles at h
  rw [h]

theorem bed (h : OnlyTiles s t) : t.fab.bed = s.fab.bed := congrArg (·.fab.bed) h
theorem hod (h : OnlyTiles s t) : t.fab.hod = s.fab.hod := congrArg (·.fab.hod) h

end OnlyTiles

theorem setAcc_onlyTiles (acc : AMap Nat) (s : State) : OnlyTiles s { s with fab := { s.fab with acc := acc } } := rfl

theorem wrAccTile_onlyTiles (b k : Nat) (l : List Nat) (s : State) : OnlyTiles s (wrAccTile b k l s) := setAcc_onlyTiles _ s

theorem zeroTile_onlyTiles (b k : Nat) (s : State) : OnlyTiles s (zeroTile b k s) := rfl

theorem roleAt_wrAccTile (x : Site) (b k : Nat) (l : List Nat) (s : State) : roleAt (wrAccTile b k l s) x = roleAt s x := by
  unfold wrAccTile
  exact roleAt_congr x rfl

theorem OnlyLaunches.toTiles {s t : State} (h : OnlyLaunches s t) : OnlyTiles s t := by
  unfold OnlyLaunches at h
  unfold OnlyTiles
  rw [h]

theorem length_foldTile (fa fb : Nat) (a b : List (List Nat)) {acc : List Nat} (h : acc.length = 1024) :
    (foldTile fa fb a b acc).1.length = 1024 := by
  unfold foldTile
  rw [List.length_map, List.length_map, List.length_zip, List.length_range, h, Nat.min_self]

/-- The words of a tile after block n of an MMA is folded into it, the operands read in s (R117). -/
def foldedWords (j : MmaJob) (x : Site) (s : State) (acc : List Nat) (n : Nat) : List Nat :=
  (foldTile j.fa j.fb (operandBlock s x j.fa j.ra j.baseA (runTable s x.role.brick j.ra) j.kb n).1
    (operandBlock s x j.fb j.rb j.baseB (runTable s x.role.brick j.rb) j.kb n).1 acc).1

theorem foldedWords_congr {s t : State} (h : OnlyTiles s t) (j : MmaJob) (x : Site) : foldedWords j x t = foldedWords j x s := by
  funext acc n
  simp only [foldedWords, operandBlock_congr h.bed h.hod, runTable_congr h.bed]

/-- One block: its words, and counts on the instance and the role. -/
theorem foldBlocks_succ (j : MmaJob) (x : Site) (n : Nat) (s : State) : ∃ cycles flags,
    foldBlocks j x 0 (n + 1) s = addCycles x cycles (noteArith x flags (wrAccTile x.role.brick j.tile
      (foldTile j.fa j.fb
        (operandBlock (foldBlocks j x 0 n s) x j.fa j.ra j.baseA (runTable s x.role.brick j.ra) j.kb n).1
        (operandBlock (foldBlocks j x 0 n s) x j.fb j.rb j.baseB (runTable s x.role.brick j.rb) j.kb n).1
        (accTile (foldBlocks j x 0 n s) x.role.brick j.tile)).1 (foldBlocks j x 0 n s))) := by
  unfold foldBlocks
  simp only [Nat.sub_zero, Nat.zero_add, List.range_succ, List.foldl_append, List.foldl_cons, List.foldl_nil]
  exact ⟨_, _, rfl⟩

theorem foldBlocks_zero (j : MmaJob) (x : Site) (s : State) : foldBlocks j x 0 0 s = s := by
  unfold foldBlocks
  rw [Nat.sub_zero, List.range_zero, List.foldl_nil]

/-- What the blocks below n of an MMA leave: the fold of their operands in its tile, the other tiles, and the role with the
cycles counted (R77, R117). -/
theorem foldBlocks_effect (j : MmaJob) (x : Site) (n : Nat) (s : State) :
    OnlyTiles s (foldBlocks j x 0 n s) ∧
      accTile (foldBlocks j x 0 n s) x.role.brick j.tile =
        (List.range n).foldl (foldedWords j x s) (accTile s x.role.brick j.tile) ∧
      (∀ k ≠ j.tile, accTile (foldBlocks j x 0 n s) x.role.brick k = accTile s x.role.brick k) ∧
      ∃ c, roleAt (foldBlocks j x 0 n s) x = (roleAt s x).map (fun r => { r with cycles := r.cycles + c }) := by
  induction n with
  | zero =>
    rw [foldBlocks_zero, List.range_zero, List.foldl_nil]
    exact ⟨.refl s, rfl, fun _ _ => rfl, 0, Option.map_id'.symm ▸ rfl⟩
  | succ n ih =>
    obtain ⟨hframe, htile, hother, c, hrole⟩ := ih
    obtain ⟨cycles, flags, hstep⟩ := foldBlocks_succ j x n s
    have hlen := length_foldTile j.fa j.fb
      (operandBlock (foldBlocks j x 0 n s) x j.fa j.ra j.baseA (runTable s x.role.brick j.ra) j.kb n).1
      (operandBlock (foldBlocks j x 0 n s) x j.fb j.rb j.baseB (runTable s x.role.brick j.rb) j.kb n).1
      (length_accTile (foldBlocks j x 0 n s) x.role.brick j.tile)
    have hacc : ∀ k u, accTile (addCycles x cycles (noteArith x flags u)) x.role.brick k = accTile u x.role.brick k :=
      fun k u => accTile_congr rfl _ _
    rw [hstep]
    refine ⟨hframe.trans ((wrAccTile_onlyTiles _ _ _ _).trans ((noteArith_onlyLaunches _ _ _).toTiles.trans
      (addCycles_onlyLaunches _ _ _).toTiles)), ?_, fun k hk => ?_, c + cycles, ?_⟩
    · rw [hacc, accTile_wrAccTile_self _ _ hlen, htile, List.range_succ, List.foldl_append,
        operandBlock_congr hframe.bed hframe.hod, List.foldl_cons, List.foldl_nil, foldedWords]
    · rw [hacc, accTile_wrAccTile_ne _ hk hlen, hother k hk]
    · rw [roleAt_addCycles, roleAt_noteArith, roleAt_wrAccTile, hrole, Option.map_map]
      cases roleAt s x with
      | none => rfl
      | some r => simp only [Option.map_some, Function.comp_apply, Nat.add_assoc]

/-! ## MMA and DRAIN -/

/-- The state in which an MMA has taken its tile bases and cleared its tile where its word says so (R65). -/
def mmaBegun (x : Site) (j : MmaJob) (s : State) : State :=
  let s1 := setRole x (fun r => { (r.modAgen (streamRec x.role.streamers 0).ag (fun g => g.skip 1)).modAgen
    (streamRec x.role.streamers 1).ag (fun g => g.skip 1) with
    accFp := setAt r.accFp j.tile (!pairInt j.fa j.fb) }) s
  if bit x.role.word 13 then zeroTile x.role.brick j.tile s1 else s1

theorem mmaBegun_onlyTiles (x : Site) (j : MmaJob) (s : State) : OnlyTiles s (mmaBegun x j s) := by
  unfold mmaBegun
  dsimp only
  split
  · exact (setRole_onlyLaunches x _ s).toTiles.trans (zeroTile_onlyTiles _ _ _)
  · exact (setRole_onlyLaunches x _ s).toTiles

theorem accTile_mmaBegun_self (x : Site) (j : MmaJob) (s : State) : accTile (mmaBegun x j s) x.role.brick j.tile =
    if bit x.role.word 13 then List.replicate 1024 0 else accTile s x.role.brick j.tile := by
  unfold mmaBegun
  dsimp only
  split
  · exact accTile_zeroTile_self _ _ _
  · exact accTile_congr rfl _ _

theorem accTile_mmaBegun_ne (x : Site) (j : MmaJob) (s : State) {k : Nat} (hk : k ≠ j.tile) :
    accTile (mmaBegun x j s) x.role.brick k = accTile s x.role.brick k := by
  unfold mmaBegun
  dsimp only
  split
  · rw [accTile_zeroTile_ne _ hk]
    exact accTile_congr rfl _ _
  · exact accTile_congr rfl _ _

/-- An MMA that has begun notes whether its tile holds FP32, and stands where it stood. -/
theorem roleAt_mmaBegun {x : Site} {s : State} (j : MmaJob) (hr : roleAt s x = some x.role) :
    ∃ a, roleAt (mmaBegun x j s) x =
      some { x.role with agens := a, accFp := setAt x.role.accFp j.tile (!pairInt j.fa j.fb) } := by
  have hzero : ∀ k u, roleAt (zeroTile x.role.brick k u) x = roleAt u x := fun k u => roleAt_congr x rfl
  unfold mmaBegun
  dsimp only
  split
  · rw [hzero, roleAt_setRole, hr]
    exact ⟨_, rfl⟩
  · rw [roleAt_setRole, hr]
    exact ⟨_, rfl⟩

theorem exec_mma_plain {s : State} {b : Nat} {x : Site} {j : MmaJob} (h : issuing s b opMma = some x)
    (hj : j = mmaJob x x.role.pc
      ((x.role.agen (streamRec x.role.streamers 0).ag).addr (x.role.agen (streamRec x.role.streamers 0).ag).pos)
      (((x.role.modAgen (streamRec x.role.streamers 0).ag (fun g => g.skip 1)).agen (streamRec x.role.streamers 1).ag).addr
        ((x.role.modAgen (streamRec x.role.streamers 0).ag (fun g => g.skip 1)).agen (streamRec x.role.streamers 1).ag).pos))
    (hq : j.quoin = false) (ha : streamFault s x.launch.image x.role.brick j.ra j.fa j.kb j.baseA = none)
    (hb : streamFault s x.launch.image x.role.brick j.rb j.fb j.kb j.baseB = none) :
    exec (.mma b .none) s = .next (goOn x (foldBlocks j x 0 j.kb (mmaBegun x j s))) := by
  have hbed := (mmaBegun_onlyTiles x j s).bed
  have hstop : mmaStop j x (mmaBegun x j s) = none := by
    unfold mmaStop
    rw [streamFault_congr hbed, ha, streamFault_congr hbed, hb]
  have hfrom : mmaFrom j x 0 .none (mmaBegun x j s) = goOn x (foldBlocks j x 0 j.kb (mmaBegun x j s)) := by
    unfold mmaFrom mmaFinish
    simp only [hstop, hq, Bool.not_false, if_true]
  subst hj
  change execMma b .none s = _
  unfold execMma
  rw [h]
  exact congrArg Host.Outcome.next hfrom

theorem exec_drain_issuing {s : State} {b : Nat} {x : Site} (h : issuing s b opDrain = some x) :
    exec (.drain b) s = .next (goOn x (zeroTile b (bits x.role.word 14 2) (setRole x (fun r => { r with
      drained := some ⟨accTile s b (bits x.role.word 14 2), r.accFp.getD (bits x.role.word 14 2) false⟩ }) s))) := by
  change execDrain b s = _
  unfold execDrain
  rw [h]

/-- Settles O10: the fold of an MMA's blocks by `foldBlocks_effect`, the drained tile by the laws of tiles. -/
theorem macArray : Obligations.MacArray := by
  unfold Obligations.MacArray
  refine ⟨fun s b x j h hr hbrick hj hq ha hb => ?_, fun s b x k h hr hk => ?_⟩
  · subst hbrick
    obtain ⟨hframe, htile, hother, c, hrole⟩ := foldBlocks_effect j x j.kb (mmaBegun x j s)
    have hbegun := mmaBegun_onlyTiles x j s
    obtain ⟨a, hstart⟩ := roleAt_mmaBegun j hr
    have hall := (hbegun.trans hframe).trans (goOn_onlyLaunches x _).toTiles
    have hacc : ∀ k u, accTile (goOn x u) x.role.brick k = accTile u x.role.brick k := fun k u => accTile_congr rfl _ _
    refine ⟨_, exec_mma_plain h hj hq ha hb, ?_, ?_, ?_, fun k _ hk => ?_, hall.frame, hall.bed, hall.hod⟩
    · rw [hacc, htile, foldedWords_congr hbegun, accTile_mmaBegun_self]
      rfl
    · rw [roleAt_goOn, hrole, hstart]
      rfl
    · rw [roleAt_goOn, hrole, hstart]
      rfl
    · rw [hacc, hother k hk, accTile_mmaBegun_ne x j s hk]
  · subst hk
    have hacc : ∀ m u, accTile (goOn x u) b m = accTile u b m := fun m u => accTile_congr rfl _ _
    have hrole : ∀ k u, roleAt (zeroTile b k u) x = roleAt u x := fun k u => roleAt_congr x rfl
    refine ⟨_, exec_drain_issuing h, ?_, fun i hi => accWord_zeroTile_self b _ hi _, fun m _ hm => ?_, rfl, rfl, rfl⟩
    · rw [roleAt_goOn, hrole, roleAt_setRole, hr]
      rfl
    · rw [hacc, accTile_zeroTile_ne b hm]
      exact accTile_congr rfl _ _

end Sys2Proof.Machine
end

section
namespace Sys2Proof.Machine

/-! ## Bytes of a Bed -/

/-- What a byte table gives after bytes are put from a key on. -/
theorem aget_putBytes (data : List Nat) (m : AMap Byte) (k j : Nat) : aget (putBytes m k data) j 0 =
    if k ≤ j ∧ j < k + data.length then BitVec.ofNat 8 (data.getD (j - k) 0) else aget m j 0 := by
  induction data generalizing m k with
  | nil => rw [if_neg (by simp), putBytes]
  | cons v r ih =>
    rw [putBytes, ih, aget_aset _ _ _ _ _ _ (fun _ => rfl)]
    by_cases hj : k = j
    · subst hj
      rw [if_neg (by omega), if_pos rfl, if_pos (by simp), Nat.sub_self]
      rfl
    · rw [if_neg hj]
      by_cases hin : k + 1 ≤ j ∧ j < k + 1 + r.length
      · rw [if_pos hin, if_pos (by simp; omega), show j - k = j - (k + 1) + 1 by omega, List.getD_cons_succ]
      · rw [if_neg hin, if_neg (by simp; omega)]

theorem aget_bed_wrBed (b a : Nat) (data : List Nat) (s : State) (k : Nat) : aget (wrBed b a data s).fab.bed k 0 =
    if b * 262144 + a ≤ k ∧ k < b * 262144 + a + data.length then BitVec.ofNat 8 (data.getD (k - (b * 262144 + a)) 0)
    else aget s.fab.bed k 0 :=
  aget_putBytes data s.fab.bed (b * 262144 + a) k

theorem bedByte_wrBed (b a : Nat) (data : List Nat) (s : State) (i : Nat) : bedByte (wrBed b a data s) b i =
    if a ≤ i ∧ i < a + data.length then data.getD (i - a) 0 % 256 else bedByte s b i := by
  unfold bedByte
  rw [aget_bed_wrBed]
  by_cases h : a ≤ i ∧ i < a + data.length
  · rw [if_pos h, if_pos (by omega), Nat.add_sub_add_left, BitVec.toNat_ofNat]
  · rw [if_neg h, if_neg (by omega)]

/-- A write that stays inside its own Brick's Bed leaves every other Bed. -/
theorem bedByte_wrBed_other {b n a i : Nat} {data : List Nat} (s : State) (hn : n ≠ b) (hi : i < 262144)
    (ha : a + data.length ≤ 262144) : bedByte (wrBed b a data s) n i = bedByte s n i := by
  unfold bedByte
  rw [aget_bed_wrBed, if_neg (by omega)]

theorem bedByte_lt (s : State) (b a : Nat) : bedByte s b a < 256 := (aget s.fab.bed (b * 262144 + a) 0).isLt

theorem length_bedBytes (s : State) (b a n : Nat) : (bedBytes s b a n).length = n :=
  (List.length_map _).trans List.length_range

theorem getD_bedBytes (s : State) (b a : Nat) {n i : Nat} (hi : i < n) : (bedBytes s b a n).getD i 0 = bedByte s b (a + i) := by
  rw [List.getD_eq_getElem _ _ (by rw [length_bedBytes]; exact hi)]
  simp [bedBytes]

theorem bedBytes_lt (s : State) (b a n : Nat) : ∀ v ∈ bedBytes s b a n, v < 256 := by
  intro v hv
  obtain ⟨i, -, rfl⟩ := List.mem_map.mp hv
  exact bedByte_lt s b _

/-- Bytes are equal where each byte is. -/
theorem bedBytes_eq_iff {s : State} {b a n : Nat} {l : List Nat} (hl : l.length = n) :
    bedBytes s b a n = l ↔ ∀ i < n, bedByte s b (a + i) = l.getD i 0 := by
  constructor
  · rintro rfl i hi
    exact (getD_bedBytes s b a hi).symm
  · intro h
    refine List.ext_getElem (by rw [length_bedBytes, hl]) fun i hi hi' => ?_
    have := h i (hl ▸ hi')
    rw [List.getD_eq_getElem _ _ hi'] at this
    simpa [bedBytes] using this

/-- What is written is read back. -/
theorem bedBytes_wrBed_self (b a : Nat) {n : Nat} {data : List Nat} (s : State) (hn : data.length = n)
    (hb : ∀ v ∈ data, v < 256) : bedBytes (wrBed b a data s) b a n = data := by
  subst hn
  refine (bedBytes_eq_iff rfl).mpr fun i hi => ?_
  rw [bedByte_wrBed, if_pos (by omega), Nat.add_sub_cancel_left, List.getD_eq_getElem _ _ hi]
  exact Nat.mod_eq_of_lt (hb _ (List.getElem_mem hi))

/-! ## Lines that a generator yields -/

/-- Where byte i of the lines of a generator lies. -/
def lineByte (lines : List Int) (i : Nat) : Nat := (lines.getD (i / 64) 0).toNat * 64 + i % 64

theorem lineByte_div (lines : List Int) (i : Nat) : lineByte lines i / 64 = (lines.getD (i / 64) 0).toNat := by
  unfold lineByte
  omega

theorem getD_mem_of_lt {lines : List Int} {k : Nat} (h : k < lines.length) : lines.getD k 0 ∈ lines := by
  rw [List.getD_eq_getElem _ _ h]
  exact List.getElem_mem h

/-- The line of a byte of the lines is one of them. -/
theorem lineByte_div_mem {lines : List Int} {i : Nat} (h : i < 64 * lines.length) :
    lineByte lines i / 64 ∈ lines.map Int.toNat :=
  lineByte_div lines i ▸ List.mem_map_of_mem (getD_mem_of_lt (by omega))

/-- Distinct lines hold distinct bytes. -/
theorem lineByte_injective {lines : List Int} (hd : lines.Nodup) (hn : ∀ a ∈ lines, 0 ≤ a) {i j : Nat}
    (hi : i < 64 * lines.length) (hj : j < 64 * lines.length) (h : lineByte lines i = lineByte lines j) : i = j := by
  have hline : (lines.getD (i / 64) 0).toNat = (lines.getD (j / 64) 0).toNat := by
    rw [← lineByte_div, h, lineByte_div]
  have hi' : i / 64 < lines.length := by omega
  have hj' : j / 64 < lines.length := by omega
  have hini := hn _ (getD_mem_of_lt hi')
  have hinj := hn _ (getD_mem_of_lt hj')
  have heq : lines.getD (i / 64) 0 = lines.getD (j / 64) 0 := by omega
  rw [List.getD_eq_getElem _ _ hi', List.getD_eq_getElem _ _ hj', hd.getElem_inj_iff] at heq
  have hmod : i % 64 = j % 64 := by
    unfold lineByte at h
    omega
  omega

theorem bedLineOk_iff (img : List Nat) (a : Int) : bedLineOk img a = true ↔ 0 ≤ a ∧ (a + 1) * 64 ≤ (imgBed img : Int) := by
  unfold bedLineOk
  rw [Bool.and_eq_true, decide_eq_true_iff, decide_eq_true_iff]

theorem linesOk_iff (img : List Nat) (l : List Int) : linesOk img l = true ↔ ∀ a ∈ l, bedLineOk img a = true := by
  unfold linesOk
  rw [List.all_eq_true]

theorem nonneg_of_linesOk {img : List Nat} {l : List Int} (h : linesOk img l = true) : ∀ a ∈ l, 0 ≤ a :=
  fun a ha => ((bedLineOk_iff img a).mp ((linesOk_iff img l).mp h a ha)).1

/-- A line in bounds of a Bond whose Bed is no larger than a Brick's ends inside the Brick's. -/
theorem toNat_lt_of_bedLineOk {img : List Nat} {a : Int} (h : bedLineOk img a = true) (hb : imgBed img ≤ 262144) :
    a.toNat * 64 + 64 ≤ 262144 := by
  have := (bedLineOk_iff img a).mp h
  omega

/-- The bytes of a run, one after the other. -/
theorem wrRun_append (b : Nat) (lines : List Int) (l : List Nat) (v : Nat) (s : State) :
    wrRun b lines 0 (l ++ [v]) s = wrBed b (lineByte lines l.length) [v] (wrRun b lines 0 l s) := by
  have hzip : (List.range (l ++ [v]).length).zip (l ++ [v]) = (List.range l.length).zip l ++ [(l.length, v)] := by
    rw [List.length_append, List.length_singleton, List.range_succ, List.zip_append (by simp)]
    rfl
  unfold wrRun lineByte
  rw [hzip, List.foldl_append, List.foldl_cons, List.foldl_nil, Nat.zero_add]

theorem wrRun_nil (b : Nat) (lines : List Int) (s : State) : wrRun b lines 0 [] s = s := rfl

/-- A run leaves every byte that none of its lines holds. -/
theorem aget_bed_wrRun_of_ne (b : Nat) (lines : List Int) (data : List Nat) (s : State) {k : Nat}
    (h : ∀ i < data.length, b * 262144 + lineByte lines i ≠ k) :
    aget (wrRun b lines 0 data s).fab.bed k 0 = aget s.fab.bed k 0 := by
  induction data using List.reverseRecOn with
  | nil => rw [wrRun_nil]
  | append_singleton l v ih =>
    have hlen : (l ++ [v]).length = l.length + 1 := by simp
    have hne := h l.length (by omega)
    rw [wrRun_append, aget_bed_wrBed, if_neg (by simp; omega)]
    exact ih fun i hi => h i (by omega)

theorem bedByte_wrRun_of_ne (b : Nat) (lines : List Int) (data : List Nat) (s : State) {a : Nat}
    (h : ∀ i < data.length, lineByte lines i ≠ a) : bedByte (wrRun b lines 0 data s) b a = bedByte s b a :=
  congrArg BitVec.toNat (aget_bed_wrRun_of_ne b lines data s fun i hi heq => h i hi (by omega))

/-- Bytes outside the lines stay. -/
theorem bedByte_wrRun_of_notMem (b : Nat) {lines : List Int} {data : List Nat} (s : State) {a : Nat}
    (hlen : data.length ≤ 64 * lines.length) (h : a / 64 ∉ lines.map Int.toNat) :
    bedByte (wrRun b lines 0 data s) b a = bedByte s b a :=
  bedByte_wrRun_of_ne b lines data s fun i hi heq => h (heq ▸ lineByte_div_mem (by omega))

/-- A run whose lines lie inside its own Brick's Bed leaves every other Bed. -/
theorem bedByte_wrRun_other {b n a : Nat} {lines : List Int} {data : List Nat} (s : State)
    (hlen : data.length ≤ 64 * lines.length) (hin : ∀ l ∈ lines, l.toNat * 64 + 64 ≤ 262144) (hn : n ≠ b)
    (ha : a < 262144) : bedByte (wrRun b lines 0 data s) n a = bedByte s n a := by
  refine congrArg BitVec.toNat (aget_bed_wrRun_of_ne b lines data s fun i hi heq => ?_)
  have := hin _ (getD_mem_of_lt (lines := lines) (k := i / 64) (by omega))
  unfold lineByte at heq
  omega

/-- Byte i of what a run over distinct lines writes lies where byte i of the lines does. -/
theorem bedByte_wrRun_lineByte (b : Nat) {lines : List Int} (hd : lines.Nodup) (hn : ∀ a ∈ lines, 0 ≤ a) {data : List Nat}
    (s : State) (hlen : data.length ≤ 64 * lines.length) {i : Nat} (hi : i < data.length) :
    bedByte (wrRun b lines 0 data s) b (lineByte lines i) = data.getD i 0 % 256 := by
  induction data using List.reverseRecOn with
  | nil => exact absurd hi (Nat.not_lt_zero _)
  | append_singleton l v ih =>
    have hl : (l ++ [v]).length = l.length + 1 := by simp
    rw [wrRun_append, bedByte_wrBed]
    by_cases hlast : i = l.length
    · subst hlast
      simp
    · have hne : lineByte lines i ≠ lineByte lines l.length := fun h =>
        hlast (lineByte_injective hd hn (by omega) (by omega) h)
      rw [if_neg (by simp; omega), ih (by omega) (by omega), List.getD_append _ _ _ _ (by omega)]

theorem length_runBytes (s : State) (b : Nat) (lines : List Int) (off n : Nat) : (runBytes s b lines off n).length = n :=
  (List.length_map _).trans List.length_range

/-- A run of bytes over distinct lines is read back. -/
theorem runBytes_wrRun (b : Nat) {lines : List Int} (hd : lines.Nodup) (hn : ∀ a ∈ lines, 0 ≤ a) {data : List Nat} {n : Nat}
    (s : State) (hdata : data.length = n) (hlen : n ≤ 64 * lines.length) (hb : ∀ v ∈ data, v < 256) :
    runBytes (wrRun b lines 0 data s) b lines 0 n = data := by
  subst hdata
  refine List.ext_getElem (length_runBytes _ _ _ _ _) fun i hi hi' => ?_
  have h := bedByte_wrRun_lineByte b hd hn s hlen hi'
  rw [List.getD_eq_getElem _ _ hi', Nat.mod_eq_of_lt (hb _ (List.getElem_mem hi'))] at h
  simpa [runBytes, lineByte] using h

theorem runBytes_congr {s t : State} (h : t.fab.bed = s.fab.bed) (b : Nat) (lines : List Int) (off n : Nat) :
    runBytes t b lines off n = runBytes s b lines off n := by
  simp only [runBytes, bedByte, h]

theorem bedByte_congr {s t : State} (h : t.fab.bed = s.fab.bed) (b a : Nat) : bedByte t b a = bedByte s b a := by
  simp only [bedByte, h]

/-! ## Packed elements -/

/-- The length of parts of one length, joined. -/
theorem length_flatten_map {α : Type} {f : α → List Nat} {n : Nat} (h : ∀ x, (f x).length = n) (l : List α) :
    (l.map f).flatten.length = l.length * n := by
  have heach : (List.length ∘ f) = fun _ => n := funext h
  rw [List.length_flatten, List.map_map, heach, List.map_const', List.sum_replicate, smul_eq_mul]

/-- Bytes, joined, are bytes. -/
theorem lt_of_mem_flatten_map {α : Type} {f : α → List Nat} (h : ∀ x, ∀ v ∈ f x, v < 256) (l : List α) :
    ∀ v ∈ (l.map f).flatten, v < 256 := by
  intro v hv
  obtain ⟨p, hp, hvp⟩ := List.mem_flatten.mp hv
  obtain ⟨x, -, rfl⟩ := List.mem_map.mp hp
  exact h x v hvp

theorem length_leBytes (n v : Nat) : (leBytes n v).length = n := by
  induction n generalizing v with
  | zero => rfl
  | succ n ih => rw [leBytes, List.length_cons, ih]

theorem leBytes_lt (n v : Nat) : ∀ b ∈ leBytes n v, b < 256 := by
  induction n generalizing v with
  | zero => exact fun b hb => absurd hb List.not_mem_nil
  | succ n ih =>
    intro b hb
    rw [leBytes, List.mem_cons] at hb
    obtain rfl | hb := hb
    · exact Nat.mod_lt _ (by decide)
    · exact ih _ b hb

theorem leNat_leBytes_two (v : Nat) : leNat (leBytes 2 v) = v % 65536 := by
  simp only [leBytes, leNat]
  omega

/-- Every format takes 4, 8, 16 or 32 bits for an element (R100 to R102). -/
theorem storeBits_cases (f : Nat) : storeBits f = 4 ∨ storeBits f = 8 ∨ storeBits f = 16 ∨ storeBits f = 32 := by
  unfold storeBits
  split <;> simp

theorem pack_lt (f : Nat) (codes : List Nat) : ∀ v ∈ pack f codes, v < 256 := by
  intro v hv
  unfold pack at hv
  obtain h | h | h | h := storeBits_cases f <;> simp only [h] at hv
  · obtain ⟨i, -, rfl⟩ := List.mem_map.mp hv
    omega
  · obtain ⟨c, -, rfl⟩ := List.mem_map.mp hv
    omega
  · exact lt_of_mem_flatten_map (leBytes_lt 2) codes v hv
  · exact lt_of_mem_flatten_map (leBytes_lt 4) codes v hv

theorem length_pack (f : Nat) (codes : List Nat) : (pack f codes).length = packedBytes f codes.length := by
  unfold pack packedBytes divUp
  obtain h | h | h | h := storeBits_cases f <;> simp only [h]
  · rw [List.length_map, List.length_range]
    omega
  · rw [List.length_map]
    omega
  · rw [length_flatten_map (length_leBytes _)]
    omega
  · rw [length_flatten_map (length_leBytes _)]
    omega

end Sys2Proof.Machine
end

section
namespace Sys2Proof.Machine

/-! ## Writes into Beds -/

/-- From s to t only launches and Beds have changed. -/
def OnlyBeds (s t : State) : Prop :=
  t = { s with fab := { s.fab with bed := t.fab.bed, launches := t.fab.launches } }

namespace OnlyBeds

variable {s t u : State}

protected theorem refl (s : State) : OnlyBeds s s := rfl

protected theorem trans (h : OnlyBeds s t) (g : OnlyBeds t u) : OnlyBeds s u := by
  unfold OnlyBeds at h g ⊢
  rw [g, h]

theorem frame (h : OnlyBeds s t) : t = { s with fab := t.fab } := by
  unfold OnlyBeds at h
  rw [h]

theorem hod (h : OnlyBeds s t) : t.fab.hod = s.fab.hod := congrArg (·.fab.hod) h
theorem acc (h : OnlyBeds s t) : t.fab.acc = s.fab.acc := congrArg (·.fab.acc) h
theorem mem (h : OnlyBeds s t) : t.mem = s.mem := congrArg (·.mem) h

end OnlyBeds

theorem OnlyLaunches.toBeds {s t : State} (h : OnlyLaunches s t) : OnlyBeds s t := by
  unfold OnlyLaunches at h
  unfold OnlyBeds
  rw [h]

theorem wrBed_onlyBeds (b a : Nat) (data : List Nat) (s : State) : OnlyBeds s (wrBed b a data s) := rfl

theorem wrRun_onlyBeds (b : Nat) (lines : List Int) (data : List Nat) (s : State) : OnlyBeds s (wrRun b lines 0 data s) := by
  induction data using List.reverseRecOn with
  | nil => exact .refl s
  | append_singleton l v ih =>
    rw [wrRun_append]
    exact ih.trans (wrBed_onlyBeds _ _ _ _)

/-! ## The Lane unit -/

theorem length_laneDst (x : Site) (op : Nat) : (laneJob x op).1.dst.length =
    divUp (laneWrites op (laneJob x op).1.out (laneJob x op).1.n) 64 :=
  (List.length_map _).trans List.length_range

/-- What a LANE instruction of one vector leaves (R122, R132): its n bytes of results packed in the lines of its destination, and
nothing else changed in the Brick's Bed, the Hods, the accumulators or outside the Courses. -/
def LaneWrote (s t : State) (brick : Nat) (j : LaneJob) (n : Nat) (codes : List Nat) : Prop :=
  runBytes t brick j.dst 0 n = pack j.out codes ∧
    (∀ a, (a / 64 : Nat) ∉ j.dst.map Int.toNat → bedByte t brick a = bedByte s brick a) ∧
    t = { s with fab := t.fab } ∧ t.fab.hod = s.fab.hod ∧ t.fab.acc = s.fab.acc

theorem wrRun_wrote (s : State) (brick : Nat) {img : List Nat} {j : LaneJob} {n : Nat} {codes : List Nat}
    (hn : packedBytes j.out codes.length = n) (hok : linesOk img j.dst = true) (hd : j.dst.Nodup)
    (hlen : n ≤ 64 * j.dst.length) : LaneWrote s (wrRun brick j.dst 0 (pack j.out codes) s) brick j n codes := by
  have hall := wrRun_onlyBeds brick j.dst (pack j.out codes) s
  have hdata := (length_pack j.out codes).trans hn
  exact ⟨runBytes_wrRun _ hd (nonneg_of_linesOk hok) s hdata hlen (pack_lt _ _),
    fun a ha => bedByte_wrRun_of_notMem _ s (hdata ▸ hlen) ha, hall.frame, hall.hod, hall.acc⟩

/-- Counts on launches and the role's own moves take nothing back. -/
theorem LaneWrote.then {s t u : State} {brick : Nat} {j : LaneJob} {n : Nat} {codes : List Nat}
    (h : LaneWrote s t brick j n codes) (g : OnlyLaunches t u) : LaneWrote s u brick j n codes := by
  obtain ⟨hread, hkeep, hframe, hhod, hacc⟩ := h
  refine ⟨(runBytes_congr g.bed _ _ _ _).trans hread, fun a ha => (bedByte_congr g.bed _ a).trans (hkeep a ha), ?_,
    g.hod.trans hhod, g.acc.trans hacc⟩
  rw [g.frame, hframe]

theorem goOn_put_wrote (s : State) {x : Site} {j : LaneJob} (f : Role → Role) {res : List (Nat × Nat)} (fl : Nat)
    {n : Nat} {codes : List Nat} (hcodes : res.map (·.1) = codes) (hn : packedBytes j.out codes.length = n)
    (hok : linesOk x.launch.image j.dst = true) (hd : j.dst.Nodup) (hlen : n ≤ 64 * j.dst.length) :
    LaneWrote s (goOn x (setRole x f (j.put x 0 res fl s))) x.role.brick j n codes := by
  have hput : j.put x 0 res fl s = noteArith x (orFlags (res.map (·.2)) ||| fl)
      (wrRun x.role.brick j.dst 0 (pack j.out codes) s) := by
    unfold LaneJob.put
    rw [Nat.zero_mul, hcodes]
  rw [hput]
  exact (wrRun_wrote s _ hn hok hd hlen).then ((noteArith_onlyLaunches _ _ _).trans
    ((setRole_onlyLaunches x f _).trans (goOn_onlyLaunches x _)))

/-- A LANE instruction that meets nothing and whose lines are in bounds works through its vectors (R68). -/
theorem laneStep_issuing {s : State} {b op : Nat} {x : Site} (h : issuing s b op = some x)
    (hsrc : linesOk x.launch.image (laneJob x op).1.src = true) (hdst : linesOk x.launch.image (laneJob x op).1.dst = true) :
    laneStep b op .none s = goOn x (setRole x (laneJob x op).2
      (if op = opUnary then (List.range (laneJob x op).1.n).foldl (unaryVec (laneJob x op).1 x) s
      else if op = opBinary then (List.range (laneJob x op).1.n).foldl (binaryVec (laneJob x op).1 x) s
      else if op = opReduce then reduceAll (laneJob x op).1 x s
      else (List.range (laneJob x op).1.n).foldl (convertVec (laneJob x op).1 x) s)) := by
  unfold laneStep
  rw [h]
  change laneRun x op s = _
  unfold laneRun
  simp only [hsrc, hdst, Bool.not_true, Bool.or_false, Bool.false_eq_true, if_false]

/-- One vector's bytes fit the destination lines of UNARY, BINARY and CONVERT. -/
theorem vecBytes_le_laneDst {x : Site} {op : Nat} (hop : op ≠ opReduce) (hn : (laneJob x op).1.n = 1) :
    packedBytes (laneJob x op).1.out 64 ≤ 64 * (laneJob x op).1.dst.length := by
  rw [length_laneDst, laneWrites, if_neg hop, hn, Nat.one_mul]
  exact le_divUp_mul _ 64 (by decide)

theorem reduceBytes_le_laneDst {x : Site} (hn : (laneJob x opReduce).1.n = 1) :
    packedBytes (laneJob x opReduce).1.out 1 ≤ 64 * (laneJob x opReduce).1.dst.length := by
  rw [length_laneDst, laneWrites, if_pos rfl, hn]
  exact le_divUp_mul _ 64 (by decide)

theorem length_readVec (j : LaneJob) (s : State) (x : Site) (k pos : Nat) : (j.readVec s x k pos).length = 64 := by
  simp [LaneJob.readVec, unpack]

theorem length_first (j : LaneJob) (s : State) (x : Site) (k v : Nat) : (j.first s x k v).length = 64 := by
  unfold LaneJob.first
  split
  · simp
  · exact length_readVec _ _ _ _ _

theorem exec_unary_one {s : State} {b : Nat} {x : Site} (h : issuing s b opUnary = some x) (hn : (laneJob x opUnary).1.n = 1)
    (hsrc : linesOk x.launch.image (laneJob x opUnary).1.src = true)
    (hdst : linesOk x.launch.image (laneJob x opUnary).1.dst = true) :
    exec (.unary b .none) s = .next (goOn x (setRole x (laneJob x opUnary).2 (unaryVec (laneJob x opUnary).1 x s 0))) := by
  have hrun := laneStep_issuing h hsrc hdst
  rw [if_pos rfl, hn, List.range_one, List.foldl_cons, List.foldl_nil] at hrun
  exact congrArg Host.Outcome.next hrun

theorem exec_binary_one {s : State} {b : Nat} {x : Site} (h : issuing s b opBinary = some x)
    (hn : (laneJob x opBinary).1.n = 1) (hsrc : linesOk x.launch.image (laneJob x opBinary).1.src = true)
    (hdst : linesOk x.launch.image (laneJob x opBinary).1.dst = true) :
    exec (.binary b .none) s = .next (goOn x (setRole x (laneJob x opBinary).2 (binaryVec (laneJob x opBinary).1 x s 0))) := by
  have hrun := laneStep_issuing h hsrc hdst
  rw [if_neg (by decide), if_pos rfl, hn, List.range_one, List.foldl_cons, List.foldl_nil] at hrun
  exact congrArg Host.Outcome.next hrun

theorem exec_reduce_all {s : State} {b : Nat} {x : Site} (h : issuing s b opReduce = some x)
    (hsrc : linesOk x.launch.image (laneJob x opReduce).1.src = true)
    (hdst : linesOk x.launch.image (laneJob x opReduce).1.dst = true) :
    exec (.reduce b .none) s = .next (goOn x (setRole x (laneJob x opReduce).2 (reduceAll (laneJob x opReduce).1 x s))) := by
  have hrun := laneStep_issuing h hsrc hdst
  rw [if_neg (by decide), if_neg (by decide), if_pos rfl] at hrun
  exact congrArg Host.Outcome.next hrun

theorem exec_convert_one {s : State} {b : Nat} {x : Site} (h : issuing s b opConvert = some x)
    (hn : (laneJob x opConvert).1.n = 1) (hsrc : linesOk x.launch.image (laneJob x opConvert).1.src = true)
    (hdst : linesOk x.launch.image (laneJob x opConvert).1.dst = true) :
    exec (.convert b .none) s =
      .next (goOn x (setRole x (laneJob x opConvert).2 (convertVec (laneJob x opConvert).1 x s 0))) := by
  have hrun := laneStep_issuing h hsrc hdst
  rw [if_neg (by decide), if_neg (by decide), if_neg (by decide), hn, List.range_one, List.foldl_cons, List.foldl_nil] at hrun
  exact congrArg Host.Outcome.next hrun

/-- Vector 0 of BINARY with a function other than 5 reads its operands as the first two vectors of its source. -/
theorem binaryVec_zero {j : LaneJob} (x : Site) (s : State) (hfn : j.fn ≠ 5) (ht : j.tile = none) : ∃ fl,
    binaryVec j x s 0 = j.put x 0 (((List.range 64).zip ((j.readVec s x 0 0).zip (j.readVec s x 1 0))).map (fun e =>
      laneWrite j.out j.mode (x.randomAt e.1) [e.2.1.1, e.2.2.1] (binaryVal j.fn (.fin {}) e.2.1.1 e.2.2.1))) fl s := by
  unfold binaryVec LaneJob.first
  simp only [if_neg hfn, ht, Option.isSome_none, Bool.false_eq_true, if_false, Nat.zero_mul, Nat.mul_zero, Nat.zero_add]
  exact ⟨_, rfl⟩

/-- Vector 0 of UNARY takes its random numbers by the place in the vector alone. -/
theorem unaryVec_zero (j : LaneJob) (x : Site) (s : State) : ∃ fl,
    unaryVec j x s 0 = j.put x 0 (((List.range 64).zip (j.first s x 0 0)).map (fun e =>
      laneWrite j.out j.mode (x.randomAt e.1) [e.2.1] (unaryVal j.fn x.role.laneTable e.2.1))) fl s := by
  unfold unaryVec
  simp only [Nat.zero_mul, Nat.zero_add]
  exact ⟨_, rfl⟩

theorem reduceAll_one {j : LaneJob} (x : Site) (s : State) (hn : j.n = 1) :
    reduceAll j x s = j.put x 0 [reduceOne j s x 0] 0 s := by
  unfold reduceAll
  rw [hn, List.range_one, List.map_singleton]

/-- Settles O11: each vector's results by the laws of writes to generated lines and of packing. -/
theorem laneUnit : Obligations.LaneUnit := by
  unfold Obligations.LaneUnit
  refine ⟨?_, ?_, ?_, ?_⟩
  · rintro s b x _ h - rfl hn hsrc hdst hd
    obtain ⟨fl, hvec⟩ := unaryVec_zero (laneJob x opUnary).1 x s
    refine ⟨_, exec_unary_one h hn hsrc hdst, ?_⟩
    rw [hvec]
    exact goOn_put_wrote s _ fl List.map_map (by simp [length_first, vecBytes]) hdst hd (vecBytes_le_laneDst (by decide) hn)
  · rintro s b x _ h - rfl hn hfn htile hsrc hdst hd
    obtain ⟨fl, hvec⟩ := binaryVec_zero x s hfn htile
    refine ⟨_, exec_binary_one h hn hsrc hdst, ?_⟩
    rw [hvec]
    exact goOn_put_wrote s _ fl List.map_map (by simp [length_readVec, vecBytes]) hdst hd (vecBytes_le_laneDst (by decide) hn)
  · rintro s b x _ h - rfl hn hsrc hdst hd
    refine ⟨_, exec_reduce_all h hsrc hdst, ?_⟩
    rw [reduceAll_one x s hn]
    exact goOn_put_wrote s _ 0 rfl rfl hdst hd (reduceBytes_le_laneDst hn)
  · rintro s b x _ h - rfl hn hsrc hdst hd
    refine ⟨_, exec_convert_one h hn hsrc hdst, ?_⟩
    exact goOn_put_wrote s _ 0 List.map_map (by simp [vecBytes]) hdst hd (vecBytes_le_laneDst (by decide) hn)

end Sys2Proof.Machine
end

section
namespace Sys2Proof.Machine

open Reg

/-! ## Memory writes do not see the Beds -/

/-- A state with the bytes of its Beds replaced. -/
def withBed (b : AMap Byte) (s : State) : State := { s with fab := { s.fab with bed := b } }

section

variable (b : AMap Byte)

theorem foldl_withBed {α : Type} {f : State → α → State} (h : ∀ s a, f (withBed b s) a = withBed b (f s a)) (l : List α)
    (s : State) : l.foldl f (withBed b s) = withBed b (l.foldl f s) :=
  List.foldl_hom (withBed b) (fun s a => h s a)

theorem police_withBed (p k n : Nat) (s : State) : police p k n (withBed b s) = withBed b (police p k n s) := by
  unfold police
  simp only [apply_ite (withBed b)]
  rfl

theorem policeRange_withBed (p a n : Nat) (s : State) :
    policeRange p a n (withBed b s) = withBed b (policeRange p a n s) :=
  foldl_withBed b (fun s _ => police_withBed b _ _ _ s) _ s

theorem setLineKey_withBed (l k : Nat) (s : State) : setLineKey l k (withBed b s) = withBed b (setLineKey l k s) := rfl

theorem rekeyLine_withBed (l k : Nat) (s : State) : rekeyLine l k (withBed b s) = withBed b (rekeyLine l k s) := by
  have hold : ∀ i, physByte (withBed b s) i k = physByte s i k := fun _ => rfl
  unfold rekeyLine
  rw [apply_ite (withBed b)]
  refine if_congr Iff.rfl rfl ?_
  simp only [hold]
  rw [foldl_withBed b (fun _ _ => rfl), setLineKey_withBed]

theorem putPhys_withBed (p k : Nat) (l : List Nat) (s : State) : putPhys p k l (withBed b s) = withBed b (putPhys p k l s) := by
  unfold putPhys
  dsimp only
  rw [foldl_withBed b (fun s x => rekeyLine_withBed b x k s)]
  rw [foldl_withBed b (fun _ _ => rfl), foldl_withBed b (fun s x => by rw [apply_ite (withBed b)]; rfl)]

theorem drainOverlap_withBed (p n : Nat) (s : State) : drainOverlap p n (withBed b s) = withBed b (drainOverlap p n s) := by
  unfold drainOverlap drainQueues
  have h := foldl_withBed b (f := fun s w => drainOne w s) (fun s w => putPhys_withBed b w.phys w.key w.data s)
  dsimp only
  rw [h]
  rfl

theorem applyWrite_withBed (a : Nat) (l : List Nat) (s : State) : applyWrite a l (withBed b s) = withBed b (applyWrite a l s) := by
  unfold applyWrite
  rw [apply_ite (withBed b)]
  refine if_congr Iff.rfl ?_ ?_
  · rw [drainOverlap_withBed, putPhys_withBed]
    rfl
  · rw [apply_ite (withBed b)]
    exact if_congr Iff.rfl (foldl_withBed b (fun _ _ => rfl) _ s) rfl

theorem meetLink_withBed (k p : Nat) (s : State) :
    meetLink k p (withBed b s) = Prod.map id (withBed b) (meetLink k p s) := by
  unfold meetLink
  dsimp only
  rw [apply_ite (Prod.map id (withBed b))]
  rfl

theorem miscorrect_withBed (l : Nat) (s : State) : miscorrect l (withBed b s) = withBed b (miscorrect l s) := by
  unfold miscorrect
  rw [show (withBed b s).fresh = s.fresh from rfl, foldl_withBed b (fun _ _ => rfl)]
  rfl

theorem meetCode_withBed (l : Nat) (s : State) : meetCode l (withBed b s) = Prod.map id (withBed b) (meetCode l s) := by
  have hsym : (withBed b s).mem = s.mem := rfl
  have hstray : strayLine (withBed b s) l = strayLine s l := rfl
  unfold meetCode
  rw [apply_ite (Prod.map id (withBed b)), apply_ite (Prod.map id (withBed b)), hsym, hstray]
  refine if_congr Iff.rfl rfl (if_congr Iff.rfl rfl ?_)
  split
  · rfl
  · rfl
  · rfl
  · dsimp only
    rw [apply_ite (Prod.map id (withBed b))]
    refine if_congr Iff.rfl rfl ?_
    exact congrArg (Prod.mk _) (miscorrect_withBed b l (mended l (draw s 2).2))

theorem meetAt_withBed (k l : Nat) (r : Bool) (s : State) :
    meetAt k l r (withBed b s) = Prod.map id (withBed b) (meetAt k l r s) := by
  unfold meetAt
  rw [meetLink_withBed]
  dsimp only [Prod.map_fst, Prod.map_snd, id_eq]
  rw [meetCode_withBed, apply_ite (Prod.map id (withBed b)), apply_ite (Prod.map id (withBed b))]
  rfl

theorem meetLine_withBed (a : Nat) (r : Bool) (s : State) :
    meetLine a r (withBed b s) = Prod.map id (withBed b) (meetLine a r s) := by
  have hphys : physOf (withBed b s) a = physOf s a := rfl
  have hstack : stackIdx (withBed b s) a = stackIdx s a := rfl
  have howner : ownerOf (withBed b s) a = ownerOf s a := rfl
  have hdrain : (if r then drainOverlap (physOf s a) 64 (withBed b s) else withBed b s) =
      withBed b (if r then drainOverlap (physOf s a) 64 s else s) := by
    rw [drainOverlap_withBed, apply_ite (withBed b)]
  have hpoison : ∀ (c : Bool) t, (if c then poisonLine (physOf s a / 64) (withBed b t) else withBed b t) =
      withBed b (if c then poisonLine (physOf s a / 64) t else t) := by
    intro c t
    rw [apply_ite (withBed b)]
    rfl
  unfold meetLine
  dsimp only
  rw [hphys, hstack, howner, hdrain, meetAt_withBed]
  dsimp only [Prod.map_fst, Prod.map_snd, id_eq]
  rw [hpoison]
  rfl

theorem meetWrites_withBed (a n : Nat) (l : List Nat) (s : State) :
    meetWrites a n l (withBed b s) = Prod.map id (withBed b) (meetWrites a n l s) := by
  induction l generalizing s with
  | nil => rfl
  | cons x r ih =>
    unfold meetWrites
    rw [meetLine_withBed]
    dsimp only [Prod.map_fst, Prod.map_snd, id_eq]
    rw [ih]
    rfl

theorem meetWrite_withBed (a n : Nat) (s : State) :
    meetWrite a n (withBed b s) = Prod.map id (withBed b) (meetWrite a n s) := by
  unfold meetWrite
  rw [apply_ite (Prod.map id (withBed b)), meetWrites_withBed]
  rfl

/-- A write to memory is served alike, and does the same, whatever the Beds hold. -/
theorem writeMem_withBed (p c a : Nat) (l : List Nat) (s : State) :
    writeMem p c a l (withBed b s) = Prod.map id (withBed b) (writeMem p c a l s) := by
  have hstatus : rangeStatus (withBed b s) p c a l.length true = rangeStatus s p c a l.length true := rfl
  have hpolice : (if a < hbmEnd then policeRange p a l.length (withBed b s) else withBed b s) =
      withBed b (if a < hbmEnd then policeRange p a l.length s else s) := by
    rw [policeRange_withBed, apply_ite (withBed b)]
  unfold writeMem
  rw [hstatus]
  split
  · dsimp only
    rw [hpolice, meetWrite_withBed]
    dsimp only [Prod.map_fst, Prod.map_snd, id_eq]
    rw [foldl_withBed b (fun s x => applyWrite_withBed b x.1 x.2 s)]
    rfl
  · rfl

end

end Sys2Proof.Machine
end

section
namespace Sys2Proof.Machine

open Reg

/-! ## Lines moved from Bed to Bed -/

/-- The bytes of a line of a Brick's Bed. -/
def lineOf (s : State) (brick : Nat) (a : Int) : List Nat := bedBytes s brick (a.toNat * 64) 64

/-- The state after the first n lines of a MOVE from Bed to Bed. -/
def movedLines (brick : Nat) (src dst : List Int) (n : Nat) (s : State) : State :=
  (List.range n).foldl (fun s i => wrBed brick ((dst.getD i 0).toNat * 64) (lineOf s brick (src.getD i 0)) s) s

theorem movedLines_succ (brick : Nat) (src dst : List Int) (n : Nat) (s : State) : movedLines brick src dst (n + 1) s =
    wrBed brick ((dst.getD n 0).toNat * 64) (lineOf (movedLines brick src dst n s) brick (src.getD n 0))
      (movedLines brick src dst n s) := by
  unfold movedLines
  rw [List.range_succ, List.foldl_append, List.foldl_cons, List.foldl_nil]

theorem length_lineOf (s : State) (brick : Nat) (a : Int) : (lineOf s brick a).length = 64 := length_bedBytes _ _ _ _

/-- Lines moved change nothing but the bytes of Beds. -/
theorem movedLines_eq_withBed (brick : Nat) (src dst : List Int) (n : Nat) (s : State) :
    ∃ b, movedLines brick src dst n s = withBed b s := by
  induction n with
  | zero => exact ⟨s.fab.bed, rfl⟩
  | succ n ih =>
    obtain ⟨b, hb⟩ := ih
    rw [movedLines_succ, hb]
    exact ⟨_, rfl⟩

/-- Bytes of lines that are no destination stay. -/
theorem bedByte_movedLines_of_notMem (brick : Nat) (src : List Int) {dst : List Int} {n a : Nat} (s : State)
    (hn : n ≤ dst.length) (h : a / 64 ∉ dst.map Int.toNat) :
    bedByte (movedLines brick src dst n s) brick a = bedByte s brick a := by
  induction n with
  | zero => rfl
  | succ n ih =>
    have hline : a / 64 ≠ (dst.getD n 0).toNat := fun heq =>
      h (heq ▸ List.mem_map_of_mem (getD_mem_of_lt (by omega)))
    rw [movedLines_succ, bedByte_wrBed, length_lineOf, if_neg (by omega)]
    exact ih (by omega)

theorem bedByte_movedLines_other {brick m a : Nat} {src dst : List Int} {n : Nat} (s : State)
    (hn : n ≤ dst.length) (hin : ∀ l ∈ dst, l.toNat * 64 + 64 ≤ 262144) (hm : m ≠ brick) (ha : a < 262144) :
    bedByte (movedLines brick src dst n s) m a = bedByte s m a := by
  induction n with
  | zero => rfl
  | succ n ih =>
    have hline := hin _ (getD_mem_of_lt (show n < dst.length by omega))
    rw [movedLines_succ, bedByte_wrBed_other _ hm ha (by rw [length_lineOf]; exact hline)]
    exact ih (by omega)

/-- A line of which no byte changes. -/
theorem lineOf_congr {s t : State} {brick : Nat} {a : Int} (h : ∀ i, i / 64 = a.toNat → bedByte t brick i = bedByte s brick i) :
    lineOf t brick a = lineOf s brick a :=
  List.map_congr_left fun i hi => h _ (by have := List.mem_range.mp hi; omega)

/-- A line that is no destination stays. -/
theorem lineOf_movedLines_of_notMem (brick : Nat) (src : List Int) {dst : List Int} {n : Nat} (s : State) {a : Int}
    (hn : n ≤ dst.length) (hpos : ∀ l ∈ dst, 0 ≤ l) (ha : 0 ≤ a) (h : a ∉ dst) :
    lineOf (movedLines brick src dst n s) brick a = lineOf s brick a := by
  refine lineOf_congr fun i hi => bedByte_movedLines_of_notMem brick src s hn fun hmem => ?_
  obtain ⟨l, hl, hli⟩ := List.mem_map.mp hmem
  have := hpos l hl
  exact h ((show a = l by omega) ▸ hl)

/-- Each destination line holds the bytes of its source line (R777). -/
theorem lineOf_movedLines {brick : Nat} {src dst : List Int} {n k : Nat} (s : State) (hk : k < n) (hn : n ≤ dst.length)
    (hsrc : n ≤ src.length) (hd : dst.Nodup) (hpos : ∀ l ∈ dst, 0 ≤ l) (hspos : ∀ l ∈ src, 0 ≤ l)
    (hapart : ∀ a ∈ src, a ∉ dst) :
    lineOf (movedLines brick src dst n s) brick (dst.getD k 0) = lineOf s brick (src.getD k 0) := by
  induction n with
  | zero => exact absurd hk (Nat.not_lt_zero _)
  | succ n ih =>
    have hread : lineOf (movedLines brick src dst n s) brick (src.getD n 0) = lineOf s brick (src.getD n 0) :=
      have hmem := getD_mem_of_lt (show n < src.length by omega)
      lineOf_movedLines_of_notMem brick src s (by omega) hpos (hspos _ hmem) (hapart _ hmem)
    rw [movedLines_succ, hread]
    by_cases hlast : k = n
    · subst hlast
      exact bedBytes_wrBed_self brick _ _ (length_lineOf _ _ _) (bedBytes_lt s brick _ _)
    · have hne : (dst.getD k 0).toNat ≠ (dst.getD n 0).toNat := by
        intro heq
        have hkl := hpos _ (getD_mem_of_lt (show k < dst.length by omega))
        have hnl := hpos _ (getD_mem_of_lt (show n < dst.length by omega))
        have hval : dst.getD k 0 = dst.getD n 0 := by omega
        rw [List.getD_eq_getElem _ _ (by omega), List.getD_eq_getElem _ _ (by omega), hd.getElem_inj_iff] at hval
        exact hlast hval
      rw [← ih (by omega) (by omega) (by omega)]
      refine lineOf_congr fun i hi => ?_
      rw [bedByte_wrBed, length_lineOf, if_neg (by omega)]

/-! ## A MOVE from Bed to Bed -/

theorem length_agenTake (g : Agen) (n : Nat) : (g.take n).length = n := (List.length_map _).trans List.length_range

/-- A line within bounds whose source generator is not armed moves, and a COPYG takes it into its block. -/
theorem moveLine_bed {x : Site} {j : MoveJob} {src dst : List Int} {m : MoveRun} {i : Nat} (hs : j.sk = 0) (hd : j.dk = 0)
    (harm : (x.role.agen j.g).grout = none) (hstop : m.stop = none) (hbad : m.bad = none)
    (hsrc : bedLineOk x.launch.image (src.getD i 0) = true) (hdst : bedLineOk x.launch.image (dst.getD i 0) = true) :
    moveLine x j src dst m i = groutLine x j (dst.getD i 0) (lineOf m.s x.role.brick (src.getD i 0))
      { m with s := wrBed x.role.brick ((dst.getD i 0).toNat * 64) (lineOf m.s x.role.brick (src.getD i 0)) m.s } := by
  have hread : moveRead x j.sk j.dir (src.getD i 0) m.s = (none, lineOf m.s x.role.brick (src.getD i 0), m.s) := by
    unfold moveRead
    rw [hs]
    exact if_pos hsrc
  have hwrite : ∀ data, moveWrite x j.dk j.dir (dst.getD i 0) data m.s =
      (none, wrBed x.role.brick ((dst.getD i 0).toNat * 64) data m.s) := by
    intro data
    unfold moveWrite
    rw [hd]
    exact if_pos hdst
  have hcheck : ∀ data r, checkLine x j (src.getD i 0) data r = r := by
    intro data r
    unfold checkLine armedNow
    rw [harm]
    rfl
  unfold moveLine
  simp only [hread, hcheck, hwrite, hstop, hbad, Option.isSome_none, Bool.false_eq_true, or_self, if_false]

theorem exec_copy_issuing {s : State} {b : Nat} {x : Site} (h : issuing s b opCopy = some x) :
    exec (.copy b .none) s = .next (moveRun x .none false s) := by
  change execCopy b .none s = _
  unfold execCopy
  rw [h]
  rfl

theorem exec_copyg_issuing {s : State} {b : Nat} {x : Site} (h : issuing s b opCopyg = some x) :
    exec (.copyg b .none) s = .next (moveRun x .none true s) := by
  change execCopyg b .none s = _
  unfold execCopyg
  rw [h]
  rfl

/-- The move of a role's generators past a MOVE, with the blocks that it wrote (R543). -/
def moveAdvance (j : MoveJob) (checked : Nat) (wrote : List Nat) (r : Role) : Role :=
  { (r.modAgen j.g (fun g => { g.skip j.n with
      grout := g.grout.bind (fun a => if checked < a.blocks then some ⟨a.table + checked, a.blocks - checked⟩ else none) })).modAgen
    ((j.g + 1) % 4) (fun g => g.skip j.n) with groutWrote := wrote ++ r.groutWrote }

/-- A MOVE whose lines have all moved, with no block begun, goes on. -/
theorem moveRun_done {x : Site} {g : Bool} {s : State} {m : MoveRun} (hfold : (List.range (moveJob x.role.word g).n).foldl
      (moveLine x (moveJob x.role.word g) ((x.role.agen (moveJob x.role.word g).g).take (moveJob x.role.word g).n)
        ((x.role.agen (((moveJob x.role.word g).g + 1) % 4)).take (moveJob x.role.word g).n)) { s := s } = m)
    (hstop : m.stop = none) (hbad : m.bad = none) (hsrc : m.src = []) (hdst : m.dst = []) :
    moveRun x .none g s = goOn x (setRole x (moveAdvance (moveJob x.role.word g) m.checked m.wrote) m.s) := by
  unfold moveRun
  simp only [hfold, hstop, hbad, hsrc, hdst, List.isEmpty_nil, Bool.not_true, Bool.false_eq_true, if_false, false_and]
  rfl

/-- The lines of a COPY. -/
theorem foldl_moveLine_copy {x : Site} {j : MoveJob} {src dst : List Int} (s : State) (hs : j.sk = 0) (hd : j.dk = 0)
    (hg : j.grout = false) (harm : (x.role.agen j.g).grout = none) (hsrc : linesOk x.launch.image src = true)
    (hdst : linesOk x.launch.image dst = true) {n : Nat} (hn : n ≤ src.length) (hn' : n ≤ dst.length) :
    (List.range n).foldl (moveLine x j src dst) { s := s } = { s := movedLines x.role.brick src dst n s } := by
  induction n with
  | zero => rfl
  | succ n ih =>
    have hline := moveLine_bed (src := src) (dst := dst) (m := { s := movedLines x.role.brick src dst n s }) (i := n) hs hd harm
      rfl rfl ((linesOk_iff _ _).mp hsrc _ (getD_mem_of_lt (by omega)))
      ((linesOk_iff _ _).mp hdst _ (getD_mem_of_lt (by omega)))
    rw [List.range_succ, List.foldl_append, List.foldl_cons, List.foldl_nil, ih (by omega) (by omega), hline,
      movedLines_succ]
    unfold groutLine
    rw [hg]
    rfl

/-- Before the last line of a block, a COPYG takes the line into the block under way. -/
theorem groutLine_underWay (x : Site) {j : MoveJob} (a : Int) (data : List Nat) {m : MoveRun} {n : Nat} (hg : j.grout = true)
    (hd : j.dk = 0) (hlen : m.dst.length = 64 * n) (hn : n ≠ 63) :
    groutLine x j a data m = { m with dst := m.dst ++ data, dstAt := if n = 0 then a else m.dstAt } := by
  have hlines : m.dst.length / 64 = n := by omega
  unfold groutLine
  simp only [hg, hd, hlines, if_neg hn, Bool.not_true, Bool.false_eq_true, if_false, Nat.reduceEqDiff, false_and]

/-- The last line of a COPYG's block: the block's check value is written (R540, R541). -/
theorem groutLine_last (x : Site) {j : MoveJob} (a : Int) (data : List Nat) {m : MoveRun} {i : Nat} (hg : j.grout = true)
    (hd : j.dk = 0) (hlen : m.dst.length = 64 * 63) (hstop : m.stop = none)
    (hi : i = fld (x.role.agen ((j.g + 1) % 4)).tail 0 3 + m.written)
    (hw : (groutWrite x.inst.course x.launch.ctx i (groutValue (m.dst ++ data) (i % 2 ^ 32)) m.s).1 = 0) :
    groutLine x j a data m =
      { m with s := (groutWrite x.inst.course x.launch.ctx i (groutValue (m.dst ++ data) (i % 2 ^ 32)) m.s).2, dst := [],
               written := m.written + 1, wrote := i :: m.wrote } := by
  have hlines : m.dst.length / 64 = 63 := by omega
  subst hi
  unfold groutLine writeIndex
  simp only [hg, hd, hlines, hw, hstop, Bool.not_true, Bool.false_eq_true, if_false, if_true, Nat.reduceEqDiff, false_and]

theorem flatten_lineOf_take_succ (s : State) (brick : Nat) {l : List Int} {n : Nat} (h : n < l.length) :
    ((l.take (n + 1)).map (lineOf s brick)).flatten =
      ((l.take n).map (lineOf s brick)).flatten ++ lineOf s brick (l.getD n 0) := by
  rw [List.take_succ_eq_append_getElem h, List.map_append, List.flatten_append, List.getD_eq_getElem _ _ h,
    List.map_singleton, List.flatten_singleton]

/-- The COPYG's lines before the last of its block: they have moved, and the block under way holds their bytes (R540). -/
theorem foldl_moveLine_copyg {x : Site} {j : MoveJob} {src dst : List Int} (s : State) (hs : j.sk = 0) (hd : j.dk = 0)
    (hg : j.grout = true) (harm : (x.role.agen j.g).grout = none) (hsrc : linesOk x.launch.image src = true)
    (hdst : linesOk x.launch.image dst = true) (hapart : ∀ a ∈ src, a ∉ dst) {n : Nat} (hn : n ≤ src.length)
    (hn' : n ≤ dst.length) (hblock : n ≤ 63) :
    ∃ at_, (List.range n).foldl (moveLine x j src dst) { s := s } =
      { s := movedLines x.role.brick src dst n s, dst := ((src.take n).map (lineOf s x.role.brick)).flatten, dstAt := at_ } := by
  induction n with
  | zero => exact ⟨0, rfl⟩
  | succ n ih =>
    obtain ⟨at_, hat⟩ := ih (by omega) (by omega) (by omega)
    have hmem := getD_mem_of_lt (show n < src.length by omega)
    have hread := lineOf_movedLines_of_notMem x.role.brick src (n := n) s (by omega) (nonneg_of_linesOk hdst)
      (nonneg_of_linesOk hsrc _ hmem) (hapart _ hmem)
    rw [List.range_succ, List.foldl_append, List.foldl_cons, List.foldl_nil, hat,
      moveLine_bed hs hd harm rfl rfl ((linesOk_iff _ _).mp hsrc _ hmem)
        ((linesOk_iff _ _).mp hdst _ (getD_mem_of_lt (by omega))),
      groutLine_underWay x _ _ (n := n) hg hd (by
        rw [length_flatten_map (length_lineOf s _), List.length_take_of_le (by omega), Nat.mul_comm]) (by omega),
      hread, flatten_lineOf_take_succ s _ (by omega), movedLines_succ, hread]
    exact ⟨_, rfl⟩

/-- The check value's write does not see the Beds (R540). -/
theorem groutWrite_withBed (p c i v : Nat) (b : AMap Byte) (s : State) :
    groutWrite p c i v (withBed b s) = Prod.map id (withBed b) (groutWrite p c i v s) :=
  writeMem_withBed b p c _ _ s

theorem groutWrite_movedLines (p c i v brick : Nat) (src dst : List Int) (n : Nat) (s : State) :
    (groutWrite p c i v (movedLines brick src dst n s)).1 = (groutWrite p c i v s).1 ∧
      (groutWrite p c i v (movedLines brick src dst n s)).2.mem = (groutWrite p c i v s).2.mem := by
  obtain ⟨b, hb⟩ := movedLines_eq_withBed brick src dst n s
  rw [hb, groutWrite_withBed]
  exact ⟨rfl, rfl⟩

theorem groutWrite_fab (p c i v : Nat) (s : State) : (groutWrite p c i v s).2.fab = s.fab :=
  (writeMem_quiet (S := fun _ => True) _ _ _ _ s trivial fun _ _ => trivial).toFab

/-- All lines of a COPYG of one block (R540). -/
theorem foldl_moveLine_block {x : Site} {j : MoveJob} {src dst : List Int} {i n : Nat} (s : State) (hblock : n = 63)
    (hs : j.sk = 0) (hd : j.dk = 0) (hg : j.grout = true) (harm : (x.role.agen j.g).grout = none)
    (hsrc : linesOk x.launch.image src = true) (hdst : linesOk x.launch.image dst = true) (hapart : ∀ a ∈ src, a ∉ dst)
    (hn : src.length = n + 1)
    (hn' : dst.length = n + 1) (hi : i = fld (x.role.agen ((j.g + 1) % 4)).tail 0 3)
    (hw : (groutWrite x.inst.course x.launch.ctx i (groutValue (src.map (lineOf s x.role.brick)).flatten (i % 2 ^ 32)) s).1 = 0) :
    ∃ at_, (List.range (n + 1)).foldl (moveLine x j src dst) { s := s } =
      { s := (groutWrite x.inst.course x.launch.ctx i (groutValue (src.map (lineOf s x.role.brick)).flatten (i % 2 ^ 32))
          (movedLines x.role.brick src dst (n + 1) s)).2, dstAt := at_, written := 1, wrote := [i] } := by
  obtain ⟨at_, hat⟩ := foldl_moveLine_copyg s hs hd hg harm hsrc hdst hapart (n := n) (by omega) (by omega) (by omega)
  have hmem := getD_mem_of_lt (show n < src.length by omega)
  have hread := lineOf_movedLines_of_notMem x.role.brick src (n := n) s (by omega) (nonneg_of_linesOk hdst)
    (nonneg_of_linesOk hsrc _ hmem) (hapart _ hmem)
  have hall : ((src.take n).map (lineOf s x.role.brick)).flatten ++ lineOf s x.role.brick (src.getD n 0) =
      (src.map (lineOf s x.role.brick)).flatten := by
    rw [← flatten_lineOf_take_succ s _ (by omega), List.take_of_length_le (by omega)]
  have hlast := movedLines_succ x.role.brick src dst n s
  rw [hread] at hlast
  rw [← (groutWrite_movedLines _ _ _ _ x.role.brick src dst (n + 1) s).1, ← hall] at hw
  have hblockLen : ((src.take n).map (lineOf s x.role.brick)).flatten.length = 64 * 63 := by
    rw [length_flatten_map (length_lineOf s _), List.length_take_of_le (by omega), hblock]
  rw [List.range_succ, List.foldl_append, List.foldl_cons, List.foldl_nil, hat,
    moveLine_bed hs hd harm rfl rfl ((linesOk_iff _ _).mp hsrc _ hmem)
      ((linesOk_iff _ _).mp hdst _ (getD_mem_of_lt (by omega))), hread, ← hlast]
  have hend := groutLine_last
    (m := { s := movedLines x.role.brick src dst (n + 1) s, dst := ((src.take n).map (lineOf s x.role.brick)).flatten,
            dstAt := at_ })
    x (dst.getD n 0) (lineOf s x.role.brick (src.getD n 0)) hg hd hblockLen rfl (hi.trans (Nat.add_zero _).symm) hw
  rw [hall] at hend
  exact ⟨at_, hend⟩

end Sys2Proof.Machine
end

section
namespace Sys2Proof.Machine

open Reg

/-! ## A row that is converted -/

theorem length_sideLine (r : RowResult) (amax : Nat) (listed : List Nat) (vals : List Val) :
    (sideLine r amax listed vals).length = 64 := by
  unfold sideLine
  simp only [List.length_append, length_leBytes, List.length_replicate, List.length_cons, List.length_nil]
  rw [length_flatten_map (n := 4), length_flatten_map (n := 2), List.length_range, List.length_range]
  · intro i
    split
    · exact length_leBytes _ _
    · rfl
  · intro i
    split
    · rw [List.length_append, length_leBytes, length_leBytes]
    · rfl

theorem sideLine_lt {r : RowResult} (amax : Nat) (listed : List Nat) (vals : List Val) (ho : r.overs.length < 256)
    (hf : r.flags < 256) : ∀ v ∈ sideLine r amax listed vals, v < 256 := by
  intro v hv
  unfold sideLine at hv
  simp only [List.mem_append, List.mem_cons, List.mem_replicate, List.not_mem_nil, or_false] at hv
  obtain ((((h | h | h) | h) | h) | h) | h := hv
  · exact leBytes_lt _ _ v h
  · omega
  · omega
  · refine lt_of_mem_flatten_map (fun i w hw => ?_) _ v h
    split at hw
    · exact (List.mem_append.mp hw).elim (leBytes_lt _ _ w) (leBytes_lt _ _ w)
    · simp only [List.mem_cons, List.not_mem_nil, or_false] at hw
      omega
  · exact leBytes_lt _ _ v h
  · omega
  · refine lt_of_mem_flatten_map (fun i w hw => ?_) _ v h
    split at hw
    · exact leBytes_lt _ _ w hw
    · simp only [List.mem_cons, List.not_mem_nil, or_false] at hw
      omega

theorem length_rowPresent_codes (x : Site) (j : ScaleJob) (row flags : Nat) (listed : List Nat) (vals : List Val) :
    (rowPresent x j row flags listed vals).codes.length = vals.length := by
  unfold rowPresent convertRow
  rw [List.length_map, List.length_map, List.length_zip, List.length_range, Nat.min_self]

/-- A row without a reissue, an underscale, a loss, an overflow or a seed counts nothing on its Course (R159, R160). -/
theorem countRow_onlyLaunches {x : Site} {r : RowResult} (s : State) (hr : r.reissued = false) (hu : r.under = false)
    (hl : r.lost = false) (ho : r.overs = []) (hs : r.seeded = false) : OnlyLaunches s (countRow x r s) := by
  unfold countRow
  simp only [hr, hu, hl, ho, hs, List.isEmpty_nil, Bool.false_eq_true, if_false, if_true]
  exact modInst_onlyLaunches _ _ _ s

/-- The state in which a QUANT of one row has written the row's codes and its side record (R147, R152). -/
def quantWritten (x : Site) (j : ScaleJob) (blk : List Nat) (l : List Int × List Int × Int) (v : List Val) (s : State) :
    State :=
  let r := rowPresent x j 0 0 (listedOf blk) v
  wrBed x.role.brick (l.2.2.toNat * 64) (sideLine r (bf16Ceil (rowMax (listedOf blk) v)) (listedOf blk) v)
    (wrRun x.role.brick l.2.1 0 (pack j.target r.codes) s)

/-- The scale block with its row cursor one higher (R148). -/
def cursorMoved (blk : List Nat) : List Nat := slice blk 0 2 ++ leBytes 2 (fld blk 2 2 + 1) ++ blk.drop 4

/-- The move of a role's generators past a QUANT. -/
def quantAdvance (x : Site) (j : ScaleJob) (r : Role) : Role :=
  (r.modAgen (bits x.role.word 17 2) (fun g => g.skip (j.rows * j.srcLines))).modAgen (bits x.role.word 15 2)
    (fun g => g.skip (j.rows * j.dstLines))

/-- A QUANT of one row in present mode. -/
theorem exec_quant_one {s : State} {b : Nat} {x : Site} {j : ScaleJob} {blk : List Nat} {l : List Int × List Int × Int}
    {v : List Val} (h : issuing s b opQuant = some x) (hj : j = scaleJob x.role) (hrows : j.rows = 1) (hc : j.carried = false)
    (hblk : blk = scaleBlock s x.role.brick j.line) (hbytes : bedBytesOk x.launch.image (j.line * 64) 128 = true)
    (hbad : scaleBlockBad blk j.len = false) (hlen : rowLenBad j.len = false) (hl : l = rowLines x j blk 0)
    (hok : linesOk x.launch.image (l.2.2 :: (l.1 ++ l.2.1)) = true) (hover : rowOverlaps j l = false)
    (hv : v = (unpack j.fmt (runBytes s x.role.brick l.1 0 (j.srcLines * 64)) j.len).map (decodeElem j.fmt)) :
    ∃ u t, OnlyLaunches (quantWritten x j blk l v s) u ∧
      OnlyLaunches (wrBed x.role.brick (j.line * 64) (cursorMoved blk) u) t ∧ exec (.quant b .none) s = .next t := by
  have hrow : scaleRow x j (s, blk, none) 0 = (countRow x { rowPresent x j 0 0 (listedOf blk) v with
      arith := (rowPresent x j 0 0 (listedOf blk) v).arith |||
        sideFlags (rowPresent x j 0 0 (listedOf blk) v) (listedOf blk) v } (quantWritten x j blk l v s), blk, none) := by
    unfold scaleRow
    simp only [← hl, hok, hover, hc, ← hv, Bool.not_true, Bool.false_eq_true, if_false]
    rfl
  have hrun : quantRun x s = goOn x (setRole x (quantAdvance x j)
      (wrBed x.role.brick (j.line * 64) (cursorMoved blk) (scaleRow x j (s, blk, none) 0).1)) := by
    unfold quantRun quantAdvance cursorMoved
    simp only [← hj, ← hblk, hbytes, hbad, hlen, hrows, List.range_one, List.foldl_cons, List.foldl_nil, hrow, Bool.not_true,
      Bool.false_eq_true, if_false]
  refine ⟨(scaleRow x j (s, blk, none) 0).1, goOn x (setRole x (quantAdvance x j)
    (wrBed x.role.brick (j.line * 64) (cursorMoved blk) (scaleRow x j (s, blk, none) 0).1)), ?_, ?_, ?_⟩
  · rw [hrow]
    exact countRow_onlyLaunches _ rfl rfl rfl rfl rfl
  · exact (setRole_onlyLaunches x _ _).trans (goOn_onlyLaunches x _)
  · change execQuant b .none s = _
    unfold execQuant
    rw [h]
    exact congrArg Host.Outcome.next hrun

theorem rowOverlaps_eq_false {j : ScaleJob} {l : List Int × List Int × Int} (h : rowOverlaps j l = false) :
    ∀ d ∈ l.2.1, d ≠ (j.line : Int) ∧ d ≠ (j.line : Int) + 1 ∧ d ≠ l.2.2 := by
  intro d hd
  unfold rowOverlaps at h
  have := List.any_eq_false.mp h d hd
  simp only [Bool.or_eq_true, beq_iff_eq, not_or] at this
  obtain ⟨⟨⟨-, h1⟩, h2⟩, h3⟩ := this
  exact ⟨h1, h2, h3⟩

theorem length_cursorMoved {blk : List Nat} (h : blk.length = 128) : (cursorMoved blk).length = 128 := by
  unfold cursorMoved
  rw [List.length_append, List.length_append, slice_length, length_leBytes, List.length_drop, h]

theorem cursorMoved_lt {blk : List Nat} (hlen : blk.length = 128) (h : ∀ v ∈ blk, v < 256) : ∀ v ∈ cursorMoved blk, v < 256 := by
  intro v hv
  unfold cursorMoved at hv
  obtain (hv | hv) | hv := (List.mem_append.mp hv).imp_left List.mem_append.mp
  · rw [slice_within _ _ _ (by omega)] at hv
    exact h v (List.mem_of_mem_drop (List.mem_of_mem_take hv))
  · exact leBytes_lt _ _ v hv
  · exact h v (List.mem_of_mem_drop hv)

/-- The cursor is one higher, modulo its 16 bits (R148). -/
theorem fld_cursorMoved (blk : List Nat) : fld (cursorMoved blk) 2 2 = (fld blk 2 2 + 1) % 65536 := by
  have h := slice_between (slice blk 0 2) (leBytes 2 (fld blk 2 2 + 1)) (blk.drop 4)
  rw [slice_length, length_leBytes] at h
  rw [fld, cursorMoved, h, leNat_leBytes_two]

/-- Bytes of generated lines are equal where each of them is. -/
theorem runBytes_eq_of_bytes {s t : State} {b n : Nat} {lines : List Int}
    (h : ∀ i < n, bedByte t b (lineByte lines i) = bedByte s b (lineByte lines i)) :
    runBytes t b lines 0 n = runBytes s b lines 0 n := by
  refine List.map_congr_left fun i hi => ?_
  rw [Nat.zero_add]
  exact h i (List.mem_range.mp hi)


/-- What a COPY leaves (R777). -/
theorem copy_effect {s : State} {x : Site} {j : MoveJob} {src dst : List Int} (hr : roleAt s x = some x.role)
    (hj : j = moveJob x.role.word false) (hs : j.sk = 0) (hd : j.dk = 0) (hsrc : src = (x.role.agen j.g).take j.n)
    (hdst : dst = (x.role.agen ((j.g + 1) % 4)).take j.n) (harm : (x.role.agen j.g).grout = none)
    (hsok : linesOk x.launch.image src = true) (hdok : linesOk x.launch.image dst = true) :
    ∃ t, moveRun x .none false s = t ∧ OnlyLaunches (movedLines x.role.brick src dst j.n s) t ∧
      (roleAt t x).map (·.pc) = some x.role.counted.advance.pc := by
  have hslen : src.length = j.n := hsrc ▸ length_agenTake _ _
  have hdlen : dst.length = j.n := hdst ▸ length_agenTake _ _
  have hfold := foldl_moveLine_copy s hs hd (hj ▸ rfl) harm hsok hdok (n := j.n) (by omega) (by omega)
  obtain ⟨b, hb⟩ := movedLines_eq_withBed x.role.brick src dst j.n s
  have hrole : roleAt (movedLines x.role.brick src dst j.n s) x = some x.role := by
    rw [hb, ← hr]
    exact roleAt_congr x rfl
  refine ⟨_, moveRun_done (m := { s := movedLines x.role.brick src dst j.n s }) ?_ rfl rfl rfl rfl, ?_, ?_⟩
  · rw [← hj, ← hsrc, ← hdst, hfold]
  · exact (setRole_onlyLaunches x _ _).trans (goOn_onlyLaunches x _)
  · rw [roleAt_goOn, roleAt_setRole, hrole]
    rfl

/-- What a COPYG of one block leaves (R540). -/
theorem copyg_effect {s : State} {x : Site} {j : MoveJob} {src dst : List Int} {i : Nat} (hr : roleAt s x = some x.role)
    (hj : j = moveJob x.role.word true) (hs : j.sk = 0) (hd : j.dk = 0) (hn : j.n = 64)
    (hsrc : src = (x.role.agen j.g).take 64) (hdst : dst = (x.role.agen ((j.g + 1) % 4)).take 64)
    (harm : (x.role.agen j.g).grout = none) (hsok : linesOk x.launch.image src = true)
    (hdok : linesOk x.launch.image dst = true) (hapart : ∀ a ∈ src, a ∉ dst)
    (hi : i = fld (x.role.agen ((j.g + 1) % 4)).tail 0 3)
    (hw : (groutWrite x.inst.course x.launch.ctx i (groutValue (src.map (lineOf s x.role.brick)).flatten (i % 2 ^ 32)) s).1 = 0) :
    ∃ t, moveRun x .none true s = t ∧ t.fab.bed = (movedLines x.role.brick src dst 64 s).fab.bed ∧
      t.mem = (groutWrite x.inst.course x.launch.ctx i (groutValue (src.map (lineOf s x.role.brick)).flatten (i % 2 ^ 32)) s).2.mem ∧
      (roleAt t x).map (·.groutWrote) = some (i :: x.role.groutWrote) := by
  have hslen : src.length = 63 + 1 := hsrc ▸ length_agenTake _ _
  have hdlen : dst.length = 63 + 1 := hdst ▸ length_agenTake _ _
  obtain ⟨at_, hfold⟩ := foldl_moveLine_block s rfl hs hd (hj ▸ rfl) harm hsok hdok hapart hslen hdlen hi hw
  obtain ⟨-, hmem⟩ := groutWrite_movedLines x.inst.course x.launch.ctx i
    (groutValue (src.map (lineOf s x.role.brick)).flatten (i % 2 ^ 32)) x.role.brick src dst 64 s
  have hfab := groutWrite_fab x.inst.course x.launch.ctx i
    (groutValue (src.map (lineOf s x.role.brick)).flatten (i % 2 ^ 32)) (movedLines x.role.brick src dst 64 s)
  generalize (groutWrite x.inst.course x.launch.ctx i (groutValue (src.map (lineOf s x.role.brick)).flatten (i % 2 ^ 32))
    (movedLines x.role.brick src dst 64 s)).2 = u at hfold hmem hfab
  obtain ⟨b, hb⟩ := movedLines_eq_withBed x.role.brick src dst 64 s
  have hrole : roleAt u x = some x.role := by
    rw [← hr]
    exact roleAt_congr x (by rw [hfab, hb]; rfl)
  have hlate : OnlyLaunches u (goOn x (setRole x (moveAdvance (moveJob x.role.word true) 0 [i]) u)) :=
    (setRole_onlyLaunches x _ _).trans (goOn_onlyLaunches x _)
  refine ⟨_, moveRun_done (m := { s := u, dstAt := at_, written := 1, wrote := [i] }) ?_ rfl rfl rfl rfl, ?_, ?_, ?_⟩
  · rw [← hj, hn, ← hsrc, ← hdst, hfold]
  · rw [hlate.bed, hfab]
  · rw [← hmem]
    exact hlate.toBeds.mem
  · rw [roleAt_goOn, roleAt_setRole, hrole]
    rfl

/-- What a QUANT of one row leaves in its own Brick's Bed (R147 to R152), and that it leaves the others'. -/
theorem quant_effect {s u t : State} {x : Site} {j : ScaleJob} {blk : List Nat} {l : List Int × List Int × Int} {v : List Val}
    (hu : OnlyLaunches (quantWritten x j blk l v s) u)
    (ht : OnlyLaunches (wrBed x.role.brick (j.line * 64) (cursorMoved blk) u) t)
    (hblk : blk = scaleBlock s x.role.brick j.line) (hbytes : bedBytesOk x.launch.image (j.line * 64) 128 = true)
    (hok : linesOk x.launch.image (l.2.2 :: (l.1 ++ l.2.1)) = true) (hover : rowOverlaps j l = false) (hd : l.2.1.Nodup)
    (hside : l.2.2 ≠ j.line) (hside' : l.2.2 ≠ j.line + 1) (himg : imgBed x.launch.image ≤ 262144)
    (hfit : packedBytes j.target v.length ≤ 64 * l.2.1.length) :
    runBytes t x.role.brick l.2.1 0 (packedBytes j.target v.length) = pack j.target (rowPresent x j 0 0 (listedOf blk) v).codes ∧
      bedBytes t x.role.brick (l.2.2.toNat * 64) 64 =
        sideLine (rowPresent x j 0 0 (listedOf blk) v) (bf16Ceil (rowMax (listedOf blk) v)) (listedOf blk) v ∧
      scaleBlock t x.role.brick j.line = cursorMoved blk ∧
      (∀ n a, n ≠ x.role.brick → a < 262144 → bedByte t n a = bedByte s n a) := by
  have hcur : (cursorMoved blk).length = 128 := length_cursorMoved (hblk ▸ length_bedBytes _ _ _ _)
  have hcurLt : ∀ b ∈ cursorMoved blk, b < 256 := cursorMoved_lt (hblk ▸ length_bedBytes _ _ _ _)
    (hblk ▸ bedBytes_lt _ _ _ _)
  have hlines := (linesOk_iff _ _).mp hok
  have hsideOk := hlines l.2.2 List.mem_cons_self
  have hdstOk : ∀ d ∈ l.2.1, bedLineOk x.launch.image d = true := fun d h =>
    hlines d (List.mem_cons_of_mem _ (List.mem_append_right _ h))
  have hpos : ∀ d ∈ l.2.1, 0 ≤ d := fun d h => ((bedLineOk_iff _ _).mp (hdstOk d h)).1
  have hspos := ((bedLineOk_iff _ _).mp hsideOk).1
  have hsideIn := toNat_lt_of_bedLineOk hsideOk himg
  have hblkIn : j.line * 64 + 128 ≤ 262144 := (of_decide_eq_true hbytes).trans himg
  have hpack : (pack j.target (rowPresent x j 0 0 (listedOf blk) v).codes).length = packedBytes j.target v.length := by
    rw [length_pack, length_rowPresent_codes]
  have hsideLen := length_sideLine (rowPresent x j 0 0 (listedOf blk) v) (bf16Ceil (rowMax (listedOf blk) v)) (listedOf blk) v
  have hbefore : ∀ a, a / 64 ≠ j.line → a / 64 ≠ j.line + 1 →
      bedByte t x.role.brick a = bedByte (quantWritten x j blk l v s) x.role.brick a := by
    intro a h1 h2
    rw [bedByte_congr ht.bed, bedByte_wrBed, hcur, if_neg (by omega), bedByte_congr hu.bed]
  refine ⟨?_, ?_, ?_, fun n a hn ha => ?_⟩
  · have hkept : ∀ i < packedBytes j.target v.length, bedByte t x.role.brick (lineByte l.2.1 i) =
        bedByte (wrRun x.role.brick l.2.1 0 (pack j.target (rowPresent x j 0 0 (listedOf blk) v).codes) s) x.role.brick
          (lineByte l.2.1 i) := by
      intro i hi
      have hmem := getD_mem_of_lt (show i / 64 < l.2.1.length by omega)
      obtain ⟨hline, hline', hapart⟩ := rowOverlaps_eq_false hover _ hmem
      have hnonneg := hpos _ hmem
      have hat := lineByte_div l.2.1 i
      rw [hbefore _ (by omega) (by omega), quantWritten, bedByte_wrBed, hsideLen, if_neg (by omega)]
    rw [runBytes_eq_of_bytes hkept]
    exact runBytes_wrRun _ hd hpos s hpack hfit (pack_lt _ _)
  · have hkept : lineOf t x.role.brick l.2.2 = lineOf (quantWritten x j blk l v s) x.role.brick l.2.2 :=
      lineOf_congr fun i hi => hbefore i (by omega) (by omega)
    exact hkept.trans (bedBytes_wrBed_self _ _ _ hsideLen (sideLine_lt _ _ _ (Nat.zero_lt_succ 255) (Nat.zero_lt_succ 255)))
  · refine (List.map_congr_left fun i _ => bedByte_congr ht.bed _ _).trans ?_
    exact bedBytes_wrBed_self _ _ u hcur hcurLt
  · rw [bedByte_congr ht.bed, bedByte_wrBed_other u hn ha (hcur.symm ▸ hblkIn), bedByte_congr hu.bed, quantWritten,
      bedByte_wrBed_other _ hn ha (hsideLen.symm ▸ hsideIn),
      bedByte_wrRun_other s (hpack ▸ hfit) (fun d h => toNat_lt_of_bedLineOk (hdstOk d h) himg) hn ha]

/-- Settles O12: COPY and COPYG line by line, QUANT by the bytes of its three writes. -/
theorem moveAndScaleUnits : Obligations.MoveAndScaleUnits := by
  unfold Obligations.MoveAndScaleUnits
  refine ⟨?_, ?_, ?_⟩
  · intro s b x j src dst h hr hj hs hd hsrc hdst harm hsok hdok himg hnodup hapart
    have hslen : src.length = j.n := hsrc ▸ length_agenTake _ _
    have hdlen : dst.length = j.n := hdst ▸ length_agenTake _ _
    obtain ⟨t, hrun, ht, hpc⟩ := copy_effect hr hj hs hd hsrc hdst harm hsok hdok
    obtain ⟨v, hv⟩ := movedLines_eq_withBed x.role.brick src dst j.n s
    have hall : OnlyBeds s t := OnlyBeds.trans (t := movedLines x.role.brick src dst j.n s) (hv ▸ rfl) ht.toBeds
    refine ⟨t, (exec_copy_issuing h).trans (congrArg _ hrun), fun i hi => ?_, fun n a hna ha => ?_, hpc, hall.frame,
      hall.hod, hall.acc⟩
    · rw [bedBytes_congr ht.bed]
      exact lineOf_movedLines s hi (by omega) (by omega) hnodup (nonneg_of_linesOk hdok) (nonneg_of_linesOk hsok) hapart
    · rw [bedByte_congr ht.bed]
      by_cases hn : n = x.role.brick
      · subst hn
        exact bedByte_movedLines_of_notMem _ src s (by omega) fun hmem => hna ⟨rfl, hmem⟩
      · exact bedByte_movedLines_other s (by omega)
          (fun l hl => toNat_lt_of_bedLineOk ((linesOk_iff _ _).mp hdok l hl) himg) hn ha
  · rintro s b i x j src dst _ h hr hj hs hd hn hsrc hdst harm hsok hdok hnodup hapart hi rfl hw
    have hslen : src.length = 64 := hsrc ▸ length_agenTake _ _
    have hdlen : dst.length = 64 := hdst ▸ length_agenTake _ _
    obtain ⟨t, hrun, hbed, hmem, hwrote⟩ := copyg_effect hr hj hs hd hn hsrc hdst harm hsok hdok hapart hi hw
    refine ⟨t, (exec_copyg_issuing h).trans (congrArg _ hrun), fun k hk => ?_, hmem, hwrote⟩
    rw [bedBytes_congr hbed]
    exact lineOf_movedLines s hk (by omega) (by omega) hnodup (nonneg_of_linesOk hdok) (nonneg_of_linesOk hsok) hapart
  · intro s b x j blk l v h hr hj hrows hc hblk hbytes hbad hlen hl hok hover hd hside hside' himg hv
    have hvlen : v.length = j.len := by rw [hv, List.length_map, unpack, List.length_map, List.length_range]
    have hllen : l.2.1.length = divUp (packedBytes j.target j.len) 64 := by
      rw [hl, hj]
      exact length_agenTake _ _
    obtain ⟨u, t, hu, ht, hexec⟩ := exec_quant_one h hj hrows hc hblk hbytes hbad hlen hl hok hover hv
    obtain ⟨hcodes, hsideRec, hblock, hothers⟩ := quant_effect hu ht hblk hbytes hok hover hd hside hside' himg (by
      rw [hvlen, hllen]
      exact le_divUp_mul _ 64 (by decide))
    rw [hvlen] at hcodes
    refine ⟨t, hexec, hcodes, hsideRec, ?_, hothers, ?_⟩
    · rw [hblock, fld_cursorMoved]
    · have hall := ((wrRun_onlyBeds x.role.brick l.2.1 (pack j.target (rowPresent x j 0 0 (listedOf blk) v).codes) s).trans
        (wrBed_onlyBeds _ _ _ _)).trans hu.toBeds
      exact ((hall.trans (wrBed_onlyBeds _ _ _ u)).trans ht.toBeds).mem

end Sys2Proof.Machine
end

section
namespace Sys2Proof.Machine

open Reg

/-! ## A read that tears its own context down -/

/-- STAGING_COMPLETE of a staging instance goes on in the state that the read of its image leaves (R74). -/
theorem exec_stagingComplete_read {s s1 : State} {id c : Nat} {l : Launch} {i : Inst} {img : List Nat}
    (hl : launchOf s id = some l) (hi : instOf s id c = some i) (hp : i.phase = .staging)
    (hread : readMem c l.ctx (slotAddr (fld l.raw 4 4 % 4096))
      (min 131072 (max 384 (leNat ((List.range 4).map (fun k => slotByte s (fld l.raw 4 4 % 4096) (8 + k))))))
      [(l.id, 0x0711, c)] s = (0, img, s1)) (hok : imageOk img = true) :
    exec (.stagingComplete id c) s =
      .next (modInst id c (fun i => { i with phase := .staged }) (modLaunch id (fun x => { x with image := img }) s1)) := by
  change execStagingComplete id c s = _
  unfold execStagingComplete loadImage
  simp only [hl, hi, if_pos hp, hread, if_true, hok]

/-- An instance of a launch that is gone is gone, whatever is set on it. -/
theorem instOf_modInst_modLaunch_none {s : State} {id c : Nat} (f : Inst → Inst) (img : List Nat) (h : launchOf s id = none)
    (hf : ∀ i, (f i).course = i.course) :
    instOf (modInst id c f (modLaunch id (fun x => { x with image := img }) s)) id c = none := by
  rw [instOf_modInst _ _ _ _ hf, instOf, launchOf_modLaunch _ _ _ (by intro; rfl), h]
  rfl

/-- A Bond image of one role in 512 bytes: its program at 192 and its role map at 256 (R50 to R54). -/
def oneRoleImage : List Nat :=
  leBytes 4 0x444E4F42 ++ leBytes 2 1 ++ leBytes 2 128 ++ leBytes 4 512 ++ leBytes 2 2 ++ List.replicate 18 0 ++
    [1, 1, 1, 0, 1, 0] ++ List.replicate 6 0 ++ leBytes 4 1 ++ leBytes 4 100 ++ List.replicate 20 0 ++ leBytes 4 384 ++
    List.replicate 52 0 ++
    [1, 0, 0, 0] ++ leBytes 4 192 ++ leBytes 4 4 ++ leBytes 4 (crc32c [0, 0, 0, 1]) ++
    [5, 0, 255, 0] ++ leBytes 4 256 ++ leBytes 4 1 ++ leBytes 4 (crc32c [0]) ++
    List.replicate 32 0 ++ [0, 0, 0, 1] ++ List.replicate 316 0

/-- Its launch by context 0, staging on Course 0. -/
def tornLaunch : Launch :=
  { id := 1, ctx := 0, ring := 0, count := 0, raw := List.replicate 64 0,
    insts := [{ course := 0, phase := .staging, checked := true, bricks := [0] }] }

/-- A package in run whose context 0 is open and owns the page at 0x100000: a line of that page was uncorrectable when it
was last accessed, and the next read is to report it (R364). -/
def tornState : State :=
  let s : State :=
    { mode := .run
      fab := { launches := [tornLaunch], courses := [(0, { owner := 0 })] }
      mem := { home := [(16, 16)], found := [(0x100000, 2)] }
      regs := { live := [(fkey HST_CTX_STATE.state 0, 1), (fkey TRW_COURSE_STATE.context (atCourse 0 0x100), 0),
        (fkey MTR_PORT_STATUS.state (portAt 1 1), 2), (fkey MTR_PORT_STATUS.state (portAt 4 0), 2)] } }
  ((List.range 512).zip oneRoleImage).foldl (fun s e => putByte (physOf s (slotAddr 0) + e.1) (BitVec.ofNat 8 e.2) s) s

/-- The read of its image. -/
def tornRead : Nat × List Nat × State := readMem 0 0 (slotAddr 0) 512 [(1, 0x0711, 0)] tornState

theorem tornState_size :
    min 131072 (max 384 (leNat ((List.range 4).map (fun k => slotByte tornState 0 (8 + k))))) = 512 := by decide +kernel

/-- The read is served with the image, and its report of the earlier line tears the reader's context down. -/
theorem tornRead_tears : tornRead.1 = 0 ∧ imageOk tornRead.2.1 = true ∧ launchOf tornRead.2.2 1 = none := by decide +kernel

/-- Refutes O13: in `tornState` the read of the image is served and correct, but it also reports an uncorrectable line of
the launch's own context that an access before it met; that tears the context down (R364, R278), and the launch is gone
when STAGING_COMPLETE would mark its instance staged. -/
theorem not_trowelTakesAndStages : ¬ Obligations.TrowelTakesAndStages := by
  unfold Obligations.TrowelTakesAndStages
  rintro ⟨-, -, hstage, -, -⟩
  obtain ⟨hstatus, hok, hgone⟩ := tornRead_tears
  rcases hserved : tornRead with ⟨status, img, s1⟩
  rw [hserved] at hstatus hok hgone
  dsimp only at hstatus hok hgone
  subst hstatus
  have hread : readMem 0 0 (slotAddr 0)
      (min 131072 (max 384 (leNat ((List.range 4).map (fun k => slotByte tornState 0 (8 + k)))))) [(1, 0x0711, 0)] tornState =
        (0, img, s1) := by
    rw [tornState_size]
    exact hserved
  have hlaunch : launchOf tornState 1 = some tornLaunch := by decide +kernel
  have hinst : instOf tornState 1 0 = some { course := 0, phase := .staging, checked := true, bricks := [0] } := by
    decide +kernel
  obtain ⟨t, hexec, hstaged, -⟩ := hstage tornState s1 1 0 tornLaunch _ img hlaunch hinst rfl hread hok
  rw [exec_stagingComplete_read hlaunch hinst rfl hread hok, Host.Outcome.next.injEq] at hexec
  rw [← hexec, instOf_modInst_modLaunch_none _ _ hgone (by intro; rfl)] at hstaged
  exact Option.some_ne_none _ hstaged.symm

end Sys2Proof.Machine
end

section
namespace Sys2Proof.Machine

open Reg

/-! ## What finishes a descriptor or applies a Tie operation -/

/-- The registers that reports, stopped rings and Tie operations change, whatever context they name. -/
def signalKey (k : Nat) : Prop :=
  reportKey k ∨ (∃ c, k = fkey HST_CTX_STATE.stopped (c * 0x100)) ∨ ∃ d, k = fkey TIE_SAT_COUNT.saturations (dieBase d)

theorem signalKey_reportKey (k : Nat) (h : reportKey k) : signalKey k := .inl h

namespace Quiet

variable {S : Nat → Prop} {s t u : State}

theorem toSignal (h : Quiet reportKey s t) : Quiet signalKey s t := h.mono signalKey_reportKey

theorem ite {c : Prop} [Decidable c] (ht : Quiet S s t) (hu : Quiet S s u) : Quiet S s (if c then t else u) := by
  split <;> assumption

theorem toDescs (h : Quiet S s t) : t.rings.descs = s.rings.descs := by rw [h.rings]

/-- A quiet change does not look at the rings. -/
theorem withRings (h : Quiet S s t) (r : RingsState) : Quiet S { s with rings := r } { t with rings := r } where
  rest := by rw [h.rest]
  regs := h.regs
  live := h.live
  mem := h.mem
  rings := rfl

end Quiet

theorem stopRaw_signal (c r cause resume : Nat) (s : State) : Quiet signalKey s (stopRaw c r cause resume s).2 :=
  ((modRing_quiet _ _ _ s).trans (wr_quiet _ _ _ _ (.inr (.inl ⟨c, rfl⟩)))).trans (eventRaw_quiet _ _ _ _ _ _ _).toSignal

theorem stopRings_signal (c cause : Nat) (s : State) : Quiet signalKey s (stopRings c cause s) :=
  (Quiet.foldl _ _ (fun x _ => .ite (stopRaw_signal _ _ _ _ x) (.refl x)) s).trans (echoRaw_quiet _ _).toSignal

theorem writeEcho_signal (c : Nat) (s : State) : Quiet signalKey s (writeEcho c s) :=
  .ite ((echoRaw_quiet _ s).toSignal.trans (stopRings_signal _ _ _)) (echoRaw_quiet _ s).toSignal

/-- A state without one of its fetched descriptors. -/
def withoutDesc (c ring count : Nat) (s : State) : State :=
  { s with rings := { s.rings with
      descs := s.rings.descs.filter (fun x => !(x.ctx == c && x.ring == ring && x.count == count)) } }

/-- Beside taking its descriptor off the list, a completion only writes to memory and reports (R315, R318). -/
theorem finishDesc_quiet (c ring count : Nat) (raw : List Nat) (d : Done) (s : State) :
    Quiet signalKey (withoutDesc c ring count s) (finishDesc c ring count raw d s) := by
  have hslot : Quiet signalKey (withoutDesc c ring count s)
      (modCtx c (fun x => { x with reserved := x.reserved - 1 }) (withoutDesc c ring count s)) := modCtx_quiet _ _ _
  have hwrite := fun a l => hslot.trans (writeMem72_quiet c a l _).toSignal
  refine .ite (.ite ((hwrite _ _).trans (stopRings_signal _ _ _)) ?_) hslot
  refine Quiet.trans ?_ (writeEcho_signal _ _)
  exact ((hwrite _ _).trans (modCtx_quiet _ _ _)).trans (.ite (notify_quiet _ _ _) (.refl _))

/-- A completed descriptor is not among those fetched. -/
theorem finishDesc_descs (c ring count : Nat) (raw : List Nat) (d : Done) (s : State) :
    ∀ x ∈ (finishDesc c ring count raw d s).rings.descs, (x.ctx, x.ring, x.count) ≠ (c, ring, count) := by
  intro x hx
  rw [(finishDesc_quiet c ring count raw d s).toDescs] at hx
  have hne := (List.mem_filter.mp hx).2
  rintro ⟨⟩
  simp at hne

/-- A quiet change with which the rings and Ties may change in any way. -/
def RingQuiet (S : Nat → Prop) (s t : State) : Prop := Quiet S { s with rings := t.rings } t

namespace RingQuiet

variable {S : Nat → Prop} {s t u : State}

theorem of_quiet (h : Quiet S s t) : RingQuiet S s t := h.withRings t.rings

theorem of_rings (h : t = { s with rings := t.rings }) : RingQuiet S s t := by
  unfold RingQuiet
  rw [← h]
  exact .refl t

protected theorem refl (s : State) : RingQuiet S s s := of_rings rfl

protected theorem trans (h : RingQuiet S s t) (g : RingQuiet S t u) : RingQuiet S s u :=
  (Quiet.withRings h u.rings).trans g

theorem foldl {α : Type} (f : State → α → State) (l : List α) (hf : ∀ x a, RingQuiet S x (f x a)) (s : State) :
    RingQuiet S s (l.foldl f s) := by
  induction l generalizing s with
  | nil => exact .refl s
  | cons a r ih => exact (hf s a).trans (ih (f s a))

theorem ite {c : Prop} [Decidable c] (ht : RingQuiet S s t) (hu : RingQuiet S s u) : RingQuiet S s (if c then t else u) := by
  split <;> assumption

end RingQuiet

theorem finishDesc_ringQuiet (c ring count : Nat) (raw : List Nat) (d : Done) (s : State) :
    RingQuiet signalKey s (finishDesc c ring count raw d s) :=
  (RingQuiet.of_rings rfl).trans (.of_quiet (finishDesc_quiet c ring count raw d s))

theorem event_ringQuiet (st die ctx unit sev : Nat) (p : List Nat) (s : State) :
    RingQuiet signalKey s (event st die ctx unit sev p s) := .of_quiet (event_quiet _ _ _ _ _ _ s).toSignal

theorem tieApply_ringQuiet (op : TieOp) (s : State) : RingQuiet signalKey s (tieApply op s) := by
  unfold tieApply
  split
  · extract_lets sum s1
    have hset : RingQuiet signalKey s s1 := .of_rings rfl
    have hcount := hset.trans (.of_quiet (wr_quiet TIE_SAT_COUNT.saturations (dieBase (tieHome op.tie))
      (satTo (rd s1 TIE_SAT_COUNT.saturations (dieBase (tieHome op.tie)) + 1) (2 ^ 32 - 1)) s1 (.inr (.inr ⟨_, rfl⟩))))
    exact .ite (hcount.trans (event_ringQuiet _ _ _ _ _ _ _)) hset
  · exact .of_rings rfl
  · exact .of_rings rfl

theorem tieDescDone_ringQuiet (op : TieOp) (s : State) : RingQuiet signalKey s (tieDescDone op s) := by
  have h : ∀ c r n, RingQuiet signalKey s (match s.rings.descs.find? (fun d =>
        d.ctx == c && d.ring == r && d.count == n && d.phase == .issued) with
      | some d => finishDesc c r n d.raw {} s
      | none => s) := by
    intro c r n
    split
    · exact finishDesc_ringQuiet _ _ _ _ _ s
    · exact .refl s
  unfold tieDescDone
  split
  · exact h _ _ _
  · exact h _ _ _
  · exact .refl s

theorem tieDeliver_ringQuiet (home sender : Nat) (s : State) : RingQuiet signalKey s (tieDeliver home sender s) := by
  unfold tieDeliver
  split
  · exact .refl s
  · next op rest _ =>
    have htaken : RingQuiet signalKey s { s with rings := { s.rings with ops := rest } } := .of_rings rfl
    exact htaken.trans ((tieApply_ringQuiet _ _).trans (tieDescDone_ringQuiet _ _))

theorem signalNow_ringQuiet (a : Agent) (ctx tie v : Nat) (s : State) : RingQuiet signalKey s (signalNow a ctx tie v s) :=
  .ite ((RingQuiet.foldl _ _ (fun x _ => tieDeliver_ringQuiet _ _ x) s).trans (tieApply_ringQuiet _ _)) (.refl s)

/-- Beside rings and Ties, the end of a descriptor's work only writes to memory and reports (R318). -/
theorem finishWork_ringQuiet (c ring count : Nat) (raw : List Nat) (d : Done) (s : State) :
    RingQuiet signalKey s (finishWork c ring count raw d s) :=
  .ite (.ite ((signalNow_ringQuiet _ _ _ _ s).trans (finishDesc_ringQuiet _ _ _ _ _ _))
    ((event_ringQuiet _ _ _ _ _ _ s).trans (finishDesc_ringQuiet _ _ _ _ _ _))) (finishDesc_ringQuiet _ _ _ _ _ s)

theorem finishWork_descs (c ring count : Nat) (raw : List Nat) (d : Done) (s : State) :
    ∀ x ∈ (finishWork c ring count raw d s).rings.descs, (x.ctx, x.ring, x.count) ≠ (c, ring, count) := by
  unfold finishWork
  dsimp only
  split
  · split
    · exact finishDesc_descs _ _ _ _ _ _
    · exact finishDesc_descs _ _ _ _ _ _
  · exact finishDesc_descs _ _ _ _ _ _

/-! ## The registers of the Sieve -/

/-- The registers that are not the Sieve's (R212). -/
def besideSieve (k : Nat) : Prop := ¬ (0x600000 * 64 ≤ k ∧ k < 0x600014 * 64)

theorem besideSieve_retryKey (k : Nat) (h : retryKey k) : besideSieve k := by
  obtain ⟨d, rfl⟩ := h
  simp only [besideSieve, fkey, dieBase, HBM_CRC_RETRY_COUNT.retries]
  omega

theorem besideSieve_overRate (port : Nat) : besideSieve (fkey PLB_PORT_STATE.over_rate (port * 16)) := by
  simp only [besideSieve, fkey, PLB_PORT_STATE.over_rate]
  omega

theorem besideSieve_signalKey (k : Nat) (h : signalKey k) : besideSieve k := by
  rcases h with (rfl | rfl | rfl | h | ⟨c, -, rfl⟩) | ⟨c, rfl⟩ | ⟨d, rfl⟩
  case inl.inr.inr.inr.inl => exact besideSieve_retryKey k h
  all_goals
    simp only [besideSieve, fkey, dieBase, HST_EVT_DROP_COUNT.drops, HST_DEV_EQ_TAIL.tail, PLB_PORT_STATE.over_rate,
      HST_CTX_STATE.stopped, TIE_SAT_COUNT.saturations]
    omega

/-- A field of the Sieve's registers. -/
def sieveField (f : Field) : Bool := decide (0x600000 ≤ f.off ∧ f.off < 0x600014 ∧ f.lo < 64)

theorem not_besideSieve {f : Field} (h : sieveField f = true) : ¬ besideSieve (fkey f 0) := by
  obtain ⟨hlow, hhigh, hlo⟩ := of_decide_eq_true h
  simp only [besideSieve, fkey]
  omega

/-- Reports, completions and signals leave the Sieve's registers. -/
theorem RingQuiet.toSieveField {s t : State} (h : RingQuiet signalKey s t) {f : Field} (hf : sieveField f = true) :
    rd t f = rd s f :=
  Quiet.toRd h f 0 (fun x => not_besideSieve hf (besideSieve_signalKey _ x))

/-! ## The output of a job -/

theorem writeChecks_quiet {S : Nat → Prop} (port ctx a : Nat) (full : List Nat) (s : State)
    (h : S (fkey PLB_PORT_STATE.over_rate (port * 16))) (g : ∀ k, retryKey k → S k) :
    Quiet S s (writeChecks port ctx a full s).2 := by
  have hcheck : ∀ data x b, Quiet S x (writeCheck port ctx data x b).2 := by
    intro data x b
    unfold writeCheck
    split
    · exact writeMem_quiet _ _ _ _ x h g
    · exact .refl x
  suffices hfold : ∀ (l : List Nat) (w : Nat × State), Quiet S w.2 (l.foldl (fun w b =>
      if w.1 ≠ 0 then w else writeCheck port ctx (slice full (b - a) 4096) w.2 b) w).2 from hfold _ (0, s)
  intro l
  induction l with
  | nil => exact fun w => .refl w.2
  | cons b r ih => exact fun w => Quiet.trans (Quiet.iteSnd (.refl w.2) (hcheck _ _ _)) (ih _)

/-- An output that a line heads is written by its port, and nothing else changes (R205, R501). -/
theorem headedWrite_quiet {S : Nat → Prop} (port ctx : Nat) (checking : Bool) (a : Nat) (header body : List Nat) (s : State)
    (h : S (fkey PLB_PORT_STATE.over_rate (port * 16))) (g : ∀ k, retryKey k → S k) :
    Quiet S s (headedWrite port ctx checking a header body s).2 := by
  unfold headedWrite
  extract_lets all full w k
  have hw : Quiet S s w.2 := .iteSnd (.refl s) (writeMem_quiet _ _ _ _ s h g)
  have hk : Quiet S s k.2 := .iteSnd (hw.trans (writeChecks_quiet _ _ _ _ _ h g)) hw
  exact .iteSnd hw (.iteSnd hk (hk.trans (writeMem_quiet _ _ _ _ _ h g)))

theorem writeJob_quiet (j : SieveJob) (w : SieveResult) (s : State) : Quiet besideSieve s (writeJob j w s).2 :=
  headedWrite_quiet _ _ _ _ _ _ s (besideSieve_overRate _) besideSieve_retryKey

/-! ## The job that leaves the queue -/

/-- A job that ends is noted in two counts (R212). -/
theorem noteRun_eq {j : SieveJob} {w : SieveResult} (hw : j.result = some w) (s : State) :
    noteRun j s = wr SIV_MAX_TIME.max_us 0 (satTo (max ((now s - j.startAt) / 1000) (rd s SIV_MAX_TIME.max_us)) 0xFFFF)
      (incSat SIV_INVALID_COUNT.invalid 0 w.invalid s) := by
  unfold noteRun
  rw [hw]

/-- The state in which the running job has left the queue and its run is noted. -/
def jobTaken (j : SieveJob) (s : State) : State := popJob (noteRun j s)

theorem jobTaken_frame {j : SieveJob} {w : SieveResult} (hw : j.result = some w) (s : State) :
    jobTaken j s = { s with regs := (jobTaken j s).regs, sieve := { s.sieve with jobs := s.sieve.jobs.tail } } := by
  unfold jobTaken
  rw [noteRun_eq hw]
  rfl

theorem rd_popJob {f : Field} (a : Nat) (s : State) (hb : fkey SIV_STATUS.busy 0 ≠ fkey f a)
    (hq : fkey SIV_STATUS.queue_depth 0 ≠ fkey f a) : rd (popJob s) f a = rd s f a := by
  unfold popJob refreshSieve wrB
  rw [rd_wr_ne _ _ _ _ _ _ hq, rd_wr_ne _ _ _ _ _ _ hb]
  rfl

/-- The registers that a job leaving the queue changes are four. -/
theorem rd_jobTaken {j : SieveJob} {w : SieveResult} (hw : j.result = some w) {f : Field} {a : Nat} (s : State)
    (hb : fkey SIV_STATUS.busy 0 ≠ fkey f a) (hq : fkey SIV_STATUS.queue_depth 0 ≠ fkey f a)
    (hi : fkey SIV_INVALID_COUNT.invalid 0 ≠ fkey f a) (hm : fkey SIV_MAX_TIME.max_us 0 ≠ fkey f a) :
    rd (jobTaken j s) f a = rd s f a := by
  unfold jobTaken
  rw [rd_popJob a _ hb hq, noteRun_eq hw, rd_wr_ne _ _ _ _ _ _ hm]
  exact rd_wr_ne _ _ _ _ _ _ hi

/-- A register outside the Sieve keeps its value. -/
theorem rd_jobTaken_beside {j : SieveJob} {w : SieveResult} (hw : j.result = some w) {f : Field} {a : Nat} (s : State)
    (h : besideSieve (fkey f a)) : rd (jobTaken j s) f a = rd s f a := by
  have hne : ∀ g, sieveField g = true → fkey g 0 ≠ fkey f a := fun g hg e => not_besideSieve hg (e ▸ h)
  exact rd_jobTaken hw s (hne _ rfl) (hne _ rfl) (hne _ rfl) (hne _ rfl)

/-- The longest run time covers the job that has ended, saturated (R212). -/
theorem maxTime_jobTaken {j : SieveJob} {w : SieveResult} (hw : j.result = some w) (s : State) :
    min ((now s - j.startAt) / 1000) 0xFFFF ≤ rd (jobTaken j s) SIV_MAX_TIME.max_us := by
  unfold jobTaken
  rw [rd_popJob 0 _ (by decide) (by decide), noteRun_eq hw, rd_wr_self, satTo]
  change _ ≤ _ % 2 ^ 16
  generalize rd s SIV_MAX_TIME.max_us = longest
  split <;> omega

/-! ## Routes see the links alone -/

/-- Whether a die is reached depends on the states of the ports and on the partial reset. -/
theorem reach_congr {s t : State} (hdie : t.partialDie = s.partialDie) (hstep : t.partialStep = s.partialStep)
    (hport : ∀ n, ∀ p ≤ 2, portState t n p = portState s n p) (hhub : ∀ n, hubPortState t n = hubPortState s n)
    (a b : Nat) : reach t a b = reach s a b := by
  have hlink : linkUp t = linkUp s := by
    funext k
    simp only [linkUp, hhub, hport _ 0 (by decide), hport _ 1 (by decide), hport _ 2 (by decide)]
  simp only [reach, route, hdie, hstep, hlink]

/-- A job that leaves the queue changes nothing about the way of its signal. -/
theorem signalReaches_jobTaken {j : SieveJob} {w : SieveResult} (hw : j.result = some w) (s : State) (raw : List Nat) :
    signalReaches (jobTaken j s) raw = signalReaches s raw := by
  have hframe := jobTaken_frame hw s
  unfold signalReaches
  rw [reach_congr (s := s) (by rw [hframe]) (by rw [hframe])
    (fun n p hp => rd_jobTaken_beside hw s (by
      simp only [besideSieve, fkey, portAt, dieBase, MTR_PORT_STATUS.state]; omega))
    (fun n => rd_jobTaken_beside hw s (by simp only [besideSieve, fkey, MTR_HUB_PORT_STATUS.state]; omega))]

/-! ## Jobs that stop -/

theorem stopJob_event_quiet (c : Nat) (io : IoResult) (s : State) :
    Quiet signalKey s (if sieveEvent io.status then
      event io.status 0 c (if io.status = 0x0810 then sievePort else 0) 1 io.payload s else s) :=
  .ite (event_quiet _ _ _ _ _ _ s).toSignal (.refl s)

theorem stopJob_ringQuiet (c r n : Nat) (raw : List Nat) (io : IoResult) (s : State) :
    RingQuiet signalKey s (stopJob c r n raw io s) :=
  (RingQuiet.of_quiet (stopJob_event_quiet c io s)).trans (finishDesc_ringQuiet _ _ _ _ _ _)

theorem stopJob_descs (c r n : Nat) (raw : List Nat) (io : IoResult) (s : State) :
    ∀ x ∈ (stopJob c r n raw io s).rings.descs, (x.ctx, x.ring, x.count) ≠ (c, r, n) :=
  finishDesc_descs _ _ _ _ _ _

/-- A job that stops signals no Tie (R318). -/
theorem stopJob_ties (c r n : Nat) (raw : List Nat) (io : IoResult) (s : State) :
    (stopJob c r n raw io s).rings.ties = s.rings.ties :=
  (finishDesc_quiet _ _ _ _ _ _).toTies.trans (stopJob_event_quiet c io s).toTies

/-! ## SIEVE_JOB_COMPLETE -/

/-- The jobs count is raised where the job's signal, if any, reaches its home (R212, R314). -/
def jobCounted (raw : List Nat) (s : State) : State :=
  if signalReaches s raw then incWrap SIV_JOB_COUNT.jobs 0 1 s else s

theorem jobCounted_frame (raw : List Nat) (s : State) : jobCounted raw s = { s with regs := (jobCounted raw s).regs } := by
  unfold jobCounted
  split <;> rfl

theorem rd_jobCounted_jobs (raw : List Nat) (s : State) : rd (jobCounted raw s) SIV_JOB_COUNT.jobs =
    if signalReaches s raw then (rd s SIV_JOB_COUNT.jobs + 1) % 2 ^ 32 else rd s SIV_JOB_COUNT.jobs := by
  unfold jobCounted
  split
  · exact rd_wr_self _ _ _ _
  · rfl

theorem rd_jobCounted_ne {f : Field} (raw : List Nat) (s : State) (h : fkey SIV_JOB_COUNT.jobs 0 ≠ fkey f 0) :
    rd (jobCounted raw s) f = rd s f := by
  unfold jobCounted
  split
  · exact rd_wr_ne _ _ _ _ _ _ h
  · rfl

/-- The state in which a written job ends: it has left the queue and is counted, and its descriptor's work ends. -/
def jobWritten (j : SieveJob) (w : SieveResult) (s : State) : State :=
  finishWork j.ctx j.ring j.count j.raw { result := w.entries.length } (jobCounted j.raw (jobTaken j s))

theorem exec_sieveJobComplete_written {s s1 : State} {j : SieveJob} {w : SieveResult} (hj : s.sieve.jobs.head? = some j)
    (hw : j.result = some w) (hwrite : writeJob j w s = (0, s1)) :
    exec .sieveJobComplete s = .next (jobWritten j w s1) := by
  change execSieveJobComplete s = _
  unfold execSieveJobComplete
  simp only [hj, hw, hwrite, ne_eq, not_true_eq_false, if_false]
  rfl

/-- What a written job leaves (R206, R211, R212): the counts are exact, and the jobs count keeps whatever it holds where
the home of the signal cannot be reached. -/
theorem jobWritten_effect {s s1 : State} {j : SieveJob} {w : SieveResult} (hw : j.result = some w)
    (hwrite : writeJob j w s = (0, s1)) :
    (jobWritten j w s1).sieve.jobs = s.sieve.jobs.tail ∧
      rd (jobWritten j w s1) SIV_JOB_COUNT.jobs =
        (if signalReaches s1 j.raw then (rd s SIV_JOB_COUNT.jobs + 1) % 2 ^ 32 else rd s SIV_JOB_COUNT.jobs) ∧
      min ((now s - j.startAt) / 1000) 0xFFFF ≤ rd (jobWritten j w s1) SIV_MAX_TIME.max_us ∧
      (∀ d ∈ (jobWritten j w s1).rings.descs, (d.ctx, d.ring, d.count) ≠ (j.ctx, j.ring, j.count)) ∧
      (jobWritten j w s1).fab = s.fab ∧ (jobWritten j w s1).mem.home = s.mem.home ∧ (jobWritten j w s1).clock = s.clock := by
  have hout : Quiet besideSieve s s1 := by
    have h := writeJob_quiet j w s
    rwa [hwrite] at h
  have hend : RingQuiet signalKey (jobCounted j.raw (jobTaken j s1)) (jobWritten j w s1) := finishWork_ringQuiet _ _ _ _ _ _
  have hcounted := jobCounted_frame j.raw (jobTaken j s1)
  have htaken := jobTaken_frame hw s1
  refine ⟨?_, ?_, ?_, finishWork_descs _ _ _ _ _ _, ?_, ?_, ?_⟩
  · rw [Quiet.toSieve hend, hcounted, htaken]
    exact congrArg (fun q => q.jobs.tail) hout.toSieve
  · rw [hend.toSieveField rfl, rd_jobCounted_jobs, signalReaches_jobTaken hw,
      rd_jobTaken hw s1 (by decide) (by decide) (by decide) (by decide), hout.toRd _ _ (not_besideSieve rfl)]
  · rw [hend.toSieveField rfl, rd_jobCounted_ne _ _ (by decide), ← hout.toNow]
    exact maxTime_jobTaken hw s1
  · rw [Quiet.toFab hend, hcounted, htaken]
    exact hout.toFab
  · rw [Quiet.toHome hend, hcounted, htaken]
    exact hout.toHome
  · rw [Quiet.toClock hend, hcounted, htaken]
    exact hout.toClock

/-- SIEVE_JOB_COMPLETE of a job that is written, wherever the jobs count lies in its 32 bits. -/
theorem exec_sieveJobComplete_effect {s s1 : State} {j : SieveJob} {w : SieveResult} (hj : s.sieve.jobs.head? = some j)
    (hw : j.result = some w) (hwrite : writeJob j w s = (0, s1)) (hwidth : rd s SIV_JOB_COUNT.jobs < 2 ^ 32) :
    ∃ t, exec .sieveJobComplete s = .next t ∧ t.sieve.jobs = s.sieve.jobs.tail ∧
      rd t SIV_JOB_COUNT.jobs = (rd s SIV_JOB_COUNT.jobs + (if signalReaches s1 j.raw then 1 else 0)) % 2 ^ 32 ∧
      min ((now s - j.startAt) / 1000) 0xFFFF ≤ rd t SIV_MAX_TIME.max_us ∧
      (∀ d ∈ t.rings.descs, (d.ctx, d.ring, d.count) ≠ (j.ctx, j.ring, j.count)) ∧
      t.fab = s.fab ∧ t.mem.home = s.mem.home ∧ t.clock = s.clock := by
  obtain ⟨hjobs, hcount, hrest⟩ := jobWritten_effect hw hwrite
  refine ⟨_, exec_sieveJobComplete_written hj hw hwrite, hjobs, ?_, hrest⟩
  rw [hcount]
  split
  · rfl
  · rw [Nat.add_zero, Nat.mod_eq_of_lt hwidth]

/-! ## SIEVE_INTERNAL_FAULT -/

/-- The state in which the running job has been stopped by a fault (R210). -/
def jobFaulted (j : SieveJob) (s : State) : State :=
  stopJob j.ctx j.ring j.count j.raw { status := 0x0351 } (jobTaken j s)

theorem jobFaulted_quiet (j : SieveJob) (s : State) : RingQuiet signalKey (jobTaken j s) (jobFaulted j s) :=
  stopJob_ringQuiet _ _ _ _ _ _

theorem exec_sieveInternalFault_running {s : State} {j : SieveJob} {w : SieveResult} (hj : s.sieve.jobs.head? = some j)
    (hw : j.result = some w) (hd : rdB s SIV_STATUS.disabled = false) : exec .sieveInternalFault s =
      .next (event 0x0352 0 0xFF 0 2 [] (wrB SIV_STATUS.disabled 0 true (jobFaulted j s))) := by
  have hkeep : rdB (jobFaulted j s) SIV_STATUS.disabled = false := by
    unfold rdB
    rw [(jobFaulted_quiet j s).toSieveField rfl, rd_jobTaken hw s (by decide) (by decide) (by decide) (by decide)]
    exact hd
  change execSieveInternalFault s = _
  unfold execSieveInternalFault
  rw [hj]
  simp only [hw, Option.isSome_some, if_true]
  exact congrArg Host.Outcome.next (if_neg (Bool.eq_false_iff.mp hkeep))

/-- An internal fault disables the Sieve and takes its running job off the queue (R210). -/
theorem exec_sieveInternalFault_effect {s : State} {j : SieveJob} {w : SieveResult} (hj : s.sieve.jobs.head? = some j)
    (hw : j.result = some w) (hd : rdB s SIV_STATUS.disabled = false) :
    ∃ t, exec .sieveInternalFault s = .next t ∧ rdB t SIV_STATUS.disabled = true ∧ t.sieve.jobs = s.sieve.jobs.tail ∧
      (∀ d ∈ t.rings.descs, (d.ctx, d.ring, d.count) ≠ (j.ctx, j.ring, j.count)) ∧
      t.rings.ties = s.rings.ties ∧ t.fab = s.fab ∧ t.mem.home = s.mem.home ∧ t.clock = s.clock := by
  have hevent := event_quiet 0x0352 0 0xFF 0 2 [] (wrB SIV_STATUS.disabled 0 true (jobFaulted j s))
  have hfault := jobFaulted_quiet j s
  have htaken := jobTaken_frame hw s
  refine ⟨_, exec_sieveInternalFault_running hj hw hd, ?_, ?_, ?_, ?_, ?_, ?_, ?_⟩
  · unfold rdB
    rw [(RingQuiet.of_quiet hevent.toSignal).toSieveField rfl]
    exact rdB_wrB_self _ _ _ _ (by decide)
  · rw [hevent.toSieve, wrB_sieve, Quiet.toSieve hfault, htaken]
  · rw [hevent.toDescs]
    exact stopJob_descs _ _ _ _ _ _
  · rw [hevent.toTies]
    exact (stopJob_ties _ _ _ _ _ _).trans (by rw [htaken])
  · rw [hevent.toFab, wrB_fab, Quiet.toFab hfault, htaken]
  · rw [hevent.toHome, wrB_mem, Quiet.toHome hfault, htaken]
  · rw [hevent.toClock, wrB_clock, Quiet.toClock hfault, htaken]

/-! ## The bytes of the output -/

theorem length_sieveSummary (j : SieveJob) (w : SieveResult) (n : Nat) : (sieveSummary j w n).length = 64 := by
  simp only [sieveSummary, List.length_append, length_leBytes, List.length_replicate, List.length_cons, List.length_nil]

theorem length_keptEntry (c : Cand) : (keptEntry c).length = 32 := by
  simp only [keptEntry, List.length_append, length_leBytes, List.length_replicate]

/-! ## A count beyond its register -/

/-- What a job without candidates has found. -/
def nothingFound : SieveResult :=
  { entries := [], considered := 0, below := 0, invalid := 0, suppressed := 0, truncated := false }

/-- A job that runs, whose output lies at 0x4000 and whose descriptor orders a signal to a Tie of die 2. -/
def farJob : SieveJob :=
  { ctx := 0, ring := 0, count := 0, raw := [2, 9] ++ List.replicate 47 0 ++ [0x80] ++ List.replicate 14 0,
    record := List.replicate 59 0 ++ [0x40, 0, 0, 0, 0], thresh := [], result := some nothingFound }

/-- It runs where only die 1 can be reached and the jobs count stands at 2^32, which its 32 bits cannot hold. -/
def overfull : State :=
  { mode := .run
    mem := { home := [(0, 0)] }
    sieve := { jobs := [farJob] }
    regs := { live := [(fkey SIV_JOB_COUNT.jobs 0, 2 ^ 32), (fkey HST_CTX_STATE.state 0, 1),
      (fkey MTR_HUB_PORT_STATUS.state 0, 2), (fkey MTR_PORT_STATUS.state (portAt 1 2), 2)] } }

/-- The write of its output. -/
def farOutput : Nat × State := writeJob farJob nothingFound overfull

theorem farOutput_written : farOutput.1 = 0 ∧ signalReaches farOutput.2 farJob.raw = false := by decide +kernel

/-- Refutes O16: where the home of its signal cannot be reached, a written job leaves the jobs count as it stands, while the
statement takes it modulo 2^32. `overfull` holds 2^32 there, which no write of the register gives; every clause holds where
the count lies in its 32 bits (`exec_sieveJobComplete_effect`, `exec_sieveInternalFault_effect`, `length_sieveSummary`,
`length_keptEntry`). -/
theorem not_sieveCompletesJobs : ¬ Obligations.SieveCompletesJobs := by
  unfold Obligations.SieveCompletesJobs
  rintro ⟨hcomplete, -, -, -⟩
  obtain ⟨hstatus, hunreached⟩ := farOutput_written
  have hwrite : writeJob farJob nothingFound overfull = (0, farOutput.2) := Prod.fst_eq_iff.mp hstatus
  obtain ⟨t, hexec, -, hcount, -⟩ := hcomplete overfull farOutput.2 farJob nothingFound rfl rfl hwrite
  obtain ⟨-, hkept, -⟩ := jobWritten_effect rfl hwrite
  rw [exec_sieveJobComplete_written rfl rfl hwrite, Host.Outcome.next.injEq] at hexec
  rw [← hexec, hkept, hunreached] at hcount
  exact absurd hcount (by decide)

end Sys2Proof.Machine
end

section
namespace Sys2Proof.Machine

open Reg

/-! ## SIEVE_JOB_ACCEPT -/

theorem rd_refreshSieve_depth (s : State) : rd (refreshSieve s) SIV_STATUS.queue_depth = s.sieve.jobs.length % 2 ^ 5 :=
  rd_wr_self _ _ _ _

theorem rdB_refreshSieve_busy (s : State) :
    rdB (refreshSieve s) SIV_STATUS.busy = (s.sieve.jobs.head?.map (·.result.isSome)).getD false := by
  unfold refreshSieve rdB
  rw [rd_wr_ne _ _ _ _ _ _ (by decide)]
  exact rdB_wrB_self _ _ _ _ (by decide)

/-- The state in which the Sieve reads the record of its oldest waiting descriptor: that descriptor holds its ring no more. -/
def recordAsked (d : Desc) (rest : List (Nat × Nat × Nat)) (s : State) : State :=
  holdRing d.ctx d.ring .none { s with rings := { s.rings with sieveIn := rest } }

/-- From s to s2 the Sieve reads the record and then the thresholds of the oldest descriptor that waits for it, and they pass
every check of class 0x03 (R195, R197). -/
structure JobRead (s s1 s2 : State) (d : Desc) (rest : List (Nat × Nat × Nat)) (record thr : List Nat) : Prop where
  waits : s.rings.sieveIn = (d.ctx, d.ring, d.count) :: rest
  fetched : s.rings.descs.find? (fun x => x.ctx == d.ctx && x.ring == d.ring && x.count == d.count) = some d
  room : s.sieve.jobs.length < 16
  running : s.mode = .run
  recordRead : ioRead sievePort d.ctx 0x0350 false (fld d.raw 24 6) 64 (recordAsked d rest s) = ({ data := record }, s1)
  formed : sieveMalformed record = false
  threshRead : ioRead sievePort d.ctx 0x0350 (ctxSealed s1 d.ctx) (fld record 52 6) (4 * fld record 8 2) s1 =
    ({ data := thr }, s2)
  threshOk : threshBad record thr = false
  apart : sieveOverlap record (fld d.raw 24 6) = false
  whole : ctxSealed s2 d.ctx = true → fld record 58 6 % 4096 = 0

/-- The job of a descriptor that is accepted. -/
def acceptedJob (d : Desc) (record thr : List Nat) : SieveJob :=
  { ctx := d.ctx, ring := d.ring, count := d.count, raw := d.raw, record := record, thresh := thr }

/-- A state with one more job at the end of the Sieve's queue. -/
def jobQueued (j : SieveJob) (s : State) : State :=
  refreshSieve { s with sieve := { s.sieve with jobs := s.sieve.jobs ++ [j] } }

/-- The job joins the queue that its reads leave. -/
theorem exec_sieveJobAccept_read {s s1 s2 : State} {d : Desc} {rest : List (Nat × Nat × Nat)} {record thr : List Nat}
    (h : JobRead s s1 s2 d rest record thr) :
    exec .sieveJobAccept s = .next (jobQueued (acceptedJob d record thr) s2) := by
  have haccept : acceptJob d.ctx d.ring d.count d.raw record thr s2 = jobQueued (acceptedJob d record thr) s2 := by
    unfold acceptJob
    rw [if_neg (by rw [h.threshOk]; exact Bool.false_ne_true), if_neg (by rw [h.apart]; exact Bool.false_ne_true),
      if_neg (fun hbad => hbad.2 (h.whole hbad.1))]
    rfl
  have hgo : ¬ (16 ≤ s.sieve.jobs.length ∨ s.mode ≠ .run) :=
    fun hno => hno.elim (Nat.not_le.mpr h.room) (fun hm => hm h.running)
  have hrecord := h.recordRead
  unfold recordAsked at hrecord
  change execSieveJobAccept s = _
  unfold execSieveJobAccept
  simp only [h.waits, h.fetched, if_neg hgo, hrecord, h.formed, h.threshRead, ne_eq, not_true_eq_false, if_false,
    Bool.false_eq_true, haccept]

/-- SIEVE_JOB_ACCEPT of a job whose reads tear no context down. -/
theorem exec_sieveJobAccept_effect {s s1 s2 : State} {d : Desc} {rest : List (Nat × Nat × Nat)} {record thr : List Nat}
    (h : JobRead s s1 s2 d rest record thr) (hin : s2.rings.sieveIn = rest) (hjobs : s2.sieve.jobs = s.sieve.jobs) :
    ∃ t, exec .sieveJobAccept s = .next t ∧ t.rings.sieveIn = rest ∧
      t.sieve.jobs = s.sieve.jobs ++ [acceptedJob d record thr] ∧
      rd t SIV_STATUS.queue_depth = s.sieve.jobs.length + 1 := by
  refine ⟨_, exec_sieveJobAccept_read h, hin, congrArg (· ++ [_]) hjobs, ?_⟩
  have hroom := h.room
  unfold jobQueued
  rw [rd_refreshSieve_depth, List.length_append, hjobs, List.length_singleton]
  exact Nat.mod_eq_of_lt (by omega)

/-! ## SIEVE_JOB_START -/

/-- A job that has started: when, and the result of its whole work. -/
def jobStarted (j : SieveJob) (cands anchors : List Nat) (s : State) : SieveJob :=
  { j with startAt := now s, startDial := dial s, result := some (sieveWork j.record j.thresh cands anchors) }

/-- SIEVE_JOB_START of a job whose reads have not torn its context down (R207). -/
theorem exec_sieveJobStart_effect {s s1 s2 : State} {j : SieveJob} {rest : List SieveJob} {cands anchors : List Nat}
    (hj : s.sieve.jobs = j :: rest) (hr : j.result = none) (hm : s.mode = .run) (hd : rdB s SIV_STATUS.disabled = false)
    (hcands : ioRead sievePort j.ctx 0x0350 (ctxSealed s j.ctx) (fld j.record 40 6) (16 * fld j.record 4 2) s =
      ({ data := cands }, s1))
    (hanchors : ioRead sievePort j.ctx 0x0350 (ctxSealed s j.ctx) (fld j.record 46 6) (16 * fld j.record 10 2) s1 =
      ({ data := anchors }, s2))
    (hhead : s2.sieve.jobs.head? = some j) :
    ∃ t, exec .sieveJobStart s = .next t ∧ rdB t SIV_STATUS.busy = true ∧
      t.sieve.jobs = jobStarted j cands anchors s :: rest := by
  refine ⟨refreshSieve { s2 with sieve := { s2.sieve with jobs := jobStarted j cands anchors s :: rest } }, ?_,
    rdB_refreshSieve_busy _, rfl⟩
  change execSieveJobStart s = _
  unfold execSieveJobStart
  simp only [hj, hr, hm, hd, hcands, hanchors, hhead, Option.isSome_none, Bool.false_eq_true, ne_eq, not_true_eq_false,
    or_self, if_false, if_true]
  rfl

/-- A disabled Sieve takes the head off its queue (R210). -/
theorem exec_sieveJobStart_disabled {s : State} {j : SieveJob} {rest : List SieveJob} (hj : s.sieve.jobs = j :: rest)
    (hr : j.result = none) (hm : s.mode = .run) (hd : rdB s SIV_STATUS.disabled = true) :
    ∃ t, exec .sieveJobStart s = .next t ∧ t.sieve.jobs = rest ∧ rdB t SIV_STATUS.disabled = true := by
  have hstop := stopJob_ringQuiet j.ctx j.ring j.count j.raw { status := 0x0351 } (popJob s)
  refine ⟨stopJob j.ctx j.ring j.count j.raw { status := 0x0351 } (popJob s), ?_, ?_, ?_⟩
  · change execSieveJobStart s = _
    unfold execSieveJobStart
    simp only [hj, hr, hm, hd, Option.isSome_none, Bool.false_eq_true, ne_eq, not_true_eq_false, or_self, if_false, if_true]
  · rw [Quiet.toSieve hstop]
    exact congrArg List.tail hj
  · unfold rdB
    rw [hstop.toSieveField rfl, rd_popJob 0 s (by decide) (by decide)]
    exact hd

/-! ## The work of a job -/

/-- The candidate of a class, where it is considered. -/
def CandClass.considered : CandClass → Option Cand
  | .good c => some c
  | _ => none

/-- Every candidate is considered, below the score, or invalid (R199). -/
theorem classes_counted (l : List CandClass) : (l.filterMap CandClass.considered).length + countIf l (· == .below) +
    countIf l (· == .invalid) = l.length := by
  induction l with
  | nil => rfl
  | cons x r ih =>
    simp only [countIf] at ih ⊢
    cases x <;> simp [CandClass.considered, List.filterMap_cons] <;> omega

/-- The walk never keeps more than it may (R202). -/
theorem length_sieveWalk_le (agnostic : Bool) (thresh : List Nat) (most : Nat) (l kept : List Cand) (sup : Nat)
    (h : kept.length ≤ most) : (sieveWalk agnostic thresh most l kept sup).1.length ≤ most := by
  induction l generalizing kept sup with
  | nil => rwa [sieveWalk, List.length_reverse]
  | cons c r ih =>
    rw [sieveWalk]
    split
    · rwa [List.length_reverse]
    · next hroom =>
      extract_lets t
      split
      · exact ih _ _ h
      · exact ih _ _ (Nat.lt_of_not_le hroom)

theorem sieveWork_entries_le (record thr cands anchors : List Nat) :
    (sieveWork record thr cands anchors).entries.length ≤ fld record 6 2 := by
  unfold sieveWork
  rw [List.length_map]
  exact length_sieveWalk_le _ _ _ _ _ _ (Nat.zero_le _)

theorem sieveWork_counted (record thr cands anchors : List Nat) :
    (sieveWork record thr cands anchors).considered + (sieveWork record thr cands anchors).below +
      (sieveWork record thr cands anchors).invalid = fld record 4 2 := by
  have h := classes_counted ((List.range (fld record 4 2)).map (classify record cands anchors))
  rw [List.length_map, List.length_range] at h
  exact h

/-! ## A read that empties the queue -/

/-- A Sieve record: corners without anchors, two candidates, one class, one entry to keep, candidates at 0x2000, thresholds
at 0x3000, output at 0x4000 (R195). -/
def cornerRecord : List Nat :=
  [1, 0, 0, 0, 2, 0, 1, 0, 1] ++ List.replicate 32 0 ++ [0x20] ++ List.replicate 11 0 ++ [0x30] ++ List.replicate 5 0 ++
    [0x40, 0, 0, 0, 0]

/-- The SIEVE descriptor of context 0 that names it at 0x1000. -/
def cornerDesc : Desc :=
  { ctx := 0, ring := 0, count := 0, raw := [2, 1] ++ List.replicate 23 0 ++ [0x10] ++ List.replicate 38 0,
    phase := .forwarded }

/-- A job of context 1 that waits in the queue. -/
def neighbourJob : SieveJob := { ctx := 1, ring := 0, count := 0, raw := [], record := cornerRecord, thresh := [0, 0, 0, 0] }

/-- A package in run whose contexts 0 and 1 are open and own the pages at 0 and at 0x10000: a line of context 1 was
uncorrectable when it was last accessed, and the next read is to report it (R364). -/
def reportingState : State :=
  poke 0x1000 cornerRecord
    { mode := .run
      mem := { home := [(0, 0), (1, 0x01000001)], found := [(0x10000, 2)] }
      rings := { sieveIn := [(0, 0, 0)], descs := [cornerDesc] }
      sieve := { jobs := [neighbourJob] }
      regs := { live := [(fkey HST_CTX_STATE.state 0, 1), (fkey HST_CTX_STATE.state 0x100, 1),
        (fkey MTR_HUB_PORT_STATUS.state 0, 2), (fkey MTR_PORT_STATUS.state (portAt 1 2), 2)] } }

/-- The read of the record, and then of the thresholds. -/
def reportingRecord : IoResult × State := ioRead sievePort 0 0x0350 false 0x1000 64 (recordAsked cornerDesc [] reportingState)
def reportingThresh : IoResult × State := ioRead sievePort 0 0x0350 (ctxSealed reportingRecord.2 0) 0x3000 4 reportingRecord.2

/-- Both reads are served and pass every check, and the report tears context 1 down, whose job leaves the queue. -/
theorem reporting_reads : reportingRecord.1 = { data := cornerRecord } ∧ reportingThresh.1 = { data := [0, 0, 0, 0] } ∧
    sieveMalformed cornerRecord = false ∧ threshBad cornerRecord [0, 0, 0, 0] = false ∧
    sieveOverlap cornerRecord 0x1000 = false ∧ ctxSealed reportingThresh.2 0 = false ∧
    reportingThresh.2.sieve.jobs = [] := by decide +kernel

/-- In `reportingState` the Sieve's reads pass every check, and leave no job in the queue. -/
theorem reporting_jobRead : ∃ s1 s2, JobRead reportingState s1 s2 cornerDesc [] cornerRecord [0, 0, 0, 0] ∧
    s2.sieve.jobs = [] := by
  obtain ⟨hrecord, hthresh, hformed, hok, hapart, hsealed, hgone⟩ := reporting_reads
  refine ⟨reportingRecord.2, reportingThresh.2, ?_, hgone⟩
  exact {
    waits := rfl
    fetched := rfl
    room := by decide
    running := rfl
    recordRead := Prod.fst_eq_iff.mp hrecord
    formed := hformed
    threshRead := Prod.fst_eq_iff.mp hthresh
    threshOk := hok
    apart := hapart
    whole := fun h => absurd (hsealed.symm.trans h) Bool.false_ne_true }

/-- Refutes O15: in `reportingState` the record and the thresholds are read and pass every check, but the first read also
reports an uncorrectable line of another context that an access before it met; that tears the context down (R364, R278), and
its job leaves the queue that the accepted one joins (R208). Where the reads leave the queue alone the clause holds, as the
others do of every state (`exec_sieveJobAccept_effect`, `exec_sieveJobStart_effect`, `exec_sieveJobStart_disabled`,
`sieveWork_entries_le`, `sieveWork_counted`). -/
theorem not_sieveTakesAndStartsJobs : ¬ Obligations.SieveTakesAndStartsJobs := by
  unfold Obligations.SieveTakesAndStartsJobs
  rintro ⟨haccept, -, -, -⟩
  obtain ⟨s1, s2, hread, hgone⟩ := reporting_jobRead
  obtain ⟨t, hexec, -, hjobs, -⟩ := haccept reportingState s1 s2 0 0 0 [] cornerDesc cornerRecord [0, 0, 0, 0] hread.waits
    hread.fetched hread.room hread.running hread.recordRead hread.formed hread.threshRead hread.threshOk hread.apart hread.whole
  rw [exec_sieveJobAccept_read hread, Host.Outcome.next.injEq] at hexec
  have hqueue : t.sieve.jobs = [acceptedJob cornerDesc cornerRecord [0, 0, 0, 0]] := by
    rw [← hexec]
    exact congrArg (· ++ [_]) hgone
  rw [hqueue] at hjobs
  exact absurd (congrArg List.length hjobs) (by decide)

end Sys2Proof.Machine
end

section
namespace Sys2Proof.Machine

open Reg

/-! ## A read of a plan's image that tears a context down -/

/-- A package in run whose context 0 is open, owns the page at 0 and has its state on Course 0: a line of that page was
uncorrectable when it was last accessed, and the next read is to report it (R364). DAY_PLAN_ADDR names the host's page at
0x10000. -/
def reportingPlanState : State :=
  { mode := .run
    mem := { home := [(0, 0), (1, 0x40000001)], found := [(0, 2)] }
    fab := { courses := [(0, { owner := 0 })] }
    regs := {
      live := [(fkey HST_CTX_STATE.state 0, 1), (fkey MTR_HUB_PORT_STATUS.state 0, 2),
        (fkey MTR_PORT_STATUS.state (portAt 1 2), 2)]
      staged := [(fkey DAY_PLAN_ADDR.plan_addr 0, 0x10000)] } }

/-- The read of the header, and then of the image. -/
def reportingHeader : Nat × List Nat × State :=
  readMem 72 0xFF (stg reportingPlanState DAY_PLAN_ADDR.plan_addr) 64 [] (commitAt 0 0x40001C reportingPlanState)
def reportingImage : Nat × List Nat × State :=
  readMem 72 0xFF (stg reportingPlanState DAY_PLAN_ADDR.plan_addr) (planLength reportingHeader.2.1) [] reportingHeader.2.2

/-- Both reads are served, and the report leaves Course 0 to the scrub of its context's teardown (R278). -/
theorem reportingPlan_reads : reportingHeader.1 = 0 ∧ reportingImage.1 = 0 ∧
    (courseOf reportingImage.2.2 0).scrub = true := by decide +kernel

theorem reportingPlan_addr : stg reportingPlanState DAY_PLAN_ADDR.plan_addr = 0x10000 := by decide +kernel

/-- A read that is served, by its bytes and the state after it. -/
theorem readServed {p : Nat × List Nat × State} (h : p.1 = 0) : p = (0, p.2.1, p.2.2) := by rw [← h]

/-- The checks of a plan start once its image is read, while no other is being checked (R271, R773). -/
theorem dayStart_read {s s1 s2 : State} {hdr img : List Nat} (hjob : s.day.job = none)
    (hhdr : readMem 72 0xFF (stg s DAY_PLAN_ADDR.plan_addr) 64 [] s = (0, hdr, s1))
    (himg : readMem 72 0xFF (stg s DAY_PLAN_ADDR.plan_addr) (planLength hdr) [] s1 = (0, img, s2)) :
    dayStart s = commitBusy 0 (wrB DAY_STATUS.commit_busy 0 true
      { s2 with day := { s2.day with job := some ⟨img, now s, dial s, stg s DAY_PLAN_ADDR.plan_addr⟩ } }) := by
  simp only [dayStart, hhdr, himg, hjob]
  rfl

/-- A plan commit whose image is read takes it into work (R271). -/
theorem exec_dayCommit_read {s s1 s2 : State} {v : Nat} {hdr img : List Nat} (hv : v % 2 = 1) (hd : dieSilent s 0 = false)
    (hjob : s.day.job = none) (halign : stg s DAY_PLAN_ADDR.plan_addr % 64 = 0)
    (hend : stg s DAY_PLAN_ADDR.plan_addr + 64 < hbmEnd)
    (hhdr : readMem 72 0xFF (stg s DAY_PLAN_ADDR.plan_addr) 64 [] (commitAt 0 0x40001C s) = (0, hdr, s1))
    (himg : readMem 72 0xFF (stg s DAY_PLAN_ADDR.plan_addr) (planLength hdr) [] s1 = (0, img, s2)) :
    exec (.dayCommit v) s = .next (commitBusy 0 (wrB DAY_STATUS.commit_busy 0 true
      { s2 with day := { s2.day with
          job := some ⟨img, now s, dial (commitAt 0 0x40001C s), stg s DAY_PLAN_ADDR.plan_addr⟩ } })) := by
  have hstart := dayStart_read (s := commitAt 0 0x40001C s) hjob hhdr himg
  change execDayCommit v s = _
  unfold execDayCommit
  dsimp only
  rw [if_neg (by omega), if_neg (by simp [hd]), if_neg (by simpa using halign), if_neg (by omega), hstart]
  rfl

/-- Refutes O17: in `reportingPlanState` both reads of the image are served, but the first also reports an uncorrectable line
that an access before it met; that tears the line's context down (R364, R278), and the Course that holds the context's state
waits for its scrub, while the statement keeps the fabric as it was. -/
theorem not_dayPlanCommits : ¬ Obligations.DayPlanCommits := by
  unfold Obligations.DayPlanCommits
  rintro ⟨hcommit, -⟩
  obtain ⟨hheader, himage, hscrub⟩ := reportingPlan_reads
  have hhdr : reportingHeader = (0, reportingHeader.2.1, reportingHeader.2.2) := readServed hheader
  have himg : reportingImage = (0, reportingImage.2.1, reportingImage.2.2) := readServed himage
  have halign : stg reportingPlanState DAY_PLAN_ADDR.plan_addr % 64 = 0 := by rw [reportingPlan_addr]
  have hend : stg reportingPlanState DAY_PLAN_ADDR.plan_addr + 64 < hbmEnd := by rw [reportingPlan_addr]; decide
  obtain ⟨t, hexec, -, -, -, -, hfab⟩ := hcommit reportingPlanState reportingHeader.2.2 reportingImage.2.2 1
    reportingHeader.2.1 reportingImage.2.1 (by decide) (by decide) (by decide) halign hend hhdr himg
  rw [exec_dayCommit_read (by decide) (by decide) (by decide) halign hend hhdr himg, Host.Outcome.next.injEq] at hexec
  have hkept : reportingImage.2.2.fab = reportingPlanState.fab := by rw [← hfab, ← hexec, commitBusy_fab, wrB_fab]
  unfold courseOf at hscrub
  rw [hkept] at hscrub
  exact absurd hscrub (by decide)

end Sys2Proof.Machine
end

section
namespace Sys2Proof.Machine

open Reg

/-! ## Courses that are asked to stop or to switch -/

theorem courseOf_congr {s t : State} (h : t.fab.courses = s.fab.courses) (c : Nat) : courseOf t c = courseOf s c := by
  unfold courseOf
  rw [h]

theorem courseOf_modCourse (c d : Nat) (f : CourseState → CourseState) (s : State) :
    courseOf (modCourse c f s) d = if c = d then f (courseOf s d) else courseOf s d := by
  split
  · next h => subst h; exact courseOf_modCourse_self c f s
  · next h => exact courseOf_modCourse_ne c d f s h

/-- The registers that show which Courses run or switch, and their busy Bricks (R95). -/
def runKey (k : Nat) : Prop := ∃ c, k = fkey TRW_COURSE_STATE.running (atCourse c 0x100) ∨
  k = fkey TRW_COURSE_STATE.switching (atCourse c 0x100) ∨ k = fkey TRW_COURSE_STATE.busy_map (atCourse c 0x100)

/-- A field that begins at bit 0 of its register is none of them. -/
theorem not_runKey {f : Field} (a : Nat) (hf : f.lo = 0) : ¬ runKey (fkey f a) := by
  simp only [runKey, fkey, hf, TRW_COURSE_STATE.running, TRW_COURSE_STATE.switching, TRW_COURSE_STATE.busy_map]
  rintro ⟨c, h | h | h⟩ <;> omega

/-- From s to t Courses were asked to stop or to switch: what runs there may have changed, but not what holds them. -/
structure Asked (s t : State) : Prop where
  rest : t = { s with regs := t.regs, rings := t.rings,
                      fab := { s.fab with launches := t.fab.launches, courses := t.fab.courses } }
  live : ∀ k d, ¬ runKey k → aget t.regs.live k d = aget s.regs.live k d
  watch : ∀ c, (courseOf t c).watch = (courseOf s c).watch
  owner : ∀ c, (courseOf t c).owner = (courseOf s c).owner

namespace Asked

variable {s t u : State}

protected theorem refl (s : State) : Asked s s := ⟨rfl, fun _ _ _ => rfl, fun _ => rfl, fun _ => rfl⟩

protected theorem trans (h : Asked s t) (g : Asked t u) : Asked s u where
  rest := by rw [g.rest, h.rest]
  live := fun k d hk => (g.live k d hk).trans (h.live k d hk)
  watch := fun c => (g.watch c).trans (h.watch c)
  owner := fun c => (g.owner c).trans (h.owner c)

theorem foldl {α : Type} (f : State → α → State) (l : List α) (hf : ∀ x a, Asked x (f x a)) (s : State) :
    Asked s (l.foldl f s) := by
  induction l generalizing s with
  | nil => exact .refl s
  | cons a r ih => exact (hf s a).trans (ih (f s a))

theorem ite {c : Prop} [Decidable c] (ht : Asked s t) (hu : Asked s u) : Asked s (if c then t else u) := by
  split <;> assumption

/-- A change of rings and launches alone. -/
theorem of_launches (h : t = { s with rings := t.rings, fab := { s.fab with launches := t.fab.launches } }) : Asked s t := by
  rw [h]
  exact ⟨rfl, fun _ _ _ => rfl, fun _ => rfl, fun _ => rfl⟩

theorem modCourse (c : Nat) {f : CourseState → CourseState} (hw : ∀ x, (f x).watch = x.watch)
    (ho : ∀ x, (f x).owner = x.owner) (s : State) : Asked s (Machine.modCourse c f s) where
  rest := rfl
  live := fun _ _ _ => rfl
  watch := fun d => by rw [courseOf_modCourse]; split; exact hw _; rfl
  owner := fun d => by rw [courseOf_modCourse]; split; exact ho _; rfl

theorem wr {f : Field} {a v : Nat} (hf : runKey (fkey f a)) (s : State) : Asked s (Machine.wr f a v s) :=
  ⟨rfl, fun _ _ hk => aget_aset_ne _ _ _ _ _ _ (fun e => hk (e ▸ hf)), fun _ => rfl, fun _ => rfl⟩

theorem clock (h : Asked s t) : t.clock = s.clock := by rw [h.rest]
theorem day (h : Asked s t) : t.day = s.day := by rw [h.rest]
theorem mem (h : Asked s t) : t.mem = s.mem := by rw [h.rest]
theorem hod (h : Asked s t) : t.fab.hod = s.fab.hod := by rw [h.rest]
theorem bed (h : Asked s t) : t.fab.bed = s.fab.bed := by rw [h.rest]

theorem toRd (h : Asked s t) (f : Field) (a : Nat) (hf : f.lo = 0) : rd t f a = rd s f a := h.live _ _ (not_runKey a hf)

end Asked

theorem refreshCourse_asked (c : Nat) (s : State) : Asked s (refreshCourse c s) :=
  (Asked.wr ⟨c, .inl rfl⟩ s).trans (.wr ⟨c, .inr (.inr rfl)⟩ _)

theorem restartWdog_asked (c : Nat) (s : State) : Asked s (restartWdog c s) :=
  .ite (.modCourse c (by intro; rfl) (by intro; rfl) s) (.modCourse c (by intro; rfl) (by intro; rfl) s)

theorem tryPark_asked (id c : Nat) (s : State) : Asked s (tryPark id c s) := by
  rcases tryPark_cases id c s with h | h
  · rw [h]
    exact .refl s
  · rw [h]
    exact ((Asked.of_launches rfl).trans (restartWdog_asked c _)).trans (refreshCourse_asked c _)

theorem withdrawWaits_asked (id c : Nat) (s : State) : Asked s (withdrawWaits id c s) := by
  unfold withdrawWaits
  split
  · exact .refl s
  · exact .of_launches rfl

theorem requestStop_asked (c : Nat) (s : State) : Asked s (requestStop c s) :=
  .foldl _ _ (fun x _ => .ite ((withdrawWaits_asked _ _ x).trans (tryPark_asked _ _ _)) (.refl x)) s

theorem releaseStaged_asked (c : Nat) (s : State) : Asked s (releaseStaged c s) := .of_launches rfl

theorem startSwitch_asked (c inCtx : Nat) (watch at_ : Option Nat) (s : State) : Asked s (startSwitch c inCtx watch at_ s) :=
  (((releaseStaged_asked c s).trans (.modCourse c (by intro; rfl) (by intro; rfl) _)).trans
    (.wr ⟨c, .inr (.inl rfl)⟩ _)).trans (requestStop_asked c _)

theorem passOn_asked (c ctx end_ : Nat) (s : State) : Asked s (passOn c ctx end_ s) := by
  have hstop : Asked s (requestStop c (modCourse c (fun x => { x with preempt := true }) s)) :=
    (Asked.modCourse c (by intro; rfl) (by intro; rfl) s).trans (requestStop_asked c _)
  unfold passOn
  split
  · exact .ite (.ite (.refl s) hstop) (startSwitch_asked _ _ _ _ s)
  · exact hstop

theorem goFurther_asked (c inCtx : Nat) (s : State) : Asked s (goFurther c inCtx s) := by
  unfold goFurther
  dsimp only
  split
  · exact .ite (.refl s) (startSwitch_asked _ _ _ _ s)
  · split
    · exact .ite (.refl s) (startSwitch_asked _ _ _ _ s)
    · exact .ite (startSwitch_asked _ _ _ _ s) (.refl s)

/-! ## The clock, the plans and the period -/

/-- From s to t no time passes, the plans stay, and so does the period index. -/
structure SameDay (s t : State) : Prop where
  clock : t.clock = s.clock
  day : t.day = s.day
  period : rd t DAY_PERIOD_INDEX.period = rd s DAY_PERIOD_INDEX.period

namespace SameDay

variable {s t u : State}

protected theorem refl (s : State) : SameDay s s := ⟨rfl, rfl, rfl⟩

protected theorem trans (h : SameDay s t) (g : SameDay t u) : SameDay s u :=
  ⟨g.clock.trans h.clock, g.day.trans h.day, g.period.trans h.period⟩

theorem foldl {α : Type} (f : State → α → State) (l : List α) (hf : ∀ x a, SameDay x (f x a)) (s : State) :
    SameDay s (l.foldl f s) := by
  induction l generalizing s with
  | nil => exact .refl s
  | cons a r ih => exact (hf s a).trans (ih (f s a))

theorem ite {c : Prop} [Decidable c] (ht : SameDay s t) (hu : SameDay s u) : SameDay s (if c then t else u) := by
  split <;> assumption

theorem of_asked (h : Asked s t) : SameDay s t := ⟨h.clock, h.day, h.toRd _ _ rfl⟩

theorem of_quiet {S : Nat → Prop} (h : Quiet S s t) (hS : ¬ S (fkey DAY_PERIOD_INDEX.period 0)) : SameDay s t :=
  ⟨h.toClock, h.toDay, h.toRd _ _ hS⟩

end SameDay

/-- A register of the Courses' blocks is none that reports change (R95). -/
theorem not_reportKey_course {f : Field} (c : Nat)
    (hf : decide (0x200000 ≤ f.off ∧ f.off < 0x200100 ∧ f.lo < 64) = true) : ¬ reportKey (fkey f (atCourse c 0x100)) := by
  have hoff := of_decide_eq_true hf
  simp only [reportKey, retryKey, fkey, atCourse, dieBase, courseDie, HST_EVT_DROP_COUNT.drops, HST_DEV_EQ_TAIL.tail,
    PLB_PORT_STATE.over_rate, HBM_CRC_RETRY_COUNT.retries, HST_CTX_STATE.stopped]
  rintro (e | e | e | ⟨d, e⟩ | ⟨d, hd, e⟩) <;> omega

/-- A register of the Day plans is none that reports change (R280). -/
theorem not_reportKey_day {f : Field} (hf : decide (0x400000 ≤ f.off ∧ f.off < 0x400100 ∧ f.lo < 64) = true) :
    ¬ reportKey (fkey f 0) := by
  have hoff := of_decide_eq_true hf
  simp only [reportKey, retryKey, fkey, dieBase, HST_EVT_DROP_COUNT.drops, HST_DEV_EQ_TAIL.tail,
    PLB_PORT_STATE.over_rate, HBM_CRC_RETRY_COUNT.retries, HST_CTX_STATE.stopped]
  rintro (e | e | e | ⟨d, e⟩ | ⟨d, hd, e⟩) <;> omega

/-- The registers that the report of a late Watch changes (R274). -/
def lateKey (k : Nat) : Prop := k = fkey DAY_LATE_COUNT.late 0 ∨ reportKey k

theorem not_lateKey_period : ¬ lateKey (fkey DAY_PERIOD_INDEX.period 0) := by
  rintro (h | h)
  · exact absurd h (by decide)
  · exact not_reportKey_day rfl h

theorem not_lateKey_course {f : Field} (c : Nat)
    (hf : decide (0x200000 ≤ f.off ∧ f.off < 0x200100 ∧ f.lo < 64) = true) : ¬ lateKey (fkey f (atCourse c 0x100)) := by
  rintro (h | h)
  · have hoff := of_decide_eq_true hf
    simp only [fkey, atCourse, dieBase, courseDie, DAY_LATE_COUNT.late] at h
    omega
  · exact not_reportKey_course c hf h

/-- The report of a Watch that was late, or never began (R274). -/
theorem lateEvent_quiet (die ctx unit sev : Nat) (p : List Nat) (s : State) :
    Quiet lateKey s (event 0x0530 die ctx unit sev p (incSat DAY_LATE_COUNT.late 0 1 s)) :=
  (wr_quiet _ _ _ s (.inl rfl)).trans ((event_quiet _ _ _ _ _ _ _).mono fun _ h => .inr h)

/-! ## The end of a Watch on a Course -/

/-- A Course after the Watch that held it, before it passes on (R259). -/
def leftByWatch (c : Nat) (s : State) : State :=
  wr TRW_COURSE_STATE.context (atCourse c 0x100) 0xFF
    (modCourse c (fun x => { x with watch := none, testsLeft := 0, test := none }) s)

theorem endWatchOn_held {i c : Nat} {w : Watch} {s : State} (h : (courseOf s c).watch = some i) :
    endWatchOn i w s c = passOn c w.ctx (watchEndAt s w) (leftByWatch c s) := if_pos h

theorem fkey_context_ne_period (c : Nat) :
    fkey TRW_COURSE_STATE.context (atCourse c 0x100) ≠ fkey DAY_PERIOD_INDEX.period 0 := by
  simp only [fkey, atCourse, dieBase, courseDie, TRW_COURSE_STATE.context, DAY_PERIOD_INDEX.period]
  omega

theorem leftByWatch_sameDay (c : Nat) (s : State) : SameDay s (leftByWatch c s) :=
  ⟨rfl, rfl, rd_wr_ne _ _ _ _ _ _ (fkey_context_ne_period c)⟩

theorem courseOf_leftByWatch (c d : Nat) (s : State) : courseOf (leftByWatch c s) d =
    if c = d then { courseOf s d with watch := none, testsLeft := 0, test := none } else courseOf s d :=
  courseOf_modCourse c d (fun x => { x with watch := none, testsLeft := 0, test := none }) s

/-- A Watch that does not hold a Course is reported there at most, and the Course passes on at most (R259, R274). -/
theorem endWatchOn_unheld {i c : Nat} (w : Watch) {s : State} (h : (courseOf s c).watch ≠ some i) :
    ∃ s1, Quiet lateKey s s1 ∧ Asked s1 (endWatchOn i w s c) := by
  unfold endWatchOn
  dsimp only
  rw [if_neg h]
  refine ⟨_, .ite (lateEvent_quiet _ _ _ _ _ s) (.refl s), .ite (passOn_asked _ _ _ _) (.refl _)⟩

theorem endWatchOn_sameDay (i : Nat) (w : Watch) (s : State) (c : Nat) : SameDay s (endWatchOn i w s c) := by
  by_cases h : (courseOf s c).watch = some i
  · rw [endWatchOn_held h]
    exact (leftByWatch_sameDay c s).trans (.of_asked (passOn_asked _ _ _ _))
  · obtain ⟨s1, hquiet, hasked⟩ := endWatchOn_unheld w h
    exact (SameDay.of_quiet hquiet not_lateKey_period).trans (.of_asked hasked)

/-- The registers of two Courses are apart. -/
theorem fkey_atCourse_ne {f : Field} {c d : Nat} (h : c ≠ d) : fkey f (atCourse c 0x100) ≠ fkey f (atCourse d 0x100) := by
  simp only [fkey, atCourse, dieBase, courseDie]
  omega

/-- What a Course shows of its Watch: the Watch that holds it, and its context's number (R95). -/
def watchShown (s : State) (c : Nat) : Option Nat × Nat := ((courseOf s c).watch, courseCtx s c)

theorem watchShown_asked {s t : State} (h : Asked s t) (c : Nat) : watchShown t c = watchShown s c :=
  Prod.ext (h.watch c) (h.toRd _ _ rfl)

theorem watchShown_late {s t : State} (h : Quiet lateKey s t) (c : Nat) : watchShown t c = watchShown s c :=
  Prod.ext (congrArg (·.watch) (courseOf_congr (congrArg (·.courses) h.toFab) c)) (h.toRd _ _ (not_lateKey_course c rfl))

theorem watchShown_endWatchOn_unheld {i c d : Nat} (w : Watch) {s : State} (h : (courseOf s c).watch ≠ some i) :
    watchShown (endWatchOn i w s c) d = watchShown s d := by
  obtain ⟨s1, hquiet, hasked⟩ := endWatchOn_unheld w h
  exact (watchShown_asked hasked d).trans (watchShown_late hquiet d)

/-- The end of a Watch on one Course leaves what the others show. -/
theorem watchShown_endWatchOn_ne {i c d : Nat} (w : Watch) (s : State) (hcd : c ≠ d) :
    watchShown (endWatchOn i w s c) d = watchShown s d := by
  by_cases h : (courseOf s c).watch = some i
  · rw [endWatchOn_held h]
    refine (watchShown_asked (passOn_asked _ _ _ _) d).trans (Prod.ext ?_ (rd_wr_ne _ _ _ _ _ _ (fkey_atCourse_ne hcd)))
    exact congrArg (·.watch) ((courseOf_leftByWatch c d s).trans (if_neg hcd))
  · exact watchShown_endWatchOn_unheld w h

/-- The end of the Watch that holds a Course leaves it without one (R259). -/
theorem watchShown_endWatchOn_held {i c : Nat} (w : Watch) {s : State} (h : (courseOf s c).watch = some i) :
    watchShown (endWatchOn i w s c) c = (none, 0xFF) := by
  rw [endWatchOn_held h]
  refine (watchShown_asked (passOn_asked _ _ _ _) c).trans (Prod.ext ?_ (rd_wr_self _ _ _ _))
  exact congrArg (·.watch) ((courseOf_leftByWatch c c s).trans (if_pos rfl))

/-- A Course without a Watch stays as it is shown while a Watch ends. -/
theorem watchShown_endWatchOn_none {i c d n : Nat} (w : Watch) {s : State} (h : watchShown s d = (none, n)) :
    watchShown (endWatchOn i w s c) d = (none, n) := by
  by_cases hcd : c = d
  · subst hcd
    have hnone : (courseOf s c).watch = none := congrArg Prod.fst h
    rw [watchShown_endWatchOn_unheld w (by rw [hnone]; exact nofun), h]
  · rw [watchShown_endWatchOn_ne w s hcd, h]

/-- A fold reaches P where the step of one of its elements leads from Q to P, every other step keeps Q, and all keep P. -/
theorem foldl_reaches {α : Type} {f : State → α → State} {P Q : State → Prop} {a : α} {l : List α} (ha : a ∈ l)
    (hreach : ∀ x, Q x → P (f x a)) (hQ : ∀ x b, b ≠ a → Q x → Q (f x b)) (hP : ∀ x b, P x → P (f x b)) {s : State}
    (h : Q s) : P (l.foldl f s) := by
  have hkeep : ∀ (l : List α) x, P x → P (l.foldl f x) := by
    intro l
    induction l with
    | nil => exact fun _ h => h
    | cons b r ih => exact fun x h => ih _ (hP x b h)
  induction l generalizing s with
  | nil => exact absurd ha List.not_mem_nil
  | cons b r ih =>
    by_cases hb : b = a
    · subst hb
      exact hkeep r _ (hreach s h)
    · exact ih ((List.mem_cons.mp ha).resolve_left (Ne.symm hb)) (hQ s b hb h)

/-! ## WATCH_END -/

/-- The state in which a Watch is noted as ended, before its Courses pass on. -/
def watchNoted (i : Nat) (w : Watch) (s : State) : State :=
  let s1 := passTo (watchEndAt s w) s
  { s1 with day := { s1.day with ended := i :: s1.day.ended } }

theorem endWatch_occurs {i : Nat} {w : Watch} {s : State} (hw : watchNow s i = some w) (hi : i ∉ s.day.ended)
    (hr : watchesRun s = true) : endWatch i s = (coursesOf w.mask).foldl (endWatchOn i w) (watchNoted i w s) := by
  unfold endWatch
  rw [hw]
  exact if_neg (by simp [hi, hr])

theorem passTo_day (d : Nat) (s : State) : (passTo d s).day = s.day := by
  obtain ⟨g, c, h⟩ := passTo_frame d s
  rw [h]

theorem passTo_fab (d : Nat) (s : State) : (passTo d s).fab = s.fab := by
  obtain ⟨g, c, h⟩ := passTo_frame d s
  rw [h]

/-- While Watches run the Nightwatch domain does not tick. -/
theorem ticking_of_watchesRun {s : State} (h : watchesRun s = true) : ticking s = false := by
  unfold watchesRun at h
  unfold ticking
  rcases Bool.or_eq_true .. ▸ h with h | h
  · simp [beq_iff_eq.mp h]
  · simp [beq_iff_eq.mp (Bool.and_eq_true .. ▸ h).1]

theorem endWatch_effect {i : Nat} {w : Watch} {s : State} (hw : watchNow s i = some w) (hi : i ∉ s.day.ended)
    (hr : watchesRun s = true) :
    now (endWatch i s) = max (now s) (watchEndAt s w) ∧ i ∈ (endWatch i s).day.ended ∧
      (endWatch i s).day.active = s.day.active ∧
      (∀ c < 64, bit w.mask c = true → (courseOf s c).watch = some i →
        (courseOf (endWatch i s) c).watch = none ∧ courseCtx (endWatch i s) c = 0xFF) := by
  rw [endWatch_occurs hw hi hr]
  have hsame : SameDay (watchNoted i w s) _ := .foldl (endWatchOn i w) (coursesOf w.mask) (endWatchOn_sameDay i w) _
  refine ⟨(congrArg ClockState.count hsame.clock).trans (now_passTo _ s (ticking_of_watchesRun hr)), ?_, ?_,
    fun c hc hm hheld => ?_⟩
  · rw [hsame.day]
    exact List.mem_cons_self
  · rw [hsame.day]
    exact congrArg (·.active) (passTo_day _ s)
  · have hmem : c ∈ coursesOf w.mask := List.mem_filter.mpr ⟨List.mem_range.mpr hc, hm⟩
    have hnoted : (courseOf (watchNoted i w s) c).watch = some i :=
      (congrArg (·.watch) (courseOf_congr (congrArg (·.courses) (passTo_fab (watchEndAt s w) s)) c)).trans hheld
    have hshown := foldl_reaches (P := fun x => watchShown x c = (none, 0xFF)) (Q := fun x => (courseOf x c).watch = some i) hmem
      (fun x => watchShown_endWatchOn_held w)
      (fun x b hb hx => (congrArg Prod.fst (watchShown_endWatchOn_ne w x hb)).trans hx)
      (fun x b => watchShown_endWatchOn_none w) hnoted
    exact Prod.ext_iff.mp hshown

end Sys2Proof.Machine
end

section
namespace Sys2Proof.Machine

open Reg

/-! ## PERIOD_BOUNDARY -/

/-- From s to t Watches of the period ended: of the plans only which Watches have ended changes. -/
structure WatchesEnded (s t : State) : Prop where
  day : t.day = { s.day with ended := t.day.ended }
  period : rd t DAY_PERIOD_INDEX.period = rd s DAY_PERIOD_INDEX.period

namespace WatchesEnded

variable {s t u : State}

protected theorem refl (s : State) : WatchesEnded s s := ⟨rfl, rfl⟩

protected theorem trans (h : WatchesEnded s t) (g : WatchesEnded t u) : WatchesEnded s u where
  day := by rw [g.day, h.day]
  period := g.period.trans h.period

theorem of_sameDay (h : SameDay s t) : WatchesEnded s t := ⟨by rw [h.day], h.period⟩

theorem foldl {α : Type} (f : State → α → State) (l : List α) (hf : ∀ x a, WatchesEnded x (f x a)) (s : State) :
    WatchesEnded s (l.foldl f s) := by
  induction l generalizing s with
  | nil => exact .refl s
  | cons a r ih => exact (hf s a).trans (ih (f s a))

end WatchesEnded

/-- The passing of time leaves the period index, which is not the Dial's register. -/
theorem periodNow_passTo (d : Nat) (s : State) : periodNow (passTo d s) = periodNow s := rd_passTo d s (by decide)

theorem endWatch_watchesEnded (i : Nat) (s : State) : WatchesEnded s (endWatch i s) := by
  unfold endWatch
  split
  · exact .refl s
  · next w hw =>
    split
    · exact .refl s
    · have hnoted : WatchesEnded s (watchNoted i w s) :=
        ⟨by simp only [watchNoted, passTo_day], periodNow_passTo _ s⟩
      exact hnoted.trans (.of_sameDay (.foldl (endWatchOn i w) (coursesOf w.mask) (endWatchOn_sameDay i w) _))

/-- A Course that Night asks to give up its holder (R721). -/
theorem nightStop_sameDay (s : State) : SameDay s (nightStop s) := by
  unfold nightStop
  refine SameDay.trans (t := { s with nwt := { s.nwt with stopped := true } }) ⟨rfl, rfl, rfl⟩ (.foldl _ _ (fun x c => ?_) _)
  have hcleared : SameDay x (wr TRW_COURSE_STATE.context (atCourse c 0x100) 0xFF
      (modCourse c (fun x => { x with watch := none, preempt := true, testsLeft := 0, test := none, overrunAt := none })
        (releaseStaged c x))) := ⟨rfl, rfl, rd_wr_ne _ _ _ _ _ _ (fkey_context_ne_period c)⟩
  exact hcleared.trans (.of_asked (requestStop_asked c _))

theorem nightHook_sameDay (s : State) : SameDay s (nightHook s) := .ite (nightStop_sameDay s) (.refl s)

theorem nextPeriod_effect {s : State} {p : Plan} (hp : s.day.active = some p) :
    (nextPeriod s).day = { s.day with periodAt := s.day.periodAt + p.periodUs * 1000, begun := [], ended := [] } ∧
      s.day.periodAt + p.periodUs * 1000 ≤ now (nextPeriod s) ∧
      periodNow (nextPeriod s) = (periodNow s + 1) % 2 ^ 32 := by
  have hended : WatchesEnded s ((List.range p.watches.length).foldl (fun s i => endWatch i s) s) :=
    .foldl _ _ (fun x i => endWatch_watchesEnded i x) s
  unfold nextPeriod
  rw [hp]
  dsimp only
  generalize (List.range p.watches.length).foldl (fun s i => endWatch i s) s = s0 at hended
  have hat : s0.day.periodAt = s.day.periodAt := by rw [hended.day]
  have hhook := nightHook_sameDay (incWrap DAY_PERIOD_INDEX.period 0 1
    { passTo (s0.day.periodAt + p.periodUs * 1000) s0 with
      day := { (passTo (s0.day.periodAt + p.periodUs * 1000) s0).day with
        periodAt := s0.day.periodAt + p.periodUs * 1000, begun := [], ended := [] } })
  refine ⟨?_, ?_, ?_⟩
  · rw [hhook.day]
    simp only [incWrap_day, passTo_day]
    rw [hended.day]
  · rw [now, hhook.clock, ← hat]
    exact le_of_max_le_right (now_passTo_ge _ s0)
  · calc _ = (periodNow (passTo (s0.day.periodAt + p.periodUs * 1000) s0) + 1) % 2 ^ 32 :=
          hhook.period.trans (rd_wr_self _ _ _ _)
      _ = (periodNow s + 1) % 2 ^ 32 := by rw [periodNow_passTo, periodNow, hended.period]; rfl

/-- A staged plan that takes over later than the next boundary does not do so at it (R272). -/
theorem takeoverDue_of_later {s : State} {p : Plan} (hp : s.day.active = some p)
    (h : ∀ q, s.day.staged = some q → s.day.periodAt + p.periodUs * 1000 < s.day.stagedAt) : takeoverDue s = false := by
  unfold takeoverDue
  rw [hp]
  cases hq : s.day.staged with
  | none => rfl
  | some q => simpa using h q hq

theorem exec_periodBoundary {s : State} (hr : watchesRun s = true) (hd : takeoverDue s = false) :
    exec .periodBoundary s = .next (nextPeriod s) := by
  change execPeriodBoundary s = _
  unfold execPeriodBoundary
  rw [if_pos (by rw [hr, hd]; rfl)]

/-! ## WATCH_START -/

theorem limpAllows_passTo (d : Nat) (s : State) (ctx : Nat) : limpAllows (passTo d s) ctx = limpAllows s ctx := by
  unfold limpAllows rdB
  rw [rd_passTo _ _ (by decide), passTo_day]

/-- The passing of time decides nothing about whether a Watch may begin. -/
theorem mayBegin_passTo (d : Nat) (s : State) (i : Nat) (w : Watch) (c : Nat) :
    mayBegin (passTo d s) i w c = mayBegin s i w c := by
  unfold mayBegin
  rw [limpAllows_passTo]
  obtain ⟨g, k, h⟩ := passTo_frame d s
  rw [h]
  rfl

theorem watchesRun_of_mayBegin {s : State} {i c : Nat} {w : Watch} (h : mayBegin s i w c = true) : watchesRun s = true := by
  simp only [mayBegin, Bool.and_eq_true] at h
  exact h.1.1.1.1.1.1.1.1

/-- The start of a test changes the test in work on its Course and nothing else. -/
theorem startBrickTest_test (c : Nat) (s : State) :
    ∃ t, startBrickTest c s = modCourse c (fun x => { x with test := t }) s := by
  unfold startBrickTest
  split
  · exact ⟨_, rfl⟩
  · exact ⟨none, rfl⟩

/-- Nothing is restored for a Course that holds its context already, or for which nothing is saved (R262). -/
theorem restoreState_unsaved {s : State} {ctx c : Nat} (h : aget s.day.saved (ctx * 64 + c) 0 = 0) :
    restoreState ctx c s = s := if_neg (by rw [h]; omega)

theorem restoreIdle_id {s : State} {ctx c : Nat}
    (h : (courseOf s c).owner < 64 ∨ aget s.day.saved (ctx * 64 + c) 0 = 0) : restoreIdle ctx c s = s := by
  unfold restoreIdle
  split
  · rfl
  · next ho => exact restoreState_unsaved (h.resolve_left ho)

/-- The context number that a Course shows for a holder (R95). -/
def shownCtx (ctx : Nat) : Nat := if ctx < 64 then ctx else 0xFF

theorem shownCtx_lt (ctx : Nat) : shownCtx ctx < 256 := by
  unfold shownCtx
  split <;> omega

/-- A Course that is held for Watch i, with the quota of its context (R274). -/
def heldFor (i : Nat) (w : Watch) (quota : Nat × Nat) (x : CourseState) : CourseState :=
  { x with watch := some i, owner := shownCtx w.ctx, preempt := false, overrunAt := none,
           testsLeft := w.tests, quota := quota }

/-- The state in which a Course is held for a Watch, before its first test and the report of a late start. -/
def heldForWatch (i : Nat) (w : Watch) (c : Nat) (s : State) : State :=
  let s1 := wr TRW_COURSE_STATE.context (atCourse c 0x100) (shownCtx w.ctx)
    (modCourse c (heldFor i w (planQuota s w.ctx)) (wakeCourse c s))
  { s1 with day := { s1.day with begun := (i * 64 + c) :: s1.day.begun } }

theorem beginWatch_quiet {i c : Nat} {w : Watch} {s : State} (h : restoreIdle w.ctx c s = s) :
    Quiet lateKey (startBrickTest c (heldForWatch i w c s)) (beginWatch i w c s) := by
  unfold beginWatch
  rw [h]
  dsimp only
  split
  · exact .refl _
  · exact lateEvent_quiet _ _ _ _ _ _

theorem beginWatch_effect {i c : Nat} {w : Watch} {s : State} (h : restoreIdle w.ctx c s = s) :
    (beginWatch i w c s).clock = s.clock ∧
      (courseOf (beginWatch i w c s) c).watch = some i ∧ (courseOf (beginWatch i w c s) c).owner = shownCtx w.ctx ∧
      (courseOf (beginWatch i w c s) c).testsLeft = w.tests ∧ (i * 64 + c) ∈ (beginWatch i w c s).day.begun ∧
      courseCtx (beginWatch i w c s) c = shownCtx w.ctx ∧ (beginWatch i w c s).fab.launches = s.fab.launches ∧
      (beginWatch i w c s).fab.hod = s.fab.hod ∧ (beginWatch i w c s).fab.bed = s.fab.bed := by
  have hquiet := beginWatch_quiet (i := i) h
  obtain ⟨r, hr⟩ := startBrickTest_test c (heldForWatch i w c s)
  rw [hr] at hquiet
  have hheld : courseOf (heldForWatch i w c s) c = heldFor i w (planQuota s w.ctx) (courseOf s c) :=
    courseOf_modCourse_self c (heldFor i w (planQuota s w.ctx)) (wakeCourse c s)
  have hcourse : courseOf (beginWatch i w c s) c = { heldFor i w (planQuota s w.ctx) (courseOf s c) with test := r } := by
    rw [courseOf_congr (congrArg (·.courses) hquiet.toFab), courseOf_modCourse_self, hheld]
  refine ⟨hquiet.toClock, by rw [hcourse]; rfl, by rw [hcourse]; rfl, by rw [hcourse]; rfl, ?_, ?_,
    congrArg (·.launches) hquiet.toFab, congrArg (·.hod) hquiet.toFab, congrArg (·.bed) hquiet.toFab⟩
  · rw [hquiet.toDay]
    exact List.mem_cons_self
  · calc courseCtx (beginWatch i w c s) c = shownCtx w.ctx % 2 ^ 8 :=
          (hquiet.toRd _ _ (not_lateKey_course c rfl)).trans (rd_wr_self _ _ _ _)
      _ = shownCtx w.ctx := Nat.mod_eq_of_lt (shownCtx_lt _)

theorem exec_watchStart {s : State} {i c : Nat} {w : Watch} (hw : watchNow s i = some w) (hb : mayBegin s i w c = true)
    (he : now s < watchEndAt s w) (hl : 0 < w.lengthUs) :
    exec (.watchStart i c) s = .next (beginWatch i w c (passTo (watchStartAt s w) s)) := by
  have hnow := now_passTo (watchStartAt s w) s (ticking_of_watchesRun (watchesRun_of_mayBegin hb))
  have hend : watchEndAt (passTo (watchStartAt s w) s) w = watchEndAt s w := by
    unfold watchEndAt
    rw [passTo_day]
  have hlater : watchStartAt s w < watchEndAt s w := by
    unfold watchStartAt watchEndAt
    omega
  change execWatchStart i c s = _
  unfold execWatchStart
  rw [hw]
  dsimp only
  rw [if_pos ⟨by rw [mayBegin_passTo, hb], by rw [hnow, hend]; exact max_lt he hlater⟩]

/-! ## SWITCH_COMPLETE -/

theorem saveState_unheld {c : Nat} {s : State} (h : heldSize s c = 0) : saveState c s = zeroCourse c s := if_pos h

/-- A Course that holds no context's state has none to save (R262). -/
theorem heldSize_of_unowned {s : State} {c : Nat} (h : 64 ≤ (courseOf s c).owner) : heldSize s c = 0 :=
  if_neg (fun hlt => absurd hlt.1 (by omega))

/-- A Course that was switched to a context, with the quota and the launch that were loaded for it (R262, step 4). -/
def takenBy (own : Nat) (quota : Nat × Nat) (preload : Option Nat) (x : CourseState) : CourseState :=
  { x with switch := none, preempt := false, overrunAt := none, owner := own, prev := none, quota := quota,
           preload := preload }

/-- The state after a switch, before the Course goes further. -/
def switchedTo (c : Nat) (sw : Switch) (s : State) : State :=
  wrB TRW_COURSE_STATE.switching (atCourse c 0x100) false
    (modCourse c (takenBy (shownCtx sw.inCtx) (savedQuota (aget s.day.saved (sw.inCtx * 64 + c) 0))
      (headLaunch s (shownCtx sw.inCtx) c)) (zeroCourse c s))

theorem switchedTo_owner (c : Nat) (sw : Switch) (s : State) :
    (courseOf (switchedTo c sw s) c).owner = shownCtx sw.inCtx :=
  congrArg (·.owner) (courseOf_modCourse_self c (takenBy (shownCtx sw.inCtx)
    (savedQuota (aget s.day.saved (sw.inCtx * 64 + c) 0)) (headLaunch s (shownCtx sw.inCtx) c)) (zeroCourse c s))

/-- A switch of a Course without a holder, towards a context without a saved state, only goes further. -/
theorem finishSwitch_asked {c : Nat} {sw : Switch} {s : State} (ho : 64 ≤ (courseOf s c).owner)
    (hs : aget s.day.saved (sw.inCtx * 64 + c) 0 = 0) : Asked (switchedTo c sw s) (finishSwitch c sw s) := by
  have hrestored : restoreState sw.inCtx c (switchedTo c sw s) = switchedTo c sw s := restoreState_unsaved hs
  have hfinish : finishSwitch c sw s = goFurther c sw.inCtx (restoreState sw.inCtx c (switchedTo c sw s)) := by
    unfold finishSwitch
    rw [saveState_unheld (heldSize_of_unowned ho)]
    rfl
  rw [hfinish, hrestored]
  exact goFurther_asked c sw.inCtx _

theorem zeroCourse_hod (c : Nat) (s : State) {a : Nat} (ha : a < 4194304) :
    aget (zeroCourse c s).fab.hod (c * 4194304 + a) 0 = 0 :=
  (aget_aclear _ _ _ _ _).trans (if_pos (by omega))

theorem zeroCourse_bed (c : Nat) (s : State) {a : Nat} (ha : a < 4194304) :
    aget (zeroCourse c s).fab.bed (c * 4194304 + a) 0 = 0 :=
  (aget_aclear _ _ _ _ _).trans (if_pos (by omega))

theorem exec_switchComplete {s : State} {c : Nat} {sw : Switch} (hsw : (courseOf s c).switch = some sw)
    (hact : activeOn s c = []) (hscrub : (courseOf s c).scrub = false) (ho : 64 ≤ (courseOf s c).owner) :
    exec (.switchComplete c) s = .next (finishSwitch c sw (passTo (now s + 800) s)) := by
  change execSwitchComplete c s = _
  unfold execSwitchComplete
  rw [hsw]
  dsimp only
  rw [if_neg (by simp [hact, hscrub]), if_neg (by simp [saveTooBig, heldSize_of_unowned ho])]

/-- Settles O18: WATCH_END and the boundary by folds over the Courses and Watches, each step of which asks a Course to pass
on at most; WATCH_START and SWITCH_COMPLETE by the state that they leave, which a report or a further request changes no more. -/
theorem watchesRunOnTheSlewedCount : Obligations.WatchesRunOnTheSlewedCount := by
  unfold Obligations.WatchesRunOnTheSlewedCount
  refine ⟨fun s p hp hr hlater => ?_, fun s i c w hw hb he hl hc hidle => ?_, fun s i w hw hi hr => ?_,
    fun s c sw hsw hc hact hscrub htick ho hsaved => ?_⟩
  · obtain ⟨hday, hnow, hperiod⟩ := nextPeriod_effect hp
    exact ⟨_, exec_periodBoundary hr (takeoverDue_of_later hp hlater), by rw [hday, hp], by rw [hday], by rw [hday], hnow,
      by rw [hday], by rw [hday], hperiod⟩
  · have hidle' : restoreIdle w.ctx c (passTo (watchStartAt s w) s) = passTo (watchStartAt s w) s := by
      refine restoreIdle_id ?_
      rw [courseOf_congr (congrArg (·.courses) (passTo_fab _ s)), passTo_day]
      exact hidle
    obtain ⟨hclock, hwatch, howner, htests, hbegun, hctx, hlaunches, hhod, hbed⟩ := beginWatch_effect (i := i) hidle'
    have hfab := passTo_fab (watchStartAt s w) s
    exact ⟨_, exec_watchStart hw hb he hl, (congrArg ClockState.count hclock).trans
      (now_passTo _ s (ticking_of_watchesRun (watchesRun_of_mayBegin hb))), hwatch, howner, htests, hbegun, hctx,
      hlaunches.trans (congrArg (·.launches) hfab), hhod.trans (congrArg (·.hod) hfab), hbed.trans (congrArg (·.bed) hfab)⟩
  · exact ⟨_, rfl, endWatch_effect hw hi hr⟩
  · have hfab := passTo_fab (now s + 800) s
    have hasked : Asked (switchedTo c sw (passTo (now s + 800) s)) (finishSwitch c sw (passTo (now s + 800) s)) := by
      refine finishSwitch_asked ?_ ?_
      · rw [courseOf_congr (congrArg (·.courses) hfab)]
        exact ho
      · rw [passTo_day]
        exact hsaved
    refine ⟨_, exec_switchComplete hsw hact hscrub ho, ?_, ?_, fun a ha => ?_, fun a ha => ?_, ?_⟩
    · calc _ = now (passTo (now s + 800) s) := congrArg ClockState.count hasked.clock
        _ = now s + 800 := (now_passTo _ s htick).trans (by omega)
    · rw [hasked.owner, switchedTo_owner]
      rfl
    · rw [hasked.hod]
      exact zeroCourse_hod c _ ha
    · rw [hasked.bed]
      exact zeroCourse_bed c _ ha
    · obtain ⟨g, k, h⟩ := passTo_frame (now s + 800) s
      calc _ = (passTo (now s + 800) s).mem := hasked.mem
        _ = s.mem := by rw [h]

end Sys2Proof.Machine
end

section
namespace Sys2Proof.Machine

open Reg

/-! ## What writes to memory leave alone -/

/-- From s to t the rings stay, and a memory to which nothing has befallen stays so. -/
structure MemWork (s t : State) : Prop where
  rings : t.rings = s.rings
  sound : sound s = true → sound t = true

namespace MemWork

variable {s t u : State}

protected theorem refl (s : State) : MemWork s s := ⟨rfl, id⟩

protected theorem trans (h : MemWork s t) (g : MemWork t u) : MemWork s u := ⟨g.rings.trans h.rings, fun x => g.sound (h.sound x)⟩

theorem foldl {α : Type} (f : State → α → State) (l : List α) (hf : ∀ x a, MemWork x (f x a)) (s : State) :
    MemWork s (l.foldl f s) := by
  induction l generalizing s with
  | nil => exact .refl s
  | cons a r ih => exact (hf s a).trans (ih (f s a))

theorem ite {c : Prop} [Decidable c] (ht : MemWork s t) (hu : MemWork s u) : MemWork s (if c then t else u) := by
  split <;> assumption

end MemWork

theorem sound_iff {s : State} : sound s = true ↔
    s.mem.poison = [] ∧ s.mem.symbols = [] ∧ s.mem.stray = [] ∧ s.mem.linkErr = [] ∧ s.mem.found = [] := by
  simp only [sound, Bool.and_eq_true, List.isEmpty_iff, and_assoc]

theorem aset_nil {V : Type} [DecidableEq V] (k : Nat) (d : V) : aset [] k d d = [] := if_pos rfl

theorem clearLine_memWork (l : Nat) (s : State) : MemWork s (clearLine l s) := by
  refine ⟨rfl, fun h => ?_⟩
  obtain ⟨hpoison, hsymbols, hstray, hlink, hfound⟩ := sound_iff.mp h
  refine sound_iff.mpr ⟨?_, ?_, ?_, hlink, hfound⟩
  · exact (congrArg (aset · l false false) hpoison).trans (aset_nil l false)
  · exact (congrArg (aset · l 0 0) hsymbols).trans (aset_nil l 0)
  · exact (congrArg (aset · l 0 0) hstray).trans (aset_nil l 0)

theorem putByte_memWork (p : Nat) (b : Byte) (s : State) : MemWork s (putByte p b s) := ⟨rfl, id⟩

theorem putExt_memWork (p : Nat) (b : Byte) (s : State) : MemWork s (putExt p b s) := ⟨rfl, id⟩

theorem setLineKey_memWork (l k : Nat) (s : State) : MemWork s (setLineKey l k s) := ⟨rfl, id⟩

theorem rekeyLine_memWork (l k : Nat) (s : State) : MemWork s (rekeyLine l k s) := by
  unfold rekeyLine
  refine .ite (.refl s) (MemWork.trans ?_ (setLineKey_memWork _ _ _))
  exact .foldl _ _ (fun x (e : Nat × Byte) => putByte_memWork e.1 e.2 x) s

theorem putPhys_memWork (p k : Nat) (l : List Nat) (s : State) : MemWork s (putPhys p k l s) := by
  unfold putPhys
  extract_lets lines s1 s2
  have hkeys : MemWork s s1 := .foldl _ _ (fun x a => rekeyLine_memWork a k x) s
  have hbytes : MemWork s1 s2 := .foldl _ _ (fun x _ => putByte_memWork _ _ x) s1
  exact (hkeys.trans hbytes).trans (.foldl _ _ (fun x _ => .ite (clearLine_memWork _ x) (.refl x)) s2)

theorem drainOverlap_memWork (p n : Nat) (s : State) : MemWork s (drainOverlap p n s) := by
  unfold drainOverlap drainQueues
  extract_lets full s1
  have hdrained : MemWork s s1 := .foldl _ _ (fun x (w : QWrite) => putPhys_memWork w.phys w.key w.data x) s
  exact hdrained.trans ⟨rfl, id⟩

theorem drainRange_memWork (a n : Nat) (s : State) : MemWork s (drainRange a n s) :=
  .foldl _ _ (fun x _ => drainOverlap_memWork _ _ x) s

theorem police_memWork (p k n : Nat) (s : State) : MemWork s (police p k n s) := by
  unfold police
  exact .ite (.ite ⟨rfl, id⟩ ⟨rfl, id⟩) (.refl s)

theorem policeRange_memWork (p a n : Nat) (s : State) : MemWork s (policeRange p a n s) :=
  .foldl _ _ (fun x _ => police_memWork _ _ _ x) s

theorem applyWrite_memWork (a : Nat) (l : List Nat) (s : State) : MemWork s (applyWrite a l s) := by
  unfold applyWrite
  refine .ite ((drainOverlap_memWork _ _ s).trans (putPhys_memWork _ _ _ _)) (.ite ?_ (.refl s))
  exact .foldl _ _ (fun x _ => putExt_memWork _ _ x) s

theorem miscorrect_rings (l : Nat) (s : State) : (miscorrect l s).rings = s.rings := by
  unfold miscorrect
  exact (MemWork.foldl _ _ (fun x _ => putByte_memWork _ _ x) s).rings

theorem meetCode_rings (l : Nat) (s : State) : (meetCode l s).2.rings = s.rings := by
  unfold meetCode
  split
  · rfl
  · split
    · rfl
    · split
      · rfl
      · rfl
      · rfl
      · dsimp only
        split
        · rfl
        · exact miscorrect_rings l _

theorem meetLink_rings (k pc : Nat) (s : State) : (meetLink k pc s).2.rings = s.rings := by
  unfold meetLink
  dsimp only
  split <;> rfl

theorem meetAt_rings (k l : Nat) (r : Bool) (s : State) : (meetAt k l r s).2.rings = s.rings := by
  unfold meetAt
  dsimp only
  split
  · exact meetLink_rings _ _ s
  · split
    · exact (meetCode_rings _ _).trans (meetLink_rings _ _ s)
    · exact meetLink_rings _ _ s

theorem meetLine_rings (a : Nat) (r : Bool) (s : State) : (meetLine a r s).2.rings = s.rings := by
  have hdrained : (if r = true then drainOverlap (physOf s a) 64 s else s).rings = s.rings :=
    (MemWork.ite (drainOverlap_memWork _ _ s) (.refl s)).rings
  unfold meetLine
  dsimp only
  generalize (if r = true then drainOverlap (physOf s a) 64 s else s) = u at hdrained
  split <;> exact (meetAt_rings _ _ _ _).trans hdrained

theorem meetWrites_rings (a n : Nat) (l : List Nat) (s : State) : (meetWrites a n l s).2.rings = s.rings := by
  induction l generalizing s with
  | nil => rfl
  | cons x r ih => exact (ih _).trans (meetLine_rings _ _ s)

/-- A write to a memory to which nothing has befallen meets nothing. -/
theorem meetWrite_memWork (a n : Nat) (s : State) : MemWork s (meetWrite a n s).2 := by
  unfold meetWrite
  split
  · next h => exact ⟨meetWrites_rings _ _ _ s, fun hs => absurd h.2 (by simp [hs])⟩
  · exact .refl s

theorem writeMem_memWork (p c a : Nat) (l : List Nat) (s : State) : MemWork s (writeMem p c a l s).2 := by
  unfold writeMem
  split
  · exact ((MemWork.ite (policeRange_memWork _ _ _ s) (.refl s)).trans (meetWrite_memWork _ _ _)).trans
      (.foldl _ _ (fun x _ => applyWrite_memWork _ _ x) _)
  · exact .refl s

/-! ## What events leave alone -/

/-- From s to t the contexts' teardowns stay, and a memory to which nothing has befallen stays so. -/
structure Calm (s t : State) : Prop where
  causes : ∀ c, (ctxOf t c).scrubCause = (ctxOf s c).scrubCause
  sound : sound s = true → sound t = true

namespace Calm

variable {s t u : State}

protected theorem refl (s : State) : Calm s s := ⟨fun _ => rfl, id⟩

protected theorem trans (h : Calm s t) (g : Calm t u) : Calm s u :=
  ⟨fun c => (g.causes c).trans (h.causes c), fun x => g.sound (h.sound x)⟩

theorem foldl {α : Type} (f : State → α → State) (l : List α) (hf : ∀ x a, Calm x (f x a)) (s : State) :
    Calm s (l.foldl f s) := by
  induction l generalizing s with
  | nil => exact .refl s
  | cons a r ih => exact (hf s a).trans (ih (f s a))

theorem ite {c : Prop} [Decidable c] (ht : Calm s t) (hu : Calm s u) : Calm s (if c then t else u) := by
  split <;> assumption

theorem iteSnd {α : Type} {c : Prop} [Decidable c] {p q : α × State} (hp : Calm s p.2) (hq : Calm s q.2) :
    Calm s (if c then p else q).2 := by
  split <;> assumption

theorem of_memWork (h : MemWork s t) : Calm s t := ⟨fun c => by unfold ctxOf; rw [h.rings], h.sound⟩

/-- A state with the same contexts and memory. -/
theorem of_eq (hc : t.rings.ctxs = s.rings.ctxs) (hm : t.mem = s.mem) : Calm s t where
  causes := fun c => by unfold ctxOf; rw [hc]
  sound := fun h => by unfold Machine.sound at h ⊢; rw [hm]; exact h

theorem setCtx {c : Nat} {x : CtxState} (hx : x.scrubCause = (ctxOf s c).scrubCause) : Calm s (Machine.setCtx c x s) where
  causes := fun d => by
    by_cases h : c = d
    · subst h
      rw [ctxOf_setCtx_self, hx]
    · rw [ctxOf_setCtx_ne c d x s h]
  sound := id

theorem modRing (c r : Nat) (f : Ring → Ring) (s : State) : Calm s (Machine.modRing c r f s) := .setCtx rfl

end Calm

theorem writeMem_calm (p c a : Nat) (l : List Nat) (s : State) : Calm s (writeMem p c a l s).2 :=
  .of_memWork (writeMem_memWork p c a l s)

theorem notify_calm (a v : Nat) (s : State) : Calm s (notify a v s) := by
  unfold notify
  exact .ite (.ite (.of_eq rfl rfl) (.ite (.refl s) (.of_eq rfl rfl))) (.of_eq rfl rfl)

theorem devWrite_calm (ev : List Nat) (s : State) : Calm s (devWrite ev s) := by
  unfold devWrite
  dsimp only
  refine .ite (.of_eq rfl rfl) (Calm.trans ?_ (notify_calm _ _ _))
  exact (writeMem_calm _ _ _ _ s).trans (.of_eq rfl rfl)

theorem devEvent_calm (ev : List Nat) (s : State) : Calm s (devEvent ev s) := by
  unfold devEvent
  exact .ite (devWrite_calm ev s) (.ite (.of_eq rfl rfl) (.of_eq rfl rfl))

theorem forward_calm (a b c d : Nat) (e : Bool) (s : State) : Calm s (forward a b c d e s) := by
  unfold forward
  exact .ite (.of_eq rfl rfl) (.refl s)

theorem ctxEvent_calm (c : Nat) (ev : List Nat) (s : State) : Calm s (ctxEvent c ev s).2 := by
  unfold ctxEvent
  extract_lets x st flags w
  have hwrite : Calm s w.2 := writeMem_calm _ _ _ _ s
  refine .iteSnd ?_ (.iteSnd hwrite (hwrite.trans (.setCtx (hwrite.causes c).symm)))
  exact (Calm.setCtx (s := s) (c := c) (x := { x with dropped := aset x.dropped st true false }) rfl).trans (.of_eq rfl rfl)

theorem eventRaw_calm (st die ctx unit sev : Nat) (p : List Nat) (s : State) :
    Calm s (eventRaw st die ctx unit sev p s).2 := by
  unfold eventRaw
  extract_lets ev s1
  have hdev : Calm s s1 := (devEvent_calm ev s).trans (forward_calm _ _ _ _ _ _)
  exact .iteSnd (hdev.trans (ctxEvent_calm _ _ _)) hdev

theorem stopRaw_calm (c r cause resume : Nat) (s : State) : Calm s (stopRaw c r cause resume s).2 := by
  unfold stopRaw
  extract_lets s1
  have hstop : Calm (modRing c r (fun x => { x with cause := cause, resume := resume }) s) s1 := .of_eq rfl rfl
  exact ((Calm.modRing c r _ s).trans hstop).trans (eventRaw_calm _ _ _ _ _ _ _)

theorem stopRings_calm (c cause : Nat) (s : State) : Calm s (stopRings c cause s) := by
  unfold stopRings
  exact (Calm.foldl _ _ (fun x _ => .ite (stopRaw_calm _ _ _ _ x) (.refl x)) s).trans (writeMem_calm _ _ _ _ _)

theorem writeEcho_calm (c : Nat) (s : State) : Calm s (writeEcho c s) := by
  unfold writeEcho
  exact .ite ((writeMem_calm _ _ _ _ s).trans (stopRings_calm _ _ _)) (writeMem_calm _ _ _ _ s)

theorem event_calm (st die ctx unit sev : Nat) (p : List Nat) (s : State) : Calm s (event st die ctx unit sev p s) := by
  have hraw := eventRaw_calm st die ctx unit sev p s
  unfold event
  exact .ite (hraw.trans (stopRings_calm _ _ _)) (.ite (hraw.trans (writeEcho_calm _ _)) hraw)

end Sys2Proof.Machine
end

section
namespace Sys2Proof.Machine

open Reg

/-! ## Tests that passed -/

/-- A count that saturates stops at the end of its width. -/
theorem rd_incSat_self (f : Field) (a n : Nat) (s : State) :
    rd (incSat f a n s) f a = min (rd s f a + n) (2 ^ f.width - 1) := by
  have hpos : 0 < 2 ^ f.width := Nat.two_pow_pos _
  unfold incSat satTo
  rw [rd_wr_self]
  split
  · rw [Nat.mod_eq_of_lt (by omega), Nat.min_eq_left (by assumption)]
  · rw [Nat.mod_eq_of_lt (by omega), Nat.min_eq_right (by omega)]

/-- A change of islands leaves everything else. -/
theorem foldl_modIsland_frame (f : Island → Island) (l : List Nat) (s : State) :
    ∃ x, l.foldl (fun s i => modIsland i f s) s = { s with isl := x } := by
  have hone : ∀ (s : State) i, ∃ x, modIsland i f s = { s with isl := x } := by
    intro s i
    unfold modIsland setIsland
    split
    · exact ⟨_, rfl⟩
    · split
      · exact ⟨_, rfl⟩
      · exact ⟨s.isl, rfl⟩
  induction l generalizing s with
  | nil => exact ⟨s.isl, rfl⟩
  | cons i r ih =>
    obtain ⟨x, hx⟩ := hone s i
    obtain ⟨y, hy⟩ := ih { s with isl := x }
    exact ⟨y, by rw [List.foldl_cons, hx, hy]⟩

theorem regs_foldl_modIsland (f : Island → Island) (l : List Nat) (s : State) :
    (l.foldl (fun s i => modIsland i f s) s).regs = s.regs := by
  obtain ⟨x, hx⟩ := foldl_modIsland_frame f l s
  rw [hx]

/-- A Course whose test of Brick b has ended (R275). -/
def testUsed (b : Nat) (x : CourseState) : CourseState := { x with testsLeft := x.testsLeft - 1, nextTest := (b + 1) % 16 }

/-- The state in which a test of Brick b, not a retest, has passed, with what the islands note of it. -/
def testPassed (b : Nat) (x : IslandState) (s : State) : State :=
  modCourse (brickCourse b) (testUsed b) (modBrick b (fun y => { y with lastTest := now s, missed := 0 })
    { s with isl := x, fab := { s.fab with bed := aclear s.fab.bed (b * 262144) (b * 262144 + 262144) } })

theorem endTest_passed {r : TestRun} (hr : r.retest = false) (pk pt : Nat) (s : State) :
    ∃ x, endTest r true pk pt s = testPassed r.brick x s := by
  unfold endTest
  rw [hr]
  exact foldl_modIsland_frame _ [5, 6] (testPassed r.brick s.isl s)

theorem courseOf_testPassed (b : Nat) (x : IslandState) (s : State) :
    courseOf (testPassed b x s) (brickCourse b) = testUsed b (courseOf s (brickCourse b)) :=
  courseOf_modCourse_self (brickCourse b) (testUsed b) _

theorem brickOf_testPassed (b : Nat) (x : IslandState) (s : State) :
    brickOf (testPassed b x s) b = { brickOf s b with lastTest := now s, missed := 0 } :=
  brickOf_modBrick_self b (fun y => { y with lastTest := now s, missed := 0 }) _

theorem testPassed_bed (b : Nat) (x : IslandState) (s : State) {a : Nat} (ha : a < 262144) :
    aget (testPassed b x s).fab.bed (b * 262144 + a) 0 = 0 :=
  (aget_aclear _ _ _ _ _).trans (if_pos (by omega))

/-- Which test is in work on a Course has no part in whether its next may start, nor in which Brick is next. -/
theorem mayTest_withTest (c : Nat) (r : Option TestRun) (s : State) :
    mayTest (modCourse c (fun x => { x with test := r }) s) c = mayTest s c := by
  unfold mayTest
  rw [courseOf_modCourse_self]
  rfl

theorem testNext_withTest (c : Nat) (r : Option TestRun) (s : State) :
    testNext (modCourse c (fun x => { x with test := r }) s) c = testNext s c := by
  unfold testNext
  rw [courseOf_modCourse_self]
  rfl

theorem mayTest_startBrickTest (c : Nat) (s : State) : mayTest (startBrickTest c s) c = mayTest s c := by
  obtain ⟨r, hr⟩ := startBrickTest_test c s
  rw [hr, mayTest_withTest]

theorem startBrickTest_starts {c : Nat} {s : State} (h : mayTest s c = true) :
    (courseOf (startBrickTest c s) c).test.map (·.brick) = testNext (startBrickTest c s) c := by
  unfold startBrickTest
  rw [if_pos h]
  dsimp only
  rw [testNext_withTest, courseOf_modCourse_self, Option.map_map]
  exact Option.map_id'

theorem startBrickTest_rests {c : Nat} {s : State} (h : mayTest s c = false) :
    (courseOf (startBrickTest c s) c).test = none := by
  unfold startBrickTest
  rw [if_neg (by simp [h]), courseOf_modCourse_self]

/-- After a passed test the start of the next one leaves what the passed one noted (R275). -/
theorem startBrickTest_testPassed (b : Nat) (x : IslandState) (s : State) :
    let t := startBrickTest (brickCourse b) (testPassed b x s)
    (brickOf t b).lastTest = now s ∧ (brickOf t b).missed = 0 ∧
      (courseOf t (brickCourse b)).testsLeft = (courseOf s (brickCourse b)).testsLeft - 1 ∧
      (courseOf t (brickCourse b)).nextTest = (b + 1) % 16 ∧
      (∀ a < 262144, aget t.fab.bed (b * 262144 + a) 0 = 0) ∧ t.regs = s.regs ∧ t.mem = s.mem ∧
      t.fab.hod = s.fab.hod ∧ t.fab.launches = s.fab.launches := by
  obtain ⟨z, hz⟩ := startBrickTest_test (brickCourse b) (testPassed b x s)
  have hbrick : brickOf (startBrickTest (brickCourse b) (testPassed b x s)) b = brickOf (testPassed b x s) b := by
    rw [hz]
    rfl
  have hcourse : courseOf (startBrickTest (brickCourse b) (testPassed b x s)) (brickCourse b) =
      { testUsed b (courseOf s (brickCourse b)) with test := z } := by
    rw [hz, courseOf_modCourse_self, courseOf_testPassed]
  dsimp only
  rw [hbrick, brickOf_testPassed, hcourse, hz]
  exact ⟨rfl, rfl, rfl, rfl, fun a ha => testPassed_bed b x s ha, rfl, rfl, rfl, rfl⟩

theorem exec_brickTestComplete {s : State} {b pk pt : Nat} {pass : Bool} {r : TestRun} (hb : b < 1024) (hm : s.mode = .run)
    (hr : (courseOf s (brickCourse b)).test = some r) (hrb : r.brick = b) (hnames : pass = true ∨ r.names pk = true) :
    exec (.brickTestComplete b pass pk pt) s = .next (startBrickTest (brickCourse b) (endTest r pass pk pt s)) := by
  change execBrickTestComplete b pass pk pt s = _
  unfold execBrickTestComplete
  dsimp only
  rw [hr]
  dsimp only
  rw [if_neg]
  rintro (h | h | h | h)
  · omega
  · exact h hm
  · exact h hrb
  · rcases hnames with hp | hn <;> simp_all

/-! ## Tests that failed -/

/-- From s to t no register but those of S changes. -/
def LiveKept (S : Nat → Prop) (s t : State) : Prop := ∀ k d, ¬ S k → aget t.regs.live k d = aget s.regs.live k d

namespace LiveKept

variable {S : Nat → Prop} {s t u : State}

protected theorem refl (s : State) : LiveKept S s s := fun _ _ _ => rfl

protected theorem trans (h : LiveKept S s t) (g : LiveKept S t u) : LiveKept S s u :=
  fun k d hk => (g k d hk).trans (h k d hk)

theorem foldl {α : Type} (f : State → α → State) (l : List α) (hf : ∀ x a, LiveKept S x (f x a)) (s : State) :
    LiveKept S s (l.foldl f s) := by
  induction l generalizing s with
  | nil => exact .refl s
  | cons a r ih => exact (hf s a).trans (ih (f s a))

theorem ite {c : Prop} [Decidable c] (ht : LiveKept S s t) (hu : LiveKept S s u) : LiveKept S s (if c then t else u) := by
  split <;> assumption

theorem of_eq (h : t.regs = s.regs) : LiveKept S s t := fun _ _ _ => by rw [h]

theorem wr {f : Field} {a : Nat} (hf : S (fkey f a)) (v : Nat) (s : State) : LiveKept S s (Machine.wr f a v s) :=
  fun _ _ hk => aget_aset_ne _ _ _ _ _ _ (fun e => hk (e ▸ hf))

theorem of_ringQuiet {Q : Nat → Prop} (h : RingQuiet Q s t) (hQ : ∀ k, Q k → S k) : LiveKept S s t :=
  fun k d hk => h.live k d (fun x => hk (hQ k x))

theorem of_asked (h : Asked s t) (hS : ∀ k, runKey k → S k) : LiveKept S s t :=
  fun k d hk => h.live k d (fun x => hk (hS k x))

theorem toRd (h : LiveKept S s t) {f : Field} {a : Nat} (hf : ¬ S (fkey f a)) : rd t f a = rd s f a := h _ _ hf

end LiveKept

/-- The registers, beside the fence map, that a fence of a Brick changes: those of reports and of launches that are placed
again (R87, R88). -/
def stageKey (k : Nat) : Prop :=
  signalKey k ∨ runKey k ∨ ∃ c, k = fkey TRW_REFUSE_COUNT.refusals (atCourse c 0x100) ∨
    k = fkey TRW_LOAD_COUNT.loads (atCourse c 0x100) ∨ k = fkey TRW_COURSE_STATE.course_fenced (atCourse c 0x100)

theorem event_stageKept (st die ctx unit sev : Nat) (p : List Nat) (s : State) :
    LiveKept stageKey s (event st die ctx unit sev p s) :=
  .of_ringQuiet (event_ringQuiet st die ctx unit sev p s) (fun _ h => .inl h)

theorem restartWdog_stageKept (c : Nat) (s : State) : LiveKept stageKey s (restartWdog c s) :=
  .of_asked (restartWdog_asked c s) (fun _ h => .inr (.inl h))

theorem refreshCourse_stageKept (c : Nat) (s : State) : LiveKept stageKey s (refreshCourse c s) :=
  .of_asked (refreshCourse_asked c s) (fun _ h => .inr (.inl h))

theorem endLaunch_stageKept (l : Launch) (d : Done) (s : State) : LiveKept stageKey s (endLaunch l d s) := by
  unfold endLaunch
  dsimp only
  refine LiveKept.trans ?_ (.of_ringQuiet (finishDesc_ringQuiet _ _ _ _ _ _) (fun _ h => .inl h))
  refine LiveKept.trans (.of_eq ?_) (.foldl _ _ (fun x i => ?_) _)
  · rfl
  · exact ((restartWdog_stageKept i.course x).trans (.of_eq rfl)).trans (refreshCourse_stageKept i.course _)

theorem settleRefusal_stageKept (id : Nat) (s : State) : LiveKept stageKey s (settleRefusal id s) := by
  unfold settleRefusal
  extract_lets release s1
  have hreleased : LiveKept stageKey s s1 := .of_eq rfl
  split
  · exact hreleased
  · exact .ite (hreleased.trans (endLaunch_stageKept _ _ _)) hreleased

theorem refuseInst_stageKept (id c st : Nat) (s : State) : LiveKept stageKey s (refuseInst id c st s) := by
  unfold refuseInst
  refine LiveKept.trans ?_ (settleRefusal_stageKept _ _)
  exact LiveKept.trans (.of_eq rfl) (.wr (.inr (.inr ⟨c, .inl rfl⟩)) _ _)

theorem settleAgain_stageKept (id : Nat) (s : State) : LiveKept stageKey s (settleAgain id s) := by
  unfold settleAgain
  split
  · exact .ite (settleRefusal_stageKept _ _) (.refl s)
  · exact .refl s

theorem beginStage_stageKept (id c : Nat) (p : Place) (s : State) : LiveKept stageKey s (beginStage id c p s) := by
  unfold beginStage
  refine LiveKept.trans ?_ (.wr (.inr (.inr ⟨c, .inr (.inl rfl)⟩)) _ _)
  have hpreload : LiveKept stageKey s
      (if (courseOf s c).preload == some id then modCourse c (fun x => { x with preload := none }) s else s) :=
    .ite (.of_eq rfl) (.refl s)
  exact hpreload.trans (.of_eq rfl)

theorem tryStage_stageKept (l : Launch) (c : Nat) (s : State) : LiveKept stageKey s (tryStage l c s) := by
  unfold tryStage
  dsimp only
  refine .ite (refuseInst_stageKept _ _ _ s) (.ite (refuseInst_stageKept _ _ _ s) ?_)
  split
  · exact (beginStage_stageKept _ _ _ s).trans (settleAgain_stageKept _ _)
  · exact LiveKept.trans (.of_eq rfl) (settleAgain_stageKept _ _)

theorem restage_stageKept (b : Nat) (s : State) (x : Launch × Inst) : LiveKept stageKey s (restage b s x) := by
  unfold restage
  refine .ite ?_ (.refl s)
  extract_lets free
  have hfree : LiveKept stageKey s free := .of_eq rfl
  split
  · exact hfree.trans (tryStage_stageKept _ _ _)
  · exact hfree

/-- The fence map of a Course with Brick b set. -/
def fenceSet (b : Nat) (set : Option Nat) (s : State) : State :=
  wr TRW_FENCE_MAP.brick_fenced (atCourse (brickCourse b) 0x100)
    (setBit (rd s TRW_FENCE_MAP.brick_fenced (atCourse (brickCourse b) 0x100)) (b % 16) true)
    (modBrick b (fun x => { x with fences := x.fences + 1, strikeSet := set }) s)

/-- Beside the map, the fence of a Brick changes registers of reports and of launches that are placed again. -/
theorem fenceBrick_stageKept {b : Nat} {strikes : Bool} {s : State} (h : fenced s b = false) :
    ∃ set, LiveKept stageKey (fenceSet b set s) (fenceBrick b strikes s) := by
  unfold fenceBrick
  rw [if_neg (by simp [h])]
  extract_lets c d set s1 s2 s3
  have hevent : LiveKept stageKey s1 s2 := event_stageKept _ _ _ _ _ _ _
  have hplaced : LiveKept stageKey s1 s3 := hevent.trans (.foldl _ _ (restage_stageKept b) s2)
  refine ⟨set, .ite (hplaced.trans (LiveKept.trans ?_ (event_stageKept _ _ _ _ _ _ _))) hplaced⟩
  exact .wr (.inr (.inr ⟨c, .inr (.inr rfl)⟩)) _ _

theorem not_signalKey_course {f : Field} (c : Nat)
    (hf : decide (0x200000 ≤ f.off ∧ f.off < 0x200100 ∧ f.lo = 0) = true) : ¬ signalKey (fkey f (atCourse c 0x100)) := by
  obtain ⟨hlow, hhigh, hlo⟩ := of_decide_eq_true hf
  rintro (h | ⟨d, h⟩ | ⟨d, h⟩)
  · exact not_reportKey_course c (decide_eq_true ⟨hlow, hhigh, by omega⟩) h
  · simp only [fkey, HST_CTX_STATE.stopped] at h
    omega
  · simp only [fkey, atCourse, dieBase, courseDie, TIE_SAT_COUNT.saturations] at h
    omega

theorem not_stageKey_fenceMap (c : Nat) : ¬ stageKey (fkey TRW_FENCE_MAP.brick_fenced (atCourse c 0x100)) := by
  rintro (h | h | ⟨d, h⟩)
  · exact not_signalKey_course c rfl h
  · exact not_runKey _ rfl h
  · simp only [fkey, atCourse, dieBase, courseDie, TRW_FENCE_MAP.brick_fenced, TRW_REFUSE_COUNT.refusals,
      TRW_LOAD_COUNT.loads, TRW_COURSE_STATE.course_fenced] at h
    omega

theorem not_reportKey_fails : ¬ reportKey (fkey FAB_TEST_FAIL_COUNT.fails 0) := by
  simp only [reportKey, retryKey, fkey, dieBase, FAB_TEST_FAIL_COUNT.fails, HST_EVT_DROP_COUNT.drops, HST_DEV_EQ_TAIL.tail,
    PLB_PORT_STATE.over_rate, HBM_CRC_RETRY_COUNT.retries, HST_CTX_STATE.stopped]
  rintro (e | e | e | ⟨d, e⟩ | ⟨d, hd, e⟩) <;> omega

theorem not_stageKey_fails : ¬ stageKey (fkey FAB_TEST_FAIL_COUNT.fails 0) := by
  rintro ((h | ⟨d, h⟩ | ⟨d, h⟩) | h | ⟨d, h⟩)
  · exact not_reportKey_fails h
  · simp only [fkey, FAB_TEST_FAIL_COUNT.fails, HST_CTX_STATE.stopped] at h
    omega
  · simp only [fkey, dieBase, FAB_TEST_FAIL_COUNT.fails, TIE_SAT_COUNT.saturations] at h
    omega
  · exact not_runKey 0 rfl h
  · simp only [fkey, atCourse, dieBase, courseDie, FAB_TEST_FAIL_COUNT.fails, TRW_REFUSE_COUNT.refusals,
      TRW_LOAD_COUNT.loads, TRW_COURSE_STATE.course_fenced] at h
    omega

/-- A fence stands, whether it was ordered before or is ordered now, and counts no failed test. -/
theorem fenceBrick_effect (b : Nat) (strikes : Bool) (s : State) :
    fenced (fenceBrick b strikes s) b = true ∧
      rd (fenceBrick b strikes s) FAB_TEST_FAIL_COUNT.fails = rd s FAB_TEST_FAIL_COUNT.fails := by
  by_cases h : fenced s b = true
  · have hkeep : fenceBrick b strikes s = s := if_pos h
    rw [hkeep]
    exact ⟨h, rfl⟩
  · have hclear := Bool.eq_false_iff.mpr h
    obtain ⟨set, hkept⟩ := fenceBrick_stageKept (strikes := strikes) hclear
    constructor
    · calc fenced (fenceBrick b strikes s) b
          = bit (setBit (rd s TRW_FENCE_MAP.brick_fenced (atCourse (brickCourse b) 0x100)) (b % 16) true % 2 ^ 16) (b % 16) :=
            congrArg (bit · (b % 16)) ((hkept.toRd (not_stageKey_fenceMap _)).trans (rd_wr_self _ _ _ _))
        _ = true := bit_setBit_self (Nat.mod_lt _ (by decide)) hclear
    · refine (hkept.toRd not_stageKey_fails).trans (rd_wr_ne _ _ _ _ _ _ ?_)
      simp only [fkey, atCourse, dieBase, courseDie, TRW_FENCE_MAP.brick_fenced, FAB_TEST_FAIL_COUNT.fails]
      omega

theorem fenced_congr {s t : State} {b : Nat}
    (h : rd t TRW_FENCE_MAP.brick_fenced (atCourse (brickCourse b) 0x100) =
      rd s TRW_FENCE_MAP.brick_fenced (atCourse (brickCourse b) 0x100)) : fenced t b = fenced s b := congrArg (bit · (b % 16)) h

/-- The state in which a failed test has ended, before the fence and the report. -/
theorem endTest_failed (r : TestRun) (pk pt : Nat) (s : State) :
    ∃ s3, s3.regs = s.regs ∧ endTest r false pk pt s = event 0x0B23 (courseDie (brickCourse r.brick)) 0xFF r.brick 1
      (leBytes 4 pk ++ leBytes 2 pt) (incSat FAB_TEST_FAIL_COUNT.fails 0 1 (fenceBrick r.brick false s3)) := by
  unfold endTest
  dsimp only
  rw [if_neg Bool.false_ne_true]
  refine ⟨_, ?_, rfl⟩
  exact regs_foldl_modIsland _ [5, 6] _

theorem endTest_fences (r : TestRun) (pk pt : Nat) (s : State) :
    fenced (endTest r false pk pt s) r.brick = true ∧
      rd (endTest r false pk pt s) FAB_TEST_FAIL_COUNT.fails =
        min (rd s FAB_TEST_FAIL_COUNT.fails + 1) (2 ^ 32 - 1) := by
  obtain ⟨s3, hregs, h⟩ := endTest_failed r pk pt s
  obtain ⟨hfenced, hfails⟩ := fenceBrick_effect r.brick false s3
  have hquiet := event_quiet 0x0B23 (courseDie (brickCourse r.brick)) 0xFF r.brick 1 (leBytes 4 pk ++ leBytes 2 pt)
    (incSat FAB_TEST_FAIL_COUNT.fails 0 1 (fenceBrick r.brick false s3))
  rw [h]
  constructor
  · refine (fenced_congr ((hquiet.toRd _ _ (not_reportKey_course _ rfl)).trans (rd_wr_ne _ _ _ _ _ _ ?_))).trans hfenced
    simp only [fkey, atCourse, dieBase, courseDie, TRW_FENCE_MAP.brick_fenced, FAB_TEST_FAIL_COUNT.fails]
    omega
  · have hsame : rd s3 FAB_TEST_FAIL_COUNT.fails = rd s FAB_TEST_FAIL_COUNT.fails := by rw [rd, hregs]; rfl
    rw [hquiet.toRd _ _ not_reportKey_fails, rd_incSat_self, hfails, hsame]
    rfl

theorem regs_startBrickTest (c : Nat) (s : State) : (startBrickTest c s).regs = s.regs := by
  obtain ⟨r, hr⟩ := startBrickTest_test c s
  rw [hr]
  rfl

/-! ## Tests that are overdue -/

/-- Outside Night, and in run in particular, time passes to the instant that is asked for. -/
theorem ticking_of_run {s : State} (h : s.mode = .run) : ticking s = false := by
  unfold ticking
  rw [h]
  rfl

theorem brickOf_congr {s t : State} (h : t.fab = s.fab) (b : Nat) : brickOf t b = brickOf s b := by
  unfold brickOf
  rw [h]

/-- The instant at which the next 15 minutes without a test of a Brick end (R277). -/
def overdueAt (s : State) (b : Nat) : Nat := (brickOf s b).lastTest + testSpan * ((brickOf s b).missed + 1)

theorem overdueAt_eq (s : State) (b : Nat) :
    overdueAt s b = (brickOf s b).lastTest + 900000000000 * ((brickOf s b).missed + 1) := by
  unfold overdueAt testSpan
  rfl

/-- The state in which a missed test of a Brick is counted, before its report. -/
def testMissed (b : Nat) (s : State) : State :=
  incSat DAY_TEST_MISS_COUNT.misses 0 1 (modBrick b (fun y => { y with missed := y.missed + 1 }) s)

theorem testMissed_clock (b : Nat) (s : State) : (testMissed b s).clock = s.clock := incSat_clock _ _ _ _

theorem testMissed_day (b : Nat) (s : State) : (testMissed b s).day = s.day := incSat_day _ _ _ _

theorem testMissed_launches (b : Nat) (s : State) : (testMissed b s).fab.launches = s.fab.launches :=
  congrArg (·.launches) (incSat_fab _ _ _ _)

theorem testMissed_brick (b : Nat) (s : State) : (brickOf (testMissed b s) b).missed = (brickOf s b).missed + 1 :=
  congrArg (·.missed) (brickOf_modBrick_self b (fun y => { y with missed := y.missed + 1 }) s)

theorem testMissed_count (b : Nat) (s : State) : rd (testMissed b s) DAY_TEST_MISS_COUNT.misses =
    min (rd s DAY_TEST_MISS_COUNT.misses + 1) (2 ^ 32 - 1) := rd_incSat_self _ _ _ _

/-- The state after a Brick's 15 minutes without a test have ended, and been reported (R277). -/
def testOverdue (b : Nat) (s : State) : State :=
  event 0x0532 (courseDie (brickCourse b)) 0xFF b 1 [] (testMissed b (passTo (overdueAt s b) s))

theorem testOverdue_effect {s : State} {b : Nat} (hm : s.mode = .run) :
    now (testOverdue b s) = max (now s) (overdueAt s b) ∧
      (brickOf (testOverdue b s) b).missed = (brickOf s b).missed + 1 ∧
      rd (testOverdue b s) DAY_TEST_MISS_COUNT.misses = min (rd s DAY_TEST_MISS_COUNT.misses + 1) (2 ^ 32 - 1) ∧
      (testOverdue b s).day = s.day ∧ (testOverdue b s).fab.launches = s.fab.launches := by
  have hnow := now_passTo (overdueAt s b) s (ticking_of_run hm)
  have hday := passTo_day (overdueAt s b) s
  have hfab := passTo_fab (overdueAt s b) s
  have hcount : rd (passTo (overdueAt s b) s) DAY_TEST_MISS_COUNT.misses = rd s DAY_TEST_MISS_COUNT.misses :=
    rd_passTo _ s (by decide)
  unfold testOverdue
  generalize passTo (overdueAt s b) s = s1 at hnow hday hfab hcount ⊢
  have hquiet := event_quiet 0x0532 (courseDie (brickCourse b)) 0xFF b 1 [] (testMissed b s1)
  refine ⟨?_, ?_, ?_, ?_, ?_⟩
  · rw [now, hquiet.toClock, testMissed_clock, ← hnow, now]
  · rw [brickOf_congr hquiet.toFab, testMissed_brick, brickOf_congr hfab]
  · rw [hquiet.toRd _ _ (not_reportKey_day rfl), testMissed_count, hcount]
  · rw [hquiet.toDay, testMissed_day, hday]
  · rw [hquiet.toFab, testMissed_launches, hfab]

theorem exec_brickTestOverdue {s : State} {b : Nat} (hb : b < 1024) (hm : s.mode = .run) : exec (.brickTestOverdue b) s =
    .next (testOverdue b s) := by
  change execBrickTestOverdue b s = _
  unfold execBrickTestOverdue
  rw [if_neg (by rintro (h | h); omega; exact h hm)]
  rfl

/-! ## Overruns -/

/-- The state in which an overrun timer, due at d, has expired (R273). -/
def overrunPast (c d : Nat) (s : State) : State := modCourse c (fun x => { x with overrunAt := none }) (passTo d s)

theorem activeOn_overrunPast (c d : Nat) (s : State) : activeOn (overrunPast c d s) c = activeOn s c := by
  have hlaunches : (overrunPast c d s).fab.launches = s.fab.launches := congrArg (·.launches) (passTo_fab d s)
  unfold activeOn
  rw [hlaunches]

/-- The state in which the instances that still run have been counted and reported (R273). -/
def overrunReported (c d : Nat) (s : State) : State :=
  (activeOn s c).foldl (fun s x => event 0x0520 (courseDie c) x.1.ctx c 1 [] s)
    (incSat DAY_OVERRUN_COUNT.overruns 0 (activeOn s c).length (overrunPast c d s))

theorem exec_watchOverrunExpiry_idle {s : State} {c d : Nat} (hd : (courseOf s c).overrunAt = some d)
    (hact : activeOn s c = []) : exec (.watchOverrunExpiry c) s = .next (overrunPast c d s) := by
  have hact' := (activeOn_overrunPast c d s).trans hact
  change execWatchOverrunExpiry c s = _
  unfold execWatchOverrunExpiry
  rw [hd]
  dsimp only
  generalize hpast : modCourse c _ (passTo d s) = s1
  have hs1 : overrunPast c d s = s1 := hpast
  rw [hs1] at hact' ⊢
  rw [hact']

theorem exec_watchOverrunExpiry_active {s : State} {c d : Nat} {x : Launch × Inst} {r : List (Launch × Inst)}
    (hd : (courseOf s c).overrunAt = some d) (hact : activeOn s c = x :: r) :
    exec (.watchOverrunExpiry c) s = .next (teardown x.1.ctx 0x0520
      ((activeOn s c).map (fun y => (y.1.id, 0x0520, c))) (overrunReported c d s)) := by
  have hact' := (activeOn_overrunPast c d s).trans hact
  change execWatchOverrunExpiry c s = _
  unfold execWatchOverrunExpiry overrunReported
  rw [hd, hact]
  dsimp only
  generalize hpast : modCourse c _ (passTo d s) = s1
  have hs1 : overrunPast c d s = s1 := hpast
  rw [hs1] at hact' ⊢
  rw [hact']

theorem overrunReported_ctxSteady (c d : Nat) (s : State) : CtxSteady (passTo d s) (overrunReported c d s) := by
  have hpast : CtxSteady (passTo d s) (overrunPast c d s) := modCourse_ctxSteady c _ _
  have hcount : CtxSteady (overrunPast c d s)
      (incSat DAY_OVERRUN_COUNT.overruns 0 (activeOn s c).length (overrunPast c d s)) :=
    (CtxSteady.refl _).wr (fun k hk h => absurd h (by simp only [fkey, DAY_OVERRUN_COUNT.overruns, HST_CTX_STATE.state]; omega))
  exact (hpast.trans hcount).trans (.foldl _ _ (fun x _ => event_ctxSteady _ _ _ _ _ _ x) _)

/-! ## The end of a teardown's scrub -/

/-- A Course that a scrub frees (R278). -/
def scrubbed (x : CourseState) : CourseState := { x with scrub := false, owner := 0xFF, prev := none, preload := none }

/-- Free a Course that holds context c's state for its scrub, with its memories zeroed. -/
def scrubCourse (c : Nat) (s : State) (n : Nat) : State :=
  if (courseOf s n).scrub ∧ (courseOf s n).owner = c then
    wrB TRW_COURSE_STATE.switching (atCourse n 0x100) (courseOf s n).switch.isSome (modCourse n scrubbed (zeroCourse n s))
  else s

theorem courseOf_scrubCourse_ne {c n d : Nat} (s : State) (h : n ≠ d) : courseOf (scrubCourse c s n) d = courseOf s d := by
  unfold scrubCourse
  split
  · exact courseOf_modCourse_ne n d scrubbed (zeroCourse n s) h
  · rfl

theorem courseOf_scrubCourse_held {c n : Nat} {s : State} (h : (courseOf s n).scrub = true) (ho : (courseOf s n).owner = c) :
    courseOf (scrubCourse c s n) n = scrubbed (courseOf s n) := by
  unfold scrubCourse
  rw [if_pos ⟨h, ho⟩]
  exact courseOf_modCourse_self n scrubbed (zeroCourse n s)

/-- A Course that does not hold the context's state stays as it is. -/
theorem courseOf_scrubCourse_other {c d : Nat} {s : State} (n : Nat) (h : (courseOf s d).owner ≠ c) :
    courseOf (scrubCourse c s n) d = courseOf s d := by
  by_cases hn : n = d
  · subst hn
    unfold scrubCourse
    rw [if_neg (fun x => h x.2)]
  · exact courseOf_scrubCourse_ne s hn

/-- What a scrub leaves of a state: time, plans and launches. -/
structure ScrubFrame (s t : State) : Prop where
  clock : t.clock = s.clock
  day : t.day = s.day
  launches : t.fab.launches = s.fab.launches

theorem ScrubFrame.foldl (c : Nat) (l : List Nat) (s : State) : ScrubFrame s (l.foldl (scrubCourse c) s) := by
  induction l generalizing s with
  | nil => exact ⟨rfl, rfl, rfl⟩
  | cons n r ih =>
    have hone : ScrubFrame s (scrubCourse c s n) := by
      unfold scrubCourse
      split <;> exact ⟨rfl, rfl, rfl⟩
    have hrest := ih (scrubCourse c s n)
    exact ⟨hrest.clock.trans hone.clock, hrest.day.trans hone.day, hrest.launches.trans hone.launches⟩

/-- A scrub frees every Course that it holds. -/
theorem scrub_frees {c n : Nat} {s : State} (hn : n < 64) (hc : c < 64) (h : (courseOf s n).scrub = true)
    (ho : (courseOf s n).owner = c) :
    (courseOf ((List.range 64).foldl (scrubCourse c) s) n).scrub = false ∧
      (courseOf ((List.range 64).foldl (scrubCourse c) s) n).owner = 0xFF := by
  refine foldl_reaches (f := scrubCourse c) (a := n) (P := fun x => (courseOf x n).scrub = false ∧ (courseOf x n).owner = 0xFF)
    (Q := fun x => (courseOf x n).scrub = true ∧ (courseOf x n).owner = c) (List.mem_range.mpr hn) ?_ ?_ ?_ ⟨h, ho⟩
  · rintro x ⟨hx, hxo⟩
    rw [courseOf_scrubCourse_held hx hxo]
    exact ⟨rfl, rfl⟩
  · rintro x b hb hx
    rw [courseOf_scrubCourse_ne x hb]
    exact hx
  · rintro x b ⟨hx, hxo⟩
    rw [courseOf_scrubCourse_other b (by omega)]
    exact ⟨hx, hxo⟩

theorem scrub_keeps {c n : Nat} (l : List Nat) {s : State} (h : (courseOf s n).owner ≠ c) :
    courseOf (l.foldl (scrubCourse c) s) n = courseOf s n := by
  induction l generalizing s with
  | nil => rfl
  | cons b r ih =>
    have hone := courseOf_scrubCourse_other b h
    exact (ih (by rw [hone]; exact h)).trans hone

theorem exec_teardownScrubComplete {s : State} {c k : Nat} (h : (ctxOf s c).scrubCause = some k) :
    exec (.teardownScrubComplete c) s = .next (event 0x0533 0 c 0 1 (leBytes 2 k)
      (modCtx c (fun x => { x with scrubCause := none }) ((List.range 64).foldl (scrubCourse c) s))) := by
  change execTeardownScrubComplete c s = _
  unfold execTeardownScrubComplete
  rw [h]
  rfl

/-- Settles O19: a passed test, an idle overrun and a missed one by the state that they leave; a failed test since nothing
that follows a fence changes the map or the count again; a scrub by a fold over the Courses. -/
theorem testsOverrunsAndScrubs : Obligations.TestsOverrunsAndScrubs := by
  unfold Obligations.TestsOverrunsAndScrubs
  refine ⟨fun s b pk pt r hb hm hr hrb hretest => ?_, fun s b pk pt r hb hm hr hrb hnames => ?_, fun s b hb hm => ?_,
    fun s c d hd hact htick => ?_, fun s c d x r hd hact hopen htick => ?_, fun s c k hc hk => ?_⟩
  · subst hrb
    obtain ⟨y, hy⟩ := endTest_passed hretest pk pt s
    have hexec := exec_brickTestComplete (pk := pk) (pt := pt) hb hm hr rfl (.inl rfl)
    rw [hy] at hexec
    have hmay := mayTest_startBrickTest (brickCourse r.brick) (testPassed r.brick y s)
    obtain ⟨hlast, hmissed, hleft, hnext, hbed, hregs, hmem, hhod, hlaunches⟩ := startBrickTest_testPassed r.brick y s
    exact ⟨_, hexec, hlast, hmissed, hleft, hnext, fun h => startBrickTest_starts (hmay.symm.trans h),
      fun h => startBrickTest_rests (hmay.symm.trans h), hbed, hregs, hmem, hhod, hlaunches⟩
  · subst hrb
    obtain ⟨hfenced, hfails⟩ := endTest_fences r pk pt s
    have hregs := regs_startBrickTest (brickCourse r.brick) (endTest r false pk pt s)
    refine ⟨_, exec_brickTestComplete hb hm hr rfl (.inr hnames), ?_, ?_⟩
    · refine (fenced_congr ?_).trans hfenced
      rw [rd, hregs]
      rfl
    · rw [rd, hregs]
      exact hfails
  · rw [← overdueAt_eq]
    exact ⟨_, exec_brickTestOverdue hb hm, testOverdue_effect hm⟩
  · obtain ⟨g, k, h⟩ := passTo_frame d s
    refine ⟨_, exec_watchOverrunExpiry_idle hd hact, now_passTo d s htick, ?_, ?_, ?_, ?_, ?_⟩
    · exact congrArg (·.overrunAt) (courseOf_modCourse_self c (fun x => { x with overrunAt := none }) (passTo d s))
    all_goals
      unfold overrunPast
      rw [h]
      rfl
  · have hsteady := overrunReported_ctxSteady c d s
    obtain ⟨hcause, hstate, hclock⟩ := teardown_effect 0x0520 ((activeOn s c).map (fun y => (y.1.id, 0x0520, c)))
      (((hsteady.ctxOpen_eq x.1.ctx).trans (ctxOpen_passTo d s x.1.ctx)).trans hopen)
    exact ⟨_, exec_watchOverrunExpiry_active hd hact,
      (congrArg ClockState.count (hclock.trans hsteady.clock)).trans (now_passTo d s htick), hcause, hstate⟩
  · have hframe := ScrubFrame.foldl c (List.range 64) s
    have hfrees := fun n hn => scrub_frees (s := s) (n := n) hn hc
    have hkeeps := fun n => scrub_keeps (s := s) (c := c) (n := n) (List.range 64)
    refine ⟨_, exec_teardownScrubComplete hk, ?_⟩
    generalize (List.range 64).foldl (scrubCourse c) s = s1 at hframe hfrees hkeeps ⊢
    have hquiet := event_quiet 0x0533 0 c 0 1 (leBytes 2 k) (modCtx c (fun x => { x with scrubCause := none }) s1)
    have hcourses := courseOf_congr (congrArg (·.courses) hquiet.toFab)
    refine ⟨?_, fun n hn h ho => ?_, fun n hn ho => ?_, (congrArg (·.launches) hquiet.toFab).trans hframe.launches,
      hquiet.toDay.trans hframe.day, hquiet.toClock.trans hframe.clock⟩
    · rw [(event_calm _ _ _ _ _ _ _).causes, ctxOf_modCtx_self]
    · rw [hcourses]
      exact hfrees n hn h ho
    · rw [hcourses]
      exact hkeeps n ho

end Sys2Proof.Machine
end

section
namespace Sys2Proof.Machine

open Reg

/-! ## Staged fields in force -/

/-- The key of a committed field. -/
def comKey (x : Field × Nat) : Nat := fkey x.1 x.2

theorem com_acceptStaged_notMem {l : List (Field × Nat)} {f : Field} {a : Nat} (h : fkey f a ∉ l.map comKey) (s : State) :
    com (acceptStaged l s) f a = com s f a := by
  induction l generalizing s with
  | nil => rfl
  | cons y r ih =>
    rw [List.map_cons, List.mem_cons, not_or] at h
    exact (ih h.2 _).trans (com_wrCom_ne _ _ _ _ _ _ (Ne.symm h.1))

/-- Fields that are apart take their staged values (R763). -/
theorem com_acceptStaged {l : List (Field × Nat)} (hl : (l.map comKey).Nodup) {x : Field × Nat} (hx : x ∈ l) (s : State) :
    com (acceptStaged l s) x.1 x.2 = stg s x.1 x.2 % 2 ^ x.1.width := by
  induction l generalizing s with
  | nil => exact absurd hx List.not_mem_nil
  | cons y r ih =>
    rw [List.map_cons, List.nodup_cons] at hl
    rcases List.mem_cons.mp hx with rfl | hr
    · exact (com_acceptStaged_notMem hl.1 _).trans (com_wrCom_self _ _ _ _)
    · exact ih hl.2 hr _

/-- Putting staged fields in force changes the committed copies alone. -/
theorem acceptStaged_frame (l : List (Field × Nat)) (s : State) :
    ∃ g, acceptStaged l s = { s with regs := { s.regs with committed := g } } := by
  induction l generalizing s with
  | nil => exact ⟨s.regs.committed, rfl⟩
  | cons y r ih =>
    obtain ⟨g, hg⟩ := ih (wrCom y.1 y.2 (stg s y.1 y.2) s)
    exact ⟨g, hg⟩

theorem rd_acceptStaged (l : List (Field × Nat)) (s : State) (f : Field) (a : Nat) : rd (acceptStaged l s) f a = rd s f a := by
  obtain ⟨g, hg⟩ := acceptStaged_frame l s
  rw [hg]
  rfl

/-! ## HST_COMMIT -/

/-- From s to t the queue of the events that wait for the device event ring stays (R713). -/
structure DawnKept (s t : State) : Prop where
  queue : t.rings.dawnQueue = s.rings.dawnQueue

namespace DawnKept

variable {s t u : State}

protected theorem refl (s : State) : DawnKept s s := ⟨rfl⟩

protected theorem trans (h : DawnKept s t) (g : DawnKept t u) : DawnKept s u := ⟨g.queue.trans h.queue⟩

theorem foldl {α : Type} (f : State → α → State) (l : List α) (hf : ∀ x a, DawnKept x (f x a)) (s : State) :
    DawnKept s (l.foldl f s) := by
  induction l generalizing s with
  | nil => exact .refl s
  | cons a r ih => exact (hf s a).trans (ih (f s a))

theorem ite {c : Prop} [Decidable c] (ht : DawnKept s t) (hu : DawnKept s u) : DawnKept s (if c then t else u) := by
  split <;> assumption

theorem of_rings (h : t.rings = s.rings) : DawnKept s t := ⟨by rw [h]⟩

end DawnKept

theorem notify_dawnKept (a v : Nat) (s : State) : DawnKept s (notify a v s) := by
  unfold notify
  exact .ite (.ite ⟨rfl⟩ (.ite (.refl s) ⟨rfl⟩)) ⟨rfl⟩

theorem devWrite_dawnKept (ev : List Nat) (s : State) : DawnKept s (devWrite ev s) := by
  unfold devWrite
  dsimp only
  refine .ite (DawnKept.trans ⟨?_⟩ (.of_rings (incSat_rings _ _ _ _))) (DawnKept.trans ?_ (notify_dawnKept _ _ _))
  · rfl
  · refine DawnKept.trans ?_ (.of_rings (wr_rings _ _ _ _))
    exact ⟨congrArg (·.dawnQueue) (writeMem_memWork 72 0xFF _ _ s).rings⟩

/-- The state in which HST_COMMIT has put its fields in force, before the events that wait are written. -/
def hstOpened (s : State) : State :=
  { acceptStaged hstFields s with rings := { (acceptStaged hstFields s).rings with devOpen := true, dawnQueue := [] } }

theorem hstApply_quiet (s : State) : Quiet reportKey (hstOpened s) (hstApply s) :=
  Quiet.foldl (fun s ev => devWrite ev s) _ (fun x ev => devWrite_quiet ev x) (hstOpened s)

theorem hstApply_dawnKept (s : State) : DawnKept (hstOpened s) (hstApply s) :=
  .foldl (fun s ev => devWrite ev s) _ (fun x ev => devWrite_dawnKept ev x) (hstOpened s)

theorem hstFields_nodup : (hstFields.map comKey).Nodup := by decide

theorem hstApply_effect (s : State) :
    (∀ x ∈ hstFields, com (hstApply s) x.1 x.2 = stg s x.1 x.2 % 2 ^ x.1.width) ∧ (hstApply s).rings.devOpen = true ∧
      (hstApply s).fab = s.fab ∧ (hstApply s).rings.ties = s.rings.ties ∧ (hstApply s).clock = s.clock := by
  have hquiet := hstApply_quiet s
  obtain ⟨g, hg⟩ := acceptStaged_frame hstFields s
  refine ⟨fun x hx => (hquiet.toCom _ _).trans (com_acceptStaged hstFields_nodup hx s), by rw [hquiet.rings]; rfl, ?_, ?_, ?_⟩
  · rw [hquiet.toFab, hstOpened, hg]
  · rw [hquiet.toTies, hstOpened, hg]
  · rw [hquiet.toClock, hstOpened, hg]

/-! ## What a teardown ends -/

/-- From s to t no launch, Sieve job or registration begins, and Keystone stays. -/
structure Fewer (s t : State) : Prop where
  launches : ∀ l ∈ t.fab.launches, l ∈ s.fab.launches
  jobs : ∀ j ∈ t.sieve.jobs, j ∈ s.sieve.jobs
  regJobs : ∀ j ∈ t.rings.regJobs, j ∈ s.rings.regJobs
  key : t.key = s.key

namespace Fewer

variable {s t u : State}

protected theorem refl (s : State) : Fewer s s := ⟨fun _ h => h, fun _ h => h, fun _ h => h, rfl⟩

protected theorem trans (h : Fewer s t) (g : Fewer t u) : Fewer s u :=
  ⟨fun l x => h.launches l (g.launches l x), fun j x => h.jobs j (g.jobs j x), fun j x => h.regJobs j (g.regJobs j x),
    g.key.trans h.key⟩

theorem foldl {α : Type} (f : State → α → State) (l : List α) (hf : ∀ x a, Fewer x (f x a)) (s : State) :
    Fewer s (l.foldl f s) := by
  induction l generalizing s with
  | nil => exact .refl s
  | cons a r ih => exact (hf s a).trans (ih (f s a))

theorem ite {c : Prop} [Decidable c] (ht : Fewer s t) (hu : Fewer s u) : Fewer s (if c then t else u) := by
  split <;> assumption

theorem of_eq (hl : t.fab.launches = s.fab.launches) (hj : t.sieve = s.sieve) (hr : t.rings.regJobs = s.rings.regJobs)
    (hk : t.key = s.key) : Fewer s t :=
  ⟨fun _ h => hl ▸ h, fun _ h => hj ▸ h, fun _ h => hr ▸ h, hk⟩

theorem of_quiet {S : Nat → Prop} (h : Quiet S s t) : Fewer s t :=
  .of_eq (congrArg (·.launches) h.toFab) h.toSieve (by rw [h.rings]) h.toKey

end Fewer

theorem finishDesc_fewer (c ring count : Nat) (raw : List Nat) (d : Done) (s : State) :
    Fewer s (finishDesc c ring count raw d s) :=
  Fewer.trans (t := withoutDesc c ring count s) (.of_eq rfl rfl rfl rfl) (.of_quiet (finishDesc_quiet _ _ _ _ _ s))

theorem restartWdog_fewer (c : Nat) (s : State) : Fewer s (restartWdog c s) := by
  unfold restartWdog
  exact .ite (.of_eq rfl rfl rfl rfl) (.of_eq rfl rfl rfl rfl)

/-- The launches other than l. -/
def withoutLaunch (l : Launch) (s : State) : State :=
  { s with fab := { s.fab with launches := s.fab.launches.filter (fun x => x.id != l.id) } }

theorem endLaunch_fewer' (l : Launch) (d : Done) (s : State) : Fewer (withoutLaunch l s) (endLaunch l d s) := by
  unfold endLaunch
  dsimp only
  refine Fewer.trans ?_ (finishDesc_fewer _ _ _ _ _ _)
  refine Fewer.trans (.of_eq ?_ ?_ ?_ ?_) (.foldl _ _ (fun x i => ?_) _)
  · rfl
  · rfl
  · rfl
  · rfl
  · exact (restartWdog_fewer i.course x).trans (.of_eq rfl rfl rfl rfl)

theorem endLaunch_fewer (l : Launch) (d : Done) (s : State) : Fewer s (endLaunch l d s) :=
  Fewer.trans (t := withoutLaunch l s) ⟨fun _ h => (List.mem_filter.mp h).1, fun _ h => h, fun _ h => h, rfl⟩
    (endLaunch_fewer' l d s)

/-- A launch that has ended is on the fabric no more. -/
theorem endLaunch_notMem (l : Launch) (d : Done) (s : State) : l ∉ (endLaunch l d s).fab.launches := by
  intro h
  have hne := (List.mem_filter.mp ((endLaunch_fewer' l d s).launches l h)).2
  simp at hne

theorem noteRun_fewer (j : SieveJob) (s : State) : Fewer s (noteRun j s) := by
  unfold noteRun
  split
  · exact .refl s
  · exact .of_eq rfl rfl rfl rfl

theorem dropSieve_fewer (c : Nat) (s : State) : Fewer s (dropSieve c s) := by
  unfold dropSieve
  extract_lets t
  have hnoted : Fewer s t := .foldl _ _ (fun x j => noteRun_fewer j x) s
  exact hnoted.trans ⟨fun _ h => h, fun _ h => (List.mem_filter.mp h).1, fun _ h => h, rfl⟩

theorem dropSieve_jobs {c : Nat} {s : State} {j : SieveJob} (h : j ∈ (dropSieve c s).sieve.jobs) : j.ctx ≠ c := by
  have hne := (List.mem_filter.mp h).2
  simpa using hne

theorem dropInput_fewer (c : Nat) (s : State) : Fewer s (dropInput c s) := by
  unfold dropInput
  extract_lets mine ids s1
  have hstopped : Fewer s s1 :=
    .foldl _ _ (fun x i => .of_eq (t := wrB CAM_STREAM_STATUS.running (i * 0x20) false x) rfl rfl rfl rfl) s
  exact hstopped.trans (.of_eq rfl rfl rfl rfl)

theorem dropMer_fewer (c : Nat) (s : State) : Fewer s (dropMer c s) := by
  unfold dropMer haltMer
  exact .ite (.of_eq rfl rfl rfl rfl) (.refl s)

end Sys2Proof.Machine
end

section
namespace Sys2Proof.Machine

open Reg

theorem endDescs_fewer (c st : Nat) (s : State) : Fewer s (endDescs c st s) :=
  .foldl _ _ (fun x (d : Desc) => finishDesc_fewer c d.ring d.count d.raw { status := st } x) s

/-! ## Transfer queues that are dropped -/

/-- The state of a transfer queue's record that ends, once its status entry is written. -/
def transferEnded (c : Nat) (s : State) : State :=
  withdraw (1376 + c) (modOvQueue c (fun q => { q with head := (q.head + 1) % 2 ^ 32, run := none }) s)

/-- A transfer that ends without success gives no signal (R627). -/
theorem endTransfer_failed {c st : Nat} {s : State} (hst : st ≠ 0) :
    endTransfer c st s = s ∨ ∃ a e, endTransfer c st s = transferEnded c (writeMem 71 c a e s).2 := by
  unfold endTransfer
  split
  · exact .inl rfl
  · exact .inr ⟨_, _, if_neg (fun h => hst h.1)⟩

/-- The registers that a write by Ouvur's port changes. -/
def ouvurKey (k : Nat) : Prop := k = fkey PLB_PORT_STATE.over_rate (71 * 16) ∨ retryKey k

theorem writeMem71_quiet (c a : Nat) (l : List Nat) (s : State) : Quiet ouvurKey s (writeMem 71 c a l s).2 :=
  writeMem_quiet _ _ _ _ s (.inl rfl) (fun _ h => .inr h)

/-- The state in which a context's transfer queue is disabled, its record ended (R640). -/
def queueDropped (c : Nat) (s : State) : State :=
  wrCom OVR_Q_CFG.enable (c * 0x40) 0
    { s with ouvur := { s.ouvur with queues := adel s.ouvur.queues c, inbound := s.ouvur.inbound.filter (fun i => i.ctx != c) } }

theorem dropOuvur_eq (c : Nat) (s : State) : dropOuvur c s = queueDropped c (endTransfer c 0x0521 s) := rfl

theorem queueDropped_fewer (c : Nat) (s : State) : Fewer s (queueDropped c s) := .of_eq rfl rfl rfl rfl

theorem transferEnded_fewer (c : Nat) (s : State) : Fewer s (transferEnded c s) := .of_eq rfl rfl rfl rfl

theorem dropOuvur_fewer (c : Nat) (s : State) : Fewer s (dropOuvur c s) := by
  rw [dropOuvur_eq]
  refine Fewer.trans ?_ (queueDropped_fewer c _)
  rcases endTransfer_failed (c := c) (st := 0x0521) (s := s) (by decide) with h | ⟨a, e, h⟩
  · rw [h]
    exact .refl s
  · rw [h]
    exact (Fewer.of_quiet (writeMem71_quiet c a e s)).trans (transferEnded_fewer c _)

/-! ## Teardown -/

/-- How a teardown ends one launch: with the status that it stopped with where it caused it, else with 0x0521 (R278). -/
def endTorn (causing : List (Nat × Nat × Nat)) (s : State) (l : Launch) : State :=
  match causing.find? (fun x => x.1 == l.id) with
  | some x => endLaunch l { launchDone l with status := x.2.1, course := x.2.2 } s
  | none => endLaunch l { launchDone l with status := 0x0521, course := firstCourse l } s

theorem endTorn_eq (causing : List (Nat × Nat × Nat)) (s : State) (l : Launch) :
    ∃ d, endTorn causing s l = endLaunch l d s := by
  unfold endTorn
  split
  · exact ⟨_, rfl⟩
  · exact ⟨_, rfl⟩

theorem endTorn_fewer (causing : List (Nat × Nat × Nat)) (s : State) (l : Launch) : Fewer s (endTorn causing s l) := by
  obtain ⟨d, h⟩ := endTorn_eq causing s l
  rw [h]
  exact endLaunch_fewer l d s

/-- The launches of a context. -/
def launchesOf (c : Nat) (s : State) : List Launch := s.fab.launches.filter (fun l => l.ctx == c)

/-- Once each launch of a context has ended none of them is left. -/
theorem endTorn_ctx (c : Nat) (causing : List (Nat × Nat × Nat)) (s : State) :
    ∀ l ∈ ((launchesOf c s).foldl (endTorn causing) s).fab.launches, l.ctx ≠ c := by
  intro l hl hc
  have hold : l ∈ s.fab.launches := (Fewer.foldl (endTorn causing) _ (endTorn_fewer causing) s).launches l hl
  have hmem : l ∈ launchesOf c s := List.mem_filter.mpr ⟨hold, beq_iff_eq.mpr hc⟩
  refine foldl_reaches (f := endTorn causing) (P := fun x => l ∉ x.fab.launches) (Q := fun _ => True) hmem
    (fun x _ => ?_) (fun _ _ _ _ => trivial) (fun x b hx h => hx ((endTorn_fewer causing x b).launches l h)) trivial hl
  obtain ⟨d, h⟩ := endTorn_eq causing x l
  rw [h]
  exact endLaunch_notMem l d x

/-- The units of the Hearth give up a context. -/
def unitsDropped (c : Nat) (s : State) : State :=
  dropOuvur c (dropMer c (dropInput c (refreshSieve (dropSieve c (releaseHandles c s)))))

theorem unitsDropped_fewer' (c : Nat) (s : State) : Fewer (dropSieve c (releaseHandles c s)) (unitsDropped c s) := by
  have hsieve : Fewer (dropSieve c (releaseHandles c s)) (refreshSieve (dropSieve c (releaseHandles c s))) :=
    .of_eq rfl rfl rfl rfl
  exact ((hsieve.trans (dropInput_fewer c _)).trans (dropMer_fewer c _)).trans (dropOuvur_fewer c _)

theorem unitsDropped_fewer (c : Nat) (s : State) : Fewer s (unitsDropped c s) := by
  have hreleased : Fewer s (releaseHandles c s) := .of_eq rfl rfl rfl rfl
  exact (hreleased.trans (dropSieve_fewer c _)).trans (unitsDropped_fewer' c s)

/-- A Course that holds a context's state is held for its scrub. -/
def holdForScrub (c : Nat) (s : State) (k : Nat) : State :=
  if (courseOf s k).owner = c
  then wrB TRW_COURSE_STATE.switching (atCourse k 0x100) true (modCourse k (fun x => { x with scrub := true }) s)
  else s

theorem holdForScrub_fewer (c : Nat) (s : State) (k : Nat) : Fewer s (holdForScrub c s k) := by
  unfold holdForScrub
  exact .ite (.of_eq rfl rfl rfl rfl) (.refl s)

/-- A teardown leaves no launch, Sieve job or registration of its context, and Keystone as it is (R278, R338). -/
theorem teardown_ends {c : Nat} (cause : Nat) (causing : List (Nat × Nat × Nat)) {s : State} (h : ctxOpen s c = true) :
    (∀ l ∈ (teardown c cause causing s).fab.launches, l.ctx ≠ c) ∧ (∀ j ∈ (teardown c cause causing s).sieve.jobs, j.ctx ≠ c) ∧
      (∀ j ∈ (teardown c cause causing s).rings.regJobs, j.ctx ≠ c) ∧ (teardown c cause causing s).key = s.key := by
  unfold teardown
  rw [if_neg (by rw [h]; simp)]
  extract_lets mine s1 s2 s3 keep _ s4 s5 _ s6 s7
  have hmarked : Fewer s s1 := .of_eq rfl rfl rfl rfl
  have hended : s2 = (launchesOf c s1).foldl (endTorn causing) s1 := rfl
  have hlaunches : ∀ l ∈ s2.fab.launches, l.ctx ≠ c := hended ▸ endTorn_ctx c causing s1
  have hfewer2 : Fewer s1 s2 := .foldl (endTorn causing) _ (endTorn_fewer causing) s1
  have hfewer4 : Fewer s2 s4 := (endDescs_fewer c 0x0521 s2).trans
    ⟨fun _ h => h, fun _ h => h, fun _ h => (List.mem_filter.mp h).1, rfl⟩
  have hregs : ∀ j ∈ s4.rings.regJobs, j.ctx ≠ c := fun j hj => by simpa using (List.mem_filter.mp hj).2
  have hunits : Fewer s4 s5 := unitsDropped_fewer c s4
  have hsieve : Fewer (dropSieve c (releaseHandles c s4)) s5 := unitsDropped_fewer' c s4
  clear_value s5
  have hscrubs : Fewer s6 s7 := .foldl (holdForScrub c) (List.range 64) (holdForScrub_fewer c) s6
  have hsaved : Fewer s5 s6 := .of_eq rfl rfl rfl rfl
  have hcause := (modCtx_quiet (S := fun _ => False) c (fun x => { x with scrubCause := some cause }) s7)
  have hlate : Fewer s5 (modCtx c (fun x => { x with scrubCause := some cause }) s7) :=
    (hsaved.trans hscrubs).trans (.of_quiet hcause)
  have hafter := hunits.trans hlate
  exact ⟨fun l hl => hlaunches l ((hfewer4.trans hafter).launches l hl),
    fun j hj => dropSieve_jobs ((hsieve.trans hlate).jobs j hj), fun j hj => hregs j (hafter.regJobs j hj), (((hmarked.trans hfewer2).trans hfewer4).trans hafter).key⟩

/-! ## CONTEXT_CLOSE -/

/-- The registers that a record changes beside those of reports (R696). -/
def recordKey (k : Nat) : Prop := k = fkey KEY_REC_SEQ.seq 0 ∨ reportKey k

/-- A record advances the sequence number by one, and reports (R696). -/
theorem record_quiet (kind : Nat) (a : Act) (s : State) : ∃ k, k.nextSeq = (s.key.nextSeq + 1) % 2 ^ 32 ∧
    Quiet recordKey { s with key := k } (record kind a s) := by
  unfold record
  extract_lets n e _ s1
  exact ⟨s1.key, rfl, (wr_quiet _ _ _ s1 (.inl rfl)).trans ((event_quiet _ _ _ _ _ _ _).mono (fun _ h => .inr h))⟩

theorem stateFree_recordKey (k : Nat) (h : recordKey k) : stateFree k := by
  rcases h with rfl | h
  · intro c hc
    simp only [fkey, KEY_REC_SEQ.seq, HST_CTX_STATE.state]
    omega
  · exact stateFree_reportKey k h

theorem commitAt_ctxSteady (off : Nat) (s : State) : CtxSteady s (commitAt 0 off s) := (CtxSteady.refl s).wrDie rfl

theorem commitDone_ctxSteady (r : Refuse) (s : State) : CtxSteady s (commitDone 0 r s) :=
  (((CtxSteady.refl s).wrDie rfl).wrDie rfl).wrDie rfl

theorem state_of_ctxOpen {s : State} {c : Nat} (h : ctxOpen s c = true) : rd s HST_CTX_STATE.state (c * 0x100) = 1 := by
  unfold ctxOpen at h
  exact beq_iff_eq.mp (Bool.and_eq_true .. ▸ h).2

theorem closeContext_effect {c : Nat} {s : State} (h : ctxOpen s c = true) :
    rd (closeContext c s) HST_CTX_STATE.state (c * 0x100) = 0 ∧ keyOf (closeContext c s) c = 0 ∧
      (∀ l ∈ (closeContext c s).fab.launches, l.ctx ≠ c) ∧
      (closeContext c s).key.nextSeq = (s.key.nextSeq + 1) % 2 ^ 32 := by
  have hc := ctxOpen_lt h
  obtain ⟨hlaunches, -, -, hkey⟩ := teardown_ends 0x0630 [] h
  obtain ⟨g, hg⟩ := acceptStaged_frame (ctxFields c) (teardown c 0x0630 [] s)
  unfold closeContext
  rw [if_neg (by rw [state_of_ctxOpen h]; decide)]
  dsimp only
  obtain ⟨k, hk, hquiet⟩ := record_quiet 0x0017
    { ctx := c, detail := (ctxOf (acceptStaged (ctxFields c) (teardown c 0x0630 [] s)) c).keyGen }
    (wr HST_CTX_STATE.state (c * 0x100) 0 (acceptStaged (ctxFields c) (teardown c 0x0630 [] s)))
  generalize record 0x0017 _ _ = t at hquiet ⊢
  refine ⟨?_, ?_, ?_, ?_⟩
  · exact (hquiet.toRd _ _ (fun x => stateFree_recordKey _ x c hc rfl)).trans (rd_wr_self _ _ _ _)
  · unfold keyOf
    rw [if_pos hc]
    exact (aget_adel _ _ _ _).trans (if_pos rfl)
  · have hfab : t.fab = (teardown c 0x0630 [] s).fab := by rw [hquiet.toFab, hg]; rfl
    intro l hl
    exact hlaunches l (hfab ▸ hl)
  · calc t.key.nextSeq = k.nextSeq := congrArg (·.nextSeq) hquiet.toKey
      _ = ((teardown c 0x0630 [] s).key.nextSeq + 1) % 2 ^ 32 := by rw [hk, wr_key, hg]
      _ = (s.key.nextSeq + 1) % 2 ^ 32 := by rw [hkey]

end Sys2Proof.Machine
end

section
namespace Sys2Proof.Machine

open Reg

/-! ## Doorbells of a context that opens -/

namespace Quiet

variable {S : Nat → Prop} {s t : State}

theorem toCtxKey (h : Quiet S s t) : t.mem.ctxKey = s.mem.ctxKey := by rw [h.mem]
theorem toNextKey (h : Quiet S s t) : t.mem.nextKey = s.mem.nextKey := by rw [h.mem]
theorem toHostErr (h : Quiet S s t) : t.mem.hostErr = s.mem.hostErr := by rw [h.mem]

end Quiet

/-- Where nothing has befallen memory or the host, t follows from s by reads and reports alone. -/
def Reads (s t : State) : Prop := sound s = true → s.mem.hostErr = [] → Quiet reportKey s t ∧ sound t = true

namespace Reads

variable {s t u : State}

protected theorem refl (s : State) : Reads s s := fun hs _ => ⟨.refl s, hs⟩

protected theorem trans (h : Reads s t) (g : Reads t u) : Reads s u := by
  intro hs hh
  obtain ⟨hquiet, ht⟩ := h hs hh
  obtain ⟨gquiet, hu⟩ := g ht (hquiet.toHostErr.trans hh)
  exact ⟨hquiet.trans gquiet, hu⟩

theorem foldl {α : Type} (f : State → α → State) (l : List α) (hf : ∀ x a, Reads x (f x a)) (s : State) :
    Reads s (l.foldl f s) := by
  induction l generalizing s with
  | nil => exact .refl s
  | cons a r ih => exact (hf s a).trans (ih (f s a))

theorem ite {c : Prop} [Decidable c] (ht : Reads s t) (hu : Reads s u) : Reads s (if c then t else u) := by
  split <;> assumption

theorem of_quiet (h : Quiet reportKey s t) (hs : sound s = true → sound t = true) : Reads s t := fun x _ => ⟨h, hs x⟩

end Reads

/-- A read by the ring engine of a memory to which nothing has befallen reports nothing (R357). -/
theorem readMem_reads (c a n : Nat) (l : List (Nat × Nat × Nat)) (s : State) : Reads s (readMem 72 c a n l s).2.2 := by
  intro hs hh
  have hwork := (drainRange_memWork a n s).trans (policeRange_memWork 72 a n _)
  have hquiet : Quiet reportKey s (policeRange 72 a n (drainRange a n s)) :=
    (Quiet.foldl _ _ (fun x _ => drainOverlap_quiet _ _ x) s).trans (policeRange_quiet _ _ _ _ reportKey_port)
  unfold readMem
  split
  · split
    · dsimp only
      rw [if_pos (hwork.sound hs)]
      exact ⟨hquiet, hwork.sound hs⟩
    · rw [if_neg (by simp [hh])]
      exact ⟨.refl s, hs⟩
  · exact ⟨.refl s, hs⟩

theorem stopRing_calm (c r cause resume : Nat) (s : State) : Calm s (stopRing c r cause resume s) := by
  have hraw := stopRaw_calm c r cause resume s
  unfold stopRing
  exact .ite (.refl s) (.ite (hraw.trans (stopRings_calm _ _ _)) (hraw.trans (writeEcho_calm _ _)))

theorem stopRing_reads {c : Nat} (hc : c < 64) (r cause resume : Nat) (s : State) : Reads s (stopRing c r cause resume s) :=
  .of_quiet (stopRing_quiet c r cause resume s hc) (stopRing_calm c r cause resume s).sound

theorem modCtx_reads (c : Nat) (f : CtxState → CtxState) (s : State) : Reads s (modCtx c f s) :=
  .of_quiet (modCtx_quiet c f s) id

theorem readDoorbell_reads {c : Nat} (hc : c < 64) (r : Nat) (s : State) : Reads s (readDoorbell c r s) := by
  unfold readDoorbell takeTail
  extract_lets d s1
  have hread : Reads s d.2.2 := readMem_reads _ _ _ _ s
  have hheads : Reads s s1 := hread.trans (.ite (modCtx_reads c _ _) (.refl _))
  refine .ite (hread.trans (stopRing_reads hc _ _ _ _)) (hheads.trans (.ite (stopRing_reads hc _ _ _ _) (modCtx_reads c _ _)))

/-- Every doorbell line of a context is read once (R336). -/
def doorbellsRead (c : Nat) (s : State) : State :=
  (List.range 4).foldl (fun s r => if ringEnabled s c r then
    readDoorbell c r (modRing c r (fun x => { x with polledAt := now s }) s) else s) s

theorem doorbellsRead_reads {c : Nat} (hc : c < 64) (s : State) : Reads s (doorbellsRead c s) :=
  .foldl _ _ (fun x r => .ite ((modCtx_reads c _ x).trans (readDoorbell_reads hc r _)) (.refl x)) s

/-! ## What follows the key of a context that opens -/

/-- From s to t, while context c opens, its key, its Ties, its fields, its state and the launches stay. -/
structure Opening (c : Nat) (s t : State) : Prop where
  ctxKey : t.mem.ctxKey = s.mem.ctxKey
  nextKey : t.mem.nextKey = s.mem.nextKey
  hostErr : t.mem.hostErr = s.mem.hostErr
  key : t.key = s.key
  fab : t.fab = s.fab
  ties : t.rings.ties = s.rings.ties
  sound : sound s = true → sound t = true
  com : ∀ f a, fkey f a ≠ fkey OVR_Q_CFG.enable (c * 0x40) → com t f a = com s f a
  state : ∀ h < 64, rd t HST_CTX_STATE.state (h * 0x100) = rd s HST_CTX_STATE.state (h * 0x100)

namespace Opening

variable {c : Nat} {s t u : State}

protected theorem refl (s : State) : Opening c s s := ⟨rfl, rfl, rfl, rfl, rfl, rfl, id, fun _ _ _ => rfl, fun _ _ => rfl⟩

protected theorem trans (h : Opening c s t) (g : Opening c t u) : Opening c s u where
  ctxKey := g.ctxKey.trans h.ctxKey
  nextKey := g.nextKey.trans h.nextKey
  hostErr := g.hostErr.trans h.hostErr
  key := g.key.trans h.key
  fab := g.fab.trans h.fab
  ties := g.ties.trans h.ties
  sound := fun x => g.sound (h.sound x)
  com := fun f a x => (g.com f a x).trans (h.com f a x)
  state := fun k x => (g.state k x).trans (h.state k x)

theorem foldl {α : Type} (f : State → α → State) (l : List α) (hf : ∀ x a, Opening c x (f x a)) (s : State) :
    Opening c s (l.foldl f s) := by
  induction l generalizing s with
  | nil => exact .refl s
  | cons a r ih => exact (hf s a).trans (ih (f s a))

theorem of_quiet {S : Nat → Prop} (h : Quiet S s t) (hS : ∀ k, S k → stateFree k)
    (hs : Machine.sound s = true → Machine.sound t = true) : Opening c s t :=
  ⟨h.toCtxKey, h.toNextKey, h.toHostErr, h.toKey, h.toFab, h.toTies, hs, fun f a _ => h.toCom f a,
    (CtxSteady.of_quiet h hS).state⟩

end Opening

theorem evalWaits_opening (c t : Nat) (s : State) : Opening c s (evalWaits t s) :=
  ⟨rfl, rfl, rfl, rfl, rfl, rfl, id, fun _ _ _ => rfl, fun _ _ => rfl⟩

/-- The state in which the Ties of a context's own range have been reset (R332). -/
def tiesCleared (c : Nat) (s : State) : State :=
  let b := com s HST_TIE_BASE.tie_base (c * 0x100)
  { s with rings := { s.rings with ties := aclear s.rings.ties b (b + com s HST_TIE_COUNT.tie_count (c * 0x100)) } }

theorem resetTies_opening (c : Nat) (s : State) : Opening c (tiesCleared c s) (resetTies c s) :=
  .foldl (fun s t => evalWaits t s) _ (fun x t => evalWaits_opening c t x) (tiesCleared c s)

/-- A register beyond those of the contexts is no context's state. -/
theorem stateFree_high {f : Field} (a : Nat) (hf : decide (0x900000 ≤ f.off ∧ f.lo < 64) = true) : stateFree (fkey f a) := by
  have hoff := of_decide_eq_true hf
  intro h hh
  simp only [fkey, HST_CTX_STATE.state]
  omega

theorem foldl_wr_quiet {a : Nat} {l : List Field} (hl : l.all (fun f => decide (0x900000 ≤ f.off ∧ f.lo < 64)) = true)
    (s : State) : Quiet stateFree s (l.foldl (fun s f => wr f a 0 s) s) := by
  induction l generalizing s with
  | nil => exact .refl s
  | cons f r ih =>
    rw [List.all_cons, Bool.and_eq_true] at hl
    exact (wr_quiet f a 0 s (stateFree_high a hl.1)).trans (ih hl.2 _)

theorem sound_foldl_wr (a : Nat) (l : List Field) (s : State) : sound (l.foldl (fun s f => wr f a 0 s) s) = sound s := by
  induction l generalizing s with
  | nil => rfl
  | cons f r ih => exact ih _

theorem zeroHealth_opening (c : Nat) (s : State) : Opening c s (zeroHealth c s) :=
  .of_quiet (foldl_wr_quiet rfl s) (fun _ h => h) (fun h => (sound_foldl_wr _ _ s).trans h)

theorem stateFree_ouvurKey (k : Nat) (h : ouvurKey k) : stateFree k := by
  rcases h with rfl | h
  · exact stateFree_lo _ rfl
  · exact stateFree_retryKey k h

theorem transferEnded_opening (c : Nat) (s : State) : Opening c s (transferEnded c s) :=
  ⟨rfl, rfl, rfl, rfl, rfl, rfl, id, fun _ _ _ => rfl, fun _ _ => rfl⟩

theorem queueDropped_opening (c : Nat) (s : State) : Opening c s (queueDropped c s) :=
  ⟨rfl, rfl, rfl, rfl, rfl, rfl, id, fun _ _ h => com_wrCom_ne _ _ _ _ _ _ (Ne.symm h), fun _ _ => rfl⟩

theorem dropOuvur_opening (c : Nat) (s : State) : Opening c s (dropOuvur c s) := by
  rw [dropOuvur_eq]
  refine Opening.trans ?_ (queueDropped_opening c _)
  rcases endTransfer_failed (c := c) (st := 0x0521) (s := s) (by decide) with h | ⟨a, e, h⟩
  · rw [h]
    exact .refl s
  · rw [h]
    exact (Opening.of_quiet (writeMem71_quiet c a e s) stateFree_ouvurKey (writeMem_memWork 71 c a e s).sound).trans
      (transferEnded_opening c _)

/-- A dropped transfer queue is disabled (R640). -/
theorem dropOuvur_disabled (c : Nat) (s : State) : com (dropOuvur c s) OVR_Q_CFG.enable (c * 0x40) = 0 :=
  com_wrCom_self _ _ _ _

end Sys2Proof.Machine
end

section
namespace Sys2Proof.Machine

open Reg

/-! ## The key of a context that opens -/

/-- The state after a context's key has been drawn and recorded, from the closed state (R685, R688). -/
structure KeyDrawn (c : Nat) (s t : State) : Prop where
  ctxKey : t.mem.ctxKey = aset s.mem.ctxKey c s.mem.nextKey 0
  nextKey : t.mem.nextKey = s.mem.nextKey + 1
  hostErr : t.mem.hostErr = s.mem.hostErr
  nextSeq : t.key.nextSeq = (s.key.nextSeq + 1) % 2 ^ 32
  fab : t.fab = s.fab
  sound : sound s = true → sound t = true
  com : ∀ f a, com t f a = com s f a

theorem record_calm (kind : Nat) (a : Act) (s : State) : Calm s (record kind a s) := by
  unfold record
  extract_lets n e _ s1
  have hkept : Calm s (wr KEY_REC_SEQ.seq 0 n s1) := .of_eq rfl rfl
  exact hkept.trans (event_calm _ _ _ _ _ _ _)

theorem openKey_drawn {c : Nat} {s : State} (h : rd s HST_CTX_STATE.state (c * 0x100) = 0) : KeyDrawn c s (openKey c s) := by
  unfold openKey
  rw [if_neg (by rw [h]; exact fun x => absurd x.1 (by decide))]
  dsimp only
  obtain ⟨k, hk, hquiet⟩ := record_quiet 0x0015 { ctx := c, detail := (ctxOf s c).keyGen + 1 } s
  have hcalm := record_calm 0x0015 { ctx := c, detail := (ctxOf s c).keyGen + 1 } s
  generalize record 0x0015 _ s = t at hquiet hcalm ⊢
  refine ⟨?_, congrArg (· + 1) hquiet.toNextKey, hquiet.toHostErr, ?_, hquiet.toFab, hcalm.sound, hquiet.toCom⟩
  · change aset t.mem.ctxKey c t.mem.nextKey 0 = _
    rw [hquiet.toCtxKey, hquiet.toNextKey]
  · exact (congrArg (·.nextSeq) hquiet.toKey).trans hk

/-! ## CONTEXT_OPEN -/

theorem ctxFields_shift (c : Nat) : ctxFields c = (ctxFields 0).map (fun x => (x.1, c * 0x100 + x.2)) := by
  simp [ctxFields, List.map_flatMap]

theorem ctxFields_keys (c : Nat) : (ctxFields c).map comKey = ((ctxFields 0).map comKey).map (· + c * 0x100 * 64) := by
  rw [ctxFields_shift, List.map_map, List.map_map]
  refine List.map_congr_left (fun x _ => ?_)
  simp only [Function.comp_apply, comKey, fkey]
  omega

/-- The fields of a context are apart (R335). -/
theorem ctxFields_nodup (c : Nat) : ((ctxFields c).map comKey).Nodup := by
  rw [ctxFields_keys]
  exact List.Nodup.map (fun a b h => Nat.add_right_cancel h) (by decide)

/-- They lie below those of the transfer queues. -/
theorem ctxFields_below {c : Nat} (hc : c < 64) {x : Field × Nat} (hx : x ∈ ctxFields c) (a : Nat) :
    fkey x.1 x.2 ≠ fkey OVR_Q_CFG.enable a := by
  have hbase : ∀ k ∈ (ctxFields 0).map comKey, k < 0x801000 * 64 := by decide
  have hmem : comKey x ∈ (ctxFields c).map comKey := List.mem_map_of_mem hx
  rw [ctxFields_keys] at hmem
  obtain ⟨k, hk, hkx⟩ := List.mem_map.mp hmem
  have hlt := hbase k hk
  simp only [comKey] at hkx
  simp only [fkey, OVR_Q_CFG.enable] at hkx ⊢
  omega

/-- A context that has its key reads open, with its counts 0 and no ring stopped (R336). -/
def markedOpen (c : Nat) (s : State) : State :=
  wr HST_CTX_STATE.stopped (c * 0x100) 0 (wr HST_CTX_STATE.state (c * 0x100) 1
    (modCtx c (fun x => { keyGen := x.keyGen, scrubCause := x.scrubCause }) s))

theorem markedOpen_quiet (c : Nat) (s : State) : Quiet (fun _ => True) s (markedOpen c s) :=
  ((modCtx_quiet c _ s).trans (wr_quiet _ _ _ _ trivial)).trans (wr_quiet _ _ _ _ trivial)

theorem markedOpen_mem (c : Nat) (s : State) : (markedOpen c s).mem = s.mem := by
  rw [markedOpen, wr_mem, wr_mem]
  rfl

theorem markedOpen_state (c : Nat) (s : State) : rd (markedOpen c s) HST_CTX_STATE.state (c * 0x100) = 1 := by
  unfold markedOpen
  rw [rd_wr_ne _ _ _ _ _ _ (by simp only [fkey, HST_CTX_STATE.stopped, HST_CTX_STATE.state]; omega), rd_wr_self]
  rfl

theorem tiesCleared_mem (c : Nat) (s : State) : (tiesCleared c s).mem = s.mem := rfl

theorem acceptStaged_mem (l : List (Field × Nat)) (s : State) : (acceptStaged l s).mem = s.mem := by
  obtain ⟨g, hg⟩ := acceptStaged_frame l s
  rw [hg]

theorem acceptStaged_fab (l : List (Field × Nat)) (s : State) : (acceptStaged l s).fab = s.fab := by
  obtain ⟨g, hg⟩ := acceptStaged_frame l s
  rw [hg]

theorem acceptStaged_key (l : List (Field × Nat)) (s : State) : (acceptStaged l s).key = s.key := by
  obtain ⟨g, hg⟩ := acceptStaged_frame l s
  rw [hg]

theorem sound_congr {s t : State} (h : t.mem = s.mem) : sound t = sound s := by
  unfold sound
  rw [h]

theorem KeyDrawn.markedOpen {c : Nat} {s t : State} (h : KeyDrawn c s t) : KeyDrawn c s (markedOpen c t) := by
  have hquiet := markedOpen_quiet c t
  have hmem := markedOpen_mem c t
  exact ⟨hquiet.toCtxKey.trans h.ctxKey, hquiet.toNextKey.trans h.nextKey, hquiet.toHostErr.trans h.hostErr,
    (congrArg (·.nextSeq) hquiet.toKey).trans h.nextSeq, hquiet.toFab.trans h.fab,
    fun hs => (sound_congr hmem).trans (h.sound hs), fun f a => (hquiet.toCom f a).trans (h.com f a)⟩

/-- The state in which a context that opens has its fields in force and its key (R336). -/
def openedState (c : Nat) (s : State) : State := markedOpen c (openKey c (acceptStaged (ctxFields c) s))

theorem openContext_eq (c : Nat) (s : State) :
    openContext c s = doorbellsRead c (dropOuvur c (zeroHealth c (resetTies c (openedState c s)))) := by
  unfold openContext doorbellsRead openedState markedOpen
  rfl

theorem openedState_state (c : Nat) (s : State) : rd (openedState c s) HST_CTX_STATE.state (c * 0x100) = 1 :=
  markedOpen_state c _

theorem openedState_drawn {c : Nat} {s : State} (h : rd s HST_CTX_STATE.state (c * 0x100) = 0) :
    KeyDrawn c (acceptStaged (ctxFields c) s) (openedState c s) :=
  (openKey_drawn ((rd_acceptStaged _ s _ _).trans h)).markedOpen

/-- The range of Ties that an opening commit accepts lies within the Ties (R335). -/
theorem tieRange_of_openChecks {c : Nat} {s : State} (h : firstFail (openChecks c s) = none) :
    stg s HST_TIE_BASE.tie_base (c * 0x100) + stg s HST_TIE_COUNT.tie_count (c * 0x100) ≤ 131072 := by
  have hall : ∀ x ∈ openChecks c s, x.1 = false := by
    simpa [firstFail, List.find?_eq_none] using h
  have hrange := hall (decide (131072 < stg s HST_TIE_BASE.tie_base (c * 0x100) + stg s HST_TIE_COUNT.tie_count (c * 0x100)),
    (0x0002, 0x80007C + c * 0x100)) (by simp [openChecks, ctxRangeChecks])
  simpa using hrange

/-- Once a context's fields are in force its Ties are those of the staged range, and all 0 (R332). -/
theorem tiesCleared_zero {c k : Nat} {s : State} (h : rd s HST_CTX_STATE.state (c * 0x100) = 0)
    (hr : stg s HST_TIE_BASE.tie_base (c * 0x100) + stg s HST_TIE_COUNT.tie_count (c * 0x100) ≤ 131072)
    (hk : stg s HST_TIE_BASE.tie_base (c * 0x100) ≤ k)
    (hk' : k < stg s HST_TIE_BASE.tie_base (c * 0x100) + stg s HST_TIE_COUNT.tie_count (c * 0x100)) :
    tieValue (tiesCleared c (openedState c s)) k = 0 := by
  have hcom := (openedState_drawn h).com
  have hbase : com (openedState c s) HST_TIE_BASE.tie_base (c * 0x100) = stg s HST_TIE_BASE.tie_base (c * 0x100) := by
    refine ((hcom _ _).trans (com_acceptStaged (ctxFields_nodup c) (x := (HST_TIE_BASE.tie_base, c * 0x100))
      (by simp [ctxFields]) s)).trans (Nat.mod_eq_of_lt ?_)
    change stg s HST_TIE_BASE.tie_base (c * 0x100) < 2 ^ 17
    omega
  have hcount : com (openedState c s) HST_TIE_COUNT.tie_count (c * 0x100) = stg s HST_TIE_COUNT.tie_count (c * 0x100) := by
    refine ((hcom _ _).trans (com_acceptStaged (ctxFields_nodup c) (x := (HST_TIE_COUNT.tie_count, c * 0x100))
      (by simp [ctxFields]) s)).trans (Nat.mod_eq_of_lt ?_)
    change stg s HST_TIE_COUNT.tie_count (c * 0x100) < 2 ^ 18
    omega
  refine (aget_aclear _ _ _ _ _).trans (if_pos ?_)
  rw [hbase, hcount]
  exact ⟨hk, hk'⟩

/-- What an opening of a closed context leaves (R336), where nothing has befallen memory or the host. -/
theorem openContext_effect {c : Nat} {s : State} (hc : c < 64) (h : rd s HST_CTX_STATE.state (c * 0x100) = 0)
    (hs : sound s = true) (hh : s.mem.hostErr = []) :
    Opening c (tiesCleared c (openedState c s)) (openContext c s) ∧ com (openContext c s) OVR_Q_CFG.enable (c * 0x40) = 0 := by
  have hdrawn := openedState_drawn h
  have hmem := acceptStaged_mem (ctxFields c) s
  have hdropped : Opening c (tiesCleared c (openedState c s)) (dropOuvur c (zeroHealth c (resetTies c (openedState c s)))) :=
    ((resetTies_opening c _).trans (zeroHealth_opening c _)).trans (dropOuvur_opening c _)
  have hsound : sound (tiesCleared c (openedState c s)) = true :=
    (sound_congr (tiesCleared_mem c _)).trans (hdrawn.sound ((sound_congr hmem).trans hs))
  have hhost : (tiesCleared c (openedState c s)).mem.hostErr = [] := by
    rw [tiesCleared_mem, hdrawn.hostErr, hmem]
    exact hh
  obtain ⟨hquiet, hlast⟩ := doorbellsRead_reads hc _ (hdropped.sound hsound) (hdropped.hostErr.trans hhost)
  rw [openContext_eq]
  exact ⟨hdropped.trans (.of_quiet hquiet stateFree_reportKey (fun _ => hlast)),
    (hquiet.toCom _ _).trans (dropOuvur_disabled c _)⟩

/-- What a committed opening leaves of a closed context (R336, R688). -/
theorem openContext_leaves {c : Nat} {s : State} (hc : c < 64) (h : rd s HST_CTX_STATE.state (c * 0x100) = 0)
    (hr : stg s HST_TIE_BASE.tie_base (c * 0x100) + stg s HST_TIE_COUNT.tie_count (c * 0x100) ≤ 131072)
    (hs : sound s = true) (hh : s.mem.hostErr = []) :
    rd (openContext c s) HST_CTX_STATE.state (c * 0x100) = 1 ∧ keyOf (openContext c s) c = s.mem.nextKey ∧
      (openContext c s).mem.nextKey = s.mem.nextKey + 1 ∧
      (openContext c s).key.nextSeq = (s.key.nextSeq + 1) % 2 ^ 32 ∧
      (∀ x ∈ ctxFields c, com (openContext c s) x.1 x.2 = stg s x.1 x.2 % 2 ^ x.1.width) ∧
      (∀ k, stg s HST_TIE_BASE.tie_base (c * 0x100) ≤ k →
        k < stg s HST_TIE_BASE.tie_base (c * 0x100) + stg s HST_TIE_COUNT.tie_count (c * 0x100) →
        tieValue (openContext c s) k = 0) ∧
      com (openContext c s) OVR_Q_CFG.enable (c * 0x40) = 0 ∧ (openContext c s).fab = s.fab := by
  obtain ⟨hopening, hdisabled⟩ := openContext_effect hc h hs hh
  obtain ⟨hkey, hnext, -, hseq, hfab, -, hcom⟩ := openedState_drawn h
  have hzero := fun k => tiesCleared_zero (k := k) h hr
  have hstate := openedState_state c s
  rw [acceptStaged_mem] at hkey hnext
  rw [acceptStaged_key] at hseq
  rw [acceptStaged_fab] at hfab
  generalize openContext c s = t at hopening hdisabled ⊢
  generalize openedState c s = u at hopening hkey hnext hseq hfab hcom hzero hstate
  refine ⟨(hopening.state c hc).trans hstate, ?_, hopening.nextKey.trans hnext, (congrArg (·.nextSeq) hopening.key).trans hseq,
    fun x hx => ?_, fun k hk hk' => ?_, hdisabled, hopening.fab.trans hfab⟩
  · unfold keyOf
    rw [if_pos hc, hopening.ctxKey, tiesCleared_mem, hkey, aget_aset_self]
  · rw [hopening.com _ _ (ctxFields_below hc hx _)]
    exact (hcom _ _).trans (com_acceptStaged (ctxFields_nodup c) hx s)
  · unfold tieValue
    rw [hopening.ties]
    exact hzero k hk hk'

theorem exec_contextOpen {s : State} {c v : Nat} (hc : c < 64) (hv : v % 2 = 1) (hd : dieSilent s 0 = false)
    (ho : stg s HST_CTX_CTRL.opened (c * 0x100) = 1) (hf : firstFail (openChecks c s) = none) :
    exec (.contextOpen c v) s =
      .next (commitDone 0 (0, 0) (openContext c (commitAt 0 (0x8000FC + c * 0x100) s))) := by
  change execContextOpen c v s = _
  unfold execContextOpen
  rw [if_pos ⟨hc, ho⟩, commit_accepted hv hd hf]

theorem exec_contextClose {s : State} {c v : Nat} (hc : c < 64) (hv : v % 2 = 1) (hd : dieSilent s 0 = false)
    (ho : stg s HST_CTX_CTRL.opened (c * 0x100) = 0) :
    exec (.contextClose c v) s =
      .next (commitDone 0 (0, 0) (closeContext c (commitAt 0 (0x8000FC + c * 0x100) s))) := by
  change execContextClose c v s = _
  unfold execContextClose
  rw [if_pos ⟨hc, ho⟩, commit_accepted hv hd rfl]

theorem exec_hstCommit {s : State} {v : Nat} (hv : v % 2 = 1) (hd : dieSilent s 0 = false)
    (hf : firstFail (hstChecks s) = none) :
    exec (.hstCommit v) s = .next (commitDone 0 (0, 0) (hstApply (commitAt 0 0x80403C s))) := by
  change execHstCommit v s = _
  unfold execHstCommit
  rw [commit_accepted hv hd hf]

/-- Settles O23: each clause by the state that its operation leaves; what follows the opening of a context keeps its key,
Ties and fields, and what follows the end of a launch, a job or a registration brings none back. -/
theorem contextsOpenAndClose : Obligations.ContextsOpenAndClose := by
  unfold Obligations.ContextsOpenAndClose
  refine ⟨fun s c v hc hv hd ho hstate hf hs hh => ?_, fun s c hopen => ?_, fun s c v hv hd ho hopen => ?_,
    fun s v hv hd hf => ?_⟩
  · have hrange := tieRange_of_openChecks hf
    have hat := (commitAt_ctxSteady (0x8000FC + c * 0x100) s).state c hc
    have hleaves := openContext_leaves (s := commitAt 0 (0x8000FC + c * 0x100) s) hc (hat.trans hstate)
      hrange ((sound_congr (commitAt_mem _ _ _)).trans hs) hh
    refine ⟨_, exec_contextOpen hc hv hd ho hf, ?_⟩
    generalize openContext c (commitAt 0 (0x8000FC + c * 0x100) s) = t at hleaves ⊢
    obtain ⟨hopened, hkey, hnext, hseq, hcom, hties, hdisabled, hfab⟩ := hleaves
    refine ⟨?_, rd_commitDone_status 0 _ _ (by decide), hkey, hnext, hseq, hcom, hties, hdisabled,
      congrArg (·.launches) hfab⟩
    rw [(commitDone_ctxSteady _ _).ctxOpen_eq]
    unfold ctxOpen
    rw [hopened]
    simp [hc]
  · obtain ⟨hcause, hstate, hclock⟩ := teardown_effect 0x0630 [] hopen
    obtain ⟨hlaunches, hjobs, hregs, -⟩ := teardown_ends 0x0630 [] hopen
    exact ⟨_, rfl, hstate, hcause, hlaunches, hjobs, hregs, hclock⟩
  · have hc := ctxOpen_lt hopen
    have hopen' := ((commitAt_ctxSteady (0x8000FC + c * 0x100) s).ctxOpen_eq c).trans hopen
    have hleaves := closeContext_effect hopen'
    refine ⟨_, exec_contextClose hc hv hd ho, ?_⟩
    generalize closeContext c (commitAt 0 (0x8000FC + c * 0x100) s) = t at hleaves ⊢
    obtain ⟨hstate, hkey, hlaunches, hseq⟩ := hleaves
    exact ⟨((commitDone_ctxSteady _ _).state c hc).trans hstate, hkey, hlaunches, hseq, rd_commitDone_status 0 _ _ (by decide)⟩
  · have hleaves := hstApply_effect (commitAt 0 0x80403C s)
    have hqueue := (hstApply_dawnKept (commitAt 0 0x80403C s)).queue
    refine ⟨_, exec_hstCommit hv hd hf, ?_⟩
    generalize hstApply (commitAt 0 0x80403C s) = t at hleaves hqueue ⊢
    obtain ⟨hcom, hopen, hfab, hties, hclock⟩ := hleaves
    exact ⟨hcom, hopen, hqueue, rd_commitDone_status 0 _ _ (by decide), hfab, hties, hclock⟩

end Sys2Proof.Machine
end

section
namespace Sys2Proof.Machine

open Reg

/-! ## What reports keep of the rings -/

/-- From s to t a ring changes in nothing but why it stopped and where it resumes (R313, R314). -/
def OnlyStops (s t : State) : Prop :=
  ∀ c r, ringOf t c r = { ringOf s c r with cause := (ringOf t c r).cause, resume := (ringOf t c r).resume }

namespace OnlyStops

variable {s t u : State}

protected theorem refl (s : State) : OnlyStops s s := fun _ _ => rfl

protected theorem trans (h : OnlyStops s t) (g : OnlyStops t u) : OnlyStops s u := by
  intro c r
  rw [g c r, h c r]

theorem foldl {α : Type} (f : State → α → State) (l : List α) (hf : ∀ x a, OnlyStops x (f x a)) (s : State) :
    OnlyStops s (l.foldl f s) := by
  induction l generalizing s with
  | nil => exact .refl s
  | cons a r ih => exact (hf s a).trans (ih (f s a))

theorem ite {c : Prop} [Decidable c] (ht : OnlyStops s t) (hu : OnlyStops s u) : OnlyStops s (if c then t else u) := by
  split <;> assumption

theorem iteSnd {α : Type} {c : Prop} [Decidable c] {p q : α × State} (hp : OnlyStops s p.2) (hq : OnlyStops s q.2) :
    OnlyStops s (if c then p else q).2 := by
  split <;> assumption

theorem of_ctxs (h : t.rings.ctxs = s.rings.ctxs) : OnlyStops s t := by
  intro c r
  simp only [ringOf, ctxOf, h]

theorem of_memWork (h : MemWork s t) : OnlyStops s t := of_ctxs (by rw [h.rings])

theorem setCtx {c : Nat} {x : CtxState} (hx : x.rings = (ctxOf s c).rings) : OnlyStops s (Machine.setCtx c x s) := by
  intro d r
  by_cases h : c = d
  · subst h
    simp only [ringOf, ctxOf_setCtx_self, hx]
  · simp only [ringOf, ctxOf_setCtx_ne c d x s h]

theorem toHead (h : OnlyStops s t) (c r : Nat) : (ringOf t c r).head = (ringOf s c r).head := by rw [h c r]

theorem toHold (h : OnlyStops s t) (c r : Nat) : (ringOf t c r).hold = (ringOf s c r).hold := by rw [h c r]

end OnlyStops

@[simp] theorem ringOf_modRing_self (c r : Nat) (f : Ring → Ring) (s : State) :
    ringOf (modRing c r f s) c r = f (ringOf s c r) := by
  simp [ringOf, modRing]

theorem ringOf_modRing_ne {c r d q : Nat} (f : Ring → Ring) (s : State) (h : ¬ (c = d ∧ r = q)) :
    ringOf (modRing c r f s) d q = ringOf s d q := by
  unfold ringOf modRing
  by_cases hc : c = d
  · subst hc
    rw [ctxOf_modCtx_self]
    exact aget_aset_ne _ _ _ _ _ _ (fun hr => h ⟨rfl, hr⟩)
  · unfold modCtx
    rw [ctxOf_setCtx_ne _ _ _ _ hc]

/-- A change of a context beside its rings changes no ring. -/
theorem ringOf_modCtx {c : Nat} {f : CtxState → CtxState} (hf : ∀ x, (f x).rings = x.rings) (s : State) (d r : Nat) :
    ringOf (modCtx c f s) d r = ringOf s d r := by
  unfold ringOf modCtx
  by_cases hc : c = d
  · subst hc
    rw [ctxOf_setCtx_self, hf]
  · rw [ctxOf_setCtx_ne _ _ _ _ hc]

theorem modCtx_onlyStops {c : Nat} {f : CtxState → CtxState} (hf : ∀ x, (f x).rings = x.rings) (s : State) :
    OnlyStops s (modCtx c f s) := .setCtx (hf _)

theorem writeMem_onlyStops (p c a : Nat) (l : List Nat) (s : State) : OnlyStops s (writeMem p c a l s).2 :=
  .of_memWork (writeMem_memWork p c a l s)

theorem notify_onlyStops (a v : Nat) (s : State) : OnlyStops s (notify a v s) := by
  unfold notify
  exact .ite (.ite (.of_ctxs rfl) (.ite (.refl s) (.of_ctxs rfl))) (.of_ctxs rfl)

theorem devWrite_onlyStops (ev : List Nat) (s : State) : OnlyStops s (devWrite ev s) := by
  unfold devWrite
  extract_lets size n st _ flags s1 _ s2
  have hwrite : OnlyStops s s1 := writeMem_onlyStops _ _ _ _ s
  have hcount : OnlyStops s1 (wr HST_DEV_EQ_TAIL.tail 0 (n + 1) s2) := .of_ctxs rfl
  exact .ite (.of_ctxs rfl) ((hwrite.trans hcount).trans (notify_onlyStops _ _ _))

theorem devEvent_onlyStops (ev : List Nat) (s : State) : OnlyStops s (devEvent ev s) := by
  unfold devEvent
  exact .ite (devWrite_onlyStops ev s) (.ite (.of_ctxs rfl) (.of_ctxs rfl))

theorem forward_onlyStops (a b c d : Nat) (e : Bool) (s : State) : OnlyStops s (forward a b c d e s) := by
  unfold forward
  exact .ite (.of_ctxs rfl) (.refl s)

theorem ctxEvent_onlyStops (c : Nat) (ev : List Nat) (s : State) : OnlyStops s (ctxEvent c ev s).2 := by
  unfold ctxEvent
  extract_lets x st flags w
  have hwork : MemWork s w.2 := writeMem_memWork _ _ _ _ s
  have hrings : x.rings = (ctxOf w.2 c).rings := by
    unfold ctxOf
    rw [hwork.rings]
    rfl
  have hdropped : OnlyStops s (setCtx c { x with dropped := aset x.dropped st true false } s) := .setCtx rfl
  exact .iteSnd (hdropped.trans (.of_ctxs rfl))
     (.iteSnd (.of_memWork hwork) ((OnlyStops.of_memWork hwork).trans (.setCtx hrings)))

theorem eventRaw_onlyStops (st die ctx unit sev : Nat) (p : List Nat) (s : State) :
    OnlyStops s (eventRaw st die ctx unit sev p s).2 := by
  unfold eventRaw
  extract_lets ev s1
  have hdev : OnlyStops s s1 := (devEvent_onlyStops ev s).trans (forward_onlyStops _ _ _ _ _ _)
  exact .iteSnd (hdev.trans (ctxEvent_onlyStops _ _ _)) hdev

/-- The cause of a stop and the count at which a restart resumes are all that a stop sets in a ring. -/
theorem modRing_onlyStops (c r cause resume : Nat) (s : State) :
    OnlyStops s (modRing c r (fun x => { x with cause := cause, resume := resume }) s) := by
  intro d q
  by_cases h : c = d ∧ r = q
  · obtain ⟨rfl, rfl⟩ := h
    rw [ringOf_modRing_self]
  · rw [ringOf_modRing_ne _ s h]

theorem stopRaw_onlyStops (c r cause resume : Nat) (s : State) : OnlyStops s (stopRaw c r cause resume s).2 := by
  unfold stopRaw
  extract_lets s1
  have hstop : OnlyStops (modRing c r (fun x => { x with cause := cause, resume := resume }) s) s1 := .of_ctxs rfl
  exact ((modRing_onlyStops c r cause resume s).trans hstop).trans (eventRaw_onlyStops _ _ _ _ _ _ _)

theorem stopRings_onlyStops (c cause : Nat) (s : State) : OnlyStops s (stopRings c cause s) := by
  unfold stopRings
  exact (OnlyStops.foldl _ _ (fun x _ => .ite (stopRaw_onlyStops _ _ _ _ x) (.refl x)) s).trans (writeMem_onlyStops _ _ _ _ _)

theorem writeEcho_onlyStops (c : Nat) (s : State) : OnlyStops s (writeEcho c s) := by
  unfold writeEcho
  exact .ite ((writeMem_onlyStops _ _ _ _ s).trans (stopRings_onlyStops _ _ _)) (writeMem_onlyStops _ _ _ _ s)

theorem event_onlyStops (st die ctx unit sev : Nat) (p : List Nat) (s : State) :
    OnlyStops s (event st die ctx unit sev p s) := by
  have hraw := eventRaw_onlyStops st die ctx unit sev p s
  unfold event
  exact .ite (hraw.trans (stopRings_onlyStops _ _ _)) (.ite (hraw.trans (writeEcho_onlyStops _ _)) hraw)

/-- A completion advances no submission ring and holds or frees none. -/
theorem finishDesc_onlyStops (c ring count : Nat) (raw : List Nat) (d : Done) (s : State) :
    OnlyStops s (finishDesc c ring count raw d s) := by
  have hslot : OnlyStops s (modCtx c (fun x => { x with reserved := x.reserved - 1 }) (withoutDesc c ring count s)) :=
    OnlyStops.trans (t := withoutDesc c ring count s) (.of_ctxs rfl) (modCtx_onlyStops (by intro; rfl) _)
  have hwrite := fun a l => hslot.trans (writeMem_onlyStops 72 c a l _)
  refine .ite (.ite ((hwrite _ _).trans (stopRings_onlyStops _ _ _)) ?_) hslot
  refine OnlyStops.trans ?_ (writeEcho_onlyStops _ _)
  exact ((hwrite _ _).trans (modCtx_onlyStops (by intro; rfl) _)).trans (.ite (notify_onlyStops _ _ _) (.refl _))

end Sys2Proof.Machine
end

section
namespace Sys2Proof.Machine

open Reg

/-! ## Reports leave the links and the work of the rings alone -/

/-- A register that is no port's state: those stand at multiples of 0x40 and begin at bit 0 (R428). -/
def linkFree (k : Nat) : Prop := k % 0x1000 ≠ 0

theorem linkFree_signalKey (k : Nat) (h : signalKey k) : linkFree k := by
  rcases h with (rfl | rfl | rfl | ⟨d, rfl⟩ | ⟨c, -, rfl⟩) | ⟨c, rfl⟩ | ⟨d, rfl⟩
  all_goals
    simp only [linkFree, fkey, dieBase, HST_EVT_DROP_COUNT.drops, HST_DEV_EQ_TAIL.tail, PLB_PORT_STATE.over_rate,
      HBM_CRC_RETRY_COUNT.retries, HST_CTX_STATE.stopped, TIE_SAT_COUNT.saturations]
    omega

theorem linkFree_reportKey (k : Nat) (h : reportKey k) : linkFree k := linkFree_signalKey k (.inl h)

theorem linkFree_overRate (port : Nat) : linkFree (fkey PLB_PORT_STATE.over_rate (port * 16)) := by
  simp only [linkFree, fkey, PLB_PORT_STATE.over_rate]
  omega

theorem linkFree_retryKey (k : Nat) (h : retryKey k) : linkFree k :=
  linkFree_reportKey k (reportKey_retry k h)

/-- Every die is reached as before where no port's state changes (R20, R412). -/
theorem reach_of_live {s t : State} (hdie : t.partialDie = s.partialDie) (hstep : t.partialStep = s.partialStep)
    (hlive : ∀ f a, ¬ linkFree (fkey f a) → rd t f a = rd s f a) (a b : Nat) : reach t a b = reach s a b := by
  refine reach_congr hdie hstep (fun n p _ => hlive _ _ ?_) (fun n => hlive _ _ ?_) a b
  · simp only [linkFree, fkey, portAt, dieBase, MTR_PORT_STATUS.state]
    omega
  · simp only [linkFree, fkey, MTR_HUB_PORT_STATUS.state]
    omega

theorem Quiet.toReach {S : Nat → Prop} {s t : State} (h : Quiet S s t) (hS : ∀ k, S k → linkFree k) (a b : Nat) :
    reach t a b = reach s a b :=
  reach_of_live h.toPartialDie h.toPartialStep (fun f a hf => h.toRd f a (fun x => hf (hS _ x))) a b

/-- From s to t the work of the rings stays: what is fetched and on its way, the Bond store, the fabric, the Sieve and the
routes. The contexts' own counts and rings, and what is reported, may change. -/
structure WorkKept (s t : State) : Prop where
  rings : t.rings = { s.rings with ctxs := t.rings.ctxs, devDropped := t.rings.devDropped, devSeq := t.rings.devSeq,
                                   dawnQueue := t.rings.dawnQueue, irqs := t.rings.irqs }
  fab : t.fab = s.fab
  sieve : t.sieve = s.sieve
  reach : ∀ a b, reach t a b = reach s a b

namespace WorkKept

variable {s t u : State}

protected theorem refl (s : State) : WorkKept s s := ⟨rfl, rfl, rfl, fun _ _ => rfl⟩

protected theorem trans (h : WorkKept s t) (g : WorkKept t u) : WorkKept s u where
  rings := by
    have h1 := h.rings
    have g1 := g.rings
    rw [g1, h1]
  fab := g.fab.trans h.fab
  sieve := g.sieve.trans h.sieve
  reach := fun a b => (g.reach a b).trans (h.reach a b)

theorem toDescs (h : WorkKept s t) : t.rings.descs = s.rings.descs := by rw [h.rings]
theorem toOps (h : WorkKept s t) : t.rings.ops = s.rings.ops := by rw [h.rings]
theorem toTies (h : WorkKept s t) : t.rings.ties = s.rings.ties := by rw [h.rings]
theorem toStore (h : WorkKept s t) : t.rings.store = s.rings.store := by rw [h.rings]
theorem toSieveIn (h : WorkKept s t) : t.rings.sieveIn = s.rings.sieveIn := by rw [h.rings]
theorem toRegJobs (h : WorkKept s t) : t.rings.regJobs = s.rings.regJobs := by rw [h.rings]

end WorkKept

theorem modCtx_workKept (c : Nat) (f : CtxState → CtxState) (s : State) : WorkKept s (modCtx c f s) :=
  ⟨rfl, rfl, rfl, fun _ _ => rfl⟩

theorem modRing_workKept (c r : Nat) (f : Ring → Ring) (s : State) : WorkKept s (modRing c r f s) := modCtx_workKept c _ s

theorem holdRing_workKept (c r : Nat) (h : Hold) (s : State) : WorkKept s (holdRing c r h s) := modRing_workKept c r _ s

/-- From s to t memory has served the ring engine: the work of the rings stays, and the rings but for their stops. -/
structure Served (s t : State) : Prop extends WorkKept s t where
  stops : OnlyStops s t

namespace Served

variable {s t u : State}

protected theorem refl (s : State) : Served s s := ⟨.refl s, .refl s⟩

protected theorem trans (h : Served s t) (g : Served t u) : Served s u :=
  ⟨h.toWorkKept.trans g.toWorkKept, h.stops.trans g.stops⟩

theorem ite {c : Prop} [Decidable c] (ht : Served s t) (hu : Served s u) : Served s (if c then t else u) := by
  split <;> assumption

theorem of_quiet {S : Nat → Prop} (h : Quiet S s t) (hS : ∀ k, S k → linkFree k) (ho : OnlyStops s t) : Served s t :=
  ⟨⟨h.rings, h.toFab, h.toSieve, h.toReach hS⟩, ho⟩

/-- A change of memory and registers alone that leaves the ports. -/
theorem of_rings (hr : t.rings = s.rings) (hf : t.fab = s.fab) (hv : t.sieve = s.sieve)
    (hp : ∀ a b, Machine.reach t a b = Machine.reach s a b) : Served s t :=
  ⟨⟨by rw [hr], hf, hv, hp⟩, .of_ctxs (by rw [hr])⟩

end Served

theorem setMem_served (m : MemState) (s : State) : Served s { s with mem := m } := .of_rings rfl rfl rfl (fun _ _ => rfl)

theorem wr_served {f : Field} {a : Nat} (h : linkFree (fkey f a)) (v : Nat) (s : State) : Served s (wr f a v s) :=
  .of_rings rfl rfl rfl (reach_of_live rfl rfl (fun _ _ hg => rd_wr_ne _ _ _ _ _ _ (fun e => hg (e ▸ h))))

theorem event_served (st die ctx unit sev : Nat) (p : List Nat) (s : State) : Served s (event st die ctx unit sev p s) :=
  .of_quiet (event_quiet _ _ _ _ _ _ s) linkFree_reportKey (event_onlyStops _ _ _ _ _ _ s)

theorem writeEcho_served (c : Nat) (s : State) : Served s (writeEcho c s) :=
  .of_quiet (writeEcho_signal c s) linkFree_signalKey (writeEcho_onlyStops c s)

/-! ## What accesses have met -/

theorem foldl_found {α : Type} (f : State → α → State) (l : List α) (hf : ∀ x a, (f x a).mem.found = x.mem.found)
    (s : State) : (l.foldl f s).mem.found = s.mem.found := by
  induction l generalizing s with
  | nil => rfl
  | cons a r ih => exact (ih _).trans (hf s a)

theorem setLineKey_found (l k : Nat) (s : State) : (setLineKey l k s).mem.found = s.mem.found := rfl

theorem rekeyLine_found (l k : Nat) (s : State) : (rekeyLine l k s).mem.found = s.mem.found := by
  unfold rekeyLine
  split
  · rfl
  · rw [setLineKey_found]
    exact foldl_found (fun s (e : Nat × Byte) => putByte e.1 e.2 s) _ (fun _ _ => rfl) s

theorem putPhys_found (p k : Nat) (l : List Nat) (s : State) : (putPhys p k l s).mem.found = s.mem.found := by
  unfold putPhys
  extract_lets lines s1 s2
  have hkeys : s1.mem.found = s.mem.found := foldl_found _ _ (fun x a => rekeyLine_found a k x) s
  have hbytes : s2.mem.found = s1.mem.found := foldl_found _ _ (by intros; rfl) s1
  refine (foldl_found _ _ (fun x _ => ?_) s2).trans (hbytes.trans hkeys)
  split <;> rfl

theorem drainOverlap_found (p n : Nat) (s : State) : (drainOverlap p n s).mem.found = s.mem.found :=
  foldl_found _ _ (fun x (w : QWrite) => putPhys_found w.phys w.key w.data x) s

theorem drainRange_found (a n : Nat) (s : State) : (drainRange a n s).mem.found = s.mem.found :=
  foldl_found _ _ (fun x _ => drainOverlap_found _ _ x) s

theorem policeRange_found (p a n : Nat) (s : State) : (policeRange p a n s).mem.found = s.mem.found := by
  refine foldl_found _ _ (fun x _ => ?_) s
  unfold police
  dsimp only
  split
  · split <;> rfl
  · rfl

theorem skipFresh_found (n : Nat) (s : State) : (skipFresh n s).mem.found = s.mem.found := rfl

theorem miscorrect_found (l : Nat) (s : State) : (miscorrect l s).mem.found = s.mem.found := by
  unfold miscorrect
  rw [skipFresh_found]
  exact foldl_found _ _ (by intros; rfl) s

theorem meetCode_found (l : Nat) (s : State) : (meetCode l s).2.mem.found = s.mem.found := by
  unfold meetCode
  split
  · rfl
  · split
    · rfl
    · split
      · rfl
      · rfl
      · rfl
      · dsimp only
        split
        · rfl
        · exact miscorrect_found l _

theorem meetLink_found (k pc : Nat) (s : State) : (meetLink k pc s).2.mem.found = s.mem.found := by
  unfold meetLink
  dsimp only
  split <;> rfl

theorem meetAt_found (k l : Nat) (r : Bool) (s : State) : (meetAt k l r s).2.mem.found = s.mem.found := by
  unfold meetAt
  dsimp only
  split
  · exact meetLink_found _ _ s
  · split
    · exact (meetCode_found _ _).trans (meetLink_found _ _ s)
    · exact meetLink_found _ _ s

/-- Nothing in a list of what accesses have met is an uncorrectable line. -/
def noneBad (l : List (Nat × Nat)) : Prop := ∀ f ∈ l, f.2 < 2

/-- A line that is read and is not uncorrectable adds at most a correction and a link whose retries are exhausted. -/
theorem meetLine_noneBad {a : Nat} {s : State} (hs : noneBad s.mem.found) (h : (meetLine a true s).1 = false) :
    noneBad (meetLine a true s).2.mem.found := by
  have hfound := (meetAt_found (stackIdx s a) (physOf s a / 64) true (drainOverlap (physOf s a) 64 s)).trans
    (drainOverlap_found (physOf s a) 64 s)
  unfold meetLine at h ⊢
  dsimp only at h ⊢
  rw [if_pos rfl] at h ⊢
  generalize meetAt (stackIdx s a) (physOf s a / 64) true (drainOverlap (physOf s a) 64 s) = m at h hfound ⊢
  simp only [h, Bool.false_and, Bool.false_eq_true, if_false, hfound, List.append_nil]
  intro f hf
  simp only [List.mem_append] at hf
  rcases hf with (hf | hf) | hf
  · exact hs f hf
  · split at hf <;> simp_all
  · split at hf <;> simp_all

/-- Reads of lines of which none is uncorrectable. -/
theorem meetReads_noneBad {l : List Nat} {s : State} (hs : noneBad s.mem.found) (h : (meetReads l s).1 = none) :
    noneBad (meetReads l s).2.mem.found := by
  induction l generalizing s with
  | nil => exact hs
  | cons a r ih =>
    simp only [meetReads] at h ⊢
    split at h
    · cases h
    · next hgood =>
      rw [if_neg hgood]
      exact ih (meetLine_noneBad hs (Bool.eq_false_iff.mpr hgood)) h

theorem meetReads_served (l : List Nat) (s : State) : Served s (meetReads l s).2 := by
  induction l generalizing s with
  | nil => exact .refl s
  | cons a r ih =>
    have hline : Served s (meetLine a true s).2 :=
      .of_quiet (meetLine_quiet a true s linkFree_retryKey) (fun _ h => h) (.of_ctxs (by rw [meetLine_rings]))
    simp only [meetReads]
    split
    · exact hline
    · exact hline.trans (ih _)

/-! ## Reads -/

theorem linkFree_health (n : Nat) : linkFree (fkey FAB_HEALTH_HBM_CE.hbm_corrected (n * 0x80)) := by
  simp only [linkFree, fkey, FAB_HEALTH_HBM_CE.hbm_corrected]
  omega

theorem linkFree_ceCount (d : Nat) : linkFree (fkey HBM_CE_COUNT.corrected (dieBase d)) := by
  simp only [linkFree, fkey, dieBase, HBM_CE_COUNT.corrected]
  omega

/-- The report of a corrected line counts it and writes at most an event (R361). -/
theorem corrected_served (a : Nat) (s : State) : Served s (corrected a s) := by
  unfold corrected
  extract_lets k frame n own s0 _ s1
  have hown : Served s s0 := .ite (wr_served (linkFree_health own) _ s) (.refl s)
  have hcount : Served s s1 := (hown.trans (setMem_served _ s0)).trans (wr_served (linkFree_ceCount (k + 1)) _ _)
  exact .ite ((hcount.trans (setMem_served _ s1)).trans (event_served _ _ _ _ _ _ _)) hcount

theorem foldl_report_served (causing : List (Nat × Nat × Nat)) {l : List (Nat × Nat)} (hl : noneBad l) (s : State) :
    Served s (l.foldl (report false causing) s) := by
  induction l generalizing s with
  | nil => exact .refl s
  | cons f r ih =>
    have hreport : Served s (report false causing s f) := by
      have hf : f.2 < 2 := hl f List.mem_cons_self
      obtain ⟨a, k⟩ := f
      obtain rfl | rfl : k = 0 ∨ k = 1 := by
        dsimp only at hf
        omega
      · unfold report
        exact event_served _ _ _ _ _ _ s
      · exact corrected_served a s
    exact hreport.trans (ih (fun g hg => hl g (List.mem_cons_of_mem _ hg)) _)

/-- Where no uncorrectable line is to be reported, the reports tear no context down. -/
theorem settleFound_served (causing : List (Nat × Nat × Nat)) {s : State} (h : noneBad s.mem.found) :
    Served s (settleFound false causing s) :=
  (setMem_served _ s).trans (foldl_report_served causing h _)

theorem ueStatus_ne_zero (s : State) (a : Nat) : ueStatus s a ≠ 0 := by
  unfold ueStatus
  split <;> decide

/-- Where nothing waits to be reported, nothing is. -/
theorem settleFound_nil (scrub : Bool) (causing : List (Nat × Nat × Nat)) {s : State} (h : s.mem.found = []) :
    settleFound scrub causing s = s := by
  unfold settleFound
  rw [h, List.foldl_nil, ← h]

theorem readMet_served {port ctx a n : Nat} {causing : List (Nat × Nat × Nat)} {s : State} (hs : s.mem.found = [])
    (h : (readMet port ctx a n causing s).1 = 0) : Served s (readMet port ctx a n causing s).2.2 := by
  unfold readMet at h ⊢
  rw [settleFound_nil false [] hs] at h ⊢
  dsimp only at h ⊢
  split at h
  · next hgood =>
    exact (meetReads_served _ s).trans
      (settleFound_served causing (meetReads_noneBad (by rw [hs]; exact fun _ hf => absurd hf List.not_mem_nil) hgood))
  · exact absurd h (ueStatus_ne_zero _ _)

/-- The state in which the lines of a read of HBM are met. -/
theorem policed_served (port a n : Nat) (s : State) : Served s (policeRange port a n (drainRange a n s)) := by
  have hquiet : Quiet linkFree s (policeRange port a n (drainRange a n s)) :=
    (Quiet.foldl _ _ (fun x _ => drainOverlap_quiet _ _ x) s).trans (policeRange_quiet _ _ _ _ (linkFree_overRate port))
  exact .of_quiet hquiet (fun _ h => h) (.of_memWork ((drainRange_memWork a n s).trans (policeRange_memWork port a n _)))

/-- A read that is served, with nothing to be reported of accesses before it, serves the ring engine. -/
theorem readMem_served {port ctx a n : Nat} {causing : List (Nat × Nat × Nat)} {s : State} (hs : s.mem.found = [])
    (h : (readMem port ctx a n causing s).1 = 0) : Served s (readMem port ctx a n causing s).2.2 := by
  have hpoliced := policed_served port a n s
  have hfound : (policeRange port a n (drainRange a n s)).mem.found = [] :=
    (policeRange_found _ _ _ _).trans ((drainRange_found a n s).trans hs)
  unfold readMem at h ⊢
  split
  · next hst =>
    simp only [hst] at h
    split at h
    · next hhbm =>
      rw [if_pos hhbm]
      dsimp only at h ⊢
      split at h
      · next hsound =>
        rw [if_pos hsound]
        exact hpoliced
      · next hsound =>
        rw [if_neg hsound]
        exact hpoliced.trans (readMet_served hfound h)
    · next hhbm =>
      rw [if_neg hhbm]
      split
      · exact setMem_served _ s
      · exact .refl s
  · exact .refl s

/-- A read of a memory to which nothing has befallen, whatever it answers, serves the ring engine and leaves memory so. -/
theorem readMem_sound {s : State} (hs : sound s = true) (port ctx a n : Nat) (causing : List (Nat × Nat × Nat)) :
    Served s (readMem port ctx a n causing s).2.2 ∧ sound (readMem port ctx a n causing s).2.2 = true := by
  have hsound := ((drainRange_memWork a n s).trans (policeRange_memWork port a n _)).sound hs
  unfold readMem
  split
  · split
    · dsimp only
      rw [if_pos hsound]
      exact ⟨policed_served port a n s, hsound⟩
    · split
      · exact ⟨setMem_served _ s, hs⟩
      · exact ⟨.refl s, hs⟩
  · exact ⟨.refl s, hs⟩

end Sys2Proof.Machine
end

section
namespace Sys2Proof.Machine

open Reg

/-! ## The fetch of a descriptor -/

/-- A state in which a ring's next descriptor counts as fetched: its slot reserved, sq_head advanced (R289, R307). -/
def fetchNoted (c r : Nat) (s : State) : State :=
  modCtx c (fun x => { x with reserved := x.reserved + 1 }) (modRing c r (fun x => { x with head := (x.head + 1) % 2 ^ 32 }) s)

theorem noteFetch_served (c r : Nat) (s : State) : Served (fetchNoted c r s) (noteFetch c r s) := writeEcho_served c _

theorem head_fetchNoted (c r : Nat) (s : State) :
    (ringOf (fetchNoted c r s) c r).head = ((ringOf s c r).head + 1) % 2 ^ 32 := by
  unfold fetchNoted
  rw [ringOf_modCtx (by intro; rfl), ringOf_modRing_self]

theorem fetchNoted_workKept (c r : Nat) (s : State) : WorkKept s (fetchNoted c r s) :=
  (modRing_workKept c r _ s).trans (modCtx_workKept c _ _)

/-- From s to t ring r of context c has fetched a descriptor, and the work of the rings stays. -/
structure Fetched (c r : Nat) (s t : State) : Prop extends WorkKept s t where
  head : (ringOf t c r).head = ((ringOf s c r).head + 1) % 2 ^ 32

theorem noteFetch_fetched {s s0 : State} (h : Served s s0) (c r : Nat) : Fetched c r s (noteFetch c r s0) where
  toWorkKept := h.toWorkKept.trans ((fetchNoted_workKept c r s0).trans (noteFetch_served c r s0).toWorkKept)
  head := by rw [(noteFetch_served c r s0).stops.toHead, head_fetchNoted, h.stops.toHead]

/-- In s the next descriptor of ring r of context c reads as `raw`, which leaves s0, and passes every check of R341. -/
structure FetchPasses (s s0 : State) (c r : Nat) (raw : List Nat) : Prop where
  awake : dieSilent s 0 = false
  settled : s.mem.found = []
  served : readMem 72 c (nextDesc s c r) 64 [] s = (0, raw, s0)
  passes : descCheck (noteFetch c r s0) c raw = 0

theorem FetchPasses.read_served {s s0 : State} {c r : Nat} {raw : List Nat} (h : FetchPasses s s0 c r raw) : Served s s0 := by
  have hread := readMem_served (port := 72) (ctx := c) (a := nextDesc s c r) (n := 64) (causing := []) h.settled
  rw [h.served] at hread
  exact hread rfl

theorem FetchPasses.fetched {s s0 : State} {c r : Nat} {raw : List Nat} (h : FetchPasses s s0 c r raw) :
    Fetched c r s (noteFetch c r s0) := noteFetch_fetched h.read_served c r

/-- A memory to which nothing has befallen stays so. -/
theorem FetchPasses.sound {s s0 : State} {c r : Nat} {raw : List Nat} (h : FetchPasses s s0 c r raw) (hs : sound s = true) :
    sound (noteFetch c r s0) = true := by
  have hread := (readMem_sound hs 72 c (nextDesc s c r) 64 []).2
  rw [h.served] at hread
  exact (writeEcho_calm c (fetchNoted c r s0)).sound hread

/-- A descriptor that passes goes on to its opcode's own effect. -/
theorem fetchChecked_passes {s s0 : State} {c r : Nat} {raw : List Nat} (h : FetchPasses s s0 c r raw)
    (k : Nat → List Nat → State → State) :
    fetchChecked c r k s = k (ringOf s c r).head raw (noteFetch c r s0) := by
  unfold fetchChecked fetchDesc
  simp only [h.served, h.awake, h.passes, ne_eq, not_true_eq_false, if_false, Bool.false_eq_true]

/-! ## What a fetched descriptor does -/

theorem tieDesc_reached {kind : TieKind} {c r n : Nat} {raw : List Nat} {s : State}
    (h : reach s 0 (tieHome (fld raw 4 4 % 2 ^ 17)) = true) :
    tieDesc kind c r n raw s =
      issueTie ⟨kind, fld raw 4 4 % 2 ^ 17, if kind = .signal then fld raw 8 4 else 0, .desc c r n, c, 0⟩
        (keepDesc c r n raw .issued s) := by
  unfold tieDesc
  rw [if_pos h]

theorem waitDesc_reached {c r n word value us : Nat} {raw : List Nat} {s : State}
    (h : reach s 0 (tieHome (word % 2 ^ 17)) = true) :
    waitDesc c r n raw word value us s =
      issueTie ⟨if bit word 31 then .waitEq else .waitGe, word % 2 ^ 17, value, .desc c r n, c, us⟩
        (holdRing c r .tieWait (keepDesc c r n raw .waiting s)) := by
  unfold waitDesc
  exact if_neg (by rw [h]; exact Bool.false_ne_true)

theorem acceptWork_waits {c r n : Nat} {raw : List Nat} (s : State) (h : bit (raw.getD 1 0) 2 = true) :
    acceptWork c r n raw s = waitDesc c r n raw (fld raw 40 4) (fld raw 44 4) (fld raw 36 4) s := if_pos h

theorem acceptWork_forwards {c r n : Nat} {raw : List Nat} (s : State) (h : bit (raw.getD 1 0) 2 = false) :
    acceptWork c r n raw s = sendDesc c r n raw (keepDesc c r n raw .forwarded s) :=
  if_neg (by rw [h]; exact Bool.false_ne_true)

/-- A state in which a descriptor waits for a place in the Sieve's queue. -/
def sieveAsked (c r n : Nat) (s : State) : State := { s with rings := { s.rings with sieveIn := s.rings.sieveIn ++ [(c, r, n)] } }

/-- A SIEVE without a wait waits for the Sieve's queue (R308). -/
theorem acceptWork_sieve {c r n : Nat} {raw : List Nat} (s : State) (hop : raw.getD 0 0 = 2)
    (h : bit (raw.getD 1 0) 2 = false) :
    acceptWork c r n raw s = holdRing c r .sieve (sieveAsked c r n (keepDesc c r n raw .forwarded s)) :=
  (acceptWork_forwards s h).trans (if_neg (by rw [hop]; decide))

/-- The launch that a LAUNCH becomes: the Courses of its set are queued, one entry each (R309). -/
def launchFor (c r n id : Nat) (raw : List Nat) : Launch :=
  { id := id, ctx := c, ring := r, count := n, raw := raw
    insts := ((List.range 64).filter (bit (fld raw 8 8))).map (fun g => ({ course := g } : Inst)) }

/-- A LAUNCH without a wait, all of whose Course dies are reached, becomes a launch with the next number (R309). -/
theorem acceptWork_launch {c r n : Nat} {raw : List Nat} {s : State} (hop : raw.getD 0 0 = 1)
    (hw : bit (raw.getD 1 0) 2 = false)
    (h : ((List.range 64).filter (bit (fld raw 8 8))).all (fun g => reach s 0 (courseDie g)) = true) :
    acceptWork c r n raw s = { keepDesc c r n raw .forwarded s with fab := { s.fab with
      launches := s.fab.launches ++ [launchFor c r n s.fab.nextLaunch raw], nextLaunch := s.fab.nextLaunch + 1 } } :=
  (acceptWork_forwards s hw).trans ((if_pos hop).trans (if_pos h))

/-- Reading an image reads memory alone (R303). -/
theorem readImage_served {s : State} (hs : sound s = true) (c r n a : Nat) : Served s (readImage c r n a s).2 := by
  obtain ⟨hheader, hsound⟩ := readMem_sound hs 73 c a 128 []
  have himage := fun size => (readMem_sound hsound 73 c a size []).1
  unfold readImage
  dsimp only
  split
  · exact .refl s
  · split
    · exact hheader
    · split
      · exact hheader
      · exact hheader.trans (himage _)

/-! ## The commands that fetch -/

section

variable {s s0 : State} {c r : Nat} {raw : List Nat}

theorem exec_fence_passes (h : FetchPasses s s0 c r raw) (hn : nextIs s c r (· == 3) = true) :
    exec (.fence c r) s =
      .next (holdRing c r .fence (keepDesc c r (ringOf s c r).head raw .held (noteFetch c r s0))) := by
  change execFence c r s = _
  unfold execFence
  rw [if_pos hn, fetchChecked_passes h]

theorem exec_tieSignal_passes (h : FetchPasses s s0 c r raw) (hn : nextIs s c r (· == 4) = true) :
    exec (.tieSignal c r) s = .next (tieDesc .signal c r (ringOf s c r).head raw (noteFetch c r s0)) := by
  change execTieSignal c r s = _
  unfold execTieSignal
  rw [if_pos hn, fetchChecked_passes h]

theorem exec_tieReset_passes (h : FetchPasses s s0 c r raw) (hn : nextIs s c r (· == 6) = true) :
    exec (.tieReset c r) s = .next (tieDesc .reset c r (ringOf s c r).head raw (noteFetch c r s0)) := by
  change execTieReset c r s = _
  unfold execTieReset
  rw [if_pos hn, fetchChecked_passes h]

theorem exec_tieWait_passes (h : FetchPasses s s0 c r raw) (hn : nextIs s c r (· == 5) = true) :
    exec (.tieWait c r) s = .next (waitDesc c r (ringOf s c r).head raw (fld raw 4 4) (fld raw 8 4) (fld raw 12 4)
      (noteFetch c r s0)) := by
  change execTieWait c r s = _
  unfold execTieWait
  rw [if_pos hn, fetchChecked_passes h]

theorem exec_sieve_passes (h : FetchPasses s s0 c r raw) (hn : nextIs s c r (· == 2) = true) :
    exec (.sieve c r) s = .next (acceptWork c r (ringOf s c r).head raw (noteFetch c r s0)) := by
  change execSieve c r s = _
  unfold execSieve
  rw [if_pos hn, fetchChecked_passes h]

/-- A predicate on opcodes that is weaker accepts the next descriptor too. -/
theorem nextIs_mono {p q : Nat → Bool} (hpq : ∀ n, p n = true → q n = true) (h : nextIs s c r p = true) :
    nextIs s c r q = true := by
  unfold nextIs at h ⊢
  simp only [Bool.and_eq_true, Bool.or_eq_true] at h ⊢
  exact ⟨h.1, h.2.imp_right (hpq _)⟩

theorem exec_launch_passes (h : FetchPasses s s0 c r raw) (hn : nextIs s c r (· == 1) = true) :
    exec (.launch c r) s = .next (acceptWork c r (ringOf s c r).head raw (noteFetch c r s0)) := by
  have hn' : nextIs s c r (fun op => op == 1 || op == 0 || decide (8 < op)) = true :=
    nextIs_mono (fun n hop => by simp [hop]) hn
  change execLaunch c r s = _
  unfold execLaunch
  rw [if_pos hn', fetchChecked_passes h]

theorem exec_bondRegister_passes (h : FetchPasses s s0 c r raw) (hn : nextIs s c r (· == 7) = true) {j : RegJob} {s3 : State}
    (hj : readImage c r (ringOf s c r).head (fld raw 8 6) (holdRing c r .register
      (keepDesc c r (ringOf s c r).head raw .held (noteFetch c r s0))) = (j, s3)) :
    exec (.bondRegister c r) s = .next { s3 with rings := { s3.rings with regJobs := s3.rings.regJobs ++ [j] } } := by
  change execBondRegister c r s = _
  unfold execBondRegister
  rw [if_pos hn, fetchChecked_passes h]
  dsimp only
  rw [hj]

theorem exec_bondRelease_passes (h : FetchPasses s s0 c r raw) (hn : nextIs s c r (· == 8) = true)
    (hown : (ownSlot s c (fld raw 4 4)).isSome = true) :
    exec (.bondRelease c r) s =
      .next (holdRing c r .release (keepDesc c r (ringOf s c r).head raw .held (noteFetch c r s0))) := by
  have hkept : (ownSlot (noteFetch c r s0) c (fld raw 4 4)).isNone = false := by
    unfold ownSlot at hown ⊢
    rw [h.fetched.toStore]
    exact Option.isNone_eq_false_iff.mpr hown
  change execBondRelease c r s = _
  unfold execBondRelease
  rw [if_pos hn, fetchChecked_passes h, hkept]
  rfl

end

/-! ## RingsFetchDescriptors -/

/-- A held ring has the head that it had. -/
theorem head_holdRing (c r : Nat) (h : Hold) (s : State) : (ringOf (holdRing c r h s) c r).head = (ringOf s c r).head := by
  unfold holdRing
  rw [ringOf_modRing_self]

theorem hold_holdRing (c r : Nat) (h : Hold) (s : State) : (ringOf (holdRing c r h s) c r).hold = h := by
  unfold holdRing
  rw [ringOf_modRing_self]

theorem ringOf_issueTie (op : TieOp) (s : State) (c r : Nat) : ringOf (issueTie op s) c r = ringOf s c r := rfl

/-- Settles O20: the fetch leaves everything beside the ring's own count as it was, and the descriptor's own effect follows. -/
theorem ringsFetchDescriptors : Obligations.RingsFetchDescriptors := by
  unfold Obligations.RingsFetchDescriptors
  intro s s0 c r op raw hnext hawake hop hfound hread hpass
  have h : FetchPasses s s0 c r raw := ⟨hawake, hfound, hread, hpass⟩
  have hf := h.fetched
  refine ⟨?fence, ?signal, ?reset, ?wait, ?sieve, ?launchWaits, ?launch, ?register, ?release⟩
  case fence =>
    rintro rfl
    refine ⟨_, exec_fence_passes h hnext, ?_⟩
    generalize noteFetch c r s0 = u at hf ⊢
    have hheld := holdRing_workKept c r .fence (keepDesc c r (ringOf s c r).head raw .held u)
    exact ⟨(head_holdRing _ _ _ _).trans hf.head, hold_holdRing _ _ _ _,
      hheld.toDescs.trans (congrArg (· ++ [_]) hf.toDescs), hheld.toOps.trans hf.toOps, hheld.fab.trans hf.fab⟩
  case signal =>
    rintro rfl hr
    refine ⟨_, (exec_tieSignal_passes h hnext).trans (congrArg _ (tieDesc_reached ((hf.reach _ _).trans hr))), ?_⟩
    generalize noteFetch c r s0 = u at hf ⊢
    exact ⟨hf.head, congrArg (· ++ [_]) hf.toDescs, congrArg (· ++ [_]) hf.toOps, hf.toTies, hf.fab⟩
  case reset =>
    rintro rfl hr
    refine ⟨_, (exec_tieReset_passes h hnext).trans (congrArg _ (tieDesc_reached ((hf.reach _ _).trans hr))), ?_⟩
    generalize noteFetch c r s0 = u at hf ⊢
    exact ⟨hf.head, congrArg (· ++ [_]) hf.toDescs, congrArg (· ++ [_]) hf.toOps, hf.toTies, hf.fab⟩
  case wait =>
    rintro rfl hr
    refine ⟨_, (exec_tieWait_passes h hnext).trans (congrArg _ (waitDesc_reached ((hf.reach _ _).trans hr))), ?_⟩
    generalize noteFetch c r s0 = u at hf ⊢
    have hheld := holdRing_workKept c r .tieWait (keepDesc c r (ringOf s c r).head raw .waiting u)
    rw [ringOf_issueTie]
    exact ⟨(head_holdRing _ _ _ _).trans hf.head, hold_holdRing _ _ _ _,
      hheld.toDescs.trans (congrArg (· ++ [_]) hf.toDescs), congrArg (· ++ [_]) (hheld.toOps.trans hf.toOps),
      hheld.fab.trans hf.fab⟩
  case sieve =>
    rintro rfl hw
    refine ⟨_, (exec_sieve_passes h hnext).trans (congrArg _ (acceptWork_sieve _ hop hw)), ?_⟩
    generalize noteFetch c r s0 = u at hf ⊢
    have hheld := holdRing_workKept c r .sieve
      (sieveAsked c r (ringOf s c r).head (keepDesc c r (ringOf s c r).head raw .forwarded u))
    exact ⟨(head_holdRing _ _ _ _).trans hf.head, hold_holdRing _ _ _ _,
      hheld.toDescs.trans (congrArg (· ++ [_]) hf.toDescs), hheld.toSieveIn.trans (congrArg (· ++ [_]) hf.toSieveIn),
      hheld.sieve.trans hf.sieve, hheld.fab.trans hf.fab⟩
  case launchWaits =>
    rintro rfl hw hr
    refine ⟨_, (exec_launch_passes h hnext).trans
      (congrArg _ ((acceptWork_waits _ hw).trans (waitDesc_reached ((hf.reach _ _).trans hr)))), ?_⟩
    generalize noteFetch c r s0 = u at hf ⊢
    have hheld := holdRing_workKept c r .tieWait (keepDesc c r (ringOf s c r).head raw .waiting u)
    rw [ringOf_issueTie]
    exact ⟨hold_holdRing _ _ _ _, hheld.fab.trans hf.fab, congrArg (· ++ [_]) (hheld.toOps.trans hf.toOps)⟩
  case launch =>
    rintro rfl hw hr
    have hroutes : ((List.range 64).filter (bit (fld raw 8 8))).all
        (fun g => reach (noteFetch c r s0) 0 (courseDie g)) = true := by
      simpa only [hf.reach] using hr
    refine ⟨_, (exec_launch_passes h hnext).trans (congrArg _ (acceptWork_launch hop hw hroutes)), ?_⟩
    generalize noteFetch c r s0 = u at hf ⊢
    refine ⟨hf.head, congrArg (· ++ [_]) hf.toDescs, congrArg (·.nextLaunch + 1) hf.fab, ?_⟩
    exact congrArg (fun f : FabricState => f.launches ++ [launchFor c r (ringOf s c r).head f.nextLaunch raw]) hf.fab
  case register =>
    rintro rfl hs j s3 hj -
    have hsound := h.sound hs
    refine ⟨_, exec_bondRegister_passes h hnext hj, ?_⟩
    generalize noteFetch c r s0 = u at hf hj hsound
    have hheld := holdRing_workKept c r .register (keepDesc c r (ringOf s c r).head raw .held u)
    have himage := readImage_served (s := holdRing c r .register (keepDesc c r (ringOf s c r).head raw .held u)) hsound
      c r (ringOf s c r).head (fld raw 8 6)
    rw [hj] at himage
    have hkept := hheld.trans himage.toWorkKept
    exact ⟨(himage.stops.toHold c r).trans (hold_holdRing _ _ _ _), hkept.toDescs.trans (congrArg (· ++ [_]) hf.toDescs),
      congrArg (· ++ [j]) (hkept.toRegJobs.trans hf.toRegJobs), hkept.toStore.trans hf.toStore, hkept.fab.trans hf.fab⟩
  case release =>
    rintro rfl hown
    refine ⟨_, exec_bondRelease_passes h hnext hown, ?_⟩
    generalize noteFetch c r s0 = u at hf ⊢
    have hheld := holdRing_workKept c r .release (keepDesc c r (ringOf s c r).head raw .held u)
    exact ⟨hold_holdRing _ _ _ _, hheld.toStore.trans hf.toStore, hheld.fab.trans hf.fab,
      hheld.toDescs.trans (congrArg (· ++ [_]) hf.toDescs)⟩

end Sys2Proof.Machine
end

section
namespace Sys2Proof.Machine

open Reg

/-! ## Completions -/

/-- A state in which a ring has been freed and its descriptor has left the list, unreported: its slot is given back (R307). -/
def ringFreed (c r n : Nat) (s : State) : State :=
  modCtx c (fun x => { x with reserved := x.reserved - 1 }) (withoutDesc c r n (holdRing c r .none s))

/-- A completion that succeeds without its cpl flag writes no record (R318). -/
theorem finishDesc_ringFreed {raw : List Nat} (hc : bit (raw.getD 1 0) 0 = false) (c r n : Nat) (s : State) :
    finishDesc c r n raw {} (holdRing c r .none s) = ringFreed c r n s :=
  if_neg (by rw [hc]; simp)

theorem hold_ringFreed (c r n : Nat) (s : State) : (ringOf (ringFreed c r n s) c r).hold = .none := by
  unfold ringFreed
  rw [ringOf_modCtx (by intro; rfl)]
  exact hold_holdRing c r .none s

/-- Beside the contexts' own counts and rings, only the list of the fetched descriptors changes. -/
theorem ringFreed_frame (c r n : Nat) (s : State) : ∃ x, ringFreed c r n s = { s with rings := { s.rings with
    ctxs := x, descs := s.rings.descs.filter (fun x => !(x.ctx == c && x.ring == r && x.count == n)) } } := by
  refine ⟨(ringFreed c r n s).rings.ctxs, ?_⟩
  simp only [ringFreed, modCtx, setCtx, withoutDesc, holdRing, modRing]

/-- A ring that is freed before a completion is free after it. -/
theorem hold_finishDesc_freed (c r n : Nat) (raw : List Nat) (d : Done) (s : State) :
    (ringOf (finishDesc c r n raw d (holdRing c r .none s)) c r).hold = .none := by
  rw [(finishDesc_onlyStops c r n raw d _).toHold, hold_holdRing]

theorem finishDesc_store (c r n : Nat) (raw : List Nat) (d : Done) (s : State) :
    (finishDesc c r n raw d s).rings.store = s.rings.store := by
  rw [(finishDesc_quiet c r n raw d s).rings]
  rfl

/-! ## Operations that arrive at a Tie's home -/

theorem exec_tieOperation_taken {s : State} {h n : Nat} {op : TieOp} {rest : List TieOp}
    (ht : takeOp h n s.rings.ops = some (op, rest)) :
    exec (.tieOperation h n) s =
      .next (tieDescDone op (tieApply op { s with rings := { s.rings with ops := rest } })) := by
  change Host.Outcome.next (tieDeliver h n s) = _
  unfold tieDeliver
  rw [ht]

/-- Where no wait on a Tie may go, its evaluation changes nothing (R325). -/
theorem evalWaits_none {t : Nat} {s : State} (h : ∀ w ∈ s.rings.waits, w.goes s t (tieValue s t) = false) :
    evalWaits t s = s := by
  have hgo : s.rings.waits.filter (fun w => w.goes s t (tieValue s t)) = [] := by
    simpa [List.filter_eq_nil_iff] using h
  have hstay : s.rings.waits.filter (fun w => !w.goes s t (tieValue s t)) = s.rings.waits := by
    simpa [List.filter_eq_self] using h
  unfold evalWaits
  simp only [hgo, hstay, List.map_nil, List.filter_nil, List.isEmpty_nil, if_true, List.filterMap_none, List.append_nil]

/-- An add within 32 bits to a Tie on which no wait may go sets the Tie and nothing else (R322). -/
theorem tieApply_signal {op : TieOp} {s : State} (hk : op.kind = .signal) (hsum : tieValue s op.tie + op.value < 2 ^ 32)
    (hw : s.rings.waits = []) : tieApply op s = setTie op.tie (tieValue s op.tie + op.value) s := by
  have hsat : satTo (tieValue s op.tie + op.value) 0xFFFFFFFF = tieValue s op.tie + op.value := if_pos (by omega)
  have heval : evalWaits op.tie (setTie op.tie (tieValue s op.tie + op.value) s) =
      setTie op.tie (tieValue s op.tie + op.value) s :=
    evalWaits_none (by rw [show (setTie op.tie (tieValue s op.tie + op.value) s).rings.waits = [] from hw]; simp)
  unfold tieApply
  simp only [hk, hsat, heval]
  exact if_neg (by omega)

/-- The wait that a wait operation leaves at a Tie's home (R326). -/
def waitOf (op : TieOp) (equal : Bool) (s : State) : TieWait :=
  ⟨op.tie, op.value, equal, op.sender, op.ctx, now s + op.timeoutUs * 1000⟩

/-- A wait whose condition does not hold joins those that wait (R322). -/
theorem tieApply_waitGe {op : TieOp} {s : State} (hk : op.kind = .waitGe) (hv : tieValue s op.tie < op.value)
    (hw : ∀ w ∈ s.rings.waits, w.tie = op.tie → w.holdsAt (tieValue s op.tie) = false) :
    tieApply op s = { s with rings := { s.rings with waits := s.rings.waits ++ [waitOf op false s] } } := by
  unfold tieApply
  rw [hk]
  refine evalWaits_none fun w hmem => ?_
  change w.goes _ op.tie (tieValue s op.tie) = false
  unfold TieWait.goes
  rcases List.mem_append.mp hmem with hold | hnew
  · by_cases ht : w.tie = op.tie
    · rw [hw w hold ht, Bool.and_false, Bool.false_and]
    · rw [beq_eq_false_iff_ne.mpr ht, Bool.false_and, Bool.false_and]
  · have hholds : w.holdsAt (tieValue s op.tie) = false := by
      rw [List.mem_singleton.mp hnew]
      exact decide_eq_false (Nat.not_le.mpr hv)
    rw [hholds, Bool.and_false, Bool.false_and]

/-- An operation of a role completes no descriptor. -/
theorem tieDescDone_role {op : TieOp} {b : Nat} (h : op.sender = .role b) (s : State) : tieDescDone op s = s := by
  unfold tieDescDone
  rw [h]

/-- A wait completes no descriptor when it is applied. -/
theorem tieDescDone_waitGe {op : TieOp} (h : op.kind = .waitGe) (s : State) : tieDescDone op s = s := by
  unfold tieDescDone
  rw [h]
  cases op.sender <;> rfl

/-! ## Releases that reach a die -/

/-- What a release does to the role that it names: it goes on past its wait on the Tie (R325). -/
def pastWait (tie : Nat) (x : Role) : Role := if x.tieWait = some tie then ({ x with tieWait := none } : Role).advance else x

/-- A release that names one role. -/
theorem exec_tieRelease_role {s : State} {d tie b : Nat} {m : TieRel}
    (hm : s.rings.rels.find? (fun m => m.die == d && m.tie == tie) = some m) (hwho : m.who = [.role b]) :
    exec (.tieRelease d tie) s =
      .next (modRole b (pastWait tie) { s with rings := { s.rings with rels := s.rings.rels.erase m } }) := by
  have htie : m.tie = tie := by
    have h := List.find?_some hm
    simp only [Bool.and_eq_true, beq_iff_eq] at h
    exact h.2
  change execTieRelease d tie s = _
  unfold execTieRelease
  rw [hm]
  dsimp only
  rw [hwho, htie]
  rfl

/-- A change of the role on a Brick, where it holds a single role. -/
theorem launches_modRole {s : State} {b : Nat} {f : Role → Role} {l : Launch} {i : Inst} {x : Role}
    (hl : s.fab.launches = [l]) (hi : l.insts = [i]) (hp : i.phase = .active) (hr : i.roles = [x]) (hb : x.brick = b) :
    (modRole b f s).fab.launches = [{ l with insts := [{ i with roles := [f x] }] }] := by
  unfold modRole
  simp only [hl, hi, hp, hr, hb, List.map_cons, List.map_nil, if_true]

/-! ## Waits that time out -/

/-- A state in which a wait has been cancelled at its home and counted (R326). -/
def waitCounted (w : TieWait) (s : State) : State :=
  incSat TIE_TIMEOUT_COUNT.timeouts (dieBase (tieHome w.tie)) 1
    { s with rings := { s.rings with waits := s.rings.waits.erase w } }

/-- The end of a descriptor whose wait timed out: status 0x0612, and its ring stops (R313, R326). -/
def descTimedOut (c r n : Nat) (raw : List Nat) (s : State) : State :=
  stopRing c r 0x0612 (ringOf (finishDesc c r n raw { status := 0x0612 } (holdRing c r .none s)) c r).head
    (finishDesc c r n raw { status := 0x0612 } (holdRing c r .none s))

theorem exec_tieWaitTimeout_desc {s : State} {k c r n : Nat} {w : TieWait} {d : Desc}
    (hw : s.rings.waits.find? (fun w => agentIndex w.who == k && decide (k < 1280)) = some w) (hwho : w.who = .desc c r n)
    (hd : s.rings.descs.find? (fun d => d.ctx == c && d.ring == r && d.count == n && d.phase == .waiting) = some d) :
    exec (.tieWaitTimeout k) s = .next (descTimedOut c r n d.raw (waitCounted w (passTo w.deadline s))) := by
  obtain ⟨g, cl, hpass⟩ := passTo_frame w.deadline s
  have hdesc : (waitCounted w (passTo w.deadline s)).rings.descs.find?
      (fun d => d.ctx == c && d.ring == r && d.count == n && d.phase == .waiting) = some d := by
    rw [← hd, hpass]
    rfl
  change execTieWaitTimeout k s = _
  unfold execTieWaitTimeout
  rw [hw]
  dsimp only
  unfold timeoutWait
  rw [hwho]
  dsimp only
  unfold waitCounted at hdesc ⊢
  rw [hdesc]
  rfl

theorem descTimedOut_quiet {c : Nat} (hc : c < 64) (r n : Nat) (raw : List Nat) (s : State) :
    Quiet signalKey (withoutDesc c r n (holdRing c r .none s)) (descTimedOut c r n raw s) :=
  (finishDesc_quiet _ _ _ _ _ _).trans (stopRing_quiet c r _ _ _ hc).toSignal

theorem not_signalKey_timeouts (d : Nat) : ¬ signalKey (fkey TIE_TIMEOUT_COUNT.timeouts (dieBase d)) := by
  simp only [signalKey, reportKey, retryKey, fkey, dieBase, HST_EVT_DROP_COUNT.drops, HST_DEV_EQ_TAIL.tail,
    PLB_PORT_STATE.over_rate, HBM_CRC_RETRY_COUNT.retries, HST_CTX_STATE.stopped, TIE_SAT_COUNT.saturations,
    TIE_TIMEOUT_COUNT.timeouts]
  rintro ((e | e | e | ⟨k, e⟩ | ⟨c, -, e⟩) | ⟨c, e⟩ | ⟨k, e⟩) <;> omega

/-- The count of a home's timeouts after one more. -/
theorem rd_waitCounted (w : TieWait) (d : Nat) (s : State) :
    rd (waitCounted w (passTo d s)) TIE_TIMEOUT_COUNT.timeouts (dieBase (tieHome w.tie)) =
      min (rd s TIE_TIMEOUT_COUNT.timeouts (dieBase (tieHome w.tie)) + 1) (2 ^ 32 - 1) := by
  have hpass : rd (passTo d s) TIE_TIMEOUT_COUNT.timeouts (dieBase (tieHome w.tie)) =
      rd s TIE_TIMEOUT_COUNT.timeouts (dieBase (tieHome w.tie)) := by
    refine rd_passTo d s ?_
    simp only [fkey, dieBase, NWT_DIAL_NOW.dial_ns, TIE_TIMEOUT_COUNT.timeouts]
    omega
  rw [← hpass]
  exact rd_incSat_self _ _ _ _

/-- What the timeout of a descriptor's wait leaves (R326). -/
theorem descTimedOut_effect {s : State} {w : TieWait} {c r n : Nat} (raw : List Nat) (hc : c < 64) (ht : ticking s = false) :
    let t := descTimedOut c r n raw (waitCounted w (passTo w.deadline s))
    now t = max (now s) w.deadline ∧ t.rings.waits = s.rings.waits.erase w ∧
      rd t TIE_TIMEOUT_COUNT.timeouts (dieBase (tieHome w.tie)) =
        min (rd s TIE_TIMEOUT_COUNT.timeouts (dieBase (tieHome w.tie)) + 1) (2 ^ 32 - 1) ∧
      (∀ x ∈ t.rings.descs, (x.ctx, x.ring, x.count) ≠ (c, r, n)) ∧ t.rings.ties = s.rings.ties ∧ t.fab = s.fab := by
  have hq := descTimedOut_quiet hc r n raw (waitCounted w (passTo w.deadline s))
  have hcount := rd_waitCounted w w.deadline s
  have hnow := now_passTo w.deadline s ht
  obtain ⟨g, cl, hpass⟩ := passTo_frame w.deadline s
  have hdescs : ∀ x ∈ (descTimedOut c r n raw (waitCounted w (passTo w.deadline s))).rings.descs,
      (x.ctx, x.ring, x.count) ≠ (c, r, n) := by
    intro x hx
    rw [hq.toDescs] at hx
    have hne := (List.mem_filter.mp hx).2
    rintro ⟨⟩
    simp at hne
  rw [hpass] at hq hcount hnow hdescs ⊢
  generalize descTimedOut c r n raw _ = t at hq hdescs ⊢
  refine ⟨hq.toNow.trans hnow, ?_, (hq.toRd _ _ (not_signalKey_timeouts _)).trans hcount, hdescs, hq.toTies, hq.toFab⟩
  rw [hq.rings]
  rfl

end Sys2Proof.Machine
end

section
namespace Sys2Proof.Machine

open Reg

/-! ## Writes of an echo line that nothing refuses -/

/-- Whether a port may reach an address depends on the map of the pages, the owners of the Courses, the masks of the shared
regions and the routes (R348, R412). -/
theorem accessStatus_quiet {S : Nat → Prop} {s t : State} (h : Quiet S s t) (hS : ∀ k, S k → linkFree k)
    (port ctx a : Nat) (write : Bool) : accessStatus t port ctx a write = accessStatus s port ctx a write := by
  have hhome : homeEntry t = homeEntry s := by
    funext p
    unfold homeEntry dawnEntry
    rw [h.mem]
  have hmay : mayAccess t = mayAccess s := by
    unfold mayAccess portCtx courseOf ctxShares portShares shareRd shareWr
    simp only [h.toFab, h.toCom]
  have howner : ownerOf t = ownerOf s := by
    unfold ownerOf
    rw [hhome]
  have hstack : stackIdx t = stackIdx s := by
    unfold stackIdx
    rw [hhome]
  have hreach : reach t = reach s := funext fun x => funext fun y => h.toReach hS x y
  unfold accessStatus
  rw [howner, hstack, hmay, hreach, h.toPcie]

theorem rangeStatus_quiet {S : Nat → Prop} {s t : State} (h : Quiet S s t) (hS : ∀ k, S k → linkFree k)
    (port ctx a n : Nat) (write : Bool) : rangeStatus t port ctx a n write = rangeStatus s port ctx a n write := by
  unfold rangeStatus
  simp only [accessStatus_quiet h hS]

/-- A write that no page refuses, to a memory to which nothing has befallen, succeeds (R348, R364). -/
theorem writeMem_succeeds {s : State} {port ctx a : Nat} {data : List Nat} (hs : sound s = true)
    (h : rangeStatus s port ctx a data.length true = 0) : (writeMem port ctx a data s).1 = 0 := by
  have hsound : sound (if a < hbmEnd then policeRange port a data.length s else s) = true :=
    (MemWork.ite (policeRange_memWork _ _ _ s) (.refl s)).sound hs
  unfold writeMem
  rw [h]
  unfold meetWrite
  dsimp only
  rw [if_neg (by rw [hsound]; simp)]
  rfl

theorem echoLine_length (s : State) (c : Nat) : (echoLine s c).length = 64 := by
  simp [echoLine, length_leBytes, List.range_succ]

/-- The echo line of context c can be written: nothing has befallen memory and no page refuses it. -/
structure EchoOk (c : Nat) (s : State) : Prop where
  sound : sound s = true
  status : rangeStatus s 72 c (com s HST_ECHO_ADDR.echo_addr (c * 0x100)) 64 true = 0

theorem EchoOk.of_quiet {c : Nat} {s t : State} (h : EchoOk c s) (hq : Quiet signalKey s t)
    (hs : Machine.sound s = true → Machine.sound t = true) : EchoOk c t := by
  refine ⟨hs h.sound, ?_⟩
  rw [rangeStatus_quiet hq linkFree_signalKey, hq.toCom]
  exact h.status

theorem EchoOk.writeEcho_eq {c : Nat} {s : State} (h : EchoOk c s) : writeEcho c s = (echoRaw c s).2 := by
  have hok : (echoRaw c s).1 = 0 := writeMem_succeeds h.sound (by rw [echoLine_length]; exact h.status)
  unfold writeEcho
  exact if_neg (by rw [hok]; simp)

/-! ## Rings that go on -/

/-- A cleared bit below four of a number, in the four bits of the field. -/
theorem bit_setBit_false (n r i : Nat) (hr : r < 4) (hi : i < 4) :
    bit (setBit n r false % 2 ^ 4) i = (bit n i && i != r) := by
  have h16 : ∀ m < 16, ∀ r < 4, ∀ i < 4, bit (setBit m r false % 2 ^ 4) i = (bit m i && i != r) := by decide
  have hbit : ∀ (m i : Nat), i < 4 → bit (m % 16) i = bit m i := by
    intro m i hi
    unfold bit
    have : m % 16 / 2 ^ i % 2 = m / 2 ^ i % 2 := by
      interval_cases i <;> omega
    rw [this]
  have hset : setBit n r false % 2 ^ 4 = setBit (n % 16) r false % 2 ^ 4 := by
    unfold setBit
    rw [hbit n r hr]
    split
    · next hb =>
      rw [← hbit n r hr] at hb
      have hle : 2 ^ r ≤ n % 16 := by
        unfold bit at hb
        by_contra hlt
        rw [Nat.div_eq_of_lt (by omega)] at hb
        simp at hb
      simp only [Bool.false_eq_true, if_false]
      omega
    · simp
  rw [hset, h16 _ (Nat.mod_lt _ (by decide)) r hr i hi, hbit n i hi]

/-- A state in which a stopped ring goes on at the count that it kept (R314). -/
def ringGoesOn (c r : Nat) (s : State) : State :=
  wr HST_CTX_STATE.stopped (c * 0x100) (setBit (rd s HST_CTX_STATE.stopped (c * 0x100)) r false)
    (modRing c r (fun x => { x with cause := 0, head := x.resume }) s)

/-- What RING_RESTART does to one ring. -/
def restartStep (c m : Nat) (s : State) (r : Nat) : State :=
  if bit m r ∧ ringStopped s c r then writeEcho c (ringGoesOn c r s) else s

theorem exec_ringRestart {c : Nat} (hc : c < 64) (m : Nat) (s : State) :
    exec (.ringRestart c m) s = .next ((List.range 4).foldl (restartStep c m) s) := by
  change execRingRestart c m s = _
  unfold execRingRestart
  rw [if_pos hc]
  rfl

theorem ringOf_ringGoesOn_self (c r : Nat) (s : State) :
    ringOf (ringGoesOn c r s) c r = { ringOf s c r with cause := 0, head := (ringOf s c r).resume } :=
  ringOf_modRing_self c r (fun x => { x with cause := 0, head := x.resume }) s

theorem ringOf_ringGoesOn_ne (c : Nat) {r q : Nat} (s : State) (h : r ≠ q) : ringOf (ringGoesOn c r s) c q = ringOf s c q :=
  ringOf_modRing_ne (fun x => { x with cause := 0, head := x.resume }) s (fun e => h e.2)

theorem ringGoesOn_quiet (c r : Nat) (s : State) : Quiet signalKey s (ringGoesOn c r s) :=
  (modRing_quiet c r _ s).trans (wr_quiet _ _ _ _ (.inr (.inl ⟨c, rfl⟩)))

theorem restartStep_quiet (c m r : Nat) (s : State) : Quiet signalKey s (restartStep c m s r) :=
  .ite ((ringGoesOn_quiet c r s).trans (writeEcho_signal c _)) (.refl s)

theorem EchoOk.ringGoesOn {c : Nat} {s : State} (h : EchoOk c s) (r : Nat) : EchoOk c (ringGoesOn c r s) :=
  h.of_quiet (ringGoesOn_quiet c r s) id

theorem EchoOk.restartStep {c : Nat} {s : State} (h : EchoOk c s) (m r : Nat) : EchoOk c (restartStep c m s r) := by
  refine h.of_quiet (restartStep_quiet c m r s) fun hs => ?_
  unfold Machine.restartStep
  split
  · exact (writeEcho_calm c (Machine.ringGoesOn c r s)).sound hs
  · exact hs

/-- Where the echo line can be written, a restart's step shows each ring as `ringGoesOn` leaves it. -/
theorem ring_restartStep {c r m : Nat} {s : State} (h : EchoOk c s)
    (hgo : bit m r = true ∧ ringStopped s c r = true) (q : Nat) :
    ringOf (restartStep c m s r) c q = ringOf (ringGoesOn c r s) c q ∧
      ringStopped (restartStep c m s r) c q = ringStopped (ringGoesOn c r s) c q := by
  have hrings : (writeEcho c (ringGoesOn c r s)).rings = (ringGoesOn c r s).rings := by
    rw [(h.ringGoesOn r).writeEcho_eq]
    exact (writeMem_memWork _ _ _ _ _).rings
  have hstopped : ringStopped (writeEcho c (ringGoesOn c r s)) c q = ringStopped (ringGoesOn c r s) c q := by
    rw [(h.ringGoesOn r).writeEcho_eq]
    exact ringStopped_eventQuiet (writeMem72_eventQuiet _ _ _ _) c q
  unfold restartStep
  rw [if_pos hgo]
  refine ⟨?_, hstopped⟩
  unfold ringOf ctxOf
  rw [hrings]

theorem ringStopped_ringGoesOn (c : Nat) {r q : Nat} (hr : r < 4) (hq : q < 4) (s : State) :
    ringStopped (ringGoesOn c r s) c q = (ringStopped s c q && q != r) := by
  unfold ringStopped ringGoesOn
  rw [rd_wr_self]
  exact bit_setBit_false _ r q hr hq

/-- A ring that has been restarted runs at the count that it kept. -/
def RingRuns (c r : Nat) (s t : State) : Prop :=
  ringStopped t c r = false ∧ (ringOf t c r).head = (ringOf s c r).resume ∧ (ringOf t c r).cause = 0

/-- A ring that is as it was. -/
def RingStays (c r : Nat) (s t : State) : Prop := ringStopped t c r = ringStopped s c r ∧ ringOf t c r = ringOf s c r

theorem restartStep_runs {c r m : Nat} {s : State} (h : EchoOk c s) (hr : r < 4)
    (hgo : bit m r = true ∧ ringStopped s c r = true) : RingRuns c r s (restartStep c m s r) := by
  obtain ⟨hring, hstopped⟩ := ring_restartStep h hgo r
  refine ⟨?_, ?_, ?_⟩
  · rw [hstopped, ringStopped_ringGoesOn c hr hr]
    simp
  · rw [hring, ringOf_ringGoesOn_self]
  · rw [hring, ringOf_ringGoesOn_self]

/-- A step for another ring, or for one that is not named, leaves a ring as it was. -/
theorem restartStep_stays {c r q m : Nat} {s : State} (h : EchoOk c s) (hr : r < 4) (hq : q < 4)
    (hne : r = q → bit m q = false) : RingStays c q s (restartStep c m s r) := by
  by_cases hgo : bit m r = true ∧ ringStopped s c r = true
  · have hrq : r ≠ q := fun e => absurd ((hne e).symm.trans (e ▸ hgo.1)) Bool.false_ne_true
    obtain ⟨hring, hstopped⟩ := ring_restartStep h hgo q
    refine ⟨?_, hring.trans (ringOf_ringGoesOn_ne c s hrq)⟩
    rw [hstopped, ringStopped_ringGoesOn c hr hq, bne_iff_ne.mpr (Ne.symm hrq), Bool.and_true]
  · unfold restartStep
    rw [if_neg hgo]
    exact ⟨rfl, rfl⟩

theorem foldl_restart_stays {c q m : Nat} (hq : q < 4) {l : List Nat} (hl : ∀ r ∈ l, r < 4)
    (hne : q ∈ l → bit m q = false)
    {s : State} (h : EchoOk c s) : RingStays c q s (l.foldl (restartStep c m) s) := by
  induction l generalizing s with
  | nil => exact ⟨rfl, rfl⟩
  | cons r l ih =>
    obtain ⟨hs, hr⟩ := restartStep_stays h (hl r List.mem_cons_self) hq (fun e => hne (e ▸ List.mem_cons_self))
    obtain ⟨hs', hr'⟩ := ih (fun x hx => hl x (List.mem_cons_of_mem _ hx)) (fun hx => hne (List.mem_cons_of_mem _ hx))
      (h.restartStep m r)
    exact ⟨hs'.trans hs, hr'.trans hr⟩

theorem foldl_restart_runs {c q m : Nat} {l : List Nat} (hl : ∀ r ∈ l, r < 4) (hnd : l.Nodup) (hq : q ∈ l)
    (hb : bit m q = true) {s : State} (h : EchoOk c s) (hstop : ringStopped s c q = true) :
    RingRuns c q s (l.foldl (restartStep c m) s) := by
  induction l generalizing s with
  | nil => exact absurd hq List.not_mem_nil
  | cons r l ih =>
    have hl' : ∀ x ∈ l, x < 4 := fun x hx => hl x (List.mem_cons_of_mem _ hx)
    rw [List.nodup_cons] at hnd
    by_cases hrq : r = q
    · subst hrq
      obtain ⟨hrun, hhead, hcause⟩ := restartStep_runs h (hl r List.mem_cons_self) ⟨hb, hstop⟩
      obtain ⟨hs, hr⟩ := foldl_restart_stays (m := m) (hl r List.mem_cons_self) hl' (fun hx => absurd hx hnd.1)
        (h.restartStep m r)
      exact ⟨hs.trans hrun, (congrArg _ hr).trans hhead, (congrArg _ hr).trans hcause⟩
    · obtain ⟨hs, hr⟩ := restartStep_stays (m := m) h (hl r List.mem_cons_self) (hl q hq) (fun e => absurd e hrq)
      obtain ⟨hrun, hhead, hcause⟩ := ih hl' hnd.2 ((List.mem_cons.mp hq).resolve_left (Ne.symm hrq)) (h.restartStep m r)
        (hs.trans hstop)
      exact ⟨hrun, hhead.trans (congrArg _ hr), hcause⟩

/-! ## RingsReleaseAndComplete -/

theorem exec_fenceRelease_freed {s : State} {c r : Nat} {d : Desc} (hd : heldDesc s c r 3 = some d)
    (hw : fenceWaits s d = false) :
    exec (.fenceRelease c r) s = .next (finishDesc c r d.count d.raw {} (holdRing c r .none s)) := by
  change execFenceRelease c r s = _
  unfold execFenceRelease
  rw [hd]
  dsimp only
  rw [if_neg (by rw [hw]; exact Bool.false_ne_true)]

/-- A state in which the Bond store slot of a handle is free; its generation stays (R305). -/
def slotFreed (h : Nat) (s : State) : State :=
  let free : StoreSlot := { aget s.rings.store (h % 4096) {} with owner := none, valid := false }
  { s with rings := { s.rings with store := aset s.rings.store (h % 4096) free {} } }

theorem store_slotFreed_self (h : Nat) (s : State) : aget (slotFreed h s).rings.store (h % 4096) {} =
    { aget s.rings.store (h % 4096) {} with owner := none, valid := false } := aget_aset_self _ _ _ _

section

variable {s : State} {c r : Nat} {d : Desc}

theorem exec_bondReleaseComplete_own (hd : heldDesc s c r 8 = some d)
    (hl : s.fab.launches.any (fun l => l.ctx == c && fld l.raw 4 4 == fld d.raw 4 4) = false)
    (hown : (ownSlot s c (fld d.raw 4 4)).isSome = true) :
    exec (.bondReleaseComplete c r) s =
      .next (finishDesc c r d.count d.raw {} (holdRing c r .none (slotFreed (fld d.raw 4 4) s))) := by
  change execBondReleaseComplete c r s = _
  unfold execBondReleaseComplete
  rw [hd]
  dsimp only
  rw [hl, if_neg Bool.false_ne_true, Option.isNone_eq_false_iff.mpr hown, if_neg Bool.false_ne_true]
  rfl

theorem exec_bondReleaseComplete_gone (hd : heldDesc s c r 8 = some d)
    (hl : s.fab.launches.any (fun l => l.ctx == c && fld l.raw 4 4 == fld d.raw 4 4) = false)
    (hown : (ownSlot s c (fld d.raw 4 4)).isNone = true) :
    exec (.bondReleaseComplete c r) s =
      .next (finishDesc c r d.count d.raw { status := 0x0607 } (holdRing c r .none s)) := by
  change execBondReleaseComplete c r s = _
  unfold execBondReleaseComplete
  rw [hd]
  dsimp only
  rw [hl, if_neg Bool.false_ne_true, if_pos hown]

end

/-- Settles O21: each release, Tie operation, timeout and restart by the state that it leaves. -/
theorem ringsReleaseAndComplete : Obligations.RingsReleaseAndComplete := by
  unfold Obligations.RingsReleaseAndComplete
  refine ⟨?fence, ?signal, ?wait, ?release, ?timeout, ?restart, ?own, ?gone⟩
  case fence =>
    intro s c r d hd hw hc
    refine ⟨_, (exec_fenceRelease_freed hd hw).trans (congrArg _ (finishDesc_ringFreed hc c r d.count s)),
      hold_ringFreed c r d.count s, ?_⟩
    obtain ⟨x, hfreed⟩ := ringFreed_frame c r d.count s
    rw [hfreed]
    exact ⟨rfl, rfl, rfl, rfl⟩
  case signal =>
    rintro s h n op rest ht hk hsum hw ⟨b, hb⟩
    refine ⟨_, (exec_tieOperation_taken ht).trans (congrArg _ ((tieDescDone_role hb _).trans (tieApply_signal hk hsum hw))),
      aget_aset_self _ _ _ _, fun k hne => aget_aset_ne _ _ _ _ _ _ (Ne.symm hne), rfl, rfl, rfl⟩
  case wait =>
    intro s h n op rest ht hk hv hw
    exact ⟨_, (exec_tieOperation_taken ht).trans (congrArg _ ((tieDescDone_waitGe hk _).trans (tieApply_waitGe hk hv hw))),
      rfl, rfl, rfl, rfl⟩
  case release =>
    intro s d tie m b l i x hm hwho hl hi hp hr hb hx
    refine ⟨_, exec_tieRelease_role hm hwho, rfl, rfl, (launches_modRole hl hi hp hr hb).trans ?_⟩
    rw [pastWait, if_pos hx]
  case timeout =>
    intro s k w c r n d _ hw hwho hd hc ht
    exact ⟨_, exec_tieWaitTimeout_desc hw hwho hd, descTimedOut_effect d.raw hc ht⟩
  case restart =>
    intro s c m hc hs hstatus
    have h : EchoOk c s := ⟨hs, hstatus⟩
    have hq : Quiet signalKey s ((List.range 4).foldl (restartStep c m) s) :=
      .foldl _ _ (fun x r => restartStep_quiet c m r x) s
    have hl : ∀ r ∈ List.range 4, r < 4 := fun r hr => List.mem_range.mp hr
    exact ⟨_, exec_ringRestart hc m s,
      fun r hr hb hstop => foldl_restart_runs hl List.nodup_range (List.mem_range.mpr hr) hb h hstop,
      fun r hr hb => foldl_restart_stays hr hl (fun _ => hb) h, hq.toFab, hq.toDescs⟩
  case own =>
    intro s c r d hd hc hl hown
    refine ⟨_, (exec_bondReleaseComplete_own hd hl hown).trans
      (congrArg _ (finishDesc_ringFreed hc c r d.count (slotFreed (fld d.raw 4 4) s))), hold_ringFreed _ _ _ _, ?_⟩
    obtain ⟨x, hfreed⟩ := ringFreed_frame c r d.count (slotFreed (fld d.raw 4 4) s)
    rw [hfreed]
    dsimp only
    rw [store_slotFreed_self]
    exact ⟨rfl, rfl, fun k hk => aget_aset_ne _ _ _ _ _ _ (Ne.symm hk), rfl, rfl⟩
  case gone =>
    intro s c r d hd hl hown
    have hq := finishDesc_quiet c r d.count d.raw { status := 0x0607 } (holdRing c r .none s)
    exact ⟨_, exec_bondReleaseComplete_gone hd hl hown, hold_finishDesc_freed _ _ _ _ _ _, finishDesc_store _ _ _ _ _ _,
      hq.toDescs, hq.toFab⟩

end Sys2Proof.Machine
end

section
namespace Sys2Proof.Machine

open Reg

/-! ## Doorbells -/

/-- A state in which a ring has taken its tail, and from ring 0's line the context its two heads (R286). -/
def tailTaken (c r : Nat) (line : List Nat) (s : State) : State :=
  modRing c r (fun x => { x with tail := fld line 0 4 })
    (if r = 0 then modCtx c (fun x => { x with cqHead := fld line 4 4, eqHead := fld line 8 4 }) s else s)

/-- The heads that ring 0's line gives are no ring's (R286). -/
theorem ringOf_headsTaken (c d q : Nat) (line : List Nat) (p : Prop) [Decidable p] (s : State) :
    ringOf (if p then modCtx c (fun x => { x with cqHead := fld line 4 4, eqHead := fld line 8 4 }) s else s) d q =
      ringOf s d q := by
  split
  · exact ringOf_modCtx (by intro; rfl) s d q
  · rfl

theorem ringOf_tailTaken_self (c r : Nat) (line : List Nat) (s : State) :
    ringOf (tailTaken c r line s) c r = { ringOf s c r with tail := fld line 0 4 } := by
  unfold tailTaken
  rw [ringOf_modRing_self, ringOf_headsTaken]

theorem ringOf_tailTaken_ne (c : Nat) {r k : Nat} (line : List Nat) (s : State) (h : k ≠ r) :
    ringOf (tailTaken c r line s) c k = ringOf s c k := by
  unfold tailTaken
  rw [ringOf_modRing_ne _ _ (fun e => h e.2.symm), ringOf_headsTaken]

theorem heads_tailTaken (c : Nat) (line : List Nat) (s : State) :
    (ctxOf (tailTaken c 0 line s) c).cqHead = fld line 4 4 ∧ (ctxOf (tailTaken c 0 line s) c).eqHead = fld line 8 4 := by
  simp [tailTaken, modRing]

/-- Beside the rings and counts of the contexts, taking a tail changes nothing. -/
theorem tailTaken_frame (c r : Nat) (line : List Nat) (s : State) : ∃ x, tailTaken c r line s = { s with rings := x } := by
  unfold tailTaken
  split
  · exact ⟨_, rfl⟩
  · exact ⟨_, rfl⟩

/-- A doorbell line that is read with a valid tail gives it to its ring (R286, R295). -/
theorem readDoorbell_valid {c r : Nat} {line : List Nat} {s s1 : State}
    (hread : readMem 72 c (dbAddr s c r) 64 [] s = (0, line, s1))
    (htail : (fld line 0 4 + 2 ^ 32 - (ringOf s1 c r).head) % 2 ^ 32 ≤ sqSize s1 c r) :
    readDoorbell c r s = tailTaken c r line s1 := by
  unfold readDoorbell takeTail tailTaken
  simp only [hread, ne_eq, not_true_eq_false, if_false, ringOf_headsTaken]
  refine if_neg (Nat.not_lt.mpr ?_)
  split
  · exact htail
  · exact htail

/-- A served read of a line in the outbound window changes nothing. -/
theorem readMem_window {s s1 : State} {port ctx a n : Nat} {l : List Nat} {causing : List (Nat × Nat × Nat)}
    (ha : inPcie a = true) (h : readMem port ctx a n causing s = (0, l, s1)) : s1 = s := by
  have hhbm : ¬ a < hbmEnd := by
    simp only [inPcie, Bool.and_eq_true, decide_eq_true_eq] at ha
    simp only [hbmEnd]
    omega
  unfold readMem at h
  split at h
  · rw [if_neg hhbm] at h
    split at h
    · exact absurd (congrArg Prod.fst h) (by simp)
    · exact (congrArg (·.2.2) h).symm
  · exact (congrArg (·.2.2) h).symm

theorem exec_doorbellWrite_live {s : State} {c r : Nat} (hl : ringLive s c r = true) (ha : dbAddr s c r < hbmEnd) :
    exec (.doorbellWrite c r) s = .next (readDoorbell c r s) := by
  change execDoorbellWrite c r s = _
  unfold execDoorbellWrite
  rw [if_pos ⟨hl, ha⟩]

/-- A state in which the poll of a ring's doorbell line begins, at the end of its interval (R293). -/
def pollBegun (c r due : Nat) (s : State) : State :=
  modRing c r (fun x => { x with polledAt := now (passTo due s) }) (passTo due s)

theorem exec_doorbellPoll_live {s : State} {c r : Nat} (hl : ringLive s c r = true) (ha : inPcie (dbAddr s c r) = true) :
    exec (.doorbellPoll c r) s = .next (readDoorbell c r (pollBegun c r
      ((ringOf s c r).polledAt + com s HST_SQ_CFG.poll_us (c * 0x100 + 4 * r) * 1000) s)) := by
  change execDoorbellPoll c r s = _
  unfold execDoorbellPoll
  rw [if_pos ⟨hl, ha⟩]
  rfl

/-- Time that passes changes Dial time and the clocks alone. -/
theorem passTo_live_frame (due : Nat) (s : State) :
    ∃ l x, passTo due s = { s with regs := { s.regs with live := l }, clock := x } := by
  unfold passTo
  split
  · split
    · exact ⟨_, _, passTicks_frame _ s⟩
    · exact ⟨_, _, pass_frame _ s⟩
  · exact ⟨s.regs.live, s.clock, rfl⟩

theorem com_passTo (due : Nat) (s : State) (f : Field) (a : Nat) : com (passTo due s) f a = com s f a := by
  obtain ⟨l, x, h⟩ := passTo_live_frame due s
  rw [h]
  rfl

/-- The line that is polled is the ring's own. -/
theorem dbAddr_pollBegun (c r due : Nat) (s : State) : dbAddr (pollBegun c r due s) c r = dbAddr s c r := by
  unfold dbAddr pollBegun
  rw [com_congr (modRing_regs _ _ _ _), com_passTo]

theorem ringOf_passTo (due : Nat) (s : State) (c r : Nat) : ringOf (passTo due s) c r = ringOf s c r := by
  obtain ⟨g, cl, hpass⟩ := passTo_frame due s
  rw [hpass]
  rfl

theorem ringOf_pollBegun_self (c r due : Nat) (s : State) :
    ringOf (pollBegun c r due s) c r = { ringOf s c r with polledAt := now (passTo due s) } := by
  unfold pollBegun
  rw [ringOf_modRing_self, ringOf_passTo]

theorem ringOf_pollBegun_ne (c : Nat) {r k : Nat} (due : Nat) (s : State) (h : k ≠ r) :
    ringOf (pollBegun c r due s) c k = ringOf s c k := by
  unfold pollBegun
  rw [ringOf_modRing_ne _ _ (fun e => h e.2.symm), ringOf_passTo]

/-! ## Registrations -/

/-- Keystone's status 0 means that a slot is free (R303). -/
theorem bondStatus_zero {s : State} {j : RegJob} (h : bondStatus s j = 0) : freeSlots s ≠ [] := by
  intro hfree
  unfold bondStatus at h
  rw [hfree] at h
  split at h
  · split at h
    · exact absurd h (by decide)
    · next hne => exact hne h
  · dsimp only at h
    split at h
    · exact absurd h (by decide)
    · split at h
      · exact absurd h (by decide)
      · split at h
        · exact absurd h (by decide)
        · exact absurd h (by simp)

/-- A state without a registration in work. -/
def withoutJob (j : RegJob) (s : State) : State :=
  { s with rings := { s.rings with regJobs := s.rings.regJobs.filter (fun x => x != j) } }

section

variable {s : State} {c r : Nat} {j : RegJob} {d : Desc}

/-- Keystone's checks do not look at the registrations in work. -/
theorem bondStatus_withoutJob (j : RegJob) (s : State) : bondStatus (withoutJob j s) j = bondStatus s j := rfl

/-- A registration that fails completes with its status and fills no slot (R303). -/
theorem exec_bondRegisterComplete_fails (hj : s.rings.regJobs.find? (fun j => j.ctx == c && j.ring == r) = some j)
    (hd : heldDesc s c r 7 = some d) (hn : d.count = j.count) (hst : bondStatus s j ≠ 0) :
    exec (.bondRegisterComplete c r) s =
      .next (finishDesc c r d.count d.raw { status := bondStatus s j } (holdRing c r .none (withoutJob j s))) := by
  have hheld : heldDesc (withoutJob j s) c r 7 = some d := hd
  rw [← bondStatus_withoutJob] at hst ⊢
  unfold withoutJob at hheld hst ⊢
  change execBondRegisterComplete c r s = _
  unfold execBondRegisterComplete
  simp only [hj, hheld, hn, hst, ne_eq, not_true_eq_false, not_false_eq_true, if_true, if_false]

/-- The state in which a registration that passes has filled its slot. -/
def slotFilled (c r k : Nat) (j : RegJob) (s : State) : State :=
  fillSlot c k (j.image.getD []) (holdRing c r .none (withoutJob j s))

/-- The handle of a slot: its number and its generation (R302). -/
def handleOf (s : State) (k : Nat) : Nat := k + 4096 * (aget s.rings.store k {}).gen

/-- A registration that passes fills the first free slot and completes with its handle (R302, R303). -/
theorem exec_bondRegisterComplete_passes (hj : s.rings.regJobs.find? (fun j => j.ctx == c && j.ring == r) = some j)
    (hd : heldDesc s c r 7 = some d) (hn : d.count = j.count) (hst : bondStatus s j = 0) :
    exec (.bondRegisterComplete c r) s =
      .next (finishDesc c r d.count d.raw
        { result := handleOf (slotFilled c r ((freeSlots s).headD 0) j s) ((freeSlots s).headD 0) }
        (slotFilled c r ((freeSlots s).headD 0) j s)) := by
  have hheld : heldDesc (withoutJob j s) c r 7 = some d := hd
  have hfree : freeSlots s = freeSlots (holdRing c r .none (withoutJob j s)) := rfl
  rw [← bondStatus_withoutJob] at hst
  rw [hfree]
  unfold slotFilled withoutJob at *
  change execBondRegisterComplete c r s = _
  unfold execBondRegisterComplete
  simp only [hj, hheld, hn, hst, ne_eq, not_true_eq_false, if_false]
  rfl

end

theorem writeMem'_rings (p c a : Nat) (l : List Nat) (s : State) : (writeMem' p c a l s).rings = s.rings :=
  (writeMem_memWork p c a l s).rings

theorem writeMem'_fab (p c a : Nat) (l : List Nat) (s : State) : (writeMem' p c a l s).fab = s.fab :=
  (writeMem_quiet p c a l s (S := linkFree) (linkFree_overRate p) linkFree_retryKey).toFab

theorem ringOf_writeMem' (p c a : Nat) (l : List Nat) (s : State) (d q : Nat) :
    ringOf (writeMem' p c a l s) d q = ringOf s d q := by
  unfold ringOf ctxOf
  rw [writeMem'_rings]

/-- A slot that an image has filled (R302). -/
def filledSlot (c : Nat) (img : List Nat) (old : StoreSlot) : StoreSlot :=
  { gen := (old.gen + 1) % 65536, owner := some c, keySlot := img.getD 69 0, digest := sha384 img, valid := true }

/-- A state in which a slot of the Bond store is set, and marked by no uncorrectable line (R302, R364). -/
def slotSet (k : Nat) (x : StoreSlot) (s : State) : State :=
  { s with rings := { s.rings with store := aset s.rings.store k x {} }
           mem := { s.mem with badSlots := aset s.mem.badSlots k false false } }

theorem slotSet_store (k : Nat) (x : StoreSlot) (s : State) : (slotSet k x s).rings.store = aset s.rings.store k x {} := rfl

theorem slotSet_badSlots (k : Nat) (x : StoreSlot) (s : State) : aget (slotSet k x s).mem.badSlots k false = false := by
  change aget (aset s.mem.badSlots k false false) k false = false
  exact aget_aset_self _ _ _ _

theorem slotSet_fab (k : Nat) (x : StoreSlot) (s : State) : (slotSet k x s).fab = s.fab := rfl

theorem ringOf_slotSet (k : Nat) (x : StoreSlot) (s : State) (c r : Nat) : ringOf (slotSet k x s) c r = ringOf s c r := rfl

/-- The image is written to the slot's place in memory, and then the slot is set (R302). -/
theorem fillSlot_eq (c k : Nat) (img : List Nat) (s : State) : fillSlot c k img s =
    slotSet k (filledSlot c img (aget s.rings.store k {})) (writeMem' 73 0xFF (slotAddr k) img s) := by
  unfold fillSlot slotSet filledSlot
  dsimp only

theorem fillSlot_store (c k : Nat) (img : List Nat) (s : State) : (fillSlot c k img s).rings.store =
    aset s.rings.store k (filledSlot c img (aget s.rings.store k {})) {} := by
  rw [fillSlot_eq, slotSet_store, writeMem'_rings]

theorem fillSlot_badSlots (c k : Nat) (img : List Nat) (s : State) : aget (fillSlot c k img s).mem.badSlots k false = false := by
  rw [fillSlot_eq, slotSet_badSlots]

theorem fillSlot_fab (c k : Nat) (img : List Nat) (s : State) : (fillSlot c k img s).fab = s.fab := by
  rw [fillSlot_eq, slotSet_fab, writeMem'_fab]

theorem ringOf_fillSlot (c k : Nat) (img : List Nat) (s : State) (d r : Nat) :
    ringOf (fillSlot c k img s) d r = ringOf s d r := by
  rw [fillSlot_eq, ringOf_slotSet, ringOf_writeMem']

theorem finishDesc_fab (c r n : Nat) (raw : List Nat) (d : Done) (s : State) : (finishDesc c r n raw d s).fab = s.fab :=
  (finishDesc_quiet c r n raw d s).toFab

theorem finishDesc_badSlots (c r n : Nat) (raw : List Nat) (d : Done) (s : State) :
    (finishDesc c r n raw d s).mem.badSlots = s.mem.badSlots := by
  rw [(finishDesc_quiet c r n raw d s).mem]
  rfl

/-- The handle of a filled slot, with its generation, is one that its context may launch (R302, R304). -/
theorem handleSlot_filled {t : State} {c k : Nat} {img : List Nat} {old : StoreSlot} (hk : k < 4096)
    (hslot : aget t.rings.store k {} = filledSlot c img old) (hbad : aget t.mem.badSlots k false = false) :
    handleSlot t c (k + 4096 * ((old.gen + 1) % 65536)) = some k := by
  have hmod : (k + 4096 * ((old.gen + 1) % 65536)) % 4096 = k := by omega
  have hgen : bits (k + 4096 * ((old.gen + 1) % 65536)) 12 16 = (old.gen + 1) % 65536 := by
    unfold bits
    omega
  unfold handleSlot
  rw [hmod]
  dsimp only
  rw [hslot, hbad, hgen]
  exact if_pos ⟨by omega, rfl, rfl, rfl, rfl⟩

theorem headD_mem {l : List Nat} (h : l ≠ []) : l.headD 0 ∈ l := by
  cases l with
  | nil => exact absurd rfl h
  | cons a r => exact List.mem_cons_self

/-! ## DoorbellsAndRegistrations -/

/-- Settles O22: a doorbell's tail and heads as the line gives them, and the slot that a registration fills or leaves. -/
theorem doorbellsAndRegistrations : Obligations.DoorbellsAndRegistrations := by
  unfold Obligations.DoorbellsAndRegistrations
  refine ⟨?write, ?poll, ?passes, ?fails⟩
  case write =>
    intro s s1 c r line hl ha hread htail
    refine ⟨_, (exec_doorbellWrite_live hl ha).trans (congrArg _ (readDoorbell_valid hread htail)), ?_, ?_, ?_,
      fun k hk => ringOf_tailTaken_ne c line s1 hk, ?_⟩
    · rw [ringOf_tailTaken_self]
    · rw [ringOf_tailTaken_self]
    · rintro rfl
      exact heads_tailTaken c line s1
    · obtain ⟨x, hx⟩ := tailTaken_frame c r line s1
      rw [hx]
      exact ⟨rfl, rfl, rfl, rfl⟩
  case poll =>
    rintro s s1 c r due line hl ha rfl hread htail
    obtain rfl := readMem_window ha hread
    generalize hdue : (ringOf s c r).polledAt + com s HST_SQ_CFG.poll_us (c * 0x100 + 4 * r) * 1000 = due at hread htail ⊢
    have hexec := exec_doorbellPoll_live hl ha
    rw [hdue] at hexec
    have hread' : readMem 72 c (dbAddr (pollBegun c r due s) c r) 64 [] (pollBegun c r due s) =
        (0, line, pollBegun c r due s) := by
      rw [dbAddr_pollBegun]
      exact hread
    refine ⟨_, hexec.trans (congrArg _ (readDoorbell_valid hread' htail)), ?_, ?_, ?_, ?_, ?_⟩
    · rw [ringOf_tailTaken_self]
    · rw [ringOf_tailTaken_self, ringOf_pollBegun_self]
    · rintro rfl
      exact heads_tailTaken c line _
    · intro k hk
      rw [ringOf_tailTaken_ne c line _ hk, ringOf_pollBegun_ne c due s hk]
    · obtain ⟨x, hx⟩ := tailTaken_frame c r line (pollBegun c r due s)
      rw [hx]
      exact ⟨passTo_fab due s, rfl, rfl⟩
  case passes =>
    intro s c r j d hj hd hn hst
    have hexec := exec_bondRegisterComplete_passes hj hd hn hst
    have hmem := headD_mem (bondStatus_zero hst)
    generalize (freeSlots s).headD 0 = k at hexec hmem
    generalize handleOf (slotFilled c r k j s) k = res at hexec
    have hk : k < 4096 := List.mem_range.mp (List.mem_filter.mp hmem).1
    have hstore := (finishDesc_store c r d.count d.raw { result := res } (slotFilled c r k j s)).trans (fillSlot_store c k _ _)
    have hhold : (ringOf (finishDesc c r d.count d.raw { result := res } (slotFilled c r k j s)) c r).hold = .none := by
      rw [(finishDesc_onlyStops _ _ _ _ _ _).toHold, slotFilled, ringOf_fillSlot, hold_holdRing]
    have hbad : aget (finishDesc c r d.count d.raw { result := res } (slotFilled c r k j s)).mem.badSlots k false = false := by
      rw [finishDesc_badSlots, slotFilled, fillSlot_badSlots]
    have hfab := (finishDesc_fab c r d.count d.raw { result := res } (slotFilled c r k j s)).trans (fillSlot_fab c k _ _)
    have hdescs := finishDesc_descs c r d.count d.raw { result := res } (slotFilled c r k j s)
    generalize finishDesc c r d.count d.raw { result := res } (slotFilled c r k j s) = t at hexec hstore hhold hbad hfab hdescs
    have hslot : aget t.rings.store k {} = filledSlot c (j.image.getD []) (aget s.rings.store k {}) := by
      rw [hstore]
      exact aget_aset_self _ _ _ _
    refine ⟨t, k, hexec, hmem, hhold, hslot, handleSlot_filled hk hslot hbad, fun n hne => ?_, hdescs, hfab⟩
    rw [hstore]
    exact aget_aset_ne _ _ _ _ _ _ (Ne.symm hne)
  case fails =>
    intro s c r j d hj hd hn hst
    have hq := finishDesc_quiet c r d.count d.raw { status := bondStatus s j } (holdRing c r .none (withoutJob j s))
    have hregs : (finishDesc c r d.count d.raw { status := bondStatus s j } (holdRing c r .none (withoutJob j s))).rings.regJobs =
        s.rings.regJobs.filter (fun x => x != j) := by
      rw [hq.rings]
      rfl
    exact ⟨_, exec_bondRegisterComplete_fails hj hd hn hst, finishDesc_store _ _ _ _ _ _, hregs,
      finishDesc_descs _ _ _ _ _ _, hq.toFab⟩

end Sys2Proof.Machine
end

section
namespace Sys2Proof.Machine

/-! ## Memory stays canonical -/

/-- Waking a package changes no byte table, so memory stays canonical as under `Kept`. -/
theorem Woken.memory {s t : State} (h : Woken s t) : Inv s → Inv t := by
  rcases h with h | h
  · exact h.mem
  · exact h.mem

/-- No command leaves a byte table of memory out of its canonical form. -/
theorem exec_memory {c : Instr} {s t : State} (h : exec c s = .next t) : Inv s → Inv t := by
  rcases exec_kept c s t h with k | ⟨_, _, w⟩
  · exact k.mem
  · exact w.memory

/-- Settles O53: a step is the front command, or an idle nanosecond that touches no byte. -/
theorem everyStepKeepsMemoryCanonical : Obligations.EveryStepKeepsMemoryCanonical := by
  unfold Obligations.EveryStepKeepsMemoryCanonical
  intro s t hs h
  cases hp : s.pending with
  | nil =>
    rw [step_nil hp] at h
    cases h
    exact (idle_kept s (Kept.refl s)).mem hs
  | cons c rest =>
    rw [step_cons hp] at h
    exact exec_memory h hs

end Sys2Proof.Machine
end

section
namespace Sys2Proof.Machine

open Reg

/-! ## Lines given to another key -/

@[simp] theorem rawByte_setLineKey (l k p : Nat) (s : State) : rawByte (setLineKey l k s) p = rawByte s p := rfl

@[simp] theorem rawByte_clearLine (l p : Nat) (s : State) : rawByte (clearLine l s) p = rawByte s p := rfl

@[simp] theorem lineKeyOf_clearLine (l m : Nat) (s : State) : lineKeyOf (clearLine l s) m = lineKeyOf s m := rfl

@[simp] theorem lineKeyOf_putByte (p : Nat) (b : Byte) (l : Nat) (s : State) : lineKeyOf (putByte p b s) l = lineKeyOf s l := rfl

theorem rawByte_putByte_ne {p q : Nat} (h : p ≠ q) (b : Byte) (s : State) : rawByte (putByte p b s) q = rawByte s q :=
  aget_aset_ne _ _ _ _ _ _ h

/-- What each step of a fold keeps, the fold keeps. -/
theorem foldl_keeps {α β : Type} (g : State → β) {f : State → α → State} {l : List α} (hf : ∀ x, ∀ a ∈ l, g (f x a) = g x)
    (s : State) : g (l.foldl f s) = g s := by
  induction l generalizing s with
  | nil => rfl
  | cons a r ih => exact (ih (fun x b hb => hf x b (List.mem_cons_of_mem _ hb)) _).trans (hf s a List.mem_cons_self)

theorem lineKeyOf_setLineKey (l k m : Nat) (s : State) :
    lineKeyOf (setLineKey l k s) m = if l = m then k else lineKeyOf s m :=
  aget_aset _ _ _ _ _ _ (fun h => by rw [h]; rfl)

theorem lineKeyOf_rekeyLine (l k m : Nat) (s : State) :
    lineKeyOf (rekeyLine l k s) m = if l = m then k else lineKeyOf s m := by
  unfold rekeyLine
  split
  · next h =>
    split
    · next e => rw [← e, h]
    · rfl
  · rw [lineKeyOf_setLineKey, foldl_keeps (lineKeyOf · m) (fun x (e : Nat × Byte) _ => lineKeyOf_putByte e.1 e.2 m x)]

/-- Giving a line another key touches no byte of another line. -/
theorem rawByte_rekeyLine_ne {l p : Nat} (h : p / 64 ≠ l) (k : Nat) (s : State) : rawByte (rekeyLine l k s) p = rawByte s p := by
  unfold rekeyLine
  split
  · rfl
  · rw [rawByte_setLineKey]
    refine foldl_keeps (rawByte · p) (fun x e he => rawByte_putByte_ne ?_ e.2 x) s
    obtain ⟨i, hi, rfl⟩ := List.mem_map.mp he
    have := List.mem_range.mp hi
    dsimp only
    omega

/-! ## Bytes written to a stack -/

theorem mem_linesOf {phys n l : Nat} (hn : 0 < n) : l ∈ linesOf phys n ↔ phys / 64 ≤ l ∧ l ≤ (phys + n - 1) / 64 := by
  simp only [linesOf, List.mem_map, List.mem_range]
  constructor
  · rintro ⟨i, hi, rfl⟩
    omega
  · rintro ⟨h1, h2⟩
    exact ⟨l - phys / 64, by omega, by omega⟩

/-- The lines of a write under the write's key. -/
def rekeyed (phys key n : Nat) (s : State) : State := (linesOf phys n).foldl (fun s l => rekeyLine l key s) s

/-- A write gives its lines its key, places its bytes, and ends what befell the lines that it covers (R358, R364). -/
theorem putPhys_eq (phys key : Nat) (data : List Nat) (s : State) : putPhys phys key data s =
    (linesOf phys data.length).foldl
      (fun s l => if phys ≤ l * 64 ∧ l * 64 + 64 ≤ phys + data.length then clearLine l s else s)
      (poke phys data (rekeyed phys key data.length s)) := rfl

theorem rawByte_putPhys (phys key : Nat) (data : List Nat) (p : Nat) (s : State) :
    rawByte (putPhys phys key data s) p = rawByte (poke phys data (rekeyed phys key data.length s)) p := by
  rw [putPhys_eq]
  refine foldl_keeps (rawByte · p) (fun x l _ => ?_) _
  split <;> rfl

theorem lineKeyOf_poke (a : Nat) (l : List Nat) (m : Nat) (s : State) : lineKeyOf (poke a l s) m = lineKeyOf s m := by
  rw [poke_cells]
  rfl

theorem lineKeyOf_foldl_rekeyLine (lines : List Nat) (key m : Nat) (s : State) :
    lineKeyOf (lines.foldl (fun s l => rekeyLine l key s) s) m = if m ∈ lines then key else lineKeyOf s m := by
  induction lines generalizing s with
  | nil => rfl
  | cons l r ih =>
    rw [List.foldl_cons, ih, lineKeyOf_rekeyLine]
    by_cases hlater : m ∈ r
    · rw [if_pos hlater, if_pos (List.mem_cons_of_mem _ hlater)]
    · rw [if_neg hlater]
      simp only [List.mem_cons, hlater, or_false, eq_comm]

/-- The lines of a write stand under its key, every other line under its own. -/
theorem lineKeyOf_putPhys (phys key : Nat) (data : List Nat) (m : Nat) (s : State) : lineKeyOf (putPhys phys key data s) m =
    if m ∈ linesOf phys data.length then key else lineKeyOf s m := by
  rw [putPhys_eq, foldl_keeps (lineKeyOf · m) (fun x l _ => by split <;> rfl), lineKeyOf_poke]
  exact lineKeyOf_foldl_rekeyLine _ key m s

/-- A write's bytes are in place. -/
theorem rawByte_putPhys_at (phys key : Nat) {data : List Nat} {i : Nat} (h : i < data.length) (s : State) :
    rawByte (putPhys phys key data s) (phys + i) = BitVec.ofNat 8 (data.getD i 0) := by
  rw [rawByte_putPhys, rawByte_poke _ _ _ _ h]

/-- A line that a write does not touch keeps its bytes. -/
theorem rawByte_putPhys_off {phys p : Nat} {data : List Nat} (h : p / 64 ∉ linesOf phys data.length) (hd : data ≠ [])
    (key : Nat) (s : State) : rawByte (putPhys phys key data s) p = rawByte s p := by
  have hn : 0 < data.length := List.length_pos_iff.mpr hd
  have hp : p / 64 < phys / 64 ∨ (phys + data.length - 1) / 64 < p / 64 := by
    rw [mem_linesOf hn] at h
    omega
  rw [rawByte_putPhys]
  refine (rawByte_fold _ _ _ _ fun e he => ?_).trans (foldl_keeps (rawByte · p) (fun x l hl => rawByte_rekeyLine_ne ?_ key x) s)
  · have := List.mem_range.mp (List.of_mem_zip he).1
    omega
  · rintro rfl
    exact h hl

/-- The bytes that a write leaves read as they were written, under its key. -/
theorem physByte_putPhys_at (phys key : Nat) {data : List Nat} {i : Nat} (h : i < data.length) (s : State) :
    physByte (putPhys phys key data s) (phys + i) key = BitVec.ofNat 8 (data.getD i 0) := by
  have hline : (phys + i) / 64 ∈ linesOf phys data.length := (mem_linesOf (by omega)).mpr (by omega)
  rw [physByte, lineKeyOf_putPhys, if_pos hline, if_pos rfl, rawByte_putPhys_at phys key h]

/-! ## Queued writes drained -/

/-- The lines of a queued write. -/
def QWrite.lines (w : QWrite) : List Nat := linesOf w.phys w.data.length

theorem rawByte_foldl_drainOne {ws : List QWrite} {p : Nat} (h : ∀ w ∈ ws, w.data ≠ [] ∧ p / 64 ∉ w.lines) (s : State) :
    rawByte (ws.foldl (fun s w => drainOne w s) s) p = rawByte s p :=
  foldl_keeps (rawByte · p) (fun x w hw => rawByte_putPhys_off (h w hw).2 (h w hw).1 w.key x) s

theorem lineKeyOf_foldl_drainOne {ws : List QWrite} {m : Nat} (h : ∀ w ∈ ws, m ∉ w.lines) (s : State) :
    lineKeyOf (ws.foldl (fun s w => drainOne w s) s) m = lineKeyOf s m :=
  foldl_keeps (lineKeyOf · m) (fun x w hw => (lineKeyOf_putPhys _ _ _ _ x).trans (if_neg (h w hw))) s

/-- Of writes that share no line, each leaves its bytes (R356, R358). -/
theorem physByte_foldl_drainOne {ws : List QWrite} (hd : ∀ w ∈ ws, w.data ≠ [])
    (hp : ws.Pairwise (fun v w => ∀ l ∈ v.lines, l ∉ w.lines)) {w : QWrite} (hw : w ∈ ws) {i : Nat} (hi : i < w.data.length)
    (s : State) : physByte (ws.foldl (fun s w => drainOne w s) s) (w.phys + i) w.key = BitVec.ofNat 8 (w.data.getD i 0) := by
  induction ws generalizing s with
  | nil => exact absurd hw List.not_mem_nil
  | cons v r ih =>
    obtain ⟨hv, hr⟩ := List.pairwise_cons.mp hp
    rcases List.mem_cons.mp hw with rfl | hm
    · have hline : (w.phys + i) / 64 ∈ w.lines := (mem_linesOf (by omega)).mpr (by omega)
      have hoff : ∀ x ∈ r, (w.phys + i) / 64 ∉ x.lines := fun x hx => hv x hx _ hline
      rw [List.foldl_cons, physByte, lineKeyOf_foldl_drainOne hoff,
        rawByte_foldl_drainOne fun x hx => ⟨hd x (List.mem_cons_of_mem _ hx), hoff x hx⟩]
      exact physByte_putPhys_at w.phys w.key hi s
    · exact ih (fun x hx => hd x (List.mem_cons_of_mem _ hx)) hr hm _

/-- A drain that takes every queued write empties the queue. -/
theorem drainQueues_all {hit : QWrite → Bool} {s : State} (h : ∀ w ∈ s.mem.queue, hit w = true) : drainQueues hit s =
    { s.mem.queue.foldl (fun s w => drainOne w s) s with
      mem := { (s.mem.queue.foldl (fun s w => drainOne w s) s).mem with queue := [] } } := by
  have hall : s.mem.queue.filter hit = s.mem.queue := List.filter_eq_self.mpr h
  have hnone : s.mem.queue.filter (fun w => !hit w) = [] := by
    rw [List.filter_eq_nil_iff]
    intro w hw
    simp [h w hw]
  unfold drainQueues
  rw [hall, hnone]

end Sys2Proof.Machine
end

section
namespace Sys2Proof.Machine

open Reg

/-! ## What policing changes -/

/-- From s to t Plumb has policed requests of a port: its buckets and the port's over_rate bit may have changed (R374). -/
structure Policed (port : Nat) (s t : State) : Prop where
  frame : t = { s with
    regs := { s.regs with live := t.regs.live }, mem := { s.mem with tokens := t.mem.tokens, tokenAt := t.mem.tokenAt } }
  live : ∀ k d, k ≠ fkey PLB_PORT_STATE.over_rate (port * 16) → aget t.regs.live k d = aget s.regs.live k d

namespace Policed

variable {port : Nat} {s t u : State}

protected theorem refl (s : State) : Policed port s s := ⟨rfl, fun _ _ _ => rfl⟩

protected theorem trans (h : Policed port s t) (g : Policed port t u) : Policed port s u where
  frame := by
    have hst := h.frame
    have htu := g.frame
    rw [htu, hst]
  live := fun k d hk => (g.live k d hk).trans (h.live k d hk)

theorem foldl {α : Type} (f : State → α → State) (l : List α) (hf : ∀ x a, Policed port x (f x a)) (s : State) :
    Policed port s (l.foldl f s) := by
  induction l generalizing s with
  | nil => exact .refl s
  | cons a r ih => exact (hf s a).trans (ih (f s a))

theorem quiet (h : Policed port s t) : Quiet (· = fkey PLB_PORT_STATE.over_rate (port * 16)) s t where
  rest := by
    have hst := h.frame
    rw [hst]
  regs := by rw [h.frame]
  live := h.live
  mem := by
    have hst := h.frame
    rw [hst]
  rings := by rw [h.frame]

theorem cells (h : Policed port s t) : t.mem.cells = s.mem.cells := by rw [h.frame]
theorem home (h : Policed port s t) : t.mem.home = s.mem.home := by rw [h.frame]
theorem queue (h : Policed port s t) : t.mem.queue = s.mem.queue := by rw [h.frame]
theorem fab (h : Policed port s t) : t.fab = s.fab := by rw [h.frame]
theorem rings (h : Policed port s t) : t.rings = s.rings := by rw [h.frame]
theorem clock (h : Policed port s t) : t.clock = s.clock := by rw [h.frame]

/-- Policing moves no page and gives no byte another value. -/
theorem readByte_eq (h : Policed port s t) (p c : Nat) {a : Nat} (ha : a < hbmEnd) : readByte t p c a = readByte s p c a := by
  rw [readByte, readByte, if_pos ha, if_pos ha, h.frame]
  rfl

theorem rawByte_eq (h : Policed port s t) (p : Nat) : rawByte t p = rawByte s p := by rw [rawByte, h.cells, rawByte]

/-- Policing pauses no pseudo-channel. -/
theorem paused_eq (h : Policed port s t) (k pc : Nat) : paused t k pc = paused s k pc := by
  have hne : fkey HBM_STATUS.retraining (dieBase (k + 1)) ≠ fkey PLB_PORT_STATE.over_rate (port * 16) := by
    simp only [fkey, dieBase, HBM_STATUS.retraining, PLB_PORT_STATE.over_rate]
    omega
  have hrd : rdB t HBM_STATUS.retraining (dieBase (k + 1)) = rdB s HBM_STATUS.retraining (dieBase (k + 1)) :=
    congrArg (· == 1) (h.live _ _ hne)
  have hstack : stackOf t k = stackOf s k := by rw [stackOf, h.frame, stackOf]
  rw [paused, hrd, hstack, paused]

end Policed

theorem overRate_policed (port v : Nat) (s : State) : Policed port s (wr PLB_PORT_STATE.over_rate (port * 16) v s) :=
  ⟨rfl, fun _ _ hk => aget_aset_ne _ _ _ _ _ _ (Ne.symm hk)⟩

theorem tokens_policed (port : Nat) (tokens tokenAt : AMap Nat) (s : State) :
    Policed port s { s with mem := { s.mem with tokens := tokens, tokenAt := tokenAt } } := ⟨rfl, fun _ _ _ => rfl⟩

theorem police_policed (port k n : Nat) (s : State) : Policed port s (police port k n s) := by
  unfold police
  split
  · dsimp only
    split
    · exact (tokens_policed port _ _ s).trans (overRate_policed port 1 _)
    · exact tokens_policed port _ _ s
  · exact .refl s

theorem policeRange_policed (port a n : Nat) (s : State) : Policed port s (policeRange port a n s) :=
  .foldl _ _ (fun x _ => police_policed port _ _ x) s

/-! ## Addresses of one page -/

/-- Addresses of one page lie as far apart in their frame as in the page (R342). -/
theorem physOf_page (s : State) {a x : Nat} (h : x / 65536 = a / 65536) : physOf s x + a = physOf s a + x := by
  simp only [physOf, stackIdx, h]
  omega

theorem ownerOf_page (s : State) {a x : Nat} (h : x / 65536 = a / 65536) : ownerOf s x = ownerOf s a := by
  simp only [ownerOf, h]

theorem stackIdx_page (s : State) {a x : Nat} (h : x / 65536 = a / 65536) : stackIdx s x = stackIdx s a := by
  simp only [stackIdx, h]

theorem physOf_mod (s : State) (a : Nat) : physOf s a % 65536 = a % 65536 := by
  simp only [physOf]
  omega

/-- Granules of a frame lie on pseudo-channels as their numbers are modulo 32 (R354). -/
theorem granule_of_pcOf {s : State} {a x pc : Nat} (h : x / 65536 = a / 65536) (hpc : pcOf (physOf s x) = pc) :
    x % 65536 / 256 % 32 = pc ^^^ (physOf s a / 65536 % 393216 % 32) := by
  have hframe : physOf s x / 65536 = physOf s a / 65536 := by
    have := physOf_page s h
    have := physOf_mod s a
    have := physOf_mod s x
    omega
  rw [← hpc, pcOf, physOf_mod, hframe, Nat.xor_assoc, Nat.xor_self, Nat.xor_zero]

/-! ## Granules of a write -/

/-- Granule i of bytes at an address: where it begins and its bytes (R354). -/
def granuleAt (a : Nat) (data : List Nat) (i : Nat) : Nat × List Nat :=
  let x := if i = 0 then a else (a / 256 + i) * 256
  (x, (data.drop (x - a)).take (256 - x % 256))

/-- How many granules n bytes at an address touch. -/
def granuleCount (a n : Nat) : Nat := (a + n - 1) / 256 - a / 256 + 1

theorem granuleAt_fst {a n i : Nat} {data : List Nat} (hi : i < granuleCount a n) (hn : 0 < n) :
    (granuleAt a data i).1 / 256 = a / 256 + i ∧ a ≤ (granuleAt a data i).1 ∧ (granuleAt a data i).1 < a + n ∧
      ((granuleAt a data i).1 = a ∨ (granuleAt a data i).1 % 256 = 0) := by
  simp only [granuleCount] at hi
  simp only [granuleAt]
  split <;> omega

theorem granuleAt_length {a i : Nat} {data : List Nat} : (granuleAt a data i).2.length =
    min (256 - (granuleAt a data i).1 % 256) (data.length - ((granuleAt a data i).1 - a)) := by
  simp only [granuleAt, List.length_take, List.length_drop]

theorem granuleAt_ne_nil {a i : Nat} {data : List Nat} (hi : i < granuleCount a data.length) (hd : data ≠ []) :
    (granuleAt a data i).2 ≠ [] := by
  have hn : 0 < data.length := List.length_pos_iff.mpr hd
  obtain ⟨-, hlo, hhi, -⟩ := granuleAt_fst (data := data) hi hn
  rw [← List.length_pos_iff, granuleAt_length]
  omega

/-- No granule of some bytes is empty. -/
theorem granules_eq {a : Nat} {data : List Nat} (hd : data ≠ []) :
    granules a data = (List.range (granuleCount a data.length)).map (granuleAt a data) := by
  refine List.filter_eq_self.mpr fun e he => ?_
  obtain ⟨i, hi, rfl⟩ := List.mem_map.mp he
  have := granuleAt_ne_nil (List.mem_range.mp hi) hd
  simpa [granuleAt] using this

/-- Byte j of a write is in its granule. -/
theorem granuleAt_getD {a j : Nat} {data : List Nat} (hj : j < data.length) :
    (a + j) / 256 - a / 256 < granuleCount a data.length ∧
    ∃ m < (granuleAt a data ((a + j) / 256 - a / 256)).2.length,
      (granuleAt a data ((a + j) / 256 - a / 256)).1 + m = a + j ∧
      (granuleAt a data ((a + j) / 256 - a / 256)).2.getD m 0 = data.getD j 0 := by
  have hi : (a + j) / 256 - a / 256 < granuleCount a data.length := by
    simp only [granuleCount]
    omega
  obtain ⟨hblock, hlo, hhi, hstart⟩ := granuleAt_fst (data := data) hi (by omega)
  have hlen := granuleAt_length (a := a) (i := (a + j) / 256 - a / 256) (data := data)
  refine ⟨hi, a + j - (granuleAt a data ((a + j) / 256 - a / 256)).1, by omega, by omega, ?_⟩
  have hdrop : (granuleAt a data ((a + j) / 256 - a / 256)).2 =
    (data.drop ((granuleAt a data ((a + j) / 256 - a / 256)).1 - a)).take
      (256 - (granuleAt a data ((a + j) / 256 - a / 256)).1 % 256) := rfl
  rw [hdrop]
  generalize (granuleAt a data ((a + j) / 256 - a / 256)).1 = x at *
  rw [List.getD_eq_getElem?_getD, List.getElem?_take_of_lt (by omega), List.getElem?_drop, List.getD_eq_getElem?_getD]
  congr 2
  omega

/-! ## A write joins the queues -/

/-- The queued write of a granule: to its pseudo-channel, under the key of its page's owner (R354, R356). -/
def queuedWrite (s : State) (e : Nat × List Nat) : QWrite :=
  ⟨stackIdx s e.1, pcOf (physOf s e.1), physOf s e.1, e.2, keyOf s (ownerOf s e.1), now s⟩

/-- The state with other writes queued. -/
def withQueue (q : List QWrite) (s : State) : State := { s with mem := { s.mem with queue := q } }

/-- Of 256 granules in a row, 8 lie on one pseudo-channel. -/
theorem countP_residue_le (b r n : Nat) (hn : n ≤ 256) : (List.range n).countP (fun i => (b + i) % 32 == r) ≤ 8 := by
  rw [List.countP_eq_length_filter, ← List.toFinset_card_of_nodup (List.nodup_range.filter _), ← Finset.card_range 8]
  refine Finset.card_le_card_of_injOn (· / 32) (fun i hi => ?_) (fun i hi j hj hij => ?_)
  · simp at hi ⊢
    omega
  · simp at hi hj hij
    omega

/-- A write of one page queues few writes on each pseudo-channel. -/
theorem countIf_queuedWrite_le (s : State) {a : Nat} {data : List Nat} (hp : a % 65536 + data.length ≤ 65536) (hd : data ≠ [])
    (k pc : Nat) : countIf ((granules a data).map (queuedWrite s)) (fun w => w.stack == k && w.pc == pc) ≤ 8 := by
  have hn : 0 < data.length := List.length_pos_iff.mpr hd
  rw [countIf, ← List.countP_eq_length_filter, granules_eq hd, List.countP_map, List.countP_map]
  refine le_trans (List.countP_mono_left fun i hi hw => ?_) (countP_residue_le (a % 65536 / 256)
    (pc ^^^ (physOf s a / 65536 % 393216 % 32)) (granuleCount a data.length) ?_)
  · obtain ⟨hblock, hlo, hhi, -⟩ := granuleAt_fst (data := data) (List.mem_range.mp hi) hn
    simp only [Function.comp_apply, queuedWrite, Bool.and_eq_true, beq_iff_eq] at hw ⊢
    rw [← granule_of_pcOf (s := s) (by omega) hw.2]
    omega
  · simp only [granuleCount]
    omega

/-- Writes that fill no queue wait there, and nothing drains (R356). -/
theorem foldl_enqueue {s : State} {q : List QWrite} {l : List (Nat × List Nat)} {f : State → Nat × List Nat → State}
    (hf : ∀ q e, f (withQueue q s) e = if mustDrain (withQueue (q ++ [queuedWrite s e]) s) (queuedWrite s e).stack (queuedWrite s e).pc
      then drainPc (queuedWrite s e).stack (queuedWrite s e).pc (withQueue (q ++ [queuedWrite s e]) s)
      else withQueue (q ++ [queuedWrite s e]) s)
    (h : ∀ k pc, countIf (q ++ l.map (queuedWrite s)) (fun w => w.stack == k && w.pc == pc) < 48) :
    l.foldl f (withQueue q s) = withQueue (q ++ l.map (queuedWrite s)) s := by
  induction l generalizing q with
  | nil => rw [List.foldl_nil, List.map_nil, List.append_nil]
  | cons e r ih =>
    have hassoc : q ++ (e :: r).map (queuedWrite s) = (q ++ [queuedWrite s e]) ++ r.map (queuedWrite s) := by simp
    rw [hassoc] at h ⊢
    have hfew : mustDrain (withQueue (q ++ [queuedWrite s e]) s) (queuedWrite s e).stack (queuedWrite s e).pc = false := by
      have hle := h (queuedWrite s e).stack (queuedWrite s e).pc
      rw [countIf, List.filter_append, List.length_append] at hle
      have : ¬ 48 ≤ countIf (q ++ [queuedWrite s e])
          (fun w => w.stack == (queuedWrite s e).stack && w.pc == (queuedWrite s e).pc) := by
        rw [countIf]
        omega
      simp only [mustDrain, withQueue, this, decide_false, Bool.false_and]
    rw [List.foldl_cons, hf, hfew, if_neg Bool.false_ne_true]
    exact ih h

/-- A write of one page joins empty queues whole. -/
theorem enqueueWrite_queued {s : State} {a : Nat} {data : List Nat} (hq : s.mem.queue = [])
    (hp : a % 65536 + data.length ≤ 65536) (hd : data ≠ []) :
    enqueueWrite a data s = withQueue ((granules a data).map (queuedWrite s)) s := by
  have hs : s = withQueue [] s := by rw [withQueue, ← hq]
  unfold enqueueWrite
  conv_lhs => rw [hs]
  refine (foldl_enqueue (s := s) (q := []) (fun _ _ => rfl) fun k pc => ?_).trans (by rw [List.nil_append])
  rw [List.nil_append]
  have := countIf_queuedWrite_le s hp hd k pc
  omega

end Sys2Proof.Machine
end

section
namespace Sys2Proof.Machine

open Reg

/-! ## Where pages stand, through writes and reports -/

namespace Quiet

variable {S : Nat → Prop} {s t : State}

theorem toHomeEntry (h : Quiet S s t) : homeEntry t = homeEntry s := by
  funext p
  unfold homeEntry dawnEntry
  rw [h.mem]

theorem toOwner (h : Quiet S s t) : ownerOf t = ownerOf s := by
  unfold ownerOf
  rw [h.toHomeEntry]

theorem toPhys (h : Quiet S s t) : physOf t = physOf s := by
  unfold physOf stackIdx
  rw [h.toHomeEntry]

theorem toKeyOf (h : Quiet S s t) : keyOf t = keyOf s := by
  unfold keyOf
  rw [h.mem]

end Quiet

theorem foldl_drainOne_quiet {S : Nat → Prop} (ws : List QWrite) (s : State) :
    Quiet S s (ws.foldl (fun s w => drainOne w s) s) :=
  .foldl _ _ (fun x (w : QWrite) => putPhys_quiet w.phys w.key w.data x) s

/-! ## The queued write of a page, drained -/

/-- The state once every queued write has drained. -/
def allDrained (s : State) : State := withQueue [] (s.mem.queue.foldl (fun s w => drainOne w s) s)

theorem allDrained_quiet {S : Nat → Prop} (s : State) : Quiet S s (allDrained s) :=
  (foldl_drainOne_quiet _ s).trans (.setMem _ _ (by rfl))

theorem allDrained_memWork (s : State) : MemWork s (allDrained s) :=
  (MemWork.foldl _ _ (fun x (w : QWrite) => putPhys_memWork w.phys w.key w.data x) s).trans ⟨rfl, id⟩

section

variable {s : State} {a : Nat} {data : List Nat} (hp : a % 65536 + data.length ≤ 65536) (hd : data ≠ [])

include hp hd

/-- The lines of a granule's write lie among those of the whole write, in the granule's own 256 bytes. -/
theorem lines_granule {i : Nat} (hi : i < granuleCount a data.length) {l : Nat}
    (hl : l ∈ (queuedWrite s (granuleAt a data i)).lines) : l / 4 = physOf s a / 256 + i ∧ l ∈ linesOf (physOf s a) data.length := by
  have hn : 0 < data.length := List.length_pos_iff.mpr hd
  have hlen : 0 < (granuleAt a data i).2.length := List.length_pos_iff.mpr (granuleAt_ne_nil hi hd)
  obtain ⟨hblock, hlo, hhi, -⟩ := granuleAt_fst (data := data) hi hn
  have hphys := physOf_page s (a := a) (x := (granuleAt a data i).1) (by omega)
  have hmod := physOf_mod s a
  have hle := granuleAt_length (a := a) (i := i) (data := data)
  rw [QWrite.lines, queuedWrite, mem_linesOf hlen] at hl
  rw [mem_linesOf hn]
  dsimp only at hl
  omega

/-- No two granules share a line. -/
theorem pairwise_granules : ((granules a data).map (queuedWrite s)).Pairwise (fun v w => ∀ l ∈ v.lines, l ∉ w.lines) := by
  rw [granules_eq hd, List.map_map, List.pairwise_map]
  refine List.pairwise_lt_range.imp_of_mem fun {i j} hi hj hij l hv hw => ?_
  have hvi := lines_granule hp hd (List.mem_range.mp hi) hv
  have hwj := lines_granule hp hd (List.mem_range.mp hj) hw
  omega

theorem data_of_mem_granules {w : QWrite} (hw : w ∈ (granules a data).map (queuedWrite s)) :
    w.data ≠ [] ∧ ∀ l ∈ w.lines, l ∈ linesOf (physOf s a) data.length := by
  rw [granules_eq hd, List.map_map] at hw
  obtain ⟨i, hi, rfl⟩ := List.mem_map.mp hw
  exact ⟨granuleAt_ne_nil (List.mem_range.mp hi) hd, fun l hl => (lines_granule hp hd (List.mem_range.mp hi) hl).2⟩

/-- A granule's write shares a line with the whole write (R357). -/
theorem meets_of_mem_granules {w : QWrite} (hw : w ∈ (granules a data).map (queuedWrite s)) :
    w.meets (physOf s a) data.length = true := by
  obtain ⟨hdata, hlines⟩ := data_of_mem_granules hp hd hw
  have hlen : 0 < w.data.length := List.length_pos_iff.mpr hdata
  have hn : 0 < data.length := List.length_pos_iff.mpr hd
  have hfirst : w.phys / 64 ∈ linesOf (physOf s a) data.length := hlines _ ((mem_linesOf hlen).mpr (by omega))
  rw [mem_linesOf hn] at hfirst
  simp only [QWrite.meets, overlap, Bool.and_eq_true, decide_eq_true_eq]
  omega

variable (hq : s.mem.queue = (granules a data).map (queuedWrite s))

include hq

/-- A read of a run of bytes waits for all that is queued of it (R356, R357). -/
theorem drainRange_granules : drainRange a data.length s = allDrained s := by
  have hn : 0 < data.length := List.length_pos_iff.mpr hd
  have hone : (a + data.length - 1) / 65536 - a / 65536 + 1 = 1 := by omega
  have hrange : min (a + data.length) ((a / 65536 + 1) * 65536) - a = data.length := by omega
  have hdrained : drainOverlap (physOf s a) data.length s = allDrained s := by
    unfold drainOverlap
    refine drainQueues_all fun w hw => ?_
    rw [List.contains_iff_mem]
    exact List.mem_map_of_mem (List.mem_filter.mpr ⟨hw, meets_of_mem_granules hp hd (hq ▸ hw)⟩)
  rw [drainRange, hone]
  simpa [hrange] using hdrained

/-- A line beside the run keeps its bytes. -/
theorem rawByte_allDrained_off {p : Nat} (h : p / 64 ∉ linesOf (physOf s a) data.length) :
    rawByte (allDrained s) p = rawByte s p := by
  refine rawByte_foldl_drainOne (fun w hw => ?_) s
  obtain ⟨hdata, hlines⟩ := data_of_mem_granules hp hd (hq ▸ hw)
  exact ⟨hdata, fun hl => h (hlines _ hl)⟩

/-- A port that sees plaintext reads the bytes that were queued. -/
theorem readBytes_allDrained (he : a + data.length ≤ hbmEnd) (hb : ∀ x ∈ data, x < 256) {port ctx : Nat}
    (hc : seesCipher port ctx (ownerOf s a) = false) : readBytes (allDrained s) port ctx a data.length = data := by
  have hquiet : Quiet (fun _ => False) s (allDrained s) := allDrained_quiet s
  refine List.ext_getElem (by simp [readBytes]) fun j _ hj => ?_
  obtain ⟨hi, m, hm, hat, hget⟩ := granuleAt_getD (a := a) hj
  generalize hg : granuleAt a data ((a + j) / 256 - a / 256) = e at hm hat hget
  have hmem : queuedWrite s e ∈ (granules a data).map (queuedWrite s) := by
    refine List.mem_map_of_mem ?_
    rw [granules_eq hd, ← hg]
    exact List.mem_map_of_mem (List.mem_range.mpr hi)
  have hfst := granuleAt_fst (data := data) hi (List.length_pos_iff.mpr hd)
  rw [hg] at hfst
  have hphys : physOf s (a + j) = (queuedWrite s e).phys + m := by
    have := physOf_page s (a := e.1) (x := a + j) (by omega)
    simp only [queuedWrite]
    omega
  have hkey : keyOf s (ownerOf s (a + j)) = (queuedWrite s e).key := by
    rw [queuedWrite, ownerOf_page s (a := e.1) (x := a + j) (by omega)]
  have hplain : seesCipher port ctx (ownerOf (allDrained s) (a + j)) = false := by
    rw [hquiet.toOwner, ownerOf_page s (a := a) (by omega)]
    exact hc
  have hbyte : physByte (allDrained s) ((queuedWrite s e).phys + m) (queuedWrite s e).key = BitVec.ofNat 8 (data.getD j 0) := by
    rw [← hget]
    refine physByte_foldl_drainOne (fun w hw => (data_of_mem_granules hp hd (hq ▸ hw)).1) ?_ (hq ▸ hmem) hm s
    rw [hq]
    exact pairwise_granules hp hd
  simp only [readBytes, List.getElem_map, List.getElem_range]
  rw [readByte_hbm (by omega) hplain, hquiet.toOwner, hquiet.toPhys, hquiet.toKeyOf, hphys, hkey, hbyte,
    List.getD_eq_getElem _ _ hj]
  simpa using Nat.mod_eq_of_lt (hb _ (List.getElem_mem hj))

end

/-! ## MEMORY_WRITE and MEMORY_READ of a sound memory -/

/-- Nothing added to a table that lists nothing leaves it. -/
theorem aset_add_zero {m : AMap Nat} (h : m = []) (k : Nat) : aset m k (aget m k 0 + 0) 0 = m := by
  rw [h]
  exact aset_nil k 0

/-- Nothing befalls a memory where an access brings nothing. -/
theorem befall_nothing {a : Nat} {s : State} (ha : a < hbmEnd) (h : sound s = true) : befall a {} s = s := by
  obtain ⟨-, hsymbols, -, hlink, -⟩ := sound_iff.mp h
  unfold befall
  rw [if_pos ha]
  dsimp only
  rw [aset_add_zero hsymbols, aset_add_zero hlink]

theorem touchRow_policed_sound {port a n : Nat} {s : State} (h : sound s = true) :
    sound (touchRow port a (policeRange port a n s)) = true := (policeRange_memWork port a n s).sound h

/-- The state in which a write waits in the queues and its port has its answer. -/
def writeAccepted (port a : Nat) (data : List Nat) (s : State) : State :=
  { withQueue ((granules a data).map (queuedWrite s)) (touchRow port a (policeRange port a data.length s)) with
    bus := ⟨port, 0, []⟩ }

/-- The state in which a read has waited for what is queued of it and its port has its answer. -/
def readAnswered (port a : Nat) (data : List Nat) (s : State) : State :=
  { policeRange port a data.length (allDrained (touchRow port a s)) with bus := ⟨port, 0, data⟩ }

theorem setupAccess_hbm {port a : Nat} (ha : a < hbmEnd) : setupAccess port a = false := by
  have : ¬ 0xF00000000000 ≤ a := by
    simp only [hbmEnd] at ha
    omega
  simp [setupAccess, inSetup, this]

theorem queuedWrite_policed (port a n : Nat) (s : State) : queuedWrite (policeRange port a n s) = queuedWrite s := by
  have h := (policeRange_policed port a n s).frame
  funext e
  rw [h]
  rfl

theorem queuedWrite_touchRow (port a : Nat) (s : State) : queuedWrite (touchRow port a s) = queuedWrite s := rfl

section

variable {s : State} {port ctx a : Nat} {data : List Nat} (he : a + data.length ≤ hbmEnd)
  (hp : a % 65536 + data.length ≤ 65536) (hd : data ≠ []) (hs : sound s = true)

include he hp hd hs

/-- A write that a sound memory serves is accepted into the queues (R358). -/
theorem exec_memoryWrite_accepted (hst : rangeStatus s port ctx a data.length true = 0) (hq : s.mem.queue = []) :
    exec (.memoryWrite port ctx a data {}) s = .next (writeAccepted port a data s) := by
  have hn : 0 < data.length := List.length_pos_iff.mpr hd
  have ha : a < hbmEnd := by omega
  have hbits : ¬ 2 ^ 48 < a + data.length := by
    simp only [hbmEnd] at he
    omega
  have hsound := touchRow_policed_sound (port := port) (a := a) (n := data.length) hs
  have hmeet : meetWrite a data.length (touchRow port a (policeRange port a data.length s)) =
      ([], touchRow port a (policeRange port a data.length s)) := by
    unfold meetWrite
    rw [hsound, if_neg (by simp)]
  have hqueue : (touchRow port a (policeRange port a data.length s)).mem.queue = [] :=
    (policeRange_policed port a data.length s).queue.trans hq
  have hfound : (withQueue ((granules a data).map (queuedWrite s)) (touchRow port a (policeRange port a data.length s))).mem.found
      = [] := (sound_iff.mp hsound).2.2.2.2
  have hput := enqueueWrite_queued hqueue hp hd
  rw [queuedWrite_touchRow, queuedWrite_policed] at hput
  change execMemoryWrite port ctx a data {} s = _
  unfold execMemoryWrite
  rw [befall_nothing ha hs, if_neg hbits, setupAccess_hbm ha, if_neg Bool.false_ne_true, if_pos ⟨ha, hd, hst⟩]
  unfold writeHbm
  rw [hmeet]
  dsimp only
  rw [List.isEmpty_nil, if_pos rfl, hput, settleFound_nil false [] hfound]
  rfl

/-- A read of what is queued waits for it and gives it (R357). -/
theorem exec_memoryRead_queued (hb : ∀ x ∈ data, x < 256) (hst : readStatus s port ctx a data.length = 0)
    (hc : seesCipher port ctx (ownerOf s a) = false) (hq : s.mem.queue = (granules a data).map (queuedWrite s))
    (hpause : pausedRange s a data.length = false) :
    exec (.memoryRead port ctx a data.length {}) s = .next (readAnswered port a data s) := by
  have hn : 0 < data.length := List.length_pos_iff.mpr hd
  have ha : a < hbmEnd := by omega
  have hbits : ¬ 2 ^ 48 < a + data.length := by
    simp only [hbmEnd] at he
    omega
  have hpoliced := policeRange_policed port a data.length (allDrained (touchRow port a s))
  have hsound : sound (policeRange port a data.length (allDrained (touchRow port a s))) = true :=
    ((allDrained_memWork (touchRow port a s)).trans (policeRange_memWork _ _ _ _)).sound hs
  have hdata : readBytes (policeRange port a data.length (allDrained (touchRow port a s))) port ctx a data.length = data := by
    refine Eq.trans ?_ (readBytes_allDrained (s := touchRow port a s) hp hd hq he hb hc)
    refine List.map_congr_left fun i hi => hpoliced.readByte_eq port ctx ?_
    have := List.mem_range.mp hi
    omega
  have hread : readMem port ctx a data.length (portLaunches s port 0x0711) (touchRow port a s) =
      (0, data, policeRange port a data.length (allDrained (touchRow port a s))) := by
    have hst' : readStatus (touchRow port a s) port ctx a data.length = 0 := hst
    unfold readMem
    rw [hst', drainRange_granules (s := touchRow port a s) hp hd hq]
    dsimp only
    rw [if_pos ha, hsound, if_pos rfl, hdata]
    rfl
  change execMemoryRead port ctx a data.length {} s = _
  unfold execMemoryRead
  rw [befall_nothing ha hs, if_neg hbits, setupAccess_hbm ha, if_neg Bool.false_ne_true, if_pos ⟨ha, hst⟩]
  have hwait : noteWait port ({} : MemUpset).waitNs s = s := if_neg (Nat.not_lt_zero _)
  unfold readHbm
  rw [hwait, hread]
  have hheld : heldUp s a data.length = none := by rw [heldUp, hpause, if_neg Bool.false_ne_true]
  rw [hheld]
  rfl

end

end Sys2Proof.Machine
end

section
namespace Sys2Proof.Machine

open Reg

/-! ## A read after a write -/

/-- The state with other writes queued, other rows open and another answer. -/
def queuing (tab : AMap StackState) (q : List QWrite) (x : BusAnswer) (s : State) : State :=
  { s with mem := { s.mem with stackTab := tab, queue := q }, bus := x }

/-- A write that waits has changed its queue, Plumb's buckets, the row that its bank holds open, and the port's answer. -/
theorem writeAccepted_eq (port a : Nat) (data : List Nat) (s : State) : ∃ y tab, Policed port s y ∧
    writeAccepted port a data s = queuing tab ((granules a data).map (queuedWrite s)) ⟨port, 0, []⟩ y := by
  refine ⟨policeRange port a data.length s, (touchRow port a (policeRange port a data.length s)).mem.stackTab,
    policeRange_policed port a data.length s, ?_⟩
  unfold writeAccepted queuing withQueue touchRow modStack
  rfl

/-- What waits in the queues refuses no access. -/
theorem accessStatus_queuing (tab : AMap StackState) (q : List QWrite) (x : BusAnswer) (s : State) :
    accessStatus (queuing tab q x s) = accessStatus s := by
  have hreach : reach (queuing tab q x s) = reach s :=
    funext fun m => funext fun n => reach_of_live rfl rfl (fun _ _ _ => rfl) m n
  have hmay : mayAccess (queuing tab q x s) = mayAccess s := rfl
  have howner : ownerOf (queuing tab q x s) = ownerOf s := rfl
  have hstack : stackIdx (queuing tab q x s) = stackIdx s := rfl
  have hpcie : (queuing tab q x s).pcieUp = s.pcieUp := rfl
  funext p ctx a write
  unfold accessStatus
  rw [hreach, hmay, howner, hstack, hpcie]

section

variable {s : State} {port a : Nat} {data : List Nat}

theorem writeAccepted_sound (hs : sound s = true) : sound (writeAccepted port a data s) = true := by
  obtain ⟨y, tab, hpolice, heq⟩ := writeAccepted_eq port a data s
  rw [heq, ← hs, hpolice.frame]
  rfl

theorem readStatus_writeAccepted (p ctx x n : Nat) :
    readStatus (writeAccepted port a data s) p ctx x n = readStatus s p ctx x n := by
  obtain ⟨y, tab, hpolice, heq⟩ := writeAccepted_eq port a data s
  have hy := rangeStatus_quiet hpolice.quiet (fun _ h => h ▸ linkFree_overRate port) p ctx x n false
  rw [readStatus, rangeStatus, heq, accessStatus_queuing, ← rangeStatus, hy, readStatus]

theorem homeEntry_writeAccepted : homeEntry (writeAccepted port a data s) = homeEntry s := by
  obtain ⟨y, tab, hpolice, heq⟩ := writeAccepted_eq port a data s
  rw [heq, ← hpolice.quiet.toHomeEntry]
  rfl

theorem ownerOf_writeAccepted : ownerOf (writeAccepted port a data s) = ownerOf s := by
  unfold ownerOf
  rw [homeEntry_writeAccepted]

theorem physOf_writeAccepted : physOf (writeAccepted port a data s) = physOf s := by
  unfold physOf stackIdx
  rw [homeEntry_writeAccepted]

theorem queue_writeAccepted :
    (writeAccepted port a data s).mem.queue = (granules a data).map (queuedWrite (writeAccepted port a data s)) := by
  obtain ⟨y, tab, hpolice, heq⟩ := writeAccepted_eq port a data s
  have hqueued : queuedWrite (queuing tab ((granules a data).map (queuedWrite s)) ⟨port, 0, []⟩ y) = queuedWrite s := by
    rw [hpolice.frame]
    rfl
  rw [heq, hqueued]
  rfl

/-- What a write that waits leaves. -/
theorem writeAccepted_frame : (writeAccepted port a data s).bus = ⟨port, 0, []⟩ ∧
    (writeAccepted port a data s).mem.cells = s.mem.cells ∧ (writeAccepted port a data s).mem.home = s.mem.home ∧
    (writeAccepted port a data s).fab = s.fab ∧ (writeAccepted port a data s).rings = s.rings ∧
    (writeAccepted port a data s).clock = s.clock := by
  obtain ⟨y, tab, hpolice, heq⟩ := writeAccepted_eq port a data s
  rw [heq]
  exact ⟨rfl, hpolice.cells, hpolice.home, hpolice.fab, hpolice.rings, hpolice.clock⟩

/-- A port's hint leaves the retraining of its stack. -/
theorem paused_touchRow (port x k pc : Nat) (s : State) : paused (touchRow port x s) k pc = paused s k pc := by
  have hstack : (stackOf (touchRow port x s) k).phase = (stackOf s k).phase ∧
      (stackOf (touchRow port x s) k).pair = (stackOf s k).pair := by
    unfold touchRow modStack
    rw [stackOf]
    dsimp only
    by_cases h : stackIdx s x = k
    · rw [h, aget_aset_self]
      exact ⟨rfl, rfl⟩
    · rw [aget_aset_ne _ _ _ _ _ _ h]
      exact ⟨rfl, rfl⟩
  rw [paused, hstack.1, hstack.2, paused]
  rfl

theorem pausedRange_writeAccepted (x n : Nat) : pausedRange (writeAccepted port a data s) x n = pausedRange s x n := by
  have hpaused : ∀ k pc, paused (writeAccepted port a data s) k pc = paused s k pc := fun k pc => by
    have h := (paused_touchRow port a k pc _).trans ((policeRange_policed port a data.length s).paused_eq k pc)
    rw [writeAccepted]
    generalize touchRow port a (policeRange port a data.length s) = y at h ⊢
    exact h
  have hstack : stackIdx (writeAccepted port a data s) = stackIdx s := by
    unfold stackIdx
    rw [homeEntry_writeAccepted]
  simp only [pausedRange, hpaused, hstack, physOf_writeAccepted]

/-- A read that waits for its bytes changes no line beside theirs, and no more of the state than memory, Plumb's own and the
port's answer. -/
theorem readAnswered_frame {t : State} (hp : a % 65536 + data.length ≤ 65536) (hd : data ≠ [])
    (hq : t.mem.queue = (granules a data).map (queuedWrite t)) : (readAnswered port a data t).bus = ⟨port, 0, data⟩ ∧
    (∀ p, p / 64 ∉ linesOf (physOf t a) data.length → rawByte (readAnswered port a data t) p = rawByte t p) ∧
    (readAnswered port a data t).fab = t.fab ∧ (readAnswered port a data t).rings = t.rings ∧
    (readAnswered port a data t).clock = t.clock := by
  have hoff : ∀ p, p / 64 ∉ linesOf (physOf t a) data.length → rawByte (allDrained (touchRow port a t)) p = rawByte t p :=
    fun p => rawByte_allDrained_off (s := touchRow port a t) hp hd hq
  have hdrain : Quiet (fun _ => False) (touchRow port a t) (allDrained (touchRow port a t)) := allDrained_quiet _
  have hrings : (allDrained (touchRow port a t)).rings = t.rings := (allDrained_memWork _).rings
  have hfab : (allDrained (touchRow port a t)).fab = t.fab := hdrain.toFab
  have hclock : (allDrained (touchRow port a t)).clock = t.clock := hdrain.toClock
  clear hdrain
  unfold readAnswered
  generalize allDrained (touchRow port a t) = d at *
  have hpolice := policeRange_policed port a data.length d
  generalize policeRange port a data.length d = u at *
  exact ⟨rfl, fun p h => (hpolice.rawByte_eq p).trans (hoff p h), hpolice.fab.trans hfab, hpolice.rings.trans hrings,
    hpolice.clock.trans hclock⟩

end

/-- Settles O24: the write waits in the queues whole, and the read drains it there. -/
theorem readAfterWrite : Obligations.ReadAfterWrite := by
  unfold Obligations.ReadAfterWrite
  intro s port ctx a data he hp hd hb hwrite hread hplain hq hs hpause
  have hexec := exec_memoryWrite_accepted he hp hd hs hwrite hq
  have hsound := writeAccepted_sound (port := port) (a := a) (data := data) hs
  have hstatus := (readStatus_writeAccepted (s := s) (port := port) (a := a) (data := data) port ctx a data.length).trans hread
  have howner : seesCipher port ctx (ownerOf (writeAccepted port a data s) a) = false := by
    rw [ownerOf_writeAccepted]
    exact hplain
  have hphys : physOf (writeAccepted port a data s) a = physOf s a := by rw [physOf_writeAccepted]
  have hqueue := queue_writeAccepted (s := s) (port := port) (a := a) (data := data)
  have hpaused := (pausedRange_writeAccepted (s := s) (port := port) (a := a) (data := data) a data.length).trans hpause
  have hframe := writeAccepted_frame (s := s) (port := port) (a := a) (data := data)
  generalize writeAccepted port a data s = t at *
  obtain ⟨hbus, hcells, hhome, hfab, hrings, hclock⟩ := hframe
  obtain ⟨hdata, hoff, hfab', hrings', hclock'⟩ := readAnswered_frame (port := port) hp hd hqueue
  refine ⟨t, _, hexec, hbus, hcells, hhome, hfab, hrings,
    exec_memoryRead_queued he hp hd hsound hb hstatus howner hqueue hpaused, hdata, fun p h => ?_, hfab'.trans hfab,
    hrings'.trans hrings, hclock'.trans hclock⟩
  have hlines : p / 64 ∉ linesOf (physOf t a) data.length := by
    rw [hphys, mem_linesOf (List.length_pos_iff.mpr hd)]
    omega
  exact (hoff p hlines).trans (congrArg (aget · p 0) hcells)

end Sys2Proof.Machine
end

section
namespace Sys2Proof.Machine

open Reg

/-! ## Changes of memory alone -/

/-- From s to t nothing but memory has changed. -/
def OnlyMem (s t : State) : Prop := t = { s with mem := t.mem }

namespace OnlyMem

variable {s t u : State}

protected theorem refl (s : State) : OnlyMem s s := rfl

protected theorem trans (h : OnlyMem s t) (g : OnlyMem t u) : OnlyMem s u := by
  unfold OnlyMem at h g ⊢
  rw [g, h]

theorem foldl {α : Type} (f : State → α → State) (l : List α) (hf : ∀ x a, OnlyMem x (f x a)) (s : State) :
    OnlyMem s (l.foldl f s) := by
  induction l generalizing s with
  | nil => exact .refl s
  | cons a r ih => exact (hf s a).trans (ih (f s a))

theorem ite {c : Prop} [Decidable c] (ht : OnlyMem s t) (hu : OnlyMem s u) : OnlyMem s (if c then t else u) := by
  split <;> assumption

theorem set (s : State) (m : MemState) : OnlyMem s { s with mem := m } := rfl

theorem regs (h : OnlyMem s t) : t.regs = s.regs := congrArg (·.regs) h
theorem clock (h : OnlyMem s t) : t.clock = s.clock := congrArg (·.clock) h
theorem fab (h : OnlyMem s t) : t.fab = s.fab := congrArg (·.fab) h
theorem rings (h : OnlyMem s t) : t.rings = s.rings := congrArg (·.rings) h
theorem now (h : OnlyMem s t) : now t = now s := congrArg ClockState.count h.clock

end OnlyMem

theorem modStack_onlyMem (k : Nat) (f : StackState → StackState) (s : State) : OnlyMem s (modStack k f s) := .set s _

theorem rekeyLine_onlyMem (l k : Nat) (s : State) : OnlyMem s (rekeyLine l k s) := by
  unfold rekeyLine
  exact .ite (.refl s) ((OnlyMem.foldl _ _ (fun x (e : Nat × Byte) => OnlyMem.set x _) s).trans (.set _ _))

theorem putPhys_onlyMem (p k : Nat) (l : List Nat) (s : State) : OnlyMem s (putPhys p k l s) := by
  rw [putPhys_eq, poke_cells, rekeyed]
  exact ((OnlyMem.foldl _ _ (fun x l => rekeyLine_onlyMem l k x) s).trans (.set _ _)).trans
    (.foldl _ _ (fun x l => .ite (.set x _) (.refl x)) _)

theorem drainQueues_onlyMem (hit : QWrite → Bool) (s : State) : OnlyMem s (drainQueues hit s) := by
  unfold drainQueues
  exact (OnlyMem.foldl _ _ (fun x (w : QWrite) => putPhys_onlyMem w.phys w.key w.data x) s).trans (.set _ _)

theorem drainPc_onlyMem (k pc : Nat) (s : State) : OnlyMem s (drainPc k pc s) := drainQueues_onlyMem _ s

/-! ## Stacks by their number -/

theorem stackOf_modStack_self (k : Nat) (f : StackState → StackState) (s : State) :
    stackOf (modStack k f s) k = f (stackOf s k) := aget_aset_self _ _ _ _

theorem stackOf_modStack_ne {k n : Nat} (h : k ≠ n) (f : StackState → StackState) (s : State) :
    stackOf (modStack k f s) n = stackOf s n := aget_aset_ne _ _ _ _ _ _ h

theorem stackOf_drainPc (k pc : Nat) (s : State) : stackOf (drainPc k pc s) = stackOf s := by
  have hquiet : Quiet (fun _ => True) s (drainPc k pc s) := drainQueues_quiet _ s
  unfold stackOf
  rw [hquiet.toStacks]

/-! ## WRITE_QUEUE_DRAIN -/

/-- What a drain of a pseudo-channel leaves queued (R356). -/
theorem mem_queue_drainPc {w : QWrite} {k pc : Nat} {s : State} :
    w ∈ (drainPc k pc s).mem.queue ↔ w ∈ s.mem.queue ∧ ¬ (w.stack = k ∧ w.pc = pc) := by
  change w ∈ s.mem.queue.filter (fun w => !(w.stack == k && w.pc == pc)) ↔ _
  simp only [List.mem_filter, Bool.not_eq_true', Bool.and_eq_false_iff, beq_eq_false_iff_ne, not_and_or]

theorem drainPc_single {w : QWrite} {s : State} (hq : s.mem.queue = [w]) :
    drainPc w.stack w.pc s = withQueue [] (drainOne w s) := by
  have hall : drainPc w.stack w.pc s = allDrained s := drainQueues_all fun v hv => by
    rw [hq, List.mem_singleton] at hv
    rw [hv]
    simp
  rw [hall, allDrained, hq]
  rfl

theorem exec_writeQueueDrain_runs {k pc : Nat} {s : State} (h : paused s k pc = false) :
    exec (.writeQueueDrain k pc) s = .next (drainPc k pc s) := by
  change Host.Outcome.next (if paused s k pc then s else drainPc k pc s) = _
  rw [h, if_neg Bool.false_ne_true]

theorem exec_writeQueueDrain_paused {k pc : Nat} {s : State} (h : paused s k pc = true) :
    exec (.writeQueueDrain k pc) s = .next s := by
  change Host.Outcome.next (if paused s k pc then s else drainPc k pc s) = _
  rw [h, if_pos rfl]

/-- The one write that waits is in place, under its key, and no other line has changed (R356, R358). -/
theorem drainPc_single_effect {w : QWrite} {s : State} (hq : s.mem.queue = [w]) (hd : w.data ≠ []) :
    (drainPc w.stack w.pc s).mem.queue = [] ∧
    (∀ i < w.data.length, physByte (drainPc w.stack w.pc s) (w.phys + i) w.key = BitVec.ofNat 8 (w.data.getD i 0)) ∧
    ∀ p, p / 64 < w.phys / 64 ∨ (w.phys + w.data.length - 1) / 64 < p / 64 →
      rawByte (drainPc w.stack w.pc s) p = rawByte s p ∧
      lineKeyOf (drainPc w.stack w.pc s) (p / 64) = lineKeyOf s (p / 64) := by
  rw [drainPc_single hq]
  refine ⟨rfl, fun i hi => physByte_putPhys_at w.phys w.key hi s, fun p hp => ?_⟩
  have hoff : p / 64 ∉ linesOf w.phys w.data.length := by
    rw [mem_linesOf (List.length_pos_iff.mpr hd)]
    omega
  exact ⟨rawByte_putPhys_off hoff hd w.key s, (lineKeyOf_putPhys _ _ _ _ s).trans (if_neg hoff)⟩

/-! ## PATROL_SCRUB -/

/-- An access of a line of a sound memory meets nothing (R360, R362). -/
theorem meetAt_sound {s : State} (h : sound s = true) (k l : Nat) : meetAt k l true s = ({}, s) := by
  obtain ⟨hpoison, hsymbols, hstray, hlink, -⟩ := sound_iff.mp h
  have hl : meetLink k (pcOf (l * 64)) s = (0, s) := by
    unfold meetLink
    rw [hlink]
    rfl
  have hc : meetCode l s = ({}, s) := by
    unfold meetCode strayLine
    rw [hpoison, hsymbols, hstray]
    rfl
  unfold meetAt
  rw [hl]
  dsimp only
  rw [if_neg (by decide), if_pos rfl, hc]
  rfl

theorem meetLine_sound {s : State} (h : sound s = true) (hq : s.mem.queue = []) (a : Nat) : meetLine a true s = (false, s) := by
  unfold meetLine
  rw [if_pos rfl, drainOverlap_nil hq]
  dsimp only
  rw [meetAt_sound h]
  simp

theorem scrubUsed_sound {s : State} (h : sound s = true) (hq : s.mem.queue = []) (a : Nat) : scrubUsed a s = s := by
  obtain ⟨-, -, -, -, hfound⟩ := sound_iff.mp h
  unfold scrubUsed
  rw [settleFound_nil false [] hfound, meetLine_sound h hq, settleFound_nil true [] hfound]

theorem scrubFree_sound {s : State} (h : sound s = true) (k p : Nat) : scrubFree k p s = s := by
  unfold scrubFree
  rw [meetAt_sound h]
  rfl

theorem befallPhys_nothing {s : State} (h : sound s = true) (k p : Nat) : befallPhys k p {} s = s := by
  obtain ⟨-, hsymbols, -, hlink, -⟩ := sound_iff.mp h
  unfold befallPhys
  dsimp only
  rw [aset_add_zero hsymbols, aset_add_zero hlink]

/-- The next line of patrol scrub on a stack (R363). -/
def scrubOn (k : Nat) (s : State) : State := modStack k (fun x => { x with scrubLine := (x.scrubLine + 1) % 402653184 }) s

theorem exec_patrolScrub_sound {s : State} {k : Nat} (hk : k < 4) (hq : s.mem.queue = []) (h : sound s = true) :
    exec (.patrolScrub k {}) s = .next (scrubOn k s) := by
  have hs : sound (scrubOn k s) = true := h
  have hqueue : (scrubOn k s).mem.queue = [] := hq
  change execPatrolScrub k {} s = _
  unfold execPatrolScrub
  rw [if_pos hk]
  dsimp only
  rw [← scrubOn, befallPhys_nothing hs]
  split
  · rw [scrubUsed_sound hs hqueue]
  · rw [scrubFree_sound hs]

/-! ## REFRESH -/

/-- The key of a bank of a pseudo-channel in the tables of its stack. -/
def bankKey (pc b : Nat) : Nat := pc * 4096 + b

/-- A bank refreshed at an instant; a refresh that was postponed is made up (R367, R370). -/
def refreshedAt (key time : Nat) (x : StackState) : StackState :=
  { x with refreshed := aset x.refreshed key time 0, openRow := aset x.openRow key 0 0,
           postponed := aset x.postponed key (aget x.postponed key 0 - 1) 0 }

/-- A refresh of a bank postponed (R370). -/
def postponedOnce (key : Nat) (x : StackState) : StackState :=
  { x with postponed := aset x.postponed key (aget x.postponed key 0 + 1) 0 }

theorem aget_refreshed_refreshedAt (key time : Nat) (x : StackState) : aget (refreshedAt key time x).refreshed key 0 = time := by
  rw [refreshedAt, aget_aset_self]

theorem aget_postponed_refreshedAt (key time : Nat) (x : StackState) :
    aget (refreshedAt key time x).postponed key 0 = aget x.postponed key 0 - 1 := by
  rw [refreshedAt, aget_aset_self]

theorem aget_postponed_postponedOnce (key : Nat) (x : StackState) :
    aget (postponedOnce key x).postponed key 0 = aget x.postponed key 0 + 1 := by
  rw [postponedOnce, aget_aset_self]

theorem exec_refresh_runs {s : State} {k pc b : Nat} (hk : k < 4) (hpc : pc < 32) (h : paused s k pc = false) :
    exec (.refresh k pc b) s = .next (modStack k (refreshedAt (bankKey pc b) (now s)) s) := by
  change execRefresh k pc b s = _
  unfold execRefresh
  rw [if_pos ⟨hk, hpc⟩, h]
  rfl

theorem exec_refresh_paused {s : State} {k pc b : Nat} (hk : k < 4) (hpc : pc < 32) (h : paused s k pc = true) :
    exec (.refresh k pc b) s = .next (modStack k (postponedOnce (bankKey pc b)) s) := by
  change execRefresh k pc b s = _
  unfold execRefresh
  rw [if_pos ⟨hk, hpc⟩, h]
  rfl

end Sys2Proof.Machine
end

section
namespace Sys2Proof.Machine

open Reg

/-! ## A pair of pseudo-channels stops -/

/-- The pair stands in the pause, its writes drained, and nothing but memory has changed (R369). -/
theorem startPair_effect (k pair : Nat) (s : State) : OnlyMem s (startPair k pair s) ∧
    stackOf (startPair k pair s) k = { stackOf s k with pair := pair, phase := 1, pairAt := now s } ∧
    ∀ w ∈ (startPair k pair s).mem.queue, w.stack = k → w.pc ≠ pair ∧ w.pc ≠ pair + 16 := by
  unfold startPair
  refine ⟨((drainPc_onlyMem k pair s).trans (drainPc_onlyMem k (pair + 16) _)).trans (modStack_onlyMem _ _ _), ?_,
    fun w hw hk => ?_⟩
  · rw [stackOf_modStack_self, stackOf_drainPc, stackOf_drainPc]
  · obtain ⟨hlow, hhigh⟩ := mem_queue_drainPc.mp hw
    exact ⟨fun e => (mem_queue_drainPc.mp hlow).2 ⟨hk, e⟩, fun e => hhigh ⟨hk, e⟩⟩

theorem passTo_rings (d : Nat) (s : State) : (passTo d s).rings = s.rings := by
  obtain ⟨g, c, h⟩ := passTo_frame d s
  rw [h]

theorem stackOf_passTo (d : Nat) (s : State) : stackOf (passTo d s) = stackOf s := by
  obtain ⟨g, c, h⟩ := passTo_frame d s
  rw [h]
  rfl

/-! ## RETRAIN_ROUND_START and RETRAIN_PAIR_START -/

/-- A stack's temperature as last read. -/
def stackTemp (s : State) (k : Nat) : Int := sext (rd s HBM_STATUS.temp_c (dieBase (k + 1))) 8

/-- A round noted at the instant at which it is due (R368). -/
def roundBegun (k : Nat) (s : State) : State :=
  let s1 := passTo (roundDue k (stackTemp s k) s) s
  modStack k (fun x => { x with roundStart := some (now s1), roundTemp := stackTemp s k })
    (wrB HBM_STATUS.retraining (dieBase (k + 1)) true s1)

theorem exec_retrainRoundStart_idle {s : State} {k : Nat} (hk : k < 4)
    (h : rdB s HBM_STATUS.retraining (dieBase (k + 1)) = false) :
    exec (.retrainRoundStart k) s = .next (startPair k 0 (roundBegun k s)) := by
  change execRetrainRoundStart k s = _
  unfold execRetrainRoundStart
  rw [if_pos ⟨hk, by rw [h]; rfl⟩]
  rfl

/-- The round runs from the instant at which it is due (R368, R369). -/
theorem roundBegun_effect (k : Nat) {s : State} (ht : ticking s = false) :
    rdB (roundBegun k s) HBM_STATUS.retraining (dieBase (k + 1)) = true ∧
    now (roundBegun k s) = max (now s) (roundDue k (stackTemp s k) s) ∧
    (stackOf (roundBegun k s) k).roundStart = some (now (roundBegun k s)) ∧
    (roundBegun k s).fab = s.fab ∧ (roundBegun k s).rings = s.rings := by
  have hnow := now_passTo (roundDue k (stackTemp s k) s) s ht
  have hfab := passTo_fab (roundDue k (stackTemp s k) s) s
  have hrings := passTo_rings (roundDue k (stackTemp s k) s) s
  unfold roundBegun
  generalize passTo (roundDue k (stackTemp s k) s) s = s1 at *
  refine ⟨rdB_wrB_self _ _ _ _ (by decide), hnow, ?_, hfab, hrings⟩
  rw [stackOf_modStack_self]
  rfl

theorem exec_retrainPairStart_gap {s : State} {k : Nat} (hk : k < 4)
    (h : rdB s HBM_STATUS.retraining (dieBase (k + 1)) = true) (hp : (stackOf s k).phase = 2) :
    exec (.retrainPairStart k) s =
      .next (startPair k ((stackOf s k).pair + 1) (passTo ((stackOf s k).pairAt + 20000) s)) := by
  change execRetrainPairStart k s = _
  unfold execRetrainPairStart
  rw [if_pos ⟨hk, h, hp⟩]

/-! ## Bits of a field -/

theorem bit_eq_testBit (n i : Nat) : bit n i = n.testBit i := by
  rw [bit, Nat.testBit_eq_decide_div_mod_eq, beq_eq_decide]

/-- A bit that is written is what it was written. -/
theorem bit_setBit_mod (n : Nat) {i w : Nat} (hi : i < w) (b : Bool) : bit (setBit n i b % 2 ^ w) i = b := by
  have hset : bit (setBit n i b) i = b := by
    cases h : bit n i with
    | false =>
      cases b with
      | false => simp [setBit, h]
      | true =>
        rw [setBit, h, if_neg Bool.false_ne_true, if_pos rfl, bit_eq_testBit, Nat.add_comm, Nat.testBit_two_pow_add_eq,
          ← bit_eq_testBit, h]
        rfl
    | true =>
      cases b with
      | true => simp [setBit, h]
      | false =>
        have hle : 2 ^ i ≤ n := Nat.ge_two_pow_of_testBit (by rw [← bit_eq_testBit, h])
        have hn : bit (2 ^ i + (n - 2 ^ i)) i = true := by rwa [Nat.add_sub_cancel' hle]
        rw [bit_eq_testBit, Nat.testBit_two_pow_add_eq, ← bit_eq_testBit, Bool.not_eq_true'] at hn
        simpa [setBit, h] using hn
  rw [bit_eq_testBit, Nat.testBit_mod_two_pow, ← bit_eq_testBit, hset]
  simp [hi]

/-! ## RETRAIN_PAIR_DONE -/

/-- No report changes a stack's status register. -/
theorem not_reportKey_hbmStatus {f : Field} (hf : f.off = 0x300000 ∧ f.lo < 64) (d : Nat) : ¬ reportKey (fkey f (dieBase d)) := by
  obtain ⟨hoff, hlo⟩ := hf
  simp only [reportKey, retryKey, fkey, hoff, dieBase, HST_EVT_DROP_COUNT.drops, HST_DEV_EQ_TAIL.tail,
    PLB_PORT_STATE.over_rate, HBM_CRC_RETRY_COUNT.retries, HST_CTX_STATE.stopped]
  rintro (h | h | h | ⟨e, h⟩ | ⟨c, hc, h⟩) <;> omega

/-- The outcome of a retraining changes no register but those of a report. -/
theorem rd_retrained (k pc : Nat) (ok : Bool) (s : State) {f : Field} {a : Nat} (h : ¬ reportKey (fkey f a)) :
    rd (retrained k pc ok s) f a = rd s f a := by
  unfold retrained
  extract_lets n s1 s2
  have hs1 : rd s1 f a = rd s f a := rfl
  have hs2 : rd s2 f a = rd s1 f a := (event_quiet _ _ _ _ _ _ s1).toRd f a h
  split
  · exact hs1
  · split
    · exact ((event_quiet _ _ _ _ _ _ s2).toRd f a h).trans (hs2.trans hs1)
    · exact hs2.trans hs1

theorem retrained_passed (k pc : Nat) (s : State) :
    retrained k pc true s = modStack k (fun x => { x with failRounds := aset x.failRounds pc 0 0 }) s := rfl

/-- The pair in work with its outcomes noted (R371). -/
def pairTried (k : Nat) (lo hi : Bool) (s : State) : State :=
  retrained k ((stackOf s k).pair + 16) hi (retrained k (stackOf s k).pair lo
    (wr HBM_STATUS.retrain_fail_map (dieBase (k + 1))
      (setBit (rd s HBM_STATUS.retrain_fail_map (dieBase (k + 1))) (stackOf s k).pair (!lo || !hi)) s))

/-- The pause of a pair over; after the last pair the round is (R369). -/
def pairEnded (k pair : Nat) (s : State) : State :=
  if pair = 15 then
    wrB HBM_STATUS.retraining (dieBase (k + 1)) false (modStack k (fun x => { x with phase := 0, roundEnd := some (now s) }) s)
  else modStack k (fun x => { x with phase := 2, pairAt := now s }) s

theorem exec_retrainPairDone_paused {s : State} {k : Nat} (hk : k < 4)
    (h : rdB s HBM_STATUS.retraining (dieBase (k + 1)) = true) (hp : (stackOf s k).phase = 1) (lo hi : Bool) :
    exec (.retrainPairDone k lo hi) s = .next (giveAnswers k (pairEnded k (stackOf s k).pair (pairTried k lo hi s))) := by
  change execRetrainPairDone k lo hi s = _
  unfold execRetrainPairDone
  rw [if_pos ⟨hk, h, hp⟩]
  rfl

/-- The answers that wait for a stack are given, the others wait on (R369). -/
theorem giveAnswers_frame (k : Nat) (s : State) : ∃ x, giveAnswers k s =
    { s with mem := { s.mem with answers := s.mem.answers.filter (fun y => y.stack != k) }, bus := x } := by
  unfold giveAnswers
  generalize s.mem.answers.filter (fun x => x.stack == k) = l
  generalize hu : ({ s with mem := { s.mem with answers := s.mem.answers.filter (fun y => y.stack != k) } } : State) = u
  suffices h : ∃ x, l.foldl (fun s (x : HeldAnswer) => { s with bus := ⟨x.port, x.status, x.data⟩ }) u = { u with bus := x } by
    obtain ⟨x, hx⟩ := h
    exact ⟨x, by rw [hx, ← hu]⟩
  clear hu
  induction l generalizing u with
  | nil => exact ⟨u.bus, rfl⟩
  | cons y r ih => exact ih { u with bus := ⟨y.port, y.status, y.data⟩ }

theorem rd_pairTried (k : Nat) (lo hi : Bool) (s : State) {f : Field} {a : Nat} (h : ¬ reportKey (fkey f a))
    (hne : fkey HBM_STATUS.retrain_fail_map (dieBase (k + 1)) ≠ fkey f a) : rd (pairTried k lo hi s) f a = rd s f a :=
  (rd_retrained _ _ _ _ h).trans ((rd_retrained _ _ _ _ h).trans (rd_wr_ne _ _ _ _ _ _ hne))

theorem rd_pairTried_failMap (k : Nat) (lo hi : Bool) (s : State) :
    rd (pairTried k lo hi s) HBM_STATUS.retrain_fail_map (dieBase (k + 1)) =
      setBit (rd s HBM_STATUS.retrain_fail_map (dieBase (k + 1))) (stackOf s k).pair (!lo || !hi) % 2 ^ 16 := by
  have h : ¬ reportKey (fkey HBM_STATUS.retrain_fail_map (dieBase (k + 1))) := not_reportKey_hbmStatus (by decide) _
  exact (rd_retrained _ _ _ _ h).trans ((rd_retrained _ _ _ _ h).trans (rd_wr_self _ _ _ _))

theorem fkey_failMap_ne (k : Nat) :
    fkey HBM_STATUS.retrain_fail_map (dieBase (k + 1)) ≠ fkey HBM_STATUS.retraining (dieBase (k + 1)) := by
  simp only [fkey, HBM_STATUS.retrain_fail_map, HBM_STATUS.retraining]
  omega

theorem rdB_pairTried_retraining (k : Nat) (lo hi : Bool) (s : State) :
    rdB (pairTried k lo hi s) HBM_STATUS.retraining (dieBase (k + 1)) = rdB s HBM_STATUS.retraining (dieBase (k + 1)) :=
  congrArg (· == 1) (rd_pairTried k lo hi s (not_reportKey_hbmStatus (by decide) _) (fkey_failMap_ne k))

theorem stackOf_wrB (f : Field) (a : Nat) (b : Bool) (s : State) : stackOf (wrB f a b s) = stackOf s := rfl

/-- The end of a pause changes its stack's phase and, after the last pair, the retraining bit. -/
theorem pairEnded_effect (k pair : Nat) {s : State} (h : rdB s HBM_STATUS.retraining (dieBase (k + 1)) = true) :
    rdB (pairEnded k pair s) HBM_STATUS.retraining (dieBase (k + 1)) = decide (pair ≠ 15) ∧
    rd (pairEnded k pair s) HBM_STATUS.retrain_fail_map (dieBase (k + 1)) =
      rd s HBM_STATUS.retrain_fail_map (dieBase (k + 1)) ∧
    (stackOf (pairEnded k pair s) k).phase = (if pair = 15 then 0 else 2) ∧
    (pair = 15 → (stackOf (pairEnded k pair s) k).roundEnd = some (now s)) ∧
    (pairEnded k pair s).mem.cells = s.mem.cells ∧ (pairEnded k pair s).rings = s.rings := by
  unfold pairEnded
  split
  · next hlast =>
    rw [stackOf_wrB, stackOf_modStack_self]
    refine ⟨?_, rd_wr_ne _ _ _ _ _ _ (fkey_failMap_ne k).symm, rfl, fun _ => rfl, rfl, rfl⟩
    rw [rdB_wrB_self _ _ _ _ (by decide), hlast]
    rfl
  · next hmore =>
    rw [stackOf_modStack_self]
    exact ⟨by rw [decide_eq_true hmore]; exact h, rfl, rfl, fun hlast => absurd hlast hmore, rfl, rfl⟩

/-- A pair that passes has its outcomes noted in memory and in the map alone. -/
theorem pairTried_passed (k : Nat) (s : State) : now (pairTried k true true s) = now s ∧
    (pairTried k true true s).mem.cells = s.mem.cells ∧ (pairTried k true true s).rings = s.rings := by
  unfold pairTried
  rw [retrained_passed, retrained_passed]
  exact ⟨rfl, rfl, rfl⟩

end Sys2Proof.Machine
end

section
namespace Sys2Proof.Machine

open Reg

/-! ## The ledger leaves the temperatures alone -/

/-- A register that is no stack's temperature and no stack's hot bit (R785). -/
def thermalFree (k : Nat) : Prop := ∀ d, k ≠ fkey HBM_STATUS.hot (dieBase d) ∧ k ≠ fkey HBM_STATUS.temp_c (dieBase d)

theorem thermalFree_reportKey (k : Nat) (h : reportKey k) : thermalFree k := fun d =>
  ⟨fun e => not_reportKey_hbmStatus (f := HBM_STATUS.hot) (by decide) d (e ▸ h),
    fun e => not_reportKey_hbmStatus (f := HBM_STATUS.temp_c) (by decide) d (e ▸ h)⟩

theorem event_thermal (st die ctx unit sev : Nat) (p : List Nat) (s : State) :
    Quiet thermalFree s (event st die ctx unit sev p s) := (event_quiet _ _ _ _ _ _ s).mono thermalFree_reportKey

theorem thermalFree_portState {f : Field} (hf : f.off = 0xa0000c ∧ f.lo < 64) (e : Nat) : thermalFree (fkey f (e * 16)) := by
  intro d
  simp only [fkey, hf.1, dieBase, HBM_STATUS.hot, HBM_STATUS.temp_c]
  omega

theorem thermalFree_lo {f : Field} (hf : f.lo = 0 ∨ f.lo = 16) (a : Nat) : thermalFree (fkey f a) := by
  intro d
  simp only [fkey, HBM_STATUS.hot, HBM_STATUS.temp_c]
  omega

/-- A contract that is dropped changes Plumb's registers and what an event does (R378, R379). -/
theorem dropEntry_thermal (e : Nat) (s : State) : Quiet thermalFree s (dropEntry e s) := by
  unfold dropEntry
  extract_lets s1
  have hentry : Quiet thermalFree s s1 := by
    unfold s1
    split
    · exact (wr_quiet _ _ _ s (thermalFree_portState (by decide) e)).trans
        (wr_quiet _ _ _ _ (thermalFree_portState (by decide) e))
    · exact wr_quiet _ _ _ s (thermalFree_lo (by decide) _)
  exact (hentry.trans (wr_quiet _ _ _ _ (thermalFree_lo (by decide) _))).trans (event_thermal _ _ _ _ _ _ _)

theorem shed_thermal (beyond : State → Bool) (chargers : State → List Nat) (n : Nat) (s : State) :
    Quiet thermalFree s (shed beyond chargers n s) := by
  induction n generalizing s with
  | zero => exact .refl s
  | succ n ih =>
    unfold shed
    split
    · split
      · exact (dropEntry_thermal _ s).trans (ih _)
      · exact .refl s
    · exact .refl s

theorem fit_thermal (beyond : State → Bool) (chargers : State → List Nat) (tag : Nat) (s : State) :
    Quiet thermalFree s (fit beyond chargers tag s) := by
  unfold fit
  dsimp only
  split
  · exact (shed_thermal _ _ _ s).trans (event_thermal _ _ _ _ _ _ _)
  · exact shed_thermal _ _ _ s

theorem refreshLedger_thermal (s : State) : Quiet thermalFree s (refreshLedger s) :=
  .foldl _ _ (fun x _ => (wr_quiet _ _ _ x (thermalFree_lo (by decide) _)).trans (wr_quiet _ _ _ _ (thermalFree_lo (by decide) _))) s

theorem reevaluate_thermal (s : State) : Quiet thermalFree s (reevaluate s) := by
  unfold reevaluate
  split
  · exact .refl s
  · exact ((Quiet.foldl _ _ (fun x _ => fit_thermal _ _ _ x) s).trans
      (Quiet.foldl _ _ (fun x _ => fit_thermal _ _ _ x) _)).trans (refreshLedger_thermal _)

/-! ## STACK_TEMP_READ -/

/-- A temperature noted (R785). -/
def tempNoted (k : Nat) (c : Int) (s : State) : State := wr HBM_STATUS.temp_c (dieBase (k + 1)) (enc c 8) s

/-- The hot bit after a reading: set from 85 °C, cleared below 80 °C (R785). -/
def hotAfter (k : Nat) (c : Int) (s : State) : Bool :=
  if 85 ≤ c then true else if c < 80 then false else rdB s HBM_STATUS.hot (dieBase (k + 1))

theorem enc_lt (c : Int) (w : Nat) : enc c w < 2 ^ w := by
  have hpos : (0 : Int) < (2 ^ w : Nat) := by exact_mod_cast Nat.two_pow_pos w
  unfold enc
  have h1 := Int.emod_nonneg c (ne_of_gt hpos)
  have h2 := Int.emod_lt_of_pos c hpos
  omega

theorem fkey_temp_ne_hot (a : Nat) : fkey HBM_STATUS.temp_c a ≠ fkey HBM_STATUS.hot a := by
  simp only [fkey, HBM_STATUS.temp_c, HBM_STATUS.hot]
  omega

/-- A reading is noted with its hot bit, and a change of that bit is reported and has the ledger looked at again (R378). -/
theorem exec_stackTempRead_quiet {k : Nat} (hk : k < 4) (c : Int) (s : State) :
    ∃ u t, exec (.stackTempRead k c) s = .next t ∧ Quiet thermalFree u t ∧ u.clock = s.clock ∧ u.fab = s.fab ∧
      rd u HBM_STATUS.temp_c (dieBase (k + 1)) = enc c 8 ∧ rdB u HBM_STATUS.hot (dieBase (k + 1)) = hotAfter k c s := by
  have hnoted : rd (tempNoted k c s) HBM_STATUS.temp_c (dieBase (k + 1)) = enc c 8 :=
    (rd_wr_self _ _ _ _).trans (Nat.mod_eq_of_lt (enc_lt c 8))
  have hheld : rdB (tempNoted k c s) HBM_STATUS.hot (dieBase (k + 1)) = rdB s HBM_STATUS.hot (dieBase (k + 1)) :=
    congrArg (· == 1) (rd_wr_ne _ _ _ _ _ _ (fkey_temp_ne_hot _))
  have hset : ∀ b, rd (wrB HBM_STATUS.hot (dieBase (k + 1)) b (tempNoted k c s)) HBM_STATUS.temp_c (dieBase (k + 1)) = enc c 8 :=
    fun b => (rd_wr_ne _ _ _ _ _ _ (fkey_temp_ne_hot _).symm).trans hnoted
  change ∃ u t, execStackTempRead k c s = _ ∧ _
  unfold execStackTempRead hotAfter
  rw [if_pos hk]
  dsimp only
  rw [← tempNoted]
  split
  · next hot =>
    refine ⟨_, _, rfl, (event_thermal _ _ _ _ _ _ _).trans (reevaluate_thermal _), rfl, rfl, hset true, ?_⟩
    rw [rdB_wrB_self _ _ _ _ (by decide), if_pos hot.1]
  · next hot =>
    split
    · next cool =>
      refine ⟨_, _, rfl, (event_thermal _ _ _ _ _ _ _).trans (refreshLedger_thermal _), rfl, rfl, hset false, ?_⟩
      rw [rdB_wrB_self _ _ _ _ (by decide), if_neg (by omega), if_pos cool.1]
    · next cool =>
      refine ⟨_, _, rfl, .refl _, rfl, rfl, hnoted, hheld.trans ?_⟩
      split
      · next h => simpa [h] using hot
      · split
        · next h => simpa [h] using cool
        · rfl

/-! ## The home controllers -/

/-- Settles O25: clause by clause the commands of a stack's controller. -/
theorem homeControllers : Obligations.HomeControllers := by
  unfold Obligations.HomeControllers
  refine ⟨?drain, ?paused, ?scrub, ?refresh, ?postpone, ?round, ?pairStart, ?pairDone, ?temperature⟩
  case drain =>
    rintro s k pc w hq rfl rfl hd hpause
    obtain ⟨hempty, hbytes, hoff⟩ := drainPc_single_effect hq hd
    exact ⟨_, exec_writeQueueDrain_runs hpause, hempty, hbytes, hoff, drainPc_onlyMem _ _ s⟩
  case paused => exact fun s k pc h => exec_writeQueueDrain_paused h
  case scrub =>
    intro s k hk hq hs
    refine ⟨_, exec_patrolScrub_sound hk hq hs, ?_, rfl, rfl, fun n hn => stackOf_modStack_ne (Ne.symm hn) _ s⟩
    rw [scrubOn, stackOf_modStack_self]
  case refresh =>
    intro s k pc b hk hpc hpause
    refine ⟨_, exec_refresh_runs hk hpc hpause, ?_, ?_, rfl, rfl⟩
    · rw [stackOf_modStack_self]
      exact aget_refreshed_refreshedAt _ _ _
    · rw [stackOf_modStack_self]
      exact aget_postponed_refreshedAt _ _ _
  case postpone =>
    intro s k pc b hk hpc hpause
    refine ⟨_, exec_refresh_paused hk hpc hpause, ?_, ?_, rfl, rfl⟩
    · rw [stackOf_modStack_self]
      rfl
    · rw [stackOf_modStack_self]
      exact aget_postponed_postponedOnce _ _
  case round =>
    intro s k hk hidle ht
    obtain ⟨hrun, hnow, hstart, hfab, hrings⟩ := roundBegun_effect k ht
    obtain ⟨hmem, hstack, hqueue⟩ := startPair_effect k 0 (roundBegun k s)
    refine ⟨_, exec_retrainRoundStart_idle hk hidle, ?_, hmem.now.trans hnow, ?_, ?_, ?_, hqueue, hmem.fab.trans hfab,
      hmem.rings.trans hrings⟩
    · rw [rdB, rd_congr hmem.regs]
      exact hrun
    · rw [hstack, hmem.now]
      exact hstart
    · rw [hstack]
    · rw [hstack]
  case pairStart =>
    intro s k hk hrun hp ht
    obtain ⟨hmem, hstack, hqueue⟩ := startPair_effect k ((stackOf s k).pair + 1) (passTo ((stackOf s k).pairAt + 20000) s)
    exact ⟨_, exec_retrainPairStart_gap hk hrun hp, hmem.now.trans (now_passTo _ s ht), by rw [hstack], by rw [hstack],
      hqueue, hmem.fab.trans (passTo_fab _ s), hmem.rings.trans (passTo_rings _ s)⟩
  case pairDone =>
    intro s k hk hrun hp
    have heffect := fun lo hi => pairEnded_effect k (stackOf s k).pair ((rdB_pairTried_retraining k lo hi s).trans hrun)
    refine ⟨fun lo hi hpair => ?_, ?_⟩
    · obtain ⟨hbit, hmap, hphase, -, -, -⟩ := heffect lo hi
      have hfail := bit_setBit_mod (rd s HBM_STATUS.retrain_fail_map (dieBase (k + 1))) hpair (!lo || !hi)
      rw [← rd_pairTried_failMap, ← hmap] at hfail
      obtain ⟨x, hx⟩ := giveAnswers_frame k (pairEnded k (stackOf s k).pair (pairTried k lo hi s))
      refine ⟨_, exec_retrainPairDone_paused hk hrun hp lo hi, ?_⟩
      rw [hx]
      exact ⟨hfail, hbit, hphase⟩
    · obtain ⟨hbit, -, hphase, hend, hcells, hrings⟩ := heffect true true
      obtain ⟨hnow, htried, htriedRings⟩ := pairTried_passed k s
      obtain ⟨x, hx⟩ := giveAnswers_frame k (pairEnded k (stackOf s k).pair (pairTried k true true s))
      refine ⟨_, exec_retrainPairDone_paused hk hrun hp true true, ?_⟩
      rw [hx]
      refine ⟨hbit, hphase, fun h => (hend h).trans (congrArg some hnow), fun y hy => ?_, hcells.trans htried,
        hrings.trans htriedRings⟩
      simpa using (List.mem_filter.mp hy).2
  case temperature =>
    intro s k c hk hlo hhi
    obtain ⟨u, t, hexec, hquiet, hclock, hfab, htemp, hhot⟩ := exec_stackTempRead_quiet hk c s
    have hfree : ¬ thermalFree (fkey HBM_STATUS.hot (dieBase (k + 1))) := fun h => (h (k + 1)).1 rfl
    have hnow : rdB t HBM_STATUS.hot (dieBase (k + 1)) = hotAfter k c s :=
      (congrArg (· == 1) (hquiet.toRd _ _ hfree)).trans hhot
    refine ⟨t, hexec, (hquiet.toRd _ _ (fun h => (h (k + 1)).2 rfl)).trans htemp, fun h => ?_, fun h => ?_, fun h g => ?_,
      hquiet.toClock.trans hclock, hquiet.toFab.trans hfab⟩
    · rw [hnow, hotAfter, if_pos h]
    · rw [hnow, hotAfter, if_neg (by omega), if_pos h]
    · rw [hnow, hotAfter, if_neg (by omega), if_neg (by omega)]

end Sys2Proof.Machine
end

section
namespace Sys2Proof.Machine

open Reg

/-! ## Changes of registers alone -/

/-- From s to t nothing but registers has changed. -/
def OnlyRegs (s t : State) : Prop := t = { s with regs := t.regs }

namespace OnlyRegs

variable {s t u : State}

protected theorem refl (s : State) : OnlyRegs s s := rfl

protected theorem trans (h : OnlyRegs s t) (g : OnlyRegs t u) : OnlyRegs s u := by
  unfold OnlyRegs at h g ⊢
  rw [g, h]

theorem foldl {α : Type} (f : State → α → State) (l : List α) (hf : ∀ x a, OnlyRegs x (f x a)) (s : State) :
    OnlyRegs s (l.foldl f s) := by
  induction l generalizing s with
  | nil => exact .refl s
  | cons a r ih => exact (hf s a).trans (ih (f s a))

theorem ite {c : Prop} [Decidable c] (ht : OnlyRegs s t) (hu : OnlyRegs s u) : OnlyRegs s (if c then t else u) := by
  split <;> assumption

end OnlyRegs

theorem wr_onlyRegs (f : Field) (a v : Nat) (s : State) : OnlyRegs s (wr f a v s) := rfl

theorem wrB_onlyRegs (f : Field) (a : Nat) (b : Bool) (s : State) : OnlyRegs s (wrB f a b s) := rfl

theorem commitAt_onlyRegs (die off : Nat) (s : State) : OnlyRegs s (commitAt die off s) := rfl

theorem commitDone_onlyRegs (die : Nat) (r : Refuse) (s : State) : OnlyRegs s (commitDone die r s) := rfl

theorem acceptStaged_onlyRegs (l : List (Field × Nat)) (s : State) : OnlyRegs s (acceptStaged l s) := by
  obtain ⟨g, hg⟩ := acceptStaged_frame l s
  rw [hg]
  rfl

theorem rdB_wr_ne (f g : Field) (a b v : Nat) (s : State) (h : fkey f a ≠ fkey g b) : rdB (wr f a v s) g b = rdB s g b :=
  congrArg (· == 1) (rd_wr_ne f g a b v s h)

/-- A change of memory alone, then one of registers alone. -/
theorem memRegs_frame {s t u : State} (h : OnlyMem s t) (g : OnlyRegs t u) : u = { s with mem := u.mem, regs := u.regs } := by
  unfold OnlyMem OnlyRegs at *
  rw [g, h]

/-- A commit that puts staged fields in force and does nothing else (R763, R764, R769). -/
theorem commit_fields_effect {die off v : Nat} {checks : List (Bool × Refuse)} {l : List (Field × Nat)} {s : State}
    (hv : v % 2 = 1) (hd : dieSilent s die = false) (hc : firstFail checks = none) (hl : (l.map comKey).Nodup) :
    rd (commit die off v checks (acceptStaged l) s) FAB_COMMIT_STATUS.status (dieBase die) = 0 ∧
    (∀ x ∈ l, com (commit die off v checks (acceptStaged l) s) x.1 x.2 = stg s x.1 x.2 % 2 ^ x.1.width) ∧
    OnlyRegs s (commit die off v checks (acceptStaged l) s) := by
  rw [commit_accepted hv hd hc]
  refine ⟨rd_commitDone_status _ _ _ (by decide), fun x hx => ?_,
    ((commitAt_onlyRegs _ _ s).trans (acceptStaged_onlyRegs _ _)).trans (commitDone_onlyRegs _ _ _)⟩
  rw [com_commitDone, com_acceptStaged hl hx, stg_commitAt]

/-! ## HBM_SHARE_COMMIT and HBM_COMMIT -/

theorem shareFields_nodup : (shareFields.map comKey).Nodup := by decide +kernel

theorem exec_hbmCommit_reached {s : State} {k : Nat} (hk : k < 4) (h : reach s 0 (k + 1) = true) (v : Nat) :
    exec (.hbmCommit k v) s = .next (commit (k + 1) 0x30001C v
      [(stg s HBM_CE_THRESH.threshold (dieBase (k + 1)) == 0, (0x0002, 0x300018))]
      (acceptStaged [(HBM_CE_THRESH.threshold, dieBase (k + 1))]) s) := by
  change execHbmCommit k v s = _
  unfold execHbmCommit
  rw [if_pos hk, ifReached_reached h]

theorem exec_hbmCommit_unreached {s : State} {k : Nat} (hk : k < 4) (h : reach s 0 (k + 1) = false) (v : Nat) :
    exec (.hbmCommit k v) s = .next { s with bus := ⟨68, 0x0810, []⟩ } := by
  change execHbmCommit k v s = _
  unfold execHbmCommit
  rw [if_pos hk, ifReached_unreached (by omega) (by omega) h]

/-! ## HBM_MAP_COMMIT -/

/-- The entries that the staged run of a map commit names in an image of it (R351). -/
def runEntries (s : State) (img : List Nat) : List Nat :=
  (List.range (stg s HBM_MAP_COUNT.count)).map (fun i => fld img (4 * i) 4)

/-- A map commit that passes its checks takes its run (R352). -/
theorem exec_hbmMapCommit_taken {s s1 : State} {v : Nat} {img : List Nat} (hv : v % 2 = 1) (hd : dieSilent s 0 = false)
    (hsetup : firstFail (mapSetup s) = none)
    (hread : readMem 72 0xFF (stg s HBM_MAP_SRC.src) (stg s HBM_MAP_COUNT.count * 4) [] (commitAt 0 0xB00020 s) = (0, img, s1))
    (hchecks : mapChecks s1 (stg s HBM_MAP_FIRST.first) (stg s HBM_MAP_COUNT.count) (runEntries s img) = none) :
    exec (.hbmMapCommit v) s =
      .next (mapStart (stg s HBM_MAP_FIRST.first) (stg s HBM_MAP_COUNT.count) (runEntries s img) s1) := by
  change execHbmMapCommit v s = _
  unfold execHbmMapCommit
  rw [if_neg (by omega), hd, if_neg Bool.false_ne_true, hsetup]
  dsimp only
  rw [hread]
  dsimp only
  rw [if_neg (by simp), ← runEntries, hchecks]

theorem runEntries_take (s : State) (img : List Nat) :
    (runEntries s img).take (stg s HBM_MAP_COUNT.count) = runEntries s img := List.take_of_length_le (by simp [runEntries])

/-- A run that is taken waits to be installed, with busy set. -/
theorem mapStart_effect (first count : Nat) (es : List Nat) (s : State) :
    rdB (mapStart first count es s) HBM_MAP_STATUS.busy = true ∧ (mapStart first count es s).mem.home = s.mem.home ∧
    (mapStart first count es s).mem.mapJob = some ⟨first, es.take count⟩ ∧ (mapStart first count es s).fab = s.fab := by
  have hmem := acceptStaged_mem [(HBM_MAP_SRC.src, 0), (HBM_MAP_FIRST.first, 0), (HBM_MAP_COUNT.count, 0)] s
  have hfab := acceptStaged_fab [(HBM_MAP_SRC.src, 0), (HBM_MAP_FIRST.first, 0), (HBM_MAP_COUNT.count, 0)] s
  unfold mapStart commitBusy
  refine ⟨?_, congrArg (·.home) hmem, rfl, hfab⟩
  rw [rdB_wr_ne _ _ _ _ _ _ (by decide), rdB_wrB_self _ _ _ _ (by decide)]

/-! ## MAP_COMMIT_COMPLETE -/

theorem installEntry_onlyMem (p e : Nat) (s : State) : OnlyMem s (installEntry p e s) := by
  unfold installEntry
  exact .ite (.set s _) (.set s _)

theorem homeEntry_zeroFrame (frame key : Nat) (s : State) : homeEntry (zeroFrame frame key s) = homeEntry s := rfl

/-- One entry installed is the page's, and every other page keeps its own (R352). -/
theorem homeEntry_installEntry (p e q : Nat) (s : State) :
    homeEntry (installEntry p e s) q = if p = q then e else homeEntry s q := by
  have hset : homeEntry { s with mem := { s.mem with home := aset s.mem.home p e (dawnEntry s p) } } q =
      if p = q then e else homeEntry s q := aget_aset _ _ _ _ _ _ (fun h => by rw [h]; rfl)
  unfold installEntry
  dsimp only
  split
  · rw [homeEntry_zeroFrame, hset]
  · exact hset

/-- The entries of a run installed in order. -/
def runInstalled (first : Nat) (es : List Nat) (s : State) : State :=
  ((List.range es.length).zip es).foldl (fun s e => installEntry (first + e.1) e.2 s) s

theorem runInstalled_concat (first : Nat) (es : List Nat) (e : Nat) (s : State) :
    runInstalled first (es ++ [e]) s = installEntry (first + es.length) e (runInstalled first es s) := by
  unfold runInstalled
  rw [List.length_append, List.length_singleton, List.range_succ, List.zip_append (by simp), List.foldl_append]
  rfl

theorem runInstalled_onlyMem (first : Nat) (es : List Nat) (s : State) : OnlyMem s (runInstalled first es s) :=
  .foldl _ _ (fun x _ => installEntry_onlyMem _ _ x) s

/-- A run installed gives the map that its checks looked at (R350, R352). -/
theorem homeEntry_runInstalled (first : Nat) (es : List Nat) (s : State) (q : Nat) :
    homeEntry (runInstalled first es s) q = entryAfter s first es q := by
  induction es using List.reverseRecOn with
  | nil => simp [runInstalled, entryAfter]
  | append_singleton es e ih =>
    rw [runInstalled_concat, homeEntry_installEntry, ih]
    simp only [entryAfter, List.length_append, List.length_singleton]
    by_cases hlast : first + es.length = q
    · rw [if_pos hlast, if_pos (by omega), List.getD_append_right _ _ _ _ (by omega)]
      simp [← hlast]
    · rw [if_neg hlast]
      by_cases hin : first ≤ q ∧ q < first + es.length
      · rw [if_pos hin, if_pos (by omega), List.getD_append _ _ _ _ (by omega)]
      · rw [if_neg hin, if_neg (by omega)]

/-- A run put in the map, with its work cleared and its result noted (R352, R769). -/
def mapDone (j : MapJob) (s : State) : State :=
  mapResult 0 0 0 (wrB HBM_MAP_STATUS.busy 0 false
    { runInstalled j.first j.entries s with mem := { (runInstalled j.first j.entries s).mem with mapJob := none } })

theorem exec_mapCommitComplete_runs {s : State} {j : MapJob} (h : s.mem.mapJob = some j) :
    exec .mapCommitComplete s = .next (mapDone j s) := by
  change execMapCommitComplete s = _
  unfold execMapCommitComplete
  rw [h]
  rfl

/-- The end of a map commit's work changes no byte, no key and no page. -/
theorem mapDone_reads (j : MapJob) (s : State) : rawByte (mapDone j s) = rawByte (runInstalled j.first j.entries s) ∧
    physByte (mapDone j s) = physByte (runInstalled j.first j.entries s) ∧
    keyOf (mapDone j s) = keyOf (runInstalled j.first j.entries s) ∧
    homeEntry (mapDone j s) = homeEntry (runInstalled j.first j.entries s) := by
  unfold mapDone
  generalize runInstalled j.first j.entries s = u
  refine ⟨?_, ?_, ?_, ?_⟩
  · unfold rawByte
    rfl
  · unfold physByte rawByte lineKeyOf frameKeyOf frameBase
    rfl
  · unfold keyOf
    rfl
  · unfold homeEntry dawnEntry
    rfl

theorem homeEntry_mapDone (j : MapJob) (s : State) (q : Nat) : homeEntry (mapDone j s) q = entryAfter s j.first j.entries q := by
  rw [(mapDone_reads j s).2.2.2, homeEntry_runInstalled]

/-- The result of a map commit stands in its status, with busy clear. -/
theorem mapDone_status (j : MapJob) (s : State) :
    rdB (mapDone j s) HBM_MAP_STATUS.busy = false ∧ rd (mapDone j s) HBM_MAP_STATUS.status = 0 := by
  unfold mapDone mapResult commitDone
  constructor
  · rw [rdB_wr_ne _ _ _ _ _ _ (by decide), rdB_wr_ne _ _ _ _ _ _ (by decide), rdB_wr_ne _ _ _ _ _ _ (by decide),
      rdB_wr_ne _ _ _ _ _ _ (by decide), rdB_wr_ne _ _ _ _ _ _ (by decide), rdB_wrB_self _ _ _ _ (by decide)]
  · rw [rd_wr_ne _ _ _ _ _ _ (by decide), rd_wr_ne _ _ _ _ _ _ (by decide), rd_wr_ne _ _ _ _ _ _ (by decide),
      rd_wr_ne _ _ _ _ _ _ (by decide), rd_wr_self]
    rfl

theorem mapDone_frame (j : MapJob) (s : State) : mapDone j s = { s with mem := (mapDone j s).mem, regs := (mapDone j s).regs } := by
  have hmem : OnlyMem s
      { runInstalled j.first j.entries s with mem := { (runInstalled j.first j.entries s).mem with mapJob := none } } :=
    (runInstalled_onlyMem j.first j.entries s).trans (.set _ _)
  exact memRegs_frame hmem (((wrB_onlyRegs _ _ _ _).trans (wr_onlyRegs _ _ _ _)).trans (wr_onlyRegs _ _ _ _) |>.trans
    (commitDone_onlyRegs _ _ _))

/-! ## A frame zeroed -/

/-- A frame that has been zeroed stands under its new key (R351, R685). -/
theorem lineKeyOf_zeroFrame {frame key l : Nat} (h : l / 1024 = frame) (s : State) : lineKeyOf (zeroFrame frame key s) l = key := by
  have hframe : frameKeyOf (zeroFrame frame key s) frame = key := aget_aset_self _ _ _ _
  have hline : lineKeyOf (zeroFrame frame key s) l =
      aget (aclear s.mem.lineKey (frame * 1024) (frame * 1024 + 1024)) l (frameKeyOf (zeroFrame frame key s) (l / 1024)) := rfl
  rw [hline, aget_aclear, if_pos (by omega), h, hframe]

/-- A frame that has been zeroed holds zeros, and every other its bytes. -/
theorem rawByte_zeroFrame (frame key p : Nat) (s : State) :
    rawByte (zeroFrame frame key s) p = if p / 65536 = frame then 0 else rawByte s p := by
  have h : rawByte (zeroFrame frame key s) p = aget (aclear s.mem.cells (frame * 65536) (frame * 65536 + 65536)) p 0 := rfl
  rw [h, aget_aclear]
  split <;> split
  · rfl
  · omega
  · omega
  · rfl

theorem physByte_zeroFrame {frame key p : Nat} (h : p / 65536 = frame) (s : State) :
    physByte (zeroFrame frame key s) p key = 0 := by
  rw [physByte, lineKeyOf_zeroFrame (by omega), if_pos rfl, rawByte_zeroFrame, if_pos h]

/-- An entry whose owner changes to another than free is installed with its frame zeroed under the owner's key (R351). -/
theorem installEntry_zeroed {p e : Nat} {s : State} (hfree : bits e 24 8 ≠ 0xFF) (hnew : bits e 24 8 ≠ bits (homeEntry s p) 24 8) :
    installEntry p e s = zeroFrame (entryFrame e) (keyOf s (bits e 24 8))
      { s with mem := { s.mem with home := aset s.mem.home p e (dawnEntry s p) } } := by
  unfold installEntry
  exact if_pos ⟨hfree, hnew⟩

/-- A run of one page that changes its owner leaves the frame reading as zeros, and every other as it was. -/
theorem mapDone_zeroed {p e : Nat} {s : State} (hfree : bits e 24 8 ≠ 0xFF) (hnew : bits e 24 8 ≠ bits (homeEntry s p) 24 8) :
    (∀ i < 65536, physByte (mapDone ⟨p, [e]⟩ s) (entryFrame e * 65536 + i) (keyOf (mapDone ⟨p, [e]⟩ s) (bits e 24 8)) = 0) ∧
    ∀ a, a / 65536 ≠ entryFrame e → rawByte (mapDone ⟨p, [e]⟩ s) a = rawByte s a := by
  obtain ⟨hraw, hphys, hkey, -⟩ := mapDone_reads ⟨p, [e]⟩ s
  have hrun : runInstalled p [e] s = installEntry p e s := rfl
  have hkeys : ∀ frame key x, keyOf (zeroFrame frame key x) = keyOf x := fun _ _ _ => rfl
  rw [hraw, hphys, hkey, hrun, installEntry_zeroed hfree hnew]
  refine ⟨fun i hi => ?_, fun a ha => (rawByte_zeroFrame _ _ _ _).trans (if_neg ha)⟩
  rw [hkeys]
  exact physByte_zeroFrame (by omega) _

end Sys2Proof.Machine
end

section
namespace Sys2Proof.Machine

open Reg

/-! ## The ledger -/

theorem sumNat_eq_sum (l : List Nat) : sumNat l = l.sum := by
  rw [sumNat, List.sum_eq_foldl]

/-- What the ledger is made of: which entries count, what they reserve, and the stacks' limits (R372, R376). -/
structure SameLedger (s t : State) : Prop where
  held : ∀ e ∈ entries, entryHeld t e = entryHeld s e
  bw : ∀ e k, entryBw t e k = entryBw s e k
  limit : ∀ k, stackLimit t k = stackLimit s k

namespace SameLedger

variable {s t u : State}

protected theorem refl (s : State) : SameLedger s s := ⟨fun _ _ => rfl, fun _ _ => rfl, fun _ => rfl⟩

protected theorem trans (h : SameLedger s t) (g : SameLedger t u) : SameLedger s u :=
  ⟨fun e he => (g.held e he).trans (h.held e he), fun e k => (g.bw e k).trans (h.bw e k), fun k => (g.limit k).trans (h.limit k)⟩

theorem heldEntries_eq (h : SameLedger s t) : heldEntries t = heldEntries s := List.filter_congr h.held

theorem sum_eq (h : SameLedger s t) (es : List Nat) (k : Nat) : stackSum es (entryBw t) k = stackSum es (entryBw s) k := by
  unfold stackSum
  simp only [h.bw]

end SameLedger

theorem mem_entries {e : Nat} : e ∈ entries ↔ e < 74 ∨ (80 ≤ e ∧ e ≤ 83) := by
  simp only [entries, List.mem_append, List.mem_range, List.mem_cons, List.not_mem_nil, or_false]
  omega

/-- The two fields of PLB_LEDGER of a stack (R387). -/
def ledgerLine (k : Nat) (s : State) : State :=
  wr PLB_LEDGER.limit_gbps (k * 4) (stackLimit s k)
    (wr PLB_LEDGER.reserved_gbps (k * 4) (stackSum (heldEntries s) (entryBw s) k) s)

theorem refreshLedger_eq (s : State) : refreshLedger s = (List.range 4).foldl (fun s k => ledgerLine k s) s := rfl

theorem entryHeld_congr {s t : State} {e : Nat} (he : e ∈ entries)
    (hp : ∀ p < 74, rdB t PLB_PORT_STATE.held (p * 16) = rdB s PLB_PORT_STATE.held (p * 16))
    (hw : ∀ i < 4, rdB t PLB_SWITCH_W.dropped (i * 4) = rdB s PLB_SWITCH_W.dropped (i * 4)) : entryHeld t e = entryHeld s e := by
  unfold entryHeld
  rcases mem_entries.mp he with h | h
  · rw [if_pos h, if_pos h, hp e h]
  · rw [if_neg (by omega), if_neg (by omega), hw (e - 80) (by omega)]

/-- The ledger's lines are not what it is made of. -/
theorem ledgerLine_same {k : Nat} (hk : k < 4) (s : State) : SameLedger s (ledgerLine k s) := by
  have hrd : ∀ f a, fkey PLB_LEDGER.limit_gbps (k * 4) ≠ fkey f a → fkey PLB_LEDGER.reserved_gbps (k * 4) ≠ fkey f a →
      rd (ledgerLine k s) f a = rd s f a := fun f a hl hr => (rd_wr_ne _ _ _ _ _ _ hl).trans (rd_wr_ne _ _ _ _ _ _ hr)
  refine ⟨fun e he => entryHeld_congr he (fun p hp => congrArg (· == 1) (hrd _ _ ?_ ?_))
    (fun i hi => congrArg (· == 1) (hrd _ _ ?_ ?_)), fun e i => ?_, fun i => ?_⟩
  iterate 4
    simp only [fkey, PLB_LEDGER.limit_gbps, PLB_LEDGER.reserved_gbps, PLB_PORT_STATE.held, PLB_SWITCH_W.dropped]
    omega
  · have hw : rd (ledgerLine k s) PLB_SWITCH_W.w_gbps (i * 4) = rd s PLB_SWITCH_W.w_gbps (i * 4) := by
      apply hrd
      all_goals
        simp only [fkey, PLB_LEDGER.limit_gbps, PLB_LEDGER.reserved_gbps, PLB_SWITCH_W.w_gbps]
        omega
    unfold entryBw
    rw [hw]
    rfl
  · have hhot : rd (ledgerLine k s) HBM_STATUS.hot (dieBase (i + 1)) = rd s HBM_STATUS.hot (dieBase (i + 1)) := by
      apply hrd
      all_goals
        simp only [fkey, PLB_LEDGER.limit_gbps, PLB_LEDGER.reserved_gbps, HBM_STATUS.hot]
        omega
    unfold stackLimit rdB
    rw [hhot]

/-- A ledger line shows a stack's sum and limit. -/
structure Shows (s t : State) (k : Nat) : Prop where
  reserved : rd t PLB_LEDGER.reserved_gbps (k * 4) = stackSum (heldEntries s) (entryBw s) k % 2 ^ 16
  limit : rd t PLB_LEDGER.limit_gbps (k * 4) = stackLimit s k % 2 ^ 16

theorem ledgerLine_shows (k : Nat) (s : State) : Shows s (ledgerLine k s) k := by
  refine ⟨?_, rd_wr_self _ _ _ _⟩
  refine (rd_wr_ne _ _ _ _ _ _ ?_).trans (rd_wr_self _ _ _ _)
  simp only [fkey, PLB_LEDGER.limit_gbps, PLB_LEDGER.reserved_gbps]
  omega

theorem ledgerLine_keeps {s t : State} {j k : Nat} (h : Shows s t j) (hjk : j ≠ k) : Shows s (ledgerLine k t) j := by
  refine ⟨Eq.trans ?_ h.reserved, Eq.trans ?_ h.limit⟩
  all_goals
    refine (rd_wr_ne _ _ _ _ _ _ ?_).trans (rd_wr_ne _ _ _ _ _ _ ?_)
    all_goals
      simp only [fkey, PLB_LEDGER.limit_gbps, PLB_LEDGER.reserved_gbps]
      omega

theorem Shows.of_same {s t u : State} {k : Nat} (h : Shows t u k) (hs : SameLedger s t) : Shows s u k where
  reserved := by rw [h.reserved, hs.heldEntries_eq, hs.sum_eq]
  limit := by rw [h.limit, hs.limit]

theorem foldl_ledgerLine {n : Nat} (hn : n ≤ 4) (s : State) :
    SameLedger s ((List.range n).foldl (fun s k => ledgerLine k s) s) ∧
    ∀ k < n, Shows s ((List.range n).foldl (fun s k => ledgerLine k s) s) k := by
  induction n with
  | zero => exact ⟨.refl s, fun _ h => absurd h (Nat.not_lt_zero _)⟩
  | succ n ih =>
    obtain ⟨hsame, hshows⟩ := ih (by omega)
    rw [List.range_succ, List.foldl_append]
    refine ⟨hsame.trans (ledgerLine_same (by omega) _), fun k hk => ?_⟩
    rcases Nat.lt_succ_iff_lt_or_eq.mp hk with hlt | rfl
    · exact ledgerLine_keeps (hshows k hlt) (by omega)
    · exact (ledgerLine_shows k _).of_same hsame

/-- The ledger shows the sums and limits of the stacks as they are (R387). -/
theorem refreshLedger_shows (s : State) {k : Nat} (hk : k < 4) : Shows s (refreshLedger s) k :=
  (foldl_ledgerLine (Nat.le_refl 4) s).2 k hk

theorem stackLimit_lt (s : State) (k : Nat) : stackLimit s k < 2 ^ 16 := by
  unfold stackLimit
  split <;> decide

/-- A ledger that shows sums within the limits is not overbooked (R376). -/
theorem Shows.within {s t : State} {k : Nat} (h : Shows s t k) (hle : stackSum (heldEntries s) (entryBw s) k ≤ stackLimit s k) :
    rd t PLB_LEDGER.reserved_gbps (k * 4) ≤ rd t PLB_LEDGER.limit_gbps (k * 4) := by
  rw [h.reserved, h.limit, Nat.mod_eq_of_lt (stackLimit_lt s k)]
  exact (Nat.mod_le _ _).trans hle

/-! ## Contracts held -/

/-- A port's contract held as staged, or let go (R387). -/
def contractNoted (p : Nat) (s : State) : State :=
  if stgKind s p ≠ 0 then wrB PLB_PORT_STATE.dropped (p * 16) false (wrB PLB_PORT_STATE.held (p * 16) true s)
  else wrB PLB_PORT_STATE.held (p * 16) false s

/-- The contracts of the first n ports held as staged. -/
def contractsNoted (n : Nat) (s : State) : State := (List.range n).foldl (fun s p => contractNoted p s) s

theorem contractsNoted_succ (n : Nat) (s : State) : contractsNoted (n + 1) s = contractNoted n (contractsNoted n s) := by
  unfold contractsNoted
  rw [List.range_succ, List.foldl_append]
  rfl

theorem plbApply_eq (s : State) : plbApply s = refreshLedger (contractsNoted 74 (acceptStaged plbFields s)) := rfl

/-- Noting a contract changes live registers alone. -/
theorem contractNoted_live (p : Nat) (s : State) :
    contractNoted p s = { s with regs := { s.regs with live := (contractNoted p s).regs.live } } := by
  unfold contractNoted
  split <;> rfl

theorem contractsNoted_live (n : Nat) (s : State) :
    contractsNoted n s = { s with regs := { s.regs with live := (contractsNoted n s).regs.live } } := by
  induction n with
  | zero => rfl
  | succ n ih =>
    rw [contractsNoted_succ]
    have h := contractNoted_live n (contractsNoted n s)
    rw [ih] at h ⊢
    exact h

theorem stgKind_contractsNoted (n : Nat) (s : State) (p : Nat) : stgKind (contractsNoted n s) p = stgKind s p := by
  rw [contractsNoted_live]
  rfl

theorem portBw_contractsNoted (n : Nat) (s : State) (p k : Nat) : portBw (contractsNoted n s) p k = portBw s p k := by
  rw [contractsNoted_live]
  rfl

theorem held_contractNoted (p q : Nat) (s : State) : rdB (contractNoted p s) PLB_PORT_STATE.held (q * 16) =
    if q = p then decide (stgKind s p ≠ 0) else rdB s PLB_PORT_STATE.held (q * 16) := by
  have hdropped : fkey PLB_PORT_STATE.dropped (p * 16) ≠ fkey PLB_PORT_STATE.held (q * 16) := by
    simp only [fkey, PLB_PORT_STATE.dropped, PLB_PORT_STATE.held]
    omega
  have hheld : q ≠ p → fkey PLB_PORT_STATE.held (p * 16) ≠ fkey PLB_PORT_STATE.held (q * 16) := by
    simp only [fkey, PLB_PORT_STATE.held]
    omega
  unfold contractNoted
  split
  · next hkind =>
    rw [rdB_wrB_ne _ _ _ _ _ _ hdropped]
    split
    · next hq => rw [hq, rdB_wrB_self _ _ _ _ (by decide), decide_eq_true hkind]
    · next hq => exact rdB_wrB_ne _ _ _ _ _ _ (hheld hq)
  · next hkind =>
    split
    · next hq => rw [hq, rdB_wrB_self _ _ _ _ (by decide), decide_eq_false hkind]
    · next hq => exact rdB_wrB_ne _ _ _ _ _ _ (hheld hq)

/-- The contracts of the ports noted are held where a kind is staged. -/
theorem held_contractsNoted (n q : Nat) (s : State) : rdB (contractsNoted n s) PLB_PORT_STATE.held (q * 16) =
    if q < n then decide (stgKind s q ≠ 0) else rdB s PLB_PORT_STATE.held (q * 16) := by
  induction n with
  | zero => rfl
  | succ n ih =>
    rw [contractsNoted_succ, held_contractNoted, ih, stgKind_contractsNoted]
    by_cases hq : q = n
    · rw [if_pos hq, if_pos (by omega), hq]
    · rw [if_neg hq]
      by_cases hlt : q < n
      · rw [if_pos hlt, if_pos (by omega)]
      · rw [if_neg hlt, if_neg (by omega)]

theorem rd_contractsNoted {n : Nat} {f : Field} {a : Nat}
    (h : ∀ p < n, fkey PLB_PORT_STATE.held (p * 16) ≠ fkey f a ∧ fkey PLB_PORT_STATE.dropped (p * 16) ≠ fkey f a) (s : State) :
    rd (contractsNoted n s) f a = rd s f a := by
  refine foldl_keeps (rd · f a) (fun x p hp => ?_) s
  obtain ⟨hheld, hdropped⟩ := h p (List.mem_range.mp hp)
  unfold contractNoted
  split
  · exact (rd_wr_ne _ _ _ _ _ _ hdropped).trans (rd_wr_ne _ _ _ _ _ _ hheld)
  · exact rd_wr_ne _ _ _ _ _ _ hheld

end Sys2Proof.Machine
end

section
namespace Sys2Proof.Machine

open Reg

/-! ## PLB_COMMIT -/

theorem firstIdx_none {n : Nat} {p : Nat → Bool} (h : firstIdx n p = none) {i : Nat} (hi : i < n) : p i = false := by
  have := List.find?_eq_none.mp h i (List.mem_range.mpr hi)
  simpa using this

/-- What a PLB_COMMIT that passes has found (R377, R386, R767). -/
theorem plbResult_passes {s : State} (h : (plbResult s).1 = 0) :
    (∀ p < 74, portRangeBad s p = false) ∧ ∀ k < 4, stackSum entries (stgEntryBw s) k ≤ stackLimit s k := by
  unfold plbResult at h
  split at h
  · cases h
  · next hrange =>
    split at h
    · cases h
    · split at h
      · cases h
      · next hstack =>
        refine ⟨fun p hp => firstIdx_none hrange hp, fun k hk => ?_⟩
        simpa using firstIdx_none hstack hk

/-- A reservation in its range (R386). -/
theorem stgBw_le {s : State} {p k : Nat} (h : portRangeBad s p = false) (hk : k < 4) : stgBw s p k ≤ 1081 := by
  simp only [portRangeBad, Bool.or_eq_false_iff, List.any_eq_false, List.mem_range, decide_eq_true_eq, Nat.not_lt] at h
  exact h.1.1.1 k hk

/-- The fields that PLB_COMMIT commits stand one behind the other. -/
theorem plbFields_nodup : (plbFields.map comKey).Nodup := by
  have hchain : (plbFields.map comKey).IsChain (· < ·) := by decide +kernel
  exact (List.isChain_iff_pairwise.mp hchain).imp Nat.ne_of_lt

theorem bw_mem_plbFields {p : Nat} (hp : p < 74) : (PLB_PORT_BW.bw_stack1, p * 16) ∈ plbFields ∧
    (PLB_PORT_BW.bw_stack2, p * 16) ∈ plbFields ∧ (PLB_PORT_BW.bw_stack3, p * 16) ∈ plbFields ∧
    (PLB_PORT_BW.bw_stack4, p * 16) ∈ plbFields := by
  have hport : ∀ x, x ∈ [(PLB_PORT_BW.bw_stack1, p * 16), (PLB_PORT_BW.bw_stack2, p * 16),
      (PLB_PORT_BW.bw_stack3, p * 16), (PLB_PORT_BW.bw_stack4, p * 16), (PLB_PORT_CFG.kind, p * 16),
      (PLB_PORT_CFG.target, p * 16), (PLB_PORT_CFG.drop_class, p * 16), (PLB_PORT_CFG.policy, p * 16)] → x ∈ plbFields :=
    fun x hx => List.mem_flatten.mpr ⟨_, List.mem_map.mpr ⟨p, List.mem_range.mpr hp, rfl⟩, hx⟩
  refine ⟨hport _ ?_, hport _ ?_, hport _ ?_, hport _ ?_⟩ <;> simp

/-- A port's reservations in force are those staged (R387). -/
theorem portBw_acceptStaged {s : State} {p k : Nat} (hp : p < 74) (hk : k < 4) (h : portRangeBad s p = false) :
    portBw (acceptStaged plbFields s) p k = stgBw s p k := by
  have hlt : stgBw s p k < 2 ^ 16 := by have := stgBw_le h hk; omega
  obtain ⟨h1, h2, h3, h4⟩ := bw_mem_plbFields hp
  match k, hk with
  | 0, _ => exact (com_acceptStaged plbFields_nodup h1 s).trans (Nat.mod_eq_of_lt hlt)
  | 1, _ => exact (com_acceptStaged plbFields_nodup h2 s).trans (Nat.mod_eq_of_lt hlt)
  | 2, _ => exact (com_acceptStaged plbFields_nodup h3 s).trans (Nat.mod_eq_of_lt hlt)
  | 3, _ => exact (com_acceptStaged plbFields_nodup h4 s).trans (Nat.mod_eq_of_lt hlt)

theorem sumNat_map_filter (l : List Nat) (p : Nat → Bool) (f : Nat → Nat) :
    sumNat ((l.filter p).map f) = sumNat (l.map (fun e => if p e then f e else 0)) := by
  rw [sumNat_eq_sum, sumNat_eq_sum]
  induction l with
  | nil => rfl
  | cons e r ih =>
    rw [List.filter_cons, List.map_cons, List.sum_cons, ← ih]
    split
    · rw [List.map_cons, List.sum_cons]
    · rw [Nat.zero_add]

/-- The contracts of an accepted commit in force and held. -/
def contractsInForce (s : State) : State := contractsNoted 74 (acceptStaged plbFields (commitAt 0 0xA0083C s))

theorem stgKind_accepted (s : State) (p : Nat) : stgKind (acceptStaged plbFields (commitAt 0 0xA0083C s)) p = stgKind s p := by
  obtain ⟨g, hg⟩ := acceptStaged_frame plbFields (commitAt 0 0xA0083C s)
  rw [hg]
  rfl

theorem held_contractsInForce {p : Nat} (hp : p < 74) (s : State) :
    rdB (contractsInForce s) PLB_PORT_STATE.held (p * 16) = decide (stgKind s p ≠ 0) := by
  rw [contractsInForce, held_contractsNoted, if_pos hp, stgKind_accepted]

theorem portBw_contractsInForce {s : State} {p k : Nat} (hp : p < 74) (hk : k < 4) (h : portRangeBad s p = false) :
    portBw (contractsInForce s) p k = stgBw s p k := by
  rw [contractsInForce, portBw_contractsNoted]
  exact portBw_acceptStaged (s := commitAt 0 0xA0083C s) hp hk h

/-- Registers that are neither a port's state nor the commit's own stay. -/
theorem rd_contractsInForce {f : Field} {a : Nat} (hwhere : fkey FAB_COMMIT_WHERE.commit_offset (dieBase 0) ≠ fkey f a)
    (h : ∀ p < 74, fkey PLB_PORT_STATE.held (p * 16) ≠ fkey f a ∧ fkey PLB_PORT_STATE.dropped (p * 16) ≠ fkey f a) (s : State) :
    rd (contractsInForce s) f a = rd s f a :=
  (rd_contractsNoted h _).trans ((rd_acceptStaged _ _ _ _).trans (rd_wr_ne _ _ _ _ _ _ hwhere))

/-- Plumb's switch entries stand as they stood (R379). -/
theorem switch_contractsInForce {i : Nat} (hi : i < 4) (s : State) :
    rd (contractsInForce s) PLB_SWITCH_W.dropped (i * 4) = rd s PLB_SWITCH_W.dropped (i * 4) ∧
    rd (contractsInForce s) PLB_SWITCH_W.w_gbps (i * 4) = rd s PLB_SWITCH_W.w_gbps (i * 4) := by
  refine ⟨rd_contractsInForce ?_ (fun p hp => ?_) s, rd_contractsInForce ?_ (fun p hp => ?_) s⟩
  all_goals
    simp only [fkey, dieBase, FAB_COMMIT_WHERE.commit_offset, PLB_PORT_STATE.held, PLB_PORT_STATE.dropped,
      PLB_SWITCH_W.dropped, PLB_SWITCH_W.w_gbps]
    omega

theorem stackLimit_contractsInForce (s : State) (k : Nat) : stackLimit (contractsInForce s) k = stackLimit s k := by
  have hhot : rd (contractsInForce s) HBM_STATUS.hot (dieBase (k + 1)) = rd s HBM_STATUS.hot (dieBase (k + 1)) := by
    refine rd_contractsInForce ?_ (fun p hp => ?_) s
    all_goals
      simp only [fkey, dieBase, FAB_COMMIT_WHERE.commit_offset, PLB_PORT_STATE.held, PLB_PORT_STATE.dropped, HBM_STATUS.hot]
      omega
  unfold stackLimit rdB
  rw [hhot]

/-- What the entries that then count reserve on a stack is what the commit's check summed (R376, R377). -/
theorem stackSum_contractsInForce {s : State} (h : ∀ p < 74, portRangeBad s p = false) {k : Nat} (hk : k < 4) :
    stackSum (heldEntries (contractsInForce s)) (entryBw (contractsInForce s)) k = stackSum entries (stgEntryBw s) k := by
  unfold stackSum heldEntries
  rw [sumNat_map_filter]
  refine congrArg sumNat (List.map_congr_left fun e he => ?_)
  unfold entryHeld entryBw stgEntryBw
  rcases mem_entries.mp he with hp | hw
  · rw [if_pos hp, if_pos hp, if_pos hp, held_contractsInForce hp, portBw_contractsInForce hp hk (h e hp)]
    by_cases hkind : stgKind s e = 0 <;> simp [hkind]
  · have hne : ¬ e < 74 := by omega
    have hdropped := congrArg (· == 1) (switch_contractsInForce (i := e - 80) (by omega) s).1
    rw [if_neg hne, if_neg hne, if_neg hne, (switch_contractsInForce hk s).2]
    unfold entryHeld rdB entryBw
    rw [if_neg hne, if_neg hne]
    simp only [hdropped]

/-- Registers that a PLB_COMMIT writes its result to. -/
def plbResultKeys : List Nat := [fkey PLB_COMMIT_STATUS.status 0, fkey PLB_COMMIT_STATUS.fault 0,
  fkey FAB_COMMIT_STATUS.busy (dieBase 0), fkey FAB_COMMIT_STATUS.status (dieBase 0), fkey FAB_COMMIT_FIELD.field_offset (dieBase 0)]

theorem rd_plbDone {f : Field} {a : Nat} (h : fkey f a ∉ plbResultKeys) (r : Nat × Nat × Nat) (s : State) :
    rd (plbDone r s) f a = rd s f a := by
  simp only [plbResultKeys, List.mem_cons, List.not_mem_nil, or_false, not_or] at h
  obtain ⟨hst, hfault, hbusy, hstatus, hfield⟩ := h
  unfold plbDone commitDone
  rw [rd_wr_ne _ _ _ _ _ _ (Ne.symm hfield), rd_wr_ne _ _ _ _ _ _ (Ne.symm hstatus), rd_wr_ne _ _ _ _ _ _ (Ne.symm hbusy),
    rd_wr_ne _ _ _ _ _ _ (Ne.symm hfault), rd_wr_ne _ _ _ _ _ _ (Ne.symm hst)]

/-- An accepted commit notes status 0 in both status registers (R387, R769). -/
theorem plbDone_status (s : State) : rd (plbDone (0, 0xFF, 0) s) PLB_COMMIT_STATUS.status = 0 ∧
    rd (plbDone (0, 0xFF, 0) s) FAB_COMMIT_STATUS.status = 0 := by
  refine ⟨?_, rd_commitDone_status 0 _ _ (by decide)⟩
  unfold plbDone commitDone
  rw [rd_wr_ne _ _ _ _ _ _ (by decide), rd_wr_ne _ _ _ _ _ _ (by decide), rd_wr_ne _ _ _ _ _ _ (by decide),
    rd_wr_ne _ _ _ _ _ _ (by decide), rd_wr_self]
  rfl

theorem refreshLedger_onlyRegs (s : State) : OnlyRegs s (refreshLedger s) :=
  .foldl _ _ (fun _ _ => (wr_onlyRegs _ _ _ _).trans (wr_onlyRegs _ _ _ _)) s

theorem contractsNoted_onlyRegs (n : Nat) (s : State) : OnlyRegs s (contractsNoted n s) := by
  rw [contractsNoted_live]
  rfl

theorem contractsInForce_onlyRegs (s : State) : OnlyRegs s (contractsInForce s) := by
  exact ((commitAt_onlyRegs 0 0xA0083C s).trans (acceptStaged_onlyRegs plbFields _)).trans (contractsNoted_onlyRegs _ _)

theorem plbDone_onlyRegs (r : Nat × Nat × Nat) (s : State) : OnlyRegs s (plbDone r s) :=
  ((wr_onlyRegs _ _ _ _).trans (wr_onlyRegs _ _ _ _)).trans (commitDone_onlyRegs 0 _ _)

/-- The state after an accepted PLB_COMMIT. -/
def plbAccepted (s : State) : State := plbDone (0, 0xFF, 0) (refreshLedger (contractsInForce s))

theorem exec_plbCommit_accepted {s : State} {v : Nat} (hv : v % 2 = 1) (hd : dieSilent s 0 = false) (h : (plbResult s).1 = 0) :
    exec (.plbCommit v) s = .next (plbAccepted s) := by
  change execPlbCommit v s = _
  unfold execPlbCommit
  rw [if_neg (by omega)]
  dsimp only
  rw [hd, if_neg Bool.false_ne_true, if_pos h, plbApply_eq]
  rfl

/-- The ledger's own registers are not what a contract is read from. -/
theorem rd_refreshLedger {f : Field} {a : Nat} (h : ∀ k < 4, fkey PLB_LEDGER.limit_gbps (k * 4) ≠ fkey f a ∧
    fkey PLB_LEDGER.reserved_gbps (k * 4) ≠ fkey f a) (s : State) : rd (refreshLedger s) f a = rd s f a := by
  rw [refreshLedger_eq]
  refine foldl_keeps (rd · f a) (fun x k hk => ?_) s
  obtain ⟨hlimit, hreserved⟩ := h k (List.mem_range.mp hk)
  exact (rd_wr_ne _ _ _ _ _ _ hlimit).trans (rd_wr_ne _ _ _ _ _ _ hreserved)

theorem held_plbAccepted {p : Nat} (hp : p < 74) (s : State) :
    rdB (plbAccepted s) PLB_PORT_STATE.held (p * 16) = decide (stgKind s p ≠ 0) := by
  rw [← held_contractsInForce hp s]
  refine congrArg (· == 1) ((rd_plbDone ?_ _ _).trans (rd_refreshLedger (fun k hk => ?_) _))
  · simp only [plbResultKeys, fkey, dieBase, PLB_COMMIT_STATUS.status, PLB_COMMIT_STATUS.fault, FAB_COMMIT_STATUS.busy,
      FAB_COMMIT_STATUS.status, FAB_COMMIT_FIELD.field_offset, PLB_PORT_STATE.held, List.mem_cons, List.not_mem_nil, or_false]
    omega
  · simp only [fkey, PLB_LEDGER.limit_gbps, PLB_LEDGER.reserved_gbps, PLB_PORT_STATE.held]
    omega

theorem com_refreshLedger (s : State) (f : Field) (a : Nat) : com (refreshLedger s) f a = com s f a := by
  rw [refreshLedger_eq]
  exact foldl_keeps (com · f a) (fun _ _ _ => (com_wr _ _ _ _ _ _).trans (com_wr _ _ _ _ _ _)) s

theorem com_plbDone (r : Nat × Nat × Nat) (s : State) (f : Field) (a : Nat) : com (plbDone r s) f a = com s f a :=
  com_commitDone _ _ _ _ _

theorem portBw_plbAccepted {s : State} {p k : Nat} (hp : p < 74) (hk : k < 4) (h : portRangeBad s p = false) :
    portBw (plbAccepted s) p k = stgBw s p k := by
  rw [← portBw_contractsInForce hp hk h]
  unfold plbAccepted portBw
  simp only [com_plbDone, com_refreshLedger]

/-- No stack is overbooked after an accepted commit (R376, R377). -/
theorem ledger_plbAccepted {s : State} (h : (plbResult s).1 = 0) {k : Nat} (hk : k < 4) :
    rd (plbAccepted s) PLB_LEDGER.reserved_gbps (k * 4) ≤ rd (plbAccepted s) PLB_LEDGER.limit_gbps (k * 4) := by
  obtain ⟨hrange, hstack⟩ := plbResult_passes h
  have hshow := refreshLedger_shows (contractsInForce s) hk
  have hwithin := hshow.within (by rw [stackSum_contractsInForce hrange hk, stackLimit_contractsInForce]; exact hstack k hk)
  unfold plbAccepted
  rw [rd_plbDone, rd_plbDone]
  · exact hwithin
  all_goals
    simp only [plbResultKeys, fkey, dieBase, PLB_COMMIT_STATUS.status, PLB_COMMIT_STATUS.fault, FAB_COMMIT_STATUS.busy,
      FAB_COMMIT_STATUS.status, FAB_COMMIT_FIELD.field_offset, PLB_LEDGER.reserved_gbps, PLB_LEDGER.limit_gbps,
      List.mem_cons, List.not_mem_nil, or_false]
    omega

/-! ## The map, the shares and the contracts -/

/-- Settles O26: commit by commit what was checked is in force. -/
theorem mapSharesAndContracts : Obligations.MapSharesAndContracts := by
  unfold Obligations.MapSharesAndContracts
  refine ⟨?taken, ?installed, ?zeroed, ?shares, ?threshold, ?unreached, ?contracts⟩
  case taken =>
    intro s s1 v img hv hd hsetup hread hchecks
    obtain ⟨hbusy, hhome, hjob, hfab⟩ := mapStart_effect (stg s HBM_MAP_FIRST.first) (stg s HBM_MAP_COUNT.count)
      (runEntries s img) s1
    rw [runEntries_take] at hjob
    exact ⟨_, exec_hbmMapCommit_taken hv hd hsetup hread hchecks, hbusy, hhome, hjob, hfab⟩
  case installed =>
    intro s j hj
    obtain ⟨hbusy, hstatus⟩ := mapDone_status j s
    refine ⟨_, exec_mapCommitComplete_runs hj, rfl, hbusy, hstatus, fun i hi => ?_, fun p hp => ?_, mapDone_frame j s⟩
    · rw [homeEntry_mapDone, entryAfter, if_pos (by omega), Nat.add_sub_cancel_left]
    · rw [homeEntry_mapDone, entryAfter, if_neg (by omega)]
  case zeroed =>
    intro s p e hj hfree hnew
    exact ⟨_, exec_mapCommitComplete_runs hj, mapDone_zeroed hfree hnew⟩
  case shares =>
    intro s v hv hd
    exact ⟨_, rfl, commit_fields_effect hv hd rfl shareFields_nodup⟩
  case threshold =>
    intro s k v hk hv hreach hd hthreshold
    obtain ⟨hstatus, hcom, hframe⟩ := commit_fields_effect (off := 0x30001C) (l := [(HBM_CE_THRESH.threshold, dieBase (k + 1))])
      (checks := [(stg s HBM_CE_THRESH.threshold (dieBase (k + 1)) == 0, (0x0002, 0x300018))]) hv hd
      (by rw [firstFail_one, if_neg (by simpa using hthreshold)]) (List.nodup_singleton _)
    exact ⟨_, exec_hbmCommit_reached hk hreach v, hstatus, hcom _ (List.mem_singleton_self _), hframe⟩
  case unreached => exact fun s k v hk h => exec_hbmCommit_unreached hk h v
  case contracts =>
    intro s v hv hd h
    have hrange := (plbResult_passes h).1
    obtain ⟨hplb, hfab⟩ := plbDone_status (refreshLedger (contractsInForce s))
    exact ⟨_, exec_plbCommit_accepted hv hd h, hplb, hfab, fun p hp => held_plbAccepted hp s,
      fun p hp k hk => portBw_plbAccepted hp hk (hrange p hp), fun k hk => ledger_plbAccepted h hk,
      ((contractsInForce_onlyRegs s).trans (refreshLedger_onlyRegs _)).trans (plbDone_onlyRegs _ _)⟩

end Sys2Proof.Machine
end

section
namespace Sys2Proof.Machine

open Reg

/-! ## Budgets by their die -/

@[simp] theorem budgetOf_modBudget_self (n : Nat) (f : DieBudget → DieBudget) (s : State) :
    budgetOf (modBudget n f s) n = f (budgetOf s n) := aget_aset_self _ _ _ _

/-! ## BUDGET_GRANT_PERIOD -/

theorem exec_budgetGrantPeriod_idle {s : State} (h : s.mode ≠ .run) : exec .budgetGrantPeriod s = .next s := by
  change execBudgetGrantPeriod s = _
  unfold execBudgetGrantPeriod
  rw [if_neg h]

theorem exec_budgetGrantPeriod_run {s : State} (h : s.mode = .run) :
    exec .budgetGrantPeriod s = .next ([1, 2, 3, 4].foldl grantDie s) := by
  change execBudgetGrantPeriod s = _
  unfold execBudgetGrantPeriod
  rw [if_pos h]

/-- What a die's budget becomes at a grant: the count goes on, and the caps granted do not exceed those it is to have. -/
structure GrantedFrom (s : State) (n : Nat) (b : DieBudget) : Prop where
  seq : b.seq = ((budgetOf s n).seq + 1) % 256
  core : b.granted.1 ≤ (capTarget s n).1
  hbm : b.granted.2 ≤ (capTarget s n).2
  applied : b.applied = (budgetOf s n).applied

/-- From s to t the Hearth has sent a grant to each die of a list that is reached, and to no other. -/
structure Granting (ns : List Nat) (s t : State) : Prop where
  frame : t = { s with mortar := t.mortar, out := t.out }
  others : ∀ n, n ∉ ns ∨ reach s 0 n = false → budgetOf t n = budgetOf s n
  reached : ∀ n ∈ ns, reach s 0 n = true → GrantedFrom s n (budgetOf t n)
  sent : t.mortar.grants.map (·.die) = s.mortar.grants.map (·.die) ++ ns.filter (reach s 0)

/-- Messages change neither the routes nor the caps that a die is to have. -/
theorem reach_messages (s : State) (m : MortarState) (o : List OutMsg) :
    reach { s with mortar := m, out := o } = reach s := rfl

theorem capTarget_messages (s : State) (m : MortarState) (o : List OutMsg) :
    capTarget { s with mortar := m, out := o } = capTarget s := rfl

/-- A die is sent caps that do not exceed those it is to have, raised or not (R425). -/
theorem grantDie_within (s : State) (n : Nat) :
    ∃ core ≤ (capTarget s n).1, ∃ hbm ≤ (capTarget s n).2, grantDie s n = sendGrant n core hbm s := by
  unfold grantDie
  dsimp only
  split
  · exact ⟨_, Nat.le_refl _, _, Nat.le_refl _, rfl⟩
  · exact ⟨_, Nat.min_le_right _ _, _, Nat.min_le_right _ _, rfl⟩

/-- A grant to a die that is reached. -/
theorem sendGrant_reached {s : State} {n core hbm : Nat} (h : reach s 0 n = true) :
    ∃ g : Grant, ∃ l, g.die = n ∧ sendGrant n core hbm s = { s with out := l, mortar := { s.mortar with
      grants := s.mortar.grants ++ [g]
      budgets := aset s.mortar.budgets n
        { budgetOf s n with seq := ((budgetOf s n).seq + 1) % 256, granted := (core, hbm) } {} } } := by
  unfold sendGrant
  rw [if_pos h]
  exact ⟨_, _, rfl, rfl⟩

theorem grantDie_granting (s : State) (n : Nat) : Granting [n] s (grantDie s n) := by
  obtain ⟨core, hcore, hbm, hhbm, heq⟩ := grantDie_within s n
  rw [heq]
  by_cases h : reach s 0 n = true
  · obtain ⟨g, l, hg, hsend⟩ := sendGrant_reached (core := core) (hbm := hbm) h
    rw [hsend]
    refine ⟨rfl, fun m hm => aget_aset_ne _ _ _ _ _ _ ?_, fun m hm _ => ?_, ?_⟩
    · rintro rfl
      rcases hm with hm | hm
      · exact hm List.mem_cons_self
      · rw [h] at hm
        exact Bool.noConfusion hm
    · obtain rfl := List.mem_singleton.mp hm
      have hb : aget (aset s.mortar.budgets m
          { budgetOf s m with seq := ((budgetOf s m).seq + 1) % 256, granted := (core, hbm) } {}) m {} = _ :=
        aget_aset_self _ _ _ _
      unfold budgetOf at hb ⊢
      rw [hb]
      exact ⟨rfl, hcore, hhbm, rfl⟩
    · simp [hg, h]
  · have hsend : sendGrant n core hbm s = s := if_neg h
    rw [hsend]
    refine ⟨rfl, fun _ _ => rfl, fun m hm hr => ?_, ?_⟩
    · rw [List.mem_singleton.mp hm] at hr
      exact absurd hr h
    · simp [h]

/-- Grants to a die and then to others are grants to all of them. -/
theorem Granting.cons {n : Nat} {r : List Nat} {s t u : State} (hn : n ∉ r) (h : Granting [n] s t) (g : Granting r t u) :
    Granting (n :: r) s u := by
  have hframe := h.frame
  have hreach : reach t = reach s := by rw [hframe, reach_messages]
  have hcap : capTarget t = capTarget s := by rw [hframe, capTarget_messages]
  refine ⟨by rw [g.frame, hframe], fun m hm => ?_, fun m hm hr => ?_, ?_⟩
  · refine (g.others m ?_).trans (h.others m ?_)
    · rw [hreach]
      exact hm.imp_left fun x y => x (List.mem_cons_of_mem _ y)
    · exact hm.imp_left fun x y => x (List.mem_singleton.mp y ▸ List.mem_cons_self)
  · rcases List.mem_cons.mp hm with rfl | hmr
    · rw [g.others m (.inl hn)]
      exact h.reached m List.mem_cons_self hr
    · have hne : m ∉ [n] := fun x => hn (List.mem_singleton.mp x ▸ hmr)
      have hm' := g.reached m hmr (by rw [hreach]; exact hr)
      exact ⟨by rw [hm'.seq, h.others m (.inl hne)], by rw [← hcap]; exact hm'.core, by rw [← hcap]; exact hm'.hbm,
        by rw [hm'.applied, h.others m (.inl hne)]⟩
  · rw [g.sent, h.sent, hreach, List.append_assoc, ← List.filter_append]
    rfl

theorem foldl_grantDie_granting {l : List Nat} (hl : l.Nodup) (s : State) : Granting l s (l.foldl grantDie s) := by
  induction l generalizing s with
  | nil => exact ⟨rfl, fun _ _ => rfl, fun _ h => absurd h List.not_mem_nil, by simp⟩
  | cons n r ih =>
    obtain ⟨hn, hr⟩ := List.nodup_cons.mp hl
    exact (grantDie_granting s n).cons hn (ih hr _)

/-! ## BUDGET_GRANT -/

theorem exec_budgetGrant_none {s : State} {d : Nat} (h : s.mortar.grants.find? (fun g => g.die == d) = none) :
    exec (.budgetGrant d) s = .next s := by
  change execBudgetGrant d s = _
  unfold execBudgetGrant
  rw [h]

/-- A grant that has arrived. -/
def grantArrived (g : Grant) (s : State) : State :=
  { s with mortar := { s.mortar with grants := s.mortar.grants.erase g } }

/-- The caps and limits of a grant in force at its die (R424). -/
def grantInForce (d : Nat) (g : Grant) (s : State) : State :=
  wr MTR_BUDGET.core_cap (dieBase d) g.core (wr MTR_BUDGET.hbm_cap (dieBase d) g.hbm
    (modBudget d (fun b => { b with grantAt := now s, fallback := false, floor := g.floor, limp := g.limp }) s))

/-- The report of a die on a grant (R423). -/
def reportOf (d : Nat) (g : Grant) (s : State) : GrantReport :=
  let a := agentOf s d
  { die := d, seq := g.seq, dial := dial s, core := g.core, hbm := g.hbm, coreAvg := meanOf a.coreLog,
    hbmAvg := meanOf a.hbmLog, clk := a.clk, tj := a.tj, capApplied := a.capApplied, belowFloor := a.belowFloor }

/-- A report on its way to the Hearth. -/
def reportSent (d : Nat) (r : GrantReport) (s : State) : State :=
  send .budgetReport (d :: budgetBytes r) (modAgent d (fun a => { a with belowFloor := false })
    { s with mortar := { s.mortar with reports := s.mortar.reports ++ [r] } })

theorem exec_budgetGrant_inRange {s : State} {d : Nat} {g : Grant} (h1 : 1 ≤ d) (h4 : d ≤ 4)
    (h : s.mortar.grants.find? (fun g => g.die == d) = some g) (hok : grantOk g = true) :
    exec (.budgetGrant d) s = .next (reportSent d (reportOf d g (grantInForce d g (grantArrived g s)))
      (grantInForce d g (grantArrived g s))) := by
  change execBudgetGrant d s = _
  unfold execBudgetGrant
  rw [h]
  dsimp only
  rw [if_neg (by simp [h1, h4]), if_neg (by simp [hok])]
  rfl

theorem exec_budgetGrant_outOfRange {s : State} {d : Nat} {g : Grant} (h1 : 1 ≤ d) (h4 : d ≤ 4)
    (h : s.mortar.grants.find? (fun g => g.die == d) = some g) (hok : grantOk g = false) :
    exec (.budgetGrant d) s = .next (incSat MTR_MISS_COUNT.missed (dieBase d) 1 (grantArrived g s)) := by
  change execBudgetGrant d s = _
  unfold execBudgetGrant
  rw [h]
  dsimp only
  rw [if_neg (by simp [h1, h4]), if_pos (by simp [hok])]
  rfl

theorem fkey_core_ne_hbm (a : Nat) : fkey MTR_BUDGET.core_cap a ≠ fkey MTR_BUDGET.hbm_cap a := by
  simp only [fkey, MTR_BUDGET.core_cap, MTR_BUDGET.hbm_cap]
  omega

/-- The caps of a grant in range stand at its die. -/
theorem rd_grantInForce {d : Nat} {g : Grant} (hok : grantOk g = true) (s : State) :
    rd (grantInForce d g s) MTR_BUDGET.core_cap (dieBase d) = g.core ∧
    rd (grantInForce d g s) MTR_BUDGET.hbm_cap (dieBase d) = g.hbm := by
  simp only [grantOk, Bool.and_eq_true, decide_eq_true_eq] at hok
  obtain ⟨hcore, hhbm⟩ := hok
  unfold grantInForce
  refine ⟨(rd_wr_self _ _ _ _).trans (Nat.mod_eq_of_lt (Nat.lt_of_le_of_lt hcore (by decide))), ?_⟩
  rw [rd_wr_ne _ _ _ _ _ _ (fkey_core_ne_hbm _), rd_wr_self]
  exact Nat.mod_eq_of_lt (Nat.lt_of_le_of_lt hhbm (by decide))

/-- A report that is sent changes the reports, its agent and what is sent, and no register. -/
theorem reportSent_frame (d : Nat) (r : GrantReport) (s : State) : ∃ o a, reportSent d r s =
    { s with out := o, power := a, mortar := { s.mortar with reports := s.mortar.reports ++ [r] } } := ⟨_, _, rfl⟩

/-- A grant in force changes the registers and the budget of its die. -/
theorem grantInForce_frame (d : Nat) (g : Grant) (s : State) : ∃ x b, grantInForce d g s =
    { s with regs := x, mortar := { s.mortar with budgets := b } } := ⟨_, _, rfl⟩

theorem budgetOf_grantInForce (d : Nat) (g : Grant) (s : State) : budgetOf (grantInForce d g s) d =
    { budgetOf s d with grantAt := now s, fallback := false, floor := g.floor, limp := g.limp } :=
  aget_aset_self s.mortar.budgets d _ {}

theorem rd_incSat_ne {f g : Field} {a b : Nat} (h : fkey f a ≠ fkey g b) (n : Nat) (s : State) :
    rd (incSat f a n s) g b = rd s g b := rd_wr_ne _ _ _ _ _ _ h

theorem fkey_missed_ne {f : Field} (hf : f.off = 0x340010) (hlo : f.lo < 64) (a : Nat) :
    fkey MTR_MISS_COUNT.missed a ≠ fkey f a := by
  simp only [fkey, MTR_MISS_COUNT.missed, hf]
  omega

/-! ## BUDGET_REPORT -/

theorem exec_budgetReport_none {s : State} {d : Nat} (h : s.mortar.reports.find? (fun r => r.die == d) = none) :
    exec (.budgetReport d) s = .next s := by
  change execBudgetReport d s = _
  unfold execBudgetReport
  rw [h]

/-- What the Hearth notes of a report (R425). -/
def reportNoted (d : Nat) (r : GrantReport) (s : State) : State :=
  modBudget d (fun b => { b with applied := (r.core, r.hbm), silent := false, reportAt := now s, coreAvg := r.coreAvg,
                                 hbmAvg := r.hbmAvg, raised := b.raised || r.belowFloor })
    { s with mortar := { s.mortar with reports := s.mortar.reports.erase r } }

/-- A report is noted, and at most an event follows (R656). -/
theorem exec_budgetReport_some {s : State} {d : Nat} {r : GrantReport}
    (h : s.mortar.reports.find? (fun r => r.die == d) = some r) :
    ∃ t, exec (.budgetReport d) s = .next t ∧ Quiet reportKey (reportNoted d r s) t := by
  change ∃ t, execBudgetReport d s = _ ∧ _
  unfold execBudgetReport
  rw [h]
  refine ⟨_, rfl, ?_⟩
  dsimp only
  split
  · exact event_quiet _ _ _ _ _ _ _
  · exact .refl _

theorem budgetOf_congr {s t : State} (h : t.mortar = s.mortar) (n : Nat) : budgetOf t n = budgetOf s n := by
  unfold budgetOf
  rw [h]

theorem budgetOf_reportNoted (d : Nat) (r : GrantReport) (s : State) : budgetOf (reportNoted d r s) d =
    { budgetOf s d with applied := (r.core, r.hbm), silent := false, reportAt := now s, coreAvg := r.coreAvg,
                        hbmAvg := r.hbmAvg, raised := (budgetOf s d).raised || r.belowFloor } :=
  budgetOf_modBudget_self d _ _

/-! ## GRANT_TIMEOUT and REPORT_TIMEOUT -/

/-- No timer of a budget runs out where there is no such die, or outside run (R426). -/
theorem exec_budgetTimeouts_idle {s : State} {d : Nat} (h : d = 0 ∨ 4 < d ∨ s.mode ≠ .run) :
    exec (.grantTimeout d) s = .next s ∧ exec (.reportTimeout d) s = .next s := by
  refine ⟨congrArg Host.Outcome.next (if_neg ?_), congrArg Host.Outcome.next (if_neg ?_)⟩
  · rintro ⟨h1, h4, hm, -⟩
    exact h.elim (by omega) fun h => h.elim (by omega) (absurd hm)
  · rintro ⟨h1, h4, hm⟩
    exact h.elim (by omega) fun h => h.elim (by omega) (absurd hm)

theorem exec_grantTimeout_fallback {s : State} {d : Nat} (h : (budgetOf s d).fallback = true) :
    exec (.grantTimeout d) s = .next s := by
  refine congrArg Host.Outcome.next (if_neg ?_)
  rintro ⟨-, -, -, hf⟩
  rw [h] at hf
  exact Bool.noConfusion hf

/-- A die that holds itself to the fallback caps, counted as a grant missed (R426). -/
def fellBack (d : Nat) (s : State) : State :=
  incSat MTR_MISS_COUNT.missed (dieBase d) 1
    (wr MTR_BUDGET.core_cap (dieBase d) (min (rd s MTR_BUDGET.core_cap (dieBase d)) 85)
      (wr MTR_BUDGET.hbm_cap (dieBase d) (min (rd s MTR_BUDGET.hbm_cap (dieBase d)) 20)
        (modBudget d (fun b => { b with fallback := true }) s)))

theorem exec_grantTimeout_run {s : State} {d : Nat} (h1 : 1 ≤ d) (h4 : d ≤ 4) (hm : s.mode = .run)
    (hf : (budgetOf s d).fallback = false) :
    ∃ t, exec (.grantTimeout d) s = .next t ∧
      Quiet reportKey (fellBack d (passTo ((budgetOf s d).grantAt + 500000) s)) t := by
  refine ⟨_, congrArg Host.Outcome.next (if_pos ⟨h1, h4, hm, by rw [hf]; rfl⟩), event_quiet 0x0826 d 0xFF d 1 [] _⟩

/-- The caps of a die that has fallen back, and its count of missed grants. -/
theorem rd_fellBack (d : Nat) (s : State) :
    rd (fellBack d s) MTR_BUDGET.core_cap (dieBase d) = min (rd s MTR_BUDGET.core_cap (dieBase d)) 85 ∧
    rd (fellBack d s) MTR_BUDGET.hbm_cap (dieBase d) = min (rd s MTR_BUDGET.hbm_cap (dieBase d)) 20 ∧
    rd (fellBack d s) MTR_MISS_COUNT.missed (dieBase d) =
      min (rd s MTR_MISS_COUNT.missed (dieBase d) + 1) (2 ^ 32 - 1) := by
  have hcore := fkey_missed_ne (f := MTR_BUDGET.core_cap) rfl (by decide) (dieBase d)
  have hhbm := fkey_missed_ne (f := MTR_BUDGET.hbm_cap) rfl (by decide) (dieBase d)
  unfold fellBack
  refine ⟨?_, ?_, ?_⟩
  · rw [rd_incSat_ne hcore, rd_wr_self]
    exact Nat.mod_eq_of_lt (Nat.lt_of_le_of_lt (Nat.min_le_right _ _) (by decide))
  · rw [rd_incSat_ne hhbm, rd_wr_ne _ _ _ _ _ _ (fkey_core_ne_hbm _), rd_wr_self]
    exact Nat.mod_eq_of_lt (Nat.lt_of_le_of_lt (Nat.min_le_right _ _) (by decide))
  · rw [rd_incSat_self, rd_wr_ne _ _ _ _ _ _ hcore.symm, rd_wr_ne _ _ _ _ _ _ hhbm.symm]
    rfl

theorem clock_fellBack (d : Nat) (s : State) : (fellBack d s).clock = s.clock := rfl

theorem budgetOf_fellBack (d : Nat) (s : State) : budgetOf (fellBack d s) d = { budgetOf s d with fallback := true } :=
  aget_aset_self s.mortar.budgets d _ {}

/-- No report changes the registers of a die's budget (R427). -/
theorem not_reportKey_budget {f : Field} (hf : f.off = 0x340010 ∨ f.off = 0x340018) (hlo : f.lo < 64) (d : Nat) :
    ¬ reportKey (fkey f (dieBase d)) := by
  simp only [reportKey, retryKey, fkey, dieBase, HST_EVT_DROP_COUNT.drops, HST_DEV_EQ_TAIL.tail,
    PLB_PORT_STATE.over_rate, HBM_CRC_RETRY_COUNT.retries, HST_CTX_STATE.stopped]
  rintro (h | h | h | ⟨e, h⟩ | ⟨c, hc, h⟩) <;> omega

/-- Dial time is no register of a die's budget. -/
theorem rd_passTo_budget (t : Nat) (s : State) {f : Field} (hf : f.off = 0x340010 ∨ f.off = 0x340018) (hlo : f.lo < 64)
    (d : Nat) : rd (passTo t s) f (dieBase d) = rd s f (dieBase d) := by
  refine rd_passTo t s ?_
  simp only [fkey, NWT_DIAL_NOW.dial_ns, dieBase]
  omega

/-- The Hearth counts a silent die at its last grant (R426). -/
def reportMissed (d : Nat) (s : State) : State := modBudget d (fun b => { b with applied := b.granted, silent := true }) s

theorem exec_reportTimeout_run {s : State} {d : Nat} (h1 : 1 ≤ d) (h4 : d ≤ 4) (hm : s.mode = .run) :
    exec (.reportTimeout d) s = .next (reportMissed d (passTo ((budgetOf s d).reportAt + 500000) s)) :=
  congrArg Host.Outcome.next (if_pos ⟨h1, h4, hm⟩)

/-- A report that is missed changes a budget alone. -/
theorem reportMissed_effect (d : Nat) (s : State) :
    (budgetOf (reportMissed d s) d).counted = (budgetOf s d).granted ∧
    (budgetOf (reportMissed d s) d).granted = (budgetOf s d).granted ∧ (reportMissed d s).clock = s.clock ∧
    (reportMissed d s).mem = s.mem ∧ (reportMissed d s).fab = s.fab ∧ (reportMissed d s).rings = s.rings := by
  have hbudget : budgetOf (reportMissed d s) d = { budgetOf s d with applied := (budgetOf s d).granted, silent := true } :=
    budgetOf_modBudget_self d _ s
  rw [hbudget]
  exact ⟨rfl, rfl, rfl, rfl, rfl, rfl⟩

theorem passTo_mem (t : Nat) (s : State) : (passTo t s).mem = s.mem := by
  obtain ⟨g, c, h⟩ := passTo_frame t s
  rw [h]

theorem passTo_mortar (t : Nat) (s : State) : (passTo t s).mortar = s.mortar := by
  obtain ⟨g, c, h⟩ := passTo_frame t s
  rw [h]

/-- The time is seen by the clocks alone. -/
theorem now_congr {s t : State} (h : t.clock = s.clock) : now t = now s := by
  unfold now
  rw [h]

theorem ticking_run {s : State} (h : s.mode = .run) : ticking s = false := by
  unfold ticking
  rw [h]
  rfl

/-! ## BudgetMessages -/

/-- Settles O29: the grant period by induction over the dies, each message and each timeout by what it does. -/
theorem budgetMessages : Obligations.BudgetMessages := by
  unfold Obligations.BudgetMessages
  refine ⟨fun s h => exec_budgetGrantPeriod_idle h, ?period, fun s d h => exec_budgetGrant_none h,
    fun s d h => exec_budgetReport_none h, ?granted, ?refused, ?reported, ?grantTimeout, ?reportTimeout,
    fun s d h => exec_budgetTimeouts_idle h, fun s d h => exec_grantTimeout_fallback h⟩
  case period =>
    intro s hm
    have hall := foldl_grantDie_granting (l := [1, 2, 3, 4]) (by decide) s
    refine ⟨_, exec_budgetGrantPeriod_run hm, fun n _ hr => hall.others n (.inr hr), fun n hn hr => ?_, ?_, hall.frame⟩
    · obtain ⟨hseq, hcore, hhbm, happlied⟩ := hall.reached n hn hr
      exact ⟨hseq, hcore, hhbm, happlied⟩
    · rw [List.map_drop, hall.sent, List.drop_left' (List.length_map _)]
  case granted =>
    intro s d g h1 h4 hfind hok
    obtain ⟨hcore, hhbm⟩ := rd_grantInForce (d := d) hok (grantArrived g s)
    have hbudget := budgetOf_grantInForce d g (grantArrived g s)
    obtain ⟨x, b, hforce⟩ := grantInForce_frame d g (grantArrived g s)
    refine ⟨_, exec_budgetGrant_inRange h1 h4 hfind hok, ?_⟩
    generalize reportOf d g (grantInForce d g (grantArrived g s)) = r
    rw [hforce] at hcore hhbm hbudget ⊢
    obtain ⟨o, a, hsent⟩ := reportSent_frame d r { grantArrived g s with
      regs := x, mortar := { (grantArrived g s).mortar with budgets := b } }
    rw [hsent]
    exact ⟨hcore, hhbm, congrArg DieBudget.grantAt hbudget, congrArg DieBudget.fallback hbudget, rfl,
      List.length_append, rfl, rfl, rfl⟩
  case refused =>
    intro s d g h1 h4 hfind hok
    exact ⟨_, exec_budgetGrant_outOfRange h1 h4 hfind hok, rd_incSat_ne (fkey_missed_ne rfl (by decide) _) 1 _,
      rd_incSat_self MTR_MISS_COUNT.missed _ 1 _, rfl, rfl⟩
  case reported =>
    intro s d r hfind
    obtain ⟨t, hexec, hquiet⟩ := exec_budgetReport_some hfind
    have hbudget := (budgetOf_congr hquiet.toMortar d).trans (budgetOf_reportNoted d r s)
    exact ⟨t, hexec, congrArg DieBudget.applied hbudget, congrArg DieBudget.reportAt hbudget,
      congrArg DieBudget.silent hbudget, by rw [hbudget],
      congrArg MortarState.reports hquiet.toMortar, hquiet.toFab⟩
  case grantTimeout =>
    intro s d h1 h4 hm hf
    obtain ⟨t, hexec, hquiet⟩ := exec_grantTimeout_run h1 h4 hm hf
    obtain ⟨hcore, hhbm, hmissed⟩ := rd_fellBack d (passTo ((budgetOf s d).grantAt + 500000) s)
    have hbudget := (budgetOf_congr hquiet.toMortar d).trans (budgetOf_fellBack d _)
    rw [rd_passTo_budget _ _ (.inl rfl) (by decide)] at hcore hhbm
    rw [rd_passTo_budget _ _ (.inr rfl) (by decide)] at hmissed
    refine ⟨t, hexec, (now_congr (hquiet.toClock.trans (clock_fellBack d _))).trans (now_passTo _ s (ticking_run hm)), ?_, ?_, ?_,
      congrArg DieBudget.fallback hbudget, ?_⟩
    · rw [hquiet.toRd _ _ (not_reportKey_budget (.inl rfl) (by decide) d), hcore]
      exact Nat.min_le_right _ _
    · rw [hquiet.toRd _ _ (not_reportKey_budget (.inl rfl) (by decide) d), hcore]
      exact Nat.min_le_left _ _
    · rw [hquiet.toRd _ _ (not_reportKey_budget (.inl rfl) (by decide) d), hhbm]
      exact Nat.min_le_right _ _
    · rw [hquiet.toRd _ _ (not_reportKey_budget (.inr rfl) (by decide) d), hmissed]
  case reportTimeout =>
    intro s d h1 h4 hm
    have hnow := now_passTo ((budgetOf s d).reportAt + 500000) s (ticking_run hm)
    obtain ⟨hcounted, hgranted, hclock, hmem, hfab, hrings⟩ :=
      reportMissed_effect d (passTo ((budgetOf s d).reportAt + 500000) s)
    rw [budgetOf_congr (passTo_mortar _ s)] at hcounted hgranted
    exact ⟨_, exec_reportTimeout_run h1 h4 hm, (now_congr hclock).trans hnow, hcounted, hgranted,
      hmem.trans (passTo_mem _ s), hfab.trans (passTo_fab _ s), hrings.trans (passTo_rings _ s)⟩

end Sys2Proof.Machine
end

section
namespace Sys2Proof.Machine

open Reg

/-! ## Port ends by their die and port -/

theorem isEnd_iff {d p : Nat} : isEnd d p = true ↔ (d = 0 ∧ p < 4) ∨ (1 ≤ d ∧ d ≤ 4 ∧ p < 3) := by
  unfold isEnd
  split
  · simp only [decide_eq_true_eq]
    omega
  · simp only [Bool.and_eq_true, decide_eq_true_eq]
    omega

theorem mayTrain_isEnd {s : State} {d p : Nat} (h : mayTrain s d p = true) : isEnd d p = true := by
  unfold mayTrain at h
  simp only [Bool.and_eq_true] at h
  exact h.1.1.1

/-- The end beyond a port is an end of another die (R389). -/
theorem isEnd_peerOf {d p : Nat} (h : isEnd d p = true) : isEnd (peerOf d p).1 (peerOf d p).2 = true := by
  rcases isEnd_iff.mp h with ⟨rfl, hp⟩ | ⟨h1, h4, hp⟩
  · exact isEnd_iff.mpr (.inr ⟨Nat.le_add_left _ _, hp, Nat.lt_succ_self 2⟩)
  · unfold peerOf east west
    rw [if_neg (by omega)]
    split
    · exact isEnd_iff.mpr (.inr (by omega))
    · exact isEnd_iff.mpr (.inr (by omega))
    · exact isEnd_iff.mpr (.inl (by omega))

theorem peerOf_die_ne {d p : Nat} (h : isEnd d p = true) : (peerOf d p).1 ≠ d := by
  rcases isEnd_iff.mp h with ⟨rfl, hp⟩ | ⟨h1, h4, hp⟩
  · exact Nat.succ_ne_zero p
  · unfold peerOf east west
    rw [if_neg (by omega)]
    split <;> dsimp only <;> omega

theorem peerOf_ne {d p : Nat} (h : isEnd d p = true) (q : Nat) : ((peerOf d p).1, (peerOf d p).2) ≠ (d, q) :=
  fun e => peerOf_die_ne h (congrArg Prod.fst e)

@[simp] theorem endOf_modEnd_self (d p : Nat) (f : PortEnd → PortEnd) (s : State) :
    endOf (modEnd d p f s) d p = f (endOf s d p) := aget_aset_self _ _ _ _

theorem endOf_modEnd_ne {d p e q : Nat} (hp : isEnd d p = true) (hq : isEnd e q = true) (h : (e, q) ≠ (d, p))
    (f : PortEnd → PortEnd) (s : State) : endOf (modEnd d p f s) e q = endOf s e q := by
  refine aget_aset_ne _ _ _ _ _ _ fun hk => h ?_
  rcases isEnd_iff.mp hp with hp | hp <;> rcases isEnd_iff.mp hq with hq | hq <;> exact Prod.ext (by omega) (by omega)

theorem endOf_congr {s t : State} (h : t.mortar.ends = s.mortar.ends) (d p : Nat) : endOf t d p = endOf s d p := by
  unfold endOf
  rw [h]

/-! ## What the registers of a port end show -/

/-- The fields of MTR_PORT_STATUS, MTR_LANE_MAP and MTR_LANE_USE of a port end (R428). -/
structure EndView where
  state : Nat
  width : Nat
  epoch : Nat
  good : Nat
  data : Nat

/-- What the registers of a port end show. -/
def viewOf (s : State) (d p : Nat) : EndView :=
  ⟨endState s d p, endWidth s d p, endEpoch s d p, endGood s d p, endData s d p⟩

/-- The key of the first field of a port end. -/
def endKey (d p : Nat) : Nat := ((if d = 0 then 0xC00100 else 0x340100) + endOff d p) * 64

/-- A field of the port ends with its place on the Hearth: one of the three registers that `EndView` shows. -/
abbrev ShownField (f h : Field) : Prop :=
  0x340100 ≤ f.off ∧ f.off < 0x34010C ∧ h.off = f.off + 0x8C0000 ∧ h.lo = f.lo ∧ f.lo < 64 ∧ h.width = f.width

/-- Where a field of a port end's block stands, with n bytes on from it. -/
theorem fkey_endField_at {f h : Field} (hlow : 0x340100 ≤ f.off) (hoff : h.off = f.off + 0x8C0000) (hlo : h.lo = f.lo)
    (d p n : Nat) : fkey (endField d f h) (endOff d p + n) = endKey d p + (f.off - 0x340100 + n) * 64 + f.lo := by
  unfold fkey endField endKey
  split
  · rw [hoff, hlo]
    omega
  · omega

theorem fkey_endField {f h : Field} (hf : ShownField f h) (d p : Nat) :
    fkey (endField d f h) (endOff d p) = endKey d p + (f.off - 0x340100) * 64 + f.lo := by
  obtain ⟨hlow, -, hoff, hlo, -, -⟩ := hf
  have h := fkey_endField_at hlow hoff hlo d p 0
  rwa [Nat.add_zero, Nat.add_zero] at h

/-- The blocks of two port ends are apart. -/
theorem endKey_apart {d p e q : Nat} (hp : isEnd d p = true) (hq : isEnd e q = true) (h : (e, q) ≠ (d, p)) :
    endKey d p + 0x40 * 64 ≤ endKey e q ∨ endKey e q + 0x40 * 64 ≤ endKey d p := by
  have hne : e ≠ d ∨ q ≠ p := by
    by_contra hc
    rw [not_or, not_not, not_not] at hc
    exact h (Prod.ext hc.1 hc.2)
  unfold endKey endOff portAt dieBase
  rcases isEnd_iff.mp hp with ⟨rfl, hp⟩ | ⟨h1, h4, hp⟩ <;> rcases isEnd_iff.mp hq with ⟨rfl, hq⟩ | ⟨g1, g4, hq⟩
  · simp only [if_true]
    omega
  · rw [if_pos rfl, if_pos rfl, if_neg (by omega), if_neg (by omega)]
    omega
  · rw [if_pos rfl, if_pos rfl, if_neg (by omega), if_neg (by omega)]
    omega
  · rw [if_neg (by omega), if_neg (by omega), if_neg (by omega), if_neg (by omega)]
    omega

theorem rdEnd_wrEnd_self (d p : Nat) {f h : Field} (hf : ShownField f h) (v : Nat) (s : State) :
    rdEnd (wrEnd d p f h v s) d p f h = v % 2 ^ f.width := by
  refine (rd_wr_self _ _ _ _).trans ?_
  obtain ⟨-, -, -, -, -, hwidth⟩ := hf
  unfold endField
  split
  · rw [hwidth]
  · rfl

/-- A write of one field of an end leaves its other fields. -/
theorem rdEnd_wrEnd_field (d p : Nat) {f h g k : Field} (hf : ShownField f h) (hg : ShownField g k)
    (hne : f.off ≠ g.off ∨ f.lo ≠ g.lo) (v : Nat) (s : State) : rdEnd (wrEnd d p f h v s) d p g k = rdEnd s d p g k := by
  refine rd_wr_ne _ _ _ _ _ _ ?_
  rw [fkey_endField hf, fkey_endField hg]
  obtain ⟨hlow, hup, -, -, hlo, -⟩ := hf
  obtain ⟨glow, gup, -, -, glo, -⟩ := hg
  omega

theorem shown_state : ShownField MTR_PORT_STATUS.state MTR_HUB_PORT_STATUS.state := by decide
theorem shown_width : ShownField MTR_PORT_STATUS.width MTR_HUB_PORT_STATUS.width := by decide
theorem shown_epoch : ShownField MTR_PORT_STATUS.epoch MTR_HUB_PORT_STATUS.epoch := by decide
theorem shown_good : ShownField MTR_LANE_MAP.rx_good MTR_HUB_LANE_MAP.rx_good := by decide
theorem shown_data : ShownField MTR_LANE_USE.rx_data MTR_HUB_LANE_USE.rx_data := by decide

@[simp] theorem viewOf_wrState (d p v : Nat) (s : State) :
    viewOf (wrState d p v s) d p = { viewOf s d p with state := v % 4 } := by
  simp only [viewOf, endState, endWidth, endEpoch, endGood, endData, wrState, rdEnd_wrEnd_self _ _ shown_state,
    rdEnd_wrEnd_field _ _ shown_state shown_width (by decide), rdEnd_wrEnd_field _ _ shown_state shown_epoch (by decide),
    rdEnd_wrEnd_field _ _ shown_state shown_good (by decide), rdEnd_wrEnd_field _ _ shown_state shown_data (by decide)]
  rfl

@[simp] theorem viewOf_wrWidth (d p v : Nat) (s : State) :
    viewOf (wrWidth d p v s) d p = { viewOf s d p with width := v % 32 } := by
  simp only [viewOf, endState, endWidth, endEpoch, endGood, endData, wrWidth, rdEnd_wrEnd_self _ _ shown_width,
    rdEnd_wrEnd_field _ _ shown_width shown_state (by decide), rdEnd_wrEnd_field _ _ shown_width shown_epoch (by decide),
    rdEnd_wrEnd_field _ _ shown_width shown_good (by decide), rdEnd_wrEnd_field _ _ shown_width shown_data (by decide)]
  rfl

@[simp] theorem viewOf_wrEpoch (d p v : Nat) (s : State) :
    viewOf (wrEpoch d p v s) d p = { viewOf s d p with epoch := v % 65536 } := by
  simp only [viewOf, endState, endWidth, endEpoch, endGood, endData, wrEpoch, rdEnd_wrEnd_self _ _ shown_epoch,
    rdEnd_wrEnd_field _ _ shown_epoch shown_state (by decide), rdEnd_wrEnd_field _ _ shown_epoch shown_width (by decide),
    rdEnd_wrEnd_field _ _ shown_epoch shown_good (by decide), rdEnd_wrEnd_field _ _ shown_epoch shown_data (by decide)]
  rfl

@[simp] theorem viewOf_wrGood (d p v : Nat) (s : State) :
    viewOf (wrGood d p v s) d p = { viewOf s d p with good := v % 2 ^ 22 } := by
  simp only [viewOf, endState, endWidth, endEpoch, endGood, endData, wrGood, rdEnd_wrEnd_self _ _ shown_good,
    rdEnd_wrEnd_field _ _ shown_good shown_state (by decide), rdEnd_wrEnd_field _ _ shown_good shown_width (by decide),
    rdEnd_wrEnd_field _ _ shown_good shown_epoch (by decide), rdEnd_wrEnd_field _ _ shown_good shown_data (by decide)]
  rfl

@[simp] theorem viewOf_wrData (d p v : Nat) (s : State) :
    viewOf (wrData d p v s) d p = { viewOf s d p with data := v % 2 ^ 22 } := by
  simp only [viewOf, endState, endWidth, endEpoch, endGood, endData, wrData, rdEnd_wrEnd_self _ _ shown_data,
    rdEnd_wrEnd_field _ _ shown_data shown_state (by decide), rdEnd_wrEnd_field _ _ shown_data shown_width (by decide),
    rdEnd_wrEnd_field _ _ shown_data shown_epoch (by decide), rdEnd_wrEnd_field _ _ shown_data shown_good (by decide)]
  rfl

theorem viewOf_congr {s t : State} (h : t.regs = s.regs) (d p : Nat) : viewOf t d p = viewOf s d p := by
  simp only [viewOf, endState, endWidth, endEpoch, endGood, endData, rdEnd, rd, h]

/-! ## Registers beside the port ends -/

/-- A register that no port end shows. -/
def portFree (k : Nat) : Prop := ∀ d p, isEnd d p = true → k < endKey d p ∨ endKey d p + 768 ≤ k

/-- Where the registers of the port ends stand. -/
theorem portFree_of {k : Nat} (hhub : k < 0xC00100 * 64 ∨ 0xC001CC * 64 ≤ k)
    (hdie : ∀ d ≤ 4, 1 ≤ d → ∀ p < 3, k < (0x340100 + portAt d p) * 64 ∨ (0x34010C + portAt d p) * 64 ≤ k) : portFree k := by
  intro d p h
  unfold endKey endOff
  rcases isEnd_iff.mp h with ⟨rfl, hp⟩ | ⟨h1, h4, hp⟩
  · rw [if_pos rfl, if_pos rfl]
    omega
  · rw [if_neg (by omega), if_neg (by omega)]
    have := hdie d h4 h1 p hp
    omega

/-- The rest of a port end's block is free of what the ends show. -/
theorem portFree_block {d p k : Nat} (hend : isEnd d p = true) (hlow : endKey d p + 768 ≤ k)
    (hup : k < endKey d p + 0x40 * 64) : portFree k := by
  intro e q hq
  by_cases h : (e, q) = (d, p)
  · obtain ⟨rfl, rfl⟩ := Prod.mk.inj h
    exact .inr hlow
  · have := endKey_apart hend hq h
    omega

/-- A field of the port ends with its place on the Hearth: one of a block's registers beyond those that `EndView` shows. -/
abbrev BesideField (f h : Field) : Prop :=
  0x34010C ≤ f.off ∧ f.off + 20 < 0x340140 ∧ h.off = f.off + 0x8C0000 ∧ h.lo = f.lo ∧ f.lo < 64

theorem portFree_endField {d p n : Nat} (hend : isEnd d p = true) {f h : Field} (hf : BesideField f h) (hn : n ≤ 20) :
    portFree (fkey (endField d f h) (endOff d p + n)) := by
  obtain ⟨hlow, hup, hoff, hlo, hbit⟩ := hf
  rw [fkey_endField_at (by omega) hoff hlo]
  exact portFree_block hend (by omega) (by omega)

/-- The registers that a port end shows are seen by what is not free of them. -/
theorem viewOf_of_live {s t : State} {d p : Nat} (hend : isEnd d p = true)
    (h : ∀ f a, ¬ portFree (fkey f a) → rd t f a = rd s f a) : viewOf t d p = viewOf s d p := by
  have hshown : ∀ {f g : Field}, ShownField f g → rdEnd t d p f g = rdEnd s d p f g := fun {f g} hf => by
    refine h _ _ fun hfree => ?_
    have hk := hfree d p hend
    rw [fkey_endField hf] at hk
    obtain ⟨hlow, hup, -, -, hlo, -⟩ := hf
    omega
  simp only [viewOf, endState, endWidth, endEpoch, endGood, endData, hshown shown_state, hshown shown_width,
    hshown shown_epoch, hshown shown_good, hshown shown_data]

/-- A write of a field of one end leaves what the others show. -/
theorem viewOf_wrEnd_ne {d p e q : Nat} (hp : isEnd d p = true) (hq : isEnd e q = true) (hne : (e, q) ≠ (d, p))
    {f h : Field} (hf : ShownField f h) (v : Nat) (s : State) : viewOf (wrEnd d p f h v s) e q = viewOf s e q := by
  have hkey : ∀ {g k : Field}, ShownField g k → rdEnd (wrEnd d p f h v s) e q g k = rdEnd s e q g k := fun {g k} hg => by
    refine rd_wr_ne _ _ _ _ _ _ ?_
    rw [fkey_endField hf, fkey_endField hg]
    have hapart := endKey_apart hp hq hne
    obtain ⟨hlow, hup, -, -, hlo, -⟩ := hf
    obtain ⟨glow, gup, -, -, glo, -⟩ := hg
    omega
  simp only [viewOf, endState, endWidth, endEpoch, endGood, endData, hkey shown_state, hkey shown_width,
    hkey shown_epoch, hkey shown_good, hkey shown_data]

theorem portFree_reportKey (k : Nat) (h : reportKey k) : portFree k := by
  simp only [reportKey, retryKey, fkey, dieBase, HST_EVT_DROP_COUNT.drops, HST_DEV_EQ_TAIL.tail,
    PLB_PORT_STATE.over_rate, HBM_CRC_RETRY_COUNT.retries, HST_CTX_STATE.stopped] at h
  refine portFree_of ?_ fun d h4 h1 p hp => ?_
  · rcases h with h | h | h | ⟨e, h⟩ | ⟨c, hc, h⟩ <;> omega
  · unfold portAt dieBase
    rcases h with h | h | h | ⟨e, h⟩ | ⟨c, hc, h⟩ <;> omega

namespace Quiet

variable {s t : State}

theorem toView (h : Quiet portFree s t) {d p : Nat} (hend : isEnd d p = true) : viewOf t d p = viewOf s d p :=
  viewOf_of_live hend fun f a hf => h.toRd f a hf

theorem toEnd {S : Nat → Prop} (h : Quiet S s t) (d p : Nat) : endOf t d p = endOf s d p :=
  endOf_congr (congrArg MortarState.ends h.toMortar) d p

/-- A fold over a list whose elements each change quietly. -/
theorem foldlMem {S : Nat → Prop} {α : Type} {f : State → α → State} {l : List α} (hf : ∀ x, ∀ a ∈ l, Quiet S x (f x a))
    (s : State) : Quiet S s (l.foldl f s) := by
  induction l generalizing s with
  | nil => exact .refl s
  | cons a r ih => exact (hf s a List.mem_cons_self).trans (ih (fun x b hb => hf x b (List.mem_cons_of_mem _ hb)) _)

end Quiet

theorem event_portFree (st die ctx unit sev : Nat) (p : List Nat) (s : State) :
    Quiet portFree s (event st die ctx unit sev p s) := (event_quiet _ _ _ _ _ _ s).mono portFree_reportKey

/-! ## The ledger leaves the port ends alone -/

/-- The registers of Plumb are not those of the port ends. -/
theorem portFree_plumb {k : Nat} (hlow : 0xA00000 * 64 ≤ k) (hup : k < 0xA10000 * 64) : portFree k :=
  portFree_of (by omega) fun d h4 h1 p hp => by
    unfold portAt dieBase
    omega

/-- A fold that takes at each element either it or what it had before ends in one of the elements. -/
theorem foldl_choice_mem {α : Type} {f : Option α → α → Option α} (hf : ∀ b e, f b e = some e ∨ f b e = b) {l : List α}
    {b : Option α} {x : α} (h : l.foldl f b = some x) : b = some x ∨ x ∈ l := by
  induction l generalizing b with
  | nil => exact .inl h
  | cons y r ih =>
    rcases ih h with hy | hr
    · rcases hf b y with hnew | hold
      · exact .inr (Option.some.inj (hnew.symm.trans hy) ▸ List.mem_cons_self)
      · exact .inl (hold.symm.trans hy)
    · exact .inr (List.mem_cons_of_mem _ hr)

/-- What is dropped first is one of those that may be (R378). -/
theorem firstDrop_mem {s : State} {es : List Nat} {e : Nat} (h : firstDrop s es = some e) : e ∈ es := by
  unfold firstDrop at h
  refine (foldl_choice_mem (fun b y => ?_) h).elim (fun hnone => nomatch hnone)
    fun hmem => (List.mem_filter.mp hmem).1
  cases b with
  | none => exact .inl rfl
  | some x => exact ite_eq_or_eq _ _ _

theorem dropEntry_portFree {e : Nat} (he : e ∈ entries) (s : State) : Quiet portFree s (dropEntry e s) := by
  have hbound := mem_entries.mp he
  unfold dropEntry
  extract_lets s1
  have hentry : Quiet portFree s s1 := by
    unfold s1
    split
    · refine (wr_quiet _ _ _ s (portFree_plumb ?_ ?_)).trans (wr_quiet _ _ _ _ (portFree_plumb ?_ ?_))
      all_goals
        simp only [fkey, PLB_PORT_STATE.held, PLB_PORT_STATE.dropped]
        omega
    · refine wr_quiet _ _ _ s (portFree_plumb ?_ ?_)
      all_goals
        simp only [fkey, PLB_SWITCH_W.dropped]
        omega
  refine (hentry.trans (wr_quiet _ _ _ _ (portFree_plumb ?_ ?_))).trans (event_portFree _ _ _ _ _ _ _)
  all_goals
    simp only [fkey, PLB_DROP_COUNT.drops]
    omega

theorem shed_portFree (beyond : State → Bool) {chargers : State → List Nat} (hc : ∀ s, ∀ e ∈ chargers s, e ∈ entries)
    (n : Nat) (s : State) : Quiet portFree s (shed beyond chargers n s) := by
  induction n generalizing s with
  | zero => exact .refl s
  | succ n ih =>
    unfold shed
    split
    · split
      · next e he => exact (dropEntry_portFree (hc s e (firstDrop_mem he)) s).trans (ih _)
      · exact .refl s
    · exact .refl s

theorem fit_portFree (beyond : State → Bool) {chargers : State → List Nat} (hc : ∀ s, ∀ e ∈ chargers s, e ∈ entries)
    (tag : Nat) (s : State) : Quiet portFree s (fit beyond chargers tag s) := by
  unfold fit
  dsimp only
  split
  · exact (shed_portFree _ hc _ s).trans (event_portFree _ _ _ _ _ _ _)
  · exact shed_portFree _ hc _ s

/-- The entries that charge a resource are among those of the ledger. -/
theorem mem_entries_of_held (s : State) (p : Nat → Bool) : ∀ e ∈ (heldEntries s).filter p, e ∈ entries :=
  fun _ he => (List.mem_filter.mp (List.mem_filter.mp he).1).1

theorem refreshLedger_portFree (s : State) : Quiet portFree s (refreshLedger s) := by
  refine Quiet.foldlMem (fun x k hk => ?_) s
  have hbound := List.mem_range.mp hk
  refine (wr_quiet _ _ _ x (portFree_plumb ?_ ?_)).trans (wr_quiet _ _ _ _ (portFree_plumb ?_ ?_))
  all_goals
    simp only [fkey, PLB_LEDGER.reserved_gbps, PLB_LEDGER.limit_gbps]
    omega

theorem reevaluate_portFree (s : State) : Quiet portFree s (reevaluate s) := by
  unfold reevaluate
  split
  · exact .refl s
  · exact ((Quiet.foldl _ _ (fun x _ => fit_portFree _ (fun y => mem_entries_of_held y _) _ x) s).trans
      (Quiet.foldl _ _ (fun x _ => fit_portFree _ (fun y => mem_entries_of_held y _) _ x) _)).trans (refreshLedger_portFree _)

theorem noteLost_portFree (before s : State) : Quiet portFree s (noteLost before s) := by
  unfold noteLost
  refine .foldl _ _ (fun x n => ?_) s
  split
  · exact event_portFree _ _ _ _ _ _ x
  · exact .refl x

/-- What follows from a change of ports is reports and the ledger (R378, R413). -/
theorem portChange_portFree (f : State → State) (s : State) : Quiet portFree (f s) (portChange f s) := by
  unfold portChange
  dsimp only
  refine Quiet.trans ?_ (noteLost_portFree _ _)
  split
  · exact reevaluate_portFree _
  · exact .refl _

end Sys2Proof.Machine
end

section
namespace Sys2Proof.Machine

open Reg

/-! ## Changes of one port end -/

/-- From s to t one port end has come to show v and to hold x; the other ends, the fabric and the clocks are as before. -/
structure EndSet (d p : Nat) (v : EndView) (x : PortEnd) (s t : State) : Prop where
  view : viewOf t d p = v
  held : endOf t d p = x
  others : ∀ e q, isEnd e q = true → (e, q) ≠ (d, p) → viewOf t e q = viewOf s e q ∧ endOf t e q = endOf s e q
  fab : t.fab = s.fab
  clock : t.clock = s.clock

/-- Messages sent one after another are sent in that order. -/
theorem foldl_send {α : Type} (k : MsgKind) (f : α → List Nat) (l : List α) (s : State) :
    l.foldl (fun s m => send k (f m) s) s = { s with out := s.out ++ l.map (fun m => ⟨k, f m⟩) } := by
  induction l generalizing s with
  | nil => simp
  | cons m r ih =>
    rw [List.foldl_cons, ih]
    simp [send]

/-- What is sent again leaves the end's replay buffer for the messages that wait (R411). -/
theorem resendUnacked_frame (d p : Nat) (s : State) : ∃ o r, resendUnacked d p s =
    { s with out := o, mortar := { (modEnd d p (fun e => { e with replay := [] }) s).mortar with resend := r } } := by
  unfold resendUnacked
  rw [foldl_send]
  exact ⟨_, _, rfl⟩

namespace EndSet

variable {d p n : Nat} {v : EndView} {x : PortEnd} {s t u : State}

protected theorem refl (d p : Nat) (s : State) : EndSet d p (viewOf s d p) (endOf s d p) s s :=
  ⟨rfl, rfl, fun _ _ _ _ => ⟨rfl, rfl⟩, rfl, rfl⟩

theorem wrEnd (h : EndSet d p v x s t) (hend : isEnd d p = true) {f g : Field} (hf : ShownField f g) {w : EndView}
    (hw : viewOf (Machine.wrEnd d p f g n t) d p = w) : EndSet d p w x s (Machine.wrEnd d p f g n t) :=
  ⟨hw, h.held, fun e q hq hne => ⟨(viewOf_wrEnd_ne hend hq hne hf n t).trans (h.others e q hq hne).1,
    (h.others e q hq hne).2⟩, h.fab, h.clock⟩

theorem wrState (h : EndSet d p v x s t) (hend : isEnd d p = true) (n : Nat) :
    EndSet d p { v with state := n % 4 } x s (Machine.wrState d p n t) :=
  h.wrEnd hend shown_state ((viewOf_wrState d p n t).trans (by rw [h.view]))

theorem wrWidth (h : EndSet d p v x s t) (hend : isEnd d p = true) (n : Nat) :
    EndSet d p { v with width := n % 32 } x s (Machine.wrWidth d p n t) :=
  h.wrEnd hend shown_width ((viewOf_wrWidth d p n t).trans (by rw [h.view]))

theorem wrEpoch (h : EndSet d p v x s t) (hend : isEnd d p = true) (n : Nat) :
    EndSet d p { v with epoch := n % 65536 } x s (Machine.wrEpoch d p n t) :=
  h.wrEnd hend shown_epoch ((viewOf_wrEpoch d p n t).trans (by rw [h.view]))

theorem wrData (h : EndSet d p v x s t) (hend : isEnd d p = true) (n : Nat) :
    EndSet d p { v with data := n % 2 ^ 22 } x s (Machine.wrData d p n t) :=
  h.wrEnd hend shown_data ((viewOf_wrData d p n t).trans (by rw [h.view]))

theorem modEnd (h : EndSet d p v x s t) (hend : isEnd d p = true) (f : PortEnd → PortEnd) :
    EndSet d p v (f x) s (Machine.modEnd d p f t) :=
  ⟨(viewOf_congr rfl d p).trans h.view, (endOf_modEnd_self d p f t).trans (by rw [h.held]),
    fun e q hq hne => ⟨(viewOf_congr rfl e q).trans (h.others e q hq hne).1,
      (endOf_modEnd_ne hend hq hne f t).trans (h.others e q hq hne).2⟩, h.fab, h.clock⟩

theorem send (h : EndSet d p v x s t) (k : MsgKind) (l : List Nat) : EndSet d p v x s (Machine.send k l t) :=
  ⟨h.view, h.held, h.others, h.fab, h.clock⟩

theorem resend (h : EndSet d p v x s t) (hend : isEnd d p = true) :
    EndSet d p v { x with replay := [] } s (resendUnacked d p t) := by
  obtain ⟨hview, hheld, hothers, hfab, hclock⟩ := h.modEnd hend (fun e => { e with replay := [] })
  obtain ⟨o, r, heq⟩ := resendUnacked_frame d p t
  rw [heq]
  exact ⟨hview, hheld, hothers, hfab, hclock⟩

theorem quiet (h : EndSet d p v x s t) (hend : isEnd d p = true) (g : Quiet portFree t u) : EndSet d p v x s u :=
  ⟨(g.toView hend).trans h.view, (g.toEnd d p).trans h.held,
    fun e q hq hne => ⟨(g.toView hq).trans (h.others e q hq hne).1, (g.toEnd e q).trans (h.others e q hq hne).2⟩,
    g.toFab.trans h.fab, g.toClock.trans h.clock⟩

protected theorem trans {w : EndView} {y : PortEnd} (h : EndSet d p v x s t) (g : EndSet d p w y t u) : EndSet d p w y s u :=
  ⟨g.view, g.held, fun e q hq hne => ⟨(g.others e q hq hne).1.trans (h.others e q hq hne).1,
    (g.others e q hq hne).2.trans (h.others e q hq hne).2⟩, g.fab.trans h.fab, g.clock.trans h.clock⟩

/-- A change of an end that follows a quiet one. -/
theorem after (g : Quiet portFree s t) (h : EndSet d p v x t u) : EndSet d p v x s u :=
  ⟨h.view, h.held, fun e q hq hne => ⟨(h.others e q hq hne).1.trans (g.toView hq),
    (h.others e q hq hne).2.trans (g.toEnd e q)⟩, h.fab.trans g.toFab, h.clock.trans g.toClock⟩

end EndSet

/-- From s to t nothing but the links' own state has changed. -/
def OnlyMortar (s t : State) : Prop := t = { s with mortar := t.mortar }

namespace OnlyMortar

variable {s t u : State}

protected theorem refl (s : State) : OnlyMortar s s := rfl

protected theorem trans (h : OnlyMortar s t) (g : OnlyMortar t u) : OnlyMortar s u := by
  unfold OnlyMortar at h g ⊢
  rw [g, h]

theorem modEnd (h : OnlyMortar s t) (d p : Nat) (f : PortEnd → PortEnd) : OnlyMortar s (Machine.modEnd d p f t) :=
  h.trans rfl

end OnlyMortar

/-- From s to t nothing but the links' own state and what is sent has changed. -/
def OnlyTraffic (s t : State) : Prop := t = { s with mortar := t.mortar, out := t.out }

theorem OnlyMortar.toTraffic {s t : State} (h : OnlyMortar s t) : OnlyTraffic s t := by
  unfold OnlyMortar at h
  unfold OnlyTraffic
  rw [h]

theorem OnlyMortar.out {s t : State} (h : OnlyMortar s t) : t.out = s.out := by
  unfold OnlyMortar at h
  rw [h]

protected theorem OnlyTraffic.trans {s t u : State} (h : OnlyTraffic s t) (g : OnlyTraffic t u) : OnlyTraffic s u := by
  unfold OnlyTraffic at h g ⊢
  rw [g, h]

/-- A change of the links' own state, then one of it and of registers. -/
theorem OnlyMortar.thenRegs {s t u : State} (h : OnlyMortar s t) (g : u = { t with mortar := u.mortar, regs := u.regs }) :
    u = { s with mortar := u.mortar, regs := u.regs } := by
  unfold OnlyMortar at h
  rw [g, h]

/-! ## An end enters training -/

/-- The width that an end had before a training that begins: that of a training in work stays (R410). -/
def widthBefore (s : State) (d p : Nat) : Nat := if endState s d p = 1 then (endOf s d p).before else endWidth s d p

/-- What an end shows in training at an epoch (R403, R428). -/
def EndView.training (v : EndView) (epoch : Nat) : EndView :=
  { v with state := 1, width := 0, epoch := epoch % 65536, data := 0 }

/-- What an end holds as its training begins (R403, R404). -/
def PortEnd.training (x : PortEnd) (before time : Nat) : PortEnd :=
  { x.idle with before := before, attempt := 1, heard := time, testEnd := none }

theorem beginTraining_set {d p : Nat} (hend : isEnd d p = true) (epoch : Nat) (s : State) :
    EndSet d p ((viewOf s d p).training epoch) ((endOf s d p).training (widthBefore s d p) (now s)) s
      (beginTraining d p epoch s) :=
  (((((EndSet.refl d p s).wrState hend 1).wrEpoch hend epoch).wrWidth hend 0).wrData hend 0).modEnd hend
    (fun e => e.training (widthBefore s d p) (now s))

/-- The epoch at which an end starts a training (R403). -/
def nextEpoch (s : State) (d p : Nat) : Nat := (newest (endEpoch s d p) (endOf s d p).rxEpoch + 1) % 65536

theorem startTraining_set {d p : Nat} (hend : isEnd d p = true) (s : State) :
    EndSet d p ((viewOf s d p).training (nextEpoch s d p)) ((endOf s d p).training (widthBefore s d p) (now s)) s
      (startTraining d p s) := beginTraining_set hend _ s

theorem nextEpoch_mod (s : State) (d p : Nat) : nextEpoch s d p % 65536 = nextEpoch s d p := Nat.mod_mod _ _

theorem secondAttempt_set {d p w : Nat} (hend : isEnd d p = true) (hw : 8 ≤ w) (s : State) :
    EndSet d p { viewOf s d p with epoch := (endEpoch s d p + 1) % 65536 }
      { (endOf s d p).idle with attempt := 2, want := w, heard := now s } s (secondAttempt d p w s) := by
  unfold secondAttempt
  rw [if_neg (by omega)]
  have h := ((EndSet.refl d p s).wrEpoch hend ((endEpoch s d p + 1) % 65536)).modEnd hend
    (fun e => { e.idle with attempt := 2, want := w, heard := now s })
  rw [Nat.mod_mod] at h
  exact h

theorem secondAttempt_low {w : Nat} (hw : w < 8) (d p : Nat) (s : State) :
    secondAttempt d p w s = portDown d p 0x2A s := if_pos hw

/-! ## An end goes down or comes up -/

/-- A port end that is down, with nothing of a training, its flits left to be sent again (R411). -/
def endDown (d p : Nat) (s : State) : State :=
  resendUnacked d p (modEnd d p PortEnd.idle (wrData d p 0 (wrWidth d p 0 (wrState d p 0 s))))

theorem portDown_quiet (d p cause : Nat) (s : State) : Quiet portFree (endDown d p s) (portDown d p cause s) := by
  unfold portDown
  refine Quiet.trans ?_ (portChange_portFree _ s)
  dsimp only
  split
  · exact event_portFree _ _ _ _ _ _ _
  · exact .refl _

/-- What an end shows that is down (R428). -/
def EndView.down (v : EndView) : EndView := { v with state := 0, width := 0, data := 0 }

theorem portDown_set {d p : Nat} (hend : isEnd d p = true) (cause : Nat) (s : State) :
    EndSet d p (viewOf s d p).down { (endOf s d p).idle with replay := [] } s (portDown d p cause s) :=
  (((((((EndSet.refl d p s).wrState hend 0).wrWidth hend 0).wrData hend 0).modEnd hend PortEnd.idle).resend hend).quiet hend
    (portDown_quiet d p cause s))

/-- What an end holds when it has come up (R406, R407). -/
def PortEnd.up (x : PortEnd) (w : Nat) : PortEnd :=
  { x with txLanes := lowLanes ((x.peer.map (·.2)).getD 0) w, parity := [], discarding := false, rxNext := 0, txNext := 0,
           credits := [96, 96, 96, 96], held := [0, 0, 0, 0] }

/-- A port end that is up at its target width (R406, R407). -/
def endUp (d p : Nat) (s : State) : State :=
  let w := (endOf s d p).target
  modEnd d p (fun e => e.up w)
    (resendUnacked d p (wrData d p (lowLanes (endGood s d p) w) (wrWidth d p w (wrState d p 2 s))))

theorem portUp_quiet (d p : Nat) (s : State) : Quiet portFree (endUp d p s) (portUp d p s) := by
  unfold portUp
  extract_lets e w s1 s2 body s3
  have hreport : Quiet portFree s2 s3 := by
    unfold s3
    split
    · exact .refl _
    · split
      · exact event_portFree _ _ _ _ _ _ _
      · split
        · exact event_portFree _ _ _ _ _ _ _
        · exact .refl _
  refine Quiet.trans hreport ?_
  split
  · exact reevaluate_portFree _
  · exact .refl _

theorem portUp_set {d p : Nat} (hend : isEnd d p = true) (s : State) :
    EndSet d p { viewOf s d p with state := 2, width := (endOf s d p).target % 32,
                                   data := lowLanes (endGood s d p) (endOf s d p).target % 2 ^ 22 }
      (PortEnd.up { endOf s d p with replay := [] } (endOf s d p).target) s (portUp d p s) :=
  ((((((EndSet.refl d p s).wrState hend 2).wrWidth hend (endOf s d p).target).wrData hend
    (lowLanes (endGood s d p) (endOf s d p).target)).resend hend).modEnd hend
    (fun e => e.up (endOf s d p).target)).quiet hend (portUp_quiet d p s)

/-! ## The end's die as its straps give it -/

/-- No field that a port end shows is among the straps (R427). -/
theorem strapDie_wrEnd (d p : Nat) {f h : Field} (hf : ShownField f h) (v : Nat) (s : State) :
    strapDie (wrEnd d p f h v s) d = strapDie s d := by
  unfold strapDie
  split
  · rfl
  · next hd =>
    refine congrArg (· + 1) (rd_wr_ne _ _ _ _ _ _ ?_)
    rw [fkey_endField hf]
    obtain ⟨hlow, hup, -, -, hlo, -⟩ := hf
    unfold endKey endOff portAt
    rw [if_neg hd, if_neg hd]
    simp only [fkey, MTR_DIE_ID.position]
    omega

theorem strapDie_beginTraining (d p epoch : Nat) (s : State) :
    strapDie (beginTraining d p epoch s) d = strapDie s d :=
  (strapDie_wrEnd d p shown_data 0 _).trans ((strapDie_wrEnd d p shown_width 0 _).trans
    ((strapDie_wrEnd d p shown_epoch epoch _).trans (strapDie_wrEnd d p shown_state 1 s)))

theorem strapDie_secondAttempt (d p : Nat) {w : Nat} (hw : 8 ≤ w) (s : State) :
    strapDie (secondAttempt d p w s) d = strapDie s d := by
  unfold secondAttempt
  rw [if_neg (by omega)]
  exact strapDie_wrEnd d p shown_epoch _ s

/-! ## Proposals -/

/-- An end that has no proposal of its own has nothing to compare (R407). -/
theorem settleProposals_without_own {d p : Nat} {s : State} (h : (endOf s d p).proposal = none) :
    settleProposals d p s = s := by
  unfold settleProposals
  dsimp only
  rw [h]

theorem settleProposals_without_peer {d p : Nat} {s : State} (h : (endOf s d p).peer = none) :
    settleProposals d p s = s := by
  unfold settleProposals
  dsimp only
  rw [h]
  cases (endOf s d p).proposal <;> rfl

/-- Two proposals of one width, not 0, set the width to check (R407). -/
theorem settleProposals_agree {d p w mine map : Nat} {s : State} (ha : (endOf s d p).attempt = 1)
    (hown : (endOf s d p).proposal = some (w, mine)) (hpeer : (endOf s d p).peer = some (w, map)) (hw : w ≠ 0) :
    settleProposals d p s = modEnd d p (fun e => { e with target := w }) s := by
  unfold settleProposals
  dsimp only
  rw [hown, hpeer]
  dsimp only
  rw [if_neg (by rw [ha]; decide), if_neg (by omega), if_pos rfl]

/-- A first proposal from the peer that the straps give is taken (R402, R404). -/
theorem takeProposal_first {d p width map : Nat} {peer : Nat × Nat} {s : State}
    (hid : peerOf (strapDie s d) p = peer) (hnone : (endOf s d p).peer = none) :
    takeProposal d p width map peer.1 peer.2 s =
      settleProposals d p (modEnd d p (fun e => { e with peer := some (width, map) }) s) := by
  unfold takeProposal
  rw [if_neg (fun h => h.1 hid), if_neg (by rw [hnone]; decide)]

/-- A proposal with another identity than the straps give brings the port down (R402). -/
theorem takeProposal_foreign {d p width map pd pp : Nat} {s : State} (hid : peerOf (strapDie s d) p ≠ (pd, pp))
    (hhub : d ≠ 0 ∨ (pd, pp) ≠ peerOf 0 p) : takeProposal d p width map pd pp s = identityFault d p s := by
  unfold takeProposal
  refine if_pos ⟨hid, ?_⟩
  rw [Bool.not_eq_true', Bool.and_eq_false_iff, beq_eq_false_iff_ne, beq_eq_false_iff_ne]
  exact hhub

/-! ## Sideband messages -/

/-- An end that has just heard a message of an epoch (R403, R408). -/
def endHeard (d p epoch : Nat) (s : State) : State :=
  modEnd d p (fun e => { e with heard := now s, rxEpoch := newest e.rxEpoch epoch }) s

theorem endOf_endHeard (d p epoch : Nat) (s : State) : endOf (endHeard d p epoch s) d p =
    { endOf s d p with heard := now s, rxEpoch := newest (endOf s d p).rxEpoch epoch } := endOf_modEnd_self d p _ s

theorem endHeard_set {d p : Nat} (hend : isEnd d p = true) (epoch : Nat) (s : State) :
    EndSet d p (viewOf s d p) { endOf s d p with heard := now s, rxEpoch := newest (endOf s d p).rxEpoch epoch } s
      (endHeard d p epoch s) :=
  (EndSet.refl d p s).modEnd hend (fun e => { e with heard := now s, rxEpoch := newest e.rxEpoch epoch })

theorem newer_self (n : Nat) : newer n n = false := by
  unfold newer
  rw [Nat.add_sub_cancel_left]
  rfl

theorem onSideband_same {d p epoch : Nat} {act : State → State} {s : State} (h : epoch = endEpoch s d p) :
    onSideband d p epoch act s = act (endHeard d p epoch s) := by
  unfold onSideband
  rw [if_neg (by rw [h, newer_self]; exact Bool.false_ne_true), if_pos h]
  rfl

theorem onSideband_newer {d p epoch : Nat} {act : State → State} {s : State} (h : newer epoch (endEpoch s d p) = true) :
    onSideband d p epoch act s = portChange (fun s =>
      if endState (adoptEpoch d p epoch s) d p = 1 then act (adoptEpoch d p epoch s) else adoptEpoch d p epoch s)
      (endHeard d p epoch s) := if_pos h

theorem adoptEpoch_restart {d p : Nat} {s : State} (h : endState s d p ≠ 1 ∨ (endOf s d p).target = 0) (epoch : Nat) :
    adoptEpoch d p epoch s = beginTraining d p epoch s := by
  unfold adoptEpoch
  refine if_neg fun hc => ?_
  obtain ⟨hstate, -, htarget, -⟩ := hc
  exact h.elim (fun h => h hstate) (by omega)

theorem adoptEpoch_second {d p : Nat} {s : State} (hs : endState s d p = 1) (ha : (endOf s d p).attempt = 1)
    (ht : 8 ≤ (endOf s d p).target) : adoptEpoch d p ((endEpoch s d p + 1) % 65536) s =
      secondAttempt d p (lowerWidth (endOf s d p).target) s := if_pos ⟨hs, ha, ht, rfl⟩

/-- The widths below which a second attempt is made (R407). -/
theorem lowerWidth_ge {w : Nat} (h : w ∈ [12, 16, 20]) : 8 ≤ w ∧ 8 ≤ lowerWidth w := by
  simp only [List.mem_cons, List.not_mem_nil, or_false] at h
  rcases h with rfl | rfl | rfl <;> decide

end Sys2Proof.Machine
end

section
namespace Sys2Proof.Machine

open Reg

/-! ## PORT_RETRAIN and FRAMING_LOSS -/

theorem exec_portRetrain_unreached {s : State} {d p : Nat} (h1 : 1 ≤ d) (h4 : d ≤ 4) (h : reach s 0 d = false) :
    exec (.portRetrain d p) s = .next { s with bus := ⟨68, 0x0810, []⟩ } :=
  congrArg Host.Outcome.next (ifReached_unreached h1 h4 h)

/-- The Hearth's own window is always reached. -/
theorem ifReached_open {d : Nat} {act : State → State} {s : State} (h : d = 0 ∨ reach s 0 d = true) :
    ifReached d act s = act s := by
  rcases h with rfl | h
  · exact if_neg fun h => absurd h.1 (by decide)
  · exact ifReached_reached h

theorem exec_portRetrain_trains {s : State} {d p : Nat} (h : mayTrain s d p = true) (hr : d = 0 ∨ reach s 0 d = true) :
    exec (.portRetrain d p) s = .next (portChange (startTraining d p) s) :=
  congrArg Host.Outcome.next ((ifReached_open hr).trans (if_pos h))

theorem exec_framingLoss_up {s : State} {d p : Nat} (h : isEnd d p = true) (hs : endState s d p = 2) :
    exec (.framingLoss d p) s = .next (portChange (startTraining d p) s) := congrArg Host.Outcome.next (if_pos ⟨h, hs⟩)

/-- A training that starts, with what follows from the change of its port (R378, R403, R413). -/
theorem portChange_startTraining_set {d p : Nat} (hend : isEnd d p = true) (s : State) :
    EndSet d p ((viewOf s d p).training (nextEpoch s d p)) ((endOf s d p).training (widthBefore s d p) (now s)) s
      (portChange (startTraining d p) s) := (startTraining_set hend s).quiet hend (portChange_portFree _ s)

/-! ## LANE_MEASUREMENT_COMPLETE -/

/-- An end that has measured its lanes and holds its proposal (R405). -/
def endMeasured (d p good : Nat) (s : State) : State :=
  send .mortarProposal [linkOf d p, endEpoch s d p, widthFor (popcount (good % 2 ^ 22) 22), good % 2 ^ 22, strapDie s d, p]
    (modEnd d p (fun e => { e with proposal := some (widthFor (popcount (good % 2 ^ 22) 22), good % 2 ^ 22) })
      (wrGood d p (good % 2 ^ 22) s))

theorem endOf_endMeasured (d p good : Nat) (s : State) : endOf (endMeasured d p good s) d p =
    { endOf s d p with proposal := some (widthFor (popcount (good % 2 ^ 22) 22), good % 2 ^ 22) } :=
  aget_aset_self s.mortar.ends (d * 4 + p) _ {}

theorem viewOf_endMeasured (d p good : Nat) (s : State) :
    viewOf (endMeasured d p good s) d p = { viewOf s d p with good := good % 2 ^ 22 } :=
  (viewOf_congr rfl d p).trans ((viewOf_wrGood d p _ s).trans (by rw [Nat.mod_mod]))

theorem exec_laneMeasurementComplete_first {s : State} {d p good : Nat} (hend : isEnd d p = true) (hs : endState s d p = 1)
    (hown : (endOf s d p).proposal = none) (hpeer : (endOf s d p).peer = none) :
    exec (.laneMeasurementComplete d p good) s = .next (endMeasured d p good s) := by
  have hwaits : (endOf (endMeasured d p good s) d p).peer = none := by rw [endOf_endMeasured]; exact hpeer
  exact congrArg Host.Outcome.next ((if_pos ⟨hend, hs, by rw [hown]; rfl⟩).trans (settleProposals_without_peer hwaits))

/-! ## TRAINING_PROPOSAL -/

/-- What a proposal does at an end in training (R404). -/
def proposalActs (d p width map pd pp : Nat) (t : State) : State :=
  if endState t d p = 1 then takeProposal d p width map pd pp t else t

theorem exec_trainingProposal_heard {s : State} {d p : Nat} (h : mayTrain s d p = true) (ep w map pd pp : Nat) :
    exec (.trainingProposal d p ep w map pd pp) s =
      .next (onSideband d p (ep % 65536) (proposalActs d p w map pd pp) s) :=
  congrArg Host.Outcome.next (if_neg (by rw [h]; decide))

/-- A proposal of the end's epoch and width, from its peer, sets the width to check (R407). -/
theorem proposalActs_agree {s : State} {d p w map mine : Nat} {peer : Nat × Nat} (hs : endState s d p = 1)
    (hid : peerOf (strapDie s d) p = peer) (ha : (endOf s d p).attempt = 1) (hnone : (endOf s d p).peer = none)
    (hown : (endOf s d p).proposal = some (w, mine)) (hw : w ≠ 0) :
    proposalActs d p w map peer.1 peer.2 s = modEnd d p (fun e => { e with target := w })
      (modEnd d p (fun e => { e with peer := some (w, map) }) s) := by
  unfold proposalActs
  rw [if_pos hs, takeProposal_first hid hnone]
  refine settleProposals_agree (map := map) (mine := mine) ?_ ?_ ?_ hw
  · rw [endOf_modEnd_self]; exact ha
  · rw [endOf_modEnd_self]; exact hown
  · rw [endOf_modEnd_self]

/-- An end that has just begun an attempt holds the proposal of its peer and waits for its own (R404). -/
theorem proposalActs_waits {s : State} {d p w map : Nat} {peer : Nat × Nat} (hs : endState s d p = 1)
    (hid : peerOf (strapDie s d) p = peer) (hnone : (endOf s d p).peer = none) (hown : (endOf s d p).proposal = none) :
    proposalActs d p w map peer.1 peer.2 s = modEnd d p (fun e => { e with peer := some (w, map) }) s := by
  unfold proposalActs
  rw [if_pos hs, takeProposal_first hid hnone]
  refine settleProposals_without_own ?_
  rw [endOf_modEnd_self]
  exact hown

/-- A proposal of a newer epoch is adopted, and the peer's proposal held in the attempt that begins with it (R404). -/
theorem onSideband_adopts {s : State} {d p ep w map : Nat} {peer : Nat × Nat} {v : EndView} {x : PortEnd}
    (hend : isEnd d p = true) (hnew : newer ep (endEpoch s d p) = true)
    (hset : EndSet d p v x s (adoptEpoch d p ep (endHeard d p ep s))) (hv : v.state = 1) (hnone : x.peer = none)
    (hown : x.proposal = none) (hid : peerOf (strapDie (adoptEpoch d p ep (endHeard d p ep s)) d) p = peer) :
    EndSet d p v { x with peer := some (w, map) } s (onSideband d p ep (proposalActs d p w map peer.1 peer.2) s) := by
  have htrains : endState (adoptEpoch d p ep (endHeard d p ep s)) d p = 1 := (congrArg EndView.state hset.view).trans hv
  rw [onSideband_newer hnew]
  refine EndSet.quiet ?_ hend (portChange_portFree _ _)
  rw [if_pos htrains, proposalActs_waits htrains hid (by rw [hset.held]; exact hnone) (by rw [hset.held]; exact hown)]
  exact hset.modEnd hend (fun e => { e with peer := some (w, map) })

/-- A port whose peer is not the one that the straps give goes down (R402). -/
theorem identityFault_set {d p : Nat} (hend : isEnd d p = true) (s : State) :
    EndSet d p (viewOf s d p).down { (endOf s d p).idle with replay := [] } s (identityFault d p s) := by
  have hreport := event_portFree 0x0825 d 0xFF (linkOf d p) 2 [] s
  have h := (portDown_set hend 0x25 (event 0x0825 d 0xFF (linkOf d p) 2 [] s)).after hreport
  rw [hreport.toView hend, hreport.toEnd] at h
  exact h

/-! ## FRAMING_CHECK_END, TRAINING_READY and SIDEBAND_SILENT -/

theorem exec_framingCheckEnd_passed {s : State} {d p : Nat} (hend : isEnd d p = true) (hs : endState s d p = 1)
    (ht : 8 ≤ (endOf s d p).target) (hsent : (endOf s d p).sent = false) :
    exec (.framingCheckEnd d p true) s = .next (settleReady d p
      (send .mortarReady [linkOf d p, endEpoch s d p, (endOf s d p).target]
        (modEnd d p (fun e => { e with sent := true }) s))) :=
  congrArg Host.Outcome.next ((if_pos ⟨hend, hs, ht, by rw [hsent]; rfl⟩).trans (if_pos rfl))

theorem exec_framingCheckEnd_failed {s : State} {d p : Nat} (hend : isEnd d p = true) (hs : endState s d p = 1)
    (ht : 8 ≤ (endOf s d p).target) (hsent : (endOf s d p).sent = false) :
    exec (.framingCheckEnd d p false) s = .next (if (endOf s d p).attempt = 1
      then secondAttempt d p (lowerWidth (endOf s d p).target) s else portDown d p 0x2A s) :=
  congrArg Host.Outcome.next ((if_pos ⟨hend, hs, ht, by rw [hsent]; rfl⟩).trans (if_neg Bool.false_ne_true))

/-- A failed check that no second attempt can follow brings the port down (R407). -/
theorem exec_framingCheckEnd_down {s : State} {d p : Nat} (hend : isEnd d p = true) (hs : endState s d p = 1)
    (ht : 8 ≤ (endOf s d p).target) (hsent : (endOf s d p).sent = false)
    (hlast : (endOf s d p).attempt ≠ 1 ∨ (endOf s d p).target = 8) :
    exec (.framingCheckEnd d p false) s = .next (portDown d p 0x2A s) := by
  refine (exec_framingCheckEnd_failed hend hs ht hsent).trans (congrArg Host.Outcome.next ?_)
  split
  · next ha =>
    rw [hlast.resolve_left (fun h => h ha)]
    exact secondAttempt_low (by decide) d p s
  · rfl

/-- An end that has sent its READY and has its peer's comes up (R407). -/
theorem settleReady_both {d p : Nat} {s : State} (hsent : (endOf s d p).sent = true) (hgot : (endOf s d p).got = true) :
    settleReady d p s = portUp d p s := if_pos ⟨hsent, hgot⟩

theorem settleReady_waits {d p : Nat} {s : State} (hgot : (endOf s d p).got = false) : settleReady d p s = s :=
  if_neg fun h => by rw [hgot] at h; exact Bool.false_ne_true h.2

/-- An end that comes up after a change that left its registers, its target and the fabric alone. -/
theorem portUp_of_ready {d p : Nat} (hend : isEnd d p = true) {x : PortEnd} {s t : State}
    (h : EndSet d p (viewOf s d p) x s t) (ht : x.target = (endOf s d p).target) (hle : (endOf s d p).target ≤ 20) :
    endState (portUp d p t) d p = 2 ∧ endWidth (portUp d p t) d p = (endOf s d p).target ∧
      endData (portUp d p t) d p = lowLanes (endGood s d p) (endOf s d p).target % 2 ^ 22 ∧
      endEpoch (portUp d p t) d p = endEpoch s d p ∧ (portUp d p t).fab = s.fab := by
  obtain ⟨hview, -, -, hfab, -⟩ := portUp_set hend t
  have hgood : endGood t d p = endGood s d p := congrArg EndView.good h.view
  rw [h.held, ht, h.view, hgood] at hview
  exact ⟨congrArg EndView.state hview, (congrArg EndView.width hview).trans (Nat.mod_eq_of_lt (by omega)),
    congrArg EndView.data hview, congrArg EndView.epoch hview, hfab.trans h.fab⟩

theorem exec_trainingReady_heard {s : State} {d p : Nat} (h : mayTrain s d p = true) (ep w : Nat) :
    exec (.trainingReady d p ep w) s = .next (onSideband d p (ep % 65536) (takeReady d p w) s) :=
  congrArg Host.Outcome.next (if_neg (by rw [h]; decide))

theorem takeReady_matching {d p : Nat} {s : State} (hs : endState s d p = 1) (ht : 8 ≤ (endOf s d p).target) :
    takeReady d p (endOf s d p).target s = settleReady d p (modEnd d p (fun e => { e with got := true }) s) :=
  if_pos ⟨hs, rfl, ht⟩

/-- An end in training that has heard nothing for 1 ms goes down then (R408). -/
theorem exec_sidebandSilent_timeout {s : State} {d p : Nat} (hend : isEnd d p = true) (hs : endState s d p = 1)
    (ht : (endOf s d p).peerTest = false) : exec (.sidebandSilent d p false) s =
      .next (portDown d p 0x28 (passTo ((endOf s d p).heard + 1000000) s)) := by
  change execSidebandSilent d p false s = _
  unfold execSidebandSilent
  rw [if_pos ⟨hend, hs, by rw [ht]; rfl⟩, if_neg Bool.false_ne_true]

theorem exec_sidebandSilent_failed {s : State} {d p : Nat} (hend : isEnd d p = true) (hs : endState s d p = 1)
    (ht : (endOf s d p).peerTest = false) : exec (.sidebandSilent d p true) s = .next (portDown d p 0x28 s) := by
  change execSidebandSilent d p true s = _
  unfold execSidebandSilent
  rw [if_pos ⟨hend, hs, by rw [ht]; rfl⟩, if_pos rfl]

/-! ## MortarPortsTrain -/

/-- Settles O27: each command by what it does to its port end. -/
theorem mortarPortsTrain : Obligations.MortarPortsTrain := by
  unfold Obligations.MortarPortsTrain
  refine ⟨fun s d p h1 h4 h => exec_portRetrain_unreached h1 h4 h, ?retrain, ?framingLoss, ?measured, ?agree, ?adopt,
    ?second, ?comesUp, ?checked, ?foreign, ?ready, ?silent, ?failed⟩
  case retrain =>
    intro s d p hm hr
    obtain ⟨hview, hheld, -, hfab, hclock⟩ := portChange_startTraining_set (mayTrain_isEnd hm) s
    exact ⟨_, exec_portRetrain_trains hm hr, congrArg EndView.state hview,
      (congrArg EndView.epoch hview).trans (nextEpoch_mod s d p), congrArg EndView.width hview,
      congrArg EndView.data hview, congrArg PortEnd.proposal hheld, congrArg PortEnd.attempt hheld, hfab, hclock⟩
  case framingLoss =>
    intro s d p hend hs
    obtain ⟨hview, hheld, -, hfab, hclock⟩ := portChange_startTraining_set hend s
    exact ⟨_, exec_framingLoss_up hend hs, congrArg EndView.state hview,
      (congrArg EndView.epoch hview).trans (nextEpoch_mod s d p), congrArg EndView.width hview,
      (congrArg PortEnd.before hheld).trans (if_neg (by rw [hs]; decide)), hfab, hclock⟩
  case measured =>
    intro s d p good hend hs hown hpeer
    have hview := viewOf_endMeasured d p good s
    exact ⟨_, exec_laneMeasurementComplete_first hend hs hown hpeer, congrArg EndView.good hview,
      congrArg PortEnd.proposal (endOf_endMeasured d p good s), (congrArg EndView.state hview).trans hs, rfl, rfl, rfl⟩
  case agree =>
    intro s d p ep w map mine hm hep hs ha hnone hown hw
    have hheard := endOf_endHeard d p (ep % 65536) s
    have hact := proposalActs_agree (s := endHeard d p (ep % 65536) s) (map := map) (mine := mine)
      (peer := peerOf (strapDie s d) p) hs rfl (by rw [hheard]; exact ha) (by rw [hheard]; exact hnone)
      (by rw [hheard]; exact hown) hw
    refine ⟨_, (exec_trainingProposal_heard hm ..).trans
      (congrArg Host.Outcome.next ((onSideband_same hep).trans hact)), ?_,
        (((OnlyMortar.refl s).modEnd d p _).modEnd d p _).modEnd d p _⟩
    rw [endOf_modEnd_self, endOf_modEnd_self, hheard]
  case adopt =>
    intro s d p ep w map hm hnew hfresh
    have hend := mayTrain_isEnd hm
    have hheard := endHeard_set hend (ep % 65536) s
    have hadopt : adoptEpoch d p (ep % 65536) (endHeard d p (ep % 65536) s) = _ :=
      adoptEpoch_restart (by rw [hheard.held]; exact hfresh) _
    have hset := hheard.trans (beginTraining_set hend (ep % 65536) (endHeard d p (ep % 65536) s))
    rw [← hadopt] at hset
    obtain ⟨hview, hheld, -, hfab, -⟩ := onSideband_adopts (w := w) (map := map) hend hnew hset rfl rfl rfl
      (by rw [hadopt, strapDie_beginTraining])
    exact ⟨_, exec_trainingProposal_heard hm .., congrArg EndView.state hview,
      (congrArg EndView.epoch hview).trans (Nat.mod_mod _ _), congrArg PortEnd.peer hheld,
      congrArg PortEnd.proposal hheld, congrArg PortEnd.attempt hheld, hfab⟩
  case second =>
    intro s d p w map hm hs ha hnew ht
    have hend := mayTrain_isEnd hm
    obtain ⟨ht8, hlow⟩ := lowerWidth_ge ht
    have hheard := endHeard_set hend ((endEpoch s d p + 1) % 65536) s
    have hadopt : adoptEpoch d p ((endEpoch s d p + 1) % 65536) (endHeard d p ((endEpoch s d p + 1) % 65536) s) =
        secondAttempt d p (lowerWidth (endOf s d p).target) (endHeard d p ((endEpoch s d p + 1) % 65536) s) := by
      have h := adoptEpoch_second (s := endHeard d p ((endEpoch s d p + 1) % 65536) s) hs
        (by rw [hheard.held]; exact ha) (by rw [hheard.held]; exact ht8)
      rw [hheard.held] at h
      exact h
    have hset := hheard.trans (secondAttempt_set hend hlow (endHeard d p ((endEpoch s d p + 1) % 65536) s))
    rw [← hadopt] at hset
    obtain ⟨hview, hheld, -, hfab, -⟩ := onSideband_adopts (w := w) (map := map) hend hnew hset hs rfl rfl
      (by rw [hadopt, strapDie_secondAttempt _ _ hlow])
    exact ⟨_, exec_trainingProposal_heard hm .., (congrArg EndView.state hview).trans hs,
      congrArg EndView.epoch hview, congrArg PortEnd.attempt hheld, congrArg PortEnd.want hheld,
      congrArg PortEnd.peer hheld, congrArg PortEnd.proposal hheld, hfab⟩
  case comesUp =>
    intro s d p hend hs ht hle hsent hgot
    have hready := ((EndSet.refl d p s).modEnd hend (fun e => { e with sent := true })).send .mortarReady
      [linkOf d p, endEpoch s d p, (endOf s d p).target]
    obtain ⟨hstate, hwidth, hdata, hepoch, hfab⟩ := portUp_of_ready hend hready rfl hle
    refine ⟨_, (exec_framingCheckEnd_passed hend hs ht hsent).trans (congrArg Host.Outcome.next (settleReady_both ?_ ?_)),
      hstate, hwidth, hdata, hepoch, hfab⟩
    · rw [hready.held]
    · rw [hready.held]; exact hgot
  case checked =>
    intro s d p hend hs ht hsent
    refine ⟨fun hgot => ?_, fun ha hw => ?_, fun hlast => ?_⟩
    · refine (exec_framingCheckEnd_passed hend hs ht hsent).trans (congrArg Host.Outcome.next (settleReady_waits ?_))
      exact (congrArg PortEnd.got (endOf_modEnd_self d p (fun e => { e with sent := true }) s)).trans hgot
    · obtain ⟨hview, hheld, -, hfab, -⟩ := secondAttempt_set hend (lowerWidth_ge hw).2 s
      exact ⟨_, (exec_framingCheckEnd_failed hend hs ht hsent).trans (congrArg Host.Outcome.next (if_pos ha)),
        (congrArg EndView.state hview).trans hs, congrArg EndView.epoch hview, congrArg PortEnd.attempt hheld,
        congrArg PortEnd.want hheld, hfab⟩
    · obtain ⟨hview, -, -, hfab, -⟩ := portDown_set hend 0x2A s
      exact ⟨_, exec_framingCheckEnd_down hend hs ht hsent hlast, congrArg EndView.state hview,
        congrArg EndView.width hview, hfab⟩
  case foreign =>
    intro s d p ep w map pd pp hm hep hs hid hhub
    have hend := mayTrain_isEnd hm
    obtain ⟨hview, -, -, hfab, -⟩ := (endHeard_set hend (ep % 65536) s).trans (identityFault_set hend _)
    exact ⟨_, (exec_trainingProposal_heard hm ..).trans (congrArg Host.Outcome.next ((onSideband_same hep).trans
      ((if_pos hs).trans (takeProposal_foreign hid hhub)))), congrArg EndView.state hview, congrArg EndView.width hview, hfab⟩
  case ready =>
    intro s d p ep hm hs hep ht hle hsent
    have hend := mayTrain_isEnd hm
    have hheard := endHeard_set hend (ep % 65536) s
    have htaken := takeReady_matching (s := endHeard d p (ep % 65536) s) hs (by rw [hheard.held]; exact ht)
    have hready := hheard.modEnd hend (fun e => { e with got := true })
    obtain ⟨hstate, hwidth, -, hepoch, hfab⟩ := portUp_of_ready hend hready rfl hle
    rw [hheard.held] at htaken
    refine ⟨_, (exec_trainingReady_heard hm ..).trans (congrArg Host.Outcome.next ((onSideband_same hep).trans
      (htaken.trans (settleReady_both ?_ ?_)))), hstate, hwidth, hepoch, hfab⟩
    · rw [hready.held]; exact hsent
    · rw [hready.held]
  case silent =>
    intro s d p hend hs htest hnight
    obtain ⟨hview, hheld, -, hfab, hclock⟩ := portDown_set hend 0x28 (passTo ((endOf s d p).heard + 1000000) s)
    exact ⟨_, exec_sidebandSilent_timeout hend hs htest, congrArg EndView.state hview,
      congrArg EndView.width hview, (now_congr hclock).trans (now_passTo _ s hnight), congrArg PortEnd.replay hheld,
      hfab.trans (passTo_fab _ s)⟩
  case failed =>
    intro s d p hend hs htest
    obtain ⟨hview, hheld, -, hfab, hclock⟩ := portDown_set hend 0x28 s
    exact ⟨_, exec_sidebandSilent_failed hend hs htest, congrArg EndView.state hview,
      congrArg EndView.width hview, now_congr hclock, congrArg PortEnd.replay hheld, hfab⟩

end Sys2Proof.Machine
end

section
namespace Sys2Proof.Machine

open Reg

/-! ## FLIT_RECEIVE -/

/-- A flit that has left its sender: what the sender holds, and what it no longer has to send again (R411). -/
def flitLeft (d p : Nat) (f : List Nat) (e : PortEnd) (s : State) : State :=
  resent (peerOf d p).1 f (modEnd (peerOf d p).1 (peerOf d p).2 (fun _ => e) s)

/-- What an end does with a flit that reaches it (R395). -/
def flitMet (d p : Nat) (f : List Nat) (garbled : Bool) (s : State) : State :=
  if garbled ∨ crc32c (slice f 0 252) ≠ fld f 252 4 then
    (if (endOf s d p).discarding ∧ fld f 240 2 ≠ (endOf s d p).rxNext then s else askReplay d p s)
  else if fld f 240 2 ≠ (endOf s d p).rxNext then (if (endOf s d p).discarding then s else askReplay d p s)
  else takeFlit d p f s

theorem exec_flitReceive_sent {s : State} {d p : Nat} {f : List Nat} {e : PortEnd} (hend : isEnd d p = true)
    (hs : endState s d p = 2) (he : flitSent (endOf s (peerOf d p).1 (peerOf d p).2) f = some e)
    (hturn : outOfTurn s (peerOf d p).1 d f = false) (garbled : Bool) (parity badEye : Nat) :
    exec (.flitReceive d p f garbled parity badEye) s =
      .next (judgeLanes d p (fld f 249 3 ^^^ parity) badEye (flitMet d p f garbled (flitLeft d p f e s))) := by
  change execFlitReceive d p f garbled parity badEye s = _
  unfold execFlitReceive
  rw [if_neg (by rw [hend, hs]; decide)]
  dsimp only
  rw [he]
  dsimp only
  rw [if_neg (by rw [hturn]; exact Bool.false_ne_true)]
  rfl

theorem resent_onlyMortar (d : Nat) (f : List Nat) (s : State) : OnlyMortar s (resent d f s) := by
  unfold resent
  split
  · rfl
  · exact .refl s

theorem endOf_resent (d : Nat) (f : List Nat) (s : State) (e q : Nat) : endOf (resent d f s) e q = endOf s e q := by
  unfold resent
  split <;> rfl

theorem flitLeft_onlyMortar (d p : Nat) (f : List Nat) (e : PortEnd) (s : State) : OnlyMortar s (flitLeft d p f e s) :=
  ((OnlyMortar.refl s).modEnd _ _ _).trans (resent_onlyMortar _ f _)

/-- The receiving end is as it was when the flit has left. -/
theorem endOf_flitLeft {d p : Nat} (hend : isEnd d p = true) (f : List Nat) (e : PortEnd) (s : State) :
    endOf (flitLeft d p f e s) d p = endOf s d p :=
  (endOf_resent _ f _ d p).trans (endOf_modEnd_ne (isEnd_peerOf hend) hend (peerOf_ne hend p).symm _ s)

theorem endOf_flitLeft_peer (d p : Nat) (f : List Nat) (e : PortEnd) (s : State) :
    endOf (flitLeft d p f e s) (peerOf d p).1 (peerOf d p).2 = e :=
  (endOf_resent _ f _ _ _).trans (endOf_modEnd_self _ _ _ s)

/-- A change that leaves an end as it is leaves every end as it is. -/
theorem endOf_modEnd_fixed {d p : Nat} {f : PortEnd → PortEnd} {s : State} (h : f (endOf s d p) = endOf s d p) (e q : Nat) :
    endOf (modEnd d p f s) e q = endOf s e q := by
  unfold modEnd endOf at *
  rw [aget_aset _ _ _ _ _ _ (fun _ => rfl), h]
  split
  · next hk => rw [hk]
  · rfl

/-- An end that meets no lane error and has seen none in the last ms judges no lane (R396). -/
theorem judgeLanes_clean {d p : Nat} {s : State} (h : (endOf s d p).parity = []) :
    OnlyMortar s (judgeLanes d p 0 0 s) ∧ ∀ e q, endOf (judgeLanes d p 0 0 s) e q = endOf s e q := by
  have hbit : ∀ l, bit 0 l = false := fun l => by simp [bit]
  have hmiss : (List.range 22).filter (fun l => bit 0 l && bit (endData s d p) l) = [] := by simp [hbit]
  have hkept : judgeLanes d p 0 0 s = modEnd d p (fun e => { e with
      parity := e.parity.filter (fun x => decide (now s < x.2 + 1000000)) ++ [] }) s := by
    unfold judgeLanes
    dsimp only
    rw [hmiss, List.map_nil, List.filter_eq_nil_iff.mpr fun l _ => ?_]
    · rfl
    · rw [endOf_modEnd_self, laneMisses, h, hbit]
      exact Bool.false_ne_true
  rw [hkept]
  refine ⟨rfl, endOf_modEnd_fixed ?_⟩
  rw [h]
  exact congrArg (fun l => { endOf s d p with parity := l }) h.symm

/-- An end that asks for a replay (R395). -/
theorem askReplay_effect (d p : Nat) (s : State) :
    endOf (askReplay d p s) d p = { endOf s d p with discarding := true } ∧
    (askReplay d p s).out = s.out ++ [⟨.mortarReplay, [linkOf d p, (endOf s d p).rxNext]⟩] ∧
    OnlyTraffic s (askReplay d p s) :=
  ⟨endOf_modEnd_self d p (fun e => { e with discarding := true }) s, rfl, rfl⟩

theorem takeFlit_plain {d p : Nat} {f : List Nat} {s : State} (hm : (endOf s d p).moves = [])
    (hk : bits (f.getD 244 0) 2 2 ≠ 2) : takeFlit d p f s =
      modEnd (peerOf d p).1 (peerOf d p).2 (fun e => creditsReturned e f) (modEnd d p (fun e => flitTaken e f) s) := by
  have hmoves : receiveMoves d p s = s := by
    unfold receiveMoves
    dsimp only
    rw [hm]
    rfl
  unfold takeFlit
  dsimp only
  rw [if_neg hk, hmoves]

/-- A flit in order, with a good CRC and no repair due, is taken (R390, R395). -/
theorem flitMet_inOrder {d p : Nat} {f : List Nat} {s : State} (hcrc : crc32c (slice f 0 252) = fld f 252 4)
    (hseq : fld f 240 2 = (endOf s d p).rxNext) : flitMet d p f false s = takeFlit d p f s := by
  unfold flitMet
  rw [if_neg (by simp [hcrc]), if_neg (not_not_intro hseq)]

/-- A garbled flit that does not follow a discarded one asks for a replay (R395). -/
theorem flitMet_garbled {d p : Nat} {f : List Nat} {s : State}
    (h : (endOf s d p).discarding = false ∨ fld f 240 2 = (endOf s d p).rxNext) :
    flitMet d p f true s = askReplay d p s := by
  unfold flitMet
  rw [if_pos (.inl rfl), if_neg]
  rintro ⟨hdiscarding, hseq⟩
  exact h.elim (fun h => by rw [h] at hdiscarding; exact Bool.false_ne_true hdiscarding) hseq

theorem replayFrom_eq (d p n : Nat) (s : State) : replayFrom d p n s =
    { incSat (endField d MTR_REPLAY_COUNT.replays MTR_HUB_REPLAY_COUNT.replays) (endOff d p) 1 s with
      out := s.out ++ ((endOf s d p).replay.filter (fun f => fld f 240 2 == n || newer (fld f 240 2) n)).map
        (fun f => ⟨.mortarReplay, [linkOf d p] ++ f⟩) } := foldl_send _ _ _ _

theorem exec_replayRequest_up {s : State} {d p : Nat} (hend : isEnd d p = true) (hs : endState s d p = 2) (n : Nat) :
    exec (.replayRequest d p n) s = .next (replayFrom d p n s) := congrArg Host.Outcome.next (if_pos ⟨hend, hs⟩)

/-! ## LANE_REPAIR_MESSAGE -/

/-- A repair of the epoch at a sending end (R397). -/
def laneRepaired (d p l r b : Nat) (s : State) : State :=
  incSat (endField d MTR_REPAIR_COUNT.repairs MTR_HUB_REPAIR_COUNT.repairs) (endOff d p) 1
    (if newer (b % 65536) (endOf s d p).txNext then
      modEnd d p (fun e => { e with txMoves := e.txMoves ++ [(b % 65536, l, r)] }) s
    else modEnd d p (fun e => { e with txLanes := setBit (setBit e.txLanes l false) r true }) s)

theorem exec_laneRepairMessage_sending {s : State} {d p ep l r b : Nat} (hend : isEnd d p = true)
    (hs : endState s d p = 2) (hep : ep % 65536 = endEpoch s d p) (hl : bit (endOf s d p).txLanes l = true)
    (hm : (endOf s d p).txMoves = []) (hr : r < 22) :
    exec (.laneRepairMessage d p ep l r b) s = .next (laneRepaired d p l r b (endHeard d p (ep % 65536) s)) := by
  refine congrArg Host.Outcome.next ((if_pos ⟨hend, hs, hr⟩).trans ((onSideband_same hep).trans (if_pos ⟨hs, ?_⟩)))
  rw [endOf_endHeard, hm]
  exact ⟨hl, rfl⟩

/-- The lanes and repairs of a sending end after a repair message (R397). -/
theorem laneRepaired_effect {d p : Nat} {s : State} (hm : (endOf s d p).txMoves = []) (l r b : Nat) :
    (newer (b % 65536) (endOf s d p).txNext = false →
      (endOf (laneRepaired d p l r b s) d p).txLanes = setBit (setBit (endOf s d p).txLanes l false) r true ∧
      (endOf (laneRepaired d p l r b s) d p).txMoves = []) ∧
    (newer (b % 65536) (endOf s d p).txNext = true →
      (endOf (laneRepaired d p l r b s) d p).txLanes = (endOf s d p).txLanes ∧
      (endOf (laneRepaired d p l r b s) d p).txMoves = [(b % 65536, l, r)]) ∧
    laneRepaired d p l r b s = { s with mortar := (laneRepaired d p l r b s).mortar, regs := (laneRepaired d p l r b s).regs } := by
  have hheld : endOf (laneRepaired d p l r b s) d p = endOf (if newer (b % 65536) (endOf s d p).txNext then
      modEnd d p (fun e => { e with txMoves := e.txMoves ++ [(b % 65536, l, r)] }) s
    else modEnd d p (fun e => { e with txLanes := setBit (setBit e.txLanes l false) r true }) s) d p := rfl
  refine ⟨fun h => ?_, fun h => ?_, ?_⟩
  · rw [hheld, if_neg (by rw [h]; exact Bool.false_ne_true), endOf_modEnd_self]
    exact ⟨rfl, hm⟩
  · rw [hheld, if_pos h, endOf_modEnd_self, hm]
    exact ⟨rfl, rfl⟩
  · unfold laneRepaired
    split <;> rfl

end Sys2Proof.Machine
end

section
namespace Sys2Proof.Machine

open Reg

/-! ## A port goes under test -/

/-- The result and the lane errors of a test are not what a port end shows (R428). -/
theorem testStatus_portFree {d p : Nat} (hend : isEnd d p = true) (status done : Nat) (s : State) :
    Quiet portFree s (testStatus d p status done s) :=
  (wr_quiet _ _ _ s (portFree_endField (n := 0) hend (by decide) (Nat.zero_le 20))).trans
    (wr_quiet _ _ _ _ (portFree_endField (n := 0) hend (by decide) (Nat.zero_le 20)))

theorem laneErrors_portFree {d p : Nat} (hend : isEnd d p = true) (f : Nat → Nat → Nat) (s : State) :
    Quiet portFree s (laneErrors d p f s) := by
  refine Quiet.foldlMem (fun x w hw => wr_quiet _ _ _ x (portFree_endField hend (by decide) ?_)) s
  have hbound := List.mem_range.mp hw
  omega

/-- A change of registers alone leaves the fabric, the clocks, memory and the rings. -/
theorem OnlyRegs.keeps {s t : State} (h : OnlyRegs s t) :
    t.fab = s.fab ∧ t.clock = s.clock ∧ t.mem = s.mem ∧ t.rings = s.rings := by
  unfold OnlyRegs at h
  rw [h]
  exact ⟨rfl, rfl, rfl, rfl⟩

theorem testStatus_onlyRegs (d p status done : Nat) (s : State) : OnlyRegs s (testStatus d p status done s) := rfl

theorem laneErrors_onlyRegs (d p : Nat) (f : Nat → Nat → Nat) (s : State) : OnlyRegs s (laneErrors d p f s) :=
  .foldl _ _ (fun _ _ => wr_onlyRegs _ _ _ _) s

/-- From s to t a port has gone under test until an instant, and its peer trains and waits for the end of the test (R421). -/
structure UnderTest (d p due : Nat) (s t : State) : Prop where
  state : endState t d p = 3
  due : (endOf t d p).testEnd = some due
  peerState : endState t (peerOf d p).1 (peerOf d p).2 = 1
  peerTest : (endOf t (peerOf d p).1 (peerOf d p).2).peerTest = true
  others : ∀ e q, isEnd e q = true → (e, q) ≠ (d, p) → (e, q) ≠ ((peerOf d p).1, (peerOf d p).2) → viewOf t e q = viewOf s e q
  fab : t.fab = s.fab
  clock : t.clock = s.clock

/-- How long a test takes, in ns (R421). -/
def testTimeOf (s : State) (d p : Nat) : Nat :=
  com s (endField d MTR_PORT_CTRL.test_ms MTR_HUB_PORT_CTRL.test_ms) (endOff d p) * 1000000

/-- A port end under test until an instant, its lanes' errors cleared (R419, R421). -/
def endTested (d p due : Nat) (s : State) : State :=
  laneErrors d p (fun _ _ => 0) (testStatus d p 0 0 (modEnd d p (fun e => { e.idle with testEnd := some due })
    (resendUnacked d p (wrData d p 0 (wrWidth d p 0 (wrState d p 3 s))))))

theorem endTested_set {d p : Nat} (hend : isEnd d p = true) (due : Nat) (s : State) :
    EndSet d p { viewOf s d p with state := 3, width := 0, data := 0 }
      { (endOf s d p).idle with replay := [], testEnd := some due } s (endTested d p due s) :=
  ((((((EndSet.refl d p s).wrState hend 3).wrWidth hend 0).wrData hend 0).resend hend).modEnd hend
    (fun e => { e.idle with testEnd := some due })).quiet hend
    ((testStatus_portFree hend 0 0 _).trans (laneErrors_portFree hend _ _))

/-- A port end under test, and its peer in training until the test ends (R421). -/
def testBegun (d p due : Nat) (s : State) : State :=
  modEnd (peerOf d p).1 (peerOf d p).2 (fun e => { e with peerTest := true })
    (startTraining (peerOf d p).1 (peerOf d p).2 (endTested d p due s))

theorem startTest_quiet (d p : Nat) (s : State) :
    Quiet portFree (testBegun d p (now s + testTimeOf s d p) s) (startTest d p s) :=
  portChange_portFree (fun x => testBegun d p (now x + testTimeOf s d p) x) s

theorem testBegun_underTest {d p : Nat} (hend : isEnd d p = true) (due : Nat) (s : State) :
    UnderTest d p due s (testBegun d p due s) := by
  have hpeer := isEnd_peerOf hend
  obtain ⟨hview, hheld, hothers, hfab, hclock⟩ := endTested_set hend due s
  obtain ⟨gview, gheld, gothers, gfab, gclock⟩ := (startTraining_set hpeer (endTested d p due s)).modEnd hpeer
    (fun e => { e with peerTest := true })
  obtain ⟨hself, hselfHeld⟩ := gothers d p hend (peerOf_ne hend p).symm
  exact ⟨congrArg EndView.state (hself.trans hview), congrArg PortEnd.testEnd (hselfHeld.trans hheld),
    congrArg EndView.state gview, congrArg PortEnd.peerTest gheld,
    fun e q hq hne hpe => (gothers e q hq hpe).1.trans (hothers e q hq hne).1, gfab.trans hfab, gclock.trans hclock⟩

theorem UnderTest.quiet {d p due : Nat} {s t u : State} (hend : isEnd d p = true) (h : UnderTest d p due s t)
    (g : Quiet portFree t u) : UnderTest d p due s u where
  state := (congrArg EndView.state (g.toView hend)).trans h.state
  due := (congrArg PortEnd.testEnd (g.toEnd d p)).trans h.due
  peerState := (congrArg EndView.state (g.toView (isEnd_peerOf hend))).trans h.peerState
  peerTest := (congrArg PortEnd.peerTest (g.toEnd _ _)).trans h.peerTest
  others := fun e q hq hne hpe => (g.toView hq).trans (h.others e q hq hne hpe)
  fab := g.toFab.trans h.fab
  clock := g.toClock.trans h.clock

theorem startTest_underTest {d p : Nat} (hend : isEnd d p = true) (s : State) :
    UnderTest d p (now s + testTimeOf s d p) s (startTest d p s) :=
  (testBegun_underTest hend _ s).quiet hend (startTest_quiet d p s)

/-- A test of a port leaves the tests of the die's other ports. -/
theorem endState_startTest {d p q : Nat} (hp : isEnd d p = true) (hq : isEnd d q = true) (s : State) :
    endState (startTest d p s) d q = if q = p then 3 else endState s d q := by
  have htest := startTest_underTest hp s
  split
  · next h => rw [h]; exact htest.state
  · next h =>
    exact congrArg EndView.state (htest.others d q hq (fun e => h (congrArg Prod.snd e)) (peerOf_ne hp q).symm)

/-- Tests of some ports of a die, started one after another. -/
theorem foldl_startTest {d : Nat} {l : List Nat} (hl : ∀ p ∈ l, isEnd d p = true) {q : Nat} (hq : isEnd d q = true)
    (s : State) : (q ∈ l ∨ endState s d q = 3 → endState (l.foldl (fun s p => startTest d p s) s) d q = 3) ∧
      (l.foldl (fun s p => startTest d p s) s).fab = s.fab := by
  induction l generalizing s with
  | nil => exact ⟨fun h => h.resolve_left List.not_mem_nil, rfl⟩
  | cons p r ih =>
    have hp := hl p List.mem_cons_self
    obtain ⟨hstate, hfab⟩ := ih (fun x hx => hl x (List.mem_cons_of_mem _ hx)) (startTest d p s)
    refine ⟨fun h => hstate ?_, hfab.trans (startTest_underTest hp s).fab⟩
    rw [endState_startTest hp hq]
    split
    · exact .inr rfl
    · next hne => exact h.imp_left fun hm => (List.mem_cons.mp hm).resolve_left hne

/-! ## MTR_COMMIT and MTR_LOOPBACK_COMMIT -/

/-- Every port end of a die is one. -/
theorem mem_endsOf {d p : Nat} (hd : d ≤ 4) : p ∈ endsOf d ↔ isEnd d p = true := by
  unfold endsOf
  rw [isEnd_iff]
  split <;> simp only [List.mem_cons, List.not_mem_nil, or_false] <;> omega

theorem loopbacks_congr {s t : State} (h : t.regs.staged = s.regs.staged) (d : Nat) : loopbacks t d = loopbacks s d := by
  simp only [loopbacks, endStg, stg, h]

/-- The staged port fields of a die, put in force by its commit (R428). -/
def portFieldsInForce (d : Nat) (s : State) : State :=
  acceptStaged (mtrFields d) (commitAt d (if d = 0 then 0xC0003C else 0x34003C) s)

/-- What an accepted commit of the port fields begins (R420, R421). -/
def testsStarted (d : Nat) (s : State) : State :=
  if standAlone s d then startAlone d (portFieldsInForce d s)
  else (loopbacks s d).foldl (fun s p => startTest d p s) (portFieldsInForce d s)

/-- The ports of a die that stands alone are its three (R420). -/
theorem endsOf_standAlone {s : State} {d : Nat} (h : standAlone s d = true) : endsOf d = [0, 1, 2] := by
  unfold standAlone at h
  simp only [Bool.and_eq_true, decide_eq_true_eq] at h
  exact if_neg (by omega)

/-- Every port of a die in the stand-alone test is under test, and the fabric is as it was (R420). -/
theorem startAlone_tests {d : Nat} (hd : d ≤ 4) (h1 : endsOf d = [0, 1, 2]) (s : State) :
    (∀ p ∈ endsOf d, endState (startAlone d s) d p = 3) ∧ (startAlone d s).fab = s.fab := by
  have hends : ∀ p ∈ [0, 1, 2], isEnd d p = true := fun p hp => (mem_endsOf hd).mp (h1 ▸ hp)
  have hfold := fun {q : Nat} (hq : isEnd d q = true) => foldl_startTest hends hq s
  rw [h1]
  exact ⟨fun p hp => (hfold (hends p hp)).1 (.inl hp), (hfold (hends 0 List.mem_cons_self)).2⟩

/-- Whether every test_ms of a die is in its range (R428). -/
def testMsOk (s : State) (d : Nat) : Prop :=
  ∀ q ∈ endsOf d, 1 ≤ endStg s d q MTR_PORT_CTRL.test_ms MTR_HUB_PORT_CTRL.test_ms ∧
    endStg s d q MTR_PORT_CTRL.test_ms MTR_HUB_PORT_CTRL.test_ms ≤ 10000

theorem loopbacks_portFieldsInForce (s : State) (d : Nat) : loopbacks (portFieldsInForce d s) d = loopbacks s d := by
  obtain ⟨g, hg⟩ := acceptStaged_frame (mtrFields d) (commitAt d (if d = 0 then 0xC0003C else 0x34003C) s)
  refine loopbacks_congr ?_ d
  unfold portFieldsInForce
  rw [hg]
  rfl

/-- A commit whose fields are in range and whose loopbacks isolate no die is accepted (R422, R428). -/
theorem mtrCommit_accepted {s : State} {d v : Nat} (hv : v % 2 = 1) (hd : dieSilent s d = false) (hms : testMsOk s d)
    (hloop : standAlone s d = true ∨ ∀ p ∈ loopbacks s d, loopbackBad s d p = false) :
    mtrCommit d v s = commitDone d (0, 0) (testsStarted d s) := by
  have hbad : (endsOf d).find? (fun p => endStg s d p MTR_PORT_CTRL.test_ms MTR_HUB_PORT_CTRL.test_ms == 0 ||
      decide (10000 < endStg s d p MTR_PORT_CTRL.test_ms MTR_HUB_PORT_CTRL.test_ms)) = none := by
    refine List.find?_eq_none.mpr fun p hp => ?_
    obtain ⟨hlow, hup⟩ := hms p hp
    simp only [Bool.or_eq_true, beq_iff_eq, decide_eq_true_eq]
    omega
  have hfree : (if standAlone s d then none else (loopbacks s d).find? (loopbackBad s d)) = none := by
    rcases hloop with h | h
    · exact if_pos h
    · rw [List.find?_eq_none.mpr fun p hp => by rw [h p hp]; exact Bool.false_ne_true]
      exact ite_self _
  unfold mtrCommit
  dsimp only
  rw [hbad, hfree, commit_accepted hv hd rfl, if_pos hv]
  change loopResult d (loopbacks s d) (commitDone d (0, 0) (if standAlone s d then startAlone d (portFieldsInForce d s)
    else (loopbacks (portFieldsInForce d s) d).foldl (fun s p => startTest d p s) (portFieldsInForce d s))) = _
  rw [loopbacks_portFieldsInForce]
  unfold loopResult
  rw [rd_commitDone_status d (0, 0) _ (by decide)]
  rfl

theorem mtrFields_nodup {d : Nat} (hd : d ≤ 4) : ((mtrFields d).map comKey).Nodup := by
  interval_cases d <;> decide

/-- The fields of an accepted commit are in force (R763). -/
theorem com_portFieldsInForce {d : Nat} (hd : d ≤ 4) {x : Field × Nat} (hx : x ∈ mtrFields d) (s : State) :
    com (portFieldsInForce d s) x.1 x.2 = stg s x.1 x.2 % 2 ^ x.1.width :=
  com_acceptStaged (mtrFields_nodup hd) hx _

theorem portFieldsInForce_onlyRegs (d : Nat) (s : State) : OnlyRegs s (portFieldsInForce d s) :=
  (commitAt_onlyRegs _ _ s).trans (acceptStaged_onlyRegs _ _)

/-- A test takes the time that its commit staged (R421). -/
theorem testTimeOf_portFieldsInForce {s : State} {d p : Nat} (hd : d ≤ 4) (hp : p ∈ endsOf d) (hms : testMsOk s d) :
    testTimeOf (portFieldsInForce d s) d p = endStg s d p MTR_PORT_CTRL.test_ms MTR_HUB_PORT_CTRL.test_ms * 1000000 := by
  have hmem : (endField d MTR_PORT_CTRL.test_ms MTR_HUB_PORT_CTRL.test_ms, endOff d p) ∈ mtrFields d :=
    List.mem_flatMap.mpr ⟨p, hp, List.mem_cons_of_mem _ List.mem_cons_self⟩
  have hwidth : (endField d MTR_PORT_CTRL.test_ms MTR_HUB_PORT_CTRL.test_ms).width = 16 := by
    unfold endField
    split <;> rfl
  unfold testTimeOf
  rw [com_portFieldsInForce hd hmem, hwidth]
  exact congrArg (· * 1000000) (Nat.mod_eq_of_lt (Nat.lt_of_le_of_lt (hms p hp).2 (by decide)))

theorem commitDone_portFree (d : Nat) (r : Refuse) (s : State) : Quiet portFree s (commitDone d r s) := by
  have hfree : ∀ {f : Field}, f.off < 0x1000 → f.lo < 64 → portFree (fkey f (dieBase d)) := fun {f} hoff hlo => by
    refine portFree_of ?_ fun e h4 h1 p hp => ?_
    all_goals
      simp only [fkey, portAt, dieBase]
      omega
  exact ((wr_quiet _ _ _ s (hfree (by decide) (by decide))).trans (wr_quiet _ _ _ _ (hfree (by decide) (by decide)))).trans
    (wr_quiet _ _ _ _ (hfree (by decide) (by decide)))

/-! ## LOOPBACK_TEST_END -/

theorem mem_aput {V : Type} (m : AMap V) (k : Nat) (v : V) : (k, v) ∈ aput m k v := by
  induction m with
  | nil => exact List.mem_cons_self
  | cons e r ih =>
    obtain ⟨a, w⟩ := e
    unfold aput
    split
    · exact List.mem_cons_self
    · split
      · exact List.mem_cons_self
      · exact List.mem_cons_of_mem _ ih

theorem satTo_eq_min (n limit : Nat) : satTo n limit = min n limit := by
  unfold satTo
  split <;> omega

theorem exec_loopbackTestEnd_alone {s : State} {d : Nat} {x : Nat × List Nat} (h1 : 1 ≤ d) (h4 : d ≤ 4)
    (hx : s.mortar.alone.find? (fun e => e.1 == d) = some x) (l : List Nat) :
    exec (.loopbackTestEnd d 3 l) s = .next { s with mortar := { s.mortar with
      alone := aput s.mortar.alone d ((List.range 22).map (fun i => min (x.2.getD i 0 + l.getD i 0) 255)) } } := by
  change execLoopbackTestEnd d 3 l s = _
  unfold execLoopbackTestEnd aloneEnd
  rw [if_pos ⟨h1, h4, rfl⟩, hx]
  simp only [satTo_eq_min]

/-- A port end's peer, no longer held by the test, has heard its link at an instant (R421). -/
def peerReleased (d p t : Nat) (s : State) : State :=
  modEnd (peerOf d p).1 (peerOf d p).2 (fun e => { e with peerTest := false, heard := t }) s

theorem peerReleased_effect {d p : Nat} (hend : isEnd d p = true) (t : Nat) {s u : State} (hquiet : Quiet portFree s u)
    (hregs : OnlyRegs s u) :
    viewOf (peerReleased d p t u) d p = viewOf s d p ∧ endOf (peerReleased d p t u) d p = endOf s d p ∧
    (endOf (peerReleased d p t u) (peerOf d p).1 (peerOf d p).2).peerTest = false ∧
    (peerReleased d p t u).clock = s.clock ∧ (peerReleased d p t u).mem = s.mem ∧
    (peerReleased d p t u).rings = s.rings ∧ (peerReleased d p t u).fab = s.fab := by
  obtain ⟨-, -, hmem, hrings⟩ := hregs.keeps
  exact ⟨(viewOf_congr rfl d p).trans (hquiet.toView hend),
    (endOf_modEnd_ne (isEnd_peerOf hend) hend (peerOf_ne hend p).symm _ u).trans (hquiet.toEnd d p),
    congrArg PortEnd.peerTest (endOf_modEnd_self _ _ _ u), hquiet.toClock, hmem, hrings, hquiet.toFab⟩

/-- A port end whose test has ended by now, its errors added up (R421). -/
def testEnded (d p : Nat) (l : List Nat) (s : State) : State :=
  peerReleased d p (now s) (laneErrors d p (fun i old => old + l.getD i 0) (testStatus d p 0 1 s))

theorem wrEnd_onlyRegs (d p : Nat) (f g : Field) (v : Nat) (s : State) : OnlyRegs s (wrEnd d p f g v s) := wr_onlyRegs _ _ _ _

/-- The start of a training touches neither memory nor rings (R403). -/
theorem beginTraining_keeps (d p epoch : Nat) (s : State) :
    (beginTraining d p epoch s).mem = s.mem ∧ (beginTraining d p epoch s).rings = s.rings := by
  have hregs : OnlyRegs s (wrData d p 0 (wrWidth d p 0 (wrEpoch d p epoch (wrState d p 1 s)))) :=
    (((wrEnd_onlyRegs _ _ _ _ _ _).trans (wrEnd_onlyRegs _ _ _ _ _ _)).trans (wrEnd_onlyRegs _ _ _ _ _ _)).trans
      (wrEnd_onlyRegs _ _ _ _ _ _)
  unfold beginTraining
  obtain ⟨-, -, hmem, hrings⟩ := hregs.keeps
  exact ⟨hmem, hrings⟩

theorem exec_loopbackTestEnd_port {s : State} {d p e : Nat} (hend : isEnd d p = true) (hs : endState s d p = 3)
    (he : (endOf s d p).testEnd = some e) (l : List Nat) :
    exec (.loopbackTestEnd d p l) s = .next (startTraining d p (testEnded d p l (passTo e s))) := by
  have hport : ¬ (1 ≤ d ∧ d ≤ 4 ∧ p = 3) := by
    have := isEnd_iff.mp hend
    omega
  change execLoopbackTestEnd d p l s = _
  unfold execLoopbackTestEnd testEnded peerReleased
  rw [if_neg hport, he]
  dsimp only
  rw [if_pos ⟨hend, hs⟩]

/-- Dial time is not what a port end shows. -/
theorem viewOf_passTo {d p : Nat} (hend : isEnd d p = true) (t : Nat) (s : State) : viewOf (passTo t s) d p = viewOf s d p := by
  refine viewOf_of_live hend fun f a hf => rd_passTo t s fun e => hf (e ▸ portFree_of ?_ fun d h4 h1 p hp => ?_)
  all_goals
    simp only [fkey, NWT_DIAL_NOW.dial_ns, portAt, dieBase]
    omega

theorem nextEpoch_congr {s t : State} {d p : Nat} (hv : viewOf t d p = viewOf s d p) (he : endOf t d p = endOf s d p) :
    nextEpoch t d p = nextEpoch s d p := by
  have hepoch : endEpoch t d p = endEpoch s d p := congrArg EndView.epoch hv
  unfold nextEpoch
  rw [hepoch, he]

/-- The end of a test changes registers that no end shows, and the peer's wait (R421). -/
theorem testEnded_effect {d p : Nat} (hend : isEnd d p = true) (l : List Nat) (s : State) :
    viewOf (testEnded d p l s) d p = viewOf s d p ∧ endOf (testEnded d p l s) d p = endOf s d p ∧
    (endOf (testEnded d p l s) (peerOf d p).1 (peerOf d p).2).peerTest = false ∧
    (testEnded d p l s).clock = s.clock ∧ (testEnded d p l s).mem = s.mem ∧
    (testEnded d p l s).rings = s.rings ∧ (testEnded d p l s).fab = s.fab :=
  peerReleased_effect hend (now s)
    ((testStatus_portFree hend 0 1 s).trans (laneErrors_portFree hend (fun i old => old + l.getD i 0) _))
    ((testStatus_onlyRegs d p 0 1 s).trans (laneErrors_onlyRegs d p (fun i old => old + l.getD i 0) _))

/-! ## MortarFlitsAndTests -/

/-- Only all three loopbacks together make the stand-alone test (R420). -/
theorem standAlone_false {s : State} {d : Nat} (h : (loopbacks s d).length ≠ 3) : standAlone s d = false := by
  unfold standAlone
  rw [beq_eq_false_iff_ne.mpr h, Bool.and_false]

theorem exec_mtrLoopbackCommit_open {s : State} {d : Nat} (hd : d ≤ 4) (hl : loopbacks s d ≠ [])
    (hr : d = 0 ∨ reach s 0 d = true) (v : Nat) : exec (.mtrLoopbackCommit d v) s = .next (mtrCommit d v s) :=
  congrArg Host.Outcome.next ((if_pos ⟨hd, by simpa using hl⟩).trans (ifReached_open hr))

theorem exec_mtrCommit_open {s : State} {d : Nat} (hd : d ≤ 4) (hr : d = 0 ∨ reach s 0 d = true) (v : Nat) :
    exec (.mtrCommit d v) s = .next (mtrCommit d v s) :=
  congrArg Host.Outcome.next ((if_pos hd).trans (ifReached_open hr))

theorem exec_mtrCommit_unreached {s : State} {d : Nat} (h1 : 1 ≤ d) (h4 : d ≤ 4) (hr : reach s 0 d = false) (v : Nat) :
    exec (.mtrCommit d v) s = .next { s with bus := ⟨68, 0x0810, []⟩ } :=
  congrArg Host.Outcome.next ((if_pos h4).trans (ifReached_unreached h1 h4 hr))

/-- Settles O28: each flit, message and commit by what it does to the ends of its link. -/
theorem mortarFlitsAndTests : Obligations.MortarFlitsAndTests := by
  unfold Obligations.MortarFlitsAndTests
  refine ⟨?taken, ?garbled, ?replay, ?repair, ?loopback, ?fields, fun s d v h1 h4 hr => exec_mtrCommit_unreached h1 h4 hr v,
    ?alone, ?unused, ?ended⟩
  case taken =>
    intro s d p f e hend hs hparity he hturn hcrc hseq hmoves hkind
    have hleft := endOf_flitLeft hend f e s
    have hmet : flitMet d p f false (flitLeft d p f e s) = _ := (flitMet_inOrder hcrc (by rw [hleft]; exact hseq)).trans
      (takeFlit_plain (by rw [hleft]; exact hmoves) hkind)
    have hself : endOf (flitMet d p f false (flitLeft d p f e s)) d p = flitTaken (endOf s d p) f := by
      rw [hmet, endOf_modEnd_ne (isEnd_peerOf hend) hend (peerOf_ne hend p).symm, endOf_modEnd_self, hleft]
    have hpeer : endOf (flitMet d p f false (flitLeft d p f e s)) (peerOf d p).1 (peerOf d p).2 = creditsReturned e f := by
      rw [hmet, endOf_modEnd_self, endOf_modEnd_ne hend (isEnd_peerOf hend) (peerOf_ne hend p), endOf_flitLeft_peer]
    have honly : OnlyMortar s (flitMet d p f false (flitLeft d p f e s)) := by
      rw [hmet]
      exact ((flitLeft_onlyMortar d p f e s).modEnd d p _).modEnd _ _ _
    obtain ⟨hjudged, hends⟩ := judgeLanes_clean (s := flitMet d p f false (flitLeft d p f e s)) (d := d) (p := p)
      (by rw [hself]; exact hparity)
    refine ⟨_, (exec_flitReceive_sent hend hs he hturn false _ 0).trans (by rw [Nat.xor_self]), (hends d p).trans hself,
      (hends _ _).trans hpeer, honly.trans hjudged⟩
  case garbled =>
    intro s d p f e hend hs hparity he hturn hdiscard
    have hleft := endOf_flitLeft hend f e s
    have hmet : flitMet d p f true (flitLeft d p f e s) = _ := flitMet_garbled (by rw [hleft]; exact hdiscard)
    obtain ⟨hself, hout, hframe⟩ := askReplay_effect d p (flitLeft d p f e s)
    rw [hleft] at hself hout
    rw [← hmet] at hself hout hframe
    have honly := flitLeft_onlyMortar d p f e s
    obtain ⟨hjudged, hends⟩ := judgeLanes_clean (s := flitMet d p f true (flitLeft d p f e s)) (d := d) (p := p)
      (by rw [hself]; exact hparity)
    refine ⟨_, (exec_flitReceive_sent hend hs he hturn true _ 0).trans (by rw [Nat.xor_self]), (hends d p).trans hself, ?_, ?_⟩
    · exact hjudged.out.trans (hout.trans (congrArg (· ++ _) honly.out))
    · exact (honly.toTraffic.trans hframe).trans hjudged.toTraffic
  case replay =>
    intro s d p n hend hs
    refine ⟨_, exec_replayRequest_up hend hs n, ?_⟩
    rw [replayFrom_eq]
    exact ⟨rfl, rfl, rfl⟩
  case repair =>
    intro s d p ep l r b hend hs hep hl hm hr
    have hheard := endOf_endHeard d p (ep % 65536) s
    obtain ⟨hnow, hlater, hframe⟩ := laneRepaired_effect (s := endHeard d p (ep % 65536) s) (by rw [hheard]; exact hm) l r b
    rw [hheard] at hnow hlater
    refine ⟨_, exec_laneRepairMessage_sending hend hs hep hl hm hr, hnow, hlater,
      ((OnlyMortar.refl s).modEnd d p _).thenRegs hframe⟩
  case loopback =>
    intro s d p v hd hv hsilent hl hbad hr hms
    have hp : p ∈ endsOf d := List.mem_of_mem_filter (p := fun p =>
      endStg s d p MTR_PORT_CTRL.loopback MTR_HUB_PORT_CTRL.loopback == 1) (hl ▸ List.mem_cons_self : p ∈ loopbacks s d)
    have hend := (mem_endsOf hd).mp hp
    have halone : standAlone s d = false := standAlone_false (by simp [hl])
    have hstarted : testsStarted d s = startTest d p (portFieldsInForce d s) := by
      unfold testsStarted
      rw [halone, hl]
      rfl
    obtain ⟨hfab, hclock, -, -⟩ := (portFieldsInForce_onlyRegs d s).keeps
    have htest := (startTest_underTest hend (portFieldsInForce d s)).quiet hend
      (commitDone_portFree d (0, 0) (startTest d p (portFieldsInForce d s)))
    rw [testTimeOf_portFieldsInForce hd hp hms] at htest
    refine ⟨_, (exec_mtrLoopbackCommit_open hd (by rw [hl]; exact List.cons_ne_nil _ _) hr v).trans (congrArg Host.Outcome.next
      ((mtrCommit_accepted hv hsilent hms (.inr (by rw [hl]; simpa using hbad))).trans (by rw [hstarted]))),
      htest.state, htest.peerState, ?_, htest.peerTest, rd_commitDone_status d (0, 0) _ (by decide), ?_, ?_⟩
    · rw [htest.due, now_congr hclock]
    · exact htest.fab.trans hfab
    · exact htest.clock.trans hclock
  case fields =>
    intro s d v hd hv hsilent hl hr hms
    have hstarted : testsStarted d s = portFieldsInForce d s := by
      unfold testsStarted
      rw [standAlone_false (by simp [hl]), hl]
      rfl
    refine ⟨_, (exec_mtrCommit_open hd hr v).trans (congrArg Host.Outcome.next ((mtrCommit_accepted hv hsilent hms
      (.inr (by rw [hl]; simp))).trans (by rw [hstarted]))), fun x hx => ?_, rd_commitDone_status d (0, 0) _ (by decide),
      (portFieldsInForce_onlyRegs d s).trans (commitDone_onlyRegs _ _ _)⟩
    exact (com_commitDone _ _ _ _ _).trans (com_portFieldsInForce hd hx s)
  case alone =>
    intro s d v hd hv hsilent hr halone hms
    have hthree : loopbacks s d ≠ [] := fun h => by
      rw [standAlone_false (by rw [h]; decide)] at halone
      exact Bool.false_ne_true halone
    obtain ⟨htests, hfab⟩ := startAlone_tests hd (endsOf_standAlone halone) (portFieldsInForce d s)
    have hstarted : testsStarted d s = startAlone d (portFieldsInForce d s) := if_pos halone
    have hdone := commitDone_portFree d (0, 0) (testsStarted d s)
    refine ⟨_, (exec_mtrLoopbackCommit_open hd hthree (.inr hr) v).trans (congrArg Host.Outcome.next
      (mtrCommit_accepted hv hsilent hms (.inl halone))), fun p hp => ?_, ?_, rd_commitDone_status d (0, 0) _ (by decide), ?_⟩
    · exact (congrArg EndView.state (hdone.toView ((mem_endsOf hd).mp hp))).trans (hstarted ▸ htests p hp)
    · rw [hdone.toMortar, hstarted]
      exact mem_aput _ _ _
    · rw [hdone.toFab, hstarted]
      exact hfab.trans (portFieldsInForce_onlyRegs d s).keeps.1
  case unused =>
    intro s d x l h1 h4 hx
    exact ⟨_, exec_loopbackTestEnd_alone h1 h4 hx l, mem_aput _ _ _, rfl⟩
  case ended =>
    intro s d p e l hend hs he hnight
    have hpassed := exec_loopbackTestEnd_port hend hs he l
    have hview := viewOf_passTo hend e s
    have hheld := endOf_congr (congrArg MortarState.ends (passTo_mortar e s)) d p
    have hnow := now_passTo e s hnight
    have hmem := passTo_mem e s
    have hrings := passTo_rings e s
    have hfab := passTo_fab e s
    generalize passTo e s = t at hpassed hview hheld hnow hmem hrings hfab
    obtain ⟨eview, eheld, epeer, eclock, emem, erings, efab⟩ := testEnded_effect hend l t
    obtain ⟨gview, gheld, gothers, gfab, gclock⟩ := startTraining_set hend (testEnded d p l t)
    obtain ⟨gmem, grings⟩ := beginTraining_keeps d p (nextEpoch (testEnded d p l t) d p) (testEnded d p l t)
    rw [nextEpoch_congr (eview.trans hview) (eheld.trans hheld)] at gview
    exact ⟨_, hpassed, (now_congr (gclock.trans eclock)).trans hnow,
      congrArg EndView.state gview, (congrArg EndView.epoch gview).trans (nextEpoch_mod s d p),
      congrArg PortEnd.testEnd gheld,
      (congrArg PortEnd.peerTest (gothers _ _ (isEnd_peerOf hend) (peerOf_ne hend p)).2).trans epeer,
      gmem.trans (emem.trans hmem), grings.trans (erings.trans hrings), gfab.trans (efab.trans hfab)⟩

end Sys2Proof.Machine
end
